-- ==== Sys2Proof/Word.lean ====
section
/-! DEFINITION. The word and byte types of the device (R8: registers are 64 bits, little-endian) and the ranges of
its identifiers (R4, R5). -/

namespace Sys2Proof

/-- A register of the device, 64 bits (R8). -/
abbrev Word := BitVec 64

/-- One byte of memory. -/
abbrev Byte := BitVec 8

/-- A tile T0 to T63 (R4). -/
abbrev TileId := Fin 64
/-- A stack S0 to S7 (R4). -/
abbrev StackId := Fin 8
/-- A channel, 32 × stack + local channel (R4). -/
abbrev ChanId := Fin 256
/-- A context C0 to C255 (R4). -/
abbrev CtxId := Fin 256
/-- A partition P0 to P7 (R4). -/
abbrev PartId := Fin 8
/-- A UCIe module M0 to M159 (R5). -/
abbrev ModId := Fin 160
/-- A bundle: 0–7 stacks, 8 and 9 link dies, 10–13 sites (R314). -/
abbrev BundleId := Fin 14
/-- An open site X0 to X3 (R4). -/
abbrev SiteId := Fin 4
/-- A Claush port 0–31 (R369). -/
abbrev PortId := Fin 32
/-- A glue-up pool 0–63 (R292). -/
abbrev PoolId := Fin 64
/-- A DMA engine E0 to E31 (R232). -/
abbrev EngId := Fin 32
/-- A function: 0 is PF0 and n is VF n, which carries context n − 1 (R337). -/
abbrev FnId := Fin 257

end Sys2Proof
end

