-- ==== Sys2Proof/Syntax.lean ====
section
/-! DEFINITION. The commands of the block, one constructor for each row of the table of operations and events, with the
row's operands. -/

namespace Sys2Proof

/-- The agent that issues an access to a register: its mesh router, its agent index, and for the host endpoint the
routing ID of the requesting function (R11). -/
structure Agent where
  router : Fin 104
  index  : Fin 4
  rid    : BitVec 16
  deriving DecidableEq, Repr

/-- What the code of a DRAM granule reports on a read (R205, R207). -/
inductive Ecc where
  | clean | corrected | uncorrectable
  deriving DecidableEq, Repr

/-- What the end-to-end code of a flit reports at its destination (R277). -/
inductive E2e where
  | good | corrected | uncorrectable
  deriving DecidableEq, Repr

/-- A disturbance of an array at a billet's end: the cell of that row and column holds `value` at its drain; row 128 is
the witness row and column 128 the witness column (R26, R42). -/
structure CellFx where
  row   : Fin 129
  col   : Fin 129
  value : BitVec 64
  deriving DecidableEq, Repr

/-- The blocks that the latent-fault walks check (R459). -/
inductive LatentUnit where
  | router (r : Fin 104) | engine (e : EngId) | scheduler (p : PartId) | translation
  deriving DecidableEq, Repr

/-- How a host completion ends its request (R240, R348). -/
inductive HostStatus where
  | ok | unsupported | abort | poisoned
  deriving DecidableEq, Repr

/-- The host word of a context, as a read of its ring words returned it (R146, R147). -/
structure HostWord where
  ctx  : CtxId
  word : Word
  st   : Option HostStatus
  deriving DecidableEq, Repr

/-- A slice tick: the partition, and the host words in host memory that its scheduler reads at it (R147, R174). -/
structure SliceStart where
  part  : PartId
  words : List HostWord
  deriving DecidableEq, Repr

/-- A partly filled flit of a Whittle: the stack, and the router that its granules go to (R195). -/
structure WhFlit where
  stack : StackId
  dst   : Fin 104
  deriving DecidableEq, Repr

/-- An instruction of the vector engine, in one of the three forms of R102. -/
inductive VForm where
  | s (vd vs1 vs2 vs3 : Fin 32) (t mask : Fin 4)
  | i (vd : Fin 32) (t : Fin 4) (mask : Fin 2) (imm : BitVec 16)
  | l (vd vs1 vs2 : Fin 32) (t : Fin 4) (mask : Fin 8) (isrc : Fin 4) (imm : BitVec 32)
  deriving DecidableEq, Repr

/-- A token bucket: byte and granule buckets of a stack and context (R203), the injection bucket of an agent and
context (R266), the request bucket of a site (R326). -/
inductive BucketId where
  | bytes (s : StackId) (c : CtxId) | granules (s : StackId) (c : CtxId)
  | inject (router : Fin 104) (index : Fin 4) (c : CtxId) | site (x : SiteId)
  deriving DecidableEq, Repr

/-- The header of a flit (R257) and its data field; a packet of two flits carries the second one's data behind the first's. -/
structure Flit where
  dst    : Fin 104
  dag    : Fin 4
  src    : Fin 104
  sag    : Fin 4
  hubtx  : Bool
  ctx    : CtxId
  tag    : BitVec 12
  status : Fin 8
  mc     : Bool
  mdir   : Bool
  mmask  : BitVec 8
  boff   : Fin 128
  lenM1  : Fin 128
  addr   : BitVec 40
  data   : List Byte
  deriving DecidableEq, Repr

/-- What reaches a router's port: whether its CRC is good, and over the local port the opcode and the flit that an agent
injects (R257, R274). -/
structure LinkIn where
  ok  : Bool
  inj : Option (Fin 32 × Flit)
  deriving DecidableEq, Repr

/-- One translation of an ATS Translation Completion (R217, R219): the page asked for, the address and size returned,
and the rights. -/
structure Trans where
  page : Nat
  ta   : Nat
  size : Fin 19
  rd   : Bool
  wr   : Bool
  deriving DecidableEq, Repr

/-- The response code of a Page Request Group Response (R228). -/
inductive PrgCode where
  | success | invalidRequest | responseFailure
  deriving DecidableEq, Repr

/-- A field of a function's configuration space that host software writes (R337, R347, R360–R364). -/
inductive CfgField where
  | busMaster | memorySpace | atsEnable | priEnable | priAllocation | atomicOpEnable | msixEnable | msixMask
  | msixAddr (v : Fin 8) | msixData (v : Fin 8) | msixVecMask (v : Fin 8) | bar | pasidEnable | completionTimeout
  | maxPayload | maxReadRequest | powerState
  deriving DecidableEq, Repr

/-- What an IDE_KM message asks (R351): program a key set, start a stream for a range of functions, stop it, or change
to a key set. -/
inductive IdeOp where
  | program (sub : Fin 3) (set : Fin 2) (tx : Bool) (key : List Byte)
  | start (fnBase fnLimit : FnId) (coversBar : Bool)
  | setGo (set : Fin 2)
  | stop
  deriving DecidableEq, Repr

/-- An SPDM request (R359): over DOE or MCTP, inside a session or not, and its body after the request code. -/
structure SpdmReq where
  mctp : Bool
  ses  : Option Nat
  body : List Byte
  deriving DecidableEq, Repr

/-- A role command apart from its CODE, which the row gives (R414): the path, ROLE, SERIAL, CHALLENGE, arguments and
signature pair. -/
structure RoleCmd where
  mctp : Bool
  role : Fin 4
  serial : Word
  chal : List Byte
  args : List Byte
  sig  : List Byte
  deriving DecidableEq, Repr

/-- A request of a site die (R324): the die's tag, address, length, atomic code and width, value or data. -/
structure SiteReq where
  site : SiteId
  tag  : Nat
  addr : BitVec 48
  len  : Nat
  op   : Fin 16
  width : Fin 4
  operand : Word
  compare : Word
  data : List Byte
  malformed : Bool
  deriving DecidableEq, Repr

/-- A Claush frame as it arrives with a good CRC and tag (R376): its header, and its payload in clear. -/
structure FrameIn where
  vc   : Fin 4
  keyset : Fin 2
  seq  : BitVec 32
  ack  : BitVec 32
  sctx : CtxId
  dctx : CtxId
  opid : BitVec 16
  arg  : Word
  data : List Byte
  deriving DecidableEq, Repr

/-- Why an arriving frame is discarded (R377, R380). -/
inductive Discard where
  | sequence | crc | tag | reserved | noKeys
  deriving DecidableEq, Repr

/-- What a detecting agent reports to Tailstock (R457, R461, R473, R474): the code, the source, the contexts reached, the
partition that the source belongs to, and the fields of DETAIL. -/
structure FaultRep where
  code   : BitVec 16
  source : BitVec 16
  ctxs   : List CtxId
  part   : Option PartId
  res    : BitVec 16
  addr   : Word
  extra  : List Byte
  deriving DecidableEq, Repr

/-- The commands. -/
inductive Instr where
  /-- REGISTER_WRITE (R11): A write to a register that has no row of its own performs each field by its access code and writer, and ignores or refuses the rest -/
  | registerWrite (a : Agent) (fn : FnId) (off : Nat) (size : Nat) (v : Word) (tbit : Bool)
  /-- UNSUPPORTED_REQUEST (R342): An I/O request, a host AtomicOp, a request outside the BARs or a misaligned access is answered with Unsupported Request and not performed -/
  | unsupportedRequest (fn : FnId) (posted : Bool)
  /-- POWER_SAMPLE (R496): Every 10 µs the hub samples package and site power and updates its averages -/
  | powerSample (hubW : Nat) (stackW : Nat) (linkW : Nat) (siteW : List Nat)
  /-- BILLET_END (R42): A billet ends: its partial drains into the bank and the witness and pair checks decide the result -/
  | billetEnd (t : TileId) (fx : List CellFx)
  /-- SPLIT_K_PARTIAL_ARRIVAL (R39): A split-K partial reaches its home tile and is added into the block's bank, or waits until the bank is initialised -/
  | splitKPartialArrival (t : TileId) (src : TileId)
  /-- FTQ_ENTRY_FREED (R35): A finished-tile queue entry frees and a stopped final drain resumes -/
  | ftqEntryFreed (t : TileId)
  /-- BLOCK_WRITTEN (R35): The network port finishes writing a block that has no epilogue and frees its queue entry -/
  | blockWritten (t : TileId)
  /-- SELF_TEST_START (R458): Every ROT_PERIOD_MS, Tailstock takes the next tile in service out for its self-test -/
  | selfTestStart
  /-- SELF_TEST_END (R47): A tile's self-test ends: the tile returns to service or retires -/
  | selfTestEnd (t : TileId) (pass : Bool) (row : Fin 129) (col : Fin 129)
  /-- LATENT_CHECK_WALK (R459): A periodic walk checks routers, links, DMA engines, scheduler instances and the translation unit -/
  | latentCheckWalk (u : LatentUnit) (pass : Bool)
  /-- SLICE_TICK (R174): At a slice tick the switch stops dealing, saves the outgoing state, clears the tiles and loads the incoming context -/
  | sliceTick (p : SliceStart)
  /-- SWITCH_WINDOW_END (R175): At WINDOW_US after the switch began, or when late steps finish, the incoming context starts and its host word is read -/
  | switchWindowEnd (p : PartId) (us : Nat) (hw : List HostWord)
  /-- HOST_WORD_POLL (R147): Every POLL_US the scheduler reads the slice holder's host word and fetches new descriptors -/
  | hostWordPoll (p : PartId) (hw : List HostWord)
  /-- DESCRIPTOR_FETCH_RETURN (R148): A run of descriptors returns, and each descriptor is checked and accepted while quota and completion room allow -/
  | descriptorFetchReturn (c : CtxId) (descs : List (List Word))
  /-- OPERATION_START (R159): An eligible operation starts once its resources free -/
  | operationStart (c : CtxId) (seq : Nat)
  /-- OPERATION_COMPLETE (R164): An operation completes: its results become visible, its record is written, its object is signalled and its vector is raised -/
  | operationComplete (c : CtxId) (seq : Nat)
  /-- NOP (R153): A NOP descriptor only waits, fences and signals -/
  | nop (c : CtxId) (seq : Nat)
  /-- MATMUL (R154): A matrix operation is cut into billets and dealt over the partition's tiles -/
  | matmul (c : CtxId) (seq : Nat)
  /-- VECTOR (R155): The epilogue kernel runs over an existing tensor, block by block -/
  | vector (c : CtxId) (seq : Nat)
  /-- TBL_LOAD (R73): A table-pair image is loaded into a slot after the R71 checks -/
  | tblLoad (c : CtxId) (seq : Nat)
  /-- KRN_LOAD (R115): A kernel image is checked and placed in a kernel slot -/
  | krnLoad (c : CtxId) (seq : Nat)
  /-- CRV_LOAD (R127): A curve image is checked and placed in a curve slot -/
  | crvLoad (c : CtxId) (seq : Nat)
  /-- DECISION (R132): The accumulator is merged and tested, and the test may skip the descriptors that follow -/
  | decision (c : CtxId) (seq : Nat)
  /-- COPY (R236): A DMA engine copies LEN bytes from SRC to DST -/
  | copy (c : CtxId) (seq : Nat)
  /-- COPY_2D (R236): A DMA engine copies ROWS rows with strides -/
  | copy2d (c : CtxId) (seq : Nat)
  /-- FILL (R236): A DMA engine fills DST with an 8-byte pattern -/
  | fill (c : CtxId) (seq : Nat)
  /-- ATOMIC (R237): One atomic is performed on device or host memory -/
  | atomic (c : CtxId) (seq : Nat)
  /-- XLT_TOUCH (R238): A host range is translated into the context's translation cache -/
  | xltTouch (c : CtxId) (seq : Nat)
  /-- GATHER (R195): Whittle gathers table rows named by indices into a dense array -/
  | gather (c : CtxId) (seq : Nat)
  /-- SCATTER (R195): Whittle scatters dense rows into table rows -/
  | scatter (c : CtxId) (seq : Nat)
  /-- SCATTER_ADD (R198): Dense rows are added atomically into table rows, in list order -/
  | scatterAdd (c : CtxId) (seq : Nat)
  /-- WHITTLE_FLIT_TIMEOUT (R195): A partly filled Whittle flit leaves when its granules have waited 64 ns -/
  | whittleFlitTimeout (x : WhFlit)
  /-- CTXW_SO_WRITE (R168): A context writes an object counter through its window, which acts as SET -/
  | ctxwSoWrite (c : CtxId) (off : Nat) (size : Nat) (v : Word) (tbit : Bool)
  /-- VXE_NOP (R105): The VXE NOP instruction does nothing -/
  | vxeNop (t : TileId) (f : VForm)
  /-- ADD (R105): Vector add -/
  | add (t : TileId) (f : VForm)
  /-- MUL (R105): Vector multiply -/
  | mul (t : TileId) (f : VForm)
  /-- FMA (R105): Fused multiply-add, rounded once -/
  | fma (t : TileId) (f : VForm)
  /-- MIN (R107): Vector minimum -/
  | min (t : TileId) (f : VForm)
  /-- MAX (R107): Vector maximum -/
  | max (t : TileId) (f : VForm)
  /-- SEL (R105): Select between two sources by mask -/
  | sel (t : TileId) (f : VForm)
  /-- CMPEQ (R105): Compare equal into a mask -/
  | cmpeq (t : TileId) (f : VForm)
  /-- CMPLT (R105): Compare less-than into a mask -/
  | cmplt (t : TileId) (f : VForm)
  /-- CMPLE (R105): Compare less-or-equal into a mask -/
  | cmple (t : TileId) (f : VForm)
  /-- CMPUN (R105): Mask of lanes where either operand is NaN -/
  | cmpun (t : TileId) (f : VForm)
  /-- MAND (R105): Mask AND -/
  | mand (t : TileId) (f : VForm)
  /-- MOR (R105): Mask OR -/
  | mor (t : TileId) (f : VForm)
  /-- MXOR (R105): Mask XOR -/
  | mxor (t : TileId) (f : VForm)
  /-- MNOT (R105): Mask NOT -/
  | mnot (t : TileId) (f : VForm)
  /-- MCNT (R105): Count the set mask bits below VL -/
  | mcnt (t : TileId) (f : VForm)
  /-- CVT (R108): Convert elements between formats -/
  | cvt (t : TileId) (f : VForm)
  /-- PACK4 (R109): Pack 8-bit lanes into 4-bit codes -/
  | pack4 (t : TileId) (f : VForm)
  /-- IOTA (R105): Write each lane's index -/
  | iota (t : TileId) (f : VForm)
  /-- PERM (R110): Permute lanes by index, with range handling -/
  | perm (t : TileId) (f : VForm)
  /-- CURVE (R128): Evaluate a curve table on each lane -/
  | curve (t : TileId) (f : VForm)
  /-- VLD (R118): Load a vector from the bowl and advance the address register -/
  | vld (t : TileId) (f : VForm)
  /-- VST (R118): Store a vector to the bowl and advance the address register -/
  | vst (t : TileId) (f : VForm)
  /-- SETA (R105): Set an address register -/
  | seta (t : TileId) (f : VForm)
  /-- LOOP (R111): Open a counted loop -/
  | loopBody (t : TileId) (f : VForm)
  /-- SETVL (R100): Set width, float kind and vector length -/
  | setvl (t : TileId) (f : VForm)
  /-- FREE (R123): Free the current finished-tile queue entry -/
  | free (t : TileId) (f : VForm)
  /-- WOUT (R122): Begin writing the output block to C, or fault with OUT_RANGE -/
  | wout (t : TileId) (f : VForm)
  /-- WOUT_READ_DONE (R124): The network port has read the WOUT block, and the summaries are released -/
  | woutReadDone (t : TileId)
  /-- SUMM (R129): Post a scalar summary record, held until release -/
  | summ (t : TileId) (f : VForm)
  /-- END (R123): End the invocation, freeing the entry if FREE has not run -/
  | endKernel (t : TileId) (f : VForm)
  /-- KERNEL_INVOCATION (R121): The VXE invokes the kernel on a drained finished-tile queue entry -/
  | kernelInvocation (t : TileId)
  /-- KERNEL_LONG (R125): An invocation reaching 2^24 cycles faults -/
  | kernelLong (t : TileId)
  /-- SUMMARY_RECORD (R130): A Mandrel folds an arriving summary record into its accumulator -/
  | summaryRecord (t : TileId)
  /-- THERMAL_SAMPLE (R212): Every 10 µs a base die acts on its highest temperature reading -/
  | thermalSample (s : StackId) (temp : BitVec 8)
  /-- PATROL_SCRUB_READ (R208): The patrol scrubber reads and corrects the next granule at its fixed rate -/
  | patrolScrubRead (ch : ChanId) (ecc : Ecc)
  /-- ROW_REMAP_COPY_DONE (R209): A remap copy ends, and the held accesses proceed on the spare row -/
  | rowRemapCopyDone (ch : ChanId) (row : Nat)
  /-- CHANNEL_CLEAR_DONE (R187): A channel clear ends and sets the CLEAN mark, and the context start or end may then proceed -/
  | channelClearDone (ch : ChanId)
  /-- BUCKET_TOKENS_READY (R203): A request waiting on a byte, granule or injection bucket proceeds once tokens suffice -/
  | bucketTokensReady (b : BucketId) (n : Nat)
  /-- RD (R258): A read request arrives at its destination agent, passes the ownership check and is served -/
  | rd (h : Flit) (e : E2e) (ecc : Ecc)
  /-- WR (R258): A write request is served at its destination -/
  | wr (h : Flit) (e : E2e)
  /-- ATOM (R202): An atomic request is performed indivisibly in the owning cache slice -/
  | atom (h : Flit) (e : E2e) (ecc : Ecc)
  /-- RD_MC (R262): A multicast read is served, and its response is replicated to the set -/
  | rdMc (h : Flit) (e : E2e) (ecc : Ecc)
  /-- HRD (R258): A host read request reaches the host endpoint -/
  | hrd (h : Flit) (e : E2e)
  /-- HWR (R258): A host write request reaches the host endpoint -/
  | hwr (h : Flit) (e : E2e)
  /-- HATOM (R258): A host AtomicOp request reaches the host endpoint -/
  | hatom (h : Flit) (e : E2e)
  /-- RSP_DATA (R258): Read or atomic data reaches the requester -/
  | rspData (h : Flit) (e : E2e)
  /-- RSP_ACK (R258): A write acknowledgement reaches the requester -/
  | rspAck (h : Flit) (e : E2e)
  /-- RSP_ERR (R259): An error response reaches the requester and fails its operation -/
  | rspErr (h : Flit) (e : E2e)
  /-- RSP_MC (R262): A multicast copy lands at a tile's operand ring -/
  | rspMc (h : Flit) (e : E2e)
  /-- CTL (R265): A control message reaches its sink -/
  | ctl (h : Flit) (ack : Bool)
  /-- CTL_ACK (R258): A control acknowledgement reaches its source -/
  | ctlAck (h : Flit)
  /-- LINK_FLIT_ARRIVAL (R274): A router receives a flit, and a CRC failure makes it request a replay -/
  | linkFlitArrival (router : Fin 104) (port : Fin 6) (plane : Fin 4) (vn : Fin 3) (x : LinkIn)
  /-- PROXY_RELEASE (R272): The proxy sink is released once the endpoint is ready and no response remains due to it -/
  | proxyRelease (p : PartId)
  /-- TRANSLATION_COMPLETION (R225): An ATS Translation Completion fills held or cache entries, or is discarded when stale -/
  | translationCompletion (id : Nat) (res : List Trans)
  /-- INVALIDATE_REQUEST (R224): An ATS invalidation raises GEN, records the stale range and stops requesters -/
  | invalidateRequest (fn : FnId) (tag : Nat) (pasid : Option (BitVec 20)) (lo : Nat) (hi : Nat) (glob : Bool)
  /-- INVALIDATE_COMPLETION (R224): An Invalidate Completion is sent once the old-generation reads have drained -/
  | invalidateCompletion (c : CtxId) (tag : Nat)
  /-- PRG_RESPONSE (R228): A Page Request Group Response is applied: translate again, refuse, or stop PRI -/
  | prgResponse (fn : FnId) (idx : Nat) (code : PrgCode)
  /-- PAGE_REQUEST_TIMEOUT (R229): A page request unanswered for 1 s ends its waiting contexts -/
  | pageRequestTimeout (entry : Fin 256)
  /-- HOST_COMPLETION (R241): A host read or atomic completion arrives, is written or discarded, and fails its operation on UR or CA -/
  | hostCompletion (id : Nat) (st : HostStatus) (data : List Byte)
  /-- COMPLETION_TIMEOUT (R347): A non-posted request reaches its completion timeout -/
  | completionTimeout (id : Nat)
  /-- CTX_START (R283): The operator command starts a context from OFF into CLEARING -/
  | ctxStart (cmd : RoleCmd)
  /-- CTX_STOP (R280): The operator command ends a context, with CTX_STOP pending -/
  | ctxStop (cmd : RoleCmd)
  /-- CTXW_CTL_LOCK (R282): A non-confidential context is locked through CTXW_CTL.LOCK after the R281 checks -/
  | ctxwCtlLock (c : CtxId) (v : Word) (size : Nat) (tbit : Bool)
  /-- CTXW_CTL_START (R282): A non-confidential context moves from LOCKED to RUN through CTXW_CTL.START -/
  | ctxwCtlStart (c : CtxId) (v : Word) (size : Nat) (tbit : Bool)
  /-- LOCK_INTERFACE_REQUEST (R356): The TDISP lock moves the context from READY to LOCKED after its checks -/
  | lockInterfaceRequest (ses : Nat) (c : CtxId) (stream : Fin 256) (flags : BitVec 16)
  /-- START_INTERFACE_REQUEST (R280): The TDISP start moves the context from LOCKED to RUN -/
  | startInterfaceRequest (ses : Nat) (c : CtxId) (nonce : List Byte)
  /-- STOP_INTERFACE_REQUEST (R280): The TDISP stop ends the context -/
  | stopInterfaceRequest (ses : Nat) (c : CtxId)
  /-- GET_TDISP_VERSION (R355): Returns the TDISP version -/
  | getTdispVersion (ses : Nat) (c : CtxId)
  /-- GET_TDISP_CAPABILITIES (R355): Returns the TDISP capabilities -/
  | getTdispCapabilities (ses : Nat) (c : CtxId)
  /-- GET_DEVICE_INTERFACE_REPORT (R357): Returns the interface report of a VF -/
  | getDeviceInterfaceReport (ses : Nat) (c : CtxId) (off : Nat) (len : Nat)
  /-- GET_DEVICE_INTERFACE_STATE (R355): Returns the TDI state of a VF -/
  | getDeviceInterfaceState (ses : Nat) (c : CtxId)
  /-- FUNCTION_LEVEL_RESET (R365): An FLR of a VF ends its context and resets the VF, and an FLR of PF0 clears VF Enable -/
  | functionLevelReset (fn : FnId)
  /-- VF_ENABLE_CHANGE (R338): Clearing VF Enable or lowering NumVFs acts as an FLR on each VF removed -/
  | vfEnableChange (en : Bool) (num : Fin 257)
  /-- LOCKED_CONFIG_CHANGE (R356): Clearing an enable or changing the BAR of a locked TDI faults the context with TDISP_ERROR -/
  | lockedConfigChange (c : CtxId) (what : CfgField) (v : Nat)
  /-- PRI_RESET (R361): The PRI Reset control clears a VF's stopped condition -/
  | priReset (fn : FnId)
  /-- MSIX_UNMASK (R363): Clearing a vector or function mask sends one message for a pending vector -/
  | msixUnmask (fn : FnId) (vec : Option (Fin 8))
  /-- MALFORMED_TLP (R348): A malformed TLP is dropped and reported -/
  | malformedTlp (fn : FnId)
  /-- POISONED_TLP (R349): A poisoned request or completion is dropped and may end a context -/
  | poisonedTlp (fn : FnId) (req : Option Nat)
  /-- UNEXPECTED_COMPLETION (R348): A completion with an unknown tag is dropped and reported -/
  | unexpectedCompletion (fn : FnId)
  /-- IDE_CHECK_FAILED (R353): An IDE failure makes the stream Insecure and faults its context -/
  | ideCheckFailed (st : Fin 256)
  /-- IDE_KM (R351): An IDE_KM message programs or changes a stream's keys inside an SPDM session -/
  | ideKm (ses : Nat) (st : Fin 256) (op : IdeOp)
  /-- DOE_OBJECT (R358): A DOE object is received and handed to Heartwood -/
  | doeObject (len : Nat) (typ : Nat) (data : List Byte)
  /-- DOE_ABORT (R358): DOE Abort discards the mailbox contents -/
  | doeAbort
  /-- GET_VERSION (R359): SPDM GET_VERSION -/
  | getVersion (r : SpdmReq)
  /-- GET_CAPABILITIES (R359): SPDM GET_CAPABILITIES -/
  | getCapabilities (r : SpdmReq)
  /-- NEGOTIATE_ALGORITHMS (R359): SPDM NEGOTIATE_ALGORITHMS -/
  | negotiateAlgorithms (r : SpdmReq)
  /-- GET_DIGESTS (R359): SPDM GET_DIGESTS -/
  | getDigests (r : SpdmReq)
  /-- GET_CERTIFICATE (R408): SPDM GET_CERTIFICATE returns a certificate slot -/
  | getCertificate (r : SpdmReq)
  /-- CHALLENGE (R359): SPDM CHALLENGE, signed with both halves of the pair -/
  | challenge (r : SpdmReq)
  /-- GET_MEASUREMENTS (R435): SPDM GET_MEASUREMENTS returns the measurement blocks, including the Askord report -/
  | getMeasurements (r : SpdmReq)
  /-- KEY_EXCHANGE (R359): SPDM KEY_EXCHANGE opens a session -/
  | keyExchange (r : SpdmReq)
  /-- HEARTBEAT (R359): SPDM HEARTBEAT in a session -/
  | heartbeat (r : SpdmReq)
  /-- KEY_UPDATE (R359): SPDM KEY_UPDATE in a session -/
  | keyUpdate (r : SpdmReq)
  /-- HOST_LINK_DOWN (R366): The host link goes down: the endpoint resets, streams are erased and locked contexts end -/
  | hostLinkDown
  /-- PERST_ASSERT (R366): PERST# asserted resets the endpoint logic as a link-down -/
  | perstAssert
  /-- PERST_DEASSERT (R367): PERST# deasserted trains the link and is a wake event -/
  | perstDeassert
  /-- GU_CONTRIBUTE (R296): A member's contribution for a round is copied into its slot, or refused -/
  | guContribute (c : CtxId) (seq : Nat)
  /-- GU_RECEIVE (R298): An output asks for a round's result, which is written now, later, or refused -/
  | guReceive (c : CtxId) (seq : Nat)
  /-- SLOT_SEAL (R297): A contribution copy ends, the slot seals and the seal object is signalled -/
  | slotSeal (p : PoolId) (c : CtxId)
  /-- ROUND_DEADLINE (R300): The round deadline passes: the round closes with K seals or fails -/
  | roundDeadline (p : PoolId)
  /-- ROUND_RELEASE (R301): The clipped, noised sum is written to the result region and the waiting receives -/
  | roundRelease (p : PoolId)
  /-- SLOT_SCRUB_END (R294): A slot's scrub ends, and the slot is EMPTY -/
  | slotScrubEnd (p : PoolId) (slot : Fin 256)
  /-- RESULT_REGION_SCRUB_END (R300): The result region scrub ends, and the pool goes from HELD to IDLE -/
  | resultRegionScrubEnd (p : PoolId)
  /-- LEAF_PARTIAL_DEADLINE (R308): A leaf partial missing DEADLINE_NS after CLOSE is left out, or the round fails -/
  | leafPartialDeadline (p : PoolId) (node : Nat)
  /-- MODULE_LINK_UP (R316): A UCIe module reaches link-up, and roll call begins on the die's first module -/
  | moduleLinkUp (m : ModId)
  /-- MODULE_TRAINING_TIMEOUT (R316): A module without link-up within 5 ms or 100 ms retrains in full or goes Off -/
  | moduleTrainingTimeout (m : ModId)
  /-- MODULE_TRAINING_RETRY (R333): Every 10 ms the modules of a down die try training again -/
  | moduleTrainingRetry (b : BundleId)
  /-- RC_IDENT (R319): A die's identity record is checked, and the die proceeds to roles or is fenced -/
  | rcIdent (b : BundleId) (rec : List Byte)
  /-- RC_ROLES_ACK (R320): A roles acknowledgement admits the die with RC_ADMIT, or fences it -/
  | rcRolesAck (b : BundleId) (roles : BitVec 32)
  /-- ROLLCALL_TIMEOUT (R322): A die that does not answer RC_QUERY or RC_ROLES within 1 ms is fenced -/
  | rollcallTimeout (b : BundleId)
  /-- RC_SPDM (R329): An SPDM fragment from a site die advances its attestation -/
  | rcSpdm (b : BundleId) (seq : Nat) (last : Bool) (frag : List Byte)
  /-- RC_HEALTH (R322): A die reports a fault, and a fatal one fences it with DIE_FAULT -/
  | rcHealth (b : BundleId) (code : BitVec 8)
  /-- RESERVED_SIDEBAND_MESSAGE (R317): A reserved roll-call message is dropped and counted -/
  | reservedSidebandMessage (m : ModId) (code : BitVec 8)
  /-- ATTEST_TIMEOUT (R330): Site attestation not done within 250 ms fails and leaves the site OPEN -/
  | attestTimeout (x : SiteId)
  /-- SITE_RD (R324): A site die read is checked against the windows and mapped to the owner -/
  | siteRd (q : SiteReq) (ecc : Ecc)
  /-- SITE_WR (R324): A site die write is checked and mapped -/
  | siteWr (q : SiteReq)
  /-- SITE_ATOM (R324): A site die atomic is checked and mapped -/
  | siteAtom (q : SiteReq)
  /-- SIGNAL (R324): A site die adds a value to the window's notify object -/
  | siteSignal (q : SiteReq)
  /-- LANE_FAILED (R331): A failed lane is repaired, the module degraded or turned Off, or the bundle lost -/
  | laneFailed (m : ModId) (lane : Fin 66) (rx : Bool)
  /-- DIE_LINK_DOWN (R333): Half a bundle's modules lose link together, and the die is fenced LINK_DOWN -/
  | dieLinkDown (b : BundleId)
  /-- PORT_LINK_UP (R373): A Claush port's lanes train and the port proceeds to test and key agreement -/
  | portLinkUp (q : PortId) (pass : Bool)
  /-- PORT_RETRY (R373): Every 100 ms a down port repeats its bring-up -/
  | portRetry (q : PortId)
  /-- PORT_SIGNAL_LOSS (R395): Loss of signal or lock takes a port down and moves its frames to the trunk -/
  | portSignalLoss (q : PortId)
  /-- NAK (R380): A NAK makes the sender replay from the expected SEQ -/
  | nakFrame (q : PortId) (h : FrameIn)
  /-- CREDIT (R378): A CREDIT frame returns VC credits -/
  | creditReturn (q : PortId) (h : FrameIn)
  /-- ACK_TIMEOUT (R380): No ACK progress for 20 µs causes a replay, and for 100 µs takes the port down -/
  | ackTimeout (q : PortId)
  /-- PUT_DATA (R383): A remote write is checked against the window and performed -/
  | putData (q : PortId) (h : FrameIn)
  /-- GET_REQ (R383): A remote read is checked and answered with GET_DATA -/
  | getReq (q : PortId) (h : FrameIn)
  /-- GET_DATA (R382): Read data is written locally -/
  | getData (q : PortId) (h : FrameIn)
  /-- PUT_ACK (R382): Bytes confirmed visible advance a CL_PUT -/
  | putAck (q : PortId) (h : FrameIn)
  /-- FRAME_RSP_ERR (R383): A refused remote request ends its operation -/
  | frameRspErr (q : PortId) (h : FrameIn)
  /-- COLL_READY (R386): A peer declares its DST ready, enabling sends, or a mismatch ends the collective -/
  | collReady (q : PortId) (h : FrameIn)
  /-- COLL_DATA (R386): Collective data is combined into DST or written -/
  | collData (q : PortId) (h : FrameIn)
  /-- GU_SEAL (R388): A leaf's seal report reaches the root -/
  | guSeal (q : PortId) (h : FrameIn)
  /-- GU_CLOSE (R308): The root's CLOSE makes a leaf send its partial and scrub its slots -/
  | guClose (q : PortId) (h : FrameIn)
  /-- GU_PARTIAL (R308): A leaf partial reaches the root and is added -/
  | guPartial (q : PortId) (h : FrameIn)
  /-- GU_RESULT (R308): The root's result reaches a leaf for its outputs -/
  | guResult (q : PortId) (h : FrameIn)
  /-- GU_FAIL (R388): A round failure reaches a leaf -/
  | guFail (q : PortId) (h : FrameIn)
  /-- TIME (R390): A TIME frame updates alignment and carries the late and abort keys -/
  | timeFrame (q : PortId) (h : FrameIn)
  /-- KEY (R374): A KEY frame advances the key agreement of a port -/
  | keyFrame (q : PortId) (h : FrameIn)
  /-- TIME_TRANSMIT (R389): Every 1 µs an up port sends a TIME frame -/
  | timeTransmit (q : PortId)
  /-- CLAUSH_REKEY (R374): After 2^36 frames or 600 s a fresh key set is agreed -/
  | claushRekey (q : PortId)
  /-- COLLECTIVE_TIMEOUT (R387): A collective reaches TIMEOUT_MS, ends with CL_TIMEOUT and sends aborts -/
  | collectiveTimeout (c : CtxId) (seq : Nat)
  /-- CL_PUT (R382): Write bytes to a remote window -/
  | clPut (c : CtxId) (seq : Nat)
  /-- CL_GET (R382): Read bytes from a remote window -/
  | clGet (c : CtxId) (seq : Nat)
  /-- CL_GRANT (R381): Grant or revoke a remote window -/
  | clGrant (c : CtxId) (seq : Nat)
  /-- ALL_REDUCE (R386): Reduce a vector over the group and give every member the result -/
  | allReduce (c : CtxId) (seq : Nat)
  /-- REDUCE_SCATTER (R386): Reduce and give each member its segment -/
  | reduceScatter (c : CtxId) (seq : Nat)
  /-- ALL_GATHER (R386): Gather every member's SRC -/
  | allGather (c : CtxId) (seq : Nat)
  /-- BROADCAST (R386): Send the root's SRC to every member -/
  | broadcast (c : CtxId) (seq : Nat)
  /-- MBX_POLL (R413): Every 50 µs Heartwood reads MBX_CMD_TAIL and takes the next command -/
  | mbxPoll
  /-- MCTP_MESSAGE (R419): A command or SPDM message arrives over MCTP -/
  | mctpMessage (bytes : List Byte)
  /-- GET_CHALLENGE (R415): Return a fresh challenge or the debug challenge -/
  | getChallenge (cmd : RoleCmd)
  /-- GET_IDENTITY (R410): Return serial, state and key identities -/
  | getIdentity (cmd : RoleCmd)
  /-- GET_CERTS (R410): Return a slot's chain and companion -/
  | getCerts (cmd : RoleCmd)
  /-- LC_ADVANCE (R442): Advance the life-cycle state by programming the OTP copies -/
  | lcAdvance (cmd : RoleCmd)
  /-- LC_RESUME (R448): Program a Locked device's copies to the target and reset it -/
  | lcResume (cmd : RoleCmd)
  /-- DEBUG_ENABLE (R437): End contexts, take ports down, clear channels, rederive the alias pair and open debug -/
  | debugEnable (cmd : RoleCmd)
  /-- END_OF_LIFE (R450): Scrap the device and wipe its secrets -/
  | endOfLife (cmd : RoleCmd)
  /-- CLAIM (R421): Fuse a new installer under a maker ticket -/
  | claim (cmd : RoleCmd)
  /-- RELEASE (R422): The current installer releases the device -/
  | releaseDevice (cmd : RoleCmd)
  /-- STAGE_BEGIN (R423): Open a staging session for the other bank -/
  | stageBegin (cmd : RoleCmd)
  /-- STAGE_WRITE (R423): Write image data into the staged bank -/
  | stageWrite (cmd : RoleCmd)
  /-- STAGE_COMMIT (R424): Check the staged image and mark it for trial boot -/
  | stageCommit (cmd : RoleCmd)
  /-- STAGE_ABORT (R425): Abort staging and return the refusal record -/
  | stageAbort (cmd : RoleCmd)
  /-- STAGING_TIMEOUT (R423): A staging session idle for 600 s ends -/
  | stagingTimeout
  /-- SVN_COMMIT (R426): Raise the rollback floor to the running SVN -/
  | svnCommit (cmd : RoleCmd)
  /-- OPERATOR_ENROL (R412): Enrol an operator key at an index -/
  | operatorEnrol (cmd : RoleCmd)
  /-- OPERATOR_REVOKE (R412): Remove an operator index and raise the epoch -/
  | operatorRevoke (cmd : RoleCmd)
  /-- POWER_STATE (R495): Operator command to move the power ladder or set RUN_W -/
  | powerState (cmd : RoleCmd)
  /-- BBX_READ (R478): Return black-box records from FROM_SEQ -/
  | bbxRead (cmd : RoleCmd)
  /-- ATTEST_REPORT (R435): Take and sign an Askord report on a subject -/
  | attestReport (cmd : RoleCmd)
  /-- CHALLENGE_EXPIRY (R415): A challenge older than 60 s lapses -/
  | challengeExpiry
  /-- ALIAS_DERIVED (R409): The alias pair derivation ends and the alias certificate is issued -/
  | aliasDerived
  /-- FAULT_REPORT (R461): Tailstock receives a detected fault, classes it by policy and starts its action -/
  | faultReport (f : FaultRep)
  /-- PARTITION_REJOIN (R467): After firmware reload and self-test the partition rejoins and slices resume -/
  | partitionRejoin (p : PartId) (failed : List TileId) (holdOk : Bool)
  /-- TLS_SELFCHECK (R460): A missing Tailstock heartbeat for 20 µs makes Heartwood reset the device -/
  | tlsSelfcheck
  /-- MGT_WATCHDOG (R455): The 10 ms management-core watchdog expires and the core restarts -/
  | mgtWatchdog
  /-- CLK_FAIL (R501): A clock stops or departs from its frequency and the monitor raises CLK_FAIL -/
  | clkFail (clk : Fin 6) (err : BitVec 8)
  /-- VDD_UNDER (R539): A rail falls below its window -/
  | vddUnder (d : Fin 20)
  /-- VDD_OVER (R539): A rail rises above its window -/
  | vddOver (d : Fin 20)
  /-- PG_FALL (R541): A power-good input falls while its group is enabled -/
  | pgFall (g : Fin 7)
  /-- HUB_OVERTEMP (R544): The hub junction reaches its shutdown limit -/
  | hubOvertemp
  /-- ENTROPY_FAIL (R463): The entropy source fails its health test -/
  | entropyFail
  /-- BBX_RECORD_COMMIT (R471): The black-box writer commits the next queued record -/
  | bbxRecordCommit (nvmOk : Bool)
  /-- BBX_SCAN_DONE (R477): The scan of all slots ends, fixing the next SEQ, the pins and BOOT -/
  | bbxScanDone
  /-- BBX_SEL (R478): A write of a slot number starts a slot read -/
  | bbxSel (slot : Fin 32768)
  /-- BBX_SLOT_READ_DONE (R478): The selected slot lands in BBX_DATA, and READY sets -/
  | bbxSlotReadDone
  /-- PWR_CMD (R495): A host write with GO starts a move to the target when HOST_CMD is set -/
  | pwrCmd (v : Word)
  /-- NEGOTIATION_TIMEOUT (R486): A block that has not agreed within 1 ms refuses the entry -/
  | negotiationTimeout (agreed : List Nat)
  /-- POWER_MOVE_END (R484): A ladder move ends and the last waiting command is carried out -/
  | powerMoveEnd
  /-- POWER_CONTROL_CHECK (R498): Every 100 µs the controller adjusts DUTY and MSTEP to RUN_W -/
  | powerControlCheck (stackW : Nat) (arrayW : Nat)
  /-- PWR_PAD_RELEASE (R492): Firmware releases the latched pads during exit -/
  | pwrPadRelease (a : Agent) (v : Word)
  /-- WAKE_IN (R489): The wake input starts an exit to L0 Run -/
  | wakeIn
  /-- MGMT_BUS_ADDRESS_MATCH (R491): An address match on the management bus wakes the device -/
  | mgmtBusAddressMatch
  /-- SPN_ALARM (R505): Spindle reaches the alarm time, FIRED sets and a wake event is raised -/
  | spnAlarm
  /-- PD0_BROWN_OUT (R493): PD0 browns out, loses its state and the device boots cold -/
  | pd0BrownOut
  /-- SAVED_SETTINGS_WRITE (R524): Heartwood rewrites the older saved-settings copy after a change -/
  | savedSettingsWrite (torn : Bool)
  /-- COLD_RESET (R527): The rise of COLD_RST_N starts bring-up: decode, choose the image, train, test and load -/
  | coldReset
  /-- DEVICE_READY (R531): Bring-up ends: the configuration locks, and ready or refusal is reported -/
  | deviceReady
  /-- POWER_LOSS (R542): Loss of supply tears any write in progress and loses unsaved state -/
  | powerLoss
  /-- DISCARDED_FRAME (R380): A Claush frame that fails its CRC or tag, arrives out of SEQ order, or carries a reserved TYPE is discarded and counted, a NAK is sent for the expected SEQ, and repeated tag failures take the port down -/
  | discardedFrame (q : PortId) (why : Discard)
  /-- REGISTER_READ (R342): A host read of a BAR register is ordered behind earlier writes, is answered with Completer Abort on an uncorrectable register error, and below L0 Run is a wake event unless it targets a block served without a wake -/
  | registerRead (a : Agent) (fn : FnId) (off : Nat) (size : Nat) (tbit : Bool) (ecc : Ecc)
  /-- CONFIGURATION_WRITE (R227): Host software writes a function's configuration space, setting Bus Master, Memory Space, ATS, PRI and PASID enables, the Outstanding Page Request Allocation and the completion-timeout value -/
  | configurationWrite (fn : FnId) (what : CfgField) (v : Nat)
  /-- HOST_LINK_UP (R366): The host link comes back up, LINK_UP sets, VF Enable reads clear, and contexts may return as R280 allows -/
  | hostLinkUp (speed : Fin 16) (width : Fin 32) (flit : Bool)
  /-- LINK_L1_EXIT (R491): The host link exits L1 or L1.2, which is a wake event of code 0x2 and, in L4 Shelf, powers PD3 before the link reaches L0 -/
  | linkL1Exit
  /-- COLD_RST_N_FALL (R536): COLD_RST_N going low resets every domain, PD0 included, tearing any black-box write in progress and losing queued records, except during a safe stop, when it is ignored -/
  | coldRstNFall
  /-- PG_RISE (R541): A rail-group power-good input rises after the hub releases its enable, letting the exit steps of R490 that wait for PG_MAIN, PG_MEM and PG_LNK proceed -/
  | pgRise (g : Fin 7)
  /-- EN_XI_AFTER_FENCE (R541): 1 ms after a site is fenced until device reset, the hub drives EN_Xi low to switch off the site's regulator -/
  | enXiAfterFence (x : SiteId)
  deriving DecidableEq, Repr

end Sys2Proof
end

