-- ==== Sys2Proof/Machine/Bits.lean ====
section
/-! DEFINITION. Bit-field, byte-order and check-code helpers that every chapter's encodings use: little-endian byte
lists (R8, R146, R162, R472), bit fields of numbers, saturation, and the CRC-32 of IEEE 802.3 (R472, R529). -/

namespace Sys2Proof.Machine

/-- Bits [hi:lo] of a number. -/
def bits (n hi lo : Nat) : Nat := n / 2 ^ lo % 2 ^ (hi + 1 - lo)

/-- Bit `i` of a number. -/
def bit (n i : Nat) : Bool := n.testBit i

/-- A truth value as a number. -/
def b2n (b : Bool) : Nat := if b then 1 else 0

/-- The byte that a number's low eight bits are. -/
def byte (n : Nat) : Byte := BitVec.ofNat 8 n

/-- A number of 64 bits as a word. -/
def w64 (n : Nat) : Word := BitVec.ofNat 64 n

/-- `k` bytes of a number, least significant first. -/
def leBytes (n : Nat) : Nat → List Byte
  | 0 => []
  | k + 1 => byte n :: leBytes (n / 256) k

/-- The number that bytes spell, least significant first. -/
def leNat : List Byte → Nat
  | [] => 0
  | b :: bs => b.toNat + 256 * leNat bs

/-- `n` bytes from place `i` of a list; zero bytes beyond its end. -/
def slice (bs : List Byte) (i n : Nat) : List Byte :=
  let r := (bs.drop i).take n
  r ++ List.replicate (n - r.length) 0

/-- The little-endian number in bytes `i` to `i + n − 1`. -/
def fieldAt (bs : List Byte) (i n : Nat) : Nat := leNat (slice bs i n)

/-- The little-endian words of 64 bits that bytes spell, `n` of them. -/
def wordsOf (bs : List Byte) : Nat → List Word
  | 0 => []
  | n + 1 => w64 (fieldAt bs 0 8) :: wordsOf (bs.drop 8) n

/-- Element `i` of a list of words; zero beyond its end. -/
def wordAt (ws : List Word) (i : Nat) : Nat := (ws.getD i 0).toNat

/-- Pad or cut to `n` bytes. -/
def padTo (n : Nat) (bs : List Byte) : List Byte := slice bs 0 n

/-- Are all these bytes zero? -/
def allZero (bs : List Byte) : Bool := bs.all fun b => b == 0

/-- `a / b` rounded up. -/
def ceilDiv (a b : Nat) : Nat := (a + b - 1) / b

/-- The signed value of the low `w` bits. -/
def signed (w n : Nat) : Int :=
  let m := n % 2 ^ w
  if m < 2 ^ (w - 1) then (m : Int) else (m : Int) - (2 ^ w : Nat)

/-- The `w` bits of an integer. -/
def unsignedOf (w : Nat) (i : Int) : Nat := (i % (2 ^ w : Nat)).toNat

/-- How many bits of the low `w` are set. -/
def popCount (n : Nat) : Nat → Nat
  | 0 => 0
  | w + 1 => b2n (n.testBit w) + popCount n w

/-- The numbers below `w` whose bit is set, ascending. -/
def setBits (w n : Nat) : List Nat := (List.range w).filter fun i => n.testBit i

/-- A number with bit `i` set to `b`. -/
def putBit (n i : Nat) (b : Bool) : Nat :=
  if n.testBit i = b then n else if b then n + 2 ^ i else n - 2 ^ i

/-- One bit of the reflected CRC-32 (polynomial 0xEDB8_8320, the reflection of the IEEE 802.3 polynomial). -/
def crcBit (c : Nat) : Nat :=
  if c % 2 = 1 then (c / 2) ^^^ 0xEDB88320 else c / 2

/-- One byte of the CRC-32. -/
def crcByte (c : Nat) (b : Byte) : Nat :=
  (List.range 8).foldl (fun c _ => crcBit c) (c ^^^ b.toNat)

/-- CRC-32 of IEEE 802.3 over bytes. -/
def crc32 (bs : List Byte) : Nat := (bs.foldl crcByte 0xFFFFFFFF) ^^^ 0xFFFFFFFF

end Sys2Proof.Machine
end

