-- ==== Sys2Proof/Machine/Fp.lean ====
section
/-! DEFINITION. Number formats and rounding (R65, R67, R84–R88, R107, R108): values as signs, magnitudes and powers of
two, exact arithmetic on them, and one rounding into a format. -/

namespace Sys2Proof.Machine

/-- A decoded value: a NaN, an infinity or (−1)^neg × m × 2^e. -/
inductive FV where
  | nan (signalling : Bool)
  | inf (neg : Bool)
  | fin (neg : Bool) (m : Nat) (e : Int)
  deriving DecidableEq, Repr

/-- What a format's highest exponent stands for (R67): infinities and NaNs, one NaN pattern only, or finite values. -/
inductive Specials where
  | ieee | nanOnly | none
  deriving DecidableEq, Repr

/-- A floating-point format (R67): exponent and mantissa widths, bias. -/
structure Fmt where
  eb   : Nat
  mb   : Nat
  bias : Nat
  sp   : Specials
  deriving DecidableEq, Repr

/-- FP32. -/
def fp32 : Fmt := { eb := 8, mb := 23, bias := 127, sp := .ieee }
/-- FP64, which sums and thresholds use (R130, R132, R301). -/
def fp64 : Fmt := { eb := 11, mb := 52, bias := 1023, sp := .ieee }
/-- BF16. -/
def bf16 : Fmt := { eb := 8, mb := 7, bias := 127, sp := .ieee }
/-- FP16. -/
def fp16 : Fmt := { eb := 5, mb := 10, bias := 15, sp := .ieee }
/-- FP8 E4M3. -/
def e4m3 : Fmt := { eb := 4, mb := 3, bias := 7, sp := .nanOnly }
/-- FP8 E5M2. -/
def e5m2 : Fmt := { eb := 5, mb := 2, bias := 15, sp := .ieee }
/-- E2M3. -/
def e2m3 : Fmt := { eb := 2, mb := 3, bias := 1, sp := .none }
/-- E3M2. -/
def e3m2 : Fmt := { eb := 3, mb := 2, bias := 3, sp := .none }
/-- E2M1. -/
def e2m1 : Fmt := { eb := 2, mb := 1, bias := 1, sp := .none }

/-- Bits of a format. -/
def Fmt.width (f : Fmt) : Nat := 1 + f.eb + f.mb

/-- The value that bits stand for (R67). -/
def Fmt.decode (f : Fmt) (b : Nat) : FV :=
  let s := b.testBit (f.eb + f.mb)
  let e := bits b (f.eb + f.mb - 1) f.mb
  let m := b % 2 ^ f.mb
  let finite : FV :=
    if e = 0 then .fin s m (1 - (f.bias : Int) - f.mb)
    else .fin s (2 ^ f.mb + m) ((e : Int) - f.bias - f.mb)
  match f.sp with
  | .ieee => if e = 2 ^ f.eb - 1 then (if m = 0 then .inf s else .nan (!m.testBit (f.mb - 1))) else finite
  | .nanOnly => if e = 2 ^ f.eb - 1 ∧ m = 2 ^ f.mb - 1 then .nan false else finite
  | .none => finite

/-- The canonical NaN of a format (R88): quiet in the formats with infinities, all ones in FP8 E4M3. -/
def Fmt.nanBits (f : Fmt) : Nat :=
  match f.sp with
  | .ieee => (2 ^ f.eb - 1) * 2 ^ f.mb + 2 ^ (f.mb - 1)
  | _ => 2 ^ (f.eb + f.mb) - 1

/-- The infinity of a sign, in a format that has one. -/
def Fmt.infBits (f : Fmt) (neg : Bool) : Nat := b2n neg * 2 ^ (f.eb + f.mb) + (2 ^ f.eb - 1) * 2 ^ f.mb

/-- The largest finite value of a sign (R67). -/
def Fmt.maxBits (f : Fmt) (neg : Bool) : Nat :=
  b2n neg * 2 ^ (f.eb + f.mb) +
    (match f.sp with
     | .ieee => (2 ^ f.eb - 1) * 2 ^ f.mb - 1
     | .nanOnly => 2 ^ (f.eb + f.mb) - 2
     | .none => 2 ^ (f.eb + f.mb) - 1)

/-- How a rounding decides: to nearest with ties to even, stochastic with 16 bits (R87), toward plus infinity for
magnitudes (R91), toward zero. -/
inductive Rnd where
  | near | stoch (r : Nat) | up | down
  deriving DecidableEq, Repr

/-- Round the floor `q` of a quotient with remainder `r` of `d`. -/
def Rnd.round (k : Rnd) (q r d : Nat) : Nat :=
  match k with
  | .near => if 2 * r > d ∨ (2 * r = d ∧ q % 2 = 1) then q + 1 else q
  | .stoch x => q + (r * 65536 + x * d) / (65536 * d)
  | .up => if r = 0 then q else q + 1
  | .down => q

/-- A rounded result: the bits, and what R88 and R107 name: overflow, underflow to zero, an invalid operation. -/
structure Rounded where
  bits : Nat
  ovf  : Bool
  unf  : Bool
  inv  : Bool
  deriving DecidableEq, Repr

/-- Round a finite value into a format; `sat` chooses the largest finite value over an infinity on overflow (R88). -/
def Fmt.roundFin (f : Fmt) (k : Rnd) (sat : Bool) (neg : Bool) (m : Nat) (e : Int) : Rounded :=
  let sgn := b2n neg * 2 ^ (f.eb + f.mb)
  if m = 0 then { bits := sgn, ovf := false, unf := false, inv := false }
  else
    let top : Int := (m.log2 : Int) + e
    let emin : Int := 1 - (f.bias : Int)
    let q : Int := (if top < emin then emin else top) - f.mb
    let n := if q ≤ e then m * 2 ^ (e - q).toNat else
      let d := 2 ^ (q - e).toNat
      k.round (m / d) (m % d) d
    let enc := (q + f.mb + f.bias).toNat * 2 ^ f.mb + n - 2 ^ f.mb
    if enc > f.maxBits false then
      { bits := if sat || f.sp != .ieee then f.maxBits neg else f.infBits neg, ovf := true, unf := false, inv := false }
    else { bits := sgn + enc, ovf := false, unf := decide (n = 0), inv := false }

/-- Round any value into a format. An infinity stays one, or saturates where the format has none (R88). -/
def Fmt.round (f : Fmt) (k : Rnd) (sat : Bool) (x : FV) : Rounded :=
  match x with
  | .nan _ => { bits := f.nanBits, ovf := false, unf := false, inv := false }
  | .inf neg => { bits := if f.sp = .ieee then f.infBits neg else f.maxBits neg, ovf := false, unf := false,
                  inv := false }
  | .fin neg m e => f.roundFin k sat neg m e

namespace FV

/-- A NaN? -/
def isNan : FV → Bool
  | .nan _ => true
  | _ => false

/-- A signalling NaN? -/
def isSig : FV → Bool
  | .nan b => b
  | _ => false

/-- A NaN or an infinity? -/
def special : FV → Bool
  | .fin _ _ _ => false
  | _ => true

/-- The sign. -/
def neg : FV → Bool
  | .nan _ => false
  | .inf n => n
  | .fin n _ _ => n

/-- Zero of either sign? -/
def isZero : FV → Bool
  | .fin _ m _ => m = 0
  | _ => false

/-- The magnitude. -/
def abs : FV → FV
  | .nan b => .nan b
  | .inf _ => .inf false
  | .fin _ m e => .fin false m e

/-- The negation. -/
def flip : FV → FV
  | .nan b => .nan b
  | .inf n => .inf (!n)
  | .fin n m e => .fin (!n) m e

/-- The integer `v × 2^e` as a value; zero takes the sign given. -/
def ofInt (v : Int) (e : Int) (zeroNeg : Bool) : FV :=
  if v = 0 then .fin zeroNeg 0 e else .fin (decide (v < 0)) v.natAbs e

/-- A finite value in units of 2^e0, for e0 at or below its exponent. -/
def units (e0 : Int) : FV → Int
  | .fin n m e => (if n then -1 else 1) * ((m * 2 ^ (e - e0).toNat : Nat) : Int)
  | _ => 0

/-- The exponent of a finite value's unit. -/
def unit : FV → Int
  | .fin _ _ e => e
  | _ => 0

/-- The exact sum, with the flag of an invalid operation: a zero sum is −0 only when both terms are (R84). -/
def add (x y : FV) : FV × Bool :=
  match x, y with
  | .nan a, _ => (.nan false, a || y.isSig)
  | _, .nan b => (.nan false, b)
  | .inf a, .inf b => if a = b then (.inf a, false) else (.nan false, true)
  | .inf a, _ => (.inf a, false)
  | _, .inf b => (.inf b, false)
  | .fin a m e, .fin b n f =>
    let e0 := min e f
    (ofInt ((FV.fin a m e).units e0 + (FV.fin b n f).units e0) e0
      (decide (m = 0) && decide (n = 0) && a && b), false)

/-- The exact product, with the flag of an invalid operation: infinity times zero, or a signalling NaN. -/
def mul (x y : FV) : FV × Bool :=
  match x, y with
  | .nan a, _ => (.nan false, a || y.isSig)
  | _, .nan b => (.nan false, b)
  | .inf a, .inf b => (.inf (a != b), false)
  | .inf a, .fin b n _ => if n = 0 then (.nan false, true) else (.inf (a != b), false)
  | .fin a m _, .inf b => if m = 0 then (.nan false, true) else (.inf (a != b), false)
  | .fin a m e, .fin b n f => (.fin (a != b) (m * n) (e + f), false)

/-- The exact product plus a third term. -/
def fma (x y z : FV) : FV × Bool :=
  let p := x.mul y
  let r := p.1.add z
  (r.1, p.2 || r.2 || z.isSig)

/-- Order of two values that are not NaN; −0 equals +0. -/
def lt (x y : FV) : Bool :=
  match x, y with
  | .nan _, _ => false
  | _, .nan _ => false
  | .inf a, .inf b => a && !b
  | .inf a, .fin _ _ _ => a
  | .fin _ _ _, .inf b => !b
  | .fin a m e, .fin b n f =>
    let e0 := min e f
    decide ((FV.fin a m e).units e0 < (FV.fin b n f).units e0)

/-- Equality as IEEE 754 gives it. -/
def eq (x y : FV) : Bool := !x.isNan && !y.isNan && !x.lt y && !y.lt x

/-- At or below, as IEEE 754 gives it. -/
def le (x y : FV) : Bool := x.lt y || x.eq y

/-- Below, with −0 below +0 (R107). -/
def below (x y : FV) : Bool := x.lt y || (x.isZero && y.isZero && x.neg && !y.neg)

/-- The greatest integer at or below a finite value. -/
def floor : FV → Int
  | .fin n m e =>
    let v : Int := if n then -(m : Int) else m
    if 0 ≤ e then v * (2 ^ e.toNat : Nat) else v.fdiv (2 ^ (-e).toNat : Nat)
  | _ => 0

/-- The nearest integer, ties to even, or the stochastic one. -/
def toInteger (k : Rnd) : FV → Int
  | .fin n m e =>
    let a := if 0 ≤ e then m * 2 ^ e.toNat else
      let d := 2 ^ (-e).toNat
      k.round (m / d) (m % d) d
    if n then -(a : Int) else a
  | _ => 0

end FV

/-- The rounded result of an exact operation: overflow and underflow as R107 names them, NaNs canonical. -/
def Fmt.result (f : Fmt) (k : Rnd) (sat : Bool) (r : FV × Bool) : Rounded :=
  let q := f.round k sat r.1
  { q with inv := r.2 }

/-- `v` within the range of a `w`-bit integer, and whether it was outside it. -/
def clampInt (w : Nat) (sgn : Bool) (v : Int) : Int × Bool :=
  let lo : Int := if sgn then -(2 ^ (w - 1) : Nat) else 0
  let hi : Int := if sgn then (2 ^ (w - 1) : Nat) - 1 else (2 ^ w : Nat) - 1
  if v < lo then (lo, true) else if v > hi then (hi, true) else (v, false)

/-- The greatest number whose square is at most `n`, by bits from `2^k` downward. -/
def isqrtFrom (n : Nat) (r : Nat) : Nat → Nat
  | 0 => r
  | k + 1 => isqrtFrom n (if (r + 2 ^ k) * (r + 2 ^ k) ≤ n then r + 2 ^ k else r) k

/-- The integer square root. -/
def isqrt (n : Nat) : Nat := isqrtFrom n 0 (n.log2 / 2 + 1)

end Sys2Proof.Machine
end

