-- ==== Sys2Proof/Config.lean ====
section
/-! DEFINITION. What the spec leaves open, as constants with no body: no proof can see what they are, so a claim
holds for every value of them. Values that depend on nothing but the moment are drawn from `freeBits` at the counter
`freeCtr` of State (log entry 4); the others depend on what the spec says that they depend on. -/

namespace Sys2Proof.Config

/-- Random bits: DRBG and entropy output (R302, R400, R415), stochastic-rounding bits (R87), bytes that the spec
leaves undefined. Argument: the free-value counter. -/
opaque freeBits : Nat → BitVec 64

/-- SHA-384 of a byte string, 48 bytes (R243, R404, R429, R434). -/
opaque sha384 : List (BitVec 8) → Vector (BitVec 8) 48

/-- Does a signature pair (second argument) over a message (first) under a key record (third) verify, both halves (R404)? -/
opaque pairOk : List (BitVec 8) → List (BitVec 8) → List (BitVec 8) → Bool

/-- The same for a signature pair that names a KEY_ID only, where the key record is one that the device holds. -/
opaque pairOkId : List (BitVec 8) → List (BitVec 8) → List (BitVec 8) → Bool

/-- The two signatures that the device makes over a message (second argument) under a domain label (first argument) with the
pair that the label names (R401, R406, R407). For the alias pair the message is preceded by its KEY_ID. -/
opaque signPair : List (BitVec 8) → List (BitVec 8) → List (BitVec 8)

/-- A key derived from the device unique secret under a label (R401). -/
opaque derive : List (BitVec 8) → List (BitVec 8) → List (BitVec 8)

/-- The KEY_IDs of the ROM's maker key records, 0 to 3 (R400). -/
opaque romKey : Nat → Vector (BitVec 8) 48

/-- How many maker key records the ROM holds: one to four (R400). -/
opaque romKeys : Fin 4

/-- SHA-384 of the ROM (R429). -/
opaque romDigest : Vector (BitVec 8) 48

/-- A label of the DRAM row that a granule of a channel lies in, as the base die maps it (R185): arguments channel and
granule of the physical space. -/
opaque rowLabel : Nat → Nat → Nat

/-- Requests that a channel's queue takes (R184): the spec gives no number (log entry 127). -/
opaque queueDepth : Nat → Nat

/-- Packets that an input buffer of a router holds, by class (R263): the spec gives no depth (log entry 129). -/
opaque bufferDepth : Nat → Nat

/-- The link CRC and the end-to-end code of a flit (R257): the spec gives their strength, not their polynomials. -/
opaque linkCrc : BitVec 1248 → BitVec 32
opaque flitCode : BitVec 1152 → BitVec 96

/-- Granules that a granule bucket holds beyond the first (R203): the spec gives it no depth (log entry 128). -/
opaque granuleDepth : Nat → Nat

/-- PREC_LOSS (bit 0) and ACC_OVF (bit 1) that the elements with an invalid tag of a billet set, from the operand bytes of
A and B: what their sums are is not stated (R77, R81, R82; log entry 126). -/
opaque invalidFlags : List (BitVec 8) → List (BitVec 8) → Nat

/-- Where a glue-up engine's noise for a DRBG output lies in the band of R302: free. -/
opaque normalErr : Nat → BitVec 16

/-- The X.509 and companion chains of certificate slots 0 and 1 from the certificate record and the alias pair
(R408). -/
opaque certChain : Nat → List (BitVec 8) → List (BitVec 8)

/-- The maker's slot 0 chain and its companion for the device with a serial number, as written at the transition from Test
to Production (R408, R449). -/
opaque makerCerts : List (BitVec 8) → List (BitVec 8)

/-- Does the certificate record's leaf name the DevID keys that were derived (R408)? -/
opaque leafMatches : List (BitVec 8) → List (BitVec 8) → Bool

/-- The ciphered payload and the 16-byte tag of a Claush frame: key and salt, the sender's 64-bit frame counter, header,
payload (R374, R376). -/
opaque claushSeal : List (BitVec 8) → Nat → List (BitVec 8) → List (BitVec 8) → List (BitVec 8)

/-- Does bit `48 k + i` of the life-cycle field (bit i of copy k) fail to program in four attempts (R444)? Second
argument: the free-value counter. -/
opaque fuseFails : Nat → Nat → Bool

/-- The key and salt of a direction from the shared secret and the transcript of an exchange (R374). -/
opaque claushKey : List (BitVec 8) → Nat → List (BitVec 8)

/-- A message of a key exchange, of SPDM or of TDISP whose bytes standards outside the spec lay down: what the device
answers to a request in a given state (R359, R374). -/
opaque standardReply : List (BitVec 8) → List (BitVec 8) → List (BitVec 8)

/-- Codes of black-box records for which the spec gives no code: 0 a poisoned request to PF0 (R349), 1 a site
attestation that failed (R330). -/
opaque eventCode : Nat → BitVec 16

/-- DEVICE of Nimyth's memory base die and of its link die in an identity record (R319). -/
opaque baseDieType : BitVec 16
opaque linkDieType : BitVec 16

/-- Is an SPDM message of a site die the answer that the standard lays down for request `n` of R329 (1 GET_VERSION, 2
GET_CAPABILITIES, 3 NEGOTIATE_ALGORITHMS, 4 GET_DIGESTS, 5 GET_CERTIFICATE, 6 CHALLENGE, 7 GET_MEASUREMENTS), with
RSASSA-PSS 3072 and SHA-384 chosen? -/
opaque siteAnswers : Nat → List (BitVec 8) → Bool

/-- The root certificate of the chain that a CERTIFICATE message carries (R329). -/
opaque chainRoot : List (BitVec 8) → List (BitVec 8)

/-- The SLH-DSA public key in the OpaqueData of CHALLENGE_AUTH (R329). -/
opaque opaqueKey : List (BitVec 8) → List (BitVec 8)

/-- The measurement blocks of a MEASUREMENTS message, concatenated in ascending index order (R329). -/
opaque measBlocks : List (BitVec 8) → List (BitVec 8)

/-- Do both signatures of a site die's response verify: transcript, nonce of the request, message (R329)? -/
opaque siteSigned : List (BitVec 8) → List (BitVec 8) → List (BitVec 8) → Bool

end Sys2Proof.Config
end

