-- ==== Sys2Proof/Machine/Regs.lean ====
section
/-! DEFINITION. The register map: every register of the register tables, by its own name, with its place, its fields,
their access codes, writers and reset values (R8–R12, and the rule that each register's docstring names). The key of a
register is its offset in PF0's BAR0 (R510); a register of the context window of VF c + 1 has the key
0x1000_0000 × (c + 1) + its offset in the window (R340). A field marked fused, saved, scan, PD0 or image resets to 0
here, and what loads it writes it (DESIGN CHOICE, log entries 2 and 3). -/

namespace Sys2Proof.Machine

/-- The access codes of R10. -/
inductive Access where
  | ro | rw | w1c | w1s | wo | rwl
  deriving DecidableEq, Repr

/-- The names of the Writer column (R12). -/
inductive Writer where
  | none | hub | firmware | installer | operator | host | context
  deriving DecidableEq, Repr

/-- A field of a register: the register's key and the field's bits [hi:lo]. -/
structure Fld where
  key : Nat
  hi  : Nat
  lo  : Nat
  deriving DecidableEq, Repr

/-- One row of a register table. -/
structure FSpec where
  hi     : Nat
  lo     : Nat
  acc    : Access
  writer : Writer
  reset  : Nat
  deriving DecidableEq, Repr

/-- A family of registers: `n₁` × `n₂` of them, from `base`, at the two strides, with one layout. -/
structure RegFam where
  base   : Nat
  s₁     : Nat
  n₁     : Nat
  s₂     : Nat
  n₂     : Nat
  fields : List FSpec
  deriving DecidableEq, Repr

/-- The first module of bundle `b` (R5, R314): the bundle registers lie in its block (R334). -/
def bundleFirst (b : Nat) : Nat :=
  if b < 8 then 12 * b else if b = 8 then 96 else if b = 9 then 112 else 128 + 8 * (b - 10)

/-- Key of GLB_PKG_BUILD (R23). -/
def R.GLB_PKG_BUILD : Nat := 0x00000040
/-- Key of MXA_STATUS (R57). -/
def R.MXA_STATUS (t : Nat) : Nat := 0x00400000 + 0x4000 * t
/-- Key of MXA_CFG (R58). -/
def R.MXA_CFG (t : Nat) : Nat := 0x00400008 + 0x4000 * t
/-- Key of MXA_WIT_STATUS (R59). -/
def R.MXA_WIT_STATUS (t : Nat) : Nat := 0x00400010 + 0x4000 * t
/-- Key of MXA_BILLETS (R60). -/
def R.MXA_BILLETS (t : Nat) : Nat := 0x00400018 + 0x4000 * t
/-- Key of MXA_STALL (R61). -/
def R.MXA_STALL (t : Nat) : Nat := 0x00400020 + 0x4000 * t
/-- Key of BWL_MAP (R62). -/
def R.BWL_MAP (t : Nat) : Nat := 0x00402000 + 0x4000 * t
/-- Key of BWL_ECC (R63). -/
def R.BWL_ECC (t : Nat) : Nat := 0x00402008 + 0x4000 * t
/-- Key of BWL_SCRUB (R64). -/
def R.BWL_SCRUB (t : Nat) : Nat := 0x00402010 + 0x4000 * t
/-- Key of VXE_STATUS (R140). -/
def R.VXE_STATUS (t : Nat) : Nat := 0x00401000 + 0x4000 * t
/-- Key of VXE_CTL (R141). -/
def R.VXE_CTL (t : Nat) : Nat := 0x00401008 + 0x4000 * t
/-- Key of VXE_STAT (R142). -/
def R.VXE_STAT (t : Nat) : Nat := 0x00401010 + 0x4000 * t
/-- Key of VXE_FAULT (R143). -/
def R.VXE_FAULT (t : Nat) : Nat := 0x00401018 + 0x4000 * t
/-- Key of VXE_INVOC (R144). -/
def R.VXE_INVOC (t : Nat) : Nat := 0x00401020 + 0x4000 * t
/-- Key of VXE_ECC (R144). -/
def R.VXE_ECC (t : Nat) : Nat := 0x00401028 + 0x4000 * t
/-- Key of CTXW_RING_BASE (R145). -/
def R.CTXW_RING_BASE (c : Nat) : Nat := 0x10000100 + 0x10000000 * c
/-- Key of CTXW_RING_CFG (R145). -/
def R.CTXW_RING_CFG (c : Nat) : Nat := 0x10000108 + 0x10000000 * c
/-- Key of CTXW_CMPL_BASE (R145). -/
def R.CTXW_CMPL_BASE (c : Nat) : Nat := 0x10000110 + 0x10000000 * c
/-- Key of CTXW_RING_WORDS (R145). -/
def R.CTXW_RING_WORDS (c : Nat) : Nat := 0x10000118 + 0x10000000 * c
/-- Key of CTXW_RING_STATUS (R145). -/
def R.CTXW_RING_STATUS (c : Nat) : Nat := 0x10000120 + 0x10000000 * c
/-- Key of CTXW_SO0 (R168). -/
def R.CTXW_SO0 (c i : Nat) : Nat := 0x10004000 + 0x10000000 * c + 0x10 * i
/-- Key of CTXW_SO8 (R168). -/
def R.CTXW_SO8 (c i : Nat) : Nat := 0x10004008 + 0x10000000 * c + 0x10 * i
/-- Key of SCH_STATUS (R182). -/
def R.SCH_STATUS (p : Nat) : Nat := 0x00100000 + 0x10000 * p
/-- Key of SCH_CFG (R182). -/
def R.SCH_CFG (p : Nat) : Nat := 0x00100008 + 0x10000 * p
/-- Key of SCH_SWITCH (R182). -/
def R.SCH_SWITCH (p : Nat) : Nat := 0x00100010 + 0x10000 * p
/-- Key of SCH_COUNT (R182). -/
def R.SCH_COUNT (p : Nat) : Nat := 0x00100018 + 0x10000 * p
/-- Key of SCH_TABLE (R182). -/
def R.SCH_TABLE (p e : Nat) : Nat := 0x00101000 + 0x10000 * p + 0x8 * e
/-- Key of SCH_CTXQ (R182). -/
def R.SCH_CTXQ (p c : Nat) : Nat := 0x00102000 + 0x10000 * p + 0x8 * c
/-- Key of SYN_CNT (R183). -/
def R.SYN_CNT (n : Nat) : Nat := 0x00200000 + 0x10 * n
/-- Key of SYN_CTL (R183). -/
def R.SYN_CTL (n : Nat) : Nat := 0x00200008 + 0x10 * n
/-- Key of CTXW_MEMGEO (R192). -/
def R.CTXW_MEMGEO (c : Nat) : Nat := 0x10000140 + 0x10000000 * c
/-- Key of CTXW_SPREAD (R192). -/
def R.CTXW_SPREAD (c i : Nat) : Nat := 0x10002000 + 0x10000000 * c + 0x8 * i
/-- Key of MEM_STATUS (R214). -/
def R.MEM_STATUS (s : Nat) : Nat := 0x00800000 + 0x10000 * s
/-- Key of MEM_REPAIR (R214). -/
def R.MEM_REPAIR (s : Nat) : Nat := 0x00800008 + 0x10000 * s
/-- Key of MEM_SCRUB (R214). -/
def R.MEM_SCRUB (s : Nat) : Nat := 0x00800010 + 0x10000 * s
/-- Key of MEM_WHITTLE (R214). -/
def R.MEM_WHITTLE (s : Nat) : Nat := 0x00800018 + 0x10000 * s
/-- Key of MEM_CH (R214). -/
def R.MEM_CH (s l : Nat) : Nat := 0x00800100 + 0x10000 * s + 0x8 * l
/-- Key of MEM_ECC (R214). -/
def R.MEM_ECC (s l : Nat) : Nat := 0x00800200 + 0x10000 * s + 0x8 * l
/-- Key of MEM_REG_CTX (R214). -/
def R.MEM_REG_CTX (s c : Nat) : Nat := 0x00801000 + 0x10000 * s + 0x8 * c
/-- Key of CTXW_PASID (R245). -/
def R.CTXW_PASID (c i : Nat) : Nat := 0x10000180 + 0x10000000 * c + 0x8 * i
/-- Key of XLT_STATUS (R246). -/
def R.XLT_STATUS : Nat := 0x00A00000
/-- Key of XLT_CFG (R247). -/
def R.XLT_CFG : Nat := 0x00A00008
/-- Key of XLT_COUNT (R248). -/
def R.XLT_COUNT : Nat := 0x00A00010
/-- Key of XLT_CTX (R249). -/
def R.XLT_CTX (c : Nat) : Nat := 0x00A01000 + 0x8 * c
/-- Key of XLT_PFT0 (R250). -/
def R.XLT_PFT0 (i : Nat) : Nat := 0x00A04000 + 0x10 * i
/-- Key of XLT_PFT8 (R250). -/
def R.XLT_PFT8 (i : Nat) : Nat := 0x00A04008 + 0x10 * i
/-- Key of DMA_PART_CFG (R251). -/
def R.DMA_PART_CFG (p : Nat) : Nat := 0x00A10000 + 0x8 * p
/-- Key of DMA_ENG_STATUS (R252). -/
def R.DMA_ENG_STATUS (e : Nat) : Nat := 0x00A11000 + 0x20 * e
/-- Key of DMA_ENG_CURSOR (R252). -/
def R.DMA_ENG_CURSOR (e : Nat) : Nat := 0x00A11008 + 0x20 * e
/-- Key of DMA_ENG_BYTES (R252). -/
def R.DMA_ENG_BYTES (e : Nat) : Nat := 0x00A11010 + 0x20 * e
/-- Key of NOC_STATUS (R278). -/
def R.NOC_STATUS : Nat := 0x00C00000
/-- Key of NOC_ERR (R278). -/
def R.NOC_ERR : Nat := 0x00C00008
/-- Key of NOC_LAST_ERR (R278). -/
def R.NOC_LAST_ERR : Nat := 0x00C00010
/-- Key of NOC_OWN (R278). -/
def R.NOC_OWN : Nat := 0x00C00018
/-- Key of NOC_REG_CTX (R278). -/
def R.NOC_REG_CTX (c : Nat) : Nat := 0x00C01000 + 0x8 * c
/-- Key of CTXW_STATE (R309). -/
def R.CTXW_STATE (c : Nat) : Nat := 0x10000000 + 0x10000000 * c
/-- Key of CTXW_CTL (R309). -/
def R.CTXW_CTL (c : Nat) : Nat := 0x10000008 + 0x10000000 * c
/-- Key of CTX_STATE (R310). -/
def R.CTX_STATE (c : Nat) : Nat := 0x00D00000 + 0x100 * c
/-- Key of CTX_CFG (R310). -/
def R.CTX_CFG (c : Nat) : Nat := 0x00D00008 + 0x100 * c
/-- Key of CTX_PART (R310). -/
def R.CTX_PART (p : Nat) : Nat := 0x00D10000 + 0x8 * p
/-- Key of GUP_STATUS (R311). -/
def R.GUP_STATUS : Nat := 0x00E00000
/-- Key of GUP_CFG (R311). -/
def R.GUP_CFG (p : Nat) : Nat := 0x00E01000 + 0x20 * p
/-- Key of GUP_RND (R311). -/
def R.GUP_RND (p : Nat) : Nat := 0x00E01008 + 0x20 * p
/-- Key of GUP_CLIP (R311). -/
def R.GUP_CLIP (p : Nat) : Nat := 0x00E01010 + 0x20 * p
/-- Key of GUP_DEADLINE (R311). -/
def R.GUP_DEADLINE (p : Nat) : Nat := 0x00E01018 + 0x20 * p
/-- Key of GUP_UID (R311). -/
def R.GUP_UID (p : Nat) : Nat := 0x00E02000 + 0x8 * p
/-- Key of GUP_SET (R311). -/
def R.GUP_SET (p w : Nat) : Nat := 0x00E04000 + 0x40 * p + 0x8 * w
/-- Key of D2D_MOD_STATUS (R334). -/
def R.D2D_MOD_STATUS (m : Nat) : Nat := 0x00F00000 + 0x400 * m
/-- Key of D2D_MOD_CFG (R334). -/
def R.D2D_MOD_CFG (m : Nat) : Nat := 0x00F00008 + 0x400 * m
/-- Key of D2D_MOD_REPAIR (R334). -/
def R.D2D_MOD_REPAIR (m : Nat) : Nat := 0x00F00010 + 0x400 * m
/-- Key of D2D_MOD_ERR (R334). -/
def R.D2D_MOD_ERR (m : Nat) : Nat := 0x00F00018 + 0x400 * m
/-- Key of D2D_BDL_STATUS (R334). -/
def R.D2D_BDL_STATUS (b : Nat) : Nat := 0x00F0_0000 + bundleFirst b * 0x400 + 0x100
/-- Key of D2D_BDL_CFG (R334). -/
def R.D2D_BDL_CFG (b : Nat) : Nat := 0x00F0_0000 + bundleFirst b * 0x400 + 0x108
/-- Key of D2D_IDENT (R334). -/
def R.D2D_IDENT (b w : Nat) : Nat := 0x00F0_0000 + bundleFirst b * 0x400 + 0x140 + 8 * w
/-- Key of CHK_STATUS (R335). -/
def R.CHK_STATUS (x : Nat) : Nat := 0x01000000 + 0x4000 * x
/-- Key of CHK_CFG (R335). -/
def R.CHK_CFG (x : Nat) : Nat := 0x01000008 + 0x4000 * x
/-- Key of CHK_VIOL (R335). -/
def R.CHK_VIOL (x : Nat) : Nat := 0x01000010 + 0x4000 * x
/-- Key of CHK_EXPECT (R335). -/
def R.CHK_EXPECT (x : Nat) : Nat := 0x01000018 + 0x4000 * x
/-- Key of CHK_WIN_A (R335). -/
def R.CHK_WIN_A (x w : Nat) : Nat := 0x01000100 + 0x4000 * x + 0x20 * w
/-- Key of CHK_WIN_B (R335). -/
def R.CHK_WIN_B (x w : Nat) : Nat := 0x01000108 + 0x4000 * x + 0x20 * w
/-- Key of GLB_HEP_STATUS (R368). -/
def R.GLB_HEP_STATUS : Nat := 0x00002000
/-- Key of GLB_HEP_TAGS (R368). -/
def R.GLB_HEP_TAGS : Nat := 0x00002008
/-- Key of GLB_HEP_ERR (R368). -/
def R.GLB_HEP_ERR : Nat := 0x00002010
/-- Key of GLB_HEP_LAST_ERR (R368). -/
def R.GLB_HEP_LAST_ERR : Nat := 0x00002018
/-- Key of GLB_HEP_PART (R368). -/
def R.GLB_HEP_PART (p : Nat) : Nat := 0x00002040 + 0x8 * p
/-- Key of GLB_HEP_STRM (R368). -/
def R.GLB_HEP_STRM (c : Nat) : Nat := 0x00002400 + 0x8 * c
/-- Key of CLS_DIE_STATUS (R398). -/
def R.CLS_DIE_STATUS (d : Nat) : Nat := 0x01100000 + 0x40000 * d
/-- Key of CLS_NODE (R398). -/
def R.CLS_NODE : Nat := 0x01100010
/-- Key of CLS_TIME (R398). -/
def R.CLS_TIME : Nat := 0x01100018
/-- Key of CLS_COUNT (R398). -/
def R.CLS_COUNT : Nat := 0x01100020
/-- Key of CLS_PORT_STATUS (R399). -/
def R.CLS_PORT_STATUS (q : Nat) : Nat := 0x01101000 + (q / 16) * 0x4_0000 + (q % 16) * 0x40
/-- Key of CLS_PORT_CFG (R399). -/
def R.CLS_PORT_CFG (q : Nat) : Nat := 0x01101008 + (q / 16) * 0x4_0000 + (q % 16) * 0x40
/-- Key of CLS_PORT_ERR (R399). -/
def R.CLS_PORT_ERR (q : Nat) : Nat := 0x01101010 + (q / 16) * 0x4_0000 + (q % 16) * 0x40
/-- Key of CLS_PORT_DELAY (R399). -/
def R.CLS_PORT_DELAY (q : Nat) : Nat := 0x01101018 + (q / 16) * 0x4_0000 + (q % 16) * 0x40
/-- Key of MBX_CMD_TAIL (R439). -/
def R.MBX_CMD_TAIL : Nat := 0x00010000
/-- Key of MBX_CMD_HEAD (R439). -/
def R.MBX_CMD_HEAD : Nat := 0x00010008
/-- Key of MBX_STATUS (R439). -/
def R.MBX_STATUS : Nat := 0x00010010
/-- Key of HWD_STATUS (R440). -/
def R.HWD_STATUS : Nat := 0x01801000
/-- Key of HWD_COUNT (R440). -/
def R.HWD_COUNT : Nat := 0x01801008
/-- Key of HWD_SERIAL (R440). -/
def R.HWD_SERIAL : Nat := 0x01801010
/-- Key of HWD_ALIAS (R440). -/
def R.HWD_ALIAS (w : Nat) : Nat := 0x01801018 + 0x8 * w
/-- Key of LCS_STATUS (R454). -/
def R.LCS_STATUS : Nat := 0x01800000
/-- Key of LCS_COPY (R454). -/
def R.LCS_COPY (k : Nat) : Nat := 0x01800008 + 0x8 * k
/-- Key of TLS_STATUS (R480). -/
def R.TLS_STATUS : Nat := 0x01700000
/-- Key of TLS_CFG (R480). -/
def R.TLS_CFG : Nat := 0x01700008
/-- Key of TLS_ROT (R480). -/
def R.TLS_ROT : Nat := 0x01700010
/-- Key of TLS_COUNT (R480). -/
def R.TLS_COUNT : Nat := 0x01700018
/-- Key of TLS_LAST (R480). -/
def R.TLS_LAST : Nat := 0x01700020
/-- Key of TLS_EVT_HEAD (R480). -/
def R.TLS_EVT_HEAD : Nat := 0x01700028
/-- Key of TLS_POLICY (R480). -/
def R.TLS_POLICY (i : Nat) : Nat := 0x01700800 + 0x8 * i
/-- Key of TLS_EVT0 (R480). -/
def R.TLS_EVT0 (e : Nat) : Nat := 0x01701000 + 0x10 * e
/-- Key of TLS_EVT8 (R480). -/
def R.TLS_EVT8 (e : Nat) : Nat := 0x01701008 + 0x10 * e
/-- Key of BBX_STATUS (R481). -/
def R.BBX_STATUS : Nat := 0x01708000
/-- Key of BBX_COUNT (R481). -/
def R.BBX_COUNT : Nat := 0x01708008
/-- Key of BBX_SEL (R481). -/
def R.BBX_SEL : Nat := 0x01708010
/-- Key of BBX_DATA (R481). -/
def R.BBX_DATA (w : Nat) : Nat := 0x01708040 + 0x8 * w
/-- Key of PWR_STATUS (R507). -/
def R.PWR_STATUS : Nat := 0x01600000
/-- Key of PWR_CMD (R507). -/
def R.PWR_CMD : Nat := 0x01600008
/-- Key of PWR_POLICY (R507). -/
def R.PWR_POLICY : Nat := 0x01600010
/-- Key of PWR_LIMIT (R507). -/
def R.PWR_LIMIT : Nat := 0x01600018
/-- Key of PWR_MEAS (R507). -/
def R.PWR_MEAS : Nat := 0x01600020
/-- Key of PWR_PAD_RELEASE (R507). -/
def R.PWR_PAD_RELEASE : Nat := 0x01600028
/-- Key of PWR_DOMAIN (R507). -/
def R.PWR_DOMAIN (d : Nat) : Nat := 0x01600100 + 0x8 * d
/-- Key of PWR_ENERGY (R507). -/
def R.PWR_ENERGY (k : Nat) : Nat := 0x01600200 + 0x8 * k
/-- Key of PWR_RESID (R507). -/
def R.PWR_RESID (l : Nat) : Nat := 0x01600300 + 0x8 * l
/-- Key of CLK_STATUS (R508). -/
def R.CLK_STATUS : Nat := 0x01610000
/-- Key of CLK_SSC (R508). -/
def R.CLK_SSC : Nat := 0x01610008
/-- Key of CLK_IO (R508). -/
def R.CLK_IO : Nat := 0x01610010
/-- Key of CLK_MON (R508). -/
def R.CLK_MON : Nat := 0x01610018
/-- Key of SPN_TIME (R509). -/
def R.SPN_TIME : Nat := 0x01620000
/-- Key of SPN_INC (R509). -/
def R.SPN_INC : Nat := 0x01620008
/-- Key of SPN_ALARM (R509). -/
def R.SPN_ALARM : Nat := 0x01620010
/-- Key of SPN_ALARM_CTL (R509). -/
def R.SPN_ALARM_CTL : Nat := 0x01620018
/-- Key of SPN_STATUS (R509). -/
def R.SPN_STATUS : Nat := 0x01620020
/-- Key of GLB_ID (R534). -/
def R.GLB_ID : Nat := 0x00000000
/-- Key of GLB_CAP (R534). -/
def R.GLB_CAP : Nat := 0x00000008
/-- Key of GLB_CFG_STATUS (R534). -/
def R.GLB_CFG_STATUS : Nat := 0x00000010
/-- Key of GLB_BRINGUP (R534). -/
def R.GLB_BRINGUP : Nat := 0x00000018
/-- Key of GLB_CFG_DIGEST (R534). -/
def R.GLB_CFG_DIGEST (w : Nat) : Nat := 0x00000080 + 0x8 * w
/-- Key of GLB_CONFLICT (R534). -/
def R.GLB_CONFLICT (i : Nat) : Nat := 0x00000100 + 0x8 * i

/-- GLB_PKG_BUILD.CONSIGN_PLAN [63:48] (R23): consignment plan number of the ordering code; 0 when every site is empty. -/
def F.GLB_PKG_BUILD_CONSIGN_PLAN : Fld := ⟨R.GLB_PKG_BUILD, 63, 48⟩
/-- GLB_PKG_BUILD.HUB_REV [47:40] (R23): hub die revision. -/
def F.GLB_PKG_BUILD_HUB_REV : Fld := ⟨R.GLB_PKG_BUILD, 47, 40⟩
/-- GLB_PKG_BUILD.BASE_DIE_REV [39:32] (R23): base-die revision, the same on all eight stacks. -/
def F.GLB_PKG_BUILD_BASE_DIE_REV : Fld := ⟨R.GLB_PKG_BUILD, 39, 32⟩
/-- GLB_PKG_BUILD.LINK_DIE_REV [31:24] (R23): link-die revision, the same on L0 and L1. -/
def F.GLB_PKG_BUILD_LINK_DIE_REV : Fld := ⟨R.GLB_PKG_BUILD, 31, 24⟩
/-- GLB_PKG_BUILD.SITE_POP_X3 [15:14] (R23): population of X3; encoding below. -/
def F.GLB_PKG_BUILD_SITE_POP_X3 : Fld := ⟨R.GLB_PKG_BUILD, 15, 14⟩
/-- GLB_PKG_BUILD.SITE_POP_X2 [13:12] (R23): population of X2. -/
def F.GLB_PKG_BUILD_SITE_POP_X2 : Fld := ⟨R.GLB_PKG_BUILD, 13, 12⟩
/-- GLB_PKG_BUILD.SITE_POP_X1 [11:10] (R23): population of X1. -/
def F.GLB_PKG_BUILD_SITE_POP_X1 : Fld := ⟨R.GLB_PKG_BUILD, 11, 10⟩
/-- GLB_PKG_BUILD.SITE_POP_X0 [9:8] (R23): population of X0. -/
def F.GLB_PKG_BUILD_SITE_POP_X0 : Fld := ⟨R.GLB_PKG_BUILD, 9, 8⟩
/-- GLB_PKG_BUILD.STACK_PRESENT [7:0] (R23): one bit per stack, bit s for Ss; every shipped package reads 0xFF. -/
def F.GLB_PKG_BUILD_STACK_PRESENT : Fld := ⟨R.GLB_PKG_BUILD, 7, 0⟩
/-- MXA_STATUS.CTX_VALID [56:56] (R57): 1 when a context holds the tile. -/
def F.MXA_STATUS_CTX_VALID (t : Nat) : Fld := ⟨R.MXA_STATUS t, 56, 56⟩
/-- MXA_STATUS.CUR_CTX [55:48] (R57): number c of the context Cc that holds the tile. -/
def F.MXA_STATUS_CUR_CTX (t : Nat) : Fld := ⟨R.MXA_STATUS t, 55, 48⟩
/-- MXA_STATUS.FTQ_OCC [10:8] (R57): finished-tile queue entries in use, 0–4. -/
def F.MXA_STATUS_FTQ_OCC (t : Nat) : Fld := ⟨R.MXA_STATUS t, 10, 8⟩
/-- MXA_STATUS.PARTITION [6:4] (R57): partition that holds the tile's group. -/
def F.MXA_STATUS_PARTITION (t : Nat) : Fld := ⟨R.MXA_STATUS t, 6, 4⟩
/-- MXA_STATUS.STATE [3:0] (R57): service state; encoding below. -/
def F.MXA_STATUS_STATE (t : Nat) : Fld := ⟨R.MXA_STATUS t, 3, 0⟩
/-- MXA_CFG.PARTNER [15:8] (R58): tile number of the pair partner; valid when PAIR_EN is 1. -/
def F.MXA_CFG_PARTNER (t : Nat) : Fld := ⟨R.MXA_CFG t, 15, 8⟩
/-- MXA_CFG.PAIR_PRIMARY [1:1] (R58): 1 for the tile in the even group. -/
def F.MXA_CFG_PAIR_PRIMARY (t : Nat) : Fld := ⟨R.MXA_CFG t, 1, 1⟩
/-- MXA_CFG.PAIR_EN [0:0] (R58): 1 when the tile belongs to a verified pair. -/
def F.MXA_CFG_PAIR_EN (t : Nat) : Fld := ⟨R.MXA_CFG t, 0, 0⟩
/-- MXA_WIT_STATUS.FIRST_CNT [63:48] (R59): first mismatches recovered by recompute, saturating at 0xFFFF. -/
def F.MXA_WIT_STATUS_FIRST_CNT (t : Nat) : Fld := ⟨R.MXA_WIT_STATUS t, 63, 48⟩
/-- MXA_WIT_STATUS.LAST_ROW [40:34] (R59): row of the last mismatch, 0–127. -/
def F.MXA_WIT_STATUS_LAST_ROW (t : Nat) : Fld := ⟨R.MXA_WIT_STATUS t, 40, 34⟩
/-- MXA_WIT_STATUS.LAST_COL [33:27] (R59): column of the last mismatch, 0–127. -/
def F.MXA_WIT_STATUS_LAST_COL (t : Nat) : Fld := ⟨R.MXA_WIT_STATUS t, 33, 27⟩
/-- MXA_WIT_STATUS.ROW_MULTI [26:26] (R59): more than one witness column cell disagreed. -/
def F.MXA_WIT_STATUS_ROW_MULTI (t : Nat) : Fld := ⟨R.MXA_WIT_STATUS t, 26, 26⟩
/-- MXA_WIT_STATUS.COL_MULTI [25:25] (R59): more than one witness row cell disagreed. -/
def F.MXA_WIT_STATUS_COL_MULTI (t : Nat) : Fld := ⟨R.MXA_WIT_STATUS t, 25, 25⟩
/-- MXA_WIT_STATUS.FMT_CLASS [24:24] (R59): 0: exact path; 1: BF16 or FP16 path. -/
def F.MXA_WIT_STATUS_FMT_CLASS (t : Nat) : Fld := ⟨R.MXA_WIT_STATUS t, 24, 24⟩
/-- MXA_WIT_STATUS.PAIR_DISAGREE [3:3] (R59): the tile retired on a pair disagreement. -/
def F.MXA_WIT_STATUS_PAIR_DISAGREE (t : Nat) : Fld := ⟨R.MXA_WIT_STATUS t, 3, 3⟩
/-- MXA_WIT_STATUS.RETIRED_BY_WITNESS [2:2] (R59): the tile retired on a second mismatch or a failed self-test. -/
def F.MXA_WIT_STATUS_RETIRED_BY_WITNESS (t : Nat) : Fld := ⟨R.MXA_WIT_STATUS t, 2, 2⟩
/-- MXA_WIT_STATUS.DEFERRED [1:1] (R59): a recompute was deferred across a slice switch. -/
def F.MXA_WIT_STATUS_DEFERRED (t : Nat) : Fld := ⟨R.MXA_WIT_STATUS t, 1, 1⟩
/-- MXA_WIT_STATUS.FIRST [0:0] (R59): a first mismatch occurred since last cleared. -/
def F.MXA_WIT_STATUS_FIRST (t : Nat) : Fld := ⟨R.MXA_WIT_STATUS t, 0, 0⟩
/-- MXA_BILLETS.COUNT [63:0] (R60): billets that passed their witness check and drained. -/
def F.MXA_BILLETS_COUNT (t : Nat) : Fld := ⟨R.MXA_BILLETS t, 63, 0⟩
/-- MXA_STALL.FTQ_FULL [63:32] (R61): units stopped under R35, saturating. -/
def F.MXA_STALL_FTQ_FULL (t : Nat) : Fld := ⟨R.MXA_STALL t, 63, 32⟩
/-- MXA_STALL.OPND_WAIT [31:0] (R61): units in which a billet waited for operands, saturating. -/
def F.MXA_STALL_OPND_WAIT (t : Nat) : Fld := ⟨R.MXA_STALL t, 31, 0⟩
/-- BWL_MAP.FTQ_COUNT [47:40] (R62): banks of the finished-tile queue. -/
def F.BWL_MAP_FTQ_COUNT (t : Nat) : Fld := ⟨R.BWL_MAP t, 47, 40⟩
/-- BWL_MAP.FTQ_BASE [39:32] (R62): first bank of the finished-tile queue. -/
def F.BWL_MAP_FTQ_BASE (t : Nat) : Fld := ⟨R.BWL_MAP t, 39, 32⟩
/-- BWL_MAP.SCR_COUNT [31:24] (R62): banks of vector scratch. -/
def F.BWL_MAP_SCR_COUNT (t : Nat) : Fld := ⟨R.BWL_MAP t, 31, 24⟩
/-- BWL_MAP.SCR_BASE [23:16] (R62): first bank of vector scratch. -/
def F.BWL_MAP_SCR_BASE (t : Nat) : Fld := ⟨R.BWL_MAP t, 23, 16⟩
/-- BWL_MAP.OPND_COUNT [15:8] (R62): banks of the operand ring. -/
def F.BWL_MAP_OPND_COUNT (t : Nat) : Fld := ⟨R.BWL_MAP t, 15, 8⟩
/-- BWL_MAP.OPND_BASE [7:0] (R62): first bank of the operand ring. -/
def F.BWL_MAP_OPND_BASE (t : Nat) : Fld := ⟨R.BWL_MAP t, 7, 0⟩
/-- BWL_ECC.CE_CNT [63:32] (R63): corrected errors, saturating. -/
def F.BWL_ECC_CE_CNT (t : Nat) : Fld := ⟨R.BWL_ECC t, 63, 32⟩
/-- BWL_ECC.UE_BANK [12:8] (R63): bank of the last uncorrectable error. -/
def F.BWL_ECC_UE_BANK (t : Nat) : Fld := ⟨R.BWL_ECC t, 12, 8⟩
/-- BWL_ECC.UE [0:0] (R63): an uncorrectable error was detected since last cleared. -/
def F.BWL_ECC_UE (t : Nat) : Fld := ⟨R.BWL_ECC t, 0, 0⟩
/-- BWL_SCRUB.LAST_CLEAR [63:8] (R64): Spindle time bits [55:0] at which this tile's own last clear of its bowl and accumulator banks ended. It is updated at every clear: at step 4 of every slice switch (R174), whether or not a context held the tiles, and at every context end (R54, R285). A tile's clear may end before step 4 ends for its partition. -/
def F.BWL_SCRUB_LAST_CLEAR (t : Nat) : Fld := ⟨R.BWL_SCRUB t, 63, 8⟩
/-- BWL_SCRUB.BUSY [0:0] (R64): a clear is in progress. -/
def F.BWL_SCRUB_BUSY (t : Nat) : Fld := ⟨R.BWL_SCRUB t, 0, 0⟩
/-- VXE_STATUS.PC [41:32] (R140): word index of the current instruction. -/
def F.VXE_STATUS_PC (t : Nat) : Fld := ⟨R.VXE_STATUS t, 41, 32⟩
/-- VXE_STATUS.KSLOT [31:28] (R140): kernel slot running. -/
def F.VXE_STATUS_KSLOT (t : Nat) : Fld := ⟨R.VXE_STATUS t, 31, 28⟩
/-- VXE_STATUS.LOOP_DEPTH [26:24] (R140): loops open, 0–4. -/
def F.VXE_STATUS_LOOP_DEPTH (t : Nat) : Fld := ⟨R.VXE_STATUS t, 26, 24⟩
/-- VXE_STATUS.PEND_SUMM [10:8] (R140): unreleased summaries, 0–4. -/
def F.VXE_STATUS_PEND_SUMM (t : Nat) : Fld := ⟨R.VXE_STATUS t, 10, 8⟩
/-- VXE_STATUS.STATE [3:0] (R140): 0x0 OFF, 0x1 IDLE, 0x2 RUN, 0x3 WAIT_PORT, 0x4 WAIT_SUMM, 0x5 FAULTED; others reserved. -/
def F.VXE_STATUS_STATE (t : Nat) : Fld := ⟨R.VXE_STATUS t, 3, 0⟩
/-- VXE_CTL.PERM_TRAP [0:0] (R141): 1: an out-of-range permutation index faults the kernel. -/
def F.VXE_CTL_PERM_TRAP (t : Nat) : Fld := ⟨R.VXE_CTL t, 0, 0⟩
/-- VXE_STAT.SAT [4:4] (R142): integer or PACK4 saturation. -/
def F.VXE_STAT_SAT (t : Nat) : Fld := ⟨R.VXE_STAT t, 4, 4⟩
/-- VXE_STAT.UNF [3:3] (R142): underflow to zero. -/
def F.VXE_STAT_UNF (t : Nat) : Fld := ⟨R.VXE_STAT t, 3, 3⟩
/-- VXE_STAT.OVF [2:2] (R142): overflow. -/
def F.VXE_STAT_OVF (t : Nat) : Fld := ⟨R.VXE_STAT t, 2, 2⟩
/-- VXE_STAT.INVALID [1:1] (R142): invalid operation or NaN to integer. -/
def F.VXE_STAT_INVALID (t : Nat) : Fld := ⟨R.VXE_STAT t, 1, 1⟩
/-- VXE_STAT.PERM_RANGE [0:0] (R142): a permutation index was at or beyond VL. -/
def F.VXE_STAT_PERM_RANGE (t : Nat) : Fld := ⟨R.VXE_STAT t, 0, 0⟩
/-- VXE_FAULT.CODE [63:56] (R143): code of R134. -/
def F.VXE_FAULT_CODE (t : Nat) : Fld := ⟨R.VXE_FAULT t, 63, 56⟩
/-- VXE_FAULT.CTX [55:48] (R143): context number. -/
def F.VXE_FAULT_CTX (t : Nat) : Fld := ⟨R.VXE_FAULT t, 55, 48⟩
/-- VXE_FAULT.KSLOT [47:44] (R143): kernel slot. -/
def F.VXE_FAULT_KSLOT (t : Nat) : Fld := ⟨R.VXE_FAULT t, 47, 44⟩
/-- VXE_FAULT.PC [43:34] (R143): faulting instruction. -/
def F.VXE_FAULT_PC (t : Nat) : Fld := ⟨R.VXE_FAULT t, 43, 34⟩
/-- VXE_FAULT.VALID [0:0] (R143): a fault is recorded. -/
def F.VXE_FAULT_VALID (t : Nat) : Fld := ⟨R.VXE_FAULT t, 0, 0⟩
/-- VXE_INVOC.COUNT [63:0] (R144): invocations ended by END. -/
def F.VXE_INVOC_COUNT (t : Nat) : Fld := ⟨R.VXE_INVOC t, 63, 0⟩
/-- VXE_ECC.CE_CNT [63:32] (R144): corrected register-file errors, saturating. -/
def F.VXE_ECC_CE_CNT (t : Nat) : Fld := ⟨R.VXE_ECC t, 63, 32⟩
/-- VXE_ECC.RESIDUE_CNT [31:16] (R144): residue failures, saturating. -/
def F.VXE_ECC_RESIDUE_CNT (t : Nat) : Fld := ⟨R.VXE_ECC t, 31, 16⟩
/-- VXE_ECC.UE [0:0] (R144): an uncorrectable register-file error occurred. -/
def F.VXE_ECC_UE (t : Nat) : Fld := ⟨R.VXE_ECC t, 0, 0⟩
/-- CTXW_RING_BASE.BASE [63:12] (R145): address bits [63:12] of the submission ring; bits [63:40] must be zero in device memory. -/
def F.CTXW_RING_BASE_BASE (c : Nat) : Fld := ⟨R.CTXW_RING_BASE c, 63, 12⟩
/-- CTXW_RING_BASE.SPACE [0:0] (R145): 0 device memory, 1 host memory. -/
def F.CTXW_RING_BASE_SPACE (c : Nat) : Fld := ⟨R.CTXW_RING_BASE c, 0, 0⟩
/-- CTXW_RING_CFG.CMPL_LOG [11:8] (R145): the completion area holds 2^(CMPL_LOG + 6) records. -/
def F.CTXW_RING_CFG_CMPL_LOG (c : Nat) : Fld := ⟨R.CTXW_RING_CFG c, 11, 8⟩
/-- CTXW_RING_CFG.RING_LOG [7:4] (R145): the submission ring holds 2^(RING_LOG + 6) descriptors. -/
def F.CTXW_RING_CFG_RING_LOG (c : Nat) : Fld := ⟨R.CTXW_RING_CFG c, 7, 4⟩
/-- CTXW_CMPL_BASE.BASE [63:12] (R145): address bits [63:12] of the completion area. -/
def F.CTXW_CMPL_BASE_BASE (c : Nat) : Fld := ⟨R.CTXW_CMPL_BASE c, 63, 12⟩
/-- CTXW_CMPL_BASE.SPACE [0:0] (R145): as in CTXW_RING_BASE. -/
def F.CTXW_CMPL_BASE_SPACE (c : Nat) : Fld := ⟨R.CTXW_CMPL_BASE c, 0, 0⟩
/-- CTXW_RING_WORDS.ADDR [63:4] (R145): address bits [63:4] of the ring words. -/
def F.CTXW_RING_WORDS_ADDR (c : Nat) : Fld := ⟨R.CTXW_RING_WORDS c, 63, 4⟩
/-- CTXW_RING_WORDS.SPACE [0:0] (R145): as in CTXW_RING_BASE. -/
def F.CTXW_RING_WORDS_SPACE (c : Nat) : Fld := ⟨R.CTXW_RING_WORDS c, 0, 0⟩
/-- CTXW_RING_STATUS.HEAD [63:32] (R145): free-running count of descriptors accepted. -/
def F.CTXW_RING_STATUS_HEAD (c : Nat) : Fld := ⟨R.CTXW_RING_STATUS c, 63, 32⟩
/-- CTXW_RING_STATUS.IN_FLIGHT [23:15] (R145): operations accepted and not yet completed, 0–256. -/
def F.CTXW_RING_STATUS_IN_FLIGHT (c : Nat) : Fld := ⟨R.CTXW_RING_STATUS c, 23, 15⟩
/-- CTXW_RING_STATUS.PARKED [1:1] (R145): the context is parked. -/
def F.CTXW_RING_STATUS_PARKED (c : Nat) : Fld := ⟨R.CTXW_RING_STATUS c, 1, 1⟩
/-- CTXW_RING_STATUS.HOLDING [0:0] (R145): the context holds its partition's slice. -/
def F.CTXW_RING_STATUS_HOLDING (c : Nat) : Fld := ⟨R.CTXW_RING_STATUS c, 0, 0⟩
/-- CTXW_SO0.COUNT [63:0] (R168): counter; a write acts as SET and leaves ERR as it is. -/
def F.CTXW_SO0_COUNT (c i : Nat) : Fld := ⟨R.CTXW_SO0 c i, 63, 0⟩
/-- CTXW_SO8.SO [60:48] (R168): object number. -/
def F.CTXW_SO8_SO (c i : Nat) : Fld := ⟨R.CTXW_SO8 c i, 60, 48⟩
/-- CTXW_SO8.SAT [2:2] (R168): the counter saturated. -/
def F.CTXW_SO8_SAT (c i : Nat) : Fld := ⟨R.CTXW_SO8 c i, 2, 2⟩
/-- CTXW_SO8.ERR [1:1] (R168): an error signal arrived. -/
def F.CTXW_SO8_ERR (c i : Nat) : Fld := ⟨R.CTXW_SO8 c i, 1, 1⟩
/-- CTXW_SO8.PRESENT [0:0] (R168): the offset names an object of the context. -/
def F.CTXW_SO8_PRESENT (c i : Nat) : Fld := ⟨R.CTXW_SO8 c i, 0, 0⟩
/-- SCH_STATUS.CTX_VALID [63:63] (R182): a context holds the slice. -/
def F.SCH_STATUS_CTX_VALID (p : Nat) : Fld := ⟨R.SCH_STATUS p, 63, 63⟩
/-- SCH_STATUS.CUR_CTX [62:55] (R182): that context's number. -/
def F.SCH_STATUS_CUR_CTX (p : Nat) : Fld := ⟨R.SCH_STATUS p, 62, 55⟩
/-- SCH_STATUS.ENTRY [54:47] (R182): SCH_TABLE entry of the current slice. -/
def F.SCH_STATUS_ENTRY (p : Nat) : Fld := ⟨R.SCH_STATUS p, 54, 47⟩
/-- SCH_STATUS.STATE [3:0] (R182): 0x0 DOWN, 0x1 RUN, 0x2 IDLE, 0x3 SWITCH, 0x4 RESET; others reserved. DOWN until the device reports ready, and while the partition is held down (R464). From ready, every defined partition reads IDLE until a context first holds a slice. The partition is up, for R283, whenever STATE reads RUN, IDLE or SWITCH. -/
def F.SCH_STATUS_STATE (p : Nat) : Fld := ⟨R.SCH_STATUS p, 3, 0⟩
/-- SCH_CFG.SLICE_US [63:47] (R182): slice length, 100–100,000 µs. -/
def F.SCH_CFG_SLICE_US (p : Nat) : Fld := ⟨R.SCH_CFG p, 63, 47⟩
/-- SCH_CFG.PHASE_US [46:30] (R182): slice phase, below SLICE_US. -/
def F.SCH_CFG_PHASE_US (p : Nat) : Fld := ⟨R.SCH_CFG p, 46, 30⟩
/-- SCH_CFG.POLL_US [29:20] (R182): poll interval, 1–1,000 µs. -/
def F.SCH_CFG_POLL_US (p : Nat) : Fld := ⟨R.SCH_CFG p, 29, 20⟩
/-- SCH_CFG.SHARE [19:11] (R182): in-flight share, 1–256. -/
def F.SCH_CFG_SHARE (p : Nat) : Fld := ⟨R.SCH_CFG p, 19, 11⟩
/-- SCH_SWITCH.WINDOW_US [63:48] (R182): R175. -/
def F.SCH_SWITCH_WINDOW_US (p : Nat) : Fld := ⟨R.SCH_SWITCH p, 63, 48⟩
/-- SCH_SWITCH.LAST_US [47:32] (R182): duration of steps 2 to 5 at the last switch, rounded up. -/
def F.SCH_SWITCH_LAST_US (p : Nat) : Fld := ⟨R.SCH_SWITCH p, 47, 32⟩
/-- SCH_SWITCH.OVERRUN [31:0] (R182): R176, saturating. -/
def F.SCH_SWITCH_OVERRUN (p : Nat) : Fld := ⟨R.SCH_SWITCH p, 31, 0⟩
/-- SCH_COUNT.SWITCHES [63:32] (R182): switches performed, wrapping. -/
def F.SCH_COUNT_SWITCHES (p : Nat) : Fld := ⟨R.SCH_COUNT p, 63, 32⟩
/-- SCH_COUNT.IN_FLIGHT [8:0] (R182): operations in flight on the partition. -/
def F.SCH_COUNT_IN_FLIGHT (p : Nat) : Fld := ⟨R.SCH_COUNT p, 8, 0⟩
/-- SCH_TABLE.VALID [63:63] (R182): the entry is in the cycle. -/
def F.SCH_TABLE_VALID (p e : Nat) : Fld := ⟨R.SCH_TABLE p e, 63, 63⟩
/-- SCH_TABLE.WC [62:62] (R182): the context belongs to a work-conserving set. -/
def F.SCH_TABLE_WC (p e : Nat) : Fld := ⟨R.SCH_TABLE p e, 62, 62⟩
/-- SCH_TABLE.WC_SET [61:56] (R182): set number. -/
def F.SCH_TABLE_WC_SET (p e : Nat) : Fld := ⟨R.SCH_TABLE p e, 61, 56⟩
/-- SCH_TABLE.CTX [55:48] (R182): context of the slice. -/
def F.SCH_TABLE_CTX (p e : Nat) : Fld := ⟨R.SCH_TABLE p e, 55, 48⟩
/-- SCH_CTXQ.BOUND [63:63] (R182): the context is bound to this partition. -/
def F.SCH_CTXQ_BOUND (p c : Nat) : Fld := ⟨R.SCH_CTXQ p c, 63, 63⟩
/-- SCH_CTXQ.IN_FLIGHT [40:32] (R182): the context's operations in flight. -/
def F.SCH_CTXQ_IN_FLIGHT (p c : Nat) : Fld := ⟨R.SCH_CTXQ p c, 40, 32⟩
/-- SCH_CTXQ.QUOTA [8:0] (R182): R161. -/
def F.SCH_CTXQ_QUOTA (p c : Nat) : Fld := ⟨R.SCH_CTXQ p c, 8, 0⟩
/-- SYN_CNT.COUNT [63:0] (R183): counter; the context writes it through CTXW_SO. -/
def F.SYN_CNT_COUNT (n : Nat) : Fld := ⟨R.SYN_CNT n, 63, 0⟩
/-- SYN_CTL.VALID [63:63] (R183): the object is assigned. -/
def F.SYN_CTL_VALID (n : Nat) : Fld := ⟨R.SYN_CTL n, 63, 63⟩
/-- SYN_CTL.POOL [62:62] (R183): owned by a glue-up pool. -/
def F.SYN_CTL_POOL (n : Nat) : Fld := ⟨R.SYN_CTL n, 62, 62⟩
/-- SYN_CTL.POOL_ID [61:56] (R183): pool 0–63 when POOL is 1. -/
def F.SYN_CTL_POOL_ID (n : Nat) : Fld := ⟨R.SYN_CTL n, 61, 56⟩
/-- SYN_CTL.OWNER [55:48] (R183): owning context when POOL is 0. -/
def F.SYN_CTL_OWNER (n : Nat) : Fld := ⟨R.SYN_CTL n, 55, 48⟩
/-- SYN_CTL.SAT [2:2] (R183): R166. -/
def F.SYN_CTL_SAT (n : Nat) : Fld := ⟨R.SYN_CTL n, 2, 2⟩
/-- SYN_CTL.ERR [1:1] (R183): R160, R166. -/
def F.SYN_CTL_ERR (n : Nat) : Fld := ⟨R.SYN_CTL n, 1, 1⟩
/-- CTXW_MEMGEO.STRIPES [63:42] (R192): range in stripes of 256 KiB, save area excluded. -/
def F.CTXW_MEMGEO_STRIPES (c : Nat) : Fld := ⟨R.CTXW_MEMGEO c, 63, 42⟩
/-- CTXW_MEMGEO.PITCH [41:31] (R192): pitch, 1–1,024. -/
def F.CTXW_MEMGEO_PITCH (c : Nat) : Fld := ⟨R.CTXW_MEMGEO c, 41, 31⟩
/-- CTXW_MEMGEO.NCH [30:22] (R192): channels owned, 1–256. -/
def F.CTXW_MEMGEO_NCH (c : Nat) : Fld := ⟨R.CTXW_MEMGEO c, 30, 22⟩
/-- CTXW_MEMGEO.SAVE_STRIPES [9:0] (R192): stripes of the save area. -/
def F.CTXW_MEMGEO_SAVE_STRIPES (c : Nat) : Fld := ⟨R.CTXW_MEMGEO c, 9, 0⟩
/-- CTXW_SPREAD.RANK_ODD [49:40] (R192): rank of entry 2i + 1. -/
def F.CTXW_SPREAD_RANK_ODD (c i : Nat) : Fld := ⟨R.CTXW_SPREAD c i, 49, 40⟩
/-- CTXW_SPREAD.CH_ODD [39:32] (R192): channel of entry 2i + 1. -/
def F.CTXW_SPREAD_CH_ODD (c i : Nat) : Fld := ⟨R.CTXW_SPREAD c i, 39, 32⟩
/-- CTXW_SPREAD.RANK_EVEN [17:8] (R192): rank of entry 2i. -/
def F.CTXW_SPREAD_RANK_EVEN (c i : Nat) : Fld := ⟨R.CTXW_SPREAD c i, 17, 8⟩
/-- CTXW_SPREAD.CH_EVEN [7:0] (R192): channel of entry 2i. -/
def F.CTXW_SPREAD_CH_EVEN (c i : Nat) : Fld := ⟨R.CTXW_SPREAD c i, 7, 0⟩
/-- MEM_STATUS.TEMP [63:56] (R214): highest sensor reading of the last sample, signed, °C. Reads 0 until the first sample after the base die is powered, and keeps the last sample while the stack is powered down. -/
def F.MEM_STATUS_TEMP (s : Nat) : Fld := ⟨R.MEM_STATUS s, 63, 56⟩
/-- MEM_STATUS.TEMP_PEAK [55:48] (R214): highest sample since device reset, signed, °C. The first sample sets it whatever its sign, so the reset value 0 never counts as a reading. -/
def F.MEM_STATUS_TEMP_PEAK (s : Nat) : Fld := ⟨R.MEM_STATUS s, 55, 48⟩
/-- MEM_STATUS.STRETCH [11:9] (R214): 0–7 (R212). -/
def F.MEM_STATUS_STRETCH (s : Nat) : Fld := ⟨R.MEM_STATUS s, 11, 9⟩
/-- MEM_STATUS.REFRESH_2X [8:8] (R214): refresh doubled. -/
def F.MEM_STATUS_REFRESH_2X (s : Nat) : Fld := ⟨R.MEM_STATUS s, 8, 8⟩
/-- MEM_STATUS.STATE [3:0] (R214): 0x0 OFF, 0x1 TRAINING, 0x2 RUN, 0x3 DOWN_THERMAL, 0x4 DOWN_LINK; others reserved. -/
def F.MEM_STATUS_STATE (s : Nat) : Fld := ⟨R.MEM_STATUS s, 3, 0⟩
/-- MEM_REPAIR.FRAMES_RETIRED [63:48] (R214): frames retired on the stack. -/
def F.MEM_REPAIR_FRAMES_RETIRED (s : Nat) : Fld := ⟨R.MEM_REPAIR s, 63, 48⟩
/-- MEM_REPAIR.SECOND_REMAPS [47:32] (R214): rows remapped twice. -/
def F.MEM_REPAIR_SECOND_REMAPS (s : Nat) : Fld := ⟨R.MEM_REPAIR s, 47, 32⟩
/-- MEM_REPAIR.REMAPS [31:16] (R214): remaps performed, saturating. -/
def F.MEM_REPAIR_REMAPS (s : Nat) : Fld := ⟨R.MEM_REPAIR s, 31, 16⟩
/-- MEM_REPAIR.SPARES_FREE [13:0] (R214): free spare rows on the stack, 0–8,192. -/
def F.MEM_REPAIR_SPARES_FREE (s : Nat) : Fld := ⟨R.MEM_REPAIR s, 13, 0⟩
/-- MEM_SCRUB.LAST_PASS [63:8] (R214): Spindle time bits [55:0] at which the last full pass ended. -/
def F.MEM_SCRUB_LAST_PASS (s : Nat) : Fld := ⟨R.MEM_SCRUB s, 63, 8⟩
/-- MEM_SCRUB.PASSES [7:0] (R214): full passes, wrapping. -/
def F.MEM_SCRUB_PASSES (s : Nat) : Fld := ⟨R.MEM_SCRUB s, 7, 0⟩
/-- MEM_WHITTLE.GRANULES [63:0] (R214): granules moved, wrapping. -/
def F.MEM_WHITTLE_GRANULES (s : Nat) : Fld := ⟨R.MEM_WHITTLE s, 63, 0⟩
/-- MEM_CH.CAP_FRAMES [63:48] (R214): logical frames at the last allocation (R206). -/
def F.MEM_CH_CAP_FRAMES (s l : Nat) : Fld := ⟨R.MEM_CH s l, 63, 48⟩
/-- MEM_CH.RET_FRAMES [47:32] (R214): retired frames of the channel. -/
def F.MEM_CH_RET_FRAMES (s l : Nat) : Fld := ⟨R.MEM_CH s l, 47, 32⟩
/-- MEM_CH.OWNER [31:24] (R214): owning context number. -/
def F.MEM_CH_OWNER (s l : Nat) : Fld := ⟨R.MEM_CH s l, 31, 24⟩
/-- MEM_CH.OWNED [23:23] (R214): the channel has an owner. -/
def F.MEM_CH_OWNED (s l : Nat) : Fld := ⟨R.MEM_CH s l, 23, 23⟩
/-- MEM_CH.STATE [3:0] (R214): 0x0 FREE, 0x1 OWNED, 0x2 CLEARING, 0x3 RETIRED, 0x4 DOWN; others reserved. -/
def F.MEM_CH_STATE (s l : Nat) : Fld := ⟨R.MEM_CH s l, 3, 0⟩
/-- MEM_ECC.CE_CNT [63:32] (R214): corrected granules, saturating. -/
def F.MEM_ECC_CE_CNT (s l : Nat) : Fld := ⟨R.MEM_ECC s l, 63, 32⟩
/-- MEM_ECC.UE_CNT [31:16] (R214): granules found uncorrectable, each counted once, when first found (R207), saturating. -/
def F.MEM_ECC_UE_CNT (s l : Nat) : Fld := ⟨R.MEM_ECC s l, 31, 16⟩
/-- MEM_ECC.UE [0:0] (R214): an uncorrectable granule was found since last cleared. -/
def F.MEM_ECC_UE (s l : Nat) : Fld := ⟨R.MEM_ECC s l, 0, 0⟩
/-- MEM_REG_CTX.RATE [63:48] (R214): byte-bucket cap in units of 0.1 GB/s; 0: no cap. -/
def F.MEM_REG_CTX_RATE (s c : Nat) : Fld := ⟨R.MEM_REG_CTX s c, 63, 48⟩
/-- MEM_REG_CTX.BURST [47:40] (R214): bucket depth in units of 4 KiB, 1–255. -/
def F.MEM_REG_CTX_BURST (s c : Nat) : Fld := ⟨R.MEM_REG_CTX s c, 47, 40⟩
/-- MEM_REG_CTX.WSHARE [39:33] (R214): Whittle share, 0–64, in units of 64 M granules/s. -/
def F.MEM_REG_CTX_WSHARE (s c : Nat) : Fld := ⟨R.MEM_REG_CTX s c, 39, 33⟩
/-- MEM_REG_CTX.EFF_RATE [15:0] (R214): byte rate in force after stretching, units of 0.1 GB/s. -/
def F.MEM_REG_CTX_EFF_RATE (s c : Nat) : Fld := ⟨R.MEM_REG_CTX s c, 15, 0⟩
/-- CTXW_PASID.VALID [63:63] (R245): the index names an address space. -/
def F.CTXW_PASID_VALID (c i : Nat) : Fld := ⟨R.CTXW_PASID c i, 63, 63⟩
/-- CTXW_PASID.NOPASID [62:62] (R245): requests carry no PASID prefix. -/
def F.CTXW_PASID_NOPASID (c i : Nat) : Fld := ⟨R.CTXW_PASID c i, 62, 62⟩
/-- CTXW_PASID.PASID [19:0] (R245): PASID; zero when NOPASID is 1. -/
def F.CTXW_PASID_PASID (c i : Nat) : Fld := ⟨R.CTXW_PASID c i, 19, 0⟩
/-- XLT_STATUS.PFT_USED [56:48] (R246): table entries in use, 0–256. -/
def F.XLT_STATUS_PFT_USED : Fld := ⟨R.XLT_STATUS, 56, 48⟩
/-- XLT_STATUS.PR_OUT [38:30] (R246): page requests sent and unanswered. -/
def F.XLT_STATUS_PR_OUT : Fld := ⟨R.XLT_STATUS, 38, 30⟩
/-- XLT_STATUS.PRI_STOPPED [2:2] (R246): 1 while the PRI of at least one VF is stopped (R228). -/
def F.XLT_STATUS_PRI_STOPPED : Fld := ⟨R.XLT_STATUS, 2, 2⟩
/-- XLT_STATUS.INV_BUSY [1:1] (R246): an invalidation is between steps 1 and 5 of R224. -/
def F.XLT_STATUS_INV_BUSY : Fld := ⟨R.XLT_STATUS, 1, 1⟩
/-- XLT_CFG.PREFETCH [47:40] (R247): bit p: partition Pp in prefetch mode (R221). -/
def F.XLT_CFG_PREFETCH : Fld := ⟨R.XLT_CFG, 47, 40⟩
/-- XLT_CFG.PF_DEPTH [5:0] (R247): pages kept ahead per stream in prefetch mode, 1–32. -/
def F.XLT_CFG_PF_DEPTH : Fld := ⟨R.XLT_CFG, 5, 0⟩
/-- XLT_COUNT.ATS_REQ [63:40] (R248): ATS Translation Requests sent, wrapping. -/
def F.XLT_COUNT_ATS_REQ : Fld := ⟨R.XLT_COUNT, 63, 40⟩
/-- XLT_COUNT.INV [39:16] (R248): invalidations completed, wrapping. -/
def F.XLT_COUNT_INV : Fld := ⟨R.XLT_COUNT, 39, 16⟩
/-- XLT_COUNT.PR_MERGED [15:8] (R248): page requests that joined an existing entry, saturating. -/
def F.XLT_COUNT_PR_MERGED : Fld := ⟨R.XLT_COUNT, 15, 8⟩
/-- XLT_COUNT.PR_ORPHAN [7:0] (R248): responses discarded under R228 or after R229, saturating. -/
def F.XLT_COUNT_PR_ORPHAN : Fld := ⟨R.XLT_COUNT, 7, 0⟩
/-- XLT_CTX.PFT_CAP [63:58] (R249): R227, 1–32. -/
def F.XLT_CTX_PFT_CAP (c : Nat) : Fld := ⟨R.XLT_CTX c, 63, 58⟩
/-- XLT_CTX.PFT_HELD [53:48] (R249): entries the context holds. -/
def F.XLT_CTX_PFT_HELD (c : Nat) : Fld := ⟨R.XLT_CTX c, 53, 48⟩
/-- XLT_CTX.GEN [47:0] (R249): the context's generation (R222). -/
def F.XLT_CTX_GEN (c : Nat) : Fld := ⟨R.XLT_CTX c, 47, 0⟩
/-- XLT_PFT0.PAGE [63:12] (R250): untranslated page bits [63:12]. -/
def F.XLT_PFT0_PAGE (i : Nat) : Fld := ⟨R.XLT_PFT0 i, 63, 12⟩
/-- XLT_PFT0.CTX [11:4] (R250): context number. -/
def F.XLT_PFT0_CTX (i : Nat) : Fld := ⟨R.XLT_PFT0 i, 11, 4⟩
/-- XLT_PFT0.WREQ [3:3] (R250): write flag requested. -/
def F.XLT_PFT0_WREQ (i : Nat) : Fld := ⟨R.XLT_PFT0 i, 3, 3⟩
/-- XLT_PFT0.RREQ [2:2] (R250): read flag requested. -/
def F.XLT_PFT0_RREQ (i : Nat) : Fld := ⟨R.XLT_PFT0 i, 2, 2⟩
/-- XLT_PFT0.STATE [1:0] (R250): 0b00 FREE, 0b01 QUEUED, 0b10 SENT, 0b11 ABANDONED. -/
def F.XLT_PFT0_STATE (i : Nat) : Fld := ⟨R.XLT_PFT0 i, 1, 0⟩
/-- XLT_PFT8.PASID [63:44] (R250): PASID, or zero for NOPASID. -/
def F.XLT_PFT8_PASID (i : Nat) : Fld := ⟨R.XLT_PFT8 i, 63, 44⟩
/-- XLT_PFT8.PI [43:42] (R250): PASID index. -/
def F.XLT_PFT8_PI (i : Nat) : Fld := ⟨R.XLT_PFT8 i, 43, 42⟩
/-- XLT_PFT8.AGE_US [41:10] (R250): µs since the request was sent, saturating. -/
def F.XLT_PFT8_AGE_US (i : Nat) : Fld := ⟨R.XLT_PFT8 i, 41, 10⟩
/-- XLT_PFT8.SENT_CNT [1:0] (R250): page requests sent for the key, 1–2 (R226). -/
def F.XLT_PFT8_SENT_CNT (i : Nat) : Fld := ⟨R.XLT_PFT8 i, 1, 0⟩
/-- DMA_PART_CFG.HOST_SHARE [6:0] (R251): R234, 0–64. -/
def F.DMA_PART_CFG_HOST_SHARE (p : Nat) : Fld := ⟨R.DMA_PART_CFG p, 6, 0⟩
/-- DMA_ENG_STATUS.CTX [63:56] (R252): context of the operation served. -/
def F.DMA_ENG_STATUS_CTX (e : Nat) : Fld := ⟨R.DMA_ENG_STATUS e, 63, 56⟩
/-- DMA_ENG_STATUS.KIND [55:48] (R252): KIND of that operation. -/
def F.DMA_ENG_STATUS_KIND (e : Nat) : Fld := ⟨R.DMA_ENG_STATUS e, 55, 48⟩
/-- DMA_ENG_STATUS.OUT_RD [47:42] (R252): host reads outstanding, 0–32. -/
def F.DMA_ENG_STATUS_OUT_RD (e : Nat) : Fld := ⟨R.DMA_ENG_STATUS e, 47, 42⟩
/-- DMA_ENG_STATUS.STATE [3:0] (R252): 0x0 IDLE, 0x1 TRANSLATE, 0x2 RUN, 0x3 STOPPING, 0x4 WAIT_PR, 0x5 WAIT_INV; others reserved. -/
def F.DMA_ENG_STATUS_STATE (e : Nat) : Fld := ⟨R.DMA_ENG_STATUS e, 3, 0⟩
/-- DMA_ENG_CURSOR.ROW [63:40] (R252): COPY_2D row of the cursor, low 24 bits. -/
def F.DMA_ENG_CURSOR_ROW (e : Nat) : Fld := ⟨R.DMA_ENG_CURSOR e, 63, 40⟩
/-- DMA_ENG_CURSOR.BYTE [39:0] (R252): cursor byte (R241). -/
def F.DMA_ENG_CURSOR_BYTE (e : Nat) : Fld := ⟨R.DMA_ENG_CURSOR e, 39, 0⟩
/-- DMA_ENG_BYTES.COUNT [63:0] (R252): bytes written, wrapping. -/
def F.DMA_ENG_BYTES_COUNT (e : Nat) : Fld := ⟨R.DMA_ENG_BYTES e, 63, 0⟩
/-- NOC_STATUS.PROXY [55:48] (R278): bit p: the proxy answers for Pp (R272). -/
def F.NOC_STATUS_PROXY : Fld := ⟨R.NOC_STATUS, 55, 48⟩
/-- NOC_STATUS.PLANES [3:0] (R278): bit n: plane n in service (R276). -/
def F.NOC_STATUS_PLANES : Fld := ⟨R.NOC_STATUS, 3, 0⟩
/-- NOC_ERR.REPLAY [63:32] (R278): link replays, saturating. -/
def F.NOC_ERR_REPLAY : Fld := ⟨R.NOC_ERR, 63, 32⟩
/-- NOC_ERR.E2E_CE [31:16] (R278): flits corrected end to end, saturating. -/
def F.NOC_ERR_E2E_CE : Fld := ⟨R.NOC_ERR, 31, 16⟩
/-- NOC_ERR.E2E_UE [15:8] (R278): uncorrectable flits, saturating. -/
def F.NOC_ERR_E2E_UE : Fld := ⟨R.NOC_ERR, 15, 8⟩
/-- NOC_ERR.UE [0:0] (R278): an uncorrectable flit occurred since last cleared. -/
def F.NOC_ERR_UE : Fld := ⟨R.NOC_ERR, 0, 0⟩
/-- NOC_LAST_ERR.ROUTER [63:57] (R278): router of the last event. -/
def F.NOC_LAST_ERR_ROUTER : Fld := ⟨R.NOC_LAST_ERR, 63, 57⟩
/-- NOC_LAST_ERR.PORT [56:54] (R278): 0 local, 1 N, 2 S, 3 E, 4 W, 5 outward port 1; others reserved. -/
def F.NOC_LAST_ERR_PORT : Fld := ⟨R.NOC_LAST_ERR, 56, 54⟩
/-- NOC_LAST_ERR.PLANE [53:52] (R278): plane. -/
def F.NOC_LAST_ERR_PLANE : Fld := ⟨R.NOC_LAST_ERR, 53, 52⟩
/-- NOC_LAST_ERR.VN [51:50] (R278): VN of the flit. -/
def F.NOC_LAST_ERR_VN : Fld := ⟨R.NOC_LAST_ERR, 51, 50⟩
/-- NOC_LAST_ERR.KIND [49:48] (R278): 0b00 replay, 0b01 end-to-end corrected, 0b10 end-to-end uncorrectable, 0b11 link failed. -/
def F.NOC_LAST_ERR_KIND : Fld := ⟨R.NOC_LAST_ERR, 49, 48⟩
/-- NOC_LAST_ERR.TIME [47:0] (R278): Spindle time bits [47:0]. -/
def F.NOC_LAST_ERR_TIME : Fld := ⟨R.NOC_LAST_ERR, 47, 0⟩
/-- NOC_OWN.COUNT [63:32] (R278): failed ownership checks, saturating. -/
def F.NOC_OWN_COUNT : Fld := ⟨R.NOC_OWN, 63, 32⟩
/-- NOC_OWN.SRC [24:18] (R278): source router of the last failure. -/
def F.NOC_OWN_SRC : Fld := ⟨R.NOC_OWN, 24, 18⟩
/-- NOC_OWN.SAG [17:16] (R278): its agent index. -/
def F.NOC_OWN_SAG : Fld := ⟨R.NOC_OWN, 17, 16⟩
/-- NOC_OWN.CTX [15:8] (R278): CTX it carried. -/
def F.NOC_OWN_CTX : Fld := ⟨R.NOC_OWN, 15, 8⟩
/-- NOC_OWN.VALID [0:0] (R278): a failure is recorded. -/
def F.NOC_OWN_VALID : Fld := ⟨R.NOC_OWN, 0, 0⟩
/-- NOC_REG_CTX.RATE [63:53] (R278): tokens per µs in units of 1 GB/s of 128-byte flits, 1–1,024; 0: no cap. -/
def F.NOC_REG_CTX_RATE (c : Nat) : Fld := ⟨R.NOC_REG_CTX c, 63, 53⟩
/-- NOC_REG_CTX.BURST [52:41] (R278): bucket depth in flits, 1–4,095. -/
def F.NOC_REG_CTX_BURST (c : Nat) : Fld := ⟨R.NOC_REG_CTX c, 52, 41⟩
/-- CTXW_STATE.FAULT [63:48] (R309): code of the fault that last ended the context, as "Fault Handling, the Single-Fault Promise and the Black Box" encodes it; 0 none. -/
def F.CTXW_STATE_FAULT (c : Nat) : Fld := ⟨R.CTXW_STATE c, 63, 48⟩
/-- CTXW_STATE.SCRUB [7:7] (R309): steps 2 to 5 of R285 in progress. -/
def F.CTXW_STATE_SCRUB (c : Nat) : Fld := ⟨R.CTXW_STATE c, 7, 7⟩
/-- CTXW_STATE.TDI [6:4] (R309): 0 CONFIG_UNLOCKED, 1 CONFIG_LOCKED, 2 RUN, 3 ERROR; others reserved. -/
def F.CTXW_STATE_TDI (c : Nat) : Fld := ⟨R.CTXW_STATE c, 6, 4⟩
/-- CTXW_STATE.STATE [3:0] (R309): R279. -/
def F.CTXW_STATE_STATE (c : Nat) : Fld := ⟨R.CTXW_STATE c, 3, 0⟩
/-- CTXW_CTL.MEASURE [2:2] (R309): asks for measurement, as "Heartwood, Roles and Attestation" lays down. -/
def F.CTXW_CTL_MEASURE (c : Nat) : Fld := ⟨R.CTXW_CTL c, 2, 2⟩
/-- CTXW_CTL.START [1:1] (R309): LOCKED to RUN, non-confidential contexts only (R282). -/
def F.CTXW_CTL_START (c : Nat) : Fld := ⟨R.CTXW_CTL c, 1, 1⟩
/-- CTXW_CTL.LOCK [0:0] (R309): READY to LOCKED, non-confidential contexts only. -/
def F.CTXW_CTL_LOCK (c : Nat) : Fld := ⟨R.CTXW_CTL c, 0, 0⟩
/-- CTX_STATE.FAULT [63:48] (R310): as CTXW_STATE.FAULT. -/
def F.CTX_STATE_FAULT (c : Nat) : Fld := ⟨R.CTX_STATE c, 63, 48⟩
/-- CTX_STATE.ENDS [47:32] (R310): ends since device reset, saturating. -/
def F.CTX_STATE_ENDS (c : Nat) : Fld := ⟨R.CTX_STATE c, 47, 32⟩
/-- CTX_STATE.SCRUB [7:7] (R310): as CTXW_STATE.SCRUB. -/
def F.CTX_STATE_SCRUB (c : Nat) : Fld := ⟨R.CTX_STATE c, 7, 7⟩
/-- CTX_STATE.TDI [6:4] (R310): as CTXW_STATE.TDI. -/
def F.CTX_STATE_TDI (c : Nat) : Fld := ⟨R.CTX_STATE c, 6, 4⟩
/-- CTX_STATE.STATE [3:0] (R310): R279. -/
def F.CTX_STATE_STATE (c : Nat) : Fld := ⟨R.CTX_STATE c, 3, 0⟩
/-- CTX_CFG.TENANT [63:48] (R310): tenant identifier; 0xFFFF for a holder. -/
def F.CTX_CFG_TENANT (c : Nat) : Fld := ⟨R.CTX_CFG c, 63, 48⟩
/-- CTX_CFG.DEFINED [47:47] (R310): the image defines the context. -/
def F.CTX_CFG_DEFINED (c : Nat) : Fld := ⟨R.CTX_CFG c, 47, 47⟩
/-- CTX_CFG.NONCONF [46:46] (R310): non-confidential. -/
def F.CTX_CFG_NONCONF (c : Nat) : Fld := ⟨R.CTX_CFG c, 46, 46⟩
/-- CTX_CFG.HOLDER [45:45] (R310): R291. -/
def F.CTX_CFG_HOLDER (c : Nat) : Fld := ⟨R.CTX_CFG c, 45, 45⟩
/-- CTX_CFG.PARTITION [34:32] (R310): bound partition; ignored for a holder. -/
def F.CTX_CFG_PARTITION (c : Nat) : Fld := ⟨R.CTX_CFG c, 34, 32⟩
/-- CTX_CFG.NCH [8:0] (R310): channels owned, 1–256. -/
def F.CTX_CFG_NCH (c : Nat) : Fld := ⟨R.CTX_CFG c, 8, 0⟩
/-- CTX_PART.VALID [63:63] (R310): the partition is defined. -/
def F.CTX_PART_VALID (p : Nat) : Fld := ⟨R.CTX_PART p, 63, 63⟩
/-- CTX_PART.SOLE [62:62] (R310): sole-tenant (R290). -/
def F.CTX_PART_SOLE (p : Nat) : Fld := ⟨R.CTX_PART p, 62, 62⟩
/-- CTX_PART.GROUPS [23:16] (R310): bit g: group Gg belongs to the partition. -/
def F.CTX_PART_GROUPS (p : Nat) : Fld := ⟨R.CTX_PART p, 23, 16⟩
/-- CTX_PART.BOUND [8:0] (R310): contexts bound. -/
def F.CTX_PART_BOUND (p : Nat) : Fld := ⟨R.CTX_PART p, 8, 0⟩
/-- GUP_STATUS.RELEASED [63:32] (R311): rounds released, wrapping. -/
def F.GUP_STATUS_RELEASED : Fld := ⟨R.GUP_STATUS, 63, 32⟩
/-- GUP_STATUS.FAILED [31:16] (R311): rounds failed, wrapping. -/
def F.GUP_STATUS_FAILED : Fld := ⟨R.GUP_STATUS, 31, 16⟩
/-- GUP_STATUS.POOLS [6:0] (R311): pools defined, 0–64. -/
def F.GUP_STATUS_POOLS : Fld := ⟨R.GUP_STATUS, 6, 0⟩
/-- GUP_CFG.VALID [63:63] (R311): the pool is defined. -/
def F.GUP_CFG_VALID (p : Nat) : Fld := ⟨R.GUP_CFG p, 63, 63⟩
/-- GUP_CFG.SCOPE [62:61] (R311): R292. -/
def F.GUP_CFG_SCOPE (p : Nat) : Fld := ⟨R.GUP_CFG p, 62, 61⟩
/-- GUP_CFG.FMT [60:60] (R311): 0 FP32, 1 BF16. -/
def F.GUP_CFG_FMT (p : Nat) : Fld := ⟨R.GUP_CFG p, 60, 60⟩
/-- GUP_CFG.HOLDER [59:52] (R311): holder context. -/
def F.GUP_CFG_HOLDER (p : Nat) : Fld := ⟨R.GUP_CFG p, 59, 52⟩
/-- GUP_CFG.K [51:43] (R311): 2–256. -/
def F.GUP_CFG_K (p : Nat) : Fld := ⟨R.GUP_CFG p, 51, 43⟩
/-- GUP_CFG.SO_BLOCK [42:35] (R311): object block. -/
def F.GUP_CFG_SO_BLOCK (p : Nat) : Fld := ⟨R.GUP_CFG p, 42, 35⟩
/-- GUP_CFG.LEN [31:0] (R311): elements per contribution. -/
def F.GUP_CFG_LEN (p : Nat) : Fld := ⟨R.GUP_CFG p, 31, 0⟩
/-- GUP_RND.ROUND [63:32] (R311): open round, or the last one opened. -/
def F.GUP_RND_ROUND (p : Nat) : Fld := ⟨R.GUP_RND p, 63, 32⟩
/-- GUP_RND.SEALED [31:16] (R311): slots sealed in ROUND, over all packages at the root, 0–65,535. -/
def F.GUP_RND_SEALED (p : Nat) : Fld := ⟨R.GUP_RND p, 31, 16⟩
/-- GUP_RND.STATE [3:0] (R311): R300. -/
def F.GUP_RND_STATE (p : Nat) : Fld := ⟨R.GUP_RND p, 3, 0⟩
/-- GUP_CLIP.CLIP [63:32] (R311): FP32. -/
def F.GUP_CLIP_CLIP (p : Nat) : Fld := ⟨R.GUP_CLIP p, 63, 32⟩
/-- GUP_CLIP.SIGMA [31:0] (R311): 16.16 fixed point. -/
def F.GUP_CLIP_SIGMA (p : Nat) : Fld := ⟨R.GUP_CLIP p, 31, 0⟩
/-- GUP_DEADLINE.DEADLINE_NS [63:24] (R311): R292. -/
def F.GUP_DEADLINE_DEADLINE_NS (p : Nat) : Fld := ⟨R.GUP_DEADLINE p, 63, 24⟩
/-- GUP_UID.UID [63:0] (R311): R292. -/
def F.GUP_UID_UID (p : Nat) : Fld := ⟨R.GUP_UID p, 63, 0⟩
/-- GUP_SET.CTX [63:0] (R311): words 0–3: MEMBERS; words 4–7: OUTPUTS; bit b of word w names context C(64 (w mod 4) + b). -/
def F.GUP_SET_CTX (p w : Nat) : Fld := ⟨R.GUP_SET p w, 63, 0⟩
/-- D2D_MOD_STATUS.RETRAINS [63:48] (R334): retrains since device reset, saturating. -/
def F.D2D_MOD_STATUS_RETRAINS (m : Nat) : Fld := ⟨R.D2D_MOD_STATUS m, 63, 48⟩
/-- D2D_MOD_STATUS.SAVED_USED [7:7] (R334): the last training used saved settings. -/
def F.D2D_MOD_STATUS_SAVED_USED (m : Nat) : Fld := ⟨R.D2D_MOD_STATUS m, 7, 7⟩
/-- D2D_MOD_STATUS.WIDTH [5:4] (R334): 0b00 none, 0b01 x32 lower half, 0b10 x32 upper half, 0b11 x64. -/
def F.D2D_MOD_STATUS_WIDTH (m : Nat) : Fld := ⟨R.D2D_MOD_STATUS m, 5, 4⟩
/-- D2D_MOD_STATUS.STATE [3:0] (R334): 0x0 DOWN, 0x1 TRAINING, 0x2 ACTIVE, 0x3 STANDBY, 0x4 OFF, 0x5 RETRAIN, 0x6 LOWPOWER; others reserved. -/
def F.D2D_MOD_STATUS_STATE (m : Nat) : Fld := ⟨R.D2D_MOD_STATUS m, 3, 0⟩
/-- D2D_MOD_CFG.ROLE [1:0] (R334): role from the image (R314); the role in force shows in STATE. -/
def F.D2D_MOD_CFG_ROLE (m : Nat) : Fld := ⟨R.D2D_MOD_CFG m, 1, 0⟩
/-- D2D_MOD_REPAIR.TX_LO [15:14] (R334): spares used, hub-to-die lower half, 0–2. -/
def F.D2D_MOD_REPAIR_TX_LO (m : Nat) : Fld := ⟨R.D2D_MOD_REPAIR m, 15, 14⟩
/-- D2D_MOD_REPAIR.TX_HI [13:12] (R334): spares used, hub-to-die upper half. -/
def F.D2D_MOD_REPAIR_TX_HI (m : Nat) : Fld := ⟨R.D2D_MOD_REPAIR m, 13, 12⟩
/-- D2D_MOD_REPAIR.RX_LO [11:10] (R334): spares used, die-to-hub lower half. -/
def F.D2D_MOD_REPAIR_RX_LO (m : Nat) : Fld := ⟨R.D2D_MOD_REPAIR m, 11, 10⟩
/-- D2D_MOD_REPAIR.RX_HI [9:8] (R334): spares used, die-to-hub upper half. -/
def F.D2D_MOD_REPAIR_RX_HI (m : Nat) : Fld := ⟨R.D2D_MOD_REPAIR m, 9, 8⟩
/-- D2D_MOD_REPAIR.HALF_LOST [7:4] (R334): bit per half, in the order TX_LO, TX_HI, RX_LO, RX_HI from bit 7. -/
def F.D2D_MOD_REPAIR_HALF_LOST (m : Nat) : Fld := ⟨R.D2D_MOD_REPAIR m, 7, 4⟩
/-- D2D_MOD_REPAIR.CLK_SPARE [3:3] (R334): clock spare in use. -/
def F.D2D_MOD_REPAIR_CLK_SPARE (m : Nat) : Fld := ⟨R.D2D_MOD_REPAIR m, 3, 3⟩
/-- D2D_MOD_REPAIR.TRK_SPARE [2:2] (R334): track spare in use. -/
def F.D2D_MOD_REPAIR_TRK_SPARE (m : Nat) : Fld := ⟨R.D2D_MOD_REPAIR m, 2, 2⟩
/-- D2D_MOD_ERR.CRC_RETRY [63:32] (R334): adapter retries, saturating. -/
def F.D2D_MOD_ERR_CRC_RETRY (m : Nat) : Fld := ⟨R.D2D_MOD_ERR m, 63, 32⟩
/-- D2D_MOD_ERR.PARITY [31:16] (R334): lane parity errors, saturating. -/
def F.D2D_MOD_ERR_PARITY (m : Nat) : Fld := ⟨R.D2D_MOD_ERR m, 31, 16⟩
/-- D2D_MOD_ERR.LAST_LANE [15:8] (R334): last failed lane, 0–63 data lanes, 64 clock, 65 track. -/
def F.D2D_MOD_ERR_LAST_LANE (m : Nat) : Fld := ⟨R.D2D_MOD_ERR m, 15, 8⟩
/-- D2D_MOD_ERR.SB_DROP [7:4] (R334): reserved sideband messages dropped, saturating. -/
def F.D2D_MOD_ERR_SB_DROP (m : Nat) : Fld := ⟨R.D2D_MOD_ERR m, 7, 4⟩
/-- D2D_MOD_ERR.LANE_FAIL [0:0] (R334): a lane failed since last cleared. -/
def F.D2D_MOD_ERR_LANE_FAIL (m : Nat) : Fld := ⟨R.D2D_MOD_ERR m, 0, 0⟩
/-- D2D_BDL_STATUS.BW_GBS [63:48] (R334): Active capacity per direction, GB/s. -/
def F.D2D_BDL_STATUS_BW_GBS (b : Nat) : Fld := ⟨R.D2D_BDL_STATUS b, 63, 48⟩
/-- D2D_BDL_STATUS.HALVES [47:42] (R334): Active half-modules, 0–32. -/
def F.D2D_BDL_STATUS_HALVES (b : Nat) : Fld := ⟨R.D2D_BDL_STATUS b, 47, 42⟩
/-- D2D_BDL_STATUS.READMITS [31:24] (R334): readmissions, saturating. -/
def F.D2D_BDL_STATUS_READMITS (b : Nat) : Fld := ⟨R.D2D_BDL_STATUS b, 31, 24⟩
/-- D2D_BDL_STATUS.FENCE_WHY [7:4] (R334): R322. -/
def F.D2D_BDL_STATUS_FENCE_WHY (b : Nat) : Fld := ⟨R.D2D_BDL_STATUS b, 7, 4⟩
/-- D2D_BDL_STATUS.STATE [3:0] (R334): 0x0 DOWN, 0x1 TRAINING, 0x2 ROLLCALL, 0x3 OPEN, 0x4 FENCED; others reserved. -/
def F.D2D_BDL_STATUS_STATE (b : Nat) : Fld := ⟨R.D2D_BDL_STATUS b, 3, 0⟩
/-- D2D_BDL_CFG.MIN_HALVES [5:0] (R334): R315. -/
def F.D2D_BDL_CFG_MIN_HALVES (b : Nat) : Fld := ⟨R.D2D_BDL_CFG b, 5, 0⟩
/-- D2D_IDENT.RECORD [63:0] (R334): identity record bytes 8w to 8w + 7, as last received. -/
def F.D2D_IDENT_RECORD (b w : Nat) : Fld := ⟨R.D2D_IDENT b w, 63, 0⟩
/-- CHK_STATUS.POWER_W [63:48] (R335): site draw averaged over the last 1 ms, W (R22). -/
def F.CHK_STATUS_POWER_W (x : Nat) : Fld := ⟨R.CHK_STATUS x, 63, 48⟩
/-- CHK_STATUS.WIN_ACTIVE [31:16] (R335): bit w: window w active (R325). -/
def F.CHK_STATUS_WIN_ACTIVE (x : Nat) : Fld := ⟨R.CHK_STATUS x, 31, 16⟩
/-- CHK_STATUS.ATTEST_FAIL [8:8] (R335): R330. -/
def F.CHK_STATUS_ATTEST_FAIL (x : Nat) : Fld := ⟨R.CHK_STATUS x, 8, 8⟩
/-- CHK_STATUS.FENCE_WHY [7:4] (R335): R322. -/
def F.CHK_STATUS_FENCE_WHY (x : Nat) : Fld := ⟨R.CHK_STATUS x, 7, 4⟩
/-- CHK_STATUS.STATE [3:0] (R335): 0x0 CLOSED, 0x1 ROLLCALL, 0x2 ATTESTING, 0x3 OPEN, 0x4 OPEN_ATTESTED, 0x5 FENCED; others reserved. -/
def F.CHK_STATUS_STATE (x : Nat) : Fld := ⟨R.CHK_STATUS x, 3, 0⟩
/-- CHK_CFG.RATE [63:48] (R335): R323. -/
def F.CHK_CFG_RATE (x : Nat) : Fld := ⟨R.CHK_CFG x, 63, 48⟩
/-- CHK_CFG.BURST [47:40] (R335): R323. -/
def F.CHK_CFG_BURST (x : Nat) : Fld := ⟨R.CHK_CFG x, 47, 40⟩
/-- CHK_CFG.KINDS [39:36] (R335): R323. -/
def F.CHK_CFG_KINDS (x : Nat) : Fld := ⟨R.CHK_CFG x, 39, 36⟩
/-- CHK_CFG.FENCE_ON_VIOL [35:35] (R335): R327. -/
def F.CHK_CFG_FENCE_ON_VIOL (x : Nat) : Fld := ⟨R.CHK_CFG x, 35, 35⟩
/-- CHK_CFG.ONE_TENANT [34:34] (R335): R323. -/
def F.CHK_CFG_ONE_TENANT (x : Nat) : Fld := ⟨R.CHK_CFG x, 34, 34⟩
/-- CHK_CFG.ATTEST [33:33] (R335): R329. -/
def F.CHK_CFG_ATTEST (x : Nat) : Fld := ⟨R.CHK_CFG x, 33, 33⟩
/-- CHK_VIOL.COUNT [63:32] (R335): violations, saturating. -/
def F.CHK_VIOL_COUNT (x : Nat) : Fld := ⟨R.CHK_VIOL x, 63, 32⟩
/-- CHK_VIOL.KIND [31:28] (R335): kind of the last violation: 0 RD, 1 WR, 2 ATOM, 3 SIGNAL. -/
def F.CHK_VIOL_KIND (x : Nat) : Fld := ⟨R.CHK_VIOL x, 31, 28⟩
/-- CHK_VIOL.CAUSE [27:24] (R335): R327. -/
def F.CHK_VIOL_CAUSE (x : Nat) : Fld := ⟨R.CHK_VIOL x, 27, 24⟩
/-- CHK_VIOL.VALID [0:0] (R335): a violation is recorded. -/
def F.CHK_VIOL_VALID (x : Nat) : Fld := ⟨R.CHK_VIOL x, 0, 0⟩
/-- CHK_EXPECT.VENDOR [63:48] (R335): R319. -/
def F.CHK_EXPECT_VENDOR (x : Nat) : Fld := ⟨R.CHK_EXPECT x, 63, 48⟩
/-- CHK_EXPECT.DEVICE [47:32] (R335): R319. -/
def F.CHK_EXPECT_DEVICE (x : Nat) : Fld := ⟨R.CHK_EXPECT x, 47, 32⟩
/-- CHK_EXPECT.REV_MIN [31:24] (R335): lowest accepted REV. -/
def F.CHK_EXPECT_REV_MIN (x : Nat) : Fld := ⟨R.CHK_EXPECT x, 31, 24⟩
/-- CHK_EXPECT.REV_MAX [23:16] (R335): highest accepted REV. -/
def F.CHK_EXPECT_REV_MAX (x : Nat) : Fld := ⟨R.CHK_EXPECT x, 23, 16⟩
/-- CHK_WIN_A.VALID [63:63] (R335): the window is granted. -/
def F.CHK_WIN_A_VALID (x w : Nat) : Fld := ⟨R.CHK_WIN_A x w, 63, 63⟩
/-- CHK_WIN_A.ACTIVE [62:62] (R335): R325. -/
def F.CHK_WIN_A_ACTIVE (x w : Nat) : Fld := ⟨R.CHK_WIN_A x w, 62, 62⟩
/-- CHK_WIN_A.RIGHTS [61:58] (R335): SIGNAL, ATOM, WR, RD from bit 61. -/
def F.CHK_WIN_A_RIGHTS (x w : Nat) : Fld := ⟨R.CHK_WIN_A x w, 61, 58⟩
/-- CHK_WIN_A.OWNER [55:48] (R335): owning context. -/
def F.CHK_WIN_A_OWNER (x w : Nat) : Fld := ⟨R.CHK_WIN_A x w, 55, 48⟩
/-- CHK_WIN_A.SITE_BASE [47:12] (R335): site-side base bits [47:12]. -/
def F.CHK_WIN_A_SITE_BASE (x w : Nat) : Fld := ⟨R.CHK_WIN_A x w, 47, 12⟩
/-- CHK_WIN_A.SO [7:0] (R335): notify object index. -/
def F.CHK_WIN_A_SO (x w : Nat) : Fld := ⟨R.CHK_WIN_A x w, 7, 0⟩
/-- CHK_WIN_B.LEN_PAGES [63:36] (R335): length in 4 KiB pages. -/
def F.CHK_WIN_B_LEN_PAGES (x w : Nat) : Fld := ⟨R.CHK_WIN_B x w, 63, 36⟩
/-- CHK_WIN_B.CTX_BASE [35:8] (R335): context-relative base bits [39:12]. -/
def F.CHK_WIN_B_CTX_BASE (x w : Nat) : Fld := ⟨R.CHK_WIN_B x w, 35, 8⟩
/-- GLB_HEP_STATUS.SPEED [47:44] (R368): 0x1 2.5, 0x2 5, 0x3 8, 0x4 16, 0x5 32, 0x6 64 GT/s; others reserved. -/
def F.GLB_HEP_STATUS_SPEED : Fld := ⟨R.GLB_HEP_STATUS, 47, 44⟩
/-- GLB_HEP_STATUS.WIDTH [43:39] (R368): lanes, 1–16. -/
def F.GLB_HEP_STATUS_WIDTH : Fld := ⟨R.GLB_HEP_STATUS, 43, 39⟩
/-- GLB_HEP_STATUS.FLIT [38:38] (R368): FLIT mode in use. -/
def F.GLB_HEP_STATUS_FLIT : Fld := ⟨R.GLB_HEP_STATUS, 38, 38⟩
/-- GLB_HEP_STATUS.NUMVFS [16:8] (R368): VFs enabled, 0–256. -/
def F.GLB_HEP_STATUS_NUMVFS : Fld := ⟨R.GLB_HEP_STATUS, 16, 8⟩
/-- GLB_HEP_STATUS.VF_EN [1:1] (R368): VF Enable is set. -/
def F.GLB_HEP_STATUS_VF_EN : Fld := ⟨R.GLB_HEP_STATUS, 1, 1⟩
/-- GLB_HEP_STATUS.LINK_UP [0:0] (R368): the link is up. -/
def F.GLB_HEP_STATUS_LINK_UP : Fld := ⟨R.GLB_HEP_STATUS, 0, 0⟩
/-- GLB_HEP_TAGS.POOL [51:42] (R368): P of R344. -/
def F.GLB_HEP_TAGS_POOL : Fld := ⟨R.GLB_HEP_TAGS, 51, 42⟩
/-- GLB_HEP_TAGS.POOL_USED [41:32] (R368): pooled slots held. -/
def F.GLB_HEP_TAGS_POOL_USED : Fld := ⟨R.GLB_HEP_TAGS, 41, 32⟩
/-- GLB_HEP_TAGS.RSV_USED [31:22] (R368): reserved slots held. -/
def F.GLB_HEP_TAGS_RSV_USED : Fld := ⟨R.GLB_HEP_TAGS, 31, 22⟩
/-- GLB_HEP_TAGS.PEAK [9:0] (R368): most non-posted requests outstanding at once. -/
def F.GLB_HEP_TAGS_PEAK : Fld := ⟨R.GLB_HEP_TAGS, 9, 0⟩
/-- GLB_HEP_ERR.UR_SENT [63:48] (R368): requests answered UR, saturating. -/
def F.GLB_HEP_ERR_UR_SENT : Fld := ⟨R.GLB_HEP_ERR, 63, 48⟩
/-- GLB_HEP_ERR.POISON_RX [47:32] (R368): poisoned TLPs received, saturating. -/
def F.GLB_HEP_ERR_POISON_RX : Fld := ⟨R.GLB_HEP_ERR, 47, 32⟩
/-- GLB_HEP_ERR.CPL_TIMEOUT [31:16] (R368): completion timeouts, saturating. -/
def F.GLB_HEP_ERR_CPL_TIMEOUT : Fld := ⟨R.GLB_HEP_ERR, 31, 16⟩
/-- GLB_HEP_ERR.IDE_FAIL [15:8] (R368): IDE check failures, saturating. -/
def F.GLB_HEP_ERR_IDE_FAIL : Fld := ⟨R.GLB_HEP_ERR, 15, 8⟩
/-- GLB_HEP_LAST_ERR.KIND [63:56] (R368): 0x1 UR sent, 0x2 malformed, 0x3 poisoned request, 0x4 poisoned completion, 0x5 completion timeout, 0x6 unexpected completion, 0x7 IDE check failed, 0x8 CA sent, 0x9 TDISP lock broken; others reserved. -/
def F.GLB_HEP_LAST_ERR_KIND : Fld := ⟨R.GLB_HEP_LAST_ERR, 63, 56⟩
/-- GLB_HEP_LAST_ERR.CTX [55:48] (R368): context concerned, when CTX_VALID is 1. -/
def F.GLB_HEP_LAST_ERR_CTX : Fld := ⟨R.GLB_HEP_LAST_ERR, 55, 48⟩
/-- GLB_HEP_LAST_ERR.RID [47:32] (R368): routing ID of the function concerned. -/
def F.GLB_HEP_LAST_ERR_RID : Fld := ⟨R.GLB_HEP_LAST_ERR, 47, 32⟩
/-- GLB_HEP_LAST_ERR.CTX_VALID [1:1] (R368): the event concerned a context. -/
def F.GLB_HEP_LAST_ERR_CTX_VALID : Fld := ⟨R.GLB_HEP_LAST_ERR, 1, 1⟩
/-- GLB_HEP_LAST_ERR.VALID [0:0] (R368): an event is recorded. -/
def F.GLB_HEP_LAST_ERR_VALID : Fld := ⟨R.GLB_HEP_LAST_ERR, 0, 0⟩
/-- GLB_HEP_PART.ALLOT [41:32] (R368): A_p of R344. -/
def F.GLB_HEP_PART_ALLOT (p : Nat) : Fld := ⟨R.GLB_HEP_PART p, 41, 32⟩
/-- GLB_HEP_PART.USED [9:0] (R368): pooled slots the partition holds. -/
def F.GLB_HEP_PART_USED (p : Nat) : Fld := ⟨R.GLB_HEP_PART p, 9, 0⟩
/-- GLB_HEP_STRM.STREAM_ID [63:56] (R368): ID of the stream that serves the context. -/
def F.GLB_HEP_STRM_STREAM_ID (c : Nat) : Fld := ⟨R.GLB_HEP_STRM c, 63, 56⟩
/-- GLB_HEP_STRM.KEY_UPDATES [31:16] (R368): key-set changes on the stream, saturating. -/
def F.GLB_HEP_STRM_KEY_UPDATES (c : Nat) : Fld := ⟨R.GLB_HEP_STRM c, 31, 16⟩
/-- GLB_HEP_STRM.KEYSET [2:2] (R368): key set in use: 0 K0, 1 K1. -/
def F.GLB_HEP_STRM_KEYSET (c : Nat) : Fld := ⟨R.GLB_HEP_STRM c, 2, 2⟩
/-- GLB_HEP_STRM.BOUND [1:1] (R368): a stream serves the context (R352). -/
def F.GLB_HEP_STRM_BOUND (c : Nat) : Fld := ⟨R.GLB_HEP_STRM c, 1, 1⟩
/-- GLB_HEP_STRM.SECURE [0:0] (R368): that stream is Secure. -/
def F.GLB_HEP_STRM_SECURE (c : Nat) : Fld := ⟨R.GLB_HEP_STRM c, 0, 0⟩
/-- CLS_DIE_STATUS.PORTS_UP [63:48] (R398): bit k: local port k up. -/
def F.CLS_DIE_STATUS_PORTS_UP (d : Nat) : Fld := ⟨R.CLS_DIE_STATUS d, 63, 48⟩
/-- CLS_DIE_STATUS.STATE [3:0] (R398): 0x0 DOWN, 0x1 TRAINING, 0x2 UP, 0x3 FENCED; others reserved. -/
def F.CLS_DIE_STATUS_STATE (d : Nat) : Fld := ⟨R.CLS_DIE_STATUS d, 3, 0⟩
/-- CLS_NODE.TIME_ROOT [63:63] (R398): R390. -/
def F.CLS_NODE_TIME_ROOT : Fld := ⟨R.CLS_NODE, 63, 63⟩
/-- CLS_NODE.NODE [11:0] (R398): node number. -/
def F.CLS_NODE_NODE : Fld := ⟨R.CLS_NODE, 11, 0⟩
/-- CLS_TIME.LAST_CORR [63:48] (R398): last correction, signed, in units of 0.5 ns. -/
def F.CLS_TIME_LAST_CORR : Fld := ⟨R.CLS_TIME, 63, 48⟩
/-- CLS_TIME.FAR [16:16] (R398): the parent's time lies more than 1 ms away and is not followed (R392). -/
def F.CLS_TIME_FAR : Fld := ⟨R.CLS_TIME, 16, 16⟩
/-- CLS_TIME.LATE_PEERS [15:8] (R398): neighbours now reporting late. -/
def F.CLS_TIME_LATE_PEERS : Fld := ⟨R.CLS_TIME, 15, 8⟩
/-- CLS_TIME.PARENT [7:3] (R398): port followed, 0–31. -/
def F.CLS_TIME_PARENT : Fld := ⟨R.CLS_TIME, 7, 3⟩
/-- CLS_TIME.LATE_TX [2:2] (R398): this package reports late (R393). -/
def F.CLS_TIME_LATE_TX : Fld := ⟨R.CLS_TIME, 2, 2⟩
/-- CLS_TIME.ROOT [1:1] (R398): this package is the time root. -/
def F.CLS_TIME_ROOT : Fld := ⟨R.CLS_TIME, 1, 1⟩
/-- CLS_TIME.SYNC [0:0] (R398): aligned under R390. -/
def F.CLS_TIME_SYNC : Fld := ⟨R.CLS_TIME, 0, 0⟩
/-- CLS_COUNT.ABORT_TX [63:32] (R398): abort keys sent, saturating. -/
def F.CLS_COUNT_ABORT_TX : Fld := ⟨R.CLS_COUNT, 63, 32⟩
/-- CLS_COUNT.ABORT_RX [31:16] (R398): abort keys received, saturating. -/
def F.CLS_COUNT_ABORT_RX : Fld := ⟨R.CLS_COUNT, 31, 16⟩
/-- CLS_COUNT.DISCARD [15:0] (R398): frames discarded under R377 or R388, saturating. -/
def F.CLS_COUNT_DISCARD : Fld := ⟨R.CLS_COUNT, 15, 0⟩
/-- CLS_PORT_STATUS.PEER_NODE [63:52] (R399): node of the peer that agreed keys. -/
def F.CLS_PORT_STATUS_PEER_NODE (q : Nat) : Fld := ⟨R.CLS_PORT_STATUS q, 63, 52⟩
/-- CLS_PORT_STATUS.PEER_PORT [51:47] (R399): its port. -/
def F.CLS_PORT_STATUS_PEER_PORT (q : Nat) : Fld := ⟨R.CLS_PORT_STATUS q, 51, 47⟩
/-- CLS_PORT_STATUS.DOWN_WHY [11:8] (R399): R395. -/
def F.CLS_PORT_STATUS_DOWN_WHY (q : Nat) : Fld := ⟨R.CLS_PORT_STATUS q, 11, 8⟩
/-- CLS_PORT_STATUS.LATE_RX [7:7] (R399): the peer reports late. -/
def F.CLS_PORT_STATUS_LATE_RX (q : Nat) : Fld := ⟨R.CLS_PORT_STATUS q, 7, 7⟩
/-- CLS_PORT_STATUS.KEYSET [6:6] (R399): key set in use for sending. -/
def F.CLS_PORT_STATUS_KEYSET (q : Nat) : Fld := ⟨R.CLS_PORT_STATUS q, 6, 6⟩
/-- CLS_PORT_STATUS.STATE [3:0] (R399): 0x0 DOWN, 0x1 TRAINING, 0x2 TESTING, 0x3 KEYING, 0x4 UP; others reserved. -/
def F.CLS_PORT_STATUS_STATE (q : Nat) : Fld := ⟨R.CLS_PORT_STATUS q, 3, 0⟩
/-- CLS_PORT_CFG.ENABLED [63:63] (R399): R371. -/
def F.CLS_PORT_CFG_ENABLED (q : Nat) : Fld := ⟨R.CLS_PORT_CFG q, 63, 63⟩
/-- CLS_PORT_CFG.TIME_PARENT [62:62] (R399): R371. -/
def F.CLS_PORT_CFG_TIME_PARENT (q : Nat) : Fld := ⟨R.CLS_PORT_CFG q, 62, 62⟩
/-- CLS_PORT_CFG.TIME_ALT [61:61] (R399): R371. -/
def F.CLS_PORT_CFG_TIME_ALT (q : Nat) : Fld := ⟨R.CLS_PORT_CFG q, 61, 61⟩
/-- CLS_PORT_CFG.PEER_NODE [59:48] (R399): expected peer node. -/
def F.CLS_PORT_CFG_PEER_NODE (q : Nat) : Fld := ⟨R.CLS_PORT_CFG q, 59, 48⟩
/-- CLS_PORT_CFG.PEER_PORT [47:43] (R399): expected peer port. -/
def F.CLS_PORT_CFG_PEER_PORT (q : Nat) : Fld := ⟨R.CLS_PORT_CFG q, 47, 43⟩
/-- CLS_PORT_ERR.RETRY [63:32] (R399): replays, saturating. -/
def F.CLS_PORT_ERR_RETRY (q : Nat) : Fld := ⟨R.CLS_PORT_ERR q, 63, 32⟩
/-- CLS_PORT_ERR.FEC_UNCORR [31:16] (R399): uncorrectable FEC codewords, saturating. -/
def F.CLS_PORT_ERR_FEC_UNCORR (q : Nat) : Fld := ⟨R.CLS_PORT_ERR q, 31, 16⟩
/-- CLS_PORT_ERR.AUTH_FAIL [15:8] (R399): tag failures with good CRC, saturating. -/
def F.CLS_PORT_ERR_AUTH_FAIL (q : Nat) : Fld := ⟨R.CLS_PORT_ERR q, 15, 8⟩
/-- CLS_PORT_ERR.DOWN_EVT [0:0] (R399): the port went down since last cleared. -/
def F.CLS_PORT_ERR_DOWN_EVT (q : Nat) : Fld := ⟨R.CLS_PORT_ERR q, 0, 0⟩
/-- CLS_PORT_DELAY.DELAY_PS [31:0] (R399): measured one-way link delay, ps. -/
def F.CLS_PORT_DELAY_DELAY_PS (q : Nat) : Fld := ⟨R.CLS_PORT_DELAY q, 31, 0⟩
/-- MBX_CMD_TAIL.TAIL [31:0] (R439): commands made visible, free-running. -/
def F.MBX_CMD_TAIL_TAIL : Fld := ⟨R.MBX_CMD_TAIL, 31, 0⟩
/-- MBX_CMD_HEAD.HEAD [31:0] (R439): commands answered, free-running. -/
def F.MBX_CMD_HEAD_HEAD : Fld := ⟨R.MBX_CMD_HEAD, 31, 0⟩
/-- MBX_STATUS.LAST_CODE [63:48] (R439): CODE of the last command answered. -/
def F.MBX_STATUS_LAST_CODE : Fld := ⟨R.MBX_STATUS, 63, 48⟩
/-- MBX_STATUS.LAST_STATUS [47:40] (R439): its STATUS. -/
def F.MBX_STATUS_LAST_STATUS : Fld := ⟨R.MBX_STATUS, 47, 40⟩
/-- MBX_STATUS.SESSION [39:24] (R439): open staging session, 0 when none. -/
def F.MBX_STATUS_SESSION : Fld := ⟨R.MBX_STATUS, 39, 24⟩
/-- MBX_STATUS.MCTP_BUSY [2:2] (R439): an MCTP command is in progress. -/
def F.MBX_STATUS_MCTP_BUSY : Fld := ⟨R.MBX_STATUS, 2, 2⟩
/-- MBX_STATUS.BUSY [1:1] (R439): a ring command is in progress. -/
def F.MBX_STATUS_BUSY : Fld := ⟨R.MBX_STATUS, 1, 1⟩
/-- MBX_STATUS.OVERRUN [0:0] (R439): R413. -/
def F.MBX_STATUS_OVERRUN : Fld := ⟨R.MBX_STATUS, 0, 0⟩
/-- HWD_STATUS.FW_SVN [63:56] (R440): running SVN. -/
def F.HWD_STATUS_FW_SVN : Fld := ⟨R.HWD_STATUS, 63, 56⟩
/-- HWD_STATUS.SVN_FLOOR [55:48] (R440): rollback floor. -/
def F.HWD_STATUS_SVN_FLOOR : Fld := ⟨R.HWD_STATUS, 55, 48⟩
/-- HWD_STATUS.INST_SLOT [47:46] (R440): current installer slot. -/
def F.HWD_STATUS_INST_SLOT : Fld := ⟨R.HWD_STATUS, 47, 46⟩
/-- HWD_STATUS.CLAIMED [45:45] (R440): an installer is current. -/
def F.HWD_STATUS_CLAIMED : Fld := ⟨R.HWD_STATUS, 45, 45⟩
/-- HWD_STATUS.RUN_BANK [44:44] (R440): 0 A, 1 B. -/
def F.HWD_STATUS_RUN_BANK : Fld := ⟨R.HWD_STATUS, 44, 44⟩
/-- HWD_STATUS.TRIAL [43:43] (R440): R425. -/
def F.HWD_STATUS_TRIAL : Fld := ⟨R.HWD_STATUS, 43, 43⟩
/-- HWD_STATUS.STAGED [42:42] (R440): R424. -/
def F.HWD_STATUS_STAGED : Fld := ⟨R.HWD_STATUS, 42, 42⟩
/-- HWD_STATUS.DEBUG_ON [41:41] (R440): R437. -/
def F.HWD_STATUS_DEBUG_ON : Fld := ⟨R.HWD_STATUS, 41, 41⟩
/-- HWD_STATUS.CERT_BAD [40:40] (R440): R408. -/
def F.HWD_STATUS_CERT_BAD : Fld := ⟨R.HWD_STATUS, 40, 40⟩
/-- HWD_STATUS.OPR_EPOCH [7:0] (R440): R412. -/
def F.HWD_STATUS_OPR_EPOCH : Fld := ⟨R.HWD_STATUS, 7, 0⟩
/-- HWD_COUNT.ACCEPTED [63:32] (R440): role commands accepted, wrapping. -/
def F.HWD_COUNT_ACCEPTED : Fld := ⟨R.HWD_COUNT, 63, 32⟩
/-- HWD_COUNT.REFUSED [31:16] (R440): role commands refused, saturating. -/
def F.HWD_COUNT_REFUSED : Fld := ⟨R.HWD_COUNT, 31, 16⟩
/-- HWD_COUNT.REPORTS [15:0] (R440): reports signed, wrapping. -/
def F.HWD_COUNT_REPORTS : Fld := ⟨R.HWD_COUNT, 15, 0⟩
/-- HWD_SERIAL.SERIAL [63:0] (R440): hub serial. -/
def F.HWD_SERIAL_SERIAL : Fld := ⟨R.HWD_SERIAL, 63, 0⟩
/-- HWD_ALIAS.KEY_ID [63:0] (R440): bytes 8w to 8w + 7 of the alias pair's KEY_ID. -/
def F.HWD_ALIAS_KEY_ID (w : Nat) : Fld := ⟨R.HWD_ALIAS w, 63, 0⟩
/-- LCS_STATUS.FROM [19:16] (R454): state S of a completed interruption, coded as STATE. -/
def F.LCS_STATUS_FROM : Fld := ⟨R.LCS_STATUS, 19, 16⟩
/-- LCS_STATUS.WIPE [11:10] (R454): 0b00 none, 0b01 restarted under R451, 0b10 complete; 0b11 reserved. -/
def F.LCS_STATUS_WIPE : Fld := ⟨R.LCS_STATUS, 11, 10⟩
/-- LCS_STATUS.REPAIRED [9:8] (R454): 0b00 nothing, 0b01 third copy programmed up, 0b10 third copy left as found; 0b11 reserved. -/
def F.LCS_STATUS_REPAIRED : Fld := ⟨R.LCS_STATUS, 9, 8⟩
/-- LCS_STATUS.DECODE [7:4] (R454): test of R445 that decided, 1–4. -/
def F.LCS_STATUS_DECODE : Fld := ⟨R.LCS_STATUS, 7, 4⟩
/-- LCS_STATUS.STATE [3:0] (R454): 0x0 Blank, 0x1 Test, 0x2 Production, 0x3 End of life, 0x4 Locked; others reserved. -/
def F.LCS_STATUS_STATE : Fld := ⟨R.LCS_STATUS, 3, 0⟩
/-- LCS_COPY.PATTERN [47:0] (R454): the copy as read at start, before any repair. -/
def F.LCS_COPY_PATTERN (k : Nat) : Fld := ⟨R.LCS_COPY k, 47, 0⟩
/-- TLS_STATUS.PART_DOWN [63:56] (R480): bit p: Pp held down (R464). -/
def F.TLS_STATUS_PART_DOWN : Fld := ⟨R.TLS_STATUS, 63, 56⟩
/-- TLS_STATUS.PART_RESETTING [55:48] (R480): bit p: Pp resetting. -/
def F.TLS_STATUS_PART_RESETTING : Fld := ⟨R.TLS_STATUS, 55, 48⟩
/-- TLS_STATUS.BRINGUP_FAILS [2:1] (R480): R464, 0–3. -/
def F.TLS_STATUS_BRINGUP_FAILS : Fld := ⟨R.TLS_STATUS, 2, 1⟩
/-- TLS_STATUS.PROMISE [0:0] (R480): R455. -/
def F.TLS_STATUS_PROMISE : Fld := ⟨R.TLS_STATUS, 0, 0⟩
/-- TLS_CFG.ROT_PERIOD_MS [7:0] (R480): R458, 10–156. -/
def F.TLS_CFG_ROT_PERIOD_MS : Fld := ⟨R.TLS_CFG, 7, 0⟩
/-- TLS_ROT.PASSES [63:32] (R480): full rotation passes, wrapping. -/
def F.TLS_ROT_PASSES : Fld := ⟨R.TLS_ROT, 63, 32⟩
/-- TLS_ROT.CUR_TILE [6:1] (R480): tile last tested. -/
def F.TLS_ROT_CUR_TILE : Fld := ⟨R.TLS_ROT, 6, 1⟩
/-- TLS_ROT.BUSY [0:0] (R480): a tile is under test. -/
def F.TLS_ROT_BUSY : Fld := ⟨R.TLS_ROT, 0, 0⟩
/-- TLS_COUNT.CORRECTED [63:32] (R480): saturating. -/
def F.TLS_COUNT_CORRECTED : Fld := ⟨R.TLS_COUNT, 63, 32⟩
/-- TLS_COUNT.CONTAINED [31:8] (R480): saturating. -/
def F.TLS_COUNT_CONTAINED : Fld := ⟨R.TLS_COUNT, 31, 8⟩
/-- TLS_COUNT.PARTITION [7:0] (R480): saturating. -/
def F.TLS_COUNT_PARTITION : Fld := ⟨R.TLS_COUNT, 7, 0⟩
/-- TLS_LAST.CODE [63:48] (R480): last fault code. -/
def F.TLS_LAST_CODE : Fld := ⟨R.TLS_LAST, 63, 48⟩
/-- TLS_LAST.SOURCE [47:32] (R480): R473. -/
def F.TLS_LAST_SOURCE : Fld := ⟨R.TLS_LAST, 47, 32⟩
/-- TLS_LAST.CLASS [31:29] (R480): R461. -/
def F.TLS_LAST_CLASS : Fld := ⟨R.TLS_LAST, 31, 29⟩
/-- TLS_LAST.CTX [28:21] (R480): context reached. -/
def F.TLS_LAST_CTX : Fld := ⟨R.TLS_LAST, 28, 21⟩
/-- TLS_LAST.CTX_VALID [20:20] (R480): CTX is valid. -/
def F.TLS_LAST_CTX_VALID : Fld := ⟨R.TLS_LAST, 20, 20⟩
/-- TLS_LAST.VALID [0:0] (R480): a fault is recorded. -/
def F.TLS_LAST_VALID : Fld := ⟨R.TLS_LAST, 0, 0⟩
/-- TLS_EVT_HEAD.COUNT [31:0] (R480): entries written, free-running; entry n at e = n mod 256. -/
def F.TLS_EVT_HEAD_COUNT : Fld := ⟨R.TLS_EVT_HEAD, 31, 0⟩
/-- TLS_POLICY.CODE [63:48] (R480): fault code of the entry. -/
def F.TLS_POLICY_CODE (i : Nat) : Fld := ⟨R.TLS_POLICY i, 63, 48⟩
/-- TLS_POLICY.PERMIT [39:35] (R480): bit k: class k permitted. -/
def F.TLS_POLICY_PERMIT (i : Nat) : Fld := ⟨R.TLS_POLICY i, 39, 35⟩
/-- TLS_POLICY.DEFAULT [34:32] (R480): default class. -/
def F.TLS_POLICY_DEFAULT (i : Nat) : Fld := ⟨R.TLS_POLICY i, 34, 32⟩
/-- TLS_POLICY.CLASS [2:0] (R480): class in force (R462). -/
def F.TLS_POLICY_CLASS (i : Nat) : Fld := ⟨R.TLS_POLICY i, 2, 0⟩
/-- TLS_EVT0.CODE [63:48] (R480): fault, event or trace code. -/
def F.TLS_EVT0_CODE (e : Nat) : Fld := ⟨R.TLS_EVT0 e, 63, 48⟩
/-- TLS_EVT0.SOURCE [47:32] (R480): R473. -/
def F.TLS_EVT0_SOURCE (e : Nat) : Fld := ⟨R.TLS_EVT0 e, 47, 32⟩
/-- TLS_EVT0.ARG [31:0] (R480): SEQ bits [31:0] of the record; for trace codes, R470. -/
def F.TLS_EVT0_ARG (e : Nat) : Fld := ⟨R.TLS_EVT0 e, 31, 0⟩
/-- TLS_EVT8.TIME [63:16] (R480): Spindle time bits [47:0]. -/
def F.TLS_EVT8_TIME (e : Nat) : Fld := ⟨R.TLS_EVT8 e, 63, 16⟩
/-- TLS_EVT8.CLASS [15:13] (R480): 0–4; 7 for an event or trace entry. -/
def F.TLS_EVT8_CLASS (e : Nat) : Fld := ⟨R.TLS_EVT8 e, 15, 13⟩
/-- TLS_EVT8.CTX_VALID [8:8] (R480): CTX is valid. -/
def F.TLS_EVT8_CTX_VALID (e : Nat) : Fld := ⟨R.TLS_EVT8 e, 8, 8⟩
/-- TLS_EVT8.CTX [7:0] (R480): context. -/
def F.TLS_EVT8_CTX (e : Nat) : Fld := ⟨R.TLS_EVT8 e, 7, 0⟩
/-- BBX_STATUS.BOOT [63:48] (R481): current power-up number. -/
def F.BBX_STATUS_BOOT : Fld := ⟨R.BBX_STATUS, 63, 48⟩
/-- BBX_STATUS.PINNED [47:34] (R481): pinned slots, 0–8,192. -/
def F.BBX_STATUS_PINNED : Fld := ⟨R.BBX_STATUS, 47, 34⟩
/-- BBX_STATUS.PIN_BOOT [33:27] (R481): pins this power-up, 0–64. -/
def F.BBX_STATUS_PIN_BOOT : Fld := ⟨R.BBX_STATUS, 33, 27⟩
/-- BBX_STATUS.QUEUED [26:18] (R481): records waiting, 0–256. -/
def F.BBX_STATUS_QUEUED : Fld := ⟨R.BBX_STATUS, 26, 18⟩
/-- BBX_STATUS.SCAN [4:4] (R481): the scan of R477 is running. -/
def F.BBX_STATUS_SCAN : Fld := ⟨R.BBX_STATUS, 4, 4⟩
/-- BBX_STATUS.PIN_FULL [3:3] (R481): R476. -/
def F.BBX_STATUS_PIN_FULL : Fld := ⟨R.BBX_STATUS, 3, 3⟩
/-- BBX_STATUS.WP [2:2] (R481): write-protected (R452). -/
def F.BBX_STATUS_WP : Fld := ⟨R.BBX_STATUS, 2, 2⟩
/-- BBX_STATUS.NVM_FAIL [1:1] (R481): R471. -/
def F.BBX_STATUS_NVM_FAIL : Fld := ⟨R.BBX_STATUS, 1, 1⟩
/-- BBX_COUNT.SEQ_NEXT [63:16] (R481): SEQ of the next record. -/
def F.BBX_COUNT_SEQ_NEXT : Fld := ⟨R.BBX_COUNT, 63, 16⟩
/-- BBX_COUNT.TORN [15:8] (R481): torn slots found, saturating. -/
def F.BBX_COUNT_TORN : Fld := ⟨R.BBX_COUNT, 15, 8⟩
/-- BBX_COUNT.LOST [7:0] (R481): records dropped since power-up, saturating. -/
def F.BBX_COUNT_LOST : Fld := ⟨R.BBX_COUNT, 7, 0⟩
/-- BBX_SEL.READY [63:63] (R481): BBX_DATA holds the selected slot. -/
def F.BBX_SEL_READY : Fld := ⟨R.BBX_SEL, 63, 63⟩
/-- BBX_SEL.SLOT [14:0] (R481): slot 0–32,767; a write clears READY. -/
def F.BBX_SEL_SLOT : Fld := ⟨R.BBX_SEL, 14, 0⟩
/-- BBX_DATA.BYTES [63:0] (R481): bytes 8w to 8w + 7 of the slot. -/
def F.BBX_DATA_BYTES (w : Nat) : Fld := ⟨R.BBX_DATA w, 63, 0⟩
/-- PWR_STATUS.LAST_RESULT [15:8] (R507): 0x0 OK, 0x1 REFUSED, 0x2 ABORTED, 0x3 CONTEXTS_ACTIVE, 0x4 PART_RESETTING, 0x5 NOT_READY, 0x6 POOL_OPEN, 0x7 BAD_TARGET, 0x8 SUPERSEDED (R484); others reserved. -/
def F.PWR_STATUS_LAST_RESULT : Fld := ⟨R.PWR_STATUS, 15, 8⟩
/-- PWR_STATUS.PADS_HELD [7:7] (R507): R492. -/
def F.PWR_STATUS_PADS_HELD : Fld := ⟨R.PWR_STATUS, 7, 7⟩
/-- PWR_STATUS.BUSY [6:6] (R507): a move is in progress. -/
def F.PWR_STATUS_BUSY : Fld := ⟨R.PWR_STATUS, 6, 6⟩
/-- PWR_STATUS.TARGET [5:3] (R507): target of the current or last move. -/
def F.PWR_STATUS_TARGET : Fld := ⟨R.PWR_STATUS, 5, 3⟩
/-- PWR_STATUS.STATE [2:0] (R507): 0–5: L0 Run to L5 Dormant. -/
def F.PWR_STATUS_STATE : Fld := ⟨R.PWR_STATUS, 2, 0⟩
/-- PWR_CMD.GO [3:3] (R507): 1 starts a move to TARGET (R495). -/
def F.PWR_CMD_GO : Fld := ⟨R.PWR_CMD, 3, 3⟩
/-- PWR_CMD.TARGET [2:0] (R507): 0–5. -/
def F.PWR_CMD_TARGET : Fld := ⟨R.PWR_CMD, 2, 0⟩
/-- PWR_POLICY.HOST_CMD [2:2] (R507): PWR_CMD is honoured. -/
def F.PWR_POLICY_HOST_CMD : Fld := ⟨R.PWR_POLICY, 2, 2⟩
/-- PWR_POLICY.WAKE_IN_EN [1:1] (R507): the wake input is a wake event. -/
def F.PWR_POLICY_WAKE_IN_EN : Fld := ⟨R.PWR_POLICY, 1, 1⟩
/-- PWR_POLICY.MODE [0:0] (R507): 0 commanded, 1 negotiated (R486). -/
def F.PWR_POLICY_MODE : Fld := ⟨R.PWR_POLICY, 0, 0⟩
/-- PWR_LIMIT.MAX_W [63:48] (R507): R497, W. -/
def F.PWR_LIMIT_MAX_W : Fld := ⟨R.PWR_LIMIT, 63, 48⟩
/-- PWR_LIMIT.RUN_W [47:32] (R507): R497, W; set through POWER_STATE. -/
def F.PWR_LIMIT_RUN_W : Fld := ⟨R.PWR_LIMIT, 47, 32⟩
/-- PWR_MEAS.PKG_W [63:48] (R507): package power over the last 1 ms, W. -/
def F.PWR_MEAS_PKG_W : Fld := ⟨R.PWR_MEAS, 63, 48⟩
/-- PWR_MEAS.PEAK_W [47:32] (R507): highest PKG_W since device reset. -/
def F.PWR_MEAS_PEAK_W : Fld := ⟨R.PWR_MEAS, 47, 32⟩
/-- PWR_MEAS.DUTY [14:8] (R507): R498. -/
def F.PWR_MEAS_DUTY : Fld := ⟨R.PWR_MEAS, 14, 8⟩
/-- PWR_MEAS.MSTEP [2:0] (R507): R498. -/
def F.PWR_MEAS_MSTEP : Fld := ⟨R.PWR_MEAS, 2, 0⟩
/-- PWR_PAD_RELEASE.RELEASE [0:0] (R507): R492. -/
def F.PWR_PAD_RELEASE_RELEASE : Fld := ⟨R.PWR_PAD_RELEASE, 0, 0⟩
/-- PWR_DOMAIN.WAKE_LAST [63:60] (R507): R489. -/
def F.PWR_DOMAIN_WAKE_LAST (d : Nat) : Fld := ⟨R.PWR_DOMAIN d, 63, 60⟩
/-- PWR_DOMAIN.COND [1:0] (R507): 0b00 on, 0b01 retention, 0b10 low-power, 0b11 off. -/
def F.PWR_DOMAIN_COND (d : Nat) : Fld := ⟨R.PWR_DOMAIN d, 1, 0⟩
/-- PWR_ENERGY.MJ [63:0] (R507): energy in mJ, wrapping. -/
def F.PWR_ENERGY_MJ (k : Nat) : Fld := ⟨R.PWR_ENERGY k, 63, 0⟩
/-- PWR_RESID.MS [63:0] (R507): time spent in the state, ms, wrapping. -/
def F.PWR_RESID_MS (l : Nat) : Fld := ⟨R.PWR_RESID l, 63, 0⟩
/-- CLK_STATUS.FAIL [13:8] (R508): bit per clock in the order of LOCK: CLK_FAIL was raised. -/
def F.CLK_STATUS_FAIL : Fld := ⟨R.CLK_STATUS, 13, 8⟩
/-- CLK_STATUS.LOCK [5:0] (R508): locked: [0] ARR, [1] NOC, [2] CTL, [3] MGT, [4] PCIe core, [5] AON. -/
def F.CLK_STATUS_LOCK : Fld := ⟨R.CLK_STATUS, 5, 0⟩
/-- CLK_SSC.SSC_EN [3:0] (R508): spreading on: [0] ARR, [1] NOC, [2] CTL, [3] MGT. -/
def F.CLK_SSC_SSC_EN : Fld := ⟨R.CLK_SSC, 3, 0⟩
/-- CLK_IO.SLEW [7:0] (R508): bit per output group: 0 slow, 1 fast. -/
def F.CLK_IO_SLEW : Fld := ⟨R.CLK_IO, 7, 0⟩
/-- CLK_MON.CLOCK [58:56] (R508): clock of the last CLK_FAIL, numbered as LOCK. -/
def F.CLK_MON_CLOCK : Fld := ⟨R.CLK_MON, 58, 56⟩
/-- CLK_MON.ERR [55:48] (R508): its error, signed, in units of 0.1 %; −128 for a stopped clock. -/
def F.CLK_MON_ERR : Fld := ⟨R.CLK_MON, 55, 48⟩
/-- CLK_MON.TIME [47:0] (R508): Spindle time bits [47:0]. -/
def F.CLK_MON_TIME : Fld := ⟨R.CLK_MON, 47, 0⟩
/-- SPN_TIME.TIME [63:0] (R509): Spindle, ns (R504). -/
def F.SPN_TIME_TIME : Fld := ⟨R.SPN_TIME, 63, 0⟩
/-- SPN_INC.INC [63:0] (R509): increment per count-clock cycle, 32.32 ns. -/
def F.SPN_INC_INC : Fld := ⟨R.SPN_INC, 63, 0⟩
/-- SPN_ALARM.TIME [63:0] (R509): alarm time (R505). -/
def F.SPN_ALARM_TIME : Fld := ⟨R.SPN_ALARM, 63, 0⟩
/-- SPN_ALARM_CTL.FIRED [1:1] (R509): the alarm fired. -/
def F.SPN_ALARM_CTL_FIRED : Fld := ⟨R.SPN_ALARM_CTL, 1, 1⟩
/-- SPN_ALARM_CTL.EN [0:0] (R509): the alarm is armed. -/
def F.SPN_ALARM_CTL_EN : Fld := ⟨R.SPN_ALARM_CTL, 0, 0⟩
/-- SPN_STATUS.FREE_RUN [2:2] (R509): no time parent is followed (R390). -/
def F.SPN_STATUS_FREE_RUN : Fld := ⟨R.SPN_STATUS, 2, 2⟩
/-- SPN_STATUS.STEPPED [1:1] (R509): the single step of R504 has been taken. -/
def F.SPN_STATUS_STEPPED : Fld := ⟨R.SPN_STATUS, 1, 1⟩
/-- SPN_STATUS.SLEWING [0:0] (R509): INC differs from 1.0 ns. -/
def F.SPN_STATUS_SLEWING : Fld := ⟨R.SPN_STATUS, 0, 0⟩
/-- GLB_ID.VENDOR [63:48] (R534): Nimyth's PCI vendor identifier. -/
def F.GLB_ID_VENDOR : Fld := ⟨R.GLB_ID, 63, 48⟩
/-- GLB_ID.PART [47:32] (R534): part number. -/
def F.GLB_ID_PART : Fld := ⟨R.GLB_ID, 47, 32⟩
/-- GLB_CAP.TILES [63:56] (R534): tiles on the hub. -/
def F.GLB_CAP_TILES : Fld := ⟨R.GLB_CAP, 63, 56⟩
/-- GLB_CAP.STACKS [55:48] (R534): stacks. -/
def F.GLB_CAP_STACKS : Fld := ⟨R.GLB_CAP, 55, 48⟩
/-- GLB_CAP.SITES [47:40] (R534): open sites. -/
def F.GLB_CAP_SITES : Fld := ⟨R.GLB_CAP, 47, 40⟩
/-- GLB_CAP.LINK_DIES [39:32] (R534): link dies. -/
def F.GLB_CAP_LINK_DIES : Fld := ⟨R.GLB_CAP, 39, 32⟩
/-- GLB_CAP.CONTEXTS [31:16] (R534): contexts. -/
def F.GLB_CAP_CONTEXTS : Fld := ⟨R.GLB_CAP, 31, 16⟩
/-- GLB_CAP.SO_BLOCKS [15:0] (R534): object blocks. -/
def F.GLB_CAP_SO_BLOCKS : Fld := ⟨R.GLB_CAP, 15, 0⟩
/-- GLB_CFG_STATUS.REASON [63:56] (R534): R531; 0 while booting or ready. -/
def F.GLB_CFG_STATUS_REASON : Fld := ⟨R.GLB_CFG_STATUS, 63, 56⟩
/-- GLB_CFG_STATUS.STEP [55:52] (R534): last step of R527 reached, 1–10. -/
def F.GLB_CFG_STATUS_STEP : Fld := ⟨R.GLB_CFG_STATUS, 55, 52⟩
/-- GLB_CFG_STATUS.CONFLICTS [51:44] (R534): claim conflicts (R526), saturating. -/
def F.GLB_CFG_STATUS_CONFLICTS : Fld := ⟨R.GLB_CFG_STATUS, 51, 44⟩
/-- GLB_CFG_STATUS.IMAGE_SEQ [43:12] (R534): IMAGE_SEQ of the running image. -/
def F.GLB_CFG_STATUS_IMAGE_SEQ : Fld := ⟨R.GLB_CFG_STATUS, 43, 12⟩
/-- GLB_CFG_STATUS.SSET_VALID [9:9] (R534): a saved-settings copy was valid. -/
def F.GLB_CFG_STATUS_SSET_VALID : Fld := ⟨R.GLB_CFG_STATUS, 9, 9⟩
/-- GLB_CFG_STATUS.FAST [8:8] (R534): the start met the fast conditions of R527. -/
def F.GLB_CFG_STATUS_FAST : Fld := ⟨R.GLB_CFG_STATUS, 8, 8⟩
/-- GLB_CFG_STATUS.FACTORY [7:7] (R534): the running image is a factory image. -/
def F.GLB_CFG_STATUS_FACTORY : Fld := ⟨R.GLB_CFG_STATUS, 7, 7⟩
/-- GLB_CFG_STATUS.FALLBACK [6:6] (R534): R522 fell back to the other bank. -/
def F.GLB_CFG_STATUS_FALLBACK : Fld := ⟨R.GLB_CFG_STATUS, 6, 6⟩
/-- GLB_CFG_STATUS.BANK [5:5] (R534): running bank: 0 A, 1 B. -/
def F.GLB_CFG_STATUS_BANK : Fld := ⟨R.GLB_CFG_STATUS, 5, 5⟩
/-- GLB_CFG_STATUS.LOCKED [4:4] (R534): configuration lock set (R530). -/
def F.GLB_CFG_STATUS_LOCKED : Fld := ⟨R.GLB_CFG_STATUS, 4, 4⟩
/-- GLB_CFG_STATUS.STATE [1:0] (R534): 0b00 BOOTING, 0b01 READY, 0b10 REFUSED; 0b11 reserved. -/
def F.GLB_CFG_STATUS_STATE : Fld := ⟨R.GLB_CFG_STATUS, 1, 0⟩
/-- GLB_BRINGUP.READY_MS [63:48] (R534): ms from the start of R527 to ready, saturating. -/
def F.GLB_BRINGUP_READY_MS : Fld := ⟨R.GLB_BRINGUP, 63, 48⟩
/-- GLB_BRINGUP.IMAGE_MS [47:32] (R534): ms spent in step 2. -/
def F.GLB_BRINGUP_IMAGE_MS : Fld := ⟨R.GLB_BRINGUP, 47, 32⟩
/-- GLB_BRINGUP.TEST_FAIL [31:24] (R534): modules and ports that failed a 20 ms run, saturating. -/
def F.GLB_BRINGUP_TEST_FAIL : Fld := ⟨R.GLB_BRINGUP, 31, 24⟩
/-- GLB_BRINGUP.MARGIN_LOW [23:16] (R534): modules and ports that failed only the margin test, saturating. -/
def F.GLB_BRINGUP_MARGIN_LOW : Fld := ⟨R.GLB_BRINGUP, 23, 16⟩
/-- GLB_BRINGUP.NARROW [15:8] (R534): modules at x32 or Off after step 7. -/
def F.GLB_BRINGUP_NARROW : Fld := ⟨R.GLB_BRINGUP, 15, 8⟩
/-- GLB_BRINGUP.FW_RETRY [7:0] (R534): tile firmware resends (R529), saturating. -/
def F.GLB_BRINGUP_FW_RETRY : Fld := ⟨R.GLB_BRINGUP, 7, 0⟩
/-- GLB_CFG_DIGEST.DIGEST [63:0] (R534): bytes 8w to 8w + 7 of CFG_DIGEST. -/
def F.GLB_CFG_DIGEST_DIGEST (w : Nat) : Fld := ⟨R.GLB_CFG_DIGEST w, 63, 0⟩
/-- GLB_CONFLICT.RES_ID [63:48] (R534): resource denied; zero for an empty-site entry. -/
def F.GLB_CONFLICT_RES_ID (i : Nat) : Fld := ⟨R.GLB_CONFLICT i, 63, 48⟩
/-- GLB_CONFLICT.WINNER [47:32] (R534): feature that holds it; zero when none. -/
def F.GLB_CONFLICT_WINNER (i : Nat) : Fld := ⟨R.GLB_CONFLICT i, 47, 32⟩
/-- GLB_CONFLICT.LOSER [31:16] (R534): feature disabled. -/
def F.GLB_CONFLICT_LOSER (i : Nat) : Fld := ⟨R.GLB_CONFLICT i, 31, 16⟩
/-- GLB_CONFLICT.INDEX [15:4] (R534): record index in its section. -/
def F.GLB_CONFLICT_INDEX (i : Nat) : Fld := ⟨R.GLB_CONFLICT i, 15, 4⟩
/-- GLB_CONFLICT.SOURCE [3:2] (R534): 0 maker claims, 1 CLAIMS, 2 ROLES, 3 SITES. -/
def F.GLB_CONFLICT_SOURCE (i : Nat) : Fld := ⟨R.GLB_CONFLICT i, 3, 2⟩
/-- GLB_CONFLICT.VALID [0:0] (R534): the entry holds a conflict. -/
def F.GLB_CONFLICT_VALID (i : Nat) : Fld := ⟨R.GLB_CONFLICT i, 0, 0⟩

/-- Fields of GLB_PKG_BUILD (R23). -/
def L.GLB_PKG_BUILD : List FSpec :=
  [⟨63, 48, .ro, .none, 0⟩,
   ⟨47, 40, .ro, .none, 0⟩,
   ⟨39, 32, .ro, .none, 0⟩,
   ⟨31, 24, .ro, .none, 0⟩,
   ⟨15, 14, .ro, .none, 0⟩,
   ⟨13, 12, .ro, .none, 0⟩,
   ⟨11, 10, .ro, .none, 0⟩,
   ⟨9, 8, .ro, .none, 0⟩,
   ⟨7, 0, .ro, .none, 255⟩]
/-- Fields of MXA_STATUS (R57). -/
def L.MXA_STATUS : List FSpec :=
  [⟨56, 56, .ro, .hub, 0⟩,
   ⟨55, 48, .ro, .hub, 0⟩,
   ⟨10, 8, .ro, .hub, 0⟩,
   ⟨6, 4, .ro, .hub, 0⟩,
   ⟨3, 0, .ro, .hub, 0⟩]
/-- Fields of MXA_CFG (R58). -/
def L.MXA_CFG : List FSpec :=
  [⟨15, 8, .rwl, .installer, 0⟩,
   ⟨1, 1, .rwl, .installer, 0⟩,
   ⟨0, 0, .rwl, .installer, 0⟩]
/-- Fields of MXA_WIT_STATUS (R59). -/
def L.MXA_WIT_STATUS : List FSpec :=
  [⟨63, 48, .ro, .hub, 0⟩,
   ⟨40, 34, .ro, .hub, 0⟩,
   ⟨33, 27, .ro, .hub, 0⟩,
   ⟨26, 26, .ro, .hub, 0⟩,
   ⟨25, 25, .ro, .hub, 0⟩,
   ⟨24, 24, .ro, .hub, 0⟩,
   ⟨3, 3, .ro, .hub, 0⟩,
   ⟨2, 2, .ro, .hub, 0⟩,
   ⟨1, 1, .w1c, .host, 0⟩,
   ⟨0, 0, .w1c, .host, 0⟩]
/-- Fields of MXA_BILLETS (R60). -/
def L.MXA_BILLETS : List FSpec :=
  [⟨63, 0, .ro, .hub, 0⟩]
/-- Fields of MXA_STALL (R61). -/
def L.MXA_STALL : List FSpec :=
  [⟨63, 32, .ro, .hub, 0⟩,
   ⟨31, 0, .ro, .hub, 0⟩]
/-- Fields of BWL_MAP (R62). -/
def L.BWL_MAP : List FSpec :=
  [⟨47, 40, .ro, .firmware, 2⟩,
   ⟨39, 32, .ro, .firmware, 30⟩,
   ⟨31, 24, .ro, .firmware, 6⟩,
   ⟨23, 16, .ro, .firmware, 24⟩,
   ⟨15, 8, .ro, .firmware, 24⟩,
   ⟨7, 0, .ro, .firmware, 0⟩]
/-- Fields of BWL_ECC (R63). -/
def L.BWL_ECC : List FSpec :=
  [⟨63, 32, .ro, .hub, 0⟩,
   ⟨12, 8, .ro, .hub, 0⟩,
   ⟨0, 0, .w1c, .host, 0⟩]
/-- Fields of BWL_SCRUB (R64). -/
def L.BWL_SCRUB : List FSpec :=
  [⟨63, 8, .ro, .hub, 0⟩,
   ⟨0, 0, .ro, .hub, 0⟩]
/-- Fields of VXE_STATUS (R140). -/
def L.VXE_STATUS : List FSpec :=
  [⟨41, 32, .ro, .hub, 0⟩,
   ⟨31, 28, .ro, .hub, 0⟩,
   ⟨26, 24, .ro, .hub, 0⟩,
   ⟨10, 8, .ro, .hub, 0⟩,
   ⟨3, 0, .ro, .hub, 0⟩]
/-- Fields of VXE_CTL (R141). -/
def L.VXE_CTL : List FSpec :=
  [⟨0, 0, .ro, .hub, 0⟩]
/-- Fields of VXE_STAT (R142). -/
def L.VXE_STAT : List FSpec :=
  [⟨4, 4, .ro, .hub, 0⟩,
   ⟨3, 3, .ro, .hub, 0⟩,
   ⟨2, 2, .ro, .hub, 0⟩,
   ⟨1, 1, .ro, .hub, 0⟩,
   ⟨0, 0, .ro, .hub, 0⟩]
/-- Fields of VXE_FAULT (R143). -/
def L.VXE_FAULT : List FSpec :=
  [⟨63, 56, .ro, .hub, 0⟩,
   ⟨55, 48, .ro, .hub, 0⟩,
   ⟨47, 44, .ro, .hub, 0⟩,
   ⟨43, 34, .ro, .hub, 0⟩,
   ⟨0, 0, .w1c, .host, 0⟩]
/-- Fields of VXE_INVOC (R144). -/
def L.VXE_INVOC : List FSpec :=
  [⟨63, 0, .ro, .hub, 0⟩]
/-- Fields of VXE_ECC (R144). -/
def L.VXE_ECC : List FSpec :=
  [⟨63, 32, .ro, .hub, 0⟩,
   ⟨31, 16, .ro, .hub, 0⟩,
   ⟨0, 0, .w1c, .host, 0⟩]
/-- Fields of CTXW_RING_BASE (R145). -/
def L.CTXW_RING_BASE : List FSpec :=
  [⟨63, 12, .rwl, .context, 0⟩,
   ⟨0, 0, .rwl, .context, 0⟩]
/-- Fields of CTXW_RING_CFG (R145). -/
def L.CTXW_RING_CFG : List FSpec :=
  [⟨11, 8, .rwl, .context, 0⟩,
   ⟨7, 4, .rwl, .context, 0⟩]
/-- Fields of CTXW_CMPL_BASE (R145). -/
def L.CTXW_CMPL_BASE : List FSpec :=
  [⟨63, 12, .rwl, .context, 0⟩,
   ⟨0, 0, .rwl, .context, 0⟩]
/-- Fields of CTXW_RING_WORDS (R145). -/
def L.CTXW_RING_WORDS : List FSpec :=
  [⟨63, 4, .rwl, .context, 0⟩,
   ⟨0, 0, .rwl, .context, 0⟩]
/-- Fields of CTXW_RING_STATUS (R145). -/
def L.CTXW_RING_STATUS : List FSpec :=
  [⟨63, 32, .ro, .hub, 0⟩,
   ⟨23, 15, .ro, .hub, 0⟩,
   ⟨1, 1, .ro, .hub, 0⟩,
   ⟨0, 0, .ro, .hub, 0⟩]
/-- Fields of CTXW_SO0 (R168). -/
def L.CTXW_SO0 : List FSpec :=
  [⟨63, 0, .rw, .context, 0⟩]
/-- Fields of CTXW_SO8 (R168). -/
def L.CTXW_SO8 : List FSpec :=
  [⟨60, 48, .ro, .none, 0⟩,
   ⟨2, 2, .w1c, .context, 0⟩,
   ⟨1, 1, .w1c, .context, 0⟩,
   ⟨0, 0, .ro, .none, 1⟩]
/-- Fields of SCH_STATUS (R182). -/
def L.SCH_STATUS : List FSpec :=
  [⟨63, 63, .ro, .hub, 0⟩,
   ⟨62, 55, .ro, .hub, 0⟩,
   ⟨54, 47, .ro, .hub, 0⟩,
   ⟨3, 0, .ro, .hub, 0⟩]
/-- Fields of SCH_CFG (R182). -/
def L.SCH_CFG : List FSpec :=
  [⟨63, 47, .rwl, .installer, 2000⟩,
   ⟨46, 30, .rwl, .installer, 0⟩,
   ⟨29, 20, .rwl, .installer, 5⟩,
   ⟨19, 11, .rwl, .installer, 64⟩]
/-- Fields of SCH_SWITCH (R182). -/
def L.SCH_SWITCH : List FSpec :=
  [⟨63, 48, .ro, .hub, 0⟩,
   ⟨47, 32, .ro, .hub, 0⟩,
   ⟨31, 0, .ro, .hub, 0⟩]
/-- Fields of SCH_COUNT (R182). -/
def L.SCH_COUNT : List FSpec :=
  [⟨63, 32, .ro, .hub, 0⟩,
   ⟨8, 0, .ro, .hub, 0⟩]
/-- Fields of SCH_TABLE (R182). -/
def L.SCH_TABLE : List FSpec :=
  [⟨63, 63, .rwl, .installer, 0⟩,
   ⟨62, 62, .rwl, .installer, 0⟩,
   ⟨61, 56, .rwl, .installer, 0⟩,
   ⟨55, 48, .rwl, .installer, 0⟩]
/-- Fields of SCH_CTXQ (R182). -/
def L.SCH_CTXQ : List FSpec :=
  [⟨63, 63, .rwl, .installer, 0⟩,
   ⟨40, 32, .ro, .hub, 0⟩,
   ⟨8, 0, .rwl, .installer, 1⟩]
/-- Fields of SYN_CNT (R183). -/
def L.SYN_CNT : List FSpec :=
  [⟨63, 0, .ro, .hub, 0⟩]
/-- Fields of SYN_CTL (R183). -/
def L.SYN_CTL : List FSpec :=
  [⟨63, 63, .rwl, .installer, 0⟩,
   ⟨62, 62, .rwl, .installer, 0⟩,
   ⟨61, 56, .rwl, .installer, 0⟩,
   ⟨55, 48, .rwl, .installer, 0⟩,
   ⟨2, 2, .ro, .hub, 0⟩,
   ⟨1, 1, .ro, .hub, 0⟩]
/-- Fields of CTXW_MEMGEO (R192). -/
def L.CTXW_MEMGEO : List FSpec :=
  [⟨63, 42, .ro, .hub, 0⟩,
   ⟨41, 31, .ro, .hub, 0⟩,
   ⟨30, 22, .ro, .hub, 0⟩,
   ⟨9, 0, .ro, .hub, 0⟩]
/-- Fields of CTXW_SPREAD (R192). -/
def L.CTXW_SPREAD : List FSpec :=
  [⟨49, 40, .ro, .hub, 0⟩,
   ⟨39, 32, .ro, .hub, 0⟩,
   ⟨17, 8, .ro, .hub, 0⟩,
   ⟨7, 0, .ro, .hub, 0⟩]
/-- Fields of MEM_STATUS (R214). -/
def L.MEM_STATUS : List FSpec :=
  [⟨63, 56, .ro, .hub, 0⟩,
   ⟨55, 48, .ro, .hub, 0⟩,
   ⟨11, 9, .ro, .hub, 0⟩,
   ⟨8, 8, .ro, .hub, 0⟩,
   ⟨3, 0, .ro, .hub, 0⟩]
/-- Fields of MEM_REPAIR (R214). Their reset values are the saved ones; with nothing saved every spare row is free. -/
def L.MEM_REPAIR : List FSpec :=
  [⟨63, 48, .ro, .hub, 0⟩,
   ⟨47, 32, .ro, .hub, 0⟩,
   ⟨31, 16, .ro, .hub, 0⟩,
   ⟨13, 0, .ro, .hub, 8192⟩]
/-- Fields of MEM_SCRUB (R214). -/
def L.MEM_SCRUB : List FSpec :=
  [⟨63, 8, .ro, .hub, 0⟩,
   ⟨7, 0, .ro, .hub, 0⟩]
/-- Fields of MEM_WHITTLE (R214). -/
def L.MEM_WHITTLE : List FSpec :=
  [⟨63, 0, .ro, .hub, 0⟩]
/-- Fields of MEM_CH (R214). -/
def L.MEM_CH : List FSpec :=
  [⟨63, 48, .ro, .hub, 0⟩,
   ⟨47, 32, .ro, .hub, 0⟩,
   ⟨31, 24, .rwl, .installer, 0⟩,
   ⟨23, 23, .rwl, .installer, 0⟩,
   ⟨3, 0, .ro, .hub, 0⟩]
/-- Fields of MEM_ECC (R214). -/
def L.MEM_ECC : List FSpec :=
  [⟨63, 32, .ro, .hub, 0⟩,
   ⟨31, 16, .ro, .hub, 0⟩,
   ⟨0, 0, .w1c, .host, 0⟩]
/-- Fields of MEM_REG_CTX (R214). -/
def L.MEM_REG_CTX : List FSpec :=
  [⟨63, 48, .rwl, .installer, 0⟩,
   ⟨47, 40, .rwl, .installer, 16⟩,
   ⟨39, 33, .rwl, .installer, 0⟩,
   ⟨15, 0, .ro, .hub, 0⟩]
/-- Fields of CTXW_PASID (R245). -/
def L.CTXW_PASID : List FSpec :=
  [⟨63, 63, .rwl, .context, 0⟩,
   ⟨62, 62, .rwl, .context, 0⟩,
   ⟨19, 0, .rwl, .context, 0⟩]
/-- Fields of XLT_STATUS (R246). -/
def L.XLT_STATUS : List FSpec :=
  [⟨56, 48, .ro, .hub, 0⟩,
   ⟨38, 30, .ro, .hub, 0⟩,
   ⟨2, 2, .ro, .hub, 0⟩,
   ⟨1, 1, .ro, .hub, 0⟩]
/-- Fields of XLT_CFG (R247). -/
def L.XLT_CFG : List FSpec :=
  [⟨47, 40, .ro, .hub, 255⟩,
   ⟨5, 0, .rwl, .installer, 16⟩]
/-- Fields of XLT_COUNT (R248). -/
def L.XLT_COUNT : List FSpec :=
  [⟨63, 40, .ro, .hub, 0⟩,
   ⟨39, 16, .ro, .hub, 0⟩,
   ⟨15, 8, .ro, .hub, 0⟩,
   ⟨7, 0, .ro, .hub, 0⟩]
/-- Fields of XLT_CTX (R249). -/
def L.XLT_CTX : List FSpec :=
  [⟨63, 58, .rwl, .installer, 4⟩,
   ⟨53, 48, .ro, .hub, 0⟩,
   ⟨47, 0, .ro, .hub, 0⟩]
/-- Fields of XLT_PFT0 (R250). -/
def L.XLT_PFT0 : List FSpec :=
  [⟨63, 12, .ro, .hub, 0⟩,
   ⟨11, 4, .ro, .hub, 0⟩,
   ⟨3, 3, .ro, .hub, 0⟩,
   ⟨2, 2, .ro, .hub, 0⟩,
   ⟨1, 0, .ro, .hub, 0⟩]
/-- Fields of XLT_PFT8 (R250). -/
def L.XLT_PFT8 : List FSpec :=
  [⟨63, 44, .ro, .hub, 0⟩,
   ⟨43, 42, .ro, .hub, 0⟩,
   ⟨41, 10, .ro, .hub, 0⟩,
   ⟨1, 0, .ro, .hub, 0⟩]
/-- Fields of DMA_PART_CFG (R251). -/
def L.DMA_PART_CFG : List FSpec :=
  [⟨6, 0, .rwl, .installer, 8⟩]
/-- Fields of DMA_ENG_STATUS (R252). -/
def L.DMA_ENG_STATUS : List FSpec :=
  [⟨63, 56, .ro, .hub, 0⟩,
   ⟨55, 48, .ro, .hub, 0⟩,
   ⟨47, 42, .ro, .hub, 0⟩,
   ⟨3, 0, .ro, .hub, 0⟩]
/-- Fields of DMA_ENG_CURSOR (R252). -/
def L.DMA_ENG_CURSOR : List FSpec :=
  [⟨63, 40, .ro, .hub, 0⟩,
   ⟨39, 0, .ro, .hub, 0⟩]
/-- Fields of DMA_ENG_BYTES (R252). -/
def L.DMA_ENG_BYTES : List FSpec :=
  [⟨63, 0, .ro, .hub, 0⟩]
/-- Fields of NOC_STATUS (R278). -/
def L.NOC_STATUS : List FSpec :=
  [⟨55, 48, .ro, .hub, 0⟩,
   ⟨3, 0, .ro, .hub, 15⟩]
/-- Fields of NOC_ERR (R278). -/
def L.NOC_ERR : List FSpec :=
  [⟨63, 32, .ro, .hub, 0⟩,
   ⟨31, 16, .ro, .hub, 0⟩,
   ⟨15, 8, .ro, .hub, 0⟩,
   ⟨0, 0, .w1c, .host, 0⟩]
/-- Fields of NOC_LAST_ERR (R278). -/
def L.NOC_LAST_ERR : List FSpec :=
  [⟨63, 57, .ro, .hub, 0⟩,
   ⟨56, 54, .ro, .hub, 0⟩,
   ⟨53, 52, .ro, .hub, 0⟩,
   ⟨51, 50, .ro, .hub, 0⟩,
   ⟨49, 48, .ro, .hub, 0⟩,
   ⟨47, 0, .ro, .hub, 0⟩]
/-- Fields of NOC_OWN (R278). -/
def L.NOC_OWN : List FSpec :=
  [⟨63, 32, .ro, .hub, 0⟩,
   ⟨24, 18, .ro, .hub, 0⟩,
   ⟨17, 16, .ro, .hub, 0⟩,
   ⟨15, 8, .ro, .hub, 0⟩,
   ⟨0, 0, .w1c, .host, 0⟩]
/-- Fields of NOC_REG_CTX (R278). -/
def L.NOC_REG_CTX : List FSpec :=
  [⟨63, 53, .rwl, .installer, 0⟩,
   ⟨52, 41, .rwl, .installer, 256⟩]
/-- Fields of CTXW_STATE (R309). -/
def L.CTXW_STATE : List FSpec :=
  [⟨63, 48, .ro, .hub, 0⟩,
   ⟨7, 7, .ro, .hub, 0⟩,
   ⟨6, 4, .ro, .hub, 0⟩,
   ⟨3, 0, .ro, .hub, 0⟩]
/-- Fields of CTXW_CTL (R309). -/
def L.CTXW_CTL : List FSpec :=
  [⟨2, 2, .rwl, .context, 0⟩,
   ⟨1, 1, .wo, .context, 0⟩,
   ⟨0, 0, .wo, .context, 0⟩]
/-- Fields of CTX_STATE (R310). -/
def L.CTX_STATE : List FSpec :=
  [⟨63, 48, .ro, .hub, 0⟩,
   ⟨47, 32, .ro, .hub, 0⟩,
   ⟨7, 7, .ro, .hub, 0⟩,
   ⟨6, 4, .ro, .hub, 0⟩,
   ⟨3, 0, .ro, .hub, 0⟩]
/-- Fields of CTX_CFG (R310). -/
def L.CTX_CFG : List FSpec :=
  [⟨63, 48, .rwl, .installer, 0⟩,
   ⟨47, 47, .rwl, .installer, 0⟩,
   ⟨46, 46, .rwl, .installer, 0⟩,
   ⟨45, 45, .rwl, .installer, 0⟩,
   ⟨34, 32, .rwl, .installer, 0⟩,
   ⟨8, 0, .ro, .hub, 0⟩]
/-- Fields of CTX_PART (R310). -/
def L.CTX_PART : List FSpec :=
  [⟨63, 63, .rwl, .installer, 0⟩,
   ⟨62, 62, .rwl, .installer, 0⟩,
   ⟨23, 16, .rwl, .installer, 0⟩,
   ⟨8, 0, .ro, .hub, 0⟩]
/-- Fields of GUP_STATUS (R311). -/
def L.GUP_STATUS : List FSpec :=
  [⟨63, 32, .ro, .hub, 0⟩,
   ⟨31, 16, .ro, .hub, 0⟩,
   ⟨6, 0, .ro, .hub, 0⟩]
/-- Fields of GUP_CFG (R311). -/
def L.GUP_CFG : List FSpec :=
  [⟨63, 63, .rwl, .installer, 0⟩,
   ⟨62, 61, .rwl, .installer, 0⟩,
   ⟨60, 60, .rwl, .installer, 0⟩,
   ⟨59, 52, .rwl, .installer, 0⟩,
   ⟨51, 43, .rwl, .installer, 0⟩,
   ⟨42, 35, .rwl, .installer, 0⟩,
   ⟨31, 0, .rwl, .installer, 0⟩]
/-- Fields of GUP_RND (R311). -/
def L.GUP_RND : List FSpec :=
  [⟨63, 32, .ro, .hub, 0⟩,
   ⟨31, 16, .ro, .hub, 0⟩,
   ⟨3, 0, .ro, .hub, 0⟩]
/-- Fields of GUP_CLIP (R311). -/
def L.GUP_CLIP : List FSpec :=
  [⟨63, 32, .rwl, .installer, 0⟩,
   ⟨31, 0, .rwl, .installer, 0⟩]
/-- Fields of GUP_DEADLINE (R311). -/
def L.GUP_DEADLINE : List FSpec :=
  [⟨63, 24, .rwl, .installer, 0⟩]
/-- Fields of GUP_UID (R311). -/
def L.GUP_UID : List FSpec :=
  [⟨63, 0, .rwl, .installer, 0⟩]
/-- Fields of GUP_SET (R311). -/
def L.GUP_SET : List FSpec :=
  [⟨63, 0, .rwl, .installer, 0⟩]
/-- Fields of D2D_MOD_STATUS (R334). -/
def L.D2D_MOD_STATUS : List FSpec :=
  [⟨63, 48, .ro, .hub, 0⟩,
   ⟨7, 7, .ro, .hub, 0⟩,
   ⟨5, 4, .ro, .hub, 0⟩,
   ⟨3, 0, .ro, .hub, 0⟩]
/-- Fields of D2D_MOD_CFG (R334). -/
def L.D2D_MOD_CFG : List FSpec :=
  [⟨1, 0, .rwl, .installer, 0⟩]
/-- Fields of D2D_MOD_REPAIR (R334). -/
def L.D2D_MOD_REPAIR : List FSpec :=
  [⟨15, 14, .ro, .hub, 0⟩,
   ⟨13, 12, .ro, .hub, 0⟩,
   ⟨11, 10, .ro, .hub, 0⟩,
   ⟨9, 8, .ro, .hub, 0⟩,
   ⟨7, 4, .ro, .hub, 0⟩,
   ⟨3, 3, .ro, .hub, 0⟩,
   ⟨2, 2, .ro, .hub, 0⟩]
/-- Fields of D2D_MOD_ERR (R334). -/
def L.D2D_MOD_ERR : List FSpec :=
  [⟨63, 32, .ro, .hub, 0⟩,
   ⟨31, 16, .ro, .hub, 0⟩,
   ⟨15, 8, .ro, .hub, 0⟩,
   ⟨7, 4, .ro, .hub, 0⟩,
   ⟨0, 0, .w1c, .host, 0⟩]
/-- Fields of D2D_BDL_STATUS (R334). -/
def L.D2D_BDL_STATUS : List FSpec :=
  [⟨63, 48, .ro, .hub, 0⟩,
   ⟨47, 42, .ro, .hub, 0⟩,
   ⟨31, 24, .ro, .hub, 0⟩,
   ⟨7, 4, .ro, .hub, 0⟩,
   ⟨3, 0, .ro, .hub, 0⟩]
/-- Fields of D2D_BDL_CFG (R334). -/
def L.D2D_BDL_CFG : List FSpec :=
  [⟨5, 0, .rwl, .installer, 0⟩]
/-- Fields of D2D_IDENT (R334). -/
def L.D2D_IDENT : List FSpec :=
  [⟨63, 0, .ro, .hub, 0⟩]
/-- Fields of CHK_STATUS (R335). -/
def L.CHK_STATUS : List FSpec :=
  [⟨63, 48, .ro, .hub, 0⟩,
   ⟨31, 16, .ro, .hub, 0⟩,
   ⟨8, 8, .ro, .hub, 0⟩,
   ⟨7, 4, .ro, .hub, 0⟩,
   ⟨3, 0, .ro, .hub, 0⟩]
/-- Fields of CHK_CFG (R335). -/
def L.CHK_CFG : List FSpec :=
  [⟨63, 48, .rwl, .installer, 0⟩,
   ⟨47, 40, .rwl, .installer, 16⟩,
   ⟨39, 36, .rwl, .installer, 0⟩,
   ⟨35, 35, .rwl, .installer, 0⟩,
   ⟨34, 34, .rwl, .installer, 0⟩,
   ⟨33, 33, .rwl, .installer, 0⟩]
/-- Fields of CHK_VIOL (R335). -/
def L.CHK_VIOL : List FSpec :=
  [⟨63, 32, .ro, .hub, 0⟩,
   ⟨31, 28, .ro, .hub, 0⟩,
   ⟨27, 24, .ro, .hub, 0⟩,
   ⟨0, 0, .w1c, .host, 0⟩]
/-- Fields of CHK_EXPECT (R335). -/
def L.CHK_EXPECT : List FSpec :=
  [⟨63, 48, .ro, .none, 0⟩,
   ⟨47, 32, .ro, .none, 0⟩,
   ⟨31, 24, .ro, .none, 0⟩,
   ⟨23, 16, .ro, .none, 0⟩]
/-- Fields of CHK_WIN_A (R335). -/
def L.CHK_WIN_A : List FSpec :=
  [⟨63, 63, .rwl, .installer, 0⟩,
   ⟨62, 62, .ro, .hub, 0⟩,
   ⟨61, 58, .rwl, .installer, 0⟩,
   ⟨55, 48, .rwl, .installer, 0⟩,
   ⟨47, 12, .rwl, .installer, 0⟩,
   ⟨7, 0, .rwl, .installer, 0⟩]
/-- Fields of CHK_WIN_B (R335). -/
def L.CHK_WIN_B : List FSpec :=
  [⟨63, 36, .rwl, .installer, 0⟩,
   ⟨35, 8, .rwl, .installer, 0⟩]
/-- Fields of GLB_HEP_STATUS (R368). -/
def L.GLB_HEP_STATUS : List FSpec :=
  [⟨47, 44, .ro, .hub, 0⟩,
   ⟨43, 39, .ro, .hub, 0⟩,
   ⟨38, 38, .ro, .hub, 0⟩,
   ⟨16, 8, .ro, .hub, 0⟩,
   ⟨1, 1, .ro, .hub, 0⟩,
   ⟨0, 0, .ro, .hub, 0⟩]
/-- Fields of GLB_HEP_TAGS (R368). -/
def L.GLB_HEP_TAGS : List FSpec :=
  [⟨51, 42, .ro, .hub, 0⟩,
   ⟨41, 32, .ro, .hub, 0⟩,
   ⟨31, 22, .ro, .hub, 0⟩,
   ⟨9, 0, .ro, .hub, 0⟩]
/-- Fields of GLB_HEP_ERR (R368). -/
def L.GLB_HEP_ERR : List FSpec :=
  [⟨63, 48, .ro, .hub, 0⟩,
   ⟨47, 32, .ro, .hub, 0⟩,
   ⟨31, 16, .ro, .hub, 0⟩,
   ⟨15, 8, .ro, .hub, 0⟩]
/-- Fields of GLB_HEP_LAST_ERR (R368). -/
def L.GLB_HEP_LAST_ERR : List FSpec :=
  [⟨63, 56, .ro, .hub, 0⟩,
   ⟨55, 48, .ro, .hub, 0⟩,
   ⟨47, 32, .ro, .hub, 0⟩,
   ⟨1, 1, .ro, .hub, 0⟩,
   ⟨0, 0, .w1c, .host, 0⟩]
/-- Fields of GLB_HEP_PART (R368). -/
def L.GLB_HEP_PART : List FSpec :=
  [⟨41, 32, .ro, .hub, 0⟩,
   ⟨9, 0, .ro, .hub, 0⟩]
/-- Fields of GLB_HEP_STRM (R368). -/
def L.GLB_HEP_STRM : List FSpec :=
  [⟨63, 56, .ro, .hub, 0⟩,
   ⟨31, 16, .ro, .hub, 0⟩,
   ⟨2, 2, .ro, .hub, 0⟩,
   ⟨1, 1, .ro, .hub, 0⟩,
   ⟨0, 0, .ro, .hub, 0⟩]
/-- Fields of CLS_DIE_STATUS (R398). -/
def L.CLS_DIE_STATUS : List FSpec :=
  [⟨63, 48, .ro, .hub, 0⟩,
   ⟨3, 0, .ro, .hub, 0⟩]
/-- Fields of CLS_NODE (R398). -/
def L.CLS_NODE : List FSpec :=
  [⟨63, 63, .rwl, .installer, 0⟩,
   ⟨11, 0, .rwl, .installer, 0⟩]
/-- Fields of CLS_TIME (R398). -/
def L.CLS_TIME : List FSpec :=
  [⟨63, 48, .ro, .hub, 0⟩,
   ⟨16, 16, .ro, .hub, 0⟩,
   ⟨15, 8, .ro, .hub, 0⟩,
   ⟨7, 3, .ro, .hub, 0⟩,
   ⟨2, 2, .ro, .hub, 0⟩,
   ⟨1, 1, .ro, .hub, 0⟩,
   ⟨0, 0, .ro, .hub, 0⟩]
/-- Fields of CLS_COUNT (R398). -/
def L.CLS_COUNT : List FSpec :=
  [⟨63, 32, .ro, .hub, 0⟩,
   ⟨31, 16, .ro, .hub, 0⟩,
   ⟨15, 0, .ro, .hub, 0⟩]
/-- Fields of CLS_PORT_STATUS (R399). -/
def L.CLS_PORT_STATUS : List FSpec :=
  [⟨63, 52, .ro, .hub, 0⟩,
   ⟨51, 47, .ro, .hub, 0⟩,
   ⟨11, 8, .ro, .hub, 0⟩,
   ⟨7, 7, .ro, .hub, 0⟩,
   ⟨6, 6, .ro, .hub, 0⟩,
   ⟨3, 0, .ro, .hub, 0⟩]
/-- Fields of CLS_PORT_CFG (R399). -/
def L.CLS_PORT_CFG : List FSpec :=
  [⟨63, 63, .rwl, .installer, 0⟩,
   ⟨62, 62, .rwl, .installer, 0⟩,
   ⟨61, 61, .rwl, .installer, 0⟩,
   ⟨59, 48, .rwl, .installer, 0⟩,
   ⟨47, 43, .rwl, .installer, 0⟩]
/-- Fields of CLS_PORT_ERR (R399). -/
def L.CLS_PORT_ERR : List FSpec :=
  [⟨63, 32, .ro, .hub, 0⟩,
   ⟨31, 16, .ro, .hub, 0⟩,
   ⟨15, 8, .ro, .hub, 0⟩,
   ⟨0, 0, .w1c, .host, 0⟩]
/-- Fields of CLS_PORT_DELAY (R399). -/
def L.CLS_PORT_DELAY : List FSpec :=
  [⟨31, 0, .ro, .hub, 0⟩]
/-- Fields of MBX_CMD_TAIL (R439). -/
def L.MBX_CMD_TAIL : List FSpec :=
  [⟨31, 0, .rw, .host, 0⟩]
/-- Fields of MBX_CMD_HEAD (R439). -/
def L.MBX_CMD_HEAD : List FSpec :=
  [⟨31, 0, .ro, .firmware, 0⟩]
/-- Fields of MBX_STATUS (R439). -/
def L.MBX_STATUS : List FSpec :=
  [⟨63, 48, .ro, .firmware, 0⟩,
   ⟨47, 40, .ro, .firmware, 0⟩,
   ⟨39, 24, .ro, .firmware, 0⟩,
   ⟨2, 2, .ro, .firmware, 0⟩,
   ⟨1, 1, .ro, .firmware, 0⟩,
   ⟨0, 0, .ro, .firmware, 0⟩]
/-- Fields of HWD_STATUS (R440). -/
def L.HWD_STATUS : List FSpec :=
  [⟨63, 56, .ro, .firmware, 0⟩,
   ⟨55, 48, .ro, .firmware, 0⟩,
   ⟨47, 46, .ro, .firmware, 0⟩,
   ⟨45, 45, .ro, .firmware, 0⟩,
   ⟨44, 44, .ro, .firmware, 0⟩,
   ⟨43, 43, .ro, .firmware, 0⟩,
   ⟨42, 42, .ro, .firmware, 0⟩,
   ⟨41, 41, .ro, .firmware, 0⟩,
   ⟨40, 40, .ro, .firmware, 0⟩,
   ⟨7, 0, .ro, .firmware, 0⟩]
/-- Fields of HWD_COUNT (R440). -/
def L.HWD_COUNT : List FSpec :=
  [⟨63, 32, .ro, .firmware, 0⟩,
   ⟨31, 16, .ro, .firmware, 0⟩,
   ⟨15, 0, .ro, .firmware, 0⟩]
/-- Fields of HWD_SERIAL (R440). -/
def L.HWD_SERIAL : List FSpec :=
  [⟨63, 0, .ro, .none, 0⟩]
/-- Fields of HWD_ALIAS (R440). -/
def L.HWD_ALIAS : List FSpec :=
  [⟨63, 0, .ro, .firmware, 0⟩]
/-- Fields of LCS_STATUS (R454). -/
def L.LCS_STATUS : List FSpec :=
  [⟨19, 16, .ro, .firmware, 0⟩,
   ⟨11, 10, .ro, .firmware, 0⟩,
   ⟨9, 8, .ro, .firmware, 0⟩,
   ⟨7, 4, .ro, .firmware, 0⟩,
   ⟨3, 0, .ro, .firmware, 0⟩]
/-- Fields of LCS_COPY (R454). -/
def L.LCS_COPY : List FSpec :=
  [⟨47, 0, .ro, .firmware, 0⟩]
/-- Fields of TLS_STATUS (R480). -/
def L.TLS_STATUS : List FSpec :=
  [⟨63, 56, .ro, .hub, 0⟩,
   ⟨55, 48, .ro, .hub, 0⟩,
   ⟨2, 1, .ro, .hub, 0⟩,
   ⟨0, 0, .ro, .hub, 0⟩]
/-- Fields of TLS_CFG (R480). -/
def L.TLS_CFG : List FSpec :=
  [⟨7, 0, .rwl, .installer, 150⟩]
/-- Fields of TLS_ROT (R480). -/
def L.TLS_ROT : List FSpec :=
  [⟨63, 32, .ro, .hub, 0⟩,
   ⟨6, 1, .ro, .hub, 0⟩,
   ⟨0, 0, .ro, .hub, 0⟩]
/-- Fields of TLS_COUNT (R480). -/
def L.TLS_COUNT : List FSpec :=
  [⟨63, 32, .ro, .hub, 0⟩,
   ⟨31, 8, .ro, .hub, 0⟩,
   ⟨7, 0, .ro, .hub, 0⟩]
/-- Fields of TLS_LAST (R480). -/
def L.TLS_LAST : List FSpec :=
  [⟨63, 48, .ro, .hub, 0⟩,
   ⟨47, 32, .ro, .hub, 0⟩,
   ⟨31, 29, .ro, .hub, 0⟩,
   ⟨28, 21, .ro, .hub, 0⟩,
   ⟨20, 20, .ro, .hub, 0⟩,
   ⟨0, 0, .w1c, .host, 0⟩]
/-- Fields of TLS_EVT_HEAD (R480). -/
def L.TLS_EVT_HEAD : List FSpec :=
  [⟨31, 0, .ro, .hub, 0⟩]
/-- Fields of TLS_POLICY (R480). -/
def L.TLS_POLICY : List FSpec :=
  [⟨63, 48, .ro, .firmware, 0⟩,
   ⟨39, 35, .ro, .firmware, 0⟩,
   ⟨34, 32, .ro, .firmware, 0⟩,
   ⟨2, 0, .rwl, .installer, 0⟩]
/-- Fields of TLS_EVT0 (R480). -/
def L.TLS_EVT0 : List FSpec :=
  [⟨63, 48, .ro, .hub, 0⟩,
   ⟨47, 32, .ro, .hub, 0⟩,
   ⟨31, 0, .ro, .hub, 0⟩]
/-- Fields of TLS_EVT8 (R480). -/
def L.TLS_EVT8 : List FSpec :=
  [⟨63, 16, .ro, .hub, 0⟩,
   ⟨15, 13, .ro, .hub, 0⟩,
   ⟨8, 8, .ro, .hub, 0⟩,
   ⟨7, 0, .ro, .hub, 0⟩]
/-- Fields of BBX_STATUS (R481). -/
def L.BBX_STATUS : List FSpec :=
  [⟨63, 48, .ro, .hub, 0⟩,
   ⟨47, 34, .ro, .hub, 0⟩,
   ⟨33, 27, .ro, .hub, 0⟩,
   ⟨26, 18, .ro, .hub, 0⟩,
   ⟨4, 4, .ro, .hub, 1⟩,
   ⟨3, 3, .ro, .hub, 0⟩,
   ⟨2, 2, .ro, .hub, 0⟩,
   ⟨1, 1, .ro, .hub, 0⟩]
/-- Fields of BBX_COUNT (R481). -/
def L.BBX_COUNT : List FSpec :=
  [⟨63, 16, .ro, .hub, 0⟩,
   ⟨15, 8, .ro, .hub, 0⟩,
   ⟨7, 0, .ro, .hub, 0⟩]
/-- Fields of BBX_SEL (R481). -/
def L.BBX_SEL : List FSpec :=
  [⟨63, 63, .ro, .hub, 0⟩,
   ⟨14, 0, .rw, .host, 0⟩]
/-- Fields of BBX_DATA (R481). -/
def L.BBX_DATA : List FSpec :=
  [⟨63, 0, .ro, .hub, 0⟩]
/-- Fields of PWR_STATUS (R507). -/
def L.PWR_STATUS : List FSpec :=
  [⟨15, 8, .ro, .hub, 0⟩,
   ⟨7, 7, .ro, .hub, 0⟩,
   ⟨6, 6, .ro, .hub, 0⟩,
   ⟨5, 3, .ro, .hub, 0⟩,
   ⟨2, 0, .ro, .hub, 0⟩]
/-- Fields of PWR_CMD (R507). -/
def L.PWR_CMD : List FSpec :=
  [⟨3, 3, .wo, .host, 0⟩,
   ⟨2, 0, .wo, .host, 0⟩]
/-- Fields of PWR_POLICY (R507). -/
def L.PWR_POLICY : List FSpec :=
  [⟨2, 2, .rwl, .installer, 0⟩,
   ⟨1, 1, .rwl, .installer, 1⟩,
   ⟨0, 0, .rwl, .installer, 0⟩]
/-- Fields of PWR_LIMIT (R507). -/
def L.PWR_LIMIT : List FSpec :=
  [⟨63, 48, .rwl, .installer, 2500⟩,
   ⟨47, 32, .rw, .operator, 2500⟩]
/-- Fields of PWR_MEAS (R507). -/
def L.PWR_MEAS : List FSpec :=
  [⟨63, 48, .ro, .hub, 0⟩,
   ⟨47, 32, .ro, .hub, 0⟩,
   ⟨14, 8, .ro, .hub, 64⟩,
   ⟨2, 0, .ro, .hub, 0⟩]
/-- Fields of PWR_PAD_RELEASE (R507). -/
def L.PWR_PAD_RELEASE : List FSpec :=
  [⟨0, 0, .wo, .firmware, 0⟩]
/-- Fields of PWR_DOMAIN (R507). -/
def L.PWR_DOMAIN : List FSpec :=
  [⟨63, 60, .ro, .hub, 0⟩,
   ⟨1, 0, .ro, .hub, 0⟩]
/-- Fields of PWR_ENERGY (R507). -/
def L.PWR_ENERGY : List FSpec :=
  [⟨63, 0, .ro, .hub, 0⟩]
/-- Fields of PWR_RESID (R507). -/
def L.PWR_RESID : List FSpec :=
  [⟨63, 0, .ro, .hub, 0⟩]
/-- Fields of CLK_STATUS (R508). -/
def L.CLK_STATUS : List FSpec :=
  [⟨13, 8, .w1c, .host, 0⟩,
   ⟨5, 0, .ro, .hub, 0⟩]
/-- Fields of CLK_SSC (R508). -/
def L.CLK_SSC : List FSpec :=
  [⟨3, 0, .rwl, .installer, 15⟩]
/-- Fields of CLK_IO (R508). -/
def L.CLK_IO : List FSpec :=
  [⟨7, 0, .rwl, .installer, 0⟩]
/-- Fields of CLK_MON (R508). -/
def L.CLK_MON : List FSpec :=
  [⟨58, 56, .ro, .hub, 0⟩,
   ⟨55, 48, .ro, .hub, 0⟩,
   ⟨47, 0, .ro, .hub, 0⟩]
/-- Fields of SPN_TIME (R509). -/
def L.SPN_TIME : List FSpec :=
  [⟨63, 0, .ro, .hub, 0⟩]
/-- Fields of SPN_INC (R509). -/
def L.SPN_INC : List FSpec :=
  [⟨63, 0, .ro, .hub, 4294967296⟩]
/-- Fields of SPN_ALARM (R509). -/
def L.SPN_ALARM : List FSpec :=
  [⟨63, 0, .rw, .host, 0⟩]
/-- Fields of SPN_ALARM_CTL (R509). -/
def L.SPN_ALARM_CTL : List FSpec :=
  [⟨1, 1, .w1c, .host, 0⟩,
   ⟨0, 0, .rw, .host, 0⟩]
/-- Fields of SPN_STATUS (R509). -/
def L.SPN_STATUS : List FSpec :=
  [⟨2, 2, .ro, .hub, 1⟩,
   ⟨1, 1, .ro, .hub, 0⟩,
   ⟨0, 0, .ro, .hub, 0⟩]
/-- Fields of GLB_ID (R534). -/
def L.GLB_ID : List FSpec :=
  [⟨63, 48, .ro, .none, 7836⟩,
   ⟨47, 32, .ro, .none, 38408⟩]
/-- Fields of GLB_CAP (R534). -/
def L.GLB_CAP : List FSpec :=
  [⟨63, 56, .ro, .none, 64⟩,
   ⟨55, 48, .ro, .none, 8⟩,
   ⟨47, 40, .ro, .none, 4⟩,
   ⟨39, 32, .ro, .none, 2⟩,
   ⟨31, 16, .ro, .none, 256⟩,
   ⟨15, 0, .ro, .none, 256⟩]
/-- Fields of GLB_CFG_STATUS (R534). -/
def L.GLB_CFG_STATUS : List FSpec :=
  [⟨63, 56, .ro, .firmware, 0⟩,
   ⟨55, 52, .ro, .firmware, 0⟩,
   ⟨51, 44, .ro, .firmware, 0⟩,
   ⟨43, 12, .ro, .firmware, 0⟩,
   ⟨9, 9, .ro, .firmware, 0⟩,
   ⟨8, 8, .ro, .firmware, 0⟩,
   ⟨7, 7, .ro, .firmware, 0⟩,
   ⟨6, 6, .ro, .firmware, 0⟩,
   ⟨5, 5, .ro, .firmware, 0⟩,
   ⟨4, 4, .ro, .firmware, 0⟩,
   ⟨1, 0, .ro, .firmware, 0⟩]
/-- Fields of GLB_BRINGUP (R534). -/
def L.GLB_BRINGUP : List FSpec :=
  [⟨63, 48, .ro, .hub, 0⟩,
   ⟨47, 32, .ro, .hub, 0⟩,
   ⟨31, 24, .ro, .hub, 0⟩,
   ⟨23, 16, .ro, .hub, 0⟩,
   ⟨15, 8, .ro, .hub, 0⟩,
   ⟨7, 0, .ro, .hub, 0⟩]
/-- Fields of GLB_CFG_DIGEST (R534). -/
def L.GLB_CFG_DIGEST : List FSpec :=
  [⟨63, 0, .ro, .firmware, 0⟩]
/-- Fields of GLB_CONFLICT (R534). -/
def L.GLB_CONFLICT : List FSpec :=
  [⟨63, 48, .ro, .firmware, 0⟩,
   ⟨47, 32, .ro, .firmware, 0⟩,
   ⟨31, 16, .ro, .firmware, 0⟩,
   ⟨15, 4, .ro, .firmware, 0⟩,
   ⟨3, 2, .ro, .firmware, 0⟩,
   ⟨0, 0, .ro, .firmware, 0⟩]
/-- Register families of the GLB block (R510). -/
def famsGLB : List RegFam :=
  [⟨0x0, 0x1, 1, 0x1, 1, L.GLB_ID⟩,
   ⟨0x8, 0x1, 1, 0x1, 1, L.GLB_CAP⟩,
   ⟨0x10, 0x1, 1, 0x1, 1, L.GLB_CFG_STATUS⟩,
   ⟨0x18, 0x1, 1, 0x1, 1, L.GLB_BRINGUP⟩,
   ⟨0x40, 0x1, 1, 0x1, 1, L.GLB_PKG_BUILD⟩,
   ⟨0x80, 0x8, 6, 0x1, 1, L.GLB_CFG_DIGEST⟩,
   ⟨0x100, 0x8, 32, 0x1, 1, L.GLB_CONFLICT⟩,
   ⟨0x2000, 0x1, 1, 0x1, 1, L.GLB_HEP_STATUS⟩,
   ⟨0x2008, 0x1, 1, 0x1, 1, L.GLB_HEP_TAGS⟩,
   ⟨0x2010, 0x1, 1, 0x1, 1, L.GLB_HEP_ERR⟩,
   ⟨0x2018, 0x1, 1, 0x1, 1, L.GLB_HEP_LAST_ERR⟩,
   ⟨0x2040, 0x8, 8, 0x1, 1, L.GLB_HEP_PART⟩,
   ⟨0x2400, 0x8, 256, 0x1, 1, L.GLB_HEP_STRM⟩]
/-- Register families of the MBX block (R510). -/
def famsMBX : List RegFam :=
  [⟨0x10000, 0x1, 1, 0x1, 1, L.MBX_CMD_TAIL⟩,
   ⟨0x10008, 0x1, 1, 0x1, 1, L.MBX_CMD_HEAD⟩,
   ⟨0x10010, 0x1, 1, 0x1, 1, L.MBX_STATUS⟩]
/-- Register families of the SCH block (R510). -/
def famsSCH : List RegFam :=
  [⟨0x100000, 0x10000, 8, 0x1, 1, L.SCH_STATUS⟩,
   ⟨0x100008, 0x10000, 8, 0x1, 1, L.SCH_CFG⟩,
   ⟨0x100010, 0x10000, 8, 0x1, 1, L.SCH_SWITCH⟩,
   ⟨0x100018, 0x10000, 8, 0x1, 1, L.SCH_COUNT⟩,
   ⟨0x101000, 0x10000, 8, 0x8, 256, L.SCH_TABLE⟩,
   ⟨0x102000, 0x10000, 8, 0x8, 256, L.SCH_CTXQ⟩]
/-- Register families of the SYN block (R510). -/
def famsSYN : List RegFam :=
  [⟨0x200000, 0x10, 8192, 0x1, 1, L.SYN_CNT⟩,
   ⟨0x200008, 0x10, 8192, 0x1, 1, L.SYN_CTL⟩]
/-- Register families of the TIL block (R510). -/
def famsTIL : List RegFam :=
  [⟨0x400000, 0x4000, 64, 0x1, 1, L.MXA_STATUS⟩,
   ⟨0x400008, 0x4000, 64, 0x1, 1, L.MXA_CFG⟩,
   ⟨0x400010, 0x4000, 64, 0x1, 1, L.MXA_WIT_STATUS⟩,
   ⟨0x400018, 0x4000, 64, 0x1, 1, L.MXA_BILLETS⟩,
   ⟨0x400020, 0x4000, 64, 0x1, 1, L.MXA_STALL⟩,
   ⟨0x401000, 0x4000, 64, 0x1, 1, L.VXE_STATUS⟩,
   ⟨0x401008, 0x4000, 64, 0x1, 1, L.VXE_CTL⟩,
   ⟨0x401010, 0x4000, 64, 0x1, 1, L.VXE_STAT⟩,
   ⟨0x401018, 0x4000, 64, 0x1, 1, L.VXE_FAULT⟩,
   ⟨0x401020, 0x4000, 64, 0x1, 1, L.VXE_INVOC⟩,
   ⟨0x401028, 0x4000, 64, 0x1, 1, L.VXE_ECC⟩,
   ⟨0x402000, 0x4000, 64, 0x1, 1, L.BWL_MAP⟩,
   ⟨0x402008, 0x4000, 64, 0x1, 1, L.BWL_ECC⟩,
   ⟨0x402010, 0x4000, 64, 0x1, 1, L.BWL_SCRUB⟩]
/-- Register families of the MEM block (R510). -/
def famsMEM : List RegFam :=
  [⟨0x800000, 0x10000, 8, 0x1, 1, L.MEM_STATUS⟩,
   ⟨0x800008, 0x10000, 8, 0x1, 1, L.MEM_REPAIR⟩,
   ⟨0x800010, 0x10000, 8, 0x1, 1, L.MEM_SCRUB⟩,
   ⟨0x800018, 0x10000, 8, 0x1, 1, L.MEM_WHITTLE⟩,
   ⟨0x800100, 0x10000, 8, 0x8, 32, L.MEM_CH⟩,
   ⟨0x800200, 0x10000, 8, 0x8, 32, L.MEM_ECC⟩,
   ⟨0x801000, 0x10000, 8, 0x8, 256, L.MEM_REG_CTX⟩]
/-- Register families of the XLT block (R510). -/
def famsXLT : List RegFam :=
  [⟨0xA00000, 0x1, 1, 0x1, 1, L.XLT_STATUS⟩,
   ⟨0xA00008, 0x1, 1, 0x1, 1, L.XLT_CFG⟩,
   ⟨0xA00010, 0x1, 1, 0x1, 1, L.XLT_COUNT⟩,
   ⟨0xA01000, 0x8, 256, 0x1, 1, L.XLT_CTX⟩,
   ⟨0xA04000, 0x10, 256, 0x1, 1, L.XLT_PFT0⟩,
   ⟨0xA04008, 0x10, 256, 0x1, 1, L.XLT_PFT8⟩,
   ⟨0xA10000, 0x8, 8, 0x1, 1, L.DMA_PART_CFG⟩,
   ⟨0xA11000, 0x20, 32, 0x1, 1, L.DMA_ENG_STATUS⟩,
   ⟨0xA11008, 0x20, 32, 0x1, 1, L.DMA_ENG_CURSOR⟩,
   ⟨0xA11010, 0x20, 32, 0x1, 1, L.DMA_ENG_BYTES⟩]
/-- Register families of the NOC block (R510). -/
def famsNOC : List RegFam :=
  [⟨0xC00000, 0x1, 1, 0x1, 1, L.NOC_STATUS⟩,
   ⟨0xC00008, 0x1, 1, 0x1, 1, L.NOC_ERR⟩,
   ⟨0xC00010, 0x1, 1, 0x1, 1, L.NOC_LAST_ERR⟩,
   ⟨0xC00018, 0x1, 1, 0x1, 1, L.NOC_OWN⟩,
   ⟨0xC01000, 0x8, 256, 0x1, 1, L.NOC_REG_CTX⟩]
/-- Register families of the CTX block (R510). -/
def famsCTX : List RegFam :=
  [⟨0xD00000, 0x100, 256, 0x1, 1, L.CTX_STATE⟩,
   ⟨0xD00008, 0x100, 256, 0x1, 1, L.CTX_CFG⟩,
   ⟨0xD10000, 0x8, 8, 0x1, 1, L.CTX_PART⟩]
/-- Register families of the GUP block (R510). -/
def famsGUP : List RegFam :=
  [⟨0xE00000, 0x1, 1, 0x1, 1, L.GUP_STATUS⟩,
   ⟨0xE01000, 0x20, 64, 0x1, 1, L.GUP_CFG⟩,
   ⟨0xE01008, 0x20, 64, 0x1, 1, L.GUP_RND⟩,
   ⟨0xE01010, 0x20, 64, 0x1, 1, L.GUP_CLIP⟩,
   ⟨0xE01018, 0x20, 64, 0x1, 1, L.GUP_DEADLINE⟩,
   ⟨0xE02000, 0x8, 64, 0x1, 1, L.GUP_UID⟩,
   ⟨0xE04000, 0x40, 64, 0x8, 8, L.GUP_SET⟩]
/-- Register families of the D2D block (R510). -/
def famsD2D : List RegFam :=
  [⟨0xF00000, 0x400, 160, 0x1, 1, L.D2D_MOD_STATUS⟩,
   ⟨0xF00008, 0x400, 160, 0x1, 1, L.D2D_MOD_CFG⟩,
   ⟨0xF00010, 0x400, 160, 0x1, 1, L.D2D_MOD_REPAIR⟩,
   ⟨0xF00018, 0x400, 160, 0x1, 1, L.D2D_MOD_ERR⟩,
   ⟨0xF00100, 0x8, 1, 0x1, 1, L.D2D_BDL_STATUS⟩,
   ⟨0xF00108, 0x8, 1, 0x1, 1, L.D2D_BDL_CFG⟩,
   ⟨0xF00140, 0x8, 8, 0x1, 1, L.D2D_IDENT⟩,
   ⟨0xF03100, 0x8, 1, 0x1, 1, L.D2D_BDL_STATUS⟩,
   ⟨0xF03108, 0x8, 1, 0x1, 1, L.D2D_BDL_CFG⟩,
   ⟨0xF03140, 0x8, 8, 0x1, 1, L.D2D_IDENT⟩,
   ⟨0xF06100, 0x8, 1, 0x1, 1, L.D2D_BDL_STATUS⟩,
   ⟨0xF06108, 0x8, 1, 0x1, 1, L.D2D_BDL_CFG⟩,
   ⟨0xF06140, 0x8, 8, 0x1, 1, L.D2D_IDENT⟩,
   ⟨0xF09100, 0x8, 1, 0x1, 1, L.D2D_BDL_STATUS⟩,
   ⟨0xF09108, 0x8, 1, 0x1, 1, L.D2D_BDL_CFG⟩,
   ⟨0xF09140, 0x8, 8, 0x1, 1, L.D2D_IDENT⟩,
   ⟨0xF0C100, 0x8, 1, 0x1, 1, L.D2D_BDL_STATUS⟩,
   ⟨0xF0C108, 0x8, 1, 0x1, 1, L.D2D_BDL_CFG⟩,
   ⟨0xF0C140, 0x8, 8, 0x1, 1, L.D2D_IDENT⟩,
   ⟨0xF0F100, 0x8, 1, 0x1, 1, L.D2D_BDL_STATUS⟩,
   ⟨0xF0F108, 0x8, 1, 0x1, 1, L.D2D_BDL_CFG⟩,
   ⟨0xF0F140, 0x8, 8, 0x1, 1, L.D2D_IDENT⟩,
   ⟨0xF12100, 0x8, 1, 0x1, 1, L.D2D_BDL_STATUS⟩,
   ⟨0xF12108, 0x8, 1, 0x1, 1, L.D2D_BDL_CFG⟩,
   ⟨0xF12140, 0x8, 8, 0x1, 1, L.D2D_IDENT⟩,
   ⟨0xF15100, 0x8, 1, 0x1, 1, L.D2D_BDL_STATUS⟩,
   ⟨0xF15108, 0x8, 1, 0x1, 1, L.D2D_BDL_CFG⟩,
   ⟨0xF15140, 0x8, 8, 0x1, 1, L.D2D_IDENT⟩,
   ⟨0xF18100, 0x8, 1, 0x1, 1, L.D2D_BDL_STATUS⟩,
   ⟨0xF18108, 0x8, 1, 0x1, 1, L.D2D_BDL_CFG⟩,
   ⟨0xF18140, 0x8, 8, 0x1, 1, L.D2D_IDENT⟩,
   ⟨0xF1C100, 0x8, 1, 0x1, 1, L.D2D_BDL_STATUS⟩,
   ⟨0xF1C108, 0x8, 1, 0x1, 1, L.D2D_BDL_CFG⟩,
   ⟨0xF1C140, 0x8, 8, 0x1, 1, L.D2D_IDENT⟩,
   ⟨0xF20100, 0x8, 1, 0x1, 1, L.D2D_BDL_STATUS⟩,
   ⟨0xF20108, 0x8, 1, 0x1, 1, L.D2D_BDL_CFG⟩,
   ⟨0xF20140, 0x8, 8, 0x1, 1, L.D2D_IDENT⟩,
   ⟨0xF22100, 0x8, 1, 0x1, 1, L.D2D_BDL_STATUS⟩,
   ⟨0xF22108, 0x8, 1, 0x1, 1, L.D2D_BDL_CFG⟩,
   ⟨0xF22140, 0x8, 8, 0x1, 1, L.D2D_IDENT⟩,
   ⟨0xF24100, 0x8, 1, 0x1, 1, L.D2D_BDL_STATUS⟩,
   ⟨0xF24108, 0x8, 1, 0x1, 1, L.D2D_BDL_CFG⟩,
   ⟨0xF24140, 0x8, 8, 0x1, 1, L.D2D_IDENT⟩,
   ⟨0xF26100, 0x8, 1, 0x1, 1, L.D2D_BDL_STATUS⟩,
   ⟨0xF26108, 0x8, 1, 0x1, 1, L.D2D_BDL_CFG⟩,
   ⟨0xF26140, 0x8, 8, 0x1, 1, L.D2D_IDENT⟩]
/-- Register families of the CHK block (R510). -/
def famsCHK : List RegFam :=
  [⟨0x1000000, 0x4000, 4, 0x1, 1, L.CHK_STATUS⟩,
   ⟨0x1000008, 0x4000, 4, 0x1, 1, L.CHK_CFG⟩,
   ⟨0x1000010, 0x4000, 4, 0x1, 1, L.CHK_VIOL⟩,
   ⟨0x1000018, 0x4000, 4, 0x1, 1, L.CHK_EXPECT⟩,
   ⟨0x1000100, 0x4000, 4, 0x20, 16, L.CHK_WIN_A⟩,
   ⟨0x1000108, 0x4000, 4, 0x20, 16, L.CHK_WIN_B⟩]
/-- Register families of the CLS block (R510). -/
def famsCLS : List RegFam :=
  [⟨0x1100000, 0x40000, 2, 0x1, 1, L.CLS_DIE_STATUS⟩,
   ⟨0x1100010, 0x1, 1, 0x1, 1, L.CLS_NODE⟩,
   ⟨0x1100018, 0x1, 1, 0x1, 1, L.CLS_TIME⟩,
   ⟨0x1100020, 0x1, 1, 0x1, 1, L.CLS_COUNT⟩,
   ⟨0x1101000, 0x40000, 2, 0x40, 16, L.CLS_PORT_STATUS⟩,
   ⟨0x1101008, 0x40000, 2, 0x40, 16, L.CLS_PORT_CFG⟩,
   ⟨0x1101010, 0x40000, 2, 0x40, 16, L.CLS_PORT_ERR⟩,
   ⟨0x1101018, 0x40000, 2, 0x40, 16, L.CLS_PORT_DELAY⟩]
/-- Register families of the PWR block (R510). -/
def famsPWR : List RegFam :=
  [⟨0x1600000, 0x1, 1, 0x1, 1, L.PWR_STATUS⟩,
   ⟨0x1600008, 0x1, 1, 0x1, 1, L.PWR_CMD⟩,
   ⟨0x1600010, 0x1, 1, 0x1, 1, L.PWR_POLICY⟩,
   ⟨0x1600018, 0x1, 1, 0x1, 1, L.PWR_LIMIT⟩,
   ⟨0x1600020, 0x1, 1, 0x1, 1, L.PWR_MEAS⟩,
   ⟨0x1600028, 0x1, 1, 0x1, 1, L.PWR_PAD_RELEASE⟩,
   ⟨0x1600100, 0x8, 20, 0x1, 1, L.PWR_DOMAIN⟩,
   ⟨0x1600200, 0x8, 7, 0x1, 1, L.PWR_ENERGY⟩,
   ⟨0x1600300, 0x8, 6, 0x1, 1, L.PWR_RESID⟩,
   ⟨0x1610000, 0x1, 1, 0x1, 1, L.CLK_STATUS⟩,
   ⟨0x1610008, 0x1, 1, 0x1, 1, L.CLK_SSC⟩,
   ⟨0x1610010, 0x1, 1, 0x1, 1, L.CLK_IO⟩,
   ⟨0x1610018, 0x1, 1, 0x1, 1, L.CLK_MON⟩,
   ⟨0x1620000, 0x1, 1, 0x1, 1, L.SPN_TIME⟩,
   ⟨0x1620008, 0x1, 1, 0x1, 1, L.SPN_INC⟩,
   ⟨0x1620010, 0x1, 1, 0x1, 1, L.SPN_ALARM⟩,
   ⟨0x1620018, 0x1, 1, 0x1, 1, L.SPN_ALARM_CTL⟩,
   ⟨0x1620020, 0x1, 1, 0x1, 1, L.SPN_STATUS⟩]
/-- Register families of the TLS block (R510). -/
def famsTLS : List RegFam :=
  [⟨0x1700000, 0x1, 1, 0x1, 1, L.TLS_STATUS⟩,
   ⟨0x1700008, 0x1, 1, 0x1, 1, L.TLS_CFG⟩,
   ⟨0x1700010, 0x1, 1, 0x1, 1, L.TLS_ROT⟩,
   ⟨0x1700018, 0x1, 1, 0x1, 1, L.TLS_COUNT⟩,
   ⟨0x1700020, 0x1, 1, 0x1, 1, L.TLS_LAST⟩,
   ⟨0x1700028, 0x1, 1, 0x1, 1, L.TLS_EVT_HEAD⟩,
   ⟨0x1700800, 0x8, 256, 0x1, 1, L.TLS_POLICY⟩,
   ⟨0x1701000, 0x10, 256, 0x1, 1, L.TLS_EVT0⟩,
   ⟨0x1701008, 0x10, 256, 0x1, 1, L.TLS_EVT8⟩,
   ⟨0x1708000, 0x1, 1, 0x1, 1, L.BBX_STATUS⟩,
   ⟨0x1708008, 0x1, 1, 0x1, 1, L.BBX_COUNT⟩,
   ⟨0x1708010, 0x1, 1, 0x1, 1, L.BBX_SEL⟩,
   ⟨0x1708040, 0x8, 8, 0x1, 1, L.BBX_DATA⟩]
/-- Register families of the LCS block (R510). -/
def famsLCS : List RegFam :=
  [⟨0x1800000, 0x1, 1, 0x1, 1, L.LCS_STATUS⟩,
   ⟨0x1800008, 0x8, 3, 0x1, 1, L.LCS_COPY⟩,
   ⟨0x1801000, 0x1, 1, 0x1, 1, L.HWD_STATUS⟩,
   ⟨0x1801008, 0x1, 1, 0x1, 1, L.HWD_COUNT⟩,
   ⟨0x1801010, 0x1, 1, 0x1, 1, L.HWD_SERIAL⟩,
   ⟨0x1801018, 0x8, 6, 0x1, 1, L.HWD_ALIAS⟩]
/-- Register families of the WIN block (R510). -/
def famsWIN : List RegFam :=
  [⟨0x10000000, 0x10000000, 256, 0x1, 1, L.CTXW_STATE⟩,
   ⟨0x10000008, 0x10000000, 256, 0x1, 1, L.CTXW_CTL⟩,
   ⟨0x10000100, 0x10000000, 256, 0x1, 1, L.CTXW_RING_BASE⟩,
   ⟨0x10000108, 0x10000000, 256, 0x1, 1, L.CTXW_RING_CFG⟩,
   ⟨0x10000110, 0x10000000, 256, 0x1, 1, L.CTXW_CMPL_BASE⟩,
   ⟨0x10000118, 0x10000000, 256, 0x1, 1, L.CTXW_RING_WORDS⟩,
   ⟨0x10000120, 0x10000000, 256, 0x1, 1, L.CTXW_RING_STATUS⟩,
   ⟨0x10000140, 0x10000000, 256, 0x1, 1, L.CTXW_MEMGEO⟩,
   ⟨0x10000180, 0x10000000, 256, 0x8, 4, L.CTXW_PASID⟩,
   ⟨0x10002000, 0x10000000, 256, 0x8, 512, L.CTXW_SPREAD⟩,
   ⟨0x10004000, 0x10000000, 256, 0x10, 256, L.CTXW_SO0⟩,
   ⟨0x10004008, 0x10000000, 256, 0x10, 256, L.CTXW_SO8⟩]

/-- Does the family hold a register at `key`? -/
def RegFam.has (f : RegFam) (key : Nat) : Bool :=
  let o := key - f.base
  decide (f.base ≤ key) && decide (o / f.s₁ < f.n₁) && decide (o % f.s₁ / f.s₂ < f.n₂) && decide (o % f.s₁ % f.s₂ = 0)

/-- The families of the block that `key` lies in (R510). -/
def famsOf (key : Nat) : List RegFam :=
  if key < 0x10000 then famsGLB
  else if key < 0x100000 then famsMBX
  else if key < 0x200000 then famsSCH
  else if key < 0x400000 then famsSYN
  else if key < 0x800000 then famsTIL
  else if key < 0xA00000 then famsMEM
  else if key < 0xC00000 then famsXLT
  else if key < 0xD00000 then famsNOC
  else if key < 0xE00000 then famsCTX
  else if key < 0xF00000 then famsGUP
  else if key < 0x1000000 then famsD2D
  else if key < 0x1100000 then famsCHK
  else if key < 0x1600000 then famsCLS
  else if key < 0x1700000 then famsPWR
  else if key < 0x1800000 then famsTLS
  else if key < 0x10000000 then famsLCS
  else famsWIN

/-- The layout of the register at `key`; no fields where no register is implemented. -/
def layoutOf (key : Nat) : List FSpec :=
  match (famsOf key).find? (fun f => f.has key) with
  | some f => f.fields
  | none => []

/-- Is there a register at `key`? -/
def regExists (key : Nat) : Bool := !(layoutOf key).isEmpty

/-- The reset value that a layout gives. -/
def layoutReset : List FSpec → Nat
  | [] => 0
  | f :: fs => f.reset * 2 ^ f.lo + layoutReset fs

/-- The bundle whose registers lie in module `m`'s block, if any (R334). -/
def bundleOfFirst (m : Nat) : Option Nat :=
  if m < 96 then (if m % 12 = 0 then some (m / 12) else none)
  else if m = 96 then some 8 else if m = 112 then some 9
  else if 128 ≤ m ∧ m < 160 ∧ m % 8 = 0 then some (10 + (m - 128) / 8) else none

/-- MIN_HALVES of a bundle without a record: 20 for a stack, 26 for a link die, 8 for a site (R315). -/
def minHalvesDefault (b : Nat) : Nat := if b < 8 then 20 else if b < 10 then 26 else 8

/-- What the register at `key` reads as after its reset. D2D_BDL_CFG takes the default of R315. -/
def regReset (key : Nat) : Word :=
  if 0xF0_0000 ≤ key ∧ key < 0x100_0000 ∧ (key - 0xF0_0000) % 0x400 = 0x108 then
    match bundleOfFirst ((key - 0xF0_0000) / 0x400) with
    | some b => BitVec.ofNat 64 (minHalvesDefault b)
    | none => 0
  else BitVec.ofNat 64 (layoutReset (layoutOf key))

end Sys2Proof.Machine
end

