-- ==== Sys2Proof/Machine/Maps.lean ====
section
/-! DEFINITION. Sparse maps in one canonical form: keys strictly rising, and no entry equal to what an unlisted key
reads as. Registers, device memory and every numbered collection of the device are held in them, so that equal
contents are equal data. -/

namespace Sys2Proof.Machine

/-- A sparse map from numbers; what an unlisted key reads as is given at each read. -/
abbrev SMap (α : Type) := List (Nat × α)

namespace SMap

/-- The value at `k`: the listed one, or the default `d k`. -/
def get {α : Type} (d : Nat → α) : SMap α → Nat → α
  | [], k => d k
  | (k', v) :: m, k => if k = k' then v else get d m k

/-- List `v` at `k`, before the first greater key. -/
def ins {α : Type} (k : Nat) (v : α) : SMap α → SMap α
  | [] => [(k, v)]
  | (k', v') :: m =>
    if k < k' then (k, v) :: (k', v') :: m
    else if k = k' then (k, v) :: m
    else (k', v') :: ins k v m

/-- Drop every entry at `k`. -/
def del {α : Type} (k : Nat) (m : SMap α) : SMap α :=
  m.filter fun e => e.1 != k

/-- Set `k` to `v`. Writing the default removes the entry. -/
def put {α : Type} [DecidableEq α] (d : Nat → α) (m : SMap α) (k : Nat) (v : α) : SMap α :=
  if v = d k then del k m else ins k v m

/-- Apply `f` at `k`. -/
def upd {α : Type} [DecidableEq α] (d : Nat → α) (m : SMap α) (k : Nat) (f : α → α) : SMap α :=
  put d m k (f (get d m k))

/-- Keep the entries whose key satisfies `p`; the others read as the default. -/
def keep {α : Type} (p : Nat → Bool) (m : SMap α) : SMap α :=
  m.filter fun e => p e.1

/-- Keys strictly rising. -/
def sorted {α : Type} : SMap α → Bool
  | [] => true
  | [_] => true
  | (a, _) :: (b, y) :: m => decide (a < b) && sorted ((b, y) :: m)

/-- The canonical form. -/
def wf {α : Type} [DecidableEq α] (d : Nat → α) (m : SMap α) : Bool :=
  sorted m && m.all fun e => decide (e.2 ≠ d e.1)

end SMap

end Sys2Proof.Machine
end

