-- ==== Sys2Proof/Machine/TileTypes.lean ====
section
/-! DEFINITION. What a tile, its vector engine and a group's Mandrel hold (chapters 02, 03 and 04): deal list, operand
ring, accumulator banks, finished-tile queue, the vector engine's registers, summaries and accumulators. -/

namespace Sys2Proof.Machine

/-- A billet: the operation, the output block and the span (R29, R31), and the wave of the deal that it belongs to (R37).
In split-K, `home` is the block's home tile, `last` marks the last span of this tile's range, and `away` counts the spans
of the block that other tiles run (R39). -/
structure Billet where
  ctx  : Nat
  seq  : Nat
  row  : Nat
  col  : Nat
  span : Nat
  last : Bool
  home : Nat
  wave : Nat
  away : Nat
  deriving DecidableEq, Repr

/-- An operand block of a wave and span, as the scheduler's multicast left it in a tile's operand ring (R34, R38): which
operand, the block row of A or block column of B, its 128 lines as packed bytes, and the scale bytes of each line. -/
structure Opnd where
  ctx   : Nat
  seq   : Nat
  wave  : Nat
  span  : Nat
  isB   : Bool
  idx   : Nat
  lines : List (List Byte)
  scales : List (List Nat)
  deriving DecidableEq, Repr

/-- One element of a partial or of a bank: the signed window value N, or FP32 bits in the float path (R80, R85), with
the saturated and the invalid tag (R77, R82). -/
structure Cell where
  v   : Int
  sat : Bool
  inv : Bool
  deriving DecidableEq, Repr

/-- An element that holds zero. -/
def Cell.zero : Cell := { v := 0, sat := false, inv := false }

/-- An accumulator bank in use, or a partial on its way (R32, R39): the output block, the span of the last partial, whether
the home tile's own spans have ended and the chain is done, how many partials of other tiles are still to come, the
elements (row × 128 + column), the flags of R89, and the home tile. -/
structure Bank where
  ctx   : Nat
  seq   : Nat
  row   : Nat
  col   : Nat
  span  : Nat
  ownDone : Bool
  done  : Bool
  await : Nat
  cells : SMap Cell
  flags : Nat
  home  : Nat
  deriving DecidableEq, Repr

/-- An entry of the finished-tile queue (R35, R120): billet identity, block, its bytes, its flag byte; whether WOUT or
the network port is writing it, and whether it has been written to memory. -/
structure FtqEntry where
  ident   : Nat
  ctx     : Nat
  seq     : Nat
  row     : Nat
  col     : Nat
  data    : SMap Byte
  flags   : Nat
  writing : Bool
  written : Bool
  deriving DecidableEq, Repr

/-- A scalar summary record (R129). -/
structure Summary where
  ident : Nat
  time  : Nat
  value : Nat
  tag   : Nat
  tile  : Nat
  ctx   : Nat
  typ   : Nat
  deriving DecidableEq, Repr

/-- A loop that is open (R111): first word of the body, first word behind it, runs still to start. -/
structure Loop where
  first : Nat
  next  : Nat
  left  : Nat
  deriving DecidableEq, Repr

/-- The vector engine of a tile (R99, R138). -/
structure Vxe where
  /-- v0–v31 (4,096 bits), m1–m7 (512 bits), a0–a3 -/
  vreg   : SMap Nat
  mreg   : SMap Nat
  areg   : SMap Nat
  /-- W, FK and VL in the codes of R100 -/
  w      : Nat
  fk     : Nat
  vl     : Nat
  loops  : List Loop
  pc     : Nat
  /-- cycles of the invocation (R125) -/
  cycles : Nat
  /-- an invocation is in progress; FREE has run; the kernel image, its parameters and its slot -/
  run    : Bool
  freed  : Bool
  image  : List Byte
  params : List Nat
  kslot  : Nat
  /-- context and acceptance count of the operation last invoked on this tile (R121), and row, column and billet identity
  of the block of the invocation -/
  opKey  : Option (Nat × Nat)
  block  : Nat × Nat × Nat
  /-- VXE_STAT, which the saved tile state carries (R138, R142) -/
  stat   : Nat
  /-- the vector scratch below the sequencer page, and the sequencer page (R118, R119) -/
  scratch : SMap Byte
  page    : SMap Byte
  /-- unreleased summaries (R124) -/
  summs  : List Summary
  /-- a WOUT in progress: bowl address and element-size code (R122); the kernel waits for the port -/
  wout   : Option (Nat × Nat)
  /-- an END or a WOUT waits for room in the Mandrel's intake (R130) -/
  full   : Bool
  /-- flag byte of the entry that the invocation took, which counts once the block has been written (R89, R90) -/
  bflags : Nat
  deriving DecidableEq, Repr

/-- A vector engine that has run nothing: W 32 bits. -/
def Vxe.init : Vxe :=
  { vreg := [], mreg := [], areg := [], w := 0, fk := 0, vl := 0, loops := [], pc := 0, cycles := 0, run := false,
    freed := false, image := [], params := [], kslot := 0, opKey := none, block := (0, 0, 0), stat := 0, scratch := [], page := [], summs := [],
    wout := none, full := false, bflags := 0 }

/-- What a tile keeps beside its registers. -/
structure Tile where
  /-- billets dealt to it, the first being the one in progress or next (R27, R36) -/
  deal   : List Billet
  /-- the operand ring, banks 0–23 of the bowl, as copies that came over the mesh filled it (R28, R262), and the operand
  blocks that it holds for billets whose check has not passed or that later billets need (R34, R38) -/
  ring   : SMap Byte
  opnds  : List Opnd
  /-- accumulator banks in use, at most eight; and the bytes that writes over the mesh have put into the banks' address space
  since the array last wrote them (R257) -/
  banks  : List Bank
  accNet : SMap Byte
  /-- split-K partials that wait for their bank, and those sent that have not arrived (R39) -/
  early  : List Bank
  sent   : List Bank
  /-- the finished-tile queue, oldest first (R35) -/
  ftq    : List FtqEntry
  /-- the billet in progress is a recompute (R43), and the Spindle time in ns at which its first mismatch was found (R53) -/
  recompute : Bool
  missAt : Nat
  /-- its witness decision fell in a stopping window: the recompute is deferred (R53) -/
  deferred : Bool
  /-- stopped for a slice switch or a self-test (R52), and its billet in progress has ended since -/
  stopped : Bool
  ended   : Bool
  /-- a verified pair: the partial that this tile has drained and waits to compare, and whether its own witnesses
  matched (R49) -/
  pairPart : Option (Bank × Bool)
  /-- Spindle times, in ns, since which the queue has been full with a drain waiting, and since which the head billet has
  waited for operands; and what is left of each below one unit of 1,024 array cycles, in fifths of a cycle (R35, R61) -/
  ftqAt  : Option Nat
  opndAt : Option Nat
  ftqRem : Nat
  opndRem : Nat
  vxe    : Vxe
  deriving DecidableEq, Repr

/-- A tile that holds nothing. -/
def Tile.init : Tile :=
  { deal := [], ring := [], opnds := [], banks := [], accNet := [], early := [], sent := [], ftq := [], recompute := false, missAt := 0,
    deferred := false, stopped := false, ended := false, pairPart := none, ftqAt := none, opndAt := none, ftqRem := 0,
    opndRem := 0, vxe := Vxe.init }

/-- An unfinished chain of a context that was switched out, by output block and next span (R51): the billets still to run,
whether it is the chain of the block's home tile, its accumulator bank, the partials that wait for the bank, the partials
sent and not arrived, the tile that ran it, and whether a recompute is pending on that tile (R53). -/
structure SavedChain where
  seq   : Nat
  row   : Nat
  col   : Nat
  next  : Nat
  todo  : List Billet
  main  : Bool
  bank  : Option Bank
  early : List Bank
  sent  : List Bank
  from' : Nat
  redo  : Bool
  deriving DecidableEq, Repr

/-- What else a switch saves of a tile that held work (R138, R173): its finished-tile queue and its vector engine. -/
structure SavedTile where
  ftq : List FtqEntry
  vxe : Vxe
  deriving DecidableEq, Repr

/-- A tile's part of the saved state that holds nothing. -/
def SavedTile.init : SavedTile := { ftq := [], vxe := Vxe.init }

/-- An accumulator of a Mandrel (R130): type of its first record (0 FP32, 1 INT32, 2 UINT32), FP64 sum, extreme values
with the billet identity of the first record to reach each. -/
structure Acc where
  typ   : Option Nat
  count : Nat
  nz    : Nat
  sum   : Nat
  lo    : Nat
  loId  : Nat
  hi    : Nat
  hiId  : Nat
  nan   : Bool
  mixed : Bool
  deriving DecidableEq, Repr

/-- An empty accumulator. -/
def Acc.init : Acc :=
  { typ := none, count := 0, nz := 0, sum := 0, lo := 0, loId := 0, hi := 0, hiId := 0, nan := false, mixed := false }

/-- What a group's Mandrel holds: the accumulators by 8 × context + number, and the intake, oldest first (R130). -/
structure Group where
  accs   : SMap Acc
  intake : List Summary
  deriving DecidableEq, Repr

/-- A Mandrel at reset. -/
def Group.init : Group := { accs := [], intake := [] }

end Sys2Proof.Machine
end

