-- ==== Sys2Proof/Machine/Types.lean ====
section
/-! DEFINITION. The records that the state of the device is made of, chapter by chapter: operations in flight,
contexts, partitions, channels, the translation unit's lists, the black box and what the device drives outward.
Registers of the register tables are not repeated here: they are in the register file (Machine/Regs.lean). -/

namespace Sys2Proof.Machine

/-! ### The on-die network (chapter 08) -/

/-- A packet in the network: header and data, opcode, and the plane that it travels on (R256–R258). -/
structure NetFlit where
  hdr   : Flit
  opc   : Nat
  plane : Nat
  deriving DecidableEq, Repr

/-! ### Outward: what the device drives on its interfaces -/

/-- The completion status of a PCIe request (R342, R350). -/
inductive CplStatus where
  | ok | ur | ca
  deriving DecidableEq, Repr

/-- One thing that the device drives on one of its interfaces, for the reader of the outbox. -/
inductive Out where
  /-- a completion to a request of the host: function, status, data (R342) -/
  | completion (fn : Nat) (st : CplStatus) (data : Nat)
  /-- a posted write to host memory: context, PASID index, address, bytes (R216) -/
  | hostWrite (ctx pi addr : Nat) (data : List Byte)
  /-- a read of host memory under a request number (R344) -/
  | hostRead (id ctx pi addr len : Nat)
  /-- a PCIe AtomicOp: request number, operation code of R237, width in bits, operands -/
  | hostAtomic (id ctx pi addr op width operand compare : Nat)
  /-- an MSI-X message: function, vector (R363) -/
  | msix (fn vec : Nat)
  /-- an ATS Translation Request: request number, context, PASID index, first page, pages, No Write (R217) -/
  | atsRequest (id ctx pi page n : Nat) (noWrite : Bool)
  /-- a PRI Page Request: context, PASID index, page, read and write flags, group index (R226) -/
  | pageRequest (ctx pi page : Nat) (rd wr : Bool) (idx : Nat)
  /-- a Stop Marker for a PASID of a context (R231) -/
  | stopMarker (ctx pasid : Nat)
  /-- an Invalidate Completion for the request's tag (R224) -/
  | invCompletion (ctx tag : Nat)
  /-- a flit that an agent injects (R257) -/
  | flit (f : NetFlit)
  /-- an answer to a register access of an agent of the mesh: router, agent index, failed, data (R11, R342) -/
  | regAnswer (router index : Nat) (err : Bool) (data : List Byte)
  /-- a sideband message to the die of a bundle or a module (R317) -/
  | sideband (bundle code : Nat) (data : List Byte)
  /-- an answer to a site die: site, tag, error, data (R324, R327) -/
  | siteAnswer (site tag : Nat) (err : Bool) (data : List Byte)
  /-- a Claush frame: port, opcode, body (R376) -/
  | frame (port opc : Nat) (body : List Byte)
  /-- a response to a role command: path (true for MCTP), bytes (R417, R419) -/
  | roleResponse (mctp : Bool) (data : List Byte)
  /-- a DOE data object or an SPDM response over MCTP: path, bytes (R358, R359) -/
  | doeObject (mctp : Bool) (data : List Byte)
  /-- a TDISP response: context, code, bytes (R355) -/
  | tdisp (ctx code : Nat) (data : List Byte)
  /-- a TLP that goes out on the IDE stream of its context: stream, T bit (R352) -/
  | ide (stream : Nat) (tbit : Bool) (tlp : Out)
  deriving DecidableEq, Repr

/-! ### Operations in flight (chapters 05, 06, 07) -/

/-- A held entry of R218. `valid` is its VALID bit. -/
structure Held where
  ta    : Nat
  size  : Nat
  pi    : Nat
  rd    : Bool
  wr    : Bool
  at'   : Bool
  valid : Bool
  page  : Nat
  gen   : Nat
  deriving DecidableEq, Repr

/-- How an operation ended: STATUS, DETAIL and VALUE of its completion record (R162). -/
structure Result where
  status : Nat
  detail : Nat
  value  : Nat
  /-- the billet identity that a DECISION on MIN or MAX reports (R133) -/
  ident  : Option Nat
  deriving DecidableEq, Repr

/-- An operation from acceptance until its completion record is written (R148). -/
structure Op where
  /-- acceptance count -/
  seq      : Nat
  /-- the descriptor's eight words (R150) -/
  words    : List Word
  /-- the counter that CHG waits need (R148, R167) -/
  chg      : Nat
  /-- the WAIT word has been met; a wait once met stays met (R167) -/
  met      : Bool
  /-- a declared dependency ended in error (R160) -/
  depErr   : Bool
  /-- within the span of a decision whose test held (R132) -/
  skip     : Bool
  /-- started (R159), or handed to its engine (R177) -/
  started  : Bool
  /-- the DMA engine that serves it (R232) -/
  engine   : Option Nat
  /-- accepted in prefetch mode (R221) -/
  prefetch : Bool
  /-- cursor: the first destination byte not yet written, list position, or attempts made (R199, R238, R241) -/
  cursor   : Nat
  /-- the next byte or page to ask of the host -/
  asked    : Nat
  /-- running count that VALUE gives (R197, R235) -/
  count    : Nat
  /-- OR of arithmetic flag bytes and of VXE_STAT bits (R162) -/
  aflags   : Nat
  xflags   : Nat
  /-- held entries of the source and of the destination stream (R217) -/
  heldS    : List Held
  heldD    : List Held
  /-- bytes measured so far, in destination order (R243) -/
  hashed   : List Byte
  /-- an ATOMIC that has been issued to the host and is never issued again (R241) -/
  issued   : Bool
  /-- the deal case of R36, none before the deal: 1 quad waves, 2 single blocks, 3 split-K; waves or blocks dealt -/
  deal     : Nat
  dealt    : Nat
  /-- waves that the deal has formed so far; quads held back for absent grid positions, as their blocks; and blocks to deal
  again (R37, R45) -/
  waves    : Nat
  heldQ    : List (List (Nat × Nat))
  redo     : List (Nat × Nat)
  /-- blocks written to memory or ended without a write (R35, R123) -/
  written  : List (Nat × Nat)
  /-- the epilogue parameter block, as read when the operation started (R117) -/
  blk      : List Byte
  /-- the flushing read of R242: false until it has been asked -/
  flushing : Bool
  /-- the window of held entries is being filled up (R217) -/
  filling  : Bool
  /-- it has started once: a stop at a slice switch does not make its first translations due again (R217, R224, R241) -/
  begun    : Bool
  /-- set when the work has ended and the completion is due (R164) -/
  done     : Option Result
  deriving DecidableEq, Repr

/-- Word `i` of an operation's descriptor: 0 H0, 1 WAIT, 2 SIG, 3–7 W0–W4. -/
def Op.word (o : Op) (i : Nat) : Nat := wordAt o.words i
/-- KIND (R150). -/
def Op.kind (o : Op) : Nat := bits (o.word 0) 7 0
/-- FLAGS (R151). -/
def Op.flags (o : Op) : Nat := bits (o.word 0) 15 8
/-- VEC (R150). -/
def Op.vec (o : Op) : Nat := bits (o.word 0) 18 16
/-- TAG (R150). -/
def Op.tag (o : Op) : Nat := bits (o.word 0) 63 32

/-- An operation as acceptance leaves it. -/
def Op.accept (seq : Nat) (words : List Word) (chg : Nat) (prefetch : Bool) : Op :=
  { seq := seq, words := words, chg := chg, met := false, depErr := false, skip := false, started := false,
    engine := none, prefetch := prefetch, cursor := 0, asked := 0, count := 0, aflags := 0, xflags := 0,
    heldS := [], heldD := [], hashed := [], issued := false, deal := 0, dealt := 0, waves := 0, heldQ := [],
    redo := [], written := [], blk := [], flushing := false, filling := false,
    begun := false, done := none }

/-- A slot of a context: its valid bit and the image it holds (R72, R112). -/
structure Slot where
  valid : Bool
  image : List Byte
  deriving DecidableEq, Repr

/-- An entry of the translation cache (R220); `page` is the untranslated page number. -/
structure XEnt where
  pi   : Nat
  page : Nat
  size : Nat
  ta   : Nat
  rd   : Bool
  wr   : Bool
  at'  : Bool
  gen  : Nat
  deriving DecidableEq, Repr

/-- An entry of the stale list: the generation the invalidation created, the PASID index or all, and the pages. -/
structure Stale where
  gen : Nat
  pi  : Option Nat
  lo  : Nat
  hi  : Nat
  deriving DecidableEq, Repr

/-- What waits on a page request: an operation of a context, or one of its ring accesses (R180, R227). -/
inductive Waiter where
  | op (ctx seq : Nat) | ring (ctx : Nat)
  deriving DecidableEq, Repr

/-- A fault that waits for an entry of the pending-fault table (R227). -/
structure PftWait where
  ctx  : Nat
  pi   : Nat
  page : Nat
  wr   : Bool
  who  : Waiter
  deriving DecidableEq, Repr

/-- What an ATS Translation Request is for: a ring access of the context (R216), the host stream of an operation (R217),
the walk of an XLT_TOUCH (R238), an entry of the pending-fault table whose Page Request was answered (R226), or a page of a
ring stream that is kept ahead in prefetch mode (R221). -/
inductive AtsUse where
  | ring | op (seq : Nat) | touch (seq : Nat) | page (i : Nat) | ahead
  deriving DecidableEq, Repr

/-- An ATS Translation Request that is outstanding, with the generation it carries (R225) and its use. -/
structure AtsReq where
  id      : Nat
  ctx     : Nat
  pi      : Nat
  page    : Nat
  n       : Nat
  gen     : Nat
  wr      : Bool
  use     : AtsUse
  /-- the slot of R344 that it holds: 0 and 1 reserved, 2 pooled; none while it waits for one -/
  slot    : Option Nat
  /-- its context has ended, or its answer is of no use any more -/
  dead    : Bool
  deriving DecidableEq, Repr

/-- What an outstanding non-posted host request is for. -/
inductive HostUse where
  /-- bytes `off` to `off + len − 1` of an operation's stream -/
  | copy (seq off len : Nat)
  /-- the AtomicOp of an ATOMIC -/
  | atomic (seq : Nat)
  /-- the zero-length read behind an operation's last write (R242) -/
  | flush (seq : Nat)
  /-- a request that reached the endpoint over the mesh, with its header (R343) -/
  | mesh (h : Flit)
  /-- the read of a run of descriptors from a ring in host memory (R147) -/
  | ring
  deriving DecidableEq, Repr

/-- An outstanding non-posted host request with the slot it holds (R344). -/
structure HostReq where
  id        : Nat
  ctx       : Nat
  use       : HostUse
  gen       : Nat
  /-- the PASID index and the first and last page that it reads (R224) -/
  pi        : Nat
  lo        : Nat
  hi        : Nat
  /-- the slot that it holds: 0 or 1 a reserved one of the context, 2 one of the partition's allotment -/
  slot      : Nat
  part      : Nat
  /-- abandoned: its data are discarded on arrival (R241, R285) -/
  abandoned : Bool
  deriving DecidableEq, Repr

/-- An invalidation between steps 1 and 5 of R224: context, tag, the range, the generation it created. -/
structure Inv where
  ctx : Nat
  tag : Nat
  gen : Nat
  pi  : Option Nat
  lo  : Nat
  hi  : Nat
  deriving DecidableEq, Repr

/-- A DMA engine: the operation it serves, and whether it is in service (R232, R463). -/
structure Engine where
  op   : Option (Nat × Nat)
  outOfService : Bool
  deriving DecidableEq, Repr

/-! ### Stacked memory (chapter 06) -/

/-- A line of the memory-side cache: tag, sector valid and dirty bits (R193). Its data are the channel's bytes. -/
structure Line where
  tag   : Nat
  valid : Nat
  dirty : Nat
  deriving DecidableEq, Repr

/-- Who waits for tokens: a request, as its command brought it, or a unit of the device that works for an operation: its
acceptance count and a number of the unit. -/
inductive Asker where
  | request (i : Instr)
  | unit (seq n : Nat)
  deriving DecidableEq, Repr

/-- A request that waits for tokens of a bucket (R203, R266, R326), or in a channel's queue for a row (R209): the tokens
still to draw. -/
structure Waiting where
  bucket : Nat
  cost   : Nat
  ctx    : Nat
  who    : Asker
  deriving DecidableEq, Repr

/-- What the base die keeps for a channel. -/
structure Chan where
  /-- the CLEAN mark (R286) -/
  clean    : Bool
  /-- retired as a whole (R211) -/
  retired  : Bool
  /-- retired physical frames, ascending (R210) -/
  retFrames : List Nat
  /-- the retired frames that the frame map in force leaves out (R206) -/
  mapped   : List Nat
  /-- remaps of each row (R209) -/
  remaps   : SMap Nat
  /-- spare rows used (R209) -/
  spares   : Nat
  /-- granules that corrected in this scrub pass, and in the last (R209) -/
  ceThis   : List Nat
  ceLast   : List Nat
  /-- the next granule of the patrol scrub, and the passes that it has made (R208) -/
  scrubPos : Nat
  passes   : Nat
  /-- rows whose copy to a spare row is under way (R209) -/
  copying  : List Nat
  /-- a clear is under way (R187) -/
  clearing : Bool
  /-- the cache slice: set number to lines, most recently used first (R193) -/
  cache    : SMap (List Line)
  /-- the channel's request queue: requests that it has accepted and not yet served, and the bundle credits that they hold
  (R184, R209) -/
  queue    : List Waiting
  credits  : Nat
  deriving DecidableEq, Repr

/-- A channel at reset. -/
def Chan.init : Chan :=
  { clean := false, retired := false, retFrames := [], mapped := [], remaps := [], spares := 0, ceThis := [],
    ceLast := [], scrubPos := 0, passes := 0, copying := [], clearing := false, cache := [], queue := [], credits := 0 }

/-! ### Contexts and partitions (chapters 05, 09) -/

/-- A slice switch in progress (R174): the context that goes out and the one that comes in, if any, and the Spindle time at
which it began. -/
structure Switch where
  out  : Option Nat
  inc  : Option Nat
  since : Nat
  deriving DecidableEq, Repr

/-- What a partition keeps beside its registers. -/
structure Part where
  /-- the switch in progress -/
  sw     : Option Switch
  /-- Spindle times, in ns, at which its resets began (R464) -/
  resets : List Nat
  /-- steps 1 to 6 of R467 have ended and the proxy's count is awaited -/
  rejoin : Bool
  /-- its endpoints are behind the proxy sink (R272), and the control messages that the sink has consumed (R273) -/
  proxy  : Bool
  ctlSeen : Nat
  deriving DecidableEq, Repr

/-- A partition at reset. -/
def Part.init : Part := { sw := none, resets := [], rejoin := false, proxy := false, ctlSeen := 0 }

/-- A Claush window of a context (R381). -/
structure ClWin where
  base   : Nat
  pages  : Nat
  gctx   : Nat
  gnode  : Nat
  so     : Nat
  rights : Nat
  deriving DecidableEq, Repr

/-- What the device keeps for a context beside its registers. -/
structure Ctx where
  /-- operations in flight, in order of acceptance (R148) -/
  ops       : List Op
  /-- TAIL and CMPL_HEAD of the host word last read (R146, R147) -/
  tail      : Nat
  cmplHead  : Nat
  /-- CMPL_TAIL: records written (R146) -/
  cmplTail  : Nat
  /-- a run of descriptors has been asked for: its first count and its length (R147) -/
  fetch     : Option (Nat × Nat)
  /-- acceptance counts that completed with an error since the start (R151, R160) -/
  errSeqs   : List Nat
  /-- spans of decisions whose test held: first count and length (R132) -/
  spans     : List (Nat × Nat)
  /-- table-pair, kernel and curve slots (R72, R112) -/
  tbl       : SMap Slot
  krn       : SMap Slot
  crv       : SMap Slot
  /-- the owned channels that the spread in force was built from, its pitch, the stripes of the range and of the save
  area (R189, R190) -/
  chans     : List Nat
  pitch     : Nat
  stripes   : Nat
  saveStripes : Nat
  /-- the translation cache, most recently used first, and the stale list, newest first (R220, R222) -/
  cache     : List XEnt
  stale     : List Stale
  /-- an operation waits on a page request: the context is parked on it (R178, R230) -/
  waits     : List Waiter
  /-- measurement digests and counts, and the loads held back until earlier ones have been applied (R434) -/
  prog      : List Byte
  data      : List Byte
  progCount : Nat
  dataCount : Nat
  heldLoads : List (Nat × List Byte)
  /-- Spindle time at which it last entered LOCKED (R433) -/
  lockTime  : Nat
  /-- its TDI was locked by LOCK_INTERFACE_REQUEST; the start nonce; LOCK_MSIX (R355, R356) -/
  tdiLocked : Bool
  nonce     : List Byte
  lockMsix  : Bool
  /-- a CTX_STOP is pending (R280) -/
  stopPending : Bool
  /-- Claush windows (R381) -/
  wins      : SMap ClWin
  /-- unfinished chains, by output block and next span, and queues and vector engines by the tile that held each (R51,
  R174) -/
  chains    : List SavedChain
  saved     : SMap SavedTile
  /-- the hub word waits for a translation (R180) -/
  wordDue   : Bool
  deriving DecidableEq, Repr

/-- A slot that holds nothing. -/
def Slot.empty : Slot := { valid := false, image := [] }

/-- A context at reset. -/
def Ctx.init : Ctx :=
  { ops := [], tail := 0, cmplHead := 0, cmplTail := 0, fetch := none, errSeqs := [], spans := [], tbl := [],
    krn := [], crv := [], chans := [], pitch := 0, stripes := 0, saveStripes := 0, cache := [], stale := [],
    waits := [], prog := [], data := [], progCount := 0, dataCount := 0, heldLoads := [], lockTime := 0,
    tdiLocked := false, nonce := [], lockMsix := false, stopPending := false, wins := [], chains := [],
    saved := [], wordDue := false }

/-! ### Glue-up pools (chapter 09) -/

/-- The state of a slot (R294). -/
inductive SlotState where
  | empty | filling | sealed | scrubbing
  deriving DecidableEq, Repr

/-- The record that the engine keeps for a slot (R294): round, state, FP64 sum of squares. -/
structure PoolSlot where
  round : Nat
  st    : SlotState
  sumsq : Nat
  deriving DecidableEq, Repr

/-- A slot at reset. -/
def PoolSlot.init : PoolSlot := { round := 0, st := .empty, sumsq := 0 }

/-- What the engine keeps for a pool beside its registers. -/
structure Pool where
  slots     : SMap PoolSlot
  /-- Spindle time at which the open round began (R300) -/
  tOpen     : Nat
  /-- contributions and receives that wait: context, acceptance count, round (R296, R298) -/
  contribs  : List (Nat × Nat × Nat)
  receives  : List (Nat × Nat × Nat)
  /-- the last round released, and the number of contributions in its sum -/
  released  : Option (Nat × Nat)
  /-- the rounds that failed, newest first (R298, R300) -/
  fails     : List Nat
  /-- outputs that have received the held round (R300) -/
  served    : List Nat
  /-- the scrub of the result region has begun (R298, R300) -/
  resScrub  : Bool
  /-- root: one more than the sealed count that each leaf node has reported in the round (a node that is listed is a leaf
  of the pool); frames of partial sums that have arrived, by node × 2^32 + frame index; leaves left out. Leaf: frames of
  the result that have arrived, by index (R308, R388) -/
  leafSealed : SMap Nat
  partials  : List (Nat × List Nat)
  leftOut   : List Nat
  /-- root: CLOSE was sent at this Spindle time; leaf: CLOSE has been received -/
  closeAt   : Option Nat
  /-- the deadline of the open round passed below L0 Run, and takes effect at exit (R488) -/
  overdue   : Bool
  /-- root: sealed counts that leaves have reported for the round after this one; leaf: the round that its root has closed
  (false) or failed (true) before the slots of the last one were scrubbed (R308) -/
  early     : SMap Nat
  due       : Option (Nat × Bool)
  deriving DecidableEq, Repr

/-- A pool at reset. -/
def Pool.init : Pool :=
  { slots := [], tOpen := 0, contribs := [], receives := [], released := none, fails := [], served := [],
    resScrub := false, leafSealed := [], partials := [], leftOut := [], closeAt := none, overdue := false,
    early := [], due := none }

/-! ### The host endpoint (chapter 11) -/

/-- An entry of an MSI-X table (R363). -/
structure MsixEnt where
  addr : Nat
  data : Nat
  mask : Bool
  deriving DecidableEq, Repr

/-- The configuration space of a function, as far as the device acts on it. PF0 alone uses the fields of the second
group. -/
structure FnCfg where
  bme       : Bool
  mse       : Bool
  atsEn     : Bool
  priEn     : Bool
  priAlloc  : Nat
  priStopped : Bool
  atomicEn  : Bool
  msixEn    : Bool
  msixMask  : Bool
  table     : SMap MsixEnt
  pending   : Nat
  bar       : Nat
  /-- AER: unsupported requests, malformed, poisoned, timeouts, unexpected completions, IDE checks reported (R348) -/
  aer       : SMap Nat
  vfEn      : Bool
  numVfs    : Nat
  pasidEn   : Bool
  ctoUs     : Nat
  mps       : Nat
  mrrs      : Nat
  d3hot     : Bool
  deriving DecidableEq, Repr

/-- A vector of an MSI-X table at reset: masked, address zero (PRESUMED, log entry 6). -/
def MsixEnt.init : MsixEnt := { addr := 0, data := 0, mask := true }

/-- A function's configuration space at reset: every enable clear, completion timeout 50 ms (R347), payload 128 B and
read request 512 B (PRESUMED, log entry 6). -/
def FnCfg.init : FnCfg :=
  { bme := false, mse := false, atsEn := false, priEn := false, priAlloc := 0, priStopped := false,
    atomicEn := false, msixEn := false, msixMask := false, table := [], pending := 0, bar := 0, aer := [],
    vfEn := false, numVfs := 0, pasidEn := false, ctoUs := 50000, mps := 128, mrrs := 512, d3hot := false }

/-- An IDE stream (R351): the context that it serves, whether it is Secure, its key sets. The key bytes are IDE_KM's. -/
structure Stream where
  ctx    : Option Nat
  secure : Bool
  keys   : SMap (List Byte)
  keyset : Nat
  deriving DecidableEq, Repr

/-- A stream at reset. -/
def Stream.init : Stream := { ctx := none, secure := false, keys := [], keyset := 0 }

/-- The DOE mailbox of PF0 (R358). -/
structure Doe where
  busy  : Bool
  error : Bool
  deriving DecidableEq, Repr

/-- An open SPDM session (R359): its number, its path, its secret, and the TDI most recently locked in it (R435). -/
structure Session where
  id     : Nat
  mctp   : Bool
  secret : List Byte
  period : Nat
  beats  : Nat
  tdi    : Option Nat
  deriving DecidableEq, Repr

/-- Where SPDM negotiation stands on one path (R359): version, algorithms agreed, transcript. -/
structure Spdm where
  versioned  : Bool
  capable    : Bool
  negotiated : Bool
  transcript : List Byte
  deriving DecidableEq, Repr

/-- SPDM before its first request. -/
def Spdm.init : Spdm := { versioned := false, capable := false, negotiated := false, transcript := [] }

/-! ### Claush (chapter 12) -/

/-- A frame of the transaction layer (R376, R377). `seq` is the sender's 64-bit counter, whose low 32 bits travel (R374). -/
structure Frame where
  type : Nat
  vc   : Nat
  key  : Nat
  seq  : Nat
  ack  : Nat
  sctx : Nat
  dctx : Nat
  opid : Nat
  arg  : Nat
  data : List Byte
  deriving DecidableEq, Repr

/-- What a Claush port keeps beside its registers. -/
structure Port where
  /-- keys and salt of each set, by set and direction; empty before agreement (R374) -/
  keys     : SMap (List Byte)
  /-- exchange step reached, and the messages of the transcript -/
  step     : Nat
  transcript : List Byte
  peerInst : List Byte
  /-- frame counters: next to send, next expected, LINK frames sent (R374) -/
  txSeq    : Nat
  rxSeq    : Nat
  linkSeq  : Nat
  /-- frames not yet acknowledged, oldest first (R380) -/
  unacked  : List Frame
  /-- Spindle time at which ACK last advanced, or the oldest unacknowledged frame was sent (R380) -/
  ackAt    : Nat
  /-- frames that wait for a credit of their channel, and credits held, by channel (R378) -/
  waiting  : List Frame
  credits  : SMap Nat
  /-- the channel among 0 to 2 that the egress served last (R378) -/
  lastVc   : Nat
  /-- times of tag failures with a good CRC, in ns; replays in a row without progress (R395) -/
  authFails : List Nat
  replays  : Nat
  /-- frames sent, and the time, under the key set in use (R374) -/
  keyFrames : Nat
  keyTime  : Nat
  /-- ARG of the last TIME frame received and when it arrived (R389) -/
  lastTime : Nat
  lastAt   : Nat
  /-- flags of the peer's last TIME frame: LATE, SYNC, HELD -/
  peerFlags : Nat
  deriving DecidableEq, Repr

/-- Credits that a channel starts with (R378). -/
def vcCredits (vc : Nat) : Nat := if vc = 0 then 64 else if vc = 1 then 128 else if vc = 2 then 256 else 32

/-- A window that is not granted. -/
def ClWin.none : ClWin := { base := 0, pages := 0, gctx := 0, gnode := 0, so := 0, rights := 0 }

/-- A port at reset. -/
def Port.init : Port :=
  { keys := [], step := 0, transcript := [], peerInst := [], txSeq := 0, rxSeq := 0, linkSeq := 0, unacked := [], ackAt := 0,
    waiting := [], credits := [], lastVc := 2, authFails := [], replays := 0, keyFrames := 0, keyTime := 0, lastTime := 0,
    lastAt := 0, peerFlags := 0 }

/-- A request of the device that is outstanding on a trunk: a CL_PUT or CL_GET of a context (R382). -/
structure ClOp where
  ctx  : Nat
  seq  : Nat
  opid : Nat
  node : Nat
  put  : Bool
  /-- bytes acknowledged or received -/
  done : Nat
  deriving DecidableEq, Repr

/-- A collective in progress (R386). -/
structure Coll where
  ctx     : Nat
  seq     : Nat
  gid     : Nat
  cseq    : Nat
  n       : Nat
  rank    : Nat
  /-- node and context of each member (R384) -/
  members : List (Nat × Nat)
  params  : Nat
  /-- ranks whose COLL_READY has arrived, and to which data have been sent in each phase -/
  ready   : List Nat
  sent    : List Nat
  sentFin : List Nat
  /-- bytes received from each rank in the reduce and in the gather phase -/
  got     : SMap Nat
  gotFin  : SMap Nat
  /-- chunks of the own segment that hold a contribution, and FP32 sums of a BF16 SUM in progress (R386) -/
  chunks  : SMap Nat
  wide    : SMap Nat
  deriving DecidableEq, Repr

/-- A COLL_READY that has arrived before the member's own collective was accepted (R379, R386): the sender's node, the
context it addresses, GID, CSEQ and the parameters. -/
structure Ready where
  node   : Nat
  ctx    : Nat
  gid    : Nat
  cseq   : Nat
  params : Nat
  deriving DecidableEq, Repr

/-- An abort key that is being sent (R389, R394): kind, identity, sequence, the time at which it was first sent, and
the nodes it goes to. -/
structure AbortKey where
  kind  : Nat
  ident : Nat
  seq   : Nat
  since : Nat
  nodes : List Nat
  deriving DecidableEq, Repr

/-! ### Heartwood and the configuration (chapters 13, 14, 17) -/

/-- A challenge that is held: its bytes and the Spindle time at which it was drawn (R415). -/
structure Challenge where
  val : List Byte
  at' : Nat
  deriving DecidableEq, Repr

/-- The open staging session (R423). -/
structure Staging where
  id     : Nat
  mctp   : Bool
  bank   : Nat
  length : Nat
  digest : List Byte
  last   : Nat
  deriving DecidableEq, Repr

/-- A debug enabling that is under way (R437). -/
structure DebugRun where
  scope   : Nat
  /-- the path of the command, and its black-box record, for the answer -/
  mctp    : Bool
  bbSeq   : Nat
  /-- contexts whose channel clears are awaited (step 4) -/
  clears  : List Nat
  /-- the alias pair has been derived again (step 5) -/
  aliasOk : Bool
  deriving DecidableEq, Repr

/-- What Heartwood holds. -/
structure Hw where
  challenges : List Challenge
  debugChal  : Option (List Byte)
  staging    : Option Staging
  sessions   : Nat
  /-- the alias pair has been derived in this boot (R409) -/
  aliasOk    : Bool
  /-- the derived keys are present in the key store (R401) -/
  keysOk     : Bool
  dbg        : Option DebugRun
  /-- scopes open (R438) -/
  scopes     : Nat
  /-- an END_OF_LIFE that awaits the channel clears of its step 2 (R450): its path and its black-box record -/
  wiping     : Option (Bool × Nat)
  /-- the entropy source passed its health test (R531) -/
  entropyOk  : Bool
  deriving DecidableEq, Repr

/-- Heartwood at power-up. -/
def Hw.init : Hw :=
  { challenges := [], debugChal := none, staging := none, sessions := 0, aliasOk := false, keysOk := false,
    dbg := none, scopes := 0, wiping := none, entropyOk := true }

/-- The records of a saved-settings copy (R523). -/
structure Saved where
  gen       : Nat
  serial    : Nat
  runBank   : Nat
  nextBank  : Nat
  trial     : Bool
  tried     : Bool
  staged    : Bool
  /-- training record of each module and port: the serial it was made with (R316, R373) -/
  training  : SMap Nat
  /-- row remaps and retired frames, by channel -/
  remaps    : SMap (SMap Nat)
  frames    : SMap (List Nat)
  /-- per module: spares used, halves lost, Off (the D2D_MOD_REPAIR word and 1 when Off) -/
  lanes     : SMap Nat
  modOff    : List Nat
  /-- Standby modules that were promoted (R331) -/
  promoted  : List Nat
  /-- planes out of service, one bit each -/
  planesOut : Nat
  /-- operator KEY_IDs by index, the installer and the epoch that they are bound to (R412) -/
  operators : SMap (List Byte)
  opInst    : List Byte
  opEpoch   : Nat
  /-- the certificate record: slot 0 chain with its companion (R408) -/
  certs     : Option (List Byte)
  deriving DecidableEq, Repr

/-- Settings of a device that has none. -/
def Saved.init : Saved :=
  { gen := 0, serial := 0, runBank := 0, nextBank := 0, trial := false, tried := false, staged := false,
    training := [], remaps := [], frames := [], lanes := [], modOff := [], promoted := [], planesOut := 0, operators := [],
    opInst := [], opEpoch := 0, certs := none }

/-- A section of an image: tag, count, record length and its bytes after the header (R513). -/
structure Section where
  tag    : Nat
  count  : Nat
  reclen : Nat
  body   : List Byte
  deriving DecidableEq, Repr

/-- The running image, as Heartwood keeps it for rejoins (R533). -/
structure Image where
  factory  : Bool
  seq      : Nat
  fwSvn    : Nat
  digest   : List Byte
  hwd      : List Byte
  ctl      : List Byte
  /-- component 0x03's CRC-32 (R529), the policy component and the maker claims -/
  seqCrc   : Nat
  policy   : List Byte
  claims   : List Byte
  steps    : List Byte
  sections : List Section
  deriving DecidableEq, Repr

/-! ### Faults and the black box (chapter 15) -/

/-- A record of the black box (R472), before it is committed. -/
structure BbRec where
  time   : Nat
  seq    : Nat
  source : Nat
  code   : Nat
  role   : Nat
  cls    : Nat
  flags  : Nat
  boot   : Nat
  detail : List Byte
  deriving DecidableEq, Repr

/-- A record is fatal when bit 0 of FLAGS is set (R472). -/
def BbRec.fatal (r : BbRec) : Bool := r.flags.testBit 0

/-- The black-box writer and its device (R471, R476, R477). -/
structure BlackBox where
  queue    : List BbRec
  /-- slots of the device, 64 bytes each as stored; an empty list has never been written -/
  slots    : SMap (List Byte)
  pos      : Nat
  pinned   : List Nat
  /-- dropped records that no RECORDS_LOST record has reported -/
  owed     : Nat
  /-- block-protect bits of the device -/
  protect  : Bool
  /-- a slot read that BBX_SEL has started -/
  reading  : Bool
  deriving DecidableEq, Repr

/-- The black box with an empty device (DESIGN CHOICE, log entry 9). -/
def BlackBox.init : BlackBox :=
  { queue := [], slots := [], pos := 0, pinned := [], owed := 0, protect := false, reading := false }

/-- What Tailstock keeps beside its registers. -/
structure Tls where
  /-- next place of the self-test rotation, and tiles placed first in it (R47, R458) -/
  next    : Nat
  first   : List Nat
  /-- entries of the trace window, newest first, at most 32,768 (R470) -/
  trace   : List (Nat × Nat)
  /-- entries written into it: entry n lies at place n mod 32,768 -/
  traced  : Nat
  /-- operating limits that are exceeded now (R544): bit 0 hub, 1 rails, 2 coolant -/
  limits  : Nat
  /-- a safe stop has taken place (R469) -/
  stopped : Bool
  deriving DecidableEq, Repr

/-- Tailstock at reset. -/
def Tls.init : Tls := { next := 0, first := [], trace := [], traced := 0, limits := 0, stopped := false }

/-- The pins of R536 and R541 that the hub reads or drives. -/
structure Pins where
  coldRstN  : Bool
  perstN    : Bool
  faultOutN : Bool
  /-- enable lines driven low: bit 0 MAIN, 1 MEM, 2 LNK, 3–6 X0–X3 -/
  enLow     : Nat
  /-- power-good inputs, in the same order -/
  pg        : Nat
  /-- BB_WP_N, which the hub holds low once the device is protected (R452, R548) -/
  bbWpN     : Bool
  /-- the GPIOs that a feature holds (R526) -/
  gpioHeld  : Nat
  deriving DecidableEq, Repr

/-- The pins before the rise of COLD_RST_N (R540): rails good, no line driven. -/
def Pins.init : Pins :=
  { coldRstN := false, perstN := false, faultOutN := true, enLow := 0, pg := 0x7F, bbWpN := true,
    gpioHeld := 0 }

/-! ### Die-to-die links and site firewalls (chapter 10) -/

/-- What the hub keeps for a module beside its registers (R316, R331). -/
structure Mod where
  /-- training from the saved record was tried in this start -/
  tried  : Bool
  /-- Off since a lane fault or a failed training, beside the image's role -/
  off    : Bool
  /-- promoted from Standby (R331) -/
  promoted : Bool
  /-- a lane failed before the device was ready: its first test did not pass (R527, R528) -/
  failed : Bool
  deriving DecidableEq, Repr

/-- A module at reset. -/
def Mod.init : Mod := { tried := false, off := false, promoted := false, failed := false }

/-- What the hub keeps for a bundle's roll call (R317–R320) and its downs (R322, R333). -/
structure Bdl where
  /-- 0 idle, 1 RC_QUERY sent, 2 RC_ROLES sent, 3 admitted -/
  step   : Nat
  nonce  : List Byte
  /-- the serial recorded at bring-up (R319) -/
  serial : Option Nat
  /-- times of LINK_DOWN, in ns -/
  downs  : List Nat
  /-- the identity record last received (R318, R320) -/
  ident  : List Byte
  /-- Standby modules that are to be promoted once they have trained (R331) -/
  due    : Nat
  /-- the next sequence numbers of each plane and VN, by 4 times the plane plus the VN: of what the hub sends to the die, and of
  what it takes in order from it (R313) -/
  sent   : SMap Nat
  got    : SMap Nat
  deriving DecidableEq, Repr

/-- A bundle at reset. -/
def Bdl.init : Bdl :=
  { step := 0, nonce := [], serial := none, downs := [], ident := [], due := 0, sent := [], got := [] }

/-- Where a site's attestation stands (R329), and the sums of its power. -/
structure Site where
  /-- bytes of the SPDM message received so far, and the number of the next fragment in each direction -/
  frags   : List Byte
  fragSeq : Nat
  sendSeq : Nat
  /-- request outstanding: 1 to 3 negotiation, 4 GET_DIGESTS, 5 GET_CERTIFICATE, 6 CHALLENGE, 7 GET_MEASUREMENTS; 0 none -/
  step    : Nat
  nonce   : List Byte
  /-- the messages so far, of which the die signs the hash -/
  talk    : List Byte
  /-- digest of the measurement blocks of a die that passed -/
  digest  : List Byte
  /-- 1 ms sums of the site's power (R22) -/
  power   : List Nat
  deriving DecidableEq, Repr

/-- A site at reset. -/
def Site.init : Site :=
  { frags := [], fragSeq := 0, sendSeq := 0, step := 0, nonce := [], talk := [], digest := [], power := [] }

/-! ### The on-die network (chapter 08) -/

/-- What one link of one plane keeps (R264, R274, R275): replays in a row and the times of replays; its last 32 flits,
newest first; whether a request took the sender's output last, and the input port that each VN was served from last. -/
structure LinkSt where
  row    : Nat
  times  : List Nat
  failed : Bool
  kept   : List NetFlit
  reqLast : Bool
  turn   : SMap Nat
  deriving DecidableEq, Repr

/-- A link at reset. -/
def LinkSt.init : LinkSt := { row := 0, times := [], failed := false, kept := [], reqLast := false, turn := [] }

/-- A request whose response is awaited: its agent (router × 4 + index), its tag, the plane it went out on, and for a
multicast read the tiles that have not reported their copy (R256, R262). -/
structure TagUse where
  agent : Nat
  tag   : Nat
  plane : Nat
  tiles : List Nat
  deriving DecidableEq, Repr

/-! ### Power (chapter 16) -/

/-- A move of the ladder in progress (R484–R490). -/
structure Move where
  target : Nat
  start  : Nat
  /-- entry (down) or exit (up) -/
  entry  : Bool
  /-- the code of the wake event (R489) -/
  wake   : Nat
  /-- the command that asked: 0 PWR_CMD or none, 1 POWER_STATE on the ring, 2 POWER_STATE over MCTP, and the
  limit it carries (R495) -/
  who    : Nat
  limit  : Option Nat
  /-- black-box record of the command (R417) -/
  bbSeq  : Nat
  /-- a further target after the exit (R484) -/
  thenTo : Option Nat
  deriving DecidableEq, Repr

/-- A block's refusal record (R494). -/
structure Refuser where
  last    : Nat
  refused : Nat
  aborted : Nat
  time    : Nat
  deriving DecidableEq, Repr

/-- The power controller. -/
structure Power where
  move    : Option Move
  /-- the last command that waits for the move to end (R484) -/
  waiting : Option Move
  /-- blocks that have not agreed yet in a negotiation (R486), by domain -/
  asked   : List Nat
  /-- refusal records of PD0, PD1, PD3 and PD18 (R494) -/
  refusals : SMap Refuser
  /-- package and site power sums of the 100 µs and 1 ms averages (R496) -/
  sum100  : List Nat
  sum1000 : List Nat
  /-- DUTY below 64 or MSTEP above 0 has been reported (R498) -/
  limited : Bool
  /-- energy not yet counted in each PWR_ENERGY, in µJ, and time not yet counted in each PWR_RESID, in µs (R494) -/
  energyRem : SMap Nat
  residRem : SMap Nat
  deriving DecidableEq, Repr

/-- A refusal record that PD0 has just powered up with. -/
def Refuser.init : Refuser := { last := 0, refused := 0, aborted := 0, time := 0 }

/-- The power controller at power-up: L0 Run, no move. -/
def Power.init : Power :=
  { move := none, waiting := none, asked := [], refusals := [], sum100 := [], sum1000 := [], limited := false,
    energyRem := [], residRem := [] }

/-- Where a start stands beside GLB_CFG_STATUS (R527, R531). -/
structure Boot where
  /-- no start has begun since power came: the device waits for the rise of COLD_RST_N (R540) -/
  held    : Bool
  /-- 0 power-up, 1 device reset, 2 PD0 brown-out (R475) -/
  cause   : Nat
  /-- a bank passed R522 -/
  imageOk : Bool
  /-- Spindle time at which the start began -/
  start   : Nat
  /-- this start is a trial of the staged bank (R425) -/
  trial   : Bool
  deriving DecidableEq, Repr

/-- Before the first start. -/
def Boot.init : Boot := { held := true, cause := 0, imageOk := false, start := 0, trial := false }

end Sys2Proof.Machine
end

