-- ==== Sys2Proof/Machine/State.lean ====
section
/-! DEFINITION. The state of the block, its faults and refusals, and the state right after reset: power applied, the
cold-reset input still low, no command waiting. -/

namespace Sys2Proof.Machine

/-- The state of the device and the queue of commands that wait. -/
structure State where
  /-- the commands that wait, first in, first out (the block's queue) -/
  pending   : List Instr
  /-- what the device has driven on its interfaces, newest first (the model's own) -/
  outbox    : List Out
  /-- counter of the free values drawn (the model's own; log entry 4) -/
  freeCtr   : Nat
  /-- Spindle: 64 bits of ns and 32 fraction bits (R504) -/
  spindle   : BitVec 96
  /-- every register of the register tables (R8) -/
  regs      : SMap Word
  /-- device memory, by channel × 2^32 + physical offset (R184, R186) -/
  devMem    : SMap Byte
  /-- granules marked uncorrectable, by the same key divided by 32 (R207) -/
  ueMarks   : SMap Bool
  /-- per channel -/
  chans     : SMap Chan
  /-- per stack k: at k the time of the last change of STRETCH plus one, 0 none yet; at 8 + k, 1 when a sample has been
  taken since the stack was powered (R212, R214) -/
  stretchAt : SMap Nat
  /-- token buckets: tokens drawn below the depth, by bucket number (R203, R266, R326) -/
  buckets   : SMap Nat
  /-- requests that wait for tokens -/
  waiting   : List Waiting
  /-- per context -/
  ctxs      : SMap Ctx
  /-- per partition -/
  parts     : SMap Part
  /-- tiles, and the Mandrels of the groups (chapters 02, 04) -/
  tiles     : SMap Tile
  groups    : SMap Group
  /-- DMA engines (R232) -/
  engines   : SMap Engine
  /-- ATS Translation Requests outstanding (R217, R225) -/
  atsReqs   : List AtsReq
  /-- non-posted host requests outstanding (R344) -/
  hostReqs  : List HostReq
  /-- number of the next request -/
  nextReq   : Nat
  /-- waiters of each entry of the pending-fault table, and the queue behind the table (R227) -/
  pft       : SMap (List Waiter)
  pftQueue  : List PftWait
  /-- entries of the table in use, in order of creation (R227) -/
  pftSend   : List Nat
  /-- Spindle time at which each entry's request was sent (R250) -/
  pftAt     : SMap Nat
  /-- invalidations between steps 1 and 5 (R224) -/
  invs      : List Inv
  /-- links of the mesh, by receiving router × 32 + port × 4 + plane (R274, R275) -/
  links     : SMap LinkSt
  /-- input buffers of the routers, by ((router × 8 + port) × 4 + plane) × 4 + class: 0 request, 1 response unicast,
  2 response multicast, 3 control; port 0 local, 1 N, 2 S, 3 E, 4 W, 5 outward port 1, and 7 the copies that stand at the
  router's own agent (R262, R263) -/
  netBufs   : SMap (List NetFlit)
  /-- tags in use (R256, R262) -/
  tags      : List TagUse
  /-- requests injected less responses delivered, by router × 4 + agent (R272) -/
  owed      : SMap Nat
  /-- control messages outstanding, by source × 512 + destination (R265) -/
  ctlOut    : SMap Nat
  /-- granules in each Whittle's partly filled flits, by stack × 128 + destination router (R195) -/
  whFlits   : SMap Nat
  /-- glue-up pools -/
  pools     : SMap Pool
  /-- UCIe modules, bundles and sites -/
  mods      : SMap Mod
  bdls      : SMap Bdl
  sites     : SMap Site
  /-- configuration spaces, by function (R337) -/
  hcfg      : SMap FnCfg
  /-- IDE streams (R351) -/
  streams   : SMap Stream
  /-- the DOE mailbox, SPDM on DOE (0) and MCTP (1), open sessions (R358, R359) -/
  doe       : Doe
  spdm      : SMap Spdm
  sessions  : List Session
  /-- Claush ports, operations, collectives and abort keys -/
  ports     : SMap Port
  clOps     : List ClOp
  colls     : List Coll
  /-- COLL_READY frames that came before their collective -/
  readies   : List Ready
  aborts    : List AbortKey
  /-- HELD: since the last device reset the count continues the network's time (R391) -/
  held      : Bool
  /-- the fuses, 1,024 bytes (R402) -/
  otp       : SMap Byte
  /-- Heartwood -/
  hw        : Hw
  /-- bytes of the command and response slots, by their BAR0 offset (R413) -/
  mbx       : SMap Byte
  /-- the image banks of the configuration flash (R511) -/
  flash     : SMap Byte
  /-- the saved-settings copies on the flash; none: not valid (R523) -/
  sset0     : Option Saved
  sset1     : Option Saved
  /-- the settings in force, with the changes that wait to be written (R524) -/
  saved     : Saved
  ssetDirty : Bool
  /-- the running image (R533) -/
  image     : Option Image
  /-- the black box and Tailstock -/
  bb        : BlackBox
  tls       : Tls
  /-- the power controller, the pins, and the start in progress -/
  power     : Power
  pins      : Pins
  boot      : Boot
  deriving DecidableEq, Repr

/-- Faults that stop the model. -/
inductive Fault where
  /-- No command of this device stops it: a detected fault is classed and acted on (R461). Kept so that the interface
  has its type; nothing raises it (safe). -/
  | none
  deriving DecidableEq, Repr

/-- Refusals of the model. -/
inductive Refusal where
  /-- An arm that has no meaning yet (safe: the model stops). -/
  | notModelled (mnemonic : String)
  /-- A vector-engine instruction in a form that the spec reserves or gives to no such opcode (R102, R103, R105): no
  kernel that holds it is ever loaded (R115). Raised by the vector-engine rows (safe). -/
  | reservedForm
  deriving DecidableEq, Repr

/-- OTP offset of BUILD byte 0, the STACK_PRESENT byte (R23, R402). -/
def otpBuild : Nat := 0x148

/-- The state right after power is applied. Every register reads its reset value; a sparse map that lists nothing reads
its default everywhere. The fuses are those of a Blank device with all eight stacks present (DESIGN CHOICE, log entry
2). -/
def State.reset : State :=
  { pending := [], outbox := [], freeCtr := 0, spindle := 0, regs := [], devMem := [], ueMarks := [], chans := [],
    stretchAt := [], buckets := [], waiting := [], ctxs := [], parts := [], tiles := [], groups := [], engines := [], atsReqs := [],
    hostReqs := [], nextReq := 0, pft := [], pftQueue := [], pftSend := [], pftAt := [], invs := [], links := [], netBufs := [], tags := [], owed := [], ctlOut := [],
    whFlits := [], pools := [], mods := [], bdls := [], sites := [], hcfg := [], streams := [],
    doe := { busy := false, error := false }, spdm := [], sessions := [], ports := [], clOps := [], colls := [], readies := [],
    aborts := [], held := false, otp := [(otpBuild, 0xFF)], hw := Hw.init, mbx := [], flash := [], sset0 := none, sset1 := none,
    saved := Saved.init, ssetDirty := false, image := none, bb := BlackBox.init, tls := Tls.init,
    power := Power.init, pins := Pins.init, boot := Boot.init }

end Sys2Proof.Machine
end

