-- ==== Sys2Proof/Machine/Ops.lean ====
section
/-! DEFINITION. The named operations over the state that every chapter uses: registers and their fields, the numbered
records, time, free values, what is driven outward, MSI-X events, the event ring and the black-box queue. -/

namespace Sys2Proof.Machine

/-! ### Registers -/

/-- The mask of bits [hi:lo]. -/
def fldMask (hi lo : Nat) : Word := (BitVec.allOnes 64 >>> (63 - (hi - lo))) <<< lo

/-- The register at `key`. -/
def State.reg (s : State) (key : Nat) : Word := SMap.get regReset s.regs key

/-- Set the register at `key`. -/
def State.setReg (s : State) (key : Nat) (w : Word) : State := { s with regs := SMap.put regReset s.regs key w }

/-- The value of a field. -/
def State.rd (s : State) (f : Fld) : Nat := ((s.reg f.key >>> f.lo) &&& (fldMask (f.hi - f.lo) 0)).toNat

/-- A word with bits [hi:lo] replaced. -/
def putFld (w : Word) (hi lo : Nat) (v : Nat) : Word :=
  (w &&& ~~~(fldMask hi lo)) ||| ((BitVec.ofNat 64 v <<< lo) &&& fldMask hi lo)

/-- Set a field; bits of `v` beyond its width are dropped. -/
def State.wr (s : State) (f : Fld) (v : Nat) : State := s.setReg f.key (putFld (s.reg f.key) f.hi f.lo v)

/-- Is a one-bit field set? -/
def State.on (s : State) (f : Fld) : Bool := s.rd f ≠ 0

/-- The greatest value of a field. -/
def Fld.max (f : Fld) : Nat := 2 ^ (f.hi + 1 - f.lo) - 1

/-- Add to a saturating counter. -/
def State.satInc (s : State) (f : Fld) (n : Nat) : State := s.wr f (min (s.rd f + n) f.max)

/-- Add to a wrapping counter. -/
def State.wrapInc (s : State) (f : Fld) (n : Nat) : State := s.wr f (s.rd f + n)

/-- Set or clear bit `i` of a field. -/
def State.wrBit (s : State) (f : Fld) (i : Nat) (b : Bool) : State := s.wr f (putBit (s.rd f) i b)

/-! ### What a command leaves -/

/-- The fuses after a command: a 0 bit can be changed to 1 and never back (R402), whatever the command does. -/
def fuseKeep (old new : SMap Byte) : SMap Byte :=
  if new = old then old else old.foldl (fun m e => SMap.upd (fun _ => 0) m e.1 (· ||| e.2)) new

/-- What is left of an effect `t` of a command on `s`: the queue is the block's and not a command's, and what was fused stays
fused. -/
def State.after (s t : State) : State := { t with pending := s.pending, otp := fuseKeep s.otp t.otp }

/-- A command answers its effect `t` on everything but the queue. -/
def State.done (s t : State) : Host.Outcome State Fault Refusal := .next (s.after t)

/-! ### Numbered records -/

/-- Context `c`. -/
def State.ctx (s : State) (c : Nat) : Ctx := SMap.get (fun _ => Ctx.init) s.ctxs c
/-- Replace context `c`. -/
def State.setCtx (s : State) (c : Nat) (x : Ctx) : State := { s with ctxs := SMap.put (fun _ => Ctx.init) s.ctxs c x }
/-- Change context `c`. -/
def State.onCtx (s : State) (c : Nat) (f : Ctx → Ctx) : State := s.setCtx c (f (s.ctx c))
/-- Channel `ch`. -/
def State.chan (s : State) (ch : Nat) : Chan := SMap.get (fun _ => Chan.init) s.chans ch
/-- Change channel `ch`. -/
def State.onChan (s : State) (ch : Nat) (f : Chan → Chan) : State :=
  { s with chans := SMap.put (fun _ => Chan.init) s.chans ch (f (s.chan ch)) }
/-- Partition `p`. -/
def State.part (s : State) (p : Nat) : Part := SMap.get (fun _ => Part.init) s.parts p
/-- Change partition `p`. -/
def State.onPart (s : State) (p : Nat) (f : Part → Part) : State :=
  { s with parts := SMap.put (fun _ => Part.init) s.parts p (f (s.part p)) }
/-- Tile `t`. -/
def State.tile (s : State) (t : Nat) : Tile := SMap.get (fun _ => Tile.init) s.tiles t
/-- Change tile `t`. -/
def State.onTile (s : State) (t : Nat) (f : Tile → Tile) : State :=
  { s with tiles := SMap.put (fun _ => Tile.init) s.tiles t (f (s.tile t)) }
/-- Change the vector engine of tile `t`. -/
def State.onVxe (s : State) (t : Nat) (f : Vxe → Vxe) : State := s.onTile t fun x => { x with vxe := f x.vxe }
/-- The Mandrel of group `g`. -/
def State.group (s : State) (g : Nat) : Group := SMap.get (fun _ => Group.init) s.groups g
/-- Change the Mandrel of group `g`. -/
def State.onGroup (s : State) (g : Nat) (f : Group → Group) : State :=
  { s with groups := SMap.put (fun _ => Group.init) s.groups g (f (s.group g)) }
/-- An idle engine in service. -/
def Engine.init : Engine := { op := none, outOfService := false }
/-- Engine `e`. -/
def State.engine (s : State) (e : Nat) : Engine := SMap.get (fun _ => Engine.init) s.engines e
/-- Change engine `e`. -/
def State.onEngine (s : State) (e : Nat) (f : Engine → Engine) : State :=
  { s with engines := SMap.put (fun _ => Engine.init) s.engines e (f (s.engine e)) }
/-- Pool `p`. -/
def State.pool (s : State) (p : Nat) : Pool := SMap.get (fun _ => Pool.init) s.pools p
/-- Change pool `p`. -/
def State.onPool (s : State) (p : Nat) (f : Pool → Pool) : State :=
  { s with pools := SMap.put (fun _ => Pool.init) s.pools p (f (s.pool p)) }
/-- Slot `i` of pool `p`. -/
def State.slot (s : State) (p i : Nat) : PoolSlot := SMap.get (fun _ => PoolSlot.init) (s.pool p).slots i
/-- Set slot `i` of pool `p`. -/
def State.setSlot (s : State) (p i : Nat) (x : PoolSlot) : State :=
  s.onPool p fun q => { q with slots := SMap.put (fun _ => PoolSlot.init) q.slots i x }
/-- Module `m`. -/
def State.mod (s : State) (m : Nat) : Mod := SMap.get (fun _ => Mod.init) s.mods m
/-- Change module `m`. -/
def State.onMod (s : State) (m : Nat) (f : Mod → Mod) : State :=
  { s with mods := SMap.put (fun _ => Mod.init) s.mods m (f (s.mod m)) }
/-- Bundle `b`. -/
def State.bdl (s : State) (b : Nat) : Bdl := SMap.get (fun _ => Bdl.init) s.bdls b
/-- Change bundle `b`. -/
def State.onBdl (s : State) (b : Nat) (f : Bdl → Bdl) : State :=
  { s with bdls := SMap.put (fun _ => Bdl.init) s.bdls b (f (s.bdl b)) }
/-- Site `x`. -/
def State.site (s : State) (x : Nat) : Site := SMap.get (fun _ => Site.init) s.sites x
/-- Change site `x`. -/
def State.onSite (s : State) (x : Nat) (f : Site → Site) : State :=
  { s with sites := SMap.put (fun _ => Site.init) s.sites x (f (s.site x)) }
/-- Configuration space of function `n`. -/
def State.cfg (s : State) (n : Nat) : FnCfg := SMap.get (fun _ => FnCfg.init) s.hcfg n
/-- Change the configuration space of function `n`. -/
def State.onCfg (s : State) (n : Nat) (f : FnCfg → FnCfg) : State :=
  { s with hcfg := SMap.put (fun _ => FnCfg.init) s.hcfg n (f (s.cfg n)) }
/-- IDE stream `i`. -/
def State.stream (s : State) (i : Nat) : Stream := SMap.get (fun _ => Stream.init) s.streams i
/-- Change IDE stream `i`. -/
def State.onStream (s : State) (i : Nat) (f : Stream → Stream) : State :=
  { s with streams := SMap.put (fun _ => Stream.init) s.streams i (f (s.stream i)) }
/-- Claush port `q`. -/
def State.port (s : State) (q : Nat) : Port := SMap.get (fun _ => Port.init) s.ports q
/-- Change Claush port `q`. -/
def State.onPort (s : State) (q : Nat) (f : Port → Port) : State :=
  { s with ports := SMap.put (fun _ => Port.init) s.ports q (f (s.port q)) }
/-- Change the black box. -/
def State.onBb (s : State) (f : BlackBox → BlackBox) : State := { s with bb := f s.bb }
/-- Change Heartwood. -/
def State.onHw (s : State) (f : Hw → Hw) : State := { s with hw := f s.hw }
/-- Change the power controller. -/
def State.onPower (s : State) (f : Power → Power) : State := { s with power := f s.power }
/-- Change the pins. -/
def State.onPins (s : State) (f : Pins → Pins) : State := { s with pins := f s.pins }

/-! ### Loops -/

/-- Carry out `f` for each element in turn. -/
def each {α : Type} (l : List α) (f : α → State → State) (s : State) : State := l.foldl (fun s a => f a s) s

/-- Carry out `f` when `b` holds. -/
def when' (b : Bool) (f : State → State) (s : State) : State := if b then f s else s

/-! ### Time -/

/-- Spindle time in ns (R504). -/
def State.now (s : State) : Nat := (s.spindle >>> 32).toNat

/-- One cycle of the count clock: Spindle adds INC (R504), and SPN_TIME reads its integer part. -/
def tick (s : State) : State := { s with spindle := s.spindle + (s.reg R.SPN_INC).setWidth 96 }

/-! ### Free values (log entry 4) -/

/-- A free value of 64 bits. -/
def State.free (s : State) : Word := Config.freeBits s.freeCtr

/-- The state after a free value has been drawn. -/
def State.drawn (s : State) : State := { s with freeCtr := s.freeCtr + 1 }

/-- `n` free bytes, drawn eight at a time from place `k` of the counter. -/
def freeBytesFrom (k : Nat) : Nat → List Byte
  | 0 => []
  | n + 1 => byte ((Config.freeBits (k + n)).toNat) :: freeBytesFrom k n

/-- `n` free bytes. -/
def State.freeBytes (s : State) (n : Nat) : List Byte := freeBytesFrom s.freeCtr n

/-- The state after `n` free values have been drawn. -/
def State.drawnN (s : State) (n : Nat) : State := { s with freeCtr := s.freeCtr + n }

/-- SHA-384, as bytes. -/
def sha384 (bs : List Byte) : List Byte := (Config.sha384 bs).toList

/-! ### Outward -/

/-- The context on whose behalf a TLP moves, and whether it is a request to host memory, or an MSI-X write (R343, R352). -/
def Out.tlpOf : Out → Option (Nat × Bool × Bool)
  | .hostWrite c _ _ _ => some (c, true, false)
  | .hostRead _ c _ _ _ => some (c, true, false)
  | .hostAtomic _ c _ _ _ _ _ _ => some (c, true, false)
  | .atsRequest _ c _ _ _ _ => some (c, false, false)
  | .pageRequest c _ _ _ _ _ => some (c, false, false)
  | .stopMarker c _ => some (c, false, false)
  | .invCompletion c _ => some (c, false, false)
  | .completion fn _ _ => if fn = 0 then none else some (fn - 1, false, false)
  | .msix fn _ => if fn = 0 then none else some (fn - 1, false, true)
  | _ => none

/-- What goes out: a TLP of a context whose stream is Secure goes out on that stream, with the T bit on requests to host
memory of a confidential context in RUN and on the MSI-X writes of a locked table (R352). -/
def State.tlp (s : State) (o : Out) : Out :=
  match o.tlpOf with
  | none => o
  | some (c, mem, msix) =>
    if s.on (F.GLB_HEP_STRM_SECURE c) then
      .ide (s.rd (F.GLB_HEP_STRM_STREAM_ID c))
        ((mem && decide (s.rd (F.CTX_STATE_STATE c) = 4) && !s.on (F.CTX_CFG_NONCONF c)) || (msix && (s.ctx c).lockMsix)) o
    else o

/-- Drive something outward. -/
def State.out (s : State) (o : Out) : State := { s with outbox := s.tlp o :: s.outbox }

/-- Is the host link able to carry a message (R363, R366)? -/
def State.linkUp (s : State) : Bool := s.on F.GLB_HEP_STATUS_LINK_UP && s.pins.perstN

/-- The VF of function number `n` is enabled, or it is PF0 (R338). -/
def State.fnEnabled (s : State) (n : Nat) : Bool :=
  n = 0 || ((s.cfg 0).vfEn && decide (n ≤ (s.cfg 0).numVfs))

/-- The table entry of vector `v` of a function. -/
def FnCfg.vector (x : FnCfg) (v : Nat) : MsixEnt := SMap.get (fun _ => MsixEnt.init) x.table v

/-- An event of function `n`'s vector `v` (R363): lost, held pending, or sent. A function whose MSI-X Enable is clear
loses it; one whose Bus Master Enable is clear holds it (PRESUMED, log entry 6). -/
def raiseVector (n v : Nat) (s : State) : State :=
  let x := s.cfg n
  if !s.linkUp || !s.fnEnabled n || !x.msixEn then s
  else if x.msixMask || (x.vector v).mask || !x.bme then s.onCfg n fun x => { x with pending := putBit x.pending v true }
  else if (x.vector v).addr = 0 then s
  else s.out (.msix n v)

/-! ### Life-cycle state -/

/-- LCS_STATUS.STATE: 0 Blank, 1 Test, 2 Production, 3 End of life, 4 Locked (R454). -/
def State.lc (s : State) : Nat := s.rd F.LCS_STATUS_STATE

/-! ### The event ring and the black box (R470–R476) -/

/-- The two words of a TLS_EVT entry (R480). -/
def evtWords (code source arg cls : Nat) (c : Option Nat) (now : Nat) : Nat × Nat :=
  (code % 2 ^ 16 * 2 ^ 48 + source % 2 ^ 16 * 2 ^ 32 + arg % 2 ^ 32,
   now % 2 ^ 48 * 2 ^ 16 + cls % 8 * 2 ^ 13 + (match c with | some c => 256 + c % 256 | none => 0))

/-- The debug scopes that are open: all of them in Blank, and those of the tokens while DEBUG_ON is set (R437, R438). -/
def State.scopesOpen (s : State) : Nat :=
  if s.lc = 0 then 0x1F else if s.on F.HWD_STATUS_DEBUG_ON then s.hw.scopes else 0

/-- Is the TRACE scope of debug open (R470)? -/
def State.tracing (s : State) : Bool := s.scopesOpen.testBit 0

/-- Write an entry into the trace window, which keeps 32,768 entries (R470). -/
def traceEntry (w : Nat × Nat) (s : State) : State :=
  if s.tracing then { s with tls := { s.tls with trace := (w :: s.tls.trace).take 32768, traced := s.tls.traced + 1 } } else s

/-- A trace event of Shavings (R470). -/
def traceEvent (code source arg : Nat) (c : Option Nat) (s : State) : State :=
  traceEntry (evtWords code source arg 7 c s.now) s

/-- Copy a fault or an event into TLS_EVT, and a fault into the trace window too (R470). -/
def evtEntry (code source arg cls : Nat) (c : Option Nat) (s : State) : State :=
  let w := evtWords code source arg cls c s.now
  let e := s.rd F.TLS_EVT_HEAD_COUNT % 256
  let s := (s.setReg (R.TLS_EVT0 e) (w64 w.1)).setReg (R.TLS_EVT8 e) (w64 w.2)
  let s := s.wrapInc F.TLS_EVT_HEAD_COUNT 1
  if cls = 7 then s else traceEntry w s

/-- May a record with this code be written in the life-cycle state (R452)? -/
def bbAllowed (lc code : Nat) : Bool :=
  if lc = 3 then code = 0x8010 || code = 0x8012
  else if lc = 4 then code = 0x8010 || code = 0x8002
  else true

/-- Drop the oldest record of a queue that is not fatal, if there is one. -/
def dropOldest : List BbRec → Option (List BbRec)
  | [] => none
  | r :: rs => if r.fatal then (dropOldest rs).map (r :: ·) else some rs

/-- Count a dropped record (R471). -/
def bbLost (s : State) : State :=
  (s.satInc F.BBX_COUNT_LOST 1).onBb fun b => { b with owed := b.owed + 1 }

/-- Put a record into the queue of 256 (R471): with no room, a record that is not fatal is dropped and a fatal one takes
the place of the oldest that is not. A fatal record that finds only fatal ones is dropped (DESIGN CHOICE, log entry 20). -/
def bbEnqueue (r : BbRec) (s : State) : State :=
  let push (q : List BbRec) (s : State) : State :=
    (((s.onBb fun b => { b with queue := q ++ [r] }).wrapInc F.BBX_COUNT_SEQ_NEXT 1).wr F.BBX_STATUS_QUEUED
      (q.length + 1))
  if s.bb.queue.length < 256 then push s.bb.queue s
  else if r.fatal then
    match dropOldest s.bb.queue with
    | some q => push q (bbLost s)
    | none => bbLost s
  else bbLost s

/-- Write a record and its TLS_EVT entry (R470–R472). `cls` is 0–4 for a fault and 0xFF for an event. -/
def bbRecord (code source role cls : Nat) (c : Option Nat) (detail : List Byte) (s : State) : State :=
  let fatal := decide (2 ≤ cls) && decide (cls ≤ 4)
  let seq := s.rd F.BBX_COUNT_SEQ_NEXT
  let flags := b2n fatal + 4 * b2n (s.on F.TLS_STATUS_PROMISE)
  let s := evtEntry code source seq (if cls = 0xFF then 7 else cls) c s
  if bbAllowed s.lc code then
    bbEnqueue { time := s.now, seq := seq, source := source, code := code, role := role, cls := cls, flags := flags,
                boot := s.rd F.BBX_STATUS_BOOT, detail := padTo 32 detail } s
  else s

/-- An event record of R475. -/
def bbEvent (code source : Nat) (detail : List Byte) (s : State) : State := bbRecord code source 0 0xFF none detail s

/-- Sources of R473. -/
def srcHeartwood : Nat := 0x0000
/-- Tailstock. -/
def srcTailstock : Nat := 0x1000
/-- A tile. -/
def srcTile (t : Nat) : Nat := 0x2000 + t
/-- A group agent. -/
def srcGroup (g : Nat) : Nat := 0x3000 + g
/-- A stack. -/
def srcStack (k : Nat) : Nat := 0x4000 + k
/-- A UCIe module. -/
def srcModule (m : Nat) : Nat := 0x5000 + m
/-- A site firewall. -/
def srcSite (x : Nat) : Nat := 0x6000 + x
/-- The host endpoint, with a function. -/
def srcHost (n : Nat) : Nat := 0x8000 + n
/-- A router. -/
def srcRouter (r : Nat) : Nat := 0x9000 + r
/-- Power, clock and voltage monitors. -/
def srcPower (d : Nat) : Nat := 0xA000 + d
/-- The translation unit. -/
def srcXlt : Nat := 0xB000
/-- The management core. -/
def srcMgt : Nat := 0xC000
/-- A context without a narrower source. -/
def srcCtx (c : Nat) : Nat := 0xE000 + c

/-- Set TLS_STATUS.PROMISE, with a record when it changes (R455, R475, R544). -/
def setPromise (b : Bool) (s : State) : State :=
  if s.on F.TLS_STATUS_PROMISE = b then s
  else bbEvent 0x8042 srcTailstock [byte (b2n b)] (s.wr F.TLS_STATUS_PROMISE (b2n b))

/-- PROMISE reads 1 while the device is ready, runs within its limits and debug is off (R455, R544). -/
def promiseNow (s : State) : State :=
  setPromise (s.rd F.GLB_CFG_STATUS_STATE = 1 && !s.on F.HWD_STATUS_DEBUG_ON && s.tls.limits = 0) s

end Sys2Proof.Machine
end

