-- ==== Sys2Proof/Machine/Mem.lean ====
section
/-! DEFINITION. Stacked memory (chapter 06): the spread, the frame map, granules and their errors, the memory-side cache,
and the named reads and writes of a context's flat range. -/

namespace Sys2Proof.Machine

/-- Where an access failed: channel and cause of R207. Cause 0 is the model's own: the access has not failed, it waits for a
row's copy (R209). -/
structure MemErr where
  ch    : Nat
  cause : Nat
  deriving DecidableEq, Repr

/-- DETAIL of MEM_ERROR (R207). -/
def MemErr.detail (e : MemErr) : Nat := e.ch * 256 + e.cause

/-- What a byte of device memory that nothing has written reads as (DESIGN CHOICE, log entry 5). -/
def memDefault : Nat → Byte := fun _ => 0

/-- The canonical form of device memory: addresses strictly rising, and no byte listed that an unlisted address reads. -/
abbrev Memory.wf (m : SMap Byte) : Bool := SMap.wf memDefault m

/-- Key of a byte of a channel's physical space. -/
def memKey (ch off : Nat) : Nat := ch * 2 ^ 32 + off

/-- The channels that context `c` owns, ascending (R186). -/
def State.ownedChannels (s : State) (c : Nat) : List Nat :=
  (List.range 256).filter fun ch =>
    s.on (F.MEM_CH_OWNED (ch / 32) (ch % 32)) && decide (s.rd (F.MEM_CH_OWNER (ch / 32) (ch % 32)) = c)

/-- The pitch of a spread over `n` channels (R189). -/
def pitchOf (n : Nat) : Nat := ceilDiv 1024 n

/-- Entry `h` of the spread table over a channel list: channel and rank (R189). -/
def spreadEntry (chans : List Nat) (h : Nat) : Nat × Nat :=
  if chans.isEmpty then (0, 0) else (chans.getD (h % chans.length) 0, h / chans.length)

/-- The channel and the byte offset in its logical space that a context-relative address maps to (R188). -/
def spreadMap (chans : List Nat) (pitch a : Nat) : Nat × Nat :=
  let u := a / 256
  let x := u % 1024
  let st := u / 1024
  let f := (st % 1024) ^^^ (st / 1024 % 1024) ^^^ (st / 2 ^ 20)
  let e := spreadEntry chans (x ^^^ f)
  (e.1, (st * pitch + e.2) * 256 + a % 256)

/-- The physical frame of a logical one: the retired frames of the map in force are left out (R206). -/
def Chan.physFrame (x : Chan) (l : Nat) : Nat := x.mapped.foldl (fun p r => if r ≤ p then p + 1 else p) l

/-- Physical offset of a logical offset of a channel. -/
def State.physOff (s : State) (ch off : Nat) : Nat := (s.chan ch).physFrame (off / 65536) * 65536 + off % 65536

/-- Logical capacity of a channel in frames (R206). -/
def State.capFrames (s : State) (ch : Nat) : Nat := 49152 - (s.chan ch).mapped.length

/-- Channel and physical offset of a context-relative address. -/
def State.locate (s : State) (c a : Nat) : Nat × Nat :=
  let x := s.ctx c
  let e := spreadMap x.chans x.pitch a
  (e.1, s.physOff e.1 e.2)

/-- The range of a context in bytes, save area excluded (R190). -/
def State.range (s : State) (c : Nat) : Nat := (s.ctx c).stripes * 262144

/-- Is the granule at a physical offset marked uncorrectable (R207)? -/
def State.marked (s : State) (ch off : Nat) : Bool := SMap.get (fun _ => false) s.ueMarks (memKey ch off / 32)

/-- Mark or clear a granule (R207). -/
def State.setMark (s : State) (ch off : Nat) (b : Bool) : State :=
  { s with ueMarks := SMap.put (fun _ => false) s.ueMarks (memKey ch off / 32) b }

/-- Why no access to a physical offset of a channel is served, if so: stack down, channel retired, frame fenced
(R207, R210, R211, R213, R321). -/
def State.unserved (s : State) (ch off : Nat) : Option Nat :=
  if s.rd (F.MEM_STATUS_STATE (ch / 32)) = 3 || s.rd (F.MEM_STATUS_STATE (ch / 32)) = 4 then some 3
  else if (s.chan ch).retired then some 4
  else if (s.chan ch).retFrames.contains (off / 65536) && !(s.chan ch).mapped.contains (off / 65536) then some 2
  else none

/-- The row of a physical offset (R185), as the base die maps it: granules of one frame that carry one label share rows in
the order of their offsets, 64 granules to a row at most. -/
def rowOf (ch off : Nat) : Nat :=
  let f := off / 65536
  let l := Config.rowLabel ch (off / 32) % 2048
  let before := ((List.range (off / 32 % 2048)).filter fun i => decide (Config.rowLabel ch (f * 2048 + i) % 2048 = l)).length
  f * 65536 + l * 32 + before / 64

/-- Is the row of a physical offset being copied to a spare row, so that every access to it is held (R209)? -/
def State.rowHeld (s : State) (ch off : Nat) : Bool := (s.chan ch).copying.any fun r => decide (r = rowOf ch off)

/-- Cut `n` bytes from `a` at the 32-byte granules: pairs of address and length. -/
def granules (a : Nat) : Nat → Nat → List (Nat × Nat)
  | _, 0 => []
  | n, fuel + 1 =>
    if n = 0 then [] else
      let k := min n (32 - a % 32)
      (a, k) :: granules (a + k) (n - k) fuel

/-- The pieces of an access. -/
def pieces (a n : Nat) : List (Nat × Nat) := granules a n (n / 32 + 2)

/-- `n` bytes from a physical offset. -/
def State.physRead (s : State) (ch off n : Nat) : List Byte :=
  (List.range n).map fun i => SMap.get memDefault s.devMem (memKey ch off + i)

/-- Store bytes at a physical offset. -/
def State.physWrite (s : State) (ch off : Nat) : List Byte → State
  | [] => s
  | b :: bs => State.physWrite { s with devMem := SMap.put memDefault s.devMem (memKey ch off) b } ch (off + 1) bs

/-- Place a line first in its set, at most sixteen lines (R193). -/
def touchSet (set : List Line) (tag valid dirty : Nat) : List Line :=
  let old := (set.find? fun l => l.tag = tag).getD { tag := tag, valid := 0, dirty := 0 }
  ({ tag := tag, valid := old.valid ||| valid, dirty := old.dirty ||| dirty } ::
    set.filter fun l => l.tag != tag).take 16

/-- An access to one sector of the channel's slice: allocated, filled, and dirty when written (R193). -/
def State.cacheTouch (s : State) (ch off : Nat) (write : Bool) : State :=
  let line := off / 128
  let sector := 2 ^ (off / 32 % 4)
  s.onChan ch fun x =>
    { x with cache := SMap.upd (fun _ => []) x.cache (line % 1024) fun set =>
        touchSet set (line / 1024) sector (if write then sector else 0) }

/-- Read one piece of a granule, by channel and physical offset. -/
def State.granRead (s : State) (ch off n : Nat) : Except MemErr (List Byte) :=
  match s.unserved ch off with
  | some k => .error { ch := ch, cause := k }
  | none =>
    if s.rowHeld ch off then .error { ch := ch, cause := 0 }
    else if s.marked ch off then .error { ch := ch, cause := 1 } else .ok (s.physRead ch off n)

/-- Write one piece of a granule: a write of the whole granule clears its mark, a write of part of a marked one stores
nothing (R207). A first write removes the CLEAN mark (R286). -/
def State.granWrite (s : State) (ch off : Nat) (bs : List Byte) : Except MemErr State :=
  match s.unserved ch off with
  | some k => .error { ch := ch, cause := k }
  | none =>
    if s.rowHeld ch off then .error { ch := ch, cause := 0 }
    else if s.marked ch off && bs.length < 32 then .error { ch := ch, cause := 1 }
    else
      let s := if bs.length = 32 then s.setMark ch off false else s
      .ok (((s.physWrite ch off bs).onChan ch fun x => { x with clean := false }).cacheTouch ch off true)

/-- Read pieces of a context's range in order. -/
def State.readPieces (s : State) (c : Nat) : List (Nat × Nat) → Except MemErr (List Byte)
  | [] => .ok []
  | (a, n) :: ps =>
    let l := s.locate c a
    match s.granRead l.1 l.2 n with
    | .error e => .error e
    | .ok bs =>
      match s.readPieces c ps with
      | .error e => .error e
      | .ok rest => .ok (bs ++ rest)

/-- `n` bytes of context `c`'s device memory from `a`; the first failing granule decides. -/
def State.ctxRead (s : State) (c a n : Nat) : Except MemErr (List Byte) := s.readPieces c (pieces a n)

/-- Store bytes piece by piece; at the first failing granule, what was stored before stays. -/
def State.writePieces (s : State) (c : Nat) (bs : List Byte) : List (Nat × Nat) → State × Option MemErr
  | [] => (s, none)
  | (a, n) :: ps =>
    let l := s.locate c a
    match s.granWrite l.1 l.2 (bs.take n) with
    | .error e => (s, some e)
    | .ok s => s.writePieces c (bs.drop n) ps

/-- Store bytes at `a` in context `c`'s device memory. -/
def State.ctxWrite (s : State) (c a : Nat) (bs : List Byte) : State × Option MemErr :=
  s.writePieces c bs (pieces a bs.length)

/-- The slices of a context's read take the sectors that it fills (R193). -/
def State.ctxTouch (s : State) (c a n : Nat) : State :=
  (pieces a n).foldl (fun s p => let l := s.locate c p.1; s.cacheTouch l.1 l.2 false) s

/-! ### What an access draws and touches (R193, R203, R209, R266) -/

/-- Depth of a stack's byte bucket for a context. -/
def State.byteDepth (s : State) (k c : Nat) : Nat := s.rd (F.MEM_REG_CTX_BURST k c) * 4096

/-- Depth of an agent's injection bucket for a context; none: no cap. -/
def State.injectDepth (s : State) (c : Nat) : Option Nat :=
  if s.rd (F.NOC_REG_CTX_RATE c) = 0 then none else some (s.rd (F.NOC_REG_CTX_BURST c))

/-- Number of an agent's injection bucket. -/
def injectKey (r a c : Nat) : Nat := 4096 + (r * 4 + a) * 256 + c

/-- Tokens drawn from a bucket. -/
def State.bucketDrawn (s : State) (b : Nat) : Nat := SMap.get (fun _ => 0) s.buckets b

/-- Does an older request still draw from a bucket? -/
def State.queued (s : State) (b : Nat) : Bool :=
  s.waiting.any fun w => decide (w.bucket = b) && (match w.who with | .request _ => true | .unit _ _ => decide (w.cost ≠ 0))

/-- Draw tokens from a bucket of a given depth: none when it does not hold enough, or when an older request waits for
it (R203). -/
def drawTokens (b depth cost : Nat) (s : State) : Option State :=
  if s.bucketDrawn b + cost ≤ depth && !s.queued b then
    some { s with buckets := SMap.upd (fun _ => 0) s.buckets b (· + cost) }
  else none

/-- A unit of the device that accesses memory for a context: the operation, the unit's number, and its agent (router × 4 +
index). -/
structure Payer where
  ctx   : Nat
  seq   : Nat
  unit  : Nat
  agent : Nat
  deriving DecidableEq, Repr

/-- Router of a group's agent (R254). -/
def groupRouter (g : Nat) : Nat := 64 + 3 * (g / 2) + 2 * (g % 2)

/-- What a unit's requests ask of one bucket: number, depth, tokens. -/
structure Need where
  bucket : Nat
  depth  : Nat
  tokens : Nat
  deriving DecidableEq, Repr

/-- What the areas of an access ask of the byte buckets that have a cap (R203). -/
def State.byteNeeds (s : State) (c : Nat) (areas : List (Nat × Nat)) : List Need :=
  ((List.range 8).filter fun k => decide (s.rd (F.MEM_REG_CTX_RATE k c) ≠ 0)).filterMap fun k =>
    let ps := (areas.flatMap fun a => pieces a.1 a.2).filter fun p => decide ((s.locate c p.1).1 / 32 = k)
    if ps.isEmpty then none
    else some { bucket := k * 256 + c, depth := s.byteDepth k c, tokens := (ps.map (·.2)).sum }

/-- What `flits` plane-flits ask of the agent's injection bucket (R266). -/
def State.flitNeeds (s : State) (x : Payer) (flits : Nat) : List Need :=
  match s.injectDepth x.ctx with
  | none => []
  | some d => if flits = 0 then [] else [{ bucket := injectKey (x.agent / 4) (x.agent % 4) x.ctx, depth := d, tokens := flits }]

/-- A unit's requests queue at a bucket, and draw what it holds when no older request waits. -/
def askBucket (x : Payer) (n : Need) (s : State) : State :=
  if s.waiting.any fun w => decide (w.bucket = n.bucket) && decide (w.ctx = x.ctx) && decide (w.who = .unit x.seq x.unit) then s
  else
    let now := if s.queued n.bucket then 0 else min n.tokens (n.depth - s.bucketDrawn n.bucket)
    { s with buckets := SMap.upd (fun _ => 0) s.buckets n.bucket (· + now),
             waiting := s.waiting ++ [{ bucket := n.bucket, cost := n.tokens - now, ctx := x.ctx, who := .unit x.seq x.unit }] }

/-- Draw what a step of a unit needs: its requests draw one after another as tokens come in, and the step goes on when the
last has drawn. False: it waits. -/
def payNeeds (x : Payer) (ns : List Need) (s : State) : Bool × State :=
  if ns.isEmpty then (true, s)
  else
    let s := each ns (askBucket x) s
    let mine (w : Waiting) : Bool := decide (w.ctx = x.ctx) && decide (w.who = .unit x.seq x.unit)
    if s.waiting.any fun w => mine w && decide (w.cost ≠ 0) then (false, s)
    else (true, { s with waiting := s.waiting.filter fun w => !mine w })

/-- Is some granule of an access held for a row's copy (R209)? -/
def State.areaHeld (s : State) (c : Nat) (areas : List (Nat × Nat)) : Bool :=
  s.chans.any (fun e => !e.2.copying.isEmpty) &&
    (areas.flatMap fun a => pieces a.1 a.2).any fun p => let l := s.locate c p.1; s.rowHeld l.1 l.2

/-- The 128-byte flits that an area takes. -/
def flitsOf (a n : Nat) : Nat := ceilDiv (a % 128 + n) 128

/-- What a step accesses of a context's memory: areas read and written, and the plane-flits that this takes. -/
structure Areas where
  ctx   : Nat
  flits : Nat
  rd    : List (Nat × Nat)
  wr    : List (Nat × Nat)
  deriving DecidableEq, Repr

/-- The areas of a context that a step reads, each in flits of its own. -/
def Areas.read (c : Nat) (rd : List (Nat × Nat)) : Areas :=
  { ctx := c, flits := (rd.map fun a => flitsOf a.1 a.2).sum, rd := rd, wr := [] }

/-- The areas of a context that a step writes. -/
def Areas.write (c : Nat) (wr : List (Nat × Nat)) : Areas :=
  { ctx := c, flits := (wr.map fun a => flitsOf a.1 a.2).sum, rd := [], wr := wr }

/-- A unit's step accesses memory, of several contexts it may be: held rows hold it, its tokens are drawn from each context's
buckets, and the slices take the sectors that it reads. False: it waits. -/
def accessAll (x : Payer) (as : List Areas) (s : State) : Bool × State :=
  if as.any fun a => s.areaHeld a.ctx (a.rd ++ a.wr) then (false, s)
  else match payNeeds x (as.flatMap fun a => s.byteNeeds a.ctx (a.rd ++ a.wr) ++ s.flitNeeds { x with ctx := a.ctx } a.flits) s with
    | (false, s) => (false, s)
    | (true, s) => (true, each as (fun a s => each a.rd (fun r s => s.ctxTouch a.ctx r.1 r.2) s) s)

/-- A unit accesses its own context's memory: reads `rd` and writes `wr`, and `flits` plane-flits. False: it waits. -/
def access (x : Payer) (flits : Nat) (rd wr : List (Nat × Nat)) (s : State) : Bool × State :=
  accessAll x [{ ctx := x.ctx, flits := flits, rd := rd, wr := wr }] s

/-- A read of a unit: the bytes, why it failed, or cause 0 where it waits. -/
def loadAs (x : Payer) (a n : Nat) (s : State) : State × Except MemErr (List Byte) :=
  match access x (flitsOf a n) [(a, n)] [] s with
  | (false, s) => (s, .error { ch := 0, cause := 0 })
  | (true, s) => (s, s.ctxRead x.ctx a n)

/-- A write of a unit. -/
def storeAs (x : Payer) (a : Nat) (bs : List Byte) (s : State) : State × Option MemErr :=
  match access x (flitsOf a bs.length) [] [(a, bs.length)] s with
  | (false, s) => (s, some { ch := 0, cause := 0 })
  | (true, s) => s.ctxWrite x.ctx a bs

/-- Does an area lie within a context's range? -/
def State.inRange (s : State) (c a n : Nat) : Bool := decide (a + n ≤ s.range c)

/-- The fault code of a failed access (R207, R210, R211, R213): MEM_UE, FRAME_FENCED, STACK_THERMAL, STACK_LOST. -/
def MemErr.fault (e : MemErr) : Nat :=
  if e.cause = 1 then 0x0003 else if e.cause = 2 then 0x0004 else if e.cause = 3 then 0x0006 else 0x0005

/-! ### Atomics (R201, R202) -/

/-- The result that an atomic of code `op` (R237) stores, over `w` bits; NaN results are canonical. -/
def atomResult (op w old x cmp : Nat) : Nat :=
  let m := 2 ^ w
  match op with
  | 0 => (old + x) % m
  | 1 => x % m
  | 2 => if old = cmp % m then x % m else old
  | 3 => if signed w x < signed w old then x % m else old
  | 4 => if signed w old < signed w x then x % m else old
  | 5 => min old (x % m)
  | 6 => max old (x % m)
  | 7 => old &&& (x % m)
  | 8 => old ||| (x % m)
  | 9 => old ^^^ (x % m)
  | 10 => (fp32.result .near false ((fp32.decode old).add (fp32.decode (x % m)))).bits
  | 11 => (bf16.result .near false ((bf16.decode old).add (bf16.decode (x % m)))).bits
  | _ => old

/-- Width in bits of the codes of R237. -/
def widthBits (code : Nat) : Nat := if code = 0 then 16 else if code = 1 then 32 else 64

/-- Does the base die perform this operation at this width (R201, R237)? -/
def atomOk (op code : Nat) : Bool :=
  if op = 11 then code = 0 else if op = 10 then code = 1 else decide (op < 10) && (code = 1 || code = 2)

/-- Perform an atomic on a context's device memory: the old value and the state behind it. -/
def State.atomAt (s : State) (ch off op w x cmp : Nat) : Except MemErr (Nat × State) :=
  match s.granRead ch off (w / 8) with
  | .error e => .error e
  | .ok bs =>
    let old := leNat bs
    match s.granWrite ch off (leBytes (atomResult op w old x cmp) (w / 8)) with
    | .error e => .error e
    | .ok s => .ok (old, s)

end Sys2Proof.Machine
end

