-- ==== Sys2Proof/Machine/Sync.lean ====
section
/-! DEFINITION. Operations in flight, synchronisation objects and waits (chapter 05): lookups, counts, signals. -/

namespace Sys2Proof.Machine

/-! ### Operations -/

/-- The operation of context `c` with acceptance count `q` (R148). -/
def State.op? (s : State) (c q : Nat) : Option Op := (s.ctx c).ops.find? fun o => o.seq = q

/-- Change the operation with acceptance count `q`. -/
def State.onOp (s : State) (c q : Nat) (f : Op → Op) : State :=
  s.onCtx c fun x => { x with ops := x.ops.map fun o => if o.seq = q then f o else o }

/-- Context `c` is in state `k` of R279. -/
def State.ctxState (s : State) (c : Nat) : Nat := s.rd (F.CTX_STATE_STATE c)

/-- The partition that a context is bound to (R289). -/
def State.partOf (s : State) (c : Nat) : Nat := s.rd (F.CTX_CFG_PARTITION c)

/-- The contexts bound to a partition, ascending (R289). -/
def State.boundTo (s : State) (p : Nat) : List Nat :=
  (List.range 256).filter fun c => s.on (F.SCH_CTXQ_BOUND p c)

/-- Does a context hold its partition's slice (R145, R170)? -/
def State.holds (s : State) (c : Nat) : Bool := s.on (F.CTXW_RING_STATUS_HOLDING c)

/-- The context that holds a partition's slice (R182). -/
def State.holderOf (s : State) (p : Nat) : Option Nat :=
  if s.on (F.SCH_STATUS_CTX_VALID p) then some (s.rd (F.SCH_STATUS_CUR_CTX p)) else none

/-- Groups of a partition, ascending (R310). -/
def State.groupsOf (s : State) (p : Nat) : List Nat := setBits 8 (s.rd (F.CTX_PART_GROUPS p))

/-- Tiles of a partition, ascending. -/
def State.tilesOf (s : State) (p : Nat) : List Nat :=
  (s.groupsOf p).flatMap fun g => (List.range 8).map fun i => 8 * g + i

/-- The partition that a group belongs to, if any. -/
def State.partOfGroup (s : State) (g : Nat) : Option Nat :=
  (List.range 8).find? fun p => s.on (F.CTX_PART_VALID p) && (s.rd (F.CTX_PART_GROUPS p)).testBit g

/-- Bring the in-flight counts of R145 and R182 to what is in flight. -/
def countOps (c : Nat) (s : State) : State :=
  let p := s.partOf c
  let n := (s.ctx c).ops.length
  let s := (s.wr (F.CTXW_RING_STATUS_IN_FLIGHT c) n).wr (F.SCH_CTXQ_IN_FLIGHT p c) n
  s.wr (F.SCH_COUNT_IN_FLIGHT p) (((s.boundTo p).map fun d => (s.ctx d).ops.length).sum)

/-- The engine that serves an operation is free again (R232). -/
def freeEngine (c q : Nat) (s : State) : State :=
  (List.range 32).foldl (fun s e =>
    if (s.engine e).op = some (c, q) then
      ((s.onEngine e fun x => { x with op := none }).wr (F.DMA_ENG_STATUS_STATE e) 0).wr (F.DMA_ENG_STATUS_OUT_RD e) 0
    else s) s

/-- What an operation's units still ask of buckets goes with it. -/
def dropAsks (c q : Nat) (s : State) : State :=
  let mine (w : Waiting) : Bool := decide (w.ctx = c) && (match w.who with | .unit n _ => decide (n = q) | .request _ => false)
  { s with waiting := s.waiting.filter fun w => !mine w }

/-- Take the operation with acceptance count `q` away. -/
def dropOp (c q : Nat) (s : State) : State :=
  countOps c (freeEngine c q (dropAsks c q (s.onCtx c fun x => { x with ops := x.ops.filter fun o => o.seq != q })))

/-! ### Statuses of R163 -/

/-- OK. -/
def stOK : Nat := 0x00
/-- SKIPPED. -/
def stSkipped : Nat := 0x01
/-- DESC_ERROR. -/
def stDesc : Nat := 0x02
/-- DEP_ERROR. -/
def stDep : Nat := 0x03
/-- TBL_INVALID. -/
def stTbl : Nat := 0x04
/-- KRN_INVALID. -/
def stKrn : Nat := 0x05
/-- CRV_INVALID. -/
def stCrv : Nat := 0x06
/-- VXE_FAULT. -/
def stVxe : Nat := 0x07
/-- SUMM_MIXED. -/
def stMixed : Nat := 0x08
/-- MEM_ERROR. -/
def stMem : Nat := 0x09
/-- XLT_ERROR. -/
def stXlt : Nat := 0x0A
/-- CTX_END. -/
def stCtxEnd : Nat := 0x0B
/-- PART_RESET. -/
def stPartReset : Nat := 0x0C

/-- A status other than OK and SKIPPED is an error (R160, R164). -/
def isErr (st : Nat) : Bool := decide (st ≠ stOK) && decide (st ≠ stSkipped)

/-- The work of an operation ends with this status, DETAIL and VALUE; the first end stands. -/
def endOp (c q st detail value : Nat) (s : State) : State :=
  s.onOp c q fun o =>
    match o.done with
    | some _ => o
    | none => { o with done := some { status := st, detail := detail, value := value, ident := none } }

/-! ### Objects (R165, R166) -/

/-- The objects of a context, ascending: the blocks of 32 that it owns (R165, R168). -/
def State.objectsOf (s : State) (c : Nat) : List Nat :=
  ((List.range 256).filter fun b =>
      s.on (F.SYN_CTL_VALID (32 * b)) && !s.on (F.SYN_CTL_POOL (32 * b)) &&
        decide (s.rd (F.SYN_CTL_OWNER (32 * b)) = c)).flatMap fun b => (List.range 32).map fun i => 32 * b + i

/-- Is a context a member of a pool (R292)? -/
def State.isMember (s : State) (p c : Nat) : Bool := (s.rd (F.GUP_SET_CTX p (c / 64))).testBit (c % 64)

/-- Is a context an output of a pool (R292)? -/
def State.isOutput (s : State) (p c : Nat) : Bool := (s.rd (F.GUP_SET_CTX p (4 + c / 64))).testBit (c % 64)

/-- May the context signal the object (R165)? -/
def State.maySignal (s : State) (c n : Nat) : Bool :=
  s.on (F.SYN_CTL_VALID n) && !s.on (F.SYN_CTL_POOL n) && decide (s.rd (F.SYN_CTL_OWNER n) = c)

/-- May the context wait on the object (R165)? -/
def State.mayWait (s : State) (c n : Nat) : Bool :=
  s.maySignal c n ||
    (s.on (F.SYN_CTL_VALID n) && s.on (F.SYN_CTL_POOL n) &&
      (s.isMember (s.rd (F.SYN_CTL_POOL_ID n)) c || s.isOutput (s.rd (F.SYN_CTL_POOL_ID n)) c))

/-- Object number of an operation's WAIT word (R152). -/
def Op.waitObj (o : Op) : Nat := bits (o.word 1) 60 48

/-- Is the wait of an operation met by this counter value (R167)? -/
def Op.waitMet (o : Op) (cnt : Nat) : Bool :=
  match bits (o.word 1) 63 62 with
  | 0 => true
  | 1 => decide (bits (o.word 1) 47 0 ≤ cnt)
  | 2 => decide (cnt = bits (o.word 1) 47 0)
  | _ => decide (cnt ≠ o.chg)

/-- Test an operation's wait once more: a wait once met stays met, and an ERR bit at that moment is an error of the
dependency (R160, R167). -/
def Op.testWait (o : Op) (n cnt : Nat) (err : Bool) : Op :=
  if o.met || decide (bits (o.word 1) 63 62 = 0) || decide (o.waitObj ≠ n) || !o.waitMet cnt then o
  else { o with met := true, depErr := o.depErr || err }

/-- Test every wait on object `n` after it changed (R167). -/
def testWaits (n : Nat) (s : State) : State :=
  let cnt := s.rd (F.SYN_CNT_COUNT n)
  let err := s.on (F.SYN_CTL_ERR n)
  each (s.ctxs.map (·.1)) (fun c s => s.onCtx c fun x => { x with ops := x.ops.map fun o => o.testWait n cnt err }) s

/-- ADD: the counter stays at its greatest value and SAT sets when the sum is beyond it (R166). -/
def soAdd (n v : Nat) (err : Bool) (s : State) : State :=
  let t := s.rd (F.SYN_CNT_COUNT n) + v
  let s := s.wr (F.SYN_CNT_COUNT n) (min t (2 ^ 64 - 1))
  let s := if t < 2 ^ 64 then s else s.wr (F.SYN_CTL_SAT n) 1
  testWaits n (if err then s.wr (F.SYN_CTL_ERR n) 1 else s)

/-- SET: `err` sets ERR; otherwise `clear` clears it (R166). -/
def soSet (n v : Nat) (err clear : Bool) (s : State) : State :=
  let s := s.wr (F.SYN_CNT_COUNT n) v
  testWaits n (if err then s.wr (F.SYN_CTL_ERR n) 1 else if clear then s.wr (F.SYN_CTL_ERR n) 0 else s)

/-- The SIG signal of an operation that completes with a status (R152, R164, R166). -/
def signalOp (sig st : Nat) (s : State) : State :=
  let n := bits sig 60 48
  let v := bits sig 47 0
  match bits sig 63 62 with
  | 1 => soAdd n v (isErr st) s
  | 2 => soSet n v (isErr st) (!isErr st) s
  | _ => s

/-- Force-signal every object of a context: 1 is added and ERR is set (R169). -/
def forceSignal (c : Nat) (s : State) : State := each (s.objectsOf c) (fun n s => soAdd n 1 true s) s

/-- Zero a context's objects (R169, R286). -/
def zeroObjects (c : Nat) (s : State) : State :=
  each (s.objectsOf c) (fun n s =>
    ((s.wr (F.SYN_CNT_COUNT n) 0).wr (F.SYN_CTL_ERR n) 0).wr (F.SYN_CTL_SAT n) 0) s

/-! ### Rings (R145, R146) -/

/-- Descriptors of the submission ring. -/
def State.ringEntries (s : State) (c : Nat) : Nat := 2 ^ (s.rd (F.CTXW_RING_CFG_RING_LOG c) + 6)
/-- Records of the completion area. -/
def State.cmplEntries (s : State) (c : Nat) : Nat := 2 ^ (s.rd (F.CTXW_RING_CFG_CMPL_LOG c) + 6)
/-- HEAD: descriptors accepted. -/
def State.head (s : State) (c : Nat) : Nat := s.rd (F.CTXW_RING_STATUS_HEAD c)

/-- The 32 bytes of a completion record (R162): bytes 8 to 15 hold the billet identity in place of SEQ and DETAIL where
the result carries one. -/
def recordBytes (o : Op) (r : Result) (phase : Bool) (now : Nat) : List Byte :=
  leBytes o.tag 4 ++ [byte r.status, byte o.kind, byte o.aflags, byte o.xflags] ++
    (match r.ident with
     | some i => leBytes i 8
     | none => leBytes o.seq 4 ++ leBytes r.detail 4) ++
    leBytes r.value 8 ++ leBytes (now % 2 ^ 56 + b2n phase * 2 ^ 63) 8

/-- Is the completion area in host memory (R145)? -/
def State.cmplHost (s : State) (c : Nat) : Bool := s.on (F.CTXW_CMPL_BASE_SPACE c)

/-- Address of completion record `n` (R162). -/
def State.cmplAddr (s : State) (c n : Nat) : Nat :=
  s.rd (F.CTXW_CMPL_BASE_BASE c) * 4096 + 32 * (n % s.cmplEntries c)

/-- The hub's word: CMPL_TAIL and HEAD (R146). -/
def State.hubWord (s : State) (c : Nat) : Nat := (s.ctx c).cmplTail % 2 ^ 32 * 2 ^ 32 + s.head c

/-- Address of the ring words. -/
def State.wordsAddr (s : State) (c : Nat) : Nat := s.rd (F.CTXW_RING_WORDS_ADDR c) * 16

/-! ### Claush trunks (R372, R373) -/

/-- Is a port up (R373)? -/
def State.portUp (s : State) (q : Nat) : Bool := decide (s.rd (F.CLS_PORT_STATUS_STATE q) = 4)

/-- The up ports of the trunk to a node, ascending. -/
def State.trunk (s : State) (node : Nat) : List Nat :=
  (List.range 32).filter fun q => s.portUp q && decide (s.rd (F.CLS_PORT_STATUS_PEER_NODE q) = node)

end Sys2Proof.Machine
end

