-- ==== Sys2Proof/Machine/Xlt.lean ====
section
/-! DEFINITION. The translation unit (chapter 07): generations and the stale list, the translation cache, ATS requests,
the pending-fault table. What ends a context is left to the callers. -/

namespace Sys2Proof.Machine

/-- A context's generation (R222). -/
def State.gen (s : State) (c : Nat) : Nat := s.rd (F.XLT_CTX_GEN c)

/-- Does a stale-list entry cover a range of pages under a PASID index? -/
def Stale.covers (x : Stale) (pi page n : Nat) : Bool :=
  (match x.pi with | none => true | some i => decide (i = pi)) && decide (x.lo < page + n) && decide (page ≤ x.hi)

/-- May an entry of generation `g` over these pages serve an access (R222)? -/
def State.fresh (s : State) (c g pi page n : Nat) : Bool :=
  decide (g = s.gen c) ||
    (decide (s.gen c - g ≤ 16) && !((s.ctx c).stale.any fun x => decide (g < x.gen) && x.covers pi page n))

/-- Pages of a cache entry. -/
def XEnt.pages (e : XEnt) : Nat := 2 ^ e.size

/-- Does an entry hold this page of an address space? -/
def XEnt.holdsPage (e : XEnt) (pi page : Nat) : Bool :=
  decide (e.pi = pi) && decide (e.page ≤ page) && decide (page < e.page + e.pages)

/-- The cache entry of a page, if it may serve an access (R220, R222). -/
def State.cached (s : State) (c pi page : Nat) : Option XEnt :=
  (s.ctx c).cache.find? fun e => e.holdsPage pi page && s.fresh c e.gen e.pi e.page e.pages

/-- Use or fill an entry: first in the order of use, at most 64 for each context (R220). Entries of the same range go. -/
def cachePut (c : Nat) (e : XEnt) (s : State) : State :=
  s.onCtx c fun x =>
    let rest := x.cache.filter fun d => !(decide (d.pi = e.pi) && decide (d.page = e.page))
    { x with cache := (e :: rest).take 64 }

/-- How a translation serves an access: by an entry, not at all yet, or without the right that the access needs
(R219). -/
inductive XRes where
  | hit (e : XEnt) | miss | lacks
  deriving DecidableEq, Repr

/-- Look a page up for a read, a write or an atomic (R219). -/
def State.look (s : State) (c pi page : Nat) (wr atom : Bool) : XRes :=
  match s.cached c pi page with
  | none => .miss
  | some e => if (if atom then e.at' else if wr then e.wr else e.rd) then .hit e else .lacks

/-- Is the reserved slot 0, or 1, of a context held (R344)? -/
def State.slotHeld (s : State) (c k : Nat) : Bool :=
  s.atsReqs.any (fun r => decide (r.ctx = c) && decide (r.slot = some k)) ||
    s.hostReqs.any fun r => decide (r.ctx = c) && decide (r.slot = k)

/-- Non-posted requests outstanding (R344). -/
def State.outstanding (s : State) : Nat := s.hostReqs.length + (s.atsReqs.filter fun r => r.slot.isSome).length

/-- Take a slot for a request of a context: a reserved one when free, else a pooled one within the partition's allotment
(R344). Slot 0 serves ring reads and ATS requests only. -/
def takeSlot (c : Nat) (ring : Bool) (s : State) : Option (Nat × State) :=
  let p := s.partOf c
  let s := s.wr F.GLB_HEP_TAGS_PEAK (max (s.rd F.GLB_HEP_TAGS_PEAK) (s.outstanding + 1))
  if ring && !s.slotHeld c 0 then some (0, s.wrapInc F.GLB_HEP_TAGS_RSV_USED 1)
  else if !s.slotHeld c 1 then some (1, s.wrapInc F.GLB_HEP_TAGS_RSV_USED 1)
  else if s.rd (F.GLB_HEP_PART_USED p) < s.rd (F.GLB_HEP_PART_ALLOT p) then
    some (2, (s.wrapInc F.GLB_HEP_TAGS_POOL_USED 1).wrapInc (F.GLB_HEP_PART_USED p) 1)
  else none

/-- Release a slot (R345). -/
def freeSlot (p k : Nat) (s : State) : State :=
  if k < 2 then s.wr F.GLB_HEP_TAGS_RSV_USED (s.rd F.GLB_HEP_TAGS_RSV_USED - 1)
  else (s.wr F.GLB_HEP_TAGS_POOL_USED (s.rd F.GLB_HEP_TAGS_POOL_USED - 1)).wr (F.GLB_HEP_PART_USED p)
    (s.rd (F.GLB_HEP_PART_USED p) - 1)

/-- Send the ATS Translation Requests that wait, in order, as far as slots allow; each carries the generation in force
(R225, R344). -/
def grantAts (s : State) : State :=
  (s.atsReqs.filter fun r => r.slot.isNone).foldl (fun s r =>
    match takeSlot r.ctx true s with
    | none => s
    | some (k, s) =>
      let g := s.gen r.ctx
      let sent : AtsReq := { r with slot := some k, gen := g }
      let s := { s with atsReqs := s.atsReqs.map fun (x : AtsReq) => if x.id = r.id then sent else x }
      (s.wrapInc F.XLT_COUNT_ATS_REQ 1).out (.atsRequest r.id r.ctx r.pi r.page r.n (!r.wr))) s

/-- Ask for the translations of `n` pages (R217, R225). -/
def atsRequest (c pi page n : Nat) (wr : Bool) (use : AtsUse) (s : State) : State :=
  let id := s.nextReq
  let r : AtsReq := { id := id, ctx := c, pi := pi, page := page, n := n, gen := s.gen c, wr := wr, use := use,
                      slot := none, dead := false }
  grantAts { s with nextReq := id + 1, atsReqs := s.atsReqs ++ [r] }

/-- An ATS Translation Request has been answered or has timed out: its slot is free for what waits (R345). -/
def dropAts (r : AtsReq) (s : State) : State :=
  let s := { s with atsReqs := s.atsReqs.filter fun x => x.id != r.id }
  grantAts (match r.slot with | some k => freeSlot (s.partOf r.ctx) k s | none => s)

/-- Is a request for this page outstanding? -/
def State.asking (s : State) (c pi page : Nat) : Bool :=
  s.atsReqs.any fun r => !r.dead && decide (r.ctx = c) && decide (r.pi = pi) && decide (r.page ≤ page) &&
    decide (page < r.page + r.n)

/-- The translated address of a byte: a range of 2^`size` pages holds it at its natural alignment (R218). -/
def xlatAddr (ta size addr : Nat) : Nat := (ta / 2 ^ size * 2 ^ size + addr / 4096 % 2 ^ size) * 4096 + addr % 4096

/-- The pages that a ring stream of a context reaches behind a page: those of its ring or of its completion area, which wrap
round; its ring words lie in one page (R146, R162, R216). -/
def State.ringAhead (s : State) (c page : Nat) : List Nat :=
  let area (base bytes : Nat) : Option (List Nat) :=
    let n := ceilDiv bytes 4096
    if base ≤ page ∧ page < base + n then
      some ((List.range (min (s.rd F.XLT_CFG_PF_DEPTH) (n - 1))).map fun k => base + (page - base + k + 1) % n)
    else none
  let ring := if s.on (F.CTXW_RING_BASE_SPACE c) then area (s.rd (F.CTXW_RING_BASE_BASE c)) (64 * s.ringEntries c) else none
  let cmpl := if s.cmplHost c then area (s.rd (F.CTXW_CMPL_BASE_BASE c)) (32 * s.cmplEntries c) else none
  (ring.orElse fun _ => cmpl).getD []

/-- In prefetch mode the next PF_DEPTH pages of a ring stream are kept translated (R216, R221). -/
def prefetchRing (c page : Nat) (wr : Bool) (s : State) : State :=
  if !(s.rd F.XLT_CFG_PREFETCH).testBit (s.partOf c) then s
  else each ((s.ringAhead c page).filter fun k => (s.cached c 0 k).isNone) (fun k s =>
    if s.asking c 0 k then s else atsRequest c 0 k 1 wr .ahead s) s

/-- A ring access of a context to host memory: under PASID index 0 (R215), through the translation cache; a miss is an
ATS request (R216). Some address: a translation with the right serves it. -/
def ringXlat (c addr : Nat) (wr : Bool) (s : State) : Option Nat × State :=
  let page := addr / 4096
  match s.look c 0 page wr false with
  | .hit e => (some (xlatAddr e.ta e.size addr), prefetchRing c page wr (cachePut c e s))
  | _ => (none, prefetchRing c page wr (if s.asking c 0 page then s else atsRequest c 0 page 1 wr .ring s))

/-! ### The pending-fault table (R227) -/

/-- State of table entry `i`: 0 FREE, 1 QUEUED, 2 SENT, 3 ABANDONED. -/
def State.pftState (s : State) (i : Nat) : Nat := s.rd (F.XLT_PFT0_STATE i)

/-- The entry of a key, if the table holds it. -/
def State.pftFind (s : State) (c pi page : Nat) : Option Nat :=
  (List.range 256).find? fun i =>
    decide (s.pftState i ≠ 0) && decide (s.rd (F.XLT_PFT0_CTX i) = c) && decide (s.rd (F.XLT_PFT8_PI i) = pi) &&
      decide (s.rd (F.XLT_PFT0_PAGE i) = page)

/-- Waiters of an entry. -/
def State.pftWaiters (s : State) (i : Nat) : List Waiter := SMap.get (fun _ => []) s.pft i

/-- Replace the waiters of an entry. -/
def setWaiters (i : Nat) (w : List Waiter) (s : State) : State := { s with pft := SMap.put (fun _ => []) s.pft i w }

/-- Has entry `i`'s Page Request been answered with Success, and its translation asked again (R226, R228)? -/
def State.answered (s : State) (i : Nat) : Bool := s.atsReqs.any fun r => !r.dead && decide (r.use = .page i)

/-- Page requests of a context that are sent and unanswered. -/
def State.prOut (s : State) (c : Nat) : Nat :=
  ((List.range 256).filter fun i =>
    (s.pftState i = 2 || s.pftState i = 3) && decide (s.rd (F.XLT_PFT0_CTX i) = c) && !s.answered i).length

/-- Send entry `i`'s Page Request: a group of one page with the entry's index (R226). -/
def sendPage (i : Nat) (s : State) : State :=
  let c := s.rd (F.XLT_PFT0_CTX i)
  let s := { s.wr (F.XLT_PFT0_STATE i) 2 with pftAt := SMap.put (fun _ => 0) s.pftAt i s.now }
  let s := ((s.wr (F.XLT_PFT8_SENT_CNT i) (s.rd (F.XLT_PFT8_SENT_CNT i) + 1)).wrapInc F.XLT_STATUS_PR_OUT 1)
  traceEvent 0xC004 srcXlt i (some c)
    (s.out (.pageRequest c (s.rd (F.XLT_PFT8_PI i)) (s.rd (F.XLT_PFT0_PAGE i)) (s.on (F.XLT_PFT0_RREQ i))
      (s.on (F.XLT_PFT0_WREQ i)) i))

/-- Can a Page Request of a context be sent (R226, R228)? -/
def State.priMay (s : State) (c : Nat) : Bool :=
  let x := s.cfg (c + 1)
  x.priEn && x.priAlloc != 0 && !x.priStopped

/-- Send the QUEUED entries in order of creation as far as each function's allocation allows (R226, R227). -/
def sendQueued (s : State) : State :=
  s.pftSend.foldl (fun s i =>
    let c := s.rd (F.XLT_PFT0_CTX i)
    if s.pftState i = 1 && s.priMay c && s.prOut c < (s.cfg (c + 1)).priAlloc then sendPage i s else s) s

/-- Put a fault into free entry `i`. -/
def pftFill (i : Nat) (f : PftWait) (s : State) : State :=
  let pasid := if s.on (F.CTXW_PASID_NOPASID f.ctx f.pi) then 0 else s.rd (F.CTXW_PASID_PASID f.ctx f.pi)
  let s := (((s.wr (F.XLT_PFT0_PAGE i) f.page).wr (F.XLT_PFT0_CTX i) f.ctx).wr (F.XLT_PFT0_WREQ i) (b2n f.wr)).wr
    (F.XLT_PFT0_RREQ i) (b2n (!f.wr))
  let s := ((s.wr (F.XLT_PFT0_STATE i) 1).wr (F.XLT_PFT8_PASID i) pasid).wr (F.XLT_PFT8_PI i) f.pi
  let s := s.wr (F.XLT_PFT8_SENT_CNT i) 0
  let s := ((s.wrapInc (F.XLT_CTX_PFT_HELD f.ctx) 1).wrapInc F.XLT_STATUS_PFT_USED 1)
  setWaiters i [f.who] { s with pftSend := s.pftSend ++ [i] }

/-- The lowest free entry, when the context is below its cap (R227). -/
def State.pftRoom (s : State) (c : Nat) : Option Nat :=
  if s.rd (F.XLT_CTX_PFT_HELD c) < s.rd (F.XLT_CTX_PFT_CAP c) then (List.range 256).find? fun i => s.pftState i = 0
  else none

/-- A page fault joins its entry, takes a free one, or waits for one (R227). -/
def pftAdd (f : PftWait) (s : State) : State :=
  match s.pftFind f.ctx f.pi f.page with
  | some i => (setWaiters i (s.pftWaiters i ++ [f.who]) s).satInc F.XLT_COUNT_PR_MERGED 1
  | none =>
    match s.pftRoom f.ctx with
    | some i => sendQueued (pftFill i f s)
    | none => { s with pftQueue := s.pftQueue ++ [f] }

/-- Give the freed places to the faults that wait, first in, first out, past those at their own cap (R227). -/
def pftDrain (s : State) : State :=
  sendQueued (s.pftQueue.foldl (fun s f =>
    match s.pftFind f.ctx f.pi f.page with
    | some i => (setWaiters i (s.pftWaiters i ++ [f.who]) { s with pftQueue := s.pftQueue.erase f }).satInc
        F.XLT_COUNT_PR_MERGED 1
    | none =>
      match s.pftRoom f.ctx with
      | some i => pftFill i f { s with pftQueue := s.pftQueue.erase f }
      | none => s) s)

/-- Free entry `i`. -/
def pftFree (i : Nat) (s : State) : State :=
  let c := s.rd (F.XLT_PFT0_CTX i)
  let s := if (s.pftState i = 2 || s.pftState i = 3) && !s.answered i then s.wr F.XLT_STATUS_PR_OUT (s.rd F.XLT_STATUS_PR_OUT - 1) else s
  let kill (r : AtsReq) : AtsReq := if r.use = .page i then { r with dead := true } else r
  let s := { s with atsReqs := s.atsReqs.map kill }
  let s := (s.wr (F.XLT_CTX_PFT_HELD c) (s.rd (F.XLT_CTX_PFT_HELD c) - 1)).wr F.XLT_STATUS_PFT_USED
    (s.rd F.XLT_STATUS_PFT_USED - 1)
  pftDrain (setWaiters i [] { (s.setReg (R.XLT_PFT0 i) 0).setReg (R.XLT_PFT8 i) 0 with
    pftSend := s.pftSend.filter (· != i) })

/-- The context that a waiter belongs to. -/
def Waiter.ctx : Waiter → Nat
  | .op c _ => c
  | .ring c => c

/-- Remove a context from every entry's waiters and from the queue, then send a Stop Marker for each of its PASIDs
(R231). An entry that no request has been sent for is freed. -/
def pftRemove (c : Nat) (s : State) : State :=
  let s := { s with pftQueue := s.pftQueue.filter fun f => f.ctx != c }
  let s := (List.range 256).foldl (fun s i =>
    if s.pftState i ≠ 0 && s.rd (F.XLT_PFT0_CTX i) = c then
      (if s.pftState i = 1 || s.answered i then pftFree i s else setWaiters i [] s)
    else s) s
  let s := s.onCtx c fun x => { x with waits := [] }
  (List.range 4).foldl (fun s i =>
    if s.on (F.CTXW_PASID_VALID c i) && !s.on (F.CTXW_PASID_NOPASID c i) then
      s.out (.stopMarker c (s.rd (F.CTXW_PASID_PASID c i)))
    else s) s

/-- Clear the translation cache of a context; the answers to its outstanding requests are of no use (R220, R345). -/
def xltClear (c : Nat) (s : State) : State :=
  let kill (r : AtsReq) : AtsReq := if r.ctx = c then { r with dead := true } else r
  { s.onCtx c (fun x => { x with cache := [] }) with
    atsReqs := (s.atsReqs.filter fun r => r.ctx != c || r.slot.isSome).map kill }

/-! ### Non-posted host requests (R344, R345) -/

/-- Issue a non-posted host request of a context under a slot; none is free: nothing is issued. Slot 0 serves ring reads
(R344). -/
def hostIssue (c : Nat) (use : HostUse) (pi lo hi : Nat) (mk : Nat → Out) (s : State) : Option State :=
  match takeSlot c (use = .ring) s with
  | none => none
  | some (k, s) =>
    let r : HostReq := { id := s.nextReq, ctx := c, use := use, gen := s.gen c, pi := pi, lo := lo, hi := hi,
                         slot := k, part := s.partOf c, abandoned := false }
    some ({ s with nextReq := r.id + 1, hostReqs := s.hostReqs ++ [r] }.out (mk r.id))

/-- A host request has ended: its slot is free for what waits (R345). -/
def dropHost (r : HostReq) (s : State) : State :=
  grantAts (freeSlot r.part r.slot { s with hostReqs := s.hostReqs.filter fun x => x.id != r.id })

/-- Abandon a context's outstanding reads: their data are discarded on arrival (R241, R285). An ATOMIC is abandoned only
when `all` is set; a request that came over the mesh is answered all the same (R270). -/
def abandonReads (c : Nat) (all : Bool) (s : State) : State :=
  { s with hostReqs := s.hostReqs.map fun r =>
      if r.ctx = c && (match r.use with | .mesh _ => false | .atomic _ => all | _ => true) then { r with abandoned := true }
      else r }

end Sys2Proof.Machine
end

