-- ==== Sys2Proof/Machine/Frames.lean ====
section
/-! DEFINITION. Claush frames (R376–R380, R389, R394): headers, sending under credits, TIME frames and abort keys. -/

namespace Sys2Proof.Machine

/-- The virtual channel of a frame type (R377). -/
def frameVc (type : Nat) : Nat :=
  if type = 1 || type = 2 then 0
  else if type = 3 || type = 4 || type = 5 then 1
  else if type = 9 || type = 0x12 || type = 0x13 then 2
  else 3

/-- The header of a frame (R376). -/
def Frame.header (f : Frame) : List Byte :=
  [byte f.type, byte (f.vc + 4 * f.key)] ++ leBytes f.data.length 2 ++ leBytes f.seq 4 ++ leBytes f.ack 4 ++
    [byte f.sctx, byte f.dctx] ++ leBytes f.opid 2 ++ leBytes f.arg 8

/-- The bytes of a frame on a port: header, payload and tag under the port's key and nonce, CRC (R374, R376). KEY frames, and
LINK frames before keys are agreed, carry a zero tag and go in clear (R377). -/
def State.frameBytes (s : State) (q : Nat) (f : Frame) : List Byte :=
  let k := SMap.get (fun _ => []) (s.port q).keys (2 * f.key)
  let clear := f.type = 0x1E || (f.type = 0 && k.isEmpty)
  let body := f.header ++ (if clear then f.data ++ List.replicate 16 0 else Config.claushSeal k f.seq f.header f.data)
  body ++ leBytes (crc32 body) 4

/-- Put a frame on the port. -/
def driveFrame (q : Nat) (f : Frame) (s : State) : State := s.out (.frame q f.type (s.frameBytes q f))

/-- SEQ of the last frame received in order. -/
def Port.acked (x : Port) : Nat := (x.rxSeq + 2 ^ 32 - 1) % 2 ^ 32

/-- Send a LINK frame: kind 1 NAK, 2 CREDIT; its counter is a count of its own with bit 63 set (R374, R377). It takes no
credit and is not kept. -/
def sendLink (q kind arg : Nat) (s : State) : State :=
  let x := s.port q
  let f : Frame := { type := 0, vc := 0, key := s.rd (F.CLS_PORT_STATUS_KEYSET q), seq := 2 ^ 63 + x.linkSeq, ack := x.acked,
                     sctx := 0, dctx := 0, opid := 0, arg := kind * 2 ^ 56 + arg, data := [] }
  driveFrame q f (s.onPort q fun x => { x with linkSeq := x.linkSeq + 1 })

/-- Bytes of a frame: header, payload, tag and CRC. -/
def Frame.size (f : Frame) : Nat := 44 + f.data.length

/-- Does a port hold a credit of the frame's channel, and room among the 2 MiB that it keeps until acknowledged (R378,
R380)? -/
def Port.maySend (x : Port) (f : Frame) : Bool :=
  SMap.get vcCredits x.credits f.vc ≠ 0 && decide (f.size + (x.unacked.map Frame.size).sum ≤ 2 ^ 21)

/-- Send a frame that holds a credit: it takes the next SEQ and is kept until acknowledged (R378, R380). -/
def transmit (q : Nat) (f : Frame) (s : State) : State :=
  let x := s.port q
  let f := { f with seq := x.txSeq, ack := x.acked,
                    key := s.rd (F.CLS_PORT_STATUS_KEYSET q) }
  driveFrame q f (s.onPort q fun x =>
    { x with txSeq := x.txSeq + 1, unacked := x.unacked ++ [f], keyFrames := x.keyFrames + 1,
             ackAt := if x.unacked.isEmpty then s.now else x.ackAt,
             lastVc := if f.vc = 3 then x.lastVc else f.vc,
             credits := SMap.upd vcCredits x.credits f.vc (· - 1) })

/-- Send a frame, or let it wait for a credit of its channel or for room among the kept frames (R378, R380). Payloads are padded to 64 bytes (R376). -/
def sendFrame (q type sctx dctx opid arg : Nat) (data : List Byte) (s : State) : State :=
  let vc := frameVc type
  let f : Frame := { type := type, vc := vc, key := 0, seq := 0, ack := 0, sctx := sctx, dctx := dctx, opid := opid,
                     arg := arg, data := padTo (64 * ceilDiv data.length 64) data }
  let x := s.port q
  if !x.maySend f || x.waiting.any (fun w => w.vc = vc) then
    s.onPort q fun x => { x with waiting := x.waiting ++ [f] }
  else transmit q f s

/-- The waiting frame that the egress serves next: VC3 first, the other channels in round-robin (R378). -/
def Port.nextOut (x : Port) : Option Frame :=
  [3, (x.lastVc + 1) % 3, (x.lastVc + 2) % 3, x.lastVc % 3].findSome? fun vc =>
    (x.waiting.find? fun f => f.vc = vc).filter x.maySend

/-- Send up to `n` waiting frames. -/
def sendSome (q : Nat) : Nat → State → State
  | 0, s => s
  | n + 1, s =>
    match (s.port q).nextOut with
    | none => s
    | some f => sendSome q n (transmit q f (s.onPort q fun x => { x with waiting := x.waiting.erase f }))

/-- Send the waiting frames that may go (R378, R380). -/
def sendWaiting (q : Nat) (s : State) : State := sendSome q (s.port q).waiting.length s

/-- Send a frame on the lowest up port of the trunk to a node; none is up: nothing is sent. -/
def sendTo (node type sctx dctx opid arg : Nat) (data : List Byte) (s : State) : State :=
  match s.trunk node with
  | [] => s
  | q :: _ => sendFrame q type sctx dctx opid arg data s

/-- Is the package late (R212, R393)? -/
def State.late (s : State) : Bool := (List.range 8).any fun k => decide (s.rd (F.MEM_STATUS_STRETCH k) ≠ 0)

/-- The abort keys for a node: at most three are carried (R389). -/
def State.abortsFor (s : State) (node : Nat) : List AbortKey := (s.aborts.filter fun a => a.nodes.contains node).take 3

/-- The payload of a TIME frame (R389). -/
def State.timeBody (s : State) (q : Nat) : List Byte :=
  let x := s.port q
  let ks := s.abortsFor (s.rd (F.CLS_PORT_STATUS_PEER_NODE q))
  let flags := b2n s.late + 2 * b2n (!ks.isEmpty) + 4 * b2n (s.on F.CLS_TIME_SYNC) + 8 * b2n s.held
  leBytes x.lastTime 8 ++ leBytes x.lastAt 8 ++ [byte flags, byte ks.length, 0, 0] ++
    padTo 36 (ks.flatMap fun a => leBytes a.kind 4 ++ leBytes a.ident 4 ++ leBytes a.seq 4) ++ leBytes 0 8

/-- Send a TIME frame (R389). -/
def sendTime (q : Nat) (s : State) : State := sendFrame q 0x18 0 0 0 s.now (s.timeBody q) s

/-- Send an abort for a collective (kind 1) or a pool round (kind 2) to every node (R394). -/
def sendAbort (kind ident seq : Nat) (nodes : List Nat) (s : State) : State :=
  let k : AbortKey := { kind := kind, ident := ident, seq := seq, since := s.now, nodes := nodes }
  let s := { s with aborts := k :: s.aborts }.satInc F.CLS_COUNT_ABORT_TX 1
  each nodes (fun n s => match s.trunk n with | [] => s | q :: _ => sendTime q s) s

/-- A collective leaves the sequencer, and every other member is told (R394). -/
def abortColl (x : Coll) (s : State) : State :=
  let others := (x.members.take x.n).map (·.1) |>.filter fun n => n != s.rd F.CLS_NODE_NODE
  sendAbort 1 x.gid x.cseq others { s with colls := s.colls.erase x }

/-- What changes the late content is sent at once on every up port (R389). -/
def sendTimeAll (s : State) : State :=
  each ((List.range 32).filter fun q => s.portUp q) sendTime (s.wr F.CLS_TIME_LATE_TX (b2n s.late))

end Sys2Proof.Machine
end

