-- ==== Sys2Proof/Machine/Net.lean ====
section
/-! DEFINITION. The on-die network itself (chapter 08): where agents sit, planes, header words, routes, the routers' input
buffers with their credits, arbitration at an output, multicast replication, and the injection of flits. -/

namespace Sys2Proof.Machine

/-! ### Where agents sit (R253, R254) -/

/-- Local channels behind a stack attachment: first and count. -/
def attachChans (j : Nat) : Nat × Nat := if j = 0 then (0, 8) else if j = 1 then (8, 16) else (24, 8)

/-- The stack behind an edge router, and its channels. -/
def stackOf (r : Nat) : Option (Nat × (Nat × Nat)) :=
  if 64 ≤ r ∧ r < 76 then some ((r - 64) / 3, attachChans ((r - 64) % 3))
  else if 76 ≤ r ∧ r < 88 then some (4 + (r - 76) / 3, attachChans ((r - 76) % 3))
  else none

/-- The edge router behind which a channel lies. -/
def channelRouter (ch : Nat) : Nat :=
  let k := ch / 32
  let l := ch % 32
  (if k < 4 then 64 + 3 * k else 76 + 3 * (k - 4)) + (if l < 8 then 0 else if l < 24 then 1 else 2)

/-- The group whose agent sits at a router and agent index. -/
def groupAgent (r a : Nat) : Option Nat :=
  if a = 1 ∧ 64 ≤ r ∧ r < 76 then
    (if (r - 64) % 3 = 0 then some (2 * ((r - 64) / 3)) else if (r - 64) % 3 = 2 then some (2 * ((r - 64) / 3) + 1)
     else none)
  else none

/-- The site behind a router. -/
def siteAt (r : Nat) : Option Nat :=
  if r = 88 ∨ r = 89 then some 0 else if r = 94 ∨ r = 95 then some 1 else if r = 96 ∨ r = 97 then some 2
  else if r = 102 ∨ r = 103 then some 3 else none

/-- The link die behind a router. -/
def linkDieAt (r : Nat) : Option Nat :=
  if 90 ≤ r ∧ r ≤ 93 then some 0 else if 98 ≤ r ∧ r ≤ 101 then some 1 else none

/-- Is there an agent of this index at a router (R254)? -/
def agentAt (r a : Nat) : Bool :=
  if r < 64 then a = 0
  else if r < 76 then a = 0 || (groupAgent r a).isSome
  else a = 0 || (r = 91 && decide (a ≤ 2)) || (r = 92 && a = 1) || (r = 99 && decide (a ≤ 2)) || (r = 100 && decide (a ≤ 2))

/-- The partition whose endpoint an agent is (R272). -/
def State.endpointOf (s : State) (r a : Nat) : Option Nat :=
  if r < 64 then s.partOfGroup (r / 8)
  else match groupAgent r a with
    | some g => s.partOfGroup g
    | none => none

/-- Is the proxy engaged on an agent (R272)? -/
def State.proxied (s : State) (r a : Nat) : Bool :=
  match s.endpointOf r a with
  | some p => (s.rd F.NOC_STATUS_PROXY).testBit p
  | none => false

/-- Agents whose flits keep HUBTX (R267). -/
def keepsHubtx (r a : Nat) : Bool := (r = 99 && (a = 1 || a = 2)) || (r = 92 && a = 1) || (r = 100 && a = 2)

/-- The context and the HUBTX bit that a flit carries after its source's router (R267). -/
def State.sourceOf (s : State) (h : Flit) : Nat × Bool :=
  if h.src.val < 64 then (s.rd (F.MXA_STATUS_CUR_CTX h.src.val), false)
  else (h.ctx.val, h.hubtx && keepsHubtx h.src.val h.sag.val)

/-! ### Planes and headers (R256, R257) -/

/-- The plane in service for a selector value: the next one in ascending order, wrapping round (R256, R276). -/
def State.planeFor (s : State) (v : Nat) : Nat :=
  let up := s.rd F.NOC_STATUS_PLANES
  ((List.range 4).map fun i => (v + i) % 4).find? up.testBit |>.getD v

/-- The plane that a source agent chooses for a flit (R256): bits [8:7] of the channel offset or of the bowl address, else
TAG bits [1:0]. -/
def State.planeOf (s : State) (h : Flit) : Nat :=
  let mem := h.dst.val < 64 || ((stackOf h.dst.val).isSome && h.dag.val = 0)
  s.planeFor (if mem then h.addr.toNat / 128 % 4 else h.tag.toNat % 4)

/-- The VN of an opcode (R258): 0 request, 1 response, 2 control. -/
def opcVn (opc : Nat) : Nat := if opc < 8 then 0 else if opc < 0x10 then 1 else 2

/-- The buffer class of a packet (R262, R263): 0 request, 1 response unicast, 2 response multicast, 3 control. A copy to a
row set is of the multicast class, one to a column set of the unicast class. -/
def NetFlit.cls (f : NetFlit) : Nat :=
  if opcVn f.opc = 0 then 0 else if opcVn f.opc = 2 then 3 else if f.opc = 0x0B && !f.hdr.mdir then 2 else 1

/-- The 128-bit header of a flit (R257). -/
def headerOf (opc : Nat) (h : Flit) : BitVec 128 :=
  let f (v lo : Nat) : BitVec 128 := BitVec.ofNat 128 v <<< lo
  f h.dst.val 121 ||| f h.dag.val 119 ||| f h.src.val 112 ||| f h.sag.val 110 ||| f (opcVn opc) 108 ||| f opc 103 |||
    f (b2n h.hubtx) 102 ||| f h.ctx.val 94 ||| f h.tag.toNat 82 ||| f h.status.val 79 ||| f (b2n h.mc) 78 |||
    f (b2n h.mdir) 77 ||| f h.mmask.toNat 69 ||| f h.boff.val 62 ||| f h.lenM1.val 55 ||| f h.addr.toNat 0

/-- A flit on a link (R257): header, 1,024 data bits, the CRC of the link and the end-to-end code, whose polynomials the
spec does not give. -/
def flitBits (opc : Nat) (h : Flit) : BitVec 1280 :=
  let body : BitVec 1152 := headerOf opc h ++ BitVec.ofNat 1024 (leNat (padTo 128 (h.data.take 128)))
  let e2e : BitVec 96 := Config.flitCode body
  body ++ (Config.linkCrc (body ++ e2e) ++ e2e)

/-- Valid bytes of a flit (R257). -/
def flitLen (h : Flit) : Nat := h.lenM1.val + 1
/-- The bytes that a one-flit request carries. -/
def flitBody (h : Flit) : List Byte := slice h.data h.boff.val (flitLen h)

/-- Copies that an RD_MC's response makes: the tiles of its set (R262). The header names no row or column number; TAG
bits [2:0] are taken for it (DESIGN CHOICE, log entry 61). -/
def copiesOf (h : Flit) : List Nat :=
  (setBits 8 h.mmask.toNat).map fun i =>
    if h.mdir then i * 8 + h.tag.toNat % 8 else h.tag.toNat % 8 * 8 + i

/-! ### Ports and routes (R253, R260, R262) -/

/-- The mesh row that an edge router of a west or east side is entered at or left from, seen from row `y`: routers 3s + 1
attach to two rows (R260). -/
def attachRow (r y : Nat) : Nat :=
  let s := if r < 76 then (r - 64) / 3 else (r - 76) / 3
  let j := if r < 76 then (r - 64) % 3 else (r - 76) % 3
  if j = 0 then 2 * s else if j = 2 then 2 * s + 1 else if y ≤ 2 * s then 2 * s else 2 * s + 1

/-- The router and port at the far end of a router's port: ports 1 N, 2 S, 3 E, 4 W, 5 outward port 1; none where nothing
is attached. At a router WE(3s + 1) or EE(3s + 1) the inner port leads to row 2s and port 5 to row 2s + 1. -/
def farEnd (r p : Nat) : Option (Nat × Nat) :=
  if r < 64 then
    let x := r % 8
    let y := r / 8
    let s := y / 2
    match p with
    | 1 => some (if y = 0 then (88 + x, 2) else (r - 8, 2))
    | 2 => some (if y = 7 then (96 + x, 1) else (r + 8, 1))
    | 3 => some (if x = 7 then (76 + 3 * s + 2 * (y % 2), 4) else (r + 1, 4))
    | 4 => some (if x = 0 then (64 + 3 * s + 2 * (y % 2), 3) else (r - 1, 3))
    | 5 => if x = 0 then some (65 + 3 * s, if y % 2 = 0 then 3 else 5)
      else if x = 7 then some (77 + 3 * s, if y % 2 = 0 then 4 else 5) else none
    | _ => none
  else if r < 76 then
    let s := (r - 64) / 3
    match (r - 64) % 3, p with
    | 0, 3 => some (16 * s, 4)
    | 1, 3 => some (16 * s, 5)
    | 1, 5 => some (16 * s + 8, 5)
    | 2, 3 => some (16 * s + 8, 4)
    | _, _ => none
  else if r < 88 then
    let s := (r - 76) / 3
    match (r - 76) % 3, p with
    | 0, 4 => some (16 * s + 7, 3)
    | 1, 4 => some (16 * s + 7, 5)
    | 1, 5 => some (16 * s + 15, 5)
    | 2, 4 => some (16 * s + 15, 3)
    | _, _ => none
  else if r < 96 then (if p = 2 then some (r - 88, 1) else none)
  else if p = 1 then some (56 + (r - 96), 2) else none

/-- The column and row at which a destination router hangs on the mesh, seen from row `y`, and the port by which the mesh is
left there: 0 for a tile's own router. -/
def exitOf (d y : Nat) : Nat × Nat × Nat :=
  if d < 64 then (d % 8, d / 8, 0)
  else if d < 76 then (0, attachRow d y, if (d - 64) % 3 = 1 then 5 else 4)
  else if d < 88 then (7, attachRow d y, if (d - 76) % 3 = 1 then 5 else 3)
  else if d < 96 then (d - 88, 0, 1) else (d - 96, 7, 2)

/-- The port by which a router of the edge sends towards the mesh, given the row that the flit is bound for (R260). -/
def edgePort (r row : Nat) : Nat :=
  if r < 76 then (if (r - 64) % 3 = 1 && attachRow r row % 2 = 1 then 5 else 3)
  else if r < 88 then (if (r - 76) % 3 = 1 && attachRow r row % 2 = 1 then 5 else 4)
  else if r < 96 then 2 else 1

/-- The next port of a unicast flit at a router: X first, then Y, then the exit; 0 at its destination (R260). -/
def unicastPort (r d : Nat) : Nat :=
  if r = d then 0
  else if 64 ≤ r then edgePort r (exitOf d 0).2.1
  else
    let e := exitOf d (r / 8)
    if r % 8 < e.1 then 3 else if e.1 < r % 8 then 4
    else if r / 8 < e.2.1 then 2 else if e.2.1 < r / 8 then 1 else e.2.2

/-- The ports that a multicast copy needs at a router, each with the part of the mask that goes there (R262): to its line
first, X then Y for a column set and Y then X for a row set, then along the line as far as the last masked tile. -/
def multicastPorts (r : Nat) (h : Flit) : List (Nat × Nat) :=
  let m := h.mmask.toNat
  let line := h.tag.toNat % 8
  if 64 ≤ r then [(edgePort r (if h.mdir then 0 else line), m)]
  else
    let x := r % 8
    let y := r / 8
    let here := if h.mdir then y else x
    let off := if h.mdir then x else y
    if off < line then [(if h.mdir then 3 else 2, m)]
    else if line < off then [(if h.mdir then 4 else 1, m)]
    else
      let up := m / 2 ^ (here + 1) * 2 ^ (here + 1)
      let low := m % 2 ^ here
      (if m.testBit here then [(0, 2 ^ here)] else []) ++ (if up = 0 then [] else [(if h.mdir then 2 else 3, up)]) ++
        (if low = 0 then [] else [(if h.mdir then 1 else 4, low)])

/-- The ports that a packet needs at a router, and the copy that goes out at each. -/
def portsOf (r : Nat) (f : NetFlit) : List (Nat × NetFlit) :=
  if f.opc = 0x0B then
    (multicastPorts r f.hdr).map fun p => (p.1, { f with hdr := { f.hdr with mmask := BitVec.ofNat 8 p.2 } })
  else [(unicastPort r f.hdr.dst.val, f)]

/-! ### Buffers and credits (R263) -/

/-- Number of an input buffer. -/
def bufKey (r port plane cls : Nat) : Nat := ((r * 8 + port) * 4 + plane) * 4 + cls

/-- What an input buffer holds, oldest first. -/
def State.buf (s : State) (k : Nat) : List NetFlit := SMap.get (fun _ => []) s.netBufs k

/-- Replace what an input buffer holds. -/
def State.setBuf (s : State) (k : Nat) (l : List NetFlit) : State := { s with netBufs := SMap.put (fun _ => []) s.netBufs k l }

/-- Does the sender of a link hold a credit for a class: is there room in the buffer at the far end? Four of the control
class are reserved; the depth beyond that, and of the other classes, is not given (R263; log entry 129). -/
def State.hasCredit (s : State) (k : Nat) : Bool :=
  let n := (s.buf k).length
  decide (n < (if k % 4 = 3 then 4 else 1)) || decide (n < Config.bufferDepth (k % 4))

/-- What the link of a plane at a receiving router's port keeps. -/
def State.link (s : State) (r port plane : Nat) : LinkSt :=
  SMap.get (fun _ => LinkSt.init) s.links (r * 32 + port * 4 + plane)

/-- Replace it. -/
def State.setLink (s : State) (r port plane : Nat) (x : LinkSt) : State :=
  { s with links := SMap.put (fun _ => LinkSt.init) s.links (r * 32 + port * 4 + plane) x }

/-- The input ports of a router in round-robin order behind the one that was served last; 0 is the local port. -/
def rrPorts (last : Nat) : List Nat := ((List.range 6).map fun i => (last + 1 + i) % 6)

/-- Do all outputs of a packet hold credit, so that it can leave a router (R262)? The copy for the router's own agent
always has: the agent accepts it at line rate (R268). -/
def State.canLeave (s : State) (r : Nat) (f : NetFlit) : Bool :=
  (portsOf r f).all fun p => p.1 = 0 ||
    match farEnd r p.1 with
    | some (u, q) => s.hasCredit (bufKey u q f.plane f.cls)
    | none => false

/-- The packet of class `cls` that goes out next at port `out` of a router: round-robin among the inputs (R264). -/
def State.nextOf (s : State) (r out plane cls last : Nat) : Option (Nat × NetFlit) :=
  (rrPorts last).findSome? fun i =>
    match s.buf (bufKey r i plane cls) with
    | [] => none
    | f :: _ => if (portsOf r f).any (fun p => p.1 = out) && s.canLeave r f then some (i, f) else none

/-- The packet that an output sends next (R264): control first; requests and responses in turn when both can go. -/
def State.outputNext (s : State) (r out plane : Nat) (x : LinkSt) : Option (Nat × NetFlit) :=
  let at' (cls : Nat) : Option (Nat × NetFlit) := s.nextOf r out plane cls (SMap.get (fun _ => 5) x.turn (opcVn' cls))
  let rsp := (at' 1).orElse fun _ => at' 2
  (at' 3).orElse fun _ => if x.reqLast then rsp.orElse fun _ => at' 0 else (at' 0).orElse fun _ => rsp
where
  /-- The VN of a class. -/
  opcVn' (cls : Nat) : Nat := if cls = 0 then 0 else if cls = 3 then 2 else 1

/-- A packet leaves a router's input port: its copies stand in the buffers that they go to, and its own at the agent. -/
def leaveRouter (r i : Nat) (f : NetFlit) (s : State) : State :=
  let k := bufKey r i f.plane f.cls
  each (portsOf r f) (fun p s =>
    if p.1 = 0 then
      let k := bufKey r 7 f.plane f.cls
      s.setBuf k (s.buf k ++ [p.2])
    else match farEnd r p.1 with
      | some (u, q) =>
        let k := bufKey u q f.plane f.cls
        s.setBuf k (s.buf k ++ [p.2])
      | none => s) (s.setBuf k ((s.buf k).drop 1))

/-- Does a packet stand at the router of its destination, or is it a copy that has reached a tile of its set? -/
def atAgent (r port : Nat) (f : NetFlit) : Bool := port = 7 || (f.opc ≠ 0x0B && decide (f.hdr.dst.val = r))

/-- Where a packet that has reached its destination's router stands: the number of its buffer, if the network holds it. -/
def State.standsAt (s : State) (r opc : Nat) (h : Flit) : Option (Nat × NetFlit) :=
  s.netBufs.findSome? fun e =>
    if e.1 / 128 ≠ r then none
    else (e.2.find? fun f => decide (f.opc = opc) && atAgent r (e.1 / 16 % 8) f &&
      (if opc = 0x0B then decide ({ f.hdr with mmask := h.mmask, dst := h.dst, dag := h.dag } = h) else decide (f.hdr = h))).map fun f => (e.1, f)

/-- The agent at a router takes a packet from the network. -/
def takePacket (k : Nat) (f : NetFlit) (s : State) : State := s.setBuf k ((s.buf k).erase f)

/-! ### Injection, tags and responses due (R256, R268, R272) -/

/-- Change the count of responses due to an agent (R272). -/
def oweBy (r a : Nat) (f : Nat → Nat) (s : State) : State := { s with owed := SMap.upd (fun _ => 0) s.owed (4 * r + a) f }

/-- The bundle behind an agent: that of a stack or of a link die (R254, R313). -/
def bundleAt (r a : Nat) : Option Nat :=
  if a ≠ 0 then none
  else match stackOf r with
    | some (k, _) => some k
    | none => (linkDieAt r).map (8 + ·)

/-- Where a packet's sequence number is counted: its plane and VN (R313). -/
def NetFlit.seqKey (f : NetFlit) : Nat := 4 * f.plane + opcVn f.opc

/-- A packet crosses a bundle to the die, under the next sequence number of its plane and VN (R313). -/
def crossOut (f : NetFlit) (s : State) : State :=
  match bundleAt f.hdr.dst.val f.hdr.dag.val with
  | some b => s.onBdl b fun x => { x with sent := SMap.upd (fun _ => 0) x.sent f.seqKey (· + 1) }
  | none => s

/-- A packet comes in from a die in the order of its plane and VN (R313). -/
def crossIn (f : NetFlit) (s : State) : State :=
  match bundleAt f.hdr.src.val f.hdr.sag.val with
  | some b => s.onBdl b fun x => { x with got := SMap.upd (fun _ => 0) x.got f.seqKey (· + 1) }
  | none => s

/-- An agent injects a packet that it may send: it stands in the local input buffer of its router. One from an agent of a
companion die has crossed the die's bundle (R313). -/
def inject (f : NetFlit) (s : State) : State :=
  let k := bufKey f.hdr.src.val 0 f.plane f.cls
  ((crossIn f s).setBuf k (s.buf k ++ [f])).out (.flit f)

/-- The plane of the request that a response answers (R256). -/
def State.planeOfTag (s : State) (agent tag : Nat) (d : Nat) : Nat :=
  ((s.tags.find? fun x => decide (x.agent = agent) && decide (x.tag = tag)).map (·.plane)).getD d

/-- The response to a request (R257–R259): it goes back to the source's agent on the request's plane, with its CTX and
TAG; a multicast response carries the request's set and ADDR. -/
def responseTo (s : State) (h : Flit) (opc status : Nat) (data : List Byte) : NetFlit :=
  let x := s.sourceOf h
  { hdr := { h with dst := h.src, dag := h.sag, src := h.dst, sag := h.dag, hubtx := x.2, ctx := Fin.ofNat 256 x.1,
                    status := Fin.ofNat 8 status, mc := decide (opc = 0x0B), boff := 0,
                    lenM1 := Fin.ofNat 128 (data.length - 1), data := data },
    opc := opc, plane := s.planeOfTag (4 * h.src.val + h.sag.val) h.tag.toNat (s.planeOf h) }

/-- Answer a request with a response flit. -/
def reply (h : Flit) (opc status : Nat) (data : List Byte) (s : State) : State := inject (responseTo s h opc status data) s

/-- Answer a request with RSP_ERR (R259). -/
def replyErr (h : Flit) (status : Nat) (data : List Byte) (s : State) : State := reply h 0x0A status data s

/-- DETAIL of a failed access as the four bytes that RSP_ERR carries (R259). -/
def errBytes (e : MemErr) : List Byte := leBytes e.detail 4

/-! ### The proxy sink (R272, R273) -/

/-- The sink of the proxy consumes what reaches an endpoint: a request is answered with STATUS PROXY, a response or copy is
discarded, a control message is counted, and acknowledged where `ack` says that it asks for it. -/
def proxySink (opc : Nat) (h : Flit) (ack : Bool) (s : State) : State :=
  if opcVn opc = 0 then replyErr h 2 [] s
  else if opcVn opc = 1 then oweBy h.dst.val h.dag.val (· - 1) s
  else
    let s := match s.endpointOf h.dst.val h.dag.val with
      | some p => s.onPart p fun x => { x with ctlSeen := x.ctlSeen + 1 }
      | none => s
    if ack && opc = 0x10 then reply h 0x11 0 [] s else s

/-- What waits in the input buffers of a partition's endpoints is handed to the proxy (step 3 of R272). Whether a control
message asks for an acknowledgement stands in no field of the header: a free bit says (DESIGN CHOICE, log entry 129). -/
def handToProxy (p : Nat) (s : State) : State :=
  let here (r port : Nat) (f : NetFlit) : Bool :=
    atAgent r port f && decide (s.endpointOf r (if f.opc = 0x0B then 0 else f.hdr.dag.val) = some p)
  each s.netBufs (fun e s => each (e.2.filter (here (e.1 / 128) (e.1 / 16 % 8))) (fun f s =>
    proxySink f.opc (if f.opc = 0x0B then { f.hdr with dst := Fin.ofNat 104 (e.1 / 128), dag := 0 } else f.hdr)
      (s.free.getLsbD 0) (takePacket e.1 f s).drawn) s) s

end Sys2Proof.Machine
end

