-- ==== Sys2Proof/Machine/EndCtx.lean ====
section
/-! DEFINITION. Completion records, the clearing of tiles and slots, and the end of a context (R164, R169, R285, R286):
one operation that every end runs. -/

namespace Sys2Proof.Machine

/-! ### Token buckets -/

/-- Number of a bucket in State.buckets: byte and granule buckets of a stack and context, injection buckets of an agent
and context, request buckets of a site. -/
def BucketId.key : BucketId → Nat
  | .bytes k c => k.val * 256 + c.val
  | .granules k c => 2048 + k.val * 256 + c.val
  | .inject r i c => 4096 + (r.val * 4 + i.val) * 256 + c.val
  | .site x => 2 ^ 20 + x.val

/-- Refill the byte, granule and injection buckets of a context (R285); what its units still asked of them goes. -/
def refillBuckets (c : Nat) (s : State) : State :=
  { s with buckets := SMap.keep (fun k => !(decide (k < 2 ^ 20) && decide (k % 256 = c))) s.buckets,
           waiting := s.waiting.filter fun w => !(decide (w.bucket < 2 ^ 20) && decide (w.ctx = c)) }

/-! ### Requests that memory has accepted (R203, R209, R257, R324) -/

/-- The kinds of R324, with their numbers in CHK_VIOL.KIND and their bits in RIGHTS and KINDS. -/
inductive SiteKind where
  | rd | wr | atom | signal
  deriving DecidableEq, Repr

/-- Read pieces of a channel's logical space. -/
def State.chRead (s : State) (ch : Nat) : List (Nat × Nat) → Except MemErr (List Byte)
  | [] => .ok []
  | (a, n) :: ps =>
    match s.granRead ch (s.physOff ch a) n with
    | .error e => .error e
    | .ok bs => match s.chRead ch ps with
      | .error e => .error e
      | .ok r => .ok (bs ++ r)

/-- Write pieces of a channel's logical space. -/
def State.chWrite (s : State) (ch : Nat) (bs : List Byte) : List (Nat × Nat) → State × Option MemErr
  | [] => (s, none)
  | (a, n) :: ps =>
    match s.granWrite ch (s.physOff ch a) (bs.take n) with
    | .error e => (s, some e)
    | .ok s => s.chWrite ch (bs.drop n) ps

/-- Why no request is served, as the response that says so: a stack that is down is a fenced die, whose adapter answers
STATUS FENCED; every other cause travels as DETAIL (R207, R259, R270, R321). -/
def failReply (h : Flit) (e : MemErr) (s : State) : State :=
  if e.cause = 3 then replyErr h 4 [] s else replyErr h 1 (errBytes e) s

/-- A request has reached a channel that its context owns, and is performed there and answered (R257, R258). -/
def stackServe (ch : Nat) (h : Flit) (req : Instr) (s : State) : State :=
  let off := h.addr.toNat % 2 ^ 32
  let n := flitLen h
  let phys := s.physOff ch off
  match req with
  | .rd _ _ _ | .rdMc _ _ _ =>
    match s.chRead ch (pieces off n) with
    | .error e => failReply h e s
    | .ok bs =>
      reply h (match req with | .rdMc _ _ _ => 0x0B | _ => 0x08) 0 bs
        ((pieces off n).foldl (fun s p => s.cacheTouch ch (s.physOff ch p.1) false) s)
  | .wr _ _ =>
    match s.chWrite ch (flitBody h) (pieces off n) with
    | (s, some e) => failReply h e s
    | (s, none) => reply h 0x09 0 [] s
  | _ =>
    let op := fieldAt h.data 16 1
    let w := fieldAt h.data 17 1
    if !atomOk op w || off % (widthBits w / 8) ≠ 0 then replyErr h 6 [] s
    else match s.atomAt ch phys op (widthBits w) (fieldAt h.data 0 8) (fieldAt h.data 8 8) with
      | .error e => failReply h e s
      | .ok (old, s) => reply h 0x08 0 (leBytes old (widthBits w / 8)) s

/-- First and last-but-one address of a window on the site's side. -/
def State.winSpan (s : State) (x w : Nat) : Nat × Nat :=
  let b := s.rd (F.CHK_WIN_A_SITE_BASE x w) * 4096
  (b, b + s.rd (F.CHK_WIN_B_LEN_PAGES x w) * 4096)

/-- The granted window that holds an address. -/
def State.winOf (s : State) (x a : Nat) : Option Nat :=
  (List.range 16).find? fun w =>
    s.on (F.CHK_WIN_A_VALID x w) && decide ((s.winSpan x w).1 ≤ a) && decide (a < (s.winSpan x w).2)

/-- The context-relative address that a site's request maps to through a window (R324). -/
def State.siteAddr (s : State) (q : SiteReq) (w : Nat) : Nat :=
  s.rd (F.CHK_WIN_B_CTX_BASE q.site.val w) * 4096 + (q.addr.toNat - (s.winSpan q.site.val w).1)

/-- The answer to the die; a site that is fenced takes none: it is sunk (R328). -/
def siteAnswer (q : SiteReq) (err : Bool) (data : List Byte) (s : State) : State :=
  if s.rd (F.CHK_STATUS_STATE q.site.val) = 5 then s else s.out (.siteAnswer q.site.val q.tag err data)

/-- A site's request that has passed its firewall is performed on the owner's memory at a context-relative address and
answered; a failing access is handed back (R324). -/
def siteServe (k : SiteKind) (q : SiteReq) (c a : Nat) (s : State) : State × Option MemErr :=
  let l := s.locate c a
  match k with
  | .wr =>
    match s.ctxWrite c a q.data with
    | (s, some e) => (siteAnswer q true [] s, some e)
    | (s, none) => (siteAnswer q false [] s, none)
  | .rd =>
    match s.ctxRead c a q.len with
    | .error e => (siteAnswer q true [] s, some e)
    | .ok bs => (siteAnswer q false bs (s.ctxTouch c a q.len), none)
  | _ =>
    match s.atomAt l.1 l.2 q.op.val (widthBits q.width.val) q.operand.toNat q.compare.toNat with
    | .error e => (siteAnswer q true [] s, some e)
    | .ok (old, s) => (siteAnswer q false (leBytes old (widthBits q.width.val / 8)) s, none)

/-- The kind of a site's request. -/
def siteReqOf : Instr → Option (SiteKind × SiteReq)
  | .siteRd q _ => some (.rd, q)
  | .siteWr q => some (.wr, q)
  | .siteAtom q => some (.atom, q)
  | .siteSignal q => some (.signal, q)
  | _ => none

/-- The header of a mesh request. -/
def meshReqOf : Instr → Option Flit
  | .rd h _ _ => some h
  | .rdMc h _ _ => some h
  | .atom h _ _ => some h
  | .wr h _ => some h
  | .hrd h _ => some h
  | .hwr h _ => some h
  | .hatom h _ => some h
  | _ => none

/-- The notify object of a site window, if its owner has one (R323). -/
def State.notifyObj (s : State) (x w : Nat) : Option Nat :=
  (s.objectsOf (s.rd (F.CHK_WIN_A_OWNER x w)))[s.rd (F.CHK_WIN_A_SO x w)]?

/-- A signal of a site's request reaches the window's object (R324). -/
def siteSignal (q : SiteReq) (w : Nat) (s : State) : State :=
  siteAnswer q false [] (match s.notifyObj q.site.val w with
    | some o => soAdd o q.operand.toNat false s
    | none => s)

/-- An accepted request that waits is performed at once (step 3 of R285; R325). A request that has not been injected, or
that waits for a slot of the host endpoint, is answered with an error (R270; DESIGN CHOICE, log entry 130). -/
def serveWaiting (w : Waiting) (s : State) : State :=
  match w.who with
  | .unit _ _ => s
  | .request i =>
    match siteReqOf i, meshReqOf i with
    | some (k, q), _ =>
      match s.winOf q.site.val q.addr.toNat with
      | none => siteAnswer q true [] s
      | some v => if k = .signal then siteSignal q v s else (siteServe k q w.ctx (s.siteAddr q v) s).1
    | none, some h =>
      match stackOf h.dst.val with
      | some (k, _) =>
        if w.bucket < 2048 || 2 ^ 22 ≤ w.bucket then stackServe (32 * k + h.addr.toNat / 2 ^ 32 % 32) h i s else s
      | none => if w.bucket = 2 ^ 21 then replyErr h 3 [] s else s
    | none, none => s

/-- Requests of a context that are accepted and wait are performed, row copies of its channels having ended, and leave the
queues (R209, R285, R325). One that waits for its site's RATE bucket has not passed the firewall (R326). -/
def drainRequests (c : Nat) (s : State) : State :=
  let chs := s.ownedChannels c
  let held := chs.flatMap fun ch => (s.chan ch).queue
  let s := each (chs.filter fun ch => !(s.chan ch).copying.isEmpty) (fun ch s =>
    s.onChan ch fun x => { x with copying := [], queue := [], credits := 0 }) s
  let passed (w : Waiting) : Bool := decide (w.ctx = c) && !(decide (2 ^ 20 ≤ w.bucket) && decide (w.bucket < 2 ^ 21))
  let ws := held ++ s.waiting.filter passed
  let s := { s with waiting := s.waiting.filter fun w => !passed w }
  each ws serveWaiting s

/-- Requests in flight at a stack that goes down complete with an error, cause 0x3 (step 4 of R213, R321, R333). -/
def failRequests (k : Nat) (s : State) : State :=
  let at' (w : Waiting) : Bool := decide (w.bucket / 256 = k) && decide (w.bucket < 2048)
  let fail (w : Waiting) (s : State) : State :=
    match w.who with
    | .unit _ _ => s
    | .request i =>
      match siteReqOf i, meshReqOf i with
      | some (_, q), _ => siteAnswer q true [] s
      | none, some h => failReply h { ch := 0, cause := 3 } s
      | none, none => s
  let chs := (List.range 32).map (32 * k + ·)
  let ws := (chs.flatMap fun ch => (s.chan ch).queue) ++ s.waiting.filter at'
  let s := each (chs.filter fun ch => !(s.chan ch).copying.isEmpty || !(s.chan ch).queue.isEmpty) (fun ch s =>
    s.onChan ch fun x => { x with copying := [], queue := [], credits := 0 }) s
  each ws fail { s with waiting := s.waiting.filter fun w => !at' w }

/-! ### Records (R162, R164) -/

/-- The partition scheduler of a context as a unit that accesses its memory (R254): its number tells what for. -/
def State.schedPayer (s : State) (c q n : Nat) : Payer :=
  { ctx := c, seq := q, unit := n, agent := 4 * groupRouter ((s.groupsOf (s.partOf c)).headD 0) + 1 }

/-- Write the hub word of a context (R146): to device memory, or to host memory once a translation serves it. While its
page has none, or its access waits, the write is due and is repeated (R180); a failing access is handed back. -/
def putHubWord (c : Nat) (s : State) : State × Option MemErr :=
  let a := s.wordsAddr c + 8
  let bs := leBytes (s.hubWord c) 8
  if s.on (F.CTXW_RING_WORDS_SPACE c) then
    match ringXlat c a true s with
    | (some a, s) =>
      match access (s.schedPayer c (2 ^ 32) 1) 2 [] [] s with
      | (true, s) => ((s.onCtx c fun x => { x with wordDue := false }).out (.hostWrite c 0 a bs), none)
      | (false, s) => (s.onCtx c fun x => { x with wordDue := true }, none)
    | (none, s) => (s.onCtx c fun x => { x with wordDue := true }, none)
  else match storeAs (s.schedPayer c (2 ^ 32) 1) a bs s with
    | (s, some e) => if e.cause = 0 then (s.onCtx c fun x => { x with wordDue := true }, none) else (s, some e)
    | (s, none) => (s.onCtx c fun x => { x with wordDue := false }, none)

/-- The bytes of the next completion record: PHASE tells the passes apart (R162). -/
def State.nextRecord (s : State) (c : Nat) (o : Op) (r : Result) : List Byte :=
  recordBytes o r (decide ((s.ctx c).cmplTail / s.cmplEntries c % 2 = 0)) s.now

/-- Write the next completion record into device memory and count it (R162); a failing access is handed back, and one that
waits writes and counts nothing. -/
def putRecord (c : Nat) (o : Op) (r : Result) (s : State) : State × Option MemErr :=
  let n := (s.ctx c).cmplTail
  let w := storeAs (s.schedPayer c o.seq 0) (s.cmplAddr c n) (s.nextRecord c o r) s
  if w.2.any fun e => e.cause = 0 then w
  else (w.1.onCtx c fun x => { x with cmplTail := (n + 1) % 2 ^ 32 }, w.2)

/-- The CTX_END record of an operation that is in flight when its context ends (R169). -/
def endRecord (c : Nat) (o : Op) (s : State) : State :=
  (putRecord c o { status := stCtxEnd, detail := 0, value := 0, ident := none } s).1

/-! ### Tiles -/

/-- The context that holds a tile (R57). -/
def State.tileCtx (s : State) (t : Nat) : Option Nat :=
  if s.on (F.MXA_STATUS_CTX_VALID t) then some (s.rd (F.MXA_STATUS_CUR_CTX t)) else none

/-- Is a tile in service: IDLE, RUN or SWITCH (R57)? -/
def State.tileServes (s : State) (t : Nat) : Bool :=
  let k := s.rd (F.MXA_STATUS_STATE t)
  k = 1 || k = 2 || k = 3

/-- Add what a tile has stood still to a count of MXA_STALL, in units of 1,024 cycles of 2.4 GHz (R35, R61): `ns` more, with
`rem` fifths of a cycle left from before. The new remainder. -/
def stallAdd (f : Fld) (ns rem : Nat) (s : State) : Nat × State :=
  let n := ns * 12 + rem
  (n % 5120, s.satInc f (n / 5120))

/-- Count the time for which a tile has stood still until now: for a queue entry, or for operands (R35, R61). -/
def stallEnd (t : Nat) (s : State) : State :=
  let x := s.tile t
  let s := match x.ftqAt with
    | none => s
    | some a =>
      let r := stallAdd (F.MXA_STALL_FTQ_FULL t) (s.now - a) x.ftqRem s
      r.2.onTile t fun x => { x with ftqAt := none, ftqRem := r.1 }
  match x.opndAt with
  | none => s
  | some a =>
    let r := stallAdd (F.MXA_STALL_OPND_WAIT t) (s.now - a) x.opndRem s
    r.2.onTile t fun x => { x with opndAt := none, opndRem := r.1 }

/-- Clear a tile: bowl, accumulator banks, queue, vector engine; BWL_SCRUB records the end, the clear being over within the
command (R54, R64, R174). The parts of a unit that MXA_STALL has not counted yet stay. -/
def clearTile (t : Nat) (s : State) : State :=
  let s := stallEnd t s
  let x := s.tile t
  let s := s.onTile t fun _ => { Tile.init with ftqRem := x.ftqRem, opndRem := x.opndRem }
  let s := ((s.wr (F.MXA_STATUS_CTX_VALID t) 0).wr (F.MXA_STATUS_CUR_CTX t) 0).wr (F.MXA_STATUS_FTQ_OCC t) 0
  let s := if s.tileServes t then
      (s.wr (F.MXA_STATUS_STATE t) 1).wr (F.VXE_STATUS_STATE t) 1 else s.wr (F.VXE_STATUS_STATE t) 0
  let s := ((s.wr (F.VXE_STATUS_PC t) 0).wr (F.VXE_STATUS_KSLOT t) 0).wr (F.VXE_STATUS_LOOP_DEPTH t) 0
  let s := (s.wr (F.VXE_STATUS_PEND_SUMM t) 0).setReg (R.VXE_STAT t) 0
  s.wr (F.BWL_SCRUB_LAST_CLEAR t) s.now

/-! ### Channels -/

/-- Is a channel passed over by a clear: retired, or its stack down (R187)? -/
def State.chDead (s : State) (ch : Nat) : Bool :=
  (s.chan ch).retired || decide (s.rd (F.MEM_STATUS_STATE (ch / 32)) = 3) ||
    decide (s.rd (F.MEM_STATUS_STATE (ch / 32)) = 4)

/-- Begin the clear of a channel (R187). -/
def beginClear (ch : Nat) (s : State) : State :=
  if s.chDead ch then s
  else (s.onChan ch fun x => { x with clearing := true }).wr (F.MEM_CH_STATE (ch / 32) (ch % 32)) 2

/-- Is a clear of one of the context's channels under way? -/
def State.clearingOf (s : State) (c : Nat) : Bool := (s.ownedChannels c).any fun ch => (s.chan ch).clearing

/-! ### Pools -/

/-- A slot's copy ends without a seal: SCRUBBING until its scrub ends (R294, R297). -/
def spoilSlot (p i : Nat) (s : State) : State := s.setSlot p i { (s.slot p i) with st := .scrubbing }

/-- Members of a pool, ascending: slot i is that of the i-th (R294). -/
def State.membersOf (s : State) (p : Nat) : List Nat := (List.range 256).filter fun c => s.isMember p c

/-- Slot number of a member. -/
def State.slotOf (s : State) (p c : Nat) : Nat := ((s.membersOf p).takeWhile fun d => d != c).length

/-- Every output in RUN has received the held round: the scrub of the result region begins (R300). -/
def heldCheck (p : Nat) (s : State) : State :=
  if s.rd (F.GUP_RND_STATE p) = 4 && !(s.pool p).resScrub &&
      ((List.range 256).all fun c => !(s.isOutput p c && s.ctxState c = 4) || (s.pool p).served.contains c) then
    s.onPool p fun q => { q with resScrub := true }
  else s

/-- A context's contributions and receives leave a pool; a FILLING copy is abandoned, a sealed slot stays (R305). -/
def leavePool (c p : Nat) (s : State) : State :=
  let i := s.slotOf p c
  let s := if s.isMember p c && (s.slot p i).st = .filling then spoilSlot p i s else s
  heldCheck p (s.onPool p fun q => { q with contribs := q.contribs.filter (fun x => x.1 != c),
                                            receives := q.receives.filter (fun x => x.1 != c) })

/-! ### Mandrels -/

/-- Clear a context's accumulators in every Mandrel, and its summaries in the intakes (R285). -/
def clearAccs (c : Nat) (s : State) : State :=
  (List.range 8).foldl (fun s g => s.onGroup g fun x =>
    { x with accs := SMap.keep (fun k => k / 8 != c) x.accs, intake := x.intake.filter fun r => r.ctx != c }) s

/-! ### Windows -/

/-- Close one window of a site. -/
def closeWindow (x w : Nat) (s : State) : State :=
  (s.wr (F.CHK_WIN_A_ACTIVE x w) 0).wrBit (F.CHK_STATUS_WIN_ACTIVE x) w false

/-- Close every site window and Claush window of a context (step 1 of R285; R325, R381). -/
def closeWindows (c : Nat) (s : State) : State :=
  let s := (List.range 4).foldl (fun s x => (List.range 16).foldl (fun s w =>
    if s.on (F.CHK_WIN_A_ACTIVE x w) && s.rd (F.CHK_WIN_A_OWNER x w) = c then closeWindow x w s else s) s) s
  s.onCtx c fun y => { y with wins := [] }

/-! ### IDE and TDISP -/

/-- Erase both key sets of the stream that serves a context and put it into Insecure (R354). -/
def closeStream (c : Nat) (s : State) : State :=
  let s := (List.range 256).foldl (fun s i =>
    if (s.stream i).ctx = some c then s.onStream i fun x => { x with secure := false, keys := [] } else s) s
  s.wr (F.GLB_HEP_STRM_SECURE c) 0

/-! ### The end of a context (R285) -/

/-- Step 6: the state after the scrub (R280). -/
def finishEnd (c : Nat) (s : State) : State :=
  let s := s.wr (F.CTX_STATE_SCRUB c) 0
  if s.ctxState c = 6 then
    if (s.ctx c).stopPending then
      (s.wr (F.CTX_STATE_STATE c) 0).onCtx c fun x => { x with stopPending := false }
    else s.wr (F.CTX_STATE_STATE c) 2
  else s

/-- Step 2: the tiles, engines and gathers of a context stop; the rest of its slice stays idle. -/
def stopWork (c : Nat) (s : State) : State :=
  let s := each (List.range 64) (fun t s => if s.tileCtx t = some c then clearTile t s else s) s
  let s := each (List.range 32) (fun e s =>
    match (s.engine e).op with
    | some (d, _) => if d = c then
        ((s.onEngine e fun x => { x with op := none }).wr (F.DMA_ENG_STATUS_STATE e) 0).wr (F.DMA_ENG_STATUS_OUT_RD e) 0 else s
    | none => s) s
  let p := s.partOf c
  let s := if s.holderOf p = some c then
      let s := (s.wr (F.SCH_STATUS_CTX_VALID p) 0).wr (F.SCH_STATUS_CUR_CTX p) 0
      if s.rd (F.SCH_STATUS_STATE p) = 1 then s.wr (F.SCH_STATUS_STATE p) 2 else s
    else s
  let s := s.onPart p fun x =>
    { x with sw := x.sw.map fun w => { w with inc := if w.inc = some c then none else w.inc,
                                              out := if w.out = some c then none else w.out } }
  (s.wr (F.CTXW_RING_STATUS_HOLDING c) 0).wr (F.CTXW_RING_STATUS_PARKED c) 0

/-- Step 3: operations in flight end. Records in SEQ order when the completion area lies in device memory; no signal and
no vector of theirs; the objects are force-signalled (R169). -/
def endOps (c : Nat) (s : State) : State :=
  let ops := (s.ctx c).ops
  let s := if s.cmplHost c then s else each ops (endRecord c) s
  let s := s.onCtx c fun x => { x with ops := [], fetch := none, spans := [] }
  let s := if ops.isEmpty || s.cmplHost c then s else (putHubWord c s).1
  let s := countOps c (forceSignal c s)
  let s := (List.range 64).foldl (fun s p => leavePool c p s) s
  let s := { s with clOps := s.clOps.filter (fun o => o.ctx != c), readies := s.readies.filter (fun r => r.ctx != c) }
  let s := (s.colls.filter fun x => x.ctx = c).foldl (fun s x => abortColl x s) s
  pftRemove c (abandonReads c true s)

/-- Step 4: what the context held is cleared. -/
def clearHeld (c : Nat) (s : State) : State :=
  let s := clearAccs c (xltClear c s)
  let s := s.onCtx c fun x =>
    { x with tbl := [], krn := [], crv := [], chains := [], saved := [], heldLoads := [], errSeqs := [], tdiLocked := false,
             nonce := [], lockMsix := false, wordDue := false }
  closeStream c (refillBuckets c s)

/-- End a context: steps 1 to 5 of R285. `code` is the fault's code, or zero; `stop` marks a CTX_STOP. -/
def endContext (c code : Nat) (stop : Bool) (s : State) : State :=
  let s := s.wr (F.CTX_STATE_STATE c) (if code = 0 then 6 else 5)
  let s := if code = 0 then s else s.wr (F.CTX_STATE_FAULT c) code
  let s := s.wr (F.CTX_STATE_TDI c) (if code = 0 then 0 else 3)
  let s := (s.wr (F.CTX_STATE_SCRUB c) 1).satInc (F.CTX_STATE_ENDS c) 1
  let s := s.onCtx c fun x => { x with stopPending := x.stopPending || stop }
  let s := endOps c (drainRequests c (stopWork c (closeWindows c s)))
  let s := clearHeld c s
  let s := each (s.ownedChannels c) beginClear s
  if s.clearingOf c then s else finishEnd c s

end Sys2Proof.Machine
end

