-- ==== Sys2Proof/Machine/Flags.lean ====
section
/-! DEFINITION. The flags of the arithmetic: those of the matrix path (R89) and of the vector engines (R142), and the flags that a
rounded result sets. -/

namespace Sys2Proof.Machine

/-- Flag bits of R89: PREC. -/
def fPrec : Nat := 1
/-- ACC_OVF. -/
def fAccOvf : Nat := 2
/-- OUT_OVF. -/
def fOutOvf : Nat := 4
/-- OUT_UNF. -/
def fOutUnf : Nat := 8
/-- INVALID. -/
def fInvalid : Nat := 16
/-- WIT_SKIP. -/
def fWitSkip : Nat := 32
/-- WIT_TOL. -/
def fWitTol : Nat := 64

/-- Set flag `f` when `b` holds. -/
def flagIf (b : Bool) (f : Nat) : Nat := if b then f else 0

/-- Flag bits of VXE_STAT (R142): PERM. -/
def vPerm : Nat := 1
/-- INVALID. -/
def vInv : Nat := 2
/-- OVF. -/
def vOvf : Nat := 4
/-- UNF. -/
def vUnf : Nat := 8
/-- SAT. -/
def vSat : Nat := 16

/-- Bits and flags of a rounded float result. -/
def fpOut (r : Rounded) : Nat × Nat := (r.bits, flagIf r.inv vInv + flagIf r.ovf vOvf + flagIf r.unf vUnf)
/-- An exact integer saturated once into an element of `b` bits. -/
def intOut (b : Nat) (sgn : Bool) (v : Int) : Nat × Nat :=
  let r := clampInt b sgn v
  (unsignedOf b r.1, flagIf r.2 vSat)
/-- Bits and flags of an element converted at the drain (R88, R89). -/
def drainFlags (r : Rounded) : Nat × Nat := (r.bits, flagIf r.ovf fOutOvf + flagIf r.unf fOutUnf)

end Sys2Proof.Machine
end

