-- ==== Sys2Proof/Machine/ArrayMath.lean ====
section
/-! DEFINITION. The arithmetic of the matrix arrays (chapter 03): element formats, block sums, partials, witness checks,
banks, and the conversion at the drain. -/

namespace Sys2Proof.Machine

/-! ### Formats (R65, R66) -/

/-- Bits of an element of format code `f` (R65, R68). -/
def fmtBits (f : Nat) : Nat :=
  if f ≤ 1 then 16 else if f = 2 then 32 else if f = 6 then 4 else if f = 9 || f = 10 then 6 else if f = 11 then 4 else 8

/-- May the code stand in A_FMT or B_FMT (R65)? -/
def fmtInAB (f : Nat) : Bool := decide (f ≤ 11) && decide (f ≠ 2)

/-- May the code stand in C_FMT (R65)? -/
def fmtInC (f : Nat) : Bool := decide (f ≤ 4)

/-- Pairing class of an operand format (R66): 0 CB4, 1 FP8 and INT8, 2 MX, 3 BF16, 4 FP16. -/
def fmtClass (f : Nat) : Nat :=
  if f = 0 then 3 else if f = 1 then 4 else if f = 6 then 0 else if f ≤ 5 then 1 else 2

/-- The float path serves BF16 and FP16. -/
def floatPath (f : Nat) : Bool := decide (f ≤ 1)

/-- Is the format one with shared scales (R76)? -/
def isMx (f : Nat) : Bool := decide (7 ≤ f) && decide (f ≤ 11)

/-- The floating-point format behind a code. -/
def fmtOf (f : Nat) : Fmt :=
  match f with
  | 0 => bf16 | 1 => fp16 | 2 => fp32 | 3 => e4m3 | 4 => e5m2 | 7 => e4m3 | 8 => e5m2 | 9 => e2m3 | 10 => e3m2
  | _ => e2m1

/-- Element `k` of a row of packed elements of `w` bits (R68). -/
def packedAt (bs : List Byte) (w k : Nat) : Nat :=
  let b := k * w
  fieldAt bs (b / 8) (if w = 6 then 2 else ceilDiv w 8) / 2 ^ (b % 8) % 2 ^ w

/-- Signed byte. -/
def sbyte (n : Nat) : Int := signed 8 n

/-- An exact-path element in units of 2^−20; none when it is not finite (R69, R77). `tbl` is the table-pair image, `b`
tells the B operand. -/
def exactElem (f : Nat) (tbl : List Byte) (b : Bool) (x : Nat) : Option Int :=
  if f = 5 then some (sbyte x * 2 ^ 20)
  else if f = 6 then
    some (sbyte (fieldAt tbl ((if b then 0x30 else 0x20) + x) 1) * 2 ^ (20 - fieldAt tbl (if b then 2 else 1) 1))
  else
    let v := (fmtOf f).decode x
    if v.special then none else some (v.units (-20))

/-! ### Block sums of the exact path (R79, R81, R82) -/

/-- A block sum with the exponent of its scales, and whether an invalid operand entered it. -/
structure BSum where
  s   : Int
  e   : Int
  inv : Bool
  deriving DecidableEq, Repr

/-- One block sum: elements of a row of A and a column of B, their scale bytes; 127 means no scale. -/
def blockSum (a b : List (Option Int)) (sa sb : Nat) : BSum :=
  let ps := a.zip b
  { s := (ps.map fun p => match p with | (some x, some y) => x * y | _ => 0).sum,
    e := (sa : Int) - 127 + ((sb : Int) - 127) - 40,
    inv := sa = 255 || sb = 255 || ps.any fun p => p.1.isNone || p.2.isNone }

/-- `x × 2^e` rounded toward minus infinity, and whether a bit was discarded (R81). -/
def floorShift (x : Int) (e : Int) : Int × Bool :=
  if 0 ≤ e then (x * 2 ^ e.toNat, false)
  else
    let d : Int := ((2 ^ (-e).toNat : Nat) : Int)
    (x.fdiv d, decide (x.fmod d ≠ 0))

/-- Exponent of the window's LSB (R80). -/
def winLsb (anchor : Int) : Int := anchor - 62

/-- Clamp to the signed 64-bit range (R82). -/
def clamp64 (v : Int) : Int × Bool := clampInt 64 true v

/-- Add a value to a cell: sticky once saturated (R82, R83). -/
def Cell.addInt (c : Cell) (v : Int) : Cell :=
  if c.sat then c
  else
    let r := clamp64 (c.v + v)
    { c with v := r.1, sat := r.2 }

/-- Add a block sum to a cell of the exact path, and whether a bit was discarded. A contribution that a saturated cell
ignores counts too (DESIGN CHOICE, log entry 132). -/
def Cell.addBlock (anchor : Int) (c : Cell) (b : BSum) : Cell × Bool :=
  if b.inv then ({ c with inv := true }, false)
  else
    let r := floorShift b.s (b.e - winLsb anchor)
    (c.addInt r.1, r.2)

/-- The exact sum of block sums, aligned to the window and rounded down: one step of a witness cell (R91, R92). -/
def witnessStep (anchor : Int) (bs : List BSum) : Int :=
  let e0 := (bs.map (·.e)).foldl min 0
  (floorShift ((bs.map fun b => b.s * 2 ^ (b.e - e0).toNat).sum) (e0 - winLsb anchor)).1

/-! ### The float path (R84) -/

/-- FP32 bits of a cell. -/
def Cell.fp (c : Cell) : FV := fp32.decode (c.v.toNat)

/-- A cell that holds FP32 bits. -/
def fpCell (b : Nat) : Cell := { v := (b : Int), sat := false, inv := false }

/-- The exact sum of the products of a group (R84): in order, so that a zero takes the sign that R84 gives it. -/
def groupSum : List (FV × FV) → FV
  | [] => .fin false 0 0
  | [p] => (p.1.mul p.2).1
  | p :: ps => ((p.1.mul p.2).1.add (groupSum ps)).1

/-- Cut a list into pieces of 32; the last may be shorter. -/
def by32 {α : Type} (l : List α) : Nat → List (List α)
  | 0 => []
  | n + 1 => if l.isEmpty then [] else l.take 32 :: by32 (l.drop 32) n

/-- An FP32 partial over groups, each total rounded once; the first group gives the starting value. Overflow and NaN
are reported. -/
def floatPartial (k : Rnd) : Option FV → List FV → FV × Bool
  | acc, [] => (acc.getD (.fin false 0 0), false)
  | acc, g :: gs =>
    let x := match acc with | none => g | some p => (p.add g).1
    let r := fp32.round k false x
    let t := floatPartial k (some (fp32.decode r.bits)) gs
    (t.1, r.ovf || t.2)

/-! ### A billet's outcome -/

/-- What a billet drains: its elements, its flags (R89), and where its witnesses disagreed. -/
structure Drained where
  cells : List Cell
  flags : Nat
  badRows : List Nat
  badCols : List Nat
  deriving DecidableEq, Repr

/-- The value that a disturbance leaves at a row and column, if one does (R42). -/
def fxAt (fx : List CellFx) (r c : Nat) : Option (BitVec 64) :=
  (fx.find? fun x => decide (x.row.val = r) && decide (x.col.val = c)).map (·.value)

/-- Outcome of one line's check: passes, passes under the allowance, skipped, or mismatch. -/
inductive WitRes where
  | pass | tol | skip | bad
  deriving DecidableEq, Repr

/-- The check of R92 on a row or column of the exact path. -/
def exactCheck (cells : List Cell) (w : Int) (lossy noSum : Bool) (nb : Nat) : WitRes :=
  if noSum || cells.any (fun c => c.inv || c.sat) then .skip
  else
    let d := w - (cells.map (·.v)).sum
    if !lossy then (if d = 0 then .pass else .bad)
    else if 0 ≤ d ∧ d ≤ 127 * nb then .tol else .bad

/-- The check of R93 on a row or column of the float path: witness cell, magnitude lane and groups. -/
def floatCheck (cells : List Cell) (w t : FV) (noSum : Bool) (g : Nat) : WitRes :=
  if noSum || w.special || t.special || cells.any (fun c => c.fp.special) then .skip
  else
    let sum := cells.foldl (fun a c => (a.add c.fp).1) (FV.fin false 0 0)
    let d := (w.add sum.flip).1.abs
    let tau := ((FV.fin false (2 * g + 2) (-24)).mul t).1.add (.fin false 1 (-100))
    if tau.1.lt d then .bad else .pass

/-- What a cell of the exact path has come to: its value, whether a bit was discarded, and whether it saturated before an
invalid operand entered. -/
structure Sum where
  cell  : Cell
  lossy : Bool
  ovf   : Bool
  deriving DecidableEq, Repr

/-- Add block sums in order (R81, R82): bits of valid blocks count as discarded in a tagged element too; a saturation counts
while no invalid operand has entered, for what is summed after that is not stated (log entry 126). -/
def blockSums (anchor : Int) (bs : List BSum) : Sum :=
  bs.foldl (fun x b =>
    let r := x.cell.addBlock anchor b
    { cell := r.1, lossy := x.lossy || r.2, ovf := x.ovf || (r.1.sat && !r.1.inv) })
    { cell := Cell.zero, lossy := false, ovf := false }

/-- The exact path of one billet: `a` and `b` hold 128 rows and columns, each cut into blocks of 32 elements; `sa` and
`sb` their scale bytes by block; `vm` and `vn` are how many rows and columns lie within C: the scales of lines beyond it
are left out of the comparison of R94 (DESIGN CHOICE, log entry 133). -/
def exactBillet (anchor : Int) (a b : List (List (List (Option Int)))) (sa sb : List (List Nat)) (mx : Bool)
    (vm vn : Nat) (fx : List CellFx) : Drained :=
  let nb := (a.headD []).length
  let sums : List (List (List BSum)) := (a.zip sa).map fun r => (b.zip sb).map fun c =>
    ((r.1.zip r.2).zip (c.1.zip c.2)).map fun p => blockSum p.1.1 p.2.1 p.1.2 p.2.2
  let raw : List (List Sum) := sums.map fun r => r.map (blockSums anchor)
  let hit : List (List Cell) := raw.zipIdx.map fun r => r.1.zipIdx.map fun c =>
    match fxAt fx r.2 c.2 with
    | some v => { c.1.cell with v := v.toInt }
    | none => c.1.cell
  let colsOf {α : Type} (l : List (List α)) (j : Nat) : List α := l.filterMap fun r => r[j]?
  let wit (ls : List (List BSum)) : Int := ((List.range nb).map fun i => witnessStep anchor (ls.filterMap (·[i]?))).sum
  let wide (s : List (List Nat)) : Bool := mx && (List.range nb).any fun i =>
    let v := s.filterMap (·[i]?)
    decide (v.foldl min 255 + 48 < v.foldl max 0)
  let rowRes := (List.range 128).map fun i =>
    let w := match fxAt fx i 128 with | some v => v.toInt | none => wit (sums.getD i [])
    exactCheck (hit.getD i []) w ((raw.getD i []).any (·.lossy)) (wide (sb.take vn)) nb
  let colRes := (List.range 128).map fun j =>
    let w := match fxAt fx 128 j with | some v => v.toInt | none => wit (colsOf sums j)
    exactCheck (colsOf hit j) w ((colsOf raw j).any (·.lossy)) (wide (sa.take vm)) nb
  let all := rowRes ++ colRes
  let cells := hit.flatten
  { cells := cells,
    flags := flagIf (raw.any fun r => r.any (·.lossy)) fPrec + flagIf (raw.any fun r => r.any (·.ovf)) fAccOvf +
      flagIf (cells.any (·.inv)) fInvalid + flagIf (all.contains .skip) fWitSkip + flagIf (all.contains .tol) fWitTol,
    badRows := (List.range 128).filter fun i => rowRes[i]? = some .bad,
    badCols := (List.range 128).filter fun j => colRes[j]? = some .bad }

/-- Add the flags that the sums of elements with an invalid tag set behind the invalid operand, which are free (R77, R81, R82,
R89; log entry 126). -/
def Drained.openFlags (d : Drained) (a b : List Byte) : Drained :=
  { d with flags := d.flags ||| (if d.flags.testBit 4 then Config.invalidFlags a b % 4 else 0) }

/-- The exact sum of values, rounded once to FP32 (R91). -/
def sumFp32 (k : Rnd) (l : List FV) : FV :=
  fp32.decode (fp32.round k false (l.foldl (fun a x => (a.add x).1) (FV.fin true 0 0))).bits

/-- The float path of one billet: 128 rows of A and 128 columns of B as values. A flag that only elements beyond C's edge
raise counts (DESIGN CHOICE, log entry 134). -/
def floatBillet (a b : List (List FV)) (fx : List CellFx) : Drained :=
  let n := (a.headD []).length
  let g := ceilDiv n 32
  let groups (l : List (FV × FV)) : List FV := (by32 l (g + 1)).map groupSum
  let raw : List (List (FV × Bool)) := a.map fun r => b.map fun c => floatPartial .near none (groups (r.zip c))
  let hit : List (List Cell) := raw.zipIdx.map fun r => r.1.zipIdx.map fun c =>
    match fxAt fx r.2 c.2 with
    | some v => fpCell (v.toNat % 2 ^ 32)
    | none => fpCell (fp32.round .near false c.1.1).bits
  let colsOf {α : Type} (l : List (List α)) (j : Nat) : List α := l.filterMap fun r => r[j]?
  let across (l : List (List FV)) (mag : Bool) : List FV := (List.range n).map fun k =>
    let v := l.filterMap (·[k]?)
    if mag then sumFp32 .up (v.map FV.abs) else sumFp32 .near v
  let check (line : List FV) (sums mags : List FV) (cells : List Cell) (w : Option (BitVec 64)) : WitRes :=
    let x := match w with
      | some v => fp32.decode (v.toNat % 2 ^ 32)
      | none => (floatPartial .near none (groups (line.zip sums))).1
    let t := (floatPartial .up none (groups ((line.map FV.abs).zip mags))).1
    floatCheck cells x t (sums.any FV.special || mags.any FV.special) g
  let bs := across b false
  let bm := across b true
  let as' := across a false
  let am := across a true
  let rowRes := (List.range 128).map fun i => check (a.getD i []) bs bm (hit.getD i []) (fxAt fx i 128)
  let colRes := (List.range 128).map fun j => check (b.getD j []) as' am (colsOf hit j) (fxAt fx 128 j)
  let all := rowRes ++ colRes
  let cells := hit.flatten
  { cells := cells,
    flags := flagIf (raw.any fun r => r.any (·.2)) fAccOvf + flagIf (cells.any fun c => c.fp.isNan) fInvalid +
      flagIf (all.contains .skip) fWitSkip,
    badRows := (List.range 128).filter fun i => rowRes[i]? = some .bad,
    badCols := (List.range 128).filter fun j => colRes[j]? = some .bad }

/-! ### Banks (R83, R85) -/

/-- Add a partial's element into a bank's: as integers, or in FP32 with one rounding; overflow and NaN are reported. -/
def Cell.join (float : Bool) (x y : Cell) : Cell × Nat :=
  if float then
    let r := fp32.round .near false (x.fp.add y.fp).1
    (fpCell r.bits, flagIf r.ovf fAccOvf + flagIf (fp32.decode r.bits).isNan fInvalid)
  else
    let inv := x.inv || y.inv
    if x.sat then ({ x with inv := inv }, 0)
    else if y.sat then ({ y with inv := inv }, 0)
    else
      let r := { x.addInt y.v with inv := inv }
      (r, flagIf (r.sat && !inv) fAccOvf)

/-- The elements of a bank as a list, row by row. -/
def bankList (m : SMap Cell) : List Cell := (List.range 16384).map fun i => SMap.get (fun _ => Cell.zero) m i

/-- A bank from its elements. -/
def bankOf (l : List Cell) : SMap Cell :=
  l.zipIdx.filterMap fun p => if p.1 = Cell.zero then none else some (p.2, p.1)

/-- Add a partial into a bank's elements, and the flags that this sets. -/
def joinBanks (float : Bool) (x y : SMap Cell) : SMap Cell × Nat :=
  let r := ((bankList x).zip (bankList y)).map fun p => p.1.join float p.2
  (bankOf (r.map (·.1)), (r.map (·.2)).foldl (· ||| ·) 0)

/-! ### The drain (R86–R88) -/

/-- Convert an element to C_FMT `f`: its bits, and the flags. -/
def drainCell (f : Nat) (float : Bool) (anchor : Int) (k : Rnd) (sat : Bool) (c : Cell) : Nat × Nat :=
  let x : FV := if float then c.fp else if c.inv then .nan false else FV.ofInt c.v (winLsb anchor) false
  let r := (fmtOf f).round k sat x
  drainFlags r

/-- The 16 random bits for element `i` when RND selects stochastic rounding: drawn from the free values (R87). -/
def roundOf (rnd : Bool) (ctr i : Nat) : Rnd :=
  if rnd then .stoch ((Config.freeBits (ctr + i)).toNat % 65536) else .near

/-- The drained block: bytes row by row, and the flags of the conversion. -/
def drainBlock (f : Nat) (float : Bool) (anchor : Int) (rnd sat : Bool) (ctr : Nat) (m : SMap Cell) :
    SMap Byte × Nat :=
  let r := (bankList m).zipIdx.map fun p => drainCell f float anchor (roundOf rnd ctr p.2) sat p.1
  let bs := r.flatMap fun x => leBytes x.1 (fmtBits f / 8)
  (bs.zipIdx.filterMap fun p => if p.1 = 0 then none else some (p.2, p.1), (r.map (·.2)).foldl (· ||| ·) 0)

end Sys2Proof.Machine
end

