-- ==== Sys2Proof/Machine/Operands.lean ====
section
/-! DEFINITION. The operand forms of descriptors (R154–R156, R196, R236–R238, R295, R382, R385): every body field by its
own name. Words 3 to 7 of a descriptor are W0 to W4. -/

namespace Sys2Proof.Machine

/-- Bits [hi:lo] of W`i`. -/
def Op.w (o : Op) (i hi lo : Nat) : Nat := bits (o.word (3 + i)) hi lo

/-! ### MATMUL and VECTOR (R154, R155) -/

/-- A_ADDR in bytes. -/
def Op.aAddr (o : Op) : Nat := o.w 0 63 31 * 128
/-- M. -/
def Op.m (o : Op) : Nat := o.w 0 30 11 + 1
/-- A_FMT. -/
def Op.aFmt (o : Op) : Nat := o.w 0 10 7
/-- B_FMT. -/
def Op.bFmt (o : Op) : Nat := o.w 0 6 3
/-- B_ADDR in bytes. -/
def Op.bAddr (o : Op) : Nat := o.w 1 63 31 * 128
/-- N. -/
def Op.n (o : Op) : Nat := o.w 1 30 11 + 1
/-- C_FMT. -/
def Op.cFmt (o : Op) : Nat := o.w 1 10 7
/-- TBL_SLOT. -/
def Op.tblSlot (o : Op) : Nat := o.w 1 6 5
/-- RND: stochastic? -/
def Op.rnd (o : Op) : Bool := o.w 1 4 4 = 1
/-- OUT_SAT. -/
def Op.outSat (o : Op) : Bool := o.w 1 3 3 = 1
/-- EPI. -/
def Op.epi (o : Op) : Bool := o.w 1 2 2 = 1
/-- C_ADDR in bytes. -/
def Op.cAddr (o : Op) : Nat := o.w 2 63 31 * 128
/-- K. -/
def Op.k (o : Op) : Nat := o.w 2 30 11 + 1
/-- ANCHOR. -/
def Op.anchor (o : Op) : Int := signed 8 (o.w 2 10 3)
/-- LDA in bytes. -/
def Op.lda (o : Op) : Nat := o.w 3 63 48 * 128
/-- LDB in bytes. -/
def Op.ldb (o : Op) : Nat := o.w 3 47 32 * 128
/-- LDC in bytes. -/
def Op.ldc (o : Op) : Nat := o.w 3 31 16 * 128
/-- EPI_ADDR in bytes. -/
def Op.epiAddr (o : Op) : Nat := o.w 4 63 32 * 256
/-- SCALE_ADDR in bytes. -/
def Op.scaleAddr (o : Op) : Nat := o.w 4 31 0 * 256

/-- Is it a matrix or vector operation? -/
def Op.isMatrix (o : Op) : Bool := o.kind = 1 || o.kind = 2
/-- Does it run an epilogue kernel? -/
def Op.hasKernel (o : Op) : Bool := o.kind = 2 || (o.kind = 1 && o.epi)
/-- Does it name a table-pair slot (R72)? -/
def Op.usesTbl (o : Op) : Bool := o.kind = 1 && o.aFmt = 6

/-- Rows of output blocks (R29). -/
def Op.rows (o : Op) : Nat := ceilDiv o.m 128
/-- Columns of output blocks. -/
def Op.cols (o : Op) : Nat := ceilDiv o.n 128
/-- Spans (R29); a VECTOR has the one span index 0 (R155). -/
def Op.spans (o : Op) : Nat := if o.kind = 2 then 1 else ceilDiv o.k 2048
/-- Length of every span but the last. -/
def Op.spanLen (o : Op) : Nat := 32 * ceilDiv o.k (32 * o.spans)
/-- First K position of span `i`, and its length. -/
def Op.spanAt (o : Op) (i : Nat) : Nat × Nat := (i * o.spanLen, min o.spanLen (o.k - i * o.spanLen))

/-- Bytes between the scale rows of an MX operand: R of R154. -/
def Op.scaleRow (o : Op) : Nat := 128 * ceilDiv (ceilDiv o.k 32) 128
/-- M' of R154. -/
def Op.scaleRows (o : Op) : Nat := 128 * ceilDiv o.m 128

/-- Billet identity (R31). -/
def Op.ident (o : Op) (row col span : Nat) : Nat :=
  o.tag % 2 ^ 16 * 2 ^ 48 + row % 2 ^ 16 * 2 ^ 32 + col % 2 ^ 16 * 2 ^ 16 + span % 2 ^ 16

/-! ### Loads and decisions (R156) -/

/-- SLOT. -/
def Op.slot (o : Op) : Nat := o.w 0 43 40
/-- SRC of a load. -/
def Op.loadSrc (o : Op) : Nat := o.w 0 39 0
/-- THRESHOLD. -/
def Op.threshold (o : Op) : Nat := o.w 0 63 0
/-- RESET. -/
def Op.accReset (o : Op) : Bool := o.w 1 24 24 = 1
/-- SKIP. -/
def Op.skipCount (o : Op) : Nat := o.w 1 23 16
/-- CMP. -/
def Op.cmp (o : Op) : Nat := o.w 1 10 8
/-- REDUCE. -/
def Op.reduce (o : Op) : Nat := o.w 1 6 4
/-- ACC. -/
def Op.acc (o : Op) : Nat := o.w 1 2 0

/-! ### Gather and scatter (R196) -/

/-- TABLE in bytes. -/
def Op.table (o : Op) : Nat := o.w 0 63 29 * 32
/-- Granules per row. -/
def Op.rowG (o : Op) : Nat := o.w 0 28 24 + 1
/-- IDX_W. -/
def Op.idxW (o : Op) : Nat := o.w 0 23 22
/-- ELEM of a SCATTER_ADD. -/
def Op.whElem (o : Op) : Nat := o.w 0 21 20
/-- OOB. -/
def Op.oob (o : Op) : Bool := o.w 0 0 0 = 1
/-- DENSE in bytes. -/
def Op.dense (o : Op) : Nat := o.w 1 63 29 * 32
/-- IDX in bytes. -/
def Op.idx (o : Op) : Nat := o.w 2 63 27 * 8
/-- COUNT of indices. -/
def Op.idxCount (o : Op) : Nat := o.w 3 63 32
/-- ROWS of the table. -/
def Op.tblRows (o : Op) : Nat := o.w 3 31 0
/-- Bytes of an index. -/
def Op.idxBytes (o : Op) : Nat := if o.idxW = 0 then 4 else 8

/-! ### DMA (R236–R238) -/

/-- SRC, or the pattern of a FILL. -/
def Op.src (o : Op) : Nat := o.w 0 63 0
/-- DST. -/
def Op.dst (o : Op) : Nat := o.w 1 63 0
/-- SRC_H. -/
def Op.srcH (o : Op) : Bool := o.w 2 63 63 = 1
/-- DST_H. -/
def Op.dstH (o : Op) : Bool := o.w 2 62 62 = 1
/-- SRC_PI. -/
def Op.srcPi (o : Op) : Nat := o.w 2 61 60
/-- DST_PI. -/
def Op.dstPi (o : Op) : Nat := o.w 2 59 58
/-- MEAS. -/
def Op.meas (o : Op) : Bool := o.w 2 57 57 = 1 && (o.kind = 0x10 || o.kind = 0x11)
/-- LEN. -/
def Op.len (o : Op) : Nat := o.w 2 39 0
/-- SRC_STRIDE. -/
def Op.srcStride (o : Op) : Nat := o.w 3 63 32
/-- DST_STRIDE. -/
def Op.dstStride (o : Op) : Nat := o.w 3 31 0
/-- ROWS; one for the other kinds. -/
def Op.dmaRows (o : Op) : Nat := if o.kind = 0x11 then o.w 4 63 32 else 1
/-- HOST of an ATOMIC. -/
def Op.atHost (o : Op) : Bool := o.w 3 63 63 = 1
/-- PI of an ATOMIC. -/
def Op.atPi (o : Op) : Nat := o.w 3 62 61
/-- OP of an ATOMIC. -/
def Op.atOp (o : Op) : Nat := o.w 3 60 57
/-- WIDTH of an ATOMIC. -/
def Op.atWidth (o : Op) : Nat := o.w 3 56 55

/-- Is it a DMA operation that an engine serves? -/
def Op.isDma (o : Op) : Bool := decide (0x10 ≤ o.kind) && decide (o.kind ≤ 0x13)
/-- Bytes that a copy or fill writes in all. -/
def Op.total (o : Op) : Nat := o.len * o.dmaRows
/-- Source address of byte `i` in destination order (R236). -/
def Op.srcAt (o : Op) (i : Nat) : Nat := if o.kind = 0x11 then o.src + i / o.len * o.srcStride + i % o.len else o.src + i
/-- Destination address of byte `i`. -/
def Op.dstAt (o : Op) (i : Nat) : Nat := if o.kind = 0x11 then o.dst + i / o.len * o.dstStride + i % o.len else o.dst + i

/-! ### Glue-up (R295) -/

/-- SRC or DST of a glue-up operation. -/
def Op.guAddr (o : Op) : Nat := o.w 0 39 0
/-- ROUND. -/
def Op.guRound (o : Op) : Nat := o.w 1 63 32
/-- POOL. -/
def Op.guPool (o : Op) : Nat := o.w 1 5 0

/-! ### Collectives (R385) -/

/-- COUNT. -/
def Op.collCount (o : Op) : Nat := o.w 2 63 32
/-- ELEM. -/
def Op.collElem (o : Op) : Nat := o.w 2 31 30
/-- OP. -/
def Op.collOp (o : Op) : Nat := o.w 2 29 28
/-- ROOT. -/
def Op.collRoot (o : Op) : Nat := o.w 2 27 22
/-- GROUP. -/
def Op.group (o : Op) : Nat := o.w 3 39 0
/-- CSEQ. -/
def Op.cseq (o : Op) : Nat := o.w 4 63 32
/-- TIMEOUT_MS. -/
def Op.timeoutMs (o : Op) : Nat := o.w 4 31 16
/-- Is it a collective (R385)? -/
def Op.isColl (o : Op) : Bool := decide (0x23 ≤ o.kind) && decide (o.kind ≤ 0x26)
/-- Bytes of a collective's element. -/
def elemBytes (e : Nat) : Nat := if e = 1 then 2 else 4

/-! ### The epilogue parameter block (R117) -/

/-- KSLOT of a parameter block. -/
def epiSlot (b : List Byte) : Nat := fieldAt b 1 1
/-- SIDE_FMT: N-side and M-side. -/
def epiSides (b : List Byte) : Nat × Nat := (fieldAt b 2 1 % 4, fieldAt b 2 1 / 4 % 4)
/-- Is the block well formed: VERSION, formats, reserved bytes (R117)? -/
def epiOk (b : List Byte) : Bool :=
  decide (fieldAt b 0 1 = 1) && decide (fieldAt b 1 1 < 16) && decide (fieldAt b 2 1 < 16) &&
    decide ((epiSides b).1 < 3) && decide ((epiSides b).2 < 3) && allZero (slice b 3 5) && allZero (slice b 0x38 8)
/-- Bytes of a side vector's element. -/
def sideBytes (f : Nat) : Nat := if f = 1 then 4 else if f = 2 then 2 else 0

end Sys2Proof.Machine
end

