-- ==== Sys2Proof/Machine/Complete.lean ====
section
/-! DEFINITION. The completion of one operation (R164): record, signal, vector, counts. Every way in which an operation
of a running context ends goes through `finishOp`. -/

namespace Sys2Proof.Machine

/-- Fold a record into its accumulator (R130). -/
def foldRecord (a : Acc) (r : Summary) : Acc :=
  let val (n : Nat) : FV :=
    if r.typ = 0 then fp32.decode n else if r.typ = 1 then FV.ofInt (signed 32 n) 0 false else FV.ofInt (n : Int) 0 false
  let x := val r.value
  let sum := (fp64.result .near false ((fp64.decode a.sum).add x)).bits
  match a.typ with
  | none => { typ := some r.typ, count := 1, nz := b2n (!x.isZero), sum := (fp64.result .near false (x, false)).bits, lo := r.value,
              loId := r.ident, hi := r.value, hiId := r.ident, nan := x.isNan, mixed := a.mixed }
  | some t =>
    if t ≠ r.typ then { a with mixed := true }
    else
      let lower := x.below (val a.lo)
      let higher := (val a.hi).below x
      { a with count := a.count + 1, nz := a.nz + b2n (!x.isZero), sum := sum,
               lo := if lower then r.value else a.lo, loId := if lower then r.ident else a.loId,
               hi := if higher then r.value else a.hi, hiId := if higher then r.ident else a.hiId,
               nan := a.nan || x.isNan }

/-- Fold an operation's released summaries that are still in the intakes (R131). -/
def foldDue (c q : Nat) (s : State) : State :=
  match s.op? c q with
  | none => s
  | some o =>
    let due (r : Summary) : Bool := decide (r.ctx = c) && decide (r.ident / 2 ^ 48 = o.tag % 2 ^ 16)
    if !o.hasKernel then s
    else each (List.range 8) (fun g s =>
      let rs := (s.group g).intake.filter due
      if rs.isEmpty then s
      else s.onGroup g fun x =>
        { x with intake := x.intake.filter fun r => !due r,
                 accs := rs.foldl (fun m r => SMap.upd (fun _ => Acc.init) m (8 * r.ctx + r.tag / 8192) fun a => foldRecord a r) x.accs }) s

/-- Steps 3 and 4 of R164 and what follows: the signal, the vector, the counts, and the trace event of R470. -/
def afterRecord (c : Nat) (o : Op) (r : Result) (s : State) : State × Option MemErr :=
  let s := dropOp c o.seq s
  let s := if isErr r.status then s.onCtx c fun x => { x with errSeqs := o.seq :: x.errSeqs } else s
  let s := signalOp (o.word 2) r.status s
  let s := if o.flags.testBit 0 || (o.flags.testBit 4 && isErr r.status) then raiseVector (c + 1) o.vec s else s
  putHubWord c (traceEvent 0xC002 (srcCtx c) (r.status + 256 * o.kind) (some c) s)

/-- Complete an operation whose work has ended (R164). A record in host memory waits for its translation and its tokens; a failing
access to device memory is reported. -/
def finishOp (c q : Nat) (s : State) : State × Option MemErr :=
  match s.op? c q with
  | none => (s, none)
  | some o =>
    match o.done with
    | none => (s, none)
    | some r =>
      if s.cmplHost c then
        match ringXlat c (s.cmplAddr c (s.ctx c).cmplTail) true s with
        | (none, s) => (s, none)
        | (some a, s) =>
          match access (s.schedPayer c o.seq 0) 2 [] [] s with
          | (false, s) => (s, none)
          | (true, s) =>
            let s := s.out (.hostWrite c 0 a (s.nextRecord c o r))
            afterRecord c o r (s.onCtx c fun x => { x with cmplTail := (x.cmplTail + 1) % 2 ^ 32 })
      else
        match putRecord c o r s with
        | (s, some e) => (s, some e)
        | (s, none) => afterRecord c o r s

/-- An operation that runs nothing, or whose work has ended, completes with this result. -/
def completeWith (c q st detail value : Nat) (s : State) : State := (finishOp c q (endOp c q st detail value s)).1

/-- Is an operation one that a collective or glue-up engine has taken over (R177)? -/
def Op.handed (o : Op) : Bool := o.started && decide (0x20 ≤ o.kind) && decide (o.kind ≤ 0x2F)

end Sys2Proof.Machine
end

