-- ==== Sys2Proof/Machine/VxeForm.lean ====
section
/-! DEFINITION. The instruction forms of the vector engine (R102–R105, R111) and the checks of table-pair, kernel and
curve images (R71, R115, R127). -/

namespace Sys2Proof.Machine

/-- The operand fields of an instruction whatever its form: 0 S, 1 I, 2 L. A form I names its first source in VD. -/
structure VArgs where
  form : Nat
  vd   : Nat
  vs1  : Nat
  vs2  : Nat
  vs3  : Nat
  t    : Nat
  mask : Nat
  isrc : Nat
  imm  : Nat
  deriving DecidableEq, Repr

/-- The fields of a form. -/
def vargs : VForm → VArgs
  | .s vd a b c t m =>
    { form := 0, vd := vd.val, vs1 := a.val, vs2 := b.val, vs3 := c.val, t := t.val, mask := m.val, isrc := 0, imm := 0 }
  | .i vd t m imm =>
    { form := 1, vd := vd.val, vs1 := vd.val, vs2 := 0, vs3 := 0, t := t.val, mask := m.val, isrc := 0,
      imm := imm.toNat }
  | .l vd a b t m k imm =>
    { form := 2, vd := vd.val, vs1 := a.val, vs2 := b.val, vs3 := 0, t := t.val, mask := m.val, isrc := k.val,
      imm := imm.toNat }

/-- Words of an instruction. -/
def VArgs.len (a : VArgs) : Nat := if a.form = 2 then 2 else 1

/-- An instruction word, or two, taken apart (R102): opcode, fields, and whether the form's reserved bits are zero. -/
def vdecode (w0 w1 : Nat) : Nat × VArgs × Bool :=
  let op := bits w0 29 24
  if bit w0 31 then
    (op, { form := 2, vd := bits w0 23 19, vs1 := bits w0 18 14, vs2 := bits w0 13 9, vs3 := 0, t := bits w0 8 7,
           mask := bits w0 6 4, isrc := bits w0 3 2, imm := w1 }, !bit w0 30 && decide (bits w0 1 0 = 0))
  else if bit w0 30 then
    (op, { form := 1, vd := bits w0 23 19, vs1 := bits w0 23 19, vs2 := 0, vs3 := 0, t := bits w0 18 17,
           mask := bits w0 16 16, isrc := 0, imm := bits w0 15 0 }, true)
  else
    (op, { form := 0, vd := bits w0 23 19, vs1 := bits w0 18 14, vs2 := bits w0 13 9, vs3 := bits w0 8 4,
           t := bits w0 3 2, mask := bits w0 1 0, isrc := 0, imm := 0 }, true)

/-- T as the element type of arithmetic at width code `w`: no reserved type, no float at width 8 (R103). -/
def VArgs.typeOk (a : VArgs) (w : Nat) : Bool := decide (a.t ≤ 2) && !(decide (a.t = 0) && decide (w = 2))

/-- ISRC, and the parameter number that stands in place of an immediate (R103). -/
def VArgs.srcOk (a : VArgs) : Bool := decide (a.isrc = 0) || (decide (a.isrc = 1) && decide (a.imm < 8))

/-- A broadcast immediate at width code `w` (R104). -/
def VArgs.immOk (a : VArgs) (w : Nat) : Bool :=
  if a.form = 1 then !(decide (w = 2) && decide (256 ≤ a.imm))
  else if a.form = 2 then
    a.srcOk && (decide (a.isrc = 1) || decide (w = 0) || decide (a.imm < (if w = 1 then 65536 else 256)))
  else true

/-- The unused source fields of a two-source operation in each form are zero. -/
def VArgs.two (a : VArgs) : Bool := decide (a.vs3 = 0) && (decide (a.form ≠ 2) || decide (a.vs2 = 0))

/-- Is the instruction one that a kernel may hold at width code `w` (R103–R105, R115)? -/
def formOk (op : Nat) (a : VArgs) (w : Nat) : Bool :=
  let s := decide (a.form = 0)
  let l := decide (a.form = 2)
  let noT := decide (a.t = 0)
  let noM := decide (a.mask = 0)
  let masks := s && noT && noM && decide (a.vs3 = 0) && decide (a.vs1 < 8)
  match op with
  | 0x00 | 0x31 | 0x3F => s && noT && noM && decide (a.vd = 0 ∧ a.vs1 = 0 ∧ a.vs2 = 0 ∧ a.vs3 = 0)
  | 0x01 | 0x02 | 0x04 | 0x05 => a.typeOk w && a.immOk w && a.two
  | 0x03 => decide (a.form ≠ 1) && a.typeOk w && a.immOk w
  | 0x06 => decide (a.form ≠ 1) && noT && a.immOk w && a.two
  | 0x08 | 0x09 | 0x0A => a.typeOk w && a.immOk w && a.two && decide (1 ≤ a.vd) && decide (a.vd ≤ 7)
  | 0x0B => s && a.typeOk w && decide (a.vs3 = 0) && decide (1 ≤ a.vd) && decide (a.vd ≤ 7)
  | 0x10 | 0x11 | 0x12 => masks && decide (a.vd < 8) && decide (a.vs2 < 8)
  | 0x13 => masks && decide (a.vd < 8) && decide (a.vs2 = 0)
  | 0x14 => masks && decide (a.vs2 = 0)
  | 0x18 => l && noT && decide (a.vs2 = 0) && a.srcOk &&
      (decide (a.isrc = 1) || (decide (a.imm < 1024) && decide (bits a.imm 3 0 ≤ 8) && decide (bits a.imm 7 4 ≤ 8)))
  | 0x19 => s && noT && decide (a.vs2 = 0) && decide (a.vs3 = 0)
  | 0x1A => s && noT && decide (a.vs1 = 0 ∧ a.vs2 = 0 ∧ a.vs3 = 0)
  | 0x1C => s && noT && decide (a.vs3 = 0) && !(decide (w = 2) && decide (a.vs2 % 2 = 1))
  | 0x1D => s && noT && decide (a.vs3 = 0) && decide (a.vs2 < 16) && decide (w ≠ 2)
  | 0x20 | 0x21 => l && decide (a.vs1 < 4) && decide (a.vs2 = 0) && a.srcOk
  | 0x22 => l && noT && noM && decide (a.vd < 4) && decide (a.vs1 = 0 ∧ a.vs2 = 0) && a.srcOk &&
      decide (a.imm < 2 ^ 20)
  | 0x28 => l && noT && noM && decide (a.vs1 = 0 ∧ a.vs2 = 0) &&
      (if a.isrc = 0 then decide (a.vd = 0) else decide (a.isrc = 1) && decide (a.vd < 8) && decide (a.imm % 65536 = 0))
  | 0x30 => decide (a.form ≠ 0) && noT && noM && decide (bits a.imm 1 0 ≠ 3) &&
      (if a.form = 1 then decide (a.vd = 0) && decide (bits a.imm 5 3 = 0)
       else decide (a.vs1 = 0 ∧ a.vs2 = 0) &&
         (if a.isrc = 0 then decide (a.vd = 0) && decide (bits a.imm 5 3 = 0) && decide (a.imm < 65536)
          else decide (a.isrc = 1) && decide (a.vd < 8) && decide (a.imm < 8)))
  | 0x32 => l && noT && noM && decide (a.vd = 0) && decide (a.vs1 < 4) && decide (a.vs2 = 0) && a.srcOk &&
      (decide (a.isrc = 1) || decide (a.imm < 4))
  | 0x34 => decide (a.form = 1) && noM && decide (a.t ≤ 2)
  | _ => false

/-- An instruction of a kernel with the word that it starts in. -/
structure VInst where
  pos : Nat
  op  : Nat
  a   : VArgs
  rsv : Bool
  deriving DecidableEq, Repr

/-- Take the words from `pos` on apart, at most `fuel` instructions; none where a form L starts in the last word. -/
def vparse (pos : Nat) : List Nat → Nat → Option (List VInst)
  | [], _ => some []
  | _, 0 => some []
  | w :: ws, fuel + 1 =>
    let d := vdecode w (ws.headD 0)
    if d.2.1.form = 2 then
      match ws with
      | [] => none
      | _ :: rest =>
        (vparse (pos + 2) rest fuel).map ({ pos := pos, op := d.1, a := d.2.1, rsv := d.2.2 } :: ·)
    else (vparse (pos + 1) ws fuel).map ({ pos := pos, op := d.1, a := d.2.1, rsv := d.2.2 } :: ·)

/-- The code words of a kernel image (R114). -/
def kernelWords (img : List Byte) : List Nat := (List.range (fieldAt img 2 2)).map fun i => fieldAt img (32 + 4 * i) 4

/-- W and FK that a SETVL leaves. -/
def setvlW (a : VArgs) : Nat × Nat := (bits a.imm 1 0, bits a.imm 2 2)

/-- An open loop of the check: the index of the instruction behind its body, and W and FK at its start. -/
abbrev OpenLoop := Nat × Nat × Nat

/-- Close the loops whose body ends before instruction `i`; none where one ends with another W or FK (R115). -/
def closeLoops (i w fk : Nat) : List OpenLoop → Option (List OpenLoop)
  | [] => some []
  | l :: ls => if l.1 = i then (if l.2 = (w, fk) then closeLoops i w fk ls else none) else some (l :: ls)

/-- The walk of R115 over a kernel's instructions: `n` in all, `i` the next; open loops, innermost first; WOUTs and SUMMs
so far; the curve slots declared. -/
def kernelWalk (n used : Nat) : List VInst → Nat → Nat → Nat → List OpenLoop → Nat → Nat → Bool
  | [], i, w, fk, ls, _, _ => (closeLoops i w fk ls) = some []
  | x :: xs, i, w, fk, ls, wouts, summs =>
    match closeLoops i w fk ls with
    | none => false
    | some ls =>
      let inLoop := !ls.isEmpty
      x.rsv && formOk x.op x.a w &&
        (decide (x.op ≠ 0x3F) || xs.isEmpty) && (!xs.isEmpty || decide (x.op = 0x3F)) &&
        (decide (x.op ≠ 0x1D) || used.testBit x.a.vs2) &&
        (decide (x.op ≠ 0x32) || (decide (wouts = 0) && !inLoop)) &&
        (decide (x.op ≠ 0x34) || (decide (summs < 4) && !inLoop && decide (wouts = 0))) &&
        (if x.op = 0x28 then
          let e := i + 1 + x.a.imm / 65536
          decide (e ≤ n) && decide (ls.length < 4) && (match ls with | [] => true | l :: _ => decide (e ≤ l.1)) &&
            kernelWalk n used xs (i + 1) w fk ((e, w, fk) :: ls) wouts summs
         else
          let k := if x.op = 0x30 then setvlW x.a else (w, fk)
          kernelWalk n used xs (i + 1) k.1 k.2 ls (wouts + b2n (decide (x.op = 0x32))) (summs + b2n (decide (x.op = 0x34))))

/-- Does a kernel image pass the checks of R115? The width in force at the first instruction is taken to be 32, that of a
tile's first invocation, although a later one begins with what the previous one left (DESIGN CHOICE, log entry 144). -/
def kernelOk (img : List Byte) : Bool :=
  let n := fieldAt img 2 2
  decide (fieldAt img 0 1 = 1) && decide (fieldAt img 1 1 ≤ 1) && decide (1 ≤ n) && decide (n ≤ 1024) &&
    allZero (slice img 10 22) && decide (fieldAt img 4 4 = crc32 (slice img 32 (4 * n))) &&
    match vparse 0 (kernelWords img) n with
    | none => false
    | some xs => kernelWalk xs.length (fieldAt img 8 2) xs 0 0 0 [] 0 0

/-- Does a table-pair image pass the checks of R71? -/
def tableOk (img : List Byte) : Bool :=
  decide (fieldAt img 0 1 = 1) && decide (fieldAt img 1 1 ≤ 15) && decide (fieldAt img 2 1 ≤ 15) &&
    decide (fieldAt img 3 1 = 0) && allZero (slice img 8 24) && decide (fieldAt img 4 4 = crc32 (slice img 32 544)) &&
    (List.range 256).all fun i =>
      let p := signed 8 (fieldAt img (0x20 + i / 16) 1) * signed 8 (fieldAt img (0x30 + i % 16) 1)
      decide (-2048 ≤ p) && decide (p ≤ 2047) && decide (signed 16 (fieldAt img (0x40 + 2 * i) 2) = p)

/-- Is a finite value 2^e exactly? -/
def FV.isPow2 : FV → Bool
  | .fin false m _ => decide (m ≠ 0) && decide (m = 2 ^ m.log2)
  | _ => false

/-- Does a curve image pass the checks of R127? -/
def curveOk (img : List Byte) : Bool :=
  let mode := fieldAt img 1 1
  let f (i : Nat) : FV := fp32.decode (fieldAt img i 4)
  decide (fieldAt img 0 1 = 1) && decide (mode ≤ 1) && decide (fieldAt img 3 1 = 0) && allZero (slice img 8 8) &&
    allZero (slice img 0x28 8) && decide (fieldAt img 4 4 = crc32 (slice img 16 3104)) &&
    ((List.range 6).all fun i => !(f (0x10 + 4 * i)).special) &&
    ((List.range 768).all fun i => !(f (0x30 + 4 * i)).special) &&
    (if mode = 0 then
      decide (fieldAt img 2 1 = 0) && (f 0x10).lt (f 0x14) && ((f 0x14).add (f 0x10).flip).1.isPow2
     else
      decide (1 ≤ fieldAt img 2 1) && decide (fieldAt img 2 1 ≤ 223) && decide (fieldAt img 0x10 4 = 0) &&
        decide (fieldAt img 0x14 4 = 0) && (f 0x1C).isZero && (f 0x24).isZero)

/-- Curve slots that a kernel image declares (R114). -/
def kernelCurves (img : List Byte) : List Nat := setBits 16 (fieldAt img 8 2)

end Sys2Proof.Machine
end

