-- ==== Sys2Proof/Machine/Image.lean ====
section
/-! DEFINITION. The fuses, the keys that they name, and the configuration image: its layout, the checks of the loader and
the choice that a bank passes (R402, R404, R411, R511–R521; the loader rules of chapters 05–10 and 12 that R521 names). -/

namespace Sys2Proof.Machine

/-! ### The fuses (R402) -/

/-- A byte of the fuses. -/
def State.otpByte (s : State) (a : Nat) : Byte := SMap.get (fun _ => 0) s.otp a
/-- Bytes of the fuses. -/
def State.otpBytes (s : State) (a n : Nat) : List Byte := (List.range n).map fun i => s.otpByte (a + i)
/-- A field of the fuses. -/
def State.otpNat (s : State) (a n : Nat) : Nat := leNat (s.otpBytes a n)
/-- Fuse bytes: a bit that is set stays set. -/
def fuse (a : Nat) : List Byte → State → State
  | [], s => s
  | b :: bs, s => fuse (a + 1) bs { s with otp := SMap.put (fun _ => 0) s.otp a (s.otpByte a ||| b) }
/-- SERIAL. -/
def State.serial (s : State) : Nat := s.otpNat 0x140 8
/-- Installer slot `i`. -/
def State.installerSlot (s : State) (i : Nat) : List Byte := s.otpBytes (0x40 + 48 * i) 48
/-- The slot of the current installer: the highest that holds a KEY_ID (R411). -/
def State.curSlot (s : State) : Option Nat := [3, 2, 1, 0].find? fun i => !allZero (s.installerSlot i)
/-- KEY_ID of the current installer, if the device is claimed. -/
def State.installer (s : State) : Option (List Byte) := s.curSlot.map s.installerSlot
/-- Has the current installer released the device (R422)? -/
def State.released (s : State) : Bool :=
  match s.curSlot with | some i => (s.otpByte 0x121).toNat.testBit i | none => false
/-- The rollback floor (R402). -/
def State.svnFloor (s : State) : Nat := popCount (s.otpNat 0x100 16) 128
/-- The operator epoch. -/
def State.oprEpoch (s : State) : Nat := popCount (s.otpNat 0x110 16) 128
/-- A ROM maker key that has not been revoked (R402). -/
def State.makerOk (s : State) (id : List Byte) : Bool :=
  (List.range 4).any fun k =>
    decide (k ≤ Config.romKeys.val) && !(s.otpByte 0x120).toNat.testBit k && decide ((Config.romKey k).toList = id)
/-- Is site `x` populated (R23)? -/
def State.populated (s : State) (x : Nat) : Bool := decide (bits (s.otpNat otpBuild 8) (9 + 2 * x) (8 + 2 * x) = 1)

/-! ### Signature pairs (R404–R407) -/

/-- The domain labels of R407, 16 bytes each. -/
inductive Label where
  | firmware | config | claim | debug | command | response | askord | aliasCert | claush
  deriving DecidableEq, Repr

/-- Letters of a label after "TLV-". -/
def Label.letters : Label → List Nat
  | .firmware => [0x46, 0x49, 0x52, 0x4D, 0x57, 0x41, 0x52, 0x45]
  | .config => [0x43, 0x4F, 0x4E, 0x46, 0x49, 0x47]
  | .claim => [0x43, 0x4C, 0x41, 0x49, 0x4D]
  | .debug => [0x44, 0x45, 0x42, 0x55, 0x47]
  | .command => [0x43, 0x4F, 0x4D, 0x4D, 0x41, 0x4E, 0x44]
  | .response => [0x52, 0x45, 0x53, 0x50, 0x4F, 0x4E, 0x53, 0x45]
  | .askord => [0x41, 0x53, 0x4B, 0x4F, 0x52, 0x44]
  | .aliasCert => [0x41, 0x4C, 0x49, 0x41, 0x53]
  | .claush => [0x43, 0x4C, 0x41, 0x55, 0x53, 0x48]

/-- A label padded to 16 bytes. -/
def Label.bytes (l : Label) : List Byte := padTo 16 (([0x54, 0x4C, 0x56, 0x2D] ++ l.letters).map byte)

/-- Length of a pair with a PARAM, 0 for a PARAM that is refused (R405, R406). -/
def pairLen (param : Nat) : Nat := if param = 1 then 16664 else if param = 2 then 36104 else 0

/-- Length of the pair that bytes begin with. -/
def pairLenOf (sig : List Byte) : Nat := pairLen (fieldAt sig 0 1)

/-- KEY_ID of a pair. -/
def pairKey (sig : List Byte) : List Byte := slice sig 8 48

/-- Does a pair have the form of R406 and verify over a message under a label, both halves, for the key with this
KEY_ID (R404)? -/
def pairGood (l : Label) (msg sig id : List Byte) : Bool :=
  decide (sig.length = pairLenOf sig) && decide (0 < pairLenOf sig) && decide (fieldAt sig 1 3 = 0) &&
    decide (fieldAt sig 4 4 = sig.length) && decide (pairKey sig = id) && Config.pairOkId (l.bytes ++ msg) sig id

/-- The same for a signature with PARAM 0x01, as maker objects carry (R405). -/
def makerPair (s : State) (l : Label) (msg sig : List Byte) : Bool :=
  decide (fieldAt sig 0 1 = 1) && s.makerOk (pairKey sig) && pairGood l msg sig (pairKey sig)

/-- KEY_ID of a key record, if the record has the form of R405. -/
def keyIdOf (rec : List Byte) : Option (List Byte) :=
  if rec.length = 440 && (fieldAt rec 0 1 = 1 || fieldAt rec 0 1 = 2) && fieldAt rec 1 7 = 0 then some (sha384 rec)
  else none

/-! ### The flash (R511) -/

/-- Address of an image bank. -/
def bankBase (b : Nat) : Nat := if b = 0 then 0 else 0x07000000
/-- Bytes of the flash; a byte that nothing has written reads as erased. -/
def State.flashRead (s : State) (a n : Nat) : List Byte := (List.range n).map fun i => SMap.get (fun _ => 0xFF) s.flash (a + i)
/-- Write bytes to the flash. -/
def flashWrite (a : Nat) : List Byte → State → State
  | [], s => s
  | b :: bs, s => flashWrite (a + 1) bs { s with flash := SMap.put (fun _ => 0xFF) s.flash a b }

/-! ### Layout of an image (R512–R515) -/

/-- Pieces of `k` bytes, `n` of them. -/
def chunks (k : Nat) (bs : List Byte) : Nat → List (List Byte)
  | 0 => []
  | n + 1 => slice bs 0 k :: chunks k (bs.drop k) n

/-- The header with its directory (R512). -/
structure ImgHead where
  kind   : Nat
  serial : Nat
  len    : Nat
  seq    : Nat
  signer : List Byte
  dir    : List (List Byte)
  raw    : List Byte
  deriving DecidableEq, Repr

/-- RECLEN of a known tag; none: unknown (R514). -/
def recLen (tag : Nat) : Option Nat :=
  if tag = 0x0001 ∨ tag = 0x0020 then some 0
  else if tag = 0x0010 then some 32
  else if tag = 0x0011 ∨ tag = 0x0012 then some 2
  else if tag = 0x0013 ∨ tag = 0x0040 ∨ tag = 0x0070 then some 16
  else if tag = 0x0030 then some 8
  else if tag = 0x0041 then some 544
  else if tag = 0x0050 then some 128
  else if tag = 0x0060 then some 64
  else if tag = 0x0071 then some 4
  else none

/-- OFFSET and LENGTH of a directory entry. -/
def dirSpan (e : List Byte) : Nat × Nat := (fieldAt e 4 4, fieldAt e 8 4)

/-- Do the entries lie in ascending order from `from'`, on 4 KiB boundaries, without overlap, inside the image? -/
def dirOk (from' len : Nat) : List (List Byte) → Bool
  | [] => true
  | e :: es =>
    decide (from' ≤ (dirSpan e).1) && decide ((dirSpan e).1 % 4096 = 0) && decide (16 ≤ (dirSpan e).2) &&
      decide ((dirSpan e).1 + (dirSpan e).2 ≤ len) && decide (fieldAt e 2 2 = 1) && decide (fieldAt e 12 4 = 0) &&
      dirOk ((dirSpan e).1 + (dirSpan e).2) len es

/-- Do the bytes between sections read 0xFF (R512)? -/
def State.gapsErased (s : State) (base : Nat) : List (List Byte) → Bool
  | e :: f :: es =>
    let fin := (dirSpan e).1 + (dirSpan e).2
    ((s.flashRead (base + fin) ((dirSpan f).1 - fin)).all fun b => decide (b = 0xFF)) && s.gapsErased base (f :: es)
  | _ => true

/-- The header at an address, if its format stands (check 1 of R522). `avail` bounds the image. -/
def State.imgHead (s : State) (base : Nat) : Option ImgHead :=
  let h := s.flashRead base 0x80
  let n := fieldAt h 6 1
  if !(decide (slice h 0 4 = [0x54, 0x5A, 0x43, 0x49]) && decide (fieldAt h 4 1 = 1) &&
      (fieldAt h 5 1 = 1 || fieldAt h 5 1 = 2) && decide (1 ≤ n) && decide (n ≤ 64) && decide (fieldAt h 7 1 = 0) &&
      decide (fieldAt h 0x10 4 ≤ 117440512) && allZero (slice h 0x48 56)) then none
  else
    let raw := h ++ s.flashRead (base + 0x80) (64 * n)
    let dir := chunks 64 (raw.drop 0x80) n
    let hl := 0x80 + 64 * n
    let pl := pairLenOf (s.flashRead (base + hl) 1)
    let start := 4096 * ceilDiv (hl + pl) 4096
    let tags := dir.map fun e => fieldAt e 0 2
    if decide (pl = 0) || !dirOk start (fieldAt h 0x10 4) dir || decide (tags.dedup.length ≠ tags.length) ||
        (match dir with | e :: _ => decide ((dirSpan e).1 ≠ start) | [] => true) || !s.gapsErased base dir then none
    else some { kind := fieldAt h 5 1, serial := fieldAt h 8 8, len := fieldAt h 0x10 4, seq := fieldAt h 0x14 4,
                signer := slice h 0x18 48, dir := dir, raw := raw }

/-- Bytes of a section, its header included. -/
def State.sectionBytes (s : State) (base : Nat) (e : List Byte) : List Byte :=
  s.flashRead (base + (dirSpan e).1) (dirSpan e).2

/-- The header pair of an image. -/
def State.headPair (s : State) (base : Nat) (h : ImgHead) : List Byte :=
  let at' := base + h.raw.length
  s.flashRead at' (pairLenOf (s.flashRead at' 1))

/-- A section, if its header repeats its directory entry and its counts stand (R513). -/
def sectionOf (e body : List Byte) : Option Section :=
  let tag := fieldAt e 0 2
  match recLen tag with
  | none => none
  | some rl =>
    let cnt := fieldAt body 8 4
    if decide (slice body 0 4 = slice e 0 4) && decide (fieldAt body 4 4 = fieldAt e 8 4) &&
        decide (fieldAt body 12 2 = rl) && decide (fieldAt body 14 2 = 0) &&
        (if rl = 0 then decide (cnt = 0) else decide (body.length = 16 + cnt * rl)) then
      some { tag := tag, count := cnt, reclen := rl, body := body.drop 16 }
    else none

/-- Every section of an image (R513, R514). -/
def State.sectionsOf (s : State) (base : Nat) (h : ImgHead) : Option (List Section) :=
  h.dir.mapM fun e => sectionOf e (s.sectionBytes base e)

/-- Every section digest (check 5 of R522). -/
def State.digestsOk (s : State) (base : Nat) (h : ImgHead) : Bool :=
  h.dir.all fun e => decide (sha384 (s.sectionBytes base e) = slice e 16 48)

/-- A section by its tag. -/
def secOf (l : List Section) (tag : Nat) : Option Section := l.find? fun x => decide (x.tag = tag)

/-- The records of a section; none when it is absent. -/
def recsOf (l : List Section) (tag : Nat) : List (List Byte) :=
  match secOf l tag with
  | none => []
  | some x => chunks x.reclen x.body x.count

/-! ### The FIRMWARE section (R515) -/

/-- A component: KIND, offset, length, digest. -/
structure Comp where
  kind   : Nat
  off    : Nat
  len    : Nat
  digest : List Byte
  deriving DecidableEq, Repr

/-- The components of a FIRMWARE section given whole. -/
def compsOf (fw : List Byte) : List Comp :=
  (chunks 64 (fw.drop 0x20) (fieldAt fw 0x14 4)).map fun r =>
    { kind := fieldAt r 0 2, off := fieldAt r 4 4, len := fieldAt r 8 4, digest := slice r 16 48 }

/-- Bytes of a component. -/
def compBytes (fw : List Byte) (k : Nat) : List Byte :=
  match (compsOf fw).find? fun c => decide (c.kind = k) with
  | some c => slice fw c.off c.len
  | none => []

/-- The format of R515. -/
def firmwareOk (fw : List Byte) : Bool :=
  let n := fieldAt fw 0x14 4
  let cs := compsOf fw
  let kinds := cs.map Comp.kind
  decide (fieldAt fw 0x10 4 ≤ 128) && decide (6 ≤ n) && decide (n ≤ 16) && decide (fieldAt fw 0x18 8 = 0) &&
    cs.zipIdx.all (fun x =>
      decide (x.1.off + x.1.len + 16664 ≤ fw.length) && decide (0x20 + 64 * n ≤ x.1.off) &&
        decide (fieldAt fw (0x20 + 64 * x.2 + 2) 2 = 0) && decide (fieldAt fw (0x20 + 64 * x.2 + 12) 4 = 0) &&
        decide (sha384 (slice fw x.1.off x.1.len) = x.1.digest)) &&
    [1, 2, 3, 4, 5, 6].all (fun k => decide (kinds.count k = 1)) && decide (kinds.count 7 ≤ 1) &&
    kinds.all (fun k => decide (1 ≤ k) && decide (k ≤ 7)) &&
    decide (((cs.filter fun c => decide (2 ≤ c.kind) && decide (c.kind ≤ 6)).map Comp.len).sum ≤ 7340032) &&
    cs.all fun c => decide (c.kind ≠ 3) || decide (c.len ≤ 262144)

/-- The firmware's signature pair (check 6 of R522). -/
def firmwareSigned (s : State) (fw : List Byte) : Bool :=
  decide (16664 ≤ fw.length) && makerPair s .firmware (fw.take (fw.length - 16664)) (fw.drop (fw.length - 16664))

/-! ### Records of LAYOUT (R516) -/

/-- Records of one type. -/
def layRecs (l : List Section) (typ : Nat) : List (List Byte) := (recsOf l 0x10).filter fun r => decide (fieldAt r 0 1 = typ)
/-- The partition record of `p`. -/
def partRec (l : List Section) (p : Nat) : Option (List Byte) := (layRecs l 1).find? fun r => decide (fieldAt r 1 1 = p)
/-- The context record of `c`. -/
def ctxRec (l : List Section) (c : Nat) : Option (List Byte) := (layRecs l 2).find? fun r => decide (fieldAt r 1 1 = c)
/-- Is a context defined? -/
def defined (l : List Section) (c : Nat) : Bool := (ctxRec l c).isSome
/-- HOLDER of a context record. -/
def recHolder (r : List Byte) : Bool := (fieldAt r 2 1).testBit 1
/-- Is a context a defined holder? -/
def isHolder (l : List Section) (c : Nat) : Bool := match ctxRec l c with | some r => recHolder r | none => false
/-- Is a context defined and no holder? -/
def isUser (l : List Section) (c : Nat) : Bool := defined l c && !isHolder l c
/-- TENANT of a context. -/
def recTenant (l : List Section) (c : Nat) : Nat := match ctxRec l c with | some r => fieldAt r 4 2 | none => 0
/-- Contexts bound to a partition. -/
def recBound (l : List Section) (p : Nat) : List Nat :=
  ((layRecs l 2).filter fun r => !recHolder r && decide (fieldAt r 3 1 = p)).map fun r => fieldAt r 1 1
/-- Channels of a context. -/
def recChans (l : List Section) (c : Nat) : List Nat :=
  (recsOf l 0x11).zipIdx.filterMap fun x => if (leNat x.1).testBit 15 && leNat x.1 % 256 = c then some x.2 else none
/-- Object blocks of a context. -/
def recBlocks (l : List Section) (c : Nat) : List Nat :=
  (recsOf l 0x12).zipIdx.filterMap fun x =>
    if (leNat x.1).testBit 15 && !(leNat x.1).testBit 14 && leNat x.1 % 256 = c then some x.2 else none

/-- WINDOW_US of a partition (R175): `chs` the least number of channels that a bound context owns, `g` its groups. -/
def windowUs (chs g : Nat) : Nat :=
  let v := (16544 * g + 192) * 1024
  4 + ceilDiv (2 * v) (100 * min (896 * chs) (20480 * g))

/-- The fewest channels of a partition's bound contexts. -/
def fewestChans (l : List Section) (p : Nat) : Nat := (((recBound l p).map fun c => (recChans l c).length).min?).getD 1

/-- Is a set of groups a run of consecutive ones? -/
def runOf (g : Nat) : Bool :=
  (List.range 8).any fun lo => (List.range 9).any fun hi => decide (lo < hi) && decide (g = 2 ^ hi - 2 ^ lo)

/-- A partition record (R161, R170, R175, R288, R516). -/
def partOk (l : List Section) (r : List Byte) : Bool :=
  let p := fieldAt r 1 1
  let g := fieldAt r 2 1
  let bound := recBound l p
  decide (p < 8) && runOf g && decide (fieldAt r 3 1 ≤ 1) && decide (fieldAt r 4 1 < 16) &&
    ((List.range 4).all fun k => !(fieldAt r 4 1).testBit k || (g.testBit (2 * k) && g.testBit (2 * k + 1))) &&
    decide (1 ≤ fieldAt r 6 2) && decide (fieldAt r 6 2 ≤ 256) && decide (100 ≤ fieldAt r 8 4) &&
    decide (fieldAt r 8 4 ≤ 100000) && decide (fieldAt r 12 4 < fieldAt r 8 4) && decide (1 ≤ fieldAt r 16 2) &&
    decide (fieldAt r 16 2 ≤ 1000) && allZero (slice r 18 14) && !bound.isEmpty &&
    decide ((bound.map fun c => match ctxRec l c with | some x => fieldAt x 6 2 | none => 0).sum ≤ fieldAt r 6 2) &&
    decide (2 * windowUs (fewestChans l p) (popCount g 8) ≤ fieldAt r 8 4) &&
    (decide (fieldAt r 3 1 = 0) || decide ((bound.map (recTenant l)).dedup.length ≤ 1)) &&
    (List.range 64).all fun w =>
      decide (((bound.filter fun c => match ctxRec l c with
        | some x => (fieldAt x 2 1).testBit 2 && decide (fieldAt x 8 1 = w) | none => false).map (recTenant l)).dedup.length ≤ 1)

/-- A context record (R161, R165, R172, R289, R516). -/
def ctxOk (l : List Section) (r : List Byte) : Bool :=
  let c := fieldAt r 1 1
  decide (fieldAt r 2 1 < 8) && allZero (slice r 10 22) && decide ((recBlocks l c).length ≤ 8) &&
    (recHolder r ||
      ((partRec l (fieldAt r 3 1)).isSome && !(recChans l c).isEmpty && decide (1 ≤ fieldAt r 6 2) &&
        decide (fieldAt r 6 2 ≤ 256) && decide (fieldAt r 8 1 < 64) && decide (1 ≤ fieldAt r 9 1) &&
        decide (fieldAt r 9 1 ≤ 32)))

/-- A slice entry: it names a context that is bound to its partition (R170, R289, R516). -/
def sliceOk (l : List Section) (r : List Byte) : Bool :=
  (recBound l (fieldAt r 2 1)).contains (fieldAt r 4 1) && (partRec l (fieldAt r 2 1)).isSome && allZero (slice r 5 27)

/-- LAYOUT as a whole (R161, R234, R288, R516). -/
def layoutOk (l : List Section) : Bool :=
  let ps := layRecs l 1
  let cs := layRecs l 2
  let es := layRecs l 3
  let groups := ps.map fun r => fieldAt r 2 1
  let order := (List.range 8).filterMap fun p => (partRec l p).map fun r => fieldAt r 2 1
  decide (ps.length + cs.length + es.length = (recsOf l 0x10).length) && ps.all (partOk l) && cs.all (ctxOk l) &&
    es.all (sliceOk l) && decide ((ps.map fun r => fieldAt r 1 1).dedup.length = ps.length) &&
    decide ((cs.map fun r => fieldAt r 1 1).dedup.length = cs.length) &&
    decide ((es.map fun r => (fieldAt r 2 1, fieldAt r 3 1)).dedup.length = es.length) &&
    ((List.range 8).all fun g => decide ((groups.filter fun m => m.testBit g).length ≤ 1)) &&
    decide (order.Pairwise (· < ·)) &&
    ((List.range 8).all fun p => (partRec l p).isSome || (List.range 8).all fun q => decide (q < p) || (partRec l q).isNone) &&
    decide ((ps.map fun r => fieldAt r 6 2).sum ≤ 512) && decide ((ps.map fun r => fieldAt r 5 1).sum ≤ 64)

/-! ### The other installer sections -/

/-- CHANNELS and OBJECTS (R517, R521). -/
def plansOk (l : List Section) : Bool :=
  let chs := (recsOf l 0x11).map leNat
  let obs := (recsOf l 0x12).map leNat
  decide (chs.length = 256) && decide (obs.length = 256) &&
    (chs.all fun w => decide (bits w 14 8 = 0) && (!w.testBit 15 || defined l (w % 256))) &&
    obs.all fun w => !w.testBit 15 || w.testBit 14 || defined l (w % 256)

/-- REGULATORS (R204, R518). -/
def regulatorsOk (l : List Section) : Bool :=
  let rs := recsOf l 0x13
  (rs.all fun r => defined l (fieldAt r 0 1)) &&
    (List.range 8).all fun k => decide ((rs.map fun r => fieldAt r (8 + k) 1).sum ≤ 64)

/-- DEFAULTS (R519): its counts, every image, every assignment. -/
def defaultsOk (l : List Section) : Bool :=
  match secOf l 0x20 with
  | none => true
  | some x =>
    let nt := fieldAt x.body 0 2
    let nc := fieldAt x.body 2 2
    let na := fieldAt x.body 4 2
    let o := 16 + 576 * nt
    let p := o + 3120 * nc
    decide (x.body.length = p + 4 * na) && allZero (slice x.body 6 10) &&
      ((List.range nt).all fun i => tableOk (slice x.body (16 + 576 * i) 576)) &&
      ((List.range nc).all fun i => curveOk (slice x.body (o + 3120 * i) 3120)) &&
      (chunks 4 (x.body.drop p) na).all fun r =>
        isUser l (fieldAt r 0 1) &&
          (if fieldAt r 1 1 = 0 then decide (fieldAt r 2 1 < 4) && decide (fieldAt r 3 1 < nt)
           else decide (fieldAt r 1 1 = 1) && decide (fieldAt r 2 1 < 16) && decide (fieldAt r 3 1 < nc))

/-- Numbers of a resource class (R525). -/
def resMax (cls : Nat) : Nat :=
  if cls = 1 ∨ cls = 2 then 16 else if cls = 3 then 128 else if cls = 4 then 4 else 0

/-- Is a resource number one of R525? -/
def resOk (id : Nat) : Bool := decide (bits id 7 0 < resMax (bits id 15 12)) && decide (bits id 11 8 = 0)

/-- Claim records: maker's in categories 1–6, installer's in 4–6 (R525). -/
def claimsOk (lo : Nat) (rs : List (List Byte)) : Bool :=
  rs.all fun r => decide (lo ≤ fieldAt r 2 1) && decide (fieldAt r 2 1 ≤ 6) && decide (fieldAt r 3 1 = 0) &&
    resOk (fieldAt r 4 2) && decide (fieldAt r 6 2 = 0)

/-- Modules of a bundle: 12 for a stack, 16 for a link die, 8 for a site (R5). -/
def bundleSize (b : Nat) : Nat := if b < 8 then 12 else if b < 10 then 16 else 8
/-- Role of a bundle's module `k` in a ROLES word. -/
def roleAt (roles k : Nat) : Nat := bits roles (2 * k + 1) (2 * k)
/-- The site of a bundle, if it is one. -/
def bundleSite (b : Nat) : Option Nat := if 10 ≤ b ∧ b < 14 then some (b - 10) else none
/-- Is a bundle that of an empty site (R18)? -/
def State.emptyBundle (s : State) (b : Nat) : Bool := match bundleSite b with | some x => !s.populated x | none => false

/-- ROLES (R314, R315). -/
def rolesOk (s : State) (l : List Section) : Bool :=
  let rs := recsOf l 0x40
  let own := rs.filter fun r => !s.emptyBundle (fieldAt r 1 1)
  decide ((own.map fun r => fieldAt r 1 1).dedup.length = own.length) &&
    rs.all fun r =>
      let b := fieldAt r 1 1
      let roles := fieldAt r 4 4
      let n := bundleSize b
      s.emptyBundle b ||
        (decide (b < 14) && decide (fieldAt r 0 1 = 1) && decide (fieldAt r 3 1 = 0) && allZero (slice r 8 8) &&
          ((List.range n).all fun k => decide (roleAt roles k ≠ 3)) && decide (roles < 4 ^ n) &&
          decide (2 ≤ fieldAt r 2 1) &&
          decide (fieldAt r 2 1 ≤ 2 * ((List.range n).filter fun k => decide (roleAt roles k = 1)).length))

/-- A window of a site grant record. -/
def winAt (r : List Byte) (w : Nat) : List Byte := slice r (0xA0 + 24 * w) 24

/-- One window (R323). -/
def siteWinOk (l : List Section) (r x : List Byte) : Bool :=
  let len := fieldAt x 4 4
  let sb := fieldAt x 8 8
  let cb := fieldAt x 16 8
  decide (fieldAt x 1 1 < 16) && decide (fieldAt x 3 1 = 0) && decide (1 ≤ len) && decide (len < 2 ^ 28) &&
    decide (sb % 4096 = 0) && decide (sb < 2 ^ 48) && decide (cb % 4096 = 0) && decide (cb < 2 ^ 40) &&
    decide (fieldAt x 1 1 &&& fieldAt r 3 1 = fieldAt x 1 1) && isUser l (fieldAt x 0 1) &&
    decide (fieldAt x 2 1 < 32 * (recBlocks l (fieldAt x 0 1)).length)

/-- SITES (R323). -/
def sitesOk (s : State) (l : List Section) : Bool :=
  let rs := recsOf l 0x41
  let own := rs.filter fun r => s.populated (fieldAt r 1 1)
  decide ((own.map fun r => fieldAt r 1 1).dedup.length = own.length) &&
    rs.all fun r =>
      let n := fieldAt r 7 1
      let ws := (List.range n).map (winAt r)
      decide (fieldAt r 1 1 < 4) &&
        (!s.populated (fieldAt r 1 1) ||
          (decide (fieldAt r 0 1 = 1) && decide (fieldAt r 2 1 < 8) && decide (fieldAt r 3 1 < 16) &&
            decide (1 ≤ fieldAt r 6 1) && decide (n ≤ 16) && allZero (slice r 8 8) &&
            allZero (slice r (0xA0 + 24 * n) (24 * (16 - n))) && ws.all (siteWinOk l r) &&
            decide (ws.Pairwise fun a b =>
              fieldAt a 8 8 + 4096 * fieldAt a 4 4 ≤ fieldAt b 8 8 ∨ fieldAt b 8 8 + 4096 * fieldAt b 4 4 ≤ fieldAt a 8 8) &&
            (!(fieldAt r 2 1).testBit 1 ||
              decide ((ws.map fun w => recTenant l (fieldAt w 0 1)).dedup.length ≤ 1))))

/-- Is an FP32 pattern positive and normal? -/
def posNormal (x : Nat) : Bool := decide (2 ^ 23 ≤ x) && decide (x < 255 * 2 ^ 23)

/-- Stripes of a context's range before its save area (R190), from the frames that are retired. -/
def rawStripes (caps : List Nat) : Nat := (((caps.map fun cap => 256 * cap).min?).getD 0) / pitchOf' caps.length
where
  pitchOf' (n : Nat) : Nat := if n = 0 then 1 else ceilDiv 1024 n

/-- POOLS (R292, R293, R521). -/
def poolsOk (s : State) (l : List Section) : Bool :=
  let rs := recsOf l 0x50
  decide ((rs.map fun r => fieldAt r 1 1).dedup.length = rs.length) &&
    decide ((rs.map fun r => fieldAt r 2 1).dedup.length = rs.length) &&
    rs.all fun r =>
      let scope := bits (fieldAt r 3 1) 2 1
      let mem := setBits 256 (fieldAt r 0x30 32)
      let outs := setBits 256 (fieldAt r 0x50 32)
      let k := fieldAt r 4 2
      let so := fieldAt r 6 2
      let n := fieldAt r 0x28 2
      let holder := fieldAt r 2 1
      let sb := 4096 * ceilDiv (fieldAt r 8 4 * (if (fieldAt r 3 1).testBit 0 then 2 else 4)) 4096
      let caps := (recChans l holder).map fun ch => 49152 - (SMap.get (fun _ => []) s.saved.frames ch).length
      decide (fieldAt r 0 1 = 1) && decide (fieldAt r 1 1 < 64) && decide (fieldAt r 3 1 < 8) && decide (scope ≠ 3) &&
        decide (2 ≤ k) && decide (k ≤ 256) && decide (k ≤ n) && decide (so < 256) && decide (1 ≤ fieldAt r 8 4) &&
        posNormal (fieldAt r 0xC 4) && decide (fieldAt r 0x14 4 = 0) && decide (1000000 ≤ fieldAt r 0x18 8) &&
        decide (fieldAt r 0x18 8 < 2 ^ 40) && decide (2 ≤ n) && (decide (scope ≠ 0) || decide (n = mem.length)) &&
        (decide (scope = 2) || decide (fieldAt r 0x2A 2 = 0)) && decide (fieldAt r 0x2A 2 < 4096) &&
        decide (fieldAt r 0x2C 4 = 0) && allZero (slice r 0x70 16) && isHolder l holder &&
        (mem ++ outs).all (isUser l) && decide ((mem.length + 1) * sb ≤ rawStripes caps * 262144) &&
        (decide (scope ≠ 0) || !outs.isEmpty) &&
        (match (recsOf l 0x12)[so]? with
          | some w => (leNat w).testBit 15 && (leNat w).testBit 14 && decide (bits (leNat w) 13 8 = fieldAt r 1 1)
          | none => false)

/-- CLAUSH (R371, R372, R520). -/
def claushOk (l : List Section) : Bool :=
  match recsOf l 0x60 with
  | [] => (secOf l 0x60).isNone
  | pk :: ps =>
    let node := fieldAt pk 0 2
    let root := (fieldAt pk 2 1).testBit 0
    let en := ps.filter fun r => (fieldAt r 0 1).testBit 0
    let par := (en.filter fun r => (fieldAt r 0 1).testBit 1).map fun r => fieldAt r 2 2
    let alt := (en.filter fun r => (fieldAt r 0 1).testBit 2).map fun r => fieldAt r 2 2
    decide (ps.length = 32) && decide (node < 4096) && decide (fieldAt pk 2 1 ≤ 1) && allZero (slice pk 3 61) &&
      (ps.all fun r => decide (fieldAt r 0 1 < 8) && decide (fieldAt r 1 1 < 32) && decide (fieldAt r 2 2 < 4096) &&
        allZero (slice r 4 12)) &&
      (en.all fun r => decide (fieldAt r 2 2 ≠ node)) &&
      decide ((en.map fun r => (fieldAt r 2 2, fieldAt r 1 1)).dedup.length = en.length) &&
      (!root || par.isEmpty) && decide (par.dedup.length ≤ 1) && alt.all fun n => !par.contains n

/-- DEVICE: one record (R458, R497, R520). -/
def deviceOk (l : List Section) : Bool :=
  match recsOf l 0x70 with
  | [] => (secOf l 0x70).isNone
  | [r] => decide (900 ≤ fieldAt r 0 2) && decide (fieldAt r 0 2 ≤ 2500) && decide (fieldAt r 2 1 < 8) &&
      decide (fieldAt r 3 1 < 16) && decide (10 ≤ fieldAt r 5 1) && decide (fieldAt r 5 1 ≤ 156) &&
      decide (1 ≤ fieldAt r 6 1) && decide (fieldAt r 6 1 ≤ 32) && allZero (slice r 7 9)
  | _ => false

/-- The fault codes with their default and permitted classes, as the maker's firmware carries them (R463). -/
def faultTable : List (Nat × Nat × Nat) :=
  ((List.range 22).map fun i =>
    (i + 1, 1, if i + 1 = 3 ∨ i + 1 = 0x13 then 0b01110 else if i + 1 = 0xB then 0b01010
      else if i + 1 = 0x11 ∨ i + 1 = 0x12 ∨ i + 1 = 0x14 ∨ i + 1 = 0x15 then 0b00110 else 0b00010)) ++
  [(0x0101, 0, 0b00001), (0x0102, 0, 0b00101), (0x0103, 2, 0b00100), (0x0104, 3, 0b01000), (0x0201, 0, 0b00001),
   (0x0202, 0, 0b00001), (0x0301, 2, 0b01100), (0x0302, 3, 0b11000), (0x0303, 3, 0b01000), (0x0304, 0, 0b00001),
   (0x0305, 3, 0b01000), (0x0401, 3, 0b11000), (0x0402, 3, 0b11000), (0x0501, 3, 0b11000), (0x0502, 3, 0b11000),
   (0x0503, 4, 0b10000), (0x0504, 4, 0b10000), (0x0601, 0, 0b01001), (0x0602, 0, 0b00001), (0x0701, 3, 0b11000),
   (0x0702, 0, 0b00001)]

/-- POLICY: every class lies within the permitted set of its code (R462, R520). -/
def policyOk (l : List Section) : Bool :=
  (recsOf l 0x71).all fun r =>
    decide (fieldAt r 3 1 = 0) &&
      match faultTable.find? fun e => decide (e.1 = fieldAt r 0 2) with
      | some e => e.2.2.testBit (fieldAt r 2 1)
      | none => false

/-- Are the sections those that the image's kind carries (R514)? -/
def tagsOk (kind : Nat) (l : List Section) : Bool :=
  let has (t : Nat) : Bool := (secOf l t).isSome
  if kind = 1 then has 0x01 && has 0x10 && has 0x11 && has 0x12
  else has 0x01 && l.all fun x => [0x01, 0x40, 0x60, 0x70, 0x71, 0x30].contains x.tag

/-- The loader's rules (check 8 of R522; R521). -/
def loaderOk (s : State) (kind : Nat) (l : List Section) : Bool :=
  tagsOk kind l && (decide (kind = 2) || (layoutOk l && plansOk l)) && regulatorsOk l && defaultsOk l &&
    claimsOk 4 (recsOf l 0x30) && rolesOk s l && sitesOk s l && poolsOk s l && claushOk l && deviceOk l && policyOk l

/-! ### Does a bank pass (R522)? -/

/-- The FIRMWARE section whole. -/
def State.firmwareOf (s : State) (base : Nat) (h : ImgHead) : List Byte :=
  match h.dir.find? fun e => decide (fieldAt e 0 2 = 1) with
  | some e => s.sectionBytes base e
  | none => []

/-- Checks 2 to 4: SERIAL, SIGNER and the header pair. In Test, an installer image signed by the maker boots (R441). -/
def State.signedBy (s : State) (base : Nat) (h : ImgHead) : Bool :=
  let pair := s.headPair base h
  (decide (h.serial = 0) || decide (h.serial = s.serial)) &&
    (if h.kind = 2 then s.makerOk h.signer && decide (pairKey pair = h.signer) && makerPair s .firmware h.raw pair
     else if s.lc = 1 then s.makerOk h.signer && pairGood .config h.raw pair h.signer
     else match s.installer with
       | some id => decide (h.signer = id) && decide (s.lc = 2) && pairGood .config h.raw pair id
       | none => false)

/-- The image in a bank, when every check but the kind's own condition holds. -/
def State.bankImage (s : State) (b : Nat) : Option Image :=
  let base := bankBase b
  match s.imgHead base with
  | none => none
  | some h =>
    match s.sectionsOf base h with
    | none => none
    | some l =>
      let fw := s.firmwareOf base h
      let cs := compsOf fw
      if s.signedBy base h && s.digestsOk base h && firmwareSigned s fw && decide (s.svnFloor ≤ fieldAt fw 0x10 4) &&
          firmwareOk fw && loaderOk s h.kind l && claimsOk 1 (chunks 8 (compBytes fw 7) ((compBytes fw 7).length / 8)) then
        some { factory := decide (h.kind = 2), seq := h.seq, fwSvn := fieldAt fw 0x10 4, digest := sha384 h.raw,
               hwd := match cs.find? fun c => decide (c.kind = 1) with | some c => c.digest | none => [],
               ctl := sha384 (slice fw 0x10 4 ++ (cs.filter fun c => decide (c.kind ≠ 1)).flatMap Comp.digest),
               seqCrc := crc32 (compBytes fw 3), policy := compBytes fw 6, claims := compBytes fw 7,
               steps := compBytes fw 5, sections := l }
      else none

/-- The image of a bank that passes. A factory image passes on an unclaimed device, or when no bank holds an image that
passes under the current installer (check 3 of R522; R411, R441). -/
def State.bankPasses (s : State) (b : Nat) : Option Image :=
  match s.bankImage b with
  | none => none
  | some x =>
    if !x.factory then (if s.lc = 0 then none else some x)
    else if s.installer.isNone then some x
    else match s.bankImage (1 - b) with
      | some y => if y.factory then some x else none
      | none => some x

end Sys2Proof.Machine
end

