-- ==== Sys2Proof/Machine/BringUp.lean ====
section
/-! DEFINITION. The start of the device: the reset of its domains (R468), the decoding of the life-cycle copies and what it
leads to (R443–R447, R451), the saved settings (R523, R524), the choice of the image bank (R522), and what is loaded before
the links train. -/

namespace Sys2Proof.Machine

/-! ### Saved settings (R523, R524) -/

/-- GEN of a copy; a copy that is not valid counts lowest. -/
def copyGen : Option Saved → Nat
  | none => 0
  | some x => x.gen + 1

/-- May the area be written now: not in Blank, End of life or Locked, and not while pads are held (R441, R450, R492,
R523)? -/
def State.settingsOpen (s : State) : Bool := (s.lc = 1 || s.lc = 2) && !s.on F.PWR_STATUS_PADS_HELD

/-- Rewrite the copy with the lower GEN at GEN + 1 (R524). -/
def writeSettings (s : State) : State :=
  let g := max (copyGen s.sset0) (copyGen s.sset1)
  let x := { s.saved with gen := g, serial := s.serial }
  let s := { s with saved := x, ssetDirty := false }
  if copyGen s.sset0 ≤ copyGen s.sset1 then { s with sset0 := some x } else { s with sset1 := some x }

/-- A change that is written at once (R524): written now, or pending while that cannot be. -/
def saveNow (s : State) : State :=
  if s.settingsOpen then writeSettings s else { s with ssetDirty := true }

/-- Change the settings in force. -/
def State.onSaved (s : State) (f : Saved → Saved) : State := { s with saved := f s.saved }

/-- A change of training records alone waits for SAVED_SETTINGS_WRITE (R524). -/
def saveLater (s : State) : State := { s with ssetDirty := true }

/-- A copy is valid when its SERIAL is this hub's (R523). -/
def State.copyOk (s : State) : Option Saved → Option Saved
  | some x => if x.serial = s.serial then some x else none
  | none => none

/-- The valid copy with the higher GEN. -/
def State.bestCopy (s : State) : Option Saved :=
  match s.copyOk s.sset0, s.copyOk s.sset1 with
  | some x, some y => some (if x.gen < y.gen then y else x)
  | some x, none => some x
  | none, y => y

/-! ### Resets -/

/-- Registers that a device reset leaves, with the bits that stay: what PD0 holds or the fuses give (R440, R453, R479,
R507, R23, R335). -/
def keptRegs : List (Nat × Word) :=
  [(R.TLS_STATUS, fldMask 2 1), (R.HWD_STATUS, fldMask 41 41), (R.HWD_SERIAL, fldMask 63 0),
   (R.GLB_PKG_BUILD, fldMask 63 0), (R.LCS_STATUS, fldMask 63 0), (R.BBX_STATUS, ~~~(fldMask 1 1)),
   (R.BBX_COUNT, fldMask 63 0)] ++
  (List.range 3).map (fun k => (R.LCS_COPY k, fldMask 63 0)) ++
  (List.range 4).map (fun x => (R.CHK_EXPECT x, fldMask 63 0)) ++
  (List.range 20).map (fun d => (R.PWR_DOMAIN d, fldMask 63 60)) ++
  (List.range 7).map (fun k => (R.PWR_ENERGY k, fldMask 63 0)) ++
  (List.range 6).map (fun l => (R.PWR_RESID l, fldMask 63 0))

/-- The register file after a device reset. -/
def resetRegs (m : SMap Word) : SMap Word :=
  keptRegs.foldl (fun r e =>
    SMap.put regReset r e.1 ((SMap.get regReset m e.1 &&& e.2) ||| (regReset e.1 &&& ~~~e.2))) []

/-- Every domain except PD0 is reset: the host link goes down, IDE keys go, every channel loses its CLEAN mark; device
memory stays in self-refresh (steps 3 and 4 of R468). -/
def powerDomains (s : State) : State :=
  { State.reset with
    pending := s.pending, outbox := s.outbox, freeCtr := s.freeCtr, regs := resetRegs s.regs, devMem := s.devMem,
    ueMarks := s.ueMarks, otp := s.otp, flash := s.flash, sset0 := s.sset0, sset1 := s.sset1, saved := s.saved,
    ssetDirty := s.ssetDirty, nextReq := s.nextReq, bb := { s.bb with reading := false, queue := s.bb.queue.map across },
    hw := { Hw.init with debugChal := s.hw.debugChal, scopes := s.hw.scopes },
    tls := { Tls.init with stopped := s.tls.stopped }, power := { Power.init with refusals := s.power.refusals, energyRem := s.power.energyRem, residRem := s.power.residRem },
    pins := { s.pins with enLow := 0, gpioHeld := 0 }, boot := { s.boot with cause := 1, imageOk := false, trial := false } }
where
  across (r : BbRec) : BbRec := { r with flags := r.flags ||| 8 }

/-- Every domain, PD0 included, is reset: what the fuses, the flash and the black-box device hold stays (R493, R536,
R542). -/
def coldState (s : State) : State :=
  { State.reset with
    pending := s.pending, outbox := s.outbox, freeCtr := s.freeCtr, otp := s.otp, flash := s.flash, sset0 := s.sset0,
    sset1 := s.sset1, nextReq := s.nextReq, bb := { BlackBox.init with slots := s.bb.slots, protect := s.bb.protect } }

/-! ### Life-cycle decoding (R443–R446) -/

/-- Pattern of a state. -/
def lcPattern (k : Nat) : Nat := 2 ^ (16 * k) - 1
/-- A copy as it stands in the fuses. -/
def State.lcCopy (s : State) (k : Nat) : Nat := s.otpNat (0x20 + 6 * k) 6
/-- The state of a valid copy. -/
def lcValid (n : Nat) : Option Nat := [0, 1, 2, 3].find? fun k => decide (n = lcPattern k)
/-- The bit count of a run that starts at bit 0. -/
def lcRun (n : Nat) : Option Nat := (List.range 49).find? fun j => decide (n = 2 ^ j - 1)
/-- Is there a transition from one state to another (R442)? -/
def lcStep (a b : Nat) : Bool := (a = 0 && b = 1) || (a = 1 && b = 2) || (a = 1 && b = 3) || (a = 2 && b = 3)

/-- Test 2 of R445: the state that an interrupted transition came from and goes to. -/
def interrupted (c0 c1 c2 : Nat) : Option (Nat × Nat) :=
  match lcValid c0, lcRun c1, lcRun c2 with
  | some t, some j1, some j2 =>
    match [2, 1, 0].find? fun k => decide (16 * k ≤ j2) && lcStep k t with
    | some k =>
      if 16 * k ≤ j1 ∧ j1 ≤ 16 * t ∧ j2 ≤ 16 * t ∧ (j2 = 16 * k ∨ j1 = 16 * t) then some (k, t) else none
    | none => none
  | _, _, _ => none

/-- The decision of R445: test, state, and S of an interruption. -/
def lcDecide (c0 c1 c2 : Nat) : Nat × Nat × Nat :=
  match lcValid c0 with
  | some k => if c0 = c1 ∧ c1 = c2 then (1, k, 0) else rest
  | none => rest
where
  two (a b : Nat) : Option Nat := if a = b then lcValid a else none
  rest : Nat × Nat × Nat :=
    match interrupted c0 c1 c2 with
    | some (k, t) => (2, t, k)
    | none =>
      match ((two c0 c1).orElse fun _ => two c0 c2).orElse fun _ => two c1 c2 with
      | some k => (3, k, 0)
      | none => (4, 4, 0)

/-- Program the missing bits of copy `k`, ascending. A bit that does not program after four attempts ends the write, with
a record (R444); whether one does not is a free value (log entry 4). The answer is true when every bit has programmed. -/
def progBits (k : Nat) : List Nat → State → Bool × State
  | [], s => (true, s)
  | i :: is, s =>
    if (s.lcCopy k).testBit i then progBits k is s
    else if Config.fuseFails (48 * k + i) s.freeCtr then (false, bbEvent 0x8011 srcHeartwood [byte k, byte i] s.drawn)
    else progBits k is (fuse (0x20 + 6 * k + i / 8) [byte (2 ^ (i % 8))] s)

/-- Program copies up to a pattern, in order, each verified before the next is begun (R444). -/
def lcProgram (pat : Nat) : List Nat → State → Bool × State
  | [], s => (true, s)
  | k :: ks, s =>
    match progBits k (setBits 48 pat) s with
    | (true, s) => lcProgram pat ks s
    | (false, s) => (false, s)

/-- Do a number's set bits lie within a pattern? -/
def within (n pat : Nat) : Bool := decide (n &&& pat = n)

/-- Act on the decision (R446): complete an interruption, repair a third copy, record, and load the LCS registers. -/
def lcDecode (s : State) : State :=
  let cs := (List.range 3).map s.lcCopy
  let d := lcDecide (s.lcCopy 0) (s.lcCopy 1) (s.lcCopy 2)
  let pat := lcPattern d.2.1
  let s := (List.range 3).foldl (fun s k => s.setReg (R.LCS_COPY k) (w64 (cs.getD k 0))) s
  let odd := (List.range 3).filter fun k => decide (cs.getD k 0 ≠ pat)
  let fixed := d.1 = 3 && odd.all fun k => within (cs.getD k 0) pat
  let r := if d.1 = 2 then lcProgram pat [1, 2] s else if fixed then lcProgram pat odd s else (true, s)
  let s := r.2
  let s := (s.wr F.LCS_STATUS_STATE d.2.1).wr F.LCS_STATUS_DECODE d.1
  let s := (s.wr F.LCS_STATUS_FROM d.2.2).wr F.LCS_STATUS_REPAIRED (if d.1 = 3 then (if fixed && r.1 then 1 else 2) else 0)
  if d.1 = 1 then s else bbEvent 0x8010 srcHeartwood (cs.flatMap (leBytes · 6) ++ [byte d.1]) s

/-! ### The wipe (R450–R452) -/

/-- Do the fuses that the wipe programs read all ones? -/
def State.fusesWiped (s : State) : Bool :=
  ((List.range 0x20) ++ (List.range 0xC0).map (0x40 + ·) ++ (List.range 656).map (0x170 + ·)).all fun a =>
    decide (s.otpByte a = 0xFF)

/-- Does the flash read blank? -/
def State.flashBlank (s : State) : Bool := s.flash.isEmpty && s.sset0.isNone && s.sset1.isNone

/-- Is the completion record committed to the black box? -/
def State.wipeCommitted (s : State) : Bool := s.bb.slots.any fun e => decide (fieldAt e.2 16 2 = 0x8012)

/-- Is the completion record in the black box, or on its way there? -/
def State.wipeRecorded (s : State) : Bool := s.bb.queue.any (fun r => decide (r.code = 0x8012)) || s.wipeCommitted

/-- Once the completion record of the wipe is committed, the black-box device is write-protected: its block-protect bits are set, then
BB_WP_N is held low (R452, R548). -/
def sealBlackBox (s : State) : State :=
  if s.lc = 3 && s.wipeCommitted then
    ((s.onBb fun b => { b with protect := true }).wr F.BBX_STATUS_WP 1).onPins fun x => { x with bbWpN := false }
  else s

/-- Step 4 of R450: the key store and the retention RAM are zeroed, the fields DUS, INST and TRIM programmed. -/
def wipeFuses (s : State) : State :=
  let ones (n : Nat) : List Byte := List.replicate n 0xFF
  let s := fuse 0x170 (ones 656) (fuse 0x40 (ones 0xC0) (fuse 0 (ones 0x20) s))
  { s with hw := { s.hw with keysOk := false, aliasOk := false, challenges := [], debugChal := none, sessions := 0 },
           saved := Saved.init, ssetDirty := false, image := none }

/-- Steps 4 to 6 of R450, in order, each that is not complete (R451). -/
def wipe (s : State) : State :=
  let s := if s.fusesWiped then s else wipeFuses s
  let s := if s.flashBlank then s else { s with flash := [], sset0 := none, sset1 := none, saved := Saved.init }
  sealBlackBox (if s.wipeRecorded then s else bbEvent 0x8012 srcHeartwood [] s)

/-- The checks of R451 at a start in End of life; WIPE shows whether a step was still to do. -/
def wipeCheck (s : State) : State :=
  let whole := s.fusesWiped && s.flashBlank && s.wipeRecorded
  (wipe s).wr F.LCS_STATUS_WIPE (if whole then 2 else 1)

/-! ### The bank (R522) -/

/-- The booted image: what Heartwood and the registers show of it (R429, R440, R534). -/
def runImage (b : Nat) (trial : Bool) (x : Image) (s : State) : State :=
  let s := { s with image := some x, boot := { s.boot with imageOk := true, trial := trial } }
  let s := ((s.wr F.GLB_CFG_STATUS_BANK b).wr F.GLB_CFG_STATUS_FACTORY (b2n x.factory)).wr F.GLB_CFG_STATUS_IMAGE_SEQ x.seq
  let s := (List.range 6).foldl (fun s w => s.setReg (R.GLB_CFG_DIGEST w) (w64 (fieldAt x.digest (8 * w) 8))) s
  ((s.wr F.HWD_STATUS_FW_SVN x.fwSvn).wr F.HWD_STATUS_RUN_BANK b).wr F.HWD_STATUS_TRIAL (b2n trial)

/-- Try the running bank, then the other, which becomes the running bank (R522). -/
def tryRun (s : State) : State :=
  let b := s.saved.runBank
  match s.bankPasses b with
  | some x => runImage b false x s
  | none =>
    match s.bankPasses (1 - b) with
    | some x => (runImage (1 - b) false x (saveNow (s.onSaved fun v => { v with runBank := 1 - b }))).wr
        F.GLB_CFG_STATUS_FALLBACK 1
    | none => s

/-- The trial never reached ready: its marks clear, and the running bank is tried (step 2 of R522, R425). -/
def fallBack (s : State) : State :=
  let s := saveNow (s.onSaved fun v => { v with nextBank := 0, trial := false, tried := false, staged := false })
  tryRun (bbEvent 0x8005 srcHeartwood [byte s.saved.runBank] s)

/-- Choose the bank (R522). -/
def chooseBank (s : State) : State :=
  let v := s.saved
  if v.trial && !v.tried then
    let s := saveNow (s.onSaved fun v => { v with tried := true })
    match s.bankPasses v.nextBank with
    | some x => runImage v.nextBank true x s
    | none => fallBack s
  else if v.trial then fallBack s
  else tryRun s

/-! ### What is loaded before the links train -/

/-- The certificate record's leaf names the keys that were derived; no record counts as a difference (R408, R523). -/
def State.certBad (s : State) : Bool :=
  match s.saved.certs with
  | some c => !Config.leafMatches c (s.otpBytes 0 32)
  | none => true

/-- Heartwood's registers at a start (R440). -/
def loadHwd (s : State) : State :=
  let s := (s.wr F.HWD_STATUS_SVN_FLOOR s.svnFloor).wr F.HWD_STATUS_OPR_EPOCH s.oprEpoch
  let s := (s.wr F.HWD_STATUS_CLAIMED (b2n s.curSlot.isSome)).wr F.HWD_STATUS_INST_SLOT (s.curSlot.getD 0)
  let s := s.wr F.HWD_STATUS_STAGED (b2n s.saved.staged)
  if s.lc = 1 || s.lc = 2 then
    (s.onHw fun h => { h with keysOk := true }).wr F.HWD_STATUS_CERT_BAD (b2n s.certBad)
  else s

/-- Role of module `k` of bundle `b` from the running image (R18, R314, R315). -/
def State.imageRole (s : State) (b k : Nat) : Nat :=
  if s.emptyBundle b then 0
  else match s.image with
    | none => 1
    | some x =>
      match (recsOf x.sections 0x40).find? fun r => decide (fieldAt r 1 1 = b) with
      | some r => roleAt (fieldAt r 4 4) k
      | none => 1

/-- MIN_HALVES of a bundle from the running image (R314, R315). -/
def State.imageMin (s : State) (b : Nat) : Nat :=
  match s.image with
  | none => minHalvesDefault b
  | some x =>
    match (recsOf x.sections 0x40).find? fun r => decide (fieldAt r 1 1 = b) with
    | some r => if s.emptyBundle b then minHalvesDefault b else fieldAt r 2 1
    | none => minHalvesDefault b

/-- Begin the training of a bundle's modules, and with it a new roll call: saved lane repairs apply, modules Off stay Off
(R316, R331). -/
def trainBundle (b : Nat) (s : State) : State :=
  let s := s.onBdl b fun x => { x with step := 0, due := 0 }
  let s := each (List.range (bundleSize b)) (fun k s =>
    let m := bundleMod b k
    let w := SMap.get (fun _ => 0) s.saved.lanes m
    let off := decide (s.imageRole b k = 0) || s.saved.modOff.contains m
    let s := s.setReg (R.D2D_MOD_REPAIR m) (w64 w)
    let s := s.onMod m fun _ =>
      { tried := decide (SMap.get (fun _ => 0) s.saved.training m ≠ 0), off := off,
        promoted := s.saved.promoted.contains m, failed := false }
    s.wr (F.D2D_MOD_STATUS_STATE m) (if off then 4 else 1)) s
  if s.emptyBundle b then
    (s.wr (F.D2D_BDL_STATUS_STATE b) 4).wr (F.D2D_BDL_STATUS_FENCE_WHY b) 7
  else
    let s := s.wr (F.D2D_BDL_STATUS_STATE b) 1
    if b = 8 || b = 9 then s.wr (F.CLS_DIE_STATUS_STATE (b - 8)) 1 else s
where
  bundleMod (b k : Nat) : Nat := bundleFirst b + k

/-- Stacks: training, repair records and retired frames from the saved settings (R209, R210, R214). -/
def loadStacks (s : State) : State :=
  each (List.range 8) (fun k s =>
    let s := s.wr (F.MEM_STATUS_STATE k) 1
    let chs := (List.range 32).map (32 * k + ·)
    let s := each chs (fun ch s =>
      let rs := SMap.get (fun _ => []) s.saved.remaps ch
      let fs := SMap.get (fun _ => []) s.saved.frames ch
      let used := (rs.map (·.2)).sum
      let s := if rs.isEmpty && fs.isEmpty then s
        else s.onChan ch fun x => { x with remaps := rs, spares := used, retFrames := fs, retired := decide (512 < fs.length) }
      let s := if 512 < fs.length then s.wr (F.MEM_CH_STATE k (ch % 32)) 3 else s
      if fs.isEmpty then s else s.wr (F.MEM_CH_RET_FRAMES k (ch % 32)) fs.length) s
    let all' := chs.flatMap fun ch => (SMap.get (fun _ => []) s.saved.remaps ch).map (·.2)
    let frames := (chs.map fun ch => (SMap.get (fun _ => []) s.saved.frames ch).length).sum
    let s := ((s.wr (F.MEM_REPAIR_REMAPS k) (min all'.sum 0xFFFF)).wr (F.MEM_REPAIR_SECOND_REMAPS k)
      (all'.filter fun n => decide (2 ≤ n)).length).wr (F.MEM_REPAIR_SPARES_FREE k) (8192 - all'.sum)
    if frames = 0 then s else s.wr (F.MEM_REPAIR_FRAMES_RETIRED k) frames) s

/-- The policy table of the maker's firmware (R462, R463). -/
def loadPolicy (s : State) : State :=
  faultTable.zipIdx.foldl (fun s e =>
    let w := putFld (putFld (putFld (putFld 0 63 48 e.1.1) 39 35 e.1.2.2) 34 32 e.1.2.1) 2 0 e.1.2.1
    s.setReg (R.TLS_POLICY e.2) w) s

/-- Conditions of the domains: all on, but PD19 with no scope open (R482); every domain wakes with code 1 (R489). -/
def loadDomains (s : State) : State :=
  let s := each (List.range 20) (fun d s => s.wr (F.PWR_DOMAIN_WAKE_LAST d) 1) s
  if s.scopesOpen ≠ 0 then s else s.wr (F.PWR_DOMAIN_COND 19) 3

/-- Empty sites at every bring-up, whatever the image says: their modules are Off, they are fenced, and their enables are
driven low (R18, R322, R541). -/
def emptySites (s : State) : State :=
  let s := s.onPins fun x => { x with
    enLow := x.enLow ||| (((List.range 4).filter fun i => !s.populated i).map fun i => 2 ^ (3 + i)).sum }
  each ((List.range 4).filter fun i => !s.populated i) (fun x s =>
    let s := each (List.range 8) (fun k s => s.wr (F.D2D_MOD_STATUS_STATE (bundleFirst (10 + x) + k)) 4) s
    ((s.wr (F.D2D_BDL_STATUS_STATE (10 + x)) 4).wr (F.D2D_BDL_STATUS_FENCE_WHY (10 + x)) 7).wr (F.CHK_STATUS_FENCE_WHY x) 7) s

/-- Claush ports that the image enables start their training (R373, step 6 of R527). -/
def State.portRec (s : State) (q : Nat) : Option (List Byte) :=
  match s.image with
  | none => none
  | some x => (recsOf x.sections 0x60)[q + 1]?.filter fun r => (fieldAt r 0 1).testBit 0

/-- Bring-up beyond Heartwood, as far as the start of training (steps 2 to 6 of R527). While debug is on, Claush ports stay
down (R375). -/
def startDevice (s : State) : State :=
  let s := loadHwd s
  match s.image with
  | none => s.wr F.GLB_CFG_STATUS_STEP 2
  | some _ =>
    let s := (s.wr F.NOC_STATUS_PLANES (0xF - s.saved.planesOut)).wr F.GLB_CFG_STATUS_STEP 3
    let s := loadPolicy (loadStacks s)
    let s := each (List.range 14) trainBundle s
    each (List.range 32) (fun q s =>
      if s.on F.HWD_STATUS_DEBUG_ON then s.wr (F.CLS_PORT_STATUS_DOWN_WHY q) 5
      else if (s.portRec q).isNone then s.wr (F.CLS_PORT_STATUS_DOWN_WHY q) 7
      else s.wr (F.CLS_PORT_STATUS_STATE q) 1) s

/-- The saved settings in force at a start: the best copy, or, where changes wait in the retention RAM, those
(R523, R524). In Blank the area is not read. -/
def loadSettings (s : State) : State :=
  if s.lc = 0 then s
  else
    let s := match s.bestCopy with
      | some x => ((if s.ssetDirty then s else { s with saved := x }).wr F.GLB_CFG_STATUS_SSET_VALID 1)
      | none => if s.ssetDirty then s else { s with saved := { Saved.init with serial := s.serial } }
    if s.ssetDirty && s.settingsOpen then writeSettings s else s

/-- Registers that the fuses load at cold reset (R23, R335, R440). -/
def loadFuses (s : State) : State :=
  let s := (s.setReg R.GLB_PKG_BUILD (w64 (s.otpNat otpBuild 8))).setReg R.HWD_SERIAL (w64 s.serial)
  each (List.range 4) (fun x s => s.setReg (R.CHK_EXPECT x) (w64 (s.otpNat (0x150 + 8 * x) 8))) s

/-- A start of the device (R527): `cause` as the BOOT record gives it, `decode` when step 1 runs. -/
def startBringUp (cause : Nat) (decode : Bool) (s : State) : State :=
  let s := { s with boot := { s.boot with held := false, cause := cause, start := s.now } }
  let s := bbEvent 0x8001 srcHeartwood (byte cause :: leBytes (s.rd F.BBX_STATUS_BOOT) 2) s
  let s := if decode then lcDecode s else s
  let s := loadDomains (s.wr F.CLK_STATUS_LOCK 0x2F)
  let s := emptySites (s.wr F.GLB_CFG_STATUS_STEP 1)
  if s.lc = 3 then loadHwd (wipeCheck s)
  else if s.lc = 4 then s
  else startDevice (chooseBank (loadSettings s))

/-- The device resets at the end of a transition, and the next start decodes (R448, R449). -/
def resetDecoded (s : State) : State := startBringUp 1 true (powerDomains s)

end Sys2Proof.Machine
end

