-- ==== Sys2Proof/Machine/Wake.lean ====
section
/-! DEFINITION. Wake events of the power ladder and the enables that an exit releases (R484, R489, R490, R541). -/

namespace Sys2Proof.Machine

/-- Is the device in L0 Run, with no entry past its step 1 (R484, R487)? -/
def State.atL0 (s : State) : Bool :=
  decide (s.rd F.PWR_STATUS_STATE = 0) &&
    match s.power.move with
    | some m => !(m.entry && s.power.asked.isEmpty)
    | none => true

/-- Do the DMA, Whittle, glue-up and collective engines run: in L0 Run and L1 Poise, but for an entry to L2 Hush or deeper
that is past its step 1 (R484, R487)? -/
def State.enginesOn (s : State) : Bool :=
  decide (s.rd F.PWR_STATUS_STATE ≤ 1) &&
    match s.power.move with
    | some m => !(m.entry && s.power.asked.isEmpty && decide (2 ≤ m.target))
    | none => true

/-- Do the tiles' clocks run: in L0 Run, an entry letting them come to their boundaries (R487)? -/
def State.tilesOn (s : State) : Bool := decide (s.rd F.PWR_STATUS_STATE = 0)

/-- Release enable lines of a mask. -/
def releaseLines (m : Nat) (s : State) : State := s.onPins fun x => { x with enLow := x.enLow &&& (0x7F - m) }

/-- Steps 1 and 2 of an exit from L4 Shelf or L5 Dormant (R490): EN_MAIN is released, and once PG_MAIN is high, EN_MEM and
EN_LNK. -/
def exitLines (s : State) : State :=
  match s.power.move with
  | some m =>
    if m.entry || m.start < 4 then s
    else
      let s := if m.start = 5 then releaseLines 1 s else s
      if s.pins.pg.testBit 0 then releaseLines 6 s else s
  | none => s

/-- Begin an exit towards L0 Run, or a part of it. -/
def beginExit (m : Move) (s : State) : State :=
  exitLines (((s.onPower fun p => { p with move := some m, asked := [] }).wr F.PWR_STATUS_TARGET m.target).wr F.PWR_STATUS_BUSY 1)

/-- Domains that a move to a target affects: those that it does not leave on (R482, R486). -/
def affected (target : Nat) : List Nat :=
  [0] ++ (if target = 0 then [] else List.range' 5 8) ++ (if target < 2 then [] else [13, 14, 15, 16, 17, 18]) ++
    (if target < 3 then [] else [1, 3, 4]) ++ (if target < 4 then [] else [2, 19])

/-- Count an aborted entry in the refusal records of the domains that it affected (R494). -/
def countAbort (target : Nat) (s : State) : State :=
  each ([0, 1, 3, 18].filter fun d => (affected target).contains d) (fun d s => s.onPower fun p =>
    { p with refusals := SMap.upd (fun _ => Refuser.init) p.refusals d fun r => { r with aborted := min (r.aborted + 1) (2 ^ 32 - 1) } }) s

/-- A wake event (R489): below L0 Run with no move under way an exit to L0 Run begins; during an entry the entry is
aborted and the device returns to the state that the entry started from; an exit goes on to L0 Run, and what was to follow
it is dropped. -/
def wakeEvent (code : Nat) (s : State) : State :=
  let st := s.rd F.PWR_STATUS_STATE
  match s.power.move with
  | some m =>
    if m.entry then
      let back : Move := { target := m.start, start := m.start, entry := false, wake := code, who := m.who,
                           limit := none, bbSeq := m.bbSeq, thenTo := none }
      (beginExit back (countAbort m.target s)).wr F.PWR_STATUS_LAST_RESULT 2
    else
      let s := match m.thenTo with
        | some t => (countAbort t s).wr F.PWR_STATUS_LAST_RESULT 2
        | none => s
      (s.onPower fun p => { p with move := some { m with target := 0, thenTo := none } }).wr F.PWR_STATUS_TARGET 0
  | none =>
    if st = 0 then s
    else beginExit { target := 0, start := st, entry := false, wake := code, who := 0, limit := none, bbSeq := 0,
                     thenTo := none } s

end Sys2Proof.Machine
end

