-- ==== Sys2Proof/Machine/Faults.lean ====
section
/-! DEFINITION. Faults (chapter 15): one operation that classes a fault by the policy table, records it and carries its
class out. Every chapter's detected faults go through `reportFault`. -/

namespace Sys2Proof.Machine

/-- The default class of a fault code (R463); an unlisted code has none, and is treated as class DEVICE. -/
def defaultClass (code : Nat) : Nat :=
  if 0x0001 ≤ code ∧ code ≤ 0x0016 then 1
  else if code = 0x0101 ∨ code = 0x0102 then 0
  else if code = 0x0103 then 2
  else if code = 0x0201 ∨ code = 0x0202 ∨ code = 0x0304 then 0
  else if code = 0x0301 then 2
  else if code = 0x0503 ∨ code = 0x0504 then 4
  else if code = 0x0601 ∨ code = 0x0602 ∨ code = 0x0702 then 0
  else 3

/-- The class in force: that of the policy table's entry (R462), or the default where no entry is loaded. -/
def State.classOf (s : State) (code : Nat) : Nat :=
  match (List.range 256).find? fun i => decide (s.rd (F.TLS_POLICY_CODE i) = code) with
  | some i => s.rd (F.TLS_POLICY_CLASS i)
  | none => defaultClass code

/-- DETAIL of a fault record (R474). -/
def faultDetail (c : Option Nat) (res addr : Nat) (extra : List Byte) : List Byte :=
  [byte (b2n c.isSome), byte (c.getD 0)] ++ leBytes res 2 ++ leBytes addr 8 ++ extra

/-- Is a context in a state that a fault ends (R280): LOCKED or RUN? -/
def State.endable (s : State) (c : Nat) : Bool := s.ctxState c = 3 || s.ctxState c = 4

/-- Is the device held by a safe stop (R469)? -/
def State.stopped (s : State) : Bool := s.tls.stopped

/-- Record a fault: black box, event ring, TLS_LAST and TLS_COUNT, and the vectors of R364. -/
def recordFault (code src cls : Nat) (c : Option Nat) (detail : List Byte) (s : State) : State :=
  let s := bbRecord code src 0 cls c detail s
  let s := ((s.wr F.TLS_LAST_CODE code).wr F.TLS_LAST_SOURCE src).wr F.TLS_LAST_CLASS cls
  let s := ((s.wr F.TLS_LAST_CTX (c.getD 0)).wr F.TLS_LAST_CTX_VALID (b2n c.isSome)).wr F.TLS_LAST_VALID 1
  let s := if cls = 0 then s.satInc F.TLS_COUNT_CORRECTED 1
    else if cls = 1 then s.satInc F.TLS_COUNT_CONTAINED 1
    else if cls = 2 then s.satInc F.TLS_COUNT_PARTITION 1 else s
  if cls = 0 then s else raiseVector 0 1 s

/-- Put the newest record of the queue at its head (step 1 of R468). -/
def recordFirst (s : State) : State :=
  s.onBb fun b => { b with queue := match b.queue.reverse with | [] => [] | r :: rs => r :: rs.reverse }

/-! ### Partition reset (R467) -/

/-- Reset one tile of a partition: state cleared, its registers reset but for those that only device reset resets, STATE
RESET unless retired or PAIR_LOST (R56–R64, R139–R143). MXA_CFG is loaded again at the rejoin. BWL_SCRUB.LAST_CLEAR then
gives the time of the clear that this reset does, not the reset value 0 (DESIGN CHOICE, log entry 131). -/
def resetTile (t : Nat) (s : State) : State :=
  let k := s.rd (F.MXA_STATUS_STATE t)
  let s := clearTile t s
  let s := if k = 5 || k = 7 then s.wr (F.MXA_STATUS_STATE t) k else s.wr (F.MXA_STATUS_STATE t) 6
  let s := [R.MXA_CFG t, R.MXA_STALL t, R.BWL_MAP t, R.BWL_ECC t, R.VXE_STATUS t, R.VXE_CTL t, R.VXE_STAT t, R.VXE_FAULT t].foldl
    (fun s k => s.setReg k (regReset k)) s
  let s := s.setReg (R.BWL_SCRUB t) 0
  s.wr (F.BWL_SCRUB_LAST_CLEAR t) s.now

/-- Every operation in flight of a context completes with PART_RESET, but for those that the collective and glue-up
engines have taken over (R181). -/
def resetOps (c : Nat) (s : State) : State :=
  let s := each ((s.ctx c).ops.filter fun o => !o.handed) (fun o s =>
    (finishOp c o.seq (s.onOp c o.seq fun o =>
      { o with done := some { status := stPartReset, detail := 0, value := 0, ident := none } })).1) s
  let s := s.onCtx c fun x => { x with chains := [], saved := [], fetch := none, waits := [] }
  let s := abandonReads c true s
  (s.wr (F.CTXW_RING_STATUS_HOLDING c) 0).wr (F.CTXW_RING_STATUS_PARKED c) 0

/-- The injection of a partition's endpoints stops: what they have not injected, and what their units still asked of the
buckets, goes (step 2 of R272). -/
def stopInjection (p : Nat) (s : State) : State :=
  let out (w : Waiting) : Bool :=
    match w.who with
    | .unit _ _ => decide (s.partOf w.ctx = p)
    | .request i => match meshReqOf i with
      | some h => decide (4096 ≤ w.bucket) && decide (w.bucket < 2 ^ 20) && decide (s.endpointOf h.src.val h.sag.val = some p)
      | none => false
  { s with waiting := s.waiting.filter fun w => !out w }

/-- Steps 1 to 4 of a partition reset (R272, R467). -/
def partitionReset (p : Nat) (s : State) : State :=
  let s := (s.wr (F.SCH_STATUS_STATE p) 4).wrBit F.TLS_STATUS_PART_RESETTING p true
  let s := ((s.wr (F.SCH_STATUS_CTX_VALID p) 0).wr (F.SCH_STATUS_CUR_CTX p) 0).wrBit F.NOC_STATUS_PROXY p true
  let s := s.onPart p fun x => { x with sw := none, rejoin := false, proxy := true, resets := s.now :: x.resets }
  let s := handToProxy p (stopInjection p s)
  let s := each (s.boundTo p) resetOps s
  let s := each (s.tilesOf p) (fun t s =>
    if s.rd (F.MXA_STATUS_STATE t) = 4 then (resetTile t s).wr F.TLS_ROT_BUSY 0 else resetTile t s) s
  let s := each ((s.groupsOf p).flatMap fun g => (List.range 4).map fun i => 4 * g + i) (fun e s =>
    ((s.onEngine e fun x => { x with op := none }).setReg (R.DMA_ENG_STATUS e) 0).setReg (R.DMA_ENG_CURSOR e) 0) s
  let s := { s with groups := SMap.keep (fun g => !(s.groupsOf p).contains g) s.groups }
  s.wrBit F.XLT_CFG_PREFETCH p true

/-- Times of a partition's resets within 60 s of the newest: four hold it down (R464). -/
def State.fourResets (s : State) (p : Nat) : Bool :=
  decide (4 ≤ ((s.part p).resets.filter fun t => decide (s.now ≤ t + 60000000000)).length)

/-- A context of a partition that is held down ends with PART_DOWN (R55, R464). -/
def partDown (c : Nat) (s : State) : State :=
  if s.endable c then
    endContext c 0x0016 false (recordFault 0x0016 (srcCtx c) 1 (some c) (faultDetail (some c) 0 0 []) s)
  else s

/-- Hold a partition down until device reset. After a fourth reset within 60 s every context bound to it ends with
PART_DOWN at once (R464); where no tile has passed its self-test, each ends when it next tries to run (R55). -/
def holdDown (p : Nat) (atOnce : Bool) (s : State) : State :=
  let s := (s.wrBit F.TLS_STATUS_PART_DOWN p true).wr (F.SCH_STATUS_STATE p) 0
  let s := s.wrBit F.TLS_STATUS_PART_RESETTING p false
  if atOnce then each (s.boundTo p) partDown s else s

/-! ### Device reset and safe stop (R464, R468, R469) -/

/-- Abort keys for every collective and pool round in progress (R394). -/
def abortAll (s : State) : State :=
  let s := s.colls.foldl (fun s x => abortColl x s) s
  (List.range 64).foldl (fun s p =>
    let k := s.rd (F.GUP_RND_STATE p)
    if s.on (F.GUP_CFG_VALID p) && s.rd (F.GUP_CFG_SCOPE p) ≠ 0 && (k = 1 || k = 2) then
      sendAbort 2 (s.rd (F.GUP_UID_UID p) % 2 ^ 32) (s.rd (F.GUP_RND_ROUND p))
        ((List.range 32).filterMap fun q => if s.portUp q then some (s.rd (F.CLS_PORT_STATUS_PEER_NODE q)) else none) s
    else s) s

/-- The device resets (R468): its cause at the head of the queue, aborts, every domain except PD0 reset, bring-up again.
A reset before ready counts, and the third in a row makes no further attempt (R464). -/
def deviceReset (s : State) : State :=
  let before := decide (s.rd F.GLB_CFG_STATUS_STATE = 0)
  let n := s.rd F.TLS_STATUS_BRINGUP_FAILS
  let n := if before then min (n + 1) 3 else n
  let s := powerDomains (setPromise false (abortAll (recordFirst s)))
  let s := s.wr F.TLS_STATUS_BRINGUP_FAILS n
  if before && decide (n = 3) then s else startBringUp 1 false s

/-- The device stops until power is removed and restored (R469). -/
def safeStop (s : State) : State :=
  let s := abortAll (setPromise false s)
  let s := powerDomains s
  let s := s.onPins fun x => { x with faultOutN := false, enLow := 0x7F }
  { s with devMem := [], ueMarks := [], tls := { s.tls with stopped := true } }

/-! ### The operation -/

/-- The class that is carried out: a CONTAINED fault that reaches no context becomes PARTITION or DEVICE (R461). -/
def State.carried (s : State) (code : Nat) (ctxs : List Nat) (part : Option Nat) : Nat :=
  let k := s.classOf code
  if k = 1 && ctxs.isEmpty then (if part.isSome then 2 else 3) else k

/-- A detected fault: its code, its source, the contexts that it reaches, the partition of its source, and the fields
of DETAIL. It is recorded, and what is not absorbed by an action under way is carried out (R461). A class that needs a
domain in retention or off wakes the device (R489). -/
def reportFault (code src : Nat) (ctxs : List Nat) (part : Option Nat) (res addr : Nat) (extra : List Byte)
    (s : State) : State :=
  let cls := s.carried code ctxs part
  let s := recordFault code src cls ctxs.head? (faultDetail ctxs.head? res addr extra) s
  let s := if (cls = 1 || cls = 2) && decide (2 ≤ s.rd F.PWR_STATUS_STATE) then wakeEvent 9 s else s
  if s.stopped then s
  else match cls with
    | 0 => s
    | 1 => each (ctxs.filter fun c => s.endable c && s.rd (F.SCH_STATUS_STATE (s.partOf c)) ≠ 4)
        (fun c s => endContext c code false s) s
    | 2 =>
      match part with
      | none => s
      | some p =>
        if s.rd (F.SCH_STATUS_STATE p) = 4 || s.rd F.GLB_CFG_STATUS_STATE = 0 then s
        else
          let s := partitionReset p s
          if s.fourResets p then holdDown p true s else s
    | 3 => deviceReset s
    | _ => safeStop s

/-- A fault of a context without a narrower source. -/
def ctxFault (code c : Nat) (s : State) : State :=
  reportFault code (srcCtx c) [c] (some (s.partOf c)) 0 0 [] s

/-- The fault code of a failed access; a stack whose link is down gives STACK_RESET (R321). -/
def State.memCode (s : State) (e : MemErr) : Nat :=
  if e.cause = 3 && s.rd (F.MEM_STATUS_STATE (e.ch / 32)) = 4 then 0x0007 else e.fault

/-- A failed access of a context to device memory (R207, R210, R211, R213, R321); one that waits has not failed. -/
def memFault (c : Nat) (e : MemErr) (s : State) : State :=
  if e.cause = 0 then s else reportFault (s.memCode e) (srcStack (e.ch / 32)) [c] (some (s.partOf c)) e.ch 0 [] s

/-- Complete an operation, and report a failing record write (R210). -/
def finish (c q : Nat) (s : State) : State :=
  match finishOp c q s with
  | (s, none) => s
  | (s, some e) => memFault c e s

/-- An operation's access failed: it ends with MEM_ERROR, and the fault is reported (R207). One that waits has not
failed. Released summaries of the operation are folded before its record is written (R131), so that an operation with an
epilogue kernel whose summaries are still on their way ends, and completes when they are in. -/
def opMemError (c q : Nat) (e : MemErr) (value : Nat) (s : State) : State :=
  if e.cause = 0 then s
  else
    let s := foldDue c q s
    memFault c e (finish c q (endOp c q stMem e.detail value s))

/-- Complete an operation with a result. -/
def finishWith (c q st detail value : Nat) (s : State) : State := finish c q (endOp c q st detail value s)

end Sys2Proof.Machine
end

