-- ==== Sys2Proof/Machine/BlackBox.lean ====
section
/-! DEFINITION. The black-box writer (R471–R478): records and slots, the commit of a record, the scan at power-up and the
reading of a slot. -/

namespace Sys2Proof.Machine

/-- Slots of the device. -/
def bbSlots : Nat := 32768

/-- Bytes 0x00–0x37 of a record: what its CRC covers (R472). -/
def BbRec.body (r : BbRec) : List Byte :=
  leBytes r.time 8 ++ leBytes r.seq 6 ++ leBytes r.source 2 ++ leBytes r.code 2 ++ [byte r.role, byte r.cls, byte r.flags, 0] ++
    leBytes r.boot 2 ++ padTo 32 r.detail

/-- A record as its slot holds it, with the COMMIT byte (R472). -/
def BbRec.stored (r : BbRec) (commit : Nat) : List Byte := r.body ++ leBytes (crc32 r.body) 4 ++ [0, 0, 0] ++ [byte commit]

/-- A slot is valid when COMMIT is 0x5A and the CRC passes (R472). -/
def slotValid (bs : List Byte) : Bool :=
  decide (fieldAt bs 0x3F 1 = 0x5A) && decide (fieldAt bs 0x38 4 = crc32 (slice bs 0 0x38))

/-- SEQ of a slot. -/
def slotSeq (bs : List Byte) : Nat := fieldAt bs 8 6

/-- The bytes of slot `i`; one that has never been written reads zero (log entry 9). -/
def State.bbSlot (s : State) (i : Nat) : List Byte := padTo 64 (SMap.get (fun _ => []) s.bb.slots i)

/-- The first slot from `i` that is not pinned (R476). -/
def unpinned (pins : List Nat) : Nat → Nat → Nat
  | 0, i => i
  | n + 1, i => if pins.contains i then unpinned pins n ((i + 1) % bbSlots) else i

/-- The slot that the next record goes to. -/
def State.bbNext (s : State) : Nat := unpinned s.bb.pinned (s.bb.pinned.length + 1) s.bb.pos

/-- May the writer commit now: its scan has ended, the device takes writes, and it is not Dormant (R452, R477, R493)? -/
def State.bbWrites (s : State) : Bool :=
  !s.on F.BBX_STATUS_SCAN && !s.bb.protect && decide (s.rd F.PWR_STATUS_STATE ≠ 5)

/-- Is a fatal record pinned (R476)? -/
def State.pins? (s : State) (r : BbRec) : Bool :=
  r.fatal && decide (s.rd F.BBX_STATUS_PIN_BOOT < 64) && decide (s.rd F.BBX_STATUS_PINNED < 8192)

/-- Store bytes in slot `i`; the ring goes on behind it. -/
def putSlot (i : Nat) (bs : List Byte) (s : State) : State :=
  s.onBb fun b => { b with slots := SMap.put (fun _ => []) b.slots i bs, pos := (i + 1) % bbSlots }

/-- Pin slot `i`. -/
def pinSlot (i : Nat) (s : State) : State :=
  let s := s.onBb fun b => { b with pinned := i :: b.pinned }
  let s := (s.wrapInc F.BBX_STATUS_PINNED 1).wrapInc F.BBX_STATUS_PIN_BOOT 1
  if s.rd F.BBX_STATUS_PINNED = 8192 then s.wr F.BBX_STATUS_PIN_FULL 1 else s

/-- Take the record at the head of the queue. -/
def bbPop (s : State) : State :=
  let s := s.onBb fun b => { b with queue := b.queue.drop 1 }
  s.wr F.BBX_STATUS_QUEUED s.bb.queue.length

/-- Report the records that were dropped, now that space is free (R471). -/
def reportLost (s : State) : State :=
  if s.bb.owed = 0 then s
  else bbEvent 0x80F0 srcHeartwood (leBytes s.bb.owed 4) (s.onBb fun b => { b with owed := 0 })

/-- A record is committed (R364, R471, R476). -/
def commitRecord (r : BbRec) (s : State) : State :=
  let i := s.bbNext
  let pin := s.pins? r
  let r := if pin then { r with flags := r.flags ||| 2 } else r
  let s := putSlot i (r.stored 0x5A) (bbPop s)
  let s := if pin then pinSlot i s else s
  let s := if r.fatal then raiseVector 0 2 s else s
  sealBlackBox (reportLost s)

/-- The slot reads back wrong a second time: it stays uncommitted with what it holds, and the record is lost
(R471). -/
def commitFails (s : State) : State :=
  let bs := s.freeBytes 63 ++ [0]
  let s := bbLost (putSlot s.bbNext bs (bbPop (s.drawnN 63)))
  reportLost (reportFault 0x0702 srcHeartwood [] none 0 0 [] (s.wr F.BBX_STATUS_NVM_FAIL 1))

/-- BBX_RECORD_COMMIT (R471). -/
def bbxRecordCommit (nvmOk : Bool) (s : State) : State :=
  match s.bb.queue with
  | [] => s
  | r :: _ => if !s.bbWrites then s else if nvmOk then commitRecord r s else commitFails s

/-- BBX_RECORD_COMMIT. -/
def execBbxRecordCommit (nvmOk : Bool) (s : State) : Host.Outcome State Fault Refusal := s.done (bbxRecordCommit nvmOk s)

/-- The slots that hold a valid record. -/
def State.validSlots (s : State) : List (Nat × List Byte) := s.bb.slots.filter fun e => slotValid e.2

/-- The slot with the highest SEQ. -/
def newestSlot : List (Nat × List Byte) → Option (Nat × List Byte)
  | [] => none
  | e :: es =>
    match newestSlot es with
    | none => some e
    | some f => if slotSeq f.2 ≤ slotSeq e.2 then some e else some f

/-- A record that waited for the scan takes its numbers: SEQ follows those found, and BOOT (R477). -/
def renumber (base boot : Nat) (r : BbRec) : BbRec :=
  { r with seq := r.seq + base, boot := boot,
           detail := if r.code = 0x8001 then r.detail.take 1 ++ leBytes boot 2 ++ r.detail.drop 3 else r.detail }

/-- BBX_SCAN_DONE (R477). -/
def bbxScanDone (s : State) : State :=
  if !s.on F.BBX_STATUS_SCAN then s
  else
    let ok := s.validSlots
    let last := newestSlot ok
    let base := match last with | some e => slotSeq e.2 + 1 | none => 0
    let boot := min (((ok.map fun e => fieldAt e.2 0x16 2).max?).getD 0 + 1) 65535
    let pins := (ok.filter fun e => (fieldAt e.2 0x14 1).testBit 1).map (·.1)
    let torn := s.bb.slots.length - ok.length
    let s := s.onBb fun b =>
      { b with queue := b.queue.map (renumber base boot), pinned := pins, pos := match last with | some e => (e.1 + 1) % bbSlots | none => 0 }
    let s := each (List.range (min (s.rd F.TLS_EVT_HEAD_COUNT) 256)) (fun e s => s.wrapInc (F.TLS_EVT0_ARG e) base) s
    let s := (s.wrapInc F.BBX_COUNT_SEQ_NEXT base).satInc F.BBX_COUNT_TORN torn
    let s := ((s.wr F.BBX_STATUS_BOOT boot).wr F.BBX_STATUS_PINNED pins.length).wr F.BBX_STATUS_PIN_FULL (b2n (decide (8192 ≤ pins.length)))
    (s.wr F.BBX_STATUS_WP (b2n s.bb.protect)).wr F.BBX_STATUS_SCAN 0

/-- BBX_SCAN_DONE. -/
def execBbxScanDone (s : State) : Host.Outcome State Fault Refusal := s.done (bbxScanDone s)

/-- A slot number is written (R478). Writing back the number that SLOT holds writes nothing (R11). -/
def bbxSel (slot : Nat) (s : State) : State :=
  if s.rd F.BBX_SEL_SLOT = slot then s
  else ((s.wr F.BBX_SEL_SLOT slot).wr F.BBX_SEL_READY 0).onBb fun b => { b with reading := true }

/-- BBX_SEL. -/
def execBbxSel (slot : Fin 32768) (s : State) : Host.Outcome State Fault Refusal := s.done (bbxSel slot.val s)

/-- The slot lands in BBX_DATA as stored (R478). -/
def bbxSlotReadDone (s : State) : State :=
  if !s.bb.reading then s
  else
    let ws := wordsOf (s.bbSlot (s.rd F.BBX_SEL_SLOT)) 8
    let s := each (List.range 8) (fun w s => s.setReg (R.BBX_DATA w) (ws.getD w 0)) s
    (s.wr F.BBX_SEL_READY 1).onBb fun b => { b with reading := false }

/-- BBX_SLOT_READ_DONE. -/
def execBbxSlotReadDone (s : State) : Host.Outcome State Fault Refusal := s.done (bbxSlotReadDone s)

/-- The record that is being written when power or PD0 goes is torn: its slot stays uncommitted (R477, R542, R550). -/
def tearRecord (s : State) : State :=
  if s.bb.queue.isEmpty || !s.bbWrites then s
  else
    let bs := s.freeBytes 63 ++ [0]
    putSlot s.bbNext bs (s.drawnN 63)

/-- The valid records whose SEQ is at least `from`, in SEQ order (R478). -/
def State.recordsFrom (s : State) (seq : Nat) : List (List Byte) :=
  ((s.validSlots.filter fun e => decide (seq ≤ slotSeq e.2)).map (·.2)).foldr sortIn []
where
  /-- Insert a record by its SEQ. -/
  sortIn (x : List Byte) : List (List Byte) → List (List Byte)
    | [] => [x]
    | y :: ys => if slotSeq x ≤ slotSeq y then x :: y :: ys else y :: sortIn x ys

end Sys2Proof.Machine
end

