-- ==== Sys2Proof/Machine/Array.lean ====
section
/-! DEFINITION. The Great Array (chapter 02): dealing, operand blocks, billets and their checks, chains, drain, the
finished-tile queue, retirement, and saved chains. -/

namespace Sys2Proof.Machine

/-! ### Tiles in service -/

/-- Count the time for which a tile is stopped for a queue entry: from when its array has stopped with a final drain waiting
until that drain goes on (R35, R61). -/
def stallSync (t : Nat) (s : State) : State :=
  let x := s.tile t
  let full := x.ended && !x.stopped && x.banks.any (·.done)
  if full then (if x.ftqAt.isNone then s.onTile t fun x => { x with ftqAt := some s.now } else s)
  else match x.ftqAt with
    | none => s
    | some a =>
      let r := stallAdd (F.MXA_STALL_FTQ_FULL t) (s.now - a) x.ftqRem s
      r.2.onTile t fun x => { x with ftqAt := none, ftqRem := r.1 }

/-- The head billet of a tile waits for operands, or waits no more (R61). -/
def operandWait (t : Nat) (b : Bool) (s : State) : State :=
  let x := s.tile t
  if b then (if x.opndAt.isNone then s.onTile t fun x => { x with opndAt := some s.now } else s)
  else match x.opndAt with
    | none => s
    | some a =>
      let r := stallAdd (F.MXA_STALL_OPND_WAIT t) (s.now - a) x.opndRem s
      r.2.onTile t fun x => { x with opndAt := none, opndRem := r.1 }

/-- Bring FTQ_OCC and STATE of a tile to what it holds (R57). -/
def syncTile (t : Nat) (s : State) : State :=
  let x := s.tile t
  let k := s.rd (F.MXA_STATUS_STATE t)
  let s := s.wr (F.MXA_STATUS_FTQ_OCC t) x.ftq.length
  if k = 1 || k = 2 then
    s.wr (F.MXA_STATUS_STATE t) (if x.deal.isEmpty && x.banks.isEmpty && x.ftq.isEmpty then 1 else 2)
  else s

/-- Is a tile one of a verified pair (R48)? -/
def State.paired (s : State) (t : Nat) : Bool := s.on (F.MXA_CFG_PAIR_EN t)

/-- The partner of a tile of a pair. -/
def State.partner (s : State) (t : Nat) : Nat := s.rd (F.MXA_CFG_PARTNER t)

/-- Is the tile the one of the odd group of a pair (R58)? -/
def State.secondary (s : State) (t : Nat) : Bool := s.paired t && !s.on (F.MXA_CFG_PAIR_PRIMARY t)

/-- Is a tile dealt to? It serves; a pair is dealt to by the tile of its even group, while both of its tiles serve (R49). -/
def State.deals (s : State) (t : Nat) : Bool :=
  s.tileServes t && (!s.paired t || (!s.secondary t && s.tileServes (s.partner t)))

/-- Tiles of a partition that are dealt to, ascending (R36). -/
def State.dealTiles (s : State) (p : Nat) : List Nat := (s.tilesOf p).filter s.deals

/-- The tiles that receive what is dealt to `t`: both tiles of a pair (R49). -/
def State.pairOf (s : State) (t : Nat) : List Nat := if s.paired t then [t, s.partner t] else [t]

/-- A context holds the tiles of its partition that serve (R57). -/
def holdTiles (c p : Nat) (s : State) : State :=
  each ((s.tilesOf p).filter s.tileServes) (fun t s => (s.wr (F.MXA_STATUS_CUR_CTX t) c).wr (F.MXA_STATUS_CTX_VALID t) 1) s

/-- Place of a billet in its operation's order on a tile: wave by wave, span by span, and within a span in the order of R37;
a billet of another operation keeps its place behind those before it (R40). -/
def Billet.key (b : Billet) : Nat :=
  (b.wave * 65536 + b.span) * 4 + (if b.row % 2 = 0 then b.col % 2 else 3 - b.col % 2)

/-- Put a billet into its place of a deal list. -/
def placeBillet (b : Billet) : List Billet → List Billet
  | [] => [b]
  | a :: l => if a.ctx = b.ctx && a.seq = b.seq && b.key < a.key then b :: a :: l else a :: placeBillet b l

/-- Put billets into their places, the one in progress keeping its own. -/
def placeBillets (bs l : List Billet) : List Billet :=
  match l with
  | [] => bs.foldl (fun l b => placeBillet b l) []
  | a :: l => a :: bs.foldl (fun l b => placeBillet b l) l

/-- Add billets to a tile's deal list, and to its partner's. -/
def dealTo (bs : List Billet) (t : Nat) (s : State) : State :=
  each (s.pairOf t) (fun u s => syncTile u (s.onTile u fun x => { x with deal := placeBillets bs x.deal })) s

/-! ### Dealing (R36, R37, R39) -/

/-- The billets of one block's chain on its home tile. -/
def chain (c : Nat) (o : Op) (home wave row col : Nat) : List Billet :=
  (List.range o.spans).map fun i =>
    { ctx := c, seq := o.seq, row := row, col := col, span := i, last := decide (i + 1 = o.spans), home := home,
      wave := wave, away := 0 }

/-- The blocks of a quad from its first block, in the order of R37, within the operation's blocks. -/
def quad (o : Op) (row col : Nat) : List (Nat × Nat) :=
  [(row, col), (row, col + 1), (row + 1, col + 1), (row + 1, col)].filter fun b =>
    decide (b.1 < o.rows) && decide (b.2 < o.cols)

/-- The billets of the blocks of a quad: span by span, its chains in the order of R37. -/
def quadBillets (c : Nat) (o : Op) (home wave : Nat) (bs : List (Nat × Nat)) : List Billet :=
  (List.range o.spans).flatMap fun i => bs.map fun b =>
    { ctx := c, seq := o.seq, row := b.1, col := b.2, span := i, last := decide (i + 1 = o.spans), home := home,
      wave := wave, away := 0 }

/-- The quads of wave `w` over `g` groups: grid row, grid column, first block. -/
def waveQuads (o : Op) (g w : Nat) : List (Nat × Nat × Nat × Nat) :=
  let wc := ceilDiv o.cols 16
  (List.range g).flatMap fun r => (List.range 8).filterMap fun k =>
    let row := w / wc * (2 * g) + 2 * r
    let col := w % wc * 16 + 2 * k
    if row < o.rows ∧ col < o.cols then some (r, k, row, col) else none

/-- Waves of an operation over `g` groups. -/
def waveCount (o : Op) (g : Nat) : Nat := ceilDiv o.rows (2 * g) * ceilDiv o.cols 16

/-- Every block, row by row. -/
def allBlocks (o : Op) : List (Nat × Nat) :=
  (List.range o.rows).flatMap fun r => (List.range o.cols).map fun k => (r, k)

/-- Form `n` further waves of an operation's deal: the number of the first. -/
def newWaves (c q n : Nat) (s : State) : State := s.onOp c q fun o => { o with waves := o.waves + n }

/-- Deal wave `w`: each quad to the tile of its grid position, held back where that tile is absent (R37). -/
def dealWave (c : Nat) (o : Op) (p w : Nat) (s : State) : State :=
  let gs := s.groupsOf p
  each (waveQuads o gs.length w) (fun q s =>
    let t := 8 * gs.getD q.1 0 + q.2.1
    let bs := quad o q.2.2.1 q.2.2.2
    if s.deals t then dealTo (quadBillets c o t o.waves bs) t s
    else s.onOp c o.seq fun o => { o with heldQ := o.heldQ ++ [bs] }) (newWaves c o.seq 1 s)

/-- Deal blocks one per tile in turn, each as one chain; each turn is a wave (R36, R155). -/
def dealSingles (c : Nat) (o : Op) (bs : List (Nat × Nat)) (ts : List Nat) (s : State) : State :=
  each bs.zipIdx (fun b s => match ts[b.2 % ts.length]? with
    | some t => dealTo (chain c o t (o.waves + b.2 / ts.length) b.1.1 b.1.2) t s
    | none => s) (newWaves c o.seq (ceilDiv bs.length ts.length) s)

/-- Deal one block's spans in contiguous ranges over its tiles; the first is the home tile (R36, R39). Ranges differ by
at most one span, the longer ones first (DESIGN CHOICE, log entry 12). -/
def dealSplit (c : Nat) (o : Op) (b : Nat × Nat) (ts : List Nat) (s : State) : State :=
  let k := ts.length
  let home := ts.headD 0
  let start (i : Nat) : Nat := i * (o.spans / k) + min i (o.spans % k)
  each ts.zipIdx (fun t s =>
    let lo := start t.2
    let hi := start (t.2 + 1)
    dealTo ((List.range (hi - lo)).map fun i =>
      { ctx := c, seq := o.seq, row := b.1, col := b.2, span := lo + i, last := decide (lo + i + 1 = hi),
        home := home, wave := o.waves, away := o.spans - start 1 }) t.1 s) s

/-- Do any tiles, or saved chains, still hold billets of the operation to run? -/
def State.dealing (s : State) (c q p : Nat) : Bool :=
  ((s.tilesOf p).any fun t => (s.tile t).deal.any fun b => b.ctx = c && b.seq = q) ||
    (s.ctx c).chains.any fun x => x.seq = q

/-- Deal what comes next once every tile has run what it was dealt: the next wave, then held quads as further waves, then
blocks to be dealt again (R37, R45). -/
def dealMore (c q : Nat) (s : State) : State :=
  match s.op? c q with
  | none => s
  | some o =>
    let p := s.partOf c
    let ts := s.dealTiles p
    if o.done.isSome || !o.started || o.deal = 0 || ts.isEmpty || s.dealing c q p || !s.holds c then s
    else if o.deal = 1 && o.dealt < waveCount o (s.groupsOf p).length then
      dealWave c o p o.dealt (s.onOp c q fun o => { o with dealt := o.dealt + 1 })
    else if !o.heldQ.isEmpty then
      let s := newWaves c q 1 (s.onOp c q fun o => { o with heldQ := o.heldQ.drop ts.length })
      each ((o.heldQ.take ts.length).zip ts) (fun x s => dealTo (quadBillets c o x.2 o.waves x.1) x.2 s) s
    else if !o.redo.isEmpty then
      dealSingles c o o.redo ts (s.onOp c q fun o => { o with redo := [] })
    else s

/-- Choose the deal case of a matrix or vector operation and deal (R36, R155). -/
def firstDeal (c q : Nat) (s : State) : State :=
  match s.op? c q with
  | none => s
  | some o =>
    let p := s.partOf c
    let ts := s.dealTiles p
    let n := ts.length
    let b := o.rows * o.cols
    if n = 0 || o.deal ≠ 0 then s
    else if o.kind = 1 && 4 * n ≤ b then
      dealMore c q (s.onOp c q fun o => { o with deal := 1 })
    else if o.kind = 2 || n ≤ b then
      dealSingles c o (allBlocks o) ts (s.onOp c q fun o => { o with deal := 2 })
    else
      let k := min o.spans (n / b)
      each (allBlocks o).zipIdx (fun x s => dealSplit c o x.1 ((ts.drop (x.2 * k)).take k) s)
        (newWaves c q 1 (s.onOp c q fun o => { o with deal := 3 }))

/-! ### Operand blocks (R29, R34, R38, R68, R76, R154) -/

/-- Read `n` rows of a packed operand from row `r0`, `len` elements from `k0`, as far as rows lie below `lim`. -/
def readRows (s : State) (c base pitch bitsPer r0 lim k0 len : Nat) : Nat → Except MemErr (List (List Byte))
  | 0 => .ok []
  | n + 1 =>
    if lim ≤ r0 then .ok []
    else match s.ctxRead c (base + r0 * pitch + k0 * bitsPer / 8) (ceilDiv (len * bitsPer) 8) with
    | .error e => .error e
    | .ok bs =>
      match readRows s c base pitch bitsPer (r0 + 1) lim k0 len n with
      | .error e => .error e
      | .ok rest => .ok (bs :: rest)

/-- Scale bytes of lines `r0` and following below `lim`, for `nb` blocks from block `j0`. -/
def readScales (s : State) (c base pitch r0 lim j0 nb : Nat) : Nat → Except MemErr (List (List Nat))
  | 0 => .ok []
  | n + 1 =>
    if lim ≤ r0 then .ok []
    else match s.ctxRead c (base + r0 * pitch + j0) nb with
    | .error e => .error e
    | .ok bs =>
      match readScales s c base pitch (r0 + 1) lim j0 nb n with
      | .error e => .error e
      | .ok rest => .ok (bs.map (·.toNat) :: rest)

/-- Where an operand block lies: address and pitch of its lines, bits of an element, first line, lines in all; address of the
operand's scales. -/
def Op.side (o : Op) (isB : Bool) (idx : Nat) : Nat × Nat × Nat × Nat × Nat × Nat :=
  if isB then (o.bAddr, o.ldb, fmtBits o.bFmt, 128 * idx, o.n, o.scaleAddr + o.scaleRows * o.scaleRow)
  else (o.aAddr, o.lda, fmtBits o.aFmt, 128 * idx, o.m, o.scaleAddr)

/-- The areas of memory that an operand block of a span takes, line by line, its scales with it. -/
def Op.opndAreas (o : Op) (isB : Bool) (idx span : Nat) : List (Nat × Nat) :=
  let d := o.side isB idx
  let k := o.spanAt span
  ((List.range (min 128 (d.2.2.2.2.1 - d.2.2.2.1))).flatMap fun i =>
    [(d.1 + (d.2.2.2.1 + i) * d.2.1 + k.1 * d.2.2.1 / 8, ceilDiv (k.2 * d.2.2.1) 8)] ++
      (if isMx o.aFmt then [(d.2.2.2.2.2 + (d.2.2.2.1 + i) * o.scaleRow + k.1 / 32, ceilDiv k.2 32)] else []))

/-- The operand block of a billet's span: its lines within the operand, packed, and their scale bytes; lines beyond the edge
are absent, and feed zeros (R29). -/
def readOpnd (s : State) (o : Op) (b : Billet) (isB : Bool) : Except MemErr Opnd :=
  let idx := if isB then b.col else b.row
  let d := o.side isB idx
  let k := o.spanAt b.span
  match readRows s b.ctx d.1 d.2.1 d.2.2.1 d.2.2.2.1 d.2.2.2.2.1 k.1 k.2 128 with
  | .error e => .error e
  | .ok ls =>
    let x : Opnd := { ctx := b.ctx, seq := b.seq, wave := b.wave, span := b.span, isB := isB, idx := idx, lines := ls, scales := [] }
    if isMx o.aFmt then
      match readScales s b.ctx d.2.2.2.2.2 o.scaleRow d.2.2.2.1 d.2.2.2.2.1 (k.1 / 32) (ceilDiv k.2 32) 128 with
      | .error e => .error e
      | .ok sc => .ok { x with scales := sc }
    else .ok x

/-- Is an operand block the one that a billet needs? -/
def Opnd.serves (x : Opnd) (b : Billet) (isB : Bool) : Bool :=
  x.ctx = b.ctx && x.seq = b.seq && x.wave = b.wave && x.span = b.span && x.isB = isB &&
    decide (x.idx = if isB then b.col else b.row)

/-- An operand block as a tile holds it in its ring. -/
def Tile.opnd? (x : Tile) (b : Billet) (isB : Bool) : Option Opnd := x.opnds.find? fun y => y.serves b isB

/-- The multicast of an operand block lands on every tile of the partition whose billets of that wave and span use it
(R38). -/
def landOpnd (p : Nat) (y : Opnd) (s : State) : State :=
  each ((s.tilesOf p).filter fun t => (s.tile t).deal.any fun b => y.serves b y.isB) (fun t s =>
    s.onTile t fun x => { x with opnds := x.opnds ++ [y] }) s

/-- One operand block of a billet: as the tile holds it, else the scheduler reads it once and multicasts it (R38). The read
happens when the first billet of the wave and span that needs the block ends (DESIGN CHOICE, log entry 12). -/
def fetchOpnd (t : Nat) (o : Op) (b : Billet) (isB : Bool) (s : State) : State × Except MemErr Opnd :=
  match (s.tile t).opnd? b isB with
  | some y => (s, .ok y)
  | none =>
    let areas := o.opndAreas isB (if isB then b.col else b.row) b.span
    match access (s.schedPayer b.ctx b.seq (16 + 256 * t + b2n isB)) (areas.map fun a => flitsOf a.1 a.2).sum areas [] s with
    | (false, s) => (s, .error { ch := 0, cause := 0 })
    | (true, s) => match readOpnd s o b isB with
      | .error e => (s, .error e)
      | .ok y => (landOpnd (s.partOf b.ctx) y s, .ok y)

/-- Both operand blocks of a billet. -/
def fetchOpnds (t : Nat) (o : Op) (b : Billet) (s : State) : State × Except MemErr (Opnd × Opnd) :=
  match fetchOpnd t o b false s with
  | (s, .error e) => (s, .error e)
  | (s, .ok x) => match fetchOpnd t o b true s with
    | (s, .error e) => (s, .error e)
    | (s, .ok y) => (s, .ok (x, y))

/-- Operand blocks that no billet of the tile needs any more leave its ring (R34). -/
def dropOpnds (x : Tile) : Tile := { x with opnds := x.opnds.filter fun y => x.deal.any fun b => y.serves b y.isB }

/-- What a billet drains on a tile whose array is disturbed by `fx`, from its operand blocks (R42, R79–R84, R91–R94). -/
def runBillet (s : State) (o : Op) (b : Billet) (x y : Opnd) (fx : List CellFx) : Drained :=
  let len := (o.spanAt b.span).2
  let nb := ceilDiv len 32
  let raw (w : Nat) (row : List Byte) : List Nat :=
    (List.range (32 * nb)).map fun i => if i < len then packedAt row w i else 0
  let all {α : Type} (zero : α) (l : List α) : List α := l ++ List.replicate (128 - l.length) zero
  if floatPath o.aFmt then
    let val (row : List Byte) : List FV := (raw 16 row).map (fmtOf o.aFmt).decode
    let zero : List FV := (List.replicate (32 * nb) 0).map (fmtOf o.aFmt).decode
    floatBillet (all zero (x.lines.map val)) (all zero (y.lines.map val)) fx
  else
    let tbl := (SMap.get (fun _ => Slot.empty) (s.ctx b.ctx).tbl o.tblSlot).image
    let blocks (f w : Nat) (isB : Bool) (row : List Byte) : List (List (Option Int)) :=
      by32 (((raw w row).zipIdx).map fun v => if v.2 < len then exactElem f tbl isB v.1 else some 0) nb
    let zero : List (List (Option Int)) := List.replicate nb (List.replicate 32 (some 0))
    let one : List Nat := List.replicate nb 127
    (exactBillet o.anchor (all zero (x.lines.map (blocks o.aFmt (fmtBits o.aFmt) false)))
      (all zero (y.lines.map (blocks o.bFmt (fmtBits o.bFmt) true))) (all one x.scales) (all one y.scales)
      (isMx o.aFmt) (min 128 (o.m - 128 * b.row)) (min 128 (o.n - 128 * b.col)) fx).openFlags x.lines.flatten y.lines.flatten

/-! ### Banks, drain and the finished-tile queue (R32, R35, R39) -/

/-- Does a bank or partial belong to this block? -/
def Bank.isFor (x : Bank) (c q row col : Nat) : Bool := x.ctx = c && x.seq = q && x.row = row && x.col = col

/-- Drain the finished banks of a tile into free entries of its queue, oldest first (R35). A conversion draws 16,384
free values for its random bits. The entry carries its flag byte (R89). -/
def drainBanks (t : Nat) (s : State) : Nat → State
  | 0 => s
  | n + 1 =>
    let x := s.tile t
    match x.banks.find? (·.done) with
    | none => s
    | some k =>
      if 4 ≤ x.ftq.length then s
      else match s.op? k.ctx k.seq with
      | none => drainBanks t (s.onTile t fun x => { x with banks := x.banks.erase k }) n
      | some o =>
        let d := drainBlock o.cFmt (floatPath o.aFmt) o.anchor o.rnd o.outSat s.freeCtr k.cells
        let e : FtqEntry := { ident := o.ident k.row k.col (o.spans - 1), ctx := k.ctx, seq := k.seq, row := k.row,
                              col := k.col, data := d.1, flags := k.flags ||| d.2, writing := false, written := false }
        let s := if o.rnd then s.drawnN 16384 else s
        drainBanks t (s.onTile t fun x => { x with banks := x.banks.erase k, ftq := x.ftq ++ [e] }) n

/-- A tile as a unit that accesses memory for an operation: `k` 0 loads a block, 1 writes one, 2 reads side vectors. -/
def tilePayer (c q t k : Nat) : Payer := { ctx := c, seq := q, unit := 2 ^ 20 + 64 * k + t, agent := 4 * t }

/-- Load the blocks of a VECTOR operation at the head of a tile's deal list into free entries (R155). -/
def loadVector (t : Nat) (s : State) : Nat → State
  | 0 => s
  | n + 1 =>
    let x := s.tile t
    match x.deal with
    | [] => s
    | b :: rest =>
      match s.op? b.ctx b.seq with
      | none => s
      | some o =>
        if o.kind ≠ 2 || 4 ≤ x.ftq.length || x.stopped then s
        else
          let sz := fmtBits o.cFmt / 8
          let nc := min 128 (o.n - 128 * b.col)
          let base := o.aAddr + 128 * b.col * sz
          let areas := (List.range (min 128 (o.m - 128 * b.row))).map fun i => (base + (128 * b.row + i) * o.lda, nc * sz)
          match access (tilePayer b.ctx b.seq t 0) (areas.map fun a => flitsOf a.1 a.2).sum areas [] s with
          | (false, s) => s
          | (true, s) => match readRows s b.ctx base o.lda (8 * sz) (128 * b.row) o.m 0 nc 128 with
            | .error e => opMemError b.ctx b.seq e 0 s
            | .ok rows =>
              let bs := rows.flatMap fun r => padTo (128 * sz) r
              let e : FtqEntry := { ident := o.ident b.row b.col 0, ctx := b.ctx, seq := b.seq, row := b.row,
                                    col := b.col,
                                    data := bs.zipIdx.filterMap fun p => if p.1 = 0 then none else some (p.2, p.1),
                                    flags := 0, writing := false, written := false }
              loadVector t (s.onTile t fun x => { x with deal := rest, ftq := x.ftq ++ [e] }) n

/-- What a free entry lets go on: stopped final drains, blocks of a VECTOR (R35, R155). -/
def refillQueue (t : Nat) (s : State) : State :=
  let s := loadVector t (drainBanks t s 8) 4
  let x := s.tile t
  let s := if x.ended && !x.stopped && !(x.banks.any (·.done)) then s.onTile t fun x => { x with ended := false } else s
  stallSync t (syncTile t s)

/-- Begin the deal of a matrix or vector operation; tiles load the blocks of a VECTOR at once (R36, R155). -/
def beginDeal (c q : Nat) (s : State) : State :=
  each (s.tilesOf (s.partOf c)) refillQueue (firstDeal c q s)

/-- Add a partial into its block's bank, in the order in which it became ready (R32, R39, R83, R85). -/
def joinPartial (t : Nat) (float : Bool) (p : Bank) (s : State) : State :=
  s.onTile t fun x =>
    { x with banks := x.banks.map fun k =>
        if k.isFor p.ctx p.seq p.row p.col && !k.done then
          let r := joinBanks float k.cells p.cells
          { k with cells := r.1, flags := k.flags ||| p.flags ||| r.2 }
        else k }

/-- A partial of another tile counts down what the block's bank still awaits. -/
def arrived (t : Nat) (p : Bank) (s : State) : State :=
  s.onTile t fun x =>
    { x with banks := x.banks.map fun k =>
        if k.isFor p.ctx p.seq p.row p.col && !k.done then { k with await := k.await - 1 } else k }

/-- A bank whose own spans and awaited partials are all in is done (R32, R39). -/
def settle (t c q row col : Nat) (ownLast : Bool) (s : State) : State :=
  s.onTile t fun x =>
    { x with banks := x.banks.map fun k =>
        if k.isFor c q row col then
          { k with ownDone := k.ownDone || ownLast, done := k.done || ((k.ownDone || ownLast) && k.await = 0) }
        else k }

/-- The home tile takes one of its own partials (R32, R39): the first initialises the bank, which awaits the partials of the
spans that other tiles run, and partials that waited for it follow in their order of arrival. The tile of a pair's odd
group awaits none: what it holds is never written out. -/
def ownPartial (t : Nat) (o : Op) (b : Billet) (p : Bank) (s : State) : State :=
  let float := floatPath o.aFmt
  let x := s.tile t
  let s :=
    if x.banks.any fun k => k.isFor b.ctx b.seq b.row b.col then joinPartial t float p s
    else
      let early := x.early.filter fun k => k.isFor b.ctx b.seq b.row b.col
      let s := s.onTile t fun x =>
        { x with banks := x.banks ++ [{ p with await := if s.secondary t then 0 else b.away }],
                 early := x.early.filter fun k => !k.isFor b.ctx b.seq b.row b.col }
      each early (fun k s => arrived t k (joinPartial t float k s)) s
  settle t b.ctx b.seq b.row b.col b.last s

/-! ### Saved chains (R47, R51, R53, R138) -/

/-- The unfinished chains of context `c` that tile `t` holds, of operations that go on, by output block and next span. -/
def State.chainsOn (s : State) (c t : Nat) : List SavedChain :=
  let x := s.tile t
  let live (d q : Nat) : Bool := d = c && (s.op? c q).any (·.done.isNone)
  let bs := (x.deal.filter fun b => live b.ctx b.seq).map fun b => (b.seq, b.row, b.col)
  let ks := ((x.banks ++ x.early ++ x.sent).filter fun k => live k.ctx k.seq).map fun k => (k.seq, k.row, k.col)
  (bs ++ ks).dedup.map fun k =>
    let mine (b : Bank) : Bool := b.isFor c k.1 k.2.1 k.2.2
    let todo := x.deal.filter fun b => b.ctx = c && b.seq = k.1 && b.row = k.2.1 && b.col = k.2.2
    let bank := x.banks.find? mine
    { seq := k.1, row := k.2.1, col := k.2.2, todo := todo, bank := bank,
      next := (todo.head?.map (·.span)).getD (((s.op? c k.1).map (·.spans)).getD 0),
      main := bank.isSome || todo.any (fun b => b.home = t) || x.early.any mine,
      early := x.early.filter mine, sent := x.sent.filter mine, from' := t,
      redo := x.recompute && x.deal.head?.any fun b => b.ctx = c && b.seq = k.1 && b.row = k.2.1 && b.col = k.2.2 }

/-- Save what a tile holds for a context (step 3 of R174; R51, R138, R173). The operand ring is not saved, and of a pair
the tile of the even group is saved. -/
def saveTile (c t : Nat) (s : State) : State :=
  if s.secondary t then s
  else
    let x := s.tile t
    let cs := s.chainsOn c t
    s.onCtx c fun y => { y with
      chains := y.chains ++ cs,
      saved := SMap.put (fun _ => SavedTile.init) y.saved t { ftq := x.ftq, vxe := x.vxe } }

/-- Put a saved queue and vector engine on a tile. -/
def loadEngine (t : Nat) (y : SavedTile) (s : State) : State :=
  let v := y.vxe
  let s := s.onTile t fun x => { x with ftq := y.ftq, vxe := v }
  let s := ((s.wr (F.VXE_STATUS_PC t) v.pc).wr (F.VXE_STATUS_KSLOT t) v.kslot).wr (F.VXE_STATUS_LOOP_DEPTH t) v.loops.length
  let s := (s.wr (F.VXE_STATUS_PEND_SUMM t) v.summs.length).setReg (R.VXE_STAT t) (w64 v.stat)
  let s := s.wr (F.VXE_CTL_PERM_TRAP t) (fieldAt v.image 1 1)
  s.wr (F.VXE_STATUS_STATE t) (if v.wout.isSome then 3 else if v.full then 4 else if v.run then 2 else 1)

/-- A tile whose queue is empty and whose vector engine runs no kernel. -/
def Tile.engineIdle (x : Tile) : Bool := x.ftq.isEmpty && !x.vxe.run

/-- The tile for a saved queue: its own, or one whose queue and vector engine hold nothing; none: it waits. -/
def State.engineTile (s : State) (p t : Nat) : Option Nat :=
  if s.deals t then (if (s.tile t).engineIdle then some t else none)
  else (s.dealTiles p).find? fun u => (s.tile u).engineIdle

/-- Place one saved queue and vector engine. What a tile that has left service for good saved without an entry or a kernel
is dropped; that of a tile under test waits for it. -/
def placeEngine (c p t : Nat) (y : SavedTile) (s : State) : State :=
  let gone (s : State) : State := s.onCtx c fun x => { x with saved := SMap.del t x.saved }
  if y.ftq.isEmpty && !y.vxe.run && !s.deals t then (if s.rd (F.MXA_STATUS_STATE t) = 4 then s else gone s)
  else match s.engineTile p t with
    | none => s
    | some u => each (s.pairOf u) (fun w s => if w = u then loadEngine w y s else s.onTile w fun x => { x with ftq := y.ftq })
        (gone s)

/-- The tile that a saved chain goes to: its own; else, of the tiles that are dealt to and have a bank free, the first with
the fewest billets (DESIGN CHOICE, log entry 135). None: it waits. -/
def State.chainTile (s : State) (p : Nat) (k : SavedChain) : Option Nat :=
  let room (t : Nat) : Bool := decide ((s.tile t).banks.length < 8)
  if s.deals k.from' then (if room k.from' then some k.from' else none)
  else
    let ts := (s.dealTiles p).filter room
    let n := (ts.map fun t => (s.tile t).deal.length).min?.getD 0
    ts.find? fun t => decide ((s.tile t).deal.length = n)

/-- The block of a chain has a new home tile: its billets and partials, held and saved, name it (R39, R51). -/
def rehome (c p : Nat) (k : SavedChain) (t : Nat) (s : State) : State :=
  let bil (b : Billet) : Billet :=
    if b.ctx = c && b.seq = k.seq && b.row = k.row && b.col = k.col then { b with home := t } else b
  let prt (b : Bank) : Bank := if b.isFor c k.seq k.row k.col then { b with home := t } else b
  let s := each (s.tilesOf p) (fun u s => s.onTile u fun x => { x with deal := x.deal.map bil, sent := x.sent.map prt }) s
  s.onCtx c fun x => { x with chains := x.chains.map fun j => { j with todo := j.todo.map bil, sent := j.sent.map prt } }

/-- Put a saved chain on a tile, and on its partner: its billets, its bank, its partials. A pending recompute is run first,
as a recompute on the tile that it was recorded against, elsewhere as a first attempt (R53). -/
def loadChain (c p t : Nat) (k : SavedChain) (s : State) : State :=
  let here (b : Billet) : Billet := if k.main then { b with home := t } else b
  let s := if k.main then rehome c p k t s else s
  let redo := k.redo && decide (t = k.from')
  let todo := k.todo.map here
  each (s.pairOf t) (fun u s => s.onTile u fun x =>
    { x with deal := if redo then todo.take 1 ++ placeBillets (todo.drop 1) x.deal else placeBillets todo x.deal,
             banks := x.banks ++ k.bank.toList.map fun b => if u = t then { b with home := t } else { b with await := 0, home := t },
             early := if u = t then x.early ++ k.early else x.early,
             sent := if u = t then x.sent ++ k.sent else x.sent,
             recompute := x.recompute || redo, deferred := x.deferred || redo }) s

/-- Place one saved chain, when a tile takes it. -/
def placeChain (c p : Nat) (k : SavedChain) (s : State) : State :=
  match s.chainTile p k with
  | none => s
  | some t => loadChain c p t k (s.onCtx c fun x => { x with chains := x.chains.erase k })

/-- Place what is saved of a context that holds its partition, on the tiles that take it (step 5 of R174; R47, R51, R53,
R138): queues and vector engines, chains with a recompute, the other chains. -/
def placeSaved (c : Nat) (s : State) : State :=
  let p := s.partOf c
  if ((s.ctx c).saved.isEmpty && (s.ctx c).chains.isEmpty) || !s.holds c then s
  else
    let s := each ((s.ctx c).saved.filter fun e => s.deals e.1) (fun e s => placeEngine c p e.1 e.2 s) s
    let s := each (s.ctx c).saved (fun e s => placeEngine c p e.1 e.2 s) s
    let s := each (List.range (s.ctx c).chains.length) (fun _ s =>
      match (s.ctx c).chains.find? fun k => k.redo && s.deals k.from' with
      | some k => placeChain c p k s
      | none => s) s
    let n := (s.ctx c).chains.length
    let s := each (List.range n) (fun i s =>
      match (s.ctx c).chains[i - (n - (s.ctx c).chains.length)]? with
      | some k => placeChain c p k s
      | none => s) s
    each ((s.tilesOf p).filter s.tileServes) refillQueue s

/-- What was saved and waits for room is placed, once a bank or an entry has become free. -/
def placeDue (t : Nat) (s : State) : State :=
  match s.tileCtx t with
  | some c => placeSaved c s
  | none => s

/-- Free the oldest entry of a tile's queue (R35). -/
def freeEntry (t : Nat) (s : State) : State :=
  placeDue t (refillQueue t (s.onTile t fun x => { x with ftq := x.ftq.drop 1 }))

/-! ### The end of an operation's work (R35, R89, R90, R123) -/

/-- The work of a matrix or vector operation ends when every block has been written, or ended without a write, and no
kernel of it runs (R35, R123). -/
def workDone (c q : Nat) (s : State) : State :=
  match s.op? c q with
  | none => s
  | some o =>
    let mine (v : Vxe) : Bool := v.run && decide (v.opKey = some (c, q))
    let busy := (s.tilesOf (s.partOf c)).any (fun t => mine (s.tile t).vxe) || (s.ctx c).saved.any fun e => mine e.2.vxe
    if o.isMatrix && decide (o.written.length = o.rows * o.cols) && !busy then endOp c q stOK 0 0 s else s

/-- A block counts as written (R45, R123), and its flag byte counts (R89, R90). -/
def blockDone (c q row col flags : Nat) (s : State) : State :=
  workDone c q (s.onOp c q fun o =>
    if o.written.contains (row, col) then o
    else { o with written := (row, col) :: o.written, aflags := o.aflags ||| flags })

/-! ### Retirement (R44, R45, R50, R55) -/

/-- Discard what the tiles of a partition hold, and what is saved, of some blocks of an operation. A recompute of a billet
that goes is no more pending. -/
def dropBlocks (c q p : Nat) (bs : List (Nat × Nat)) (s : State) : State :=
  let at' (d r row col : Nat) : Bool := d = c && r = q && bs.contains (row, col)
  let mine (k : Bank) : Bool := at' k.ctx k.seq k.row k.col
  let bil (b : Billet) : Bool := at' b.ctx b.seq b.row b.col
  let ent (e : FtqEntry) : Bool := at' e.ctx e.seq e.row e.col
  let s := each (s.tilesOf p) (fun t s => syncTile t (s.onTile t fun x =>
    let head := x.deal.head?.any bil
    dropOpnds { x with deal := x.deal.filter fun b => !bil b, banks := x.banks.filter (fun k => !mine k),
                       early := x.early.filter (fun k => !mine k), sent := x.sent.filter (fun k => !mine k),
                       ftq := x.ftq.filter fun e => !ent e, recompute := x.recompute && !head,
                       deferred := x.deferred && !head, pairPart := if head then none else x.pairPart })) s
  s.onCtx c fun x =>
    { x with chains := x.chains.filter fun k => !at' c k.seq k.row k.col,
             saved := x.saved.map fun e => (e.1, { e.2 with ftq := e.2.ftq.filter fun f => !ent f }) }

/-- The blocks of an operation that a tile holds; an entry that has been written no more (R45). -/
def Tile.blocks (x : Tile) (c q : Nat) : List (Nat × Nat) :=
  (((x.deal.filter fun b => b.ctx = c && b.seq = q).map fun b => (b.row, b.col)) ++
    (((x.banks ++ x.sent).filter fun k => k.ctx = c && k.seq = q).map fun k => (k.row, k.col)) ++
    ((x.ftq.filter fun e => e.ctx = c && e.seq = q && !e.written).map fun e => (e.row, e.col)) ++
    (if x.vxe.run && x.vxe.opKey = some (c, q) then [(x.vxe.block.1, x.vxe.block.2.1)] else [])).dedup

/-- The blocks of an operation that a tile holds and that are not written to memory (R45). -/
def Op.unwritten (o : Op) (x : Tile) (c : Nat) : List (Nat × Nat) :=
  (x.blocks c o.seq).filter fun b => !o.written.contains b

/-- Blocks by the quads of the wave layout that they belong to, in the order in which they first appear (R37). -/
def byQuad (bs : List (Nat × Nat)) : List (List (Nat × Nat)) :=
  ((bs.map fun b => (b.1 / 2, b.2 / 2)).dedup).map fun k => bs.filter fun b => decide (b.1 / 2 = k.1) && decide (b.2 / 2 = k.2)

/-- Take the blocks that a tile holds away from it, to be dealt again from their first span: as quads after the last wave
where the operation was dealt in quad waves, else as single blocks (R37, R45). -/
def redeal (t : Nat) (s : State) : State :=
  match s.tileCtx t with
  | none => s
  | some c =>
    let p := s.partOf c
    let s := each ((s.ctx c).ops.filter (·.isMatrix)) (fun o s =>
      let bs := o.unwritten (s.tile t) c
      if bs.isEmpty then s
      else (dropBlocks c o.seq p bs s).onOp c o.seq fun o =>
        if o.deal = 1 then { o with heldQ := o.heldQ ++ byQuad bs } else { o with redo := o.redo ++ bs }) s
    each ((s.ctx c).ops.filter (·.isMatrix)) (fun o s => each (s.tilesOf p) refillQueue (dealMore c o.seq s)) s

/-- Is every tile of a partition out of service, none under test (R55)? -/
def State.noTile (s : State) (p : Nat) : Bool :=
  (s.tilesOf p).all fun t => let k := s.rd (F.MXA_STATUS_STATE t); k = 5 || k = 7

/-- After a tile has left service: its blocks are dealt again, and it is cleared. An operation whose last block was written
before its tile left has ended (R45). -/
def afterRetire (t : Nat) (s : State) : State :=
  let c := s.tileCtx t
  let s := clearTile t (redeal t s)
  match c with
  | none => s
  | some c => each ((s.ctx c).ops.filter (·.isMatrix)) (fun o s => workDone c o.seq s) s

/-- A tile that retires: the cell position and the bits of DETAIL byte 14 of its record (R44, R474). -/
structure Retiring where
  tile : Nat
  row  : Nat
  col  : Nat
  bits : Nat
  deriving DecidableEq, Repr

/-- The status and the record of a tile that retires (R44). RETIRED_BY_WITNESS is set for a residue failure too, which
retires the tile "as R44 lays down" (R136; DESIGN CHOICE, log entry 136: R59 names only a second mismatch and a failed
self-test). -/
def retireRecord (ident : Nat) (r : Retiring) (s : State) : State :=
  let t := r.tile
  let s := if r.bits.testBit 3 then s.wr (F.MXA_WIT_STATUS_PAIR_DISAGREE t) 1 else s.wr (F.MXA_WIT_STATUS_RETIRED_BY_WITNESS t) 1
  reportFault 0x0102 (srcTile t) (s.tileCtx t).toList (s.partOfGroup (t / 8)) t ident [byte r.row, byte r.col, byte r.bits] s

/-- A partition whose last tile has left service faults (R55). -/
def noTileFault (p : Nat) (s : State) : State :=
  let k := s.rd (F.SCH_STATUS_STATE p)
  if s.noTile p && (k = 1 || k = 2 || k = 3) then
    reportFault 0x0103 (srcGroup ((s.groupsOf p).headD 0)) [] (some p) 0 0 [] s
  else s

/-- Retire tiles (R44, R45, R50): their states, their records, the blocks they held; the healthy partner of one that retires
without a disagreement of the pair is PAIR_LOST. A partition without a tile faults (R55). -/
def retireTiles (rs : List Retiring) (ident : Nat) (s : State) : State :=
  let s := each rs (fun r s => s.wr (F.MXA_STATUS_STATE r.tile) 5) s
  let lost := (rs.filter fun r => s.paired r.tile && !r.bits.testBit 3 && s.tileServes (s.partner r.tile)).map fun r =>
    s.partner r.tile
  let s := each lost (fun u s => s.wr (F.MXA_STATUS_STATE u) 7) s
  let s := each rs (retireRecord ident) s
  let s := each (rs.map (·.tile) ++ lost) afterRetire s
  match rs.head?.bind fun r => s.partOfGroup (r.tile / 8) with
  | none => s
  | some p => noTileFault p s

/-! ### A billet's end (R42, R43, R49, R53) -/

/-- Record a mismatch in MXA_WIT_STATUS (R59). Where only lines of one kind disagree, the position of the other kind is 0
(DESIGN CHOICE, log entry 137). -/
def witnessSeen (t : Nat) (d : Drained) (float : Bool) (s : State) : State :=
  let s := (s.wr (F.MXA_WIT_STATUS_LAST_ROW t) (d.badRows.headD 0)).wr (F.MXA_WIT_STATUS_LAST_COL t) (d.badCols.headD 0)
  let s := (s.wr (F.MXA_WIT_STATUS_ROW_MULTI t) (b2n (decide (1 < d.badRows.length)))).wr (F.MXA_WIT_STATUS_COL_MULTI t)
    (b2n (decide (1 < d.badCols.length)))
  s.wr (F.MXA_WIT_STATUS_FMT_CLASS t) (b2n float)

/-- What the record of a tile says that retires by its own witness: the mismatch that its MXA_WIT_STATUS holds (R44, R474). -/
def State.ownRetiring (s : State) (t : Nat) : Retiring :=
  { tile := t, row := s.rd (F.MXA_WIT_STATUS_LAST_ROW t), col := s.rd (F.MXA_WIT_STATUS_LAST_COL t),
    bits := s.rd (F.MXA_WIT_STATUS_ROW_MULTI t) + 2 * s.rd (F.MXA_WIT_STATUS_COL_MULTI t) +
      4 * s.rd (F.MXA_WIT_STATUS_FMT_CLASS t) }

/-- What the record of a tile says that retires on a disagreement of its pair (R50). -/
def pairRetiring (float : Bool) (t : Nat) : Retiring := { tile := t, row := 0, col := 0, bits := 4 * b2n float + 8 }

/-- A billet whose check failed for the first time is computed again before any other, or at the next slice (R43, R53). -/
def firstMismatch (c ident t : Nat) (s : State) : State :=
  let s := s.onTile t fun x => { x with recompute := true, deferred := x.stopped, ended := x.stopped || x.ended,
                                        missAt := s.now, pairPart := none }
  let s := s.wr (F.MXA_WIT_STATUS_FIRST t) 1
  let s := if (s.tile t).stopped then s.wr (F.MXA_WIT_STATUS_DEFERRED t) 1 else s
  reportFault 0x0101 (srcTile t) [c] (some (s.partOf c)) t ident [] s

/-- A partial that a billet drained. -/
def partialOf (b : Billet) (d : Drained) : Bank :=
  { ctx := b.ctx, seq := b.seq, row := b.row, col := b.col, span := b.span, ownDone := false, done := false, await := 0,
    cells := bankOf d.cells, flags := d.flags, home := b.home }

/-- A billet passed on a tile: counted (R60), a mismatch recovered counted too (R43), its partial joined, or sent to its home
tile, or discarded where the operation has ended (R32, R39, R135). The tile of a pair's odd group sends none. -/
def acceptBillet (o : Op) (b : Billet) (p : Bank) (t : Nat) (s : State) : State :=
  let s := if (s.tile t).recompute then s.satInc (F.MXA_WIT_STATUS_FIRST_CNT t) 1 else s
  let s := s.wrapInc (F.MXA_BILLETS_COUNT t) 1
  let s := s.onTile t fun x =>
    dropOpnds { x with deal := x.deal.drop 1, accNet := [], recompute := false, deferred := false, pairPart := none,
                       ended := x.stopped || x.banks.any (·.done) }
  if o.done.isSome then s
  else if s.secondary t then (if b.home = s.partner t then ownPartial t o b p s else s)
  else if b.home = t then ownPartial t o b p s
  else s.onTile t fun x => { x with sent := x.sent ++ [p] }

/-- A billet passed on a tile, or on both tiles of a pair: what it lets go on. -/
def acceptAll (o : Op) (b : Billet) (ts : List (Nat × Bank)) (s : State) : State :=
  let s := each ts (fun x s => acceptBillet o b x.2 x.1 s) s
  let s := each (ts.map (·.1)) (fun t s => placeDue t (refillQueue t s)) s
  dealMore b.ctx b.seq s

/-- The check of a billet that has drained on a tile (R42, R43). Of a pair, the tile that drains second decides for both
(R49, R50): with a mismatch of its own witness on the recompute a tile retires by it; where the partials alone differ, both
retire. -/
def billetChecked (t : Nat) (o : Op) (b : Billet) (d : Drained) (s : State) : State :=
  let float := floatPath o.aFmt
  let own := d.badRows.isEmpty && d.badCols.isEmpty
  let s := if own then s else witnessSeen t d float s
  let ident := o.ident b.row b.col b.span
  let part := partialOf b d
  let again := (s.tile t).recompute
  if !s.paired t then
    if own then acceptAll o b [(t, part)] s
    else if !again then firstMismatch b.ctx ident t s
    else retireTiles [s.ownRetiring t] ident s
  else
    let u := s.partner t
    match (s.tile u).pairPart with
    | none => s.onTile t fun x => { x with pairPart := some (part, own) }
    | some (q, ownU) =>
      if own && ownU && q.cells = part.cells && q.flags &&& fInvalid = part.flags &&& fInvalid then
        acceptAll o b [(t, part), (u, q)] s
      else if !again then firstMismatch b.ctx ident u (firstMismatch b.ctx ident t s)
      else if own && ownU then retireTiles [pairRetiring float t, pairRetiring float u] ident s
      else retireTiles ((if own then [] else [s.ownRetiring t]) ++ (if ownU then [] else [s.ownRetiring u])) ident s

/-- Does a tile compute its head billet? The tiles of a pair compute only together, while both serve, the same billet
(R49); while one of them is under test the other stands still (DESIGN CHOICE, log entry 138). -/
def State.computes (s : State) (t : Nat) : Bool :=
  let x := s.tile t
  !x.ended && s.tileServes t && s.tilesOn &&
    (!s.paired t || (x.pairPart.isNone && s.tileServes (s.partner t) && decide (x.deal.head? = (s.tile (s.partner t)).deal.head?)))

/-- BILLET_END (R42): the head billet of the tile's list ends. -/
def billetEnd (t : Nat) (fx : List CellFx) (s : State) : State :=
  match (s.tile t).deal with
  | [] => s
  | b :: _ =>
    match s.op? b.ctx b.seq with
    | none => placeDue t (refillQueue t (s.onTile t fun x => dropOpnds { x with deal := x.deal.drop 1, recompute := false,
                                                                                deferred := false, pairPart := none }))
    | some o =>
      if o.kind ≠ 1 || !s.computes t then s
      else match fetchOpnds t o b s with
      | (s, .error e) => if e.cause = 0 then operandWait t true s else opMemError b.ctx b.seq e 0 s
      | (s, .ok (a, y)) => billetChecked t o b (runBillet s o b a y fx) (operandWait t false s)

/-- A partial that another tile sent reaches its home tile, and joins the bank or waits for it (R39). While the home tile is
not dealt to, the partial is still on its way. -/
def partialArrival (t src : Nat) (s : State) : State :=
  match (s.tile src).sent.find? fun p => p.home = t with
  | none => s
  | some p =>
    let taken := s.onTile src fun x => { x with sent := x.sent.erase p }
    match s.op? p.ctx p.seq with
    | none => taken
    | some o =>
      if o.done.isSome then taken
      else if !s.deals t then s
      else if (s.tile t).banks.any fun k => k.isFor p.ctx p.seq p.row p.col then
        let s := arrived t p (joinPartial t (floatPath o.aFmt) p taken)
        placeDue t (refillQueue t (settle t p.ctx p.seq p.row p.col false s))
      else taken.onTile t fun x => { x with early := x.early ++ [p] }

/-! ### Writing blocks out (R29, R35, R122) -/

/-- Where row `i` of a block lies in C, and its bytes: those of the columns within N. -/
def Op.cRow (o : Op) (row col szBits i : Nat) : Nat × Nat :=
  (o.cAddr + (128 * row + i) * o.ldc + 128 * col * szBits / 8, ceilDiv (min 128 (o.n - 128 * col) * szBits) 8)

/-- The areas of C that a block takes: its rows within M. -/
def Op.cAreas (o : Op) (row col szBits : Nat) : List (Nat × Nat) :=
  (List.range (min 128 (o.m - 128 * row))).map (o.cRow row col szBits)

/-- Write `rows` rows of a block to C: those within M and N, `sz` bits an element; the bowl holds them 128 to a row. Where a
row ends within a byte, the other half of that byte keeps what memory holds (R122). -/
def writeRows (c : Nat) (o : Op) (row col szBits : Nat) (bs : List Byte) : Nat → Nat → State → State × Option MemErr
  | 0, _, s => (s, none)
  | n + 1, i, s =>
    if o.m ≤ 128 * row + i then (s, none)
    else
      let r := o.cRow row col szBits i
      let data := slice bs (i * (128 * szBits / 8)) r.2
      let half := decide (min 128 (o.n - 128 * col) * szBits % 8 ≠ 0)
      match if half then s.ctxRead c (r.1 + r.2 - 1) 1 else .ok [] with
      | .error e => (s, some e)
      | .ok old =>
        let data := if half then
            data.take (r.2 - 1) ++ [byte ((data.getD (r.2 - 1) 0).toNat % 16 + 16 * ((old.headD 0).toNat / 16))]
          else data
        match s.ctxWrite c r.1 data with
        | (s, some e) => (s, some e)
        | (s, none) => writeRows c o row col szBits bs n (i + 1) s

/-- A tile's network port writes a block to C, its tokens drawn. -/
def writeBlock (t c : Nat) (o : Op) (row col szBits : Nat) (bs : List Byte) (s : State) : State × Option MemErr :=
  let areas := o.cAreas row col szBits
  match access (tilePayer c o.seq t 1) (areas.map fun a => flitsOf a.1 a.2).sum [] areas s with
  | (false, s) => (s, some { ch := 0, cause := 0 })
  | (true, s) => writeRows c o row col szBits bs 128 0 s

/-- BLOCK_WRITTEN (R35): the port finishes the write of the oldest entry of an operation without an epilogue. The tile of a
pair's odd group frees its own entry without a write, and its flag byte does not count (DESIGN CHOICE, log entry 139). -/
def blockWritten (t : Nat) (s : State) : State :=
  match (s.tile t).ftq with
  | [] => s
  | e :: _ =>
    match s.op? e.ctx e.seq with
    | none => freeEntry t s
    | some o =>
      if o.hasKernel then s
      else if s.secondary t then freeEntry t s
      else
        let w := fmtBits o.cFmt
        let bs := (List.range (128 * 128 * w / 8)).map fun i => SMap.get memDefault e.data i
        match writeBlock t e.ctx o e.row e.col w bs s with
        | (s, some err) => opMemError e.ctx e.seq err 0 s
        | (s, none) => blockDone e.ctx e.seq e.row e.col e.flags (freeEntry t s)

end Sys2Proof.Machine
end

