-- ==== Sys2Proof/Machine/Switch.lean ====
section
/-! DEFINITION. Slices and the slice switch (R170–R179), parking, the start of work after a switch, and page faults that
park a context (R226–R230). -/

namespace Sys2Proof.Machine

/-! ### The switch (R174) -/

/-- A tile stops for a switch (R52, R53): a recompute that is pending and has not started is deferred; a tile whose array has
stopped, or whose billet waits for operands, stops at once. A recompute has not started at the Spindle time at which its
mismatch was found, and while the array stands still (DESIGN CHOICE, log entry 140). -/
def stopTile (t : Nat) (s : State) : State :=
  let x := s.tile t
  let waits := x.recompute && (decide (x.missAt = s.now) || x.ended || x.opndAt.isSome)
  let ends := x.ended || x.deal.isEmpty || x.opndAt.isSome || waits
  let s := (stallEnd t s).onTile t fun x => { x with stopped := true, ended := ends, deferred := x.deferred || waits }
  let s := if waits then s.wr (F.MXA_WIT_STATUS_DEFERRED t) 1 else s
  s.wr (F.MXA_STATUS_STATE t) 3

/-- The DMA engines of a partition. -/
def State.enginesOf (s : State) (p : Nat) : List Nat := (s.groupsOf p).flatMap fun g => (List.range 4).map fun i => 4 * g + i

/-- Begin a switch to context `inc`, or to an idle slice (steps 1 and 2): dealing stops, tiles stop at billet
boundaries, engines stop. A tick within a switch changes who comes in. -/
def beginSwitch (p : Nat) (inc : Option Nat) (s : State) : State :=
  let out := match (s.part p).sw with
    | some w => w.out
    | none => s.holderOf p
  let s := match s.holderOf p with
    | some c => s.wr (F.CTXW_RING_STATUS_HOLDING c) 0
    | none => s
  let s := ((s.wr (F.SCH_STATUS_CTX_VALID p) 0).wr (F.SCH_STATUS_CUR_CTX p) 0).wr (F.SCH_STATUS_STATE p) 3
  let s := each ((s.tilesOf p).filter s.tileServes) stopTile s
  let s := each (s.enginesOf p) (fun e s =>
    if (s.engine e).op.isSome && s.rd (F.DMA_ENG_STATUS_STATE e) ≠ 4 then s.wr (F.DMA_ENG_STATUS_STATE e) 3 else s) s
  let s := s.onPart p fun x => { x with sw := some { out := out, inc := inc, since := s.now } }
  traceEvent 0xC003 (srcGroup ((s.groupsOf p).headD 0)) (s.rd (F.SCH_STATUS_ENTRY p)) inc s

/-- Free the engines of a partition; an operation that is not handed over keeps its cursor and waits for an engine again
(R232, R241). -/
def freeEngines (p : Nat) (s : State) : State :=
  each (s.enginesOf p) (fun e s =>
    match (s.engine e).op with
    | none => s
    | some (c, q) =>
      let s := s.onOp c q fun o => { o with
        engine := none, started := o.issued, flushing := false,
        asked := if o.kind = 0x14 then o.asked else o.cursor }
      let s := s.onEngine e fun x => { x with op := none }
      (s.wr (F.DMA_ENG_STATUS_STATE e) 0).wr (F.DMA_ENG_STATUS_OUT_RD e) 0) s

/-- Save the tile states of the outgoing context (step 3; R51, R53, R173): State holds the record as plain data. The record
is a write to the context's channels, which are no more CLEAN (R286). -/
def saveTiles (c p : Nat) (s : State) : State :=
  let s := each ((s.tilesOf p).filter fun t => decide (s.tileCtx t = some c)) (saveTile c) s
  each (s.ctx c).chans (fun ch s => s.onChan ch fun x => { x with clean := false }) s

/-- The injection buckets of a partition's endpoints: those of its tiles and of its groups' agents (R254, R272). -/
def State.injectAgents (s : State) (p : Nat) : List Nat :=
  (s.tilesOf p).map (4 * ·) ++ (s.groupsOf p).map fun g => 4 * groupRouter g + 1

/-- Clear the tiles of a partition that serve, reset the arbitration of the group's router ports, and refill the injection
regulators (step 4). -/
def clearTiles (p : Nat) (s : State) : State :=
  let s := each ((s.tilesOf p).filter s.tileServes) clearTile s
  let s := each (s.links.filter fun e => decide (e.1 / 32 < 64) && (s.tilesOf p).contains (e.1 / 32)) (fun e s =>
    { s with links := SMap.put (fun _ => LinkSt.init) s.links e.1 { e.2 with reqLast := false, turn := [] } }) s
  let agents := s.injectAgents p
  let keep (k : Nat) : Bool := !(decide (4096 ≤ k) && decide (k < 2 ^ 20) && agents.contains ((k - 4096) / 256))
  { s with buckets := SMap.keep keep s.buckets }

/-- Deal what the operations of a context still want (R37, R45). -/
def dealOn (c : Nat) (s : State) : State :=
  each ((s.ctx c).ops.filter (·.isMatrix)) (fun o s => each (s.tilesOf (s.partOf c)) refillQueue (dealMore c o.seq s)) s

/-- Load the saved state of the incoming context on the tiles of its partition, which it holds from now on (step 5; R51,
R57). -/
def loadTiles (c p : Nat) (s : State) : State := dealOn c (placeSaved c (holdTiles c p s))

/-- Can a context be loaded now (R171, R179): in RUN and not parked? -/
def State.loadable (s : State) (c : Nat) : Bool := s.ctxState c = 4 && !s.on (F.CTXW_RING_STATUS_PARKED c)

/-- Has a context work: an operation in flight, or an unread descriptor in the host word last read (R172)? -/
def State.hasWork (s : State) (c : Nat) : Bool :=
  s.loadable c && (!(s.ctx c).ops.isEmpty || decide ((s.ctx c).tail ≠ s.head c))

/-! ### Host words (R147–R149, R180) -/

/-- Count and note an event of the endpoint, a completion timeout among them (R347, R348, R368). -/
def noteError (kind fn : Nat) (c : Option Nat) (s : State) : State :=
  let s := ((s.wr F.GLB_HEP_LAST_ERR_KIND kind).wr F.GLB_HEP_LAST_ERR_RID fn).wr F.GLB_HEP_LAST_ERR_CTX (c.getD 0)
  let s := (s.wr F.GLB_HEP_LAST_ERR_CTX_VALID (b2n c.isSome)).wr F.GLB_HEP_LAST_ERR_VALID 1
  let s := s.onCfg fn fun x => { x with aer := SMap.upd (fun _ => 0) x.aer kind (· + 1) }
  raiseVector 0 4 s

/-- A request of a context reached its completion timeout: it is counted and noted (R347, R348). -/
def noteTimeout (c : Nat) (s : State) : State := noteError 5 (c + 1) (some c) (s.satInc F.GLB_HEP_ERR_CPL_TIMEOUT 1)

/-- A context's fault of the host endpoint, while it is in LOCKED or RUN (R349, R350). -/
def hostFault (code c : Nat) (s : State) : State :=
  if s.endable c then reportFault code (srcHost (c + 1)) [c] (some (s.partOf c)) 0 0 [] s else s

/-- A poisoned completion ends the context that asked (R349). -/
def poisonedCompletion (c : Nat) (s : State) : State :=
  hostFault 0x000B c (noteError 4 (c + 1) (some c) (s.satInc F.GLB_HEP_ERR_POISON_RX 1))

/-- A ring access or an ATS request has failed: its context ends with HOST_RING (R350). -/
def ringFailed (c : Nat) (s : State) : State := hostFault 0x000C c s

/-- Take a host word in: RING_OVERRUN when TAIL is further than the ring holds (R149). -/
def takeHostWord (c w : Nat) (s : State) : State :=
  let tail := bits w 31 0
  if s.ringEntries c < (tail + 2 ^ 32 - s.head c) % 2 ^ 32 then ctxFault 0x0001 c s
  else s.onCtx c fun x => { x with tail := tail, cmplHead := bits w 63 32 }

/-- How the read of a host word in host memory has ended: with the word, with a failed or poisoned completion, or at its
timeout (R347–R350). -/
def hostWordEnds (c : Nat) (w : HostWord) (s : State) : State :=
  match w.st with
  | some .ok => takeHostWord c w.word.toNat s
  | some .poisoned => poisonedCompletion c s
  | some _ => ringFailed c s
  | none => ringFailed c (noteTimeout c s)

/-- Read a context's host word. One in host memory needs a translation, tokens and a slot; the command brings how the read
ends, or nothing (R180, R266, R344). -/
def readHostWord (c : Nat) (hw : List HostWord) (s : State) : State :=
  let x := s.schedPayer c (2 ^ 32) 2
  if s.ctxState c ≠ 4 then s
  else if s.on (F.CTXW_RING_WORDS_SPACE c) then
    match hw.find? (fun w => decide (w.ctx.val = c)), ringXlat c (s.wordsAddr c) false s with
    | some w, (some _, s) =>
      match takeSlot c true s, access x 2 [] [] s with
      | some (k, s), (true, _) => hostWordEnds c w (freeSlot (s.partOf c) k (access x 2 [] [] s).2)
      | none, _ => s
      | some _, (false, s) => s
    | _, (_, s) => s
  else match loadAs x (s.wordsAddr c) 8 s with
    | (s, .ok bs) => takeHostWord c (leNat bs) s
    | (s, .error e) => if e.cause = 0 then s else memFault c e s

/-- Where descriptor `h` of a context lies (R146). -/
def State.descAddr (s : State) (c h : Nat) : Nat := s.rd (F.CTXW_RING_BASE_BASE c) * 4096 + 64 * (h % s.ringEntries c)

/-- The read of a ring in host memory that is outstanding for a context; an abandoned one comes back first (R344, R345). -/
def State.ringRead (s : State) (c : Nat) : Option HostReq := s.hostReqs.find? fun r => decide (r.ctx = c) && decide (r.use = .ring)

/-- Send the read of the run that has been asked for, where the ring lies in host memory: once its page is translated, its
tokens are drawn and a slot is free (R180, R266, R344). -/
def sendRun (c : Nat) (s : State) : State :=
  match (s.ctx c).fetch with
  | none => s
  | some (h, n) =>
    let a := s.descAddr c h
    let sent := s.hostReqs.any fun r => decide (r.ctx = c) && decide (r.use = .ring) && !r.abandoned
    if !s.on (F.CTXW_RING_BASE_SPACE c) || sent || !s.holds c || s.ctxState c ≠ 4 then s
    else match ringXlat c a false s with
      | (none, s) => s
      | (some t, s) =>
        if (takeSlot c true s).isNone then s
        else match access (s.schedPayer c (2 ^ 32) 6) (1 + ceilDiv (64 * n) 128) [] [] s with
          | (false, s) => s
          | (true, s) => (hostIssue c .ring 0 (a / 4096) (a / 4096) (fun id => .hostRead id c 0 t (64 * n)) s).getD s

/-- Ask for the next run of at most 64 descriptors, when some are unread (R147): one read, which in host memory stays within
a page (DEDUCED, log entry 148). -/
def askRun (c : Nat) (s : State) : State :=
  let h := s.head c
  let n := ((s.ctx c).tail + 2 ^ 32 - h) % 2 ^ 32
  if n = 0 || s.ctxState c ≠ 4 then s
  else
    let toEnd := s.ringEntries c - h % s.ringEntries c
    let inPage := if s.on (F.CTXW_RING_BASE_SPACE c) then 64 - s.descAddr c h % 4096 / 64 else 64
    sendRun c (s.onCtx c fun x => { x with fetch := some (h, min inPage (min n toEnd)) })

/-! ### Who gets a slice (R170–R172) -/

/-- The valid entries of a slice table, ascending (R170). -/
def State.cycle (s : State) (p : Nat) : List Nat := (List.range 256).filter fun e => s.on (F.SCH_TABLE_VALID p e)

/-- The entry after the current one; the first at ready. -/
def State.nextEntry (s : State) (p : Nat) : Option Nat :=
  let cyc := s.cycle p
  match cyc.find? fun e => decide (s.rd (F.SCH_STATUS_ENTRY p) < e) with
  | some e => some e
  | none => cyc.head?

/-- The context of the current entry of a partition's table, if the entry is valid (R171). -/
def State.entryCtx (s : State) (p : Nat) : Option Nat :=
  let e := s.rd (F.SCH_STATUS_ENTRY p)
  if s.on (F.SCH_TABLE_VALID p e) then some (s.rd (F.SCH_TABLE_CTX p e)) else none

/-- The work-conserving set of a context in a partition's table, if it belongs to one (R172). -/
def State.wcSet (s : State) (p c : Nat) : Option Nat :=
  ((s.cycle p).find? fun e => decide (s.rd (F.SCH_TABLE_CTX p e) = c) && s.on (F.SCH_TABLE_WC p e)).map fun e =>
    s.rd (F.SCH_TABLE_WC_SET p e)

/-- The entries of a cycle that come after the current one, ending with it (R172). -/
def State.entriesOn (s : State) (p : Nat) : List Nat :=
  let e := s.rd (F.SCH_STATUS_ENTRY p)
  (s.cycle p).filter (fun i => decide (e < i)) ++ (s.cycle p).filter fun i => decide (i ≤ e)

/-- The member of a work-conserving set that comes after context `c` in table order and has work (R172): `c` stands at the
current entry where that names it, else at the next entry that does. -/
def State.nextMember (s : State) (p c : Nat) : Option Nat :=
  match s.wcSet p c with
  | none => none
  | some k =>
    let on := s.entriesOn p
    let order := if s.entryCtx p = some c then on
      else
        let at' := on.takeWhile fun e => s.rd (F.SCH_TABLE_CTX p e) != c
        on.drop (at'.length + 1) ++ at'
    ((order.filter fun e => s.on (F.SCH_TABLE_WC p e) && decide (s.rd (F.SCH_TABLE_WC_SET p e) = k)).map fun e =>
      s.rd (F.SCH_TABLE_CTX p e)).find? fun d => d != c && s.hasWork d

/-- The scheduler reads the host words of the other members of a context's set (R147, R172). -/
def readMembers (p c : Nat) (hw : List HostWord) (s : State) : State :=
  match s.wcSet p c with
  | none => s
  | some n => each ((s.boundTo p).filter fun d => d != c && decide (s.wcSet p d = some n)) (readHostWord · hw) s

/-! ### The end of a switch -/

/-- Does a partition's own slice run with no holder, so that the context of its entry can be loaded within it (R171, R179)? -/
def State.ownSlice (s : State) (p c : Nat) : Bool :=
  decide (s.rd (F.SCH_STATUS_STATE p) = 2) && decide (s.entryCtx p = some c)

/-- What remains of a partition's current slice in µs, from Spindle (R170). -/
def State.sliceLeft (s : State) (p : Nat) : Nat :=
  let n := s.rd (F.SCH_CFG_SLICE_US p)
  let t := s.now / 1000 + n - s.rd (F.SCH_CFG_PHASE_US p)
  if n = 0 then 0 else n - t % n

/-- Load a context within its own slice when at least twice the window remains (R171, R179). -/
def loadInSlice (c : Nat) (s : State) : State :=
  let p := s.partOf c
  if s.ownSlice p c && s.loadable c && 2 * s.rd (F.SCH_SWITCH_WINDOW_US p) ≤ s.sliceLeft p then beginSwitch p (some c) s
  else s

/-- The end of a switch, `us` µs after it began (steps 3 to 6; R175, R176). Where no context comes in, the context of the
slice may have got work, or its last answer, while the switch ran: it is loaded then (R171, R179). -/
def finishSwitch (p us : Nat) (s : State) : State :=
  match (s.part p).sw with
  | none => s
  | some w =>
    let s := match w.out with
      | none => s
      | some c => abandonReads c false (saveTiles c p s)
    let s := clearTiles p (freeEngines p s)
    let s := s.onPart p fun x => { x with sw := none }
    let s := ((s.wrapInc (F.SCH_COUNT_SWITCHES p) 1).wr (F.SCH_SWITCH_LAST_US p) us)
    let s := if us ≤ s.rd (F.SCH_SWITCH_WINDOW_US p) then s
      else bbEvent 0x8040 (srcGroup ((s.groupsOf p).headD 0)) (byte p :: leBytes us 2)
        (s.satInc (F.SCH_SWITCH_OVERRUN p) 1)
    match w.inc.filter s.loadable with
    | some c =>
      let s := ((s.wr (F.SCH_STATUS_CTX_VALID p) 1).wr (F.SCH_STATUS_CUR_CTX p) c).wr (F.SCH_STATUS_STATE p) 1
      let s := s.wr (F.CTXW_RING_STATUS_HOLDING c) 1
      loadTiles c p s
    | none =>
      let s := s.wr (F.SCH_STATUS_STATE p) 2
      match s.entryCtx p with
      | some c => if s.hasWork c then loadInSlice c s else s
      | none => s

/-! ### Parking (R178, R179, R230) -/

/-- The context waits on a page request and is switched out at once; the rest of its slice passes to a member of its
work-conserving set that has work, or stays idle (R178). Host words of the members that lie in device memory are read at
once, those in host memory come with the next poll (DESIGN CHOICE, log entry 141). -/
def park (c : Nat) (s : State) : State :=
  let p := s.partOf c
  let s := s.wr (F.CTXW_RING_STATUS_PARKED c) 1
  if s.holderOf p = some c then
    let s := each (List.range 32) (fun e s =>
      match (s.engine e).op with
      | some (d, _) => if d = c then s.wr (F.DMA_ENG_STATUS_STATE e) 4 else s
      | none => s) s
    let s := readMembers p c [] s
    beginSwitch p (s.nextMember p c) s
  else s

/-- A waiter goes on; a context with no waiter left is no longer parked (R179). -/
def resumeWaiter (w : Waiter) (s : State) : State :=
  let c := w.ctx
  let s := s.onCtx c fun x => { x with waits := x.waits.erase w }
  if (s.ctx c).waits.isEmpty && s.on (F.CTXW_RING_STATUS_PARKED c) then
    loadInSlice c (s.wr (F.CTXW_RING_STATUS_PARKED c) 0)
  else s

/-! ### Page faults (R226–R230) -/

/-- A translation is refused for a waiter (R180, R228): the operation ends with XLT_ERROR. -/
def refuseWaiter (w : Waiter) (s : State) : State :=
  match w with
  | .op c q => finishWith c q stXlt 0 0 s
  | .ring _ => s

/-- The code of the fault that a refused translation raises: RING_XLT for a ring access, XLT_REFUSED otherwise. -/
def refusedCode (ws : List Waiter) : Nat :=
  if ws.any (fun w => match w with | .ring _ => true | _ => false) then 0x0002 else 0x0008

/-- A translation failed for an access (R226): refused at once where no Page Request can be sent, the context's end where
its PRI is stopped, else a page request that parks the context when `here` says that an engine has reached the page. -/
def pageFault (f : PftWait) (here : Bool) (s : State) : State :=
  let x := s.cfg (f.ctx + 1)
  if x.priStopped then ctxFault 0x0009 f.ctx s
  else if !x.priEn || x.priAlloc = 0 then ctxFault (refusedCode [f.who]) f.ctx (refuseWaiter f.who s)
  else
    let waits := s.pftQueue.contains f ||
      (match s.pftFind f.ctx f.pi f.page with | some i => (s.pftWaiters i).contains f.who | none => false)
    let s := if waits then s
      else pftAdd f (s.onCtx f.ctx fun y => { y with waits := y.waits ++ [f.who] })
    if here then park f.ctx s else s

end Sys2Proof.Machine
end

