-- ==== Sys2Proof/Machine/Accept.lean ====
section
/-! DEFINITION. Acceptance of descriptors (R148, R157, R239, R295, R384, R552): the checks by kind, the byte that DETAIL
names, and what acceptance records. A check yields the bytes that failing fields name; the lowest decides. -/

namespace Sys2Proof.Machine

/-- Descriptor byte of bit `lo` of word `i` (R552). -/
def descByte (i lo : Nat) : Nat := 8 * i + lo / 8

/-- Bits [hi:lo] of word `i` must be zero: the byte of the lowest that is not. -/
def mustZero (o : Op) (i hi lo : Nat) : List Nat :=
  (((List.range (hi + 1 - lo)).find? fun k => (o.word i).testBit (lo + k)).map fun k => descByte i (lo + k)).toList

/-- A field of word `i` with least significant bit `lo` fails when `b` holds. -/
def failIf (b : Bool) (i lo : Nat) : List Nat := if b then [descByte i lo] else []

/-- All of words `i` to 7 must be zero. -/
def zeroFrom (o : Op) (i : Nat) : List Nat := (List.range (8 - i)).flatMap fun k => mustZero o (i + k) 63 0

/-- `n` rounded up to 128 bytes. -/
def up128 (n : Nat) : Nat := 128 * ceilDiv n 128

/-- Bytes of `n` packed elements of `w` bits. -/
def packed (n w : Nat) : Nat := ceilDiv (n * w) 8

/-- H0, WAIT and SIG (R150–R152, R165). -/
def checkHead (s : State) (c : Nat) (o : Op) : List Nat :=
  let wc := bits (o.word 1) 63 62
  let sm := bits (o.word 2) 63 62
  mustZero o 0 31 19 ++ mustZero o 0 15 13 ++
    (if wc = 0 then mustZero o 1 61 0 else mustZero o 1 61 61 ++ (if wc = 3 then mustZero o 1 47 0 else []) ++
      failIf (!s.mayWait c o.waitObj) 1 48) ++
    (if sm = 0 then mustZero o 2 61 0 else mustZero o 2 61 61 ++ failIf (sm = 3) 2 62 ++
      failIf (!s.maySignal c (bits (o.word 2) 60 48)) 2 48)

/-- MATMUL (R65, R66, R120, R154, R157). -/
def checkMatmul (s : State) (c : Nat) (o : Op) : List Nat :=
  let wa := fmtBits o.aFmt
  let wb := fmtBits o.bFmt
  let wc := if o.epi then 4 else fmtBits o.cFmt
  mustZero o 3 2 0 ++ mustZero o 4 1 0 ++ mustZero o 5 2 0 ++ mustZero o 6 15 0 ++
    (if o.epi then [] else mustZero o 7 63 32) ++ (if isMx o.aFmt then [] else mustZero o 7 31 0) ++
    failIf (!fmtInAB o.aFmt) 3 7 ++ failIf (!fmtInAB o.bFmt) 3 3 ++ failIf (!fmtInC o.cFmt) 4 7 ++
    failIf (fmtInAB o.aFmt && fmtInAB o.bFmt && fmtClass o.aFmt != fmtClass o.bFmt) 3 3 ++
    failIf (o.epi && 2 < o.cFmt) 4 7 ++
    failIf (o.lda = 0 || o.lda < up128 (packed o.k wa)) 6 48 ++
    failIf (o.ldb = 0 || o.ldb < up128 (packed o.k wb)) 6 32 ++
    failIf (o.ldc = 0 || o.ldc < up128 (packed o.n wc)) 6 16 ++
    failIf (!s.inRange c o.aAddr ((o.m - 1) * o.lda + packed o.k wa)) 3 31 ++
    failIf (!s.inRange c o.bAddr ((o.n - 1) * o.ldb + packed o.k wb)) 4 31 ++
    failIf (!s.inRange c o.cAddr ((o.m - 1) * o.ldc + packed o.n wc)) 5 31 ++
    failIf (o.epi && !s.inRange c o.epiAddr 64) 7 32 ++
    failIf (isMx o.aFmt && !s.inRange c o.scaleAddr ((o.scaleRows + o.n) * o.scaleRow)) 7 0

/-- VECTOR (R155, R157). -/
def checkVector (s : State) (c : Nat) (o : Op) : List Nat :=
  let w := fmtBits o.cFmt
  mustZero o 3 10 0 ++ mustZero o 4 63 31 ++ mustZero o 4 6 3 ++ mustZero o 4 1 0 ++ mustZero o 5 30 0 ++
    mustZero o 6 47 32 ++ mustZero o 6 15 0 ++ mustZero o 7 31 0 ++
    failIf (!o.epi) 4 2 ++ failIf (!fmtInC o.cFmt || 2 < o.cFmt) 4 7 ++
    failIf (o.lda = 0 || o.lda < up128 (packed o.n w)) 6 48 ++
    failIf (o.ldc = 0 || o.ldc < up128 (packed o.n 4)) 6 16 ++
    failIf (!s.inRange c o.aAddr ((o.m - 1) * o.lda + packed o.n w)) 3 31 ++
    failIf (!s.inRange c o.cAddr ((o.m - 1) * o.ldc + packed o.n 4)) 5 31 ++
    failIf (!s.inRange c o.epiAddr 64) 7 32

/-- Bytes of the image that a load names: a kernel's length is read from its header (R114, R156). -/
def State.loadLen (s : State) (c : Nat) (o : Op) : Nat :=
  if o.kind = 3 then 576 else if o.kind = 5 then 3120
  else if !s.inRange c o.loadSrc 32 then 32
  else match s.ctxRead c o.loadSrc 32 with
    | .ok h => 32 + 4 * fieldAt h 2 2
    | .error _ => 32

/-- Loads (R156, R157). -/
def checkLoad (s : State) (c : Nat) (o : Op) : List Nat :=
  let n := s.loadLen c o
  mustZero o 3 63 44 ++ zeroFrom o 4 ++ failIf (o.kind = 3 && 3 < o.slot) 3 40 ++
    failIf (o.loadSrc % 64 ≠ 0) 3 0 ++ failIf (!s.inRange c o.loadSrc n) 3 0

/-- DECISION (R156). -/
def checkDecision (o : Op) : List Nat :=
  mustZero o 4 63 25 ++ mustZero o 4 15 11 ++ mustZero o 4 7 7 ++ mustZero o 4 3 3 ++ zeroFrom o 5 ++
    failIf (4 < o.reduce) 4 4

/-- Is there a row `j` below `n` whose bytes [y + j·b, +len) meet [x, x + len)? -/
def rowMeets (x y b len n : Nat) : Bool :=
  if y < x + len then
    let j := min (n - 1) (if b = 0 then 0 else (x + len - 1 - y) / b)
    decide (x < y + j * b + len)
  else false

/-- Do some bytes that a copy reads also count among those that it writes (R239)? -/
def overlaps (o : Op) : Bool :=
  (List.range o.dmaRows).any fun i =>
    rowMeets (o.src + i * (if o.kind = 0x11 then o.srcStride else 0)) o.dst
      (if o.kind = 0x11 then o.dstStride else 0) o.len o.dmaRows

/-- A PASID index is VALID (R239). -/
def State.piValid (s : State) (c pi : Nat) : Bool := s.on (F.CTXW_PASID_VALID c pi)

/-- The last byte behind a row set from `a`. -/
def rowEnd (o : Op) (stride : Nat) : Nat := (o.dmaRows - 1) * stride + o.len

/-- COPY, COPY_2D and FILL (R236, R239, R243). -/
def checkCopy (s : State) (c : Nat) (o : Op) : List Nat :=
  let two := o.kind = 0x11
  let fill := o.kind = 0x12
  let noHost := decide (s.rd (F.DMA_PART_CFG_HOST_SHARE (s.partOf c)) = 0)
  mustZero o 5 56 40 ++ mustZero o 7 31 0 ++ (if two then [] else mustZero o 6 63 0 ++ mustZero o 7 63 32) ++
    (if fill then mustZero o 5 63 63 ++ mustZero o 5 57 57 else []) ++
    (if o.srcH then [] else mustZero o 5 61 60) ++ (if o.dstH then [] else mustZero o 5 59 58) ++
    (if o.srcH || fill then [] else mustZero o 3 63 40) ++ (if o.dstH then [] else mustZero o 4 63 40) ++
    failIf (o.len = 0) 5 0 ++ failIf (two && o.dmaRows = 0) 7 32 ++
    failIf (two && o.srcStride < o.len) 6 32 ++ failIf (two && o.dstStride < o.len) 6 0 ++
    failIf (o.srcH && !s.piValid c o.srcPi) 5 60 ++ failIf (o.dstH && !s.piValid c o.dstPi) 5 58 ++
    failIf (o.srcH && o.dstH) 5 62 ++
    failIf (o.srcH && noHost) 5 63 ++ failIf (o.dstH && noHost) 5 62 ++
    failIf (o.meas && !s.on (F.CTXW_CTL_MEASURE c)) 5 57 ++
    failIf (!o.srcH && !fill && !s.inRange c o.src (rowEnd o o.srcStride)) 3 0 ++
    failIf (!o.dstH && !s.inRange c o.dst (rowEnd o o.dstStride)) 4 0 ++
    failIf (!o.srcH && !o.dstH && !fill && overlaps o) 4 0

/-- ATOMIC (R237, R239). -/
def checkAtomic (s : State) (c : Nat) (o : Op) : List Nat :=
  let w := widthBits o.atWidth / 8
  mustZero o 6 54 0 ++ zeroFrom o 7 ++ (if o.atOp = 2 then [] else mustZero o 5 63 0) ++
    (if o.atHost then [] else mustZero o 6 62 61 ++ mustZero o 3 63 40) ++
    failIf (o.atWidth = 3) 6 55 ++ failIf (11 < o.atOp) 6 57 ++
    failIf (o.atHost && 2 < o.atOp) 6 57 ++
    failIf (if o.atHost then o.atWidth = 0 else o.atOp ≤ 11 && !atomOk o.atOp o.atWidth) 6 55 ++
    failIf (o.src % w ≠ 0) 3 0 ++ failIf (o.atHost && !s.piValid c o.atPi) 6 61 ++
    failIf (o.atHost && s.rd (F.DMA_PART_CFG_HOST_SHARE (s.partOf c)) = 0) 6 63 ++
    failIf (!o.atHost && !s.inRange c o.src w) 3 0

/-- XLT_TOUCH (R238, R239). -/
def checkTouch (s : State) (c : Nat) (o : Op) : List Nat :=
  mustZero o 4 63 0 ++ mustZero o 5 63 62 ++ mustZero o 5 59 40 ++ zeroFrom o 6 ++ failIf (o.len = 0) 5 0 ++
    failIf (!s.piValid c o.srcPi) 5 60

/-- GATHER, SCATTER and SCATTER_ADD (R196). -/
def checkWhittle (s : State) (c : Nat) (o : Op) : List Nat :=
  mustZero o 3 19 1 ++ mustZero o 4 28 0 ++ mustZero o 5 26 0 ++ zeroFrom o 7 ++
    (if o.kind = 0x1A then failIf (o.whElem = 3) 3 20 else mustZero o 3 21 20) ++
    failIf (1 < o.idxW) 3 22 ++ failIf (o.idxCount = 0) 6 32 ++ failIf (o.tblRows = 0) 6 0 ++
    failIf (!s.inRange c o.table (o.tblRows * o.rowG * 32)) 3 29 ++
    failIf (!s.inRange c o.dense (o.idxCount * o.rowG * 32)) 4 29 ++
    failIf (!s.inRange c o.idx (o.idxCount * o.idxBytes)) 5 27

/-- CL_PUT and CL_GET (R382). -/
def checkPutGet (s : State) (c : Nat) (o : Op) : List Nat :=
  mustZero o 3 63 40 ++ mustZero o 4 63 40 ++ mustZero o 5 63 40 ++ mustZero o 6 63 26 ++ mustZero o 6 24 24 ++
    (if o.kind = 0x20 then [] else mustZero o 6 25 25) ++ zeroFrom o 7 ++ failIf (o.len = 0) 5 0 ++
    failIf (!s.inRange c (o.w 0 39 0) o.len) 3 0

/-- CL_GRANT (R381). -/
def checkGrant (s : State) (c : Nat) (o : Op) : List Nat :=
  mustZero o 3 63 40 ++ mustZero o 4 63 28 ++ mustZero o 5 63 20 ++ mustZero o 6 63 16 ++ mustZero o 6 4 4 ++
    zeroFrom o 7 ++ failIf (o.w 0 11 0 ≠ 0) 3 0 ++
    failIf (o.w 3 7 5 ≠ 0 && !s.inRange c (o.w 0 39 0) (o.w 1 27 0 * 4096)) 3 0

/-- The members that a group block names: node and context (R384). -/
def groupMembers (b : List Byte) : List (Nat × Nat) :=
  (List.range (fieldAt b 4 1)).map fun r =>
    (fieldAt b (8 + 4 * r) 4 % 4096, fieldAt b (8 + 4 * r) 4 / 4096 % 256)

/-- Does a group block keep to R384? -/
def groupOk (s : State) (c : Nat) (b : List Byte) : Bool :=
  let n := fieldAt b 4 1
  let rank := fieldAt b 5 1
  let ms := groupMembers b
  let me := s.rd F.CLS_NODE_NODE
  decide (2 ≤ n) && decide (n ≤ 33) && decide (rank < n) && decide (fieldAt b 6 2 = 0) &&
    (List.range 33).all (fun r => decide (fieldAt b (8 + 4 * r) 4 / 2 ^ 20 = 0) &&
      (decide (r < n) || decide (fieldAt b (8 + 4 * r) 4 = 0))) &&
    decide (ms.getD rank (0, 0) = (me, c)) && decide ((ms.map (·.1)).Nodup) &&
    ms.zipIdx.all fun m => m.2 = rank ||
      (List.range 32).any fun q => s.on (F.CLS_PORT_CFG_ENABLED q) && decide (s.rd (F.CLS_PORT_CFG_PEER_NODE q) = m.1.1)

/-- First element and length of segment `r` of `n` over `count` elements (R385). -/
def segment (count n r : Nat) : Nat × Nat :=
  let q := count / n
  let x := count % n
  (r * q + min r x, if r < x then q + 1 else q)

/-- Collectives (R384, R385); `blk` is the group block. -/
def checkColl (s : State) (c : Nat) (o : Op) (blk : List Byte) : List Nat :=
  let e := elemBytes o.collElem
  let n := fieldAt blk 4 1
  let reduce := o.kind = 0x23 || o.kind = 0x24
  let dst := if o.kind = 0x24 then (segment o.collCount n (fieldAt blk 5 1)).2 * e
    else if o.kind = 0x25 then n * o.collCount * e else o.collCount * e
  mustZero o 3 63 40 ++ mustZero o 4 63 40 ++ mustZero o 5 21 0 ++ mustZero o 6 63 40 ++ mustZero o 7 15 0 ++
    (if reduce then failIf (o.collOp = 3) 5 28 else mustZero o 5 29 28) ++
    (if o.kind = 0x26 then failIf (n ≤ o.collRoot) 5 22 else mustZero o 5 27 22) ++
    failIf (o.collCount = 0) 5 32 ++ failIf (o.collElem = 3) 5 30 ++
    failIf (o.group % 64 ≠ 0 || !s.inRange c o.group 140 || !groupOk s c blk) 6 0 ++
    failIf (!s.inRange c (o.w 0 39 0) (o.collCount * e)) 3 0 ++
    failIf (!s.inRange c (o.w 1 39 0) dst) 4 0

/-- Bytes of a pool's element. -/
def State.poolElem (s : State) (p : Nat) : Nat := if s.on (F.GUP_CFG_FMT p) then 2 else 4

/-- Glue-up operations (R295). -/
def checkGlue (s : State) (c : Nat) (o : Op) : List Nat :=
  let p := o.guPool
  mustZero o 3 63 40 ++ mustZero o 4 31 6 ++ zeroFrom o 5 ++
    failIf (!s.on (F.GUP_CFG_VALID p) || !(if o.kind = 0x28 then s.isMember p c else s.isOutput p c)) 4 0 ++
    failIf (!s.inRange c o.guAddr (s.rd (F.GUP_CFG_LEN p) * s.poolElem p)) 3 0

/-- Every failing check of a descriptor, as the bytes that they name (R157, R552). -/
def descFails (s : State) (c : Nat) (o : Op) (blk : List Byte) : List Nat :=
  checkHead s c o ++
    (match o.kind with
     | 0x00 => zeroFrom o 3
     | 0x01 => checkMatmul s c o
     | 0x02 => checkVector s c o
     | 0x03 | 0x04 | 0x05 => checkLoad s c o
     | 0x06 => checkDecision o
     | 0x10 | 0x11 | 0x12 => checkCopy s c o
     | 0x13 => checkAtomic s c o
     | 0x14 => checkTouch s c o
     | 0x18 | 0x19 | 0x1A => checkWhittle s c o
     | 0x20 | 0x21 => checkPutGet s c o
     | 0x22 => checkGrant s c o
     | 0x23 | 0x24 | 0x25 | 0x26 => checkColl s c o blk
     | 0x28 | 0x29 => checkGlue s c o
     | _ => [descByte 0 0])

/-- The lowest of the bytes that failing checks name. -/
def lowest (l : List Nat) : Option Nat := l.min?

/-- Is the ring count `q` within the span of a decision whose test held (R132)? -/
def Ctx.inSpan (x : Ctx) (q : Nat) : Bool := x.spans.any fun w => decide ((q + 2 ^ 32 - w.1) % 2 ^ 32 < w.2)

/-- Ask for the first translations of a DMA operation's host streams (R217). -/
def firstTranslations (c : Nat) (o : Op) (s : State) : State :=
  let ask (pi addr n : Nat) (dst : Bool) (s : State) : State :=
    let page := addr / 4096
    let want := (addr + n - 1) / 4096 + 1 - page
    atsRequest c pi page (min 8 want) dst (.op o.seq) s
  if o.kind = 0x13 then (if o.atHost then ask o.atPi o.src (widthBits o.atWidth / 8) true s else s)
  else if o.isDma then
    let s := if o.srcH then ask o.srcPi o.src (rowEnd o o.srcStride) false s else s
    if o.dstH then ask o.dstPi o.dst (rowEnd o o.dstStride) true s else s
  else s

/-- CL_NOROUTE (R396). -/
def clNoRoute : Nat := 0x26

/-- Does a put or get name a node whose trunk has no port up, or that is no neighbour (R396)? -/
def State.noRoute (s : State) (o : Op) : Bool :=
  (o.kind = 0x20 || o.kind = 0x21) && (s.trunk (o.w 3 11 0)).isEmpty

/-- Accept the descriptor at HEAD (R148). -/
def acceptOne (c : Nat) (words : List Word) (s : State) : State :=
  let q := s.head c
  let p := s.partOf c
  let o := Op.accept q words 0 ((s.rd F.XLT_CFG_PREFETCH).testBit p)
  let o := { o with chg := s.rd (F.SYN_CNT_COUNT o.waitObj) }
  let o := { o with met := decide (bits (o.word 1) 63 62 = 0) }
  let o := o.testWait o.waitObj (s.rd (F.SYN_CNT_COUNT o.waitObj)) (s.on (F.SYN_CTL_ERR o.waitObj))
  let o := { o with skip := (s.ctx c).inSpan q }
  let s := s.wr (F.CTXW_RING_STATUS_HEAD c) (q + 1)
  let s := s.onCtx c fun x => { x with ops := x.ops ++ [o] }
  let s := traceEvent 0xC001 (srcCtx c) q (some c) (countOps c s)
  let blk : Except MemErr (List Byte) :=
    if o.isColl && s.inRange c o.group 140 then s.ctxRead c o.group 140 else .ok []
  match blk with
  | .error e => opMemError c q e 0 s
  | .ok b =>
    match lowest (descFails s c o b) with
    | some d => finishWith c q stDesc d 0 s
    | none =>
      if o.skip then finishWith c q stSkipped 0 0 s
      else if s.noRoute o then finishWith c q clNoRoute 0 0 s
      else firstTranslations c o (s.onOp c q fun o => { o with blk := b })

/-- What the acceptance of a descriptor reads of its context's memory: a group block, a kernel's header (R114, R384). -/
def State.acceptAreas (s : State) (c : Nat) (o : Op) : List (Nat × Nat) :=
  if o.isColl && s.inRange c o.group 140 then [(o.group, 140)]
  else if o.kind = 4 && s.inRange c o.loadSrc 32 then [(o.loadSrc, 32)] else []

/-- May the descriptor at HEAD be accepted (R148)? -/
def State.mayAccept (s : State) (c : Nat) : Bool :=
  let x := s.ctx c
  decide (s.head c ≠ x.tail) && decide (x.ops.length < s.rd (F.SCH_CTXQ_QUOTA (s.partOf c) c)) &&
    decide ((s.head c + 2 ^ 32 - x.cmplHead) % 2 ^ 32 < s.cmplEntries c)

/-- Accept a run of descriptors while R148 allows. A descriptor whose block waits for tokens or a row's copy ends the run;
it is read again with the next one. -/
def acceptRun (c : Nat) : List (List Word) → State → State
  | [], s => s
  | d :: ds, s =>
    if s.mayAccept c && s.ctxState c = 4 && s.holds c then
      let q := s.head c
      let areas := s.acceptAreas c (Op.accept q d 0 false)
      match access (s.schedPayer c q 3) (areas.map fun a => flitsOf a.1 a.2).sum areas [] s with
      | (false, s) => s
      | (true, s) => acceptRun c ds (acceptOne c d s)
    else s

end Sys2Proof.Machine
end

