-- ==== Sys2Proof/Machine/Sched.lean ====
section
/-! DEFINITION. The partition scheduler (chapter 05): eligibility and start of operations, loads, decisions, completion,
polls, descriptor runs, slice ticks. -/

namespace Sys2Proof.Machine

/-! ### What an operation names (R72, R73, R113) -/

/-- The image in a slot of a context. -/
def slotOf' (m : SMap Slot) (k : Nat) : Slot := SMap.get (fun _ => Slot.empty) m k

/-- The epilogue block of an operation: as read when it started, else as it lies in memory now (R117). -/
def State.epiBlock (s : State) (c : Nat) (o : Op) : List Byte :=
  if !o.blk.isEmpty then o.blk
  else match s.ctxRead c o.epiAddr 64 with
    | .ok b => b
    | .error _ => []

/-- Slots that an operation names: class (3 table pair, 4 kernel, 5 curve), slot, and whether it loads it. A kernel user
also names the curve slots that its kernel declares (R113). -/
def State.names (s : State) (c : Nat) (o : Op) : List (Nat × Nat × Bool) :=
  if o.kind = 3 || o.kind = 4 || o.kind = 5 then [(o.kind, o.slot, true)]
  else if o.isMatrix then
    (if o.usesTbl then [(3, o.tblSlot, false)] else []) ++
      (if o.hasKernel then
        let k := epiSlot (s.epiBlock c o)
        (4, k, false) :: (kernelCurves (slotOf' (s.ctx c).krn k).image).map fun n => (5, n, false)
      else [])
  else []

/-- Does operation `o` wait for the earlier operation `e` over a slot (R73, R113)? -/
def State.slotWait (s : State) (c : Nat) (o e : Op) : Bool :=
  (s.names c o).any fun n => (s.names c e).any fun m => n.1 = m.1 && n.2.1 = m.2.1 && (n.2.2 || m.2.2)

/-- Is `o` within the span that the earlier operation `e`, a decision, may skip (R158)? -/
def inSkipOf (o e : Op) : Bool := e.kind = 6 && decide ((o.seq + 2 ^ 32 - e.seq) % 2 ^ 32 ≤ e.skipCount)

/-- Does `o` depend implicitly on the earlier operation `e` (R131, R158, R243)? -/
def State.implicitWait (s : State) (c : Nat) (o e : Op) : Bool :=
  s.slotWait c o e || inSkipOf o e || (o.kind = 6 && e.hasKernel) || (o.meas && e.meas)

/-- Operations of a context accepted before `o`. -/
def State.earlier (s : State) (c : Nat) (o : Op) : List Op := (s.ctx c).ops.takeWhile fun e => e.seq != o.seq

/-- The first pages of an operation's host streams have been translated, unless it was accepted in prefetch mode or has
started once (R217, R221, R224). -/
def Op.firstHeld (o : Op) : Bool :=
  o.begun || o.prefetch || o.kind = 0x14 || !(decide (0x10 ≤ o.kind) && decide (o.kind ≤ 0x13)) ||
    ((!(if o.kind = 0x13 then o.atHost else o.dstH) || !o.heldD.isEmpty) &&
      (!(o.kind ≠ 0x13 && o.srcH) || !o.heldS.isEmpty))

/-- Are all dependencies of an accepted operation met (R158, R167)? -/
def State.eligible (s : State) (c : Nat) (o : Op) : Bool :=
  let before := s.earlier c o
  o.met && (!o.flags.testBit 1 || before.isEmpty) &&
    (!o.flags.testBit 2 || before.all fun e => decide ((e.seq + 1) % 2 ^ 32 ≠ o.seq)) &&
    before.all (fun e => !s.implicitWait c o e) && o.firstHeld

/-- Did a declared dependency end in error (R160)? A FENCE names the descriptors before it; counts of
acceptance are told apart modulo 2^32. -/
def State.depFailed (s : State) (c : Nat) (o : Op) : Bool :=
  let es := (s.ctx c).errSeqs
  let before (q : Nat) : Bool := decide (2 ^ 31 ≤ (q + 2 ^ 32 - o.seq) % 2 ^ 32)
  o.depErr || (o.flags.testBit 1 && es.any before) ||
    (o.flags.testBit 2 && es.contains ((o.seq + 2 ^ 32 - 1) % 2 ^ 32))

/-! ### Resources (R40, R41, R159, R232) -/

/-- What an operation's work needs: 1 tiles, 2 a DMA engine, 3 the gather front end, 4 the engines of collectives and
glue-up, 0 the scheduler. -/
def Op.unit (o : Op) : Nat :=
  if o.isMatrix then 1 else if 0x10 ≤ o.kind ∧ o.kind ≤ 0x17 then 2 else if 0x18 ≤ o.kind ∧ o.kind ≤ 0x1F then 3
  else if 0x20 ≤ o.kind then 4 else 0

/-- Has everything of a started matrix or vector operation been dealt? -/
def State.dealtAll (s : State) (c : Nat) (o : Op) : Bool :=
  o.deal ≠ 0 && (o.deal ≠ 1 || decide (waveCount o (s.groupsOf (s.partOf c)).length ≤ o.dealt)) && o.heldQ.isEmpty &&
    o.redo.isEmpty

/-- May a further matrix or vector operation start (R40, R41)? -/
def State.tilesFree (s : State) (c : Nat) : Bool :=
  let run := (s.ctx c).ops.filter fun o => o.isMatrix && o.started && o.done.isNone
  decide (run.length ≤ 1) && run.all fun o => s.dealtAll c o

/-- The lowest-numbered free engine in service of a partition (R232). -/
def State.freeEng (s : State) (p : Nat) : Option Nat :=
  ((s.groupsOf p).flatMap fun g => (List.range 4).map fun i => 4 * g + i).find? fun e =>
    (s.engine e).op.isNone && !(s.engine e).outOfService

/-! ### Start (R116, R117, R159, R160) -/

/-- The outcome that the slots of a matrix or vector operation give at its start, if they stop it (R74, R116). -/
def State.slotStop (s : State) (c : Nat) (o : Op) (blk : List Byte) : Option Nat :=
  let x := s.ctx c
  if o.usesTbl && !(slotOf' x.tbl o.tblSlot).valid then some stTbl
  else if o.hasKernel then
    let k := slotOf' x.krn (epiSlot blk)
    if !k.valid then some stKrn
    else if (kernelCurves k.image).any fun n => !(slotOf' x.crv n).valid then some stCrv
    else none
  else none

/-- Do the side vectors of a block lie within the context's range? -/
def State.sidesIn (s : State) (c : Nat) (o : Op) (b : List Byte) : Bool :=
  ((epiSides b).1 = 0 || s.inRange c (fieldAt b 8 8) (o.n * sideBytes (epiSides b).1)) &&
    ((epiSides b).2 = 0 || s.inRange c (fieldAt b 16 8) (o.m * sideBytes (epiSides b).2))

/-- A matrix or vector operation starts: its block is read and checked, its slots are tested. Where several things stop it,
an unreadable block comes first, then a malformed one, then a table slot, the kernel's slot and its curve slots (DESIGN
CHOICE, log entry 142). -/
def startMatrix (c : Nat) (o : Op) (s : State) : State :=
  let go (blk : List Byte) (s : State) : State :=
    match s.slotStop c o blk with
    | some st => finishWith c o.seq st 0 0 s
    | none => s.onOp c o.seq fun o => { o with started := true, blk := blk }
  if o.hasKernel then
    match loadAs (s.schedPayer c o.seq 4) o.epiAddr 64 s with
    | (s, .error e) => opMemError c o.seq e 0 s
    | (s, .ok b) => if epiOk b && s.sidesIn c o b then go b s else finishWith c o.seq stDesc (descByte 7 32) 0 s
  else go [] s

/-- A DMA operation takes an engine (R232, R252). -/
def startDma (c : Nat) (o : Op) (s : State) : State :=
  match s.freeEng (s.partOf c) with
  | none => s
  | some e =>
    let s := s.onEngine e fun x => { x with op := some (c, o.seq) }
    let s := ((s.wr (F.DMA_ENG_STATUS_CTX e) c).wr (F.DMA_ENG_STATUS_KIND e) o.kind).wr (F.DMA_ENG_STATUS_STATE e) 2
    s.onOp c o.seq fun o => { o with started := true, begun := true, engine := some e }

/-- Does the context hold its slice, in RUN? -/
def State.running (s : State) (c : Nat) : Bool := s.holds c && decide (s.ctxState c = 4) && s.atL0

/-- OPERATION_START (R159): an eligible operation starts when its resource is free and no older one waits for it. -/
def operationStart (c q : Nat) (s : State) : State :=
  match s.op? c q with
  | none => s
  | some o =>
    if !s.running c || o.started || o.done.isSome || !s.eligible c o then s
    else if (s.earlier c o).any fun e => e.unit = o.unit && o.unit ≠ 0 && o.unit ≠ 4 && !e.started && e.done.isNone &&
        s.eligible c e then s
    else if s.depFailed c o && !o.flags.testBit 3 then finishWith c q stDep 0 0 s
    else match o.unit with
      | 1 => if s.tilesFree c then startMatrix c o s else s
      | 2 => startDma c o s
      | _ => s.onOp c q fun o => { o with started := true }

/-! ### Kinds that the scheduler runs -/

/-- Does the unit of an operation run for its context: the context holds its slice, and the ladder lets the unit run (R487)? -/
def State.runsNow (s : State) (c : Nat) (o : Op) : Bool :=
  s.holds c && decide (s.ctxState c = 4) && (if o.unit = 2 || o.unit = 3 then s.enginesOn else s.atL0)

/-- Run `f` for the started operation `q` of a context that holds its slice, when it is of the kind. -/
def runKind (k c q : Nat) (f : Op → State → State) (s : State) : State :=
  match s.op? c q with
  | none => s
  | some o =>
    if o.kind = k && o.started && o.done.isNone && s.runsNow c o then f o s else s

/-- NOP (R153). -/
def runNop (c q : Nat) (s : State) : State := runKind 0 c q (fun _ s => endOp c q stOK 0 0 s) s

/-- Put an image into a slot, or leave the slot invalid (R71, R74, R115, R127). -/
def setSlotImage (c kind k : Nat) (x : Slot) (s : State) : State :=
  s.onCtx c fun y =>
    if kind = 3 then { y with tbl := SMap.put (fun _ => Slot.empty) y.tbl k x }
    else if kind = 4 then { y with krn := SMap.put (fun _ => Slot.empty) y.krn k x }
    else { y with crv := SMap.put (fun _ => Slot.empty) y.crv k x }

/-- Check an image of a load's kind. -/
def imageOk (kind : Nat) (img : List Byte) : Bool :=
  if kind = 3 then tableOk img else if kind = 4 then kernelOk img else curveOk img

/-- The status of a load whose image is rejected. -/
def loadStatus (kind : Nat) : Nat := if kind = 3 then stTbl else if kind = 4 then stKrn else stCrv

/-- A load (R73, R115, R127): the image is read, checked, and placed or the slot left invalid. A kernel whose LENGTH, written
since its acceptance, takes it beyond the context's range is rejected as malformed (DEDUCED, log entry 47). -/
def runLoad (k c q : Nat) (s : State) : State :=
  runKind k c q (fun o s =>
    let n := s.loadLen c o
    if !s.inRange c o.loadSrc n then
      endOp c q (loadStatus k) 0 0 (setSlotImage c k o.slot Slot.empty s)
    else match loadAs (s.schedPayer c q 5) o.loadSrc n s with
      | (s, .error e) => opMemError c q e 0 s
      | (s, .ok img) =>
        if imageOk k img then
          endOp c q stOK 0 0 ((setSlotImage c k o.slot { valid := true, image := img } s).onOp c q fun o =>
            { o with hashed := img })
        else endOp c q (loadStatus k) 0 0 (setSlotImage c k o.slot Slot.empty s)) s

/-! ### Decisions (R130–R133) -/

/-- FP64 addition with one rounding. -/
def f64Add (a b : Nat) : Nat := (fp64.result .near false ((fp64.decode a).add (fp64.decode b))).bits

/-- FP64 bits of a value that FP64 holds. -/
def f64Of (x : FV) : Nat := (fp64.round .near false x).bits

/-- The value that a record's 32 bits stand for, by type (R129). -/
def accValue (typ v : Nat) : FV :=
  if typ = 0 then fp32.decode v else if typ = 1 then FV.ofInt (signed 32 v) 0 false else FV.ofInt (v : Int) 0 false

/-- Merge one group's accumulator into what has been merged (R132). -/
def accMerge (x y : Acc) : Acc :=
  match x.typ, y.typ with
  | _, none => { x with mixed := x.mixed || y.mixed }
  | none, _ => { y with mixed := x.mixed || y.mixed }
  | some t, some u =>
    let lower := (accValue t y.lo).below (accValue t x.lo)
    let higher := (accValue t x.hi).below (accValue t y.hi)
    { typ := some t, count := x.count + y.count, nz := x.nz + y.nz, sum := f64Add x.sum y.sum,
      lo := if lower then y.lo else x.lo, loId := if lower then y.loId else x.loId,
      hi := if higher then y.hi else x.hi, hiId := if higher then y.hiId else x.hiId,
      nan := x.nan || y.nan, mixed := x.mixed || y.mixed || t != u }

/-- Accumulator `a` of a context in a group's Mandrel. -/
def State.acc (s : State) (g c a : Nat) : Acc := SMap.get (fun _ => Acc.init) (s.group g).accs (8 * c + a)

/-- Compare a value with a threshold by CMP (R132): FP64 bits, or signed 64-bit integers. -/
def decisionTest (cmp : Nat) (nan float : Bool) (v thr : Nat) : Bool :=
  let x : FV := if float then fp64.decode v else FV.ofInt (signed 64 v) 0 false
  let y : FV := if float then fp64.decode thr else FV.ofInt (signed 64 thr) 0 false
  match cmp with
  | 0 => y.le x | 1 => y.lt x | 2 => x.le y | 3 => x.lt y | 4 => x.eq y | 5 => !x.eq y | 6 => nan | _ => false

/-- The reduced value as FP64 bits or as a signed 64-bit integer, by the accumulator's type (R132, R133). -/
def reduced (a : Acc) (reduce : Nat) (float : Bool) : Nat :=
  let typ := a.typ.getD 0
  let int (x : FV) : Nat := unsignedOf 64 (clampInt 64 true (x.toInteger .near)).1
  let out (x : FV) : Nat := if float then f64Of x else int x
  match reduce with
  | 0 => out (FV.ofInt a.count 0 false)
  | 1 => out (FV.ofInt a.nz 0 false)
  | 2 => if float then a.sum else int (fp64.decode a.sum)
  | 3 => if a.nan && float then fp64.nanBits else out (accValue typ a.lo)
  | _ => if a.nan && float then fp64.nanBits else out (accValue typ a.hi)

/-- DECISION (R132, R133). An accumulator that nothing has typed is no float accumulator, and compares as integers. MIN or MAX
of an empty accumulator reports free values. -/
def runDecision (c q : Nat) (s : State) : State :=
  runKind 6 c q (fun o s =>
    let gs := s.groupsOf (s.partOf c)
    let a := gs.foldl (fun x g => accMerge x (s.acc g c o.acc)) Acc.init
    let s := if o.accReset then each gs (fun g s => s.onGroup g fun x =>
      { x with accs := SMap.put (fun _ => Acc.init) x.accs (8 * c + o.acc) Acc.init }) s else s
    let extreme := decide (3 ≤ o.reduce)
    let ended (r : Result) (flags : Nat) (s : State) : State :=
      s.onOp c q fun o => { o with xflags := o.xflags ||| flags, done := some r }
    if a.mixed then ended { status := stMixed, detail := 0, value := 0, ident := none } 0 s
    else match a.typ with
      | none =>
        if extreme then
          ended { status := stOK, detail := 0, value := s.free.toNat,
                  ident := some (Config.freeBits (s.freeCtr + 1)).toNat } 0x20 (s.drawnN 2)
        else
          let t := decisionTest o.cmp false false 0 o.threshold
          ended { status := stOK, detail := 0, value := 0, ident := none } (64 * b2n t) s
      | some k =>
        let v := reduced a o.reduce (k = 0)
        let t := decisionTest o.cmp a.nan (k = 0) v o.threshold
        let id := if o.reduce = 3 then some a.loId else if o.reduce = 4 then some a.hiId else none
        ended { status := stOK, detail := 0, value := v, ident := id } (64 * b2n t) s) s

/-- The test of a completed decision held: the next SKIP descriptors are skipped, those already accepted at once in ring
order (R132, R133). -/
def skipSpan (c : Nat) (o : Op) (s : State) : State :=
  let first := (o.seq + 1) % 2 ^ 32
  let live (h : Nat) (w : Nat × Nat) : Bool := decide ((w.1 + w.2 + 2 ^ 32 - h) % 2 ^ 32 ≤ w.2)
  let s := s.onCtx c fun x =>
    { x with spans := (x.spans ++ [(first, o.skipCount)]).filter (live (s.head c)) }
  each ((s.ctx c).ops.filter fun e => decide ((e.seq + 2 ^ 32 - first) % 2 ^ 32 < o.skipCount))
    (fun e s => finishWith c e.seq stSkipped 0 0 s) s

/-! ### Measurement (R434) -/

/-- Extend a digest by an operation's digest (R434). -/
def extend (m : List Byte) (kind slot : Nat) (d : List Byte) : List Byte :=
  sha384 (m ++ [byte kind, byte slot] ++ List.replicate 14 0 ++ d)

/-- Apply the held extensions of loads that no earlier load in flight precedes, in SEQ order. -/
def applyLoads (c : Nat) (s : State) : Nat → State
  | 0 => s
  | n + 1 =>
    let x := s.ctx c
    match x.heldLoads with
    | [] => s
    | (q, e) :: rest =>
      if x.ops.any fun o => (o.kind = 3 || o.kind = 4 || o.kind = 5) && decide ((q + 2 ^ 32 - o.seq) % 2 ^ 32 < 2 ^ 31)
      then s
      else applyLoads c (s.onCtx c fun x =>
        { x with heldLoads := rest, prog := sha384 (padTo 48 x.prog ++ e), progCount := x.progCount + 1 }) n

/-- Keep the extension of a load in SEQ order. -/
def insertLoad (q : Nat) (e : List Byte) : List (Nat × List Byte) → List (Nat × List Byte)
  | [] => [(q, e)]
  | (p, f) :: rest =>
    if (p + 2 ^ 32 - q) % 2 ^ 32 < 2 ^ 31 then (q, e) :: (p, f) :: rest else (p, f) :: insertLoad q e rest

/-- What the completion of an operation adds to the context's measurement (R243, R434). -/
def measureOp (c : Nat) (o : Op) (r : Result) (s : State) : State :=
  if !s.on (F.CTXW_CTL_MEASURE c) then s
  else
    let load := o.kind = 3 || o.kind = 4 || o.kind = 5
    let s := if load && r.status = stOK then
        let e := [byte o.kind, byte o.slot] ++ List.replicate 14 0 ++ sha384 o.hashed
        s.onCtx c fun x => { x with heldLoads := insertLoad o.seq e x.heldLoads }
      else s
    let s := if load then applyLoads c s 256 else s
    if o.meas && r.status = stOK then
      s.onCtx c fun x => { x with data := extend (padTo 48 x.data) o.kind 0 (sha384 o.hashed),
                                  dataCount := x.dataCount + 1 }
    else s

/-! ### Completion (R164) -/

/-- Are summaries of an operation still on their way into the Mandrels (R131)? -/
def State.summsDue (s : State) (c : Nat) (o : Op) : Bool :=
  (List.range 8).any fun g => (s.group g).intake.any fun r =>
    decide (r.ctx = c) && decide (r.ident / 2 ^ 48 = o.tag % 2 ^ 16)

/-- Is a billet of an operation still in progress on a tile (R135)? -/
def State.inProgress (s : State) (c : Nat) (o : Op) : Bool :=
  (List.range 64).any fun t => (s.tile t).deal.any fun b => b.ctx = c && b.seq = o.seq

/-- May an operation of this context complete now (R177, R241)? One that a partition reset has ended may (R181). -/
def State.mayComplete (s : State) (c : Nat) (o : Op) : Bool :=
  decide (s.ctxState c = 4) && (s.holds c || o.handed || o.issued || o.done.any fun r => decide (r.status = stPartReset)) &&
    !s.inProgress c o

/-- OPERATION_COMPLETE (R164): the record, the signal, the vector; then what waits on it. -/
def operationComplete (c q : Nat) (s : State) : State :=
  match s.op? c q with
  | none => s
  | some o =>
    match o.done with
    | none => s
    | some r =>
      if !s.mayComplete c o || (o.hasKernel && s.summsDue c o) then s
      else
        let s := finish c q s
        if (s.op? c q).isSome || s.ctxState c ≠ 4 then s
        else
          let s := measureOp c o r s
          if o.kind = 6 && o.xflags.testBit 6 && r.status = stOK then skipSpan c o s else s

/-! ### Host words and runs (R147–R149, R171, R172) -/

/-- Has the holder neither an operation in flight nor an unread descriptor (R172)? -/
def State.idleCtx (s : State) (c : Nat) : Bool := (s.ctx c).ops.isEmpty && decide ((s.ctx c).tail = s.head c)

/-- Write the hub word (R146); a failing access is reported (R207, R210). -/
def hubWrite (c : Nat) (s : State) : State :=
  match putHubWord c s with
  | (s, some e) => memFault c e s
  | (s, none) => s

/-- A hub word whose write waits, for its translation or for tokens, is written now if it can be (R180). -/
def retryWord (c : Nat) (s : State) : State := if (s.ctx c).wordDue then hubWrite c s else s

/-- The holder's poll (R147): its host word is read and a run asked for. A holder without work hands the rest of its slice on
within its set (R172). -/
def pollHolder (p c : Nat) (hw : List HostWord) (s : State) : State :=
  let s := readHostWord c hw (retryWord c s)
  if s.ctxState c ≠ 4 || !s.holds c then s
  else if s.idleCtx c && (s.wcSet p c).isSome then
    let s := readMembers p c hw s
    match s.nextMember p c with
    | some d => beginSwitch p (some d) s
    | none => s
  else askRun c s

/-- HOST_WORD_POLL (R147). A poll that finds work for the context of an idle slice loads it (R171). While a parked context is
switched out, the members' host words that the park asked for come in, and a member with work takes the slice (R178). -/
def hostWordPoll (p : Nat) (hw : List HostWord) (s : State) : State :=
  let k := if s.atL0 then s.rd (F.SCH_STATUS_STATE p) else 0
  if k = 1 then
    match s.holderOf p with
    | none => s
    | some c => pollHolder p c hw s
  else match s.entryCtx p with
    | none => s
    | some c =>
      if k = 2 then
        if s.loadable c then
          let s := readHostWord c hw s
          if s.hasWork c then loadInSlice c s else s
        else s
      else if k = 3 then
        match (s.part p).sw with
        | some w =>
          if w.inc.isNone && s.on (F.CTXW_RING_STATUS_PARKED c) then
            let s := readMembers p c hw s
            s.onPart p fun x => { x with sw := x.sw.map fun w => { w with inc := s.nextMember p c } }
          else s
        | none => s
      else s

/-- The words of descriptors read from memory. -/
def runWords (bs : List Byte) (n : Nat) : List (List Word) := (List.range n).map fun i => wordsOf (bs.drop (64 * i)) 8

/-- The descriptors of the run asked for have come: they are accepted, and the hub word is written (R146, R148). -/
def takeRun (c : Nat) (ds : List (List Word)) (s : State) : State :=
  let s := acceptRun c ds (s.onCtx c fun x => { x with fetch := none })
  if s.ctxState c = 4 then hubWrite c s else s

/-- The read of a run in host memory has returned; what comes behind the end of the slice is discarded (R147). -/
def runReturned (r : HostReq) (ds : List (List Word)) (s : State) : State :=
  if r.abandoned then s
  else match (s.ctx r.ctx).fetch with
    | none => s
    | some (_, n) =>
      if s.running r.ctx then takeRun r.ctx (ds.take n) s else s.onCtx r.ctx fun x => { x with fetch := none }

/-- DESCRIPTOR_FETCH_RETURN (R148): the run asked for returns. One in device memory that waits for tokens stays asked
for. -/
def descriptorFetchReturn (c : Nat) (descs : List (List Word)) (s : State) : State :=
  if s.on (F.CTXW_RING_BASE_SPACE c) then
    match s.ringRead c with
    | none => s
    | some r => runReturned r descs (dropHost r s)
  else match (s.ctx c).fetch with
    | none => s
    | some (h, n) =>
      if !s.running c then s.onCtx c fun x => { x with fetch := none }
      else match loadAs (s.schedPayer c (2 ^ 32) 6) (s.descAddr c h) (64 * n) s with
        | (s, .error e) => memFault c e s
        | (s, .ok bs) => takeRun c (runWords bs n) s

/-! ### Slice ticks (R170–R174) -/

/-- The context that takes the slice of the current entry, whose context's host word has been read (R171, R172): the slice
of a context that is parked or without work stays idle, but for a set, whose next member with work takes it. -/
def State.taker (s : State) (p c : Nat) : Option Nat :=
  if s.hasWork c then some c
  else if s.on (F.CTXW_RING_STATUS_PARKED c) then none
  else s.nextMember p c

/-- A slice starts at a tick: host words are read, and who takes it is switched in (R147, R171, R172, R174). Nothing is
switched where the same context goes on, or where the partition has one bound context that holds it. -/
def sliceStart (p c : Nat) (hw : List HostWord) (s : State) : State :=
  let s := if s.loadable c then readHostWord c hw s else s
  let s := if s.hasWork c then s else readMembers p c hw s
  let inc := s.taker p c
  let out := s.holderOf p
  let stays (d : Nat) : Bool := inc = some d || decide ((s.boundTo p).length = 1) || (d = c && inc.isNone)
  match out with
  | some d => if stays d then (if s.running d then askRun d s else s) else beginSwitch p inc s
  | none =>
    if inc.isNone && s.rd (F.SCH_STATUS_STATE p) = 2 then s
    else beginSwitch p inc s

/-- SLICE_TICK (R174): the next entry's slice starts. On a partition that stays down, its context faults as it tries to run
(R55). -/
def sliceTick (p : Nat) (hw : List HostWord) (s : State) : State :=
  let k := s.rd (F.SCH_STATUS_STATE p)
  let down := (s.rd F.TLS_STATUS_PART_DOWN).testBit p
  if k ≠ 1 && k ≠ 2 && k ≠ 3 && !down then s
  else match s.nextEntry p with
    | none => s
    | some e =>
      let s := s.wr (F.SCH_STATUS_ENTRY p) e
      let c := s.rd (F.SCH_TABLE_CTX p e)
      if down then (if s.ctxState c = 4 then partDown c s else s)
      else if !s.atL0 then s
      else sliceStart p c hw s

/-- SWITCH_WINDOW_END (R175): steps 3 to 6; the incoming context's host word is read. -/
def switchWindowEnd (p us : Nat) (hw : List HostWord) (s : State) : State :=
  if (s.part p).sw.isNone then s
  else
    let s := finishSwitch p us s
    match s.holderOf p with
    | none => s
    | some c =>
      let s := readHostWord c hw (retryWord c s)
      if s.running c then askRun c s else s

/-! ### The commands -/

/-- NOP. -/
def execNop (c : CtxId) (seq : Nat) (s : State) : Host.Outcome State Fault Refusal := s.done (runNop c.val seq s)
/-- TBL_LOAD. -/
def execTblLoad (c : CtxId) (seq : Nat) (s : State) : Host.Outcome State Fault Refusal := s.done (runLoad 3 c.val seq s)
/-- KRN_LOAD. -/
def execKrnLoad (c : CtxId) (seq : Nat) (s : State) : Host.Outcome State Fault Refusal := s.done (runLoad 4 c.val seq s)
/-- CRV_LOAD. -/
def execCrvLoad (c : CtxId) (seq : Nat) (s : State) : Host.Outcome State Fault Refusal := s.done (runLoad 5 c.val seq s)
/-- DECISION. -/
def execDecision (c : CtxId) (seq : Nat) (s : State) : Host.Outcome State Fault Refusal :=
  s.done (runDecision c.val seq s)
/-- OPERATION_START. -/
def execOperationStart (c : CtxId) (seq : Nat) (s : State) : Host.Outcome State Fault Refusal :=
  s.done (operationStart c.val seq s)
/-- OPERATION_COMPLETE. -/
def execOperationComplete (c : CtxId) (seq : Nat) (s : State) : Host.Outcome State Fault Refusal :=
  s.done (operationComplete c.val seq s)
/-- HOST_WORD_POLL. -/
def execHostWordPoll (p : PartId) (hw : List HostWord) (s : State) : Host.Outcome State Fault Refusal :=
  s.done (hostWordPoll p.val hw s)
/-- SLICE_TICK. -/
def execSliceTick (p : SliceStart) (s : State) : Host.Outcome State Fault Refusal := s.done (sliceTick p.part.val p.words s)
/-- SWITCH_WINDOW_END. -/
def execSwitchWindowEnd (p : PartId) (us : Nat) (hw : List HostWord) (s : State) :
    Host.Outcome State Fault Refusal := s.done (switchWindowEnd p.val us hw s)
/-- MATMUL: the started operation is cut into billets and dealt (R36, R154). -/
def execMatmul (c : CtxId) (seq : Nat) (s : State) : Host.Outcome State Fault Refusal :=
  s.done (runKind 1 c.val seq (fun _ s => beginDeal c.val seq s) s)
/-- VECTOR: the epilogue kernel runs over an existing tensor, block by block (R155). -/
def execVector (c : CtxId) (seq : Nat) (s : State) : Host.Outcome State Fault Refusal :=
  s.done (runKind 2 c.val seq (fun _ s => beginDeal c.val seq s) s)

end Sys2Proof.Machine
end

