-- ==== Sys2Proof/Machine/Pools.lean ====
section
/-! DEFINITION. Glue-up pools (R292–R308): slots, how a round opens, closes, fails and is scrubbed, and what takes a pool down.
The commands of the engine are in Machine/GlueUp.lean. -/

namespace Sys2Proof.Machine

/-! ### Layout (R292–R294) -/

/-- The running image's record of a pool. -/
def State.poolRec (s : State) (p : Nat) : List Byte :=
  match s.image with
  | none => []
  | some x => ((recsOf x.sections 0x50).find? fun r => decide (fieldAt r 1 1 = p)).getD []

/-- The holder of a pool. -/
def State.holder (s : State) (p : Nat) : Nat := s.rd (F.GUP_CFG_HOLDER p)
/-- LEN of a pool in bytes. -/
def State.poolBytes (s : State) (p : Nat) : Nat := s.rd (F.GUP_CFG_LEN p) * s.poolElem p
/-- SB: the bytes of a slot. -/
def State.slotBytes (s : State) (p : Nat) : Nat := 4096 * ceilDiv (s.poolBytes p) 4096
/-- Number of local members: the result region lies at this place of the slots. -/
def State.members (s : State) (p : Nat) : Nat := (s.membersOf p).length
/-- State of a pool: 0 IDLE, 1 OPEN, 2 CLOSING, 3 SCRUB, 4 HELD, 5 DOWN. -/
def State.poolSt (s : State) (p : Nat) : Nat := s.rd (F.GUP_RND_STATE p)
/-- ROUND of a pool. -/
def State.round (s : State) (p : Nat) : Nat := s.rd (F.GUP_RND_ROUND p)
/-- SCOPE: 0 local, 1 root, 2 leaf. -/
def State.scope (s : State) (p : Nat) : Nat := s.rd (F.GUP_CFG_SCOPE p)
/-- Node of a leaf's root. -/
def State.rootNode (s : State) (p : Nat) : Nat := fieldAt (s.poolRec p) 0x2A 2 % 4096
/-- NMEM. -/
def State.nmem (s : State) (p : Nat) : Nat := fieldAt (s.poolRec p) 0x28 2
/-- The nodes that have reported to a root. -/
def State.leafNodes (s : State) (p : Nat) : List Nat := (s.pool p).leafSealed.map (·.1)
/-- The nodes that a root's messages go to. Its record names no leaf: every neighbour with a port up is told, and one that is
no leaf discards the frame (R308, R388; DESIGN CHOICE, log entry 90). -/
def State.leaves (s : State) (p : Nat) : List Nat :=
  (s.leafNodes p ++ ((List.range 32).filter s.portUp).map fun q => s.rd (F.CLS_PORT_STATUS_PEER_NODE q)).dedup

/-- Slots of the local members that are SEALED, ascending. -/
def State.sealedSlots (s : State) (p : Nat) : List Nat :=
  (List.range (s.members p)).filter fun i => (s.slot p i).st = .sealed

/-- Slots sealed in the round over all packages, as far as they are known here (R311). -/
def State.allSealed (s : State) (p : Nat) : Nat := (s.sealedSlots p).length + ((s.pool p).leafSealed.map fun e => e.2 - 1).sum

/-- Contributions that remain for the sum: those of leaves that are left out do not count (R308). -/
def State.totalSealed (s : State) (p : Nat) : Nat :=
  (s.sealedSlots p).length +
    (((s.pool p).leafSealed.filter fun e => !(s.pool p).leftOut.contains e.1).map fun e => e.2 - 1).sum

/-- Statuses of R299. -/
def guLate : Nat := 0x20
/-- GU_DUP. -/
def guDup : Nat := 0x21
/-- GU_ROUND. -/
def guRoundBad : Nat := 0x22
/-- GU_FAILED. -/
def guFailed : Nat := 0x23
/-- GU_NONFINITE. -/
def guNonfinite : Nat := 0x24
/-- GU_MISSED. -/
def guMissed : Nat := 0x25
/-- GU_POOL_DOWN. -/
def guPoolDown : Nat := 0x26

/-! ### Outcomes of operations -/

/-- A contribution ends with a status and leaves the pool. -/
def endContrib (p : Nat) (x : Nat × Nat × Nat) (st : Nat) (s : State) : State :=
  endOp x.1 x.2.1 st 0 0 (s.onPool p fun q => { q with contribs := q.contribs.erase x })

/-- A receive ends with a status and leaves the pool. -/
def endReceive (p : Nat) (x : Nat × Nat × Nat) (st value : Nat) (s : State) : State :=
  endOp x.1 x.2.1 st 0 value (s.onPool p fun q => { q with receives := q.receives.erase x })

/-- The waiting receives of a round end. -/
def endReceives (p r st : Nat) (s : State) : State :=
  each ((s.pool p).receives.filter fun x => x.2.2 = r) (fun x s => endReceive p x st 0 s) s

/-- Is an entry of the contributions the copy that fills its member's slot? -/
def State.copies (s : State) (p : Nat) (x : Nat × Nat × Nat) : Bool :=
  decide (x.2.2 = s.round p) && decide ((s.slot p (s.slotOf p x.1)).st = .filling)

/-- FILLING copies end with a status, and their slots are scrubbed (R300). -/
def endCopies (p st : Nat) (s : State) : State :=
  each ((s.pool p).contribs.filter (s.copies p)) (fun x s =>
    spoilSlot p (s.slotOf p x.1) (endContrib p x st s)) s

/-! ### Scrubs (R294, R300) -/

/-- Write zeros over `n` bytes of the holder's memory, as far as its channels serve them. -/
def zeroHolder (p a n : Nat) (s : State) : State :=
  each (pieces a n) (fun g s => (s.ctxWrite (s.holder p) g.1 (List.replicate g.2 0)).1) s

/-- The glue-up engine as a unit that works for an operation, or for a pool's holder (`q` tells the place), at its agent
(R254, R304). -/
def gluePayer (c q : Nat) : Payer := { ctx := c, seq := q, unit := 12, agent := 401 }
/-- The engine's work for the holder of a pool: at slot `i`, or at the result region. -/
def State.holderPayer (s : State) (p i : Nat) : Payer := gluePayer (s.holder p) (2 ^ 34 + 512 * p + i)

/-! ### Receives and contributions (R296, R298) -/

/-- Address of the result region. -/
def State.resultAt (s : State) (p : Nat) : Nat := s.members p * s.slotBytes p

/-- A result goes to an output, whose receive completes OK with the number of contributions. -/
def deliver (p : Nat) (x : Nat × Nat × Nat) (data : List Byte) (count : Nat) (s : State) : State :=
  let s := s.onPool p fun q => { q with receives := q.receives.erase x }
  match s.op? x.1 x.2.1 with
  | none => s
  | some o =>
    match s.ctxWrite x.1 o.guAddr data with
    | (s, some e) => opMemError x.1 x.2.1 e 0 s
    | (s, none) =>
      endOp x.1 x.2.1 stOK 0 count (s.onPool p fun q => { q with served := if q.served.contains x.1 then q.served else x.1 :: q.served })

/-- What the delivery of a result to an output writes. -/
def State.outArea (s : State) (p : Nat) (x : Nat × Nat × Nat) : Areas :=
  match s.op? x.1 x.2.1 with
  | none => Areas.write x.1 []
  | some o => Areas.write x.1 [(o.guAddr, s.poolBytes p)]

/-- A receive of the held round is written from the result region; one whose access waits stays, and is served when its
command is repeated. -/
def deliverHeld (p : Nat) (x : Nat × Nat × Nat) (s : State) : State :=
  match accessAll (gluePayer x.1 x.2.1)
      [Areas.read (s.holder p) [(s.resultAt p, s.poolBytes p)], s.outArea p x] s with
  | (false, s) => s
  | (true, s) =>
    match s.ctxRead (s.holder p) (s.resultAt p) (s.poolBytes p) with
    | .error e => endOp x.1 x.2.1 stMem e.detail 0 (s.onPool p fun q => { q with receives := q.receives.erase x })
    | .ok bs => deliver p x bs (match (s.pool p).released with | some v => v.2 | none => 0) s

/-- A GU_RECEIVE for a round (R298). A released round whose slots are still being scrubbed is written once the pool is
HELD. -/
def treatReceive (p : Nat) (x : Nat × Nat × Nat) (s : State) : State :=
  let r := x.2.2
  let rnd := s.round p
  let st := s.poolSt p
  if st = 5 then endOp x.1 x.2.1 guPoolDown 0 0 s
  else if (s.pool p).fails.contains r then endOp x.1 x.2.1 guFailed 0 0 s
  else if r = (rnd + 1) % 2 ^ 32 || (r = rnd && r ≠ 0 && (st = 1 || st = 2 || st = 3)) then
    s.onPool p fun q => { q with receives := q.receives ++ [x] }
  else if r = rnd && r ≠ 0 && st = 4 && !(s.pool p).resScrub then
    heldCheck p (deliverHeld p x (s.onPool p fun q => { q with receives := q.receives ++ [x] }))
  else if r ≠ 0 && r ≤ rnd then endOp x.1 x.2.1 guMissed 0 0 s
  else endOp x.1 x.2.1 guRoundBad 0 0 s

/-- A round opens (R300): from HELD the result region is scrubbed first, and the waiting receives of the held round are
missed. The pool's generator is reseeded (R302). What leaves have reported of it before it opened counts (R308). -/
def openRound (p : Nat) (s : State) : State :=
  let s := if s.poolSt p = 4 then
      zeroHolder p (s.resultAt p) (s.poolBytes p) (endReceives p (s.round p) guMissed s)
    else s
  let s := ((s.wr (F.GUP_RND_ROUND p) (s.round p + 1)).wr (F.GUP_RND_STATE p) 1).wr (F.GUP_RND_SEALED p) 0
  s.onPool p fun q =>
    { q with tOpen := s.now, resScrub := false, served := [], partials := [], leftOut := [], closeAt := none,
             overdue := false, early := [],
             leafSealed := q.early.foldl (fun m e => SMap.ins e.1 (e.2 + 1) m) (q.leafSealed.map fun e => (e.1, 1)) }

/-- Start the copy of a contribution, by the state of its member's slot (R296). -/
def fillSlot (p : Nat) (x : Nat × Nat × Nat) (s : State) : State :=
  let i := s.slotOf p x.1
  match (s.slot p i).st with
  | .empty =>
    (s.setSlot p i { round := x.2.2, st := .filling, sumsq := 0 }).onPool p fun q => { q with contribs := q.contribs ++ [x] }
  | .scrubbing => s.onPool p fun q => { q with contribs := q.contribs ++ [x] }
  | _ => endOp x.1 x.2.1 guDup 0 0 s

/-- Has the deadline of the open round passed? -/
def State.pastDeadline (s : State) (p : Nat) : Bool :=
  decide ((s.pool p).tOpen + s.rd (F.GUP_DEADLINE_DEADLINE_NS p) ≤ s.now)

/-- A GU_CONTRIBUTE for a round (R296). -/
def treatContribute (p : Nat) (x : Nat × Nat × Nat) (s : State) : State :=
  let r := x.2.2
  let rnd := s.round p
  let st := s.poolSt p
  if st = 5 then endOp x.1 x.2.1 guPoolDown 0 0 s
  else if r = rnd && st = 1 then
    if (s.slot p (s.slotOf p x.1)).st = .empty && s.pastDeadline p then endOp x.1 x.2.1 guLate 0 0 s else fillSlot p x s
  else if r ≤ rnd then endOp x.1 x.2.1 guLate 0 0 s
  else if r = rnd + 1 then
    let later (s : State) : State := s.onPool p fun q => { q with contribs := q.contribs ++ [x] }
    if st = 0 then fillSlot p x (openRound p s)
    else if st = 4 then
      match accessAll (s.holderPayer p 256) [Areas.write (s.holder p) [(s.resultAt p, s.poolBytes p)]] s with
      | (false, s) => later s
      | (true, s) => fillSlot p x (openRound p s)
    else later s
  else endOp x.1 x.2.1 guRoundBad 0 0 s

/-- The contributions that wait are treated again. -/
def retreat (p : Nat) (s : State) : State :=
  each ((s.pool p).contribs.filter fun x => !s.copies p x) (fun x s =>
    treatContribute p x (s.onPool p fun q => { q with contribs := q.contribs.erase x })) s

/-- The pool is HELD: the receives that waited are written. -/
def serveHeld (p : Nat) (s : State) : State :=
  heldCheck p (each ((s.pool p).receives.filter fun x => x.2.2 = s.round p) (fun x s => deliverHeld p x s) s)

/-- Every slot is scrubbed: the pool goes on, to HELD after a release and to IDLE after a failure (R300). -/
def afterScrub (p : Nat) (s : State) : State :=
  if s.poolSt p = 3 && (List.range (s.members p)).all fun i => (s.slot p i).st = .empty then
    if (s.pool p).fails.contains (s.round p) then retreat p (s.wr (F.GUP_RND_STATE p) 0)
    else retreat p (serveHeld p (s.wr (F.GUP_RND_STATE p) 4))
  else s

/-- Enter SCRUB: the sealed slots are scrubbed. -/
def beginScrub (p : Nat) (s : State) : State :=
  let s := s.wr (F.GUP_RND_STATE p) 3
  each (s.sealedSlots p) (fun i s => spoilSlot p i s) s

/-! ### A round fails (R300, R303, R308) -/

/-- The pool's UID as a frame carries it. -/
def State.uidBytes (s : State) (p : Nat) : List Byte := leBytes (s.rd (F.GUP_UID_UID p)) 8

/-- The failure of the round is counted and signalled (R303). -/
def noteFailure (p : Nat) (s : State) : State :=
  let r := s.round p
  let s := (s.onPool p fun q => { q with fails := r :: q.fails, closeAt := none, partials := [] }).wrapInc
    F.GUP_STATUS_FAILED 1
  soSet (32 * s.rd (F.GUP_CFG_SO_BLOCK p)) r true false s

/-- The open or closing round fails: nothing of it is released. A root tells its leaves. -/
def failRound (p : Nat) (s : State) : State :=
  let r := s.round p
  let s := endReceives p r guFailed (endCopies p guFailed s)
  let s := if s.scope p = 1 then
      each (s.leaves p) (fun n s => sendTo n 0x14 (s.holder p) 0 0 r (s.uidBytes p) s) s
    else s
  afterScrub p (beginScrub p (noteFailure p s))

/-- Does a pool have an open or closing round? -/
def State.roundOn (s : State) (p : Nat) : Bool := s.poolSt p = 1 || s.poolSt p = 2

/-! ### A pool goes down (R306, R394) -/

/-- The pool is DOWN until device reset: its round fails without release, and every waiting operation ends. The other
packages of its round are told. -/
def poolDown (p : Nat) (s : State) : State :=
  if s.poolSt p = 5 then s
  else
    let on := s.roundOn p
    let r := s.round p
    let s := if on then noteFailure p s else s
    let s := each (s.pool p).contribs (fun x s => endContrib p x guPoolDown s) s
    let s := each (s.pool p).receives (fun x s => endReceive p x guPoolDown 0 s) s
    let s := (s.wr (F.GUP_RND_STATE p) 5).onPool p fun q => { q with slots := [], resScrub := false, served := [] }
    if on && s.scope p = 1 then each (s.leaves p) (fun n s => sendTo n 0x14 (s.holder p) 0 0 r (s.uidBytes p) s) s
    else if on && s.scope p = 2 then sendAbort 2 (s.rd (F.GUP_UID_UID p) % 2 ^ 32) r [s.rootNode p] s
    else s

/-- Pools whose holder owns one of these channels go down. -/
def poolsLost (chs : List Nat) (s : State) : State :=
  each ((List.range 64).filter fun p =>
    s.on (F.GUP_CFG_VALID p) && (s.ownedChannels (s.holder p)).any fun ch => chs.contains ch) (fun p s => poolDown p s) s

/-! ### Debug and scrapping (R307, R437, R450) -/

/-- Every pool fails its open round, and its slots and result region are scrubbed; of a pool that is DOWN, as far as channels
of its holder still serve. -/
def failPools (s : State) : State :=
  each ((List.range 64).filter fun p => s.on (F.GUP_CFG_VALID p)) (fun p s =>
    let s := if s.roundOn p then failRound p s else s
    let s := endReceives p (s.round p) guMissed s
    let s := zeroHolder p 0 ((s.members p + 1) * s.slotBytes p) s
    if s.poolSt p = 5 then s
    else retreat p ((s.wr (F.GUP_RND_STATE p) 0).onPool p fun q => { q with slots := [], resScrub := false, served := [] })) s

end Sys2Proof.Machine
end

