-- ==== Sys2Proof/Machine/Settings.lean ====
section
/-! DEFINITION. The alarm of the time base and the single step of Spindle (R390, R504, R505). -/

namespace Sys2Proof.Machine

/-- The alarm fires (R505): FIRED sets, EN clears, and a wake event of code 0x6 is raised. -/
def fireAlarm (s : State) : State :=
  if s.on F.SPN_ALARM_CTL_EN then wakeEvent 6 ((s.wr F.SPN_ALARM_CTL_FIRED 1).wr F.SPN_ALARM_CTL_EN 0) else s

/-- Spindle takes a time by its single step (R390, R391, R504); an alarm that the step carries past fires. -/
def stepSpindle (ns : Nat) (s : State) : State :=
  let was := s.now
  let s := { s with spindle := BitVec.ofNat 96 (ns * 2 ^ 32) }.wr F.SPN_STATUS_STEPPED 1
  let at' := s.rd F.SPN_ALARM_TIME
  if was < at' && at' ≤ ns then fireAlarm s else s

end Sys2Proof.Machine
end

