-- ==== Sys2Proof/Machine/Memory.lean ====
section
/-! DEFINITION. Errors, scrub, repair and heat of the stacks (chapter 06, R205–R213), and channel clears (R187). -/

namespace Sys2Proof.Machine

/-- Modules of a bundle, in the order of R5: 0–7 stacks, 8 and 9 link dies, 10–13 sites. -/
def bundleMods (b : Nat) : List Nat :=
  if b < 8 then (List.range 12).map fun i => 12 * b + i
  else if b < 10 then (List.range 16).map fun i => 96 + 16 * (b - 8) + i
  else (List.range 8).map fun i => 128 + 8 * (b - 10) + i

/-- Contexts that own a channel of a stack, ascending. -/
def State.ownersOf (s : State) (k : Nat) : List Nat :=
  (List.range 256).filter fun c => (s.ownedChannels c).any fun ch => decide (ch / 32 = k)

/-- The owner of a channel, if it has one (R186). -/
def State.ownerOf (s : State) (ch : Nat) : Option Nat :=
  if s.on (F.MEM_CH_OWNED (ch / 32) (ch % 32)) then some (s.rd (F.MEM_CH_OWNER (ch / 32) (ch % 32))) else none

/-- Scrubs whose last clear has been passed over end (R187, R285). -/
def settleScrubs (s : State) : State :=
  each ((List.range 256).filter fun c => s.on (F.CTX_STATE_SCRUB c)) (fun c s =>
    if s.clearingOf c then s else finishEnd c s) s

/-! ### Retirement (R210, R211) -/

/-- Retire a whole channel: its state, the pools that a holder of it serves, and the end of its owner with STACK_LOST
(R211, R306). -/
def retireChannel (ch : Nat) (s : State) : State :=
  let k := ch / 32
  let s := (s.onChan ch fun x => { x with retired := true, clearing := false, clean := false, cache := [] }).wr
    (F.MEM_CH_STATE k (ch % 32)) 3
  let s := poolsLost [ch] s
  settleScrubs (match s.ownerOf ch with
    | none => s
    | some c => if s.endable c then reportFault 0x0005 (srcStack k) [c] (some (s.partOf c)) ch 0 [] s else s)

/-- Insert into an ascending list. -/
def insertAsc (n : Nat) : List Nat → List Nat
  | [] => [n]
  | m :: l => if n < m then n :: m :: l else if n = m then m :: l else m :: insertAsc n l

/-- Retire a frame (R210): fenced at once, written to the black box and to the saved settings; more than 512 retire the
channel. -/
def retireFrame (ch f : Nat) (s : State) : State :=
  let k := ch / 32
  let fs := insertAsc f (s.chan ch).retFrames
  let s := s.onChan ch fun x => { x with retFrames := fs }
  let s := (s.wr (F.MEM_CH_RET_FRAMES k (ch % 32)) fs.length).satInc (F.MEM_REPAIR_FRAMES_RETIRED k) 1
  let s := bbEvent 0x8021 (srcStack k) (leBytes ch 2 ++ leBytes f 2) s
  let s := saveNow (s.onSaved fun v => { v with frames := SMap.put (fun _ => []) v.frames ch fs })
  if 512 < fs.length then retireChannel ch s else s

/-- A row has failed (R209, R210): remapped to a spare row, or its frame retired. -/
def rowFails (ch row : Nat) (s : State) : State :=
  let k := ch / 32
  let x := s.chan ch
  let n := SMap.get (fun _ => 0) x.remaps row
  if x.retired || x.retFrames.contains (row / 65536) then s
  else if n < 2 && x.spares < 256 then
    let kept (g : Nat) : Bool := rowOf ch (32 * g) != row
    let rs := SMap.put (fun _ => 0) x.remaps row (n + 1)
    let s := s.onChan ch fun x =>
      { x with remaps := rs, spares := x.spares + 1, copying := x.copying ++ [row],
               ceThis := x.ceThis.filter kept, ceLast := x.ceLast.filter kept }
    let s := s.satInc (F.MEM_REPAIR_REMAPS k) 1
    let s := if n = 1 then s.satInc (F.MEM_REPAIR_SECOND_REMAPS k) 1 else s
    let s := s.wr (F.MEM_REPAIR_SPARES_FREE k) (s.rd (F.MEM_REPAIR_SPARES_FREE k) - 1)
    let s := bbEvent 0x8020 (srcStack k) ([byte k, byte ch] ++ leBytes row 4 ++ [byte (n + 1)]) s
    saveNow (s.onSaved fun v => { v with remaps := SMap.put (fun _ => []) v.remaps ch rs })
  else retireFrame ch (row / 65536) s

/-- What the code of a granule reports on a read of the DRAM (R205, R207, R209). A corrected granule is counted and
reported; one first found uncorrectable is marked and fails its row. -/
def eccSeen (ch off : Nat) (e : Ecc) (s : State) : State :=
  let k := ch / 32
  let g := off / 32
  let row := rowOf ch off
  match e with
  | .clean => s
  | .corrected =>
    let s := s.satInc (F.MEM_ECC_CE_CNT k (ch % 32)) 1
    let again := (s.chan ch).ceLast.contains g
    let s := s.onChan ch fun x => { x with ceThis := if x.ceThis.contains g then x.ceThis else g :: x.ceThis }
    let s := reportFault 0x0202 (srcStack k) [] none ch off [] s
    let inRow := (s.chan ch).ceThis.filter fun h => decide (rowOf ch (32 * h) = row)
    if again || 3 ≤ inRow.length then rowFails ch row s else s
  | .uncorrectable =>
    if s.marked ch off then s
    else
      let s := (s.setMark ch off true).satInc (F.MEM_ECC_UE_CNT k (ch % 32)) 1
      rowFails ch row (s.wr (F.MEM_ECC_UE k (ch % 32)) 1)

/-! ### Patrol scrub (R208) -/

/-- Granules of a channel's physical space. -/
def channelGranules : Nat := 49152 * 2048

/-- The fewest full passes that a channel of a stack has made. -/
def State.stackPasses (s : State) (k : Nat) : Nat :=
  ((List.range 32).map fun l => (s.chan (32 * k + l)).passes).min?.getD 0

/-- PATROL_SCRUB_READ: the next granule of a powered channel is read and corrected, whatever its owner, its frame or its
retirement; a channel that is clearing is skipped. -/
def patrolScrub (ch : Nat) (e : Ecc) (s : State) : State :=
  let x := s.chan ch
  let k := ch / 32
  if x.clearing || s.rd (F.MEM_STATUS_STATE k) ≠ 2 then s
  else
    let s := eccSeen ch (32 * x.scrubPos) e s
    if x.scrubPos + 1 < channelGranules then s.onChan ch fun x => { x with scrubPos := x.scrubPos + 1 }
    else
      let n := s.stackPasses k
      let s := s.onChan ch fun x =>
        { x with scrubPos := 0, passes := x.passes + 1, ceLast := x.ceThis, ceThis := [] }
      if s.stackPasses k = n then s
      else (s.wrapInc (F.MEM_SCRUB_PASSES k) 1).wr (F.MEM_SCRUB_LAST_PASS k) s.now

/-! ### Heat (R212, R213) -/

/-- Shut a stack down (R213). The owners end before the requests in flight fail: those of an owner are among what its end
performs, and find the stack down. -/
def stackShutdown (k temp : Nat) (s : State) : State :=
  let owners := (s.ownersOf k).filter s.endable
  let s := s.wr (F.MEM_STATUS_STATE k) 3
  let s := each (List.range 32) (fun l s =>
    let s := s.onChan (32 * k + l) fun x => { x with cache := [], clean := false, clearing := false }
    if (s.chan (32 * k + l)).retired then s else s.wr (F.MEM_CH_STATE k l) 4) s
  let s := { s with devMem := SMap.keep (fun a => a / 2 ^ 37 != k) s.devMem,
                    ueMarks := SMap.keep (fun a => a / 2 ^ 32 != k) s.ueMarks }
  let s := poolsLost ((List.range 32).map (32 * k + ·)) s
  let s := each owners (fun c s => reportFault 0x0006 (srcStack k) [c] (some (s.partOf c)) 0 0 [] s) s
  let s := failRequests k s
  let s := each (bundleMods k) (fun m s => (s.wr (F.D2D_MOD_STATUS_STATE m) 4).wr (F.D2D_MOD_STATUS_WIDTH m) 0) s
  bbEvent 0x8022 (srcStack k) [byte k, byte temp] (settleScrubs s)

/-- Move STRETCH by one step, at most once per 1 ms; the package's lateness is told at once (R212, R364, R389). -/
def stretchStep (k n : Nat) (s : State) : State :=
  let last := SMap.get (fun _ => 0) s.stretchAt k
  if last ≠ 0 && s.now < last - 1 + 1000000 then s
  else
    let was := s.late
    let s := { s.wr (F.MEM_STATUS_STRETCH k) n with stretchAt := SMap.put (fun _ => 0) s.stretchAt k (s.now + 1) }
    let s := raiseVector 0 3 s
    if s.late = was then s else sendTimeAll s

/-- THERMAL_SAMPLE: the highest reading of a powered base die (R212). -/
def thermalSample (k : Nat) (temp : BitVec 8) (s : State) : State :=
  let st := s.rd (F.MEM_STATUS_STATE k)
  if st = 0 || st = 3 then s
  else
    let t := temp.toInt
    let first := SMap.get (fun _ => 0) s.stretchAt (8 + k) = 0
    let peak := s.rd (F.MEM_STATUS_TEMP_PEAK k)
    let s := { s with stretchAt := SMap.put (fun _ => 0) s.stretchAt (8 + k) 1 }
    let s := s.wr (F.MEM_STATUS_TEMP k) temp.toNat
    let s := if first || signed 8 peak < t then s.wr (F.MEM_STATUS_TEMP_PEAK k) temp.toNat else s
    if 105 ≤ t then stackShutdown k temp.toNat s
    else
      let s := if 85 ≤ t then s.wr (F.MEM_STATUS_REFRESH_2X k) 1
        else if t < 82 then s.wr (F.MEM_STATUS_REFRESH_2X k) 0 else s
      let n := s.rd (F.MEM_STATUS_STRETCH k)
      if 95 ≤ t && n < 7 then stretchStep k (n + 1) s
      else if t < 92 && 0 < n then stretchStep k (n - 1) s
      else s

/-! ### Channel clears (R187, R286) -/

/-- A channel clear ends: zero everywhere, fresh check bits, no cached line, and the CLEAN mark. -/
def channelCleared (ch : Nat) (s : State) : State :=
  let s := { s with devMem := SMap.keep (fun a => a / 2 ^ 32 != ch) s.devMem,
                    ueMarks := SMap.keep (fun a => a / 2 ^ 27 != ch) s.ueMarks }
  let s := s.onChan ch fun x => { x with clearing := false, clean := true, cache := [] }
  s.wr (F.MEM_CH_STATE (ch / 32) (ch % 32)) (if (s.ownerOf ch).isSome then 1 else 0)

/-! ### The commands -/

/-- THERMAL_SAMPLE. -/
def execThermalSample (k : StackId) (temp : BitVec 8) (s : State) : Host.Outcome State Fault Refusal :=
  s.done (thermalSample k.val temp s)
/-- PATROL_SCRUB_READ. -/
def execPatrolScrubRead (ch : ChanId) (e : Ecc) (s : State) : Host.Outcome State Fault Refusal :=
  s.done (patrolScrub ch.val e s)

end Sys2Proof.Machine
end

