-- ==== Sys2Proof/Machine/Normal.lean ====
section
/-! DEFINITION. The inverse of the standard normal distribution function (R302), in whole numbers: the engine maps a DRBG
output u to Φ⁻¹((u + 0.5) / 2^64). The distribution function is 1/2 + S(z) / √(2π), where S is its power series. -/

namespace Sys2Proof.Machine

/-- π in units of 2^−320, rounded down. -/
def piScaled : Nat := 0x3243f6a8885a308d313198a2e03707344a4093822299f31d0082efa98ec4e6c89452821e638d01377

/-- Terms of S(z) from number `n` on, in units of 2^−320: `t` is z^(2n+1) / (2^n n!), `z2` is z². -/
def normalTerms (z2 : Nat) : Nat → Nat → Nat → Int
  | 0, _, _ => 0
  | fuel + 1, n, t =>
    (t / (2 * n + 1) : Nat) - normalTerms z2 fuel (n + 1) (t * z2 / 2 ^ 320 / (2 * (n + 1)))

/-- S(k · 2^−52) in units of 2^−320, for |z| below 16: 300 terms leave less than one unit out. -/
def normalSeries (k : Nat) : Int :=
  let z := k * 2 ^ 268
  normalTerms (z * z / 2 ^ 320) 300 0 z

/-- Does |z| = k · 2^−52 lie at or below the inverse for an output `u`: S(z)² ≤ 2π q², where q = |2u + 1 − 2^64| / 2^65? -/
def normalBelow (u k : Nat) : Bool :=
  let q : Int := 2 * u + 1 - 2 ^ 64
  let s := normalSeries k
  decide (s * s * 2 ^ 130 ≤ q * q * 2 * piScaled * 2 ^ 320)

/-- The inverse for an output `u`, in units of 2^−52 and rounded towards zero. -/
def normalInv (u : Nat) : Int :=
  let k := (List.range 56).foldr (fun i k => if normalBelow u (k + 2 ^ i) then k + 2 ^ i else k) 0
  if 2 ^ 63 ≤ u then k else -(k : Int)

end Sys2Proof.Machine
end

