-- ==== Sys2Proof/Machine/GlueUp.lean ====
section
/-! DEFINITION. The commands of the glue-up engine (R295–R303, R308, R388): contributions and receives, seals, the close of a
round, the sum and its noise, the release, and the frames between a root and its leaves. -/

namespace Sys2Proof.Machine

/-! ### FP64 (R297, R301) -/

/-- FP64 product with one rounding. -/
def f64Mul (a b : Nat) : Nat := (fp64.result .near false ((fp64.decode a).mul (fp64.decode b))).bits

/-- FP64 bits of a non-negative quotient of numbers m₁·2^e₁ / m₂·2^e₂, rounded once: 160 bits of quotient and a sticky
bit decide the rounding. -/
def f64Quot (m₁ : Nat) (e₁ : Int) (m₂ : Nat) (e₂ : Int) : Nat :=
  let n := m₁ * 2 ^ 160
  let q := 2 * (n / m₂) + (if n % m₂ = 0 then 0 else 1)
  (fp64.roundFin .near false false q (e₁ - e₂ - 161)).bits

/-- FP64 quotient of two positive finite values. -/
def f64Div (a b : Nat) : Nat :=
  match fp64.decode a, fp64.decode b with
  | .fin _ m e, .fin _ n f => f64Quot m e n f
  | _, _ => 0

/-- FP64 square root of a non-negative value, rounded once. -/
def f64Sqrt (a : Nat) : Nat :=
  match fp64.decode a with
  | .fin _ m e =>
    let odd : Nat := (e % 2).toNat
    let n := m * 2 ^ (160 + odd)
    let r := isqrt n
    (fp64.roundFin .near false false (2 * r + (if r * r = n then 0 else 1)) ((e - odd) / 2 - 81)).bits
  | _ => a

/-- FP64 order. -/
def f64Le (a b : Nat) : Bool := (fp64.decode a).le (fp64.decode b)

/-! ### Elements -/

/-- Element `j` of bytes in the pool's format. -/
def poolElemAt (bf : Bool) (bs : List Byte) (j : Nat) : FV :=
  if bf then bf16.decode (fieldAt bs (2 * j) 2) else fp32.decode (fieldAt bs (4 * j) 4)

/-- The elements of a contribution. -/
def State.elemsOf (s : State) (p : Nat) (bs : List Byte) : List FV :=
  (List.range (s.rd (F.GUP_CFG_LEN p))).map (poolElemAt (s.on (F.GUP_CFG_FMT p)) bs)

/-- Sum of squares in FP64, each square exact and each addition rounded (R297). -/
def sumSquares (xs : List FV) : Nat := xs.foldl (fun t x => f64Add t (f64Of (x.mul x).1)) 0

/-! ### Contributing and receiving (R295–R298) -/

/-- Run a glue-up operation that the engine takes over: started, of its kind, its context in RUN (R177). One that the
engine holds already and does not copy is treated again by the tables of R296 and R298. -/
def runGlue (k c q : Nat) (f : Nat → Nat × Nat × Nat → State → State) (s : State) : State :=
  match s.op? c q with
  | none => s
  | some o =>
    let p := o.guPool
    let x := (c, q, o.guRound)
    if o.kind = k && o.started && o.done.isNone && s.ctxState c = 4 && !((s.pool p).contribs.contains x && s.copies p x) then
      f p x (s.onPool p fun y => { y with contribs := y.contribs.erase x, receives := y.receives.erase x })
    else s

/-- Does this package report to a root? Then a seal is reported; otherwise a full round closes (R300, R308). -/
def sealed (p : Nat) (close : Nat → State → State) (s : State) : State :=
  let s := s.wr (F.GUP_RND_SEALED p) (s.allSealed p)
  if s.scope p = 2 then
    sendTo (s.rootNode p) 0x10 (s.holder p) 0 0 (s.round p * 2 ^ 32 + (s.sealedSlots p).length) (s.uidBytes p) s
  else if s.totalSealed p = (if s.scope p = 1 then s.nmem p else s.members p) then close p s
  else s

/-- The round closes: copies that fill end with GU_LATE, and a root tells its leaves (R300, R308). -/
def closeRound (p : Nat) (s : State) : State :=
  let s := endCopies p guLate (s.wr (F.GUP_RND_STATE p) 2)
  let s := s.onPool p fun q => { q with closeAt := some s.now }
  if s.scope p = 1 then
    each (s.leaves p) (fun n s => sendTo n 0x11 (s.holder p) 0 0 (s.round p) (s.uidBytes p) s) s
  else s

/-- SLOT_SEAL: the copy of a member's contribution ends (R297). -/
def slotSeal (p c : Nat) (s : State) : State :=
  match (s.pool p).contribs.find? fun x => x.1 = c && s.copies p x with
  | none => s
  | some x =>
    let i := s.slotOf p c
    let drop (s : State) : State := spoilSlot p i (s.onPool p fun q => { q with contribs := q.contribs.erase x })
    match s.op? c x.2.1 with
    | none => drop s
    | some o =>
      let n := s.poolBytes p
      let slot := i * s.slotBytes p
      match accessAll (gluePayer c x.2.1) [Areas.read c [(o.guAddr, n)], Areas.write (s.holder p) [(slot, n)]] s with
      | (false, s) => s
      | (true, s) =>
        match s.ctxRead c o.guAddr n with
        | .error e => opMemError c x.2.1 e 0 (drop s)
        | .ok bs =>
          let xs := s.elemsOf p bs
          match s.ctxWrite (s.holder p) slot bs with
          | (s, some e) => endOp c x.2.1 stMem e.detail 0 (drop s)
          | (s, none) =>
            if xs.any FV.special then endOp c x.2.1 guNonfinite 0 0 (drop s)
            else
              let s := s.setSlot p i { round := x.2.2, st := .sealed, sumsq := sumSquares xs }
              let s := endContrib p x stOK s
              let s := soAdd (32 * s.rd (F.GUP_CFG_SO_BLOCK p) + 1) 1 false s
              if s.poolSt p = 1 then sealed p closeRound s else s

/-- ROUND_DEADLINE: the open round closes with K seals, or fails (R300). A leaf's round follows its root. Below L0 Run it
takes effect at exit (R488). -/
def roundDeadline (p : Nat) (s : State) : State :=
  if s.poolSt p = 1 && s.scope p ≠ 2 then
    if !s.atL0 then s.onPool p fun q => { q with overdue := true }
    else if s.rd (F.GUP_CFG_K p) ≤ s.totalSealed p then closeRound p s else failRound p s
  else s

/-! ### The sum (R301, R302) -/

/-- Clip factor of a slot: 1, or CLIP over its norm. -/
def clipFactor (clip sumsq : Nat) : Nat :=
  let n := f64Sqrt sumsq
  if f64Le n clip then f64Of (.fin false 1 0) else f64Div clip n

/-- The sealed slots' clip factors and elements, or the error of a slot that cannot be read. -/
def State.slotData (s : State) (p : Nat) : List Nat → Except MemErr (List (Nat × List FV))
  | [] => .ok []
  | i :: is =>
    match s.ctxRead (s.holder p) (i * s.slotBytes p) (s.poolBytes p) with
    | .error e => .error e
    | .ok bs =>
      match s.slotData p is with
      | .error e => .error e
      | .ok rest => .ok ((clipFactor (f64Of (fp32.decode (s.rd (F.GUP_CLIP_CLIP p)))) (s.slot p i).sumsq, s.elemsOf p bs) :: rest)

/-- The partial sums of this package, in FP64, in slot order and without noise. -/
def State.partialSums (s : State) (p : Nat) : Except MemErr (List Nat) :=
  match s.slotData p (s.sealedSlots p) with
  | .error e => .error e
  | .ok ds => .ok ((List.range (s.rd (F.GUP_CFG_LEN p))).map fun j =>
      ds.foldl (fun t d => f64Add t (f64Mul d.1 (f64Of (d.2.getD j (.fin false 0 0))))) 0)

/-- Frame indexes and sums of a leaf's partial. -/
def Pool.framesOf (x : Pool) (node : Nat) : List (Nat × List Nat) :=
  (x.partials.filter fun e => e.1 / 2 ^ 32 = node).map fun e => (e.1 % 2 ^ 32, e.2)

/-- The sums of a leaf's partial, in element order. -/
def Pool.partialOf (x : Pool) (node n : Nat) : List Nat :=
  (List.range (ceilDiv n 256)).flatMap fun i => ((x.framesOf node).find? fun f => f.1 = i).elim [] (·.2)

/-- Leaves in the order in which their partials became whole (R96, R308). -/
def Pool.arrivals (x : Pool) : List Nat := ((x.partials.map fun e => e.1 / 2 ^ 32).reverse.dedup).reverse

/-- Has the whole partial of a leaf arrived? -/
def State.partialIn (s : State) (p node : Nat) : Bool :=
  let n := s.rd (F.GUP_CFG_LEN p)
  decide (((s.pool p).partialOf node n).length = n)

/-- The noise of element `j` (R302): one output of the pool's generator each, mapped within 2^-44 of the inverse of the
standard normal distribution function. Which value of that band an engine takes is free (log entry 4). -/
def State.noiseAt (s : State) (j : Nat) : Nat :=
  let u := (Config.freeBits (s.freeCtr + j)).toNat
  let d : Int := (Config.normalErr u).toNat % 501 - 250
  let z := normalInv u + d
  f64Of (.fin (decide (z < 0)) z.natAbs (-52))

/-- SIGMA × CLIP. -/
def State.sigmaClip (s : State) (p : Nat) : Nat :=
  f64Mul (f64Of (.fin false (s.rd (F.GUP_CLIP_SIGMA p)) (-16))) (f64Of (fp32.decode (s.rd (F.GUP_CLIP_CLIP p))))

/-- The result from the sums of every package: noise, one rounding to the pool's format, overflow to the largest finite
value. -/
def State.resultBytes (s : State) (p : Nat) (sums : List Nat) : List Byte :=
  sums.zipIdx.flatMap fun t =>
    let y := f64Add t.1 (f64Mul (s.sigmaClip p) (s.noiseAt t.2))
    if s.on (F.GUP_CFG_FMT p) then leBytes (bf16.round .near true (fp64.decode y)).bits 2
    else leBytes (fp32.round .near true (fp64.decode y)).bits 4

/-! ### Memory that a close and a release take (R304) -/

/-- The sealed slots, as a partial or a sum reads them. -/
def State.slotsArea (s : State) (p : Nat) : Areas :=
  Areas.read (s.holder p) ((s.sealedSlots p).map fun i => (i * s.slotBytes p, s.poolBytes p))

/-- The result region, and the destinations of the receives that wait for the round, as a release writes them. -/
def State.releaseAreas (s : State) (p : Nat) : List Areas :=
  Areas.write (s.holder p) [(s.resultAt p, s.poolBytes p)] ::
    ((s.pool p).receives.filter fun x => x.2.2 = s.round p).map (s.outArea p)

/-! ### Release (R298, R300, R303, R308) -/

/-- The round's result is in the result region: waiting receives are written, the release is signalled, and the slots are
scrubbed. -/
def release (p : Nat) (data : List Byte) (count : Nat) (s : State) : State :=
  let r := s.round p
  let s := (s.ctxWrite (s.holder p) (s.resultAt p) data).1
  let s := s.onPool p fun q => { q with released := some (r, count), closeAt := none }
  let s := each ((s.pool p).receives.filter fun x => x.2.2 = r) (fun x s => deliver p x data count s) s
  let s := soSet (32 * s.rd (F.GUP_CFG_SO_BLOCK p)) r false true (s.wrapInc F.GUP_STATUS_RELEASED 1)
  afterScrub p (beginScrub p s)

/-- Cut bytes into frames of at most 2,048 bytes and send them to a node, numbered from `i` (R388). -/
def sendPieces (node type p : Nat) : Nat → List Byte → Nat → State → State
  | _, _, 0, s => s
  | i, bs, n + 1, s =>
    if bs.isEmpty then s
    else sendPieces node type p (i + 1) (bs.drop 2048) n
      (sendTo node type (s.holder p) 0 0 (s.round p * 2 ^ 32 + i) (bs.take 2048) s)

/-- Send bytes as numbered frames. -/
def sendAll (node type p : Nat) (bs : List Byte) (s : State) : State := sendPieces node type p 0 bs (bs.length / 2048 + 1) s

/-- ROUND_RELEASE of a local pool or a root: the sum of the closing round, once every leaf's partial is in or left out. A
slot that cannot be read fails the round (DESIGN CHOICE, log entry 89). -/
def roundRelease (p : Nat) (s : State) : State :=
  let x := s.pool p
  if s.poolSt p ≠ 2 || s.scope p = 2 then s
  else if s.scope p = 1 && (s.leafNodes p).any fun n => !x.leftOut.contains n && !s.partialIn p n then s
  else
    match accessAll (s.holderPayer p 256) (s.slotsArea p :: s.releaseAreas p) s with
    | (false, s) => s
    | (true, s) =>
    match s.partialSums p with
    | .error _ => failRound p s
    | .ok own =>
      let len := s.rd (F.GUP_CFG_LEN p)
      let leaves := x.arrivals.filter fun n => !x.leftOut.contains n && s.partialIn p n
      let sums := leaves.foldl (fun t n => t.zipWith f64Add (x.partialOf n len)) own
      let data := s.resultBytes p sums
      let count := s.totalSealed p
      let s := s.drawnN len
      let s := if s.scope p = 1 then each (s.leaves p) (fun n s => sendAll n 0x13 p data s) s else s
      release p data count s

/-- RESULT_REGION_SCRUB_END: the pool goes from HELD to IDLE (R300). -/
def resultScrubEnd (p : Nat) (s : State) : State :=
  if (s.pool p).resScrub && s.poolSt p = 4 then
    match accessAll (s.holderPayer p 256) [Areas.write (s.holder p) [(s.resultAt p, s.poolBytes p)]] s with
    | (false, s) => s
    | (true, s) =>
      let s := zeroHolder p (s.resultAt p) (s.poolBytes p) s
      let s := endReceives p (s.round p) guMissed s
      retreat p ((s.wr (F.GUP_RND_STATE p) 0).onPool p fun q => { q with resScrub := false })
  else s

/-! ### Leaves (R308, R388, R394, R395) -/

/-- A leaf is left out when what remains is at least K; otherwise the round fails. -/
def leaveOut (p node : Nat) (s : State) : State :=
  if s.scope p = 1 && s.roundOn p && !(s.pool p).leftOut.contains node && !s.partialIn p node then
    let s := s.onPool p fun q => { q with leftOut := node :: q.leftOut }
    if s.poolSt p = 2 && s.totalSealed p < s.rd (F.GUP_CFG_K p) then failRound p s else s
  else s

/-- LEAF_PARTIAL_DEADLINE. -/
def leafPartialDeadline (p node : Nat) (s : State) : State :=
  if s.poolSt p = 2 && (s.leafNodes p).contains node then leaveOut p node s else s

/-- The pool of a UID whose root, or one of whose leaves, is the sender (R388). -/
def State.poolOf (s : State) (uid node scope : Nat) : Option Nat :=
  (List.range 64).find? fun p =>
    s.on (F.GUP_CFG_VALID p) && s.scope p = scope && s.rd (F.GUP_UID_UID p) = uid && (scope = 1 || s.rootNode p = node)

/-- A frame that matches no pool is discarded and counted (R388). -/
def discardPool (s : State) : State := s.satInc F.CLS_COUNT_DISCARD 1

/-- A leaf's report for the open round, or for the next one, which a pool that is IDLE or HELD opens. One that comes while the
pool is still busy with the last round is kept (R308). -/
def takeSeal (p node r n : Nat) (s : State) : State :=
  let next := (s.round p + 1) % 2 ^ 32
  let idle := s.poolSt p = 0 || s.poolSt p = 4
  let s := if idle && r = next then openRound p s else s
  if s.poolSt p = 1 && r = s.round p then
    sealed p closeRound (s.onPool p fun q => { q with leafSealed := SMap.ins node (n + 1) q.leafSealed })
  else if r = next && s.poolSt p ≠ 5 then s.onPool p fun q => { q with early := SMap.ins node n q.early }
  else s

/-- GU_SEAL at the root: the first report anywhere opens the round; a full one closes (R308). -/
def guSeal (node uid r n : Nat) (s : State) : State :=
  match s.poolOf uid node 1 with
  | none => discardPool s
  | some p =>
    takeSeal p node r n (s.onPool p fun q => if q.leafSealed.any fun e => e.1 = node then q
      else { q with leafSealed := SMap.ins node 1 q.leafSealed })

/-- A leaf takes part in a round that its root names: one that it has not opened opens here (R308). -/
def joinRound (p r : Nat) (s : State) : State :=
  if (s.poolSt p = 0 || s.poolSt p = 4) && r = s.round p + 1 then openRound p s else s

/-- A leaf whose slots of the last round are not yet scrubbed keeps what its root says of the next one. -/
def State.keepsDue (s : State) (p r : Nat) : Bool := s.poolSt p = 3 && decide (r = s.round p + 1)

/-- GU_CLOSE at a leaf: the partial goes to the root, then the slots are scrubbed. -/
def leafClose (p r : Nat) (s : State) : State :=
  let s := joinRound p r s
  if s.poolSt p = 1 && r = s.round p then
    let s := closeRound p s
    let s := match s.partialSums p with
      | .ok sums => sendAll (s.rootNode p) 0x12 p (sums.flatMap fun t => leBytes t 8) s
      | .error _ => s
    each (s.sealedSlots p) (fun i s => spoilSlot p i s) s
  else s

/-- The root has failed a round (R308). -/
def leafFail (p r : Nat) (s : State) : State :=
  let s := joinRound p r s
  if s.roundOn p && r = s.round p then failRound p s else s

/-- What was kept while the last round ended is taken up: reports of leaves, the word of a root (R308). -/
def takeEarly (p : Nat) (s : State) : State :=
  if !(s.poolSt p = 0 || s.poolSt p = 4) then s
  else
    let s := if (s.pool p).early.isEmpty then s else sealed p closeRound (openRound p s)
    match (s.pool p).due with
    | none => s
    | some (r, failed) =>
      let s := s.onPool p fun q => { q with due := none }
      if failed then leafFail p r s else leafClose p r s

/-- SLOT_SCRUB_END: the slot is EMPTY (R294). -/
def slotScrubEnd (p i : Nat) (s : State) : State :=
  if (s.slot p i).st = .scrubbing then
    match accessAll (s.holderPayer p i) [Areas.write (s.holder p) [(i * s.slotBytes p, s.poolBytes p)]] s with
    | (false, s) => s
    | (true, s) =>
      let s := zeroHolder p (i * s.slotBytes p) (s.poolBytes p) s
      let s := s.setSlot p i PoolSlot.init
      if s.poolSt p = 3 then takeEarly p (afterScrub p s) else retreat p s
  else s

/-- GU_CLOSE. -/
def guClose (node uid r : Nat) (s : State) : State :=
  match s.poolOf uid node 2 with
  | none => discardPool s
  | some p => if s.keepsDue p r then s.onPool p fun q => { q with due := some (r, false) } else leafClose p r s

/-- GU_PARTIAL at the root: a frame of a leaf's partial sums, with a frame index. A GU_PARTIAL carries no UID: the pool is
the closing one that awaits the node. -/
def guPartial (node r idx : Nat) (data : List Byte) (s : State) : State :=
  match (List.range 64).find? fun p =>
      s.on (F.GUP_CFG_VALID p) && s.scope p = 1 && s.poolSt p = 2 && s.round p = r && (s.leafNodes p).contains node with
  | none => discardPool s
  | some p =>
    let n := s.rd (F.GUP_CFG_LEN p) - 256 * idx
    let sums := (List.range (min n 256)).map fun j => fieldAt data (8 * j) 8
    if n = 0 || (s.pool p).leftOut.contains node then s
    else s.onPool p fun q => { q with partials := (q.partials.filter fun e => e.1 != node * 2 ^ 32 + idx) ++ [(node * 2 ^ 32 + idx, sums)] }

/-- The leaf's pool that a frame of a result is for (R388). -/
def State.resultPool (s : State) (node r : Nat) : Option Nat :=
  (List.range 64).find? fun p =>
    s.on (F.GUP_CFG_VALID p) && s.scope p = 2 && s.poolSt p = 2 && s.round p = r && s.rootNode p = node

/-- Is a frame of a result the last one that a leaf awaits? -/
def State.lastFrame (s : State) (p idx : Nat) : Bool :=
  decide (ceilDiv (s.poolBytes p) 2048 ≤ ((s.pool p).partials.filter fun e => e.1 != idx).length + 1)

/-- GU_RESULT at a leaf: a frame of the result; with the last one the round is released to the leaf's outputs. How many
contributions are in the sum no frame says: the receives' VALUE is a free number from K to NMEM (R298; log entry 90). -/
def guResult (node r idx : Nat) (data : List Byte) (s : State) : State :=
  match s.resultPool node r with
  | none => discardPool s
  | some p =>
    let total := s.poolBytes p
    let n := min 2048 (total - 2048 * idx)
    if n = 0 then s
    else
      let s := (s.ctxWrite (s.holder p) (s.resultAt p + 2048 * idx) (data.take n)).1
      let s := s.onPool p fun q => { q with partials := (q.partials.filter fun e => e.1 != idx) ++ [(idx, [])] }
      if (s.pool p).partials.length < ceilDiv total 2048 then s
      else
        match s.ctxRead (s.holder p) (s.resultAt p) total with
        | .error _ => failRound p s
        | .ok bs =>
          let k := s.rd (F.GUP_CFG_K p)
          release p bs (k + s.free.toNat % (s.nmem p + 1 - k)) s.drawn

/-- What a frame of a result accesses: its part of the region, and with the last one the whole of it and the destinations
of the receives that wait. -/
def State.resultAreas (s : State) (node r idx : Nat) : List Areas :=
  match s.resultPool node r with
  | none => []
  | some p =>
    let part := Areas.write (s.holder p) [(s.resultAt p + 2048 * idx, min 2048 (s.poolBytes p - 2048 * idx))]
    if s.lastFrame p idx then
      part :: Areas.read (s.holder p) [(s.resultAt p, s.poolBytes p)] :: s.releaseAreas p
    else [part]

/-- What a CLOSE reads at a leaf: its sealed slots. -/
def State.closeAreas (s : State) (node uid r : Nat) : List Areas :=
  match s.poolOf uid node 2 with
  | none => []
  | some p => if s.poolSt p = 1 && r = s.round p then [s.slotsArea p] else []

/-- GU_FAIL at a leaf: the round fails. -/
def guFail (node uid r : Nat) (s : State) : State :=
  match s.poolOf uid node 2 with
  | none => discardPool s
  | some p => if s.keepsDue p r then s.onPool p fun q => { q with due := some (r, true) } else leafFail p r s

/-- The neighbour aborts a round, or its trunk is lost: a root leaves the leaf out, a leaf's round fails (R308, R395). -/
def poolAborted (node p : Nat) (s : State) : State :=
  if s.scope p = 1 && (s.leafNodes p).contains node then leaveOut p node s
  else if s.scope p = 2 && s.rootNode p = node && s.roundOn p then failRound p s
  else s

/-- An abort key for a pool round: the low half of the UID, and the round (R389, R394). -/
def poolAbortKey (node ident r : Nat) (s : State) : State :=
  each ((List.range 64).filter fun p =>
    s.on (F.GUP_CFG_VALID p) && s.scope p ≠ 0 && s.rd (F.GUP_UID_UID p) % 2 ^ 32 = ident && s.round p = r)
    (fun p s => poolAborted node p s) s

/-- The trunk to a node is lost (R395). -/
def poolsUnlinked (node : Nat) (s : State) : State :=
  each ((List.range 64).filter fun p => s.on (F.GUP_CFG_VALID p) && s.scope p ≠ 0) (fun p s => poolAborted node p s) s

/-! ### The commands -/

/-- A step of the glue-up engines, which stand still from L2 Hush on (R487). -/
def glueOn (f : State → State) (s : State) : State := if s.enginesOn then f s else s

/-- GU_CONTRIBUTE. -/
def execGuContribute (c : CtxId) (seq : Nat) (s : State) : Host.Outcome State Fault Refusal :=
  s.done (runGlue 0x28 c.val seq treatContribute s)
/-- GU_RECEIVE. -/
def execGuReceive (c : CtxId) (seq : Nat) (s : State) : Host.Outcome State Fault Refusal :=
  s.done (runGlue 0x29 c.val seq treatReceive s)
/-- SLOT_SEAL. -/
def execSlotSeal (p : PoolId) (c : CtxId) (s : State) : Host.Outcome State Fault Refusal := s.done (glueOn (slotSeal p.val c.val) s)
/-- ROUND_DEADLINE. -/
def execRoundDeadline (p : PoolId) (s : State) : Host.Outcome State Fault Refusal := s.done (roundDeadline p.val s)
/-- ROUND_RELEASE. -/
def execRoundRelease (p : PoolId) (s : State) : Host.Outcome State Fault Refusal := s.done (glueOn (roundRelease p.val) s)
/-- SLOT_SCRUB_END. -/
def execSlotScrubEnd (p : PoolId) (i : Fin 256) (s : State) : Host.Outcome State Fault Refusal :=
  s.done (glueOn (slotScrubEnd p.val i.val) s)
/-- RESULT_REGION_SCRUB_END. -/
def execResultRegionScrubEnd (p : PoolId) (s : State) : Host.Outcome State Fault Refusal := s.done (glueOn (resultScrubEnd p.val) s)
/-- LEAF_PARTIAL_DEADLINE. -/
def execLeafPartialDeadline (p : PoolId) (node : Nat) (s : State) : Host.Outcome State Fault Refusal :=
  s.done (leafPartialDeadline p.val node s)

end Sys2Proof.Machine
end

