-- ==== Sys2Proof/Machine/Collectives.lean ====
section
/-! DEFINITION. Remote windows, puts and gets, and collectives (R381–R387, R394–R396): what the operations of a context do, and
what a frame does once its port has accepted it. -/

namespace Sys2Proof.Machine

/-! ### Statuses of R396 -/

/-- CL_NOWIN. -/
def clNoWin : Nat := 0x20
/-- CL_LINK. -/
def clLink : Nat := 0x21
/-- CL_ABORTED. -/
def clAborted : Nat := 0x22
/-- CL_TIMEOUT. -/
def clTimeout : Nat := 0x23
/-- CL_MISMATCH. -/
def clMismatch : Nat := 0x24
/-- CL_REMOTE_MEM. -/
def clRemoteMem : Nat := 0x25

/-- The agent of the link die that a port belongs to (R254). -/
def portAgent (q : Nat) : Nat := if q < 16 then 4 * 90 else 4 * 98

/-- A Claush operation of this package as a unit that accesses its context's memory, at the agent of its trunk's first
port. -/
def State.claushPayer (s : State) (c q unit node : Nat) : Payer :=
  { ctx := c, seq := q, unit := unit, agent := portAgent ((s.trunk node).headD 0) }

/-- A frame of a port as a unit that accesses the memory of the context that it addresses (R383). -/
def framePayer (q c : Nat) : Payer := { ctx := c, seq := 2 ^ 33 + q, unit := 0, agent := portAgent q }

/-- Run a Claush operation that an engine takes over (R177): started, of its kind, its context in RUN, and not yet taken. -/
def runClaush (k c q : Nat) (f : Op → State → State) (s : State) : State :=
  match s.op? c q with
  | none => s
  | some o =>
    if o.kind = k && o.started && o.done.isNone && s.ctxState c = 4 && !(s.clOps.any fun x => x.ctx = c && x.seq = q) &&
        !(s.colls.any fun x => x.ctx = c && x.seq = q) then f o s
    else s

/-! ### Windows (R381, R383) -/

/-- Window `w` of a context. -/
def State.win (s : State) (c w : Nat) : ClWin := SMap.get (fun _ => ClWin.none) (s.ctx c).wins w

/-- CL_GRANT: the window is in force, or revoked when it grants no right. -/
def runGrant (c q : Nat) (s : State) : State :=
  runClaush 0x22 c q (fun o s =>
    let w : ClWin := if o.w 3 7 5 = 0 then ClWin.none
      else { base := o.w 0 39 0, pages := o.w 1 27 0, gctx := o.w 2 19 12, gnode := o.w 2 11 0, so := o.w 3 15 8,
             rights := o.w 3 7 5 }
    endOp c q stOK 0 0 (s.onCtx c fun x => { x with wins := SMap.put (fun _ => ClWin.none) x.wins (o.w 3 3 0) w })) s

/-- Does a remote request pass the check of R383? `right` is the bit of RIGHTS. -/
def State.winPasses (s : State) (c w node sctx off n right : Nat) : Bool :=
  let x := s.win c w
  decide (s.ctxState c = 4) && decide (x.rights ≠ 0) && decide (x.gnode = node) && decide (x.gctx = sctx) &&
    x.rights.testBit right && decide (off + n ≤ x.pages * 4096)

/-- Window and offset that ARG of a request names. -/
def argWin (arg : Nat) : Nat × Nat := (bits arg 63 60, bits arg 39 0)

/-- Bit of ARG that asks for the notify signal behind a frame's data (DESIGN CHOICE, log entry 92: R377 names no place for NOTIFY). -/
def argNotify (arg : Nat) : Bool := arg.testBit 59

/-- Does a PUT_DATA pass the check of R383? -/
def State.putPasses (s : State) (node : Nat) (h : FrameIn) : Bool :=
  let a := h.arg.toNat
  s.winPasses h.dctx.val (argWin a).1 node h.sctx.val (argWin a).2 h.data.length 1 &&
    (!argNotify a || (s.win h.dctx.val (argWin a).1).rights.testBit 2)

/-- Does a GET_REQ pass? -/
def State.getPasses (s : State) (node : Nat) (h : FrameIn) : Bool :=
  s.winPasses h.dctx.val (argWin h.arg.toNat).1 node h.sctx.val (argWin h.arg.toNat).2 (fieldAt h.data 0 8) 0

/-- Place of a remote request in the granter's memory. -/
def State.winAddr (s : State) (h : FrameIn) : Nat :=
  (s.win h.dctx.val (argWin h.arg.toNat).1).base + (argWin h.arg.toNat).2

/-- What a PUT_DATA that passes writes. -/
def State.putAreas (s : State) (node : Nat) (h : FrameIn) : List Areas :=
  if s.putPasses node h then [Areas.write h.dctx.val [(s.winAddr h, h.data.length)]] else []

/-- What a GET_REQ that passes reads. -/
def State.getAreas (s : State) (node : Nat) (h : FrameIn) : List Areas :=
  if s.getPasses node h then [Areas.read h.dctx.val [(s.winAddr h, fieldAt h.data 0 8)]] else []

/-- A remote request's access to the granter's memory has failed: the requester ends with CL_REMOTE_MEM. An uncorrectable
granule leaves the granter running; a fenced frame, or a channel or stack that is lost, ends it as any other access does
(R207, R210, R383). -/
def remoteFail (q : Nat) (h : FrameIn) (e : MemErr) (s : State) : State :=
  let s := sendFrame q 0x05 h.dctx.val h.sctx.val h.opid.toNat clRemoteMem [] s
  if e.cause = 1 then s else memFault h.dctx.val e s

/-- PUT_DATA at the target (R383): checked, performed, acknowledged; with NOTIFY the window's object counts. -/
def putData (q node : Nat) (h : FrameIn) (s : State) : State :=
  let c := h.dctx.val
  let a := h.arg.toNat
  let n := h.data.length
  let x := s.win c (argWin a).1
  if !s.putPasses node h then sendFrame q 0x05 c h.sctx.val h.opid.toNat clNoWin [] s
  else
    match s.ctxWrite c (s.winAddr h) h.data with
    | (s, some e) => remoteFail q h e s
    | (s, none) =>
      let s := if argNotify a then
          match (s.objectsOf c)[x.so]? with
          | some o => soAdd o 1 false s
          | none => s
        else s
      sendFrame q 0x04 c h.sctx.val h.opid.toNat n [] s

/-- Answer a read in frames of at most 2,048 bytes. -/
def sendGet (q c : Nat) (h : FrameIn) (off : Nat) (bs : List Byte) : Nat → State → State
  | 0, s => s
  | n + 1, s =>
    if bs.isEmpty then s
    else sendGet q c h (off + 2048) (bs.drop 2048) n (sendFrame q 0x03 c h.sctx.val h.opid.toNat off (bs.take 2048) s)

/-- GET_REQ at the target (R383). -/
def getReq (q node : Nat) (h : FrameIn) (s : State) : State :=
  let c := h.dctx.val
  let n := fieldAt h.data 0 8
  if !s.getPasses node h then sendFrame q 0x05 c h.sctx.val h.opid.toNat clNoWin [] s
  else
    match s.ctxRead c (s.winAddr h) n with
    | .error e => remoteFail q h e s
    | .ok bs => sendGet q c h 0 bs (n / 2048 + 1) s

/-! ### Puts and gets (R382) -/

/-- The OPID under which an operation's frames travel: its SEQ's low 16 bits (DESIGN CHOICE, log entry 92). -/
def opidOf (q : Nat) : Nat := q % 65536

/-- Send the bytes of a put in frames of at most 2,048 bytes; NOTIFY goes with the last. -/
def sendPut (c q node rctx win roff : Nat) (notify : Bool) (done : Nat) (bs : List Byte) : Nat → State → State
  | 0, s => s
  | n + 1, s =>
    if bs.isEmpty then s
    else
      let rest := bs.drop 2048
      let arg := win * 2 ^ 60 + b2n (notify && rest.isEmpty) * 2 ^ 59 + (roff + done) % 2 ^ 40
      sendPut c q node rctx win roff notify (done + 2048) rest n
        (sendTo node 0x01 c rctx (opidOf q) arg (bs.take 2048) s)

/-- CL_PUT. -/
def runPut (c q : Nat) (s : State) : State :=
  runClaush 0x20 c q (fun o s =>
    let node := o.w 3 11 0
    if (s.trunk node).isEmpty then endOp c q clLink 0 0 s
    else
      match loadAs (s.claushPayer c q 10 node) (o.w 0 39 0) (o.w 2 39 0) s with
      | (s, .error e) => opMemError c q e 0 s
      | (s, .ok bs) =>
        let x : ClOp := { ctx := c, seq := q, opid := opidOf q, node := node, put := true, done := 0 }
        sendPut c q node (o.w 3 19 12) (o.w 3 23 20) (o.w 1 39 0) (o.w 3 25 25 = 1) 0 bs (bs.length / 2048 + 1)
          { s with clOps := s.clOps ++ [x] }) s

/-- CL_GET: one request for the whole read. -/
def runGet (c q : Nat) (s : State) : State :=
  runClaush 0x21 c q (fun o s =>
    let node := o.w 3 11 0
    if (s.trunk node).isEmpty then endOp c q clLink 0 0 s
    else
      let x : ClOp := { ctx := c, seq := q, opid := opidOf q, node := node, put := false, done := 0 }
      sendTo node 0x02 c (o.w 3 19 12) (opidOf q) (o.w 3 23 20 * 2 ^ 60 + o.w 1 39 0) (leBytes (o.w 2 39 0) 8)
        { s with clOps := s.clOps ++ [x] }) s

/-- The outstanding operation that a response belongs to. -/
def State.clOp? (s : State) (node : Nat) (h : FrameIn) (put : Bool) : Option ClOp :=
  s.clOps.find? fun x => x.ctx = h.dctx.val && x.node = node && x.opid = h.opid.toNat && x.put = put

/-- An operation is no longer outstanding. -/
def dropCl (x : ClOp) (s : State) : State := { s with clOps := s.clOps.filter fun y => !(y.ctx = x.ctx && y.seq = x.seq) }

/-- `n` more bytes are confirmed or written; with the last one the operation completes. -/
def advanceCl (x : ClOp) (n : Nat) (s : State) : State :=
  match s.op? x.ctx x.seq with
  | none => dropCl x s
  | some o =>
    if o.w 2 39 0 ≤ x.done + n then endOp x.ctx x.seq stOK 0 0 (dropCl x s)
    else
      let y : ClOp := { x with done := x.done + n }
      { s with clOps := s.clOps.map fun z => if z.ctx = x.ctx && z.seq = x.seq then y else z }

/-- PUT_ACK. -/
def putAck (node : Nat) (h : FrameIn) (s : State) : State :=
  match s.clOp? node h true with
  | none => s
  | some x => advanceCl x h.arg.toNat s

/-- What a GET_DATA frame writes. -/
def State.getDataAreas (s : State) (node : Nat) (h : FrameIn) : List Areas :=
  match s.clOp? node h false with
  | none => []
  | some x => match s.op? x.ctx x.seq with
    | none => []
    | some o => [Areas.write x.ctx [(o.w 0 39 0 + h.arg.toNat, min h.data.length (o.w 2 39 0 - h.arg.toNat))]]

/-- GET_DATA: written locally. -/
def getData (node : Nat) (h : FrameIn) (s : State) : State :=
  match s.clOp? node h false with
  | none => s
  | some x =>
    match s.op? x.ctx x.seq with
    | none => dropCl x s
    | some o =>
      let off := h.arg.toNat
      let bs := h.data.take (o.w 2 39 0 - off)
      match s.ctxWrite x.ctx (o.w 0 39 0 + off) bs with
      | (s, some e) => opMemError x.ctx x.seq e 0 (dropCl x s)
      | (s, none) => advanceCl x bs.length s

/-- RSP_ERR: the refused request ends its operation (R383); causes are the statuses of R396 (DESIGN CHOICE, log entry 92). -/
def frameRspErr (node : Nat) (h : FrameIn) (s : State) : State :=
  match (s.clOp? node h true).orElse fun _ => s.clOp? node h false with
  | none => s
  | some x =>
    endOp x.ctx x.seq (if h.arg.toNat % 256 = clRemoteMem then clRemoteMem else clNoWin) 0 0 (dropCl x s)

/-! ### Collectives: what each member sends and receives (R385, R386) -/

/-- Bytes and first byte of segment `r`. -/
def segBytes (o : Op) (n r : Nat) : Nat := (segment o.collCount n r).2 * elemBytes o.collElem
/-- First byte of segment `r`. -/
def segAt (o : Op) (n r : Nat) : Nat := (segment o.collCount n r).1 * elemBytes o.collElem
/-- Is it a collective that reduces? -/
def reduces (o : Op) : Bool := o.kind = 0x23 || o.kind = 0x24
/-- Parameters as COLL_READY carries them (the layout is a DESIGN CHOICE, log entry 14). -/
def collParams (o : Op) : Nat := o.kind + (o.collElem + 4 * o.collOp) * 2 ^ 8 + o.collRoot * 2 ^ 16 + o.collCount * 2 ^ 32
/-- Number of the entry of a member's node. -/
def Coll.rankOf (x : Coll) (node : Nat) : Option Nat := (List.range x.n).find? fun r => (x.members.getD r (0, 0)).1 = node
/-- The other ranks. -/
def Coll.others (x : Coll) : List Nat := (List.range x.n).filter fun r => r != x.rank
/-- Node of a rank. -/
def Coll.nodeOf (x : Coll) (r : Nat) : Nat := (x.members.getD r (0, 0)).1
/-- Context of a rank. -/
def Coll.ctxOf (x : Coll) (r : Nat) : Nat := (x.members.getD r (0, 0)).2
/-- Bytes that have arrived from a rank in the first phase, and in the second. -/
def Coll.have1 (x : Coll) (r : Nat) : Nat := SMap.get (fun _ => 0) x.got r
/-- Second phase. -/
def Coll.have2 (x : Coll) (r : Nat) : Nat := SMap.get (fun _ => 0) x.gotFin r

/-- Replace a collective in progress. -/
def setColl (x : Coll) (s : State) : State :=
  { s with colls := s.colls.map fun y => if y.ctx = x.ctx && y.seq = x.seq then x else y }

/-- A collective ends with a status; DETAIL names a rank, or 0xFF (R396). -/
def collEnd (x : Coll) (st detail : Nat) (s : State) : State :=
  endOp x.ctx x.seq st detail 0 { s with colls := s.colls.filter fun y => !(y.ctx = x.ctx && y.seq = x.seq) }

/-- Send bytes to a member as numbered frames, over every up port of its trunk in turn. -/
def sendColl (x : Coll) (r : Nat) (i : Nat) (bs : List Byte) : Nat → State → State
  | 0, s => s
  | n + 1, s =>
    if bs.isEmpty then s
    else
      let ports := s.trunk (x.nodeOf r)
      match ports[i % max ports.length 1]? with
      | none => s
      | some q =>
        sendColl x r (i + 1) (bs.drop 2048) n
          (sendFrame q 0x09 x.ctx (x.ctxOf r) (opidOf x.seq) (x.cseq * 2 ^ 32 + i) (bs.take 2048) s)

/-- The bytes that a member sends to rank `r` in the first phase: address and length. -/
def firstPart (o : Op) (x : Coll) (r : Nat) : Nat × Nat :=
  if reduces o then (o.w 0 39 0 + segAt o x.n r, segBytes o x.n r)
  else if o.kind = 0x26 && x.rank ≠ o.collRoot then (0, 0)
  else (o.w 0 39 0, o.collCount * elemBytes o.collElem)

/-- Where the member's own reduced segment lies in its DST. -/
def ownAt (o : Op) (x : Coll) : Nat := o.w 1 39 0 + (if o.kind = 0x23 then segAt o x.n x.rank else 0)

/-- Has every contribution to the own segment arrived? -/
def reducedAll (o : Op) (x : Coll) : Bool := x.others.all fun r => segBytes o x.n x.rank ≤ x.have1 r

/-- Has everything arrived that the member receives? -/
def received (o : Op) (x : Coll) : Bool :=
  let all' := o.collCount * elemBytes o.collElem
  if o.kind = 0x23 then reducedAll o x && x.others.all fun r => segBytes o x.n r ≤ x.have2 r
  else if o.kind = 0x24 then reducedAll o x
  else if o.kind = 0x25 then x.others.all fun r => all' ≤ x.have2 r
  else x.rank = o.collRoot || all' ≤ x.have2 o.collRoot

/-- Has everything been sent? -/
def sentAll (o : Op) (x : Coll) : Bool :=
  (o.kind = 0x26 && x.rank ≠ o.collRoot) || (x.others.all fun r => x.sent.contains r) &&
    (o.kind ≠ 0x23 || x.others.all fun r => x.sentFin.contains r)

/-- Is a data frame of the collective not yet acknowledged, or still waiting, on some port? -/
def State.collPending (s : State) (x : Coll) : Bool :=
  s.ports.any fun e => (e.2.unacked ++ e.2.waiting).any fun f =>
    f.type = 9 && f.sctx = x.ctx && f.opid = opidOf x.seq

/-- A collective completes when all that it receives is in DST and all that it sends is acknowledged (R386). -/
def finishColls (s : State) : State :=
  each s.colls (fun x s =>
    match s.op? x.ctx x.seq with
    | none => { s with colls := s.colls.filter fun y => !(y.ctx = x.ctx && y.seq = x.seq) }
    | some o => if received o x && sentAll o x && !s.collPending x then collEnd x stOK 0xFF s else s) s

/-- Change the collective of an operation. -/
def onColl (c q : Nat) (f : Coll → Coll) (s : State) : State :=
  { s with colls := s.colls.map fun y => if y.ctx = c && y.seq = q then f y else y }

/-- Send to each rank of a list the bytes that `part` names, of the context's memory, and note them as sent in their phase.
A failing read ends the operation; one that waits ends the turn, and is made again with the next (R203). -/
def sendRanks (x : Coll) (fin : Bool) (part : Nat → Nat × Nat) : List Nat → State → State
  | [], s => s
  | r :: rs, s =>
    match loadAs (s.claushPayer x.ctx x.seq (64 + 2 * r + b2n fin) (x.nodeOf r)) (part r).1 (part r).2 s with
    | (s, .error e) => opMemError x.ctx x.seq e 0 s
    | (s, .ok bs) =>
      let s := onColl x.ctx x.seq (fun y => if fin then { y with sentFin := y.sentFin ++ [r] } else { y with sent := y.sent ++ [r] }) s
      sendRanks x fin part rs (sendColl x r 0 bs (bs.length / 2048 + 1) s)

/-- Send what may be sent now: the first part to each member that is ready, and the finished segment once it is reduced
(R386). -/
def progressColl (x : Coll) (s : State) : State :=
  match s.op? x.ctx x.seq with
  | none => s
  | some o =>
    let new := x.ready.filter fun r => !x.sent.contains r
    let fin := if o.kind = 0x23 && reducedAll o x then x.ready.filter fun r => !x.sentFin.contains r else []
    let s := sendRanks x false (firstPart o x) new s
    finishColls (sendRanks x true (fun _ => (ownAt o x, segBytes o x.n x.rank)) fin s)

/-- The collective of a context, if it is still in progress. -/
def State.coll? (s : State) (c q : Nat) : Option Coll := s.colls.find? fun x => x.ctx = c && x.seq = q

/-- A COLL_READY of rank `r` meets the collective: equal parameters make the rank ready, others end it (R386). -/
def meetReady (x : Coll) (r params : Nat) (s : State) : State :=
  if params ≠ x.params then collEnd x clMismatch r s
  else if x.ready.contains r then s
  else
    let x' : Coll := { x with ready := x.ready ++ [r] }
    progressColl x' (setColl x' s)

/-- COLL_READY (R386): GID in bits [63:32] of ARG and CSEQ in bits [31:0] (DESIGN CHOICE, log entry 14). One that comes before the
member's own collective waits for it. -/
def collReady (node : Nat) (h : FrameIn) (s : State) : State :=
  let gid := h.arg.toNat / 2 ^ 32
  let cseq := h.arg.toNat % 2 ^ 32
  let params := fieldAt h.data 0 8
  match s.colls.find? fun x => x.ctx = h.dctx.val && x.gid = gid && x.cseq = cseq && (x.rankOf node).isSome with
  | some x => meetReady x ((x.rankOf node).getD 0) params s
  | none =>
    let y : Ready := { node := node, ctx := h.dctx.val, gid := gid, cseq := cseq, params := params }
    { s with readies := (s.readies.filter fun z => !(z.node = node && z.ctx = y.ctx && z.gid = gid && z.cseq = cseq)) ++ [y] }

/-- The readies that waited for a collective. -/
def takeReadies (c q gid cseq : Nat) (s : State) : State :=
  let mine := s.readies.filter fun y => y.ctx = c && y.gid = gid && y.cseq = cseq
  let s := { s with readies := s.readies.filter fun y => !(y.ctx = c && y.gid = gid && y.cseq = cseq) }
  each mine (fun y s =>
    match s.coll? c q with
    | none => s
    | some x =>
      match x.rankOf y.node with
      | none => s
      | some r => meetReady x r y.params s) s

/-- A collective is taken over: COLL_READY goes to every other member, and a gather copies the own part (R386). A member
whose trunk is down ends it (R395). -/
def takeColl (k c q : Nat) (o : Op) (s : State) : State :=
  let b := o.blk
  let x : Coll := { ctx := c, seq := q, gid := fieldAt b 0 4, cseq := o.cseq, n := fieldAt b 4 1, rank := fieldAt b 5 1,
                    members := groupMembers b, params := collParams o, ready := [], sent := [], sentFin := [], got := [],
                    gotFin := [], chunks := [], wide := [] }
  match x.others.find? fun r => (s.trunk (x.nodeOf r)).isEmpty with
  | some r => endOp c q clLink r 0 s
  | none =>
    let n := o.collCount * elemBytes o.collElem
    let src := o.w 0 39 0
    let dst := o.w 1 39 0 + x.rank * n
    let areas := if k = 0x25 then [Areas.read c [(src, n)], Areas.write c [(dst, n)]] else []
    match accessAll (s.claushPayer c q 10 (x.nodeOf (x.others.headD 0))) areas s with
    | (false, s) => s
    | (true, s) =>
      let s := { s with colls := s.colls ++ [x] }
      let s := each x.others (fun r s =>
        sendTo (x.nodeOf r) 0x08 c (x.ctxOf r) (opidOf q) (x.gid * 2 ^ 32 + x.cseq) (leBytes x.params 8) s) s
      let own := if k = 0x25 then
          match s.ctxRead c src n with
          | .error e => (s, some e)
          | .ok bs => s.ctxWrite c dst bs
        else (s, none)
      match own with
      | (s, some e) => opMemError c q e 0 s
      | (s, none) =>
        let s := takeReadies c q x.gid x.cseq s
        match s.coll? c q with
        | none => s
        | some x => progressColl x s

/-- A collective starts, or goes on where it waited for memory (R177, R386). -/
def runColl (k c q : Nat) (s : State) : State :=
  match s.coll? c q, s.op? c q with
  | some x, some o => if o.kind = k && s.ctxState c = 4 then progressColl x s else s
  | _, _ => runClaush k c q (takeColl k c q) s

/-! ### Combination (R386, R107) -/

/-- MIN or MAX of two floats: NaN when either is, −0 below +0. -/
def floatPick (f : Fmt) (max : Bool) (a b : Nat) : Nat :=
  let x := f.decode a
  let y := f.decode b
  if x.isNan || y.isNan then f.nanBits else if (y.below x) = max then a else b

/-- Combine two elements; BF16 sums are formed elsewhere. -/
def combine (elem op a b : Nat) : Nat :=
  let f := if elem = 1 then bf16 else fp32
  if elem = 2 then
    if op = 0 then (a + b) % 2 ^ 32
    else if decide (signed 32 b < signed 32 a) = decide (op = 2) then a else b
  else if op = 0 then (f.result .near false ((f.decode a).add (f.decode b))).bits
  else floatPick f (op = 2) a b

/-- FP32 bits of a BF16 element. -/
def widen (b : Nat) : Nat := b * 65536

/-- FP32 sum with one rounding. -/
def f32Add (a b : Nat) : Nat := (fp32.result .near false ((fp32.decode a).add (fp32.decode b))).bits

/-- BF16 of FP32 bits, rounded once. -/
def narrow (a : Nat) : Nat := (bf16.result .near false (fp32.decode a, false)).bits

/-- Elements of `e` bytes. -/
def elemList (e : Nat) (bs : List Byte) : List Nat := (List.range (bs.length / e)).map fun i => fieldAt bs (e * i) e

/-- A contribution to chunk `i` of the own segment (R386): the first is combined with the member's own elements of SRC, a
later one with what DST holds. BF16 sums stay in FP32 until the last. -/
def reduceChunk (o : Op) (x : Coll) (i : Nat) (bs : List Byte) (s : State) : Except MemErr (Coll × State) :=
  let e := elemBytes o.collElem
  let n := SMap.get (fun _ => 0) x.chunks i
  let src := o.w 0 39 0 + segAt o x.n x.rank + 2048 * i
  let dst := ownAt o x + 2048 * i
  let bf := o.collElem = 1 && o.collOp = 0
  match s.ctxRead x.ctx (if n = 0 || bf then src else dst) bs.length with
  | .error err => .error err
  | .ok base =>
    let x := { x with chunks := SMap.ins i (n + 1) x.chunks }
    if bf then
      let olds := (elemList e base).zipIdx.map fun a =>
        if n = 0 then widen a.1 else SMap.get (fun _ => 0) x.wide (1024 * i + a.2)
      let sums := olds.zipWith (fun a b => f32Add a (widen b)) (elemList e bs)
      let x := { x with wide := sums.zipIdx.foldl (fun m a => SMap.ins (1024 * i + a.2) a.1 m) x.wide }
      if n + 2 < x.n then .ok (x, s)
      else
        match s.ctxWrite x.ctx dst (sums.flatMap fun a => leBytes (narrow a) 2) with
        | (_, some err) => .error err
        | (s, none) => .ok (x, s)
    else
      let vals := (elemList e base).zipWith (combine o.collElem o.collOp) (elemList e bs)
      match s.ctxWrite x.ctx dst (vals.flatMap fun a => leBytes a e) with
      | (_, some err) => .error err
      | (s, none) => .ok (x, s)

/-- Where the second phase's, a gather's or a broadcast's data of rank `r` go, and how many bytes there are. -/
def gatherAt (o : Op) (x : Coll) (r : Nat) : Nat × Nat :=
  if o.kind = 0x23 then (o.w 1 39 0 + segAt o x.n r, segBytes o x.n r)
  else
    let n := o.collCount * elemBytes o.collElem
    if o.kind = 0x25 then (o.w 1 39 0 + r * n, n) else (o.w 1 39 0, n)

/-- The collective, its operation and the sender's rank that a COLL_DATA frame belongs to. -/
def State.collOf (s : State) (node : Nat) (h : FrameIn) : Option (Coll × Op × Nat) :=
  match s.colls.find? fun x => x.ctx = h.dctx.val && x.cseq = h.arg.toNat / 2 ^ 32 && (x.rankOf node).isSome with
  | none => none
  | some x => (s.op? x.ctx x.seq).map fun o => (x, o, (x.rankOf node).getD 0)

/-- Is a frame of rank `r` a contribution to the own segment? -/
def reducesFrom (o : Op) (x : Coll) (r : Nat) : Bool := reduces o && decide (x.have1 r < segBytes o x.n x.rank)

/-- What a COLL_DATA frame accesses: a contribution reads what it is combined with and writes the own segment; other data
are written. -/
def State.collAreas (s : State) (node : Nat) (h : FrameIn) : List Areas :=
  match s.collOf node h with
  | none => []
  | some (x, o, r) =>
    let i := h.arg.toNat % 2 ^ 32
    if reducesFrom o x r then
      let n := min h.data.length (min 2048 (segBytes o x.n x.rank - 2048 * i))
      let src := o.w 0 39 0 + segAt o x.n x.rank + 2048 * i
      [Areas.read x.ctx [(src, n)], Areas.write x.ctx [(ownAt o x + 2048 * i, n)]]
    else
      let g := gatherAt o x r
      [Areas.write x.ctx [(g.1 + 2048 * i, min h.data.length (min 2048 (g.2 - 2048 * i)))]]

/-- COLL_DATA (R386). -/
def collData (node : Nat) (h : FrameIn) (s : State) : State :=
  let i := h.arg.toNat % 2 ^ 32
  match s.collOf node h with
  | none => s
  | some (x, o, r) =>
    if reducesFrom o x r then
      let bs := h.data.take (min 2048 (segBytes o x.n x.rank - 2048 * i))
      match reduceChunk o x i bs s with
      | .error e => opMemError x.ctx x.seq e 0 s
      | .ok (x, s) =>
        let x : Coll := { x with got := SMap.ins r (x.have1 r + bs.length) x.got }
        progressColl x (setColl x s)
    else
      let g := gatherAt o x r
      let bs := h.data.take (min 2048 (g.2 - 2048 * i))
      match s.ctxWrite x.ctx (g.1 + 2048 * i) bs with
      | (s, some e) => opMemError x.ctx x.seq e 0 s
      | (s, none) =>
        let x : Coll := { x with gotFin := SMap.ins r (x.have2 r + bs.length) x.gotFin }
        progressColl x (setColl x s)

/-! ### Timeouts, aborts, lost trunks (R387, R393–R395) -/

/-- Ranks whose data or COLL_READY the collective awaits. -/
def awaited (o : Op) (x : Coll) : List Nat :=
  x.others.filter fun r =>
    !x.ready.contains r || (reduces o && x.have1 r < segBytes o x.n x.rank) ||
      (o.kind = 0x23 && x.have2 r < segBytes o x.n r) ||
      ((o.kind = 0x25 || (o.kind = 0x26 && r = o.collRoot)) && x.have2 r < o.collCount * elemBytes o.collElem)

/-- Does a neighbour report late on an up port (R393)? -/
def State.lateNode (s : State) (node : Nat) : Bool := (s.trunk node).any fun q => s.on (F.CLS_PORT_STATUS_LATE_RX q)

/-- COLLECTIVE_TIMEOUT: the count does not run while an awaited member reports late, and TIMEOUT_MS 0 has none. -/
def collectiveTimeout (c q : Nat) (s : State) : State :=
  match s.coll? c q, s.op? c q with
  | some x, some o =>
    let ws := awaited o x
    if o.timeoutMs = 0 || ws.any fun r => s.lateNode (x.nodeOf r) then s
    else endOp c q clTimeout (ws.head?.getD 0xFF) 0 (abortColl x s)
  | _, _ => s

/-- An abort for a collective arrives from a member (R394). -/
def collAborted (node gid cseq : Nat) (s : State) : State :=
  let s := { s with readies := s.readies.filter fun y => !(y.node = node && y.gid = gid && y.cseq = cseq) }
  each (s.colls.filter fun x => x.gid = gid && x.cseq = cseq) (fun x s =>
    match x.rankOf node with
    | some r => collEnd x clAborted r s
    | none => s) s

/-- The operations accepted that name a neighbour and have not begun to exchange with it, each with its DETAIL. -/
def State.toNode (s : State) (node : Nat) : List (Nat × Nat × Nat) :=
  (List.range 256).flatMap fun c => (s.ctx c).ops.filterMap fun o =>
    if o.kind = 0x20 || o.kind = 0x21 then (if o.w 3 11 0 = node then some (c, o.seq, 0) else none)
    else if o.isColl && !o.blk.isEmpty && node ≠ s.rd F.CLS_NODE_NODE then
      ((List.range (fieldAt o.blk 4 1)).find? fun r => ((groupMembers o.blk).getD r (0, 0)).1 = node).map fun r => (c, o.seq, r)
    else none

/-- The last port to a neighbour has gone down: what involves it ends (R395). -/
def trunkLost (node : Nat) (s : State) : State :=
  let s := each (s.clOps.filter fun x => x.node = node) (fun x s => endOp x.ctx x.seq clLink 0 0 (dropCl x s)) s
  let s := each s.colls (fun x s =>
    match x.rankOf node with
    | some r => if r = x.rank then s else collEnd x clLink r s
    | none => s) s
  let s := each (s.toNode node) (fun x s => endOp x.1 x.2.1 clLink x.2.2 0 s) s
  poolsUnlinked node { s with readies := s.readies.filter fun y => y.node != node }

/-! ### The commands -/

/-- CL_PUT. -/
def execClPut (c : CtxId) (seq : Nat) (s : State) : Host.Outcome State Fault Refusal := s.done (runPut c.val seq s)
/-- CL_GET. -/
def execClGet (c : CtxId) (seq : Nat) (s : State) : Host.Outcome State Fault Refusal := s.done (runGet c.val seq s)
/-- CL_GRANT. -/
def execClGrant (c : CtxId) (seq : Nat) (s : State) : Host.Outcome State Fault Refusal := s.done (runGrant c.val seq s)
/-- ALL_REDUCE. -/
def execAllReduce (c : CtxId) (seq : Nat) (s : State) : Host.Outcome State Fault Refusal := s.done (runColl 0x23 c.val seq s)
/-- REDUCE_SCATTER. -/
def execReduceScatter (c : CtxId) (seq : Nat) (s : State) : Host.Outcome State Fault Refusal :=
  s.done (runColl 0x24 c.val seq s)
/-- ALL_GATHER. -/
def execAllGather (c : CtxId) (seq : Nat) (s : State) : Host.Outcome State Fault Refusal := s.done (runColl 0x25 c.val seq s)
/-- BROADCAST. -/
def execBroadcast (c : CtxId) (seq : Nat) (s : State) : Host.Outcome State Fault Refusal := s.done (runColl 0x26 c.val seq s)
/-- COLLECTIVE_TIMEOUT. -/
def execCollectiveTimeout (c : CtxId) (seq : Nat) (s : State) : Host.Outcome State Fault Refusal :=
  s.done (collectiveTimeout c.val seq s)

end Sys2Proof.Machine
end

