-- ==== Sys2Proof/Machine/Dma.lean ====
section
/-! DEFINITION. The DMA engines (chapter 07, R216–R221, R230–R243): one pump that carries an operation as far as its
translations, slots and memory allow. It runs when the operation's own command comes, and again at each completion. -/

namespace Sys2Proof.Machine

/-! ### The host stream of an operation (R216–R219) -/

/-- Is the host stream a destination, or the target of an ATOMIC? -/
def Op.hostDst (o : Op) : Bool := if o.kind = 0x13 then true else o.dstH
/-- PASID index of the host stream. -/
def Op.hostPi (o : Op) : Nat := if o.kind = 0x13 then o.atPi else if o.dstH then o.dstPi else o.srcPi
/-- First byte of the host stream. -/
def Op.hostBase (o : Op) : Nat := if o.kind = 0x13 then o.src else if o.dstH then o.dst else o.src
/-- Last page of the host stream. -/
def Op.hostLast (o : Op) : Nat :=
  let n := if o.kind = 0x13 then widthBits o.atWidth / 8
    else if o.dstH then rowEnd o o.dstStride else rowEnd o o.srcStride
  (o.hostBase + n - 1) / 4096
/-- Held entries of the host stream. -/
def Op.held (o : Op) : List Held := if o.hostDst then o.heldD else o.heldS
/-- Replace them. -/
def Op.setHeld (o : Op) (h : List Held) : Op := if o.hostDst then { o with heldD := h } else { o with heldS := h }

/-- First and last page that a held entry covers: its range at its natural alignment (R218). -/
def heldRange (o : Op) (e : Held) : Nat × Nat :=
  let p := (o.hostBase / 4096 + e.page) / 2 ^ e.size * 2 ^ e.size
  (p, p + 2 ^ e.size - 1)

/-- The first page from `p` on that an access of the operation's host stream needs: the rows of a COPY_2D leave others out
(R226, R236). -/
def Op.needFrom (o : Op) (p : Nat) : Option Nat :=
  let first := o.hostBase / 4096
  if p < first then some first
  else if o.hostLast < p then none
  else if o.kind ≠ 0x11 then some p
  else
    let stride := if o.hostDst then o.dstStride else o.srcStride
    let row := min (o.dmaRows - 1) ((4096 * p + 4095 - o.hostBase) / stride)
    if 4096 * p < o.hostBase + row * stride + o.len then some p
    else if row + 1 < o.dmaRows then some ((o.hostBase + (row + 1) * stride) / 4096)
    else none

/-- Does an access of the operation's host stream need a page? -/
def Op.needs (o : Op) (p : Nat) : Bool := decide (o.hostBase / 4096 ≤ p) && decide (o.needFrom p = some p)

/-- Has a translation the right that the operation's host stream needs (R219)? -/
def Op.rightOf (o : Op) (rd wr at' : Bool) : Bool := if o.kind = 0x13 then at' else if o.hostDst then wr else rd

/-- How the next access of an engine to a host page stands. -/
inductive Page where
  /-- translated: first page and size of the range, translated address -/
  | ready (ta size : Nat)
  | missing
  | lacks
  deriving DecidableEq, Repr

/-- The translation of a page for an operation: from its held entries, or in prefetch mode from the cache (R216, R221,
R222). -/
def State.pageOf (s : State) (c : Nat) (o : Op) (page : Nat) : Page :=
  if o.prefetch then
    match s.look c o.hostPi page o.hostDst (o.kind = 0x13) with
    | .hit e => .ready e.ta e.size
    | .miss => .missing
    | .lacks => .lacks
  else
    match o.held.find? fun e => decide ((heldRange o e).1 ≤ page) && decide (page ≤ (heldRange o e).2) with
    | some e => if e.valid && s.fresh c e.gen e.pi (heldRange o e).1 (2 ^ e.size) then .ready e.ta e.size else .missing
    | none => .missing

/-- Discard the entries that have gone stale, and those behind the engine's page (R217, R222). -/
def trimHeld (c q page : Nat) (s : State) : State :=
  s.onOp c q fun o => o.setHeld (o.held.filter fun e =>
    decide (page ≤ (heldRange o e).2) && s.fresh c e.gen e.pi (heldRange o e).1 (2 ^ e.size))

/-- Is an ATS request of an operation outstanding? -/
def State.opAsking (s : State) (c q : Nat) : Bool :=
  s.atsReqs.any fun r => !r.dead && decide (r.ctx = c) && (decide (r.use = .op q) || decide (r.use = .touch q))

/-- Show what an operation's engine does (R252). -/
def engState (c q k : Nat) (s : State) : State :=
  match s.op? c q with
  | none => s
  | some o => match o.engine with
    | none => s
    | some e => s.wr (F.DMA_ENG_STATUS_STATE e) k

/-- In prefetch mode the next PF_DEPTH pages that the stream needs are kept in the cache: the first one that it does not hold
is asked for (R221). -/
def prefetchStream (c page : Nat) (o : Op) (s : State) : State :=
  let depth := s.rd F.XLT_CFG_PF_DEPTH
  match (List.range depth).find? fun k =>
      o.needs (page + 1 + k) && (s.cached c o.hostPi (page + 1 + k)).isNone && (s.pftFind c o.hostPi (page + 1 + k)).isNone with
  | some k =>
    atsRequest c o.hostPi (page + 1 + k) (min 8 (min (depth - k) (o.hostLast - page - k))) o.hostDst (.op o.seq) s
  | none => s

/-- Keep the window ahead of the engine's page (R217): once fewer than eight entries lie ahead, the pages behind the last one
are asked for, at most eight at a time, until sixteen entries are held or the stream ends. -/
def fillWindow (c page : Nat) (o : Op) (s : State) : State :=
  let ahead := (o.held.filter fun e => decide (page < (heldRange o e).1)).length
  let room := 16 - o.held.length
  let fills (b : Bool) (s : State) : State := s.onOp c o.seq fun o => { o with filling := b }
  if !o.filling && decide (8 ≤ ahead) then s
  else match o.needFrom (o.held.foldl (fun m e => max m ((heldRange o e).2 + 1)) (page + 1)) with
    | none => fills false s
    | some next =>
      if room = 0 then fills false s
      else if (s.pftFind c o.hostPi next).isSome then s
      else atsRequest c o.hostPi next (min (min 8 room) (o.hostLast + 1 - next)) o.hostDst (.op o.seq) (fills true s)

/-- Keep an operation's host stream translated ahead of the page that its engine has reached (R217, R221). -/
def refillWindow (c q page : Nat) (s : State) : State :=
  match s.op? c q with
  | none => s
  | some o =>
    if s.opAsking c q then s
    else if o.prefetch then prefetchStream c page o s
    else fillWindow c page o s

/-- The engine has reached a page with no usable entry: it is asked for, or the context parks on it (R226, R230). While an
invalidation of the page is under way the engine waits for its completion (R224, R252). -/
def needPage (c q page : Nat) (lacks : Bool) (s : State) : State :=
  match s.op? c q with
  | none => s
  | some o =>
    let f : PftWait := { ctx := c, pi := o.hostPi, page := page, wr := o.hostDst, who := .op c q }
    if lacks || (s.pftFind c o.hostPi page).isSome || s.pftQueue.contains f then pageFault f true (engState c q 4 s)
    else if s.invs.any fun v => decide (v.ctx = c) && (v.pi.isNone || v.pi = some o.hostPi) && decide (v.lo ≤ page) &&
        decide (page ≤ v.hi) then engState c q 5 s
    else
      let s := engState c q 1 s
      if s.opAsking c q then s
      else atsRequest c o.hostPi page (min 8 (o.hostLast + 1 - page)) o.hostDst (.op q) s

/-- In prefetch mode an access uses its entry of the translation cache (R220). -/
def usePage (c : Nat) (o : Op) (page : Nat) (s : State) : State :=
  if !o.prefetch then s
  else match s.cached c o.hostPi page with
    | some e => cachePut c e s
    | none => s

/-- The translated address of a host byte of an operation, or the state in which the engine waits for it. -/
def xlatByte (c q addr : Nat) (s : State) : Option Nat × State :=
  let page := addr / 4096
  let s := trimHeld c q page s
  match s.op? c q with
  | none => (none, s)
  | some o =>
    match s.pageOf c o page with
    | .ready ta size => (some (xlatAddr ta size addr), refillWindow c q page (usePage c o page s))
    | .missing => (none, needPage c q page false s)
    | .lacks => (none, needPage c q page true s)

/-! ### Cursors (R241, R252) -/

/-- Host reads of an operation that are outstanding. -/
def State.readsOf (s : State) (c q : Nat) : List Nat :=
  s.hostReqs.filterMap fun r => if r.ctx = c && !r.abandoned then
    (match r.use with | .copy k off _ => if k = q then some off else none | _ => none) else none

/-- Show cursor, byte count and reads outstanding in the engine's registers (R252). -/
def showEngine (c q n : Nat) (s : State) : State :=
  match s.op? c q with
  | none => s
  | some o => match o.engine with
    | none => s
    | some e =>
      let row := if o.kind = 0x11 then o.cursor / o.len else 0
      let b := if o.kind = 0x11 then o.cursor % o.len else o.cursor
      let s := (s.wr (F.DMA_ENG_CURSOR_ROW e) row).wr (F.DMA_ENG_CURSOR_BYTE e) b
      (s.wrapInc (F.DMA_ENG_BYTES_COUNT e) n).wr (F.DMA_ENG_STATUS_OUT_RD e) (s.readsOf c q).length

/-- Abandon the reads of an operation that has ended. -/
def abandonOp (c q : Nat) (s : State) : State :=
  let hit (r : HostReq) : Bool := decide (r.ctx = c) && (match r.use with | .copy k _ _ => k = q | _ => false)
  { s with hostReqs := s.hostReqs.map fun r => if hit r then { r with abandoned := true } else r }

/-- The work of a copy or fill has ended: VALUE is the bytes written, or for a measured operation the first eight bytes
of the digest (R235, R243). -/
def endCopy (c : Nat) (o : Op) (s : State) : State :=
  engState c o.seq 0
    (endOp c o.seq stOK 0 (if o.meas then leNat ((sha384 o.hashed).take 8) else o.total % 2 ^ 64) s)

/-- Bytes placed into a list at a position, zero bytes filling a gap that later bytes close. -/
def placeAt (l : List Byte) (off : Nat) (bs : List Byte) : List Byte := padTo off l ++ bs ++ l.drop (off + bs.length)

/-! ### Device memory to device memory, and fills (R236) -/

/-- The DMA engine of an operation as a unit that accesses the context's memory: its requests go out at its group's agent
(R203, R254, R266). -/
def Op.payer (o : Op) (c : Nat) : Payer :=
  { ctx := c, seq := o.seq, unit := 10, agent := 4 * groupRouter (o.engine.getD 0 / 4) + 1 }

/-- Plane-flits that a 128-byte line costs at its first chunk: one read flit that is asked for, one written (R266). -/
def lineFlits (addr i len : Nat) : Nat := b2n (addr % 128 = 0 || i % len = 0)

/-- An engine's step on device memory: the `n` bytes that it reads at the source position, and those that it writes at the
destination's. False: it waits for tokens or for a row's copy. -/
def dmaAccess (c : Nat) (o : Op) (i n : Nat) (rd wr : Bool) (s : State) : Bool × State :=
  access (o.payer c)
    ((if rd then lineFlits (o.srcAt i) i o.len else 0) + (if wr then lineFlits (o.dstAt i) i o.len else 0))
    (if rd then [(o.srcAt i, n)] else []) (if wr then [(o.dstAt i, n)] else []) s

/-- The pattern bytes of a FILL at destination address `a`. -/
def patternAt (o : Op) (a n : Nat) : List Byte :=
  (List.range n).map fun i => byte (o.src / 256 ^ ((a + i) % 8) % 256)

/-- Length of the next chunk: within the row, and within a granule of a destination in device memory or a page of one in
host memory. -/
def chunkLen (o : Op) (i unit top : Nat) : Nat :=
  min top (min (unit - o.dstAt i % unit) (o.len - i % o.len))

/-- The bytes that go to the destination from position `i`. -/
def State.sourceBytes (s : State) (c : Nat) (o : Op) (i n : Nat) : Except MemErr (List Byte) :=
  if o.kind = 0x12 then .ok (patternAt o (o.dstAt i) n) else s.ctxRead c (o.srcAt i) n

/-- Note `n` bytes written at the cursor. -/
def advance (c q n : Nat) (bs : List Byte) (s : State) : State :=
  showEngine c q n (s.onOp c q fun o =>
    { o with cursor := o.cursor + n, asked := o.cursor + n, count := o.cursor + n,
             hashed := if o.meas then placeAt o.hashed o.cursor bs else o.hashed })

/-- Copy or fill to device memory, chunk by chunk. -/
def copyDev (c q : Nat) : Nat → State → State
  | 0, s => s
  | fuel + 1, s =>
    match s.op? c q with
    | none => s
    | some o =>
      if o.total ≤ o.cursor then endCopy c o s
      else
        let n := chunkLen o o.cursor 32 32
        match dmaAccess c o o.cursor n (o.kind != 0x12) true s with
        | (false, s) => s
        | (true, s) =>
          match s.sourceBytes c o o.cursor n with
          | .error e => opMemError c q e o.cursor s
          | .ok bs =>
            match s.ctxWrite c (o.dstAt o.cursor) bs with
            | (s, some e) => opMemError c q e o.cursor s
            | (s, none) => copyDev c q fuel (advance c q n bs s)

/-! ### To host memory (R233, R242) -/

/-- The zero-length read behind the last write (R242). -/
def flushRead (c : Nat) (o : Op) (addr : Nat) (s : State) : State :=
  if o.flushing then s
  else
    match hostIssue c (.flush o.seq) o.hostPi (o.dstAt (o.total - 1) / 4096) (o.dstAt (o.total - 1) / 4096)
        (fun id => .hostRead id c o.hostPi addr 0) s with
    | none => s
    | some s => s.onOp c o.seq fun o => { o with flushing := true }

/-- Largest payload of a write (R343). -/
def State.payload (s : State) : Nat := min 512 (s.cfg 0).mps

/-- Copy or fill to host memory, write by write. -/
def copyOut (c q : Nat) : Nat → State → State
  | 0, s => s
  | fuel + 1, s =>
    match s.op? c q with
    | none => s
    | some o =>
      let i := min o.cursor (o.total - 1)
      match xlatByte c q (o.dstAt i) s with
      | (none, s) => s
      | (some a, s) =>
        if o.total ≤ o.cursor then flushRead c o a s
        else
          let n := chunkLen o i 4096 s.payload
          match access (o.payer c) ((if o.kind = 0x12 then 0 else flitsOf (o.srcAt i) n) + 2 * ceilDiv n 128)
              (if o.kind = 0x12 then [] else [(o.srcAt i, n)]) [] s with
          | (false, s) => s
          | (true, s) =>
            match s.sourceBytes c o i n with
            | .error e => opMemError c q e o.cursor s
            | .ok bs => copyOut c q fuel (advance c q n bs (s.out (.hostWrite c o.hostPi a bs)))

/-! ### From host memory (R233) -/

/-- Ask for the bytes that come next, as far as translations, slots and the limit of 32 reads allow. -/
def askReads (c q : Nat) : Nat → State → State
  | 0, s => s
  | fuel + 1, s =>
    match s.op? c q with
    | none => s
    | some o =>
      if o.total ≤ o.asked || 32 ≤ (s.readsOf c q).length then s
      else
        let i := o.asked
        match xlatByte c q (o.srcAt i) s with
        | (none, s) => s
        | (some a, s) =>
          let n := min (min 4096 (s.cfg 0).mrrs) (min (4096 - o.srcAt i % 4096) (o.len - i % o.len))
          let page := o.srcAt i / 4096
          if (takeSlot c false s).isNone then s
          else match access { o.payer c with unit := 11 } (2 * ceilDiv n 128) [] [] s with
          | (false, s) => s
          | (true, s) =>
            match hostIssue c (.copy q i n) o.hostPi page page (fun id => .hostRead id c o.hostPi a n) s with
            | none => s
            | some s => askReads c q fuel (showEngine c q 0 (s.onOp c q fun o => { o with asked := i + n }))

/-- Does memory take the data of a returned read now, its tokens being drawn and no row being held (R203, R209, R266)? Until
it does, the read stays outstanding. -/
def takesRead (c q off n : Nat) (s : State) : Bool × State :=
  match s.op? c q with
  | none => (true, s)
  | some o => access { o.payer c with unit := 32 + off } (flitsOf (o.dstAt off) n) [] [(o.dstAt off, n)] s

/-- Data of a host read arrive: bytes `off` and up of the destination (R241). -/
def landRead (c q off : Nat) (bs : List Byte) : Nat → State → State
  | 0, s => s
  | fuel + 1, s =>
    match s.op? c q with
    | none => s
    | some o =>
      if bs.isEmpty then s
      else
        let n := min bs.length (chunkLen o off 32 32)
        match s.ctxWrite c (o.dstAt off) (bs.take n) with
        | (s, some e) => opMemError c q e o.cursor s
        | (s, none) =>
          let s := s.onOp c q fun o => { o with hashed := if o.meas then placeAt o.hashed off (bs.take n) else o.hashed }
          landRead c q (off + n) (bs.drop n) fuel s

/-- The cursor stands at the first byte not yet written: the lowest outstanding read, else what has been asked (R241). -/
def setCursor (c q n : Nat) (s : State) : State :=
  let low := (s.readsOf c q).min?
  showEngine c q n (s.onOp c q fun o =>
    let k := low.getD o.asked
    { o with cursor := k, count := k })

/-! ### ATOMIC (R237) -/

/-- An ATOMIC on device memory, or its issue to the host. -/
def runAtomic (c : Nat) (o : Op) (s : State) : State :=
  let w := widthBits o.atWidth
  let x := o.word 4 % 2 ^ w
  let k := o.word 5 % 2 ^ w
  if !o.atHost then
    match access (o.payer c) 2 [] [(o.src, w / 8)] s with
    | (false, s) => s
    | (true, s) =>
      let l := s.locate c o.src
      match s.atomAt l.1 l.2 o.atOp w x k with
      | .error e => opMemError c o.seq e 0 s
      | .ok (old, s) => engState c o.seq 0 (endOp c o.seq stOK 0 old s)
  else if o.issued then s
  else
    match xlatByte c o.seq o.src s with
    | (none, s) => s
    | (some a, s) =>
      if (takeSlot c false s).isNone then s
      else match access { o.payer c with unit := 11 } 3 [] [] s with
      | (false, s) => s
      | (true, s) =>
        match hostIssue c (.atomic o.seq) o.hostPi (o.src / 4096) (o.src / 4096)
            (fun id => .hostAtomic id c o.hostPi a o.atOp w x k) s with
        | none => s
        | some s => s.onOp c o.seq fun o => { o with issued := true }

/-! ### XLT_TOUCH (R238) -/

/-- Walk on: pass over what the cache holds, and ask for the next page, or end. -/
def walkTouch (c q : Nat) : Nat → State → State
  | 0, s => s
  | fuel + 1, s =>
    match s.op? c q with
    | none => s
    | some o =>
      let page := o.src / 4096 + o.cursor
      if s.opAsking c q then s
      else if (o.src + o.len - 1) / 4096 < page || 64 ≤ o.asked then engState c q 0 (endOp c q stOK 0 o.count s)
      else match s.cached c o.srcPi page with
        | some e => walkTouch c q fuel (s.onOp c q fun o => { o with cursor := e.page + e.pages - o.src / 4096 })
        | none =>
          atsRequest c o.srcPi page 1 true (.touch q) (engState c q 1 (s.onOp c q fun o => { o with asked := o.asked + 1 }))

/-! ### The pump -/

/-- Carry a DMA operation that its engine serves as far as it goes. -/
def pump (c q : Nat) (s : State) : State :=
  match s.op? c q with
  | none => s
  | some o =>
    if !o.started || o.engine.isNone || o.done.isSome || !s.runsNow c o then s
    else
      let s := if o.kind = 0x14 then s else engState c q 2 s
      if o.kind = 0x13 then runAtomic c o s
      else if o.kind = 0x14 then walkTouch c q 130 s
      else if o.srcH then
        let s := askReads c q 33 s
        match s.op? c q with
        | none => s
        | some o => if o.total ≤ o.cursor then endCopy c o s else s
      else if o.dstH then copyOut c q (o.total + 1) s
      else copyDev c q (o.total + 1) s

/-- Carry on every operation that an engine serves: a slot or a translation has come free. -/
def pumpAll (s : State) : State :=
  each (List.range 32) (fun e s => match (s.engine e).op with | some (c, q) => pump c q s | none => s) s

/-- Run an operation's own command: it starts or goes on. -/
def runDma (k c q : Nat) (s : State) : State := runKind k c q (fun _ s => pump c q s) s

/-! ### Completions of host requests (R240–R242, R348) -/

/-- The work of an operation ends with a host status; its other reads are abandoned (R240). -/
def hostFail (c q st detail : Nat) (s : State) : State :=
  match s.op? c q with
  | none => s
  | some o =>
    engState c q 0 (endOp c q st detail (if o.kind = 0x13 then 0 else o.cursor) (abandonOp c q s))

/-- A read of a copy has returned with data. -/
def readReturned (c q off : Nat) (data : List Byte) (s : State) : State :=
  setCursor c q data.length (landRead c q off data (data.length + 1) s)

/-- COPY. -/
def execCopy (c : CtxId) (seq : Nat) (s : State) : Host.Outcome State Fault Refusal := s.done (runDma 0x10 c.val seq s)
/-- COPY_2D. -/
def execCopy2d (c : CtxId) (seq : Nat) (s : State) : Host.Outcome State Fault Refusal := s.done (runDma 0x11 c.val seq s)
/-- FILL. -/
def execFill (c : CtxId) (seq : Nat) (s : State) : Host.Outcome State Fault Refusal := s.done (runDma 0x12 c.val seq s)
/-- ATOMIC. -/
def execAtomic (c : CtxId) (seq : Nat) (s : State) : Host.Outcome State Fault Refusal := s.done (runDma 0x13 c.val seq s)
/-- XLT_TOUCH. -/
def execXltTouch (c : CtxId) (seq : Nat) (s : State) : Host.Outcome State Fault Refusal := s.done (runDma 0x14 c.val seq s)

end Sys2Proof.Machine
end

