-- ==== Sys2Proof/Machine/Contexts.lean ====
section
/-! DEFINITION. The states of a context (R279–R286): its start and the end of its clears, the lock and its checks, the step
to RUN, stops, and the site windows that open with it (R325). -/

namespace Sys2Proof.Machine

/-! ### Site windows (R325) -/

/-- Is a site admitted: attesting, open or attested? -/
def State.siteAdmitted (s : State) (x : Nat) : Bool :=
  let k := s.rd (F.CHK_STATUS_STATE x)
  k = 2 || k = 3 || k = 4

/-- Does a window lie within its owner's range? -/
def State.winInRange (s : State) (x w : Nat) : Bool :=
  s.inRange (s.rd (F.CHK_WIN_A_OWNER x w)) (s.rd (F.CHK_WIN_B_CTX_BASE x w) * 4096) (s.rd (F.CHK_WIN_B_LEN_PAGES x w) * 4096)

/-- Does the attestation condition hold for a window's owner? -/
def State.winAttested (s : State) (x w : Nat) : Bool :=
  s.on (F.CTX_CFG_NONCONF (s.rd (F.CHK_WIN_A_OWNER x w))) || decide (s.rd (F.CHK_STATUS_STATE x) = 4)

/-- May a window be active now? -/
def State.winMay (s : State) (x w : Nat) : Bool :=
  s.on (F.CHK_WIN_A_VALID x w) && s.siteAdmitted x && decide (s.ctxState (s.rd (F.CHK_WIN_A_OWNER x w)) = 4) &&
    s.winInRange x w && s.winAttested x w

/-- Make a window active, or inactive, by R325. -/
def setWindow (x w : Nat) (s : State) : State :=
  if s.winMay x w then (s.wr (F.CHK_WIN_A_ACTIVE x w) 1).wrBit (F.CHK_STATUS_WIN_ACTIVE x) w true
  else closeWindow x w s

/-- Every window of a site follows R325. -/
def setWindows (x : Nat) (s : State) : State := each (List.range 16) (fun w s => setWindow x w s) s

/-- The windows of a context that enters RUN: each opens, or is recorded (R325). -/
def openWindows (c : Nat) (s : State) : State :=
  each (List.range 4) (fun x s => each (List.range 16) (fun w s =>
    if s.on (F.CHK_WIN_A_VALID x w) && s.rd (F.CHK_WIN_A_OWNER x w) = c then
      let s := setWindow x w s
      if s.winInRange x w && s.winAttested x w then s
      else bbEvent 0x8034 (srcSite x) [byte x, byte w, byte c] s
    else s) s) s

/-! ### The start (R283, R286) -/

/-- Stripes of the save area of a context (R173, R190). -/
def State.saveStripes (s : State) (c : Nat) : Nat :=
  if s.on (F.CTX_CFG_HOLDER c) then 0
  else ceilDiv ((16544 * popCount (s.rd (F.CTX_PART_GROUPS (s.partOf c))) 8 + 192) * 1024) 262144

/-- Frame maps of the owned channels, spread, range and geometry of a context (steps 2 and 3 of R286; R189, R190, R192,
R206). -/
def loadGeometry (c : Nat) (s : State) : State :=
  let chs := s.ownedChannels c
  let s := each chs (fun ch s =>
    let s := s.onChan ch fun x => { x with mapped := x.retFrames }
    s.wr (F.MEM_CH_CAP_FRAMES (ch / 32) (ch % 32)) (s.capFrames ch)) s
  let n := chs.length
  let pitch := if n = 0 then 1 else pitchOf n
  let raw := ((chs.map fun ch => 256 * s.capFrames ch).min?).getD 0 / pitch
  let save := s.saveStripes c
  let s := s.onCtx c fun x => { x with chans := chs, pitch := pitch, stripes := raw - save, saveStripes := save }
  let s := (s.wr (F.CTXW_MEMGEO_STRIPES c) (raw - save)).wr (F.CTXW_MEMGEO_PITCH c) pitch
  (s.wr (F.CTXW_MEMGEO_NCH c) n).wr (F.CTXW_MEMGEO_SAVE_STRIPES c) save

/-- The slots that the image's defaults name for a context (step 4 of R286; R72, R112, R519). -/
def loadDefaults (c : Nat) (s : State) : State :=
  match s.image with
  | none => s
  | some x =>
    match secOf x.sections 0x20 with
    | none => s
    | some d =>
      let nt := fieldAt d.body 0 2
      let o := 16 + 576 * nt
      let p := o + 3120 * fieldAt d.body 2 2
      let mine := (chunks 4 (d.body.drop p) (fieldAt d.body 4 2)).filter fun r => decide (fieldAt r 0 1 = c)
      each mine (fun r s =>
        let i := fieldAt r 3 1
        let put (m : SMap Slot) (img : List Byte) : SMap Slot :=
          SMap.put (fun _ => Slot.empty) m (fieldAt r 2 1) { valid := true, image := img }
        if fieldAt r 1 1 = 0 then s.onCtx c fun y => { y with tbl := put y.tbl (slice d.body (16 + 576 * i) 576) }
        else s.onCtx c fun y => { y with crv := put y.crv (slice d.body (o + 3120 * i) 3120) }) s

/-- The end of a start: steps 2 to 5 of R286; the context is READY. -/
def finishStart (c : Nat) (s : State) : State :=
  let s := loadDefaults c (loadGeometry c (xltClear c s))
  (zeroObjects c s).wr (F.CTX_STATE_STATE c) 2

/-- XLT_CTX is reloaded from the image when a context starts (R244): its cap is the one field that the image holds. -/
def reloadCap (c : Nat) (s : State) : State :=
  match s.image.bind fun x => ctxRec x.sections c with
  | some r => s.wr (F.XLT_CTX_PFT_CAP c) (fieldAt r 9 1)
  | none => s

/-- The context enters CLEARING: counts, digests and HEAD start at zero, and its channels that are not CLEAN are cleared
(step 1 of R286; R146, R244, R434). -/
def beginStart (c : Nat) (s : State) : State :=
  let s := reloadCap c s
  let zero48 : List Byte := List.replicate 48 0
  let s := s.onCtx c fun x =>
    { x with ops := [], tail := 0, cmplHead := 0, cmplTail := 0, fetch := none, errSeqs := [], spans := [],
             tbl := [], krn := [], crv := [], waits := [], prog := zero48, data := zero48, progCount := 0,
             dataCount := 0, heldLoads := [], chains := [], saved := [], wordDue := false, stopPending := false }
  let s := ((s.wr (F.CTX_STATE_STATE c) 1).wr (F.CTXW_RING_STATUS_HEAD c) 0).wr (F.CTX_STATE_TDI c) 0
  let s := each ((s.ownedChannels c).filter fun ch => !(s.chan ch).clean) beginClear s
  if s.clearingOf c then s else finishStart c s

/-- What a channel clear that ends lets go on: a start, or a scrub (R280, R285, R286). No context starts on a channel that
a clear has passed over (R187). -/
def channelEnds (ch : Nat) (s : State) : State :=
  if !(s.chan ch).clearing then s
  else
    let s := channelCleared ch s
    match s.ownerOf ch with
    | none => s
    | some c =>
      if s.clearingOf c then s
      else if s.ctxState c = 1 then (if (s.ownedChannels c).any s.chDead then s else finishStart c s)
      else if s.on (F.CTX_STATE_SCRUB c) then finishEnd c s
      else s

/-! ### The lock (R145, R215, R281, R338, R437) -/

/-- Does an area lie where the lock allows it: anywhere in host memory, within the range in device memory? -/
def State.areaOk (s : State) (c : Nat) (host : Bool) (a n : Nat) : Bool := host || s.inRange c a n

/-- The checks of the step from READY to LOCKED. -/
def State.lockOk (s : State) (c : Nat) : Bool :=
  let rl := s.rd (F.CTXW_RING_CFG_RING_LOG c)
  let cl := s.rd (F.CTXW_RING_CFG_CMPL_LOG c)
  let rh := s.on (F.CTXW_RING_BASE_SPACE c)
  let ch := s.on (F.CTXW_CMPL_BASE_SPACE c)
  let wh := s.on (F.CTXW_RING_WORDS_SPACE c)
  decide (s.ctxState c = 2) && s.hw.wiping.isNone && s.fnEnabled (c + 1) && decide (rl ≤ 10) && decide (cl ≤ 10) &&
    s.areaOk c rh (s.rd (F.CTXW_RING_BASE_BASE c) * 4096) (64 * 2 ^ (rl + 6)) &&
    s.areaOk c ch (s.rd (F.CTXW_CMPL_BASE_BASE c) * 4096) (32 * 2 ^ (cl + 6)) &&
    s.areaOk c wh (s.wordsAddr c) 16 && (!(rh || ch || wh) || s.on (F.CTXW_PASID_VALID c 0)) &&
    ((List.range 4).all fun i =>
      !s.on (F.CTXW_PASID_VALID c i) || s.on (F.CTXW_PASID_NOPASID c i) || (s.cfg 0).pasidEn) &&
    (!s.on F.HWD_STATUS_DEBUG_ON || s.on (F.CTX_CFG_NONCONF c))

/-- READY to LOCKED. -/
def lockCtx (c : Nat) (s : State) : State :=
  ((s.wr (F.CTX_STATE_STATE c) 3).wr (F.CTX_STATE_TDI c) 1).onCtx c fun x => { x with lockTime := s.now }

/-- LOCKED to RUN: the counts restart and the hub's word is written as zero, the windows open, and an own slice that idles
loads the context (R146, R171, R280, R325). On a partition that stays down the context faults as it tries to run (R55). -/
def runCtx (c : Nat) (s : State) : State :=
  let s := ((s.wr (F.CTX_STATE_STATE c) 4).wr (F.CTX_STATE_TDI c) 2).wr (F.CTXW_RING_STATUS_HEAD c) 0
  let s := s.onCtx c fun x => { x with tail := 0, cmplHead := 0, cmplTail := 0, fetch := none }
  let s := openWindows c (hubWrite c s)
  if (s.rd F.TLS_STATUS_PART_DOWN).testBit (s.partOf c) then ctxFault 0x0016 c s else loadInSlice c s

/-- A STOP_INTERFACE_REQUEST or a function-level reset (R280): LOCKED and RUN end; FAULTED returns to READY once its scrub
has ended. -/
def stopCtx (c : Nat) (s : State) : State :=
  let k := s.ctxState c
  if k = 3 || k = 4 then endContext c 0 false s
  else if k = 5 then
    (s.wr (F.CTX_STATE_STATE c) (if s.on (F.CTX_STATE_SCRUB c) then 6 else 2)).wr (F.CTX_STATE_TDI c) 0
  else s

/-- The operator's CTX_STOP (R280). -/
def ctxStopped (c : Nat) (s : State) : State :=
  let k := s.ctxState c
  if k = 6 then s.onCtx c fun x => { x with stopPending := true }
  else if 1 ≤ k && k ≤ 5 then endContext c 0 true s
  else s

end Sys2Proof.Machine
end

