-- ==== Sys2Proof/Machine/RegAccess.lean ====
section
/-! DEFINITION. Access to registers (R8–R12, R340–R342, R348, R363, R367, R413, R447, R491): what a register reads as, who may
write which field, what a request to a BAR is answered with, and the MSI-X tables. -/

namespace Sys2Proof.Machine

/-! ### What a register reads as -/

/-- Function of a key: windows of VF c + 1 lie 256 MiB apart (R340). -/
def keyFn (key : Nat) : Nat := key / 0x10000000
/-- Key of an offset in a function's BAR. -/
def keyOf (fn off : Nat) : Nat := fn * 0x10000000 + off

/-- CTXW_SPREAD (R192): loaded and reset with CTXW_MEMGEO, it reads zero while that does. -/
def State.spreadWord (s : State) (c i : Nat) : Word :=
  let x := (s.ctx c).chans
  if x.isEmpty || s.rd (F.CTXW_MEMGEO_NCH c) = 0 then 0
  else
    let e := spreadEntry x (2 * i)
    let o := spreadEntry x (2 * i + 1)
    putFld (putFld (putFld (putFld 0 49 40 o.2) 39 32 o.1) 17 8 e.2) 7 0 e.1

/-- CTXW_SO (R168): the counter of the context's object `i`, or its bits. -/
def State.objectWord (s : State) (c i : Nat) (second : Bool) : Word :=
  match (s.objectsOf c)[i]? with
  | none => 0
  | some n =>
    if second then
      putFld (putFld (putFld (putFld 0 60 48 n) 2 2 (s.rd (F.SYN_CTL_SAT n))) 1 1 (s.rd (F.SYN_CTL_ERR n))) 0 0 1
    else s.reg (R.SYN_CNT n)

/-- A word of the trace window (R470). -/
def State.traceWord (s : State) (o : Nat) : Word :=
  if !s.tracing then 0
  else
    let e := o / 16
    let back := (s.tls.traced + 32767 - e) % 32768
    match s.tls.trace[back]? with
    | some w => if e < s.tls.traced then w64 (if o % 16 = 0 then w.1 else w.2) else 0
    | none => 0

/-- A word of the command and response slots (R413). -/
def State.mbxWord (s : State) (key : Nat) : Word :=
  w64 (leNat ((List.range 8).map fun i => SMap.get (fun _ => 0) s.mbx (key + i)))

/-- Does a key lie in a command slot; in a response slot (R413)? -/
def inCmdSlot (key : Nat) : Bool := decide (0x20000 ≤ key) && decide (key < 0x60000)
/-- Response slots. -/
def inRspSlot (key : Nat) : Bool := decide (0x80000 ≤ key) && decide (key < 0x100000)

/-- The MSI-X table word of a BAR offset: function, vector, and whether it is the second word (R340, R364). -/
def msixAt (key : Nat) : Option (Nat × Nat × Bool) :=
  let fn := keyFn key
  let o := key % 0x10000000
  let base := if fn = 0 then 0x0FFF0000 else 0x8000
  if base ≤ o ∧ o < base + 0x80 then some (fn, (o - base) / 16, decide ((o - base) % 16 = 8)) else none

/-- The PBA word of a BAR offset. -/
def pbaAt (key : Nat) : Option Nat :=
  let fn := keyFn key
  if key % 0x10000000 = (if fn = 0 then 0x0FFF8000 else 0x9000) then some fn else none

/-- A word of an MSI-X table: the address, then data and the mask bit. -/
def State.msixWord (s : State) (fn v : Nat) (second : Bool) : Word :=
  let e := (s.cfg fn).vector v
  if second then w64 (e.data % 2 ^ 32 + b2n e.mask * 2 ^ 32) else w64 e.addr

/-- The trace window's place (R470). -/
def inTrace (key : Nat) : Bool := decide (0x01780000 ≤ key) && decide (key < 0x01800000)

/-- Is there something at an aligned BAR offset (R340, R510)? -/
def implemented (key : Nat) : Bool :=
  regExists key || inCmdSlot key || inRspSlot key || (msixAt key).isSome || (pbaAt key).isSome || inTrace key

/-- The rate in force of a context's byte bucket on a stack (R203, R214, R498). -/
def State.effRate (s : State) (k c : Nat) : Nat :=
  let n := ((s.ownedChannels c).filter fun ch => decide (ch / 32 = k)).length
  let cap := 896 * n
  let r := s.rd (F.MEM_REG_CTX_RATE k c)
  let base := if r = 0 then cap else min r cap
  base * (8 - max (s.rd (F.MEM_STATUS_STRETCH k)) (s.rd F.PWR_MEAS_MSTEP)) / 8

/-- What the register at a key reads as. -/
def State.regView (s : State) (key : Nat) : Word :=
  if inTrace key then s.traceWord (key - 0x01780000)
  else if inCmdSlot key || inRspSlot key then s.mbxWord key
  else match msixAt key with
    | some (fn, v, second) => s.msixWord fn v second
    | none => match pbaAt key with
      | some fn => w64 (s.cfg fn).pending
      | none =>
        let o := key % 0x10000000
        if 0x10000000 ≤ key then
          let c := keyFn key - 1
          if o = 0 then s.reg (R.CTX_STATE c) &&& ~~~(fldMask 47 32)
          else if 0x2000 ≤ o ∧ o < 0x3000 then s.spreadWord c ((o - 0x2000) / 8)
          else if 0x4000 ≤ o ∧ o < 0x5000 then s.objectWord c ((o - 0x4000) / 16) (decide (o % 16 = 8))
          else s.reg key
        else if key = R.SPN_TIME then w64 s.now
        else if 0xA04000 ≤ key ∧ key < 0xA05000 ∧ key % 16 = 8 then
          let i := (key - 0xA04000) / 16
          if s.rd (F.XLT_PFT0_STATE i) = 2 || s.rd (F.XLT_PFT0_STATE i) = 3 then
            putFld (s.reg key) 41 10 (min ((s.now - SMap.get (fun _ => 0) s.pftAt i) / 1000) (2 ^ 32 - 1))
          else s.reg key
        else if 0x801000 ≤ key ∧ key < 0x880000 ∧ 0x1000 ≤ key % 0x10000 ∧ key % 0x10000 < 0x1800 then
          let k := (key - 0x800000) / 0x10000
          putFld (s.reg key) 15 0 (s.effRate k ((key % 0x10000 - 0x1000) / 8))
        else s.reg key

/-- PF0 reads COUNT as zero for an object of a pool, or of a context that is not marked non-confidential (R183). -/
def State.hostView (s : State) (key : Nat) : Word :=
  if 0x200000 ≤ key ∧ key < 0x220000 ∧ key % 16 = 0 then
    let n := (key - 0x200000) / 16
    if s.on (F.SYN_CTL_POOL n) || (s.on (F.SYN_CTL_VALID n) && !s.on (F.CTX_CFG_NONCONF (s.rd (F.SYN_CTL_OWNER n)))) then 0
    else s.reg key
  else s.regView key

/-! ### Who writes (R11, R12) -/

/-- Is the agent a core of the maker's firmware? -/
def isFirmware (a : Agent) : Bool :=
  (a.router.val = 99 && a.index.val = 1) || (a.router.val = 92 && a.index.val = 1) ||
    (a.index.val = 1 && decide (64 ≤ a.router.val) && decide (a.router.val < 76) && (a.router.val - 64) % 3 ≠ 1)

/-- Is the agent the host endpoint? -/
def isHostAgent (a : Agent) : Bool := a.router.val = 91 && a.index.val = 1

/-- Is an agent one that a Writer column names, for a register at a key? -/
def writes (a : Agent) (key : Nat) : Writer → Bool
  | .firmware => isFirmware a
  | .installer => a.router.val = 99 && a.index.val = 1
  | .operator => a.router.val = 99 && a.index.val = 1
  | .host => isHostAgent a && a.rid.toNat = 0
  | .context => isHostAgent a && decide (a.rid.toNat = keyFn key) && decide (0x10000000 ≤ key)
  | .hub => false
  | .none => false

/-- Is the lock of a register's RWL fields set: the owning context's, or the configuration's (R10, R281, R530)? -/
def State.rwlLocked (s : State) (key : Nat) : Bool :=
  if 0x10000000 ≤ key then s.ctxState (keyFn key - 1) ≠ 2 else s.on F.GLB_CFG_STATUS_LOCKED

/-- The bits of a write: the whole register, or one half (R9). -/
def writeMask (off size : Nat) : Word := if size = 8 then fldMask 63 0 else fldMask (8 * (off % 8) + 31) (8 * (off % 8))

/-- The value that a write gives the register's bits before access codes: the written half, and the current other half
(R9). -/
def merged (old v : Word) (off size : Nat) : Word :=
  let m := writeMask off size
  (old &&& ~~~m) ||| ((v <<< (if size = 8 then 0 else 8 * (off % 8))) &&& m)

/-- Value of a field of a word. -/
def fldOf (w : Word) (f : FSpec) : Nat := bits w.toNat f.hi f.lo

/-- Does an access write a field (R11)? -/
def writesField (f : FSpec) (old new m : Word) : Bool :=
  (m &&& fldMask f.hi f.lo) ≠ 0 &&
    match f.acc with
    | .ro => false
    | .rw | .rwl => fldOf old f ≠ fldOf new f
    | .w1c | .w1s | .wo => fldOf new f ≠ 0

/-- A field after a write that its access code lets through. -/
def fieldAfter (f : FSpec) (new w : Word) : Word :=
  match f.acc with
  | .rw | .rwl => putFld w f.hi f.lo (fldOf new f)
  | .w1c => w &&& ~~~(new &&& fldMask f.hi f.lo)
  | .w1s => w ||| (new &&& fldMask f.hi f.lo)
  | .ro | .wo => w

/-- Is a field written by an agent that its Writer entry does not name? -/
def foreignField (a : Agent) (key : Nat) (old new m : Word) (f : FSpec) : Bool :=
  writesField f old new m && !writes a key f.writer

/-- The register after a write: every field by its access code, its writer and the lock. -/
def writtenWord (a : Agent) (key : Nat) (locked : Bool) (old new m : Word) (fs : List FSpec) : Word :=
  fs.foldl (fun w f =>
    if writesField f old new m && writes a key f.writer && !(locked && f.acc = .rwl) then fieldAfter f new w else w) old

/-- FOREIGN_WRITE (R11, R475). -/
def foreignWrite (a : Agent) (key : Nat) (s : State) : State :=
  bbEvent 0x8003 (if isHostAgent a then srcHost a.rid.toNat else srcRouter a.router.val)
    (leBytes key 8 ++ [byte a.router.val, byte a.index.val] ++ leBytes (if isHostAgent a then a.rid.toNat else 0) 2) s

/-- Write a register by its fields, and log what is foreign. -/
def writeReg (a : Agent) (key size off : Nat) (v : Word) (s : State) : State :=
  let fs := layoutOf key
  let old := s.regView key
  let new := merged old v off size
  let m := writeMask off size
  let s' := s.setReg key (writtenWord a key (s.rwlLocked key) (s.reg key) ((s.reg key &&& ~~~m) ||| (new &&& m)) m fs)
  if fs.any (foreignField a key old new m) then foreignWrite a key s' else s'

/-! ### Answers (R342, R348, R350) -/

/-- The context that an error of a function concerns. -/
def fnCtx (fn : Nat) : Option Nat := if fn = 0 then none else some (fn - 1)

/-- A request is answered with Unsupported Request and counted; a posted one has no answer (R348). -/
def answerUr (fn : Nat) (posted : Bool) (s : State) : State :=
  let s := noteError 1 fn (fnCtx fn) (s.satInc F.GLB_HEP_ERR_UR_SENT 1)
  if posted then s else s.out (.completion fn .ur 0)

/-! ### Is a request served (R8, R341, R342, R367, R447, R532)? -/

/-- Alignment and size (R8). -/
def sized (off size : Nat) : Bool := (size = 4 || size = 8) && off % size = 0

/-- Blocks that PF0 serves before ready and in refusal, and in End of life and Locked (R367, R447, R452, R532). -/
def State.blockOpen (s : State) (off : Nat) : Bool :=
  let glb := decide (off < 0x10000)
  if s.lc = 3 || s.lc = 4 then
    glb || (decide (0x10000 ≤ off) && decide (off < 0x100000)) || (decide (0x1708000 ≤ off) && decide (off < 0x1709000)) ||
      (decide (0x1800000 ≤ off) && decide (off < 0x1802000))
  else glb || decide (s.rd F.GLB_CFG_STATUS_STATE = 1)

/-- Is a request to a context's window served, by region and state (R341)? -/
def State.windowOpen (s : State) (c off : Nat) (read tbit : Bool) : Bool :=
  let k := s.ctxState c
  let conf := !s.on (F.CTX_CFG_NONCONF c)
  if read && off / 8 = 0 then true
  else if conf && (k = 3 || k = 4) && !tbit then false
  else if off < 0x3000 || (0x8000 ≤ off && off < 0xA000) then k = 2 || k = 3 || k = 4
  else k = 4

/-- Is a host request served? -/
def State.served (s : State) (fn off size : Nat) (read tbit : Bool) : Bool :=
  let key := keyOf fn (off / 8 * 8)
  sized off size && decide (off < (if fn = 0 then 0x10000000 else 0x10000)) && implemented key && s.fnEnabled fn &&
    (if fn = 0 then s.blockOpen off else s.windowOpen (fn - 1) off read tbit)

/-- Blocks that the endpoint serves below L0 Run without a wake (R491). -/
def quietBlock (fn off : Nat) : Bool :=
  decide (fn = 0) &&
    (decide (off < 0x100000) || (decide (0x1600000 ≤ off) && decide (off < 0x1630000)) ||
      (decide (0x1708000 ≤ off) && decide (off < 0x1709000)) || (decide (0x1800000 ≤ off) && decide (off < 0x1802000)))

/-- No host request reaches the device: its endpoint is off (R469, R482, R491). -/
def State.endpointOff (s : State) : Bool := s.stopped || decide (s.rd (F.PWR_DOMAIN_COND 3) = 3)

/-- A request that the endpoint does not serve below L0 Run is a wake event (R491). -/
def wakeFor (fn off : Nat) (s : State) : State :=
  if s.rd F.PWR_STATUS_STATE = 0 && s.power.move.isNone then s
  else if quietBlock fn off then s
  else wakeEvent 2 s

/-- The data of a read: the register, or one half of it. -/
def readData (w : Word) (off size : Nat) : Nat := if size = 8 then w.toNat else bits w.toNat (8 * (off % 8) + 31) (8 * (off % 8))

/-- A host read of a register (R342, R350). -/
def hostRead (fn off size : Nat) (tbit : Bool) (ecc : Ecc) (s : State) : State :=
  if s.endpointOff then s
  else
    let s := wakeFor fn off s
    if !s.served fn off size true tbit then answerUr fn false s
    else if ecc = .uncorrectable then (noteError 8 fn (fnCtx fn) s).out (.completion fn .ca 0)
    else s.out (.completion fn .ok (readData (s.hostView (keyOf fn (off / 8 * 8))) off size))

/-- A read by an agent of the mesh. -/
def meshRead (a : Agent) (fn off size : Nat) (s : State) : State :=
  let key := keyOf fn (off / 8 * 8)
  if sized off size && implemented key then
    s.out (.regAnswer a.router.val a.index.val false (leBytes (readData (s.regView key) off size) size))
  else s.out (.regAnswer a.router.val a.index.val true [])

/-! ### MSI-X tables (R363) -/

/-- A vector that comes unmasked sends one message for its pending bit. -/
def sendPending (fn v : Nat) (s : State) : State :=
  let x := s.cfg fn
  if (x.pending.testBit v) && !x.msixMask && !(x.vector v).mask && x.bme && x.msixEn then
    let s := s.onCfg fn fun x => { x with pending := putBit x.pending v false }
    raiseVector fn v s
  else s

/-- Every vector of a function. -/
def sendAllPending (fn : Nat) (s : State) : State := each (List.range 8) (sendPending fn) s

/-- Change an entry of a table; what its mask held back is sent. -/
def onVector (fn v : Nat) (f : MsixEnt → MsixEnt) (s : State) : State :=
  sendPending fn v (s.onCfg fn fun x => { x with table := SMap.upd (fun _ => MsixEnt.init) x.table v f })

/-- Write one word of a table. -/
def writeMsix (fn v : Nat) (second : Bool) (new : Word) (s : State) : State :=
  onVector fn v (fun e =>
    if second then { e with data := new.toNat % 2 ^ 32, mask := new.getLsbD 32 }
    else { e with addr := new.toNat / 4 * 4 }) s

/-! ### Locked interfaces (R356) -/

/-- A condition of a locked TDI is broken: the TDI goes to ERROR and its context ends with TDISP_ERROR. -/
def tdispBroken (c : Nat) (s : State) : State :=
  if (s.ctx c).tdiLocked && s.endable c then
    reportFault 0x000E (srcHost (c + 1)) [c] (some (s.partOf c)) 0 0 [] (noteError 9 (c + 1) (some c) s)
  else s

/-- Write bytes of a command slot (R413). -/
def writeSlotBytes (key off size : Nat) (v : Word) (s : State) : State :=
  let bs := leBytes v.toNat size
  { s with mbx := bs.zipIdx.foldl (fun m b => SMap.put (fun _ => 0) m (key + off % 8 + b.2) b.1) s.mbx }

end Sys2Proof.Machine
end

