-- ==== Sys2Proof/Machine/Mesh.lean ====
section
/-! DEFINITION. The agents of the on-die network (chapter 08): what the network reports, the token buckets that requests draw
from (R203, R266), the channels' request queues (R184, R209), and the code of a granule as an access meets it. -/

namespace Sys2Proof.Machine

/-! ### Errors that the network reports (R267, R274–R278) -/

/-- Record an event in NOC_LAST_ERR. -/
def nocLast (router port plane vn kind : Nat) (s : State) : State :=
  let s := ((s.wr F.NOC_LAST_ERR_ROUTER router).wr F.NOC_LAST_ERR_PORT port).wr F.NOC_LAST_ERR_PLANE plane
  ((s.wr F.NOC_LAST_ERR_VN vn).wr F.NOC_LAST_ERR_KIND kind).wr F.NOC_LAST_ERR_TIME s.now

/-- The end-to-end code at the destination of a packet (R277): corrected errors are counted; an uncorrectable one is
reported. -/
def e2eSeen (f : NetFlit) (e : E2e) (s : State) : State :=
  let h := f.hdr
  match e with
  | .good => s
  | .corrected => nocLast h.dst.val 0 f.plane (opcVn f.opc) 1 (s.satInc F.NOC_ERR_E2E_CE 1)
  | .uncorrectable =>
    let s := nocLast h.dst.val 0 f.plane (opcVn f.opc) 2 ((s.satInc F.NOC_ERR_E2E_UE 1).wr F.NOC_ERR_UE 1)
    let x := s.sourceOf h
    reportFault 0x0013 (srcRouter h.dst.val) (if x.2 then [] else [x.1]) (if x.2 then none else some (s.partOf x.1))
      0 h.addr.toNat [] s

/-- A failed ownership check (R267, R278). -/
def ownerFail (h : Flit) (s : State) : State :=
  let c := (s.sourceOf h).1
  let s := ((s.satInc F.NOC_OWN_COUNT 1).wr F.NOC_OWN_SRC h.src.val).wr F.NOC_OWN_SAG h.sag.val
  let s := (s.wr F.NOC_OWN_CTX c).wr F.NOC_OWN_VALID 1
  bbEvent 0x8041 (srcRouter h.dst.val) [byte h.src.val, byte h.sag.val, byte c] s

/-! ### Buckets (R203, R266) -/

/-- A request waits for tokens of a bucket. -/
def awaitTokens (b cost c : Nat) (req : Instr) (s : State) : State :=
  { s with waiting := s.waiting ++ [({ bucket := b, cost := cost, ctx := c, who := .request req } : Waiting)] }

/-- Number of the pseudo-bucket of requests that wait for a credit of a channel's queue (R184). -/
def chanKey (ch : Nat) : Nat := 2 ^ 22 + ch

/-- Number of the pseudo-bucket of mesh requests that wait for a slot of the host endpoint (R344). -/
def slotKey : Nat := 2 ^ 21

/-- Tokens of an injection bucket that a request of an opcode costs (R266): one for each flit of request data, the flit of a
translated host address among them, and one for the flit of response data (DESIGN CHOICE, log entry 36). -/
def opcCost (opc : Nat) : Nat :=
  if opc = 2 || opc = 4 || opc = 5 then 2 else if opc = 6 then 3 else 1

/-- The byte bucket of a context on a stack limits a request's `n` bytes, where it has a cap (R203). -/
def drawBytes (k c n : Nat) (s : State) : Option State :=
  if s.rd (F.MEM_REG_CTX_RATE k c) = 0 then some s else drawTokens (k * 256 + c) (s.byteDepth k c) n s

/-- The injection bucket of an agent limits a context's request, where it has a cap (R266). -/
def drawInject (r a c cost : Nat) (s : State) : Option State :=
  match s.injectDepth c with
  | none => some s
  | some d => drawTokens (injectKey r a c) d cost s

/-! ### The channels' queues (R184, R209) -/

/-- An access to a row whose copy is under way is held in the channel's queue with a bundle credit; while the queue is full it
waits for a credit. The queue's depth is not given (log entry 127). -/
def holdRequest (ch c : Nat) (req : Instr) (s : State) : State :=
  if (s.chan ch).queue.length < 1 + Config.queueDepth ch then
    s.onChan ch fun x =>
      { x with queue := x.queue ++ [({ bucket := chanKey ch, cost := 0, ctx := c, who := .request req } : Waiting)],
               credits := x.credits + 1 }
  else awaitTokens (chanKey ch) 0 c req s

/-! ### The code of a granule as an access meets it (R193, R194, R205) -/

/-- The line of a channel's slice that holds the sector of a physical offset, if one does (R193). -/
def State.lineOf (s : State) (ch off : Nat) : Option Line :=
  (SMap.get (fun _ => []) (s.chan ch).cache (off / 128 % 1024)).find? fun l =>
    decide (l.tag = off / 128 / 1024) && l.valid.testBit (off / 32 % 4)

/-- A slice drops a sector (R194). -/
def dropSector (ch off : Nat) (s : State) : State :=
  let m := 2 ^ (off / 32 % 4)
  let clear (l : Line) : Line :=
    if l.tag = off / 128 / 1024 && l.valid.testBit (off / 32 % 4) then { l with valid := l.valid - m } else l
  s.onChan ch fun x => { x with cache := SMap.upd (fun _ => []) x.cache (off / 128 % 1024) fun ls => ls.map clear }

/-- What an access meets at the code of the granule at a physical offset. A sector that the slice does not hold is read from
the DRAM (R205). In a sector that it holds a single-bit error is corrected; a double error drops a clean sector, which is read
again, and is an uncorrectable error of the granule in a dirty one (R194). -/
def codeMet (ch off : Nat) (e : Ecc) (s : State) : Ecc × State :=
  if (s.unserved ch off).isSome then (.clean, s)
  else match s.lineOf ch off with
    | none => (e, s)
    | some l =>
      if e = .uncorrectable then
        if l.dirty.testBit (off / 32 % 4) then (e, s) else (.clean, dropSector ch off s)
      else (.clean, s)

/-- An access under the code of its granule (R205, R207): `go` performs it, with correct data behind a corrected code; `fail`
answers the one that finds the granule uncorrectable. -/
def atCode (ch off : Nat) (e : Ecc) (go fail : State → State) (s : State) : State :=
  match codeMet ch off e s with
  | (.clean, s) => go s
  | (.corrected, s) => eccSeen ch off .corrected (go s)
  | (.uncorrectable, s) => fail (eccSeen ch off .uncorrectable s)

end Sys2Proof.Machine
end

