-- ==== Sys2Proof/Machine/Ports.lean ====
section
/-! DEFINITION. Claush ports (R373–R380, R389–R395): bring-up and key agreement, the retry layer, credits, what takes a port
down, and the time base. -/

namespace Sys2Proof.Machine

/-! ### Time followed (R390, R504) -/

/-- The port that a follower follows: the lowest up port of the parent trunk, else of the alternative ports. -/
def State.parentPort (s : State) : Option Nat :=
  let up := (List.range 32).filter fun q => s.portUp q
  (up.find? fun q => s.on (F.CLS_PORT_CFG_TIME_PARENT q)).orElse fun _ => up.find? fun q => s.on (F.CLS_PORT_CFG_TIME_ALT q)

/-- Run free on the crystal (R390, R392). -/
def runFree (s : State) : State :=
  (((s.wr F.CLS_TIME_SYNC 0).wr F.SPN_STATUS_FREE_RUN 1).setReg R.SPN_INC (regReset R.SPN_INC)).wr F.SPN_STATUS_SLEWING 0

/-- Without a parent port up a follower runs free. -/
def checkParent (s : State) : State :=
  if s.on F.CLS_NODE_TIME_ROOT || s.parentPort.isSome || !s.on F.CLS_TIME_SYNC then s else runFree s

/-- Neighbours that report late, by node. -/
def State.latePeers (s : State) : Nat :=
  (((List.range 32).filter fun q => s.portUp q && s.on (F.CLS_PORT_STATUS_LATE_RX q)).map fun q =>
    s.rd (F.CLS_PORT_STATUS_PEER_NODE q)).dedup.length

/-! ### Down (R375, R395) -/

/-- Link die of a port. -/
def dieOf (q : Nat) : Nat := q / 16

/-- Send a frame again, encrypted afresh, on another up port of the trunk. -/
def resend (node : Nat) (f : Frame) (s : State) : State := sendTo node f.type f.sctx f.dctx f.opid f.arg f.data s

/-- A port goes down for a reason of R395. Its keys go; its frames move to the trunk's other ports, and with the last
port what involves the neighbour ends. One that is down already keeps its reason, unless debug now holds it down. -/
def portDown (q why : Nat) (s : State) : State :=
  if s.rd (F.CLS_PORT_STATUS_STATE q) = 0 then (if why = 5 then s.wr (F.CLS_PORT_STATUS_DOWN_WHY q) why else s)
  else
    let was := s.portUp q
    let node := s.rd (F.CLS_PORT_STATUS_PEER_NODE q)
    let x := s.port q
    let s := s.onPort q fun _ => Port.init
    let s := ((s.wr (F.CLS_PORT_STATUS_STATE q) 0).wr (F.CLS_PORT_STATUS_DOWN_WHY q) why).wr (F.CLS_PORT_STATUS_KEYSET q) 0
    let s := s.wr (F.CLS_PORT_STATUS_LATE_RX q) 0
    if !was then s
    else
      let s := (s.wr (F.CLS_PORT_ERR_DOWN_EVT q) 1).wrBit (F.CLS_DIE_STATUS_PORTS_UP (dieOf q)) (q % 16) false
      let s := checkParent (s.wr F.CLS_TIME_LATE_PEERS s.latePeers)
      if (s.trunk node).isEmpty then trunkLost node s
      else each ((x.unacked ++ x.waiting).filter fun f => f.type ≠ 0x18 && f.type ≠ 0x1E) (resend node) s

/-- The ports of a link die. -/
def diePorts (d : Nat) : List Nat := (List.range 16).map (16 * d + ·)

/-- A link die is fenced or its bundle is lost: all its ports go down together (R395). -/
def linkDieDown (d : Nat) (s : State) : State :=
  let ports := (diePorts d).filter fun q => s.rd (F.CLS_PORT_STATUS_STATE q) ≠ 0
  each ports (fun q s => portDown q 6 s) (s.wr (F.CLS_DIE_STATUS_STATE d) 3)

/-- Debug in Production takes every port down, and the keys are erased (R375). -/
def portsDebug (s : State) : State := each (List.range 32) (fun q s => portDown q 5 s) s

/-! ### Bring-up (R373, R528) -/

/-- Is a port enabled, and its link die up? A port that debug took down stays down (R371, R375, R395). -/
def State.portReady (s : State) (q : Nat) : Bool :=
  s.on (F.CLS_PORT_CFG_ENABLED q) && s.rd (F.CLS_PORT_STATUS_DOWN_WHY q) ≠ 5 && s.rd (F.CLS_DIE_STATUS_STATE (dieOf q)) = 2

/-- PORT_RETRY: a down port repeats its bring-up. -/
def portRetry (q : Nat) (s : State) : State :=
  if s.rd (F.CLS_PORT_STATUS_STATE q) = 0 && s.portReady q then s.wr (F.CLS_PORT_STATUS_STATE q) 1 else s

/-! ### Key agreement (R374). The messages' layout and steps are a DESIGN CHOICE (log entry 15): 1 the requester's message, 2 the
responder's with its signature, 3 the requester's signature. -/

/-- Does this package request? The lower node number does. -/
def State.requester (s : State) (q : Nat) : Bool := decide (s.rd F.CLS_NODE_NODE < s.rd (F.CLS_PORT_CFG_PEER_NODE q))

/-- The package's own message: node, port, life-cycle and debug state, installer digest, nonce, ephemeral key,
certificates. -/
def State.keyHello (s : State) (q : Nat) : List Byte :=
  leBytes (s.rd F.CLS_NODE_NODE) 2 ++ [byte q, byte s.lc, byte (b2n (s.on F.HWD_STATUS_DEBUG_ON)), 0, 0, 0] ++
    padTo 48 (s.installer.getD []) ++ s.freeBytes 128 ++ Config.certChain 1 (s.saved.certs.getD [])

/-- The installer digest that a peer must show (R371, R374). -/
def State.peerInst (s : State) (q : Nat) : List Byte :=
  let w := match s.portRec q with | some r => slice r 0x10 48 | none => []
  if allZero w then padTo 48 (s.installer.getD []) else w

/-- Is the peer that a message shows the one of the port record, in Production with debug off? -/
def State.peerFits (s : State) (q : Nat) (m : List Byte) : Bool :=
  decide (fieldAt m 0 2 = s.rd (F.CLS_PORT_CFG_PEER_NODE q)) && decide (fieldAt m 2 1 = s.rd (F.CLS_PORT_CFG_PEER_PORT q)) &&
    decide (fieldAt m 3 1 = 2) && decide (fieldAt m 4 1 = 0) && decide (slice m 8 48 = s.peerInst q)

/-- The device's signature over a transcript. -/
def keySign (t : List Byte) : List Byte := Config.signPair Label.claush.bytes t

/-- Does a signature verify over a transcript under the certificates of a message? -/
def keySigned (t sig m : List Byte) : Bool := Config.pairOk (Label.claush.bytes ++ t) sig (m.drop 184)

/-- Send a message of the exchange. -/
def sendKey (q step : Nat) (bs : List Byte) (s : State) : State := sendFrame q 0x1E 0 0 0 step bs s

/-- Begin an exchange: the requester sends its message (R374). -/
def beginKeys (q : Nat) (s : State) : State :=
  let m := s.keyHello q
  let s := (s.drawnN 128).onPort q fun x => { x with step := 1, transcript := m }
  if s.requester q then sendKey q 1 m s else s

/-- The keys of a set: from the lower node to the higher, and back. -/
def putKeys (q set : Nat) (t : List Byte) (s : State) : State :=
  let tx := b2n (!s.requester q)
  s.onPort q fun x =>
    { x with keys := SMap.ins (2 * set) (Config.claushKey t tx) (SMap.ins (2 * set + 1) (Config.claushKey t (1 - tx)) x.keys),
             step := 0, transcript := [], keyFrames := 0, keyTime := s.now }

/-- The exchange has ended well: a port in KEYING comes up, and a rekeyed one changes its key set (R373, R374). -/
def keysAgreed (q : Nat) (t : List Byte) (s : State) : State :=
  if s.portUp q then
    let set := 1 - s.rd (F.CLS_PORT_STATUS_KEYSET q)
    (putKeys q set t s).wr (F.CLS_PORT_STATUS_KEYSET q) set
  else
    let s := (putKeys q 0 t s).wr (F.CLS_PORT_STATUS_STATE q) 4
    let s := ((s.wr (F.CLS_PORT_STATUS_PEER_NODE q) (s.rd (F.CLS_PORT_CFG_PEER_NODE q))).wr (F.CLS_PORT_STATUS_PEER_PORT q)
      (s.rd (F.CLS_PORT_CFG_PEER_PORT q))).wr (F.CLS_PORT_STATUS_DOWN_WHY q) 0
    s.wrBit (F.CLS_DIE_STATUS_PORTS_UP (dieOf q)) (q % 16) true

/-- A message of the exchange arrives; a refused exchange takes the port down with reason KEY (R375). -/
def keyMessage (q step : Nat) (bs : List Byte) (s : State) : State :=
  let own := (s.port q).transcript
  if step = 1 && !s.requester q then
    let s := if own.isEmpty then beginKeys q s else s
    let own := (s.port q).transcript
    if s.peerFits q bs then
      let t := bs ++ own
      sendKey q 2 (leBytes own.length 4 ++ own ++ keySign t) (s.onPort q fun x => { x with step := 2, transcript := t, peerInst := bs })
    else portDown q 4 s
  else if step = 2 && s.requester q && (s.port q).step = 1 then
    let n := fieldAt bs 0 4
    let m := slice bs 4 n
    let t := own ++ m
    if s.peerFits q m && keySigned t (bs.drop (4 + n)) m then keysAgreed q t (sendKey q 3 (keySign t) s) else portDown q 4 s
  else if step = 3 && !s.requester q && (s.port q).step = 2 then
    if keySigned own bs (s.port q).peerInst then keysAgreed q own s else portDown q 4 s
  else s

/-- PORT_LINK_UP: the lanes are trained; the port that passes its test agrees keys, and one that fails stays down. -/
def portLinkUp (q : Nat) (pass : Bool) (s : State) : State :=
  if s.rd (F.CLS_PORT_STATUS_STATE q) = 1 || s.rd (F.CLS_PORT_STATUS_STATE q) = 2 then
    if pass then
      let s := saveLater (s.onSaved fun v => { v with training := SMap.put (fun _ => 0) v.training (1000 + q) s.serial })
      beginKeys q (s.wr (F.CLS_PORT_STATUS_STATE q) 3)
    else
      let s := if s.rd F.GLB_CFG_STATUS_STATE = 0 then s.satInc F.GLB_BRINGUP_TEST_FAIL 1 else s
      portDown q 1 s
  else s

/-- CLAUSH_REKEY: a fresh key set is agreed while traffic goes on (R374). -/
def claushRekey (q : Nat) (s : State) : State := if s.portUp q then beginKeys q s else s

/-! ### The retry layer (R378, R380) -/

/-- A NAK for the SEQ expected. -/
def sendNak (q : Nat) (s : State) : State := sendLink q 1 ((s.port q).rxSeq % 2 ^ 32) s

/-- The buffer of a received frame is free: its credit goes back (R378). -/
def sendCredit (q vc : Nat) (s : State) : State := sendLink q 2 (2 ^ (8 * vc)) s

/-- Is SEQ `a` at or before `b`, in the window of 2^31? -/
def seqUpTo (a b : Nat) : Bool := decide ((b + 2 ^ 32 - a % 2 ^ 32) % 2 ^ 32 < 2 ^ 31)

/-- Frames up to a SEQ are acknowledged. The first one under a new key set lets the old set go (R374, R380); what
waited for room goes out, and a collective may be done (R386). -/
def ackUpTo (q a : Nat) (s : State) : State :=
  let x := s.port q
  let rest := x.unacked.filter fun f => !seqUpTo f.seq a
  if rest.length = x.unacked.length then s
  else
    let set := s.rd (F.CLS_PORT_STATUS_KEYSET q)
    let fresh := (x.unacked.filter fun f => seqUpTo f.seq a).any fun f => f.key = set
    finishColls (sendWaiting q (s.onPort q fun x =>
      { x with unacked := rest, replays := 0, ackAt := s.now,
               keys := if fresh then SMap.del (2 * (1 - set)) (SMap.del (2 * (1 - set) + 1) x.keys) else x.keys }))

/-- Send every frame that is not acknowledged again, identically; sixteen replays without progress take the port
down (R380, R395). -/
def replay (q : Nat) (s : State) : State :=
  let s := (s.satInc (F.CLS_PORT_ERR_RETRY q) 1).onPort q fun x => { x with replays := x.replays + 1 }
  if 16 ≤ (s.port q).replays then portDown q 2 s
  else each (s.port q).unacked (fun f s => driveFrame q f s) s

/-- NAK: what precedes the expected SEQ has arrived, the rest is replayed. -/
def nakFrame (q : Nat) (h : FrameIn) (s : State) : State :=
  if s.rd (F.CLS_PORT_STATUS_STATE q) < 3 then s
  else replay q (ackUpTo q ((h.arg.toNat % 2 ^ 32 + 2 ^ 32 - 1) % 2 ^ 32) s)

/-- CREDIT: credits of the four channels come back, and what waited for them is sent (R378). -/
def creditReturn (q : Nat) (h : FrameIn) (s : State) : State :=
  if s.rd (F.CLS_PORT_STATUS_STATE q) < 3 then s
  else
    let s := s.onPort q fun x =>
      { x with credits := (List.range 4).foldl (fun m vc =>
          SMap.upd vcCredits m vc fun k => min (vcCredits vc) (k + bits h.arg.toNat (8 * vc + 7) (8 * vc))) x.credits }
    sendWaiting q s

/-- ACK_TIMEOUT: a replay, and after 100 µs without progress the port goes down (R380, R395). -/
def ackTimeout (q : Nat) (s : State) : State :=
  let x := s.port q
  if s.rd (F.CLS_PORT_STATUS_STATE q) < 3 || x.unacked.isEmpty then s
  else if x.ackAt + 100000 ≤ s.now then portDown q 2 s
  else replay q s

/-- A frame with a good CRC and tag: only the next SEQ is accepted, its ACK is taken, its credit returned; then `f` acts
(R378, R380). A port that is not up takes KEY frames only (R377). A frame whose accesses to memory wait, for tokens or a
row's copy, is not accepted yet: it stays in the port's buffer (R203, R209, R383; DESIGN CHOICE, log entry 145). -/
def received' (q : Nat) (key : Bool) (h : FrameIn) (areas : State → List Areas) (f : State → State) (s : State) : State :=
  let st := s.rd (F.CLS_PORT_STATUS_STATE q)
  if !(st = 4 || (key && st = 3)) then s.satInc F.CLS_COUNT_DISCARD 1
  else if h.seq.toNat ≠ (s.port q).rxSeq % 2 ^ 32 then sendNak q s
  else
    match accessAll (framePayer q h.dctx.val) (areas s) s with
    | (false, s) => s
    | (true, s) =>
      let s := s.onPort q fun x => { x with rxSeq := x.rxSeq + 1 }
      f (ackUpTo q h.ack.toNat (sendCredit q h.vc.val s))

/-- The neighbour of a port. -/
def State.peer (s : State) (q : Nat) : Nat := s.rd (F.CLS_PORT_STATUS_PEER_NODE q)

/-- DISCARDED_FRAME (R377, R380, R395): a NAK asks for the SEQ expected. A reserved TYPE has used its SEQ; a frame that
comes before keys is discarded. Four tag failures within 1 ms take the port down. -/
def discardedFrame (q : Nat) (why : Discard) (s : State) : State :=
  if s.rd (F.CLS_PORT_STATUS_STATE q) < 3 then s.satInc F.CLS_COUNT_DISCARD 1
  else match why with
    | .sequence => sendNak q s
    | .crc => sendNak q s
    | .tag =>
      let recent := (s.now :: (s.port q).authFails).filter fun t => decide (s.now ≤ t + 1000000)
      let s := (s.satInc (F.CLS_PORT_ERR_AUTH_FAIL q) 1).onPort q fun x => { x with authFails := recent }
      if 4 ≤ recent.length then portDown q 3 s else sendNak q s
    | .reserved => (s.onPort q fun x => { x with rxSeq := x.rxSeq + 1 }).satInc F.CLS_COUNT_DISCARD 1
    | .noKeys => s.satInc F.CLS_COUNT_DISCARD 1

/-! ### TIME frames (R389–R394) -/

/-- The measured delay and offset of a TIME frame (R390): our last frame's time and when it arrived there, the peer's time
and ours. None before the peer has seen a frame of ours. -/
def State.measure (s : State) (h : FrameIn) : Option (Int × Int) :=
  let echo := fieldAt h.data 0 8
  let there := fieldAt h.data 8 8
  if echo = 0 then none
  else
    let d : Int := ((s.now : Int) - echo - ((h.arg.toNat : Int) - there)) / 2
    some (d, (h.arg.toNat : Int) + d - s.now)

/-- INC for an offset: at most 100 ppm from 1.0 ns (R390, R504); 10 ppm for each ns (DESIGN CHOICE, log entry 95). -/
def slewInc (off : Int) : Nat :=
  let d := off * 42950
  let d := if d < -429496 then -429496 else if 429496 < d then 429496 else d
  ((2 ^ 32 : Int) + d).toNat

/-- Take a time by the single step. -/
def alignStep (q : Nat) (t : Int) (s : State) : State :=
  let s := stepSpindle t.toNat s
  ({ s with held := true }.wr F.CLS_TIME_PARENT q)

/-- A follower aligns to its parent (R390–R392): one step before ready, then slews; more than 1 ms away it runs free. -/
def follow (q : Nat) (off : Int) (s : State) : State :=
  let ready := decide (s.rd F.GLB_CFG_STATUS_STATE = 1)
  if !ready && !s.on F.SPN_STATUS_STEPPED then
    (((alignStep q ((s.now : Int) + off) s).wr F.CLS_TIME_SYNC 1).wr F.SPN_STATUS_FREE_RUN 0).wr F.CLS_TIME_FAR 0
  else if off < -1000000 || 1000000 < off then (runFree s).wr F.CLS_TIME_FAR 1
  else
    let inc := slewInc off
    let s := { s with held := true }
    let s := ((s.wr F.CLS_TIME_SYNC 1).wr F.CLS_TIME_FAR 0).wr F.CLS_TIME_PARENT q
    let s := (s.wr F.SPN_STATUS_FREE_RUN 0).wr F.CLS_TIME_LAST_CORR
      (unsignedOf 16 (if off < -16384 then -32768 else if 16383 < off then 32767 else 2 * off))
    (s.setReg R.SPN_INC (w64 inc)).wr F.SPN_STATUS_SLEWING (b2n (decide (inc ≠ 2 ^ 32)))

/-- What a TIME frame does to the time base. -/
def timeBase (q : Nat) (h : FrameIn) (s : State) : State :=
  match s.measure h with
  | none => s
  | some (d, off) =>
    let s := s.wr (F.CLS_PORT_DELAY_DELAY_PS q) (d.toNat * 1000)
    if s.on F.CLS_NODE_TIME_ROOT then
      if s.rd F.GLB_CFG_STATUS_STATE = 0 && !s.on F.SPN_STATUS_STEPPED && (fieldAt h.data 0x10 1).testBit 3 then
        alignStep q ((s.now : Int) + off) s
      else s
    else if s.parentPort = some q then follow q off s
    else s

/-- Abort keys of a TIME frame (R389, R394). -/
def abortKeys (node : Nat) (h : FrameIn) (s : State) : State :=
  if !(fieldAt h.data 0x10 1).testBit 1 then s
  else
    each (List.range (min 3 (fieldAt h.data 0x11 1))) (fun i s =>
      let at' := 0x14 + 12 * i
      let kind := fieldAt h.data at' 4 % 16
      let s := s.satInc F.CLS_COUNT_ABORT_RX 1
      if kind = 1 then collAborted node (fieldAt h.data (at' + 4) 4) (fieldAt h.data (at' + 8) 4) s
      else if kind = 2 then poolAbortKey node (fieldAt h.data (at' + 4) 4) (fieldAt h.data (at' + 8) 4) s
      else s) s

/-- TIME: alignment, lateness and abort keys. -/
def timeFrame (q : Nat) (h : FrameIn) (s : State) : State :=
  let flags := fieldAt h.data 0x10 1
  let s := s.onPort q fun x => { x with lastTime := h.arg.toNat, lastAt := s.now, peerFlags := flags }
  let s := s.wr (F.CLS_PORT_STATUS_LATE_RX q) (flags % 2)
  let s := s.wr F.CLS_TIME_LATE_PEERS s.latePeers
  abortKeys (s.peer q) h (timeBase q h s)

/-- TIME_TRANSMIT: each abort key is repeated for 100 µs (R389, R394). -/
def timeTransmit (q : Nat) (s : State) : State :=
  let s := { s with aborts := s.aborts.filter fun a => decide (s.now ≤ a.since + 100000) }
  if s.portUp q then sendTime q s else s

/-! ### The commands -/

/-- PORT_LINK_UP. -/
def execPortLinkUp (q : PortId) (pass : Bool) (s : State) : Host.Outcome State Fault Refusal := s.done (portLinkUp q.val pass s)
/-- PORT_RETRY. -/
def execPortRetry (q : PortId) (s : State) : Host.Outcome State Fault Refusal := s.done (portRetry q.val s)
/-- PORT_SIGNAL_LOSS. -/
def execPortSignalLoss (q : PortId) (s : State) : Host.Outcome State Fault Refusal := s.done (portDown q.val 1 s)
/-- NAK. -/
def execNakFrame (q : PortId) (h : FrameIn) (s : State) : Host.Outcome State Fault Refusal := s.done (nakFrame q.val h s)
/-- CREDIT. -/
def execCreditReturn (q : PortId) (h : FrameIn) (s : State) : Host.Outcome State Fault Refusal :=
  s.done (creditReturn q.val h s)
/-- ACK_TIMEOUT. -/
def execAckTimeout (q : PortId) (s : State) : Host.Outcome State Fault Refusal := s.done (ackTimeout q.val s)
/-- PUT_DATA. -/
def execPutData (q : PortId) (h : FrameIn) (s : State) : Host.Outcome State Fault Refusal :=
  s.done (received' q.val false h (fun s => s.putAreas (s.peer q.val) h)
    (fun s => putData q.val (s.peer q.val) h s) s)
/-- GET_REQ. -/
def execGetReq (q : PortId) (h : FrameIn) (s : State) : Host.Outcome State Fault Refusal :=
  s.done (received' q.val false h (fun s => s.getAreas (s.peer q.val) h)
    (fun s => getReq q.val (s.peer q.val) h s) s)
/-- GET_DATA. -/
def execGetData (q : PortId) (h : FrameIn) (s : State) : Host.Outcome State Fault Refusal :=
  s.done (received' q.val false h (fun s => s.getDataAreas (s.peer q.val) h)
    (fun s => getData (s.peer q.val) h s) s)
/-- PUT_ACK. -/
def execPutAck (q : PortId) (h : FrameIn) (s : State) : Host.Outcome State Fault Refusal :=
  s.done (received' q.val false h (fun _ => []) (fun s => putAck (s.peer q.val) h s) s)
/-- FRAME_RSP_ERR. -/
def execFrameRspErr (q : PortId) (h : FrameIn) (s : State) : Host.Outcome State Fault Refusal :=
  s.done (received' q.val false h (fun _ => []) (fun s => frameRspErr (s.peer q.val) h s) s)
/-- COLL_READY. -/
def execCollReady (q : PortId) (h : FrameIn) (s : State) : Host.Outcome State Fault Refusal :=
  s.done (received' q.val false h (fun _ => []) (fun s => collReady (s.peer q.val) h s) s)
/-- COLL_DATA. -/
def execCollData (q : PortId) (h : FrameIn) (s : State) : Host.Outcome State Fault Refusal :=
  s.done (received' q.val false h (fun s => s.collAreas (s.peer q.val) h)
    (fun s => collData (s.peer q.val) h s) s)
/-- GU_SEAL: round and sealed count in ARG, the UID in the payload (R377). -/
def execGuSeal (q : PortId) (h : FrameIn) (s : State) : Host.Outcome State Fault Refusal :=
  s.done (received' q.val false h (fun _ => []) (fun s =>
    guSeal (s.peer q.val) (fieldAt h.data 0 8) (h.arg.toNat / 2 ^ 32) (h.arg.toNat % 65536) s) s)
/-- GU_CLOSE. -/
def execGuClose (q : PortId) (h : FrameIn) (s : State) : Host.Outcome State Fault Refusal :=
  s.done (received' q.val false h (fun s => s.closeAreas (s.peer q.val) (fieldAt h.data 0 8) h.arg.toNat)
    (fun s => guClose (s.peer q.val) (fieldAt h.data 0 8) h.arg.toNat s) s)
/-- GU_PARTIAL. -/
def execGuPartial (q : PortId) (h : FrameIn) (s : State) : Host.Outcome State Fault Refusal :=
  s.done (received' q.val false h (fun _ => []) (fun s =>
    guPartial (s.peer q.val) (h.arg.toNat / 2 ^ 32) (h.arg.toNat % 2 ^ 32) h.data s) s)
/-- GU_RESULT. -/
def execGuResult (q : PortId) (h : FrameIn) (s : State) : Host.Outcome State Fault Refusal :=
  s.done (received' q.val false h (fun s => s.resultAreas (s.peer q.val) (h.arg.toNat / 2 ^ 32) (h.arg.toNat % 2 ^ 32)) (fun s =>
    guResult (s.peer q.val) (h.arg.toNat / 2 ^ 32) (h.arg.toNat % 2 ^ 32) h.data s) s)
/-- GU_FAIL. -/
def execGuFail (q : PortId) (h : FrameIn) (s : State) : Host.Outcome State Fault Refusal :=
  s.done (received' q.val false h (fun _ => []) (fun s => guFail (s.peer q.val) (fieldAt h.data 0 8) h.arg.toNat s) s)
/-- TIME. -/
def execTimeFrame (q : PortId) (h : FrameIn) (s : State) : Host.Outcome State Fault Refusal :=
  s.done (received' q.val false h (fun _ => []) (fun s => timeFrame q.val h s) s)
/-- KEY. -/
def execKeyFrame (q : PortId) (h : FrameIn) (s : State) : Host.Outcome State Fault Refusal :=
  s.done (received' q.val true h (fun _ => []) (fun s => keyMessage q.val h.arg.toNat h.data s) s)
/-- TIME_TRANSMIT. -/
def execTimeTransmit (q : PortId) (s : State) : Host.Outcome State Fault Refusal := s.done (timeTransmit q.val s)
/-- CLAUSH_REKEY. -/
def execClaushRekey (q : PortId) (s : State) : Host.Outcome State Fault Refusal := s.done (claushRekey q.val s)
/-- DISCARDED_FRAME. -/
def execDiscardedFrame (q : PortId) (why : Discard) (s : State) : Host.Outcome State Fault Refusal :=
  s.done (discardedFrame q.val why s)

end Sys2Proof.Machine
end

