-- ==== Sys2Proof/Machine/Links.lean ====
section
/-! DEFINITION. Die-to-die links (chapter 10, R312–R322, R331–R333): training, roll call, fences, lane faults, and the fall and
return of a die; the attestation of site dies (R329, R330). -/

namespace Sys2Proof.Machine

/-! ### Bundles and modules (R5, R314, R315) -/

/-- The bundle of a module. -/
def bundleOf (m : Nat) : Nat := if m < 96 then m / 12 else if m < 128 then 8 + (m - 96) / 16 else 10 + (m - 128) / 8

/-- STATE of a module (R334). -/
def State.modState (s : State) (m : Nat) : Nat := s.rd (F.D2D_MOD_STATUS_STATE m)

/-- Is a module's role in force Active: the image's role, or a promotion (R314, R331)? -/
def State.roleActive (s : State) (m : Nat) : Bool :=
  let b := bundleOf m
  (s.mod m).promoted || decide (s.imageRole b (m - bundleFirst b) = 1)

/-- Half-modules of an Active module (R315). -/
def State.halvesOf (s : State) (m : Nat) : Nat :=
  if s.modState m = 2 then (if s.rd (F.D2D_MOD_STATUS_WIDTH m) = 3 then 2 else if s.rd (F.D2D_MOD_STATUS_WIDTH m) = 0 then 0 else 1)
  else 0

/-- Active half-modules of a bundle. -/
def State.halves (s : State) (b : Nat) : Nat := ((bundleMods b).map s.halvesOf).sum

/-- HALVES and BW_GBS: 128 GB/s for each half-module. -/
def showBundle (b : Nat) (s : State) : State :=
  let n := s.halves b
  (s.wr (F.D2D_BDL_STATUS_HALVES b) n).wr (F.D2D_BDL_STATUS_BW_GBS b) (128 * n)

/-- The ROLES word of a bundle from the running image (R314). -/
def State.rolesWord (s : State) (b : Nat) : Nat :=
  ((List.range (bundleSize b)).map fun k => s.imageRole b k * 4 ^ k).sum

/-- The source of a bundle's records (R473). -/
def bundleSrc (b : Nat) : Nat := match bundleSite b with | some x => srcSite x | none => srcModule (bundleFirst b)

/-- A reason that lasts until device reset (R322). -/
def untilReset (why : Nat) : Bool := decide (why ≠ 0) && decide (why ≠ 4)

/-- FENCE_WHY of a bundle. -/
def State.fenceWhy (s : State) (b : Nat) : Nat := s.rd (F.D2D_BDL_STATUS_FENCE_WHY b)

/-- Bytes 0 to `n − 1` of the identity record that the die was admitted with. -/
def State.identBytes (s : State) (b n : Nat) : List Byte :=
  ((List.range 8).flatMap fun w => leBytes (s.reg (R.D2D_IDENT b w)).toNat 8).take n

/-! ### Fences (R321, R322, R332) -/

/-- A memory die is fenced: requests in flight to it complete with an error; until device reset its channels are retired,
otherwise its owners end with STACK_RESET. -/
def fenceStack (k why : Nat) (s : State) : State :=
  let s := failRequests k (s.wr (F.MEM_STATUS_STATE k) 4)
  let chs := (List.range 32).map (32 * k + ·)
  let s := each chs (fun ch s => s.onChan ch fun x => { x with cache := [], clean := false, clearing := false, copying := [] }) s
  if untilReset why then each chs (fun ch s => if (s.chan ch).retired then s else retireChannel ch s) s
  else
    let s := each chs (fun ch s => if (s.chan ch).retired then s else s.wr (F.MEM_CH_STATE k (ch % 32)) 4) s
    let owners := (s.ownersOf k).filter s.endable
    let s := poolsLost chs s
    settleScrubs (each owners (fun c s => reportFault 0x0007 (srcStack k) [c] (some (s.partOf c)) 0 0 [] s) s)

/-- A site die is fenced: its windows close, their notify objects are force-signalled, attestation is abandoned. -/
def fenceSite (x why : Nat) (s : State) : State :=
  let s := (s.wr (F.CHK_STATUS_STATE x) 5).wr (F.CHK_STATUS_FENCE_WHY x) why
  let s := s.onSite x fun y => { y with step := 0, frags := [], talk := [] }
  let s := { s with waiting := s.waiting.filter fun w => w.bucket != 2 ^ 20 + x }
  each ((List.range 16).filter fun w => s.on (F.CHK_WIN_A_VALID x w)) (fun w s =>
    let s := closeWindow x w s
    match s.notifyObj x w with
    | some n => soAdd n 1 true s
    | none => s) s

/-- Fence the die of a bundle. A fence that lasts until device reset is not replaced. -/
def fenceDie (b why : Nat) (s : State) : State :=
  if untilReset (s.fenceWhy b) then s
  else
    let up := decide (why ≠ 4) && (bundleMods b).any fun m => s.modState m = 2 || s.modState m = 3
    let s := if up then s.out (.sideband b 0x06 [byte why]) else s
    let s := each (bundleMods b) (fun m s =>
      if s.modState m = 4 then s
      else (s.wr (F.D2D_MOD_STATUS_STATE m) 6).wr (F.D2D_MOD_STATUS_WIDTH m) 0) s
    let s := (s.wr (F.D2D_BDL_STATUS_STATE b) 4).wr (F.D2D_BDL_STATUS_FENCE_WHY b) why
    let s := showBundle b (s.onBdl b fun x => { x with step := 0, due := 0 })
    let s := bbEvent 0x8031 (bundleSrc b) ([byte b, byte why] ++ padTo 24 ((s.bdl b).ident.take 24)) s
    let s := raiseVector 0 5 s
    if b < 8 then fenceStack b why s
    else if b < 10 then linkDieDown (b - 8) s
    else fenceSite (b - 10) why s

/-- Width of a module that its lost halves leave: 3 x64, 1 and 2 one half, 0 none. -/
def State.widthLeft (s : State) (m : Nat) : Nat :=
  let lost := s.rd (F.D2D_MOD_REPAIR_HALF_LOST m)
  let lo := lost.testBit 3 || lost.testBit 1
  let hi := lost.testBit 2 || lost.testBit 0
  b2n (!lo) + 2 * b2n (!hi)

/-- Half-modules that a module in training may still bring: those of an Active one (R315). -/
def State.halvesComing (s : State) (m : Nat) : Nat :=
  if s.modState m = 1 && s.roleActive m then (if s.widthLeft m = 3 then 2 else 1) else 0

/-- An open bundle whose Active half-modules have fallen below its minimum is lost (R331): those of modules in training, which
have not failed, and of the Standby modules that are to take over still count (DEDUCED, log entry 96). -/
def settleBundle (b : Nat) (s : State) : State :=
  if s.rd (F.D2D_BDL_STATUS_STATE b) = 3 &&
      s.halves b + ((bundleMods b).map s.halvesComing).sum + 2 * (s.bdl b).due < s.imageMin b then fenceDie b 5 s
  else s

/-- The same, once the device is ready: while it starts, the criteria of R531 judge the bundles. -/
def settleReady (b : Nat) (s : State) : State := if s.rd F.GLB_CFG_STATUS_STATE = 1 then settleBundle b s else s

/-! ### Training (R316, R331) -/

/-- The roll call of a die begins: RC_QUERY with the hub's serial and a fresh nonce (R317). -/
def beginRollCall (b : Nat) (s : State) : State :=
  let nonce := s.freeBytes 8
  let s := (s.drawnN 8).onBdl b fun x => { x with step := 1, nonce := nonce }
  let s := s.wr (F.D2D_BDL_STATUS_STATE b) 2
  let s := match bundleSite b with | some x => s.wr (F.CHK_STATUS_STATE x) 1 | none => s
  s.out (.sideband b 0x01 (leBytes s.serial 8 ++ nonce))

/-- The promotions that are due: the lowest Standby modules that hold x64 become Active. Where no Standby module is left, the
bundle goes on without (R331). -/
def promote (b : Nat) (s : State) : State :=
  let ready := (bundleMods b).filter fun m => s.modState m = 3 && s.rd (F.D2D_MOD_STATUS_WIDTH m) = 3
  let coming := (bundleMods b).filter fun m => s.modState m = 1 && !s.roleActive m && s.widthLeft m = 3
  let n := (s.bdl b).due
  let s := each (ready.take n) (fun m s =>
    let s := (s.onMod m fun x => { x with promoted := true }).wr (F.D2D_MOD_STATUS_STATE m) 2
    saveNow (s.onSaved fun v => { v with promoted := v.promoted ++ [m] })) s
  s.onBdl b fun x => { x with due := min (n - ready.length) coming.length }

/-- An Active module of a bundle has lost a half, or has gone Off: a Standby module is due to take over (R331). -/
def promoteFor (b : Nat) (was : Bool) (s : State) : State :=
  if was then promote b (s.onBdl b fun x => { x with due := x.due + 1 }) else s

/-- Discard a module's training record: it trains in full. -/
def trainInFull (m : Nat) (s : State) : State :=
  let s := if SMap.get (fun _ => 0) s.saved.training m = 0 then s
    else saveLater (s.onSaved fun v => { v with training := SMap.put (fun _ => 0) v.training m 0 })
  let s := s.onMod m fun x => { x with tried := false }
  (s.wr (F.D2D_MOD_STATUS_STATE m) 1).wr (F.D2D_MOD_STATUS_WIDTH m) 0

/-- A module that trained has a record for the die's serial in the saved-settings area (R316). -/
def saveTraining (m serial : Nat) (s : State) : State :=
  if SMap.get (fun _ => 0) s.saved.training m = serial + 1 then s
  else saveLater (s.onSaved fun v => { v with training := SMap.put (fun _ => 0) v.training m (serial + 1) })

/-- Did a module train from a record that names another die than the roll call (R316)? -/
def State.staleTraining (s : State) (m serial : Nat) : Bool :=
  (s.mod m).tried && (s.modState m = 2 || s.modState m = 3) &&
    decide (SMap.get (fun _ => 0) s.saved.training m ≠ serial + 1)

/-- A module comes up behind the roll call of its die: it is held against the serial that the die reported (R316). -/
def joinDie (m : Nat) (s : State) : State :=
  let b := bundleOf m
  let serial := fieldAt (s.bdl b).ident 8 8
  if (s.bdl b).step < 2 then s
  else if s.staleTraining m serial then trainInFull m s
  else if (s.bdl b).step = 3 then saveTraining m serial s
  else s

/-- MODULE_LINK_UP: the module takes its role and width; the first of a die opens its roll call. -/
def moduleLinkUp (m : Nat) (s : State) : State :=
  let b := bundleOf m
  if s.modState m ≠ 1 || untilReset (s.fenceWhy b) then s
  else
    let s := s.wr (F.D2D_MOD_STATUS_STATE m) (if s.roleActive m then 2 else 3)
    let s := (s.wr (F.D2D_MOD_STATUS_WIDTH m) (s.widthLeft m)).wr (F.D2D_MOD_STATUS_SAVED_USED m) (b2n (s.mod m).tried)
    let s := showBundle b (promote b (joinDie m s))
    if s.rd (F.D2D_BDL_STATUS_STATE b) = 1 && (s.bdl b).step = 0 then beginRollCall b s else settleReady b s

/-- MODULE_TRAINING_TIMEOUT: a module that trained from its record trains in full; one that trained in full goes Off. -/
def moduleTrainingTimeout (m : Nat) (s : State) : State :=
  if s.modState m ≠ 1 then s
  else if (s.mod m).tried then trainInFull m s
  else settleReady (bundleOf m) (s.wr (F.D2D_MOD_STATUS_STATE m) 4)

/-- MODULE_TRAINING_RETRY: the modules of a die that is down train again, but for those that are Off by role or by a lane
fault (step 6 of R333). -/
def moduleTrainingRetry (b : Nat) (s : State) : State :=
  if s.fenceWhy b ≠ 4 then s
  else
    let s := if s.rd (F.D2D_BDL_STATUS_STATE b) = 4 then s.wr (F.D2D_BDL_STATUS_STATE b) 1 else s
    let s := if b = 8 || b = 9 then s.wr (F.CLS_DIE_STATUS_STATE (b - 8)) 1 else s
    each ((bundleMods b).filter fun m => !(s.mod m).off && (s.modState m = 0 || s.modState m = 4 || s.modState m = 6)) (fun m s =>
      (s.onMod m fun x => { x with tried := decide (SMap.get (fun _ => 0) s.saved.training m ≠ 0) }).wr
        (F.D2D_MOD_STATUS_STATE m) 1) s

/-! ### Roll call (R317–R320) -/

/-- The checks of R319 on an identity record of 64 bytes. -/
def State.identOk (s : State) (b : Nat) (rec : List Byte) : Bool :=
  let vendor := fieldAt rec 4 2
  let device := fieldAt rec 6 2
  let rev := fieldAt rec 2 1
  let form := decide (rec.length = 64) && decide (fieldAt rec 0 1 = 1) && decide (fieldAt rec 0x3C 4 = crc32 (rec.take 0x3C)) &&
    decide (slice rec 0x10 8 = (s.bdl b).nonce) && decide (fieldAt rec 3 1 < 16) && decide (fieldAt rec 0x19 1 < 16) &&
    decide (fieldAt rec 0x1C 4 = 0)
  let serial := match (s.bdl b).serial with | some n => decide (fieldAt rec 8 8 = n) | none => true
  let place :=
    if b < 8 then fieldAt rec 1 1 = 1 && vendor = 0x7A31 && device = Config.baseDieType.toNat &&
      rev = bits (s.otpNat otpBuild 8) 39 32
    else if b < 10 then fieldAt rec 1 1 = 2 && vendor = 0x7A31 && device = Config.linkDieType.toNat &&
      rev = bits (s.otpNat otpBuild 8) 31 24
    else
      let x := b - 10
      fieldAt rec 1 1 = 3 && vendor = s.rd (F.CHK_EXPECT_VENDOR x) && device = s.rd (F.CHK_EXPECT_DEVICE x) &&
        decide (s.rd (F.CHK_EXPECT_REV_MIN x) ≤ rev) && decide (rev ≤ s.rd (F.CHK_EXPECT_REV_MAX x)) &&
        decide (fieldAt rec 0x1A 2 ≤ 150)
  form && serial && place && decide (fieldAt rec 0x18 1 = bundleSize b) && decide (bits (fieldAt rec 3 1) 3 1 = 7)

/-- RC_IDENT: the record is kept and checked. A module whose training record names another die trains in full (R316);
otherwise RC_ROLES goes out. -/
def rcIdent (b : Nat) (rec : List Byte) (s : State) : State :=
  if (s.bdl b).step ≠ 1 then s
  else
    let s := s.onBdl b fun x => { x with ident := rec.take 64 }
    if !s.identOk b rec then fenceDie b 2 s
    else
      let old := (bundleMods b).filter fun m => s.staleTraining m (fieldAt rec 8 8)
      let s := showBundle b (each old trainInFull s)
      if (bundleMods b).any fun m => s.modState m = 2 || s.modState m = 3 then
        (s.onBdl b fun x => { x with step := 2 }).out (.sideband b 0x03 (leBytes (s.rolesWord b) 4))
      else (s.onBdl b fun x => { x with step := 0 }).wr (F.D2D_BDL_STATUS_STATE b) 1

/-! ### Attestation of a site die (R329, R330) -/

/-- The grant record that the running image gives for a site. -/
def State.siteGrant (s : State) (x : Nat) : Option (List Byte) :=
  match s.image with
  | none => none
  | some i => (recsOf i.sections 0x41).find? fun r => decide (fieldAt r 1 1 = x)

/-- Send an SPDM message over RC_SPDM, in fragments of at most 64 bytes: sequence number, last-fragment bit, bytes. -/
def sendSpdm (x : Nat) (msg : List Byte) (s : State) : State :=
  let n := ceilDiv msg.length 64
  let s := each (List.range n) (fun i s =>
    let q := (s.site x).sendSeq
    (s.onSite x fun y => { y with sendSeq := q + 1 }).out
      (.sideband (10 + x) 0x07 (byte q :: byte (b2n (decide (i + 1 = n))) :: (msg.drop (64 * i)).take 64))) s
  s.onSite x fun y => { y with talk := y.talk ++ msg }

/-- Send request `k` of R329 with a fresh nonce; its bytes are the standard's. -/
def askSite (x k : Nat) (s : State) : State :=
  let nonce := s.freeBytes 32
  let s := (s.drawnN 32).onSite x fun y => { y with step := k, nonce := nonce, frags := [] }
  sendSpdm x (Config.standardReply [byte 0xF0, byte k] nonce) s

/-- Attestation fails: the site stays OPEN. -/
def attestFails (x : Nat) (s : State) : State :=
  let s := (s.wr (F.CHK_STATUS_ATTEST_FAIL x) 1).wr (F.CHK_STATUS_STATE x) 3
  let s := s.onSite x fun y => { y with step := 0, frags := [], talk := [] }
  setWindows x (bbEvent (Config.eventCode 1).toNat (srcSite x) [byte x] s)

/-- Attestation succeeds: the windows of confidential owners open. -/
def attested (x : Nat) (digest : List Byte) (s : State) : State :=
  let s := s.onSite x fun y => { y with step := 0, frags := [], talk := [], digest := digest }
  setWindows x (s.wr (F.CHK_STATUS_STATE x) 4)

/-- The checks on the answer to request `k`. -/
def State.siteAnswerOk (s : State) (x k : Nat) (g msg : List Byte) : Bool :=
  let y := s.site x
  Config.siteAnswers k msg &&
    (if k = 5 then decide (sha384 (Config.chainRoot msg) = slice g 0x10 48)
     else if k = 6 then decide (sha384 (Config.opaqueKey msg) = slice g 0x40 48) && Config.siteSigned y.talk y.nonce msg
     else if k = 7 then Config.siteSigned y.talk y.nonce msg &&
       (allZero (slice g 0x70 48) || decide (sha384 (Config.measBlocks msg) = slice g 0x70 48))
     else true)

/-- RC_SPDM: a fragment of the die's answer; a whole answer is checked, and the next request goes out. -/
def rcSpdm (b q : Nat) (last : Bool) (frag : List Byte) (s : State) : State :=
  match bundleSite b with
  | none => s
  | some x =>
    let y := s.site x
    if s.rd (F.CHK_STATUS_STATE x) ≠ 2 || y.step = 0 || q ≠ y.fragSeq || 64 < frag.length then s
    else
      let msg := y.frags ++ frag
      let s := s.onSite x fun y => { y with frags := msg, fragSeq := q + 1 }
      if !last then s
      else if !s.siteAnswerOk x y.step ((s.siteGrant x).getD []) msg then attestFails x s
      else
        let s := s.onSite x fun y => { y with talk := y.talk ++ msg }
        if y.step = 7 then attested x (sha384 (Config.measBlocks msg)) s else askSite x (y.step + 1) s

/-- ATTEST_TIMEOUT: 250 ms after admission. -/
def attestTimeout (x : Nat) (s : State) : State := if s.rd (F.CHK_STATUS_STATE x) = 2 then attestFails x s else s

/-! ### Admission (R320, R333) -/

/-- A memory die is admitted: its stack serves; the frames and rows of its repair table stand as the channels hold
them. -/
def admitStack (k : Nat) (s : State) : State :=
  let s := s.wr (F.MEM_STATUS_STATE k) 2
  each (List.range 32) (fun l s =>
    if s.rd (F.MEM_CH_STATE k l) = 4 then s.wr (F.MEM_CH_STATE k l) (b2n (s.ownerOf (32 * k + l)).isSome) else s) s

/-- A link die is admitted: the ports that the image enables train. -/
def admitLinkDie (d : Nat) (s : State) : State :=
  each (diePorts d) (fun q s => portRetry q s) (s.wr (F.CLS_DIE_STATUS_STATE d) 2)

/-- A site die is admitted: it is attested when the grant and the die allow it, and its windows follow R325. -/
def admitSite (x : Nat) (s : State) : State :=
  let s := (s.wr (F.CHK_STATUS_FENCE_WHY x) 0).wr (F.CHK_STATUS_ATTEST_FAIL x) 0
  let s := s.onSite x fun y => { y with fragSeq := 0, sendSeq := 0, digest := [] }
  let asks := match s.siteGrant x with
    | some g => (fieldAt g 2 1).testBit 2 && (s.reg (R.D2D_IDENT (10 + x) 0)).getLsbD 24
    | none => false
  let s := if asks then askSite x 1 (s.wr (F.CHK_STATUS_STATE x) 2) else s.wr (F.CHK_STATUS_STATE x) 3
  setWindows x s

/-- The die of a bundle is admitted (R320): RC_ADMIT, the identity record into D2D_IDENT, its serial and training records,
readmission. The bundle's sequence numbers start anew (R313; DESIGN CHOICE, log entry 147). -/
def admitDie (b : Nat) (s : State) : State :=
  let id := (s.bdl b).ident
  let serial := fieldAt id 8 8
  let again := decide (s.fenceWhy b = 4)
  let s := s.out (.sideband b 0x05 [])
  let s := each (List.range 8) (fun w s => s.setReg (R.D2D_IDENT b w) (w64 (fieldAt id (8 * w) 8))) s
  let s := (s.wr (F.D2D_BDL_STATUS_STATE b) 3).wr (F.D2D_BDL_STATUS_FENCE_WHY b) 0
  let s := s.onBdl b fun x => { x with step := 3, serial := some serial, sent := [], got := [] }
  let s := each ((bundleMods b).filter fun m => s.modState m = 2 || s.modState m = 3) (fun m s => saveTraining m serial s) s
  let s := if again then
      raiseVector 0 5 (bbEvent 0x8032 (bundleSrc b) [byte b] (s.satInc (F.D2D_BDL_STATUS_READMITS b) 1))
    else s
  let s := if b < 8 then admitStack b s else if b < 10 then admitLinkDie (b - 8) s else admitSite (b - 10) s
  settleReady b s

/-- RC_ROLES_ACK: the same roles admit the die; others fence it. -/
def rcRolesAck (b roles : Nat) (s : State) : State :=
  if (s.bdl b).step ≠ 2 then s
  else if roles = s.rolesWord b then admitDie b s
  else fenceDie b 2 s

/-- ROLLCALL_TIMEOUT: RC_QUERY or RC_ROLES has had no answer within 1 ms. -/
def rollcallTimeout (b : Nat) (s : State) : State :=
  if (s.bdl b).step = 1 || (s.bdl b).step = 2 then fenceDie b 1 s else s

/-- RC_HEALTH: a fatal fault is reported and fences the die (R322, R463). -/
def rcHealth (b : Nat) (code : BitVec 8) (s : State) : State :=
  if code.getLsbD 7 && !untilReset (s.fenceWhy b) && !s.emptyBundle b then
    reportFault 0x0601 (bundleSrc b) [] none b 0 [] (fenceDie b 8 s)
  else s

/-- A reserved roll-call message: dropped and counted (R317). -/
def reservedSideband (m : Nat) (code : BitVec 8) (s : State) : State :=
  if 1 ≤ code.toNat && code.toNat ≤ 8 then s else s.satInc (F.D2D_MOD_ERR_SB_DROP m) 1

/-! ### Lane faults (R331) -/

/-- Write what a module's repair has become to the saved settings at once, and a record. -/
def laneRecord (m lane kind : Nat) (s : State) : State :=
  let w := (s.reg (R.D2D_MOD_REPAIR m)).toNat
  let s := bbEvent 0x8030 (srcModule m) (leBytes m 2 ++ [byte lane, byte kind]) s
  saveNow (s.onSaved fun v => { v with lanes := SMap.put (fun _ => 0) v.lanes m w })

/-- Is a module Active, or one that trains to be? A lane fault that training finds takes the same steps (R316, R331). -/
def State.activeOrComing (s : State) (m : Nat) : Bool := s.modState m = 2 || (s.modState m = 1 && s.roleActive m)

/-- A module goes Off. -/
def moduleOff (m lane : Nat) (s : State) : State :=
  let was := s.activeOrComing m
  let s := (s.wr (F.D2D_MOD_STATUS_STATE m) 4).wr (F.D2D_MOD_STATUS_WIDTH m) 0
  let s := (s.onMod m fun x => { x with off := true }).onSaved fun v => { v with modOff := v.modOff ++ [m] }
  promoteFor (bundleOf m) was (laneRecord m lane 3 s)

/-- A lane is repaired by a spare: the module retrains. -/
def laneRepaired (m lane : Nat) (f : Fld) (s : State) : State :=
  laneRecord m lane 1 ((s.wr f (s.rd f + 1)).satInc (F.D2D_MOD_STATUS_RETRAINS m) 1)

/-- Number of a lane's half and direction, as HALF_LOST numbers them: 3 TX_LO, 2 TX_HI, 1 RX_LO, 0 RX_HI. -/
def halfNo (lane : Nat) (rx : Bool) : Nat := 3 - (2 * b2n rx + lane / 32)

/-- Spares used by a half and direction (R334). -/
def spareFld (m i : Nat) : Fld :=
  if i = 3 then F.D2D_MOD_REPAIR_TX_LO m else if i = 2 then F.D2D_MOD_REPAIR_TX_HI m
  else if i = 1 then F.D2D_MOD_REPAIR_RX_LO m else F.D2D_MOD_REPAIR_RX_HI m

/-- A half without a spare is lost: the module goes on at x32, or Off. -/
def halfLost (m lane i : Nat) (s : State) : State :=
  let was := s.activeOrComing m
  let s := s.wr (F.D2D_MOD_REPAIR_HALF_LOST m) (putBit (s.rd (F.D2D_MOD_REPAIR_HALF_LOST m)) i true)
  if s.widthLeft m = 0 then moduleOff m lane s
  else
    let s := if s.modState m = 1 then s else s.wr (F.D2D_MOD_STATUS_WIDTH m) (s.widthLeft m)
    promoteFor (bundleOf m) was (laneRecord m lane 2 (s.satInc (F.D2D_MOD_STATUS_RETRAINS m) 1))

/-- A lane fails before the device is ready: the module failed its first test, which is counted once (R527, R528). -/
def noteTestFail (m : Nat) (s : State) : State :=
  if s.rd F.GLB_CFG_STATUS_STATE = 0 && !(s.mod m).failed then
    (s.onMod m fun x => { x with failed := true }).satInc F.GLB_BRINGUP_TEST_FAIL 1
  else s

/-- LANE_FAILED: repair, degrade, Off, and a bundle that falls below its minimum. -/
def laneFailed (m lane : Nat) (rx : Bool) (s : State) : State :=
  let st := s.modState m
  if !(st = 1 || st = 2 || st = 3) then s
  else
    let s := noteTestFail m ((s.wr (F.D2D_MOD_ERR_LAST_LANE m) lane).wr (F.D2D_MOD_ERR_LANE_FAIL m) 1)
    let one (f : Fld) : State := if s.rd f = 0 then laneRepaired m lane f s else moduleOff m lane s
    let s :=
      if lane = 64 then one (F.D2D_MOD_REPAIR_CLK_SPARE m)
      else if lane = 65 then one (F.D2D_MOD_REPAIR_TRK_SPARE m)
      else
        let i := halfNo lane rx
        if (s.rd (F.D2D_MOD_REPAIR_HALF_LOST m)).testBit i then s
        else if s.rd (spareFld m i) < 2 then laneRepaired m lane (spareFld m i) s
        else halfLost m lane i s
    settleBundle (bundleOf m) (showBundle (bundleOf m) s)

/-! ### A die goes down (R333) -/

/-- DIE_LINK_DOWN: the die is fenced, with FLAPPING at its fourth fall within 1 s. -/
def dieLinkDown (b : Nat) (s : State) : State :=
  if s.fenceWhy b ≠ 0 && s.rd (F.D2D_BDL_STATUS_STATE b) = 4 then s
  else if !(bundleMods b).any fun m => s.modState m = 2 then s
  else
    let recent := (s.bdl b).downs.filter fun t => decide (s.now ≤ t + 1000000000)
    let s := s.onBdl b fun x => { x with downs := s.now :: recent }
    fenceDie b (if 3 ≤ recent.length then 9 else 4) s

/-! ### The commands -/

/-- MODULE_LINK_UP. -/
def execModuleLinkUp (m : ModId) (s : State) : Host.Outcome State Fault Refusal := s.done (moduleLinkUp m.val s)
/-- MODULE_TRAINING_TIMEOUT. -/
def execModuleTrainingTimeout (m : ModId) (s : State) : Host.Outcome State Fault Refusal :=
  s.done (moduleTrainingTimeout m.val s)
/-- MODULE_TRAINING_RETRY. -/
def execModuleTrainingRetry (b : BundleId) (s : State) : Host.Outcome State Fault Refusal :=
  s.done (moduleTrainingRetry b.val s)
/-- RC_IDENT. -/
def execRcIdent (b : BundleId) (rec : List Byte) (s : State) : Host.Outcome State Fault Refusal := s.done (rcIdent b.val rec s)
/-- RC_ROLES_ACK. -/
def execRcRolesAck (b : BundleId) (roles : BitVec 32) (s : State) : Host.Outcome State Fault Refusal :=
  s.done (rcRolesAck b.val roles.toNat s)
/-- ROLLCALL_TIMEOUT. -/
def execRollcallTimeout (b : BundleId) (s : State) : Host.Outcome State Fault Refusal := s.done (rollcallTimeout b.val s)
/-- RC_SPDM. -/
def execRcSpdm (b : BundleId) (seq : Nat) (last : Bool) (frag : List Byte) (s : State) :
    Host.Outcome State Fault Refusal := s.done (rcSpdm b.val seq last frag s)
/-- RC_HEALTH. -/
def execRcHealth (b : BundleId) (code : BitVec 8) (s : State) : Host.Outcome State Fault Refusal :=
  s.done (rcHealth b.val code s)
/-- RESERVED_SIDEBAND_MESSAGE. -/
def execReservedSidebandMessage (m : ModId) (code : BitVec 8) (s : State) : Host.Outcome State Fault Refusal :=
  s.done (reservedSideband m.val code s)
/-- ATTEST_TIMEOUT. -/
def execAttestTimeout (x : SiteId) (s : State) : Host.Outcome State Fault Refusal := s.done (attestTimeout x.val s)
/-- LANE_FAILED. -/
def execLaneFailed (m : ModId) (lane : Fin 66) (rx : Bool) (s : State) : Host.Outcome State Fault Refusal :=
  s.done (laneFailed m.val lane.val rx s)
/-- DIE_LINK_DOWN. -/
def execDieLinkDown (b : BundleId) (s : State) : Host.Outcome State Fault Refusal := s.done (dieLinkDown b.val s)

/-- EN_XI_AFTER_FENCE: 1 ms after a site has been fenced until device reset, its regulator is switched off (R541). -/
def execEnXiAfterFence (x : SiteId) (s : State) : Host.Outcome State Fault Refusal :=
  s.done (if untilReset (s.fenceWhy (10 + x.val)) then
    s.onPins fun y => { y with enLow := putBit y.enLow (3 + x.val) true } else s)

end Sys2Proof.Machine
end

