-- ==== Sys2Proof/Machine/Sites.lean ====
section
/-! DEFINITION. The site firewalls (R323–R328): the checks on a site die's requests, their mapping into the owner's memory, and
refusals. -/

namespace Sys2Proof.Machine

/-- Number of a kind. -/
def SiteKind.no : SiteKind → Nat
  | .rd => 0
  | .wr => 1
  | .atom => 2
  | .signal => 3

/-- Bytes that a request addresses; those of a SIGNAL are its value's. -/
def siteLen (k : SiteKind) (q : SiteReq) : Nat :=
  match k with
  | .rd => q.len
  | .wr => q.len
  | .atom => widthBits q.width.val / 8
  | .signal => 6

/-- Is a request malformed (R324): more than 128 bytes, across a 128-byte boundary, an atomic that the base die does not
perform, or a signal beyond 48 bits? -/
def siteMalformed (k : SiteKind) (q : SiteReq) : Bool :=
  let a := q.addr.toNat
  let span := q.len = 0 || 128 < q.len || 128 < a % 128 + q.len
  q.malformed ||
    match k with
    | .rd => span
    | .wr => span || decide (q.data.length ≠ q.len)
    | .atom => !atomOk q.op.val q.width.val || decide (a % siteLen k q ≠ 0)
    | .signal => decide (2 ^ 48 ≤ q.operand.toNat)

/-- Why the firewall refuses a request, in the order of R327, or the window that it passes through. -/
def State.siteCheck (s : State) (k : SiteKind) (q : SiteReq) : Except Nat Nat :=
  let x := q.site.val
  let a := q.addr.toNat
  match s.winOf x a with
  | none => .error 1
  | some w =>
    if !(s.rd (F.CHK_WIN_A_RIGHTS x w)).testBit k.no then .error 2
    else if !s.on (F.CHK_WIN_A_ACTIVE x w) then .error 3
    else if !(s.rd (F.CHK_CFG_KINDS x)).testBit k.no then .error 4
    else if k ≠ .signal && (s.winSpan x w).2 < a + siteLen k q then .error 5
    else if siteMalformed k q then .error 6
    else .ok w

/-- A refused request (R327). An inactive window is only counted; FENCE_ON_VIOL fences the site at the first of the
others. -/
def siteRefused (k : SiteKind) (q : SiteReq) (cause : Nat) (s : State) : State :=
  let x := q.site.val
  let s := siteAnswer q true [] (s.satInc (F.CHK_VIOL_COUNT x) 1)
  if cause = 3 then s
  else
    let s := ((s.wr (F.CHK_VIOL_KIND x) k.no).wr (F.CHK_VIOL_CAUSE x) cause).wr (F.CHK_VIOL_VALID x) 1
    let s := reportFault 0x0602 (srcSite x) [] none 0 q.addr.toNat [] s
    if s.on (F.CHK_CFG_FENCE_ON_VIOL x) then fenceDie (10 + x) 6 s else s

/-- The mesh router of a site's firewall. -/
def siteRouter (x : Nat) : Nat := if x = 0 then 88 else if x = 1 then 94 else if x = 2 then 96 else 102

/-- Draw what a passed request costs, from stage `n` on: 0 the site's RATE bucket, 1 the owner's injection bucket, 2 the
owner's byte bucket of the stack, which a SIGNAL does not reach; none of them where no cap is set (R203, R266, R326). The
bucket that lacks tokens is returned. -/
def siteDraw (x c : Nat) (k : SiteKind) (stack n bytes : Nat) (s : State) : Except (Nat × Nat) State :=
  let flits := if k = .atom then 2 else 1
  let rate : Option State := if 0 < n || s.rd (F.CHK_CFG_RATE x) = 0 then some s
    else drawTokens (2 ^ 20 + x) (s.rd (F.CHK_CFG_BURST x) * 4096) bytes s
  match rate with
  | none => .error (2 ^ 20 + x, bytes)
  | some s =>
    match if 1 < n then some s else drawInject (siteRouter x) 0 c flits s with
    | none => .error (injectKey (siteRouter x) 0 c, flits)
    | some s =>
      match if 2 < n || k = .signal then some s else drawBytes stack c bytes s with
      | none => .error (stack * 256 + c, bytes)
      | some s => .ok s

/-- Requests of a site that its firewall holds (R326). -/
def State.siteHeld (s : State) (x : Nat) : Nat :=
  (s.waiting.filter fun w => match w.who with
    | .request i => (siteReqOf i).any fun q => decide (q.2.site.val = x)
    | .unit _ _ => false).length

/-- A request's access is performed at its target; the code of its granule is seen, and a failing access is the owner's
fault. -/
def siteAccess (k : SiteKind) (q : SiteReq) (ecc : Ecc) (c a : Nat) (s : State) : State :=
  let l := s.locate c a
  let go (s : State) : State :=
    match siteServe k q c a s with
    | (s, some e) => memFault c e s
    | (s, none) => s
  if k = .wr then go s
  else atCode l.1 l.2 ecc go (fun s => memFault c { ch := l.1, cause := 1 } (siteAnswer q true [] s)) s

/-- A request that has passed the firewall through window `w` goes on, from stage `n` of what it draws: it is not checked
again (R325, R328). -/
def sitePassed (k : SiteKind) (q : SiteReq) (ecc : Ecc) (req : Instr) (w n : Nat) (s : State) : State :=
  let x := q.site.val
  let c := s.rd (F.CHK_WIN_A_OWNER x w)
  let a := s.siteAddr q w
  let l := s.locate c a
  match siteDraw x c k (l.1 / 32) n (siteLen k q) s with
  | .error (b, cost) => awaitTokens b cost c req s
  | .ok s =>
    if k = .signal then siteSignal q w s
    else if s.areaHeld c [(a, siteLen k q)] then holdRequest l.1 c req s
    else siteAccess k q ecc c a s

/-- A request of a site die. A die that is not admitted, or fenced, is ignored (R320, R328); beyond 1,024 requests held the
die has no credit (R326). -/
def siteRequest (k : SiteKind) (q : SiteReq) (ecc : Ecc) (req : Instr) (s : State) : State :=
  let x := q.site.val
  if !s.siteAdmitted x || 1024 ≤ s.siteHeld x || 2 ≤ s.rd F.PWR_STATUS_STATE then s
  else match s.siteCheck k q with
    | .error e => siteRefused k q e s
    | .ok w => sitePassed k q ecc req w 0 s

/-- The stage at which a request that waited for a bucket goes on. -/
def siteStage (b : Nat) : Nat :=
  if 2 ^ 22 ≤ b then 3 else if 2 ^ 20 ≤ b then 0 else if 4096 ≤ b then 1 else 2

/-! ### The commands -/

/-- SITE_RD. -/
def execSiteRd (q : SiteReq) (ecc : Ecc) (s : State) : Host.Outcome State Fault Refusal :=
  s.done (siteRequest .rd q ecc (.siteRd q ecc) s)
/-- SITE_WR. -/
def execSiteWr (q : SiteReq) (s : State) : Host.Outcome State Fault Refusal :=
  s.done (siteRequest .wr q .clean (.siteWr q) s)
/-- SITE_ATOM. -/
def execSiteAtom (q : SiteReq) (s : State) : Host.Outcome State Fault Refusal :=
  s.done (siteRequest .atom q .clean (.siteAtom q) s)
/-- SIGNAL. -/
def execSiteSignal (q : SiteReq) (s : State) : Host.Outcome State Fault Refusal :=
  s.done (siteRequest .signal q .clean (.siteSignal q) s)

end Sys2Proof.Machine
end

