-- ==== Sys2Proof/Machine/Vxe.lean ====
section
/-! DEFINITION. The vector engine at work (chapter 04): lanes, arithmetic, the bowl map, invocations, output, summaries
and kernel faults. -/

namespace Sys2Proof.Machine

/-! ### Lanes (R99, R100) -/

/-- Bits of an element at width code `w`. -/
def laneBits (w : Nat) : Nat := if w = 0 then 32 else if w = 1 then 16 else 8
/-- Lanes of a register at width code `w`. -/
def laneCount (w : Nat) : Nat := 4096 / laneBits w
/-- Lane `i` of `b` bits. -/
def laneOf (b v i : Nat) : Nat := v / 2 ^ (b * i) % 2 ^ b
/-- The register that lanes of `b` bits spell, lane 0 first. -/
def ofLanes (b : Nat) : List Nat → Nat
  | [] => 0
  | x :: xs => x % 2 ^ b + 2 ^ b * ofLanes b xs
/-- Vector register `r`. -/
def Vxe.v (x : Vxe) (r : Nat) : Nat := SMap.get (fun _ => 0) x.vreg r
/-- Set vector register `r`. -/
def Vxe.setV (x : Vxe) (r v : Nat) : Vxe := { x with vreg := SMap.put (fun _ => 0) x.vreg r v }
/-- A mask of all ones. -/
def maskOnes : Nat := 2 ^ 512 - 1
/-- Mask register `r`: m0 reads as all ones (R101). -/
def Vxe.m (x : Vxe) (r : Nat) : Nat := if r = 0 then maskOnes else SMap.get (fun _ => 0) x.mreg r
/-- Set mask register `r`: writes to m0 are ignored (R101). -/
def Vxe.setM (x : Vxe) (r v : Nat) : Vxe := if r = 0 then x else { x with mreg := SMap.put (fun _ => 0) x.mreg r v }
/-- Address register `r`. -/
def Vxe.a (x : Vxe) (r : Nat) : Nat := SMap.get (fun _ => 0) x.areg r
/-- Set address register `r`, 20 bits. -/
def Vxe.setA (x : Vxe) (r v : Nat) : Vxe := { x with areg := SMap.put (fun _ => 0) x.areg r (v % 2 ^ 20) }
/-- Is lane `i` active under mask `k` (R100)? -/
def Vxe.active (x : Vxe) (k i : Nat) : Bool := decide (i < x.vl) && (x.m k).testBit i

/-- What an instruction leaves: the engine, or a fault code of R134. -/
abbrev VRes := Except Nat Vxe

/-- Write lanes: `g i` gives the value and the flags of each lane that `act` names; the others keep theirs. -/
def Vxe.mapLanes (x : Vxe) (vd : Nat) (act : Nat → Bool) (b n : Nat) (g : Nat → Nat × Nat) : Vxe :=
  let old := x.v vd
  let r := (List.range n).map fun i => if act i then g i else (laneOf b old i, 0)
  let keep := old / 2 ^ (b * n) * 2 ^ (b * n)
  { x.setV vd (keep + ofLanes b (r.map (·.1))) with stat := x.stat ||| (r.map (·.2)).foldl (· ||| ·) 0 }

/-! ### Operands (R103, R104) -/

/-- The 32-bit immediate of a form L, or the parameter word in its place (R103). -/
def Vxe.imm (x : Vxe) (a : VArgs) : Nat := if a.isrc = 1 then x.params.getD (a.imm % 8) 0 % 2 ^ 32 else a.imm
/-- The immediate as each lane reads it (R104). -/
def Vxe.laneImm (x : Vxe) (a : VArgs) : Nat :=
  if a.form = 1 then
    if x.w = 0 then (if a.t = 0 then a.imm * 65536 else if a.t = 1 then unsignedOf 32 (signed 16 a.imm) else a.imm)
    else a.imm % 2 ^ laneBits x.w
  else x.imm a % 2 ^ laneBits x.w
/-- The second operand in lane `i`: register VS2, or the immediate. -/
def Vxe.src2 (x : Vxe) (a : VArgs) (i : Nat) : Nat :=
  if a.form = 0 then laneOf (laneBits x.w) (x.v a.vs2) i else x.laneImm a
/-- The first operand in lane `i`. -/
def Vxe.src1 (x : Vxe) (a : VArgs) (i : Nat) : Nat := laneOf (laneBits x.w) (x.v a.vs1) i
/-- The float format at the width in force (R103). -/
def Vxe.fmt (x : Vxe) : Fmt := if x.w = 0 then fp32 else if x.fk = 0 then bf16 else fp16

/-! ### Arithmetic (R107) -/

/-- The integer that an element stands for. -/
def intIn (b : Nat) (sgn : Bool) (n : Nat) : Int := if sgn then signed b n else n
/-- The lesser or the greater of two floats (R107): NaN when either is, −0 below +0. -/
def fpPick (f : Fmt) (least : Bool) (m n : Nat) : Nat × Nat :=
  let x := f.decode m
  let y := f.decode n
  if x.isNan || y.isNan then (f.nanBits, flagIf (x.isSig || y.isSig) vInv)
  else if least then (if y.below x then (n, 0) else (m, 0)) else (if x.below y then (n, 0) else (m, 0))
/-- A two-source operation on one lane: an exact float operation or an exact integer one (R107). -/
def arith2 (x : Vxe) (a : VArgs) (fop : FV → FV → FV × Bool) (iop : Int → Int → Int) (m n : Nat) : Nat × Nat :=
  let b := laneBits x.w
  if a.t = 0 then fpOut (x.fmt.result .near false (fop (x.fmt.decode m) (x.fmt.decode n)))
  else intOut b (a.t = 1) (iop (intIn b (a.t = 1) m) (intIn b (a.t = 1) n))
/-- A lane-wise two-source operation. -/
def vArith (fop : FV → FV → FV × Bool) (iop : Int → Int → Int) (a : VArgs) (x : Vxe) : VRes :=
  .ok (x.mapLanes a.vd (x.active a.mask) (laneBits x.w) (laneCount x.w) fun i => arith2 x a fop iop (x.src1 a i) (x.src2 a i))
/-- MIN and MAX. -/
def vPick (least : Bool) (a : VArgs) (x : Vxe) : VRes :=
  let b := laneBits x.w
  .ok (x.mapLanes a.vd (x.active a.mask) b (laneCount x.w) fun i =>
    let m := x.src1 a i
    let n := x.src2 a i
    if a.t = 0 then fpPick x.fmt least m n
    else
      let lt := decide (intIn b (a.t = 1) n < intIn b (a.t = 1) m)
      (if lt = least then n else m, 0))
/-- FMA rounds once; form L takes the immediate as the multiplier and VS2 as the addend (R105). -/
def vFma (a : VArgs) (x : Vxe) : VRes :=
  let b := laneBits x.w
  .ok (x.mapLanes a.vd (x.active a.mask) b (laneCount x.w) fun i =>
    let m := x.src1 a i
    let n := x.src2 a i
    let k := laneOf b (x.v (if a.form = 0 then a.vs3 else a.vs2)) i
    if a.t = 0 then fpOut (x.fmt.result .near false ((x.fmt.decode m).fma (x.fmt.decode n) (x.fmt.decode k)))
    else intOut b (a.t = 1) (intIn b (a.t = 1) m * intIn b (a.t = 1) n + intIn b (a.t = 1) k))
/-- SEL: every lane below VL takes the first source where its mask bit is 1, else the second (R105). -/
def vSel (a : VArgs) (x : Vxe) : VRes :=
  .ok (x.mapLanes a.vd (fun i => decide (i < x.vl)) (laneBits x.w) (laneCount x.w) fun i =>
    (if (x.m a.mask).testBit i then x.src1 a i else x.src2 a i, 0))

/-! ### Masks (R105) -/

/-- Write a mask whose bit `i` is `g i` for the lanes of a list, and zero elsewhere. -/
def bitsFrom (n : Nat) (g : Nat → Bool) : Nat := ofLanes 1 ((List.range n).map fun i => b2n (g i))
/-- A compare: a bit is set where the lane is active and the condition holds; every other bit clears. A signalling NaN
is an invalid operation. -/
def vCompare (fop : FV → FV → Bool) (iop : Int → Int → Bool) (a : VArgs) (x : Vxe) : VRes :=
  let b := laneBits x.w
  let val (n : Nat) : FV := x.fmt.decode n
  let r := bitsFrom 512 fun i => x.active a.mask i &&
    (if a.t = 0 then fop (val (x.src1 a i)) (val (x.src2 a i))
     else iop (intIn b (a.t = 1) (x.src1 a i)) (intIn b (a.t = 1) (x.src2 a i)))
  let sig := a.t = 0 && (List.range (laneCount x.w)).any fun i => x.active a.mask i &&
    ((val (x.src1 a i)).isSig || (val (x.src2 a i)).isSig)
  .ok { x.setM a.vd r with stat := x.stat ||| flagIf sig vInv }
/-- A mask operation. -/
def vMask (f : Nat → Nat → Nat) (a : VArgs) (x : Vxe) : VRes := .ok (x.setM a.vd (f (x.m a.vs1) (x.m a.vs2)))
/-- MCNT: bits [31:0] of vd count the set bits below VL. -/
def vCount (a : VArgs) (x : Vxe) : VRes :=
  .ok (x.setV a.vd (x.v a.vd / 2 ^ 32 * 2 ^ 32 + popCount (x.m a.vs1) x.vl % 2 ^ 32))

/-! ### CVT, PACK4, IOTA, PERM, CURVE (R108–R110, R128) -/

/-- Bits of a format of R108. -/
def cvtBits (f : Nat) : Nat := if f ≤ 1 || f = 7 then 16 else if f = 2 || f = 8 then 32 else 8
/-- Signedness of an integer format of R108. -/
def cvtSigned (f : Nat) : Bool := decide (f ≠ 6)
/-- The float format of a code of R108. -/
def cvtFmt (f : Nat) : Fmt := if f = 0 then bf16 else if f = 1 then fp16 else if f = 2 then fp32 else if f = 3 then e4m3 else e5m2
/-- Convert one element (R108). -/
def cvtOne (src dst : Nat) (k : Rnd) (sat : Bool) (v : Nat) : Nat × Nat :=
  let float (f : Nat) : Bool := decide (f ≤ 4)
  if float src && float dst then
    let x := (cvtFmt src).decode v
    let r := (cvtFmt dst).round k sat x
    (r.bits, flagIf x.isSig vInv + flagIf r.ovf vOvf + flagIf r.unf vUnf)
  else if float src then
    match (cvtFmt src).decode v with
    | .nan _ => (0, vInv)
    | .inf neg => intOut (cvtBits dst) (cvtSigned dst) (if neg then -(2 ^ 64 : Nat) else (2 ^ 64 : Nat))
    | x => intOut (cvtBits dst) (cvtSigned dst) (x.toInteger k)
  else
    let i := intIn (cvtBits src) (cvtSigned src) v
    if float dst then
      let r := (cvtFmt dst).round k sat (FV.ofInt i 0 false)
      (r.bits, flagIf r.ovf vOvf)
    else intOut (cvtBits dst) (cvtSigned dst) i
/-- CVT; `ctr` gives the place of its free random bits. -/
def vCvt (ctr : Nat) (a : VArgs) (x : Vxe) : VRes :=
  let m := x.imm a
  let src := bits m 3 0
  let dst := bits m 7 4
  let bs := cvtBits src
  let bd := cvtBits dst
  if 4096 < x.vl * max bs bd then .error 3
  else
    let old := x.v a.vs1
    .ok (x.mapLanes a.vd (x.active a.mask) bd (4096 / max bs bd) fun i =>
      cvtOne src dst (roundOf (bit m 8) ctr i) (bit m 9) (laneOf bs old i))
/-- The 4-bit code of lane `j` for PACK4 with its flag: a lane outside 0 to 15 sets SAT; beyond VL it is zero (R109). -/
def Vxe.code4 (x : Vxe) (a : VArgs) (j : Nat) : Nat × Nat :=
  if j < x.vl then (laneOf 8 (x.v a.vs1) j % 16, flagIf (decide (15 < laneOf 8 (x.v a.vs1) j)) vSat) else (0, 0)
/-- PACK4: bytes of two 4-bit codes (R109). -/
def vPack (a : VArgs) (x : Vxe) : VRes :=
  .ok (x.mapLanes a.vd (fun i => decide (2 * i < x.vl) && (x.m a.mask).testBit i) 8 512 fun i =>
    (16 * (x.code4 a (2 * i + 1)).1 + (x.code4 a (2 * i)).1, (x.code4 a (2 * i)).2 ||| (x.code4 a (2 * i + 1)).2))
/-- IOTA. -/
def vIota (a : VArgs) (x : Vxe) : VRes :=
  if x.w = 2 && 256 < x.vl then .error 3
  else .ok (x.mapLanes a.vd (x.active a.mask) (laneBits x.w) (laneCount x.w) fun i => (i, 0))
/-- The index of lane `i` for PERM: at width 8 a 16-bit value of the pair of registers (R110). -/
def Vxe.permIdx (x : Vxe) (a : VArgs) (i : Nat) : Nat :=
  if x.w = 2 then (if i < 256 then laneOf 16 (x.v a.vs2) i else laneOf 16 (x.v (a.vs2 + 1)) (i - 256))
  else laneOf (laneBits x.w) (x.v a.vs2) i
/-- PERM. -/
def vPerm' (a : VArgs) (x : Vxe) : VRes :=
  let trap := bit (fieldAt x.image 1 1) 0
  let b := laneBits x.w
  if trap && (List.range (laneCount x.w)).any (fun i => x.active a.mask i && decide (x.vl ≤ x.permIdx a i)) then .error 4
  else
    let v := x.v a.vs1
    .ok (x.mapLanes a.vd (x.active a.mask) b (laneCount x.w) fun i =>
      if x.permIdx a i < x.vl then (laneOf b v (x.permIdx a i), 0) else (0, vPerm))

/-- One FP32 operation of a curve: the value and the flags. -/
def crvOp (r : FV × Bool) : FV × Nat :=
  let q := fp32.result .near false r
  (fp32.decode q.bits, (fpOut q).2)
/-- A tail: y + slope × d, each operation rounded; a slope of zero returns y (R128). -/
def crvTail (y slope x x0 : FV) : FV × Nat :=
  if slope.isZero then (y, 0)
  else
    let d := crvOp (x.add x0.flip)
    let p := crvOp (slope.mul d.1)
    let r := crvOp (y.add p.1)
    (r.1, d.2 ||| p.2 ||| r.2)
/-- A segment: fma(fma(c, t, b), t, a). -/
def crvSeg (img : List Byte) (k : Nat) (t : FV) : FV × Nat :=
  let f (i : Nat) : FV := fp32.decode (fieldAt img (0x30 + 12 * k + 4 * i) 4)
  let p := crvOp ((f 2).fma t (f 1))
  let r := crvOp (p.1.fma t (f 0))
  (r.1, p.2 ||| r.2)
/-- A curve at an FP32 value given by its bits (R128). -/
def curveAt (img : List Byte) (n : Nat) : FV × Nat :=
  let f (i : Nat) : FV := fp32.decode (fieldAt img i 4)
  let x := fp32.decode n
  if x.isNan then (.nan false, flagIf x.isSig vInv)
  else if fieldAt img 1 1 = 0 then
    if x.lt (f 0x10) then crvTail (f 0x18) (f 0x1C) x (f 0x10)
    else if !x.lt (f 0x14) then crvTail (f 0x20) (f 0x24) x (f 0x14)
    else
      let step := ((f 0x14).add (f 0x10).flip).1
      let e : Int := (match step with | .fin _ m e => (m.log2 : Int) + e | _ => 0) - 8
      let u : FV := match (x.add (f 0x10).flip).1 with | .fin s m g => .fin s m (g - e) | y => y
      let k := u.floor
      let t := crvOp ((u.add (FV.ofInt k 0 false).flip).1, false)
      crvSeg img k.toNat t.1
  else
    let b : Int := (bits n 30 23 : Int) - (fieldAt img 2 1 : Int)
    if x.isZero || x.neg || b < 0 then (f 0x18, 0)
    else if 31 < b then (f 0x20, 0)
    else crvSeg img (8 * b.toNat + bits n 22 20) (.fin false (n % 2 ^ 20) (-20))
/-- CURVE on one lane: at width 16 it is widened, and rounds once into the format. -/
def curveLane (f : Fmt) (w : Nat) (img : List Byte) (v : Nat) : Nat × Nat :=
  let n := if w = 0 then v else (fp32.round .near false (f.decode v)).bits
  let sig := flagIf (w ≠ 0 && (f.decode v).isSig) vInv
  let r := curveAt img n
  let q := f.round .near false r.1
  (q.bits, sig ||| r.2 ||| (fpOut q).2)
/-- CURVE with the slot's image. -/
def vCurve (img : List Byte) (a : VArgs) (x : Vxe) : VRes :=
  .ok (x.mapLanes a.vd (x.active a.mask) (laneBits x.w) (laneCount x.w) fun i => curveLane x.fmt x.w img (x.src1 a i))

/-! ### The bowl (R118, R119) -/

/-- Regions of the bowl map: first byte, bytes behind it, writable. -/
def vRegions (entry : Bool) : List (Nat × Nat × Bool) :=
  [(0, 0xBF000, true), (0xBF000, 0x1000, false)] ++ (if entry then [(0xC0000, 0x10000, true)] else [])
/-- Check an access to the bowl: a fault code of R134, or none. BOWL_RANGE is looked at first (DESIGN CHOICE, log entry 41). -/
def bowlCheck (entry : Bool) (a n : Nat) (store : Bool) : Option Nat :=
  if !((vRegions entry).any fun r => decide (r.1 ≤ a) && decide (a + n ≤ r.1 + r.2.1) && (!store || r.2.2)) then some 1
  else if a % 64 ≠ 0 then some 2 else none
/-- Byte `a` of the map. -/
def Tile.bowl (x : Tile) (a : Nat) : Byte :=
  if a < 0xBF000 then SMap.get (fun _ => 0) x.vxe.scratch a
  else if a < 0xC0000 then SMap.get (fun _ => 0) x.vxe.page (a - 0xBF000)
  else match x.ftq with
    | [] => 0
    | e :: _ => SMap.get (fun _ => 0) e.data (a - 0xC0000)
/-- Store a byte of scratch or of the current entry. -/
def Tile.setBowl (x : Tile) (a : Nat) (b : Byte) : Tile :=
  if a < 0xBF000 then { x with vxe := { x.vxe with scratch := SMap.put (fun _ => 0) x.vxe.scratch a b } }
  else match x.ftq with
    | [] => x
    | e :: es => { x with ftq := { e with data := SMap.put (fun _ => 0) e.data (a - 0xC0000) b } :: es }
/-- Element bytes of VLD and VST (R105). -/
def Vxe.moveBytes (x : Vxe) (a : VArgs) : Nat :=
  if a.t = 0 then laneBits x.w / 8 else if a.t = 1 then 1 else if a.t = 2 then 2 else 4
/-- The address register advances by the signed immediate. -/
def Vxe.advance (x : Vxe) (a : VArgs) : Vxe :=
  x.setA a.vs1 (unsignedOf 20 ((x.a a.vs1 : Int) + signed 32 (x.imm a)))
/-- The entry region may be accessed: an entry is current and FREE has not run (R123). -/
def Tile.entryOpen (x : Tile) : Bool := !x.vxe.freed && !x.ftq.isEmpty
/-- VLD: VL elements from the bowl; those beyond the register go nowhere (R105, R118). -/
def vLoad (a : VArgs) (x : Tile) : Except Nat Tile :=
  let v := x.vxe
  let z := v.moveBytes a
  let p := v.a a.vs1
  match bowlCheck x.entryOpen p (v.vl * z) false with
  | some k => .error k
  | none =>
    let el (i : Nat) : Nat := leNat ((List.range z).map fun j => x.bowl (p + i * z + j))
    .ok { x with vxe := (v.mapLanes a.vd (v.active a.mask) (8 * z) (512 / z) fun i => (el i, 0)).advance a }
/-- VST: VL elements into the bowl; those beyond the register have free values, from place `ctr` (R105, R118). -/
def vStore (ctr : Nat) (a : VArgs) (x : Tile) : Except Nat Tile :=
  let v := x.vxe
  let z := v.moveBytes a
  let p := v.a a.vs1
  match bowlCheck x.entryOpen p (v.vl * z) true with
  | some k => .error k
  | none =>
    let el (i : Nat) : Nat := if i < 512 / z then laneOf (8 * z) (v.v a.vd) i else (Config.freeBits (ctr + i)).toNat
    let x := (List.range v.vl).foldl (fun y i =>
      if v.active a.mask i then
        (leBytes (el i) z).zipIdx.foldl (fun y b => y.setBowl (p + i * z + b.2) b.1) y
      else y) x
    .ok { x with vxe := x.vxe.advance a }

/-! ### Kernel faults (R134, R135) -/

/-- Does a tile compute its head billet, so that the billet is in progress (R135)? -/
def State.computing (s : State) (t : Nat) : Bool :=
  let x := s.tile t
  s.tileServes t && !x.ended && x.opndAt.isNone

/-- Discard what the tiles of a partition hold, and what is saved, of an operation, kernels that run included; a billet in
progress is finished (R135). -/
def dropWork (c q p : Nat) (s : State) : State :=
  let mine (d r : Nat) : Bool := d = c && r = q
  let rest (keep : Bool) (l : List Billet) : List Billet :=
    match l with
    | [] => []
    | b :: bs => (if keep && mine b.ctx b.seq then [b] else [b].filter fun b => !mine b.ctx b.seq) ++
        bs.filter fun b => !mine b.ctx b.seq
  let ent (l : List FtqEntry) : List FtqEntry := l.filter fun e => !mine e.ctx e.seq
  let quiet (v : Vxe) : Vxe :=
    if v.opKey = some (c, q) then { v with run := false, summs := [], wout := none, loops := [] } else v
  let s := s.onCtx c fun x =>
    { x with chains := x.chains.filter (fun k => k.seq != q),
             saved := x.saved.map fun e => (e.1, { ftq := ent e.2.ftq, vxe := quiet e.2.vxe }) }
  each (s.tilesOf p) (fun t s =>
    let keep := s.computing t
    let s := s.onTile t fun x =>
      let head := x.deal.head?.any fun b => mine b.ctx b.seq
      dropOpnds { x with deal := rest keep x.deal, banks := x.banks.filter (fun k => !mine k.ctx k.seq),
                         early := x.early.filter (fun k => !mine k.ctx k.seq),
                         sent := x.sent.filter (fun k => !mine k.ctx k.seq), ftq := ent x.ftq,
                         recompute := x.recompute && !(head && !keep), deferred := x.deferred && !(head && !keep),
                         pairPart := if head && !keep then none else x.pairPart }
    let s := if (s.tile t).vxe.run && (s.tile t).vxe.opKey = some (c, q) then
        (((s.onVxe t fun v => { v with run := false, summs := [], wout := none, loops := [] }).wr
          (F.VXE_STATUS_STATE t) 1).wr (F.VXE_STATUS_PEND_SUMM t) 0).wr (F.VXE_STATUS_LOOP_DEPTH t) 0
      else s
    refillQueue t s) s

/-- Record a fault of a tile's vector engine in VXE_FAULT (R134, R143). -/
def vxeFaultSeen (t code c : Nat) (s : State) : State :=
  let v := (s.tile t).vxe
  let s := ((s.wr (F.VXE_FAULT_CODE t) code).wr (F.VXE_FAULT_CTX t) c).wr (F.VXE_FAULT_KSLOT t) v.kslot
  (s.wr (F.VXE_FAULT_PC t) v.pc).wr (F.VXE_FAULT_VALID t) 1

/-- A kernel fault: VXE_FAULT is recorded, the operation's work is discarded, and it ends with VXE_FAULT. -/
def kernelFault (t code : Nat) (s : State) : State :=
  let v := (s.tile t).vxe
  match v.opKey with
  | none => s
  | some (c, q) =>
    let s := dropWork c q (s.partOf c) (vxeFaultSeen t code c s)
    let s := s.wr (F.VXE_STATUS_STATE t) 5
    endOp c q stVxe (code + 256 * t) 0 s

/-! ### Issue (R106, R111) -/

/-- The program counter behind an instruction: a body that ends is run again while runs are left. -/
def closeAt (pc : Nat) : List Loop → Nat × List Loop
  | [] => (pc, [])
  | l :: ls =>
    if l.next = pc then
      (if 0 < l.left then (l.first, { l with left := l.left - 1 } :: ls) else closeAt pc ls)
    else (pc, l :: ls)
/-- Bring the tile's VXE registers to what the engine holds (R140, R142). -/
def syncVxe (t : Nat) (s : State) : State :=
  let v := (s.tile t).vxe
  let s := (s.wr (F.VXE_STATUS_PC t) v.pc).wr (F.VXE_STATUS_LOOP_DEPTH t) v.loops.length
  let s := (s.wr (F.VXE_STATUS_PEND_SUMM t) v.summs.length).setReg (R.VXE_STAT t) (w64 v.stat)
  match v.opKey with
  | none => s
  | some (c, q) => s.onOp c q fun o => { o with xflags := o.xflags ||| v.stat }
/-- Pass on by `len` words after `cyc` cycles. -/
def passOn (t len cyc : Nat) (s : State) : State :=
  syncVxe t (s.onVxe t fun v =>
    let r := closeAt (v.pc + len) v.loops
    { v with pc := r.1, loops := r.2, cycles := v.cycles + cyc })
/-- Does the tile's vector engine run a kernel, neither waiting for its port nor stopped (R122, R138, R487)? -/
def State.vxeRuns (s : State) (t : Nat) : Bool :=
  s.atL0 && (s.tile t).vxe.run && (s.tile t).vxe.wout.isNone && !(s.tile t).stopped
/-- Issue an instruction: a form that R102 to R105 refuse is refused; a kernel that runs executes it with `body`, which
answers the state behind it or a fault code. -/
def issue (op t cyc : Nat) (f : VForm) (body : VArgs → State → Except Nat State) (s : State) :
    Host.Outcome State Fault Refusal :=
  if !formOk op (vargs f) (s.tile t).vxe.w then .refused .reservedForm
  else if !s.vxeRuns t then s.done s
  else match body (vargs f) s with
    | .error k => s.done (kernelFault t k s)
    | .ok u => s.done (passOn t (vargs f).len cyc u)
/-- Issue an instruction that acts on the engine alone. -/
def issueV (op t cyc : Nat) (f : VForm) (body : VArgs → Vxe → VRes) (s : State) : Host.Outcome State Fault Refusal :=
  issue op t cyc f (fun a s => match body a (s.tile t).vxe with
    | .error k => .error k
    | .ok v => .ok (s.onVxe t fun _ => v)) s
/-- Issue an instruction that acts on the tile. -/
def issueT (op t : Nat) (f : VForm) (body : VArgs → Tile → Except Nat Tile) (s : State) :
    Host.Outcome State Fault Refusal :=
  issue op t 1 f (fun a s => match body a (s.tile t) with
    | .error k => .error k
    | .ok x => .ok (s.onTile t fun _ => x)) s

/-! ### Control (R100, R111) -/

/-- SETVL. -/
def vSetvl (a : VArgs) (x : Vxe) : VRes :=
  let n := if a.isrc = 1 then x.params.getD (a.vd % 8) 0 % 1024 else bits a.imm 15 6
  let w := bits a.imm 1 0
  .ok { x with w := w, fk := bits a.imm 2 2, vl := min n (laneCount w) }
/-- The word behind the `n` instructions that begin at word `p` of the running kernel. -/
def Vxe.behind (x : Vxe) (p n : Nat) : Nat :=
  match vparse p ((kernelWords x.image).drop p) n with
  | some xs => match xs.getLast? with
    | some i => i.pos + i.a.len
    | none => p
  | none => p
/-- LOOP: a body run COUNT times; none of it when COUNT is 0. -/
def vLoop (a : VArgs) (x : Vxe) : VRes :=
  let count := if a.isrc = 1 then x.params.getD (a.vd % 8) 0 % 65536 else a.imm % 65536
  let first := x.pc + 2
  let next := x.behind first (a.imm / 65536)
  if count = 0 || next = first then .ok { x with pc := next - 2 }
  else .ok { x with loops := { first := first, next := next, left := count - 1 } :: x.loops }

/-! ### Output and summaries (R122–R124, R129) -/

/-- Bits of an element of WOUT's size code (R122). -/
def woutBits (k : Nat) : Nat := if k = 0 then 32 else if k = 1 then 16 else if k = 2 then 8 else 4
/-- WOUT with element-size code `k`: its size is checked, the port begins to read the block (R122). OUT_RANGE is looked at
before BOWL_RANGE and ALIGN (DESIGN CHOICE, log entry 41). -/
def vWout (t k : Nat) (a : VArgs) (s : State) : Except Nat State :=
  let v := (s.tile t).vxe
  match v.opKey with
  | none => .ok s
  | some (c, q) =>
    match s.op? c q with
    | none => .ok s
    | some o =>
      let row := packed' o.n (woutBits k)
      if o.ldc < 128 * ceilDiv row 128 || !s.inRange c o.cAddr ((o.m - 1) * o.ldc + row) then .error 6
      else match bowlCheck (s.tile t).entryOpen (v.a a.vs1) (16384 * woutBits k / 8) false with
        | some e => .error e
        | none =>
          let s := s.onTile t fun x =>
            { x with vxe := { x.vxe with wout := some (v.a a.vs1, k) },
                     ftq := if x.vxe.freed then x.ftq else match x.ftq with
                       | [] => []
                       | e :: es => { e with writing := true } :: es }
          .ok (s.wr (F.VXE_STATUS_STATE t) 3)
where
  /-- Bytes of `n` packed elements of `w` bits. -/
  packed' (n w : Nat) : Nat := ceilDiv (n * w) 8

/-- Is there room in the Mandrel's intake for the tile's summaries (R130)? -/
def State.intakeRoom (s : State) (t : Nat) : Bool :=
  decide ((s.group (t / 8)).intake.length + (s.tile t).vxe.summs.length ≤ 1024)
/-- A release waits for room in the intake (R130). -/
def awaitIntake (t : Nat) (s : State) : State := (s.onVxe t fun v => { v with full := true }).wr (F.VXE_STATUS_STATE t) 4
/-- Release the tile's summaries to the Mandrel of its group (R124). -/
def releaseSumms (t : Nat) (s : State) : State :=
  let r := (s.tile t).vxe.summs.map fun x => { x with time := s.now }
  let s := s.onGroup (t / 8) fun g => { g with intake := g.intake ++ r }
  (s.onVxe t fun v => { v with summs := [] }).wr (F.VXE_STATUS_PEND_SUMM t) 0

/-- WOUT_READ_DONE (R122, R124): the block goes to its place in C, the summaries are released, the kernel goes on. -/
def woutReadDone (t : Nat) (s : State) : State :=
  let x := s.tile t
  match x.vxe.wout, x.vxe.opKey with
  | some (p, k), some (c, q) =>
    match s.op? c q with
    | none => s
    | some o =>
      if !s.intakeRoom t then awaitIntake t s
      else
        let w := woutBits k
        let bs := (List.range (16384 * w / 8)).map fun i => x.bowl (p + i)
        match writeBlock t c o x.vxe.block.1 x.vxe.block.2.1 w bs s with
        | (s, some e) => opMemError c q e 0 s
        | (s, none) =>
          let s := s.onTile t fun x =>
            { x with vxe := { x.vxe with wout := none, full := false },
                     ftq := if x.vxe.freed then x.ftq else match x.ftq with
                       | [] => []
                       | e :: es => { e with writing := false, written := true } :: es }
          let s := (releaseSumms t s).wr (F.VXE_STATUS_STATE t) 2
          blockDone c q x.vxe.block.1 x.vxe.block.2.1 x.vxe.bflags s
  | _, _ => s

/-- FREE (R123). -/
def vFree (t : Nat) (s : State) : State :=
  if (s.tile t).vxe.freed then s
  else freeEntry t (s.onVxe t fun v => { v with freed := true })

/-- SUMM: a record, held until release (R124, R129). -/
def vSumm (t : Nat) (a : VArgs) (s : State) : State :=
  let v := (s.tile t).vxe
  let r : Summary := { ident := v.block.2.2, time := 0, value := v.v a.vd % 2 ^ 32, tag := a.imm, tile := t,
                       ctx := (v.opKey.getD (0, 0)).1, typ := a.t }
  s.onVxe t fun v => { v with summs := v.summs ++ [r] }

/-- END (R123, R124): summaries not yet released are, the entry is freed, the block counts as ended. The end waits while
the intake is full. -/
def vEnd (t : Nat) (s : State) : State :=
  let v := (s.tile t).vxe
  if !s.intakeRoom t then awaitIntake t s
  else match v.opKey with
    | none => s
    | some (c, q) =>
      let s := syncVxe t (releaseSumms t s)
      let s := s.onVxe t fun v => { v with run := false, loops := [], full := false }
      let s := if v.freed then s else freeEntry t s
      let s := (s.wrapInc (F.VXE_INVOC_COUNT t) 1).wr (F.VXE_STATUS_STATE t) 1
      blockDone c q v.block.1 v.block.2.1 v.bflags s

/-! ### Invocation (R119, R121) -/

/-- The areas of a block's side vectors (R119). -/
def sideAreas (o : Op) (e : FtqEntry) : List (Nat × Nat) :=
  let b := o.blk
  let area (base f first count : Nat) : List (Nat × Nat) :=
    if f = 0 then [] else [(base + first * sideBytes f, min 128 (count - first) * sideBytes f)]
  area (fieldAt b 8 8) (epiSides b).1 (128 * e.col) o.n ++ area (fieldAt b 16 8) (epiSides b).2 (128 * e.row) o.m

/-- Side elements of a block as FP32 bits, zero beyond the edge (R119). -/
def sideRead (s : State) (c base f first count : Nat) : Except MemErr (List Nat) :=
  let n := min 128 (count - first)
  if f = 0 then .ok []
  else match s.ctxRead c (base + first * sideBytes f) (n * sideBytes f) with
    | .error e => .error e
    | .ok bs => .ok ((List.range n).map fun i =>
        if f = 1 then fieldAt bs (4 * i) 4 else fieldAt bs (2 * i) 2 * 65536)

/-- The sequencer page (R119). -/
def seqPage (o : Op) (e : FtqEntry) (ns ms : List Nat) : SMap Byte :=
  let head := leBytes e.ident 8 ++ leBytes e.row 2 ++ leBytes e.col 2 ++ leBytes (min 128 (o.m - 128 * e.row)) 2 ++
    leBytes (min 128 (o.n - 128 * e.col)) 2 ++ [byte e.flags]
  let bs := padTo 0x800 head ++ padTo 512 (ns.flatMap fun v => leBytes v 4) ++ padTo 512 (ms.flatMap fun v => leBytes v 4)
  bs.zipIdx.filterMap fun p => if p.1 = 0 then none else some (p.2, p.1)

/-- A kernel begins on the oldest entry of a tile, its side vectors read (R119, R121). -/
def beginKernel (t : Nat) (o : Op) (e : FtqEntry) (ns ms : List Nat) (s : State) : State :=
  let b := o.blk
  let k := epiSlot b
  let img := (SMap.get (fun _ => Slot.empty) (s.ctx e.ctx).krn k).image
  let first := decide ((s.tile t).vxe.opKey ≠ some (e.ctx, e.seq))
  let s := s.onVxe t fun v =>
    let v := if first then { v with vreg := [], mreg := [], areg := [], w := 0, fk := 0, vl := 0, stat := 0 } else v
    { v with page := seqPage o e ns ms, pc := 0, cycles := 0, loops := [], run := true, freed := false,
             image := img, params := (List.range 8).map (fun i => fieldAt b (0x18 + 4 * i) 4), kslot := k,
             opKey := some (e.ctx, e.seq), block := (e.row, e.col, e.ident), summs := [], wout := none, full := false,
             bflags := e.flags }
  let s := ((s.wr (F.VXE_STATUS_STATE t) 2).wr (F.VXE_STATUS_KSLOT t) k).wr (F.VXE_CTL_PERM_TRAP t) (fieldAt img 1 1)
  syncVxe t s

/-- KERNEL_INVOCATION (R121): the oldest entry of a tile whose vector engine is free. The tile of a pair's odd group frees its
entry without one (R137). -/
def kernelInvocation (t : Nat) (s : State) : State :=
  let x := s.tile t
  match x.ftq with
  | [] => s
  | e :: _ =>
    match s.op? e.ctx e.seq with
    | none => freeEntry t s
    | some o =>
      if !o.hasKernel || x.vxe.run || x.stopped || o.done.isSome || !s.atL0 then s
      else if s.secondary t then freeEntry t s
      else
        let b := o.blk
        let areas := sideAreas o e
        match access (tilePayer e.ctx e.seq t 2) (areas.map fun a => flitsOf a.1 a.2).sum areas [] s with
        | (false, s) => s
        | (true, s) =>
          match sideRead s e.ctx (fieldAt b 8 8) (epiSides b).1 (128 * e.col) o.n,
                sideRead s e.ctx (fieldAt b 16 8) (epiSides b).2 (128 * e.row) o.m with
          | .error m, _ => opMemError e.ctx e.seq m 0 s
          | _, .error m => opMemError e.ctx e.seq m 0 s
          | .ok ns, .ok ms => beginKernel t o e ns ms s

/-- KERNEL_LONG (R125). -/
def kernelLong (t : Nat) (s : State) : State := if (s.tile t).vxe.run then kernelFault t 5 s else s

/-- SUMMARY_RECORD (R130): the Mandrel of the tile's group folds the oldest record of the tile in its intake. -/
def summaryRecord (t : Nat) (s : State) : State :=
  match (s.group (t / 8)).intake.find? fun r => r.tile = t with
  | none => s
  | some r =>
    s.onGroup (t / 8) fun g =>
      { g with intake := g.intake.erase r,
               accs := SMap.upd (fun _ => Acc.init) g.accs (8 * r.ctx + r.tag / 8192) fun a => foldRecord a r }

/-! ### The commands -/

/-- VXE_NOP. -/
def execVxeNop (t : TileId) (f : VForm) (s : State) : Host.Outcome State Fault Refusal :=
  issueV 0x00 t.val 1 f (fun _ x => .ok x) s
/-- ADD. -/
def execAdd (t : TileId) (f : VForm) (s : State) : Host.Outcome State Fault Refusal :=
  issueV 0x01 t.val 1 f (vArith FV.add (· + ·)) s
/-- MUL. -/
def execMul (t : TileId) (f : VForm) (s : State) : Host.Outcome State Fault Refusal :=
  issueV 0x02 t.val 1 f (vArith FV.mul (· * ·)) s
/-- FMA. -/
def execFma (t : TileId) (f : VForm) (s : State) : Host.Outcome State Fault Refusal := issueV 0x03 t.val 1 f vFma s
/-- MIN. -/
def execMin (t : TileId) (f : VForm) (s : State) : Host.Outcome State Fault Refusal :=
  issueV 0x04 t.val 1 f (vPick true) s
/-- MAX. -/
def execMax (t : TileId) (f : VForm) (s : State) : Host.Outcome State Fault Refusal :=
  issueV 0x05 t.val 1 f (vPick false) s
/-- SEL. -/
def execSel (t : TileId) (f : VForm) (s : State) : Host.Outcome State Fault Refusal := issueV 0x06 t.val 1 f vSel s
/-- CMPEQ. -/
def execCmpeq (t : TileId) (f : VForm) (s : State) : Host.Outcome State Fault Refusal :=
  issueV 0x08 t.val 1 f (vCompare FV.eq fun a b => decide (a = b)) s
/-- CMPLT. -/
def execCmplt (t : TileId) (f : VForm) (s : State) : Host.Outcome State Fault Refusal :=
  issueV 0x09 t.val 1 f (vCompare FV.lt fun a b => decide (a < b)) s
/-- CMPLE. -/
def execCmple (t : TileId) (f : VForm) (s : State) : Host.Outcome State Fault Refusal :=
  issueV 0x0A t.val 1 f (vCompare FV.le fun a b => decide (a ≤ b)) s
/-- CMPUN: no integer is a NaN. -/
def execCmpun (t : TileId) (f : VForm) (s : State) : Host.Outcome State Fault Refusal :=
  issueV 0x0B t.val 1 f (vCompare (fun a b => a.isNan || b.isNan) fun _ _ => false) s
/-- MAND. -/
def execMand (t : TileId) (f : VForm) (s : State) : Host.Outcome State Fault Refusal :=
  issueV 0x10 t.val 1 f (vMask (· &&& ·)) s
/-- MOR. -/
def execMor (t : TileId) (f : VForm) (s : State) : Host.Outcome State Fault Refusal :=
  issueV 0x11 t.val 1 f (vMask (· ||| ·)) s
/-- MXOR. -/
def execMxor (t : TileId) (f : VForm) (s : State) : Host.Outcome State Fault Refusal :=
  issueV 0x12 t.val 1 f (vMask (· ^^^ ·)) s
/-- MNOT. -/
def execMnot (t : TileId) (f : VForm) (s : State) : Host.Outcome State Fault Refusal :=
  issueV 0x13 t.val 1 f (vMask fun m _ => maskOnes ^^^ m) s
/-- MCNT. -/
def execMcnt (t : TileId) (f : VForm) (s : State) : Host.Outcome State Fault Refusal := issueV 0x14 t.val 1 f vCount s
/-- CVT whose parameter word names a reserved format, or has reserved bits set: R108 states no result, so the destination
register and the flags it raises are free values, and the kernel goes on (DESIGN CHOICE, log entry 143). -/
def vCvtFree (ctr : Nat) (a : VArgs) (x : Vxe) : VRes :=
  let v := ofLanes 64 ((List.range 64).map fun i => (Config.freeBits (ctr + i)).toNat)
  .ok { x.setV a.vd v with stat := x.stat ||| (Config.freeBits (ctr + 64)).toNat % 32 }
/-- Does R108 state a result for a CVT word? -/
def cvtStated (m : Nat) : Bool := decide (bits m 3 0 ≤ 8) && decide (bits m 7 4 ≤ 8) && decide (m < 1024)
/-- CVT: stochastic rounding draws its random bits. -/
def execCvt (t : TileId) (f : VForm) (s : State) : Host.Outcome State Fault Refusal :=
  let m := (s.tile t.val).vxe.imm (vargs f)
  if cvtStated m then issueV 0x18 t.val 1 f (vCvt s.freeCtr) (if bit m 8 then s.drawnN 512 else s)
  else issueV 0x18 t.val 1 f (vCvtFree s.freeCtr) (s.drawnN 65)
/-- PACK4. -/
def execPack4 (t : TileId) (f : VForm) (s : State) : Host.Outcome State Fault Refusal := issueV 0x19 t.val 1 f vPack s
/-- IOTA. -/
def execIota (t : TileId) (f : VForm) (s : State) : Host.Outcome State Fault Refusal := issueV 0x1A t.val 1 f vIota s
/-- PERM. -/
def execPerm (t : TileId) (f : VForm) (s : State) : Host.Outcome State Fault Refusal := issueV 0x1C t.val 2 f vPerm' s
/-- CURVE: the slot of the context that the running kernel belongs to. -/
def execCurve (t : TileId) (f : VForm) (s : State) : Host.Outcome State Fault Refusal :=
  let c := ((s.tile t.val).vxe.opKey.getD (0, 0)).1
  issueV 0x1D t.val 2 f (vCurve (SMap.get (fun _ => Slot.empty) (s.ctx c).crv (vargs f).vs2).image) s
/-- VLD. -/
def execVld (t : TileId) (f : VForm) (s : State) : Host.Outcome State Fault Refusal := issueT 0x20 t.val f vLoad s
/-- VST. -/
def execVst (t : TileId) (f : VForm) (s : State) : Host.Outcome State Fault Refusal :=
  issueT 0x21 t.val f (vStore s.freeCtr) (if 512 < (s.tile t.val).vxe.vl * (s.tile t.val).vxe.moveBytes (vargs f) then s.drawnN 512 else s)
/-- SETA. -/
def execSeta (t : TileId) (f : VForm) (s : State) : Host.Outcome State Fault Refusal :=
  issueV 0x22 t.val 1 f (fun a x => .ok (x.setA a.vd (x.imm a))) s
/-- LOOP. A fifth level is refused, as no kernel holds one (R115). -/
def execLoopBody (t : TileId) (f : VForm) (s : State) : Host.Outcome State Fault Refusal :=
  if s.vxeRuns t.val && decide (4 ≤ (s.tile t.val).vxe.loops.length) then .refused .reservedForm
  else issueV 0x28 t.val 1 f vLoop s
/-- SETVL. -/
def execSetvl (t : TileId) (f : VForm) (s : State) : Host.Outcome State Fault Refusal := issueV 0x30 t.val 1 f vSetvl s
/-- FREE. -/
def execFree (t : TileId) (f : VForm) (s : State) : Host.Outcome State Fault Refusal :=
  issue 0x31 t.val 1 f (fun _ s => .ok (vFree t.val s)) s
/-- WOUT. A parameter word beyond the size codes names no element size: the code is a free value (DESIGN CHOICE, log entry
143). -/
def execWout (t : TileId) (f : VForm) (s : State) : Host.Outcome State Fault Refusal :=
  let m := (s.tile t.val).vxe.imm (vargs f)
  if m < 4 then issue 0x32 t.val 1 f (vWout t.val m) s
  else issue 0x32 t.val 1 f (vWout t.val (s.free.toNat % 4)) s.drawn
/-- WOUT_READ_DONE. -/
def execWoutReadDone (t : TileId) (s : State) : Host.Outcome State Fault Refusal := s.done (woutReadDone t.val s)
/-- SUMM. A fifth summary is refused, as no kernel holds five (R115). -/
def execSumm (t : TileId) (f : VForm) (s : State) : Host.Outcome State Fault Refusal :=
  if s.vxeRuns t.val && decide (4 ≤ (s.tile t.val).vxe.summs.length) then .refused .reservedForm
  else issue 0x34 t.val 1 f (fun a s => .ok (vSumm t.val a s)) s
/-- END: the invocation ends; nothing is passed on to. -/
def execEndKernel (t : TileId) (f : VForm) (s : State) : Host.Outcome State Fault Refusal :=
  if !formOk 0x3F (vargs f) (s.tile t.val).vxe.w then .refused .reservedForm
  else if !s.vxeRuns t.val then s.done s
  else s.done (vEnd t.val s)
/-- KERNEL_INVOCATION. -/
def execKernelInvocation (t : TileId) (s : State) : Host.Outcome State Fault Refusal := s.done (kernelInvocation t.val s)
/-- KERNEL_LONG. -/
def execKernelLong (t : TileId) (s : State) : Host.Outcome State Fault Refusal := s.done (kernelLong t.val s)
/-- SUMMARY_RECORD. -/
def execSummaryRecord (t : TileId) (s : State) : Host.Outcome State Fault Refusal := s.done (summaryRecord t.val s)

end Sys2Proof.Machine
end

