-- ==== Sys2Proof/Machine/Noc.lean ====
section
/-! DEFINITION. The on-die network (chapter 08): the serving of requests, responses, control messages, the links between
routers, and the proxy sink. -/

namespace Sys2Proof.Machine

/-! ### Serving (R209, R257, R262, R267) -/

/-- A request performs its access at a channel: the code of its granule is seen by a read and by an atomic (R205). -/
def stackAccess (ch : Nat) (h : Flit) (ecc : Ecc) (req : Instr) (s : State) : State :=
  let reads := match req with
    | .wr _ _ => false
    | .atom _ _ _ => atomOk (fieldAt h.data 16 1) (fieldAt h.data 17 1)
    | _ => true
  if reads then
    atCode ch (s.physOff ch (h.addr.toNat % 2 ^ 32)) ecc (stackServe ch h req) (failReply h { ch := ch, cause := 1 }) s
  else stackServe ch h req s

/-- Serve a request at a stack agent: `k` the stack, its attachment's channels. The channel's owner is checked, the byte
bucket is drawn, and a row whose copy is under way holds the request in the channel's queue (R184, R203, R209, R267). -/
def serveStack (k : Nat) (att : Nat × Nat) (h : Flit) (ecc : Ecc) (req : Instr) (s : State) : State :=
  let x := s.sourceOf h
  let a := h.addr.toNat
  let l := a / 2 ^ 32 % 32
  let ch := 32 * k + l
  let off := a % 2 ^ 32
  if a / 2 ^ 37 ≠ 0 || l < att.1 || att.1 + att.2 ≤ l || s.capFrames ch * 65536 < off + flitLen h then replyErr h 6 [] s
  else if !x.2 && !(s.ownerOf ch = some x.1) then replyErr h 3 [] (ownerFail h s)
  else match if x.2 then some s else drawBytes k x.1 (flitLen h) s with
    | none => awaitTokens (k * 256 + x.1) (flitLen h) x.1 req s
    | some s =>
      if (pieces off (flitLen h)).any fun p => s.rowHeld ch (s.physOff ch p.1) then holdRequest ch x.1 req s
      else stackAccess ch h ecc req s

/-- A byte of a tile's bowl by its network address: operand ring, vector scratch with the sequencer page, finished-tile
queue with one 64 KiB slot for each entry, oldest first (R28). -/
def Tile.netRead (x : Tile) (a : Nat) : Byte :=
  if a < 0x300000 then SMap.get (fun _ => 0) x.ring a
  else if a < 0x3C0000 then x.bowl (a - 0x300000)
  else match x.ftq[(a - 0x3C0000) / 65536]? with
    | some e => SMap.get (fun _ => 0) e.data (a % 65536)
    | none => 0

/-- Store a byte of a tile's bowl by its network address. -/
def Tile.netWrite (x : Tile) (a : Nat) (b : Byte) : Tile :=
  let put (m : SMap Byte) (k : Nat) : SMap Byte := SMap.put (fun _ => 0) m k b
  if a < 0x300000 then { x with ring := put x.ring a }
  else if a < 0x3BF000 then { x with vxe := { x.vxe with scratch := put x.vxe.scratch (a - 0x300000) } }
  else if a < 0x3C0000 then { x with vxe := { x.vxe with page := put x.vxe.page (a - 0x3BF000) } }
  else
    let i := (a - 0x3C0000) / 65536
    { x with ftq := x.ftq.zipIdx.map fun e => if e.2 = i then { e.1 with data := put e.1.data (a % 65536) } else e.1 }

/-- Bytes `a` and up of a tile's accumulator banks by their network address: what a write over the mesh has put there since the
array last wrote them; the banks' layout is not given, and every other byte is free (R257; log entry 60). -/
def State.bankRead (s : State) (t a n : Nat) : List Byte :=
  (List.range n).zipWith (fun i b => SMap.get (fun _ => b) (s.tile t).accNet (a + i)) (s.freeBytes n)

/-- Serve a request at a tile: the bowl's bytes, or those of the accumulator banks (R257, R267). -/
def serveTile (t : Nat) (h : Flit) (req : Instr) (s : State) : State :=
  let x := s.sourceOf h
  let a := h.addr.toNat
  let n := flitLen h
  if !x.2 && !(s.tileCtx t = some x.1) then replyErr h 3 [] (ownerFail h s)
  else if 2 ^ 24 ≤ a || 2 ≤ a / 2 ^ 22 then replyErr h 6 [] s
  else match req with
    | .rd _ _ _ =>
      if a / 2 ^ 22 = 0 then reply h 0x08 0 ((List.range n).map fun i => (s.tile t).netRead (a + i)) s
      else reply h 0x08 0 (s.bankRead t (a % 2 ^ 22) n) (s.drawnN n)
    | .wr _ _ =>
      if a / 2 ^ 22 = 0 then
        reply h 0x09 0 [] (s.onTile t fun y => (flitBody h).zipIdx.foldl (fun y b => y.netWrite (a + b.2) b.1) y)
      else
        reply h 0x09 0 [] (s.onTile t fun y =>
          { y with accNet := (flitBody h).zipIdx.foldl (fun m b => SMap.ins (a % 2 ^ 22 + b.2) b.1 m) y.accNet })
    | _ => replyErr h 6 [] s

/-- A tile's credit return reports the operand block that has waited longest for it: of the multicast reads of a group agent
that await the tile, the oldest (R262). A tag with no tile left is free. -/
def creditReturned (agent t : Nat) (s : State) : State :=
  let hit (x : TagUse) : Bool := decide (x.agent = agent) && x.tiles.contains t
  match s.tags.find? hit with
  | none => s
  | some x =>
    let rest := x.tiles.erase t
    if rest.isEmpty then { s with tags := s.tags.erase x }
    else
      let y : TagUse := { x with tiles := rest }
      { s with tags := s.tags.map fun z => if z = x then y else z }

/-- Serve a request at a group agent: the operand credit returns of the group's tiles are writes (R262, R267). -/
def serveGroup (g : Nat) (h : Flit) (req : Instr) (s : State) : State :=
  let x := s.sourceOf h
  if !x.2 && !(s.partOfGroup g = some (s.partOf x.1)) then replyErr h 3 [] (ownerFail h s)
  else match req with
    | .wr _ _ =>
      reply h 0x09 0 [] (if h.src.val < 64 then creditReturned (4 * h.dst.val + h.dag.val) h.src.val s else s)
    | _ => replyErr h 6 [] s

/-- Is a context entitled to an object of the glue-up engines: is it a member, an output or the holder of a pool (R267; the
agent's address space is not given: log entry 146)? -/
def State.glueEntitled (s : State) (c : Nat) : Bool :=
  (List.range 64).any fun p =>
    s.on (F.GUP_CFG_VALID p) && (s.isMember p c || s.isOutput p c || decide (s.rd (F.GUP_CFG_HOLDER p) = c))

/-! ### The host endpoint (R258, R343, R344) -/

/-- Serve a host request that came over the mesh. The flit's data begin with the translated address. Tiles, the vector
engines and the glue-up engines reach no host memory (R216). -/
def serveHost (h : Flit) (req : Instr) (s : State) : State :=
  let c := (s.sourceOf h).1
  let a := fieldAt h.data 0 8
  if h.src.val < 64 || (h.src.val = 100 && h.sag.val = 1) then replyErr h 3 [] (ownerFail h s)
  else
    let go (mk : Nat → Out) : State :=
      match hostIssue c (.mesh h) 0 (a / 4096) (a / 4096) mk s with
      | some s => s
      | none => awaitTokens slotKey 0 c req s
    match req with
    | .hwr _ _ => reply h 0x09 0 [] (s.out (.hostWrite c 0 a (slice h.data (128 + h.boff.val) (flitLen h))))
    | .hrd _ _ => go fun id => .hostRead id c 0 a (flitLen h)
    | _ =>
      let op := fieldAt h.data 24 1
      let w := fieldAt h.data 25 1
      if 2 < op || !(w = 1 || w = 2) then replyErr h 6 [] s
      else go fun id => .hostAtomic id c 0 a op (widthBits w) (fieldAt h.data 8 8) (fieldAt h.data 16 8)

/-! ### Requests (R258, R266–R268, R270) -/

/-- Header, end-to-end code, granule code and opcode of a mesh request's command. -/
def meshOf : Instr → Option (Flit × E2e × Ecc × Nat)
  | .rd h e ecc => some (h, e, ecc, 0)
  | .wr h e => some (h, e, .clean, 1)
  | .atom h e ecc => some (h, e, ecc, 2)
  | .rdMc h e ecc => some (h, e, ecc, 3)
  | .hrd h e => some (h, e, .clean, 4)
  | .hwr h e => some (h, e, .clean, 5)
  | .hatom h e => some (h, e, .clean, 6)
  | _ => none

/-- Is a router's agent one of a link die, and is its die down (R254, R270)? -/
def State.linkDieFenced (s : State) (r : Nat) : Bool :=
  match linkDieAt r with
  | some l => s.rd (F.D2D_BDL_STATUS_STATE (8 + l)) = 4
  | none => false

/-- Serve a request at its destination agent. A request to a die that is fenced is answered by its firewall (R270); the agents
of the link dies, of the translation unit and of the hub's controllers give no resource at any address (log entry 146). -/
def serve (h : Flit) (ecc : Ecc) (req : Instr) (s : State) : State :=
  let r := h.dst.val
  let a := h.dag.val
  let x := s.sourceOf h
  let host : Bool := match req with | .hrd _ _ | .hwr _ _ | .hatom _ _ => true | _ => false
  if s.proxied r a then proxySink 0 h false s
  else if r = 91 && a = 1 then (if host then serveHost h req s else replyErr h 6 [] s)
  else if host then replyErr h 6 [] s
  else if r < 64 then (if a = 0 then serveTile r h req s else replyErr h 6 [] s)
  else if r = 100 && a = 1 then
    (if x.2 || s.glueEntitled x.1 then replyErr h 6 [] s else replyErr h 3 [] (ownerFail h s))
  else match groupAgent r a with
    | some g => serveGroup g h req s
    | none => match stackOf r with
      | some (k, att) => if a = 0 then serveStack k att h ecc req s else replyErr h 6 [] s
      | none => if (siteAt r).isSome || (a = 0 && s.linkDieFenced r) then replyErr h 4 [] s else replyErr h 6 [] s

/-- A request reaches its destination agent: its end-to-end code is checked, and it is served (R277). -/
def arrive (f : NetFlit) (e : E2e) (ecc : Ecc) (req : Instr) (s : State) : State :=
  let s := crossOut f s
  if e = .uncorrectable then e2eSeen f e (replyErr f.hdr 5 [] s) else serve f.hdr ecc req (e2eSeen f e s)

/-- Responses that a source can still take: its tags tell at most 4,096 apart; for a multicast read every tile of the set
holds ring credit, 3 MiB of blocks of 128 bytes (R28, R257, R268). -/
def State.mayIssue (s : State) (h : Flit) (opc : Nat) : Bool :=
  if opc = 3 then
    (copiesOf h).all fun t => decide ((s.tags.filter fun x => x.tiles.contains t).length < 24576)
  else decide (SMap.get (fun _ => 0) s.owed (4 * h.src.val + h.sag.val) < 4096)

/-- An agent issues a request: the source's router sets its context and HUBTX, its plane is chosen, and each response that it
brings is due, to the agent or to each tile of its set (R256, R262, R267, R272). -/
def issueFlit (h : Flit) (opc : Nat) (s : State) : NetFlit × State :=
  let x := s.sourceOf h
  let f : NetFlit := { hdr := { h with ctx := Fin.ofNat 256 x.1, hubtx := x.2 }, opc := opc, plane := s.planeOf h }
  let tiles := if opc = 3 then copiesOf h else []
  let u : TagUse := { agent := 4 * h.src.val + h.sag.val, tag := h.tag.toNat, plane := f.plane, tiles := tiles }
  let s := { s with tags := s.tags ++ [u] }
  (f, if opc = 3 then each tiles (fun t s => oweBy t 0 (· + 1) s) s else oweBy h.src.val h.sag.val (· + 1) s)

/-- An agent may send a request, and `go` sends it: one whose endpoint is behind the proxy injects nothing (R272), one without
room for the responses does not issue it (R268), and one whose bucket lacks tokens waits (R266). -/
def sendRequest (h : Flit) (opc : Nat) (req : Instr) (go : NetFlit → State → State) (s : State) : State :=
  let x := s.sourceOf h
  if s.proxied h.src.val h.sag.val || !s.mayIssue h opc then s
  else match if x.2 then some s else drawInject h.src.val h.sag.val x.1 (opcCost opc) s with
    | none => awaitTokens (injectKey h.src.val h.sag.val x.1) (opcCost opc) x.1 req s
    | some s => let r := issueFlit h opc s; go r.1 r.2

/-- A packet as the network holds it, wherever it stands: first at its destination's router. -/
def State.inNetwork (s : State) (r opc : Nat) (h : Flit) : Option (Nat × NetFlit) :=
  (s.standsAt r opc h).orElse fun _ =>
    s.netBufs.findSome? fun e =>
      (e.2.find? fun f => decide (f.opc = opc) && opc != 0x0B && decide (f.hdr = h)).map fun f => (e.1, f)

/-- A request at its destination: one that stands in the network leaves it there; any other is issued by its source, and
crosses the network within the command (R266, R272, R277). -/
def request (req : Instr) (s : State) : State :=
  match meshOf req with
  | none => s
  | some (h, e, ecc, opc) =>
    match s.inNetwork h.dst.val opc h with
    | some (k, f) => arrive f e ecc req (takePacket k f s)
    | none => sendRequest h opc req (fun f s => arrive f e ecc req (crossIn f s)) s

/-! ### What waited goes on (R203, R209, R266, R344) -/

/-- A request goes on from where it waited. -/
def resume (w : Waiting) (s : State) : State :=
  match w.who with
  | .unit _ _ => s
  | .request i =>
    match siteReqOf i, meshOf i, i with
    | some (k, q), _, _ =>
      let ecc := match i with | .siteRd _ e => e | _ => .clean
      if 2 ^ 20 ≤ w.bucket && w.bucket < 2 ^ 21 then siteRequest k q ecc i s
      else match s.winOf q.site.val q.addr.toNat with
        | some v => sitePassed k q ecc i v (siteStage w.bucket) s
        | none => siteAnswer q true [] s
    | none, some (h, e, ecc, opc), _ =>
      if 4096 ≤ w.bucket && w.bucket < 2 ^ 20 then sendRequest h opc i (fun f s => arrive f e ecc i (crossIn f s)) s
      else if 2 ^ 22 ≤ w.bucket then
        let ch := w.bucket - 2 ^ 22
        if (pieces (h.addr.toNat % 2 ^ 32) (flitLen h)).any fun p => s.rowHeld ch (s.physOff ch p.1) then holdRequest ch w.ctx i s
        else stackAccess ch h ecc i s
      else serve h ecc i s
    | none, none, .linkFlitArrival _ _ _ _ ⟨_, some (opc, h)⟩ => sendRequest h opc.val i (fun f s => inject f s) s
    | none, none, _ => s

/-- Depth of a bucket that units draw from. -/
def State.bucketDepth (s : State) (b : Nat) : Nat :=
  if b < 2048 then s.byteDepth (b / 256) (b % 256)
  else if b < 4096 then 1 + Config.granuleDepth ((b - 2048) / 256)
  else (s.injectDepth (b % 256)).getD 0

/-- What a unit asks of a bucket is drawn as far as it holds tokens: the unit goes on with its next step once nothing is
left. -/
def drawAsk (w : Waiting) (s : State) : State :=
  let now := min w.cost (s.bucketDepth w.bucket - s.bucketDrawn w.bucket)
  let v : Waiting := { w with cost := w.cost - now }
  { s with buckets := SMap.upd (fun _ => 0) s.buckets w.bucket (· + now),
           waiting := s.waiting.map fun x => if x = w then v else x }

/-- The requests and units that wait for a bucket go on, in order, as far as it serves them. -/
def resumeBucket (b : Nat) : Nat → State → State
  | 0, s => s
  | n + 1, s =>
    let here (w : Waiting) : Bool := decide (w.bucket = b)
    let asks (w : Waiting) : Bool := here w && (match w.who with | .request _ => true | .unit _ _ => decide (w.cost ≠ 0))
    match s.waiting.find? asks with
    | none => s
    | some w =>
      match w.who with
      | .unit _ _ =>
        let t := drawAsk w s
        if t.queued b && (t.waiting.find? asks).any (fun v => v.who = w.who && v.ctx = w.ctx) then t else resumeBucket b n t
      | .request _ =>
        let rest := (s.waiting.filter here).erase w
        let t := resume w { s with waiting := s.waiting.filter fun v => !here v }
        if t.waiting.any here then { t with waiting := t.waiting ++ rest }
        else resumeBucket b n { t with waiting := t.waiting ++ rest }

/-- BUCKET_TOKENS_READY: `n` tokens have come in, and what waits draws them. -/
def tokensReady (b n : Nat) (s : State) : State :=
  let s := { s with buckets := SMap.upd (fun _ => 0) s.buckets b (· - n) }
  resumeBucket b s.waiting.length s

/-- The requests of a channel's queue go on, in order, and hand their credits to those that wait; what is still held queues
again (R184, R209). -/
def drainQueue (ch : Nat) (s : State) : State :=
  let q := (s.chan ch).queue
  let s := s.onChan ch fun x => { x with queue := [], credits := 0 }
  resumeBucket (chanKey ch) s.waiting.length (each q resume s)

/-- ROW_REMAP_COPY_DONE: the accesses that the copy held go on, on the spare row (R209). -/
def remapDone (ch row : Nat) (s : State) : State :=
  if (s.chan ch).copying.contains row then
    drainQueue ch (s.onChan ch fun x => { x with copying := x.copying.erase row })
  else s

/-! ### Responses at the requester (R259, R262, R277) -/

/-- The operation that a request of an agent served: the first billet of a tile, else what its vector engine last ran;
the operation of a group's engine, else the oldest started one of the context (DESIGN CHOICE, log entry 64). -/
def State.requesterOp (s : State) (r a c : Nat) : Option Nat :=
  let oldest := ((s.ctx c).ops.find? fun o => o.started && o.done.isNone).map (·.seq)
  if r < 64 then
    match (s.tile r).deal with
    | b :: _ => if b.ctx = c then some b.seq else none
    | [] => match (s.tile r).vxe.opKey with
      | some (d, q) => if d = c then some q else none
      | none => none
  else match groupAgent r a with
    | some g =>
      match ((List.range 4).filterMap fun i => (s.engine (4 * g + i)).op).find? fun o => decide (o.1 = c) with
      | some (_, q) => some q
      | none => oldest
    | none => if r = 100 then oldest else none

/-- The requester's operation fails: MEM_ERROR with the DETAIL of the response; a failed access to memory is reported. A fenced
die gives the cause of a stack that is down; for the statuses that R259 gives no DETAIL the value is free. -/
def failRequester (h : Flit) (status detail : Nat) (s : State) : State :=
  let c := h.ctx.val
  match s.requesterOp h.dst.val h.dag.val c with
  | none => s
  | some q =>
    if status = 1 then opMemError c q { ch := bits detail 15 8, cause := bits detail 3 0 } 0 s
    else if status = 4 then completeWith c q stMem 3 0 s
    else completeWith c q stMem (s.free.toNat % 2 ^ 32) 0 s.drawn

/-- The tag that a response ends: that of a multicast read stays for its copies, and ends with an error (R262). -/
def State.tagOf (s : State) (h : Flit) (opc : Nat) : Option TagUse :=
  if opc = 0x0B then none
  else s.tags.find? fun x =>
    decide (x.agent = 4 * h.dst.val + h.dag.val) && decide (x.tag = h.tag.toNat) && (opc = 0x0A || x.tiles.isEmpty)

/-- A response ends its request: the tag is free, and one response less is due; of a multicast read that failed no copy is due
any more (R262, R272). -/
def closeTag (h : Flit) (opc : Nat) (s : State) : State :=
  match s.tagOf h opc with
  | none => oweBy h.dst.val h.dag.val (· - 1) s
  | some x =>
    let s := { s with tags := s.tags.erase x }
    if x.tiles.isEmpty then oweBy h.dst.val h.dag.val (· - 1) s else each x.tiles (fun t s => oweBy t 0 (· - 1) s) s

/-- A response, taken from the network where it stands there, reaches its requester; an engaged proxy consumes it. Beyond
correction it ends the requester's operation (R272, R273, R277). -/
def response (h : Flit) (e : E2e) (opc : Nat) (f : State → State) (s : State) : State :=
  let agent := 4 * h.dst.val + h.dag.val
  let at' := s.inNetwork h.dst.val opc h
  let p : NetFlit := match at' with
    | some x => { x.2 with hdr := h }
    | none => { hdr := h, opc := opc, plane := s.planeOfTag agent h.tag.toNat (s.planeFor (h.tag.toNat % 4)) }
  let s := match at' with | some x => takePacket x.1 x.2 s | none => s
  if s.proxied h.dst.val h.dag.val then proxySink opc h false (if opc = 0x0B then s else oweBy h.dst.val h.dag.val (· + 1) (closeTag h opc s))
  else
    let s := crossOut p (closeTag h opc s)
    if e = .uncorrectable then
      e2eSeen p e (match s.requesterOp h.dst.val h.dag.val h.ctx.val with
        | some q => completeWith h.ctx.val q stMem 1 0 s
        | none => s)
    else f (e2eSeen p e s)

/-- What a response is for at a site's firewall: it goes to the die, or is sunk while the site is fenced (R328). -/
def toSite (h : Flit) (err : Bool) (s : State) : State :=
  match siteAt h.dst.val with
  | none => s
  | some x => if s.rd (F.CHK_STATUS_STATE x) = 5 then s
    else s.out (.siteAnswer x h.tag.toNat err (flitBody h))

/-! ### Control messages (R263–R265, R273) -/

/-- Key of the control messages between two agents. -/
def ctlKey (h : Flit) (back : Bool) : Nat :=
  let a := 4 * h.src.val + h.sag.val
  let b := 4 * h.dst.val + h.dag.val
  if back then b * 512 + a else a * 512 + b

/-- CTL reaches its destination, where the sink never refuses it: a source has at most four outstanding to one destination;
the sink, or the proxy in its place, acknowledges one that asks for it (R265, R273). -/
def control (h : Flit) (ack : Bool) (s : State) : State :=
  let k := ctlKey h false
  let n := SMap.get (fun _ => 0) s.ctlOut k
  match s.inNetwork h.dst.val 0x10 h with
  | some (b, f) => sink (crossOut f (takePacket b f s))
  | none =>
    if 4 ≤ n || s.proxied h.src.val h.sag.val then s
    else
      let f : NetFlit := { hdr := h, opc := 0x10, plane := s.planeOf h }
      sink (crossOut f (crossIn f (if ack then { s with ctlOut := SMap.put (fun _ => 0) s.ctlOut k (n + 1) } else s)))
where
  /-- The message is consumed. -/
  sink (s : State) : State :=
    if s.proxied h.dst.val h.dag.val then proxySink 0x10 h ack s else if ack then reply h 0x11 0 [] s else s

/-- CTL_ACK: the slot of the message is free; an engaged proxy consumes it. -/
def controlAck (h : Flit) (s : State) : State :=
  let s := match s.inNetwork h.dst.val 0x11 h with
    | some x => crossOut x.2 (takePacket x.1 x.2 s)
    | none => crossOut { hdr := h, opc := 0x11, plane := s.planeOf h } s
  let s := { s with ctlOut := SMap.upd (fun _ => 0) s.ctlOut (ctlKey h true) (· - 1) }
  if s.proxied h.dst.val h.dag.val then proxySink 0x11 h false s else s

/-! ### Links (R253, R260–R264, R274, R275) -/

/-- An agent injects a packet into its router's local buffer of the plane's class, where it has room: a request as
`sendRequest` allows, a control message while fewer than four are outstanding. Responses are injected where they arise. -/
def injectFlit (router plane : Nat) (opc : Nat) (h : Flit) (req : Instr) (s : State) : State :=
  let f : NetFlit := { hdr := h, opc := opc, plane := s.planeOf h }
  if h.src.val ≠ router || !agentAt router h.sag.val || f.plane ≠ plane || !s.hasCredit (bufKey router 0 plane f.cls) then s
  else if opc < 7 then sendRequest h opc req (fun f s => inject f s) s
  else if opc = 0x10 then
    let k := ctlKey h false
    let n := SMap.get (fun _ => 0) s.ctlOut k
    if 4 ≤ n || s.proxied router h.sag.val then s
    else inject f { s with ctlOut := SMap.put (fun _ => 0) s.ctlOut k (n + 1) }
  else s

/-- A flit whose CRC fails is discarded, and the sender, which keeps it among its last 32, replays from it: it stays first to
be sent. Sixteen replays in a row, or 1,024 within 1 ms, fail the link (R274, R275). -/
def crcFailed (router port plane vn : Nat) (s : State) : State :=
  let x := s.link router port plane
  let times := (s.now :: x.times.filter fun t => decide (s.now ≤ t + 1000000)).take 1024
  let failed := decide (16 ≤ x.row + 1) || decide (1024 ≤ times.length)
  let s := (s.satInc F.NOC_ERR_REPLAY 1).setLink router port plane { x with row := x.row + 1, times := times, failed := failed }
  if !failed then nocLast router port plane vn 0 s
  else
    let s := nocLast router port plane vn 3 s
    let s := saveNow (s.onSaved fun v => { v with planesOut := putBit v.planesOut plane true })
    reportFault 0x0401 (srcRouter router) [] none 0 0 [] s

/-- A flit arrives over a link: the one that the output at the far end sends next leaves that router, whose arbitration
goes on from it, and stands in the buffers that it goes to (R262–R264). -/
def crossLink (router port plane u q : Nat) (s : State) : State :=
  let x := s.link router port plane
  match s.outputNext u q plane x with
  | none => s.setLink router port plane { x with row := 0 }
  | some (i, f) =>
    let y : LinkSt := { x with row := 0, kept := (f :: x.kept).take 32,
                               reqLast := if f.cls = 3 then x.reqLast else decide (f.cls = 0),
                               turn := SMap.ins (opcVn f.opc) i x.turn }
    (leaveRouter u i f s).setLink router port plane y

/-- LINK_FLIT_ARRIVAL: over the local port an agent injects; over any other port that something is attached to, a flit of the
router at its far end arrives, or fails its CRC. A failed link carries nothing (R253, R274, R275). -/
def linkFlit (router port plane vn : Nat) (ok : Bool) (inj : Option (Fin 32 × Flit)) (req : Instr) (s : State) : State :=
  if (s.link router port plane).failed then s
  else if port = 0 then
    match inj with
    | some (opc, h) => if ok then injectFlit router plane opc.val h req s else crcFailed router port plane vn s
    | none => if ok then s.setLink router port plane { (s.link router port plane) with row := 0 } else crcFailed router port plane vn s
  else match farEnd router port with
    | none => s
    | some (u, q) => if ok then crossLink router port plane u q s else crcFailed router port plane vn s

/-! ### The proxy (R272) -/

/-- Responses still due to the endpoints of a partition. -/
def State.dueTo (s : State) (p : Nat) : Nat :=
  ((s.tilesOf p).map fun t => SMap.get (fun _ => 0) s.owed (4 * t)).sum +
    ((s.groupsOf p).map fun g => SMap.get (fun _ => 0) s.owed (4 * (64 + 3 * (g / 2) + 2 * (g % 2)) + 1)).sum

/-- PROXY_RELEASE: the endpoint is ready and no response is due to it. With it ends the reset of the partition, which is in
RUN again and takes its next slice at a tick (step 5 of R272, step 7 of R467). -/
def proxyRelease (p : Nat) (s : State) : State :=
  let x := s.part p
  if x.proxy && x.rejoin && s.dueTo p = 0 then
    let s := (s.wrBit F.NOC_STATUS_PROXY p false).onPart p fun x => { x with proxy := false, rejoin := false }
    (s.wr (F.SCH_STATUS_STATE p) 1).wrBit F.TLS_STATUS_PART_RESETTING p false
  else s

/-! ### The commands -/

/-- RD. -/
def execRd (h : Flit) (e : E2e) (ecc : Ecc) (s : State) : Host.Outcome State Fault Refusal := s.done (request (.rd h e ecc) s)
/-- WR. -/
def execWr (h : Flit) (e : E2e) (s : State) : Host.Outcome State Fault Refusal := s.done (request (.wr h e) s)
/-- ATOM. -/
def execAtom (h : Flit) (e : E2e) (ecc : Ecc) (s : State) : Host.Outcome State Fault Refusal :=
  s.done (request (.atom h e ecc) s)
/-- HRD. -/
def execHrd (h : Flit) (e : E2e) (s : State) : Host.Outcome State Fault Refusal := s.done (request (.hrd h e) s)
/-- HWR. -/
def execHwr (h : Flit) (e : E2e) (s : State) : Host.Outcome State Fault Refusal := s.done (request (.hwr h e) s)
/-- HATOM. -/
def execHatom (h : Flit) (e : E2e) (s : State) : Host.Outcome State Fault Refusal := s.done (request (.hatom h e) s)
/-- RD_MC: every tile of the set is due a copy. -/
def execRdMc (h : Flit) (e : E2e) (ecc : Ecc) (s : State) : Host.Outcome State Fault Refusal :=
  s.done (request (.rdMc h e ecc) s)
/-- RSP_DATA. -/
def execRspData (h : Flit) (e : E2e) (s : State) : Host.Outcome State Fault Refusal :=
  s.done (response h e 0x08 (toSite h false) s)
/-- RSP_ACK. -/
def execRspAck (h : Flit) (e : E2e) (s : State) : Host.Outcome State Fault Refusal :=
  s.done (response h e 0x09 (toSite h false) s)
/-- RSP_MC: a copy lands in the tile's operand ring at the address that it carries (R262). -/
def execRspMc (h : Flit) (e : E2e) (s : State) : Host.Outcome State Fault Refusal :=
  s.done (response h e 0x0B (fun s =>
    if h.dst.val < 64 && h.addr.toNat < 0x300000 then
      s.onTile h.dst.val fun y => (flitBody h).zipIdx.foldl (fun y b => y.netWrite (h.addr.toNat + b.2) b.1) y
    else s) s)
/-- RSP_ERR. -/
def execRspErr (h : Flit) (e : E2e) (s : State) : Host.Outcome State Fault Refusal :=
  s.done (response h e 0x0A (fun s =>
    if (siteAt h.dst.val).isSome then toSite h true s
    else failRequester h h.status.val (fieldAt h.data 0 4) s) s)
/-- CTL. -/
def execCtl (h : Flit) (ack : Bool) (s : State) : Host.Outcome State Fault Refusal := s.done (control h ack s)
/-- CTL_ACK. -/
def execCtlAck (h : Flit) (s : State) : Host.Outcome State Fault Refusal := s.done (controlAck h s)
/-- LINK_FLIT_ARRIVAL. -/
def execLinkFlitArrival (router : Fin 104) (port : Fin 6) (plane : Fin 4) (vn : Fin 3) (x : LinkIn) (s : State) :
    Host.Outcome State Fault Refusal :=
  s.done (linkFlit router.val port.val plane.val vn.val x.ok x.inj (.linkFlitArrival router port plane vn x) s)
/-- PROXY_RELEASE. -/
def execProxyRelease (p : PartId) (s : State) : Host.Outcome State Fault Refusal := s.done (proxyRelease p.val s)
/-- BUCKET_TOKENS_READY. -/
def execBucketTokensReady (b : BucketId) (n : Nat) (s : State) : Host.Outcome State Fault Refusal :=
  s.done (tokensReady (BucketId.key b) n s)
/-- ROW_REMAP_COPY_DONE. -/
def execRowRemapCopyDone (ch : ChanId) (row : Nat) (s : State) : Host.Outcome State Fault Refusal :=
  s.done (remapDone ch.val row s)

end Sys2Proof.Machine
end

