-- ==== Sys2Proof/Machine/Translation.lean ====
section
/-! DEFINITION. Answers to what the device asked of the host, and the host's invalidations (chapter 07, R217–R230; chapter
11, R345–R350): translation completions, invalidations, page request responses, host completions and timeouts. -/

namespace Sys2Proof.Machine

/-! ### Slots and translations that come free -/

/-- What waited for a slot or a translation goes on: the reads of the rings of contexts that hold a slice, the mesh's
requests, the engines (R344). -/
def carryOn (s : State) : State :=
  let s := each (List.range 8) (fun p s => match s.holderOf p with | some c => sendRun c s | none => s) s
  pumpAll (resumeBucket slotKey s.waiting.length s)

/-- Has a translation the atomic right: both rights, and AtomicOp requests enabled on the VF (R219)? -/
def State.atomRight (s : State) (c : Nat) (t : Trans) : Bool := t.rd && t.wr && (s.cfg (c + 1)).atomicEn

/-- A translation as an entry of the cache. -/
def State.cacheEntry (s : State) (c pi gen : Nat) (t : Trans) : XEnt :=
  { pi := pi, page := t.page / 2 ^ t.size.val * 2 ^ t.size.val, size := t.size.val, ta := t.ta, rd := t.rd, wr := t.wr,
    at' := s.atomRight c t, gen := gen }

/-- Give a translation to an operation: a held entry of its stream, or in prefetch mode an entry of the cache (R217,
R221). -/
def giveTrans (c q pi gen : Nat) (t : Trans) (s : State) : State :=
  match s.op? c q with
  | none => s
  | some o =>
    if o.prefetch then cachePut c (s.cacheEntry c pi gen t) s
    else
      let e : Held := { ta := t.ta, size := t.size.val, pi := pi, rd := t.rd, wr := t.wr, at' := s.atomRight c t,
                        valid := true, page := t.page - o.hostBase / 4096, gen := gen }
      s.onOp c q fun o => o.setHeld ((o.held ++ [e]).take 16)

/-- A translation as an operation's stream meets it: given, or escalated for the access that will need it; a failed one of
pages that no access needs is passed over (R217, R226). -/
def opTrans (c q pi gen : Nat) (t : Trans) (s : State) : State :=
  match s.op? c q with
  | none => s
  | some o =>
    if o.done.isSome || s.ctxState c ≠ 4 then s
    else if o.rightOf t.rd t.wr (s.atomRight c t) then giveTrans c q pi gen t s
    else match o.needFrom t.page with
      | some p =>
        if p < t.page / 2 ^ t.size.val * 2 ^ t.size.val + 2 ^ t.size.val then
          pageFault { ctx := c, pi := pi, page := p, wr := o.hostDst, who := .op c q } false s
        else s
      | none => s

/-- A hub word that waits for its translation is written again, while the context runs (R180). -/
def wordAgain (c : Nat) (s : State) : State := if s.ctxState c = 4 then retryWord c s else s

/-- Has a translation the right that a ring access needs (R219)? -/
def ringRight (wr : Bool) (t : Trans) : Bool := if wr then t.wr else t.rd

/-- A translation for a ring access: into the cache, and the hub word is written again when it waits; without the right
the context parks (R180, R216). -/
def ringTrans (r : AtsReq) (t : Trans) (s : State) : State :=
  if ringRight r.wr t then wordAgain r.ctx (cachePut r.ctx (s.cacheEntry r.ctx r.pi r.gen t) s)
  else if s.ctxState r.ctx ≠ 4 then s
  else pageFault { ctx := r.ctx, pi := r.pi, page := t.page, wr := r.wr, who := .ring r.ctx } true s

/-- A translation that a ring stream has been given ahead: without the right it is left to the access (R216, R221). -/
def aheadTrans (r : AtsReq) (t : Trans) (s : State) : State :=
  if ringRight r.wr t then cachePut r.ctx (s.cacheEntry r.ctx r.pi r.gen t) s else s

/-- An attempt of an XLT_TOUCH has been answered (R238). -/
def touchTrans (r : AtsReq) (q : Nat) (t : Trans) (s : State) : State :=
  let got := t.rd || t.wr
  let s := if got then cachePut r.ctx (s.cacheEntry r.ctx r.pi r.gen t) s else s
  s.onOp r.ctx q fun o =>
    let after := if got then t.page / 2 ^ t.size.val * 2 ^ t.size.val + 2 ^ t.size.val else t.page + 1
    { o with count := o.count + b2n got, cursor := after - o.src / 4096 }

/-! ### The pending-fault table's answers (R226, R228) -/

/-- A translation is refused: the waiters' operations end with XLT_ERROR, and the context ends (R180, R228). -/
def refuseEntry (i : Nat) (s : State) : State :=
  let c := s.rd (F.XLT_PFT0_CTX i)
  let ws := s.pftWaiters i
  let s := each ws refuseWaiter (pftFree i s)
  ctxFault (refusedCode ws) c s

/-- Does a translation satisfy an entry's waiters: the rights that the Page Request asked for, and the atomic right for an
ATOMIC? -/
def State.satisfies (s : State) (i c : Nat) (t : Trans) : Bool :=
  (!s.on (F.XLT_PFT0_WREQ i) || t.wr) && (!s.on (F.XLT_PFT0_RREQ i) || t.rd) &&
    (s.pftWaiters i).all fun w => match w with
      | .ring _ => true
      | .op d q => match s.op? d q with
        | some o => o.rightOf t.rd t.wr (s.atomRight c t)
        | none => true

/-- The translation behind a Success: the waiters go on; without the right one more Page Request is sent, if one can be, and
after the second the translation is refused (R226, R228). -/
def pageTrans (r : AtsReq) (i : Nat) (t : Trans) (s : State) : State :=
  let ws := s.pftWaiters i
  let x := s.cfg (r.ctx + 1)
  if s.satisfies i r.ctx t then
    let give (w : Waiter) (s : State) : State :=
      match w with
      | .op d q => giveTrans d q r.pi r.gen t s
      | .ring d => cachePut d (s.cacheEntry d r.pi r.gen t) s
    let again (w : Waiter) (s : State) : State :=
      match w with
      | .op _ _ => s
      | .ring d => wordAgain d s
    each ws again (each ws resumeWaiter (each ws give (pftFree i s)))
  else if x.priStopped then ctxFault 0x0009 r.ctx (pftFree i s)
  else if s.rd (F.XLT_PFT8_SENT_CNT i) < 2 && x.priEn && x.priAlloc != 0 then sendQueued (s.wr (F.XLT_PFT0_STATE i) 1)
  else refuseEntry i s

/-- Host software has taken PRI away from a context's VF: what is QUEUED cannot be sent any more and is refused (R226). -/
def priTaken (c : Nat) (s : State) : State :=
  let x := s.cfg (c + 1)
  if x.priEn && x.priAlloc != 0 then s
  else each (List.range 256) (fun i s =>
    if s.pftState i = 1 && s.rd (F.XLT_PFT0_CTX i) = c then refuseEntry i s else s) s

/-- The translations of a completion; an answer with none stands for the page asked for without any right. -/
def AtsReq.answers (r : AtsReq) (res : List Trans) : List Trans :=
  if res.isEmpty then [({ page := r.page, ta := 0, size := 0, rd := false, wr := false } : Trans)] else res

/-- TRANSLATION_COMPLETION (R217, R225): discarded and asked again when an invalidation has overtaken it. -/
def translationCompletion (id : Nat) (res : List Trans) (s : State) : State :=
  match s.atsReqs.find? fun r => decide (r.id = id) && r.slot.isSome with
  | none => s
  | some r =>
    let s := dropAts r s
    let ts := r.answers res
    if r.dead then carryOn s
    else if ts.any fun t => !s.fresh r.ctx r.gen r.pi (t.page / 2 ^ t.size.val * 2 ^ t.size.val) (2 ^ t.size.val) then
      carryOn (atsRequest r.ctx r.pi r.page r.n r.wr r.use s)
    else
      let s := match r.use with
        | .ring => each ts (ringTrans r) s
        | .ahead => each ts (aheadTrans r) s
        | .op q => each ts (opTrans r.ctx q r.pi r.gen) s
        | .touch q => each (ts.take 1) (touchTrans r q) s
        | .page i => each (ts.take 1) (pageTrans r i) s
      carryOn s

/-! ### Invalidations (R222–R225) -/

/-- The PASID indices that an invalidation covers; none stands for all (R223). -/
def State.invIndices (s : State) (c : Nat) (pasid : Option (BitVec 20)) (glob : Bool) : Option (List Nat) :=
  if glob then none
  else some ((List.range 4).filter fun i => s.on (F.CTXW_PASID_VALID c i) && (match pasid with
    | some p => !s.on (F.CTXW_PASID_NOPASID c i) && decide (s.rd (F.CTXW_PASID_PASID c i) = p.toNat)
    | none => s.on (F.CTXW_PASID_NOPASID c i)))

/-- Steps 1 to 3 of R224 for a context in RUN. Where several indices hold the PASID, the list entry bears the mark for all
of them; where none does, it covers no page (DESIGN CHOICE, log entry 54). -/
def beginInv (c tag : Nat) (ix : Option (List Nat)) (lo hi : Nat) (s : State) : State :=
  let pi : Option Nat := match ix with | some [i] => some i | _ => none
  let empty := ix = some []
  let lo := if empty then 2 ^ 52 else lo
  let hi := if empty then 0 else hi
  let s := (s.wrapInc (F.XLT_CTX_GEN c) 1).wr F.XLT_STATUS_INV_BUSY 1
  let g := s.gen c
  let e : Stale := { gen := g, pi := pi, lo := lo, hi := hi }
  let hit (x : XEnt) : Bool := e.covers x.pi x.page x.pages
  let s := s.onCtx c fun x => { x with stale := (e :: x.stale).take 16, cache := x.cache.filter fun d => !hit d }
  { s with invs := s.invs ++ [({ ctx := c, tag := tag, gen := g, pi := pi, lo := lo, hi := hi } : Inv)] }

/-- An invalidation has completed (R224). -/
def endInv (c tag gen : Nat) (s : State) : State :=
  let s := (s.wrapInc F.XLT_COUNT_INV 1).out (.invCompletion c tag)
  let s := s.wr F.XLT_STATUS_INV_BUSY (b2n (!s.invs.isEmpty))
  traceEvent 0xC005 srcXlt (gen % 2 ^ 32) (some c) s

/-- INVALIDATE_REQUEST: an invalidation of a VF whose context is not in RUN completes at once (R223). -/
def invalidateRequest (fn tag : Nat) (pasid : Option (BitVec 20)) (lo hi : Nat) (glob : Bool) (s : State) : State :=
  if fn = 0 || !s.linkUp then s
  else
    let c := fn - 1
    let s := wakeEvent 2 s
    if s.ctxState c ≠ 4 then endInv c tag (s.gen c) s
    else beginInv c tag (s.invIndices c pasid glob) lo hi s

/-- Is a read under the old generation of an invalidation outstanding (step 4 of R224)? -/
def State.invWaits (s : State) (v : Inv) : Bool :=
  s.hostReqs.any fun r => decide (r.ctx = v.ctx) && decide (r.gen < v.gen) && (v.pi.isNone || v.pi = some r.pi) &&
    decide (v.lo ≤ r.hi) && decide (r.lo ≤ v.hi)

/-- INVALIDATE_COMPLETION (R224): sent once the reads under the old generation have drained. -/
def invalidateCompletion (c tag : Nat) (s : State) : State :=
  match s.invs.find? fun v => decide (v.ctx = c) && decide (v.tag = tag) with
  | none => s
  | some v =>
    if s.invWaits v then s
    else carryOn (endInv c tag v.gen { s with invs := s.invs.erase v })

/-! ### Page request responses (R228, R229, R361) -/

/-- XLT_STATUS.PRI_STOPPED follows the VFs (R228). -/
def showStopped (s : State) : State := s.wr F.XLT_STATUS_PRI_STOPPED (b2n (s.hcfg.any fun e => e.2.priStopped))

/-- PRG_RESPONSE: a response whose index names no request that awaits one is discarded and counted; one to an abandoned
entry frees it (R228, R229). -/
def prgResponse (fn i : Nat) (code : PrgCode) (s : State) : State :=
  let s := wakeEvent 2 s
  let c := fn - 1
  let st := if i < 256 then s.pftState i else 0
  let s' := s.satInc F.XLT_COUNT_PR_ORPHAN 1
  if st = 0 || st = 1 || s.rd (F.XLT_PFT0_CTX i) + 1 ≠ fn || s.answered i then s'
  else if st = 3 then pftFree i s'
  else match code with
    | .success =>
      if (s.pftWaiters i).isEmpty then pftFree i s
      else
        let wr := s.on (F.XLT_PFT0_WREQ i)
        let pi := s.rd (F.XLT_PFT8_PI i)
        let page := s.rd (F.XLT_PFT0_PAGE i)
        let s := s.wr F.XLT_STATUS_PR_OUT (s.rd F.XLT_STATUS_PR_OUT - 1)
        sendQueued (atsRequest c pi page 1 wr (.page i) s)
    | .invalidRequest => if (s.pftWaiters i).isEmpty then pftFree i s else refuseEntry i s
    | .responseFailure =>
      let s := showStopped (s.onCfg fn fun x => { x with priStopped := true })
      let s := pftFree i s
      if s.endable c then ctxFault 0x0009 c s else s

/-- PAGE_REQUEST_TIMEOUT: the entry stays, abandoned, and the contexts that wait on it end (R229). -/
def pageRequestTimeout (i : Nat) (s : State) : State :=
  if s.pftState i ≠ 2 || s.answered i then s
  else
    let cs := ((s.pftWaiters i).map Waiter.ctx).dedup
    let s := setWaiters i [] (s.wr (F.XLT_PFT0_STATE i) 3)
    each cs (fun c s => ctxFault 0x000A c s) s

/-- PRI_RESET: a VF's stopped condition clears once no page request of it is outstanding (R361). -/
def priReset (fn : Nat) (s : State) : State :=
  if fn = 0 || s.prOut (fn - 1) ≠ 0 then s
  else showStopped (s.onCfg fn fun x => { x with priStopped := false })

/-! ### Host completions (R240, R241, R345, R347–R350) -/

/-- A host request of the mesh is answered with data, or with an error (R270). -/
def meshAnswer (h : Flit) (data : Option (List Byte)) (s : State) : State :=
  match data with
  | some bs => reply h 0x08 0 (bs.take 128) s
  | none => replyErr h 6 [] s

/-- Data of a completed request go where it asked for them. -/
def hostData (r : HostReq) (data : List Byte) (s : State) : State :=
  match r.use with
  | .copy q off len => readReturned r.ctx q off (padTo len data) s
  | .atomic q =>
    match s.op? r.ctx q with
    | none => s
    | some o => engState r.ctx q 0 (endOp r.ctx q stOK 0 (fieldAt data 0 (widthBits o.atWidth / 8)) s)
  | .flush q =>
    match s.op? r.ctx q with
    | none => s
    | some o => endCopy r.ctx o s
  | .mesh h => meshAnswer h (some data) s
  | .ring => runReturned r (runWords data (data.length / 64)) s

/-- A request has failed with a status of R240. -/
def hostError (r : HostReq) (st detail : Nat) (s : State) : State :=
  match r.use with
  | .copy q _ _ => hostFail r.ctx q st detail s
  | .atomic q => hostFail r.ctx q st detail s
  | .flush q => hostFail r.ctx q st detail s
  | .mesh h => meshAnswer h none s
  | .ring => ringFailed r.ctx s

/-- Do the data of a completed request go into memory now? A read whose write waits stays outstanding. -/
def readTakes (r : HostReq) (s : State) : Bool × State :=
  match r.use with
  | .copy q off len => if r.abandoned then (true, s) else takesRead r.ctx q off len s
  | _ => (true, s)

/-- A host request of the mesh that a poisoned completion answers is told of uncorrectable data (R259, R270, R349). -/
def meshPoisoned (r : HostReq) (s : State) : State :=
  match r.use with
  | .mesh h => replyErr h 1 (errBytes { ch := 0, cause := 1 }) s
  | _ => s

/-- HOST_COMPLETION. -/
def hostCompletion (id : Nat) (st : HostStatus) (data : List Byte) (s : State) : State :=
  match s.hostReqs.find? fun r => decide (r.id = id) with
  | some r =>
    match if st = .ok then readTakes r s else (true, s) with
    | (false, s) => s
    | (true, s) =>
      let s := dropHost r s
      let s := if st = .poisoned then poisonedCompletion r.ctx (meshPoisoned r s)
        else if r.abandoned then s
        else match st with
          | .ok => hostData r data s
          | .unsupported => hostError r 0x20 1 s
          | _ => hostError r 0x20 2 s
      carryOn s
  | none =>
    match s.atsReqs.find? fun r => decide (r.id = id) && r.slot.isSome with
    | none => s
    | some r =>
      if st = .ok then s
      else
        let s := dropAts r s
        let s := if st = .poisoned then poisonedCompletion r.ctx s else if r.dead then s else ringFailed r.ctx s
        carryOn s

/-- COMPLETION_TIMEOUT (R347, R348). -/
def completionTimeout (id : Nat) (s : State) : State :=
  match s.hostReqs.find? fun r => decide (r.id = id) with
  | some r =>
    let s := noteTimeout r.ctx (dropHost r s)
    carryOn (if r.abandoned then s else hostError r 0x21 0 s)
  | none =>
    match s.atsReqs.find? fun r => decide (r.id = id) && r.slot.isSome with
    | none => s
    | some r =>
      let s := noteTimeout r.ctx (dropAts r s)
      carryOn (if r.dead then s else ringFailed r.ctx s)

/-! ### The commands -/

/-- TRANSLATION_COMPLETION. -/
def execTranslationCompletion (id : Nat) (res : List Trans) (s : State) : Host.Outcome State Fault Refusal :=
  s.done (translationCompletion id res s)
/-- INVALIDATE_REQUEST. -/
def execInvalidateRequest (fn : FnId) (tag : Nat) (pasid : Option (BitVec 20)) (lo : Nat) (hi : Nat) (glob : Bool)
    (s : State) : Host.Outcome State Fault Refusal := s.done (invalidateRequest fn.val tag pasid lo hi glob s)
/-- INVALIDATE_COMPLETION. -/
def execInvalidateCompletion (c : CtxId) (tag : Nat) (s : State) : Host.Outcome State Fault Refusal :=
  s.done (invalidateCompletion c.val tag s)
/-- PRG_RESPONSE. -/
def execPrgResponse (fn : FnId) (idx : Nat) (code : PrgCode) (s : State) : Host.Outcome State Fault Refusal :=
  s.done (prgResponse fn.val idx code s)
/-- PAGE_REQUEST_TIMEOUT. -/
def execPageRequestTimeout (i : Fin 256) (s : State) : Host.Outcome State Fault Refusal :=
  s.done (pageRequestTimeout i.val s)
/-- PRI_RESET. -/
def execPriReset (fn : FnId) (s : State) : Host.Outcome State Fault Refusal := s.done (priReset fn.val s)
/-- HOST_COMPLETION. -/
def execHostCompletion (id : Nat) (st : HostStatus) (data : List Byte) (s : State) :
    Host.Outcome State Fault Refusal := s.done (hostCompletion id st data s)
/-- DESCRIPTOR_FETCH_RETURN. -/
def execDescriptorFetchReturn (c : CtxId) (descs : List (List Word)) (s : State) :
    Host.Outcome State Fault Refusal := s.done (carryOn (descriptorFetchReturn c.val descs s))
/-- COMPLETION_TIMEOUT. -/
def execCompletionTimeout (id : Nat) (s : State) : Host.Outcome State Fault Refusal := s.done (completionTimeout id s)

end Sys2Proof.Machine
end

