-- ==== Sys2Proof/Machine/HostEndpoint.lean ====
section
/-! DEFINITION. The host endpoint (chapter 11): configuration spaces, function-level resets, errors, IDE streams, TDISP and the
resets of the link. -/

namespace Sys2Proof.Machine

/-! ### Resets of functions (R338, R365) -/

/-- The registers of a context window return to their reset values. -/
def resetWindow (c : Nat) (s : State) : State := { s with regs := SMap.keep (fun k => decide (keyFn k ≠ c + 1)) s.regs }

/-- A function-level reset of VF c + 1: its context ends, and its configuration space and its window's registers are
reset. -/
def flrVf (c : Nat) (s : State) : State :=
  let s := resetWindow c (stopCtx c s)
  showStopped (s.onCfg (c + 1) fun _ => FnCfg.init)

/-- VF Enable and NumVFs take new values: a VF that is removed is reset (R338). -/
def vfEnableChange (en : Bool) (num : Nat) (s : State) : State :=
  let gone := (List.range 256).filter fun c => s.fnEnabled (c + 1) && !(en && decide (c + 1 ≤ num))
  let s := each gone flrVf s
  let s := s.onCfg 0 fun x => { x with vfEn := en, numVfs := num }
  (s.wr F.GLB_HEP_STATUS_VF_EN (b2n en)).wr F.GLB_HEP_STATUS_NUMVFS (if en then num else 0)

/-- A function-level reset (R365). That of PF0 clears VF Enable; its MSI-X table and pending bits, which lie in BAR0,
stay. -/
def functionLevelReset (fn : Nat) (s : State) : State :=
  if fn = 0 then
    (vfEnableChange false 0 s).onCfg 0 fun x => { FnCfg.init with table := x.table, pending := x.pending }
  else if s.fnEnabled fn then flrVf (fn - 1) s
  else s

/-! ### Configuration spaces (R215, R227, R347, R356, R360–R363) -/

/-- Does a configuration write break a condition of a locked interface (R356)? -/
def breaksLock (x : FnCfg) (what : CfgField) (v : Nat) : Bool :=
  match what with
  | .busMaster => x.bme && decide (v = 0)
  | .memorySpace => x.mse && decide (v = 0)
  | .atsEnable => x.atsEn && decide (v = 0)
  | .priEnable => x.priEn && decide (v = 0)
  | .bar => decide (v ≠ x.bar)
  | _ => false

/-- Does a field lie in the MSI-X table? -/
def inTable : CfgField → Bool
  | .msixAddr _ => true
  | .msixData _ => true
  | .msixVecMask _ => true
  | _ => false

/-- The configuration space after a write of a field. PF0 has no ATS and no PRI; only PF0 has PASID, the timeout, the
payload and request sizes and the power state (R336, R343, R347, R362). -/
def cfgAfter (fn : Nat) (what : CfgField) (v : Nat) (x : FnCfg) : FnCfg :=
  let on := decide (v ≠ 0)
  match what with
  | .busMaster => { x with bme := on }
  | .memorySpace => { x with mse := on }
  | .atsEnable => if fn = 0 then x else { x with atsEn := on }
  | .priEnable => if fn = 0 then x else { x with priEn := on }
  | .priAllocation => if fn = 0 then x else { x with priAlloc := v }
  | .atomicOpEnable => { x with atomicEn := on }
  | .msixEnable => { x with msixEn := on }
  | .msixMask => { x with msixMask := on }
  | .msixAddr i => { x with table := SMap.upd (fun _ => MsixEnt.init) x.table i.val fun e => { e with addr := v / 4 * 4 } }
  | .msixData i => { x with table := SMap.upd (fun _ => MsixEnt.init) x.table i.val fun e => { e with data := v % 2 ^ 32 } }
  | .msixVecMask i => { x with table := SMap.upd (fun _ => MsixEnt.init) x.table i.val fun e => { e with mask := on } }
  | .bar => { x with bar := v }
  | .pasidEnable => if fn = 0 then { x with pasidEn := on } else x
  | .completionTimeout => if fn = 0 && decide (50 ≤ v) && decide (v ≤ 4000000) then { x with ctoUs := v } else x
  | .maxPayload => if fn = 0 then { x with mps := v } else x
  | .maxReadRequest => if fn = 0 then { x with mrrs := v } else x
  | .powerState => if fn = 0 then { x with d3hot := on } else x

/-- A write of a function's configuration space or MSI-X table. A write that breaks the lock of a TDI ends its context;
a locked table itself is not written. What a mask held back, and page requests that the allocation held back, go out. -/
def configWrite (fn : Nat) (what : CfgField) (v : Nat) (s : State) : State :=
  if !s.fnEnabled fn then s
  else
    let c := fn - 1
    let locked := decide (fn ≠ 0) && (s.ctx c).tdiLocked && s.endable c
    if locked && inTable what && (s.ctx c).lockMsix then tdispBroken c s
    else if inTable what && fn ≠ 0 && !s.windowOpen c 0x8000 false false then answerUr fn true s
    else
      let broken := locked && breaksLock (s.cfg fn) what v
      let s := s.onCfg fn (cfgAfter fn what v)
      let s := sendQueued (if fn = 0 then sendAllPending fn s else priTaken c (sendAllPending fn s))
      if broken then tdispBroken c s else s

/-- A vector's mask, or the function's, is cleared (R363). -/
def msixUnmask (fn : Nat) (vec : Option Nat) (s : State) : State :=
  match vec with
  | none => sendAllPending fn (s.onCfg fn fun x => { x with msixMask := false })
  | some v => onVector fn v (fun e => { e with mask := false }) s

/-! ### Errors (R348–R350) -/

/-- A poisoned request: dropped; a context in LOCKED or RUN ends, and one to PF0 is recorded (R349), under a code that
the spec does not give. -/
def poisonedRequest (fn : Nat) (s : State) : State :=
  let s := noteError 3 fn (fnCtx fn) (s.satInc F.GLB_HEP_ERR_POISON_RX 1)
  if fn = 0 then bbEvent (Config.eventCode 0).toNat (srcHost 0) [] s
  else if s.endable (fn - 1) then
    reportFault 0x000B (srcHost fn) [fn - 1] (some (s.partOf (fn - 1))) 0 0 [] s
  else s

/-- A poisoned request, or a poisoned completion to the request with the given number. -/
def poisonedTlp (fn : Nat) (req : Option Nat) (s : State) : State :=
  match req with
  | none => poisonedRequest fn s
  | some id => hostCompletion id .poisoned [] s

/-! ### IDE (R351–R353) -/

/-- Number of a key of a stream: sub-stream, key set and direction. -/
def ideSlot (sub set : Nat) (tx : Bool) : Nat := 4 * sub + 2 * set + b2n tx

/-- Are the keys of a set programmed in both directions of the three sub-streams? -/
def Stream.complete (x : Stream) (set : Nat) : Bool :=
  (List.range 3).all fun sub => [false, true].all fun tx => SMap.get (fun _ => []) x.keys (ideSlot sub set tx) ≠ []

/-- What GLB_HEP_STRM shows of the stream that serves a context (R368). -/
def showStream (i : Nat) (s : State) : State :=
  let x := s.stream i
  match x.ctx with
  | none => s
  | some c =>
    let s := (s.wr (F.GLB_HEP_STRM_STREAM_ID c) i).wr (F.GLB_HEP_STRM_BOUND c) 1
    (s.wr (F.GLB_HEP_STRM_SECURE c) (b2n x.secure)).wr (F.GLB_HEP_STRM_KEYSET c) x.keyset

/-- A stream that is associated anew leaves the context that it served: GLB_HEP_STRM of a context that it serves no longer
stops showing it (R352, R368). -/
def unshowStream (i : Nat) (new : Option Nat) (s : State) : State :=
  match (s.stream i).ctx with
  | none => s
  | some c =>
    if new = some c || decide (s.rd (F.GLB_HEP_STRM_STREAM_ID c) ≠ i) then s
    else ((s.wr (F.GLB_HEP_STRM_BOUND c) 0).wr (F.GLB_HEP_STRM_SECURE c) 0).wr (F.GLB_HEP_STRM_KEYSET c) 0

/-- The context that a stream names: one VF exactly, with its BAR0 covered (R352). -/
def streamCtx (base limit : Nat) (bar : Bool) : Option Nat :=
  if bar && base = limit && decide (1 ≤ base) then some (base - 1) else none

/-- An IDE check failure (R353): the stream goes Insecure, and its context ends. A stream that is not Secure is erased or
was never started: nothing changes. -/
def ideCheckFailed (i : Nat) (s : State) : State :=
  let x := s.stream i
  if !x.secure then s
  else
    let s := noteError 7 0 x.ctx (s.satInc F.GLB_HEP_ERR_IDE_FAIL 1)
    let s := showStream i (s.onStream i fun x => { x with secure := false })
    match x.ctx with
    | none => s
    | some c =>
      if s.endable c then reportFault 0x000D (srcHost (c + 1)) [c] (some (s.partOf c)) 0 0 [] s else s

/-- Is a session number open on a path (R359)? -/
def State.session? (s : State) (mctp : Bool) (id : Nat) : Option Session :=
  s.sessions.find? fun x => decide (x.id = id) && x.mctp = mctp

/-- An IDE_KM message inside a session of the DOE mailbox (R351): keys are programmed, the stream started on a range of
functions, stopped, or its key set changed. -/
def ideKm (ses i : Nat) (op : IdeOp) (s : State) : State :=
  match s.session? false ses with
  | none => s
  | some _ =>
    let s := { s with doe := { s.doe with busy := false } }
    let reply (s : State) : State := s.out (.doeObject false (Config.standardReply [byte 3, byte i] []))
    match op with
    | .program sub set tx key =>
      reply (s.onStream i fun x =>
        { x with keys := SMap.put (fun _ => []) x.keys (ideSlot sub.val set.val tx) key })
    | .start base limit bar =>
      let c := streamCtx base.val limit.val bar
      reply (showStream i ((unshowStream i c s).onStream i fun x => { x with ctx := c, secure := x.complete x.keyset }))
    | .setGo set =>
      let x := s.stream i
      if !x.complete set.val then reply s
      else
        let changed := decide (x.keyset ≠ set.val)
        let s := s.onStream i fun x => { x with keyset := set.val }
        let s := match x.ctx with
          | some c => if changed then s.satInc (F.GLB_HEP_STRM_KEY_UPDATES c) 1 else s
          | none => s
        reply (showStream i s)
    | .stop =>
      let x := s.stream i
      let s := reply (showStream i (s.onStream i fun x => { x with secure := false, keys := [] }))
      match x.ctx with
      | some c => tdispBroken c s
      | none => s

/-! ### TDISP (R355–R357) -/

/-- Message codes of TDISP 1.0 responses (PRESUMED: the standard's, log entry 13). -/
def tdispError : Nat := 0x7F

/-- A TDISP response inside a session of the DOE mailbox; it frees the mailbox. -/
def tdispReply (c code : Nat) (data : List Byte) (s : State) : State :=
  { s.out (.tdisp c code data) with doe := { s.doe with busy := false } }

/-- Carry a TDISP request out inside an open session of the DOE mailbox; without one it is not answered (R359). -/
def inSession (ses : Nat) (f : State → State) (s : State) : State :=
  match s.session? false ses with
  | none => s
  | some _ => f s

/-- Has a context a host stream (R356)? -/
def State.hostStream (s : State) (c : Nat) : Bool :=
  s.on (F.CTXW_RING_BASE_SPACE c) || s.on (F.CTXW_CMPL_BASE_SPACE c) || s.on (F.CTXW_RING_WORDS_SPACE c) ||
    (List.range 4).any fun i => s.on (F.CTXW_PASID_VALID c i)

/-- The checks of a LOCK_INTERFACE_REQUEST (R281, R355, R356). -/
def State.tdispLockOk (s : State) (c stream : Nat) (flags : BitVec 16) : Bool :=
  let x := s.cfg (c + 1)
  s.lockOk c && !flags.getLsbD 3 && decide ((s.stream stream).ctx = some c) && (s.stream stream).secure &&
    x.bme && x.mse && (!s.hostStream c || (x.atsEn && x.priEn && decide (x.priAlloc ≠ 0)))

/-- LOCK_INTERFACE_REQUEST: a fresh start nonce of 32 bytes (flag bits: the standard's, PRESUMED, log entry 13). -/
def tdispLock (ses c stream : Nat) (flags : BitVec 16) (s : State) : State :=
  inSession ses (fun s =>
    if s.tdispLockOk c stream flags then
      let nonce := s.freeBytes 32
      let s := (lockCtx c (s.drawnN 32)).onCtx c fun x =>
        { x with tdiLocked := true, nonce := nonce, lockMsix := flags.getLsbD 2 }
      let s := { s with sessions := s.sessions.map fun (y : Session) => if y.id = ses && !y.mctp then { y with tdi := some c } else y }
      tdispReply c 0x03 nonce s
    else tdispReply c tdispError [] s) s

/-- START_INTERFACE_REQUEST: with the nonce of the lock (R355). -/
def tdispStart (ses c : Nat) (nonce : List Byte) (s : State) : State :=
  inSession ses (fun s =>
    if s.ctxState c = 3 && (s.ctx c).tdiLocked && decide ((s.ctx c).nonce = nonce) then tdispReply c 0x06 [] (runCtx c s)
    else tdispReply c tdispError [] s) s

/-- STOP_INTERFACE_REQUEST (R280): in a state that the table does not list it is refused. -/
def tdispStop (ses c : Nat) (s : State) : State :=
  inSession ses (fun s =>
    if 3 ≤ s.ctxState c && s.ctxState c ≤ 5 then tdispReply c 0x07 [] (stopCtx c s) else tdispReply c tdispError [] s) s

/-- The device-specific information of an interface report (R357). -/
def State.deviceInfo (s : State) (c : Nat) : List Byte :=
  let p := s.partOf c
  let b := p + 8 * b2n (s.on (F.CTX_CFG_NONCONF c)) + 16 * b2n (s.on (F.CTXW_CTL_MEASURE c)) +
    32 * b2n (s.on (F.CTX_PART_SOLE p))
  [byte c, byte b] ++ leBytes (s.rd (F.CTX_CFG_NCH c)) 2 ++ leBytes (s.rd (F.CTX_CFG_TENANT c)) 2 ++ [0, 0] ++
    leBytes (s.range c) 8

/-- The interface report: the standard's list of the five ranges of R340, then the device's information. -/
def State.ifaceReport (s : State) (c : Nat) : List Byte :=
  let d := s.deviceInfo c
  Config.standardReply [byte 0x04] [byte c, byte (b2n (s.ctx c).lockMsix)] ++ leBytes d.length 4 ++ d

/-- GET_DEVICE_INTERFACE_REPORT: a part of the report, of a TDI that is locked or runs (PRESUMED: the standard's
condition, log entry 13). -/
def tdispReport (ses c off len : Nat) (s : State) : State :=
  inSession ses (fun s =>
    if s.endable c then
      let part := ((s.ifaceReport c).drop off).take len
      tdispReply c 0x04 (leBytes part.length 2 ++ leBytes ((s.ifaceReport c).length - off - part.length) 2 ++ part) s
    else tdispReply c tdispError [] s) s

/-! ### DOE (R358) -/

/-- A data object arrives at the mailbox. Discovery is answered at once; SPDM objects go to Heartwood, and another type
is discarded. -/
def doeObject (len typ : Nat) (data : List Byte) (s : State) : State :=
  if len > 65536 || s.doe.busy then { s with doe := { s.doe with error := true } }
  else if typ = 0 then
    let i := fieldAt data 0 1
    s.out (.doeObject false [byte 1, 0, byte i, byte (if i < 2 then i + 1 else 0)])
  else if typ = 1 || typ = 2 then { s with doe := { s.doe with busy := true } }
  else s

/-! ### The link (R366, R367, R368, R489) -/

/-- The endpoint's logic in PD3 resets: requests outstanding are abandoned and their slots freed, streams erased, and
contexts in LOCKED or RUN end. -/
def linkReset (s : State) : State :=
  let s := s.wr F.GLB_HEP_STATUS_LINK_UP 0
  let asked := s.hostReqs
  let s := { s with hostReqs := [], atsReqs := [], invs := [], doe := { busy := false, error := false } }
  let s := each asked (fun r s => match r.use with | .mesh h => meshAnswer h none s | _ => s) (s.wr F.XLT_STATUS_INV_BUSY 0)
  let s := (s.wr F.GLB_HEP_TAGS_RSV_USED 0).wr F.GLB_HEP_TAGS_POOL_USED 0
  let s := each (List.range 8) (fun p s => s.wr (F.GLB_HEP_PART_USED p) 0) s
  let s := each (s.streams.map (·.1)) (fun i s => showStream i (s.onStream i fun x => { x with secure := false, keys := [] })) s
  let s := each ((List.range 256).filter s.endable) (ctxFault' 0x000F) s
  let s := { s with hcfg := [] }
  showStopped ((s.wr F.GLB_HEP_STATUS_VF_EN 0).wr F.GLB_HEP_STATUS_NUMVFS 0)
where
  ctxFault' (code c : Nat) (s : State) : State :=
    reportFault code (srcHost (c + 1)) [c] (some (s.partOf c)) 0 0 [] s

/-- HOST_LINK_DOWN. -/
def hostLinkDown (s : State) : State := if s.on F.GLB_HEP_STATUS_LINK_UP then linkReset s else s

/-- PERST# asserted: as a link-down, and the endpoint's registers are reset, but for the allotments that it reports
(R366, R368). -/
def perstAssert (s : State) : State :=
  let s := linkReset (s.onPins fun x => { x with perstN := false })
  let s := [R.GLB_HEP_STATUS, R.GLB_HEP_ERR, R.GLB_HEP_LAST_ERR].foldl (fun s k => s.setReg k (regReset k)) s
  let s := s.wr F.GLB_HEP_TAGS_PEAK 0
  each (List.range 256) (fun c s => s.setReg (R.GLB_HEP_STRM c) (regReset (R.GLB_HEP_STRM c))) s

/-- PERST# deasserted: the link trains; a wake event of code 0x3. -/
def perstDeassert (s : State) : State := wakeEvent 3 (s.onPins fun x => { x with perstN := true })

/-- The link is up, at a speed and width (R366, R368). -/
def hostLinkUp (speed width : Nat) (flit : Bool) (s : State) : State :=
  if !s.pins.perstN || s.endpointOff then s
  else
    let s := ((s.wr F.GLB_HEP_STATUS_LINK_UP 1).wr F.GLB_HEP_STATUS_SPEED speed).wr F.GLB_HEP_STATUS_WIDTH width
    let s := s.wr F.GLB_HEP_STATUS_FLIT (b2n flit)
    let s := (s.wr F.GLB_HEP_STATUS_VF_EN 0).wr F.GLB_HEP_STATUS_NUMVFS 0
    s.onCfg 0 fun x => { x with vfEn := false, numVfs := 0 }

/-- The link leaves L1 or L1.2 (R491): a wake event of code 0x2; in L4 Shelf PD3 comes on before the link reaches L0. -/
def linkL1Exit (s : State) : State :=
  let s := if s.rd F.PWR_STATUS_STATE = 4 then (s.wr (F.PWR_DOMAIN_COND 3) 0).wr (F.PWR_DOMAIN_WAKE_LAST 3) 2 else s
  wakeEvent 2 s

/-! ### The commands -/

/-- FUNCTION_LEVEL_RESET. -/
def execFunctionLevelReset (fn : FnId) (s : State) : Host.Outcome State Fault Refusal := s.done (functionLevelReset fn.val s)
/-- VF_ENABLE_CHANGE. -/
def execVfEnableChange (en : Bool) (num : Fin 257) (s : State) : Host.Outcome State Fault Refusal :=
  s.done (vfEnableChange en num.val s)
/-- CONFIGURATION_WRITE. -/
def execConfigurationWrite (fn : FnId) (what : CfgField) (v : Nat) (s : State) : Host.Outcome State Fault Refusal :=
  s.done (configWrite fn.val what v s)
/-- LOCKED_CONFIG_CHANGE. -/
def execLockedConfigChange (c : CtxId) (what : CfgField) (v : Nat) (s : State) : Host.Outcome State Fault Refusal :=
  s.done (configWrite (c.val + 1) what v s)
/-- MSIX_UNMASK. -/
def execMsixUnmask (fn : FnId) (vec : Option (Fin 8)) (s : State) : Host.Outcome State Fault Refusal :=
  s.done (msixUnmask fn.val (vec.map (·.val)) s)
/-- UNSUPPORTED_REQUEST: not performed. -/
def execUnsupportedRequest (fn : FnId) (posted : Bool) (s : State) : Host.Outcome State Fault Refusal :=
  s.done (answerUr fn.val posted s)
/-- MALFORMED_TLP: dropped. -/
def execMalformedTlp (fn : FnId) (s : State) : Host.Outcome State Fault Refusal :=
  s.done (noteError 2 fn.val (fnCtx fn.val) s)
/-- POISONED_TLP. -/
def execPoisonedTlp (fn : FnId) (req : Option Nat) (s : State) : Host.Outcome State Fault Refusal :=
  s.done (poisonedTlp fn.val req s)
/-- UNEXPECTED_COMPLETION: dropped. -/
def execUnexpectedCompletion (fn : FnId) (s : State) : Host.Outcome State Fault Refusal :=
  s.done (noteError 6 fn.val (fnCtx fn.val) s)
/-- IDE_CHECK_FAILED. -/
def execIdeCheckFailed (st : Fin 256) (s : State) : Host.Outcome State Fault Refusal := s.done (ideCheckFailed st.val s)
/-- IDE_KM. -/
def execIdeKm (ses : Nat) (st : Fin 256) (op : IdeOp) (s : State) : Host.Outcome State Fault Refusal :=
  s.done (ideKm ses st.val op s)
/-- LOCK_INTERFACE_REQUEST. -/
def execLockInterfaceRequest (ses : Nat) (c : CtxId) (stream : Fin 256) (flags : BitVec 16) (s : State) :
    Host.Outcome State Fault Refusal := s.done (tdispLock ses c.val stream.val flags s)
/-- START_INTERFACE_REQUEST. -/
def execStartInterfaceRequest (ses : Nat) (c : CtxId) (nonce : List Byte) (s : State) :
    Host.Outcome State Fault Refusal := s.done (tdispStart ses c.val nonce s)
/-- STOP_INTERFACE_REQUEST. -/
def execStopInterfaceRequest (ses : Nat) (c : CtxId) (s : State) : Host.Outcome State Fault Refusal :=
  s.done (tdispStop ses c.val s)
/-- GET_TDISP_VERSION: one version, 1.0. -/
def execGetTdispVersion (ses : Nat) (c : CtxId) (s : State) : Host.Outcome State Fault Refusal :=
  s.done (inSession ses (tdispReply c.val 0x01 [1, 0x10]) s)
/-- GET_TDISP_CAPABILITIES. -/
def execGetTdispCapabilities (ses : Nat) (c : CtxId) (s : State) : Host.Outcome State Fault Refusal :=
  s.done (inSession ses (tdispReply c.val 0x02 (Config.standardReply [0x02] [])) s)
/-- GET_DEVICE_INTERFACE_REPORT. -/
def execGetDeviceInterfaceReport (ses : Nat) (c : CtxId) (off : Nat) (len : Nat) (s : State) :
    Host.Outcome State Fault Refusal := s.done (tdispReport ses c.val off len s)
/-- GET_DEVICE_INTERFACE_STATE: the TDI's state (R279). -/
def execGetDeviceInterfaceState (ses : Nat) (c : CtxId) (s : State) : Host.Outcome State Fault Refusal :=
  s.done (inSession ses (fun s => tdispReply c.val 0x05 [byte (s.rd (F.CTX_STATE_TDI c.val))] s) s)
/-- DOE_OBJECT. -/
def execDoeObject (len : Nat) (typ : Nat) (data : List Byte) (s : State) : Host.Outcome State Fault Refusal :=
  s.done (doeObject len typ data s)
/-- DOE_ABORT: the mailbox is emptied. -/
def execDoeAbort (s : State) : Host.Outcome State Fault Refusal := s.done { s with doe := { busy := false, error := false } }
/-- HOST_LINK_DOWN. -/
def execHostLinkDown (s : State) : Host.Outcome State Fault Refusal := s.done (hostLinkDown s)
/-- PERST_ASSERT. -/
def execPerstAssert (s : State) : Host.Outcome State Fault Refusal := s.done (perstAssert s)
/-- PERST_DEASSERT. -/
def execPerstDeassert (s : State) : Host.Outcome State Fault Refusal := s.done (perstDeassert s)
/-- HOST_LINK_UP. -/
def execHostLinkUp (speed : Fin 16) (width : Fin 32) (flit : Bool) (s : State) : Host.Outcome State Fault Refusal :=
  s.done (hostLinkUp speed.val width.val flit s)
/-- LINK_L1_EXIT. -/
def execLinkL1Exit (s : State) : Host.Outcome State Fault Refusal := s.done (linkL1Exit s)

end Sys2Proof.Machine
end

