-- ==== Sys2Proof/Machine/TileTests.lean ====
section
/-! DEFINITION. Commands of the tiles: billets, partials, queue entries and writes (R35, R39, R42), the self-test rotation
(R47, R458) and the walks of the other blocks (R459). -/

namespace Sys2Proof.Machine

/-! ### Billets -/

/-- BILLET_END. -/
def execBilletEnd (t : TileId) (fx : List CellFx) (s : State) : Host.Outcome State Fault Refusal :=
  s.done (billetEnd t.val fx s)
/-- SPLIT_K_PARTIAL_ARRIVAL. -/
def execSplitKPartialArrival (t src : TileId) (s : State) : Host.Outcome State Fault Refusal :=
  s.done (partialArrival t.val src.val s)
/-- FTQ_ENTRY_FREED: an entry that has been written, or is the vector engine's no more, frees; a stopped final drain
resumes (R35). -/
def ftqEntryFreed (t : Nat) (s : State) : State :=
  match (s.tile t).ftq with
  | e :: _ => if e.written && !e.writing && !(s.tile t).vxe.run then freeEntry t s else refillQueue t s
  | [] => refillQueue t s
/-- FTQ_ENTRY_FREED. -/
def execFtqEntryFreed (t : TileId) (s : State) : Host.Outcome State Fault Refusal := s.done (ftqEntryFreed t.val s)
/-- BLOCK_WRITTEN. -/
def execBlockWritten (t : TileId) (s : State) : Host.Outcome State Fault Refusal := s.done (blockWritten t.val s)

/-! ### The rotation (R47, R458) -/

/-- The next tile of the rotation, and whether it begins a new pass. -/
def State.nextTest (s : State) : Option (Nat × Bool) :=
  match s.tls.first.find? s.tileServes with
  | some t => some (t, false)
  | none =>
    match ((List.range 64).drop s.tls.next).find? s.tileServes with
    | some t => some (t, false)
    | none => ((List.range 64).find? s.tileServes).map fun t => (t, true)

/-- Take a tile out of service at a billet boundary: its state goes to its context's save area, and its unfinished chains are
dealt at once to the other tiles (R47, R51). The other tile of a pair, which holds the same, is cleared with it. -/
def takeForTest (t : Nat) (s : State) : State :=
  let both := if s.paired t && s.tileServes (s.partner t) then [t, s.partner t] else [t]
  let c := s.tileCtx t
  let s := match c with
    | none => s
    | some c => saveTile c (if s.secondary t then s.partner t else t) s
  let s := (each both clearTile s).wr (F.MXA_STATUS_STATE t) 4
  match c with
  | none => s
  | some c => dealOn c (placeSaved c (holdTiles c (s.partOf c) s))

/-- SELF_TEST_START (R458): in L0 Run, with the device ready and no tile under test. -/
def selfTestStart (s : State) : State :=
  if s.on F.TLS_ROT_BUSY || s.rd F.GLB_CFG_STATUS_STATE ≠ 1 || !s.atL0 then s
  else match s.nextTest with
    | none => s
    | some (t, wrap) =>
      let s := takeForTest t s
      let s := if s.tls.first.contains t then { s with tls := { s.tls with first := s.tls.first.erase t } }
        else { s with tls := { s.tls with next := t + 1 } }
      let s := if wrap then s.wrapInc F.TLS_ROT_PASSES 1 else s
      (s.wr F.TLS_ROT_CUR_TILE t).wr F.TLS_ROT_BUSY 1

/-- Operations that no tile was there for are dealt now (R55). -/
def dealWaiting (p : Nat) (s : State) : State :=
  match s.holderOf p with
  | none => s
  | some c =>
    dealOn c (each ((s.ctx c).ops.filter fun o => o.isMatrix && o.started && o.done.isNone && o.deal = 0)
      (fun o s => beginDeal c o.seq s) s)

/-- A tile returns to service: it is held by the context of the slice, and takes what was saved and waits for a tile. Where
its partner has retired meanwhile, it is PAIR_LOST (R50). -/
def tileReturns (t : Nat) (s : State) : State :=
  let lost := s.paired t && decide (s.rd (F.MXA_STATUS_STATE (s.partner t)) = 5)
  let s := (s.wr (F.MXA_STATUS_STATE t) (if lost then 7 else 1)).wr (F.VXE_STATUS_STATE t) (if lost then 0 else 1)
  match s.partOfGroup (t / 8) with
  | none => s
  | some p =>
    if lost then noTileFault p s
    else match s.holderOf p with
      | none => s
      | some c => dealWaiting p (placeSaved c (holdTiles c p s))

/-- A tile fails its test and retires (R44, R47). -/
def testFails (t row col : Nat) (s : State) : State := retireTiles [{ tile := t, row := row, col := col, bits := 0 }] 0 s

/-- SELF_TEST_END (R47). A cell position beyond the array's 128 lines names a witness line, which the record's bytes hold
as it is. -/
def selfTestEnd (t : Nat) (pass : Bool) (row col : Nat) (s : State) : State :=
  if s.rd (F.MXA_STATUS_STATE t) ≠ 4 then s
  else
    let s := s.wr F.TLS_ROT_BUSY 0
    if pass then tileReturns t s else testFails t row col s

/-- SELF_TEST_START. -/
def execSelfTestStart (s : State) : Host.Outcome State Fault Refusal := s.done (selfTestStart s)
/-- SELF_TEST_END. -/
def execSelfTestEnd (t : TileId) (pass : Bool) (row col : Fin 129) (s : State) : Host.Outcome State Fault Refusal :=
  s.done (selfTestEnd t.val pass row.val col.val s)

/-! ### The other blocks (R459) -/

/-- A DMA engine fails and leaves service until device reset (R463). -/
def engineFails (e : Nat) (s : State) : State :=
  let ctxs := match (s.engine e).op with | some (c, _) => [c] | none => []
  let s := s.onEngine e fun x => { x with outOfService := true }
  reportFault 0x0014 (srcGroup (e / 4)) ctxs (s.partOfGroup (e / 4)) e 0 [] s

/-- LATENT_CHECK_WALK (R459). A failing walk of a scheduler instance has no code in R463, and changes nothing. -/
def latentCheck (u : LatentUnit) (pass : Bool) (s : State) : State :=
  if pass then s
  else match u with
    | .router r => reportFault 0x0104 (srcRouter r.val) [] none 0 0 [] s
    | .translation => reportFault 0x0104 srcXlt [] none 0 0 [] s
    | .engine e => engineFails e.val s
    | .scheduler _ => s

/-- LATENT_CHECK_WALK. -/
def execLatentCheckWalk (u : LatentUnit) (pass : Bool) (s : State) : Host.Outcome State Fault Refusal :=
  s.done (latentCheck u pass s)

end Sys2Proof.Machine
end

