-- ==== Sys2Proof/Machine/Monitors.lean ====
section
/-! DEFINITION. Detected faults as they reach Tailstock, and the watches and monitors of the device (R457, R460, R461, R501,
R539, R541, R544). -/

namespace Sys2Proof.Machine

/-- The tile that a report names: its source. -/
def reportTile (f : FaultRep) : Option Nat :=
  if f.source.toNat / 4096 = 2 && f.source.toNat % 4096 < 64 then some (f.source.toNat % 64) else none

/-- The contexts that a report names. -/
def reportReach (f : FaultRep) : List Nat := f.ctxs.map (·.val)

/-- Report a fault with a report's own fields. -/
def reportAs (code : Nat) (f : FaultRep) (s : State) : State :=
  reportFault code f.source.toNat (reportReach f) (f.part.map (·.val)) f.res.toNat f.addr.toNat f.extra s

/-- Bank of a bowl address: 32 banks of 128 KiB (R26). -/
def bowlBank (a : Nat) : Nat := a / 131072 % 32

/-- The context whose work a tile's vector engine does: that of the kernel it last ran, else the tile's (R143). -/
def State.vxeCtx (s : State) (t : Nat) : Nat :=
  match (s.tile t).vxe.opKey with
  | some (c, _) => c
  | none => (s.tileCtx t).getD 0

/-- A retirement that a detecting agent reports: row, column and the bits of byte 14 stand in the report (R44, R136, R474). A
residue failure stands in VXE_FAULT too (R134), and a disagreement of a pair retires both of its tiles (R50). -/
def reportedRetirement (t : Nat) (f : FaultRep) (s : State) : State :=
  if s.rd (F.MXA_STATUS_STATE t) = 5 then s
  else
    let b14 := fieldAt f.extra 2 1
    let s := if b14.testBit 4 then vxeFaultSeen t 0x10 (s.vxeCtx t) (s.satInc (F.VXE_ECC_RESIDUE_CNT t) 1) else s
    let r : Retiring := { tile := t, row := fieldAt f.extra 0 1, col := fieldAt f.extra 1 1, bits := b14 }
    retireTiles (if b14.testBit 3 && s.paired t then [r, { r with tile := s.partner t }] else [r]) f.addr.toNat s

/-- What the block of the source shows or does for a fault's code, beside the class (R63, R136, R463, R471). -/
def blockShows (f : FaultRep) (s : State) : State :=
  match f.code.toNat, reportTile f with
  | 0x0011, some t => vxeFaultSeen t 0x11 (s.vxeCtx t) (s.wr (F.VXE_ECC_UE t) 1)
  | 0x0012, some t => (s.wr (F.BWL_ECC_UE t) 1).wr (F.BWL_ECC_UE_BANK t) (bowlBank f.addr.toNat)
  | 0x0201, some t =>
    if f.addr.toNat < 2 ^ 22 then s.satInc (F.BWL_ECC_CE_CNT t) 1 else s.satInc (F.VXE_ECC_CE_CNT t) 1
  | 0x0014, _ => if f.res.toNat < 32 then s.onEngine f.res.toNat fun x => { x with outOfService := true } else s
  | 0x0702, _ => s.wr F.BBX_STATUS_NVM_FAIL 1
  | _, _ => s

/-- A detected fault reaches Tailstock. A tile that retires leaves service (R44); one whose sequencer failed retires once
the fault itself is recorded (R463). -/
def faultReport (f : FaultRep) (s : State) : State :=
  match f.code.toNat, reportTile f with
  | 0x0102, some t => reportedRetirement t f s
  | 0x0015, some t =>
    let s := reportAs 0x0015 f s
    if s.rd (F.MXA_STATUS_STATE t) = 5 then s else retireTiles [{ tile := t, row := 0, col := 0, bits := 0 }] f.addr.toNat s
  | n, _ => reportAs n f (blockShows f s)

/-- FAULT_REPORT (R461). -/
def execFaultReport (f : FaultRep) (s : State) : Host.Outcome State Fault Refusal := s.done (faultReport f s)

/-- TLS_SELFCHECK (R460). -/
def execTlsSelfcheck (s : State) : Host.Outcome State Fault Refusal := s.done (reportFault 0x0303 srcTailstock [] none 0 0 [] s)

/-- MGT_WATCHDOG (R455, R463). -/
def execMgtWatchdog (s : State) : Host.Outcome State Fault Refusal := s.done (reportFault 0x0304 srcMgt [] none 0 0 [] s)

/-- Limits that are exceeded clear the promise (R544). -/
def exceed (bit : Nat) (s : State) : State := promiseNow { s with tls := { s.tls with limits := putBit s.tls.limits bit true } }

/-- A clock stops or departs (R501, R508); the loss of REFCLK also takes the host link down. Clocks are numbered as
LOCK. -/
def clkFail (clk err : Nat) (s : State) : State :=
  let s := (s.wrBit F.CLK_STATUS_FAIL clk true).wr F.CLK_MON_CLOCK clk
  let s := (s.wr F.CLK_MON_ERR err).wr F.CLK_MON_TIME s.now
  let s := if clk = 4 && s.linkUp then hostLinkDown s else s
  reportFault 0x0501 (srcPower 0) [] none clk 0 [] s

/-- CLK_FAIL. The AON clock is the one that the others are checked against: no monitor reports it (R501). -/
def execClkFail (clk : Fin 6) (err : BitVec 8) (s : State) : Host.Outcome State Fault Refusal :=
  s.done (if clk.val = 5 then s else clkFail clk.val err.toNat s)

/-- A rail of a domain outside its window (R539, R544). -/
def railFault (code d : Nat) (s : State) : State := reportFault code (srcPower d) [] none 0 0 [] (exceed 1 s)

/-- VDD_UNDER. -/
def execVddUnder (d : Fin 20) (s : State) : Host.Outcome State Fault Refusal := s.done (railFault 0x0502 d.val s)

/-- VDD_OVER. -/
def execVddOver (d : Fin 20) (s : State) : Host.Outcome State Fault Refusal := s.done (railFault 0x0503 d.val s)

/-- HUB_OVERTEMP (R544). -/
def execHubOvertemp (s : State) : Host.Outcome State Fault Refusal :=
  s.done (reportFault 0x0504 (srcPower 0) [] none 0 0 [] (exceed 0 s))

/-- ENTROPY_FAIL (R463). -/
def execEntropyFail (s : State) : Host.Outcome State Fault Refusal :=
  s.done (reportFault 0x0701 srcHeartwood [] none 0 0 [] (s.onHw fun h => { h with entropyOk := false }))

/-- The power domain that a fault of a rail group is reported under: the first that the group supplies (R482, R538). -/
def groupDomain (g : Nat) : Nat := if g = 0 then 1 else if g = 1 then 13 else 16

/-- A power-good input falls while its group is enabled (R541): VDD_UNDER, or the loss of a site die's link. -/
def pgFall (g : Nat) (s : State) : State :=
  let on := !s.pins.enLow.testBit g
  let s := s.onPins fun x => { x with pg := putBit x.pg g false }
  if !on then s
  else if g < 3 then railFault 0x0502 (groupDomain g) s
  else dieLinkDown (10 + (g - 3)) s

/-- PG_FALL. -/
def execPgFall (g : Fin 7) (s : State) : Host.Outcome State Fault Refusal := s.done (pgFall g.val s)

/-- PG_RISE (R490, R541): what an exit waited for proceeds. -/
def execPgRise (g : Fin 7) (s : State) : Host.Outcome State Fault Refusal :=
  s.done (exitLines (s.onPins fun x => { x with pg := putBit x.pg g.val true }))

end Sys2Proof.Machine
end

