-- ==== Sys2Proof/Machine/Respond.lean ====
section
/-! DEFINITION. Responses to role commands (R413, R417, R419): their bytes, where they go, and what is counted. -/

namespace Sys2Proof.Machine

/-- STATUS values of R417. -/
def rcOk : Nat := 0x00
/-- BAD_FORMAT. -/
def rcFormat : Nat := 0x01
/-- BAD_SERIAL. -/
def rcSerial : Nat := 0x02
/-- BAD_CHALLENGE. -/
def rcChallenge : Nat := 0x03
/-- NOT_AUTHORISED. -/
def rcRight : Nat := 0x04
/-- BAD_SIGNATURE. -/
def rcSignature : Nat := 0x05
/-- WRONG_STATE. -/
def rcState : Nat := 0x06
/-- BAD_IMAGE. -/
def rcImage : Nat := 0x07
/-- ROLLBACK. -/
def rcRollback : Nat := 0x08
/-- OTP_FULL. -/
def rcOtp : Nat := 0x09
/-- BUSY. -/
def rcBusy : Nat := 0x0A
/-- BAD_TOKEN. -/
def rcToken : Nat := 0x0B
/-- TARGET_REFUSED. -/
def rcTarget : Nat := 0x0C

/-- KEY_ID of the alias pair, from HWD_ALIAS (R440). -/
def State.aliasId (s : State) : List Byte := (List.range 6).flatMap fun w => leBytes (s.reg (R.HWD_ALIAS w)).toNat 8

/-- A signature pair that the device makes with the alias pair (R404, R406). -/
def aliasPair (s : State) (l : Label) (msg : List Byte) : List Byte :=
  [2, 0, 0, 0] ++ leBytes 36104 4 ++ padTo 48 s.aliasId ++ padTo 36048 (Config.signPair l.bytes (s.aliasId ++ msg))

/-- Header of a response (R417). -/
def respHeader (code status len bbSeq detail : Nat) : List Byte :=
  leBytes code 2 ++ [byte status, 0] ++ leBytes len 4 ++ leBytes bbSeq 8 ++ leBytes detail 4 ++ List.replicate 12 0

/-- The bytes of a response. One to a signed command carries a signature pair while the device holds an alias pair. -/
def respBytes (s : State) (code status detail bbSeq : Nat) (signed : Bool) (data : List Byte) : List Byte :=
  if signed && (s.lc = 1 || s.lc = 2) then
    let msg := respHeader code status (32 + data.length + 36104) bbSeq detail ++ data
    msg ++ aliasPair s .response msg
  else respHeader code status (32 + data.length) bbSeq detail ++ data

/-- Write bytes into the command and response slots. -/
def mbxPut (a : Nat) (bs : List Byte) (s : State) : State :=
  { s with mbx := bs.zipIdx.foldl (fun m b => SMap.put (fun _ => 0) m (a + b.2) b.1) s.mbx }

/-- Send a response on the path of its command (R413, R419). -/
def sendResponse (mctp : Bool) (bs : List Byte) (s : State) : State :=
  if mctp then (s.out (.roleResponse true bs)).wr F.MBX_STATUS_MCTP_BUSY 0
  else
    let h := s.rd F.MBX_CMD_HEAD_HEAD
    let s := (mbxPut (0x80000 + 0x20000 * (h % 4)) bs s).wrapInc F.MBX_CMD_HEAD_HEAD 1
    raiseVector 0 0 (s.wr F.MBX_STATUS_BUSY 0)

/-- Answer a command: the response, the counts and MBX_STATUS (R417, R439, R440). -/
def respond (mctp : Bool) (code status detail bbSeq : Nat) (signed : Bool) (data : List Byte) (s : State) : State :=
  let bs := respBytes s code status detail bbSeq signed data
  let s := if status = 0 then s.wrapInc F.HWD_COUNT_ACCEPTED 1 else s.satInc F.HWD_COUNT_REFUSED 1
  let s := (s.wr F.MBX_STATUS_LAST_CODE code).wr F.MBX_STATUS_LAST_STATUS status
  sendResponse mctp bs s

end Sys2Proof.Machine
end

