-- ==== Sys2Proof/Machine/Power.lean ====
section
/-! DEFINITION. The power ladder (R482–R495): commands, negotiation, entry and exit; the power measurement and its control
(R22, R496–R499); the alarm of the time base (R505). -/

namespace Sys2Proof.Machine

/-! ### Conditions of the domains (R482) -/

/-- A group that lies in no partition stays off (R288). -/
def State.groupOff (s : State) (g : Nat) : Bool := (s.partOfGroup g).isNone

/-- Condition of domain `d` in state `l` of the ladder: 0 on, 1 retention, 2 low-power, 3 off. -/
def State.condIn (s : State) (l d : Nat) : Nat :=
  if d = 0 then 0
  else if 4 ≤ l then 3
  else if d = 1 then (if l = 3 then 1 else 0)
  else if d = 4 then (if l = 3 then 3 else 0)
  else if 5 ≤ d ∧ d ≤ 12 then (if s.groupOff (d - 5) || l = 3 then 3 else if l = 2 then 1 else 0)
  else if 13 ≤ d ∧ d ≤ 15 then (if l = 3 then 2 else 0)
  else if d = 16 ∨ d = 17 then (if 2 ≤ l then 3 else 0)
  else if d = 18 then (if 2 ≤ l then 1 else 0)
  else if d = 19 then (if s.scopesOpen ≠ 0 then 0 else 3)
  else 0

/-- Bring every domain into its condition for a state; a domain that comes out of off or retention records the wake code
(R489). -/
def showDomains (l wake : Nat) (s : State) : State :=
  each (List.range 20) (fun d s =>
    let old := s.rd (F.PWR_DOMAIN_COND d)
    let new := s.condIn l d
    let s := if (old = 3 && new ≠ 3) || (old = 1 && new = 0) then s.wr (F.PWR_DOMAIN_WAKE_LAST d) wake else s
    s.wr (F.PWR_DOMAIN_COND d) new) s

/-! ### Answers and refusals (R484, R485, R494, R495) -/

/-- Answer the POWER_STATE behind a move; a PWR_CMD has no response. -/
def answerMove (m : Move) (status detail : Nat) (data : List Byte) (s : State) : State :=
  if m.who = 0 then s else respond (m.who = 2) 0x32 status detail m.bbSeq true data s

/-- Response data of POWER_STATE. -/
def State.moveData (s : State) : List Byte :=
  [byte (s.rd F.PWR_STATUS_STATE), byte (s.rd F.PWR_STATUS_LAST_RESULT)] ++ List.replicate 6 0 ++ leBytes s.now 8

/-- The command is refused with a result code. -/
def refuseMove (m : Move) (r : Nat) (s : State) : State := answerMove m rcState r [] (s.wr F.PWR_STATUS_LAST_RESULT r)

/-- A limit lies within R497. -/
def State.limitOk (s : State) : Option Nat → Bool
  | none => true
  | some w => decide (900 ≤ w) && decide (w ≤ s.rd F.PWR_LIMIT_MAX_W)

/-- Is a condition of R485 that refuses every entry, or a deep one, met? The first in table order, or zero. -/
def State.entryBar (s : State) (target : Nat) : Nat :=
  if s.rd F.GLB_CFG_STATUS_STATE ≠ 1 then 5
  else if s.rd F.TLS_STATUS_PART_RESETTING ≠ 0 then 4
  else if 4 ≤ target && (List.range 256).any fun c => s.ctxState c ≠ 0 && s.ctxState c ≠ 7 then 3
  else if 4 ≤ target && (List.range 64).any s.roundOn then 6
  else 0

/-- A command's limit takes effect. -/
def setLimit (m : Move) (s : State) : State :=
  match m.limit with
  | some w => s.wr F.PWR_LIMIT_RUN_W w
  | none => s

/-! ### Negotiation (R486) -/

/-- The pools whose engines refuse a move: a round is open or closing, or a copy, release or scrub is moving. -/
def State.busyPools (s : State) : List Nat :=
  (List.range 64).filter fun p =>
    s.roundOn p || s.poolSt p = 3 || (s.pool p).resScrub ||
      (s.pool p).slots.any fun e => e.2.st = .filling || e.2.st = .scrubbing

/-- Groups whose control core pair refuses: a decision is being evaluated, or the intake holds summaries. -/
def State.busyGroups (s : State) : List Nat :=
  (List.range 8).filter fun g =>
    !(s.group g).intake.isEmpty ||
      match s.partOfGroup g with
      | none => false
      | some p =>
        (s.groupsOf p).head? = some g && (s.boundTo p).any fun c =>
          (s.ctx c).ops.any fun o => o.kind = 6 && o.started && o.done.isNone

/-- Heartwood's and the black-box writer's reasons. -/
def State.pd0Busy (s : State) (m : Move) : List Nat :=
  (if s.doe.busy || (s.on F.MBX_STATUS_BUSY && m.who ≠ 1) || (s.on F.MBX_STATUS_MCTP_BUSY && m.who ≠ 2) then [0] else []) ++
    (if m.target = 5 && !s.bb.queue.isEmpty then [1] else [])

/-- Identities of the blocks of a domain that do not agree now (R486, R494). -/
def State.refusers (s : State) (m : Move) (d : Nat) : List Nat :=
  if d = 0 then s.pd0Busy m
  else if d = 1 then s.busyGroups
  else if d = 3 then
    (if s.hostReqs.isEmpty && !(s.atsReqs.any fun r => r.slot.isSome) && !(s.doe.busy && !s.sessions.isEmpty) then [] else [0])
  else if 5 ≤ d ∧ d ≤ 12 then
    (if (List.range 8).any fun i =>
        (s.tile (8 * (d - 5) + i)).recompute && s.on (F.MXA_CFG_PAIR_EN (8 * (d - 5) + i)) then [d - 5] else [])
  else if d = 16 ∨ d = 17 then (if s.clOps.isEmpty && s.colls.isEmpty then [] else [d - 16])
  else if d = 18 then s.busyPools
  else []

/-- Domains whose blocks do not agree at once. -/
def State.unwilling (s : State) (m : Move) : List Nat := (affected m.target).filter fun d => !(s.refusers m d).isEmpty

/-- A block's refusal is counted (R494). -/
def noteRefusal (m : Move) (d : Nat) (s : State) : State :=
  s.onPower fun p => { p with refusals := SMap.upd (fun _ => Refuser.init) p.refusals d fun r =>
    { r with last := (s.refusers m d).headD 0, refused := min (r.refused + 1) (2 ^ 32 - 1), time := s.now } }

/-! ### Moves (R484) -/

/-- The tile test of the rotation is abandoned at step 2 of an entry, and the tile placed first (R458, R487). -/
def abandonTest (s : State) : State :=
  if !s.on F.TLS_ROT_BUSY then s
  else
    let t := s.rd F.TLS_ROT_CUR_TILE
    tileReturns t ({ s with tls := { s.tls with first := t :: s.tls.first } }.wr F.TLS_ROT_BUSY 0)

/-- Step 2 of an entry, once every block agrees. From L2 Hush a deeper entry first passes back through L1 Poise. -/
def enter (m : Move) (s : State) : State :=
  let s := setLimit m s
  let s := s.onPower fun p => { p with move := some m, asked := [] }
  if m.start = 2 && decide (3 ≤ m.target) then
    beginExit { m with target := 1, entry := false, thenTo := some m.target } s
  else abandonTest s

/-- Begin an entry: at once, or after the blocks have been asked. -/
def beginEntry (m : Move) (s : State) : State :=
  let asked := if s.on F.PWR_POLICY_MODE then s.unwilling m else []
  let s := (s.wr F.PWR_STATUS_TARGET m.target).wr F.PWR_STATUS_BUSY 1
  if asked.isEmpty then enter m s else s.onPower fun p => { p with move := some m, asked := asked }

/-- The result code with which a command is refused with no move under way, in the order of R485, or zero. -/
def State.moveBar (s : State) (target : Nat) (limit : Option Nat) : Nat :=
  let bar := if s.rd F.PWR_STATUS_STATE < target then s.entryBar target else 0
  if bar ≠ 0 then bar else if 5 < target || !s.limitOk limit then 7 else 0

/-- Carry out a command, with no move under way (R484, R485, R495). -/
def carryOut (m : Move) (s : State) : State :=
  let st := s.rd F.PWR_STATUS_STATE
  let m := { m with start := st, entry := decide (st < m.target) }
  let bar := s.moveBar m.target m.limit
  if bar ≠ 0 then refuseMove m bar s
  else if m.target = st then
    let s := (setLimit m s).wr F.PWR_STATUS_LAST_RESULT 0
    answerMove m rcOk 0 s.moveData s
  else if m.entry then beginEntry m s
  else if 4 ≤ st && m.target ≠ 0 then beginExit { m with target := 0, thenTo := some m.target } (setLimit m s)
  else beginExit m (setLimit m s)

/-- A waiting command is passed over (R484). -/
def passOver (m : Move) (s : State) : State := answerMove m rcState 8 [] (s.wr F.PWR_STATUS_LAST_RESULT 8)

/-- A command arrives (R484): carried out now, or it waits for the move that is under way and passes over one that
waits. -/
def powerCommand (m : Move) (s : State) : State :=
  if s.power.move.isSome then
    let s := match s.power.waiting with | some w => passOver w s | none => s
    s.onPower fun p => { p with waiting := some m }
  else carryOut m s

/-- The command that waits is carried out. -/
def nextMove (s : State) : State :=
  match s.power.waiting with
  | some m => carryOut m (s.onPower fun p => { p with waiting := none })
  | none => s

/-! ### What entry does (R487) -/

/-- Modules of a bundle that carry traffic or are parked for it go to a state. -/
def moveModules (b st : Nat) (s : State) : State :=
  each (bundleMods b) (fun m s =>
    let k := s.modState m
    if k = 2 || k = 3 || k = 6 then s.wr (F.D2D_MOD_STATUS_STATE m) st else s) s

/-- Step 4: Claush ports go down, slices write back, the link dies' PHYs go off, site windows close. -/
def hush (s : State) : State :=
  let s := each ((List.range 32).filter fun q => s.rd (F.CLS_PORT_STATUS_STATE q) ≠ 0) (fun q s => portDown q 1 s) s
  let s := { s with chans := s.chans.map fun e =>
    (e.1, { e.2 with cache := e.2.cache.map fun l => (l.1, l.2.map fun x => { x with dirty := 0 }) }) }
  let s := each [8, 9] (fun b s =>
    if untilReset (s.fenceWhy b) then s
    else (moveModules b 0 (s.wr (F.CLS_DIE_STATUS_STATE (b - 8)) 0)).wr (F.D2D_BDL_STATUS_STATE b) 0) s
  each ((List.range 4).filter s.siteAdmitted) (fun x s =>
    (each (List.range 16) (fun w s => closeWindow x w s) s).wr (F.CHK_STATUS_STATE x) 0) s

/-- Steps 3 and 6: the tiles' state is saved and the groups go off; pads are latched, modules go to low-power. -/
def still (s : State) : State :=
  let ps := (List.range 8).filter fun p => s.on (F.CTX_PART_VALID p) && s.rd (F.SCH_STATUS_STATE p) ≠ 0
  let s := each ps (fun p s =>
    let held := s.holderOf p
    let s := match held with | some c => abandonReads c false (saveTiles c p s) | none => s
    let s := clearTiles p (freeEngines p s)
    let s := match held with | some c => s.wr (F.CTXW_RING_STATUS_HOLDING c) 0 | none => s
    let s := s.onPart p fun x => { x with sw := none }
    ((s.wr (F.SCH_STATUS_CTX_VALID p) 0).wr (F.SCH_STATUS_CUR_CTX p) 0).wr (F.SCH_STATUS_STATE p) 2) s
  let s := each ((List.range 64).filter s.tileServes) (fun t s => (s.wr (F.MXA_STATUS_STATE t) 0).wr (F.VXE_STATUS_STATE t) 0) s
  let s := each [0, 1, 2, 3, 4, 5, 6, 7, 10, 11, 12, 13] (moveModules · 6) s
  s.wr F.PWR_STATUS_PADS_HELD 1

/-- Step 7: device memory is lost, every channel loses its CLEAN mark, a HELD pool goes to IDLE. -/
def shelve (s : State) : State :=
  let s := { s with devMem := [], ueMarks := [] }
  let s := each (List.range 256) (fun ch s =>
    s.onChan ch fun x => { x with clean := false, clearing := false, copying := [], cache := [] }) s
  let s := each (List.range 8) (fun k s => if s.rd (F.MEM_STATUS_STATE k) = 2 then s.wr (F.MEM_STATUS_STATE k) 0 else s) s
  let s := each ((List.range 64).filter fun p => s.poolSt p = 3 || s.poolSt p = 4) (fun p s =>
    (s.onPool p fun q => { q with slots := [], resScrub := false, served := [] }).wr (F.GUP_RND_STATE p) 0) s
  let s := each [0, 1, 2, 3, 4, 5, 6, 7, 10, 11, 12, 13] (moveModules · 0) (settleScrubs s)
  s.onPins fun x => { x with enLow := x.enLow ||| 6 }

/-- Step 8: the queue is committed and what lies outside PD0 is off; the host link goes down (R491). -/
def dormant (s : State) : State :=
  let s := (List.range s.bb.queue.length).foldl (fun s _ => bbxRecordCommit true s) s
  let s := linkReset s
  (s.onPins fun x => { x with enLow := x.enLow ||| 1 }).wr F.CLK_STATUS_LOCK 0x20

/-- The steps of an entry from one state to another. -/
def entrySteps (start target : Nat) (s : State) : State :=
  let s := when' (decide (start < 2) && decide (2 ≤ target)) hush s
  let s := when' (decide (start < 3) && decide (3 ≤ target)) still s
  let s := when' (decide (start < 4) && decide (4 ≤ target)) shelve s
  when' (decide (start < 5) && decide (5 ≤ target)) dormant s

/-! ### What exit does (R488, R490) -/

/-- Steps 1 and 2: clocks, stacks, and the memory bundles, whose training and roll call end with the exit. -/
def powerUp (s : State) : State :=
  let s := s.wr F.CLK_STATUS_LOCK (s.rd F.CLK_STATUS_LOCK ||| 0x2F)
  each (List.range 8) (fun k s => if s.rd (F.MEM_STATUS_STATE k) = 0 then s.wr (F.MEM_STATUS_STATE k) 2 else s) s

/-- Step 3: modules of the memory bundles leave low-power; tiles, cleared, are in service again. -/
def leaveStill (s : State) : State :=
  let s := each ((List.range 8).filter fun b => s.rd (F.D2D_BDL_STATUS_STATE b) = 3) (fun b s =>
    each ((bundleMods b).filter fun m => s.modState m = 6 || s.modState m = 0) (fun m s =>
      s.wr (F.D2D_MOD_STATUS_STATE m) (if s.roleActive m then 2 else 3)) s) s
  let ps := (List.range 8).filter fun p => s.on (F.CTX_PART_VALID p) && s.rd (F.SCH_STATUS_STATE p) ≠ 0
  let ts := (ps.flatMap s.tilesOf).filter fun t => s.rd (F.MXA_STATUS_STATE t) = 0
  let s := each ts (fun t s => (s.wr (F.MXA_STATUS_STATE t) 1).wr (F.VXE_STATUS_STATE t) 1) s
  { s with tls := { s.tls with first := s.tls.first ++ ts.filter fun t => !s.tls.first.contains t } }

/-- Link dies and sites train afresh, answer roll call, and sites are attested again (R490). -/
def retrainDies (s : State) : State :=
  each ([8, 9, 10, 11, 12, 13].filter fun b => !untilReset (s.fenceWhy b)) trainBundle s

/-- Does the slice in force leave a partition's context where it is (R170, R488)? -/
def State.keepsSlice (s : State) (p c : Nat) : Bool :=
  decide ((s.boundTo p).length = 1) || (s.cycle p).isEmpty || s.taker p (s.rd (F.SCH_STATUS_ENTRY p)) = some c

/-- From L1 Poise or L2 Hush a partition whose entry in force names another context stays idle until the next tick. -/
def idleSlices (s : State) : State :=
  each (List.range 8) (fun p s =>
    match s.holderOf p with
    | none => s
    | some c =>
      if s.rd (F.SCH_STATUS_STATE p) ≠ 1 || s.keepsSlice p c then s
      else
        let s := each ((s.tilesOf p).filter s.tileServes) (fun t s => s.onTile t fun x => { x with stopped := true }) s
        let s := (s.wr (F.CTXW_RING_STATUS_HOLDING c) 0).wr (F.SCH_STATUS_CTX_VALID p) 0
        (s.wr (F.SCH_STATUS_CUR_CTX p) 0).wr (F.SCH_STATUS_STATE p) 2) s

/-- The steps of an exit. -/
def exitSteps (start target : Nat) (s : State) : State :=
  let s := when' (decide (4 ≤ start) && decide (target < 4)) powerUp s
  let s := when' (decide (3 ≤ start) && decide (target < 3)) leaveStill s
  when' (decide (2 ≤ start) && decide (target < 2)) retrainDies s

/-- Round deadlines that passed below L0 Run take effect, before any copy resumes (R300, R488). -/
def overdueRounds (s : State) : State :=
  each ((List.range 64).filter fun p => (s.pool p).overdue) (fun p s =>
    roundDeadline p (s.onPool p fun q => { q with overdue := false })) s

/-! ### The end of a move -/

/-- May an exit end: rails up, and the pads released (R490, R492)? -/
def State.exitReady (s : State) (m : Move) : Bool :=
  (m.start < 4 || m.target ≥ 4 || bits s.pins.pg 2 0 = 7) && (m.start < 3 || m.target ≥ 3 || !s.on F.PWR_STATUS_PADS_HELD)

/-- The move ends: STATE reads the target, and its command is answered (R487, R490, R495). What is to follow an exit
follows: an entry that a negotiation has agreed to, or one that begins now. -/
def endMove (m : Move) (s : State) : State :=
  let s := showDomains m.target m.wake (s.wr F.PWR_STATUS_STATE m.target)
  let s := (s.onPower fun p => { p with move := none }).wr F.PWR_STATUS_BUSY 0
  match m.thenTo with
  | some t =>
    let n : Move := { m with target := t, start := m.target, entry := true, limit := none, thenTo := none }
    if m.start = 2 then
      enter n ((s.wr F.PWR_STATUS_TARGET t).wr F.PWR_STATUS_BUSY 1)
    else carryOut n (overdueRounds s)
  | none =>
    let back := !m.entry && s.rd F.PWR_STATUS_LAST_RESULT = 2
    let s := if back then s else s.wr F.PWR_STATUS_LAST_RESULT 0
    let s := when' (!m.entry) (raiseVector 0 3) s
    let s := answerMove m rcOk 0 s.moveData s
    let s := when' (m.target = 0) (fun s => pumpAll (idleSlices (overdueRounds s))) s
    nextMove s

/-- POWER_MOVE_END: the steps of the move under way have run. -/
def powerMoveEnd (s : State) : State :=
  match s.power.move with
  | none => s
  | some m =>
    if m.entry then
      if s.power.asked.isEmpty then endMove m (entrySteps m.start m.target s) else s
    else if s.exitReady m then endMove m (exitSteps m.start m.target s)
    else s

/-- POWER_MOVE_END. -/
def execPowerMoveEnd (s : State) : Host.Outcome State Fault Refusal := s.done (powerMoveEnd s)

/-- NEGOTIATION_TIMEOUT: 1 ms after the blocks were asked; a block that has not agreed refuses (R486). -/
def negotiationTimeout (agreed : List Nat) (s : State) : State :=
  match s.power.move with
  | none => s
  | some m =>
    let no := s.power.asked.filter fun d => !agreed.contains d
    if !m.entry || s.power.asked.isEmpty then s
    else if no.isEmpty then enter m s
    else
      let s := each (no.filter [0, 1, 3, 18].contains) (fun d s => noteRefusal m d s) s
      let s := (s.onPower fun p => { p with move := none, asked := [] }).wr F.PWR_STATUS_BUSY 0
      nextMove (refuseMove m 1 s)

/-- NEGOTIATION_TIMEOUT. -/
def execNegotiationTimeout (agreed : List Nat) (s : State) : Host.Outcome State Fault Refusal :=
  s.done (negotiationTimeout agreed s)

/-- The host, as the agent that R11 records. -/
def hostAgent : Agent := { router := 91, index := 1, rid := 0 }

/-- PWR_CMD: a write with GO starts a move while HOST_CMD is set; otherwise it is ignored under R11 (R495). -/
def pwrCmd (v : Word) (s : State) : State :=
  if s.endpointOff then s
  else if !s.on F.PWR_POLICY_HOST_CMD then (if v.toNat % 16 = 0 then s else foreignWrite hostAgent R.PWR_CMD s)
  else if !v.getLsbD 3 then s
  else powerCommand { target := bits v.toNat 2 0, start := 0, entry := false, wake := 7, who := 0, limit := none,
                      bbSeq := 0, thenTo := none } s

/-- PWR_CMD. -/
def execPwrCmd (v : Word) (s : State) : Host.Outcome State Fault Refusal := s.done (pwrCmd v s)

/-- PWR_PAD_RELEASE: firmware's write during an exit releases the pads, and the saved settings that waited are written
(R492, R524). -/
def pwrPadRelease (a : Agent) (v : Word) (s : State) : State :=
  if !v.getLsbD 0 then s
  else if !isFirmware a then foreignWrite a R.PWR_PAD_RELEASE s
  else
    let out := match s.power.move with | some m => !m.entry | none => false
    if !out || !s.on F.PWR_STATUS_PADS_HELD then s
    else
      let s := s.wr F.PWR_STATUS_PADS_HELD 0
      if s.ssetDirty && s.settingsOpen then writeSettings s else s

/-- PWR_PAD_RELEASE. -/
def execPwrPadRelease (a : Agent) (v : Word) (s : State) : Host.Outcome State Fault Refusal := s.done (pwrPadRelease a v s)

/-- WAKE_IN (R489). -/
def execWakeIn (s : State) : Host.Outcome State Fault Refusal :=
  s.done (if s.on F.PWR_POLICY_WAKE_IN_EN then wakeEvent 5 s else s)

/-- MGMT_BUS_ADDRESS_MATCH (R489, R491). -/
def execMgmtBusAddressMatch (s : State) : Host.Outcome State Fault Refusal := s.done (wakeEvent 4 s)

/-- SPN_ALARM: Spindle has reached the alarm's value (R505). -/
def execSpnAlarm (s : State) : Host.Outcome State Fault Refusal :=
  s.done (if s.rd F.SPN_ALARM_TIME ≤ s.now then fireAlarm s else s)

/-! ### The package power limit (R22, R494, R496–R498) -/

/-- The mean of the samples of a window. -/
def meanOf (l : List Nat) : Nat := if l.isEmpty then 0 else l.sum / l.length

/-- Count `n` into a sum whose whole thousands go into a counter. -/
def countMilli (n : Nat) (m : SMap Nat) (k : Nat) : Nat × SMap Nat :=
  let t := SMap.get (fun _ => 0) m k + n
  (t / 1000, SMap.put (fun _ => 0) m k (t % 1000))

/-- 10 µs of draw into PWR_ENERGY. -/
def countEnergy (k w : Nat) (s : State) : State :=
  let r := countMilli (10 * w) s.power.energyRem k
  (s.wrapInc (F.PWR_ENERGY_MJ k) r.1).onPower fun p => { p with energyRem := r.2 }

/-- 10 µs in the present state into PWR_RESID. -/
def countResidency (s : State) : State :=
  let l := s.rd F.PWR_STATUS_STATE
  let r := countMilli 10 s.power.residRem l
  (s.wrapInc (F.PWR_RESID_MS l) r.1).onPower fun p => { p with residRem := r.2 }

/-- A site's draw (R22): above 150 W over 1 ms it is fenced and the event recorded. -/
def sampleSite (x w : Nat) (s : State) : State :=
  if !s.populated x then s
  else
    let s := s.onSite x fun y => { y with power := (w :: y.power).take 100 }
    let l := (s.site x).power
    let avg := meanOf l
    let s := s.wr (F.CHK_STATUS_POWER_W x) (min avg 65535)
    if 100 ≤ l.length && 15000 < l.sum && !untilReset (s.fenceWhy (10 + x)) then
      bbEvent 0x8033 (srcSite x) (byte x :: leBytes (min avg 65535) 2) (fenceDie (10 + x) 3 s)
    else s

/-- POWER_SAMPLE: every 10 µs the draw of the hub, the stacks, the link dies and each site. -/
def powerSample (hubW stackW linkW : Nat) (siteW : List Nat) (s : State) : State :=
  let sites := (List.range 4).map fun x => siteW.getD x 0
  let total := hubW + stackW + linkW + sites.sum
  let s := s.onPower fun p => { p with sum100 := (total :: p.sum100).take 10, sum1000 := (total :: p.sum1000).take 100 }
  let pkg := min (meanOf s.power.sum1000) 65535
  let s := (s.wr F.PWR_MEAS_PKG_W pkg).wr F.PWR_MEAS_PEAK_W (max (s.rd F.PWR_MEAS_PEAK_W) pkg)
  let s := ([hubW, stackW, linkW] ++ sites).zipIdx.foldl (fun s e => countEnergy e.2 e.1 s) (countResidency s)
  each (List.range 4) (fun x s => sampleSite x (sites.getD x 0) s) s

/-- POWER_SAMPLE. -/
def execPowerSample (hubW stackW linkW : Nat) (siteW : List Nat) (s : State) : Host.Outcome State Fault Refusal :=
  s.done (powerSample hubW stackW linkW siteW s)

/-- DUTY and MSTEP after a check (R498). The mean draw p is `sum / n`. -/
def adjust (run n sum stackW arrayW duty mstep : Nat) : Nat × Nat :=
  if run * n < sum then
    if 1 < duty then (max 1 (duty * (run * n) / sum), mstep)
    else if mstep < 7 then (duty, mstep + 1) else (duty, mstep)
  else if 0 < mstep then
    (if sum * (8 - mstep) + stackW * n ≤ run * n * (8 - mstep) then (duty, mstep - 1) else (duty, mstep))
  else if duty < 64 then
    (if sum * duty + arrayW * n ≤ run * n * duty then (duty + 1, mstep) else (duty, mstep))
  else (duty, mstep)

/-- POWER_CONTROL_CHECK: every 100 µs, while the device runs, by the mean of the last 100 µs. Vector 3 tells the host when a lever is first used, and when
both have returned. -/
def powerControlCheck (stackW arrayW : Nat) (s : State) : State :=
  if !s.atL0 then s
  else
    let l := s.power.sum100
    let r := adjust (s.rd F.PWR_LIMIT_RUN_W) l.length l.sum stackW arrayW (s.rd F.PWR_MEAS_DUTY) (s.rd F.PWR_MEAS_MSTEP)
    let s := (s.wr F.PWR_MEAS_DUTY r.1).wr F.PWR_MEAS_MSTEP r.2
    let lim := decide (r.1 < 64) || decide (0 < r.2)
    if lim = s.power.limited then s
    else raiseVector 0 3 (s.onPower fun q => { q with limited := lim })

/-- POWER_CONTROL_CHECK. -/
def execPowerControlCheck (stackW arrayW : Nat) (s : State) : Host.Outcome State Fault Refusal :=
  s.done (powerControlCheck stackW arrayW s)

end Sys2Proof.Machine
end

