-- ==== Sys2Proof/Machine/Registers.lean ====
section
/-! DEFINITION. Writes and reads of registers as commands (R8–R12, R168, R281, R282, R341, R342, R356, R363, R413): a write goes to the
register, to what stands in its place, or to the action of a field. -/

namespace Sys2Proof.Machine

/-- The VF driver of a context, as an agent. -/
def vfAgent (c : Nat) : Agent := { router := 91, index := 1, rid := BitVec.ofNat 16 (c + 1) }

/-- A write of CTXW_CTL (R281, R282): MEASURE takes the written value first; LOCK and START act for a context marked
non-confidential, in READY with the checks passed and in LOCKED. -/
def writeCtl (a : Agent) (key size off : Nat) (v : Word) (s : State) : State :=
  let c := keyFn key - 1
  let new := merged (s.reg key) v off size
  let low := (writeMask off size).getLsbD 0
  let act := writes a key .context && low && s.on (F.CTX_CFG_NONCONF c)
  let k := s.ctxState c
  let s := writeReg a key size off v s
  if act && new.getLsbD 0 && k = 2 && s.lockOk c then lockCtx c s
  else if act && new.getLsbD 1 && k = 3 then runCtx c s
  else s

/-- A write of CTXW_SO (R168): COUNT acts as SET and leaves ERR, SAT and ERR clear by a 1; beyond the context's objects
nothing is written. -/
def writeSo (a : Agent) (key size off : Nat) (v : Word) (s : State) : State :=
  let c := keyFn key - 1
  let o := key % 0x10000000 - 0x4000
  match (s.objectsOf c)[o / 16]? with
  | none => s
  | some n =>
    let old := s.objectWord c (o / 16) (decide (o % 16 = 8))
    let new := merged old v off size
    let own := writes a key .context
    if o % 16 = 0 then
      if new = old then s
      else if own then soSet n new.toNat false false s else foreignWrite a key s
    else
      let m := writeMask off size
      let sat := (new &&& m).getLsbD 2
      let err := (new &&& m).getLsbD 1
      if !sat && !err then s
      else if !own then foreignWrite a key s
      else
        let s := if sat then s.wr (F.SYN_CTL_SAT n) 0 else s
        if err then s.wr (F.SYN_CTL_ERR n) 0 else s

/-- A write that reaches a key: the register's fields by their access codes, or what the place stands for. -/
def storeReg (a : Agent) (key off size : Nat) (v : Word) (s : State) : State :=
  let o := key % 0x10000000
  match msixAt key with
  | some (fn, vec, second) =>
    if isHostAgent a then writeMsix fn vec second (merged (s.msixWord fn vec second) v off size) s else s
  | none =>
    if (pbaAt key).isSome || inRspSlot key || inTrace key then s
    else if inCmdSlot key then (if isHostAgent a then writeSlotBytes key off size v s else s)
    else if 0x10000000 ≤ key && o = 8 then writeCtl a key size off v s
    else if 0x10000000 ≤ key && decide (0x4000 ≤ o) && decide (o < 0x5000) then writeSo a key size off v s
    else if key = R.BBX_SEL && writes a key .host && (writeMask off size).getLsbD 0 then
      bbxSel (bits (merged (s.reg key) v off size).toNat 14 0) s
    else if key = R.PWR_CMD && writes a key .host then
      (if (writeMask off size).getLsbD 0 then pwrCmd (merged 0 v off size) s else s)
    else if key = R.PWR_PAD_RELEASE then pwrPadRelease a (merged 0 v off size) s
    else writeReg a key size off v s

/-- A host write (R342, R348): a request that is not served is answered with Unsupported Request, and one that waits for the
device to wake is served after the exit. A write without the T bit to a locked MSI-X table breaks its TDI (R356), also one
that R8 does not let be performed (DESIGN CHOICE, log entry 86). -/
def hostWrite (a : Agent) (fn off size : Nat) (v : Word) (tbit : Bool) (s : State) : State :=
  if s.endpointOff then s
  else
    let key := keyOf fn (off / 8 * 8)
    let s := wakeFor fn off s
    let s := if fn ≠ 0 && (msixAt key).isSome && (s.ctx (fn - 1)).lockMsix && !tbit then tdispBroken (fn - 1) s else s
    if s.served fn off size false tbit then storeReg a key off size v s else answerUr fn true s

/-- A write by an agent of the mesh. -/
def meshWrite (a : Agent) (fn off size : Nat) (v : Word) (s : State) : State :=
  let key := keyOf fn (off / 8 * 8)
  if sized off size && implemented key then
    (storeReg a key off size v s).out (.regAnswer a.router.val a.index.val false [])
  else s.out (.regAnswer a.router.val a.index.val true [])

/-- REGISTER_WRITE (R11, R342). -/
def execRegisterWrite (a : Agent) (fn : FnId) (off : Nat) (size : Nat) (v : Word) (tbit : Bool) (s : State) :
    Host.Outcome State Fault Refusal :=
  s.done (if isHostAgent a then hostWrite a fn.val off size v tbit s else meshWrite a fn.val off size v s)

/-- REGISTER_READ (R342, R350). -/
def execRegisterRead (a : Agent) (fn : FnId) (off : Nat) (size : Nat) (tbit : Bool) (ecc : Ecc) (s : State) :
    Host.Outcome State Fault Refusal :=
  s.done (if isHostAgent a then hostRead fn.val off size tbit ecc s else meshRead a fn.val off size s)

/-- CTXW_SO_WRITE (R168): a write by the context's driver at an offset of CTXW_SO. -/
def execCtxwSoWrite (c : CtxId) (off : Nat) (size : Nat) (v : Word) (tbit : Bool) (s : State) :
    Host.Outcome State Fault Refusal :=
  s.done (if off < 0x1000 then hostWrite (vfAgent c.val) (c.val + 1) (0x4000 + off) size v tbit s else s)

/-- CTXW_CTL_LOCK (R282): the driver's write of CTXW_CTL with LOCK set. -/
def execCtxwCtlLock (c : CtxId) (v : Word) (size : Nat) (tbit : Bool) (s : State) : Host.Outcome State Fault Refusal :=
  s.done (hostWrite (vfAgent c.val) (c.val + 1) 8 size (v ||| 1) tbit s)

/-- CTXW_CTL_START (R282): the driver's write of CTXW_CTL with START set. -/
def execCtxwCtlStart (c : CtxId) (v : Word) (size : Nat) (tbit : Bool) (s : State) : Host.Outcome State Fault Refusal :=
  s.done (hostWrite (vfAgent c.val) (c.val + 1) 8 size (v ||| 2) tbit s)

end Sys2Proof.Machine
end

