-- ==== Sys2Proof/Machine/Loader.lean ====
section
/-! DEFINITION. The configuration loader (R516–R520, R525, R526, R530): it writes every field that the register tables give the
installer as writer, resolves the resource claims, and loads what a partition rejoin reloads (R533). -/

namespace Sys2Proof.Machine

/-! ### LAYOUT (R175, R310, R516) -/

/-- Verified pairs of a partition: tile t with the tile eight further, G2k with G2k + 1 (R48, R516). -/
def loadPairs (pairs : Nat) (s : State) : State :=
  each (setBits 4 pairs) (fun k s => each (List.range 16) (fun j s =>
    let t := 16 * k + j
    ((s.wr (F.MXA_CFG_PARTNER t) (if j < 8 then t + 8 else t - 8)).wr (F.MXA_CFG_PAIR_PRIMARY t) (b2n (decide (j < 8)))).wr
      (F.MXA_CFG_PAIR_EN t) 1) s) s

/-- A partition record: CTX_PART, SCH_CFG, SCH_SWITCH.WINDOW_US, DMA_PART_CFG, MXA_CFG, and the partition in MXA_STATUS of
each tile of its groups (R57). -/
def loadPartition (l : List Section) (r : List Byte) (s : State) : State :=
  let p := fieldAt r 1 1
  let g := fieldAt r 2 1
  let s := ((s.wr (F.CTX_PART_VALID p) 1).wr (F.CTX_PART_SOLE p) (fieldAt r 3 1)).wr (F.CTX_PART_GROUPS p) g
  let s := s.wr (F.CTX_PART_BOUND p) (recBound l p).length
  let s := ((s.wr (F.SCH_CFG_SLICE_US p) (fieldAt r 8 4)).wr (F.SCH_CFG_PHASE_US p) (fieldAt r 12 4)).wr
    (F.SCH_CFG_POLL_US p) (fieldAt r 16 2)
  let s := (s.wr (F.SCH_CFG_SHARE p) (fieldAt r 6 2)).wr (F.SCH_SWITCH_WINDOW_US p) (windowUs (fewestChans l p) (popCount g 8))
  let s := each ((List.range 64).filter fun t => g.testBit (t / 8)) (fun t s => s.wr (F.MXA_STATUS_PARTITION t) p) s
  loadPairs (fieldAt r 4 1) (s.wr (F.DMA_PART_CFG_HOST_SHARE p) (fieldAt r 5 1))

/-- A context record: CTX_CFG, SCH_CTXQ and XLT_CTX. A holder carries TENANT 0xFFFF and is bound nowhere (R291). -/
def loadContext (l : List Section) (r : List Byte) (s : State) : State :=
  let c := fieldAt r 1 1
  let h := recHolder r
  let s := (s.wr (F.CTX_CFG_DEFINED c) 1).wr (F.CTX_CFG_TENANT c) (if h then 0xFFFF else fieldAt r 4 2)
  let s := (s.wr (F.CTX_CFG_NONCONF c) (fieldAt r 2 1 % 2)).wr (F.CTX_CFG_HOLDER c) (b2n h)
  let s := s.wr (F.CTX_CFG_NCH c) (recChans l c).length
  if h then s
  else
    let p := fieldAt r 3 1
    let s := (s.wr (F.CTX_CFG_PARTITION c) p).wr (F.SCH_CTXQ_BOUND p c) 1
    (s.wr (F.SCH_CTXQ_QUOTA p c) (fieldAt r 6 2)).wr (F.XLT_CTX_PFT_CAP c) (fieldAt r 9 1)

/-- A slice entry: SCH_TABLE, with WC and WC_SET of the context record. -/
def loadSlice (l : List Section) (r : List Byte) (s : State) : State :=
  let p := fieldAt r 2 1
  let e := fieldAt r 3 1
  let x := (ctxRec l (fieldAt r 4 1)).getD []
  let s := (s.wr (F.SCH_TABLE_VALID p e) 1).wr (F.SCH_TABLE_CTX p e) (fieldAt r 4 1)
  (s.wr (F.SCH_TABLE_WC p e) (fieldAt x 2 1 / 4 % 2)).wr (F.SCH_TABLE_WC_SET p e) (fieldAt x 8 1)

/-- What a rejoin reloads: the records of one partition and of its contexts (R533). -/
def loadOne (l : List Section) (p : Nat) (s : State) : State :=
  let s := each ((layRecs l 1).filter fun r => fieldAt r 1 1 = p) (loadPartition l) s
  let s := each ((layRecs l 2).filter fun r => !recHolder r && fieldAt r 3 1 = p) (loadContext l) s
  each ((layRecs l 3).filter fun r => fieldAt r 2 1 = p) (loadSlice l) s

/-! ### CHANNELS, OBJECTS, REGULATORS (R517, R518) -/

/-- Channels with their owners; MEM_CH.STATE shows those that are in use. -/
def loadChannels (l : List Section) (s : State) : State :=
  each ((recsOf l 0x11).zipIdx.filter fun x => (leNat x.1).testBit 15) (fun x s =>
    let k := x.2 / 32
    let i := x.2 % 32
    let s := (s.wr (F.MEM_CH_OWNER k i) (leNat x.1 % 256)).wr (F.MEM_CH_OWNED k i) 1
    if s.rd (F.MEM_CH_STATE k i) = 0 then s.wr (F.MEM_CH_STATE k i) 1 else s) s

/-- Object blocks: 32 objects each (R165). -/
def loadObjects (l : List Section) (s : State) : State :=
  each ((recsOf l 0x12).zipIdx.filter fun x => (leNat x.1).testBit 15) (fun x s =>
    let w := leNat x.1
    let pool := w.testBit 14
    each (List.range 32) (fun i s =>
      let n := 32 * x.2 + i
      let s := (s.wr (F.SYN_CTL_VALID n) 1).wr (F.SYN_CTL_POOL n) (b2n pool)
      if pool then s.wr (F.SYN_CTL_POOL_ID n) (bits w 13 8) else s.wr (F.SYN_CTL_OWNER n) (w % 256)) s) s

/-- Regulators: the buckets of every stack that holds a channel of the context, and its injection bucket. -/
def loadRegulators (l : List Section) (s : State) : State :=
  each (recsOf l 0x13) (fun r s =>
    let c := fieldAt r 0 1
    let s := each ((List.range 8).filter fun k => (recChans l c).any fun ch => decide (ch / 32 = k)) (fun k s =>
      ((s.wr (F.MEM_REG_CTX_RATE k c) (fieldAt r 2 2)).wr (F.MEM_REG_CTX_BURST k c) (fieldAt r 1 1)).wr
        (F.MEM_REG_CTX_WSHARE k c) (fieldAt r (8 + k) 1)) s
    (s.wr (F.NOC_REG_CTX_RATE c) (fieldAt r 4 2)).wr (F.NOC_REG_CTX_BURST c) (fieldAt r 6 2)) s

/-! ### ROLES, SITES, POOLS (R292, R314, R323) -/

/-- Roles and minima of the bundles, where the image carries the section; an empty site's stay at reset (R18, R514). -/
def loadRoles (l : List Section) (s : State) : State :=
  if (secOf l 0x40).isNone then s
  else each ((List.range 14).filter fun b => !s.emptyBundle b) (fun b s =>
    let s := s.wr (F.D2D_BDL_CFG_MIN_HALVES b) (s.imageMin b)
    each (List.range (bundleSize b)) (fun k s => s.wr (F.D2D_MOD_CFG_ROLE (bundleFirst b + k)) (s.imageRole b k)) s) s

/-- One window of a site. -/
def loadWindow (x w : Nat) (v : List Byte) (s : State) : State :=
  let s := (s.wr (F.CHK_WIN_A_VALID x w) 1).wr (F.CHK_WIN_A_RIGHTS x w) (fieldAt v 1 1)
  let s := (s.wr (F.CHK_WIN_A_OWNER x w) (fieldAt v 0 1)).wr (F.CHK_WIN_A_SITE_BASE x w) (fieldAt v 8 8 / 4096)
  let s := (s.wr (F.CHK_WIN_A_SO x w) (fieldAt v 2 1)).wr (F.CHK_WIN_B_LEN_PAGES x w) (fieldAt v 4 4)
  s.wr (F.CHK_WIN_B_CTX_BASE x w) (fieldAt v 16 8 / 4096)

/-- Site grants of the populated sites. -/
def loadSites (l : List Section) (s : State) : State :=
  each ((recsOf l 0x41).filter fun r => s.populated (fieldAt r 1 1)) (fun r s =>
    let x := fieldAt r 1 1
    let f := fieldAt r 2 1
    let s := ((s.wr (F.CHK_CFG_RATE x) (fieldAt r 4 2)).wr (F.CHK_CFG_BURST x) (fieldAt r 6 1)).wr (F.CHK_CFG_KINDS x) (fieldAt r 3 1)
    let s := (s.wr (F.CHK_CFG_FENCE_ON_VIOL x) (bits f 0 0)).wr (F.CHK_CFG_ONE_TENANT x) (bits f 1 1)
    let s := s.wr (F.CHK_CFG_ATTEST x) (bits f 2 2)
    each (List.range (fieldAt r 7 1)) (fun w s => loadWindow x w (winAt r w) s) s) s

/-- Glue-up pools, and how many there are. -/
def loadPools (l : List Section) (s : State) : State :=
  let s := each (recsOf l 0x50) (fun r s =>
    let p := fieldAt r 1 1
    let s := ((s.wr (F.GUP_CFG_VALID p) 1).wr (F.GUP_CFG_SCOPE p) (bits (fieldAt r 3 1) 2 1)).wr (F.GUP_CFG_FMT p) (fieldAt r 3 1 % 2)
    let s := ((s.wr (F.GUP_CFG_HOLDER p) (fieldAt r 2 1)).wr (F.GUP_CFG_K p) (fieldAt r 4 2)).wr (F.GUP_CFG_SO_BLOCK p) (fieldAt r 6 2)
    let s := ((s.wr (F.GUP_CFG_LEN p) (fieldAt r 8 4)).wr (F.GUP_CLIP_CLIP p) (fieldAt r 12 4)).wr (F.GUP_CLIP_SIGMA p) (fieldAt r 16 4)
    let s := (s.wr (F.GUP_DEADLINE_DEADLINE_NS p) (fieldAt r 0x18 5)).wr (F.GUP_UID_UID p) (fieldAt r 0x20 8)
    each (List.range 8) (fun w s => s.wr (F.GUP_SET_CTX p w) (fieldAt r (0x30 + 8 * w) 8)) s) s
  s.wr F.GUP_STATUS_POOLS (recsOf l 0x50).length

/-! ### CLAUSH, DEVICE, POLICY (R371, R462, R520) -/

/-- The node and the ports. -/
def loadClaush (l : List Section) (s : State) : State :=
  match recsOf l 0x60 with
  | [] => s
  | pk :: ps =>
    let s := (s.wr F.CLS_NODE_NODE (fieldAt pk 0 2)).wr F.CLS_NODE_TIME_ROOT (fieldAt pk 2 1)
    let s := s.wr F.CLS_TIME_ROOT (fieldAt pk 2 1)
    each ps.zipIdx (fun x s =>
      let q := x.2
      let f := fieldAt x.1 0 1
      let s := ((s.wr (F.CLS_PORT_CFG_ENABLED q) (bits f 0 0)).wr (F.CLS_PORT_CFG_TIME_PARENT q) (bits f 1 1)).wr
        (F.CLS_PORT_CFG_TIME_ALT q) (bits f 2 2)
      (s.wr (F.CLS_PORT_CFG_PEER_NODE q) (fieldAt x.1 2 2)).wr (F.CLS_PORT_CFG_PEER_PORT q) (fieldAt x.1 1 1)) s

/-- The device's record. -/
def loadDevice (l : List Section) (s : State) : State :=
  match recsOf l 0x70 with
  | r :: _ =>
    let f := fieldAt r 2 1
    let s := (s.wr F.PWR_LIMIT_MAX_W (fieldAt r 0 2)).wr F.PWR_POLICY_MODE (bits f 0 0)
    let s := (s.wr F.PWR_POLICY_HOST_CMD (bits f 1 1)).wr F.PWR_POLICY_WAKE_IN_EN (bits f 2 2)
    let s := (s.wr F.CLK_SSC_SSC_EN (fieldAt r 3 1)).wr F.CLK_IO_SLEW (fieldAt r 4 1)
    (s.wr F.TLS_CFG_ROT_PERIOD_MS (fieldAt r 5 1)).wr F.XLT_CFG_PF_DEPTH (fieldAt r 6 1)
  | [] => s

/-- The installer's classes. -/
def loadClasses (l : List Section) (s : State) : State :=
  each (recsOf l 0x71) (fun r s =>
    match (List.range 256).find? fun i => decide (s.rd (F.TLS_POLICY_CODE i) = fieldAt r 0 2) with
    | some i => s.wr (F.TLS_POLICY_CLASS i) (fieldAt r 2 1)
    | none => s) s

/-! ### Host slots (R344) -/

/-- The pool P and the allotments A_p. -/
def loadSlots (l : List Section) (s : State) : State :=
  let pool := 512 - 2 * ((layRecs l 2).filter fun r => !recHolder r).length
  let s := s.wr F.GLB_HEP_TAGS_POOL pool
  each (layRecs l 1) (fun r s => s.wr (F.GLB_HEP_PART_ALLOT (fieldAt r 1 1)) (pool * fieldAt r 5 1 / 64)) s

/-! ### Resource claims (R525, R526) and entries for empty sites (R18) -/

/-- A claim: its source (0 maker, 1 installer), its place in its section, its record. -/
structure Claim where
  src : Nat
  idx : Nat
  bytes : List Byte
  deriving DecidableEq, Repr

/-- FEATURE of a claim. -/
def Claim.feature (c : Claim) : Nat := fieldAt c.bytes 0 2
/-- CATEGORY of a claim. -/
def Claim.cat (c : Claim) : Nat := fieldAt c.bytes 2 1
/-- RES_ID of a claim. -/
def Claim.res (c : Claim) : Nat := fieldAt c.bytes 4 2

/-- Claims of a source in their order. -/
def claimsFrom (src : Nat) (rs : List (List Byte)) : List Claim := rs.zipIdx.map fun x => { src := src, idx := x.2, bytes := x.1 }

/-- The features in the order of the pass: category, then maker before installer, then first record. A feature is named
by its source and its first claim. -/
def featureOrder (cs : List Claim) : List (Nat × Nat) :=
  (List.range 7).flatMap fun k => (List.range 2).flatMap fun src =>
    let mine := cs.filter fun c => c.src = src
    let first (c : Claim) : Bool := decide ((mine.find? fun d => d.feature = c.feature) = some c)
    (mine.filter fun c => first c && c.cat = k).map fun c => (src, c.feature)

/-- One entry of a conflict: black box, GLB_CONFLICT and its count (R475, R526, R534). -/
def conflict (tag idx res winner loser src : Nat) (s : State) : State :=
  let n := s.rd F.GLB_CFG_STATUS_CONFLICTS
  let s := bbEvent 0x8004 srcHeartwood (leBytes tag 2 ++ leBytes idx 2) s
  let s := s.satInc F.GLB_CFG_STATUS_CONFLICTS 1
  if n < 32 then
    let s := ((s.wr (F.GLB_CONFLICT_RES_ID n) res).wr (F.GLB_CONFLICT_WINNER n) winner).wr (F.GLB_CONFLICT_LOSER n) loser
    ((s.wr (F.GLB_CONFLICT_INDEX n) idx).wr (F.GLB_CONFLICT_SOURCE n) src).wr (F.GLB_CONFLICT_VALID n) 1
  else s

/-- Take one feature: it is granted when every resource that it claims is free; what was denied to it is recorded.
`held` lists the resources held, with their features. -/
def takeFeature (cs : List Claim) (f : Nat × Nat) (x : State × List (Nat × Nat)) : State × List (Nat × Nat) :=
  let mine := cs.filter fun c => c.src = f.1 && c.feature = f.2
  let holder (r : Nat) : Option Nat := (x.2.find? fun h => h.1 = r).map (·.2)
  if mine.all fun c => (holder c.res).isNone then (x.1, mine.map (fun c => (c.res, f.2)) ++ x.2)
  else
    (each mine (fun c s =>
      match holder c.res with
      | some w => conflict (if c.src = 0 then 0x0001 else 0x0030) c.idx c.res w f.2 c.src s
      | none => s) x.1, x.2)

/-- Resolve the claims; shared pins that a feature holds are its own. -/
def resolveClaims (x : Image) (s : State) : State :=
  let cs := claimsFrom 0 (chunks 8 x.claims (x.claims.length / 8)) ++ claimsFrom 1 (recsOf x.sections 0x30)
  let r := (featureOrder cs).foldl (fun y f => takeFeature cs f y) (s, [])
  let pins := ((r.2.filter fun h => bits h.1 15 12 = 1).map fun h => h.1 % 16).dedup
  r.1.onPins fun p => { p with gpioHeld := (pins.map fun i => 2 ^ i).sum }

/-- Role records and site grants for an empty site are ignored, and recorded (R18). -/
def emptySiteEntries (l : List Section) (s : State) : State :=
  let s := each (recsOf l 0x40).zipIdx (fun x s =>
    if s.emptyBundle (fieldAt x.1 1 1) then conflict 0x0040 x.2 0 0 0 2 s else s) s
  each (recsOf l 0x41).zipIdx (fun x s =>
    if fieldAt x.1 1 1 < 4 && !s.populated (fieldAt x.1 1 1) then conflict 0x0041 x.2 0 0 0 3 s else s) s

/-! ### Step 10 of R527 -/

/-- Holders enter HOLDER, and stay there (R291). -/
def loadHolders (l : List Section) (s : State) : State :=
  each ((layRecs l 2).filter recHolder) (fun r s =>
    let c := fieldAt r 1 1
    (loadGeometry c s).wr (F.CTX_STATE_STATE c) 7) s

/-- Load every section of the running image (R530). -/
def loadImage (x : Image) (s : State) : State :=
  let l := x.sections
  let s := each (layRecs l 1) (loadPartition l) s
  let s := each (layRecs l 3) (loadSlice l) (each (layRecs l 2) (loadContext l) s)
  let s := loadRegulators l (loadObjects l (loadChannels l s))
  let s := loadPools l (loadSites l (loadRoles l s))
  let s := loadClasses l (loadDevice l (loadClaush l s))
  loadHolders l (emptySiteEntries l (resolveClaims x (loadSlots l s)))

end Sys2Proof.Machine
end

