-- ==== Sys2Proof/Machine/Report.lean ====
section
/-! DEFINITION. The Askord report (R427–R436): its header and entries, and the measurement blocks of SPDM. -/

namespace Sys2Proof.Machine

/-- Zero bytes. -/
def zeros (n : Nat) : List Byte := List.replicate n 0

/-- The operators that are enrolled: the list counts only while it names the current installer and epoch (R412). -/
def State.operators (s : State) : SMap (List Byte) :=
  match s.installer with
  | some id => if s.saved.opInst = id ∧ s.saved.opEpoch = s.oprEpoch then s.saved.operators else []
  | none => []

/-- KEY_ID of an operator index, zero when it is empty. -/
def State.operatorAt (s : State) (i : Nat) : List Byte := SMap.get (fun _ => zeros 48) s.operators i

/-- The header bytes of the image in a bank, as far as they can be read. -/
def State.headerOf (s : State) (b : Nat) : List Byte :=
  match s.imgHead (bankBase b) with
  | some h => h.raw
  | none => []

/-- A digest of the running image. -/
def State.imageField (s : State) (f : Image → List Byte) : List Byte :=
  match s.image with
  | some x => padTo 48 (f x)
  | none => zeros 48

/-- SVN of the running firmware section. -/
def State.runSvn (s : State) : Nat := match s.image with | some x => x.fwSvn | none => 0

/-- REASON (R427, R429). -/
def State.reportReason (s : State) (subject : Nat) : Nat :=
  if 256 ≤ subject then 1
  else if !s.on (F.CTX_CFG_DEFINED subject) then 2
  else if !s.on (F.CTXW_CTL_MEASURE subject) then 3
  else if s.ctxState subject ≠ 3 && s.ctxState subject ≠ 4 then 4
  else if s.rd (F.SCH_STATUS_STATE (s.partOf subject)) = 4 then 5
  else 0

/-- A partition entry (R430). -/
def State.partEntry (s : State) (p : Nat) : List Byte :=
  let valid := s.on (F.CTX_PART_VALID p)
  let k := s.rd (F.SCH_STATUS_STATE p)
  let st := if !valid then 0 else if k = 4 then 3 else if k = 0 then 1 else 2
  let ts := s.tilesOf p
  let out := ((ts.filter fun t => s.rd (F.MXA_STATUS_STATE t) = 5 || s.rd (F.MXA_STATUS_STATE t) = 7).map fun t => 2 ^ t).sum
  [byte p, byte st, byte (s.rd (F.CTX_PART_GROUPS p)),
    byte (b2n (s.on (F.CTX_PART_SOLE p)) + 2 * b2n (ts.any fun t => s.on (F.MXA_CFG_PAIR_EN t)))] ++
    leBytes (ts.filter s.tileServes).length 2 ++ leBytes (s.boundTo p).length 2 ++ leBytes out 8 ++
    leBytes (s.rd (F.SCH_CFG_SLICE_US p)) 4 ++ zeros 12

/-- A site entry (R431). The identity is that of the record of R318, whose VENDOR, DEVICE, SERIAL and REV it repeats. -/
def State.siteEntry (s : State) (x : Nat) : List Byte :=
  let id := s.identBytes (10 + x) 64
  [byte x, byte (s.rd (F.CHK_STATUS_STATE x)), byte (s.rd (F.CHK_STATUS_FENCE_WHY x)),
    byte (b2n (s.on (F.CHK_CFG_ATTEST x)) + 2 * b2n (s.on (F.CHK_STATUS_ATTEST_FAIL x)))] ++
    slice id 4 4 ++ slice id 8 8 ++ slice id 2 1 ++ [0] ++ leBytes (popCount (s.rd (F.CHK_STATUS_WIN_ACTIVE x)) 16) 2 ++ zeros 12 ++
    (if s.rd (F.CHK_STATUS_STATE x) = 4 then padTo 48 (s.site x).digest else zeros 48) ++ zeros 16

/-- A context entry (R433). -/
def State.ctxEntry (s : State) (full : Bool) (subject c : Nat) : List Byte :=
  let digests := full && decide (c = subject)
  let x := s.ctx c
  [byte c, byte (s.ctxState c), byte (if s.on (F.CTX_CFG_HOLDER c) then 0xFF else s.partOf c),
    byte (b2n (s.on (F.CTX_CFG_NONCONF c)) + 2 * b2n (s.on (F.CTX_CFG_HOLDER c)) + 4 * b2n (s.on (F.CTXW_CTL_MEASURE c)) +
      8 * b2n digests)] ++
    leBytes (s.rd (F.CTX_CFG_TENANT c)) 2 ++ leBytes (s.rd (F.CTX_CFG_NCH c)) 2 ++
    (if digests then leBytes x.progCount 4 ++ leBytes x.dataCount 4 ++ padTo 48 x.prog ++ padTo 48 x.data else zeros 104) ++
    leBytes x.lockTime 8 ++ zeros 8

/-- Contexts that the image defines, ascending. -/
def State.definedCtxs (s : State) : List Nat := (List.range 256).filter fun c => s.on (F.CTX_CFG_DEFINED c)
/-- Pools that the image defines, ascending. -/
def State.definedPools (s : State) : List Nat := (List.range 64).filter fun p => s.on (F.GUP_CFG_VALID p)

/-- The partition and pool entries. -/
def State.partEntries (s : State) : List Byte := (List.range 8).flatMap s.partEntry
/-- Pool records as the image holds them (R432). -/
def State.poolEntries (s : State) : List Byte := s.definedPools.flatMap fun p => padTo 128 (s.poolRec p)

/-- The report on a subject, 0–255 or none, with a requester's nonce (R427–R434). -/
def State.report (s : State) (nonce : List Byte) (subject : Nat) : List Byte :=
  let why := s.reportReason subject
  let full := decide (why = 0)
  let ctxs := s.definedCtxs
  let pools := s.definedPools
  let staged := s.on F.HWD_STATUS_STAGED
  let flags := b2n (s.on F.HWD_STATUS_DEBUG_ON) + 2 * b2n staged + 4 * b2n s.installer.isSome +
    8 * b2n (s.on F.CLS_TIME_SYNC) + 16 * b2n (s.on F.HWD_STATUS_CERT_BAD)
  let head : List Byte := [0x41, 0x53, 0x4B, 0x52, 1, byte (if full then 1 else 2), byte why, byte flags] ++
    leBytes (0x480 + 128 * (pools.length + ctxs.length)) 4 ++ leBytes (if subject < 256 then subject else 0xFFFF) 2 ++
    [byte s.lc, byte pools.length] ++ leBytes s.serial 8 ++ leBytes s.now 8 ++ padTo 32 nonce ++
    leBytes (s.reg R.GLB_PKG_BUILD).toNat 8 ++ leBytes s.runSvn 4 ++ leBytes s.svnFloor 4 ++
    Config.romDigest.toList ++ s.imageField Image.hwd ++ s.imageField Image.ctl ++ s.imageField Image.digest ++
    (if staged then sha384 (s.headerOf s.saved.nextBank) else zeros 48) ++ padTo 48 (s.installer.getD []) ++
    sha384 (s.otpBytes 0x20 0x3E0) ++ sha384 ((List.range 8).flatMap s.operatorAt) ++
    leBytes (s.rd F.CLS_NODE_NODE) 2 ++ leBytes s.oprEpoch 2 ++ leBytes ctxs.length 2
  padTo 512 head ++ s.partEntries ++ (List.range 4).flatMap s.siteEntry ++ s.poolEntries ++
    ctxs.flatMap (s.ctxEntry full subject)

/-! ### SPDM measurement blocks (R435) -/

/-- LC_STATE, the debug byte, FW_SVN and SVN_FLOOR. -/
def State.stateBlock (s : State) : List Byte :=
  [byte s.lc, byte (b2n (s.on F.HWD_STATUS_DEBUG_ON))] ++ leBytes s.runSvn 4 ++ leBytes s.svnFloor 4

/-- The two certificate slots, each as chain and companion (R408). -/
def State.certSlot (s : State) (i : Nat) : List Byte :=
  Config.certChain i (s.saved.certs.getD [] ++ (if i = 1 then s.aliasId else []))

/-- Block `i` of the measurements, for a nonce and a subject: whether it is a raw value, and its content. -/
def State.measBlock (s : State) (nonce : List Byte) (subject i : Nat) : Option (Bool × List Byte) :=
  if i = 1 then some (false, Config.romDigest.toList)
  else if i = 2 then some (false, s.imageField Image.hwd)
  else if i = 3 then some (false, s.imageField Image.ctl)
  else if i = 4 then some (false, s.imageField Image.digest)
  else if i = 5 then some (true, s.stateBlock)
  else if i = 6 then some (false, sha384 (s.partEntries ++ s.poolEntries))
  else if i = 0x40 then some (true, s.report nonce subject)
  else if i = 0x41 then some (true, s.certSlot 0)
  else if i = 0x42 then some (true, s.certSlot 1)
  else none

end Sys2Proof.Machine
end

