-- ==== Sys2Proof/Machine/Roles.lean ====
section
/-! DEFINITION. Role commands (R410–R426, R435–R438, R442–R450, R478, R494, R495): how a command is judged, what is recorded of
it, and what each one does. -/

namespace Sys2Proof.Machine

/-! ### Form (R414) -/

/-- The 64-byte header of a command. -/
def cmdHeader (code : Nat) (c : RoleCmd) : List Byte :=
  leBytes code 2 ++ [byte c.role.val, 1] ++ leBytes (64 + c.args.length + c.sig.length) 4 ++ leBytes c.serial.toNat 8 ++
    padTo 32 c.chal ++ leBytes c.args.length 4 ++ zeros 12

/-- Arguments of each command: their length, and the values and reserved bytes that their layout fixes. -/
def argsOk (lc code : Nat) (a : List Byte) : Bool :=
  let n := a.length
  if code = 0x01 then n = 0 || a = [1]
  else if code = 0x03 then n = 1 && decide (fieldAt a 0 1 < 2)
  else if code = 0x10 || code = 0x11 || code = 0x30 || code = 0x31 then n = 1
  else if code = 0x12 then n = (if lc = 2 then 17200 else 0)
  else if code = 0x02 || code = 0x13 || code = 0x21 || code = 0x24 || code = 0x25 || code = 0x26 then n = 0
  else if code = 0x20 then n = 17656 && fieldAt a 0 1 = 1 && decide (fieldAt a 1 1 < 4) && fieldAt a 2 6 = 0
  else if code = 0x22 then n = 53 && decide (fieldAt a 0 1 < 2) && decide (fieldAt a 1 4 ≤ 117440512)
  else if code = 0x23 then decide (5 ≤ n) && decide (n ≤ 4 + 61376)
  else if code = 0x27 then n = 441 && decide (fieldAt a 440 1 < 8) && (keyIdOf (a.take 440)).isSome
  else if code = 0x28 then n = 1 && decide (fieldAt a 0 1 < 8)
  else if code = 0x32 then
    n = 8 && decide (fieldAt a 1 1 < 2) && fieldAt a 4 4 = 0 && (fieldAt a 1 1 = 1 || fieldAt a 2 2 = 0)
  else if code = 0x33 then n = 8 && decide (1 ≤ fieldAt a 6 2) && decide (fieldAt a 6 2 ≤ 1024)
  else if code = 0x34 then n = 34 && (decide (fieldAt a 32 2 < 256) || fieldAt a 32 2 = 0xFFFF)
  else false

/-- Step 1 of R416, for a command whose header fields have been taken apart. -/
def State.formatOk (s : State) (code : Nat) (c : RoleCmd) : Bool :=
  argsOk s.lc code c.args && decide (c.chal.length = 32) &&
    (if c.role.val = 0 then c.sig.isEmpty else decide (0 < pairLenOf c.sig) && decide (c.sig.length = pairLenOf c.sig))

/-! ### Judgement (R410, R412, R416, R447) -/

/-- A challenge of the table, unused and not older than 60 s (R415). -/
def State.challengeLive (s : State) (x : List Byte) : Bool :=
  s.hw.challenges.any fun e => decide (e.val = x) && decide (s.now ≤ e.at' + 60000000000)

/-- Step 2: SERIAL and CHALLENGE. -/
def State.step2 (s : State) (code : Nat) (c : RoleCmd) : Nat :=
  if c.role.val = 0 then
    if c.serial.toNat ≠ 0 && c.serial.toNat ≠ s.serial then rcSerial
    else if code = 0x23 then
      match s.hw.staging with
      | some x => if fieldAt c.chal 0 2 = x.id && allZero (c.chal.drop 2) then 0 else rcChallenge
      | none => rcChallenge
    else if allZero c.chal then 0 else rcChallenge
  else if c.serial.toNat ≠ s.serial then rcSerial
  else if s.challengeLive c.chal then 0 else rcChallenge

/-- The table of R410: has a role (0 none, 1 maker, 2 installer, 3 operator) the right in a life-cycle state? -/
def rightOk (lc code role : Nat) : Bool :=
  if code = 0x01 || code = 0x02 then role = 0
  else if code = 0x03 || code = 0x23 then role = 0 && (lc = 1 || lc = 2)
  else if code = 0x10 then role = 1 && (lc = 0 || lc = 1)
  else if code = 0x11 then role = 1 && lc = 4
  else if code = 0x13 then (role = 1 || role = 2) && (lc = 1 || lc = 2)
  else if code = 0x12 || code = 0x22 || code = 0x24 || code = 0x25 then (role = 1 && lc = 1) || (role = 2 && lc = 2)
  else if code = 0x20 || code = 0x21 || code = 0x26 || code = 0x27 || code = 0x28 then role = 2 && lc = 2
  else if code = 0x30 || code = 0x31 || code = 0x32 then (role = 3 && (lc = 1 || lc = 2)) || (role = 1 && lc = 1)
  else if code = 0x33 then (role = 3 && lc = 2) || (role = 1 && lc ≠ 2)
  else if code = 0x34 then role = 3 && lc = 2
  else false

/-- Step 3. While Locked, a command that is not answered there is refused with WRONG_STATE (R447). -/
def State.step3 (s : State) (code role : Nat) : Nat :=
  if s.lc = 4 && code ≠ 0x01 && code ≠ 0x02 && code ≠ 0x11 && code ≠ 0x33 then rcState
  else if rightOk s.lc code role then 0 else rcRight

/-- The operator index that a key is enrolled under. -/
def State.operatorIndex (s : State) (id : List Byte) : Option Nat :=
  (s.operators.find? fun e => decide (e.2 = id)).map (·.1)

/-- Step 4: the signer's key has the role. A CLAIM is signed by the key whose record it carries (R421); an installer that has
released the device keeps STAGE_ABORT alone (R422). -/
def State.step4 (s : State) (code : Nat) (c : RoleCmd) : Bool :=
  let id := pairKey c.sig
  if c.role.val = 0 then true
  else if c.role.val = 1 then s.makerOk id
  else if code = 0x20 then decide (keyIdOf (slice c.args 17216 440) = some id)
  else if c.role.val = 2 then decide (s.installer = some id) && (!s.released || code = 0x25)
  else (s.operatorIndex id).isSome

/-- Step 5: both halves of the signature pair, over header and arguments. -/
def step5 (code : Nat) (c : RoleCmd) : Bool :=
  c.role.val = 0 || pairGood .command (cmdHeader code c ++ c.args) c.sig (pairKey c.sig)

/-! ### The commands' own checks (step 6) -/

/-- A debug token of R438 over the device's live debug challenge. -/
def State.tokenOk (s : State) (t : List Byte) : Bool :=
  let sig := slice t 0x218 16664
  decide (fieldAt t 0 1 = 1) && decide (fieldAt t 1 1 < 32) && decide (fieldAt t 2 6 = 0) && decide (fieldAt t 8 8 = s.serial) &&
    decide (s.hw.debugChal = some (slice t 16 32)) && decide (s.installer = some (slice t 0x30 48)) &&
    decide (keyIdOf (slice t 0x60 440) = some (pairKey sig)) && makerPair s .debug (slice t 0 0x218) sig

/-- The checks of CLAIM (R421). -/
def State.claimCheck (s : State) (a : List Byte) : Nat :=
  let sig := slice a 0x228 16664
  if !(decide (keyIdOf (slice a 0x70 440) = some (pairKey sig)) && makerPair s .claim (slice a 0 0x228) sig) then rcSignature
  else if fieldAt a 8 8 ≠ s.serial then rcSerial
  else if keyIdOf (slice a 17216 440) ≠ some (slice a 0x10 48) then rcRight
  else match (List.range 4).find? fun i => allZero (s.installerSlot i) with
    | none => rcOtp
    | some i =>
      if fieldAt a 1 1 ≠ i then rcState
      else match s.installer with
        | none => if allZero (slice a 0x40 48) then 0 else rcState
        | some id => if slice a 0x40 48 = id && s.released then 0 else rcState

/-- Is a staging session open on the other path? -/
def State.otherPath (s : State) (mctp : Bool) : Bool :=
  match s.hw.staging with | some x => x.mctp ≠ mctp | none => false

/-- The checks of STAGE_COMMIT (R424). -/
def State.commitCheck (s : State) (x : Staging) : Nat :=
  let base := bankBase x.bank
  match s.imgHead base with
  | none => rcImage
  | some h =>
    let fw := s.firmwareOf base h
    if !(decide (sha384 h.raw = x.digest) && s.signedBy base h && firmwareSigned s fw && s.digestsOk base h) then rcImage
    else if fieldAt fw 0x10 4 < s.svnFloor then rcRollback
    else 0

/-- Why CTX_START is refused (R283): 1 not defined, 2 a holder, 3 partition not up, 4 a channel, 5 not in OFF; zero when it
is not (DETAIL's numbers are a DESIGN CHOICE, log entry 17). -/
def State.startBar (s : State) (c : Nat) : Nat :=
  let p := s.partOf c
  if !s.on (F.CTX_CFG_DEFINED c) then 1
  else if s.on (F.CTX_CFG_HOLDER c) then 2
  else if s.rd F.GLB_CFG_STATUS_STATE ≠ 1 || s.rd (F.SCH_STATUS_STATE p) = 0 || s.rd (F.SCH_STATUS_STATE p) = 4 ||
      (s.rd F.TLS_STATUS_PART_DOWN).testBit p then 3
  else if (s.ownedChannels c).any fun ch => s.chDead ch || (s.chan ch).clearing then 4
  else if s.ctxState c ≠ 0 then 5
  else 0

/-- Why CTX_STOP is refused: it names no running user context. -/
def State.stopBar (s : State) (c : Nat) : Nat :=
  if !s.on (F.CTX_CFG_DEFINED c) then 1 else if s.on (F.CTX_CFG_HOLDER c) then 2 else if s.ctxState c = 0 then 5 else 0

/-- Target and limit of a POWER_STATE (R495). -/
def powerArgs (a : List Byte) : Nat × Option Nat :=
  (fieldAt a 0 1, if fieldAt a 1 1 = 1 then some (fieldAt a 2 2) else none)

/-- Step 6: STATUS and DETAIL, zero for an accepted command. -/
def State.step6 (s : State) (code : Nat) (c : RoleCmd) : Nat × Nat :=
  let a := c.args
  let n := fieldAt a 0 1
  if code = 0x10 then (if (s.lc = 0 && n = 1) || (s.lc = 1 && n = 2) then 0 else rcState, 0)
  else if code = 0x11 then
    (if 1 ≤ n && n ≤ 3 && (List.range 3).all fun k => within (s.lcCopy k) (lcPattern n) then 0 else rcState, 0)
  else if code = 0x12 then (if s.lc = 1 || s.tokenOk a then 0 else rcToken, 0)
  else if code = 0x20 then (s.claimCheck a, 0)
  else if code = 0x22 then
    (if s.otherPath c.mctp then rcBusy else if s.hw.staging.isSome || n = s.rd F.HWD_STATUS_RUN_BANK then rcState else 0, 0)
  else if code = 0x23 then
    match s.hw.staging with
    | none => (rcState, 0)
    | some x =>
      (if x.mctp ≠ c.mctp then rcBusy else if x.length < fieldAt a 0 4 + (a.length - 4) then rcFormat
       else if s.on F.PWR_STATUS_PADS_HELD then rcState else 0, 0)
  else if code = 0x24 then
    match s.hw.staging with
    | none => (rcState, 0)
    | some x => (if x.mctp ≠ c.mctp then rcBusy else if s.on F.PWR_STATUS_PADS_HELD then rcState else s.commitCheck x, 0)
  else if code = 0x25 then (if s.otherPath c.mctp then rcBusy else 0, 0)
  else if code = 0x26 then
    (if s.image.isNone then rcState else if s.runSvn < s.svnFloor then rcRollback else if 128 < s.runSvn then rcOtp else 0, 0)
  else if code = 0x27 then
    (if s.oprEpoch = 128 && allZero (s.operatorAt (fieldAt a 440 1)) then rcOtp else 0, 0)
  else if code = 0x28 then (if s.oprEpoch = 128 then rcOtp else 0, 0)
  else if code = 0x30 then
    (if s.hw.wiping.isSome then (rcState, 0) else if s.startBar n = 0 then (0, 0) else (rcTarget, s.startBar n))
  else if code = 0x31 then (if s.stopBar n = 0 then (0, 0) else (rcTarget, s.stopBar n))
  else if code = 0x32 then
    let m := powerArgs a
    let bar := if s.power.move.isSome then 0 else s.moveBar m.1 m.2
    (if bar = 0 then 0 else rcState, bar)
  else if code = 0x34 then
    (if s.on F.HWD_STATUS_TRIAL && s.rd F.GLB_CFG_STATUS_STATE ≠ 1 then rcState else 0, 0)
  else (0, 0)

/-- The judgement of R416: STATUS and DETAIL. The first failure decides. -/
def State.judge (s : State) (code : Nat) (c : RoleCmd) (formed : Bool) : Nat × Nat :=
  if !(formed && s.formatOk code c) then (rcFormat, 0)
  else if s.step2 code c ≠ 0 then (s.step2 code c, 0)
  else if s.step3 code c.role.val ≠ 0 then (s.step3 code c.role.val, 0)
  else if !s.step4 code c then (rcRight, 0)
  else if !step5 code c then (rcSignature, 0)
  else s.step6 code c

/-! ### Shared parts of the effects -/

/-- Close the staging session (R423). -/
def closeStaging (s : State) : State := (s.onHw fun h => { h with staging := none }).wr F.MBX_STATUS_SESSION 0

/-- IDE keys are erased and SPDM sessions closed (R354, R437, R450). -/
def closeHost (s : State) : State :=
  let s := each (s.streams.map (·.1)) (fun i s => showStream i (s.onStream i fun x => { x with secure := false, keys := [] })) s
  { s with sessions := [], spdm := [] }

/-- Contexts whose channel clears are under way. -/
def State.clearingCtxs (s : State) : List Nat := (List.range 256).filter fun c => s.on (F.CTX_STATE_SCRUB c) && s.clearingOf c

/-- The alias pair's KEY_ID for what the device runs (R401, R405, R409). -/
def State.aliasRecord (s : State) (debug : Bool) : List Byte :=
  let info := ([0x61, 0x73, 0x6B, 0x6F, 0x72, 0x64].map byte) ++ Config.romDigest.toList ++ s.imageField Image.hwd ++
    s.imageField Image.ctl ++ leBytes s.runSvn 4 ++ [byte s.lc, byte (b2n debug)]
  [2] ++ zeros 7 ++ padTo 432 (Config.derive (s.otpBytes 0 32) info)

/-- Debug opens once the clears have ended and the alias pair is derived (step 6 of R437), and its command is answered. -/
def debugCheck (s : State) : State :=
  match s.hw.dbg with
  | none => s
  | some d =>
    if !d.aliasOk || d.clears.any s.clearingOf then s
    else
      let s := s.onHw fun h => { h with dbg := none, scopes := h.scopes ||| d.scope }
      let s := promiseNow (s.wr F.HWD_STATUS_DEBUG_ON 1)
      let s := if s.rd F.PWR_STATUS_STATE < 4 then s.wr (F.PWR_DOMAIN_COND 19) 0 else s
      respond d.mctp 0x12 rcOk 0 d.bbSeq true [] s

/-- Steps 3 to 6 of R450 once the clears have ended; the command is answered, and the device resets. A copy that does not
program ends the write, and the command is answered WRONG_STATE (R444). -/
def wipeOn (s : State) : State :=
  match s.hw.wiping with
  | none => s
  | some w =>
    if !s.clearingCtxs.isEmpty then s
    else
      let s := s.onHw fun h => { h with wiping := none }
      match lcProgram (lcPattern 3) [0, 1, 2] s with
      | (false, s) => respond w.1 0x13 rcState 0 w.2 true [] s
      | (true, s) => resetDecoded (respond w.1 0x13 rcOk 0 w.2 false [] (wipe s))

/-- What Heartwood goes on with when a clear has ended. -/
def hwdOn (s : State) : State := wipeOn (debugCheck s)

/-! ### The effects -/

/-- GET_CHALLENGE (R415): a fresh challenge, of which eight are held, or the one debug challenge. -/
def actChallenge (debug : Bool) (reply : List Byte → State → State) (s : State) : State :=
  let x := s.freeBytes 32
  if debug then
    match s.hw.debugChal with
    | some y => reply y s
    | none => reply x ((s.onHw fun h => { h with debugChal := some x }).drawnN 32)
  else
    reply x ((s.onHw fun h => { h with challenges := ({ val := x, at' := s.now } :: h.challenges).take 8 }).drawnN 32)

/-- Data of GET_IDENTITY (R410): serial, life-cycle state, then the KEY_IDs of the maker's ROM keys, the installer and the
operators, zero where there is none (their layout is a DESIGN CHOICE, log entry 17). -/
def State.identityData (s : State) : List Byte :=
  leBytes s.serial 8 ++ [byte s.lc] ++
    ((List.range 4).flatMap fun k => if k ≤ Config.romKeys.val then (Config.romKey k).toList else zeros 48) ++
    padTo 48 (s.installer.getD []) ++ (List.range 8).flatMap s.operatorAt

/-- LC_ADVANCE (R442, R449): the preparation, the copies, the answer and the reset. -/
def actAdvance (t : Nat) (ok bad : State → State) (s : State) : State :=
  let s := if t = 1 then fuse 0 (s.freeBytes 32) (s.drawnN 32)
    else saveNow (s.onSaved fun v => { v with certs := some (Config.makerCerts (leBytes s.serial 8)) })
  match lcProgram (lcPattern t) [0, 1, 2] s with
  | (true, s) => resetDecoded (ok s)
  | (false, s) => bad s

/-- LC_RESUME (R448). -/
def actResume (t : Nat) (ok bad : State → State) (s : State) : State :=
  match lcProgram (lcPattern t) [0, 1, 2] s with
  | (true, s) => resetDecoded (ok (if t = 3 then wipe s else s))
  | (false, s) => bad s

/-- DEBUG_ENABLE: steps 2 and 3 of R437, and the erasing of the alias pair. -/
def actDebug (mctp : Bool) (bb scope : Nat) (token : Bool) (s : State) : State :=
  let s := if token then s.onHw fun h => { h with debugChal := none } else s
  let s := each ((List.range 256).filter s.endable) (fun c s => ctxFault 0x0010 c s) s
  let s := portsDebug (closeHost (failPools s))
  let s := each (List.range 6) (fun w s => s.setReg (R.HWD_ALIAS w) 0) s
  let d : DebugRun := { scope := scope, mctp := mctp, bbSeq := bb, clears := s.clearingCtxs, aliasOk := false }
  s.onHw fun h => { h with aliasOk := false, dbg := some d }

/-- END_OF_LIFE: step 2 of R450. The ports' reason is DISABLED (DEDUCED, log entry 116). -/
def actScrap (mctp : Bool) (bb : Nat) (s : State) : State :=
  let s := each ((List.range 256).filter fun c => s.ctxState c ≠ 0 && s.ctxState c ≠ 7) (fun c s => ctxStopped c s) s
  let s := closeHost (failPools s)
  let s := each (List.range 32) (fun q s => portDown q 7 s) s
  wipeOn (s.onHw fun h => { h with wiping := some (mctp, bb) })

/-- CLAIM: the new installer's KEY_ID is fused (R421). -/
def actClaim (a : List Byte) (s : State) : State :=
  let s := fuse (0x40 + 48 * fieldAt a 1 1) (slice a 0x10 48) s
  (s.wr F.HWD_STATUS_CLAIMED (b2n s.curSlot.isSome)).wr F.HWD_STATUS_INST_SLOT (s.curSlot.getD 0)

/-- RELEASE (R422). -/
def actRelease (s : State) : State :=
  match s.curSlot with
  | some i => fuse 0x121 [byte (2 ^ i)] s
  | none => s

/-- STAGE_BEGIN: a session opens, and its number is the answer (R423). -/
def actStageBegin (mctp : Bool) (a : List Byte) (reply : List Byte → State → State) (s : State) : State :=
  let id := s.hw.sessions % 65535 + 1
  let x : Staging :=
    { id := id, mctp := mctp, bank := fieldAt a 0 1, length := fieldAt a 1 4, digest := slice a 5 48, last := s.now }
  let s := s.onHw fun h => { h with sessions := id, staging := some x }
  reply (leBytes id 2) (s.wr F.MBX_STATUS_SESSION id)

/-- STAGE_WRITE: the bytes go into the bank (R423). -/
def actStageWrite (a : List Byte) (s : State) : State :=
  match s.hw.staging with
  | none => s
  | some x =>
    flashWrite (bankBase x.bank + fieldAt a 0 4) (a.drop 4)
      (s.onHw fun h => { h with staging := some { x with last := s.now } })

/-- STAGE_COMMIT, accepted: the bank is marked for the next boot (R424). -/
def actStageCommit (s : State) : State :=
  match s.hw.staging with
  | none => s
  | some x =>
    (saveNow (s.onSaved fun v => { v with nextBank := x.bank, trial := true, tried := false, staged := true })).wr
      F.HWD_STATUS_STAGED 1

/-- A refusal record as STAGE_ABORT gives it (R494). -/
def State.refuserBytes (s : State) (d : Nat) : List Byte :=
  let r := SMap.get (fun _ => Refuser.init) s.power.refusals d
  [byte d, 0] ++ leBytes r.last 2 ++ leBytes r.refused 4 ++ leBytes r.aborted 4 ++ zeros 4 ++ leBytes r.time 8

/-- STAGE_ABORT: the session ends, and a commit that waits for its boot is withdrawn (R425). -/
def actStageAbort (s : State) : State :=
  let s := closeStaging s
  if !s.saved.staged then s
  else (saveNow (s.onSaved fun v => { v with nextBank := 0, trial := false, tried := false, staged := false })).wr
    F.HWD_STATUS_STAGED 0

/-- SVN_COMMIT: the floor rises to the running SVN (R426). -/
def actSvnCommit (s : State) : State :=
  let s := fuse 0x100 (leBytes (2 ^ s.runSvn - 1) 16) s
  s.wr F.HWD_STATUS_SVN_FLOOR s.svnFloor

/-- Write the operator list, bound to the installer and the epoch (R412). -/
def saveOperators (l : SMap (List Byte)) (s : State) : State :=
  saveNow (s.onSaved fun v => { v with operators := l, opInst := s.installer.getD [], opEpoch := s.oprEpoch })

/-- OPERATOR_ENROL. -/
def actEnrol (a : List Byte) (s : State) : State :=
  saveOperators (SMap.put (fun _ => zeros 48) s.operators (fieldAt a 440 1) (sha384 (a.take 440))) s

/-- OPERATOR_REVOKE: the index goes, and the next epoch bit is set. -/
def actRevoke (i : Nat) (s : State) : State :=
  let l := SMap.del i s.operators
  let s := fuse 0x110 (leBytes (2 ^ (s.oprEpoch + 1) - 1) 16) s
  saveOperators l (s.wr F.HWD_STATUS_OPR_EPOCH s.oprEpoch)

/-- An accepted command is carried out and answered: CODE, the command, and the SEQ of its record. -/
def act (code : Nat) (c : RoleCmd) (bb : Nat) (s : State) : State :=
  let a := c.args
  let signed := decide (c.role.val ≠ 0)
  let reply (data : List Byte) (s : State) : State := respond c.mctp code rcOk 0 bb signed data s
  let bad (s : State) : State := respond c.mctp code rcState 0 bb signed [] s
  let n := fieldAt a 0 1
  if code = 0x01 then actChallenge (!a.isEmpty) reply s
  else if code = 0x02 then reply s.identityData s
  else if code = 0x03 then reply (s.certSlot n) s
  else if code = 0x10 then actAdvance n (reply []) bad s
  else if code = 0x11 then actResume n (reply []) bad s
  else if code = 0x12 then actDebug c.mctp bb (if s.lc = 1 then 0x1F else fieldAt a 1 1) (s.lc = 2) s
  else if code = 0x13 then actScrap c.mctp bb s
  else if code = 0x20 then reply [] (actClaim a s)
  else if code = 0x21 then reply [] (actRelease s)
  else if code = 0x22 then actStageBegin c.mctp a reply s
  else if code = 0x23 then reply [] (actStageWrite a s)
  else if code = 0x24 then reply [] (closeStaging (actStageCommit s))
  else if code = 0x25 then reply ([0, 1, 3, 18].flatMap s.refuserBytes) (actStageAbort s)
  else if code = 0x26 then reply [] (actSvnCommit s)
  else if code = 0x27 then reply [] (actEnrol a s)
  else if code = 0x28 then reply [] (actRevoke n s)
  else if code = 0x30 then reply [] (beginStart n s)
  else if code = 0x31 then reply [] (ctxStopped n s)
  else if code = 0x32 then
    powerCommand { target := (powerArgs a).1, start := 0, entry := false, wake := 8, who := if c.mctp then 2 else 1,
                   limit := (powerArgs a).2, bbSeq := bb, thenTo := none } s
  else if code = 0x33 then reply ((s.recordsFrom (fieldAt a 0 6)).take (fieldAt a 6 2)).flatten s
  else
    let r := s.report (slice a 0 32) (fieldAt a 32 2)
    reply (r ++ aliasPair s .askord r) (s.wrapInc F.HWD_COUNT_REPORTS 1)

/-- What a refusal leaves beside its answer: a refused STAGE_COMMIT ends its session (R423), a refused POWER_STATE shows in
PWR_STATUS (R485). -/
def afterRefusal (code : Nat) (c : RoleCmd) (r : Nat × Nat) (s : State) : State :=
  if code = 0x24 && (r.1 = rcImage || r.1 = rcRollback) && !s.otherPath c.mctp then closeStaging s
  else if code = 0x32 && r.1 = rcState && r.2 ≠ 0 then s.wr F.PWR_STATUS_LAST_RESULT r.2
  else s

/-! ### A command is processed (R415, R416, R418) -/

/-- Is Heartwood running? -/
def State.hwdUp (s : State) : Bool := !s.boot.held && !s.stopped && s.rd F.PWR_STATUS_STATE ≠ 5

/-- The busy flag of a path. -/
def pathFld (mctp : Bool) : Fld := if mctp then F.MBX_STATUS_MCTP_BUSY else F.MBX_STATUS_BUSY

/-- Does a command wait: another one of its path is in progress (R413, R419), or its answer needs an alias pair that is
being derived (R417)? -/
def State.roleWaits (s : State) (c : RoleCmd) : Bool :=
  !s.hwdUp || s.on (pathFld c.mctp) || (decide (c.role.val ≠ 0) && (s.lc = 1 || s.lc = 2) && !s.hw.aliasOk)

/-- The record of R418, which is not written in End of life. -/
def recordRole (code : Nat) (c : RoleCmd) (status : Nat) (s : State) : State :=
  if s.lc = 3 then s
  else
    let id := if c.role.val = 0 then zeros 24 else slice (pairKey c.sig) 0 24
    let i := if c.role.val = 3 then (s.operatorIndex (pairKey c.sig)).getD 0xFF else 0xFF
    bbRecord 0x8002 srcHeartwood c.role.val 0xFF none
      (id ++ [byte (b2n c.mctp), byte i] ++ leBytes code 2 ++ [byte status]) s

/-- A command that Heartwood has read: its challenge is consumed, it is judged, recorded, and carried out or refused.
`formed` tells whether its header was well formed. -/
def takeCommand (code : Nat) (c : RoleCmd) (formed : Bool) (s : State) : State :=
  if s.roleWaits c then s
  else
    let r := s.judge code c formed
    let s := s.wr (pathFld c.mctp) 1
    let s := if c.role.val = 0 then s
      else s.onHw fun h => { h with challenges := h.challenges.filter fun e => decide (e.val ≠ c.chal) }
    let bb := if s.lc = 3 then 0 else s.rd F.BBX_COUNT_SEQ_NEXT
    let s := recordRole code c r.1 s
    if r.1 = 0 then act code c bb s
    else respond c.mctp code r.1 r.2 bb (decide (c.role.val ≠ 0)) [] (afterRefusal code c r s)

/-- A role command whose row gives its CODE. -/
def roleRow (code : Nat) (c : RoleCmd) (s : State) : State := takeCommand code c true s

/-! ### Commands read from the ring and from MCTP (R413, R414, R419) -/

/-- Take a command apart: its CODE, the command, and whether its header fields and lengths stand. -/
def parseCommand (mctp : Bool) (bs : List Byte) : Nat × RoleCmd × Bool :=
  let len := fieldAt bs 4 4
  let n := fieldAt bs 0x30 4
  let role := fieldAt bs 2 1
  let sigLen := if role = 0 then 0 else pairLenOf (slice bs (64 + n) 1)
  let formed := fieldAt bs 3 1 = 1 && decide (role < 4) && fieldAt bs 0x34 12 = 0 && decide (n ≤ 65472) &&
    decide (len = 64 + n + sigLen) && decide (len ≤ bs.length)
  let n := min n 65472
  (fieldAt bs 0 2,
    { mctp := mctp, role := Fin.ofNat 4 role, serial := w64 (fieldAt bs 8 8), chal := slice bs 0x10 32,
      args := slice bs 64 n, sig := slice bs (64 + n) sigLen }, formed)

/-- Bytes of a command slot. -/
def State.slotBytesAt (s : State) (h n : Nat) : List Byte :=
  (List.range n).map fun i => SMap.get (fun _ => 0) s.mbx (0x20000 + 0x10000 * (h % 4) + i)

/-- MBX_POLL: every 50 µs Heartwood reads MBX_CMD_TAIL (R413). -/
def mbxPoll (s : State) : State :=
  if !s.hwdUp then s
  else
    let s := hwdOn s
    let h := s.rd F.MBX_CMD_HEAD_HEAD
    let n := (s.rd F.MBX_CMD_TAIL_TAIL + 2 ^ 32 - h) % 2 ^ 32
    if 4 < n then s.wr F.MBX_STATUS_OVERRUN 1
    else
      let s := s.wr F.MBX_STATUS_OVERRUN 0
      if n = 0 || s.on F.MBX_STATUS_BUSY then s
      else
        let x := parseCommand false (s.slotBytesAt h 65536)
        takeCommand x.1 x.2.1 x.2.2 s

/-- MBX_POLL. -/
def execMbxPoll (s : State) : Host.Outcome State Fault Refusal := s.done (mbxPoll s)

/-! ### The rows -/

/-- GET_CHALLENGE. -/
def execGetChallenge (cmd : RoleCmd) (s : State) : Host.Outcome State Fault Refusal := s.done (roleRow 0x01 cmd s)
/-- GET_IDENTITY. -/
def execGetIdentity (cmd : RoleCmd) (s : State) : Host.Outcome State Fault Refusal := s.done (roleRow 0x02 cmd s)
/-- GET_CERTS. -/
def execGetCerts (cmd : RoleCmd) (s : State) : Host.Outcome State Fault Refusal := s.done (roleRow 0x03 cmd s)
/-- LC_ADVANCE. -/
def execLcAdvance (cmd : RoleCmd) (s : State) : Host.Outcome State Fault Refusal := s.done (roleRow 0x10 cmd s)
/-- LC_RESUME. -/
def execLcResume (cmd : RoleCmd) (s : State) : Host.Outcome State Fault Refusal := s.done (roleRow 0x11 cmd s)
/-- DEBUG_ENABLE. -/
def execDebugEnable (cmd : RoleCmd) (s : State) : Host.Outcome State Fault Refusal := s.done (roleRow 0x12 cmd s)
/-- END_OF_LIFE. -/
def execEndOfLife (cmd : RoleCmd) (s : State) : Host.Outcome State Fault Refusal := s.done (roleRow 0x13 cmd s)
/-- CLAIM. -/
def execClaim (cmd : RoleCmd) (s : State) : Host.Outcome State Fault Refusal := s.done (roleRow 0x20 cmd s)
/-- RELEASE. -/
def execReleaseDevice (cmd : RoleCmd) (s : State) : Host.Outcome State Fault Refusal := s.done (roleRow 0x21 cmd s)
/-- STAGE_BEGIN. -/
def execStageBegin (cmd : RoleCmd) (s : State) : Host.Outcome State Fault Refusal := s.done (roleRow 0x22 cmd s)
/-- STAGE_WRITE. -/
def execStageWrite (cmd : RoleCmd) (s : State) : Host.Outcome State Fault Refusal := s.done (roleRow 0x23 cmd s)
/-- STAGE_COMMIT. -/
def execStageCommit (cmd : RoleCmd) (s : State) : Host.Outcome State Fault Refusal := s.done (roleRow 0x24 cmd s)
/-- STAGE_ABORT. -/
def execStageAbort (cmd : RoleCmd) (s : State) : Host.Outcome State Fault Refusal := s.done (roleRow 0x25 cmd s)
/-- SVN_COMMIT. -/
def execSvnCommit (cmd : RoleCmd) (s : State) : Host.Outcome State Fault Refusal := s.done (roleRow 0x26 cmd s)
/-- OPERATOR_ENROL. -/
def execOperatorEnrol (cmd : RoleCmd) (s : State) : Host.Outcome State Fault Refusal := s.done (roleRow 0x27 cmd s)
/-- OPERATOR_REVOKE. -/
def execOperatorRevoke (cmd : RoleCmd) (s : State) : Host.Outcome State Fault Refusal := s.done (roleRow 0x28 cmd s)
/-- CTX_START. -/
def execCtxStart (cmd : RoleCmd) (s : State) : Host.Outcome State Fault Refusal := s.done (roleRow 0x30 cmd s)
/-- CTX_STOP. -/
def execCtxStop (cmd : RoleCmd) (s : State) : Host.Outcome State Fault Refusal := s.done (roleRow 0x31 cmd s)
/-- POWER_STATE. -/
def execPowerState (cmd : RoleCmd) (s : State) : Host.Outcome State Fault Refusal := s.done (roleRow 0x32 cmd s)
/-- BBX_READ. -/
def execBbxRead (cmd : RoleCmd) (s : State) : Host.Outcome State Fault Refusal := s.done (roleRow 0x33 cmd s)
/-- ATTEST_REPORT. -/
def execAttestReport (cmd : RoleCmd) (s : State) : Host.Outcome State Fault Refusal := s.done (roleRow 0x34 cmd s)

/-- STAGING_TIMEOUT: a session with no command of its own for 600 s ends (R423). -/
def stagingTimeout (s : State) : State :=
  match s.hw.staging with
  | some x => if x.last + 600000000000 ≤ s.now then closeStaging s else s
  | none => s

/-- STAGING_TIMEOUT. -/
def execStagingTimeout (s : State) : Host.Outcome State Fault Refusal := s.done (stagingTimeout s)

/-- CHALLENGE_EXPIRY: challenges older than 60 s lapse (R415). -/
def execChallengeExpiry (s : State) : Host.Outcome State Fault Refusal :=
  s.done (s.onHw fun h => { h with challenges := h.challenges.filter fun e => decide (s.now ≤ e.at' + 60000000000) })

/-- ALIAS_DERIVED: the derivation ends, and the alias certificate is issued (R409); in a debug enabling, step 5 of R437. -/
def aliasDerived (s : State) : State :=
  if !s.hwdUp || !s.hw.keysOk || s.hw.aliasOk then s
  else
    let id := sha384 (s.aliasRecord (s.on F.HWD_STATUS_DEBUG_ON || s.hw.dbg.isSome))
    let s := each (List.range 6) (fun w s => s.setReg (R.HWD_ALIAS w) (w64 (fieldAt id (8 * w) 8))) s
    debugCheck (s.onHw fun h => { h with aliasOk := true, dbg := h.dbg.map fun d => { d with aliasOk := true } })

/-- ALIAS_DERIVED. -/
def execAliasDerived (s : State) : Host.Outcome State Fault Refusal := s.done (aliasDerived s)

/-- CHANNEL_CLEAR_DONE (R187): the context's start or end goes on, and what Heartwood awaits. -/
def execChannelClearDone (ch : ChanId) (s : State) : Host.Outcome State Fault Refusal := s.done (hwdOn (channelEnds ch.val s))

end Sys2Proof.Machine
end

