-- ==== Sys2Proof/Machine/Spdm.lean ====
section
/-! DEFINITION. The SPDM responder (R358, R359, R408, R419, R435, R436) and messages over MCTP. Codes, the order of requests and
the frames around what the spec lays down are SPDM 1.2's and MCTP's (PRESUMED, log entry 18). -/

namespace Sys2Proof.Machine

/-- The negotiation state of a path. -/
def State.talk (s : State) (mctp : Bool) : Spdm := SMap.get (fun _ => Spdm.init) s.spdm (b2n mctp)
/-- Change it. -/
def State.onTalk (s : State) (mctp : Bool) (f : Spdm → Spdm) : State :=
  { s with spdm := SMap.put (fun _ => Spdm.init) s.spdm (b2n mctp) (f (s.talk mctp)) }

/-- Send a response: a DOE object frees the mailbox. Request and response join the transcript. -/
def spdmSend (r : SpdmReq) (req code : Nat) (body : List Byte) (s : State) : State :=
  let msg : List Byte := [0x12, byte code] ++ body
  let s := s.onTalk r.mctp fun t => { t with transcript := t.transcript ++ [byte req] ++ r.body ++ msg }
  let s := s.out (.doeObject r.mctp msg)
  if r.mctp then s else { s with doe := { s.doe with busy := false } }

/-- ERROR with an error code: 0x01 InvalidRequest, 0x04 UnexpectedRequest, 0x0A SessionLimitExceeded, 0x42
ResponseNotReady. -/
def spdmError (r : SpdmReq) (req e : Nat) (s : State) : State := spdmSend r req 0x7F [byte e, 0] s

/-- Is a request's session open, if it names one? -/
def State.inOpen (s : State) (r : SpdmReq) : Bool :=
  match r.ses with | some i => (s.session? r.mctp i).isSome | none => true

/-- Does the responder answer: in Test and Production, with its alias pair (R401, R441)? -/
def State.spdmUp (s : State) : Bool := s.hwdUp && (s.lc = 1 || s.lc = 2) && s.hw.aliasOk

/-- A request that the responder takes up: in its place in the negotiation (`k`: 0 none needed, 1 version, 2 capabilities, 3
algorithms), outside or inside a session. -/
def spdmTake (r : SpdmReq) (req k : Nat) (f : State → State) (s : State) : State :=
  let t := s.talk r.mctp
  if !s.spdmUp then s
  else if !s.inOpen r then spdmError r req 0x01 s
  else if (1 ≤ k && !t.versioned) || (2 ≤ k && !t.capable) || (3 ≤ k && !t.negotiated) || (k < 3 && r.ses.isSome) then
    spdmError r req 0x04 s
  else f s

/-- Bytes that the standard lays down for a response in the state that the transcript describes. -/
def State.laidDown (s : State) (r : SpdmReq) (req : Nat) : List Byte :=
  Config.standardReply ((s.talk r.mctp).transcript ++ [byte req]) r.body

/-- GET_VERSION: the negotiation begins again. -/
def getVersion (r : SpdmReq) (s : State) : State :=
  spdmTake r 0x84 0 (fun s =>
    let s := s.onTalk r.mctp fun _ => { Spdm.init with versioned := true }
    spdmSend r 0x84 0x04 (s.laidDown r 0x84) s) s

/-- GET_CAPABILITIES: CERT, CHAL, MEAS with signature, KEY_EX, ENCRYPT, MAC, HBEAT and KEY_UPD (R359), as flag bits 1, 2, 4, 9,
6, 7, 13 and 14. -/
def getCapabilities (r : SpdmReq) (s : State) : State :=
  spdmTake r 0xE1 1 (fun s =>
    let s := s.onTalk r.mctp fun t => { t with capable := true }
    spdmSend r 0xE1 0x61 (zeros 6 ++ leBytes (0x2 + 0x4 + 0x10 + 0x200 + 0x40 + 0x80 + 0x2000 + 0x4000) 4) s) s

/-- NEGOTIATE_ALGORITHMS: RSASSA-PSS 3072 with SHA-384, DHE on secp384r1, AES-256-GCM (R359). -/
def negotiateAlgorithms (r : SpdmReq) (s : State) : State :=
  spdmTake r 0xE3 2 (fun s =>
    let s := s.onTalk r.mctp fun t => { t with negotiated := true }
    spdmSend r 0xE3 0x63 (s.laidDown r 0xE3) s) s

/-- GET_DIGESTS: of the two certificate slots. -/
def getDigests (r : SpdmReq) (s : State) : State :=
  spdmTake r 0x81 3 (fun s => spdmSend r 0x81 0x01 ([0, 3] ++ sha384 (s.certSlot 0) ++ sha384 (s.certSlot 1)) s) s

/-- GET_CERTIFICATE (R408): slot, offset and length are the request's; an empty slot or an offset behind the chain is
refused. -/
def getCertificate (r : SpdmReq) (s : State) : State :=
  spdmTake r 0x82 3 (fun s =>
    let i := fieldAt r.body 0 1
    let x := s.certSlot i
    let o := fieldAt r.body 2 2
    if 1 < i || x.length < o then spdmError r 0x82 0x01 s
    else
      let d := (x.drop o).take (fieldAt r.body 4 2)
      spdmSend r 0x82 0x02 ([byte i, 0] ++ leBytes d.length 2 ++ leBytes (x.length - o - d.length) 2 ++ d) s) s

/-- CHALLENGE: signed by both halves of the pair. -/
def challenge (r : SpdmReq) (s : State) : State :=
  spdmTake r 0x83 3 (fun s =>
    if 1 < fieldAt r.body 0 1 then spdmError r 0x83 0x01 s
    else spdmSend r 0x83 0x03 ([byte (fieldAt r.body 0 1), 1] ++ sha384 (s.certSlot (fieldAt r.body 0 1)) ++ s.laidDown r 0x83) s) s

/-- The indices of R435. -/
def measIndices : List Nat := [1, 2, 3, 4, 5, 6, 0x40, 0x41, 0x42]

/-- A measurement block in its frame. -/
def measFrame (i : Nat) (b : Bool × List Byte) : List Byte :=
  [byte i, 1] ++ leBytes (b.2.length + 3) 2 ++ [if b.1 then 0x80 else 0] ++ leBytes b.2.length 2 ++ b.2

/-- The subject of a report over SPDM: the TDI most recently locked in the session, or none (R435). -/
def State.measSubject (s : State) (r : SpdmReq) : Nat :=
  match r.ses with
  | some i => match s.session? r.mctp i with
    | some x => x.tdi.getD 0xFFFF
    | none => 0xFFFF
  | none => 0xFFFF

/-- GET_MEASUREMENTS (R435, R436): their number, one block, or all of them, and the signature where it is asked for. -/
def getMeasurements (r : SpdmReq) (s : State) : State :=
  spdmTake r 0xE0 3 (fun s =>
    if s.on F.HWD_STATUS_TRIAL && s.rd F.GLB_CFG_STATUS_STATE ≠ 1 then spdmError r 0xE0 0x42 s
    else
      let op := fieldAt r.body 1 1
      let blk (i : Nat) : List Byte :=
        match s.measBlock (slice r.body 2 32) (s.measSubject r) i with
        | some b => measFrame i b
        | none => []
      let sig := if (fieldAt r.body 0 1).testBit 0 then s.laidDown r 0xE0 else []
      if op = 0 then spdmSend r 0xE0 0x60 ([9, 0] ++ sig) s
      else if op = 0xFF then
        spdmSend r 0xE0 0x60 ([0, 0, 9] ++ measIndices.flatMap blk ++ sig) (s.wrapInc F.HWD_COUNT_REPORTS 1)
      else if measIndices.contains op then
        spdmSend r 0xE0 0x60 ([0, 0, 1] ++ blk op ++ sig) (if op = 0x40 then s.wrapInc F.HWD_COUNT_REPORTS 1 else s)
      else spdmError r 0xE0 0x01 s) s

/-- The number of a new session: the requester's half, and the lowest half of the responder that is free. -/
def State.newSession (s : State) (r : SpdmReq) : Nat :=
  let lo := fieldAt r.body 2 2
  match (List.range 4).find? fun k => s.sessions.all fun x => decide (x.id ≠ lo + 65536 * (k + 1)) with
  | some k => lo + 65536 * (k + 1)
  | none => lo

/-- KEY_EXCHANGE: a session opens; at most four are open at once, over both paths (R359, R419). -/
def keyExchange (r : SpdmReq) (s : State) : State :=
  spdmTake r 0xE4 3 (fun s =>
    if r.ses.isSome then spdmError r 0xE4 0x04 s
    else if 4 ≤ s.sessions.length then spdmError r 0xE4 0x0A s
    else
      let d := s.laidDown r 0xE4
      let x : Session := { id := s.newSession r, mctp := r.mctp, secret := Config.derive d (s.talk r.mctp).transcript,
                           period := 0, beats := 0, tdi := none }
      spdmSend r 0xE4 0x64 ([0, 0] ++ leBytes (x.id / 65536) 2 ++ d) { s with sessions := s.sessions ++ [x] }) s

/-- A request that belongs inside a session: change the session, and acknowledge. -/
def inSes (r : SpdmReq) (req ack : Nat) (f : Session → Session) (s : State) : State :=
  spdmTake r req 3 (fun s =>
    match r.ses with
    | none => spdmError r req 0x04 s
    | some i =>
      let g (x : Session) : Session := if x.id = i && x.mctp = r.mctp then f x else x
      spdmSend r req ack (slice r.body 0 2) { s with sessions := s.sessions.map g }) s

/-- HEARTBEAT. -/
def heartbeat (r : SpdmReq) (s : State) : State := inSes r 0xE8 0x68 (fun x => { x with beats := x.beats + 1 }) s

/-- KEY_UPDATE: the session's keys move on. -/
def keyUpdate (r : SpdmReq) (s : State) : State :=
  inSes r 0xE9 0x69 (fun x =>
    if fieldAt r.body 0 1 = 3 then x else { x with secret := Config.derive x.secret (slice r.body 0 1) }) s

/-! ### The rows -/

/-- GET_VERSION. -/
def execGetVersion (r : SpdmReq) (s : State) : Host.Outcome State Fault Refusal := s.done (getVersion r s)
/-- GET_CAPABILITIES. -/
def execGetCapabilities (r : SpdmReq) (s : State) : Host.Outcome State Fault Refusal := s.done (getCapabilities r s)
/-- NEGOTIATE_ALGORITHMS. -/
def execNegotiateAlgorithms (r : SpdmReq) (s : State) : Host.Outcome State Fault Refusal := s.done (negotiateAlgorithms r s)
/-- GET_DIGESTS. -/
def execGetDigests (r : SpdmReq) (s : State) : Host.Outcome State Fault Refusal := s.done (getDigests r s)
/-- GET_CERTIFICATE. -/
def execGetCertificate (r : SpdmReq) (s : State) : Host.Outcome State Fault Refusal := s.done (getCertificate r s)
/-- CHALLENGE. -/
def execChallenge (r : SpdmReq) (s : State) : Host.Outcome State Fault Refusal := s.done (challenge r s)
/-- GET_MEASUREMENTS. -/
def execGetMeasurements (r : SpdmReq) (s : State) : Host.Outcome State Fault Refusal := s.done (getMeasurements r s)
/-- KEY_EXCHANGE. -/
def execKeyExchange (r : SpdmReq) (s : State) : Host.Outcome State Fault Refusal := s.done (keyExchange r s)
/-- HEARTBEAT. -/
def execHeartbeat (r : SpdmReq) (s : State) : Host.Outcome State Fault Refusal := s.done (heartbeat r s)
/-- KEY_UPDATE. -/
def execKeyUpdate (r : SpdmReq) (s : State) : Host.Outcome State Fault Refusal := s.done (keyUpdate r s)

/-! ### MCTP (R419) -/

/-- An SPDM message: version, request code, body. -/
def spdmMessage (ses : Option Nat) (bs : List Byte) (s : State) : State :=
  let r : SpdmReq := { mctp := true, ses := ses, body := bs.drop 2 }
  let code := fieldAt bs 1 1
  if code = 0x84 then getVersion r s
  else if code = 0xE1 then getCapabilities r s
  else if code = 0xE3 then negotiateAlgorithms r s
  else if code = 0x81 then getDigests r s
  else if code = 0x82 then getCertificate r s
  else if code = 0x83 then challenge r s
  else if code = 0xE0 then getMeasurements r s
  else if code = 0xE4 then keyExchange r s
  else if code = 0xE8 then heartbeat r s
  else if code = 0xE9 then keyUpdate r s
  else spdmTake r code 0 (spdmError r code 0x07) s

/-- MCTP_MESSAGE: a role command behind type 0x7E and Nimyth's vendor identifier, or SPDM, in a session or not; anything else
is dropped. -/
def mctpMessage (bs : List Byte) (s : State) : State :=
  let t := fieldAt bs 0 1
  if !s.hwdUp then s
  else if t = 0x7E then
    if slice bs 1 2 = [0x1E, 0x9C] then
      let x := parseCommand true (bs.drop 3)
      takeCommand x.1 x.2.1 x.2.2 s
    else s
  else if t = 5 then spdmMessage none (bs.drop 1) s
  else if t = 6 then spdmMessage (some (fieldAt bs 1 4)) (bs.drop 6) s
  else s

/-- MCTP_MESSAGE. -/
def execMctpMessage (bytes : List Byte) (s : State) : Host.Outcome State Fault Refusal := s.done (mctpMessage bytes s)

end Sys2Proof.Machine
end

