-- ==== Sys2Proof/Machine/Start.lean ====
section
/-! DEFINITION. Starts of the device (R425, R464, R467, R522–R533, R540–R542): the rise and fall of COLD_RST_N, loss of power, a
brown-out of PD0, the end of bring-up, the rejoin of a partition and the writing of saved settings. -/

namespace Sys2Proof.Machine

/-! ### Cold starts and losses -/

/-- COLD_RESET: the rise of COLD_RST_N (R527, R540). -/
def coldReset (s : State) : State :=
  let s := s.onPins fun x => { x with coldRstN := true }
  if s.boot.held then startBringUp 0 true (loadFuses s) else s

/-- COLD_RESET. -/
def execColdReset (s : State) : Host.Outcome State Fault Refusal := s.done (coldReset s)

/-- What stays when PD0 is reset with its inputs driven: the board's power-good and PERST# levels. -/
def coldWith (s : State) : State :=
  (coldState (tearRecord s)).onPins fun x => { x with perstN := s.pins.perstN, pg := s.pins.pg }

/-- COLD_RST_N_FALL: every domain is reset, PD0 included; a safe stop ignores it (R536, R550). -/
def execColdRstNFall (s : State) : Host.Outcome State Fault Refusal := s.done (if s.stopped then s else coldWith s)

/-- POWER_LOSS (R542): what is not in fuses, flash or the black-box device is lost. -/
def execPowerLoss (s : State) : Host.Outcome State Fault Refusal := s.done (coldState (tearRecord s))

/-- PD0_BROWN_OUT: in L5 Dormant all PD0 state is lost, and the device boots cold with cause 2 (R493). -/
def pd0BrownOut (s : State) : State :=
  if s.rd F.PWR_STATUS_STATE = 5 then
    startBringUp 2 true (loadFuses ((coldWith s).onPins fun x => { x with coldRstN := true }))
  else s

/-- PD0_BROWN_OUT. -/
def execPd0BrownOut (s : State) : Host.Outcome State Fault Refusal := s.done (pd0BrownOut s)

/-! ### Saved settings (R524) -/

/-- SAVED_SETTINGS_WRITE: pending changes are written; a write that power loss tears leaves the copy that it rewrites
invalid, and the other one in force. -/
def savedSettingsWrite (torn : Bool) (s : State) : State :=
  if !s.ssetDirty || !s.settingsOpen then s
  else if torn then
    (if copyGen s.sset0 ≤ copyGen s.sset1 then { s with sset0 := none } else { s with sset1 := none })
  else writeSettings s

/-- SAVED_SETTINGS_WRITE. -/
def execSavedSettingsWrite (torn : Bool) (s : State) : Host.Outcome State Fault Refusal := s.done (savedSettingsWrite torn s)

/-! ### Ready and refusal (R531, R532) -/

/-- Does every bundle of a range hold its minimum? -/
def State.bundlesHold (s : State) (bs : List Nat) : Bool := bs.all fun b => decide (s.imageMin b ≤ s.halves b)

/-- The conditions of R531 with their reasons, in table order. -/
def State.criteria (s : State) : List (Nat × Bool) :=
  [(1, decide (s.lc ≤ 2)), (2, decide (s.rd F.TLS_STATUS_BRINGUP_FAILS < 3)), (3, s.boot.imageOk), (4, s.hw.entropyOk),
   (5, s.bundlesHold (List.range 8)), (6, s.bundlesHold [8, 9]),
   (7, (List.range 8).all fun k => decide (s.rd (F.MEM_STATUS_STATE k) = 2)),
   (8, decide (3 ≤ popCount (s.rd F.NOC_STATUS_PLANES) 4)), (9, decide (s.lc = 0) || s.hw.aliasOk)]

/-- The first reason that applies, if any. -/
def State.refusal (s : State) : Option Nat := (s.criteria.find? fun e => !e.2).map (·.1)

/-- Tiles and schedulers of the partitions; a group in no partition stays off (R57, R182, R288, R482). -/
def partitionsUp (s : State) : State :=
  let ps := (List.range 8).filter fun p => s.on (F.CTX_PART_VALID p)
  let s := each ps (fun p s => s.wr (F.SCH_STATUS_STATE p) 2) s
  let s := each (ps.flatMap s.tilesOf) (fun t s =>
    if s.rd (F.MXA_STATUS_STATE t) = 5 then s else (s.wr (F.MXA_STATUS_STATE t) 1).wr (F.VXE_STATUS_STATE t) 1) s
  let s := each ((List.range 64).filter fun t => s.on (F.MXA_CFG_PAIR_EN t)) (fun t s =>
    if s.rd (F.MXA_STATUS_STATE t) = 1 && s.rd (F.MXA_STATUS_STATE (s.rd (F.MXA_CFG_PARTNER t))) = 5 then
      s.wr (F.MXA_STATUS_STATE t) 7 else s) s
  each ((List.range 8).filter fun g => (s.partOfGroup g).isNone) (fun g s => s.wr (F.PWR_DOMAIN_COND (5 + g)) 3) s

/-- Modules that carry half a width or none (GLB_BRINGUP.NARROW). -/
def State.narrow (s : State) : Nat :=
  ((List.range 160).filter fun m =>
    let k := s.modState m
    k = 4 || ((k = 2 || k = 3) && s.rd (F.D2D_MOD_STATUS_WIDTH m) ≠ 3)).length

/-- Did the start meet the fast conditions of R527? The modules of sites do not count: they do not gate ready. -/
def State.fastStart (s : State) : Bool :=
  s.on F.GLB_CFG_STATUS_SSET_VALID && decide (s.rd F.GLB_BRINGUP_MARGIN_LOW = 0) &&
    (List.range 128).all fun m =>
      s.modState m = 4 || (s.on (F.D2D_MOD_STATUS_SAVED_USED m) && !(s.mod m).failed)

/-- GLB_BRINGUP at the end of a start. No command brings the time of step 2, the margin results and the firmware resends:
they are free values (log entry 4). -/
def showBringUp (s : State) : State :=
  let v := s.free.toNat
  let s := s.drawn
  let s := (s.wr F.GLB_BRINGUP_READY_MS (min ((s.now - s.boot.start) / 1000000) 65535)).wr F.GLB_BRINGUP_IMAGE_MS (bits v 15 0)
  let s := (s.wr F.GLB_BRINGUP_MARGIN_LOW (bits v 23 16)).wr F.GLB_BRINGUP_FW_RETRY (bits v 31 24)
  let s := s.wr F.GLB_BRINGUP_NARROW s.narrow
  s.wr F.GLB_CFG_STATUS_FAST (b2n s.fastStart)

/-- A trial that reaches ready becomes the running bank (R425, R522). -/
def trialHolds (s : State) : State :=
  if !s.boot.trial then s
  else
    let b := s.rd F.GLB_CFG_STATUS_BANK
    let s := saveNow (s.onSaved fun v => { v with runBank := b, nextBank := 0, trial := false, tried := false, staged := false })
    { (s.wr F.HWD_STATUS_TRIAL 0).wr F.HWD_STATUS_STAGED 0 with boot := { s.boot with trial := false } }

/-- A partition that no tile is left to resets (R55). -/
def emptyPartitions (s : State) : State :=
  each ((List.range 8).filter fun p => s.on (F.CTX_PART_VALID p)) (fun p s =>
    if s.noTile p && s.rd (F.SCH_STATUS_STATE p) ≠ 4 then
      reportFault 0x0103 (srcGroup ((s.groupsOf p).headD 0)) [] (some p) 0 0 [] s
    else s) s

/-- The device is ready. -/
def reportReady (s : State) : State :=
  let s := (partitionsUp s).wr F.XLT_CFG_PREFETCH 0
  let s := trialHolds (showBringUp s)
  let s := (s.wr F.GLB_CFG_STATUS_STATE 1).wr F.TLS_STATUS_BRINGUP_FAILS 0
  emptyPartitions (promiseNow (each [10, 11, 12, 13] settleBundle s))

/-- DEVICE_READY: step 10 of R527. The running image is loaded and the configuration locked, and the device reports ready or
refuses. A trial that is refused has failed, and the device starts again from the previous bank (R425). -/
def deviceReady (s : State) : State :=
  if s.boot.held || s.stopped || s.rd F.GLB_CFG_STATUS_STATE ≠ 0 then s
  else
    let s := match s.image with
      | some x =>
        let s := ((loadImage x s).wr F.GLB_CFG_STATUS_LOCKED 1).wr F.GLB_CFG_STATUS_STEP 10
        s.wr F.PWR_LIMIT_RUN_W (s.rd F.PWR_LIMIT_MAX_W)
      | none => s
    match s.refusal with
    | none => reportReady s
    | some r =>
      if s.boot.trial then startBringUp 1 false (powerDomains s)
      else (s.wr F.GLB_CFG_STATUS_STATE 2).wr F.GLB_CFG_STATUS_REASON r

/-- DEVICE_READY. -/
def execDeviceReady (s : State) : Host.Outcome State Fault Refusal := s.done (deviceReady s)

/-! ### The rejoin of a partition (R467, R533) -/

/-- PARTITION_REJOIN: steps 5 and 6, and step 7 where no response is due any more. Tiles that failed retire; a partition
without a tile stays down (R55). While the hold store has not passed its test, the partition stays in prefetch mode
(R221). -/
def partitionRejoin (p : Nat) (failed : List Nat) (holdOk : Bool) (s : State) : State :=
  if s.rd (F.SCH_STATUS_STATE p) ≠ 4 || (s.part p).rejoin then s
  else
    let s := match s.image with | some x => loadOne x.sections p s | none => s
    let s := each ((s.tilesOf p).filter fun t => s.rd (F.MXA_STATUS_STATE t) = 6) (fun t s =>
      (s.wr (F.MXA_STATUS_STATE t) 1).wr (F.VXE_STATUS_STATE t) 1) s
    let out := (s.tilesOf p).filter fun t =>
      failed.contains t && (s.rd (F.MXA_STATUS_STATE t) = 1 || s.rd (F.MXA_STATUS_STATE t) = 7)
    let s := retireTiles (out.map fun t => { tile := t, row := 0, col := 0, bits := 0 }) 0 s
    let s := if holdOk then s.wrBit F.XLT_CFG_PREFETCH p false else s
    if s.noTile p then holdDown p false s
    else proxyRelease p (s.onPart p fun x => { x with rejoin := true })

/-- PARTITION_REJOIN. -/
def execPartitionRejoin (p : PartId) (failed : List TileId) (holdOk : Bool) (s : State) : Host.Outcome State Fault Refusal :=
  s.done (partitionRejoin p.val (failed.map (·.val)) holdOk s)

end Sys2Proof.Machine
end

