-- ==== Sys2Proof/Machine/Whittle.lean ====
section
/-! DEFINITION. Whittle (chapter 06, R195–R200, R203, R204): gather and scatter of table rows named by an index list. -/

namespace Sys2Proof.Machine

/-- Bytes of a row. -/
def Op.rowBytes (o : Op) : Nat := o.rowG * 32
/-- Address of granule `j` of table row `v`. -/
def Op.tblAt (o : Op) (v j : Nat) : Nat := o.table + v * o.rowBytes + 32 * j
/-- Address of granule `j` of dense row `i`. -/
def Op.denseAt (o : Op) (i j : Nat) : Nat := o.dense + i * o.rowBytes + 32 * j

/-- The flit that is being filled with a granule that moves from one context-relative address to another: the stack whose
Whittle fetches it, and the edge router of the channel that it is bound for (R195). -/
def State.flitKey (s : State) (c src dst : Nat) : Nat :=
  (s.locate c src).1 / 32 * 128 + channelRouter (s.locate c dst).1

/-- A granule has moved: counted at the stack of its table row, and put into its flit (R195, R214). -/
def granuleMoved (k key : Nat) (s : State) : State :=
  let s := s.wrapInc (F.MEM_WHITTLE_GRANULES k) 1
  { s with whFlits := SMap.upd (fun _ => 0) s.whFlits key fun n => (n + 1) % 4 }

/-- Code, width in bits and bytes of the elements of a SCATTER_ADD (R196, R200). -/
def addForm (elem : Nat) : Nat × Nat := if elem = 0 then (10, 32) else if elem = 1 then (11, 16) else (0, 32)

/-- Add the elements of a granule atomically at a channel's physical offset, in order (R198, R200). -/
def addGranule (ch off : Nat) (form : Nat × Nat) : List Nat → State → State × Option MemErr
  | [], s => (s, none)
  | x :: xs, s =>
    match s.atomAt ch off form.1 form.2 x 0 with
    | .error e => (s, some e)
    | .ok (_, s) => addGranule ch (off + form.2 / 8) form xs s

/-- The elements of a granule as numbers. -/
def elements (bs : List Byte) (w : Nat) : List Nat := (List.range (256 / w)).map fun i => fieldAt bs (i * w / 8) (w / 8)

/-- Move one granule between its table and its dense place. -/
def moveGranule (c : Nat) (o : Op) (t d : Nat) (s : State) : State × Option MemErr :=
  if o.kind = 0x18 then
    match s.ctxRead c t 32 with
    | .error e => (s, some e)
    | .ok bs => (s.ctxTouch c t 32).ctxWrite c d bs
  else
    match s.ctxRead c d 32 with
    | .error e => (s, some e)
    | .ok bs =>
      let s := s.ctxTouch c d 32
      if o.kind = 0x19 then s.ctxWrite c t bs
      else
        let l := s.locate c t
        let f := addForm o.whElem
        addGranule l.1 l.2 f (elements bs f.2) s

/-- How far a row has come. -/
inductive RowEnd where
  | done | waits | failed
  deriving DecidableEq, Repr

/-- What a granule asks of the buckets (R203, R266): 32 bytes where it is read and 32 where it is written, one granule of the
context's share on the stack of the table row, and a plane-flit when it begins one. -/
def State.granuleNeeds (s : State) (x : Payer) (k t d key : Nat) : List Need :=
  s.byteNeeds x.ctx [(t, 32), (d, 32)] ++
    [{ bucket := 2048 + k * 256 + x.ctx, depth := 1 + Config.granuleDepth k, tokens := 1 }] ++
    s.flitNeeds x (if SMap.get (fun _ => 0) s.whFlits key = 0 then 1 else 0)

/-- The part-filled flits of a context's stacks leave (R195). -/
def flitsLeave (c : Nat) (s : State) : State :=
  let ks := (s.ownedChannels c).map fun ch => ch / 32
  { s with whFlits := SMap.keep (fun k => !ks.contains (k / 128)) s.whFlits }

/-- An access of the operation failed: it ends, and its flits leave (R195, R207). -/
def whittleFails (c q : Nat) (e : MemErr) (s : State) : State :=
  if e.cause = 0 then s
  else opMemError c q e (((s.op? c q).map (·.count)).getD 0) (flitsLeave c s)

/-- Move the granules of list position `i` that are left, naming table row `v`; `asked` is one more than the granules moved. A
stack on which the context has no WSHARE holds the operation up (R204). -/
def moveRow (c q i v : Nat) : Nat → State → State × RowEnd
  | 0, s => (s, .done)
  | fuel + 1, s =>
    match s.op? c q with
    | none => (s, .failed)
    | some o =>
      let j := o.asked - 1
      if o.rowG ≤ j then (s, .done)
      else
        let t := o.tblAt v j
        let d := o.denseAt i j
        let k := (s.locate c t).1 / 32
        let key := if o.kind = 0x18 then s.flitKey c t d else s.flitKey c d t
        let x := s.schedPayer c q 8
        if s.rd (F.MEM_REG_CTX_WSHARE k c) = 0 || s.areaHeld c [(t, 32), (d, 32)] then (s, .waits)
        else match payNeeds x (s.granuleNeeds x k t d key) s with
          | (false, s) => (s, .waits)
          | (true, s) => match moveGranule c o t d s with
            | (s, some e) => (whittleFails c q e s, .failed)
            | (s, none) => moveRow c q i v fuel (granuleMoved k key (s.onOp c q fun o => { o with asked := o.asked + 1 }))

/-- Zero the dense row of an index that is passed over (R197). -/
def zeroRow (c q i : Nat) (o : Op) (s : State) : State × RowEnd :=
  match storeAs (s.schedPayer c q 9) (o.denseAt i 0) (List.replicate o.rowBytes 0) s with
  | (s, some e) => if e.cause = 0 then (s, .waits) else (whittleFails c q e s, .failed)
  | (s, none) => (s, .done)

/-- The operation's work ends; the partly filled flits leave (R195). -/
def endWhittle (c q st detail : Nat) (s : State) : State :=
  match s.op? c q with
  | none => s
  | some o => flitsLeave c (endOp c q st detail o.count s)

/-- Read the index at the cursor: its bytes and, once in each line, a flit are drawn when it is read first. -/
def readIndex (c q : Nat) (o : Op) (s : State) : State × Except MemErr Nat :=
  let a := o.idx + o.cursor * o.idxBytes
  let flits := if o.cursor = 0 || a % 128 = 0 then 1 else 0
  let got (s : State) : State × Except MemErr Nat :=
    match s.ctxRead c a o.idxBytes with
    | .error e => (s, .error e)
    | .ok bs => (s, .ok (leNat bs))
  if 0 < o.asked then got s
  else match access (s.schedPayer c q 7) flits [(a, o.idxBytes)] [] s with
    | (false, s) => (s, .error { ch := 0, cause := 0 })
    | (true, s) => got (s.onOp c q fun o => { o with asked := 1 })

/-- Perform the index list from the cursor on (R195–R199). -/
def walkList (c q : Nat) : Nat → State → State
  | 0, s => s
  | fuel + 1, s =>
    match s.op? c q with
    | none => s
    | some o =>
      let i := o.cursor
      if o.idxCount ≤ i then endWhittle c q stOK 0 s
      else match readIndex c q o s with
        | (s, .error e) => whittleFails c q e s
        | (s, .ok v) =>
          let next (s : State) : State := s.onOp c q fun o => { o with cursor := i + 1, asked := 0 }
          if o.tblRows ≤ v then
            if !o.oob then endWhittle c q 0x20 i s
            else
              let r := if o.kind = 0x18 then zeroRow c q i o s else (s, .done)
              match r.2 with
              | .done => walkList c q fuel (next (r.1.onOp c q fun o => { o with count := o.count + 1 }))
              | _ => r.1
          else
            let r := moveRow c q i v (o.rowG + 1) s
            match r.2 with
            | .done => walkList c q fuel (next r.1)
            | _ => r.1

/-- Run a gather or scatter. -/
def runWhittle (k c q : Nat) (s : State) : State := runKind k c q (fun o s => walkList c q (o.idxCount + 1) s) s

/-- GATHER. -/
def execGather (c : CtxId) (seq : Nat) (s : State) : Host.Outcome State Fault Refusal :=
  s.done (runWhittle 0x18 c.val seq s)
/-- SCATTER. -/
def execScatter (c : CtxId) (seq : Nat) (s : State) : Host.Outcome State Fault Refusal :=
  s.done (runWhittle 0x19 c.val seq s)
/-- SCATTER_ADD. -/
def execScatterAdd (c : CtxId) (seq : Nat) (s : State) : Host.Outcome State Fault Refusal :=
  s.done (runWhittle 0x1A c.val seq s)
/-- WHITTLE_FLIT_TIMEOUT: the partly filled flit for one destination leaves. -/
def execWhittleFlitTimeout (x : WhFlit) (s : State) : Host.Outcome State Fault Refusal :=
  s.done { s with whFlits := SMap.put (fun _ => 0) s.whFlits (x.stack.val * 128 + x.dst.val) 0 }

end Sys2Proof.Machine
end

