-- ==== Sys2Proof/Machine/Dispatch.lean ====
section
/-! DEFINITION. The one arm of each command. -/

namespace Sys2Proof.Machine

def exec (i : Instr) (s : State) : Host.Outcome State Fault Refusal :=
  match i with
  | .registerWrite a fn off size v tbit => Sys2Proof.Machine.execRegisterWrite a fn off size v tbit s
  | .unsupportedRequest fn posted => Sys2Proof.Machine.execUnsupportedRequest fn posted s
  | .powerSample hubW stackW linkW siteW => Sys2Proof.Machine.execPowerSample hubW stackW linkW siteW s
  | .billetEnd t fx => Sys2Proof.Machine.execBilletEnd t fx s
  | .splitKPartialArrival t src => Sys2Proof.Machine.execSplitKPartialArrival t src s
  | .ftqEntryFreed t => Sys2Proof.Machine.execFtqEntryFreed t s
  | .blockWritten t => Sys2Proof.Machine.execBlockWritten t s
  | .selfTestStart => Sys2Proof.Machine.execSelfTestStart s
  | .selfTestEnd t pass row col => Sys2Proof.Machine.execSelfTestEnd t pass row col s
  | .latentCheckWalk u pass => Sys2Proof.Machine.execLatentCheckWalk u pass s
  | .sliceTick p => Sys2Proof.Machine.execSliceTick p s
  | .switchWindowEnd p us hw => Sys2Proof.Machine.execSwitchWindowEnd p us hw s
  | .hostWordPoll p hw => Sys2Proof.Machine.execHostWordPoll p hw s
  | .descriptorFetchReturn c descs => Sys2Proof.Machine.execDescriptorFetchReturn c descs s
  | .operationStart c seq => Sys2Proof.Machine.execOperationStart c seq s
  | .operationComplete c seq => Sys2Proof.Machine.execOperationComplete c seq s
  | .nop c seq => Sys2Proof.Machine.execNop c seq s
  | .matmul c seq => Sys2Proof.Machine.execMatmul c seq s
  | .vector c seq => Sys2Proof.Machine.execVector c seq s
  | .tblLoad c seq => Sys2Proof.Machine.execTblLoad c seq s
  | .krnLoad c seq => Sys2Proof.Machine.execKrnLoad c seq s
  | .crvLoad c seq => Sys2Proof.Machine.execCrvLoad c seq s
  | .decision c seq => Sys2Proof.Machine.execDecision c seq s
  | .copy c seq => Sys2Proof.Machine.execCopy c seq s
  | .copy2d c seq => Sys2Proof.Machine.execCopy2d c seq s
  | .fill c seq => Sys2Proof.Machine.execFill c seq s
  | .atomic c seq => Sys2Proof.Machine.execAtomic c seq s
  | .xltTouch c seq => Sys2Proof.Machine.execXltTouch c seq s
  | .gather c seq => Sys2Proof.Machine.execGather c seq s
  | .scatter c seq => Sys2Proof.Machine.execScatter c seq s
  | .scatterAdd c seq => Sys2Proof.Machine.execScatterAdd c seq s
  | .whittleFlitTimeout x => Sys2Proof.Machine.execWhittleFlitTimeout x s
  | .ctxwSoWrite c off size v tbit => Sys2Proof.Machine.execCtxwSoWrite c off size v tbit s
  | .vxeNop t f => Sys2Proof.Machine.execVxeNop t f s
  | .add t f => Sys2Proof.Machine.execAdd t f s
  | .mul t f => Sys2Proof.Machine.execMul t f s
  | .fma t f => Sys2Proof.Machine.execFma t f s
  | .min t f => Sys2Proof.Machine.execMin t f s
  | .max t f => Sys2Proof.Machine.execMax t f s
  | .sel t f => Sys2Proof.Machine.execSel t f s
  | .cmpeq t f => Sys2Proof.Machine.execCmpeq t f s
  | .cmplt t f => Sys2Proof.Machine.execCmplt t f s
  | .cmple t f => Sys2Proof.Machine.execCmple t f s
  | .cmpun t f => Sys2Proof.Machine.execCmpun t f s
  | .mand t f => Sys2Proof.Machine.execMand t f s
  | .mor t f => Sys2Proof.Machine.execMor t f s
  | .mxor t f => Sys2Proof.Machine.execMxor t f s
  | .mnot t f => Sys2Proof.Machine.execMnot t f s
  | .mcnt t f => Sys2Proof.Machine.execMcnt t f s
  | .cvt t f => Sys2Proof.Machine.execCvt t f s
  | .pack4 t f => Sys2Proof.Machine.execPack4 t f s
  | .iota t f => Sys2Proof.Machine.execIota t f s
  | .perm t f => Sys2Proof.Machine.execPerm t f s
  | .curve t f => Sys2Proof.Machine.execCurve t f s
  | .vld t f => Sys2Proof.Machine.execVld t f s
  | .vst t f => Sys2Proof.Machine.execVst t f s
  | .seta t f => Sys2Proof.Machine.execSeta t f s
  | .loopBody t f => Sys2Proof.Machine.execLoopBody t f s
  | .setvl t f => Sys2Proof.Machine.execSetvl t f s
  | .free t f => Sys2Proof.Machine.execFree t f s
  | .wout t f => Sys2Proof.Machine.execWout t f s
  | .woutReadDone t => Sys2Proof.Machine.execWoutReadDone t s
  | .summ t f => Sys2Proof.Machine.execSumm t f s
  | .endKernel t f => Sys2Proof.Machine.execEndKernel t f s
  | .kernelInvocation t => Sys2Proof.Machine.execKernelInvocation t s
  | .kernelLong t => Sys2Proof.Machine.execKernelLong t s
  | .summaryRecord t => Sys2Proof.Machine.execSummaryRecord t s
  | .thermalSample k temp => Sys2Proof.Machine.execThermalSample k temp s
  | .patrolScrubRead ch ecc => Sys2Proof.Machine.execPatrolScrubRead ch ecc s
  | .rowRemapCopyDone ch row => Sys2Proof.Machine.execRowRemapCopyDone ch row s
  | .channelClearDone ch => Sys2Proof.Machine.execChannelClearDone ch s
  | .bucketTokensReady b n => Sys2Proof.Machine.execBucketTokensReady b n s
  | .rd h e ecc => Sys2Proof.Machine.execRd h e ecc s
  | .wr h e => Sys2Proof.Machine.execWr h e s
  | .atom h e ecc => Sys2Proof.Machine.execAtom h e ecc s
  | .rdMc h e ecc => Sys2Proof.Machine.execRdMc h e ecc s
  | .hrd h e => Sys2Proof.Machine.execHrd h e s
  | .hwr h e => Sys2Proof.Machine.execHwr h e s
  | .hatom h e => Sys2Proof.Machine.execHatom h e s
  | .rspData h e => Sys2Proof.Machine.execRspData h e s
  | .rspAck h e => Sys2Proof.Machine.execRspAck h e s
  | .rspErr h e => Sys2Proof.Machine.execRspErr h e s
  | .rspMc h e => Sys2Proof.Machine.execRspMc h e s
  | .ctl h ack => Sys2Proof.Machine.execCtl h ack s
  | .ctlAck h => Sys2Proof.Machine.execCtlAck h s
  | .linkFlitArrival router port plane vn x => Sys2Proof.Machine.execLinkFlitArrival router port plane vn x s
  | .proxyRelease p => Sys2Proof.Machine.execProxyRelease p s
  | .translationCompletion id res => Sys2Proof.Machine.execTranslationCompletion id res s
  | .invalidateRequest fn tag pasid lo hi glob => Sys2Proof.Machine.execInvalidateRequest fn tag pasid lo hi glob s
  | .invalidateCompletion c tag => Sys2Proof.Machine.execInvalidateCompletion c tag s
  | .prgResponse fn idx code => Sys2Proof.Machine.execPrgResponse fn idx code s
  | .pageRequestTimeout entry => Sys2Proof.Machine.execPageRequestTimeout entry s
  | .hostCompletion id st data => Sys2Proof.Machine.execHostCompletion id st data s
  | .completionTimeout id => Sys2Proof.Machine.execCompletionTimeout id s
  | .ctxStart cmd => Sys2Proof.Machine.execCtxStart cmd s
  | .ctxStop cmd => Sys2Proof.Machine.execCtxStop cmd s
  | .ctxwCtlLock c v size tbit => Sys2Proof.Machine.execCtxwCtlLock c v size tbit s
  | .ctxwCtlStart c v size tbit => Sys2Proof.Machine.execCtxwCtlStart c v size tbit s
  | .lockInterfaceRequest ses c stream flags => Sys2Proof.Machine.execLockInterfaceRequest ses c stream flags s
  | .startInterfaceRequest ses c nonce => Sys2Proof.Machine.execStartInterfaceRequest ses c nonce s
  | .stopInterfaceRequest ses c => Sys2Proof.Machine.execStopInterfaceRequest ses c s
  | .getTdispVersion ses c => Sys2Proof.Machine.execGetTdispVersion ses c s
  | .getTdispCapabilities ses c => Sys2Proof.Machine.execGetTdispCapabilities ses c s
  | .getDeviceInterfaceReport ses c off len => Sys2Proof.Machine.execGetDeviceInterfaceReport ses c off len s
  | .getDeviceInterfaceState ses c => Sys2Proof.Machine.execGetDeviceInterfaceState ses c s
  | .functionLevelReset fn => Sys2Proof.Machine.execFunctionLevelReset fn s
  | .vfEnableChange en num => Sys2Proof.Machine.execVfEnableChange en num s
  | .lockedConfigChange c what v => Sys2Proof.Machine.execLockedConfigChange c what v s
  | .priReset fn => Sys2Proof.Machine.execPriReset fn s
  | .msixUnmask fn vec => Sys2Proof.Machine.execMsixUnmask fn vec s
  | .malformedTlp fn => Sys2Proof.Machine.execMalformedTlp fn s
  | .poisonedTlp fn req => Sys2Proof.Machine.execPoisonedTlp fn req s
  | .unexpectedCompletion fn => Sys2Proof.Machine.execUnexpectedCompletion fn s
  | .ideCheckFailed st => Sys2Proof.Machine.execIdeCheckFailed st s
  | .ideKm ses st op => Sys2Proof.Machine.execIdeKm ses st op s
  | .doeObject len typ data => Sys2Proof.Machine.execDoeObject len typ data s
  | .doeAbort => Sys2Proof.Machine.execDoeAbort s
  | .getVersion r => Sys2Proof.Machine.execGetVersion r s
  | .getCapabilities r => Sys2Proof.Machine.execGetCapabilities r s
  | .negotiateAlgorithms r => Sys2Proof.Machine.execNegotiateAlgorithms r s
  | .getDigests r => Sys2Proof.Machine.execGetDigests r s
  | .getCertificate r => Sys2Proof.Machine.execGetCertificate r s
  | .challenge r => Sys2Proof.Machine.execChallenge r s
  | .getMeasurements r => Sys2Proof.Machine.execGetMeasurements r s
  | .keyExchange r => Sys2Proof.Machine.execKeyExchange r s
  | .heartbeat r => Sys2Proof.Machine.execHeartbeat r s
  | .keyUpdate r => Sys2Proof.Machine.execKeyUpdate r s
  | .hostLinkDown => Sys2Proof.Machine.execHostLinkDown s
  | .perstAssert => Sys2Proof.Machine.execPerstAssert s
  | .perstDeassert => Sys2Proof.Machine.execPerstDeassert s
  | .guContribute c seq => Sys2Proof.Machine.execGuContribute c seq s
  | .guReceive c seq => Sys2Proof.Machine.execGuReceive c seq s
  | .slotSeal p c => Sys2Proof.Machine.execSlotSeal p c s
  | .roundDeadline p => Sys2Proof.Machine.execRoundDeadline p s
  | .roundRelease p => Sys2Proof.Machine.execRoundRelease p s
  | .slotScrubEnd p slot => Sys2Proof.Machine.execSlotScrubEnd p slot s
  | .resultRegionScrubEnd p => Sys2Proof.Machine.execResultRegionScrubEnd p s
  | .leafPartialDeadline p node => Sys2Proof.Machine.execLeafPartialDeadline p node s
  | .moduleLinkUp m => Sys2Proof.Machine.execModuleLinkUp m s
  | .moduleTrainingTimeout m => Sys2Proof.Machine.execModuleTrainingTimeout m s
  | .moduleTrainingRetry b => Sys2Proof.Machine.execModuleTrainingRetry b s
  | .rcIdent b rec => Sys2Proof.Machine.execRcIdent b rec s
  | .rcRolesAck b roles => Sys2Proof.Machine.execRcRolesAck b roles s
  | .rollcallTimeout b => Sys2Proof.Machine.execRollcallTimeout b s
  | .rcSpdm b seq last frag => Sys2Proof.Machine.execRcSpdm b seq last frag s
  | .rcHealth b code => Sys2Proof.Machine.execRcHealth b code s
  | .reservedSidebandMessage m code => Sys2Proof.Machine.execReservedSidebandMessage m code s
  | .attestTimeout x => Sys2Proof.Machine.execAttestTimeout x s
  | .siteRd q ecc => Sys2Proof.Machine.execSiteRd q ecc s
  | .siteWr q => Sys2Proof.Machine.execSiteWr q s
  | .siteAtom q => Sys2Proof.Machine.execSiteAtom q s
  | .siteSignal q => Sys2Proof.Machine.execSiteSignal q s
  | .laneFailed m lane rx => Sys2Proof.Machine.execLaneFailed m lane rx s
  | .dieLinkDown b => Sys2Proof.Machine.execDieLinkDown b s
  | .portLinkUp q pass => Sys2Proof.Machine.execPortLinkUp q pass s
  | .portRetry q => Sys2Proof.Machine.execPortRetry q s
  | .portSignalLoss q => Sys2Proof.Machine.execPortSignalLoss q s
  | .nakFrame q h => Sys2Proof.Machine.execNakFrame q h s
  | .creditReturn q h => Sys2Proof.Machine.execCreditReturn q h s
  | .ackTimeout q => Sys2Proof.Machine.execAckTimeout q s
  | .putData q h => Sys2Proof.Machine.execPutData q h s
  | .getReq q h => Sys2Proof.Machine.execGetReq q h s
  | .getData q h => Sys2Proof.Machine.execGetData q h s
  | .putAck q h => Sys2Proof.Machine.execPutAck q h s
  | .frameRspErr q h => Sys2Proof.Machine.execFrameRspErr q h s
  | .collReady q h => Sys2Proof.Machine.execCollReady q h s
  | .collData q h => Sys2Proof.Machine.execCollData q h s
  | .guSeal q h => Sys2Proof.Machine.execGuSeal q h s
  | .guClose q h => Sys2Proof.Machine.execGuClose q h s
  | .guPartial q h => Sys2Proof.Machine.execGuPartial q h s
  | .guResult q h => Sys2Proof.Machine.execGuResult q h s
  | .guFail q h => Sys2Proof.Machine.execGuFail q h s
  | .timeFrame q h => Sys2Proof.Machine.execTimeFrame q h s
  | .keyFrame q h => Sys2Proof.Machine.execKeyFrame q h s
  | .timeTransmit q => Sys2Proof.Machine.execTimeTransmit q s
  | .claushRekey q => Sys2Proof.Machine.execClaushRekey q s
  | .collectiveTimeout c seq => Sys2Proof.Machine.execCollectiveTimeout c seq s
  | .clPut c seq => Sys2Proof.Machine.execClPut c seq s
  | .clGet c seq => Sys2Proof.Machine.execClGet c seq s
  | .clGrant c seq => Sys2Proof.Machine.execClGrant c seq s
  | .allReduce c seq => Sys2Proof.Machine.execAllReduce c seq s
  | .reduceScatter c seq => Sys2Proof.Machine.execReduceScatter c seq s
  | .allGather c seq => Sys2Proof.Machine.execAllGather c seq s
  | .broadcast c seq => Sys2Proof.Machine.execBroadcast c seq s
  | .mbxPoll => Sys2Proof.Machine.execMbxPoll s
  | .mctpMessage bytes => Sys2Proof.Machine.execMctpMessage bytes s
  | .getChallenge cmd => Sys2Proof.Machine.execGetChallenge cmd s
  | .getIdentity cmd => Sys2Proof.Machine.execGetIdentity cmd s
  | .getCerts cmd => Sys2Proof.Machine.execGetCerts cmd s
  | .lcAdvance cmd => Sys2Proof.Machine.execLcAdvance cmd s
  | .lcResume cmd => Sys2Proof.Machine.execLcResume cmd s
  | .debugEnable cmd => Sys2Proof.Machine.execDebugEnable cmd s
  | .endOfLife cmd => Sys2Proof.Machine.execEndOfLife cmd s
  | .claim cmd => Sys2Proof.Machine.execClaim cmd s
  | .releaseDevice cmd => Sys2Proof.Machine.execReleaseDevice cmd s
  | .stageBegin cmd => Sys2Proof.Machine.execStageBegin cmd s
  | .stageWrite cmd => Sys2Proof.Machine.execStageWrite cmd s
  | .stageCommit cmd => Sys2Proof.Machine.execStageCommit cmd s
  | .stageAbort cmd => Sys2Proof.Machine.execStageAbort cmd s
  | .stagingTimeout => Sys2Proof.Machine.execStagingTimeout s
  | .svnCommit cmd => Sys2Proof.Machine.execSvnCommit cmd s
  | .operatorEnrol cmd => Sys2Proof.Machine.execOperatorEnrol cmd s
  | .operatorRevoke cmd => Sys2Proof.Machine.execOperatorRevoke cmd s
  | .powerState cmd => Sys2Proof.Machine.execPowerState cmd s
  | .bbxRead cmd => Sys2Proof.Machine.execBbxRead cmd s
  | .attestReport cmd => Sys2Proof.Machine.execAttestReport cmd s
  | .challengeExpiry => Sys2Proof.Machine.execChallengeExpiry s
  | .aliasDerived => Sys2Proof.Machine.execAliasDerived s
  | .faultReport f => Sys2Proof.Machine.execFaultReport f s
  | .partitionRejoin p failed holdOk => Sys2Proof.Machine.execPartitionRejoin p failed holdOk s
  | .tlsSelfcheck => Sys2Proof.Machine.execTlsSelfcheck s
  | .mgtWatchdog => Sys2Proof.Machine.execMgtWatchdog s
  | .clkFail clk err => Sys2Proof.Machine.execClkFail clk err s
  | .vddUnder d => Sys2Proof.Machine.execVddUnder d s
  | .vddOver d => Sys2Proof.Machine.execVddOver d s
  | .pgFall g => Sys2Proof.Machine.execPgFall g s
  | .hubOvertemp => Sys2Proof.Machine.execHubOvertemp s
  | .entropyFail => Sys2Proof.Machine.execEntropyFail s
  | .bbxRecordCommit nvmOk => Sys2Proof.Machine.execBbxRecordCommit nvmOk s
  | .bbxScanDone => Sys2Proof.Machine.execBbxScanDone s
  | .bbxSel slot => Sys2Proof.Machine.execBbxSel slot s
  | .bbxSlotReadDone => Sys2Proof.Machine.execBbxSlotReadDone s
  | .pwrCmd v => Sys2Proof.Machine.execPwrCmd v s
  | .negotiationTimeout agreed => Sys2Proof.Machine.execNegotiationTimeout agreed s
  | .powerMoveEnd => Sys2Proof.Machine.execPowerMoveEnd s
  | .powerControlCheck stackW arrayW => Sys2Proof.Machine.execPowerControlCheck stackW arrayW s
  | .pwrPadRelease a v => Sys2Proof.Machine.execPwrPadRelease a v s
  | .wakeIn => Sys2Proof.Machine.execWakeIn s
  | .mgmtBusAddressMatch => Sys2Proof.Machine.execMgmtBusAddressMatch s
  | .spnAlarm => Sys2Proof.Machine.execSpnAlarm s
  | .pd0BrownOut => Sys2Proof.Machine.execPd0BrownOut s
  | .savedSettingsWrite torn => Sys2Proof.Machine.execSavedSettingsWrite torn s
  | .coldReset => Sys2Proof.Machine.execColdReset s
  | .deviceReady => Sys2Proof.Machine.execDeviceReady s
  | .powerLoss => Sys2Proof.Machine.execPowerLoss s
  | .discardedFrame q why => Sys2Proof.Machine.execDiscardedFrame q why s
  | .registerRead a fn off size tbit ecc => Sys2Proof.Machine.execRegisterRead a fn off size tbit ecc s
  | .configurationWrite fn what v => Sys2Proof.Machine.execConfigurationWrite fn what v s
  | .hostLinkUp speed width flit => Sys2Proof.Machine.execHostLinkUp speed width flit s
  | .linkL1Exit => Sys2Proof.Machine.execLinkL1Exit s
  | .coldRstNFall => Sys2Proof.Machine.execColdRstNFall s
  | .pgRise g => Sys2Proof.Machine.execPgRise g s
  | .enXiAfterFence x => Sys2Proof.Machine.execEnXiAfterFence x s

end Sys2Proof.Machine
end

