-- ==== Sys2Proof/WellFormed.lean ====
section
/-! DEFINITION. Well-formed commands: the bounds on lengths and sizes that the spec sets for what a command carries and
that its type does not hold. A command that is not well formed spells nothing that can arrive at the device. -/

namespace Sys2Proof

/-- A register access: an aligned or unaligned request of 1 to 8 bytes within 256 MiB (R8, R340). -/
def sizeOk (off size : Nat) : Bool := decide (1 ≤ size) && decide (size ≤ 8) && decide (off < 0x10000000)

/-- A role command: a 32-byte challenge, arguments within a command slot, a signature pair of one of two lengths or none
(R406, R413, R414). -/
def RoleCmd.wf (c : RoleCmd) : Bool :=
  decide (c.chal.length = 32) && decide (64 + c.args.length + c.sig.length ≤ 65536) &&
    (decide (c.sig.length = 0) || decide (c.sig.length = 16664) || decide (c.sig.length = 36104))

/-- An SPDM request: at most a DOE object of 64 KiB (R358). -/
def SpdmReq.wf (r : SpdmReq) : Bool := decide (r.body.length + 2 ≤ 65536)

/-- A flit: a data field of at most 128 bytes (R257). -/
def Flit.wf (h : Flit) : Bool := decide (h.data.length ≤ 128)

/-- A packet of two flits: two data fields (R258). -/
def Flit.wf2 (h : Flit) : Bool := decide (h.data.length ≤ 256)

/-- A Claush frame: a payload of 0 to 2,048 bytes in multiples of 64 (R376). -/
def FrameIn.wf (h : FrameIn) : Bool := decide (h.data.length ≤ 2048) && decide (h.data.length % 64 = 0)

/-- A request of a site die carries at most one UCIe transfer of data (R324). -/
def SiteReq.wf (q : SiteReq) : Bool := decide (q.data.length ≤ 256)

/-- An IDE key of 256 bits (R351, R401); a stream's range of functions rises. -/
def IdeOp.wf : IdeOp → Bool
  | .program _ _ _ key => decide (key.length = 32)
  | .start b l _ => decide (b ≤ l)
  | .setGo _ => true
  | .stop => true

/-- Is a command well formed? -/
def Instr.wf : Instr → Bool
  | .registerWrite _ _ off size _ _ => sizeOk off size
  | .powerSample _ _ _ w => decide (w.length = 4)
  | .descriptorFetchReturn _ ds => ds.all fun d => decide (d.length = 8)
  | .ctxwSoWrite _ off size _ _ => decide (off < 0x1000) && sizeOk off size
  | .rd x _ _ => x.wf
  | .wr x _ => x.wf
  | .atom x _ _ => x.wf
  | .rdMc x _ _ => x.wf
  | .hrd x _ => x.wf2
  | .hwr x _ => x.wf2
  | .hatom x _ => x.wf2
  | .rspData x _ => x.wf
  | .rspAck x _ => x.wf
  | .rspErr x _ => x.wf
  | .rspMc x _ => x.wf
  | .ctl x _ => x.wf
  | .ctlAck x => x.wf
  | .linkFlitArrival _ _ _ _ x => x.inj.all fun y => y.2.wf2
  | .invalidateRequest _ _ _ lo hi _ => decide (lo ≤ hi)
  | .hostCompletion _ _ d => decide (d.length ≤ 4096)
  | .ctxStart x => x.wf
  | .ctxStop x => x.wf
  | .ctxwCtlLock _ _ size _ => sizeOk 0 size
  | .ctxwCtlStart _ _ size _ => sizeOk 0 size
  | .startInterfaceRequest _ _ n => decide (n.length = 32)
  | .ideKm _ _ op => op.wf
  | .doeObject len _ d => decide (d.length ≤ len)
  | .getVersion x => x.wf
  | .getCapabilities x => x.wf
  | .negotiateAlgorithms x => x.wf
  | .getDigests x => x.wf
  | .getCertificate x => x.wf
  | .challenge x => x.wf
  | .getMeasurements x => x.wf
  | .keyExchange x => x.wf
  | .heartbeat x => x.wf
  | .keyUpdate x => x.wf
  | .rcIdent _ r => decide (r.length = 64)
  | .rcSpdm _ _ _ f => decide (f.length ≤ 64)
  | .siteRd x _ => x.wf
  | .siteWr x => x.wf
  | .siteAtom x => x.wf
  | .siteSignal x => x.wf
  | .nakFrame _ x => x.wf
  | .creditReturn _ x => x.wf
  | .putData _ x => x.wf
  | .getReq _ x => x.wf
  | .getData _ x => x.wf
  | .putAck _ x => x.wf
  | .frameRspErr _ x => x.wf
  | .collReady _ x => x.wf
  | .collData _ x => x.wf
  | .guSeal _ x => x.wf
  | .guClose _ x => x.wf
  | .guPartial _ x => x.wf
  | .guResult _ x => x.wf
  | .guFail _ x => x.wf
  | .timeFrame _ x => x.wf
  | .keyFrame _ x => x.wf
  | .mctpMessage bs => !bs.isEmpty
  | .getChallenge x => x.wf
  | .getIdentity x => x.wf
  | .getCerts x => x.wf
  | .lcAdvance x => x.wf
  | .lcResume x => x.wf
  | .debugEnable x => x.wf
  | .endOfLife x => x.wf
  | .claim x => x.wf
  | .releaseDevice x => x.wf
  | .stageBegin x => x.wf
  | .stageWrite x => x.wf
  | .stageCommit x => x.wf
  | .stageAbort x => x.wf
  | .svnCommit x => x.wf
  | .operatorEnrol x => x.wf
  | .operatorRevoke x => x.wf
  | .powerState x => x.wf
  | .bbxRead x => x.wf
  | .attestReport x => x.wf
  | .faultReport f => decide (f.extra.length ≤ 20)
  | .negotiationTimeout l => l.all fun d => decide (d < 20)
  | .registerRead _ _ off size _ _ => sizeOk off size
  | .unsupportedRequest _ _ | .billetEnd _ _ | .splitKPartialArrival _ _ | .ftqEntryFreed _ | .blockWritten _
  | .selfTestStart | .selfTestEnd _ _ _ _ | .latentCheckWalk _ _ | .sliceTick _ | .switchWindowEnd _ _ _
  | .hostWordPoll _ _ | .operationStart _ _ | .operationComplete _ _ | .nop _ _ | .matmul _ _ | .vector _ _
  | .tblLoad _ _ | .krnLoad _ _ | .crvLoad _ _ | .decision _ _ | .copy _ _ | .copy2d _ _ | .fill _ _
  | .atomic _ _ | .xltTouch _ _ | .gather _ _ | .scatter _ _ | .scatterAdd _ _ | .whittleFlitTimeout _
  | .vxeNop _ _ | .add _ _ | .mul _ _ | .fma _ _ | .min _ _ | .max _ _ | .sel _ _ | .cmpeq _ _ | .cmplt _ _
  | .cmple _ _ | .cmpun _ _ | .mand _ _ | .mor _ _ | .mxor _ _ | .mnot _ _ | .mcnt _ _ | .cvt _ _ | .pack4 _ _
  | .iota _ _ | .perm _ _ | .curve _ _ | .vld _ _ | .vst _ _ | .seta _ _ | .loopBody _ _ | .setvl _ _
  | .free _ _ | .wout _ _ | .woutReadDone _ | .summ _ _ | .endKernel _ _ | .kernelInvocation _ | .kernelLong _
  | .summaryRecord _ | .thermalSample _ _ | .patrolScrubRead _ _ | .rowRemapCopyDone _ _ | .channelClearDone _
  | .bucketTokensReady _ _ | .proxyRelease _ | .translationCompletion _ _
  | .invalidateCompletion _ _ | .prgResponse _ _ _ | .pageRequestTimeout _ | .completionTimeout _
  | .lockInterfaceRequest _ _ _ _ | .stopInterfaceRequest _ _ | .getTdispVersion _ _ | .getTdispCapabilities _ _
  | .getDeviceInterfaceReport _ _ _ _ | .getDeviceInterfaceState _ _ | .functionLevelReset _
  | .vfEnableChange _ _ | .lockedConfigChange _ _ _ | .priReset _ | .msixUnmask _ _ | .malformedTlp _
  | .poisonedTlp _ _ | .unexpectedCompletion _ | .ideCheckFailed _ | .doeAbort | .hostLinkDown | .perstAssert
  | .perstDeassert | .guContribute _ _ | .guReceive _ _ | .slotSeal _ _ | .roundDeadline _ | .roundRelease _
  | .slotScrubEnd _ _ | .resultRegionScrubEnd _ | .leafPartialDeadline _ _ | .moduleLinkUp _
  | .moduleTrainingTimeout _ | .moduleTrainingRetry _ | .rcRolesAck _ _ | .rollcallTimeout _ | .rcHealth _ _
  | .reservedSidebandMessage _ _ | .attestTimeout _ | .laneFailed _ _ _ | .dieLinkDown _ | .portLinkUp _ _
  | .portRetry _ | .portSignalLoss _ | .ackTimeout _ | .timeTransmit _ | .claushRekey _ | .collectiveTimeout _ _
  | .clPut _ _ | .clGet _ _ | .clGrant _ _ | .allReduce _ _ | .reduceScatter _ _ | .allGather _ _
  | .broadcast _ _ | .mbxPoll | .stagingTimeout | .challengeExpiry | .aliasDerived | .partitionRejoin _ _ _
  | .tlsSelfcheck | .mgtWatchdog | .clkFail _ _ | .vddUnder _ | .vddOver _ | .pgFall _ | .hubOvertemp
  | .entropyFail | .bbxRecordCommit _ | .bbxScanDone | .bbxSel _ | .bbxSlotReadDone | .pwrCmd _ | .powerMoveEnd
  | .powerControlCheck _ _ | .pwrPadRelease _ _ | .wakeIn | .mgmtBusAddressMatch | .spnAlarm | .pd0BrownOut
  | .savedSettingsWrite _ | .coldReset | .deviceReady | .powerLoss | .discardedFrame _ _
  | .configurationWrite _ _ _ | .hostLinkUp _ _ _ | .linkL1Exit | .coldRstNFall | .pgRise _ | .enXiAfterFence _ => true

end Sys2Proof
end

