-- ==== Sys2Proof/Safety.lean ====
section
/-! DEFINITION. What the claims speak of: the registers in which a record leaves its trace, and the conditions that hold at
reset and that every step keeps. -/

namespace Sys2Proof.Machine

/-- The registers that a black-box record and its TLS_EVT entry write (R470, R471): TLS_EVT, TLS_EVT_HEAD, BBX_STATUS
and BBX_COUNT. -/
def isLog (key : Nat) : Bool :=
  (decide (0x01701000 ≤ key) && decide (key < 0x01702000)) || key = R.TLS_EVT_HEAD || key = R.BBX_STATUS ||
    key = R.BBX_COUNT

/-- A fuse byte of one state holds every bit that is set in it in another (R402). -/
def fusesKept (s t : State) : Prop :=
  ∀ a : Nat, SMap.get (fun _ => 0) s.otp a &&& SMap.get (fun _ => 0) t.otp a = SMap.get (fun _ => 0) s.otp a

/-- Every command that waits is well formed. -/
def queueWf (s : State) : Prop := s.pending.all Instr.wf = true

/-! ### Register fields -/

/-- A field that lies inside a register of 64 bits. -/
def Fld.ok (f : Fld) : Prop := f.lo ≤ f.hi ∧ f.hi < 64

/-- Two fields that share no bit. -/
def Fld.apart (f g : Fld) : Prop := f.key ≠ g.key ∨ f.hi < g.lo ∨ g.hi < f.lo

/-! ### Registers -/

/-- A key whose reads and writes have no other meaning than the fields of a register (R8–R12): not a place of the MSI-X tables, the
mailbox slots, the trace window or CTXW_SO, and no register with a field that acts. -/
def plainKey (key : Nat) : Bool :=
  (msixAt key).isNone && (pbaAt key).isNone && !inCmdSlot key && !inRspSlot key && !inTrace key &&
    !(decide (0x10000000 ≤ key) &&
      (key % 0x10000000 = 8 || (decide (0x4000 ≤ key % 0x10000000) && decide (key % 0x10000000 < 0x5000)))) &&
    key ≠ R.BBX_SEL && key ≠ R.PWR_CMD && key ≠ R.PWR_PAD_RELEASE

/-- The endpoint takes a host request at once: it is on, and either the device is in L0 Run with no move under way or the block is
one that needs no wake (R491). -/
def State.takesNow (s : State) (fn off : Nat) : Bool :=
  !s.endpointOff && ((s.rd F.PWR_STATUS_STATE = 0 && s.power.move.isNone) || quietBlock fn off)

/-- A record of this code, source and DETAIL is queued behind those that wait, where the life-cycle state lets it and the queue has
room (R452, R471). -/
def logged (code source : Nat) (detail : List Byte) (s s' : State) : Prop :=
  bbAllowed s.lc code = true → s.bb.queue.length < 256 →
    ∃ r, r.code = code ∧ r.source = source ∧ r.detail = padTo 32 detail ∧ s'.bb.queue = s.bb.queue ++ [r]

/-- Every register but the one at `key` and those in which a record leaves its trace, as before. -/
def otherRegs (key : Nat) (s s' : State) : Prop := ∀ k, k ≠ key → isLog k = false → s'.reg k = s.reg k

/-! ### Device memory (chapter 06) -/

/-- The byte of device memory that a context addresses as `a` (R188, R206). -/
def State.flatByte (s : State) (c a : Nat) : Byte :=
  SMap.get memDefault s.devMem (memKey (s.locate c a).1 (s.locate c a).2)

/-- Every byte of a context's range lies on a channel that serves it, and in a granule without a mark. -/
def flatServes (s : State) (c : Nat) : Prop :=
  ∀ a, a < s.range c → (s.locate c a).1 < 256 ∧ s.unserved (s.locate c a).1 (s.locate c a).2 = none ∧
    s.marked (s.locate c a).1 (s.locate c a).2 = false

/-- Two addresses of a context's range name two bytes (R188). -/
def flatOnce (s : State) (c : Nat) : Prop :=
  ∀ a b, a < s.range c → b < s.range c →
    memKey (s.locate c a).1 (s.locate c a).2 = memKey (s.locate c b).1 (s.locate c b).2 → a = b

/-- Every byte of device memory but those that context `c` addresses by an address of `p` is as before. -/
def memKept (c : Nat) (p : Nat → Prop) (s s' : State) : Prop :=
  ∀ k, (∀ a, p a → k ≠ memKey (s.locate c a).1 (s.locate c a).2) →
    SMap.get memDefault s'.devMem k = SMap.get memDefault s.devMem k

/-- The units of a context reach memory at once: none of its buckets has a cap, and no row is being copied (R203, R209, R266). -/
def memFree (c : Nat) (s : State) : Prop :=
  (∀ k, k < 8 → s.rd (F.MEM_REG_CTX_RATE k c) = 0) ∧ s.rd (F.NOC_REG_CTX_RATE c) = 0 ∧ ∀ e ∈ s.chans, e.2.copying = []

/-- Of the channels' records only the slices have changed, which take the sectors that a read fills (R193). -/
def cachesOnly (s s' : State) : Prop := ∀ ch, s'.chan ch = { s.chan ch with cache := (s'.chan ch).cache }

/-- Two areas that share no byte. -/
def areasApart (a n b m : Nat) : Prop := a + n ≤ b ∨ b + m ≤ a

/-! ### The on-die network (chapter 08) -/

/-- A packet of this opcode that does not stand in the network yet, between agents that are not behind a proxy (R272). -/
def meshNew (h : Flit) (opc : Nat) (s : State) : Prop :=
  s.inNetwork h.dst.val opc h = none ∧ s.proxied h.src.val h.sag.val = false ∧ s.proxied h.dst.val h.dag.val = false

/-- A request that its source issues at once: it can take the responses, and draws no injection tokens (R266, R268, R272). -/
def meshFree (h : Flit) (opc : Nat) (s : State) : Prop :=
  meshNew h opc s ∧ s.mayIssue h opc = true ∧
    ((s.sourceOf h).2 = true ∨ s.rd (F.NOC_REG_CTX_RATE (s.sourceOf h).1) = 0)

/-- The counts of packets that have crossed each bundle have grown: of those to the die by `out`, of those from it by `inn`, each
given a bundle and a plane and VN (R313); nothing else of a bundle has changed. -/
def crossed (out inn : Nat → Nat → Nat) (s s' : State) : Prop :=
  (∀ b, s'.bdl b = { s.bdl b with sent := (s'.bdl b).sent, got := (s'.bdl b).got }) ∧
    ∀ b j, SMap.get (fun _ => 0) (s'.bdl b).sent j = SMap.get (fun _ => 0) (s.bdl b).sent j + out b j ∧
      SMap.get (fun _ => 0) (s'.bdl b).got j = SMap.get (fun _ => 0) (s.bdl b).got j + inn b j

/-- One packet between an agent and its die's bundle: on the plane `p`, of the virtual network `vn`. -/
def oneAt (r a p vn b j : Nat) : Nat := if bundleAt r a = some b ∧ j = 4 * p + vn then 1 else 0

/-- A packet of a plane has gone from its source to its destination, over the bundles of both (R313). -/
def wentOver (h : Flit) (vn : Nat) (s s' : State) : Prop :=
  crossed (oneAt h.dst.val h.dag.val (s.planeOf h) vn) (oneAt h.src.val h.sag.val (s.planeOf h) vn) s s'

/-- A request is issued: its tag is in use, on the plane that its source chose, for the tiles of a multicast set (R256, R262). -/
def issued (h : Flit) (tiles : List Nat) (s s' : State) : Prop :=
  s'.tags = s.tags ++ [{ agent := 4 * h.src.val + h.sag.val, tag := h.tag.toNat, plane := s.planeOf h, tiles := tiles }]

/-- A packet has reached its destination over the network, and its response has been injected there: back to the source, on the
packet's plane (unless its source has used the same tag before), with its TAG, CTX and set and the STATUS and data (R256–R259,
R263, R313). -/
def answered (h : Flit) (opc status : Nat) (data : List Byte) (s s' : State) : Prop :=
  ∃ f : NetFlit, s'.outbox = .flit f :: s.outbox ∧ f.opc = opc ∧
    f.hdr = { h with dst := h.src, dag := h.sag, src := h.dst, sag := h.dag, hubtx := (s.sourceOf h).2,
                     ctx := Fin.ofNat 256 (s.sourceOf h).1, status := Fin.ofNat 8 status, mc := decide (opc = 0x0B), boff := 0,
                     lenM1 := Fin.ofNat 128 (data.length - 1), data := data } ∧
    ((∀ x ∈ s.tags, ¬ (x.agent = 4 * h.src.val + h.sag.val ∧ x.tag = h.tag.toNat)) → f.plane = s.planeOf h) ∧
    (∀ k, s'.buf k = s.buf k ++ if k = bufKey h.dst.val 0 f.plane f.cls then [f] else []) ∧
    crossed (oneAt h.dst.val h.dag.val (s.planeOf h) (if opc = 0x11 then 2 else 0))
      (fun b j => oneAt h.src.val h.sag.val (s.planeOf h) (if opc = 0x11 then 2 else 0) b j +
        oneAt h.dst.val h.dag.val f.plane (opcVn opc) b j) s s'

/-- The count of responses due at agent `k` has become `f` of what it was, and every other count is as before (R272). -/
def dueAt (k : Nat) (f : Nat → Nat) (s s' : State) : Prop :=
  ∀ j, SMap.get (fun _ => 0) s'.owed j = if j = k then f (SMap.get (fun _ => 0) s.owed k) else SMap.get (fun _ => 0) s.owed j

/-- The registers behind a flit whose end-to-end code was good or corrected: as before, but for NOC_ERR and NOC_LAST_ERR when it
was corrected (R277). -/
def e2eRegs (e : E2e) (s s' : State) : Prop :=
  (e = .good → s'.regs = s.regs) ∧ ∀ k, k ≠ R.NOC_ERR → k ≠ R.NOC_LAST_ERR → s'.reg k = s.reg k

/-! ### Faults that end a context (chapters 09, 15) -/

/-- A fault of this code is CONTAINED, and would end context `c`: the context is LOCKED or RUN, its partition is not under reset,
and the device is in L0 Run and not held (R461). -/
def contains (code c : Nat) (s : State) : Prop :=
  s.classOf code = 1 ∧ s.stopped = false ∧ s.endable c = true ∧ s.rd (F.SCH_STATUS_STATE (s.partOf c)) ≠ 4 ∧
    s.rd F.PWR_STATUS_STATE = 0

/-- Context `c` is FAULTED with this code, which TLS_LAST names too, and holds no operation and no lock (R280, R285). -/
def endsFaulted (code c : Nat) (s' : State) : Prop :=
  s'.ctxState c = 5 ∧ s'.rd (F.CTX_STATE_FAULT c) = code ∧ s'.rd (F.CTX_STATE_TDI c) = 3 ∧ (s'.ctx c).ops = [] ∧
    (s'.ctx c).tdiLocked = false ∧ s'.rd F.TLS_LAST_CODE = code

/-! ### The host endpoint (chapter 11) -/

/-- An error is noted in GLB_HEP_LAST_ERR and in the function's AER (R348, R368); of the configuration spaces nothing else changes but
what the message of vector 4 of PF0 leaves pending. -/
def errorNoted (kind fn : Nat) (c : Option Nat) (s s' : State) : Prop :=
  s'.rd F.GLB_HEP_LAST_ERR_KIND = kind ∧ s'.rd F.GLB_HEP_LAST_ERR_RID = fn ∧ s'.rd F.GLB_HEP_LAST_ERR_CTX_VALID = b2n c.isSome ∧
  s'.rd F.GLB_HEP_LAST_ERR_CTX = c.getD 0 ∧ s'.rd F.GLB_HEP_LAST_ERR_VALID = 1 ∧
  (∀ j k, SMap.get (fun _ => 0) (s'.cfg j).aer k =
    SMap.get (fun _ => 0) (s.cfg j).aer k + if j = fn ∧ k = kind then 1 else 0) ∧
  (∀ j, s'.cfg j = { s.cfg j with aer := (s'.cfg j).aer, pending := (s'.cfg j).pending }) ∧
  (∀ j, j ≠ 0 → (s'.cfg j).pending = (s.cfg j).pending) ∧
  ∀ k, k ≠ R.GLB_HEP_ERR → k ≠ R.GLB_HEP_LAST_ERR → s'.reg k = s.reg k

/-- The session is open on the DOE mailbox (R359). -/
def openSession (ses : Nat) (s : State) : Prop := (s.session? false ses).isSome = true

/-- A TDISP response has left, and the mailbox is free (R355, R358). -/
def tdispAnswered (c code : Nat) (data : List Byte) (s s' : State) : Prop :=
  s'.outbox = .tdisp c code data :: s.outbox ∧ s'.doe = { s.doe with busy := false }

/-! ### Claush (chapter 12) -/

/-- A frame that its port takes: the port is up, or the frame is a KEY frame and the port agrees keys; its SEQ is the next; and nothing
is left to be acknowledged (R377, R380). -/
def takesFrame (q : Nat) (key : Bool) (h : FrameIn) (s : State) : Prop :=
  (s.rd (F.CLS_PORT_STATUS_STATE q) = 4 ∨ (key = true ∧ s.rd (F.CLS_PORT_STATUS_STATE q) = 3)) ∧
    h.seq.toNat = (s.port q).rxSeq % 2 ^ 32 ∧ (s.port q).unacked = []

/-- A port that has taken a frame and returned its credit (R378, R380). -/
def Port.taken (x : Port) : Port := { x with rxSeq := x.rxSeq + 1, linkSeq := x.linkSeq + 1 }

/-- A LINK frame of this kind as port `q`, which is `x`, sends it (R376–R378, R380): under the port's key set, with the next LINK counter
and the ACK of the frames received. -/
def State.linkOut (s : State) (q kind arg : Nat) (x : Port) : Out :=
  .frame q 0 (s.frameBytes q
    { type := 0, vc := 0, key := s.rd (F.CLS_PORT_STATUS_KEYSET q), seq := 2 ^ 63 + x.linkSeq, ack := x.acked, sctx := 0, dctx := 0,
      opid := 0, arg := kind * 2 ^ 56 + arg, data := [] })

/-- The CREDIT that answers the next frame of port `q` (R378). -/
def State.creditOut (s : State) (q vc : Nat) : Out :=
  s.linkOut q 2 (2 ^ (8 * vc)) { s.port q with rxSeq := (s.port q).rxSeq + 1 }

/-- The credit of a taken frame has gone back on port `q`; every other port is as before (R378). -/
def frameTaken (q vc : Nat) (s s' : State) : Prop :=
  s'.outbox = s.creditOut q vc :: s.outbox ∧ s'.port q = (s.port q).taken ∧ ∀ j, j ≠ q → s'.port j = s.port j

/-- A frame of this type with `n` bytes of payload leaves at once: its channel holds a credit, nothing of it waits, and there is room
among the frames that are kept until they are acknowledged (R378, R380). -/
def canSend (q type n : Nat) (s : State) : Prop :=
  SMap.get vcCredits (s.port q).credits (frameVc type) ≠ 0 ∧ (∀ w ∈ (s.port q).waiting, w.vc ≠ frameVc type) ∧
    44 + 64 * ceilDiv n 64 + ((s.port q).unacked.map Frame.size).sum ≤ 2 ^ 21

/-- Port `q`, which was `x`, has sent one frame with these fields: it takes the next SEQ and a credit of its channel, carries the ACK of what
was received, and is kept until it is acknowledged (R376–R378, R380); `l` is what the device had driven before. -/
def frameSent (q type sctx dctx opid arg : Nat) (data : List Byte) (x : Port) (l : List Out) (s' : State) : Prop :=
  ∃ f : Frame, f.type = type ∧ f.vc = frameVc type ∧ f.sctx = sctx ∧ f.dctx = dctx ∧ f.opid = opid ∧ f.arg = arg ∧
    f.data = padTo (64 * ceilDiv data.length 64) data ∧ f.seq = x.txSeq ∧ f.ack = x.acked ∧
    s'.port q = { x with txSeq := x.txSeq + 1, unacked := x.unacked ++ [f], keyFrames := x.keyFrames + 1,
                         ackAt := (s'.port q).ackAt, lastVc := (s'.port q).lastVc, credits := (s'.port q).credits } ∧
    SMap.get vcCredits (s'.port q).credits (frameVc type) = SMap.get vcCredits x.credits (frameVc type) - 1 ∧
    s'.outbox = .frame q type (s'.frameBytes q f) :: l

/-- An operation of a running context that its Claush or collective engine has not taken over yet (R177). -/
def engineOp (c q k : Nat) (o : Op) (s : State) : Prop :=
  s.op? c q = some o ∧ o.kind = k ∧ o.started = true ∧ o.done = none ∧ s.ctxState c = 4 ∧
    (∀ x ∈ s.clOps, ¬ (x.ctx = c ∧ x.seq = q)) ∧ ∀ x ∈ s.colls, ¬ (x.ctx = c ∧ x.seq = q)

/-- A port is down for this reason, and its keys and frames are gone (R375, R395). -/
def portIsDown (q why : Nat) (s' : State) : Prop :=
  s'.rd (F.CLS_PORT_STATUS_STATE q) = 0 ∧ s'.rd (F.CLS_PORT_STATUS_DOWN_WHY q) = why ∧ s'.port q = Port.init

/-! ### Die-to-die links and sites (chapter 10) -/

/-- The die of bundle `b` can be fenced and nothing of the device ends with it: its fence would be new, no context in LOCKED or RUN and no pool
has channels on a memory die, and no port of a link die is up (R321, R322). -/
def dieIdle (b : Nat) (s : State) : Prop :=
  untilReset (s.fenceWhy b) = false ∧
  (b < 8 → (∀ c ∈ s.ownersOf b, s.endable c = false) ∧
    ∀ p, p < 64 → s.on (F.GUP_CFG_VALID p) = true → ∀ ch ∈ s.ownedChannels (s.holder p), ch / 32 ≠ b) ∧
  (8 ≤ b → b < 10 → ∀ q ∈ diePorts (b - 8), s.rd (F.CLS_PORT_STATUS_STATE q) ≠ 4)

/-- The die of bundle `b` is fenced for this reason: its modules carry nothing, its stack, link die or site shows it, and a site's windows are
closed (R321, R322, R328). -/
def dieFenced (b why : Nat) (s s' : State) : Prop :=
  s'.rd (F.D2D_BDL_STATUS_STATE b) = 4 ∧ s'.fenceWhy b = why ∧ (s'.bdl b).step = 0 ∧
  (∀ m ∈ bundleMods b, s'.modState m = if s.modState m = 4 then 4 else 6) ∧
  (b < 8 → s'.rd (F.MEM_STATUS_STATE b) = 4) ∧ (8 ≤ b → b < 10 → s'.rd (F.CLS_DIE_STATUS_STATE (b - 8)) = 3) ∧
  ∀ x, bundleSite b = some x → s'.rd (F.CHK_STATUS_STATE x) = 5 ∧ s'.rd (F.CHK_STATUS_FENCE_WHY x) = why ∧
    ∀ w, w < 16 → s.on (F.CHK_WIN_A_VALID x w) = true → s'.rd (F.CHK_WIN_A_ACTIVE x w) = 0

/-- An answer has left for a site's die (R327). -/
def siteAnswered (q : SiteReq) (err : Bool) (data : List Byte) (s s' : State) : Prop :=
  s'.outbox = .siteAnswer q.site.val q.tag err data :: s.outbox

/-! ### Role commands (chapter 13) -/

/-- The rows of the role commands, with their CODEs (R410). -/
def roleRows : List (Nat × (RoleCmd → Instr)) :=
  [(0x01, .getChallenge), (0x02, .getIdentity), (0x03, .getCerts), (0x10, .lcAdvance), (0x11, .lcResume), (0x12, .debugEnable),
   (0x13, .endOfLife), (0x20, .claim), (0x21, .releaseDevice), (0x22, .stageBegin), (0x23, .stageWrite), (0x24, .stageCommit),
   (0x25, .stageAbort), (0x26, .svnCommit), (0x27, .operatorEnrol), (0x28, .operatorRevoke), (0x30, .ctxStart), (0x31, .ctxStop),
   (0x32, .powerState), (0x33, .bbxRead), (0x34, .attestReport)]

/-- A role command has been answered on its path with this STATUS, DETAIL and data, and its path is free (R413, R417, R419); the answer is the
last that was driven. -/
def roleAnswered (code : Nat) (c : RoleCmd) (status detail : Nat) (data : List Byte) (s s' : State) : Prop :=
  let bs := respBytes s code status detail (if s.lc = 3 then 0 else s.rd F.BBX_COUNT_SEQ_NEXT) (decide (c.role.val ≠ 0)) data
  let h := s.rd F.MBX_CMD_HEAD_HEAD
  s'.rd F.MBX_STATUS_LAST_CODE = code ∧ s'.rd F.MBX_STATUS_LAST_STATUS = status ∧ s'.on (pathFld c.mctp) = false ∧
  (c.mctp = true → s'.rd F.MBX_CMD_HEAD_HEAD = h ∧ s'.mbx = s.mbx ∧ ∃ l, s'.outbox = .roleResponse true bs :: l) ∧
  (c.mctp = false → s'.rd F.MBX_CMD_HEAD_HEAD = (h + 1) % 2 ^ 32 ∧
    ∀ a, SMap.get (fun _ => 0) s'.mbx a =
      if 0x80000 + 0x20000 * (h % 4) ≤ a ∧ a < 0x80000 + 0x20000 * (h % 4) + bs.length
      then bs.getD (a - (0x80000 + 0x20000 * (h % 4))) 0 else SMap.get (fun _ => 0) s.mbx a)

/-- The registers that every role command writes beside those of its record (R413, R417, R440). -/
def isRole (key : Nat) : Bool := isLog key || key = R.MBX_STATUS || key = R.MBX_CMD_HEAD || key = R.HWD_COUNT

/-- A command is taken up and accepted (R416). -/
def roleAccepts (code : Nat) (c : RoleCmd) (s : State) : Prop := s.roleWaits c = false ∧ s.judge code c true = (0, 0)

/-- What Heartwood holds behind a command: its challenge is used up (R415). -/
def usedUp (c : RoleCmd) (h : Hw) : Hw :=
  if c.role.val = 0 then h else { h with challenges := h.challenges.filter fun e => decide (e.val ≠ c.chal) }

/-- Nothing runs that an opening of debug or a scrapping would end: no context is LOCKED, in RUN or on its way, no pool is defined, and no port
is up (R437, R450). -/
def deviceQuiet (s : State) : Prop :=
  (∀ c, c < 256 → s.ctxState c = 0 ∨ s.ctxState c = 7) ∧ (∀ p, p < 64 → s.on (F.GUP_CFG_VALID p) = false) ∧
    ∀ q, q < 32 → s.rd (F.CLS_PORT_STATUS_STATE q) ≠ 4

/-- A fuse byte reads every bit of `b` (R402). -/
def fused (a : Nat) (b : Byte) (s : State) : Prop := s.otpByte a &&& b = b

/-- The fuses stay in their canonical form, and none outside `p` changes, where they had it before. -/
def fusesOnly (p : Nat → Prop) (s s' : State) : Prop :=
  SMap.wf (fun _ => 0) s.otp = true → SMap.wf (fun _ => 0) s'.otp = true ∧ ∀ a, ¬ p a → s'.otpByte a = s.otpByte a

/-! ### Detected faults (chapter 15) -/

/-- TLS_LAST names a fault: its code, source, class and context (R461, R479). -/
def faultNoted (code src cls : Nat) (c : Option Nat) (s' : State) : Prop :=
  s'.rd F.TLS_LAST_CODE = code ∧ s'.rd F.TLS_LAST_SOURCE = src ∧ s'.rd F.TLS_LAST_CLASS = cls ∧
    s'.rd F.TLS_LAST_CTX_VALID = b2n c.isSome ∧ s'.rd F.TLS_LAST_CTX = c.getD 0 ∧ s'.rd F.TLS_LAST_VALID = 1

/-- The device has been reset (R468): no context, operation, host request or session is left, and it starts again. -/
def deviceWasReset (s' : State) : Prop :=
  s'.ctxs = [] ∧ (∀ c, c < 256 → s'.ctxState c = 0) ∧ s'.hostReqs = [] ∧ s'.sessions = [] ∧ s'.colls = [] ∧
    s'.rd F.GLB_CFG_STATUS_STATE = 0 ∧ s'.boot.cause = 1

/-- The device has stopped (R469): every rail is off, FAULT_OUT_N is low, device memory is lost, and nothing starts. -/
def deviceWasStopped (s' : State) : Prop :=
  s'.tls.stopped = true ∧ s'.pins.faultOutN = false ∧ s'.pins.enLow = 0x7F ∧ s'.devMem = [] ∧ s'.ctxs = []

/-- What a command that reports one fault, with no context and no partition, answers in each class (R461): a CORRECTED one is
noted and counted, and only the registers `ks` change beside; a CONTAINED or DEVICE one resets the device, and a FATAL one stops it. -/
def faultActs (i : Instr) (code src : Nat) (ks : List Nat) (shows : State → Prop) (s : State) : Prop :=
  (s.classOf code = 0 → ∃ s', exec i s = .next s' ∧ faultNoted code src 0 none s' ∧ shows s' ∧
    s'.rd F.TLS_COUNT_CORRECTED = min (s.rd F.TLS_COUNT_CORRECTED + 1) (2 ^ 32 - 1) ∧ s'.ctxs = s.ctxs ∧ s'.devMem = s.devMem ∧
    ∀ k, isLog k = false → k ≠ R.TLS_LAST → k ≠ R.TLS_COUNT → k ∉ ks → s'.reg k = s.reg k) ∧
  (s.classOf code = 1 ∨ s.classOf code = 3 → s.stopped = false → ∃ s', exec i s = .next s' ∧ deviceWasReset s') ∧
  (s.classOf code = 4 → s.stopped = false → ∃ s', exec i s = .next s' ∧ deviceWasStopped s')

/-- Partition `p` is under reset (R467): its scheduler, its tiles and its proxy show it. -/
def partitionIsReset (p : Nat) (s s' : State) : Prop :=
  s'.rd (F.SCH_STATUS_STATE p) = 4 ∧ (s'.rd F.TLS_STATUS_PART_RESETTING).testBit p = true ∧
    (s'.rd F.NOC_STATUS_PROXY).testBit p = true ∧ (s'.rd F.XLT_CFG_PREFETCH).testBit p = true ∧
    ∀ t ∈ s.tilesOf p, s'.rd (F.MXA_STATUS_STATE t) =
      if s.rd (F.MXA_STATUS_STATE t) = 5 ∨ s.rd (F.MXA_STATUS_STATE t) = 7 then s.rd (F.MXA_STATUS_STATE t) else 6

/-! ### The power ladder (chapter 16) -/

/-- A wake event with no move under way, below L0 Run, begins an exit to it (R484, R489); nothing but the power controller, the pins and
PWR_STATUS changes. -/
def exitBegins (i : Instr) (wake : Nat) (s : State) : Prop :=
  ∃ s', exec i s = .next s' ∧
    s'.power.move = some { target := 0, start := s.rd F.PWR_STATUS_STATE, entry := false, wake := wake, who := 0, limit := none,
                           bbSeq := 0, thenTo := none } ∧
    s'.rd F.PWR_STATUS_STATE = s.rd F.PWR_STATUS_STATE ∧ s'.rd F.PWR_STATUS_TARGET = 0 ∧ s'.rd F.PWR_STATUS_BUSY = 1 ∧
    (∀ k, k ≠ R.PWR_STATUS → s'.reg k = s.reg k) ∧ s' = { s with regs := s'.regs, power := s'.power, pins := s'.pins }

/-- A wake event during an entry turns it back to the state that it started from (R484, R489, R494). -/
def entryTurnsBack (i : Instr) (wake : Nat) (m : Move) (s : State) : Prop :=
  ∃ s', exec i s = .next s' ∧ s'.rd F.PWR_STATUS_LAST_RESULT = 2 ∧ s'.rd F.PWR_STATUS_TARGET = m.start ∧
    (∃ x, s'.power.move = some x ∧ x.target = m.start ∧ x.entry = false ∧ x.wake = wake) ∧
    (∀ d, d = 0 ∨ d = 1 ∨ d = 3 ∨ d = 18 → d ∈ affected m.target →
      (SMap.get (fun _ => Refuser.init) s'.power.refusals d).aborted =
        min ((SMap.get (fun _ => Refuser.init) s.power.refusals d).aborted + 1) (2 ^ 32 - 1)) ∧
    (∀ k, k ≠ R.PWR_STATUS → s'.reg k = s.reg k) ∧ s' = { s with regs := s'.regs, power := s'.power, pins := s'.pins }

/-- What a cold loss leaves (R536, R540, R542, R550): every register at its reset value, no device memory, context or record in the
queue; the fuses, the flash and the slots of the black box as they were, but for a slot that was being written. -/
def coldLeft (s s' : State) : Prop :=
  (∀ k, s'.reg k = regReset k) ∧ s'.devMem = [] ∧ s'.ctxs = [] ∧ s'.bb.queue = [] ∧ s'.boot.held = true ∧ s'.pending = s.pending ∧
    s'.otp = s.otp ∧ s'.flash = s.flash ∧ s'.sset0 = s.sset0 ∧ s'.sset1 = s.sset1 ∧ s'.image = none ∧
    (s.bb.queue = [] ∨ s.bbWrites = false → s'.bb.slots = s.bb.slots) ∧
    ∀ i, i ≠ s.bbNext → s'.bbSlot i = s.bbSlot i

/-! ### Operations -/

/-- Operation `q` of context `c` is `o`: of kind `k`, started, its work not ended, in a context that runs and holds its slice. -/
def opRuns (c q k : Nat) (o : Op) (s : State) : Prop :=
  s.op? c q = some o ∧ o.kind = k ∧ o.started = true ∧ o.done = none ∧ s.running c = true

/-- No context that holds a slice has a run of its ring in host memory to ask for (R147, R180). -/
def noRun (s : State) : Prop :=
  ∀ p, p < 8 → ∀ c, s.holderOf p = some c → (s.ctx c).fetch = none ∨ s.on (F.CTXW_RING_BASE_SPACE c) = false

/-- Nothing that a switch or a test has saved of the context that holds tile `t` waits for a place (R51, R138). -/
def noSaved (t : Nat) (s : State) : Prop := ∀ c, s.tileCtx t = some c → (s.ctx c).saved = [] ∧ (s.ctx c).chains = []

/-- Operand block `y` is what a billet finds: the tile holds it, or it is read now (R38). -/
def operandOf (t : Nat) (o : Op) (b : Billet) (isB : Bool) (y : Opnd) (s : State) : Prop :=
  (s.tile t).opnd? b isB = some y ∨ ((s.tile t).opnd? b isB = none ∧ readOpnd s o b isB = .ok y)

/-- A tile has been cleared: it holds nothing but what MXA_STALL has not counted yet (R54, R61). -/
def emptyTile (t : Nat) (s : State) : Prop :=
  s.tile t = { Tile.init with ftqRem := (s.tile t).ftqRem, opndRem := (s.tile t).opndRem }

/-- The work of operation `q` of context `c` has ended with this result; every other operation and every other context is as
before. -/
def opEnds (c q : Nat) (r : Result) (s s' : State) : Prop :=
  (∃ o, s'.op? c q = some o ∧ o.done = some r) ∧ (∀ q', q' ≠ q → s'.op? c q' = s.op? c q') ∧
    ∀ d, d ≠ c → s'.ctx d = s.ctx d

/-- A result without a value. -/
def plainResult (st : Nat) : Result := { status := st, detail := 0, value := 0, ident := none }

/-! ### The vector engine -/

/-- The vector engine of tile `t`. -/
abbrev State.eng (s : State) (t : Nat) : Vxe := (s.tile t).vxe

/-- Behind an instruction of `len` words and `cyc` cycles on tile `t` (R106, R111): the engine is past the instruction, what is
beside its registers, W, FK, VL and flags is as before, and so are the rest of the tile, every other tile, device memory, what has been
driven outward, and every register but VXE_STATUS and VXE_STAT of the tile. -/
def vxePassed (t len cyc : Nat) (s s' : State) : Prop :=
  ((s'.eng t).pc, (s'.eng t).loops) = closeAt ((s.eng t).pc + len) (s.eng t).loops ∧
  s'.eng t = { s'.eng t with cycles := (s.eng t).cycles + cyc, run := (s.eng t).run, freed := (s.eng t).freed,
                             image := (s.eng t).image, params := (s.eng t).params, kslot := (s.eng t).kslot,
                             opKey := (s.eng t).opKey, block := (s.eng t).block, scratch := (s.eng t).scratch,
                             page := (s.eng t).page, summs := (s.eng t).summs, wout := (s.eng t).wout } ∧
  s'.tile t = { s.tile t with vxe := s'.eng t } ∧ (∀ j, j ≠ t → s'.tile j = s.tile j) ∧
  (∀ k, k ≠ R.VXE_STATUS t → k ≠ R.VXE_STAT t → s'.reg k = s.reg k) ∧
  s'.devMem = s.devMem ∧ s'.outbox = s.outbox ∧ s'.pending = s.pending

/-- Every vector, mask and address register but the named ones, and W, FK and VL, as before. -/
def vxeKept (x y : Vxe) (v m a : Option Nat) : Prop :=
  (∀ r, v ≠ some r → y.v r = x.v r) ∧ (∀ r, m ≠ some r → y.m r = x.m r) ∧ (∀ r, a ≠ some r → y.a r = x.a r) ∧
  y.w = x.w ∧ y.fk = x.fk ∧ y.vl = x.vl

/-- A lane-wise instruction (R100): each of the `n` lanes of `b` bits of `vd` that `act` names holds the value of `g`, every other lane what it
held; a flag of VXE_STAT is set where it was or an active lane set it. -/
def laneStep (t vd len cyc b n : Nat) (act : Nat → Bool) (g : Nat → Nat × Nat) (s s' : State) : Prop :=
  (∀ i, i < n → laneOf b ((s'.eng t).v vd) i = if act i then (g i).1 % 2 ^ b else laneOf b ((s.eng t).v vd) i) ∧
  (∀ j, (s'.eng t).stat.testBit j =
    ((s.eng t).stat.testBit j || (List.range n).any fun i => act i && (g i).2.testBit j)) ∧
  vxeKept (s.eng t) (s'.eng t) (some vd) none none ∧ vxePassed t len cyc s s'

/-- An instruction that writes mask `md` (R101, R105): bit `i` is `g i`, and m0 reads as all ones as before; VXE_STAT gains
the flags `fl`. -/
def maskStep (t md len cyc : Nat) (g : Nat → Bool) (fl : Nat) (s s' : State) : Prop :=
  (∀ i, i < 512 → ((s'.eng t).m md).testBit i = (decide (md = 0) || g i)) ∧ (s'.eng t).stat = (s.eng t).stat ||| fl ∧
  vxeKept (s.eng t) (s'.eng t) none (some md) none ∧ vxePassed t len cyc s s'

end Sys2Proof.Machine
end

