-- ==== Sys2Proof/Certificates/Slice0/Obligations.lean ====
section
/-! DEFINITION. The statements about this model, family by family. A statement that a rule of the spec makes cites the rule; a value or
a behaviour that is the model's own choice is named as such with its log entry. -/

open Sys2Proof Sys2Proof.Machine

/-! ### The block: its queue, its steps, its reset -/

/-- A step takes the command at the front of the queue and answers what that command answers on the state with the queue's rest. On an empty
queue a step is one cycle of the count clock: Spindle counts SPN_INC further, modulo 2^96, and nothing else changes; that the tick stands
for an idle step is the model's choice (log entry 11). -/
def Obligations.StepRunsFrontCommand : Prop :=
  (∀ (s : State) (c : Instr), step { s with pending := c :: s.pending } = exec c s) ∧
  ∀ s : State, s.pending = [] → ∃ t, step s = .next t ∧
    t.spindle.toNat = (s.spindle.toNat + (s.reg R.SPN_INC).toNat) % 2 ^ 96 ∧ t = { s with spindle := t.spindle }

/-- No command and no step clears a fuse: every bit that reads 1 in the fuses before reads 1 behind (R402), from every state. -/
def Obligations.FusesNeverClear : Prop :=
  (∀ (c : Instr) (s t : State), exec c s = .next t → fusesKept s t) ∧
    ∀ s t : State, step s = .next t → fusesKept s t

/-- The queue is first in, first out, and only a step shortens it: a command leaves it as it is, and a step takes its front and nothing
else, from every state; so commands that are well formed stay so. -/
def Obligations.QueueKeptByEveryStep : Prop :=
  (∀ s t : State, step s = .next t → t.pending = s.pending.tail) ∧
    ∀ s t : State, queueWf s → step s = .next t → queueWf t

/-- Reset (R8, R184, R402, R413, R540): no command waits, no context, operation, waiting request or record exists, device memory lists
nothing, every register reads the reset value of its row, and the device waits for the rise of COLD_RST_N. The fuses of a Blank device are
the model's choice (log entry 2). -/
def Obligations.ResetState : Prop :=
  State.reset.pending = [] ∧ queueWf State.reset ∧ (∀ k, State.reset.reg k = regReset k) ∧ State.reset.devMem = [] ∧
    (∀ c, State.reset.ctx c = Ctx.init) ∧ State.reset.waiting = [] ∧ State.reset.bb.queue = [] ∧
    State.reset.boot.held = true ∧ State.reset.pins.coldRstN = false ∧ State.reset.now = 0 ∧
    SMap.wf memDefault State.reset.devMem = true ∧ SMap.wf (fun _ => 0) State.reset.otp = true

/-- A write of device memory keeps its canonical form and stores exactly its bytes: each byte of the written run reads as written and every other
byte of device memory as before (R207). A field inside a register reads the value written to it, cut to its width, and a write of it leaves
every other register and every field that shares no bit with it alone (R8, R10). -/
def Obligations.StoredValuesReadBack : Prop :=
  (∀ (s : State) (ch off : Nat) (bs : List Byte),
    (SMap.wf memDefault s.devMem = true → SMap.wf memDefault (s.physWrite ch off bs).devMem = true) ∧
    (∀ i, i < bs.length → SMap.get memDefault (s.physWrite ch off bs).devMem (memKey ch off + i) = bs.getD i 0) ∧
    (∀ k, k < memKey ch off ∨ memKey ch off + bs.length ≤ k →
      SMap.get memDefault (s.physWrite ch off bs).devMem k = SMap.get memDefault s.devMem k) ∧
    (s.physWrite ch off bs).regs = s.regs ∧ (s.physWrite ch off bs).chans = s.chans) ∧
  ∀ (s : State) (f g : Fld) (v : Nat), f.ok → g.ok →
    (s.wr f v).rd f = v % 2 ^ (f.hi + 1 - f.lo) ∧ (f.apart g → (s.wr f v).rd g = s.rd g) ∧
      (∀ k, k ≠ f.key → (s.wr f v).reg k = s.reg k) ∧ s.rd f < 2 ^ (f.hi + 1 - f.lo)

/-! ### The vector engine (chapter 04) -/

/-- ADD, MUL, FMA, MIN and MAX (R100, R105, R107), in every form that a kernel may hold, on an engine that runs a kernel:
each active lane holds the exact float result rounded once to nearest even, or the exact integer result saturated to the element;
MIN and MAX give NaN when either operand is one and order −0 below +0. Every other lane, register and tile is as before. -/
def Obligations.VxeArithmeticLanes : Prop :=
  ∀ (t : TileId) (f : VForm) (s : State), s.vxeRuns t.val = true →
    let a := vargs f
    let x := s.eng t.val
    let b := laneBits x.w
    let flt := fun n => x.fmt.decode n
    let int := intIn b (a.t = 1)
    let addend := fun i => laneOf b (x.v (if a.form = 0 then a.vs3 else a.vs2)) i
    let lanes := fun (c : Instr) (op : Nat) (g : Nat → Nat × Nat) => formOk op a x.w = true →
      ∃ s', exec c s = .next s' ∧
        laneStep t.val a.vd a.len 1 b (laneCount x.w) (x.active a.mask) g s s'
    lanes (.add t f) 0x01 (fun i =>
        if a.t = 0 then fpOut (x.fmt.result .near false ((flt (x.src1 a i)).add (flt (x.src2 a i))))
        else intOut b (a.t = 1) (int (x.src1 a i) + int (x.src2 a i))) ∧
      lanes (.mul t f) 0x02 (fun i =>
        if a.t = 0 then fpOut (x.fmt.result .near false ((flt (x.src1 a i)).mul (flt (x.src2 a i))))
        else intOut b (a.t = 1) (int (x.src1 a i) * int (x.src2 a i))) ∧
      lanes (.fma t f) 0x03 (fun i =>
        if a.t = 0 then fpOut (x.fmt.result .near false ((flt (x.src1 a i)).fma (flt (x.src2 a i)) (flt (addend i))))
        else intOut b (a.t = 1) (int (x.src1 a i) * int (x.src2 a i) + int (addend i))) ∧
      lanes (.min t f) 0x04 (fun i =>
        if a.t = 0 then fpPick x.fmt true (x.src1 a i) (x.src2 a i)
        else (if int (x.src2 a i) < int (x.src1 a i) then x.src2 a i else x.src1 a i, 0)) ∧
      lanes (.max t f) 0x05 (fun i =>
        if a.t = 0 then fpPick x.fmt false (x.src1 a i) (x.src2 a i)
        else (if int (x.src2 a i) < int (x.src1 a i) then x.src1 a i else x.src2 a i, 0))

/-- CMPEQ, CMPLT, CMPLE, CMPUN, MAND, MOR, MXOR, MNOT and MCNT, and m0 (R101): a compare sets a bit of its mask where the
lane is below VL, its bit in the selected mask is 1 and the condition holds, and clears every other bit; the mask operations act
bit by bit; MCNT counts the set bits below VL into bits [31:0] of vd. m0 reads as all ones before and behind each of them, also where it is
the destination, so its write is ignored, and an instruction that names m0 as its mask acts on every lane below VL. -/
def Obligations.VxeMasks : Prop :=
  ∀ (t : TileId) (f : VForm) (s : State), s.vxeRuns t.val = true →
    let a := vargs f
    let x := s.eng t.val
    let b := laneBits x.w
    let flt := fun n => x.fmt.decode n
    let int := intIn b (a.t = 1)
    let sig := flagIf (a.t = 0 && (List.range (laneCount x.w)).any fun i => x.active a.mask i &&
      ((flt (x.src1 a i)).isSig || (flt (x.src2 a i)).isSig)) vInv
    let mask := fun (c : Instr) (op fl : Nat) (g : Nat → Bool) => formOk op a x.w = true →
      ∃ s', exec c s = .next s' ∧ maskStep t.val a.vd a.len 1 g fl s s'
    mask (.cmpeq t f) 0x08 sig (fun i => x.active a.mask i &&
        if a.t = 0 then (flt (x.src1 a i)).eq (flt (x.src2 a i)) else decide (int (x.src1 a i) = int (x.src2 a i))) ∧
      mask (.cmplt t f) 0x09 sig (fun i => x.active a.mask i &&
        if a.t = 0 then (flt (x.src1 a i)).lt (flt (x.src2 a i)) else decide (int (x.src1 a i) < int (x.src2 a i))) ∧
      mask (.cmple t f) 0x0A sig (fun i => x.active a.mask i &&
        if a.t = 0 then (flt (x.src1 a i)).le (flt (x.src2 a i)) else decide (int (x.src1 a i) ≤ int (x.src2 a i))) ∧
      mask (.cmpun t f) 0x0B sig (fun i => x.active a.mask i &&
        (decide (a.t = 0) && ((flt (x.src1 a i)).isNan || (flt (x.src2 a i)).isNan))) ∧
      mask (.mand t f) 0x10 0 (fun i => (x.m a.vs1).testBit i && (x.m a.vs2).testBit i) ∧
      mask (.mor t f) 0x11 0 (fun i => (x.m a.vs1).testBit i || (x.m a.vs2).testBit i) ∧
      mask (.mxor t f) 0x12 0 (fun i => (x.m a.vs1).testBit i != (x.m a.vs2).testBit i) ∧
      mask (.mnot t f) 0x13 0 (fun i => !(x.m a.vs1).testBit i) ∧
      (formOk 0x14 a x.w = true → ∃ s', exec (.mcnt t f) s = .next s' ∧
        (s'.eng t.val).v a.vd % 2 ^ 32 = (((List.range x.vl).filter fun i => (x.m a.vs1).testBit i).length) % 2 ^ 32 ∧
        (s'.eng t.val).v a.vd / 2 ^ 32 = x.v a.vd / 2 ^ 32 ∧ (s'.eng t.val).stat = x.stat ∧
        vxeKept x (s'.eng t.val) (some a.vd) none none ∧ vxePassed t.val a.len 1 s s') ∧
      (∀ i, i < 512 → (x.m 0).testBit i = true) ∧ (∀ r v, (x.setM r v).m 0 = x.m 0) ∧ (∀ v, x.setM 0 v = x) ∧
      ∀ i, i < 512 → x.active 0 i = decide (i < x.vl)

/-- SEL, IOTA, PERM, CURVE, CVT and PACK4 (R105, R108–R110, R128), each where no fault of R134 is due: SEL takes every lane below VL
from the first source where its mask bit is 1 and else from the second; IOTA writes the lane's number; PERM takes the lane that the
index names, and where the index is not below VL the lane is zero and PERM is set; CURVE and CVT act on each active lane, CVT from the
source format's lanes to the destination's, and for a word to which R108 gives no result it writes no register but its destination (the
model's choice, log entry 143); PACK4 packs two codes of four bits into each active byte. -/
def Obligations.VxeMoves : Prop :=
  ∀ (t : TileId) (f : VForm) (s : State), s.vxeRuns t.val = true →
    let a := vargs f
    let x := s.eng t.val
    let b := laneBits x.w
    let n := laneCount x.w
    (formOk 0x06 a x.w = true → ∃ s', exec (.sel t f) s = .next s' ∧
      laneStep t.val a.vd a.len 1 b n (fun i => decide (i < x.vl))
        (fun i => (if (x.m a.mask).testBit i then x.src1 a i else x.src2 a i, 0)) s s') ∧
    (formOk 0x1A a x.w = true → ¬ (x.w = 2 ∧ 256 < x.vl) → ∃ s', exec (.iota t f) s = .next s' ∧
      laneStep t.val a.vd a.len 1 b n (x.active a.mask) (fun i => (i, 0)) s s') ∧
    (formOk 0x1C a x.w = true →
      ¬ (bit (fieldAt x.image 1 1) 0 = true ∧ ∃ i, i < n ∧ x.active a.mask i = true ∧ x.vl ≤ x.permIdx a i) →
      ∃ s', exec (.perm t f) s = .next s' ∧
        laneStep t.val a.vd a.len 2 b n (x.active a.mask)
          (fun i => if x.permIdx a i < x.vl then (laneOf b (x.v a.vs1) (x.permIdx a i), 0) else (0, vPerm)) s s') ∧
    (formOk 0x1D a x.w = true → ∃ s', exec (.curve t f) s = .next s' ∧
      laneStep t.val a.vd a.len 2 b n (x.active a.mask)
        (fun i => curveLane x.fmt x.w (SMap.get (fun _ => Slot.empty) (s.ctx (x.opKey.getD (0, 0)).1).crv a.vs2).image
          (x.src1 a i)) s s') ∧
    (let m := x.imm a;
      formOk 0x18 a x.w = true → bits m 3 0 ≤ 8 → bits m 7 4 ≤ 8 → m < 1024 →
      x.vl * max (cvtBits (bits m 3 0)) (cvtBits (bits m 7 4)) ≤ 4096 → ∃ s', exec (.cvt t f) s = .next s' ∧
        laneStep t.val a.vd a.len 1 (cvtBits (bits m 7 4)) (4096 / max (cvtBits (bits m 3 0)) (cvtBits (bits m 7 4)))
          (x.active a.mask)
          (fun i => cvtOne (bits m 3 0) (bits m 7 4) (roundOf (bit m 8) s.freeCtr i) (bit m 9)
            (laneOf (cvtBits (bits m 3 0)) (x.v a.vs1) i)) s s') ∧
    (formOk 0x18 a x.w = true → cvtStated (x.imm a) = false → ∃ s', exec (.cvt t f) s = .next s' ∧
      (s'.eng t.val).stat ||| x.stat = (s'.eng t.val).stat ∧ vxeKept x (s'.eng t.val) (some a.vd) none none ∧
      vxePassed t.val a.len 1 s s') ∧
    (let code := fun j => if j < x.vl then laneOf 8 (x.v a.vs1) j else 0;
      formOk 0x19 a x.w = true → ∃ s', exec (.pack4 t f) s = .next s' ∧
        laneStep t.val a.vd a.len 1 8 512 (fun i => decide (2 * i < x.vl) && (x.m a.mask).testBit i)
          (fun i => (16 * (code (2 * i + 1) % 16) + code (2 * i) % 16,
            flagIf (decide (15 < code (2 * i)) || decide (15 < code (2 * i + 1))) vSat)) s s')

/-- NOP, SETA, SETVL and LOOP (R100, R105, R111): SETA sets the address register to 20 bits; SETVL sets W and FK, and VL to the
smaller of the length asked for and the lane count of the new width; a LOOP with a count and a body opens one more level at the word
behind it. -/
def Obligations.VxeControl : Prop :=
  ∀ (t : TileId) (f : VForm) (s : State), s.vxeRuns t.val = true →
    let a := vargs f
    let x := s.eng t.val
    let count := if a.isrc = 1 then x.params.getD (a.vd % 8) 0 % 65536 else a.imm % 65536
    let next := x.behind (x.pc + 2) (a.imm / 65536)
    (formOk 0x00 a x.w = true → ∃ s', exec (.vxeNop t f) s = .next s' ∧ (s'.eng t.val).stat = x.stat ∧
      vxeKept x (s'.eng t.val) none none none ∧ vxePassed t.val a.len 1 s s') ∧
    (formOk 0x22 a x.w = true → ∃ s', exec (.seta t f) s = .next s' ∧
      (s'.eng t.val).a a.vd = x.imm a % 2 ^ 20 ∧ (s'.eng t.val).stat = x.stat ∧
      vxeKept x (s'.eng t.val) none none (some a.vd) ∧ vxePassed t.val a.len 1 s s') ∧
    (formOk 0x30 a x.w = true → ∃ s', exec (.setvl t f) s = .next s' ∧
      (s'.eng t.val).w = bits a.imm 1 0 ∧ (s'.eng t.val).fk = bits a.imm 2 2 ∧
      (s'.eng t.val).vl = Nat.min (if a.isrc = 1 then x.params.getD (a.vd % 8) 0 % 1024 else bits a.imm 15 6)
        (laneCount (bits a.imm 1 0)) ∧
      (∀ r, (s'.eng t.val).v r = x.v r ∧ (s'.eng t.val).m r = x.m r ∧ (s'.eng t.val).a r = x.a r) ∧
      (s'.eng t.val).stat = x.stat ∧ vxePassed t.val a.len 1 s s') ∧
    (formOk 0x28 a x.w = true → x.loops.length < 4 → count ≠ 0 → next ≠ x.pc + 2 →
      ∃ s', exec (.loopBody t f) s = .next s' ∧ (s'.eng t.val).pc = x.pc + 2 ∧
        (s'.eng t.val).loops = { first := x.pc + 2, next := next, left := count - 1 } :: x.loops ∧
        (s'.eng t.val).stat = x.stat ∧ vxeKept x (s'.eng t.val) none none none)

/-- VLD and VST where no fault of R134 is due (R105, R118): VLD moves VL elements from the bowl into the active lanes, VST stores the active
lanes' elements from the address register on and no other byte of the bowl, and the address register then advances by the signed
immediate. -/
def Obligations.VxeBowlMoves : Prop :=
  ∀ (t : TileId) (f : VForm) (s : State), s.vxeRuns t.val = true →
    let a := vargs f
    let x := s.eng t.val
    let z := x.moveBytes a
    let p := x.a a.vs1
    (formOk 0x20 a x.w = true → bowlCheck (s.tile t.val).entryOpen p (x.vl * z) false = none →
      ∃ s', exec (.vld t f) s = .next s' ∧
        (∀ i, i < 512 / z → laneOf (8 * z) ((s'.eng t.val).v a.vd) i =
          if x.active a.mask i then leNat ((List.range z).map fun j => (s.tile t.val).bowl (p + i * z + j)) % 2 ^ (8 * z)
          else laneOf (8 * z) (x.v a.vd) i) ∧
        (s'.eng t.val).a a.vs1 = unsignedOf 20 (p + signed 32 (x.imm a)) ∧
        vxeKept x (s'.eng t.val) (some a.vd) none (some a.vs1) ∧ vxePassed t.val a.len 1 s s') ∧
    (formOk 0x21 a x.w = true → bowlCheck (s.tile t.val).entryOpen p (x.vl * z) true = none →
      ∃ s', exec (.vst t f) s = .next s' ∧ (s'.eng t.val).a a.vs1 = unsignedOf 20 (p + signed 32 (x.imm a)) ∧
        (∀ q, (∀ i, i < x.vl → x.active a.mask i = true → q < p + i * z ∨ p + (i + 1) * z ≤ q) →
          (s'.tile t.val).bowl q = (s.tile t.val).bowl q) ∧
        (∀ i j, i < x.vl → i < 512 / z → x.active a.mask i = true → j < z →
          (s'.tile t.val).bowl (p + i * z + j) = byte (laneOf (8 * z) (x.v a.vd) i / 256 ^ j)) ∧
        vxeKept x (s'.eng t.val) none none (some a.vs1) ∧ s'.devMem = s.devMem)

/-- FREE, WOUT, SUMM and END (R122–R124, R129), each where it is not held back: FREE frees the current entry (stated where no finished bank
and no dealt block or saved chain waits for the free entry); WOUT, at a size that C's stride and range take, begins to read the block, and
VXE_STATUS reads the wait (a parameter word beyond the size codes names a free size: the model's choice, log entry 143); SUMM holds one more record of the low word of its register; END, after FREE, releases the held records with the time of
release, counts the invocation, and leaves the engine idle. -/
def Obligations.VxeOutput : Prop :=
  ∀ (t : TileId) (f : VForm) (s : State), s.vxeRuns t.val = true →
    let a := vargs f
    let x := s.eng t.val
    (formOk 0x31 a x.w = true → x.freed = false → (s.tile t.val).banks.any (·.done) = false → (s.tile t.val).deal = [] →
      noSaved t.val s →
      ∃ s', exec (.free t f) s = .next s' ∧ (s'.eng t.val).freed = true ∧
        (s'.tile t.val).ftq = (s.tile t.val).ftq.drop 1 ∧ (∀ j, j ≠ t.val → s'.tile j = s.tile j) ∧
        vxeKept x (s'.eng t.val) none none none ∧ s'.devMem = s.devMem) ∧
    (∀ c q o, let k := if x.imm a < 4 then x.imm a else s.free.toNat % 4;
      formOk 0x32 a x.w = true → x.opKey = some (c, q) → s.op? c q = some o →
      128 * ceilDiv (ceilDiv (o.n * woutBits k) 8) 128 ≤ o.ldc →
      s.inRange c o.cAddr ((o.m - 1) * o.ldc + ceilDiv (o.n * woutBits k) 8) = true →
      bowlCheck (s.tile t.val).entryOpen (x.a a.vs1) (16384 * woutBits k / 8) false = none →
      ∃ s', exec (.wout t f) s = .next s' ∧ (s'.eng t.val).wout = some (x.a a.vs1, k) ∧
        s'.rd (F.VXE_STATUS_STATE t.val) = 3 ∧ vxeKept x (s'.eng t.val) none none none ∧
        (∀ j, j ≠ t.val → s'.tile j = s.tile j) ∧ s'.devMem = s.devMem) ∧
    (formOk 0x34 a x.w = true → x.summs.length < 4 →
      ∃ s', exec (.summ t f) s = .next s' ∧
        (s'.eng t.val).summs = x.summs ++ [⟨x.block.2.2, 0, x.v a.vd % 2 ^ 32, a.imm, t.val, (x.opKey.getD (0, 0)).1, a.t⟩] ∧
        vxeKept x (s'.eng t.val) none none none ∧ (∀ j, j ≠ t.val → s'.tile j = s.tile j) ∧ s'.devMem = s.devMem) ∧
    (∀ c q, formOk 0x3F a x.w = true → s.intakeRoom t.val = true → x.opKey = some (c, q) → x.freed = true →
      ∃ s', exec (.endKernel t f) s = .next s' ∧ (s'.eng t.val).run = false ∧ (s'.eng t.val).summs = [] ∧
        (s'.group (t.val / 8)).intake = (s.group (t.val / 8)).intake ++ x.summs.map (fun r => { r with time := s.now }) ∧
        s'.rd (F.VXE_STATUS_STATE t.val) = 1 ∧
        s'.rd (F.VXE_INVOC_COUNT t.val) = (s.rd (F.VXE_INVOC_COUNT t.val) + 1) % 2 ^ 64 ∧
        (∀ j, j ≠ t.val → s'.tile j = s.tile j) ∧ s'.devMem = s.devMem)

/-- WOUT_READ_DONE, KERNEL_INVOCATION, KERNEL_LONG and SUMMARY_RECORD (R119, R121, R122, R124, R125, R130, R134): the block goes to its
place in C and the held records to the Mandrel; an invocation of the oldest entry starts at word 0 with the slot's image, with
registers, W, FK, VL and flags zero at the tile's first of an operation and as they were at a later one; a kernel that reaches 2^24 cycles faults
with KERNEL_LONG (stated where no block of a VECTOR waits to be loaded); and the oldest record of the tile in the intake is folded into the accumulator that its tag names. -/
def Obligations.VxeInvocations : Prop :=
  ∀ (t : TileId) (s : State),
    let x := s.eng t.val
    (∀ p k c q o u, x.wout = some (p, k) → x.opKey = some (c, q) → s.op? c q = some o → s.intakeRoom t.val = true → memFree c s →
      writeRows c o x.block.1 x.block.2.1 (woutBits k)
        ((List.range (16384 * woutBits k / 8)).map fun i => (s.tile t.val).bowl (p + i)) 128 0 s = (u, none) →
      ∃ s', exec (.woutReadDone t) s = .next s' ∧ s'.devMem = u.devMem ∧ (s'.eng t.val).wout = none ∧
        (s'.eng t.val).summs = [] ∧ s'.rd (F.VXE_STATUS_STATE t.val) = 2) ∧
    (∀ e rest o ns ms, (s.tile t.val).ftq = e :: rest → s.op? e.ctx e.seq = some o → o.hasKernel = true → x.run = false →
      (s.tile t.val).stopped = false → o.done = none → s.atL0 = true → memFree e.ctx s → s.secondary t.val = false →
      sideRead s e.ctx (fieldAt o.blk 8 8) (epiSides o.blk).1 (128 * e.col) o.n = .ok ns →
      sideRead s e.ctx (fieldAt o.blk 16 8) (epiSides o.blk).2 (128 * e.row) o.m = .ok ms →
      ∃ s', exec (.kernelInvocation t) s = .next s' ∧ (s'.eng t.val).run = true ∧ (s'.eng t.val).pc = 0 ∧
        (s'.eng t.val).opKey = some (e.ctx, e.seq) ∧ (s'.eng t.val).block = (e.row, e.col, e.ident) ∧
        (s'.eng t.val).image = (SMap.get (fun _ => Slot.empty) (s.ctx e.ctx).krn (epiSlot o.blk)).image ∧
        (s'.eng t.val).page = seqPage o e ns ms ∧ (s'.eng t.val).freed = false ∧
        (if x.opKey = some (e.ctx, e.seq) then vxeKept x (s'.eng t.val) none none none ∧ (s'.eng t.val).stat = x.stat
         else (s'.eng t.val).vreg = [] ∧ (s'.eng t.val).mreg = [] ∧ (s'.eng t.val).areg = [] ∧ (s'.eng t.val).w = 0 ∧
           (s'.eng t.val).fk = 0 ∧ (s'.eng t.val).vl = 0 ∧ (s'.eng t.val).stat = 0) ∧
        (∀ j, j ≠ t.val → s'.tile j = s.tile j) ∧ s'.devMem = s.devMem) ∧
    (∀ c q, x.run = true → x.opKey = some (c, q) →
      (∀ j, ∀ b ∈ (s.tile j).deal, ∀ o, s.op? b.ctx b.seq = some o → o.kind ≠ 2) → ∃ s', exec (.kernelLong t) s = .next s' ∧
      s'.rd (F.VXE_FAULT_CODE t.val) = 5 ∧ s'.rd (F.VXE_FAULT_VALID t.val) = 1 ∧
      s'.rd (F.VXE_FAULT_CTX t.val) = c % 256 ∧ s'.rd (F.VXE_STATUS_STATE t.val) = 5 ∧
      ∀ o, s'.op? c q = some o → o.done.isSome = true) ∧
    (∀ r, (s.group (t.val / 8)).intake.find? (fun r => r.tile = t.val) = some r →
      ∃ s', exec (.summaryRecord t) s = .next s' ∧
        (s'.group (t.val / 8)).intake = (s.group (t.val / 8)).intake.erase r ∧
        (∀ k, SMap.get (fun _ => Acc.init) (s'.group (t.val / 8)).accs k =
          if k = 8 * r.ctx + r.tag / 8192 then foldRecord (SMap.get (fun _ => Acc.init) (s.group (t.val / 8)).accs k) r
          else SMap.get (fun _ => Acc.init) (s.group (t.val / 8)).accs k) ∧
        (∀ g, g ≠ t.val / 8 → s'.group g = s.group g) ∧ (∀ j, s'.tile j = s.tile j) ∧ (∀ k, s'.reg k = s.reg k) ∧
        s'.devMem = s.devMem)

/-! ### Registers (chapters 00, 11) -/

/-- REGISTER_WRITE at a register, by an agent of the mesh or by a host request that is served (R8–R11): a field that the writer's agent
is named for is set (RW, RWL before its lock), cleared (W1C) or set (W1S) bit by bit by the value of R9, in which the half that is not
written keeps its bits; RO and WO fields, fields of other writers and reserved bits keep what they hold; no other register changes; and a
write of a field by an agent that its Writer entry does not name is recorded as FOREIGN_WRITE. The acknowledgement to a mesh agent is the
model's (log entry 59). -/
def Obligations.RegisterWrite : Prop :=
  ∀ (a : Agent) (fn : FnId) (off size : Nat) (v : Word) (tbit : Bool) (s : State),
    let key := keyOf fn.val (off / 8 * 8)
    let m := writeMask off size
    let old := s.reg key
    let new := merged old v off size
    let host := isHostAgent a
    let foreign := (layoutOf key).any (foreignField a key (s.regView key) (merged (s.regView key) v off size) m)
    plainKey key = true → sized off size = true → implemented key = true →
    (host = true → s.takesNow fn.val off = true ∧ s.served fn.val off size false tbit = true) →
    ∃ s', exec (.registerWrite a fn off size v tbit) s = .next s' ∧
      s'.outbox = (if host then s.outbox else .regAnswer a.router.val a.index.val false [] :: s.outbox) ∧
      (∀ f ∈ layoutOf key, ∀ i, f.lo ≤ i → i ≤ f.hi → (s'.reg key).getLsbD i =
        if !writes a key f.writer then old.getLsbD i
        else match f.acc with
          | .rw => new.getLsbD i
          | .rwl => if s.rwlLocked key then old.getLsbD i else new.getLsbD i
          | .w1c => old.getLsbD i && !(new.getLsbD i && (m &&& fldMask f.hi f.lo) != 0)
          | .w1s => old.getLsbD i || new.getLsbD i
          | .ro | .wo => old.getLsbD i) ∧
      (∀ i, (∀ f ∈ layoutOf key, i < f.lo ∨ f.hi < i) → (s'.reg key).getLsbD i = old.getLsbD i) ∧
      otherRegs key s s' ∧
      (foreign = false → (∀ k, k ≠ key → s'.reg k = s.reg k) ∧ s' = { s with regs := s'.regs, outbox := s'.outbox }) ∧
      (foreign = true →
        logged 0x8003 (if host then srcHost a.rid.toNat else srcRouter a.router.val)
          (leBytes key 8 ++ [byte a.router.val, byte a.index.val] ++ leBytes (if host then a.rid.toNat else 0) 2) s s' ∧
        s' = { s with regs := s'.regs, outbox := s'.outbox, bb := s'.bb, tls := s'.tls })

/-- REGISTER_WRITE by a served host request at a place that is no plain register (R340, R363, R413, R470, R478, R491): a word of an MSI-X
table takes its address with bits [1:0] clear, or its data and mask bit; a command slot takes the bytes; the PBA, the response
slots and the trace window take nothing; and a write of BBX_SEL or PWR_CMD by PF0's driver is that command. -/
def Obligations.SpecialPlacesWritten : Prop :=
  ∀ (a : Agent) (fn : FnId) (off size : Nat) (v : Word) (tbit : Bool) (s : State),
    let key := keyOf fn.val (off / 8 * 8)
    isHostAgent a = true → s.takesNow fn.val off = true → s.served fn.val off size false tbit = true →
    (∀ x k second, msixAt key = some (x, k, second) → (fn.val ≠ 0 → (s.ctx (fn.val - 1)).lockMsix = false ∨ tbit = true) →
      let w := merged (s.msixWord x k second) v off size
      ∃ s', exec (.registerWrite a fn off size v tbit) s = .next s' ∧
        ((s'.cfg x).vector k).addr = (if second then ((s.cfg x).vector k).addr else w.toNat / 4 * 4) ∧
        ((s'.cfg x).vector k).data = (if second then w.toNat % 2 ^ 32 else ((s.cfg x).vector k).data) ∧
        ((s'.cfg x).vector k).mask = (if second then w.getLsbD 32 else ((s.cfg x).vector k).mask) ∧
        (∀ j, j ≠ k → (s'.cfg x).vector j = (s.cfg x).vector j) ∧ (∀ y, y ≠ x → s'.cfg y = s.cfg y) ∧
        s' = { s with hcfg := s'.hcfg, outbox := s'.outbox }) ∧
    (inCmdSlot key = true → ∃ s', exec (.registerWrite a fn off size v tbit) s = .next s' ∧
      (∀ i, i < size → SMap.get (fun _ => 0) s'.mbx (off + i) = byte (v.toNat / 256 ^ i)) ∧
      (∀ k, k < off ∨ off + size ≤ k → SMap.get (fun _ => 0) s'.mbx k = SMap.get (fun _ => 0) s.mbx k) ∧
      s' = { s with mbx := s'.mbx }) ∧
    ((pbaAt key).isSome = true ∨ inRspSlot key = true ∨ inTrace key = true →
      (msixAt key).isNone = true → exec (.registerWrite a fn off size v tbit) s = .next s) ∧
    (key = R.BBX_SEL → a.rid.toNat = 0 → off = key → exec (.registerWrite a fn off size v tbit) s =
      exec (.bbxSel (Fin.ofNat 32768 (bits (merged (s.reg key) v off size).toNat 14 0))) s) ∧
    (key = R.PWR_CMD → a.rid.toNat = 0 → off = key → size = 8 →
      exec (.registerWrite a fn off size v tbit) s = exec (.pwrCmd v) s)

/-- REGISTER_READ, and a host request that is not served (R341, R342, R348, R350): a served read returns the register's current
value, or the half read, and an uncorrectable error Completer Abort; a request that is not served is answered with Unsupported Request, a
write without an answer, is counted in GLB_HEP_ERR and recorded in GLB_HEP_LAST_ERR with the function, and changes no other register; a
mesh agent's read returns its data in a reply. -/
def Obligations.RegisterReads : Prop :=
  (∀ (a : Agent) (fn : FnId) (off size : Nat) (tbit : Bool) (ecc : Ecc) (s : State),
    let key := keyOf fn.val (off / 8 * 8)
    let data := fun w : Word => if size = 8 then w.toNat else bits w.toNat (8 * (off % 8) + 31) (8 * (off % 8))
    (isHostAgent a = true → s.takesNow fn.val off = true → s.served fn.val off size true tbit = true → ecc ≠ .uncorrectable →
      exec (.registerRead a fn off size tbit ecc) s = .next (s.out (.completion fn.val .ok (data (s.hostView key))))) ∧
    (isHostAgent a = true → s.takesNow fn.val off = true → s.served fn.val off size true tbit = true → ecc = .uncorrectable →
      ∃ s', exec (.registerRead a fn off size tbit ecc) s = .next s' ∧ s.tlp (.completion fn.val .ca 0) ∈ s'.outbox ∧
        s'.rd F.GLB_HEP_LAST_ERR_KIND = 8 ∧ otherRegs R.GLB_HEP_LAST_ERR s s') ∧
    (isHostAgent a = false → sized off size = true → implemented key = true →
      exec (.registerRead a fn off size tbit ecc) s = .next (s.out
        (.regAnswer a.router.val a.index.val false (leBytes (data (s.regView key)) size))))) ∧
  ∀ (a : Agent) (fn : FnId) (off size : Nat) (v : Word) (tbit : Bool) (ecc : Ecc) (s : State),
    let key := keyOf fn.val (off / 8 * 8)
    let refused := fun (c : Instr) (out : List Out) => ∃ s', exec c s = .next s' ∧
      s'.rd F.GLB_HEP_ERR_UR_SENT = min (s.rd F.GLB_HEP_ERR_UR_SENT + 1) F.GLB_HEP_ERR_UR_SENT.max ∧
      s'.rd F.GLB_HEP_LAST_ERR_KIND = 1 ∧ s'.rd F.GLB_HEP_LAST_ERR_RID = fn.val ∧ s'.rd F.GLB_HEP_LAST_ERR_VALID = 1 ∧
      (∀ k, k ≠ R.GLB_HEP_ERR → k ≠ R.GLB_HEP_LAST_ERR → s'.reg k = s.reg k) ∧
      (s'.outbox = out ++ s.outbox ∨ s'.outbox = out ++ .msix 0 4 :: s.outbox) ∧
      s' = { s with regs := s'.regs, hcfg := s'.hcfg, outbox := s'.outbox }
    isHostAgent a = true → s.takesNow fn.val off = true →
    (s.served fn.val off size true tbit = false →
      refused (.registerRead a fn off size tbit ecc) [s.tlp (.completion fn.val .ur 0)]) ∧
    (s.served fn.val off size false tbit = false →
      (fn.val ≠ 0 → (msixAt key).isSome = true → (s.ctx (fn.val - 1)).lockMsix = false ∨ tbit = true) →
      refused (.registerWrite a fn off size v tbit) [])

/-- CTXW_SO_WRITE, CTXW_CTL_LOCK and CTXW_CTL_START (R168, R279, R281, R282): a served write of COUNT sets the counter of the object that the
offset names and leaves ERR and every other register alone; LOCK takes a context marked non-confidential from READY to LOCKED where the
checks of the lock pass, and START takes it from LOCKED to RUN on a partition that is not held down, with HEAD zero
(stated where the hub's word can be written); for a context
that is not so marked neither has effect. -/
def Obligations.ContextWindowCommands : Prop :=
  ∀ (c : CtxId) (v : Word) (tbit : Bool) (s : State),
    s.takesNow (c.val + 1) 8 = true →
    (∀ i n, i < 256 → (s.objectsOf c.val)[i]? = some n →
      s.served (c.val + 1) (0x4000 + 16 * i) 8 false tbit = true →
      ∃ s', exec (.ctxwSoWrite c (16 * i) 8 v tbit) s = .next s' ∧ s'.rd (F.SYN_CNT_COUNT n) = v.toNat ∧
        (∀ k, k ≠ R.SYN_CNT n → s'.reg k = s.reg k) ∧ s' = { s with regs := s'.regs, ctxs := s'.ctxs }) ∧
    (s.served (c.val + 1) 8 8 false tbit = true → s.on (F.CTX_CFG_NONCONF c.val) = true →
      s.ctxState c.val = 2 → s.lockOk c.val = true →
      ∃ s', exec (.ctxwCtlLock c v 8 tbit) s = .next s' ∧ s'.ctxState c.val = 3 ∧ (s'.ctx c.val).lockTime = s.now ∧
        (∀ k, k ≠ R.CTXW_CTL c.val → k ≠ R.CTX_STATE c.val → s'.reg k = s.reg k) ∧
        s' = { s with regs := s'.regs, ctxs := s'.ctxs }) ∧
    (s.served (c.val + 1) 8 8 false tbit = true → s.on (F.CTX_CFG_NONCONF c.val) = true → s.ctxState c.val = 3 →
      (s.rd F.TLS_STATUS_PART_DOWN).testBit (s.partOf c.val) = false →
      (s.on (F.CTXW_RING_WORDS_SPACE c.val) = true ∨ (flatServes s c.val ∧ s.inRange c.val (s.wordsAddr c.val) 16 = true)) →
      ∃ s', exec (.ctxwCtlStart c v 8 tbit) s = .next s' ∧ s'.ctxState c.val = 4 ∧ s'.head c.val = 0) ∧
    (s.on (F.CTX_CFG_NONCONF c.val) = false → ∃ s', exec (.ctxwCtlLock c v 8 tbit) s = .next s' ∧
      s'.ctxState c.val = s.ctxState c.val ∧ ∃ s'', exec (.ctxwCtlStart c v 8 tbit) s = .next s'' ∧
        s''.ctxState c.val = s.ctxState c.val)

/-! ### Tiles (chapters 02, 15) -/

/-- BILLET_END and SPLIT_K_PARTIAL_ARRIVAL on a tile that is in no verified pair (R32, R39, R42, R43, R60): with every witness matching, the
billet counts and leaves the deal list; a first partial of a block initialises a bank of its home tile, and one for another home tile is
sent there; a recompute that passes counts in FIRST_CNT; a first mismatch leaves every bank untouched, keeps the billet at the head, to be
computed again, and the operand blocks in the ring, and is recorded; a partial that arrives before its bank is initialised waits, and one
that arrives behind it is added into it. Each operand block is the one that the tile holds, or is read now: that the read happens when the
first billet that needs the block ends is the model's choice (log entry 12). It is stated for the class CORRECTED that the policy table's
default gives WIT_FIRST, where no bucket of the context has a cap. -/
def Obligations.TileBilletEnds : Prop :=
  ∀ (t : TileId) (fx : List CellFx) (s : State),
    let x := s.tile t.val
    (∀ b rest o a y, x.deal = b :: rest → s.op? b.ctx b.seq = some o → o.kind = 1 → o.done = none → x.ended = false →
      s.tileServes t.val = true → s.tilesOn = true → s.on (F.MXA_CFG_PAIR_EN t.val) = false → t.val ∈ s.tilesOf (s.partOf b.ctx) →
      memFree b.ctx s → operandOf t.val o b false a s → operandOf t.val o b true y s →
      let d := runBillet s o b a y fx
      (d.badRows = [] → d.badCols = [] → x.early = [] → (x.banks.any fun k => k.isFor b.ctx b.seq b.row b.col) = false →
        (∀ b' ∈ rest, ∀ o', s.op? b'.ctx b'.seq = some o' → o'.kind = 1) → noSaved t.val s →
        ∃ s', exec (.billetEnd t fx) s = .next s' ∧
          s'.rd (F.MXA_BILLETS_COUNT t.val) = (s.rd (F.MXA_BILLETS_COUNT t.val) + 1) % 2 ^ 64 ∧
          s'.rd (F.MXA_WIT_STATUS_FIRST_CNT t.val) =
            min (s.rd (F.MXA_WIT_STATUS_FIRST_CNT t.val) + b2n x.recompute) (F.MXA_WIT_STATUS_FIRST_CNT t.val).max ∧
          (s'.tile t.val).recompute = false ∧ (∃ more, (s'.tile t.val).deal = rest ++ more) ∧
          (if b.home = t.val then b.last = false → ∃ k ∈ (s'.tile t.val).banks, k.isFor b.ctx b.seq b.row b.col = true ∧
              k.done = false ∧ k.cells = bankOf d.cells ∧ k.flags = d.flags
           else ∃ k ∈ (s'.tile t.val).sent, k.isFor b.ctx b.seq b.row b.col = true ∧ k.home = b.home ∧
              k.cells = bankOf d.cells ∧ k.flags = d.flags) ∧
          (∀ k, k ≠ R.MXA_BILLETS t.val → k ≠ R.MXA_STALL t.val → (x.recompute = true → k ≠ R.MXA_WIT_STATUS t.val) →
            (∀ u, k ≠ R.MXA_STATUS u) → s'.reg k = s.reg k) ∧ cachesOnly s s' ∧
          s' = { s with tiles := s'.tiles, regs := s'.regs, ctxs := s'.ctxs, freeCtr := s'.freeCtr, chans := s'.chans }) ∧
      (d.badRows ≠ [] ∨ d.badCols ≠ [] → x.recompute = false → s.classOf 0x0101 = 0 →
        ∃ s', exec (.billetEnd t fx) s = .next s' ∧
          s'.tile t.val = { x with recompute := true, deferred := x.stopped, ended := x.stopped, missAt := s.now, pairPart := none,
                                   opndAt := none, opndRem := (s'.tile t.val).opndRem, opnds := (s'.tile t.val).opnds } ∧
          (s'.tile t.val).opnd? b false = some a ∧ (s'.tile t.val).opnd? b true = some y ∧
          (∀ j, j ≠ t.val → s'.tile j = { s.tile j with opnds := (s'.tile j).opnds }) ∧
          s'.on (F.MXA_WIT_STATUS_FIRST t.val) = true ∧
          s'.on (F.MXA_WIT_STATUS_DEFERRED t.val) = (x.stopped || s.on (F.MXA_WIT_STATUS_DEFERRED t.val)) ∧
          s'.rd (F.MXA_WIT_STATUS_LAST_ROW t.val) = d.badRows.headD 0 % 128 ∧
          s'.rd (F.MXA_WIT_STATUS_LAST_COL t.val) = d.badCols.headD 0 % 128 ∧
          s'.on (F.MXA_WIT_STATUS_ROW_MULTI t.val) = decide (1 < d.badRows.length) ∧
          s'.on (F.MXA_WIT_STATUS_COL_MULTI t.val) = decide (1 < d.badCols.length) ∧
          s'.on (F.MXA_WIT_STATUS_FMT_CLASS t.val) = floatPath o.aFmt ∧
          logged 0x0101 (srcTile t.val) (faultDetail (some b.ctx) t.val (o.ident b.row b.col b.span) []) s s' ∧
          (∀ k, k ≠ R.MXA_WIT_STATUS t.val → k ≠ R.MXA_STALL t.val → k ≠ R.TLS_LAST → k ≠ R.TLS_COUNT → isLog k = false →
            s'.reg k = s.reg k) ∧
          s'.ctxs = s.ctxs ∧ s'.devMem = s.devMem ∧ s'.outbox = s.outbox ∧ cachesOnly s s')) ∧
    (∀ (src : TileId) p o, src ≠ t → (s.tile src.val).sent.find? (fun p => p.home = t.val) = some p →
      s.op? p.ctx p.seq = some o → o.done = none → s.deals t.val = true → x.deal = [] →
      ((x.banks.any fun k => k.isFor p.ctx p.seq p.row p.col) = false →
        ∃ s', exec (.splitKPartialArrival t src) s = .next s' ∧ s'.tile t.val = { x with early := x.early ++ [p] } ∧
          s'.tile src.val = { s.tile src.val with sent := (s.tile src.val).sent.erase p } ∧
          (∀ j, j ≠ t.val → j ≠ src.val → s'.tile j = s.tile j) ∧ s' = { s with tiles := s'.tiles }) ∧
      (∀ k ∈ x.banks, k.isFor p.ctx p.seq p.row p.col = true → k.done = false → 1 < k.await → noSaved t.val s →
        ∃ s', exec (.splitKPartialArrival t src) s = .next s' ∧
          (∃ k' ∈ (s'.tile t.val).banks, k'.isFor p.ctx p.seq p.row p.col = true ∧ k'.done = false ∧ k'.await = k.await - 1 ∧
            k'.cells = (joinBanks (floatPath o.aFmt) k.cells p.cells).1) ∧
          (s'.tile src.val).sent = (s.tile src.val).sent.erase p ∧ s'.devMem = s.devMem ∧ s'.outbox = s.outbox))

/-- FTQ_ENTRY_FREED and BLOCK_WRITTEN (R32, R35): the oldest entry of the finished-tile queue leaves it once it has been written and no
kernel runs, and a finished bank that waited is converted into the entry that came free; the port's write stores the rows of the
block within C and nothing else, its entry frees, the block counts as written, and its flag byte counts (R89, R90). Nothing saved waits for
the free entry. -/
def Obligations.TileQueueDrains : Prop :=
  ∀ (t : TileId) (s : State) (e : FtqEntry) (rest : List FtqEntry),
    let x := s.tile t.val
    x.ftq = e :: rest → x.deal = [] → noSaved t.val s →
    (e.written = true → e.writing = false → x.vxe.run = false →
      ((∀ k ∈ x.banks, k.done = false) → ∃ s', exec (.ftqEntryFreed t) s = .next s' ∧ (s'.tile t.val).ftq = rest ∧
        (s'.tile t.val).banks = x.banks ∧ (∀ j, j ≠ t.val → s'.tile j = s.tile j) ∧
        s'.rd (F.MXA_STATUS_FTQ_OCC t.val) = rest.length % 8 ∧ s' = { s with tiles := s'.tiles, regs := s'.regs }) ∧
      (∀ k o, x.banks = [k] → k.done = true → rest.length = 3 → s.op? k.ctx k.seq = some o →
        ∃ s' n, exec (.ftqEntryFreed t) s = .next s' ∧ (s'.tile t.val).ftq = rest ++ [n] ∧ (s'.tile t.val).banks = [] ∧
          n.ident = o.ident k.row k.col (o.spans - 1) ∧ n.ctx = k.ctx ∧ n.seq = k.seq ∧ n.row = k.row ∧ n.col = k.col ∧
          n.data = (drainBlock o.cFmt (floatPath o.aFmt) o.anchor o.rnd o.outSat s.freeCtr k.cells).1 ∧
          n.flags = k.flags ||| (drainBlock o.cFmt (floatPath o.aFmt) o.anchor o.rnd o.outSat s.freeCtr k.cells).2 ∧
          s'.devMem = s.devMem)) ∧
    (∀ o u, s.op? e.ctx e.seq = some o → o.hasKernel = false → s.secondary t.val = false → memFree e.ctx s →
      (∀ k ∈ x.banks, k.done = false) →
      writeRows e.ctx o e.row e.col (fmtBits o.cFmt)
        ((List.range (128 * 128 * fmtBits o.cFmt / 8)).map fun i => SMap.get memDefault e.data i) 128 0 s = (u, none) →
      ∃ s' o', exec (.blockWritten t) s = .next s' ∧ s'.devMem = u.devMem ∧ (s'.tile t.val).ftq = rest ∧
        (∀ j, j ≠ t.val → s'.tile j = s.tile j) ∧ s'.op? e.ctx e.seq = some o' ∧ (e.row, e.col) ∈ o'.written ∧
        o'.aflags = (if (e.row, e.col) ∈ o.written then o.aflags else o.aflags ||| e.flags) ∧ s'.outbox = s.outbox)

/-- SELF_TEST_START, SELF_TEST_END, LATENT_CHECK_WALK and the retirement of a tile (R44, R47, R458, R459): the test takes the next tile of
the rotation out of service; a tile that passes is in service again, IDLE, or PAIR_LOST where its partner has retired meanwhile (R50); a tile that fails, or whose recomputed billet mismatches
again, is RETIRED by its witness, with a record that names the tile, the position and the billet; a walk that passes changes nothing.
The test is stated where no VECTOR is in flight, and the retirement clauses under the class CORRECTED that the policy table's default gives TILE_RETIRED. -/
def Obligations.TileRotation : Prop :=
  ∀ (t : TileId) (s : State),
    let alone := ∃ p u, s.partOfGroup (t.val / 8) = some p ∧ u ∈ s.tilesOf p ∧ u ≠ t.val ∧
      s.rd (F.MXA_STATUS_STATE u) ≠ 5 ∧ s.rd (F.MXA_STATUS_STATE u) ≠ 7
    (∀ n wrap, s.on F.TLS_ROT_BUSY = false → s.rd F.GLB_CFG_STATUS_STATE = 1 → s.atL0 = true → s.nextTest = some (n, wrap) →
      n < 64 → (∀ c q o, s.op? c q = some o → o.kind ≠ 2) →
      ∃ s', exec .selfTestStart s = .next s' ∧ s'.rd (F.MXA_STATUS_STATE n) = 4 ∧ s'.on F.TLS_ROT_BUSY = true ∧
        s'.rd F.TLS_ROT_CUR_TILE = n ∧ emptyTile n s' ∧
        s'.rd F.TLS_ROT_PASSES = (s.rd F.TLS_ROT_PASSES + b2n wrap) % 2 ^ 32 ∧
        (s.tileCtx n = none → s.paired n = false → ∀ j, j ≠ n → s'.tile j = s.tile j) ∧
        s'.devMem = s.devMem ∧ s'.outbox = s.outbox) ∧
    (∀ (row col : Fin 129) p, s.rd (F.MXA_STATUS_STATE t.val) = 4 → s.partOfGroup (t.val / 8) = some p → s.holderOf p = none →
      alone → ∃ s', exec (.selfTestEnd t true row col) s = .next s' ∧
        s'.rd (F.MXA_STATUS_STATE t.val) =
          (if s.paired t.val = true ∧ s.rd (F.MXA_STATUS_STATE (s.partner t.val)) = 5 then 7 else 1) ∧
        s'.on F.TLS_ROT_BUSY = false ∧
        (∀ k, k ≠ R.MXA_STATUS t.val → k ≠ R.VXE_STATUS t.val → k ≠ R.TLS_ROT → s'.reg k = s.reg k) ∧
        s' = { s with regs := s'.regs }) ∧
    (∀ (row col : Fin 129) p, s.rd (F.MXA_STATUS_STATE t.val) = 4 → s.classOf 0x0102 = 0 → alone → s.tileCtx t.val = none →
      s.on (F.MXA_CFG_PAIR_EN t.val) = false → s.partOfGroup (t.val / 8) = some p → s.holderOf p = none →
      ∃ s', exec (.selfTestEnd t false row col) s = .next s' ∧ s'.rd (F.MXA_STATUS_STATE t.val) = 5 ∧
        s'.on (F.MXA_WIT_STATUS_RETIRED_BY_WITNESS t.val) = true ∧ s'.on F.TLS_ROT_BUSY = false ∧
        logged 0x0102 (srcTile t.val) (faultDetail none t.val 0 [byte row.val, byte col.val, 0]) s s') ∧
    (∀ fx b rest o a y, (s.tile t.val).deal = b :: rest → s.op? b.ctx b.seq = some o → o.kind = 1 →
      (s.tile t.val).ended = false → s.tileServes t.val = true → s.tilesOn = true → s.on (F.MXA_CFG_PAIR_EN t.val) = false →
      memFree b.ctx s → operandOf t.val o b false a s → operandOf t.val o b true y s → (s.tile t.val).recompute = true →
      let d := runBillet s o b a y fx
      d.badRows ≠ [] ∨ d.badCols ≠ [] →
      s.classOf 0x0102 = 0 → alone → (∀ c q o', s.op? c q = some o' → o'.kind ≠ 2) →
      ∃ s', exec (.billetEnd t fx) s = .next s' ∧ s'.rd (F.MXA_STATUS_STATE t.val) = 5 ∧
        s'.on (F.MXA_WIT_STATUS_RETIRED_BY_WITNESS t.val) = true ∧ emptyTile t.val s' ∧
        logged 0x0102 (srcTile t.val) (faultDetail (s.tileCtx t.val) t.val (o.ident b.row b.col b.span)
          [byte (d.badRows.headD 0 % 128), byte (d.badCols.headD 0 % 128),
            byte (b2n (decide (1 < d.badRows.length)) + 2 * b2n (decide (1 < d.badCols.length)) + 4 * b2n (floatPath o.aFmt))])
          s s') ∧
    (∀ u, exec (.latentCheckWalk u true) s = .next s)

/-! ### Work lists (chapter 05) -/

/-- NOP, TBL_LOAD, KRN_LOAD, CRV_LOAD and DECISION of a started operation (R71, R73, R115, R127, R130–R133, R153): NOP ends with OK and
does nothing; a load places an image that passes its checks in the slot that it names, and leaves the slot invalid otherwise (stated where
no bucket of the context has a cap; that an image which no more lies in the range is rejected so is the model's reading, log entry 47); a
decision reduces the accumulators of the groups, tests the value, reports it, and resets the accumulator where it says so; SUMM_MIXED where
types are mixed; an empty accumulator compares as the integer zero, and its extremes set EMPTY. Nothing but the context, the slices of its
memory and the accumulators changes. -/
def Obligations.SchedulerKinds : Prop :=
  ∀ (c : CtxId) (q : Nat) (s : State) (o : Op),
    (opRuns c.val q 0 o s → ∃ s', exec (.nop c q) s = .next s' ∧ opEnds c.val q (plainResult stOK) s s' ∧
      s' = { s with ctxs := s'.ctxs }) ∧
    (let load := fun (i : Instr) (k st : Nat) (slots : Ctx → SMap Slot) (ok : List Byte → Bool) =>
      (opRuns c.val q k o s → s.inRange c.val o.loadSrc (s.loadLen c.val o) = false → ∃ s', exec i s = .next s' ∧
        opEnds c.val q (plainResult st) s s' ∧
        SMap.get (fun _ => Slot.empty) (slots (s'.ctx c.val)) o.slot = Slot.empty ∧ s' = { s with ctxs := s'.ctxs }) ∧
      ∀ img, opRuns c.val q k o s → s.inRange c.val o.loadSrc (s.loadLen c.val o) = true → memFree c.val s →
        s.ctxRead c.val o.loadSrc (s.loadLen c.val o) = .ok img →
        ∃ s', exec i s = .next s' ∧ opEnds c.val q (plainResult (if ok img then stOK else st)) s s' ∧
          (SMap.get (fun _ => Slot.empty) (slots (s'.ctx c.val)) o.slot =
            if ok img then { valid := true, image := img } else Slot.empty) ∧
          (∀ j, j ≠ o.slot → SMap.get (fun _ => Slot.empty) (slots (s'.ctx c.val)) j =
            SMap.get (fun _ => Slot.empty) (slots (s.ctx c.val)) j) ∧
          cachesOnly s s' ∧ s' = { s with ctxs := s'.ctxs, chans := s'.chans };
      load (.tblLoad c q) 3 stTbl Ctx.tbl tableOk ∧ load (.krnLoad c q) 4 stKrn Ctx.krn kernelOk ∧
        load (.crvLoad c q) 5 stCrv Ctx.crv curveOk) ∧
    (let gs := s.groupsOf (s.partOf c.val);
      let a := gs.foldl (fun x g => accMerge x (s.acc g c.val o.acc)) Acc.init;
      opRuns c.val q 6 o s → ∃ s', exec (.decision c q) s = .next s' ∧
        (a.mixed = true → opEnds c.val q (plainResult stMixed) s s') ∧
        (∀ k, a.mixed = false → a.typ = some k →
          let v := reduced a o.reduce (k = 0);
          let id := if o.reduce = 3 then some a.loId else if o.reduce = 4 then some a.hiId else none;
          opEnds c.val q { status := stOK, detail := 0, value := v, ident := id } s s' ∧
          ∃ o', s'.op? c.val q = some o' ∧
            o'.xflags = o.xflags ||| 64 * b2n (decisionTest o.cmp a.nan (k = 0) v o.threshold)) ∧
        (a.mixed = false → a.typ = none → o.reduce < 3 → opEnds c.val q (plainResult stOK) s s' ∧
          ∃ o', s'.op? c.val q = some o' ∧ o'.xflags = o.xflags ||| 64 * b2n (decisionTest o.cmp false false 0 o.threshold)) ∧
        (a.mixed = false → a.typ = none → 3 ≤ o.reduce → ∃ o' r, s'.op? c.val q = some o' ∧ o'.done = some r ∧
          r.status = stOK ∧ o'.xflags = o.xflags ||| 0x20) ∧
        (∀ g, (s'.group g).intake = (s.group g).intake) ∧
        (∀ g j, SMap.get (fun _ => Acc.init) (s'.group g).accs j =
          if o.accReset && decide (g ∈ gs) && decide (j = 8 * c.val + o.acc) then Acc.init
          else SMap.get (fun _ => Acc.init) (s.group g).accs j) ∧
        s' = { s with ctxs := s'.ctxs, groups := s'.groups, freeCtr := s'.freeCtr })

/-- OPERATION_START (R116, R158–R160, R232): an eligible operation of a context that holds its slice, with no older eligible one that
waits for the same resource and no declared dependency that failed, starts: a DMA operation on the lowest-numbered free engine, a matrix or
vector operation without a kernel when tiles are free and the table pair that it names is valid, any other at once. -/
def Obligations.OperationStarts : Prop :=
  ∀ (c : CtxId) (q : Nat) (s : State) (o : Op),
    s.op? c.val q = some o → s.running c.val = true → o.started = false → o.done = none → s.eligible c.val o = true →
    (∀ e ∈ s.earlier c.val o, e.unit = o.unit → e.started = true ∨ e.done.isSome = true) →
    (s.depFailed c.val o = false ∨ o.flags.testBit 3 = true) →
    (∀ e, o.unit = 2 → s.freeEng (s.partOf c.val) = some e → ∃ s' o', exec (.operationStart c q) s = .next s' ∧
      s'.op? c.val q = some o' ∧ o'.started = true ∧ o'.engine = some e ∧ (s'.engine e).op = some (c.val, q) ∧
      s'.rd (F.DMA_ENG_STATUS_STATE e) = 2 ∧ (∀ j, j ≠ e → s'.engine j = s.engine j) ∧
      (∀ k, k ≠ R.DMA_ENG_STATUS e → s'.reg k = s.reg k) ∧
      s' = { s with regs := s'.regs, ctxs := s'.ctxs, engines := s'.engines }) ∧
    (o.unit = 1 → o.hasKernel = false → s.tilesFree c.val = true →
      (o.usesTbl = true → (SMap.get (fun _ => Slot.empty) (s.ctx c.val).tbl o.tblSlot).valid = true) →
      ∃ s' o', exec (.operationStart c q) s = .next s' ∧ s'.op? c.val q = some o' ∧ o'.started = true ∧ o'.done = none ∧
        s' = { s with ctxs := s'.ctxs }) ∧
    (o.unit ≠ 1 → o.unit ≠ 2 → ∃ s' o', exec (.operationStart c q) s = .next s' ∧ s'.op? c.val q = some o' ∧
      o'.started = true ∧ o'.done = none ∧ s' = { s with ctxs := s'.ctxs })

/-- MATMUL and VECTOR (R36, R37, R39, R155), on a partition of unpaired tiles that hold nothing, where nothing of the operation is saved: with four blocks or more per tile, each
tile of the grid takes its quad of the first wave, span by span in the order of R37; with one to four, blocks are dealt one per tile in turn,
each as one chain, a turn being a wave; with fewer, the spans of each block are shared in contiguous ranges that differ by at most one span; a vector
operation's blocks are dealt one per tile in turn, and the first four of each tile are loaded. That the longer ranges come first is the
model's choice (log entry 12). -/
def Obligations.OperationsAreDealt : Prop :=
  ∀ (c : CtxId) (q : Nat) (s : State) (o : Op),
    let p := s.partOf c.val
    let ts := s.dealTiles p
    let n := ts.length
    let blocks := (List.range o.rows).flatMap fun r => (List.range o.cols).map fun k => (r, k)
    let b := o.rows * o.cols
    0 < n → 0 < b → o.deal = 0 → o.dealt = 0 → o.heldQ = [] → o.redo = [] → (∀ x ∈ (s.ctx c.val).chains, x.seq ≠ q) →
    (∀ t ∈ s.tilesOf p, (s.tile t).deal = [] ∧ (s.tile t).banks = [] ∧ (s.tile t).ftq = [] ∧ (s.tile t).stopped = false ∧
      s.on (F.MXA_CFG_PAIR_EN t) = false) →
    (opRuns c.val q 1 o s → ∃ s' o', exec (.matmul c q) s = .next s' ∧ s'.op? c.val q = some o' ∧
      (4 * n ≤ b → o'.deal = 1 ∧ o'.dealt = 1 ∧
        ∀ r k row col, (r, k, row, col) ∈ waveQuads o (s.groupsOf p).length 0 →
          let t := 8 * (s.groupsOf p).getD r 0 + k;
          if s.deals t then (s'.tile t).deal = (List.range o.spans).flatMap fun i =>
              ([(row, col), (row, col + 1), (row + 1, col + 1), (row + 1, col)].filter fun x =>
                decide (x.1 < o.rows) && decide (x.2 < o.cols)).map fun x =>
                { ctx := c.val, seq := q, row := x.1, col := x.2, span := i, last := decide (i + 1 = o.spans), home := t,
                  wave := o.waves, away := 0 }
          else ([(row, col), (row, col + 1), (row + 1, col + 1), (row + 1, col)].filter fun x =>
            decide (x.1 < o.rows) && decide (x.2 < o.cols)) ∈ o'.heldQ) ∧
      (n ≤ b → b < 4 * n → o'.deal = 2 ∧ ∀ i t, ts[i]? = some t →
        (s'.tile t).deal = (blocks.zipIdx.filter fun x => x.2 % n = i).flatMap fun x => (List.range o.spans).map fun j =>
          { ctx := c.val, seq := q, row := x.1.1, col := x.1.2, span := j, last := decide (j + 1 = o.spans), home := t,
            wave := o.waves + x.2 / n, away := 0 }) ∧
      (b < n → 0 < o.spans → let k := min o.spans (n / b); o'.deal = 3 ∧ ∀ i x, blocks[i]? = some x →
          let mine := (ts.drop (i * k)).take k;
          mine.length = k ∧
          (mine.flatMap fun t => (s'.tile t).deal.map fun y => (y.row, y.col, y.span, y.home)) =
            (List.range o.spans).map (fun j => (x.1, x.2, j, mine.headD 0)) ∧
          ∀ t ∈ mine, o.spans / k ≤ (s'.tile t).deal.length ∧ (s'.tile t).deal.length ≤ o.spans / k + 1) ∧
      s' = { s with tiles := s'.tiles, regs := s'.regs, ctxs := s'.ctxs }) ∧
    (opRuns c.val q 2 o s → memFree c.val s →
      (∀ x ∈ blocks, ∃ rows, readRows s c.val (o.aAddr + 128 * x.2 * (fmtBits o.cFmt / 8)) o.lda (8 * (fmtBits o.cFmt / 8))
        (128 * x.1) o.m 0 (min 128 (o.n - 128 * x.2)) 128 = .ok rows) →
      ∃ s', exec (.vector c q) s = .next s' ∧
        (∀ i t, ts[i]? = some t →
          let mine := (blocks.zipIdx.filter fun x => x.2 % n = i).map (·.1);
          ((s'.tile t).ftq.map fun e => (e.ctx, e.seq, e.row, e.col)) = (mine.take 4).map (fun x => (c.val, q, x.1, x.2)) ∧
          ((s'.tile t).deal.map fun y => (y.row, y.col)) = mine.drop 4) ∧ cachesOnly s s' ∧
        s' = { s with tiles := s'.tiles, regs := s'.regs, ctxs := s'.ctxs, chans := s'.chans })

/-- OPERATION_COMPLETE (R152, R162, R164, R166), for an operation whose work has ended and that no epilogue's summary holds back: its record
is written at the place that CMPL_TAIL names, CMPL_TAIL counts, its signal adds to its object, with ERR where the operation ended in
error, and it is in flight no more. Stated for an operation other than a decision, in a context that does not measure, whose
ring words lie in host memory and none of whose buckets has a cap. -/
def Obligations.OperationCompletes : Prop :=
  ∀ (c : CtxId) (q : Nat) (s u : State) (o : Op) (r : Result),
    let n := (s.ctx c.val).cmplTail
    s.op? c.val q = some o → o.done = some r → o.kind ≠ 6 → s.mayComplete c.val o = true → o.hasKernel = false →
    s.on (F.CTXW_CTL_MEASURE c.val) = false → s.on (F.CTXW_RING_WORDS_SPACE c.val) = true →
    s.on (F.CTXW_CMPL_BASE_SPACE c.val) = false → memFree c.val s →
    s.ctxWrite c.val (s.rd (F.CTXW_CMPL_BASE_BASE c.val) * 4096 + 32 * (n % s.cmplEntries c.val))
      (recordBytes o r (decide (n / s.cmplEntries c.val % 2 = 0)) s.now) = (u, none) →
    ∃ s', exec (.operationComplete c q) s = .next s' ∧ s'.op? c.val q = none ∧
      (s'.ctx c.val).cmplTail = (n + 1) % 2 ^ 32 ∧ s'.devMem = u.devMem ∧
      (∀ q', q' ≠ q → (s'.op? c.val q').isSome = (s.op? c.val q').isSome) ∧
      s'.rd (F.CTXW_RING_STATUS_IN_FLIGHT c.val) = (s'.ctx c.val).ops.length % 512 ∧
      (let so := bits (o.word 2) 60 48;
        let cnt := s.rd (F.SYN_CNT_COUNT so);
        let err := r.status ≠ stOK ∧ r.status ≠ stSkipped;
        (bits (o.word 2) 63 62 = 1 → s'.rd (F.SYN_CNT_COUNT so) = min (cnt + bits (o.word 2) 47 0) (2 ^ 64 - 1) ∧
          (err → s'.on (F.SYN_CTL_ERR so) = true) ∧ (¬ err → s'.on (F.SYN_CTL_ERR so) = s.on (F.SYN_CTL_ERR so)) ∧
          (2 ^ 64 ≤ cnt + bits (o.word 2) 47 0 → s'.on (F.SYN_CTL_SAT so) = true)) ∧
        (bits (o.word 2) 63 62 = 2 → s'.rd (F.SYN_CNT_COUNT so) = bits (o.word 2) 47 0 ∧
          (s'.on (F.SYN_CTL_ERR so) = true ↔ err)) ∧
        (bits (o.word 2) 63 62 ≠ 1 → bits (o.word 2) 63 62 ≠ 2 → ∀ j, j < 8192 →
          s'.rd (F.SYN_CNT_COUNT j) = s.rd (F.SYN_CNT_COUNT j) ∧ s'.on (F.SYN_CTL_ERR j) = s.on (F.SYN_CTL_ERR j))) ∧
      s'.tiles = s.tiles ∧ s'.pools = s.pools ∧ s'.groups = s.groups

/-- HOST_WORD_POLL and DESCRIPTOR_FETCH_RETURN (R146–R148): the holder's host word, read in device memory, gives TAIL and CMPL_HEAD, and a run
of at most 64 unread descriptors up to the ring's end is asked for (in host memory up to the end of its page: the model's reading, log entry
148); a descriptor that returns (stated for a NOP that waits and signals nothing, which passes its checks, where the hub's word can be
written) is accepted at HEAD, HEAD advances, and the operation is in flight. No bucket of the context has a cap. -/
def Obligations.RingsAreRead : Prop :=
  ∀ (p : PartId) (c : CtxId) (s : State) (hw : List HostWord) (bs : List Byte),
    (let tail := leNat bs % 2 ^ 32;
      let n := (tail + 2 ^ 32 - s.head c.val) % 2 ^ 32;
      s.atL0 = true → s.rd (F.SCH_STATUS_STATE p.val) = 1 → s.holderOf p.val = some c.val → s.ctxState c.val = 4 →
      s.holds c.val = true → s.on (F.CTXW_RING_WORDS_SPACE c.val) = false → memFree c.val s → (s.ctx c.val).wordDue = false →
      s.ctxRead c.val (s.rd (F.CTXW_RING_WORDS_ADDR c.val) * 16) 8 = .ok bs → n ≠ 0 → n ≤ s.ringEntries c.val →
      let host := s.on (F.CTXW_RING_BASE_SPACE c.val);
      let one := if host then 64 - s.descAddr c.val (s.head c.val) % 4096 / 64 else 64;
      let run := some (s.head c.val, min one (min n (s.ringEntries c.val - s.head c.val % s.ringEntries c.val)));
      ∃ s', exec (.hostWordPoll p hw) s = .next s' ∧ (s'.ctx c.val).tail = tail ∧
        (s'.ctx c.val).cmplHead = bits (leNat bs) 63 32 ∧ (s'.ctx c.val).fetch = run ∧
        (∀ d, d ≠ c.val → s'.ctx d = s.ctx d) ∧ s'.devMem = s.devMem ∧
        (host = false → s'.ctx c.val = { s.ctx c.val with tail := tail, cmplHead := bits (leNat bs) 63 32, fetch := run } ∧
          cachesOnly s s' ∧ s' = { s with ctxs := s'.ctxs, chans := s'.chans })) ∧
    (∀ h d, (s.ctx c.val).fetch = some (h, 1) → s.running c.val = true → s.on (F.CTXW_RING_BASE_SPACE c.val) = false →
      memFree c.val s →
      (s.on (F.CTXW_RING_WORDS_SPACE c.val) = true ∨ (flatServes s c.val ∧ s.inRange c.val (s.wordsAddr c.val) 16 = true)) →
      s.ctxRead c.val (s.rd (F.CTXW_RING_BASE_BASE c.val) * 4096 + 64 * (h % s.ringEntries c.val)) 64 = .ok bs →
      wordsOf bs 8 = d → s.mayAccept c.val = true → (s.ctx c.val).inSpan (s.head c.val) = false →
      (∀ e ∈ (s.ctx c.val).ops, e.seq ≠ s.head c.val) →
      (let o := Op.accept (s.head c.val) d 0 false;
        o.kind = 0 ∧ bits (o.word 1) 63 62 = 0 ∧ bits (o.word 2) 63 62 = 0 ∧ descFails s c.val o [] = []) →
      ∃ s' o', exec (.descriptorFetchReturn c []) s = .next s' ∧ s'.head c.val = (s.head c.val + 1) % 2 ^ 32 ∧
        (s'.ctx c.val).ops = (s.ctx c.val).ops ++ [o'] ∧ o'.seq = s.head c.val ∧ o'.words = d ∧ o'.met = true ∧
        o'.started = false ∧ o'.done = none ∧ (s'.ctx c.val).fetch = none ∧
        s'.rd (F.CTXW_RING_STATUS_IN_FLIGHT c.val) = ((s.ctx c.val).ops.length + 1) % 512)

/-- SLICE_TICK and SWITCH_WINDOW_END (R147, R170–R172, R174–R176): a tick moves the slice table to its next entry; the host word of the
entry's context, and where that has no work those of its set, are read; where another context takes the slice, the holder gives it up, the
partition is in SWITCH and every tile that serves stops; else nothing is switched. The end of the window saves each tile's queue, vector
engine and unfinished chains to its context and clears the tile, counts the switch and its length, counts a window that was exceeded, and
hands the slice to the incoming context, or leaves it idle. The tick is stated where the host words lie in device memory and none of the
contexts' buckets has a cap, the end for an incoming context with nothing in flight or saved. -/
def Obligations.SlicesSwitch : Prop :=
  ∀ (p : PartId) (s : State) (hw : List HostWord),
    (∀ e, let c := s.rd (F.SCH_TABLE_CTX p.val e);
      let read := fun (d : Nat) (u : State) => ∃ bs, s.ctxRead d (s.wordsAddr d) 8 = .ok bs ∧
        u.ctx d = { s.ctx d with tail := leNat bs % 2 ^ 32, cmplHead := bits (leNat bs) 63 32 };
      s.rd (F.SCH_STATUS_STATE p.val) ∈ [1, 2, 3] → s.nextEntry p.val = some e → s.atL0 = true →
      (s.rd F.TLS_STATUS_PART_DOWN).testBit p.val = false →
      (∀ d, d = c ∨ d ∈ s.boundTo p.val → s.ctxState d = 4 → s.on (F.CTXW_RING_WORDS_SPACE d) = false ∧ memFree d s ∧
        ∃ bs, s.ctxRead d (s.wordsAddr d) 8 = .ok bs ∧
          (leNat bs % 2 ^ 32 + 2 ^ 32 - s.head d) % 2 ^ 32 ≤ s.ringEntries d) →
      ∃ u s', exec (.sliceTick { part := p, words := hw }) s = .next s' ∧ s'.rd (F.SCH_STATUS_ENTRY p.val) = e % 256 ∧
        (∀ d, u.ctx d = s.ctx d ∨ read d u) ∧ (s.loadable c = true → read c u) ∧
        (u.hasWork c = false → ∀ d ∈ s.boundTo p.val, d ≠ c → (s.wcSet p.val c).isSome = true →
          s.wcSet p.val d = s.wcSet p.val c → s.ctxState d = 4 → read d u) ∧
        (∀ k, k ≠ R.SCH_STATUS p.val → u.reg k = s.reg k) ∧ cachesOnly s u ∧
        u = { s with regs := u.regs, ctxs := u.ctxs, chans := u.chans } ∧
        (let inc := u.taker p.val c;
          let stays := (∃ d, s.holderOf p.val = some d ∧ (inc = some d ∨ (s.boundTo p.val).length = 1 ∨ (d = c ∧ inc = none))) ∨
            s.holderOf p.val = none ∧ inc = none ∧ s.rd (F.SCH_STATUS_STATE p.val) = 2;
          (stays → s'.rd (F.SCH_STATUS_STATE p.val) = s.rd (F.SCH_STATUS_STATE p.val) ∧ s'.holderOf p.val = s.holderOf p.val ∧
            s'.tiles = s.tiles ∧ s'.parts = s.parts ∧ s'.devMem = s.devMem) ∧
          (¬ stays → s'.rd (F.SCH_STATUS_STATE p.val) = 3 ∧ s'.holderOf p.val = none ∧
            (∀ d, s.holderOf p.val = some d → s'.holds d = false) ∧
            (s'.part p.val).sw = some { out := match (s.part p.val).sw with | some w => w.out | none => s.holderOf p.val,
                                        inc := inc, since := s.now } ∧
            (∀ t ∈ s.tilesOf p.val, s.tileServes t = true → (s'.tile t).stopped = true ∧ s'.rd (F.MXA_STATUS_STATE t) = 3) ∧
            s' = { u with regs := s'.regs, tiles := s'.tiles, parts := s'.parts, tls := s'.tls }))) ∧
    (∀ (us : Nat) (w : Switch), us < 65536 → (s.part p.val).sw = some w → s.holderOf p.val = none →
      (∀ c, w.inc = some c → s.loadable c = true ∧ (s.ctx c).ops = [] ∧ (s.ctx c).saved = [] ∧ (s.ctx c).chains = [] ∧
        s.on (F.CTXW_RING_WORDS_SPACE c) = true ∧ c < 256 ∧ ∀ t ∈ s.tilesOf p.val, s.tileCtx t ≠ some c) →
      (∀ c, w.inc = none → s.entryCtx p.val = some c → s.hasWork c = false) →
      ∃ s', exec (.switchWindowEnd p us []) s = .next s' ∧ (s'.part p.val).sw = none ∧
        s'.rd (F.SCH_COUNT_SWITCHES p.val) = (s.rd (F.SCH_COUNT_SWITCHES p.val) + 1) % 2 ^ 32 ∧
        s'.rd (F.SCH_SWITCH_LAST_US p.val) = us ∧
        s'.rd (F.SCH_SWITCH_OVERRUN p.val) = (if us ≤ s.rd (F.SCH_SWITCH_WINDOW_US p.val) then s.rd (F.SCH_SWITCH_OVERRUN p.val)
          else min (s.rd (F.SCH_SWITCH_OVERRUN p.val) + 1) (F.SCH_SWITCH_OVERRUN p.val).max) ∧
        (∀ t ∈ s.tilesOf p.val, s.tileServes t = true → emptyTile t s' ∧ s'.tileCtx t = w.inc) ∧
        (∀ t c, t ∈ s.tilesOf p.val → w.out = some c → s.tileCtx t = some c → s.secondary t = false → w.inc ≠ some c →
          SMap.get (fun _ => SavedTile.init) (s'.ctx c).saved t = { ftq := (s.tile t).ftq, vxe := (s.tile t).vxe } ∧
          (∀ b ∈ (s.tile t).deal, b.ctx = c → (s.op? c b.seq).any (·.done.isNone) = true → ∃ k ∈ (s'.ctx c).chains,
            k.seq = b.seq ∧ k.row = b.row ∧ k.col = b.col ∧ k.from' = t ∧ b ∈ k.todo)) ∧
        (w.inc = none → s'.rd (F.SCH_STATUS_STATE p.val) = 2) ∧
        (∀ c, w.inc = some c → s'.rd (F.SCH_STATUS_STATE p.val) = 1 ∧ s'.holderOf p.val = some c ∧ s'.holds c = true) ∧
        s'.devMem = s.devMem)

/-! ### Memory, DMA and Whittle (chapters 06, 07) -/

/-- The spread (R188, R189): the map of an address to a channel and an offset, over the table that the loader builds from the list of
channels, and that it is one to one; and how many entries of the table each channel holds. -/
def Obligations.SpreadIsOneToOne : Prop :=
  (∀ (l : List Nat) (a : Nat), l ≠ [] →
    let n := l.length
    let u := a / 2 ^ 8
    let x := u % 2 ^ 10
    let st := u / 2 ^ 10
    let f := (st % 2 ^ 10) ^^^ (st / 2 ^ 10 % 2 ^ 10) ^^^ (st / 2 ^ 20)
    let h := x ^^^ f
    pitchOf n = (1024 + n - 1) / n ∧
      spreadMap l (pitchOf n) a = (l.getD (h % n) 0, (st * pitchOf n + h / n) * 256 + a % 256)) ∧
  (∀ (l : List Nat) (a b : Nat), l ≠ [] → l.Nodup → a < 2 ^ 40 → b < 2 ^ 40 →
    spreadMap l (pitchOf l.length) a = spreadMap l (pitchOf l.length) b → a = b) ∧
  ∀ n i, 0 < n → i < n → ((List.range 1024).filter fun h => h % n = i).length =
    if i < 1024 % n ∨ 1024 % n = 0 then pitchOf n else pitchOf n - 1

/-- COPY, COPY_2D and FILL between areas of device memory that are served, lie in the range and do not meet, with no cap on the context's
buckets (R203, R235, R236, R239, R266): each byte of
the destination holds its byte of the source, or of the pattern, no other byte of device memory changes, and the operation ends with OK and
the number of bytes as VALUE. -/
def Obligations.DeviceCopies : Prop :=
  ∀ (c : CtxId) (q : Nat) (s : State) (o : Op) (i : Instr) (k : Nat),
    (i = .copy c q ∧ k = 0x10) ∨ (i = .copy2d c q ∧ k = 0x11) ∨ (i = .fill c q ∧ k = 0x12) →
    opRuns c.val q k o s → memFree c.val s → o.engine.isSome = true → o.srcH = false → o.dstH = false → o.meas = false → o.cursor = 0 →
    0 < o.total → flatServes s c.val → flatOnce s c.val → (∀ j, j < o.total → o.dstAt j < s.range c.val) →
    (∀ j j', j < o.total → j' < o.total → o.dstAt j = o.dstAt j' → j = j') →
    (k ≠ 0x12 → ∀ j, j < o.total → o.srcAt j < s.range c.val ∧ ∀ j', j' < o.total → o.srcAt j ≠ o.dstAt j') →
    ∃ s', exec i s = .next s' ∧
      opEnds c.val q { status := stOK, detail := 0, value := o.total % 2 ^ 64, ident := none } s s' ∧
      (∀ j, j < o.total → s'.flatByte c.val (o.dstAt j) =
        if k = 0x12 then byte (o.src / 256 ^ (o.dstAt j % 8)) else s.flatByte c.val (o.srcAt j)) ∧
      memKept c.val (fun a => ∃ j, j < o.total ∧ a = o.dstAt j) s s' ∧
      s' = { s with devMem := s'.devMem, ueMarks := s'.ueMarks, chans := s'.chans, regs := s'.regs, ctxs := s'.ctxs }

/-- ATOMIC on device memory and XLT_TOUCH (R201, R237, R238): the atomic stores the result of its operation at its width and ends with the
old value, and no other byte changes; a touch that no translation is under way for ends with the number of pages found when its last page
lies behind its place or it has made 64 attempts, and otherwise asks for the first page that the cache does not hold. -/
def Obligations.AtomicsAndTouches : Prop :=
  ∀ (c : CtxId) (q : Nat) (s : State) (o : Op),
    o.engine.isSome = true →
    (opRuns c.val q 0x13 o s → o.atHost = false →
      let l := s.locate c.val o.src
      let w := widthBits o.atWidth
      let old := leNat (s.physRead l.1 l.2 (w / 8))
      memFree c.val s → s.unserved l.1 l.2 = none → s.marked l.1 l.2 = false →
      ∃ s', exec (.atomic c q) s = .next s' ∧
        opEnds c.val q { status := stOK, detail := 0, value := old, ident := none } s s' ∧
        leNat (s'.physRead l.1 l.2 (w / 8)) = atomResult o.atOp w old (o.word 4 % 2 ^ w) (o.word 5 % 2 ^ w) % 2 ^ w ∧
        (∀ k, k < memKey l.1 l.2 ∨ memKey l.1 l.2 + w / 8 ≤ k →
          SMap.get memDefault s'.devMem k = SMap.get memDefault s.devMem k) ∧
        s' = { s with devMem := s'.devMem, ueMarks := s'.ueMarks, chans := s'.chans, regs := s'.regs, ctxs := s'.ctxs }) ∧
    (opRuns c.val q 0x14 o s →
      let page := o.src / 4096 + o.cursor
      ((o.src + o.len - 1) / 4096 < page ∨ 64 ≤ o.asked → s.opAsking c.val q = false → ∃ s', exec (.xltTouch c q) s = .next s' ∧
        opEnds c.val q { status := stOK, detail := 0, value := o.count, ident := none } s s' ∧
        s' = { s with regs := s'.regs, ctxs := s'.ctxs }) ∧
      (page ≤ (o.src + o.len - 1) / 4096 → o.asked < 64 → s.opAsking c.val q = false →
        s.cached c.val o.srcPi page = none → (∀ r ∈ s.atsReqs, r.id ≠ s.nextReq) →
        ∃ s' o', exec (.xltTouch c q) s = .next s' ∧ s'.op? c.val q = some o' ∧ o'.asked = o.asked + 1 ∧ o'.done = none ∧
          (∃ r ∈ s'.atsReqs, r.ctx = c.val ∧ r.pi = o.srcPi ∧ r.page = page ∧ r.n = 1 ∧ r.use = .touch q ∧ r.dead = false) ∧
          s'.devMem = s.devMem))

/-- GATHER, SCATTER and SCATTER_ADD over areas that are served, lie in the range and do not meet, with no cap on the context's buckets and
enough granule tokens of each stack for the whole list (R195–R200, R203, R204): a gather's dense row holds the
table row that its index names, or zero where the index is beyond the table and passed over; a scatter's table row holds its dense row, a
scatter-add's each element the atomic sum, where the indices are distinct; no other byte of device memory changes; VALUE is the number of
indices passed over. -/
def Obligations.WhittleMovesRows : Prop :=
  ∀ (c : CtxId) (q : Nat) (s : State) (o : Op) (i : Instr) (k : Nat),
    let n := o.idxCount
    let rb := o.rowG * 32
    let v := fun i => leNat ((List.range o.idxBytes).map fun j => s.flatByte c.val (o.idx + i * o.idxBytes + j))
    let inTable := fun i => v i < o.tblRows
    (i = .gather c q ∧ k = 0x18) ∨ (i = .scatter c q ∧ k = 0x19) ∨ (i = .scatterAdd c q ∧ k = 0x1A) →
    opRuns c.val q k o s → o.cursor = 0 → o.asked = 0 → o.count = 0 → flatServes s c.val → flatOnce s c.val →
    memFree c.val s → (∀ w ∈ s.waiting, ¬ (w.ctx = c.val ∧ w.who = .unit q 8)) →
    (∀ st, st < 8 → s.rd (F.MEM_REG_CTX_WSHARE st c.val) ≠ 0 ∧ s.queued (2048 + st * 256 + c.val) = false ∧
      s.bucketDrawn (2048 + st * 256 + c.val) + n * o.rowG ≤ 1 + Config.granuleDepth st) →
    o.idx + n * o.idxBytes ≤ s.range c.val → o.dense + n * rb ≤ s.range c.val → o.table + o.tblRows * rb ≤ s.range c.val →
    areasApart o.idx (n * o.idxBytes) o.dense (n * rb) → areasApart o.idx (n * o.idxBytes) o.table (o.tblRows * rb) →
    areasApart o.dense (n * rb) o.table (o.tblRows * rb) →
    (o.oob = true ∨ ∀ i, i < n → inTable i) →
    (k = 0x18 ∨ ∀ i j, i < n → j < n → inTable i → v i = v j → i = j) →
    ∃ s', exec i s = .next s' ∧
      opEnds c.val q { status := stOK, detail := 0, value := ((List.range n).filter fun i => o.tblRows ≤ v i).length,
                       ident := none } s s' ∧
      (k = 0x18 → (∀ i b, i < n → b < rb → s'.flatByte c.val (o.dense + i * rb + b) =
          if v i < o.tblRows then s.flatByte c.val (o.table + v i * rb + b) else 0) ∧
        memKept c.val (fun a => o.dense ≤ a ∧ a < o.dense + n * rb) s s') ∧
      (k = 0x19 → ∀ i b, i < n → inTable i → b < rb →
        s'.flatByte c.val (o.table + v i * rb + b) = s.flatByte c.val (o.dense + i * rb + b)) ∧
      (k = 0x1A → let w := (addForm o.whElem).2
        let at' := fun (u : State) (a : Nat) => leNat ((List.range (w / 8)).map fun j => u.flatByte c.val (a + j))
        ∀ i e, i < n → inTable i → e * (w / 8) < rb →
          at' s' (o.table + v i * rb + e * (w / 8)) =
            atomResult (addForm o.whElem).1 w (at' s (o.table + v i * rb + e * (w / 8)))
              (at' s (o.dense + i * rb + e * (w / 8))) 0 % 2 ^ w) ∧
      (k ≠ 0x18 → memKept c.val (fun a => ∃ i, i < n ∧ inTable i ∧ o.table + v i * rb ≤ a ∧ a < o.table + (v i + 1) * rb) s s') ∧
      (∀ r, (∀ st, r ≠ R.MEM_WHITTLE st) → s'.reg r = s.reg r) ∧ s'.outbox = s.outbox

/-- THERMAL_SAMPLE, PATROL_SCRUB_READ and WHITTLE_FLIT_TIMEOUT (R195, R207–R209, R212): a sample below 105 °C sets TEMP, doubles the refresh rate
from 85 °C and restores it below 82 °C, and moves STRETCH by one step from 95 °C up and below 92 °C at most once a millisecond; the scrub
goes on to the next granule, and a granule first found uncorrectable is marked and counted, and its row is remapped to a spare one and
recorded; the partly filled flit for one destination leaves. -/
def Obligations.HeatAndScrub : Prop :=
  (∀ (k : StackId) (temp : BitVec 8) (s : State),
    let t := temp.toInt
    let n := s.rd (F.MEM_STATUS_STRETCH k.val)
    let last := SMap.get (fun _ => 0) s.stretchAt k.val
    let may := last = 0 ∨ last - 1 + 1000000 ≤ s.now
    s.rd (F.MEM_STATUS_STATE k.val) ≠ 0 → s.rd (F.MEM_STATUS_STATE k.val) ≠ 3 → t < 105 →
    ∃ s', exec (.thermalSample k temp) s = .next s' ∧ s'.rd (F.MEM_STATUS_TEMP k.val) = temp.toNat ∧
      s'.rd (F.MEM_STATUS_REFRESH_2X k.val) =
        (if 85 ≤ t then 1 else if t < 82 then 0 else s.rd (F.MEM_STATUS_REFRESH_2X k.val)) ∧
      s'.rd (F.MEM_STATUS_STRETCH k.val) =
        (if 95 ≤ t ∧ n < 7 ∧ may then n + 1 else if t < 92 ∧ 0 < n ∧ may then n - 1 else n) ∧
      s'.rd (F.MEM_STATUS_STATE k.val) = s.rd (F.MEM_STATUS_STATE k.val) ∧ s'.devMem = s.devMem ∧ s'.ctxs = s.ctxs) ∧
  (∀ (ch : ChanId) (e : Ecc) (s : State),
    let x := s.chan ch.val
    let k := ch.val / 32
    let off := 32 * x.scrubPos
    x.clearing = false → s.rd (F.MEM_STATUS_STATE k) = 2 →
    (e = .clean → ∃ s', exec (.patrolScrubRead ch e) s = .next s' ∧
      (s'.chan ch.val).scrubPos = (if x.scrubPos + 1 < 100663296 then x.scrubPos + 1 else 0) ∧
      (s'.chan ch.val).passes = (if x.scrubPos + 1 < 100663296 then x.passes else x.passes + 1) ∧
      (∀ j, j ≠ ch.val → s'.chan j = s.chan j) ∧ (∀ r, r ≠ R.MEM_SCRUB k → s'.reg r = s.reg r) ∧
      s' = { s with chans := s'.chans, regs := s'.regs }) ∧
    (let row := rowOf ch.val off;
      e = .uncorrectable → s.marked ch.val off = false → x.retired = false → off / 65536 ∉ x.retFrames → x.spares < 256 → SMap.get (fun _ => 0) x.remaps row < 2 →
      ∃ s', exec (.patrolScrubRead ch e) s = .next s' ∧ s'.marked ch.val off = true ∧
        s'.rd (F.MEM_ECC_UE k (ch.val % 32)) = 1 ∧
        s'.rd (F.MEM_ECC_UE_CNT k (ch.val % 32)) = min (s.rd (F.MEM_ECC_UE_CNT k (ch.val % 32)) + 1) 65535 ∧
        s'.rd (F.MEM_REPAIR_SPARES_FREE k) = s.rd (F.MEM_REPAIR_SPARES_FREE k) - 1 ∧
        (s'.chan ch.val).spares = x.spares + 1 ∧ row ∈ (s'.chan ch.val).copying ∧
        SMap.get (fun _ => 0) (s'.chan ch.val).remaps row = SMap.get (fun _ => 0) x.remaps row + 1 ∧
        logged 0x8020 (srcStack k) ([byte k, byte ch.val] ++ leBytes row 4 ++
          [byte (SMap.get (fun _ => 0) x.remaps row + 1)]) s s' ∧ s'.devMem = s.devMem ∧ s'.ctxs = s.ctxs)) ∧
  ∀ (k : StackId) (dst : Fin 104) (s : State), ∃ s', exec (.whittleFlitTimeout { stack := k, dst := dst }) s = .next s' ∧
    SMap.get (fun _ => 0) s'.whFlits (k.val * 128 + dst.val) = 0 ∧
    (∀ j, j ≠ k.val * 128 + dst.val → SMap.get (fun _ => 0) s'.whFlits j = SMap.get (fun _ => 0) s.whFlits j) ∧
    s' = { s with whFlits := s'.whFlits }

/-! ### Translations, invalidations and page requests (chapters 07, 11) -/

/-- TRANSLATION_COMPLETION, INVALIDATE_REQUEST and INVALIDATE_COMPLETION (R217, R222–R225): a translation with the right becomes a held entry of
the stream that asked for it, and its request's slot is free; one that an invalidation has overtaken is discarded and asked for again; an
invalidation of a context in RUN raises its generation, removes what it covers from its cache and waits, and of any other completes at
once; it completes once no read under the old generation is outstanding. Stated with no operation at an engine, no ring read to be sent and no
request that waits. -/
def Obligations.TranslationsAndInvalidations : Prop :=
  ∀ (s : State), s.waiting = [] → (∀ e, e < 32 → (s.engine e).op = none) → noRun s →
    s.rd F.PWR_STATUS_STATE = 0 → s.power.move = none →
    (∀ (id q : Nat) (t : Trans) (r : AtsReq) (o : Op),
      s.atsReqs.find? (fun r => decide (r.id = id) && r.slot.isSome) = some r → r.dead = false → r.use = .op q →
      s.op? r.ctx q = some o → o.done = none → o.prefetch = false → s.ctxState r.ctx = 4 →
      let first := t.page / 2 ^ t.size.val * 2 ^ t.size.val
      (s.fresh r.ctx r.gen r.pi first (2 ^ t.size.val) = true →
        (if o.kind = 0x13 then t.rd && t.wr && (s.cfg (r.ctx + 1)).atomicEn else if o.hostDst then t.wr else t.rd) = true →
        ∃ s' o' e, exec (.translationCompletion id [t]) s = .next s' ∧ s'.op? r.ctx q = some o' ∧
          o'.held = (o.held ++ [e]).take 16 ∧ e.ta = t.ta ∧ e.size = t.size.val ∧ e.pi = r.pi ∧ e.rd = t.rd ∧ e.wr = t.wr ∧
          e.valid = true ∧ e.gen = r.gen ∧ e.page = t.page - o.hostBase / 4096 ∧
          (∀ x ∈ s'.atsReqs, x.id ≠ id) ∧ s'.devMem = s.devMem) ∧
      (s.fresh r.ctx r.gen r.pi first (2 ^ t.size.val) = false → (∀ x ∈ s.atsReqs, x.id ≠ s.nextReq) →
        ∃ s', exec (.translationCompletion id [t]) s = .next s' ∧ s'.ctxs = s.ctxs ∧ (∀ x ∈ s'.atsReqs, x.id ≠ id) ∧
          ∃ x ∈ s'.atsReqs, x.ctx = r.ctx ∧ x.pi = r.pi ∧ x.page = r.page ∧ x.n = r.n ∧ x.wr = r.wr ∧ x.use = r.use ∧
            x.dead = false)) ∧
    (∀ (fn : FnId) (tag : Nat) (pasid : Option (BitVec 20)) (lo hi : Nat) (glob : Bool),
      fn.val ≠ 0 → s.linkUp = true →
      let c := fn.val - 1
      (s.ctxState c = 4 → ∃ s' v, exec (.invalidateRequest fn tag pasid lo hi glob) s = .next s' ∧
        s'.gen c = (s.gen c + 1) % 2 ^ 48 ∧ s'.on F.XLT_STATUS_INV_BUSY = true ∧
        s'.invs = s.invs ++ [v] ∧ v.ctx = c ∧ v.tag = tag ∧ v.gen = s'.gen c ∧
        (glob = true → v.pi = none ∧ v.lo = lo ∧ v.hi = hi ∧
          ∀ e, e ∈ (s'.ctx c).cache ↔ e ∈ (s.ctx c).cache ∧ (e.page + 2 ^ e.size ≤ lo ∨ hi < e.page)) ∧
        (∀ d, d ≠ c → s'.ctx d = s.ctx d) ∧ (s'.ctx c).ops = (s.ctx c).ops ∧
        s' = { s with regs := s'.regs, ctxs := s'.ctxs, invs := s'.invs }) ∧
      (s.ctxState c ≠ 4 → ∃ s', exec (.invalidateRequest fn tag pasid lo hi glob) s = .next s' ∧
        s'.outbox = s.tlp (.invCompletion c tag) :: s.outbox ∧
        s'.rd F.XLT_COUNT_INV = (s.rd F.XLT_COUNT_INV + 1) % 2 ^ 24 ∧
        s' = { s with regs := s'.regs, outbox := s'.outbox, tls := s'.tls })) ∧
    (∀ (c : CtxId) (tag : Nat) (v : Inv),
      s.invs.find? (fun v => decide (v.ctx = c.val) && decide (v.tag = tag)) = some v →
      (s.invWaits v = true → exec (.invalidateCompletion c tag) s = .next s) ∧
      (s.invWaits v = false → ∃ s', exec (.invalidateCompletion c tag) s = .next s' ∧
        s'.outbox = s.tlp (.invCompletion c.val tag) :: s.outbox ∧ s'.invs = s.invs.erase v ∧
        s'.rd F.XLT_COUNT_INV = (s.rd F.XLT_COUNT_INV + 1) % 2 ^ 24 ∧
        s'.on F.XLT_STATUS_INV_BUSY = !(s.invs.erase v).isEmpty ∧
        s' = { s with regs := s'.regs, invs := s'.invs, outbox := s'.outbox, tls := s'.tls }))

/-- PRG_RESPONSE, PAGE_REQUEST_TIMEOUT, PRI_RESET, and HOST_COMPLETION and COMPLETION_TIMEOUT of an ATOMIC on host memory (R226, R228, R229, R237,
R240, R241, R345, R347, R348, R361): a Success makes the device ask for the translation again; a response that names no request awaiting one is
discarded and counted; at the timeout the entry is ABANDONED and its waiters leave, and a waiting context in RUN ends with its fault code where
that is CONTAINED; the reset of a VF's page request interface with none outstanding clears its stop. A completion with data ends the operation
with OK and the value returned; one with Unsupported Request or Completer Abort with its status; a timeout with its own status, and is
counted and recorded; the request is outstanding no more (stated with no operation at an engine, no ring read to be sent and no request that
waits). -/
def Obligations.PageRequestsAndHostAnswers : Prop :=
  (∀ (s : State), s.rd F.PWR_STATUS_STATE = 0 → s.power.move = none →
    (∀ (fn : FnId) (i : Fin 256),
      let c := s.rd (F.XLT_PFT0_CTX i.val)
      (s.pftState i.val = 2 → c + 1 = fn.val → s.answered i.val = false → s.pftWaiters i.val ≠ [] →
        (∀ r ∈ s.atsReqs, r.id ≠ s.nextReq) → s.pftSend = [] →
        ∃ s', exec (.prgResponse fn i.val .success) s = .next s' ∧ s'.pftState i.val = 2 ∧ s'.answered i.val = true ∧
          (∃ r ∈ s'.atsReqs, r.ctx = c ∧ r.pi = s.rd (F.XLT_PFT8_PI i.val) ∧ r.page = s.rd (F.XLT_PFT0_PAGE i.val) ∧
            r.use = .page i.val) ∧
          s'.pftWaiters i.val = s.pftWaiters i.val ∧ s'.ctxs = s.ctxs ∧ s'.devMem = s.devMem) ∧
      (∀ code, s.pftState i.val = 0 ∨ s.pftState i.val = 1 ∨ c + 1 ≠ fn.val →
        ∃ s', exec (.prgResponse fn i.val code) s = .next s' ∧
          s'.rd F.XLT_COUNT_PR_ORPHAN = min (s.rd F.XLT_COUNT_PR_ORPHAN + 1) 255 ∧
          (∀ k, k ≠ R.XLT_COUNT → s'.reg k = s.reg k) ∧ s' = { s with regs := s'.regs })) ∧
    (∀ (i : Fin 256), s.pftState i.val = 2 → s.answered i.val = false →
      (s.pftWaiters i.val = [] → ∃ s', exec (.pageRequestTimeout i) s = .next s' ∧ s'.pftState i.val = 3 ∧
        (∀ k, k ≠ R.XLT_PFT0 i.val → s'.reg k = s.reg k) ∧ s' = { s with regs := s'.regs, pft := s'.pft }) ∧
      (∀ w, s.pftWaiters i.val = [w] → w.ctx = s.rd (F.XLT_PFT0_CTX i.val) → s.endable w.ctx = true → s.classOf 0x000A = 1 → s.stopped = false →
        s.rd (F.SCH_STATUS_STATE (s.partOf w.ctx)) ≠ 4 →
        ∃ s', exec (.pageRequestTimeout i) s = .next s' ∧ s'.ctxState w.ctx = 5 ∧ s'.rd (F.CTX_STATE_FAULT w.ctx) = 0x000A ∧
          s'.pftWaiters i.val = [] ∧ (s'.ctx w.ctx).ops = [] ∧ s'.rd F.TLS_LAST_CODE = 0x000A)) ∧
    ∀ (fn : FnId), fn.val ≠ 0 → s.prOut (fn.val - 1) = 0 →
      ∃ s', exec (.priReset fn) s = .next s' ∧ s'.cfg fn.val = { s.cfg fn.val with priStopped := false } ∧
        (∀ j, j ≠ fn.val → s'.cfg j = s.cfg j) ∧ (∀ k, k ≠ R.XLT_STATUS → s'.reg k = s.reg k) ∧
        s' = { s with regs := s'.regs, hcfg := s'.hcfg }) ∧
  (∀ (s : State) (id q : Nat) (r : HostReq) (o : Op), s.waiting = [] → (∀ e, e < 32 → (s.engine e).op = none) → noRun s →
    s.hostReqs.find? (fun r => decide (r.id = id)) = some r → r.use = .atomic q → r.abandoned = false →
    s.op? r.ctx q = some o → o.kind = 0x13 → o.done = none → o.engine = none →
    (∀ data, ∃ s', exec (.hostCompletion id .ok data) s = .next s' ∧
      opEnds r.ctx q { status := stOK, detail := 0, value := fieldAt data 0 (widthBits o.atWidth / 8), ident := none } s s' ∧
      (∀ x ∈ s'.hostReqs, x.id ≠ id) ∧ s'.devMem = s.devMem) ∧
    (∀ (st : HostStatus) data, st = .unsupported ∨ st = .abort → ∃ s', exec (.hostCompletion id st data) s = .next s' ∧
      opEnds r.ctx q { status := 0x20, detail := if st = .unsupported then 1 else 2, value := 0, ident := none } s s' ∧
      (∀ x ∈ s'.hostReqs, x.id ≠ id) ∧ s'.devMem = s.devMem) ∧
    ∃ s', exec (.completionTimeout id) s = .next s' ∧
      opEnds r.ctx q { status := 0x21, detail := 0, value := 0, ident := none } s s' ∧
      (∀ x ∈ s'.hostReqs, x.id ≠ id) ∧
      s'.rd F.GLB_HEP_ERR_CPL_TIMEOUT = min (s.rd F.GLB_HEP_ERR_CPL_TIMEOUT + 1) 65535 ∧
      s'.rd F.GLB_HEP_LAST_ERR_KIND = 5 ∧ s'.on F.GLB_HEP_LAST_ERR_VALID = true ∧ s'.devMem = s.devMem)

/-! ### The on-die network (chapter 08) -/

/-- RD and WR at a tile (R257, R258, R267): to a request of the hub or of the context that holds the tile, a read of the bowl answers its
bytes, and a write stores its bytes in the operand ring, or in the accumulator banks, and acknowledges; a request of another context is
answered OWNER, counted and recorded, and touches nothing of the tile. -/
def Obligations.TileRequests : Prop :=
  ∀ (h : Flit) (e : E2e) (ecc : Ecc) (s : State),
    let t := h.dst.val
    let a := h.addr.toNat
    let n := flitLen h
    let owes := dueAt (4 * h.src.val + h.sag.val) (· + 1)
    t < 64 → h.dag.val = 0 → e ≠ .uncorrectable →
    ((s.sourceOf h).2 = true ∨ s.tileCtx t = some (s.sourceOf h).1 →
      (a < 2 ^ 22 → meshFree h 0 s → ∃ s', exec (.rd h e ecc) s = .next s' ∧
        answered h 0x08 0 ((List.range n).map fun i => (s.tile t).netRead (a + i)) s s' ∧ issued h [] s s' ∧ owes s s' ∧ e2eRegs e s s' ∧
        s' = { s with owed := s'.owed, tags := s'.tags, netBufs := s'.netBufs, bdls := s'.bdls, outbox := s'.outbox, regs := s'.regs }) ∧
      (a + n ≤ 0x300000 ∨ (2 ^ 22 ≤ a ∧ a < 2 ^ 23) → meshFree h 1 s → ∃ s', exec (.wr h e) s = .next s' ∧
        answered h 0x09 0 [] s s' ∧ issued h [] s s' ∧ owes s s' ∧ e2eRegs e s s' ∧
        (a < 2 ^ 22 → s'.tile t = { s.tile t with ring := (s'.tile t).ring } ∧
          ∀ x, SMap.get (fun _ => 0) (s'.tile t).ring x =
            if a ≤ x ∧ x < a + n then (flitBody h).getD (x - a) 0 else SMap.get (fun _ => 0) (s.tile t).ring x) ∧
        (2 ^ 22 ≤ a → s'.tile t = { s.tile t with accNet := (s'.tile t).accNet } ∧
          ∀ x d, SMap.get (fun _ => d) (s'.tile t).accNet x =
            if a ≤ x + 2 ^ 22 ∧ x + 2 ^ 22 < a + n then (flitBody h).getD (x + 2 ^ 22 - a) 0
            else SMap.get (fun _ => d) (s.tile t).accNet x) ∧
        (∀ j, j ≠ t → s'.tile j = s.tile j) ∧
        s' = { s with owed := s'.owed, tags := s'.tags, netBufs := s'.netBufs, bdls := s'.bdls, outbox := s'.outbox, regs := s'.regs,
                      tiles := s'.tiles })) ∧
    ((s.sourceOf h).2 = false → s.tileCtx t ≠ some (s.sourceOf h).1 → (∀ opc, opc < 3 → meshFree h opc s) →
      ∀ i, i = .rd h e ecc ∨ i = .wr h e ∨ i = .atom h e ecc →
      ∃ s', exec i s = .next s' ∧ answered h 0x0A 3 [] s s' ∧ issued h [] s s' ∧ s'.tiles = s.tiles ∧ s'.devMem = s.devMem ∧
        s'.rd F.NOC_OWN_VALID = 1 ∧ s'.rd F.NOC_OWN_SRC = h.src.val ∧ s'.rd F.NOC_OWN_SAG = h.sag.val ∧
        s'.rd F.NOC_OWN_CTX = (s.sourceOf h).1 ∧ s'.rd F.NOC_OWN_COUNT = min (s.rd F.NOC_OWN_COUNT + 1) (2 ^ 32 - 1) ∧
        logged 0x8041 (srcRouter t) [byte h.src.val, byte h.sag.val, byte (s.sourceOf h).1] s s')

/-- RD, WR, ATOM and RD_MC at a stack (R201, R203, R207, R209, R257–R259, R262, R267): a request of the hub or of the owner of a channel that
its attachment serves, with tokens in the byte bucket, on bytes that are served, not marked and on no row that is being copied, answers the
bytes, stores them, or performs the atomic; a multicast read leaves one copy due at each tile of its set. -/
def Obligations.StackRequests : Prop :=
  ∀ (h : Flit) (e : E2e) (s : State) (k : Nat) (att : Nat × Nat),
    let x := s.sourceOf h
    let l := h.addr.toNat / 2 ^ 32
    let ch := 32 * k + l
    let off := h.addr.toNat % 2 ^ 32
    let n := flitLen h
    let b := k * 256 + x.1
    let capped := decide (x.2 = false ∧ s.rd (F.MEM_REG_CTX_RATE k x.1) ≠ 0)
    let at' := fun (u : State) (i : Nat) => SMap.get memDefault u.devMem (memKey ch (s.physOff ch (off + i)))
    let drawn := fun (s s' : State) => ∀ j, s'.bucketDrawn j = s.bucketDrawn j + if capped = true ∧ j = b then n else 0
    let whole := fun (s s' : State) => ∀ j, s'.chan j = { s.chan j with cache := (s'.chan j).cache }
    let wrote := fun (s s' : State) => ∀ j, s'.chan j = { s.chan j with clean := (s.chan j).clean && decide (j ≠ ch), cache := (s'.chan j).cache }
    let owes := dueAt (4 * h.src.val + h.sag.val) (· + 1)
    stackOf h.dst.val = some (k, att) → h.dag.val = 0 → e ≠ .uncorrectable →
    l < 32 → att.1 ≤ l → l < att.1 + att.2 → off + n ≤ s.capFrames ch * 65536 →
    (x.2 = true ∨ s.ownerOf ch = some x.1) →
    (capped = true → s.bucketDrawn b + n ≤ s.byteDepth k x.1 ∧ ∀ w ∈ s.waiting, w.bucket ≠ b) →
    (∀ p ∈ pieces off n, s.rowHeld ch (s.physOff ch p.1) = false) →
    (∀ i, i < n → s.unserved ch (s.physOff ch (off + i)) = none ∧ s.marked ch (s.physOff ch (off + i)) = false) →
    (∀ i j, i < n → j < n → s.physOff ch (off + i) = s.physOff ch (off + j) → i = j) →
    (meshFree h 0 s → ∃ s', exec (.rd h e .clean) s = .next s' ∧
      answered h 0x08 0 ((List.range n).map (at' s)) s s' ∧ issued h [] s s' ∧ owes s s' ∧ drawn s s' ∧ whole s s' ∧ e2eRegs e s s' ∧
      s' = { s with owed := s'.owed, tags := s'.tags, netBufs := s'.netBufs, bdls := s'.bdls, outbox := s'.outbox, regs := s'.regs,
                    buckets := s'.buckets, chans := s'.chans }) ∧
    (meshFree h 3 s → ∃ s', exec (.rdMc h e .clean) s = .next s' ∧
      answered h 0x0B 0 ((List.range n).map (at' s)) s s' ∧ issued h (copiesOf h) s s' ∧
      (∀ j, SMap.get (fun _ => 0) s'.owed j =
        SMap.get (fun _ => 0) s.owed j + if ∃ t ∈ copiesOf h, j = 4 * t then 1 else 0) ∧ drawn s s' ∧ whole s s' ∧ e2eRegs e s s' ∧
      s' = { s with owed := s'.owed, tags := s'.tags, netBufs := s'.netBufs, bdls := s'.bdls, outbox := s'.outbox, regs := s'.regs,
                    buckets := s'.buckets, chans := s'.chans }) ∧
    (meshFree h 1 s → ∃ s', exec (.wr h e) s = .next s' ∧
      answered h 0x09 0 [] s s' ∧ issued h [] s s' ∧ owes s s' ∧ drawn s s' ∧ wrote s s' ∧ e2eRegs e s s' ∧
      (∀ i, i < n → at' s' i = (flitBody h).getD i 0) ∧
      (∀ y, (∀ i, i < n → y ≠ memKey ch (s.physOff ch (off + i))) →
        SMap.get memDefault s'.devMem y = SMap.get memDefault s.devMem y) ∧
      s' = { s with owed := s'.owed, tags := s'.tags, netBufs := s'.netBufs, bdls := s'.bdls, outbox := s'.outbox, regs := s'.regs,
                    buckets := s'.buckets, chans := s'.chans, devMem := s'.devMem, ueMarks := s'.ueMarks }) ∧
    let op := fieldAt h.data 16 1
    let w := widthBits (fieldAt h.data 17 1)
    let phys := s.physOff ch off
    let old := leNat (s.physRead ch phys (w / 8))
    atomOk op (fieldAt h.data 17 1) = true → off % (w / 8) = 0 → s.rowHeld ch phys = false → meshFree h 2 s →
    ∃ s', exec (.atom h e .clean) s = .next s' ∧
      answered h 0x08 0 (leBytes old (w / 8)) s s' ∧ issued h [] s s' ∧ owes s s' ∧ drawn s s' ∧ wrote s s' ∧ e2eRegs e s s' ∧
      leNat (s'.physRead ch phys (w / 8)) = atomResult op w old (fieldAt h.data 0 8) (fieldAt h.data 8 8) % 2 ^ w ∧
      (∀ y, y < memKey ch phys ∨ memKey ch phys + w / 8 ≤ y →
        SMap.get memDefault s'.devMem y = SMap.get memDefault s.devMem y) ∧
      s' = { s with owed := s'.owed, tags := s'.tags, netBufs := s'.netBufs, bdls := s'.bdls, outbox := s'.outbox, regs := s'.regs,
                    buckets := s'.buckets, chans := s'.chans, devMem := s'.devMem, ueMarks := s'.ueMarks }

/-- HRD, HWR and HATOM at the host endpoint (R216, R258, R343, R344, R352): from an agent other than a tile and the glue-up engines, a write
leaves for host memory and is acknowledged; a read, or an atomic of an operation and width that PCIe has, leaves when a reserved or an
allotted slot is free, and its answer stays due; a request of a tile or of the glue-up engines is turned away. -/
def Obligations.HostRequestsOverTheMesh : Prop :=
  ∀ (h : Flit) (e : E2e) (s : State),
    let c := (s.sourceOf h).1
    let a := fieldAt h.data 0 8
    let src := 4 * h.src.val + h.sag.val
    let p := s.partOf c
    let tagRegs := fun (s s' : State) =>
      ∀ k, k ≠ R.NOC_ERR → k ≠ R.NOC_LAST_ERR → k ≠ R.GLB_HEP_TAGS → k ≠ R.GLB_HEP_PART p → s'.reg k = s.reg k
    let leaves := fun (i : Instr) (o : Out) => ∃ s', exec i s = .next s' ∧ s'.outbox = s.tlp o :: s.outbox ∧
      (∃ r, s'.hostReqs = s.hostReqs ++ [r] ∧ r.id = s.nextReq ∧ r.ctx = c ∧
        r.use = .mesh { h with ctx := Fin.ofNat 256 c, hubtx := (s.sourceOf h).2 } ∧ r.abandoned = false) ∧
      s'.nextReq = s.nextReq + 1 ∧ issued h [] s s' ∧ dueAt src (· + 1) s s' ∧ wentOver h 0 s s' ∧ tagRegs s s' ∧
      s' = { s with owed := s'.owed, tags := s'.tags, bdls := s'.bdls, outbox := s'.outbox, regs := s'.regs, hostReqs := s'.hostReqs,
                    nextReq := s'.nextReq }
    h.dst.val = 91 → h.dag.val = 1 → e ≠ .uncorrectable → (∀ opc, 4 ≤ opc → opc ≤ 6 → meshFree h opc s) →
    (64 ≤ h.src.val → ¬ (h.src.val = 100 ∧ h.sag.val = 1) →
      (∃ s', exec (.hwr h e) s = .next s' ∧
        (let t := { s with outbox := s.tlp (.hostWrite c 0 a (slice h.data (128 + h.boff.val) (flitLen h))) :: s.outbox };
          answered h 0x09 0 [] t s') ∧ issued h [] s s' ∧ dueAt src (· + 1) s s' ∧ e2eRegs e s s' ∧
        s' = { s with owed := s'.owed, tags := s'.tags, netBufs := s'.netBufs, bdls := s'.bdls, outbox := s'.outbox, regs := s'.regs }) ∧
      (s.slotHeld c 1 = false ∨ s.rd (F.GLB_HEP_PART_USED p) < s.rd (F.GLB_HEP_PART_ALLOT p) →
        leaves (.hrd h e) (.hostRead s.nextReq c 0 a (flitLen h)) ∧
        (fieldAt h.data 24 1 ≤ 2 → fieldAt h.data 25 1 = 1 ∨ fieldAt h.data 25 1 = 2 →
          leaves (.hatom h e) (.hostAtomic s.nextReq c 0 a (fieldAt h.data 24 1) (widthBits (fieldAt h.data 25 1))
            (fieldAt h.data 8 8) (fieldAt h.data 16 8))))) ∧
    (h.src.val < 64 ∨ (h.src.val = 100 ∧ h.sag.val = 1) → ∀ i, i = .hwr h e ∨ i = .hrd h e ∨ i = .hatom h e →
      ∃ s', exec i s = .next s' ∧ answered h 0x0A 3 [] s s' ∧ s'.hostReqs = s.hostReqs)

/-- RSP_DATA, RSP_ACK, RSP_MC and RSP_ERR (R256, R259, R262, R272, R273, R313, R328): each ends its request, whose tag is free, but for
that of a multicast read, and lowers the count of responses due at its requester, but for that of a multicast read that failed, of which
no copy is due any more; an engaged proxy consumes it; a multicast copy lands in the tile's operand ring at its address; what is for a
die on a site leaves for it, unless the site is fenced; RSP_ERR with FENCED ends the operation that it served with MEM_ERROR and
DETAIL 3, and leaves nothing where it served none. -/
def Obligations.ResponsesArrive : Prop :=
  ∀ (h : Flit) (e : E2e) (s : State) (i : Instr) (opc : Nat),
    let r := h.dst.val
    let a := h.addr.toNat
    let agent := 4 * r + h.dag.val
    let u := s.tagOf h opc
    let dues := fun (s s' : State) =>
      ((∀ x, u = some x → x.tiles = []) → dueAt agent (· - 1) s s') ∧
      ∀ x, u = some x → x.tiles ≠ [] → x.tiles.Nodup → ∀ j, SMap.get (fun _ => 0) s'.owed j =
        SMap.get (fun _ => 0) s.owed j - if ∃ t ∈ x.tiles, j = 4 * t then 1 else 0
    let frees := fun (s s' : State) => (u = none → s'.tags = s.tags) ∧ (∀ x, u = some x → s'.tags = s.tags.erase x) ∧
      (opc = 0x0B → u = none) ∧ ∀ x, u = some x → x ∈ s.tags ∧ x.agent = agent ∧ x.tag = h.tag.toNat
    let went := fun (s s' : State) => ∃ p, (∀ x ∈ s.tags, x.agent = agent → x.tag = h.tag.toNat →
        (∀ y ∈ s.tags, y.agent = agent → y.tag = h.tag.toNat → y = x) → p = x.plane) ∧
      crossed (oneAt r h.dag.val p 1) (fun _ _ => 0) s s'
    (i = .rspData h e ∧ opc = 0x08) ∨ (i = .rspAck h e ∧ opc = 0x09) ∨ (i = .rspErr h e ∧ opc = 0x0A) ∨ (i = .rspMc h e ∧ opc = 0x0B) →
    s.inNetwork r opc h = none →
    (s.proxied r h.dag.val = true → (∀ x, u = some x → x.tiles = []) → ∃ s', exec i s = .next s' ∧ dueAt agent (· - 1) s s' ∧ frees s s' ∧
      s' = { s with owed := s'.owed, tags := s'.tags }) ∧
    (s.proxied r h.dag.val = false → e ≠ .uncorrectable →
      (siteAt r = none → (i = .rspData h e ∨ i = .rspAck h e ∨
          (i = .rspErr h e ∧ s.requesterOp r h.dag.val h.ctx.val = none)) →
        ∃ s', exec i s = .next s' ∧ dues s s' ∧ frees s s' ∧ went s s' ∧ e2eRegs e s s' ∧
          s' = { s with owed := s'.owed, tags := s'.tags, bdls := s'.bdls, regs := s'.regs }) ∧
      (∀ x, siteAt r = some x → i ≠ .rspMc h e → s.rd (F.CHK_STATUS_STATE x) ≠ 5 →
        ∃ s', exec i s = .next s' ∧ dues s s' ∧ frees s s' ∧ e2eRegs e s s' ∧
          s'.outbox = .siteAnswer x h.tag.toNat (decide (i = .rspErr h e)) (flitBody h) :: s.outbox ∧
          s' = { s with owed := s'.owed, tags := s'.tags, regs := s'.regs, outbox := s'.outbox }) ∧
      (i = .rspMc h e → r < 64 → a + flitLen h ≤ 0x300000 → ∃ s', exec i s = .next s' ∧ dueAt agent (· - 1) s s' ∧ frees s s' ∧
        e2eRegs e s s' ∧
        (∀ y, SMap.get (fun _ => 0) (s'.tile r).ring y =
          if a ≤ y ∧ y < a + flitLen h then (flitBody h).getD (y - a) 0 else SMap.get (fun _ => 0) (s.tile r).ring y) ∧
        s'.tile r = { s.tile r with ring := (s'.tile r).ring } ∧ (∀ j, j ≠ r → s'.tile j = s.tile j) ∧
        s' = { s with owed := s'.owed, regs := s'.regs, tiles := s'.tiles }) ∧
      (∀ q o, i = .rspErr h e → h.status.val = 4 → siteAt r = none → s.requesterOp r h.dag.val h.ctx.val = some q →
        s.op? h.ctx.val q = some o → o.done = none → ∃ s', exec i s = .next s' ∧ dues s s' ∧ frees s s' ∧
          ∀ o, s'.op? h.ctx.val q = some o →
            o.done = some { status := stMem, detail := 3, value := 0, ident := none }))

/-- CTL, CTL_ACK, LINK_FLIT_ARRIVAL, PROXY_RELEASE, BUCKET_TOKENS_READY and ROW_REMAP_COPY_DONE (R203, R209, R260, R263–R266, R272, R274,
R275): a control message that asks for it is acknowledged, with four at most outstanding to one destination; over a link the packet that its
output sends next leaves its router and stands in the buffers that its route names; a flit whose CRC fails is counted and stays, and the
sixteenth in a row fails the link, puts its plane into the saved settings and, at its default class, resets the device; a proxy is released
when nothing is due to its partition; tokens come in; and a copied row holds nothing back. -/
def Obligations.NetworkHousekeeping : Prop :=
  (∀ (h : Flit) (ack : Bool) (s : State),
    let k := ctlKey h false
    let n := SMap.get (fun _ => 0) s.ctlOut
    (meshNew h 0x10 s → ∃ s', exec (.ctl h ack) s = .next s' ∧
      (if n k < 4 then
        (ack = true → answered h 0x11 0 [] s s' ∧ ∀ j, SMap.get (fun _ => 0) s'.ctlOut j = if j = k then n k + 1 else n j) ∧
        (ack = false → wentOver h 2 s s' ∧ s' = { s with bdls := s'.bdls }) ∧
        s' = { s with outbox := s'.outbox, netBufs := s'.netBufs, bdls := s'.bdls, ctlOut := s'.ctlOut }
      else s' = s)) ∧
    (meshNew h 0x11 s → ∃ s', exec (.ctlAck h) s = .next s' ∧
      (∀ j, SMap.get (fun _ => 0) s'.ctlOut j = if j = ctlKey h true then n j - 1 else n j) ∧
      crossed (oneAt h.dst.val h.dag.val (s.planeOf h) 2) (fun _ _ => 0) s s' ∧
      s' = { s with ctlOut := s'.ctlOut, bdls := s'.bdls })) ∧
  (∀ (r : Fin 104) (p : Fin 6) (pl : Fin 4) (vn : Fin 3) (s : State),
    let l := s.link r.val p.val pl.val
    let recent := l.times.filter fun t => decide (s.now ≤ t + 1000000)
    let key := fun (r p pl : Nat) => r * 32 + p * 4 + pl
    let others := fun (s s' : State) => ∀ r' p' pl' : Nat, key r' p' pl' ≠ key r.val p.val pl.val → s'.link r' p' pl' = s.link r' p' pl'
    l.failed = false →
    (∀ u q, p.val ≠ 0 → farEnd r.val p.val = some (u, q) →
      (s.outputNext u q pl.val l = none → ∃ s', exec (.linkFlitArrival r p pl vn { ok := true, inj := none }) s = .next s' ∧
        s'.link r.val p.val pl.val = { l with row := 0 } ∧ others s s' ∧ s' = { s with links := s'.links }) ∧
      (∀ i f rest, s.outputNext u q pl.val l = some (i, f) → f.opc ≠ 0x0B → f.plane = pl.val → s.buf (bufKey u i pl.val f.cls) = f :: rest →
        let src := bufKey u i pl.val f.cls
        let dest := bufKey r.val p.val pl.val f.cls
        ∃ s', exec (.linkFlitArrival r p pl vn { ok := true, inj := none }) s = .next s' ∧ unicastPort u f.hdr.dst.val = q ∧
          (s'.link r.val p.val pl.val).kept = (f :: l.kept).take 32 ∧ (s'.link r.val p.val pl.val).row = 0 ∧ others s s' ∧
          s'.buf src = rest ∧ s'.buf dest = s.buf dest ++ [f] ∧ (∀ k, k ≠ src → k ≠ dest → s'.buf k = s.buf k) ∧
          s' = { s with links := s'.links, netBufs := s'.netBufs })) ∧
    (∀ (opc : Fin 32) (h : Flit), p.val = 0 → opc.val < 7 → opc.val ≠ 3 → h.src.val = r.val → agentAt r.val h.sag.val = true →
      s.planeOf h = pl.val → s.hasCredit (bufKey r.val 0 pl.val 0) = true → s.proxied r.val h.sag.val = false →
      s.mayIssue h opc.val = true → (s.sourceOf h).2 = true ∨ s.rd (F.NOC_REG_CTX_RATE (s.sourceOf h).1) = 0 →
      let f : NetFlit := { hdr := { h with ctx := Fin.ofNat 256 (s.sourceOf h).1, hubtx := (s.sourceOf h).2 }, opc := opc.val, plane := pl.val }
      ∃ s', exec (.linkFlitArrival r p pl vn { ok := true, inj := some (opc, h) }) s = .next s' ∧ issued h [] s s' ∧
        dueAt (4 * r.val + h.sag.val) (· + 1) s s' ∧ crossed (fun _ _ => 0) (oneAt r.val h.sag.val pl.val 0) s s' ∧
        s'.outbox = .flit f :: s.outbox ∧
        (∀ k, s'.buf k = s.buf k ++ if k = bufKey r.val 0 pl.val 0 then [f] else []) ∧
        s' = { s with owed := s'.owed, tags := s'.tags, netBufs := s'.netBufs, bdls := s'.bdls, outbox := s'.outbox }) ∧
    (p.val = 0 ∨ (farEnd r.val p.val).isSome = true →
      (l.row + 1 < 16 → recent.length < 1023 → ∃ s', exec (.linkFlitArrival r p pl vn { ok := false, inj := none }) s = .next s' ∧
        (s'.link r.val p.val pl.val).row = l.row + 1 ∧ (s'.link r.val p.val pl.val).failed = false ∧
        (s'.link r.val p.val pl.val).kept = l.kept ∧ others s s' ∧
        s'.rd F.NOC_ERR_REPLAY = min (s.rd F.NOC_ERR_REPLAY + 1) (2 ^ 32 - 1) ∧ s'.rd F.NOC_LAST_ERR_KIND = 0 ∧
        s'.rd F.NOC_LAST_ERR_ROUTER = r.val ∧ (∀ j, j ≠ R.NOC_ERR → j ≠ R.NOC_LAST_ERR → s'.reg j = s.reg j) ∧
        s' = { s with links := s'.links, regs := s'.regs }) ∧
      (l.row + 1 = 16 ∨ 1023 ≤ recent.length → s.classOf 0x0401 = 3 → s.stopped = false →
        ∃ s', exec (.linkFlitArrival r p pl vn { ok := false, inj := none }) s = .next s' ∧ deviceWasReset s' ∧
          s'.saved.planesOut.testBit pl.val = true))) ∧
  (∀ (p : PartId) (s : State),
    (s.part p.val).proxy = true → (s.part p.val).rejoin = true →
    (s.dueTo p.val = 0 → ∃ s', exec (.proxyRelease p) s = .next s' ∧
      s'.part p.val = { s.part p.val with proxy := false, rejoin := false } ∧ (∀ j, j ≠ p.val → s'.part j = s.part j) ∧
      s'.rd (F.SCH_STATUS_STATE p.val) = 1 ∧
      (∀ j, j < 8 → (s'.rd F.NOC_STATUS_PROXY).testBit j = ((s.rd F.NOC_STATUS_PROXY).testBit j && decide (j ≠ p.val))) ∧
      (∀ j, j < 8 →
        (s'.rd F.TLS_STATUS_PART_RESETTING).testBit j = ((s.rd F.TLS_STATUS_PART_RESETTING).testBit j && decide (j ≠ p.val))) ∧
      (∀ j, j ≠ R.NOC_STATUS → j ≠ R.SCH_STATUS p.val → j ≠ R.TLS_STATUS → s'.reg j = s.reg j) ∧
      s' = { s with regs := s'.regs, parts := s'.parts }) ∧
    (s.dueTo p.val ≠ 0 → exec (.proxyRelease p) s = .next s)) ∧
  (∀ (b : BucketId) (n : Nat) (s : State), (∀ w ∈ s.waiting, w.bucket ≠ BucketId.key b) →
    ∃ s', exec (.bucketTokensReady b n) s = .next s' ∧
      (∀ j, s'.bucketDrawn j = if j = BucketId.key b then s.bucketDrawn j - n else s.bucketDrawn j) ∧
      s' = { s with buckets := s'.buckets }) ∧
  ∀ (ch : ChanId) (row : Nat) (s : State), row ∈ (s.chan ch.val).copying → (s.chan ch.val).queue = [] → (s.chan ch.val).credits = 0 →
    (∀ w ∈ s.waiting, w.bucket ≠ chanKey ch.val) →
    ∃ s', exec (.rowRemapCopyDone ch row) s = .next s' ∧
      s'.chan ch.val = { s.chan ch.val with copying := (s.chan ch.val).copying.erase row } ∧
      (∀ j, j ≠ ch.val → s'.chan j = s.chan j) ∧ s' = { s with chans := s'.chans }

/-! ### The host endpoint (chapter 11) -/

/-- CONFIGURATION_WRITE, LOCKED_CONFIG_CHANGE, MSIX_UNMASK, VF_ENABLE_CHANGE and FUNCTION_LEVEL_RESET (R336, R338, R343, R347, R356, R362,
R363, R365): a write sets its field of the function's configuration space, and nothing else; one that breaks a condition of a locked
interface ends the context with TDISP_ERROR where that is CONTAINED, and a locked table is not written; one of a VF's MSI-X table while its
window is closed is an unsupported request; a vector whose mask clears sends what it held back; VFs that are removed, and a function that is reset, return to their reset values. -/
def Obligations.ConfigurationSpaces : Prop :=
  (∀ (fn : FnId) (what : CfgField) (v : Nat) (s : State),
    let c := fn.val - 1
    let x := s.cfg fn.val
    let locked := fn.val ≠ 0 ∧ (s.ctx c).tdiLocked = true ∧ s.endable c = true
    let same := fun (i : Instr) => ∃ s', exec i s = .next s' ∧
      s'.cfg fn.val = { cfgAfter fn.val what v x with pending := (s'.cfg fn.val).pending } ∧
      (∀ j, j ≠ fn.val → s'.cfg j = s.cfg j) ∧ (x.pending = 0 → (s'.cfg fn.val).pending = 0 ∧ s'.outbox = s.outbox) ∧
      (what = .busMaster → (s'.cfg fn.val).bme = decide (v ≠ 0)) ∧ (what = .msixEnable → (s'.cfg fn.val).msixEn = decide (v ≠ 0)) ∧
      (what = .atsEnable → (s'.cfg fn.val).atsEn = if fn.val = 0 then x.atsEn else decide (v ≠ 0)) ∧
      (what = .pasidEnable → (s'.cfg fn.val).pasidEn = if fn.val = 0 then decide (v ≠ 0) else x.pasidEn) ∧
      (what = .completionTimeout → fn.val = 0 → 50 ≤ v → v ≤ 4000000 → (s'.cfg fn.val).ctoUs = v) ∧
      s' = { s with hcfg := s'.hcfg, outbox := s'.outbox };
    let broken := fun (i : Instr) => contains 0x000E c s → ∃ s', exec i s = .next s' ∧ endsFaulted 0x000E c s';
    let shut := inTable what = true ∧ fn.val ≠ 0 ∧ s.windowOpen c 0x8000 false false = false
    let refused := fun (i : Instr) => ∃ s', exec i s = .next s' ∧ errorNoted 1 fn.val (fnCtx fn.val) s s' ∧
      s' = { s with regs := s'.regs, hcfg := s'.hcfg, outbox := s'.outbox };
    s.fnEnabled fn.val = true → s.pftSend = [] → (∀ i, i < 256 → s.pftState i ≠ 1) →
    (¬ (locked ∧ inTable what = true ∧ (s.ctx c).lockMsix = true) → shut →
      refused (.configurationWrite fn what v) ∧ ∀ d : CtxId, d.val + 1 = fn.val → refused (.lockedConfigChange d what v)) ∧
    (¬ shut → (¬ locked ∨ (breaksLock x what v = false ∧ ¬ (inTable what = true ∧ (s.ctx c).lockMsix = true))) →
      same (.configurationWrite fn what v) ∧ ∀ d : CtxId, d.val + 1 = fn.val → same (.lockedConfigChange d what v)) ∧
    (locked → breaksLock x what v = true ∨ (inTable what = true ∧ (s.ctx c).lockMsix = true) →
      broken (.configurationWrite fn what v) ∧ ∀ d : CtxId, d.val + 1 = fn.val → broken (.lockedConfigChange d what v))) ∧
  (∀ (fn : FnId) (s : State),
    let x := s.cfg fn.val
    let holds := fun v => x.pending.testBit v = true ∧ x.bme = true ∧ x.msixEn = true
    (∀ v : Fin 8, ∃ s', exec (.msixUnmask fn (some v)) s = .next s' ∧
      let sends := holds v.val ∧ x.msixMask = false
      (∀ j, (s'.cfg fn.val).vector j = if j = v.val then { x.vector j with mask := false } else x.vector j) ∧
      (∀ j, (s'.cfg fn.val).pending.testBit j = true ↔ x.pending.testBit j = true ∧ ¬ (sends ∧ j = v.val)) ∧
      (sends ∧ s.linkUp = true ∧ s.fnEnabled fn.val = true ∧ (x.vector v.val).addr ≠ 0 →
        s'.outbox = s.tlp (.msix fn.val v.val) :: s.outbox) ∧
      (¬ (sends ∧ s.linkUp = true ∧ s.fnEnabled fn.val = true ∧ (x.vector v.val).addr ≠ 0) → s'.outbox = s.outbox) ∧
      s'.cfg fn.val = { x with table := (s'.cfg fn.val).table, pending := (s'.cfg fn.val).pending } ∧
      (∀ j, j ≠ fn.val → s'.cfg j = s.cfg j) ∧ s' = { s with hcfg := s'.hcfg, outbox := s'.outbox }) ∧
    ∃ s', exec (.msixUnmask fn none) s = .next s' ∧ (s'.cfg fn.val).msixMask = false ∧
      (∀ j, j < 8 → ((s'.cfg fn.val).pending.testBit j = true ↔
        x.pending.testBit j = true ∧ ¬ (holds j ∧ (x.vector j).mask = false))) ∧
      s'.cfg fn.val = { x with msixMask := false, pending := (s'.cfg fn.val).pending } ∧
      (∀ j, j ≠ fn.val → s'.cfg j = s.cfg j) ∧ s' = { s with hcfg := s'.hcfg, outbox := s'.outbox }) ∧
  (∀ (en : Bool) (num : Fin 257) (s : State),
    let goes := fun j => 1 ≤ j ∧ j ≤ 256 ∧ s.fnEnabled j = true ∧ ¬ (en = true ∧ j ≤ num.val)
    (∀ j, goes j → s.ctxState (j - 1) < 3) → ∃ s', exec (.vfEnableChange en num) s = .next s' ∧
      s'.cfg 0 = { s.cfg 0 with vfEn := en, numVfs := num.val } ∧
      (∀ j, j ≠ 0 → (goes j → s'.cfg j = FnCfg.init ∧ ∀ k, keyFn k = j → s'.reg k = regReset k) ∧
        (¬ goes j → s'.cfg j = s.cfg j ∧ ∀ k, keyFn k = j → s'.reg k = s.reg k)) ∧
      s'.rd F.GLB_HEP_STATUS_VF_EN = b2n en ∧ s'.rd F.GLB_HEP_STATUS_NUMVFS = (if en then num.val else 0) ∧
      (∀ k, keyFn k = 0 → k ≠ R.GLB_HEP_STATUS → k ≠ R.XLT_STATUS → s'.reg k = s.reg k) ∧
      s' = { s with regs := s'.regs, hcfg := s'.hcfg }) ∧
  ∀ (fn : FnId) (s : State),
    (fn.val ≠ 0 → s.fnEnabled fn.val = true → s.ctxState (fn.val - 1) < 3 →
      ∃ s', exec (.functionLevelReset fn) s = .next s' ∧ s'.cfg fn.val = FnCfg.init ∧ (∀ j, j ≠ fn.val → s'.cfg j = s.cfg j) ∧
        (∀ k, k ≠ R.XLT_STATUS → s'.reg k = if keyFn k = fn.val then regReset k else s.reg k) ∧
        s' = { s with regs := s'.regs, hcfg := s'.hcfg }) ∧
    (fn.val = 0 → (s.cfg 0).vfEn = false → ∃ s', exec (.functionLevelReset fn) s = .next s' ∧
      s'.cfg 0 = { FnCfg.init with table := (s.cfg 0).table, pending := (s.cfg 0).pending } ∧ (∀ j, j ≠ 0 → s'.cfg j = s.cfg j) ∧
      s'.rd F.GLB_HEP_STATUS_VF_EN = 0 ∧ s'.rd F.GLB_HEP_STATUS_NUMVFS = 0 ∧
      (∀ k, k ≠ R.GLB_HEP_STATUS → s'.reg k = s.reg k) ∧ s' = { s with regs := s'.regs, hcfg := s'.hcfg })

/-- UNSUPPORTED_REQUEST, MALFORMED_TLP, UNEXPECTED_COMPLETION, POISONED_TLP and IDE_CHECK_FAILED (R348, R349, R353): each is counted and noted;
an unsupported request that is not posted is answered; a poisoned request to PF0 is recorded, and one to a VF ends a context in
LOCKED or RUN where its code is CONTAINED; a failed check puts a Secure stream into Insecure and ends the context that it serves. The
black-box code of a poisoned request to PF0 is a free value of the model (log entry 4). -/
def Obligations.EndpointErrors : Prop :=
  ∀ (fn : FnId) (s : State),
    let c := fn.val - 1
    (∀ posted : Bool, ∃ s', exec (.unsupportedRequest fn posted) s = .next s' ∧ errorNoted 1 fn.val (fnCtx fn.val) s s' ∧
      s'.rd F.GLB_HEP_ERR_UR_SENT = min (s.rd F.GLB_HEP_ERR_UR_SENT + 1) 65535 ∧
      (posted = false → ∃ l, s'.outbox = s.tlp (.completion fn.val .ur 0) :: l) ∧
      (∀ k, k ≠ R.GLB_HEP_ERR → k ≠ R.GLB_HEP_LAST_ERR → s'.reg k = s.reg k) ∧
      s' = { s with regs := s'.regs, hcfg := s'.hcfg, outbox := s'.outbox }) ∧
    (∃ s', exec (.malformedTlp fn) s = .next s' ∧ errorNoted 2 fn.val (fnCtx fn.val) s s' ∧
      s' = { s with regs := s'.regs, hcfg := s'.hcfg, outbox := s'.outbox }) ∧
    (∃ s', exec (.unexpectedCompletion fn) s = .next s' ∧ errorNoted 6 fn.val (fnCtx fn.val) s s' ∧
      s' = { s with regs := s'.regs, hcfg := s'.hcfg, outbox := s'.outbox }) ∧
    (fn.val ≠ 0 → s.endable c = false → ∃ s', exec (.poisonedTlp fn none) s = .next s' ∧ errorNoted 3 fn.val (some c) s s' ∧
      s'.rd F.GLB_HEP_ERR_POISON_RX = min (s.rd F.GLB_HEP_ERR_POISON_RX + 1) 65535 ∧
      s' = { s with regs := s'.regs, hcfg := s'.hcfg, outbox := s'.outbox }) ∧
    (fn.val ≠ 0 → contains 0x000B c s → ∃ s', exec (.poisonedTlp fn none) s = .next s' ∧ endsFaulted 0x000B c s') ∧
    (fn.val = 0 → ∃ s', exec (.poisonedTlp fn none) s = .next s' ∧ s'.rd F.GLB_HEP_LAST_ERR_KIND = 3 ∧
      logged (Config.eventCode 0).toNat (srcHost 0) [] s s' ∧ s'.ctxs = s.ctxs ∧ s'.devMem = s.devMem) ∧
    ∀ (t : Fin 256),
      let x := s.stream t.val
      (x.secure = false → exec (.ideCheckFailed t) s = .next s) ∧
      (x.secure = true → (∀ d, x.ctx = some d → s.endable d = false ∧ d < 256) → ∃ s', exec (.ideCheckFailed t) s = .next s' ∧
        s'.stream t.val = { x with secure := false } ∧ (∀ j, j ≠ t.val → s'.stream j = s.stream j) ∧
        s'.rd F.GLB_HEP_ERR_IDE_FAIL = min (s.rd F.GLB_HEP_ERR_IDE_FAIL + 1) 255 ∧ s'.rd F.GLB_HEP_LAST_ERR_KIND = 7 ∧
        (∀ d, x.ctx = some d → s'.rd (F.GLB_HEP_STRM_SECURE d) = 0) ∧
        s' = { s with regs := s'.regs, hcfg := s'.hcfg, outbox := s'.outbox, streams := s'.streams }) ∧
      (∀ d, d < 256 → x.secure = true → x.ctx = some d → contains 0x000D d s →
        ∃ s', exec (.ideCheckFailed t) s = .next s' ∧ endsFaulted 0x000D d s' ∧ (s'.stream t.val).secure = false)

/-- The TDISP requests in an open session (R279–R281, R355–R357): versions, capabilities, state and report are answered; a lock whose checks
pass takes the context to LOCKED with a fresh nonce, and is refused where bus mastering is off, the stream not Secure or the P2P flag set; a
start with the nonce of the lock takes it to RUN, where the hub's word can be written; a stop ends it, and is refused in a state that the table does not list. Message codes
and flag bits are those of the standard (the model's, log entry 13). -/
def Obligations.TdispMessages : Prop :=
  ∀ (ses : Nat) (c : CtxId) (s : State), openSession ses s →
    let quick := fun (i : Instr) (code : Nat) (data : List Byte) => ∃ s', exec i s = .next s' ∧
      tdispAnswered c.val code data s s' ∧ s' = { s with outbox := s'.outbox, doe := s'.doe }
    quick (.getTdispVersion ses c) 0x01 [1, 0x10] ∧
    quick (.getTdispCapabilities ses c) 0x02 (Config.standardReply [0x02] []) ∧
    quick (.getDeviceInterfaceState ses c) 0x05 [byte (s.rd (F.CTX_STATE_TDI c.val))] ∧
    (∀ off len, let part := ((s.ifaceReport c.val).drop off).take len;
      (s.endable c.val = true → quick (.getDeviceInterfaceReport ses c off len) 0x04
        (leBytes part.length 2 ++ leBytes ((s.ifaceReport c.val).length - off - part.length) 2 ++ part)) ∧
      (s.endable c.val = false → quick (.getDeviceInterfaceReport ses c off len) tdispError [])) ∧
    (∀ (t : Fin 256) (flags : BitVec 16),
      (s.tdispLockOk c.val t.val flags = true → ∃ s' nonce, exec (.lockInterfaceRequest ses c t flags) s = .next s' ∧
        nonce.length = 32 ∧ tdispAnswered c.val 0x03 nonce s s' ∧ s'.ctxState c.val = 3 ∧ s'.rd (F.CTX_STATE_TDI c.val) = 1 ∧
        s'.ctx c.val = { s.ctx c.val with lockTime := s.now, tdiLocked := true, nonce := nonce, lockMsix := flags.getLsbD 2 } ∧
        (∀ d, d ≠ c.val → s'.ctx d = s.ctx d) ∧ (∀ k, k ≠ R.CTX_STATE c.val → s'.reg k = s.reg k) ∧
        (∃ y ∈ s'.sessions, y.id = ses ∧ y.mctp = false ∧ y.tdi = some c.val) ∧
        s' = { s with regs := s'.regs, ctxs := s'.ctxs, sessions := s'.sessions, freeCtr := s'.freeCtr, outbox := s'.outbox,
                      doe := s'.doe }) ∧
      (s.ctxState c.val ≠ 2 ∨ (s.cfg (c.val + 1)).bme = false ∨ (s.stream t.val).secure = false ∨
          (s.stream t.val).ctx ≠ some c.val ∨ flags.getLsbD 3 = true →
        quick (.lockInterfaceRequest ses c t flags) tdispError [])) ∧
    (∀ nonce,
      (s.ctxState c.val = 3 → (s.ctx c.val).tdiLocked = true → (s.ctx c.val).nonce = nonce →
        (s.rd F.TLS_STATUS_PART_DOWN).testBit (s.partOf c.val) = false →
        (s.on (F.CTXW_RING_WORDS_SPACE c.val) = true ∨ (flatServes s c.val ∧ s.inRange c.val (s.wordsAddr c.val) 16 = true)) →
        ∃ s' l, exec (.startInterfaceRequest ses c nonce) s = .next s' ∧ s'.outbox = .tdisp c.val 0x06 [] :: l ∧
          s'.doe.busy = false ∧ s'.ctxState c.val = 4 ∧ s'.rd (F.CTX_STATE_TDI c.val) = 2) ∧
      (s.ctxState c.val ≠ 3 ∨ (s.ctx c.val).nonce ≠ nonce →
        quick (.startInterfaceRequest ses c nonce) tdispError [])) ∧
    (s.endable c.val = true → (s.ctx c.val).stopPending = false →
      ∃ s', exec (.stopInterfaceRequest ses c) s = .next s' ∧ s'.rd (F.CTX_STATE_TDI c.val) = 0 ∧
        s'.ctxState c.val = (if s'.on (F.CTX_STATE_SCRUB c.val) then 6 else 2) ∧ (s'.ctx c.val).ops = [] ∧
        (s'.ctx c.val).tdiLocked = false ∧ ∃ l, s'.outbox = .tdisp c.val 0x07 [] :: l) ∧
    (s.ctxState c.val = 5 → s.on (F.CTX_STATE_SCRUB c.val) = false →
      ∃ s', exec (.stopInterfaceRequest ses c) s = .next s' ∧ tdispAnswered c.val 0x07 [] s s' ∧ s'.ctxState c.val = 2 ∧
        s'.rd (F.CTX_STATE_TDI c.val) = 0 ∧ (∀ k, k ≠ R.CTX_STATE c.val → s'.reg k = s.reg k) ∧
        s' = { s with regs := s'.regs, outbox := s'.outbox, doe := s'.doe }) ∧
    (s.ctxState c.val < 3 ∨ 5 < s.ctxState c.val → quick (.stopInterfaceRequest ses c) tdispError [])

/-- IDE_KM, DOE_OBJECT and DOE_ABORT (R351, R352, R358): a key goes into its place of the stream; a start binds the stream to the context of
the one function that it names, Secure when its key set is complete, and the context that it served before shows it no longer; a set that is not complete is not used; a stop erases the
stream, and ends a context that it serves under a lock; an object goes to Heartwood, and one that is too long or that comes while one is
served sets the error, which an abort clears. -/
def Obligations.IdeAndDoe : Prop :=
  (∀ (ses : Nat) (t : Fin 256) (s : State), openSession ses s →
    let x := s.stream t.val
    let ack := Out.doeObject false (Config.standardReply [byte 3, byte t.val] [])
    let quick := fun (op : IdeOp) (y : Stream) => ∃ s', exec (.ideKm ses t op) s = .next s' ∧ s'.outbox = ack :: s.outbox ∧
      s'.doe = { s.doe with busy := false } ∧ s'.stream t.val = { y with keys := (s'.stream t.val).keys } ∧
      (∀ k, SMap.get (fun _ => []) (s'.stream t.val).keys k = SMap.get (fun _ => []) y.keys k) ∧
      (∀ j, j ≠ t.val → s'.stream j = s.stream j) ∧
      (∀ k, (∀ d, x.ctx = some d ∨ y.ctx = some d → k ≠ R.GLB_HEP_STRM d) → s'.reg k = s.reg k) ∧
      (∀ d, x.ctx = some d → y.ctx ≠ some d → s.rd (F.GLB_HEP_STRM_STREAM_ID d) = t.val →
        s'.rd (F.GLB_HEP_STRM_BOUND d) = 0 ∧ s'.rd (F.GLB_HEP_STRM_SECURE d) = 0) ∧
      (∀ d, x.ctx = some d → y.ctx ≠ some d → s.rd (F.GLB_HEP_STRM_STREAM_ID d) ≠ t.val →
        s'.reg (R.GLB_HEP_STRM d) = s.reg (R.GLB_HEP_STRM d)) ∧
      (∀ d, y.ctx = some d → op ≠ .setGo 0 → op ≠ .setGo 1 → (∀ a b tx key, op ≠ .program a b tx key) →
        s'.rd (F.GLB_HEP_STRM_SECURE d) = b2n y.secure ∧ s'.rd (F.GLB_HEP_STRM_BOUND d) = 1 ∧
          s'.rd (F.GLB_HEP_STRM_STREAM_ID d) = t.val) ∧
      s' = { s with outbox := s'.outbox, doe := s'.doe, streams := s'.streams, regs := s'.regs };
    (∀ sub set tx key, quick (.program sub set tx key)
      { x with keys := SMap.put (fun _ => []) x.keys (4 * sub.val + 2 * set.val + b2n tx) key }) ∧
    (∀ base limit bar, quick (.start base limit bar)
      { x with ctx := if bar = true ∧ base = limit ∧ 1 ≤ base.val then some (base.val - 1) else none,
               secure := x.complete x.keyset }) ∧
    (∀ set, x.complete set.val = true → quick (.setGo set) { x with keyset := set.val }) ∧
    (∀ set, x.complete set.val = false → quick (.setGo set) x) ∧
    ((∀ d, x.ctx = some d → (s.ctx d).tdiLocked = false ∨ s.endable d = false) →
      quick .stop { x with secure := false, keys := [] }) ∧
    (∀ d, d < 256 → x.ctx = some d → (s.ctx d).tdiLocked = true → contains 0x000E d s →
      ∃ s', exec (.ideKm ses t .stop) s = .next s' ∧ endsFaulted 0x000E d s' ∧ (s'.stream t.val).secure = false)) ∧
  (∀ (len typ : Nat) (data : List Byte) (s : State), ∃ s', exec (.doeObject len typ data) s = .next s' ∧
    s'.doe = (if 65536 < len ∨ s.doe.busy = true then { s.doe with error := true }
      else if typ = 1 ∨ typ = 2 then { s.doe with busy := true } else s.doe) ∧
    (len ≤ 65536 → s.doe.busy = false → typ = 0 → ∃ bs, s'.outbox = .doeObject false bs :: s.outbox) ∧
    s' = { s with doe := s'.doe, outbox := s'.outbox }) ∧
  ∀ s : State, ∃ s', exec .doeAbort s = .next s' ∧ s' = { s with doe := { busy := false, error := false } }

/-- HOST_LINK_DOWN, PERST_ASSERT, PERST_DEASSERT, HOST_LINK_UP and LINK_L1_EXIT (R366–R368, R489, R491): a link that goes down abandons every
request, erases every stream, and resets the configuration spaces and the mailbox, and a request from the mesh is answered; PERST# does the
same and resets the endpoint's registers; the link comes up with its speed and width where PERST# is high and the endpoint is on; an L1 exit
below L0 Run begins an exit, from L4 Shelf with PD3 on. Stated with no context in LOCKED or RUN for the link's resets. -/
def Obligations.HostLink : Prop :=
  ∀ s : State,
    let gone := fun (s' : State) =>
      s'.hostReqs = [] ∧ s'.atsReqs = [] ∧ s'.invs = [] ∧ s'.hcfg = [] ∧ s'.doe = { busy := false, error := false } ∧
      (∀ j, (s'.stream j).secure = false ∧ (s'.stream j).keys = []) ∧ s'.on F.GLB_HEP_STATUS_LINK_UP = false ∧
      s'.rd F.GLB_HEP_TAGS_RSV_USED = 0 ∧ s'.rd F.GLB_HEP_TAGS_POOL_USED = 0 ∧ s'.on F.XLT_STATUS_INV_BUSY = false ∧
      (∀ p, p < 8 → s'.rd (F.GLB_HEP_PART_USED p) = 0 ∧ s'.rd (F.GLB_HEP_PART_ALLOT p) = s.rd (F.GLB_HEP_PART_ALLOT p)) ∧
      ∀ r ∈ s.hostReqs, ∀ h, r.use = .mesh h → ∃ f : NetFlit, Out.flit f ∈ s'.outbox ∧ f.opc = 0x0A ∧ f.hdr.dst = h.src ∧
        f.hdr.dag = h.sag ∧ f.hdr.tag = h.tag ∧ f.hdr.status.val = 6
    ((∀ c, c < 256 → s.endable c = false) → (∀ j d, (s.stream j).ctx = some d → d < 256) →
      (s.on F.GLB_HEP_STATUS_LINK_UP = true → ∃ s', exec .hostLinkDown s = .next s' ∧ gone s' ∧
        s' = { s with regs := s'.regs, hostReqs := s'.hostReqs, atsReqs := s'.atsReqs, invs := s'.invs, doe := s'.doe,
                      streams := s'.streams, hcfg := s'.hcfg, outbox := s'.outbox, netBufs := s'.netBufs, bdls := s'.bdls }) ∧
      ∃ s', exec .perstAssert s = .next s' ∧ gone s' ∧ s'.rd F.GLB_HEP_TAGS_PEAK = 0 ∧
        (∀ k, k = R.GLB_HEP_STATUS ∨ k = R.GLB_HEP_ERR ∨ k = R.GLB_HEP_LAST_ERR ∨ (∃ c, c < 256 ∧ k = R.GLB_HEP_STRM c) →
          s'.reg k = regReset k) ∧
        s' = { s with regs := s'.regs, hostReqs := s'.hostReqs, atsReqs := s'.atsReqs, invs := s'.invs, doe := s'.doe,
                      streams := s'.streams, hcfg := s'.hcfg, outbox := s'.outbox, netBufs := s'.netBufs, bdls := s'.bdls,
                      pins := { s.pins with perstN := false } }) ∧
    (s.on F.GLB_HEP_STATUS_LINK_UP = false → exec .hostLinkDown s = .next s) ∧
    (s.rd F.PWR_STATUS_STATE = 0 → s.power.move = none →
      (∃ s', exec .perstDeassert s = .next s' ∧ s' = { s with pins := { s.pins with perstN := true } }) ∧
      exec .linkL1Exit s = .next s) ∧
    (∀ (speed : Fin 16) (width : Fin 32) (flit : Bool),
      (s.pins.perstN = true → s.endpointOff = false → ∃ s', exec (.hostLinkUp speed width flit) s = .next s' ∧
        s'.rd F.GLB_HEP_STATUS_LINK_UP = 1 ∧ s'.rd F.GLB_HEP_STATUS_SPEED = speed.val ∧
        s'.rd F.GLB_HEP_STATUS_WIDTH = width.val ∧ s'.rd F.GLB_HEP_STATUS_FLIT = b2n flit ∧
        s'.rd F.GLB_HEP_STATUS_VF_EN = 0 ∧ s'.cfg 0 = { s.cfg 0 with vfEn := false, numVfs := 0 } ∧
        (∀ j, j ≠ 0 → s'.cfg j = s.cfg j) ∧ (∀ k, k ≠ R.GLB_HEP_STATUS → s'.reg k = s.reg k) ∧
        s' = { s with regs := s'.regs, hcfg := s'.hcfg }) ∧
      (s.pins.perstN = false ∨ s.endpointOff = true → exec (.hostLinkUp speed width flit) s = .next s)) ∧
    (let st := s.rd F.PWR_STATUS_STATE;
      0 < st → s.power.move = none → ∃ s', exec .linkL1Exit s = .next s' ∧
        s'.power.move = some { target := 0, start := st, entry := false, wake := 2, who := 0, limit := none, bbSeq := 0, thenTo := none } ∧
        s'.rd F.PWR_STATUS_STATE = st ∧ s'.rd F.PWR_STATUS_TARGET = 0 ∧ s'.rd F.PWR_STATUS_BUSY = 1 ∧
        (st = 4 → s'.rd (F.PWR_DOMAIN_COND 3) = 0 ∧ s'.rd (F.PWR_DOMAIN_WAKE_LAST 3) = 2) ∧
        (∀ k, k ≠ R.PWR_STATUS → k ≠ R.PWR_DOMAIN 3 → s'.reg k = s.reg k) ∧
        s' = { s with regs := s'.regs, power := s'.power, pins := s'.pins })

/-! ### Glue-up pools (chapter 09) -/

/-- GU_CONTRIBUTE and GU_RECEIVE as the engine takes them (R295, R296, R298–R300): by the pool's state, the round that is asked for and the
member's slot, a contribution fills its slot, opens the next round, waits, or ends late, duplicate, out of round or with the pool down; a
receive waits, is written from the held result, or ends missed, failed, out of round or with the pool down. -/
def Obligations.PoolContributions : Prop :=
  ∀ (c : CtxId) (q : Nat) (s : State) (o : Op),
    let p := o.guPool
    let r := o.guRound
    let x := (c.val, q, r)
    let st := s.poolSt p
    let rnd := s.round p
    let k := (s.slot p (s.slotOf p c.val)).st
    s.op? c.val q = some o → o.started = true → o.done = none → s.ctxState c.val = 4 →
    (∀ y ∈ (s.pool p).contribs ++ (s.pool p).receives, ¬ (y.1 = c.val ∧ y.2.1 = q)) →
    let ends := fun (i : Instr) (code : Nat) => ∃ s', exec i s = .next s' ∧ opEnds c.val q (plainResult code) s s' ∧
      (∀ j, s'.pool j = s.pool j) ∧ s' = { s with ctxs := s'.ctxs, pools := s'.pools };
    let waits := fun (i : Instr) (f : Pool → Pool) => ∃ s', exec i s = .next s' ∧ s'.pool p = f (s.pool p) ∧
      (∀ j, j ≠ p → s'.pool j = s.pool j) ∧ s' = { s with pools := s'.pools };
    (o.kind = 0x28 →
      let i := Instr.guContribute c q;
      (st = 5 → ends i 0x26) ∧
      (st ≠ 5 → r ≤ rnd → ¬ (st = 1 ∧ r = rnd) → ends i 0x20) ∧
      (st ≠ 5 → rnd + 1 < r → ends i 0x22) ∧
      (st = 1 → r = rnd →
        (k = .empty → s.pastDeadline p = true → ends i 0x20) ∧ (k = .filling ∨ k = .sealed → ends i 0x21) ∧
        (k = .scrubbing → waits i fun y => { y with contribs := y.contribs ++ [x] }) ∧
        (k = .empty → s.pastDeadline p = false → ∃ s', exec i s = .next s' ∧
          s'.slot p (s.slotOf p c.val) = { round := r, st := .filling, sumsq := 0 } ∧
          (∀ j, j ≠ s.slotOf p c.val → s'.slot p j = s.slot p j) ∧ (s'.pool p).contribs = (s.pool p).contribs ++ [x] ∧
          s' = { s with pools := s'.pools })) ∧
      (st = 1 ∨ st = 2 ∨ st = 3 → r = rnd + 1 → waits i fun y => { y with contribs := y.contribs ++ [x] }) ∧
      (st = 0 → r = rnd + 1 → k = .empty → ∃ s', exec i s = .next s' ∧ s'.poolSt p = 1 ∧ s'.round p = r ∧
        s'.rd (F.GUP_RND_SEALED p) = 0 ∧ (s'.pool p).tOpen = s.now ∧
        s'.slot p (s.slotOf p c.val) = { round := r, st := .filling, sumsq := 0 } ∧
        (s'.pool p).contribs = (s.pool p).contribs ++ [x] ∧ (∀ j, j ≠ p → s'.pool j = s.pool j) ∧
        (∀ y, y ≠ R.GUP_RND p → s'.reg y = s.reg y) ∧ s' = { s with regs := s'.regs, pools := s'.pools })) ∧
    (o.kind = 0x29 →
      let i := Instr.guReceive c q;
      let failed := r ∈ (s.pool p).fails;
      (st = 5 → ends i 0x26) ∧
      (st ≠ 5 → failed → ends i 0x23) ∧
      (st ≠ 5 → ¬ failed → r = rnd + 1 ∨ (r = rnd ∧ r ≠ 0 ∧ (st = 1 ∨ st = 2 ∨ st = 3)) →
        waits i fun y => { y with receives := y.receives ++ [x] }) ∧
      (st ≠ 5 → ¬ failed → r ≠ 0 → r < rnd ∨ (r = rnd ∧ (st = 0 ∨ 5 < st ∨ (st = 4 ∧ (s.pool p).resScrub = true))) →
        r ≠ (rnd + 1) % 2 ^ 32 → ends i 0x25) ∧
      (st ≠ 5 → ¬ failed → rnd + 1 < r → ends i 0x22) ∧
      (∀ bs, st = 4 → ¬ failed → r = rnd → r ≠ 0 → (s.pool p).resScrub = false → memFree (s.holder p) s → memFree c.val s →
        s.ctxRead (s.holder p) (s.resultAt p) (s.poolBytes p) = .ok bs → flatServes s c.val → flatOnce s c.val →
        o.guAddr + bs.length ≤ s.range c.val →
        ∃ s', exec i s = .next s' ∧
          opEnds c.val q { status := stOK, detail := 0, value := match (s.pool p).released with | some v => v.2 | none => 0,
                           ident := none } s s' ∧
          (∀ j, j < bs.length → s'.flatByte c.val (o.guAddr + j) = bs.getD j 0) ∧
          memKept c.val (fun a => o.guAddr ≤ a ∧ a < o.guAddr + bs.length) s s' ∧ c.val ∈ (s'.pool p).served ∧ s'.regs = s.regs ∧
          s' = { s with devMem := s'.devMem, ueMarks := s'.ueMarks, chans := s'.chans, ctxs := s'.ctxs, pools := s'.pools }))

/-- SLOT_SEAL and ROUND_DEADLINE of a local pool in L0 Run (R297, R300, R303): the slot holds the member's bytes and is SEALED with the
sum of their squares, the operation ends OK and the pool's second object counts; the last seal closes the round; an element that is not
finite spoils the slot. At the deadline the round closes with K seals, copies that still fill ending late, or fails. -/
def Obligations.PoolRoundCloses : Prop :=
  ∀ (p : PoolId) (s : State), s.scope p.val = 0 → s.poolSt p.val = 1 → (s.pool p.val).leafSealed = [] →
    (∀ y ∈ (s.pool p.val).contribs, y.1 < 256 ∧ s.isMember p.val y.1 = true) →
    (∀ (c : CtxId) (x : Nat × Nat × Nat) (o : Op) (bs : List Byte),
      let i := s.slotOf p.val c.val
      let h := s.holder p.val
      let a := i * s.slotBytes p.val
      let n := 32 * s.rd (F.GUP_CFG_SO_BLOCK p.val) + 1
      let whole := ∀ j, j < s.members p.val → j = i ∨ (s.slot p.val j).st = .sealed
      (s.pool p.val).contribs.find? (fun y => decide (y.1 = c.val) && s.copies p.val y) = some x →
      s.isMember p.val c.val = true → s.op? c.val x.2.1 = some o → o.done = none →
      s.enginesOn = true → memFree c.val s → memFree h s → s.ctxRead c.val o.guAddr (s.poolBytes p.val) = .ok bs → flatServes s h → flatOnce s h → a + s.poolBytes p.val ≤ s.range h →
      ∃ s' o', exec (.slotSeal p c) s = .next s' ∧ s'.op? c.val x.2.1 = some o' ∧
        (s'.pool p.val).contribs = (s.pool p.val).contribs.erase x ∧
        (∀ j, j < bs.length → s'.flatByte h (a + j) = bs.getD j 0) ∧
        memKept h (fun y => a ≤ y ∧ y < a + bs.length) s s' ∧
        (∀ j, j < s.members p.val → j ≠ i → s'.slot p.val j = s.slot p.val j) ∧
        ((s.elemsOf p.val bs).any FV.special = true → (s'.slot p.val i).st = .scrubbing ∧ o'.done = some (plainResult 0x24) ∧
          s'.regs = s.regs) ∧
        ((s.elemsOf p.val bs).any FV.special = false →
          s'.slot p.val i = { round := x.2.2, st := .sealed, sumsq := sumSquares (s.elemsOf p.val bs) } ∧
          o'.done = some (plainResult stOK) ∧ s'.rd (F.SYN_CNT_COUNT n) = min (s.rd (F.SYN_CNT_COUNT n) + 1) (2 ^ 64 - 1) ∧
          s'.rd (F.GUP_RND_SEALED p.val) = (s'.sealedSlots p.val).length ∧ s'.round p.val = s.round p.val ∧
          (whole → s'.poolSt p.val = 2 ∧ (s'.pool p.val).closeAt = some s.now) ∧ (¬ whole → s'.poolSt p.val = 1))) ∧
    (s.atL0 = true → s.rd (F.GUP_CFG_K p.val) ≤ (s.sealedSlots p.val).length →
      ∃ s', exec (.roundDeadline p) s = .next s' ∧ s'.poolSt p.val = 2 ∧ s'.round p.val = s.round p.val ∧
        (s'.pool p.val).closeAt = some s.now ∧
        (∀ x ∈ (s.pool p.val).contribs, s.copies p.val x = true →
          (s'.slot p.val (s.slotOf p.val x.1)).st = .scrubbing ∧
          ∀ o, s.op? x.1 x.2.1 = some o → o.done = none → ∃ o', s'.op? x.1 x.2.1 = some o' ∧ o'.done = some (plainResult 0x20)) ∧
        (∀ y, y ≠ R.GUP_RND p.val → s'.reg y = s.reg y) ∧ s' = { s with regs := s'.regs, pools := s'.pools, ctxs := s'.ctxs }) ∧
    (s.atL0 = true → (s.sealedSlots p.val).length < s.rd (F.GUP_CFG_K p.val) →
      (∃ j, j < s.members p.val ∧ (s.slot p.val j).st ≠ .empty) →
      ∃ s', exec (.roundDeadline p) s = .next s' ∧ s'.poolSt p.val = 3 ∧ s'.round p.val = s.round p.val ∧
        (s'.pool p.val).fails = s.round p.val :: (s.pool p.val).fails ∧ (∀ j, (s'.slot p.val j).st ≠ .sealed ∨ s.members p.val ≤ j) ∧
        s'.rd F.GUP_STATUS_FAILED = (s.rd F.GUP_STATUS_FAILED + 1) % 2 ^ 16 ∧
        s'.rd (F.SYN_CNT_COUNT (32 * s.rd (F.GUP_CFG_SO_BLOCK p.val))) = s.round p.val ∧
        s'.on (F.SYN_CTL_ERR (32 * s.rd (F.GUP_CFG_SO_BLOCK p.val))) = true ∧ s'.devMem = s.devMem) ∧
    (s.atL0 = false → ∃ s', exec (.roundDeadline p) s = .next s' ∧ s'.pool p.val = { s.pool p.val with overdue := true } ∧
      (∀ j, j ≠ p.val → s'.pool j = s.pool j) ∧ s' = { s with pools := s'.pools })

/-- ROUND_RELEASE, SLOT_SCRUB_END, RESULT_REGION_SCRUB_END and LEAF_PARTIAL_DEADLINE (R294, R300–R303, R308): a closing round of a local pool
whose slots can be read puts the noised sum of its slots into the result region, signals the round and scrubs the slots; a
scrubbed slot is zero and EMPTY, and with the last one the pool is HELD after a release and IDLE after a failure; the result region's scrub
leads to IDLE; and a leaf whose partial is late is left out while what remains is at least K. Stated with nothing that waits, and outside
the states of power in which the engines stand still. -/
def Obligations.PoolRoundReleases : Prop :=
  ∀ (p : PoolId) (s : State),
    let h := s.holder p.val
    let zeroed := fun (a : Nat) (s' : State) => (∀ j, j < s.poolBytes p.val → s'.flatByte h (a + j) = 0) ∧
      memKept h (fun y => a ≤ y ∧ y < a + s.poolBytes p.val) s s'
    (s.pool p.val).receives = [] → (s.pool p.val).early = [] → (s.pool p.val).due = none → s.enginesOn = true → memFree h s →
    flatServes s h → flatOnce s h →
    (∀ sums, s.scope p.val = 0 → s.poolSt p.val = 2 → (s.pool p.val).partials = [] → s.sealedSlots p.val ≠ [] →
      s.partialSums p.val = .ok sums →
      let data := s.resultBytes p.val sums
      let b := 32 * s.rd (F.GUP_CFG_SO_BLOCK p.val)
      s.resultAt p.val + data.length ≤ s.range h →
      ∃ s', exec (.roundRelease p) s = .next s' ∧ s'.poolSt p.val = 3 ∧ s'.round p.val = s.round p.val ∧
        (s'.pool p.val).released = some (s.round p.val, s.totalSealed p.val) ∧
        (∀ j, j < data.length → s'.flatByte h (s.resultAt p.val + j) = data.getD j 0) ∧
        memKept h (fun y => s.resultAt p.val ≤ y ∧ y < s.resultAt p.val + data.length) s s' ∧
        (∀ j, (s'.slot p.val j).st =
          if decide (j ∈ s.sealedSlots p.val) then SlotState.scrubbing else (s.slot p.val j).st) ∧
        s'.rd F.GUP_STATUS_RELEASED = (s.rd F.GUP_STATUS_RELEASED + 1) % 2 ^ 32 ∧
        s'.rd (F.SYN_CNT_COUNT b) = s.round p.val ∧ s'.on (F.SYN_CTL_ERR b) = false ∧ s'.outbox = s.outbox) ∧
    ((s.pool p.val).contribs = [] →
      (∀ i : Fin 256,
        let a := i.val * s.slotBytes p.val
        let rest := ∀ j, j < s.members p.val → j = i.val ∨ (s.slot p.val j).st = .empty
        (s.slot p.val i.val).st = .scrubbing → a + s.poolBytes p.val ≤ s.range h →
        ∃ s', exec (.slotScrubEnd p i) s = .next s' ∧ zeroed a s' ∧ s'.slot p.val i.val = PoolSlot.init ∧
          (∀ j, j ≠ i.val → s'.slot p.val j = s.slot p.val j) ∧
          (s.poolSt p.val ≠ 3 ∨ ¬ rest → s'.regs = s.regs) ∧
          (s.poolSt p.val = 3 → rest → s'.poolSt p.val =
            if decide (s.round p.val ∈ (s.pool p.val).fails) then 0 else 4) ∧
          s' = { s with regs := s'.regs, devMem := s'.devMem, ueMarks := s'.ueMarks, chans := s'.chans, pools := s'.pools }) ∧
      ((s.pool p.val).resScrub = true → s.poolSt p.val = 4 → s.resultAt p.val + s.poolBytes p.val ≤ s.range h →
        ∃ s', exec (.resultRegionScrubEnd p) s = .next s' ∧ zeroed (s.resultAt p.val) s' ∧ s'.poolSt p.val = 0 ∧
          s'.pool p.val = { s.pool p.val with resScrub := false } ∧ (∀ y, y ≠ R.GUP_RND p.val → s'.reg y = s.reg y) ∧
          s' = { s with regs := s'.regs, devMem := s'.devMem, ueMarks := s'.ueMarks, chans := s'.chans, pools := s'.pools })) ∧
    ∀ node : Nat,
      let out := s.onPool p.val fun q => { q with leftOut := node :: q.leftOut }
      s.scope p.val = 1 → s.poolSt p.val = 2 → node ∈ s.leafNodes p.val → node ∉ (s.pool p.val).leftOut →
      (s.partialIn p.val node = true → exec (.leafPartialDeadline p node) s = .next s) ∧
      (s.partialIn p.val node = false → s.rd (F.GUP_CFG_K p.val) ≤ out.totalSealed p.val →
        ∃ s', exec (.leafPartialDeadline p node) s = .next s' ∧ s'.pool p.val = out.pool p.val ∧
          (∀ j, j ≠ p.val → s'.pool j = s.pool j) ∧ s' = { s with pools := s'.pools })

/-! ### Claush: puts, gets, collectives, pools, ports and time (chapter 12) -/

/-- CL_GRANT, CL_PUT and CL_GET as their engine takes them (R381, R382, R396): a grant puts its window in force or revokes it; a put or a get
to a node without a port up ends with CL_LINK; a put sends the bytes, a get its request, and each is outstanding. -/
def Obligations.PutsGetsAndGrants : Prop :=
  ∀ (c : CtxId) (q : Nat) (s : State) (o : Op),
    let node := o.w 3 11 0
    let win := o.w 3 23 20
    let rctx := o.w 3 19 12
    let out : Bool → ClOp := fun put => { ctx := c.val, seq := q, opid := q % 65536, node := node, put := put, done := 0 }
    (engineOp c.val q 0x22 o s → ∃ s', exec (.clGrant c q) s = .next s' ∧ opEnds c.val q (plainResult stOK) s s' ∧
      s'.win c.val (o.w 3 3 0) = (if o.w 3 7 5 = 0 then ClWin.none else
        { base := o.w 0 39 0, pages := o.w 1 27 0, gctx := o.w 2 19 12, gnode := o.w 2 11 0, so := o.w 3 15 8, rights := o.w 3 7 5 }) ∧
      (∀ w, w ≠ o.w 3 3 0 → s'.win c.val w = s.win c.val w) ∧ s' = { s with ctxs := s'.ctxs }) ∧
    (∀ i k, (i = .clPut c q ∧ k = 0x20) ∨ (i = .clGet c q ∧ k = 0x21) → engineOp c.val q k o s → s.trunk node = [] →
      ∃ s', exec i s = .next s' ∧ opEnds c.val q (plainResult 0x21) s s' ∧ s' = { s with ctxs := s'.ctxs }) ∧
    (∀ p ps bs, engineOp c.val q 0x20 o s → memFree c.val s → s.trunk node = p :: ps →
      s.ctxRead c.val (o.w 0 39 0) (o.w 2 39 0) = .ok bs →
      ∃ s', exec (.clPut c q) s = .next s' ∧ s'.clOps = s.clOps ++ [out true] ∧
        (0 < bs.length → bs.length ≤ 2048 → canSend p 0x01 bs.length s →
          frameSent p 0x01 c.val rctx (q % 65536)
            (win * 2 ^ 60 + b2n (o.w 3 25 25 = 1) * 2 ^ 59 + o.w 1 39 0 % 2 ^ 40) bs (s.port p) s.outbox s') ∧
        (∀ j, j ≠ p → s'.port j = s.port j) ∧ cachesOnly s s' ∧
        s' = { s with clOps := s'.clOps, ports := s'.ports, outbox := s'.outbox, chans := s'.chans }) ∧
    ∀ p ps, engineOp c.val q 0x21 o s → s.trunk node = p :: ps →
      ∃ s', exec (.clGet c q) s = .next s' ∧ s'.clOps = s.clOps ++ [out false] ∧
        (canSend p 0x02 8 s → frameSent p 0x02 c.val rctx (q % 65536) (win * 2 ^ 60 + o.w 1 39 0) (leBytes (o.w 2 39 0) 8)
          (s.port p) s.outbox s') ∧
        (∀ j, j ≠ p → s'.port j = s.port j) ∧ s' = { s with clOps := s'.clOps, ports := s'.ports, outbox := s'.outbox }

/-- PUT_DATA, GET_REQ, GET_DATA, PUT_ACK and RSP_ERR (R382, R383, R396): a request that its window admits is performed and answered, with the
notify signal where it asks for it, and any other is answered with CL_NOWIN and touches nothing; data of a get are written locally; the
operation ends OK with its last byte, and with the cause of a refusal. -/
def Obligations.RemoteAccessFrames : Prop :=
  ∀ (q : PortId) (h : FrameIn) (s : State), takesFrame q.val false h s →
    let node := s.peer q.val
    let c := h.dctx.val
    let w := bits h.arg.toNat 63 60
    let off := bits h.arg.toNat 39 0
    let x := s.win c w
    let n := h.data.length
    let notify := h.arg.toNat.testBit 59
    let answer := fun (type arg : Nat) (data : List Byte) (s' : State) =>
      frameSent q.val type c h.sctx.val h.opid.toNat arg data (s.port q.val).taken (s.creditOut q.val h.vc.val :: s.outbox) s'
    let admits := fun (len right : Nat) => s.ctxState c = 4 ∧ x.rights ≠ 0 ∧ x.gnode = node ∧ x.gctx = h.sctx.val ∧
      x.rights.testBit right = true ∧ off + len ≤ x.pages * 4096
    (canSend q.val 0x04 0 s →
      (admits n 1 → (notify = true → x.rights.testBit 2 = true) → memFree c s → flatServes s c → flatOnce s c → x.base + off + n ≤ s.range c →
        ∃ s', exec (.putData q h) s = .next s' ∧ answer 0x04 n [] s' ∧
          (∀ j, j < n → s'.flatByte c (x.base + off + j) = h.data.getD j 0) ∧
          memKept c (fun a => x.base + off ≤ a ∧ a < x.base + off + n) s s' ∧
          (∀ m, notify = true → (s.objectsOf c)[x.so]? = some m →
            s'.rd (F.SYN_CNT_COUNT m) = min (s.rd (F.SYN_CNT_COUNT m) + 1) (2 ^ 64 - 1)) ∧
          (notify = false → s'.regs = s.regs ∧ s'.ctxs = s.ctxs)) ∧
      (¬ (admits n 1 ∧ (notify = true → x.rights.testBit 2 = true)) → ∃ s', exec (.putData q h) s = .next s' ∧ answer 0x05 0x20 [] s' ∧
        s' = { s with ports := s'.ports, outbox := s'.outbox }) ∧
      (let len := fieldAt h.data 0 8;
        (∀ bs, admits len 0 → 0 < len → len ≤ 2048 → memFree c s → s.ctxRead c (x.base + off) len = .ok bs →
          ∃ s', exec (.getReq q h) s = .next s' ∧ answer 0x03 0 bs s' ∧ cachesOnly s s' ∧
            s' = { s with ports := s'.ports, outbox := s'.outbox, chans := s'.chans }) ∧
        (¬ admits len 0 → ∃ s', exec (.getReq q h) s = .next s' ∧ answer 0x05 0x20 [] s' ∧
          s' = { s with ports := s'.ports, outbox := s'.outbox }))) ∧
    (∀ (y : ClOp) (o : Op), s.op? y.ctx y.seq = some o → o.done = none →
      let got := fun (s' : State) (m : Nat) =>
        (o.w 2 39 0 ≤ y.done + m → opEnds y.ctx y.seq (plainResult stOK) s s' ∧ ∀ z ∈ s'.clOps, ¬ (z.ctx = y.ctx ∧ z.seq = y.seq)) ∧
        (y.done + m < o.w 2 39 0 → s'.ctxs = s.ctxs ∧
          ∀ z ∈ s'.clOps, z.ctx = y.ctx → z.seq = y.seq → z = { y with done := y.done + m });
      (s.clOp? node h true = some y → ∃ s', exec (.putAck q h) s = .next s' ∧ frameTaken q.val h.vc.val s s' ∧ got s' h.arg.toNat ∧
        s' = { s with ports := s'.ports, outbox := s'.outbox, clOps := s'.clOps, ctxs := s'.ctxs }) ∧
      (let at' := o.w 0 39 0 + h.arg.toNat;
        let m := min n (o.w 2 39 0 - h.arg.toNat);
        s.clOp? node h false = some y → memFree y.ctx s → flatServes s y.ctx → flatOnce s y.ctx → at' + m ≤ s.range y.ctx →
        ∃ s', exec (.getData q h) s = .next s' ∧ frameTaken q.val h.vc.val s s' ∧ got s' m ∧
          (∀ j, j < m → s'.flatByte y.ctx (at' + j) = h.data.getD j 0) ∧
          memKept y.ctx (fun a => at' ≤ a ∧ a < at' + m) s s' ∧
          s' = { s with ports := s'.ports, outbox := s'.outbox, clOps := s'.clOps, ctxs := s'.ctxs, devMem := s'.devMem,
                        ueMarks := s'.ueMarks, chans := s'.chans }) ∧
      (s.clOp? node h true = some y ∨ (s.clOp? node h true = none ∧ s.clOp? node h false = some y) →
        ∃ s', exec (.frameRspErr q h) s = .next s' ∧ frameTaken q.val h.vc.val s s' ∧
          opEnds y.ctx y.seq (plainResult (if h.arg.toNat % 256 = 0x25 then 0x25 else 0x20)) s s' ∧
          (∀ z ∈ s'.clOps, ¬ (z.ctx = y.ctx ∧ z.seq = y.seq)) ∧
          s' = { s with ports := s'.ports, outbox := s'.outbox, clOps := s'.clOps, ctxs := s'.ctxs }))

/-- ALL_REDUCE, REDUCE_SCATTER, ALL_GATHER, BROADCAST, COLL_READY, COLL_DATA and COLLECTIVE_TIMEOUT (R384–R387, R393–R396): a collective sends
COLL_READY to every other member, and an all-gather puts its own part into DST; a member whose trunk is down ends it; a COLL_READY with
other parameters ends it with CL_MISMATCH, and one that comes first is kept; a broadcast's data land in DST and the last end it OK; the first
contribution to a chunk is combined with the member's own elements; a timeout ends it and aborts the others. The layout of COLL_READY's
argument is the model's (log entry 14). -/
def Obligations.CollectivesRun : Prop :=
  (∀ (c : CtxId) (q : Nat) (s : State) (o : Op) (i : Instr) (k : Nat),
    (i = .allReduce c q ∧ k = 0x23) ∨ (i = .reduceScatter c q ∧ k = 0x24) ∨ (i = .allGather c q ∧ k = 0x25) ∨
      (i = .broadcast c q ∧ k = 0x26) →
    let n := fieldAt o.blk 4 1
    let rank := fieldAt o.blk 5 1
    let gid := fieldAt o.blk 0 4
    let mem := fun r => (groupMembers o.blk).getD r (0, 0)
    let len := o.collCount * elemBytes o.collElem
    let dst := o.w 1 39 0 + rank * len
    engineOp c.val q k o s → 2 ≤ n → 0 < o.collCount →
    (∀ r, r < n → r ≠ rank → (∀ j, j < r → j ≠ rank → s.trunk (mem j).1 ≠ []) → s.trunk (mem r).1 = [] →
      ∃ s', exec i s = .next s' ∧ opEnds c.val q { status := 0x21, detail := r, value := 0, ident := none } s s' ∧
        s' = { s with ctxs := s'.ctxs }) ∧
    ((∀ r, r < n → r ≠ rank → s.trunk (mem r).1 ≠ []) → s.colls = [] → s.readies = [] →
      (k = 0x25 → memFree c.val s ∧ flatServes s c.val ∧ flatOnce s c.val ∧ o.w 0 39 0 + len ≤ s.range c.val ∧ dst + len ≤ s.range c.val) →
      ∃ s' x, exec i s = .next s' ∧ s'.colls = [x] ∧ x.ctx = c.val ∧ x.seq = q ∧ x.gid = gid ∧ x.cseq = o.cseq ∧ x.n = n ∧ x.rank = rank ∧
        x.ready = [] ∧ s'.op? c.val q = some o ∧
        (∀ r p ps, r < n → r ≠ rank → s.trunk (mem r).1 = p :: ps →
          ∃ f ∈ (s'.port p).unacked ++ (s'.port p).waiting, f.type = 0x08 ∧ f.sctx = c.val ∧ f.dctx = (mem r).2 ∧
            f.arg = gid * 2 ^ 32 + o.cseq) ∧
        (k = 0x25 → (∀ j, j < len → s'.flatByte c.val (dst + j) = s.flatByte c.val (o.w 0 39 0 + j)) ∧
          memKept c.val (fun a => dst ≤ a ∧ a < dst + len) s s') ∧ (k ≠ 0x25 → s'.devMem = s.devMem) ∧ s'.regs = s.regs)) ∧
  (∀ (q : PortId) (h : FrameIn) (s : State), takesFrame q.val false h s →
    let node := s.peer q.val
    let hi := h.arg.toNat / 2 ^ 32
    let lo := h.arg.toNat % 2 ^ 32
    let hit := fun (x : Coll) => x.ctx = h.dctx.val ∧ x.gid = hi ∧ x.cseq = lo ∧ (x.rankOf node).isSome = true
    ((∀ x ∈ s.colls, ¬ hit x) → ∃ s', exec (.collReady q h) s = .next s' ∧ frameTaken q.val h.vc.val s s' ∧
      { node := node, ctx := h.dctx.val, gid := hi, cseq := lo, params := fieldAt h.data 0 8 : Ready } ∈ s'.readies ∧
      s' = { s with ports := s'.ports, outbox := s'.outbox, readies := s'.readies }) ∧
    (∀ x o r, s.colls = [x] → hit x → x.rankOf node = some r → s.op? x.ctx x.seq = some o → o.done = none →
      fieldAt h.data 0 8 ≠ x.params → ∃ s', exec (.collReady q h) s = .next s' ∧ frameTaken q.val h.vc.val s s' ∧ s'.colls = [] ∧
        opEnds x.ctx x.seq { status := 0x24, detail := r, value := 0, ident := none } s s' ∧
        s' = { s with ports := s'.ports, outbox := s'.outbox, colls := s'.colls, ctxs := s'.ctxs }) ∧
    (∀ x o r, s.colls = [x] → x.ctx = h.dctx.val → x.cseq = hi → x.rankOf node = some r → s.op? x.ctx x.seq = some o → o.done = none →
      (∀ r ∈ x.ready, r ∈ x.sent) →
      let at' := o.w 1 39 0 + 2048 * lo
      let len := o.collCount * elemBytes o.collElem
      let m := min h.data.length (min 2048 (len - 2048 * lo))
      (o.kind = 0x26 → x.rank ≠ o.collRoot → r = o.collRoot → (∀ e ∈ s.ports, ∀ f ∈ e.2.unacked ++ e.2.waiting, f.type ≠ 9) →
        memFree x.ctx s → flatServes s x.ctx → flatOnce s x.ctx → at' + m ≤ s.range x.ctx →
        ∃ s', exec (.collData q h) s = .next s' ∧ (∀ j, j < m → s'.flatByte x.ctx (at' + j) = h.data.getD j 0) ∧
          memKept x.ctx (fun a => at' ≤ a ∧ a < at' + m) s s' ∧
          (len ≤ x.have2 r + m → s'.colls = [] ∧ opEnds x.ctx x.seq { status := stOK, detail := 0xFF, value := 0, ident := none } s s') ∧
          (x.have2 r + m < len → ∃ y, s'.colls = [y] ∧ y.have2 r = x.have2 r + m ∧ s'.op? x.ctx x.seq = some o)) ∧
      (let own := segBytes o x.n x.rank;
        let k := min h.data.length (min 2048 (own - 2048 * lo));
        let src := o.w 0 39 0 + segAt o x.n x.rank + 2048 * lo;
        let elem := fun (u : State) (a : Nat) => leNat ((List.range 4).map fun j => u.flatByte x.ctx (a + j));
        o.kind = 0x24 → o.collElem = 2 → o.collOp = 0 → x.have1 r < own → SMap.get (fun _ => 0) x.chunks lo = 0 → k % 4 = 0 →
        memFree x.ctx s → flatServes s x.ctx → flatOnce s x.ctx → src + k ≤ s.range x.ctx → at' + k ≤ s.range x.ctx →
        ∃ s', exec (.collData q h) s = .next s' ∧
          (∀ e, 4 * e < k → elem s' (at' + 4 * e) = (elem s (src + 4 * e) + fieldAt h.data (4 * e) 4) % 2 ^ 32) ∧
          memKept x.ctx (fun a => at' ≤ a ∧ a < at' + k) s s'))) ∧
  ∀ (c : CtxId) (q : Nat) (s : State) (x : Coll) (o : Op), s.coll? c.val q = some x → s.op? c.val q = some o → o.done = none →
    o.timeoutMs ≠ 0 → (∀ r ∈ awaited o x, s.lateNode (x.nodeOf r) = false) →
    ∃ s' k, exec (.collectiveTimeout c q) s = .next s' ∧
      opEnds c.val q { status := 0x23, detail := ((awaited o x).head?).getD 0xFF, value := 0, ident := none } s s' ∧
      s'.colls = s.colls.erase x ∧ s'.aborts = k :: s.aborts ∧ k.kind = 1 ∧ k.ident = x.gid ∧ k.seq = x.cseq ∧ k.since = s.now ∧
      s'.rd F.CLS_COUNT_ABORT_TX = min (s.rd F.CLS_COUNT_ABORT_TX + 1) (2 ^ 32 - 1) ∧ s'.devMem = s.devMem

/-- GU_SEAL, GU_CLOSE, GU_PARTIAL, GU_RESULT and GU_FAIL (R300, R303, R308, R388): a frame that matches no pool is counted; a root takes a
leaf's seals and the frames of its partial; a leaf closes its round and scrubs its slots, stores a frame of the result, and fails its round. -/
def Obligations.PoolFrames : Prop :=
  ∀ (q : PortId) (h : FrameIn) (s : State), takesFrame q.val false h s →
    let node := s.peer q.val
    let uid := fieldAt h.data 0 8
    let hi := h.arg.toNat / 2 ^ 32
    let lo := h.arg.toNat % 2 ^ 32
    let discards := fun (i : Instr) => ∃ s', exec i s = .next s' ∧ frameTaken q.val h.vc.val s s' ∧
      s'.rd F.CLS_COUNT_DISCARD = min (s.rd F.CLS_COUNT_DISCARD + 1) 65535 ∧ (∀ k, k ≠ R.CLS_COUNT → s'.reg k = s.reg k) ∧
      s' = { s with ports := s'.ports, outbox := s'.outbox, regs := s'.regs }
    (s.poolOf uid node 1 = none → discards (.guSeal q h)) ∧
    (s.poolOf uid node 2 = none → discards (.guClose q h) ∧ discards (.guFail q h)) ∧
    ((∀ p, p < 64 → s.on (F.GUP_CFG_VALID p) = false) → discards (.guPartial q h) ∧ discards (.guResult q h)) ∧
    (∀ p, s.poolOf uid node 1 = some p → s.poolSt p = 1 → s.round p = hi →
      let t := s.onPool p fun y => { y with leafSealed := SMap.ins node (h.arg.toNat % 65536 + 1) y.leafSealed }
      (∀ e ∈ (s.pool p).leafSealed, e.1 ≠ node) → SMap.sorted (s.pool p).leafSealed = true → t.totalSealed p ≠ s.nmem p →
      ∃ s', exec (.guSeal q h) s = .next s' ∧ frameTaken q.val h.vc.val s s' ∧
        SMap.get (fun _ => 0) (s'.pool p).leafSealed node = h.arg.toNat % 65536 + 1 ∧
        s'.rd (F.GUP_RND_SEALED p) = t.allSealed p % 2 ^ 16 ∧ s'.poolSt p = 1 ∧ (∀ j, j ≠ p → s'.pool j = s.pool j) ∧
        (∀ k, k ≠ R.GUP_RND p → s'.reg k = s.reg k) ∧
        s' = { s with ports := s'.ports, outbox := s'.outbox, regs := s'.regs, pools := s'.pools }) ∧
    (∀ p, s.poolOf uid node 2 = some p → s.poolSt p = 1 → s.round p = h.arg.toNat → memFree (s.holder p) s →
      ∃ s', exec (.guClose q h) s = .next s' ∧ s'.poolSt p = 2 ∧ (s'.pool p).closeAt = some s.now ∧
        (∀ i, i < s.members p → (s.slot p i).st = .sealed → (s'.slot p i).st = .scrubbing) ∧
        (∀ k, k ≠ R.GUP_RND p → s'.reg k = s.reg k) ∧ s'.devMem = s.devMem) ∧
    (∀ p, p < 64 → (∀ j, j < p → s.on (F.GUP_CFG_VALID j) = false) → s.on (F.GUP_CFG_VALID p) = true → s.scope p = 1 →
      s.poolSt p = 2 → s.round p = hi → node ∈ s.leafNodes p → node ∉ (s.pool p).leftOut → 256 * lo < s.rd (F.GUP_CFG_LEN p) →
      ∃ s', exec (.guPartial q h) s = .next s' ∧ frameTaken q.val h.vc.val s s' ∧
        (node * 2 ^ 32 + lo, (List.range (min (s.rd (F.GUP_CFG_LEN p) - 256 * lo) 256)).map fun j => fieldAt h.data (8 * j) 8) ∈
          (s'.pool p).partials ∧
        s'.pool p = { s.pool p with partials := (s'.pool p).partials } ∧ (∀ j, j ≠ p → s'.pool j = s.pool j) ∧
        s' = { s with ports := s'.ports, outbox := s'.outbox, pools := s'.pools }) ∧
    (∀ p, p < 64 → (∀ j, j < p → s.on (F.GUP_CFG_VALID j) = false) → s.on (F.GUP_CFG_VALID p) = true → s.scope p = 2 →
      s.poolSt p = 2 → s.round p = hi → s.rootNode p = node →
      let at' := s.resultAt p + 2048 * lo
      let m := min 2048 (s.poolBytes p - 2048 * lo)
      0 < m → m ≤ h.data.length → ((s.pool p).partials.filter fun e => decide (e.1 ≠ lo)).length + 1 < ceilDiv (s.poolBytes p) 2048 →
      memFree (s.holder p) s → flatServes s (s.holder p) → flatOnce s (s.holder p) → at' + m ≤ s.range (s.holder p) →
      ∃ s', exec (.guResult q h) s = .next s' ∧ frameTaken q.val h.vc.val s s' ∧
        (∀ j, j < m → s'.flatByte (s.holder p) (at' + j) = h.data.getD j 0) ∧
        memKept (s.holder p) (fun a => at' ≤ a ∧ a < at' + m) s s' ∧ (lo, []) ∈ (s'.pool p).partials ∧ s'.regs = s.regs) ∧
    ∀ p, s.poolOf uid node 2 = some p → s.poolSt p = 1 ∨ s.poolSt p = 2 → s.round p = h.arg.toNat →
      (∃ j, j < s.members p ∧ (s.slot p j).st ≠ .empty) →
      ∃ s', exec (.guFail q h) s = .next s' ∧ s'.poolSt p = 3 ∧ (s'.pool p).fails = s.round p :: (s.pool p).fails ∧
        s'.rd F.GUP_STATUS_FAILED = (s.rd F.GUP_STATUS_FAILED + 1) % 2 ^ 16 ∧ s'.devMem = s.devMem

/-- PORT_RETRY, PORT_LINK_UP, PORT_SIGNAL_LOSS, KEY and CLAUSH_REKEY (R373–R375, R395): a ready port trains; one that passes its test begins the
key exchange, and one that fails stays down; a lost signal takes a port down with its keys and frames; a signed third message brings the
port up with its keys, and one whose signature fails takes it down; an up port agrees fresh keys. The steps of the exchange are
the model's (log entry 15). -/
def Obligations.PortsAndKeys : Prop :=
  ∀ (q : PortId) (s : State),
    let st := s.rd (F.CLS_PORT_STATUS_STATE q.val)
    let begins := fun (t s' : State) => (s'.port q.val).step = 1 ∧ (s'.port q.val).transcript = t.keyHello q.val ∧
      s'.freeCtr = t.freeCtr + 128 ∧ (s.requester q.val = true → canSend q.val 0x1E (t.keyHello q.val).length s → ∃ f ∈ (s'.port q.val).unacked, f.type = 0x1E ∧ f.arg = 1)
    (st = 0 → s.portReady q.val = true → ∃ s', exec (.portRetry q) s = .next s' ∧ s'.rd (F.CLS_PORT_STATUS_STATE q.val) = 1 ∧
      (∀ k, k ≠ R.CLS_PORT_STATUS q.val → s'.reg k = s.reg k) ∧ s' = { s with regs := s'.regs }) ∧
    (st ≠ 0 ∨ s.portReady q.val = false → exec (.portRetry q) s = .next s) ∧
    (st = 1 ∨ st = 2 →
      (∃ s', exec (.portLinkUp q true) s = .next s' ∧ s'.rd (F.CLS_PORT_STATUS_STATE q.val) = 3 ∧ begins s s' ∧ s'.ssetDirty = true ∧
        SMap.get (fun _ => 0) s'.saved.training (1000 + q.val) = s.serial ∧
        (∀ k, k ≠ R.CLS_PORT_STATUS q.val → s'.reg k = s.reg k) ∧
        s' = { s with regs := s'.regs, ports := s'.ports, outbox := s'.outbox, freeCtr := s'.freeCtr, saved := s'.saved, ssetDirty := true }) ∧
      ∃ s', exec (.portLinkUp q false) s = .next s' ∧ portIsDown q.val 1 s' ∧
        (s.rd F.GLB_CFG_STATUS_STATE = 0 → s'.rd F.GLB_BRINGUP_TEST_FAIL = min (s.rd F.GLB_BRINGUP_TEST_FAIL + 1) F.GLB_BRINGUP_TEST_FAIL.max) ∧
        s' = { s with regs := s'.regs, ports := s'.ports }) ∧
    (st = 4 → ∃ s', exec (.portSignalLoss q) s = .next s' ∧ portIsDown q.val 1 s' ∧ s'.rd (F.CLS_PORT_ERR_DOWN_EVT q.val) = 1 ∧
      (s'.rd (F.CLS_DIE_STATUS_PORTS_UP (q.val / 16))).testBit (q.val % 16) = false ∧
      (s.trunk (s.peer q.val) = [q.val] → ∀ x ∈ s'.clOps, x.node ≠ s.peer q.val)) ∧
    (∀ h : FrameIn, takesFrame q.val true h s → st = 3 → h.arg.toNat = 3 → s.requester q.val = false → (s.port q.val).step = 2 →
      let t := (s.port q.val).transcript
      (keySigned t h.data (s.port q.val).peerInst = true → ∃ s', exec (.keyFrame q h) s = .next s' ∧
        s'.rd (F.CLS_PORT_STATUS_STATE q.val) = 4 ∧ s'.rd (F.CLS_PORT_STATUS_DOWN_WHY q.val) = 0 ∧
        s'.rd (F.CLS_PORT_STATUS_PEER_NODE q.val) = s.rd (F.CLS_PORT_CFG_PEER_NODE q.val) ∧
        SMap.get (fun _ => []) (s'.port q.val).keys 0 = Config.claushKey t 1 ∧
        SMap.get (fun _ => []) (s'.port q.val).keys 1 = Config.claushKey t 0 ∧
        (s'.rd (F.CLS_DIE_STATUS_PORTS_UP (q.val / 16))).testBit (q.val % 16) = true ∧
        s' = { s with regs := s'.regs, ports := s'.ports, outbox := s'.outbox }) ∧
      (keySigned t h.data (s.port q.val).peerInst = false → ∃ s', exec (.keyFrame q h) s = .next s' ∧ portIsDown q.val 4 s')) ∧
    (st = 4 → ∃ s', exec (.claushRekey q) s = .next s' ∧ begins s s' ∧
      s' = { s with ports := s'.ports, outbox := s'.outbox, freeCtr := s'.freeCtr }) ∧
    (st ≠ 4 → exec (.claushRekey q) s = .next s)

/-- NAK, CREDIT, ACK_TIMEOUT, DISCARDED_FRAME, TIME and TIME_TRANSMIT, and frames out of order (R377, R378, R380, R389–R393, R395): a NAK or a
timeout replays every frame that is not acknowledged, identically; the sixteenth replay without progress, 100 µs without one, and the fourth tag failure
within a millisecond take the port down; credits come back; a frame that is discarded asks for the SEQ expected; a follower within 1 ms of
its parent slews and, once ready, never steps, and one further away runs free. -/
def Obligations.RetryAndTime : Prop :=
  ∀ (q : PortId) (s : State),
    let st := s.rd (F.CLS_PORT_STATUS_STATE q.val)
    let x := s.port q.val
    let again := fun (f : Frame) => Out.frame q.val f.type (s.frameBytes q.val f)
    let replays := fun (i : Instr) => ∃ s', exec i s = .next s' ∧ s'.outbox = (x.unacked.map again).reverse ++ s.outbox ∧
      s'.port q.val = { x with replays := x.replays + 1 } ∧ (∀ j, j ≠ q.val → s'.port j = s.port j) ∧
      s'.rd (F.CLS_PORT_ERR_RETRY q.val) = min (s.rd (F.CLS_PORT_ERR_RETRY q.val) + 1) (2 ^ 32 - 1) ∧
      (∀ k, k ≠ R.CLS_PORT_ERR q.val → s'.reg k = s.reg k) ∧ s' = { s with regs := s'.regs, ports := s'.ports, outbox := s'.outbox }
    let downs := fun (i : Instr) (why : Nat) => ∃ s', exec i s = .next s' ∧ portIsDown q.val why s'
    (∀ h : FrameIn, 3 ≤ st → (∀ f ∈ x.unacked, seqUpTo f.seq ((h.arg.toNat % 2 ^ 32 + 2 ^ 32 - 1) % 2 ^ 32) = false) →
      (x.replays + 1 < 16 → replays (.nakFrame q h)) ∧ (16 ≤ x.replays + 1 → downs (.nakFrame q h) 2)) ∧
    (3 ≤ st → x.unacked ≠ [] →
      (s.now < x.ackAt + 100000 → x.replays + 1 < 16 → replays (.ackTimeout q)) ∧
      (x.ackAt + 100000 ≤ s.now ∨ 16 ≤ x.replays + 1 → downs (.ackTimeout q) 2)) ∧
    (∀ h : FrameIn, 3 ≤ st → x.waiting = [] → ∃ s', exec (.creditReturn q h) s = .next s' ∧
      (∀ vc, vc < 4 → SMap.get vcCredits (s'.port q.val).credits vc =
        min (vcCredits vc) (SMap.get vcCredits x.credits vc + bits h.arg.toNat (8 * vc + 7) (8 * vc))) ∧
      s'.port q.val = { x with credits := (s'.port q.val).credits } ∧ (∀ j, j ≠ q.val → s'.port j = s.port j) ∧
      s' = { s with ports := s'.ports }) ∧
    (let nak := fun (i : Instr) => ∃ s', exec i s = .next s' ∧ s'.outbox = s.linkOut q.val 1 (x.rxSeq % 2 ^ 32) x :: s.outbox ∧
        s'.port q.val = { x with linkSeq := x.linkSeq + 1, authFails := (s'.port q.val).authFails } ∧
        (∀ j, j ≠ q.val → s'.port j = s.port j) ∧
        (∀ k, k ≠ R.CLS_PORT_ERR q.val → s'.reg k = s.reg k) ∧ s' = { s with regs := s'.regs, ports := s'.ports, outbox := s'.outbox };
      let recent := (s.now :: x.authFails).filter fun t => decide (s.now ≤ t + 1000000);
      (∀ h i, st = 4 → h.seq.toNat ≠ x.rxSeq % 2 ^ 32 → i = .putData q h ∨ i = .getReq q h ∨ i = .collData q h ∨ i = .timeFrame q h → nak i) ∧
      (3 ≤ st → nak (.discardedFrame q .crc) ∧ nak (.discardedFrame q .sequence) ∧
        (recent.length < 4 → nak (.discardedFrame q .tag)) ∧ (4 ≤ recent.length → downs (.discardedFrame q .tag) 3) ∧
        ∃ s', exec (.discardedFrame q .reserved) s = .next s' ∧ s'.port q.val = { x with rxSeq := x.rxSeq + 1 } ∧
          s'.rd F.CLS_COUNT_DISCARD = min (s.rd F.CLS_COUNT_DISCARD + 1) 65535 ∧ s' = { s with regs := s'.regs, ports := s'.ports }) ∧
      ∃ s', exec (.discardedFrame q .noKeys) s = .next s' ∧
        s'.rd F.CLS_COUNT_DISCARD = min (s.rd F.CLS_COUNT_DISCARD + 1) 65535 ∧ s' = { s with regs := s'.regs }) ∧
    (∀ h : FrameIn, takesFrame q.val false h s →
      (s.rd F.GLB_CFG_STATUS_STATE = 1 → ∃ s', exec (.timeFrame q h) s = .next s' ∧ s'.spindle = s.spindle) ∧
      ((fieldAt h.data 0x10 1).testBit 1 = false →
        (s.measure h = none → ∃ s', exec (.timeFrame q h) s = .next s' ∧
          s'.port q.val = { x.taken with lastTime := h.arg.toNat, lastAt := s.now, peerFlags := fieldAt h.data 0x10 1 } ∧
          s'.rd (F.CLS_PORT_STATUS_LATE_RX q.val) = fieldAt h.data 0x10 1 % 2 ∧ (∀ k, k ≠ R.CLS_PORT_STATUS q.val → k ≠ R.CLS_TIME → s'.reg k = s.reg k) ∧
          s' = { s with ports := s'.ports, outbox := s'.outbox, regs := s'.regs }) ∧
        (∀ d off, s.measure h = some (d, off) → s.on F.CLS_NODE_TIME_ROOT = false → s.parentPort = some q.val →
          s.rd F.GLB_CFG_STATUS_STATE = 1 → ∃ s', exec (.timeFrame q h) s = .next s' ∧ s'.spindle = s.spindle ∧
            (-1000000 ≤ off → off ≤ 1000000 → s'.rd F.CLS_TIME_SYNC = 1 ∧ s'.rd F.CLS_TIME_FAR = 0 ∧ s'.held = true ∧
              s'.rd F.CLS_TIME_PARENT = q.val ∧ 2 ^ 32 - 429496 ≤ (s'.reg R.SPN_INC).toNat ∧ (s'.reg R.SPN_INC).toNat ≤ 2 ^ 32 + 429496) ∧
            (off < -1000000 ∨ 1000000 < off → s'.rd F.CLS_TIME_SYNC = 0 ∧ s'.rd F.CLS_TIME_FAR = 1 ∧ s'.rd F.SPN_STATUS_FREE_RUN = 1 ∧
              s'.reg R.SPN_INC = regReset R.SPN_INC)))) ∧
    (let t := { s with aborts := s.aborts.filter fun a => decide (s.now ≤ a.since + 100000) };
      (st = 4 → canSend q.val 0x18 (t.timeBody q.val).length s → ∃ s', exec (.timeTransmit q) s = .next s' ∧
        frameSent q.val 0x18 0 0 0 s.now (t.timeBody q.val) x s.outbox s' ∧ (∀ j, j ≠ q.val → s'.port j = s.port j) ∧
        s' = { t with ports := s'.ports, outbox := s'.outbox }) ∧
      (st ≠ 4 → exec (.timeTransmit q) s = .next t))

/-! ### Die-to-die links and site firewalls (chapter 10) -/

/-- The modules and the roll call (R314, R316–R320, R322, R329, R331, R333, R541): a module that has linked takes its role and width, or trains in full
where its record names another die than the roll call (stated with no promotion due), and the first of a die opens the roll call with the hub's serial and a nonce; a training that fails goes on in full, or ends Off; a good identity is answered with
the roles, and the same roles admit the die, whose identity record D2D_IDENT then shows; a wrong identity, other roles, silence, a fatal fault and a lost link fence it, the fourth loss
within a second as FLAPPING; a failed lane takes a spare, costs the half that has none left, and the module Off without a half; a site die
that answers is asked on, and one that fails or is late stays OPEN; a site that is fenced until device reset loses its rail. -/
def Obligations.DieLinks : Prop :=
  (∀ (m : ModId) (s : State),
    let b := bundleOf m.val
    let st := s.modState m.val
    (st ≠ 1 ∨ untilReset (s.fenceWhy b) = true → exec (.moduleLinkUp m) s = .next s) ∧
    (st = 1 → untilReset (s.fenceWhy b) = false → (s.bdl b).due = 0 →
      (s.rd (F.D2D_BDL_STATUS_STATE b) ≠ 1 ∨ (s.bdl b).step ≠ 0) → s.rd F.GLB_CFG_STATUS_STATE ≠ 1 →
      let serial := fieldAt (s.bdl b).ident 8 8
      let held := SMap.get (fun _ => 0) s.saved.training m.val
      let stale := 2 ≤ (s.bdl b).step ∧ (s.mod m.val).tried = true ∧ held ≠ serial + 1
      ∃ s', exec (.moduleLinkUp m) s = .next s' ∧
        s'.modState m.val = (if stale then 1 else if s.roleActive m.val then 2 else 3) ∧
        s'.rd (F.D2D_MOD_STATUS_WIDTH m.val) = (if stale then 0 else s.widthLeft m.val) ∧
        (s'.mod m.val).tried = ((s.mod m.val).tried && !decide stale) ∧
        SMap.get (fun _ => 0) s'.saved.training m.val =
          (if stale then 0 else if (s.bdl b).step = 3 then serial + 1 else held) ∧
        s'.rd (F.D2D_MOD_STATUS_SAVED_USED m.val) = b2n (s.mod m.val).tried ∧
        s'.rd (F.D2D_BDL_STATUS_HALVES b) = s'.halves b ∧ s'.rd (F.D2D_BDL_STATUS_BW_GBS b) = 128 * s'.halves b ∧
        (∀ k, k ≠ R.D2D_MOD_STATUS m.val → k ≠ R.D2D_BDL_STATUS b → s'.reg k = s.reg k) ∧ (∀ j, s'.bdl j = s.bdl j) ∧
        s' = { s with regs := s'.regs, mods := s'.mods, bdls := s'.bdls, saved := s'.saved, ssetDirty := s'.ssetDirty }) ∧
    (st = 1 → untilReset (s.fenceWhy b) = false → (s.bdl b).due = 0 → s.rd (F.D2D_BDL_STATUS_STATE b) = 1 → (s.bdl b).step = 0 →
      ∃ s' nonce, exec (.moduleLinkUp m) s = .next s' ∧ nonce.length = 8 ∧ (s'.bdl b).step = 1 ∧ (s'.bdl b).nonce = nonce ∧
        s'.outbox = .sideband b 0x01 (leBytes s.serial 8 ++ nonce) :: s.outbox ∧ s'.rd (F.D2D_BDL_STATUS_STATE b) = 2 ∧
        (∀ x, bundleSite b = some x → s'.rd (F.CHK_STATUS_STATE x) = 1) ∧
        s' = { s with regs := s'.regs, bdls := s'.bdls, freeCtr := s'.freeCtr, outbox := s'.outbox }) ∧
    (st ≠ 1 → exec (.moduleTrainingTimeout m) s = .next s) ∧
    (st = 1 → (s.mod m.val).tried = true → ∃ s', exec (.moduleTrainingTimeout m) s = .next s' ∧ s'.modState m.val = 1 ∧
      s'.rd (F.D2D_MOD_STATUS_WIDTH m.val) = 0 ∧ (s'.mod m.val).tried = false ∧
      SMap.get (fun _ => 0) s'.saved.training m.val = 0 ∧
      s' = { s with regs := s'.regs, mods := s'.mods, saved := s'.saved, ssetDirty := s'.ssetDirty }) ∧
    (st = 1 → (s.mod m.val).tried = false → s.rd F.GLB_CFG_STATUS_STATE ≠ 1 →
      ∃ s', exec (.moduleTrainingTimeout m) s = .next s' ∧ s'.modState m.val = 4 ∧
        (∀ k, k ≠ R.D2D_MOD_STATUS m.val → s'.reg k = s.reg k) ∧ s' = { s with regs := s'.regs }) ∧
    (∀ code : BitVec 8, ∃ s', exec (.reservedSidebandMessage m code) s = .next s' ∧
      (1 ≤ code.toNat ∧ code.toNat ≤ 8 → s' = s) ∧
      (code.toNat = 0 ∨ 8 < code.toNat → s'.rd (F.D2D_MOD_ERR_SB_DROP m.val) =
        min (s.rd (F.D2D_MOD_ERR_SB_DROP m.val) + 1) (F.D2D_MOD_ERR_SB_DROP m.val).max) ∧
      (∀ k, k ≠ R.D2D_MOD_ERR m.val → s'.reg k = s.reg k) ∧ s' = { s with regs := s'.regs }) ∧
    ∀ (lane : Fin 66) (rx : Bool),
      let i := halfNo lane.val rx
      let lost := s.rd (F.D2D_MOD_REPAIR_HALF_LOST m.val)
      let calm := s.rd (F.D2D_BDL_STATUS_STATE b) ≠ 3 ∨ s.imageMin b + 2 ≤ s.halves b
      let repaired := fun (f : Fld) => ∃ s', exec (.laneFailed m lane rx) s = .next s' ∧ s'.rd f = s.rd f + 1 ∧
        s'.modState m.val = st ∧ s'.rd (F.D2D_MOD_STATUS_WIDTH m.val) = s.rd (F.D2D_MOD_STATUS_WIDTH m.val) ∧
        s'.rd (F.D2D_MOD_ERR_LAST_LANE m.val) = lane.val ∧ s'.rd (F.D2D_MOD_ERR_LANE_FAIL m.val) = 1 ∧
        SMap.get (fun _ => 0) s'.saved.lanes m.val = (s'.reg (R.D2D_MOD_REPAIR m.val)).toNat
      let off := ∃ s', exec (.laneFailed m lane rx) s = .next s' ∧ s'.modState m.val = 4 ∧
        s'.rd (F.D2D_MOD_STATUS_WIDTH m.val) = 0 ∧ (s'.mod m.val).off = true ∧ m.val ∈ s'.saved.modOff;
      (st = 0 ∨ 3 < st → exec (.laneFailed m lane rx) s = .next s) ∧
      (st = 1 ∨ st = 2 ∨ st = 3 → calm →
        (lane.val = 64 → (s.rd (F.D2D_MOD_REPAIR_CLK_SPARE m.val) = 0 → repaired (F.D2D_MOD_REPAIR_CLK_SPARE m.val)) ∧
          (s.rd (F.D2D_MOD_REPAIR_CLK_SPARE m.val) ≠ 0 → off)) ∧
        (lane.val = 65 → (s.rd (F.D2D_MOD_REPAIR_TRK_SPARE m.val) = 0 → repaired (F.D2D_MOD_REPAIR_TRK_SPARE m.val)) ∧
          (s.rd (F.D2D_MOD_REPAIR_TRK_SPARE m.val) ≠ 0 → off)) ∧
        (lane.val < 64 → lost.testBit i = false →
          (s.rd (spareFld m.val i) < 2 → repaired (spareFld m.val i)) ∧
          (2 ≤ s.rd (spareFld m.val i) → ∃ s', exec (.laneFailed m lane rx) s = .next s' ∧
            (s'.rd (F.D2D_MOD_REPAIR_HALF_LOST m.val)).testBit i = true ∧
            (st ≠ 1 → s'.rd (F.D2D_MOD_STATUS_WIDTH m.val) = s'.widthLeft m.val) ∧
            (s'.widthLeft m.val = 0 → s'.modState m.val = 4) ∧ (s'.widthLeft m.val ≠ 0 → s'.modState m.val = st))))) ∧
  (∀ (b : BundleId) (s : State),
    let fences := fun (i : Instr) (why : Nat) => ∃ s', exec i s = .next s' ∧ dieFenced b.val why s s'
    let step := (s.bdl b.val).step
    (s.fenceWhy b.val ≠ 4 → exec (.moduleTrainingRetry b) s = .next s) ∧
    (s.fenceWhy b.val = 4 → ∃ s', exec (.moduleTrainingRetry b) s = .next s' ∧
      (∀ m ∈ bundleMods b.val, s'.modState m =
        if (s.mod m).off = false ∧ (s.modState m = 0 ∨ s.modState m = 4 ∨ s.modState m = 6) then 1 else s.modState m) ∧
      s'.rd (F.D2D_BDL_STATUS_STATE b.val) =
        (if s.rd (F.D2D_BDL_STATUS_STATE b.val) = 4 then 1 else s.rd (F.D2D_BDL_STATUS_STATE b.val)) ∧
      (8 ≤ b.val → b.val < 10 → s'.rd (F.CLS_DIE_STATUS_STATE (b.val - 8)) = 1) ∧
      s' = { s with regs := s'.regs, mods := s'.mods }) ∧
    (∀ rec, (step ≠ 1 → exec (.rcIdent b rec) s = .next s) ∧
      (step = 1 → s.identOk b.val rec = false → dieIdle b.val s → fences (.rcIdent b rec) 2) ∧
      (step = 1 → s.identOk b.val rec = true → (∃ m ∈ bundleMods b.val, s.modState m = 2 ∨ s.modState m = 3) →
        (∀ m ∈ bundleMods b.val, (s.mod m).tried = true →
          SMap.get (fun _ => 0) s.saved.training m = fieldAt rec 8 8 + 1) →
        ∃ s', exec (.rcIdent b rec) s = .next s' ∧ (s'.bdl b.val).step = 2 ∧
          s'.outbox = .sideband b.val 0x03 (leBytes (s.rolesWord b.val) 4) :: s.outbox ∧
          (s'.bdl b.val).ident = rec ∧ (∀ k, k ≠ R.D2D_BDL_STATUS b.val → s'.reg k = s.reg k) ∧
          s' = { s with regs := s'.regs, bdls := s'.bdls, outbox := s'.outbox })) ∧
    (∀ roles : BitVec 32, (step ≠ 2 → exec (.rcRolesAck b roles) s = .next s) ∧
      (step = 2 → roles.toNat ≠ s.rolesWord b.val → dieIdle b.val s → fences (.rcRolesAck b roles) 2) ∧
      (step = 2 → roles.toNat = s.rolesWord b.val → s.imageMin b.val ≤ s.halves b.val →
        ∃ s', exec (.rcRolesAck b roles) s = .next s' ∧ s'.rd (F.D2D_BDL_STATUS_STATE b.val) = 3 ∧ s'.fenceWhy b.val = 0 ∧
          (s'.bdl b.val).step = 3 ∧ (s'.bdl b.val).serial = some (fieldAt (s.bdl b.val).ident 8 8) ∧
          (∀ w, w < 8 → s'.reg (R.D2D_IDENT b.val w) = w64 (fieldAt (s.bdl b.val).ident (8 * w) 8)) ∧
          Out.sideband b.val 0x05 [] ∈ s'.outbox ∧ (b.val < 8 → s'.rd (F.MEM_STATUS_STATE b.val) = 2) ∧
          (8 ≤ b.val → b.val < 10 → s'.rd (F.CLS_DIE_STATUS_STATE (b.val - 8)) = 2) ∧
          (∀ x, bundleSite b.val = some x →
            s'.rd (F.CHK_STATUS_STATE x) = 3 ∨ (s'.rd (F.CHK_STATUS_STATE x) = 2 ∧ (s'.site x).step = 1)))) ∧
    (step ≠ 1 → step ≠ 2 → exec (.rollcallTimeout b) s = .next s) ∧
    (step = 1 ∨ step = 2 → dieIdle b.val s → fences (.rollcallTimeout b) 1) ∧
    (∀ code : BitVec 8, (code.getLsbD 7 = false → exec (.rcHealth b code) s = .next s) ∧
      (code.getLsbD 7 = true → s.emptyBundle b.val = false → dieIdle b.val s → s.classOf 0x0601 = 0 →
        ∃ s', exec (.rcHealth b code) s = .next s' ∧ dieFenced b.val 8 s s' ∧ s'.rd F.TLS_LAST_CODE = 0x0601)) ∧
    ((∃ m ∈ bundleMods b.val, s.modState m = 2) → dieIdle b.val s →
      ¬ (s.fenceWhy b.val ≠ 0 ∧ s.rd (F.D2D_BDL_STATUS_STATE b.val) = 4) →
      fences (.dieLinkDown b)
        (if 3 ≤ ((s.bdl b.val).downs.filter fun t => decide (s.now ≤ t + 1000000000)).length then 9 else 4))) ∧
  ∀ (x : SiteId) (s : State),
    let st := s.rd (F.CHK_STATUS_STATE x.val)
    let y := s.site x.val
    let fails := fun (i : Instr) => ∃ s', exec i s = .next s' ∧ s'.rd (F.CHK_STATUS_STATE x.val) = 3 ∧
      s'.rd (F.CHK_STATUS_ATTEST_FAIL x.val) = 1 ∧ (s'.site x.val).step = 0
    (st ≠ 2 → exec (.attestTimeout x) s = .next s) ∧ (st = 2 → fails (.attestTimeout x)) ∧
    (∃ s', exec (.enXiAfterFence x) s = .next s' ∧
      (untilReset (s.fenceWhy (10 + x.val)) = true → s'.pins.enLow.testBit (3 + x.val) = true) ∧
      (untilReset (s.fenceWhy (10 + x.val)) = false → s' = s) ∧ s' = { s with pins := { s.pins with enLow := s'.pins.enLow } }) ∧
    ∀ (b : BundleId) (q : Nat) (last : Bool) (frag : List Byte), b.val = 10 + x.val →
      (st ≠ 2 ∨ y.step = 0 ∨ q ≠ y.fragSeq ∨ 64 < frag.length → exec (.rcSpdm b q last frag) s = .next s) ∧
      (st = 2 → y.step ≠ 0 → q = y.fragSeq → frag.length ≤ 64 →
        (last = false → ∃ s', exec (.rcSpdm b q last frag) s = .next s' ∧
          s'.site x.val = { y with frags := y.frags ++ frag, fragSeq := q + 1 } ∧ (∀ j, j ≠ x.val → s'.site j = s.site j) ∧
          s' = { s with sites := s'.sites }) ∧
        (let ok := s.siteAnswerOk x.val y.step ((s.siteGrant x.val).getD []) (y.frags ++ frag);
          (last = true → ok = false → fails (.rcSpdm b q last frag)) ∧
          (last = true → ok = true → y.step = 7 → ∃ s', exec (.rcSpdm b q last frag) s = .next s' ∧
            s'.rd (F.CHK_STATUS_STATE x.val) = 4 ∧ (s'.site x.val).step = 0) ∧
          (last = true → ok = true → y.step ≠ 7 → ∃ s', exec (.rcSpdm b q last frag) s = .next s' ∧
            s'.rd (F.CHK_STATUS_STATE x.val) = 2 ∧ (s'.site x.val).step = y.step + 1 ∧ s'.regs = s.regs)))

/-- SITE_RD, SITE_WR, SITE_ATOM and SIGNAL (R320, R323–R327): a die that is not admitted is ignored; a request that the firewall passes is mapped
by its window, draws its tokens and reads, writes or combines the owner's bytes, or adds to the notify object; one that it refuses is counted
and answered with an error, and where it is no use of an inactive window, noted, recorded and, where the image asks for it, followed by the
die's fence; nothing of the owner's memory changes. -/
def Obligations.SiteRequests : Prop :=
  ∀ (q : SiteReq) (ecc : Ecc) (s : State),
    let x := q.site.val
    let row := fun (k : SiteKind) =>
      match k with
      | .rd => Instr.siteRd q ecc
      | .wr => .siteWr q
      | .atom => .siteAtom q
      | .signal => .siteSignal q
    (s.siteAdmitted x = false → ∀ k, exec (row k) s = .next s) ∧
    (s.siteAdmitted x = true → s.siteHeld x < 1024 → s.rd F.PWR_STATUS_STATE < 2 → ∀ k,
      (∀ e, s.siteCheck k q = .error e →
        (e = 3 → ∃ s', exec (row k) s = .next s' ∧ siteAnswered q true [] s s' ∧
          s'.rd (F.CHK_VIOL_COUNT x) = min (s.rd (F.CHK_VIOL_COUNT x) + 1) (F.CHK_VIOL_COUNT x).max ∧
          (∀ j, j ≠ R.CHK_VIOL x → s'.reg j = s.reg j) ∧ s' = { s with regs := s'.regs, outbox := s'.outbox }) ∧
        (e ≠ 3 → s.classOf 0x0602 = 0 → s.on (F.CHK_CFG_FENCE_ON_VIOL x) = false →
          ∃ s', exec (row k) s = .next s' ∧ siteAnswered q true [] s s' ∧
            s'.rd (F.CHK_VIOL_COUNT x) = min (s.rd (F.CHK_VIOL_COUNT x) + 1) (F.CHK_VIOL_COUNT x).max ∧
            s'.rd (F.CHK_VIOL_KIND x) = k.no ∧ s'.rd (F.CHK_VIOL_CAUSE x) = e ∧ s'.rd (F.CHK_VIOL_VALID x) = 1 ∧
            s'.rd F.TLS_LAST_CODE = 0x0602 ∧ logged 0x0602 (srcSite x) (faultDetail none 0 q.addr.toNat []) s s' ∧
            s'.devMem = s.devMem ∧ s'.ctxs = s.ctxs) ∧
        (e ≠ 3 → s.classOf 0x0602 = 0 → s.on (F.CHK_CFG_FENCE_ON_VIOL x) = true → dieIdle (10 + x) s →
          ∃ s', exec (row k) s = .next s' ∧ dieFenced (10 + x) 6 s s')) ∧
      ∀ w, s.siteCheck k q = .ok w →
        let c := s.rd (F.CHK_WIN_A_OWNER x w)
        let a := s.rd (F.CHK_WIN_B_CTX_BASE x w) * 4096 + (q.addr.toNat - (s.winSpan x w).1)
        let l := s.locate c a
        let n := siteLen k q
        (k = .signal →
          ∀ u, siteDraw x c k (l.1 / 32) 0 n s = .ok u →
          (s.notifyObj x w = none → ∃ s', exec (row k) s = .next s' ∧ siteAnswered q false [] s s' ∧ s'.buckets = u.buckets ∧
            s' = { s with outbox := s'.outbox, buckets := s'.buckets }) ∧
          (∀ o, s.notifyObj x w = some o → ∃ s', exec (row k) s = .next s' ∧ siteAnswered q false [] s s' ∧
            s'.rd (F.SYN_CNT_COUNT o) = min (s.rd (F.SYN_CNT_COUNT o) + q.operand.toNat) (2 ^ 64 - 1) ∧
            (∀ j, j ≠ R.SYN_CNT o → j ≠ R.SYN_CTL o → s'.reg j = s.reg j) ∧ s'.buckets = u.buckets ∧
            s' = { s with outbox := s'.outbox, buckets := s'.buckets, regs := s'.regs, ctxs := s'.ctxs })) ∧
        (k ≠ .signal → ∀ u, siteDraw x c k (l.1 / 32) 0 n s = .ok u → s.areaHeld c [(a, n)] = false → flatServes s c →
          flatOnce s c → a + n ≤ s.range c →
          (k = .rd → ecc = .clean → ∃ s', exec (row k) s = .next s' ∧
            siteAnswered q false ((List.range n).map fun i => s.flatByte c (a + i)) s s' ∧ s'.buckets = u.buckets ∧
            s' = { s with outbox := s'.outbox, buckets := s'.buckets, chans := s'.chans }) ∧
          (k = .wr → ∃ s', exec (row k) s = .next s' ∧ siteAnswered q false [] s s' ∧ s'.buckets = u.buckets ∧
            (∀ i, i < n → s'.flatByte c (a + i) = q.data.getD i 0) ∧ memKept c (fun y => a ≤ y ∧ y < a + n) s s' ∧
            s' = { s with outbox := s'.outbox, buckets := s'.buckets, chans := s'.chans, devMem := s'.devMem,
                          ueMarks := s'.ueMarks }) ∧
          (k = .atom → ∃ s', exec (row k) s = .next s' ∧
            (let at' := fun (v : State) => leNat ((List.range n).map fun i => v.flatByte c (a + i));
              siteAnswered q false (leBytes (at' s) n) s s' ∧
              at' s' = atomResult q.op.val (widthBits q.width.val) (at' s) q.operand.toNat q.compare.toNat %
                2 ^ widthBits q.width.val) ∧ s'.buckets = u.buckets ∧ memKept c (fun y => a ≤ y ∧ y < a + n) s s' ∧
            s' = { s with outbox := s'.outbox, buckets := s'.buckets, chans := s'.chans, devMem := s'.devMem,
                          ueMarks := s'.ueMarks })))

/-! ### Role commands (chapter 13) -/

/-- How a role command is judged (R413–R419, R447): while its path is in use, or an answer of it would need an alias pair that is being
derived, it waits; otherwise form, serial, challenge, right, signer and signature are checked in this order, and the first that fails is
answered with its STATUS, counted and recorded, and changes nothing else but that a signed command uses up its challenge. The mailbox is
polled, and overruns at more than four commands; challenges lapse after 60 s, and a staging session after 600 s; the alias pair's KEY_ID
shows once it is derived, and an opening of debug ends then; a cleared channel lets its context go on. Bytes 26 to 28 of the record are the
model's reading (log entry 16). -/
def Obligations.RoleCommandsJudged : Prop :=
  (∀ p ∈ roleRows, ∀ (c : RoleCmd) (s : State),
    let code := p.1
    let i := p.2 c
    let key := pairKey c.sig
    let refused := fun (st : Nat) => ∃ s', exec i s = .next s' ∧ roleAnswered code c st 0 [] s s' ∧
      s'.rd F.HWD_COUNT_REFUSED = min (s.rd F.HWD_COUNT_REFUSED + 1) 65535 ∧
      s'.rd F.HWD_COUNT_ACCEPTED = s.rd F.HWD_COUNT_ACCEPTED ∧ s'.hw = usedUp c s.hw ∧
      (s.lc ≠ 3 → logged 0x8002 srcHeartwood
        ((if c.role.val = 0 then zeros 24 else slice key 0 24) ++
          [byte (b2n c.mctp), byte (if c.role.val = 3 then (s.operatorIndex key).getD 0xFF else 0xFF)] ++ leBytes code 2 ++
          [byte st]) s s') ∧
      (∀ k, isRole k = false → s'.reg k = s.reg k) ∧
      s' = { s with regs := s'.regs, hcfg := s'.hcfg, outbox := s'.outbox, hw := s'.hw, mbx := s'.mbx, bb := s'.bb, tls := s'.tls }
    let formed := s.formatOk code c = true
    let locked := s.lc = 4 ∧ code ≠ 0x01 ∧ code ≠ 0x02 ∧ code ≠ 0x11 ∧ code ≠ 0x33
    let may := rightOk s.lc code c.role.val = true;
    (s.roleWaits c = true → exec i s = .next s) ∧
    (s.roleWaits c = false →
      (¬ formed → refused 0x01) ∧
      (formed → c.serial.toNat ≠ s.serial → c.role.val ≠ 0 ∨ c.serial.toNat ≠ 0 → refused 0x02) ∧
      (formed → c.serial.toNat = s.serial → c.role.val ≠ 0 → s.challengeLive c.chal = false → refused 0x03) ∧
      (formed → s.step2 code c = 0 → locked → refused 0x06) ∧
      (formed → s.step2 code c = 0 → ¬ locked → ¬ may → refused 0x04) ∧
      (formed → s.step2 code c = 0 → ¬ locked → may → s.step4 code c = false → refused 0x04) ∧
      (formed → s.step2 code c = 0 → ¬ locked → may → s.step4 code c = true → step5 code c = false → refused 0x05))) ∧
  ∀ s : State,
    (s.hwdUp = false → exec .mbxPoll s = .next s) ∧
    (s.hwdUp = true → s.hw.dbg = none → s.hw.wiping = none →
      let h := s.rd F.MBX_CMD_HEAD_HEAD
      let n := (s.rd F.MBX_CMD_TAIL_TAIL + 2 ^ 32 - h) % 2 ^ 32
      let x := parseCommand false (s.slotBytesAt h 65536)
      let shows := fun (v : Nat) => ∃ s', exec .mbxPoll s = .next s' ∧ s'.rd F.MBX_STATUS_OVERRUN = v ∧
        (∀ k, k ≠ R.MBX_STATUS → s'.reg k = s.reg k) ∧ s' = { s with regs := s'.regs };
      (4 < n → shows 1) ∧ (n = 0 ∨ s.on F.MBX_STATUS_BUSY = true → n ≤ 4 → shows 0) ∧
      (1 ≤ n → n ≤ 4 → s.on F.MBX_STATUS_BUSY = false →
        (x.2.2 = true → ∀ p ∈ roleRows, p.1 = x.1 → exec .mbxPoll s = exec (p.2 x.2.1) (s.wr F.MBX_STATUS_OVERRUN 0)) ∧
        (x.2.2 = false → s.roleWaits x.2.1 = false → ∃ s', exec .mbxPoll s = .next s' ∧
          roleAnswered (x.1 % 65536) x.2.1 0x01 0 [] s s'))) ∧
    (∃ s', exec .challengeExpiry s = .next s' ∧
      (∀ e, e ∈ s'.hw.challenges ↔ e ∈ s.hw.challenges ∧ s.now ≤ e.at' + 60000000000) ∧
      s' = { s with hw := { s.hw with challenges := s'.hw.challenges } }) ∧
    (s.hw.staging = none → exec .stagingTimeout s = .next s) ∧
    (∀ x, s.hw.staging = some x → s.now < x.last + 600000000000 → exec .stagingTimeout s = .next s) ∧
    (∀ x, s.hw.staging = some x → x.last + 600000000000 ≤ s.now → ∃ s', exec .stagingTimeout s = .next s' ∧
      s'.hw = { s.hw with staging := none } ∧ s'.rd F.MBX_STATUS_SESSION = 0 ∧
      (∀ k, k ≠ R.MBX_STATUS → s'.reg k = s.reg k) ∧ s' = { s with regs := s'.regs, hw := s'.hw }) ∧
    (s.hwdUp = false ∨ s.hw.keysOk = false ∨ s.hw.aliasOk = true → exec .aliasDerived s = .next s) ∧
    (s.hwdUp = true → s.hw.keysOk = true → s.hw.aliasOk = false →
      (s.hw.dbg = none → ∃ s', exec .aliasDerived s = .next s' ∧ s'.hw = { s.hw with aliasOk := true } ∧
        s'.aliasId = (List.range 6).flatMap (fun w =>
          leBytes (w64 (fieldAt (sha384 (s.aliasRecord (s.on F.HWD_STATUS_DEBUG_ON))) (8 * w) 8)).toNat 8) ∧
        (∀ k, (∀ w, w < 6 → k ≠ R.HWD_ALIAS w) → s'.reg k = s.reg k) ∧ s' = { s with regs := s'.regs, hw := s'.hw }) ∧
      (∀ d, s.hw.dbg = some d → (∀ c ∈ d.clears, s.clearingOf c = false) → ∃ s', exec .aliasDerived s = .next s' ∧
        s'.on F.HWD_STATUS_DEBUG_ON = true ∧ s'.on F.TLS_STATUS_PROMISE = false ∧ s'.hw.dbg = none ∧
        s'.hw.scopes = s.hw.scopes ||| d.scope ∧ s'.rd F.MBX_STATUS_LAST_CODE = 0x12 ∧ s'.rd F.MBX_STATUS_LAST_STATUS = 0 ∧
        s'.on (pathFld d.mctp) = false)) ∧
    ∀ ch : ChanId, s.hw.dbg = none → s.hw.wiping = none →
      ((s.chan ch.val).clearing = false → exec (.channelClearDone ch) s = .next s) ∧
      ((s.chan ch.val).clearing = true → ∃ s', exec (.channelClearDone ch) s = .next s' ∧
        (∀ k, SMap.get memDefault s'.devMem k = if k / 2 ^ 32 = ch.val then memDefault k else SMap.get memDefault s.devMem k) ∧
        (s'.chan ch.val).clearing = false ∧ (s'.chan ch.val).clean = true ∧
        ∀ c, s.ownerOf ch.val = some c → (∀ j ∈ s.ownedChannels c, j ≠ ch.val → (s.chan j).clearing = false) →
          (s.ctxState c = 1 → (∀ j ∈ s.ownedChannels c, s.chDead j = false) → s'.ctxState c = 2) ∧
          (s.ctxState c = 6 → s.on (F.CTX_STATE_SCRUB c) = true →
            s'.on (F.CTX_STATE_SCRUB c) = false ∧ s'.ctxState c = if (s.ctx c).stopPending then 0 else 2))

/-- What an accepted role command does (R410, R411, R415, R417, R421–R427, R437, R442, R444, R448–R450, R478, R484, R495): each of the twenty-one
rows, from every state in which it is accepted. GET_IDENTITY's data have the model's layout (log entry 17). Life-cycle copies are programmed
unless a fuse does not take, which is a free value of the model (log entry 4); END_OF_LIFE and DEBUG_ENABLE are stated for a device on which
nothing runs that they would end. -/
def Obligations.RoleCommandsAct : Prop :=
  ∀ (c : RoleCmd) (s : State),
    let a := c.args
    let n := fieldAt a 0 1
    let used := usedUp c s.hw
    let acts := fun (code : Nat) (mk : RoleCmd → Instr) (ks : List Nat) (data : State → List Byte) (t : State → Prop) =>
      roleAccepts code c s → ∃ s', exec (mk c) s = .next s' ∧ roleAnswered code c 0 0 (data s') s s' ∧
        s'.rd F.HWD_COUNT_ACCEPTED = (s.rd F.HWD_COUNT_ACCEPTED + 1) % 2 ^ 32 ∧
        (∀ k, isRole k = false → k ∉ ks → s'.reg k = s.reg k) ∧ t s'
    let plain := fun (s' : State) =>
      { s with regs := s'.regs, hcfg := s'.hcfg, outbox := s'.outbox, hw := s'.hw, mbx := s'.mbx, bb := s'.bb, tls := s'.tls }
    let setting := fun (s' : State) =>
      { plain s' with saved := s'.saved, sset0 := s'.sset0, sset1 := s'.sset1, ssetDirty := s'.ssetDirty }
    let copies := fun (k : Nat) (s' : State) => ∀ j, j < 3 → s'.lcCopy j &&& lcPattern k = lcPattern k
    let fails := ∃ j k, Config.fuseFails j k = true;
    (a = [] → ∃ x, x.length = 32 ∧ acts 0x01 .getChallenge [] (fun _ => x) fun s' =>
      s'.hw = { s.hw with challenges := ({ val := x, at' := s.now } :: s.hw.challenges).take 8 } ∧
      s' = { plain s' with freeCtr := s'.freeCtr }) ∧
    (a = [1] → (∀ x, s.hw.debugChal = some x → acts 0x01 .getChallenge [] (fun _ => x) fun s' => s'.hw = s.hw ∧ s' = plain s') ∧
      (s.hw.debugChal = none → ∃ x, x.length = 32 ∧ acts 0x01 .getChallenge [] (fun _ => x) fun s' =>
        s'.hw = { s.hw with debugChal := some x } ∧ s' = { plain s' with freeCtr := s'.freeCtr })) ∧
    acts 0x02 .getIdentity [] (fun _ => s.identityData) (fun s' => s'.hw = s.hw ∧ s' = plain s') ∧
    acts 0x03 .getCerts [] (fun _ => s.certSlot n) (fun s' => s'.hw = s.hw ∧ s' = plain s') ∧
    (roleAccepts 0x10 c s → ∃ s', exec (.lcAdvance c) s = .next s' ∧ (fails ∨ (copies n s' ∧ s'.boot.cause = 1))) ∧
    (roleAccepts 0x11 c s → ∃ s', exec (.lcResume c) s = .next s' ∧ (fails ∨ (copies n s' ∧ s'.boot.cause = 1))) ∧
    (roleAccepts 0x12 c s → deviceQuiet s → ∃ s', exec (.debugEnable c) s = .next s' ∧ s'.hw.aliasOk = false ∧
      (∀ w, w < 6 → s'.reg (R.HWD_ALIAS w) = 0) ∧ s'.sessions = [] ∧ s'.spdm = [] ∧ s'.on (pathFld c.mctp) = true ∧
      (∀ i, (s'.stream i).secure = false ∨ s'.stream i = s.stream i) ∧ (∀ q, q < 32 → s'.rd (F.CLS_PORT_STATUS_STATE q) = 0) ∧
      ∃ d, s'.hw.dbg = some d ∧ d.scope = (if s.lc = 1 then 0x1F else fieldAt a 1 1) ∧ d.mctp = c.mctp ∧
        d.clears = s.clearingCtxs ∧ d.aliasOk = false) ∧
    (roleAccepts 0x13 c s → deviceQuiet s → s.clearingCtxs = [] → ∃ s', exec (.endOfLife c) s = .next s' ∧
      (fails ∨ (s'.lc = 3 ∧ copies 3 s' ∧ s'.flash = [] ∧ s'.sset0 = none ∧ s'.sset1 = none ∧ s'.image = none ∧
        ∀ j, j < 0x20 → s'.otpByte j = 0xFF))) ∧
    acts 0x20 .claim [R.HWD_STATUS] (fun _ => []) (fun s' =>
      (∀ j, j < 48 → fused (0x40 + 48 * fieldAt a 1 1 + j) ((slice a 0x10 48).getD j 0) s') ∧
      fusesOnly (fun y => 0x40 + 48 * fieldAt a 1 1 ≤ y ∧ y < 0x70 + 48 * fieldAt a 1 1) s s' ∧
      (SMap.wf (fun _ => 0) s.otp = true → s'.rd F.HWD_STATUS_CLAIMED = b2n s'.curSlot.isSome ∧
        s'.rd F.HWD_STATUS_INST_SLOT = s'.curSlot.getD 0) ∧ s'.hw = used ∧ s' = { plain s' with otp := s'.otp }) ∧
    acts 0x21 .releaseDevice [] (fun _ => []) (fun s' => (∀ i, s.curSlot = some i → fused 0x121 (byte (2 ^ i)) s') ∧
      fusesOnly (fun y => y = 0x121) s s' ∧ s'.hw = used ∧ s' = { plain s' with otp := s'.otp }) ∧
    (let id := s.hw.sessions % 65535 + 1;
      acts 0x22 .stageBegin [] (fun _ => leBytes id 2) fun s' => s'.rd F.MBX_STATUS_SESSION = id ∧
        s'.hw = { used with sessions := id, staging := some { id := id, mctp := c.mctp, bank := n, length := fieldAt a 1 4,
                                                              digest := slice a 5 48, last := s.now } } ∧ s' = plain s') ∧
    (∀ x, s.hw.staging = some x → acts 0x23 .stageWrite [] (fun _ => []) fun s' =>
      let at' := bankBase x.bank + fieldAt a 0 4
      (∀ y, SMap.get (fun _ => 0xFF) s'.flash y =
        if at' ≤ y ∧ y < at' + (a.length - 4) then (a.drop 4).getD (y - at') 0 else SMap.get (fun _ => 0xFF) s.flash y) ∧
      s'.hw = { s.hw with staging := some { x with last := s.now } } ∧ s' = { plain s' with flash := s'.flash }) ∧
    (∀ x, s.hw.staging = some x → acts 0x24 .stageCommit [R.HWD_STATUS] (fun _ => []) fun s' =>
      s'.saved.nextBank = x.bank ∧ s'.saved.trial = true ∧ s'.saved.tried = false ∧ s'.saved.staged = true ∧
      s'.rd F.HWD_STATUS_STAGED = 1 ∧ s'.rd F.MBX_STATUS_SESSION = 0 ∧ s'.hw = { used with staging := none } ∧ s' = setting s') ∧
    acts 0x25 .stageAbort [R.HWD_STATUS] (fun _ => [0, 1, 3, 18].flatMap s.refuserBytes) (fun s' =>
      s'.rd F.MBX_STATUS_SESSION = 0 ∧ s'.hw = { used with staging := none } ∧
      (s.saved.staged = true → s'.saved.staged = false ∧ s'.saved.trial = false ∧ s'.saved.nextBank = 0 ∧
        s'.rd F.HWD_STATUS_STAGED = 0) ∧
      (s.saved.staged = false → s'.saved = s.saved) ∧ s' = setting s') ∧
    acts 0x26 .svnCommit [R.HWD_STATUS] (fun _ => []) (fun s' =>
      (∀ j, j < 16 → fused (0x100 + j) ((leBytes (2 ^ s.runSvn - 1) 16).getD j 0) s') ∧
      fusesOnly (fun y => 0x100 ≤ y ∧ y < 0x110) s s' ∧
      (SMap.wf (fun _ => 0) s.otp = true → s'.rd F.HWD_STATUS_SVN_FLOOR = s'.svnFloor) ∧ s'.hw = used ∧
      s' = { plain s' with otp := s'.otp }) ∧
    acts 0x27 .operatorEnrol [] (fun _ => []) (fun s' =>
      (∀ i, SMap.get (fun _ => zeros 48) s'.saved.operators i =
        if i = fieldAt a 440 1 then sha384 (a.take 440) else s.operatorAt i) ∧
      s'.saved.opInst = s.installer.getD [] ∧ s'.saved.opEpoch = s.oprEpoch ∧ s'.hw = used ∧ s' = setting s') ∧
    acts 0x28 .operatorRevoke [R.HWD_STATUS] (fun _ => []) (fun s' =>
      (∀ i, SMap.get (fun _ => zeros 48) s'.saved.operators i = if i = n then zeros 48 else s.operatorAt i) ∧
      (∀ j, j < 16 → fused (0x110 + j) ((leBytes (2 ^ (s.oprEpoch + 1) - 1) 16).getD j 0) s') ∧
      fusesOnly (fun y => 0x110 ≤ y ∧ y < 0x120) s s' ∧
      (SMap.wf (fun _ => 0) s.otp = true → s'.rd F.HWD_STATUS_OPR_EPOCH = s'.oprEpoch ∧ s'.saved.opEpoch = s'.oprEpoch) ∧
      s'.hw = used ∧ s' = { setting s' with otp := s'.otp }) ∧
    (roleAccepts 0x30 c s → ∃ s', exec (.ctxStart c) s = .next s' ∧ roleAnswered 0x30 c 0 0 [] s s' ∧ (s'.ctx n).ops = [] ∧
      s'.rd (F.CTXW_RING_STATUS_HEAD n) = 0 ∧
      s'.ctxState n = (if ∀ ch ∈ s.ownedChannels n, (s.chan ch).clean = true then 2 else 1) ∧
      (∀ d, d ≠ n → s'.ctx d = s.ctx d ∧ s'.ctxState d = s.ctxState d) ∧ s'.devMem = s.devMem) ∧
    (roleAccepts 0x31 c s → ∃ s', exec (.ctxStop c) s = .next s' ∧ roleAnswered 0x31 c 0 0 [] s s' ∧
      (s.ctxState n = 6 → s'.ctxState n = 6 ∧ (s'.ctx n).stopPending = true) ∧
      (s.endable n = true → (s'.ctx n).ops = []) ∧
      (s.ctxState n ≤ 5 → s'.ctxState n = if s'.on (F.CTX_STATE_SCRUB n) then 6 else 0)) ∧
    (let m := powerArgs a
      let st := s.rd F.PWR_STATUS_STATE;
      (s.power.move = none → m.1 = st → acts 0x32 .powerState [R.PWR_STATUS, R.PWR_LIMIT] State.moveData fun s' =>
        s'.rd F.PWR_STATUS_LAST_RESULT = 0 ∧ s'.rd F.PWR_STATUS_STATE = st ∧
        (∀ w, m.2 = some w → s'.rd F.PWR_LIMIT_RUN_W = w) ∧ s'.hw = used ∧ s' = plain s') ∧
      (s.power.move = none → m.1 ≠ st → m.1 < st ∨ s.on F.TLS_ROT_BUSY = false → roleAccepts 0x32 c s → ∃ s', exec (.powerState c) s = .next s' ∧
        s'.rd F.PWR_STATUS_BUSY = 1 ∧ s'.rd F.PWR_STATUS_STATE = st ∧ s'.on (pathFld c.mctp) = true ∧
        ∃ x, s'.power.move = some x ∧ x.who = (if c.mctp then 2 else 1) ∧ s'.rd F.PWR_STATUS_TARGET = x.target ∧
          (x.target = m.1 ∨ x.thenTo = some m.1)) ∧
      (s.power.move ≠ none → roleAccepts 0x32 c s → ∃ s' x, exec (.powerState c) s = .next s' ∧ s'.power.move = s.power.move ∧
        s'.power.waiting = some x ∧ x.target = m.1 ∧ x.limit = m.2)) ∧
    acts 0x33 .bbxRead [] (fun _ => ((s.recordsFrom (fieldAt a 0 6)).take (fieldAt a 6 2)).flatten)
      (fun s' => s'.hw = used ∧ s'.bb.slots = s.bb.slots ∧ s' = plain s') ∧
    (let r := s.report (slice a 0 32) (fieldAt a 32 2);
      acts 0x34 .attestReport [] (fun _ => r ++ aliasPair s .askord r) fun s' =>
        s'.rd F.HWD_COUNT_REPORTS = (s.rd F.HWD_COUNT_REPORTS + 1) % 65536 ∧ s'.hw = used ∧ s' = plain s')

/-! ### SPDM and MCTP (chapters 11, 13) -/

/-- The SPDM requests and MCTP_MESSAGE (R358, R359, R408, R419, R435, R436): a responder without its alias pair is silent; a session that is not
open, a request before its place in the negotiation, and a negotiation inside a session are errors; otherwise the response leaves, and request
and response join the transcript: the negotiation moves on, the certificate slots, the digests and the measurement blocks are given, a session
opens while fewer than four are open, and a request inside a session is acknowledged. A message over MCTP completes, and leaves the state that the
request or the role command that it carries leaves; another message changes nothing. Codes and order are those of the standard (the model's, log entry 18). -/
def Obligations.SpdmRequests : Prop :=
  (∀ (r : SpdmReq) (s : State),
    let talk := s.talk r.mctp
    let sends := fun (i : Instr) (req code : Nat) (body : List Byte) (next : Spdm → Spdm) (t : State → Prop) =>
      ∃ s', exec i s = .next s' ∧ s'.outbox = .doeObject r.mctp ([0x12, byte code] ++ body) :: s.outbox ∧
        s'.doe = (if r.mctp then s.doe else { s.doe with busy := false }) ∧
        s'.talk r.mctp = { next talk with
          transcript := (next talk).transcript ++ [byte req] ++ r.body ++ ([0x12, byte code] ++ body) } ∧
        s'.talk (!r.mctp) = s.talk (!r.mctp) ∧ t s' ∧
        s' = { s with outbox := s'.outbox, doe := s'.doe, spdm := s'.spdm, regs := s'.regs, sessions := s'.sessions }
    let same := fun (s' : State) => s'.regs = s.regs ∧ s'.sessions = s.sessions
    let plain := fun (i : Instr) (req code : Nat) (body : List Byte) => sends i req code body id same
    let error := fun (i : Instr) (req e : Nat) => plain i req 0x7F [byte e, 0]
    let laid := fun (t : Spdm) (req : Nat) => Config.standardReply (t.transcript ++ [byte req]) r.body
    let rows : List (Nat × Nat × Instr) :=
      [(0x84, 0, .getVersion r), (0xE1, 1, .getCapabilities r), (0xE3, 2, .negotiateAlgorithms r), (0x81, 3, .getDigests r),
       (0x82, 3, .getCertificate r), (0x83, 3, .challenge r), (0xE0, 3, .getMeasurements r), (0xE4, 3, .keyExchange r),
       (0xE8, 3, .heartbeat r), (0xE9, 3, .keyUpdate r)]
    let late := fun (k : Nat) => (1 ≤ k ∧ talk.versioned = false) ∨ (2 ≤ k ∧ talk.capable = false) ∨
      (3 ≤ k ∧ talk.negotiated = false) ∨ (k < 3 ∧ r.ses.isSome = true)
    let ready := fun (k : Nat) => s.spdmUp = true ∧ s.inOpen r = true ∧ ¬ late k
    let i := fieldAt r.body 0 1
    let cert := s.certSlot i
    let off := fieldAt r.body 2 2
    let part := (cert.drop off).take (fieldAt r.body 4 2)
    let op := fieldAt r.body 1 1
    let blk := fun (j : Nat) => ((s.measBlock (slice r.body 2 32) (s.measSubject r) j).map (measFrame j)).getD []
    let sig := if (fieldAt r.body 0 1).testBit 0 then laid talk 0xE0 else []
    let counted := fun (s' : State) => s'.rd F.HWD_COUNT_REPORTS = (s.rd F.HWD_COUNT_REPORTS + 1) % 65536 ∧
      (∀ k, k ≠ R.HWD_COUNT → s'.reg k = s.reg k) ∧ s'.sessions = s.sessions;
    (∀ x ∈ rows, (s.spdmUp = false → exec x.2.2 s = .next s) ∧
      (s.spdmUp = true → s.inOpen r = false → error x.2.2 x.1 0x01) ∧
      (s.spdmUp = true → s.inOpen r = true → late x.2.1 → error x.2.2 x.1 0x04)) ∧
    (ready 0 → sends (.getVersion r) 0x84 0x04 (laid Spdm.init 0x84) (fun _ => { Spdm.init with versioned := true }) same) ∧
    (ready 1 → sends (.getCapabilities r) 0xE1 0x61 (zeros 6 ++ leBytes 0x62D6 4) (fun t => { t with capable := true }) same) ∧
    (ready 2 → sends (.negotiateAlgorithms r) 0xE3 0x63 (laid talk 0xE3) (fun t => { t with negotiated := true }) same) ∧
    (ready 3 →
      plain (.getDigests r) 0x81 0x01 ([0, 3] ++ sha384 (s.certSlot 0) ++ sha384 (s.certSlot 1)) ∧
      (1 < i ∨ cert.length < off → error (.getCertificate r) 0x82 0x01) ∧
      (i ≤ 1 → off ≤ cert.length → plain (.getCertificate r) 0x82 0x02
        ([byte i, 0] ++ leBytes part.length 2 ++ leBytes (cert.length - off - part.length) 2 ++ part)) ∧
      (1 < i → error (.challenge r) 0x83 0x01) ∧
      (i ≤ 1 → plain (.challenge r) 0x83 0x03 ([byte i, 1] ++ sha384 cert ++ laid talk 0x83)) ∧
      (s.on F.HWD_STATUS_TRIAL = true → s.rd F.GLB_CFG_STATUS_STATE ≠ 1 → error (.getMeasurements r) 0xE0 0x42) ∧
      (s.on F.HWD_STATUS_TRIAL = false ∨ s.rd F.GLB_CFG_STATUS_STATE = 1 →
        (op = 0 → plain (.getMeasurements r) 0xE0 0x60 ([9, 0] ++ sig)) ∧
        (op = 0xFF → sends (.getMeasurements r) 0xE0 0x60 ([0, 0, 9] ++ measIndices.flatMap blk ++ sig) id counted) ∧
        (op ∈ measIndices → sends (.getMeasurements r) 0xE0 0x60 ([0, 0, 1] ++ blk op ++ sig) id
          (if op = 0x40 then counted else same)) ∧
        (op ≠ 0 → op ≠ 0xFF → op ∉ measIndices → error (.getMeasurements r) 0xE0 0x01)) ∧
      (r.ses.isSome = true → error (.keyExchange r) 0xE4 0x04) ∧
      (r.ses = none → 4 ≤ s.sessions.length → error (.keyExchange r) 0xE4 0x0A) ∧
      (r.ses = none → s.sessions.length < 4 →
        sends (.keyExchange r) 0xE4 0x64 ([0, 0] ++ leBytes (s.newSession r / 65536) 2 ++ laid talk 0xE4) id fun s' =>
          s'.regs = s.regs ∧ ∃ x : Session, s'.sessions = s.sessions ++ [x] ∧ x.id = s.newSession r ∧ x.mctp = r.mctp ∧
            x.tdi = none) ∧
      (r.ses = none → error (.heartbeat r) 0xE8 0x04 ∧ error (.keyUpdate r) 0xE9 0x04) ∧
      ∀ n, r.ses = some n →
        let inSession := fun (f : Session → Session) (s' : State) => s'.regs = s.regs ∧
          s'.sessions = s.sessions.map fun x => if x.id = n ∧ x.mctp = r.mctp then f x else x;
        sends (.heartbeat r) 0xE8 0x68 (slice r.body 0 2) id (inSession fun x => { x with beats := x.beats + 1 }) ∧
        sends (.keyUpdate r) 0xE9 0x69 (slice r.body 0 2) id (inSession fun x =>
          if i = 3 then x else { x with secret := Config.derive x.secret (slice r.body 0 1) }))) ∧
  ∀ (bs : List Byte) (s : State),
    let t := fieldAt bs 0 1
    let x := parseCommand true (bs.drop 3)
    let carries := fun (ses : Option Nat) (m : List Byte) =>
      let r : SpdmReq := { mctp := true, ses := ses, body := m.drop 2 }
      ∀ y ∈ ([(0x84, .getVersion r), (0xE1, .getCapabilities r), (0xE3, .negotiateAlgorithms r), (0x81, .getDigests r),
          (0x82, .getCertificate r), (0x83, .challenge r), (0xE0, .getMeasurements r), (0xE4, .keyExchange r),
          (0xE8, .heartbeat r), (0xE9, .keyUpdate r)] : List (Nat × Instr)),
        fieldAt m 1 1 = y.1 → ∃ s', exec (.mctpMessage bs) s = .next s' ∧ exec y.2 s = .next s';
    (s.hwdUp = false ∨ (t ≠ 0x7E ∧ t ≠ 5 ∧ t ≠ 6) ∨ (t = 0x7E ∧ slice bs 1 2 ≠ [0x1E, 0x9C]) →
      exec (.mctpMessage bs) s = .next s) ∧
    (s.hwdUp = true →
      (t = 5 → carries none (bs.drop 1)) ∧ (t = 6 → carries (some (fieldAt bs 1 4)) (bs.drop 6)) ∧
      (t = 0x7E → slice bs 1 2 = [0x1E, 0x9C] → x.2.2 = true →
        ∀ p ∈ roleRows, p.1 = x.1 → ∃ s', exec (.mctpMessage bs) s = .next s' ∧ exec (p.2 x.2.1) s = .next s'))

/-! ### Faults, monitors and the black box (chapters 15, 16) -/

/-- FAULT_REPORT, the monitors and the power-good inputs (R460, R461, R463, R467–R469, R501, R539, R541, R544): a fault is noted in TLS_LAST,
recorded, and carried out by its class: CORRECTED only counts, CONTAINED ends the context that it names, PARTITION resets its partition, and
holds it down at the fourth reset within 60 s, DEVICE resets and FATAL stops the device; a clock, a rail, the hub's heat and the entropy
source show what they report beside; a fallen power-good input of an enabled group is the fall of its rail, or of its site's link. -/
def Obligations.FaultsAreActedOn : Prop :=
  (∀ (f : FaultRep) (s : State),
    let code := f.code.toNat
    let src := f.source.toNat
    let head := (f.ctxs.map (·.val)).head?
    let det := faultDetail head f.res.toNat f.addr.toNat f.extra
    code ≠ 0x0102 → code ≠ 0x0015 →
    (s.classOf code = 0 → ∃ s', exec (.faultReport f) s = .next s' ∧ faultNoted code src 0 head s' ∧
      logged code src det s s' ∧
      s'.rd F.TLS_COUNT_CORRECTED = min (s.rd F.TLS_COUNT_CORRECTED + 1) (2 ^ 32 - 1) ∧
      (∀ t, code = 0x0201 → reportTile f = some t → f.addr.toNat < 2 ^ 22 →
        s'.rd (F.BWL_ECC_CE_CNT t) = min (s.rd (F.BWL_ECC_CE_CNT t) + 1) (F.BWL_ECC_CE_CNT t).max) ∧
      (∀ t, code = 0x0011 → reportTile f = some t → s'.rd (F.VXE_FAULT_CODE t) = 0x11 ∧ s'.rd (F.VXE_FAULT_VALID t) = 1 ∧
        s'.rd (F.VXE_ECC_UE t) = 1) ∧
      (∀ k, isLog k = false → k ≠ R.TLS_LAST → k ≠ R.TLS_COUNT →
        (∀ t, reportTile f = some t → k ≠ R.BWL_ECC t ∧ k ≠ R.VXE_ECC t ∧ k ≠ R.VXE_FAULT t) → s'.reg k = s.reg k) ∧
      (code ≠ 0x0014 → s'.engines = s.engines) ∧
      s' = { s with regs := s'.regs, bb := s'.bb, tls := s'.tls, engines := s'.engines }) ∧
    (∀ c : CtxId, f.ctxs = [c] → code ≠ 0 → contains code c.val s → ∃ s', exec (.faultReport f) s = .next s' ∧ endsFaulted code c.val s') ∧
    (∀ p : PartId, f.part = some p → s.classOf code = 2 ∨ (s.classOf code = 1 ∧ f.ctxs = []) → s.stopped = false →
      s.rd (F.SCH_STATUS_STATE p.val) ≠ 4 → s.rd F.GLB_CFG_STATUS_STATE ≠ 0 → s.rd F.PWR_STATUS_STATE < 2 →
      let recent := ((s.part p.val).resets.filter fun t => decide (s.now ≤ t + 60000000000)).length;
      (recent < 3 → ∃ s', exec (.faultReport f) s = .next s' ∧ partitionIsReset p.val s s' ∧ s'.rd F.TLS_LAST_CODE = code) ∧
      (3 ≤ recent → (∀ c ∈ s.boundTo p.val, s.endable c = false) → ∃ s', exec (.faultReport f) s = .next s' ∧
        s'.rd (F.SCH_STATUS_STATE p.val) = 0 ∧ (s'.rd F.TLS_STATUS_PART_DOWN).testBit p.val = true ∧
        s'.rd F.TLS_LAST_CODE = code)) ∧
    (s.classOf code = 3 ∨ (s.classOf code = 1 ∧ f.ctxs = [] ∧ f.part = none) → s.stopped = false →
      ∃ s', exec (.faultReport f) s = .next s' ∧ deviceWasReset s') ∧
    (s.classOf code = 4 → s.stopped = false → ∃ s', exec (.faultReport f) s = .next s' ∧ deviceWasStopped s')) ∧
  ∀ s : State,
    let beyond := fun (b : Nat) (s' : State) => s'.tls.limits.testBit b = true ∧ s'.on F.TLS_STATUS_PROMISE = false
    let rail := fun (i : Instr) (code d : Nat) => faultActs i code (srcPower d) [R.TLS_STATUS] (beyond 1) s
    faultActs .tlsSelfcheck 0x0303 srcTailstock [] (logged 0x0303 srcTailstock (faultDetail none 0 0 []) s) s ∧
    faultActs .mgtWatchdog 0x0304 srcMgt [] (logged 0x0304 srcMgt (faultDetail none 0 0 []) s) s ∧
    faultActs .hubOvertemp 0x0504 (srcPower 0) [R.TLS_STATUS] (beyond 0) s ∧
    faultActs .entropyFail 0x0701 srcHeartwood [] (fun s' => s'.hw = { s.hw with entropyOk := false }) s ∧
    (∀ d : Fin 20, rail (.vddUnder d) 0x0502 d.val ∧ rail (.vddOver d) 0x0503 d.val) ∧
    (∀ (clk : Fin 6) (e : BitVec 8),
      (clk.val = 5 → exec (.clkFail clk e) s = .next s) ∧
      (clk.val ≠ 5 → (∀ c, c < 256 → s.endable c = false) → (clk.val ≠ 4 ∨ s.linkUp = false →
          faultActs (.clkFail clk e) 0x0501 (srcPower 0) [R.CLK_STATUS, R.CLK_MON] (fun s' =>
            (s'.rd F.CLK_STATUS_FAIL).testBit clk.val = true ∧ s'.rd F.CLK_MON_CLOCK = clk.val ∧
              s'.rd F.CLK_MON_ERR = e.toNat ∧ s'.rd F.CLK_MON_TIME = s.now % 2 ^ 48) s) ∧
        (clk.val = 4 → s.linkUp = true → s.classOf 0x0501 = 0 → ∃ s', exec (.clkFail clk e) s = .next s' ∧
          s'.linkUp = false ∧ s'.hostReqs = [] ∧ s'.rd F.TLS_LAST_CODE = 0x0501 ∧
          (s'.rd F.CLK_STATUS_FAIL).testBit 4 = true))) ∧
    ∀ g : Fin 7,
      let fallen := { s with pins := { s.pins with pg := putBit s.pins.pg g.val false } };
      (s.pins.enLow.testBit g.val = true → exec (.pgFall g) s = .next fallen) ∧
      (s.pins.enLow.testBit g.val = false →
        (∀ d : Fin 20, g.val < 3 → d.val = groupDomain g.val → exec (.pgFall g) s = exec (.vddUnder d) fallen) ∧
        (∀ b : BundleId, b.val = 7 + g.val → exec (.pgFall g) s = exec (.dieLinkDown b) fallen)) ∧
      ∃ s', exec (.pgRise g) s = .next s' ∧ s'.pins.pg = putBit s.pins.pg g.val true ∧
        (∀ m, s.power.move = some m → m.entry = false → 4 ≤ m.start → s'.pins.pg.testBit 0 = true →
          s'.pins.enLow.testBit 1 = false ∧ s'.pins.enLow.testBit 2 = false) ∧
        (s.power.move = none → s'.pins.enLow = s.pins.enLow) ∧
        s' = { s with pins := { s.pins with pg := s'.pins.pg, enLow := s'.pins.enLow } }

/-- The black box (R471, R472, R476–R478): the record at the head of the queue goes into the next slot that is not pinned, with its COMMIT byte,
and is pinned where it is fatal and there is room; one that reads back wrong stays uncommitted, is lost and reported; nothing is written during
the scan, which finds the numbers that follow and the pins; a slot that is newly named is read as stored, and one that is named again writes nothing (R11). -/
def Obligations.BlackBoxWrites : Prop :=
  ∀ s : State,
    (∀ ok, s.bb.queue = [] ∨ s.bbWrites = false → exec (.bbxRecordCommit ok) s = .next s) ∧
    (∀ r rest, s.bb.queue = r :: rest → s.bbWrites = true → s.bb.owed = 0 → s.lc ≠ 3 →
      let i := s.bbNext
      let pin := s.pins? r
      (∃ s', exec (.bbxRecordCommit true) s = .next s' ∧
        SMap.get (fun _ => []) s'.bb.slots i = (if pin then { r with flags := r.flags ||| 2 } else r).stored 0x5A ∧
        (∀ j, j ≠ i → SMap.get (fun _ => []) s'.bb.slots j = SMap.get (fun _ => []) s.bb.slots j) ∧
        s'.bb.pos = (i + 1) % bbSlots ∧ s'.bb.queue = rest ∧ s'.bb.pinned = (if pin then i :: s.bb.pinned else s.bb.pinned) ∧
        s'.rd F.BBX_STATUS_QUEUED = rest.length % 512 ∧
        (∀ k, k ≠ R.BBX_STATUS → s'.reg k = s.reg k) ∧
        s' = { s with regs := s'.regs, bb := s'.bb, hcfg := s'.hcfg, outbox := s'.outbox }) ∧
      (s.bb.queue.length < 256 → s.classOf 0x0702 = 0 → ∃ s', exec (.bbxRecordCommit false) s = .next s' ∧
        slotValid (SMap.get (fun _ => []) s'.bb.slots i) = false ∧
        (∀ j, j ≠ i → SMap.get (fun _ => []) s'.bb.slots j = SMap.get (fun _ => []) s.bb.slots j) ∧
        s'.rd F.BBX_STATUS_NVM_FAIL = 1 ∧ s'.rd F.BBX_COUNT_LOST = min (s.rd F.BBX_COUNT_LOST + 1) 255 ∧
        s'.rd F.TLS_LAST_CODE = 0x0702 ∧ s'.ctxs = s.ctxs ∧ s'.devMem = s.devMem)) ∧
    (s.on F.BBX_STATUS_SCAN = false → exec .bbxScanDone s = .next s) ∧
    (s.on F.BBX_STATUS_SCAN = true →
      let ok := s.validSlots
      let base := ((ok.map fun e => slotSeq e.2 + 1).max?).getD 0
      let boot := min (((ok.map fun e => fieldAt e.2 0x16 2).max?).getD 0 + 1) 65535;
      ∃ s', exec .bbxScanDone s = .next s' ∧ s'.on F.BBX_STATUS_SCAN = false ∧ s'.rd F.BBX_STATUS_BOOT = boot ∧
        s'.rd F.BBX_COUNT_SEQ_NEXT = (s.rd F.BBX_COUNT_SEQ_NEXT + base) % 2 ^ 48 ∧
        s'.bb.queue.map (·.seq) = s.bb.queue.map (fun r => r.seq + base) ∧ (∀ r ∈ s'.bb.queue, r.boot = boot) ∧
        (∀ i, i ∈ s'.bb.pinned ↔ ∃ e ∈ ok, e.1 = i ∧ (fieldAt e.2 0x14 1).testBit 1 = true) ∧ s'.bb.slots = s.bb.slots ∧
        s'.rd F.BBX_COUNT_TORN = min (s.rd F.BBX_COUNT_TORN + (s.bb.slots.length - ok.length)) 255 ∧
        (∀ k, isLog k = false → s'.reg k = s.reg k) ∧ s' = { s with regs := s'.regs, bb := s'.bb }) ∧
    (∀ slot : Fin 32768, s.rd F.BBX_SEL_SLOT = slot.val → exec (.bbxSel slot) s = .next s) ∧
    (∀ slot : Fin 32768, s.rd F.BBX_SEL_SLOT ≠ slot.val → ∃ s', exec (.bbxSel slot) s = .next s' ∧ s'.rd F.BBX_SEL_SLOT = slot.val ∧ s'.rd F.BBX_SEL_READY = 0 ∧
      s'.bb = { s.bb with reading := true } ∧ (∀ k, k ≠ R.BBX_SEL → s'.reg k = s.reg k) ∧
      s' = { s with regs := s'.regs, bb := s'.bb }) ∧
    (s.bb.reading = false → exec .bbxSlotReadDone s = .next s) ∧
    (s.bb.reading = true → ∃ s', exec .bbxSlotReadDone s = .next s' ∧
      (∀ w, w < 8 → s'.reg (R.BBX_DATA w) = w64 (fieldAt (s.bbSlot (s.rd F.BBX_SEL_SLOT)) (8 * w) 8)) ∧
      s'.rd F.BBX_SEL_READY = 1 ∧ s'.bb = { s.bb with reading := false } ∧
      (∀ k, k ≠ R.BBX_SEL → (∀ w, w < 8 → k ≠ R.BBX_DATA w) → s'.reg k = s.reg k) ∧
      s' = { s with regs := s'.regs, bb := s'.bb })

/-! ### Power and starts (chapters 16, 17) -/

/-- PWR_CMD, NEGOTIATION_TIMEOUT, POWER_MOVE_END, PWR_PAD_RELEASE, WAKE_IN, MGMT_BUS_ADDRESS_MATCH, SPN_ALARM, POWER_SAMPLE and
POWER_CONTROL_CHECK (R22, R484–R492, R494–R498, R505): a command is refused with the first result code that applies, ends at once in the state
that it names, begins a move, or waits for one; blocks that do not agree refuse the entry and are counted; at the end of a move the state and
its domains show the target, and its command is answered (an exit to L0 Run with no operation at an
engine); a wake event begins an exit, turns an entry back, and takes an exit to L0 Run; the
alarm fires once; each sample enters the averages, the peak and the counters, and fences a site that draws more than 150 W over 1 ms; the
controller lowers DUTY before it raises MSTEP, and takes MSTEP back before DUTY. -/
def Obligations.PowerLadder : Prop :=
  ∀ s : State,
    let st := s.rd F.PWR_STATUS_STATE
    let same := fun (s' : State) => ∀ k, k ≠ R.PWR_STATUS → s'.reg k = s.reg k
    let told := fun (m : Move) (status : Nat) (s' : State) => m.who ≠ 0 → s'.rd F.MBX_STATUS_LAST_CODE = 0x32 ∧
      s'.rd F.MBX_STATUS_LAST_STATUS = status ∧ s'.on (pathFld (decide (m.who = 2))) = false
    let wakes := fun (i : Instr) (w : Nat) =>
      (st = 0 → s.power.move = none → exec i s = .next s) ∧ (0 < st → s.power.move = none → exitBegins i w s) ∧
      (∀ m, s.power.move = some m → m.entry = true → m.start < 8 → entryTurnsBack i w m s) ∧
      (∀ m, s.power.move = some m → m.entry = false → ∃ s', exec i s = .next s' ∧
        s'.power.move = some { m with target := 0, thenTo := none } ∧ s'.rd F.PWR_STATUS_TARGET = 0 ∧ same s')
    let moves := fun (target : Nat) (s' : State) => s'.rd F.PWR_STATUS_BUSY = 1 ∧ s'.rd F.PWR_STATUS_STATE = st ∧
      ∃ x, s'.power.move = some x ∧ x.who = 0 ∧ s'.rd F.PWR_STATUS_TARGET = x.target ∧ (x.target = target ∨ x.thenTo = some target);
    (∀ v : Word,
      let target := bits v.toNat 2 0
      let i := Instr.pwrCmd v
      let bar := s.moveBar target none
      let may := s.endpointOff = false ∧ s.on F.PWR_POLICY_HOST_CMD = true ∧ v.getLsbD 3 = true;
      (s.endpointOff = true ∨ (s.on F.PWR_POLICY_HOST_CMD = false ∧ v.toNat % 16 = 0) ∨
        (s.on F.PWR_POLICY_HOST_CMD = true ∧ v.getLsbD 3 = false) → exec i s = .next s) ∧
      (s.endpointOff = false → s.on F.PWR_POLICY_HOST_CMD = false → v.toNat % 16 ≠ 0 → ∃ s', exec i s = .next s' ∧
        logged 0x8003 (srcHost 0) (leBytes R.PWR_CMD 8 ++ [91, 1, 0, 0]) s s' ∧
        (∀ k, isLog k = false → s'.reg k = s.reg k) ∧ s' = { s with regs := s'.regs, bb := s'.bb, tls := s'.tls }) ∧
      (may → s.power.move = none → bar ≠ 0 ∨ target = st → ∃ s', exec i s = .next s' ∧ s'.rd F.PWR_STATUS_LAST_RESULT = bar ∧
        s'.rd F.PWR_STATUS_STATE = st ∧ same s' ∧ s' = { s with regs := s'.regs }) ∧
      (may → s.power.move = none → bar = 0 → target ≠ st → target < st ∨ s.on F.TLS_ROT_BUSY = false →
        ∃ s', exec i s = .next s' ∧ moves target s') ∧
      (may → s.power.move ≠ none → s.power.waiting = none → ∃ s' x, exec i s = .next s' ∧ s'.power.waiting = some x ∧
        x.target = target ∧ s'.power.move = s.power.move ∧ s' = { s with power := s'.power })) ∧
    (∀ agreed : List Nat,
      let i := Instr.negotiationTimeout agreed
      (s.power.move = none → exec i s = .next s) ∧
      ∀ m, s.power.move = some m →
        (m.entry = false ∨ s.power.asked = [] → exec i s = .next s) ∧
        (m.entry = true → s.power.asked ≠ [] → (∀ d ∈ s.power.asked, d ∈ agreed) → m.start ≠ 2 ∨ m.target < 3 →
          s.on F.TLS_ROT_BUSY = false → ∃ s', exec i s = .next s' ∧ s'.power = { s.power with asked := [] } ∧
            (∀ w, m.limit = some w → s'.rd F.PWR_LIMIT_RUN_W = w % 65536) ∧
            (∀ k, k ≠ R.PWR_LIMIT → s'.reg k = s.reg k) ∧ s' = { s with regs := s'.regs, power := s'.power }) ∧
        (m.entry = true → (∃ d ∈ s.power.asked, d ∉ agreed) → s.power.waiting = none →
          ∃ s', exec i s = .next s' ∧ s'.power.move = none ∧ s'.rd F.PWR_STATUS_BUSY = 0 ∧ s'.rd F.PWR_STATUS_LAST_RESULT = 1 ∧
            told m 0x06 s' ∧
            (∀ d, d = 0 ∨ d = 1 ∨ d = 3 ∨ d = 18 → d ∈ s.power.asked → s.power.asked.count d = 1 → d ∉ agreed →
              (SMap.get (fun _ => Refuser.init) s'.power.refusals d).refused =
                min ((SMap.get (fun _ => Refuser.init) s.power.refusals d).refused + 1) (2 ^ 32 - 1) ∧
              (SMap.get (fun _ => Refuser.init) s'.power.refusals d).time = s.now) ∧
            (m.who = 0 → same s' ∧ s' = { s with regs := s'.regs, power := s'.power }))) ∧
    (let ends := fun (m : Move) (r : Nat) (s' : State) => s'.rd F.PWR_STATUS_STATE = m.target ∧ s'.rd F.PWR_STATUS_BUSY = 0 ∧
        s'.rd F.PWR_STATUS_LAST_RESULT = r ∧ s'.power.move = none ∧
        (∀ d, d < 20 → s'.rd (F.PWR_DOMAIN_COND d) = s'.condIn m.target d) ∧ told m 0x00 s';
      (s.power.move = none → exec .powerMoveEnd s = .next s) ∧
      ∀ m, s.power.move = some m → m.target < 6 →
        ((m.entry = true ∧ s.power.asked ≠ []) ∨ (m.entry = false ∧ s.exitReady m = false) → exec .powerMoveEnd s = .next s) ∧
        (m.thenTo = none → s.power.waiting = none →
          (m.entry = true → s.power.asked = [] → m.target ≠ 0 → m.target ≤ 1 ∨ deviceQuiet s →
            ∃ s', exec .powerMoveEnd s = .next s' ∧ ends m 0 s' ∧
              (m.start < 3 → 3 ≤ m.target → s'.rd F.PWR_STATUS_PADS_HELD = 1) ∧ (m.start < 4 → 4 ≤ m.target → s'.devMem = [])) ∧
          (m.entry = false → s.exitReady m = true → (∀ p, p < 64 → (s.pool p).overdue = false) →
            (m.target = 0 → ∀ e, e < 32 → (s.engine e).op = none) →
            ∃ s', exec .powerMoveEnd s = .next s' ∧ ends m (if s.rd F.PWR_STATUS_LAST_RESULT = 2 then 2 else 0) s'))) ∧
    (∀ (a : Agent) (v : Word),
      let i := Instr.pwrPadRelease a v
      let exits := ∃ m, s.power.move = some m ∧ m.entry = false
      let held := s.on F.PWR_STATUS_PADS_HELD = true;
      (v.getLsbD 0 = false ∨ (isFirmware a = true ∧ ¬ (exits ∧ held)) → exec i s = .next s) ∧
      (v.getLsbD 0 = true → isFirmware a = false → ∃ s', exec i s = .next s' ∧ (∀ k, isLog k = false → s'.reg k = s.reg k) ∧
        s' = { s with regs := s'.regs, bb := s'.bb, tls := s'.tls }) ∧
      (v.getLsbD 0 = true → isFirmware a = true → exits → held → ∃ s', exec i s = .next s' ∧ s'.rd F.PWR_STATUS_PADS_HELD = 0 ∧
        same s' ∧ (s.lc = 1 ∨ s.lc = 2 → s'.ssetDirty = false) ∧
        s' = { s with regs := s'.regs, saved := s'.saved, sset0 := s'.sset0, sset1 := s'.sset1, ssetDirty := s'.ssetDirty })) ∧
    (s.on F.PWR_POLICY_WAKE_IN_EN = false → exec .wakeIn s = .next s) ∧
    (s.on F.PWR_POLICY_WAKE_IN_EN = true → wakes .wakeIn 5) ∧ wakes .mgmtBusAddressMatch 4 ∧
    (s.now < s.rd F.SPN_ALARM_TIME ∨ s.on F.SPN_ALARM_CTL_EN = false → exec .spnAlarm s = .next s) ∧
    (s.rd F.SPN_ALARM_TIME ≤ s.now → s.on F.SPN_ALARM_CTL_EN = true → ∃ s', exec .spnAlarm s = .next s' ∧
      s'.rd F.SPN_ALARM_CTL_FIRED = 1 ∧ s'.rd F.SPN_ALARM_CTL_EN = 0 ∧
      (s.power.move = none → 0 < st → ∃ x, s'.power.move = some x ∧ x.target = 0 ∧ x.entry = false ∧ x.wake = 6) ∧
      (s.power.move = none → st = 0 → s'.power = s.power) ∧ (∀ k, k ≠ R.SPN_ALARM_CTL → k ≠ R.PWR_STATUS → s'.reg k = s.reg k) ∧
      s' = { s with regs := s'.regs, power := s'.power, pins := s'.pins }) ∧
    (∀ (hub stack link : Nat) (sites : List Nat),
      let i := Instr.powerSample hub stack link sites
      let at' := fun x => sites.getD x 0
      let total := hub + stack + link + ((List.range 4).map at').sum
      let w := fun x => (at' x :: (s.site x).power).take 100
      let calm := fun x => s.populated x = false ∨ (w x).sum ≤ 15000
      let pkg := min (meanOf ((total :: s.power.sum1000).take 100)) 65535
      let draws := [hub, stack, link, at' 0, at' 1, at' 2, at' 3];
      ((∀ x, x < 4 → calm x) → ∃ s', exec i s = .next s' ∧ s'.rd F.PWR_MEAS_PKG_W = pkg ∧
        s'.rd F.PWR_MEAS_PEAK_W = max (s.rd F.PWR_MEAS_PEAK_W) pkg ∧
        s'.power.sum100 = (total :: s.power.sum100).take 10 ∧ s'.power.sum1000 = (total :: s.power.sum1000).take 100 ∧
        (∀ k, k < 7 → let n := SMap.get (fun _ => 0) s.power.energyRem k + 10 * draws.getD k 0
          s'.rd (F.PWR_ENERGY_MJ k) = (s.rd (F.PWR_ENERGY_MJ k) + n / 1000) % 2 ^ 64 ∧
          SMap.get (fun _ => 0) s'.power.energyRem k = n % 1000) ∧
        (∀ x, x < 4 → s.populated x = true → (s'.site x).power = w x ∧
          s'.rd (F.CHK_STATUS_POWER_W x) = min (meanOf (w x)) 65535) ∧
        s' = { s with regs := s'.regs, power := s'.power, sites := s'.sites }) ∧
      ∀ x, x < 4 → s.populated x = true → (w x).length = 100 → 15000 < (w x).sum → (∀ y, y < 4 → y ≠ x → calm y) →
        dieIdle (10 + x) s → ∃ s', exec i s = .next s' ∧ dieFenced (10 + x) 3 s s') ∧
    ∀ (stackW arrayW : Nat),
      let i := Instr.powerControlCheck stackW arrayW
      let n := s.power.sum100.length
      let sum := s.power.sum100.sum
      let cap := s.rd F.PWR_LIMIT_RUN_W * n
      let duty := s.rd F.PWR_MEAS_DUTY
      let step := s.rd F.PWR_MEAS_MSTEP
      let sets := fun (d m : Nat) => ∃ s', exec i s = .next s' ∧ s'.rd F.PWR_MEAS_DUTY = d ∧ s'.rd F.PWR_MEAS_MSTEP = m ∧
        s'.power = { s.power with limited := decide (d < 64) || decide (0 < m) } ∧
        (∀ k, k ≠ R.PWR_MEAS → s'.reg k = s.reg k) ∧
        s' = { s with regs := s'.regs, power := s'.power, hcfg := s'.hcfg, outbox := s'.outbox };
      (s.atL0 = false → exec i s = .next s) ∧
      (s.atL0 = true →
        (cap < sum → 1 < duty → sets (max 1 (duty * cap / sum)) step) ∧
        (cap < sum → duty ≤ 1 → sets duty (if step < 7 then step + 1 else step)) ∧
        (sum ≤ cap → 0 < step →
          sets duty (if sum * (8 - step) + stackW * n ≤ cap * (8 - step) then step - 1 else step)) ∧
        (sum ≤ cap → step = 0 → duty < 64 → sets (if sum * duty + arrayW * n ≤ cap * duty then duty + 1 else duty) 0) ∧
        (sum ≤ cap → step = 0 → 64 ≤ duty → sets duty 0))

/-- COLD_RESET, COLD_RST_N_FALL, POWER_LOSS, PD0_BROWN_OUT, SAVED_SETTINGS_WRITE, DEVICE_READY and PARTITION_REJOIN (R445, R467, R469, R493, R524,
R527, R531–R533, R536, R540, R542, R550): the rise of COLD_RST_N starts a device that waits for it, and decodes the life-cycle copies; a cold loss
leaves the fuses, the flash and the black box; a change of the settings goes into the older copy; a start ends ready, or refused with the first
reason that applies; a partition under reset rejoins with its tiles, or stays down without one. -/
def Obligations.StartsAndLosses : Prop :=
  ∀ s : State,
    let d := lcDecide (s.lcCopy 0) (s.lcCopy 1) (s.lcCopy 2)
    (∃ s', exec .coldReset s = .next s' ∧ s'.pins.coldRstN = true ∧
      (s.boot.held = false → s' = { s with pins := { s.pins with coldRstN := true } }) ∧
      (s.boot.held = true → s'.boot.held = false ∧ s'.boot.cause = 0 ∧ s'.lc = d.2.1 ∧ s'.rd F.LCS_STATUS_DECODE = d.1 ∧
        s'.reg R.HWD_SERIAL = w64 s.serial ∧ s'.reg R.GLB_PKG_BUILD = w64 (s.otpNat otpBuild 8) ∧ s'.devMem = s.devMem)) ∧
    (s.stopped = true → exec .coldRstNFall s = .next s) ∧
    (s.stopped = false → ∃ s', exec .coldRstNFall s = .next s' ∧ coldLeft s s' ∧
      s'.pins = { Pins.init with perstN := s.pins.perstN, pg := s.pins.pg }) ∧
    (∃ s', exec .powerLoss s = .next s' ∧ coldLeft s s' ∧ s'.pins = Pins.init) ∧
    (s.rd F.PWR_STATUS_STATE ≠ 5 → exec .pd0BrownOut s = .next s) ∧
    (s.rd F.PWR_STATUS_STATE = 5 → ∃ s', exec .pd0BrownOut s = .next s' ∧ s'.boot.held = false ∧ s'.boot.cause = 2 ∧
      s'.lc = d.2.1 ∧ s'.devMem = [] ∧ s'.ctxs = []) ∧
    (∀ torn, s.ssetDirty = false ∨ s.settingsOpen = false → exec (.savedSettingsWrite torn) s = .next s) ∧
    (s.ssetDirty = true → s.settingsOpen = true →
      let first := copyGen s.sset0 ≤ copyGen s.sset1
      (∃ s', exec (.savedSettingsWrite true) s = .next s' ∧ (first → s' = { s with sset0 := none }) ∧
        (¬ first → s' = { s with sset1 := none })) ∧
      ∃ s', exec (.savedSettingsWrite false) s = .next s' ∧ s'.ssetDirty = false ∧
        s'.saved = { s.saved with gen := max (copyGen s.sset0) (copyGen s.sset1), serial := s.serial } ∧
        (if first then s'.sset0 = some s'.saved ∧ s'.sset1 = s.sset1 else s'.sset1 = some s'.saved ∧ s'.sset0 = s.sset0) ∧
        s' = { s with saved := s'.saved, sset0 := s'.sset0, sset1 := s'.sset1, ssetDirty := s'.ssetDirty }) ∧
    (s.boot.held = true ∨ s.stopped = true ∨ s.rd F.GLB_CFG_STATUS_STATE ≠ 0 → exec .deviceReady s = .next s) ∧
    (s.boot.held = false → s.stopped = false → s.rd F.GLB_CFG_STATUS_STATE = 0 →
      let u := match s.image with | some x => loadImage x s | none => s
      (∀ r, s.refusal = some r → s.boot.trial = false → s.image = none → ∃ s', exec .deviceReady s = .next s' ∧
        s'.rd F.GLB_CFG_STATUS_STATE = 2 ∧ s'.rd F.GLB_CFG_STATUS_REASON = r ∧
        (∀ k, k ≠ R.GLB_CFG_STATUS → s'.reg k = s.reg k) ∧ s' = { s with regs := s'.regs }) ∧
      (∀ r, u.refusal = some r → u.boot.trial = false → ∃ s', exec .deviceReady s = .next s' ∧
        s'.rd F.GLB_CFG_STATUS_STATE = 2 ∧ s'.rd F.GLB_CFG_STATUS_REASON = r) ∧
      (u.refusal = none → u.bundlesHold [10, 11, 12, 13] = true → (∀ t, t < 64 → u.rd (F.MXA_STATUS_STATE t) ≠ 5) →
        (∀ p, p < 8 → u.on (F.CTX_PART_VALID p) = true → u.rd (F.CTX_PART_GROUPS p) ≠ 0) →
        ∃ s', exec .deviceReady s = .next s' ∧ s'.rd F.GLB_CFG_STATUS_STATE = 1 ∧ s'.rd F.TLS_STATUS_BRINGUP_FAILS = 0 ∧
          s'.rd F.XLT_CFG_PREFETCH = 0 ∧ (s.image ≠ none → s'.rd F.GLB_CFG_STATUS_LOCKED = 1) ∧
          ∀ p, p < 8 → u.on (F.CTX_PART_VALID p) = true → s'.rd (F.SCH_STATUS_STATE p) = 2)) ∧
    ∀ (p : PartId) (failed : List TileId) (holdOk : Bool),
      let i := Instr.partitionRejoin p failed holdOk
      let u := match s.image with | some x => loadOne x.sections p.val s | none => s
      let tile := fun (v : State) (t : Nat) => v.rd (F.MXA_STATUS_STATE t);
      (s.rd (F.SCH_STATUS_STATE p.val) ≠ 4 ∨ (s.part p.val).rejoin = true → exec i s = .next s) ∧
      (s.rd (F.SCH_STATUS_STATE p.val) = 4 → (s.part p.val).rejoin = false → (∀ t ∈ failed, t.val ∉ u.tilesOf p.val) →
        ((∃ t ∈ u.tilesOf p.val, tile u t ≠ 5 ∧ tile u t ≠ 7) → ∃ s', exec i s = .next s' ∧
          (∀ t ∈ u.tilesOf p.val, tile s' t = if tile u t = 6 then 1 else tile u t) ∧
          (holdOk = true → (s'.rd F.XLT_CFG_PREFETCH).testBit p.val = false) ∧
          ((u.part p.val).proxy = true → u.dueTo p.val = 0 → s'.rd (F.SCH_STATUS_STATE p.val) = 1 ∧
            (s'.rd F.TLS_STATUS_PART_RESETTING).testBit p.val = false ∧
            (s'.rd F.NOC_STATUS_PROXY).testBit p.val = false ∧ (s'.part p.val).rejoin = false) ∧
          (u.dueTo p.val ≠ 0 → s'.rd (F.SCH_STATUS_STATE p.val) = u.rd (F.SCH_STATUS_STATE p.val) ∧
            (s'.part p.val).rejoin = true)) ∧
        ((∀ t ∈ u.tilesOf p.val, tile u t = 5 ∨ tile u t = 7) →
          ∃ s', exec i s = .next s' ∧ s'.rd (F.SCH_STATUS_STATE p.val) = 0 ∧
            (s'.rd F.TLS_STATUS_PART_DOWN).testBit p.val = true ∧ ∀ c, c < 256 → s'.ctxState c = u.ctxState c))
end

