-- ==== Sys2Proof/Laws/Dispatch.lean ====
section
/-! SUPPORT. The arm of each command, one law each, so that no proof unfolds the dispatch. -/

namespace Sys2Proof.Machine

variable (s : State)

theorem exec_registerWrite (a : Agent) (fn : FnId) (off : Nat) (size : Nat) (v : Word) (tbit : Bool) : exec (.registerWrite a fn off size v tbit) s = execRegisterWrite a fn off size v tbit s := rfl
theorem exec_unsupportedRequest (fn : FnId) (posted : Bool) : exec (.unsupportedRequest fn posted) s = execUnsupportedRequest fn posted s := rfl
theorem exec_powerSample (hubW : Nat) (stackW : Nat) (linkW : Nat) (siteW : List Nat) : exec (.powerSample hubW stackW linkW siteW) s = execPowerSample hubW stackW linkW siteW s := rfl
theorem exec_billetEnd (t : TileId) (fx : List CellFx) : exec (.billetEnd t fx) s = execBilletEnd t fx s := rfl
theorem exec_splitKPartialArrival (t : TileId) (src : TileId) : exec (.splitKPartialArrival t src) s = execSplitKPartialArrival t src s := rfl
theorem exec_ftqEntryFreed (t : TileId) : exec (.ftqEntryFreed t) s = execFtqEntryFreed t s := rfl
theorem exec_blockWritten (t : TileId) : exec (.blockWritten t) s = execBlockWritten t s := rfl
theorem exec_selfTestStart : exec (.selfTestStart) s = execSelfTestStart s := rfl
theorem exec_selfTestEnd (t : TileId) (pass : Bool) (row : Fin 129) (col : Fin 129) : exec (.selfTestEnd t pass row col) s = execSelfTestEnd t pass row col s := rfl
theorem exec_latentCheckWalk (u : LatentUnit) (pass : Bool) : exec (.latentCheckWalk u pass) s = execLatentCheckWalk u pass s := rfl
theorem exec_sliceTick (p : SliceStart) : exec (.sliceTick p) s = execSliceTick p s := rfl
theorem exec_switchWindowEnd (p : PartId) (us : Nat) (hw : List HostWord) : exec (.switchWindowEnd p us hw) s = execSwitchWindowEnd p us hw s := rfl
theorem exec_hostWordPoll (p : PartId) (hw : List HostWord) : exec (.hostWordPoll p hw) s = execHostWordPoll p hw s := rfl
theorem exec_descriptorFetchReturn (c : CtxId) (descs : List (List Word)) : exec (.descriptorFetchReturn c descs) s = execDescriptorFetchReturn c descs s := rfl
theorem exec_operationStart (c : CtxId) (seq : Nat) : exec (.operationStart c seq) s = execOperationStart c seq s := rfl
theorem exec_operationComplete (c : CtxId) (seq : Nat) : exec (.operationComplete c seq) s = execOperationComplete c seq s := rfl
theorem exec_nop (c : CtxId) (seq : Nat) : exec (.nop c seq) s = execNop c seq s := rfl
theorem exec_matmul (c : CtxId) (seq : Nat) : exec (.matmul c seq) s = execMatmul c seq s := rfl
theorem exec_vector (c : CtxId) (seq : Nat) : exec (.vector c seq) s = execVector c seq s := rfl
theorem exec_tblLoad (c : CtxId) (seq : Nat) : exec (.tblLoad c seq) s = execTblLoad c seq s := rfl
theorem exec_krnLoad (c : CtxId) (seq : Nat) : exec (.krnLoad c seq) s = execKrnLoad c seq s := rfl
theorem exec_crvLoad (c : CtxId) (seq : Nat) : exec (.crvLoad c seq) s = execCrvLoad c seq s := rfl
theorem exec_decision (c : CtxId) (seq : Nat) : exec (.decision c seq) s = execDecision c seq s := rfl
theorem exec_copy (c : CtxId) (seq : Nat) : exec (.copy c seq) s = execCopy c seq s := rfl
theorem exec_copy2d (c : CtxId) (seq : Nat) : exec (.copy2d c seq) s = execCopy2d c seq s := rfl
theorem exec_fill (c : CtxId) (seq : Nat) : exec (.fill c seq) s = execFill c seq s := rfl
theorem exec_atomic (c : CtxId) (seq : Nat) : exec (.atomic c seq) s = execAtomic c seq s := rfl
theorem exec_xltTouch (c : CtxId) (seq : Nat) : exec (.xltTouch c seq) s = execXltTouch c seq s := rfl
theorem exec_gather (c : CtxId) (seq : Nat) : exec (.gather c seq) s = execGather c seq s := rfl
theorem exec_scatter (c : CtxId) (seq : Nat) : exec (.scatter c seq) s = execScatter c seq s := rfl
theorem exec_scatterAdd (c : CtxId) (seq : Nat) : exec (.scatterAdd c seq) s = execScatterAdd c seq s := rfl
theorem exec_whittleFlitTimeout (x : WhFlit) : exec (.whittleFlitTimeout x) s = execWhittleFlitTimeout x s := rfl
theorem exec_ctxwSoWrite (c : CtxId) (off : Nat) (size : Nat) (v : Word) (tbit : Bool) : exec (.ctxwSoWrite c off size v tbit) s = execCtxwSoWrite c off size v tbit s := rfl
theorem exec_vxeNop (t : TileId) (f : VForm) : exec (.vxeNop t f) s = execVxeNop t f s := rfl
theorem exec_add (t : TileId) (f : VForm) : exec (.add t f) s = execAdd t f s := rfl
theorem exec_mul (t : TileId) (f : VForm) : exec (.mul t f) s = execMul t f s := rfl
theorem exec_fma (t : TileId) (f : VForm) : exec (.fma t f) s = execFma t f s := rfl
theorem exec_min (t : TileId) (f : VForm) : exec (.min t f) s = execMin t f s := rfl
theorem exec_max (t : TileId) (f : VForm) : exec (.max t f) s = execMax t f s := rfl
theorem exec_sel (t : TileId) (f : VForm) : exec (.sel t f) s = execSel t f s := rfl
theorem exec_cmpeq (t : TileId) (f : VForm) : exec (.cmpeq t f) s = execCmpeq t f s := rfl
theorem exec_cmplt (t : TileId) (f : VForm) : exec (.cmplt t f) s = execCmplt t f s := rfl
theorem exec_cmple (t : TileId) (f : VForm) : exec (.cmple t f) s = execCmple t f s := rfl
theorem exec_cmpun (t : TileId) (f : VForm) : exec (.cmpun t f) s = execCmpun t f s := rfl
theorem exec_mand (t : TileId) (f : VForm) : exec (.mand t f) s = execMand t f s := rfl
theorem exec_mor (t : TileId) (f : VForm) : exec (.mor t f) s = execMor t f s := rfl
theorem exec_mxor (t : TileId) (f : VForm) : exec (.mxor t f) s = execMxor t f s := rfl
theorem exec_mnot (t : TileId) (f : VForm) : exec (.mnot t f) s = execMnot t f s := rfl
theorem exec_mcnt (t : TileId) (f : VForm) : exec (.mcnt t f) s = execMcnt t f s := rfl
theorem exec_cvt (t : TileId) (f : VForm) : exec (.cvt t f) s = execCvt t f s := rfl
theorem exec_pack4 (t : TileId) (f : VForm) : exec (.pack4 t f) s = execPack4 t f s := rfl
theorem exec_iota (t : TileId) (f : VForm) : exec (.iota t f) s = execIota t f s := rfl
theorem exec_perm (t : TileId) (f : VForm) : exec (.perm t f) s = execPerm t f s := rfl
theorem exec_curve (t : TileId) (f : VForm) : exec (.curve t f) s = execCurve t f s := rfl
theorem exec_vld (t : TileId) (f : VForm) : exec (.vld t f) s = execVld t f s := rfl
theorem exec_vst (t : TileId) (f : VForm) : exec (.vst t f) s = execVst t f s := rfl
theorem exec_seta (t : TileId) (f : VForm) : exec (.seta t f) s = execSeta t f s := rfl
theorem exec_loopBody (t : TileId) (f : VForm) : exec (.loopBody t f) s = execLoopBody t f s := rfl
theorem exec_setvl (t : TileId) (f : VForm) : exec (.setvl t f) s = execSetvl t f s := rfl
theorem exec_free (t : TileId) (f : VForm) : exec (.free t f) s = execFree t f s := rfl
theorem exec_wout (t : TileId) (f : VForm) : exec (.wout t f) s = execWout t f s := rfl
theorem exec_woutReadDone (t : TileId) : exec (.woutReadDone t) s = execWoutReadDone t s := rfl
theorem exec_summ (t : TileId) (f : VForm) : exec (.summ t f) s = execSumm t f s := rfl
theorem exec_endKernel (t : TileId) (f : VForm) : exec (.endKernel t f) s = execEndKernel t f s := rfl
theorem exec_kernelInvocation (t : TileId) : exec (.kernelInvocation t) s = execKernelInvocation t s := rfl
theorem exec_kernelLong (t : TileId) : exec (.kernelLong t) s = execKernelLong t s := rfl
theorem exec_summaryRecord (t : TileId) : exec (.summaryRecord t) s = execSummaryRecord t s := rfl
theorem exec_thermalSample (k : StackId) (temp : BitVec 8) : exec (.thermalSample k temp) s = execThermalSample k temp s := rfl
theorem exec_patrolScrubRead (ch : ChanId) (ecc : Ecc) : exec (.patrolScrubRead ch ecc) s = execPatrolScrubRead ch ecc s := rfl
theorem exec_rowRemapCopyDone (ch : ChanId) (row : Nat) : exec (.rowRemapCopyDone ch row) s = execRowRemapCopyDone ch row s := rfl
theorem exec_channelClearDone (ch : ChanId) : exec (.channelClearDone ch) s = execChannelClearDone ch s := rfl
theorem exec_bucketTokensReady (b : BucketId) (n : Nat) : exec (.bucketTokensReady b n) s = execBucketTokensReady b n s := rfl
theorem exec_rd (h : Flit) (e : E2e) (ecc : Ecc) : exec (.rd h e ecc) s = execRd h e ecc s := rfl
theorem exec_wr (h : Flit) (e : E2e) : exec (.wr h e) s = execWr h e s := rfl
theorem exec_atom (h : Flit) (e : E2e) (ecc : Ecc) : exec (.atom h e ecc) s = execAtom h e ecc s := rfl
theorem exec_rdMc (h : Flit) (e : E2e) (ecc : Ecc) : exec (.rdMc h e ecc) s = execRdMc h e ecc s := rfl
theorem exec_hrd (h : Flit) (e : E2e) : exec (.hrd h e) s = execHrd h e s := rfl
theorem exec_hwr (h : Flit) (e : E2e) : exec (.hwr h e) s = execHwr h e s := rfl
theorem exec_hatom (h : Flit) (e : E2e) : exec (.hatom h e) s = execHatom h e s := rfl
theorem exec_rspData (h : Flit) (e : E2e) : exec (.rspData h e) s = execRspData h e s := rfl
theorem exec_rspAck (h : Flit) (e : E2e) : exec (.rspAck h e) s = execRspAck h e s := rfl
theorem exec_rspErr (h : Flit) (e : E2e) : exec (.rspErr h e) s = execRspErr h e s := rfl
theorem exec_rspMc (h : Flit) (e : E2e) : exec (.rspMc h e) s = execRspMc h e s := rfl
theorem exec_ctl (h : Flit) (ack : Bool) : exec (.ctl h ack) s = execCtl h ack s := rfl
theorem exec_ctlAck (h : Flit) : exec (.ctlAck h) s = execCtlAck h s := rfl
theorem exec_linkFlitArrival (router : Fin 104) (port : Fin 6) (plane : Fin 4) (vn : Fin 3) (x : LinkIn) : exec (.linkFlitArrival router port plane vn x) s = execLinkFlitArrival router port plane vn x s := rfl
theorem exec_proxyRelease (p : PartId) : exec (.proxyRelease p) s = execProxyRelease p s := rfl
theorem exec_translationCompletion (id : Nat) (res : List Trans) : exec (.translationCompletion id res) s = execTranslationCompletion id res s := rfl
theorem exec_invalidateRequest (fn : FnId) (tag : Nat) (pasid : Option (BitVec 20)) (lo : Nat) (hi : Nat) (glob : Bool) : exec (.invalidateRequest fn tag pasid lo hi glob) s = execInvalidateRequest fn tag pasid lo hi glob s := rfl
theorem exec_invalidateCompletion (c : CtxId) (tag : Nat) : exec (.invalidateCompletion c tag) s = execInvalidateCompletion c tag s := rfl
theorem exec_prgResponse (fn : FnId) (idx : Nat) (code : PrgCode) : exec (.prgResponse fn idx code) s = execPrgResponse fn idx code s := rfl
theorem exec_pageRequestTimeout (entry : Fin 256) : exec (.pageRequestTimeout entry) s = execPageRequestTimeout entry s := rfl
theorem exec_hostCompletion (id : Nat) (st : HostStatus) (data : List Byte) : exec (.hostCompletion id st data) s = execHostCompletion id st data s := rfl
theorem exec_completionTimeout (id : Nat) : exec (.completionTimeout id) s = execCompletionTimeout id s := rfl
theorem exec_ctxStart (cmd : RoleCmd) : exec (.ctxStart cmd) s = execCtxStart cmd s := rfl
theorem exec_ctxStop (cmd : RoleCmd) : exec (.ctxStop cmd) s = execCtxStop cmd s := rfl
theorem exec_ctxwCtlLock (c : CtxId) (v : Word) (size : Nat) (tbit : Bool) : exec (.ctxwCtlLock c v size tbit) s = execCtxwCtlLock c v size tbit s := rfl
theorem exec_ctxwCtlStart (c : CtxId) (v : Word) (size : Nat) (tbit : Bool) : exec (.ctxwCtlStart c v size tbit) s = execCtxwCtlStart c v size tbit s := rfl
theorem exec_lockInterfaceRequest (ses : Nat) (c : CtxId) (stream : Fin 256) (flags : BitVec 16) : exec (.lockInterfaceRequest ses c stream flags) s = execLockInterfaceRequest ses c stream flags s := rfl
theorem exec_startInterfaceRequest (ses : Nat) (c : CtxId) (nonce : List Byte) : exec (.startInterfaceRequest ses c nonce) s = execStartInterfaceRequest ses c nonce s := rfl
theorem exec_stopInterfaceRequest (ses : Nat) (c : CtxId) : exec (.stopInterfaceRequest ses c) s = execStopInterfaceRequest ses c s := rfl
theorem exec_getTdispVersion (ses : Nat) (c : CtxId) : exec (.getTdispVersion ses c) s = execGetTdispVersion ses c s := rfl
theorem exec_getTdispCapabilities (ses : Nat) (c : CtxId) : exec (.getTdispCapabilities ses c) s = execGetTdispCapabilities ses c s := rfl
theorem exec_getDeviceInterfaceReport (ses : Nat) (c : CtxId) (off : Nat) (len : Nat) : exec (.getDeviceInterfaceReport ses c off len) s = execGetDeviceInterfaceReport ses c off len s := rfl
theorem exec_getDeviceInterfaceState (ses : Nat) (c : CtxId) : exec (.getDeviceInterfaceState ses c) s = execGetDeviceInterfaceState ses c s := rfl
theorem exec_functionLevelReset (fn : FnId) : exec (.functionLevelReset fn) s = execFunctionLevelReset fn s := rfl
theorem exec_vfEnableChange (en : Bool) (num : Fin 257) : exec (.vfEnableChange en num) s = execVfEnableChange en num s := rfl
theorem exec_lockedConfigChange (c : CtxId) (what : CfgField) (v : Nat) : exec (.lockedConfigChange c what v) s = execLockedConfigChange c what v s := rfl
theorem exec_priReset (fn : FnId) : exec (.priReset fn) s = execPriReset fn s := rfl
theorem exec_msixUnmask (fn : FnId) (vec : Option (Fin 8)) : exec (.msixUnmask fn vec) s = execMsixUnmask fn vec s := rfl
theorem exec_malformedTlp (fn : FnId) : exec (.malformedTlp fn) s = execMalformedTlp fn s := rfl
theorem exec_poisonedTlp (fn : FnId) (req : Option Nat) : exec (.poisonedTlp fn req) s = execPoisonedTlp fn req s := rfl
theorem exec_unexpectedCompletion (fn : FnId) : exec (.unexpectedCompletion fn) s = execUnexpectedCompletion fn s := rfl
theorem exec_ideCheckFailed (st : Fin 256) : exec (.ideCheckFailed st) s = execIdeCheckFailed st s := rfl
theorem exec_ideKm (ses : Nat) (st : Fin 256) (op : IdeOp) : exec (.ideKm ses st op) s = execIdeKm ses st op s := rfl
theorem exec_doeObject (len : Nat) (typ : Nat) (data : List Byte) : exec (.doeObject len typ data) s = execDoeObject len typ data s := rfl
theorem exec_doeAbort : exec (.doeAbort) s = execDoeAbort s := rfl
theorem exec_getVersion (r : SpdmReq) : exec (.getVersion r) s = execGetVersion r s := rfl
theorem exec_getCapabilities (r : SpdmReq) : exec (.getCapabilities r) s = execGetCapabilities r s := rfl
theorem exec_negotiateAlgorithms (r : SpdmReq) : exec (.negotiateAlgorithms r) s = execNegotiateAlgorithms r s := rfl
theorem exec_getDigests (r : SpdmReq) : exec (.getDigests r) s = execGetDigests r s := rfl
theorem exec_getCertificate (r : SpdmReq) : exec (.getCertificate r) s = execGetCertificate r s := rfl
theorem exec_challenge (r : SpdmReq) : exec (.challenge r) s = execChallenge r s := rfl
theorem exec_getMeasurements (r : SpdmReq) : exec (.getMeasurements r) s = execGetMeasurements r s := rfl
theorem exec_keyExchange (r : SpdmReq) : exec (.keyExchange r) s = execKeyExchange r s := rfl
theorem exec_heartbeat (r : SpdmReq) : exec (.heartbeat r) s = execHeartbeat r s := rfl
theorem exec_keyUpdate (r : SpdmReq) : exec (.keyUpdate r) s = execKeyUpdate r s := rfl
theorem exec_hostLinkDown : exec (.hostLinkDown) s = execHostLinkDown s := rfl
theorem exec_perstAssert : exec (.perstAssert) s = execPerstAssert s := rfl
theorem exec_perstDeassert : exec (.perstDeassert) s = execPerstDeassert s := rfl
theorem exec_guContribute (c : CtxId) (seq : Nat) : exec (.guContribute c seq) s = execGuContribute c seq s := rfl
theorem exec_guReceive (c : CtxId) (seq : Nat) : exec (.guReceive c seq) s = execGuReceive c seq s := rfl
theorem exec_slotSeal (p : PoolId) (c : CtxId) : exec (.slotSeal p c) s = execSlotSeal p c s := rfl
theorem exec_roundDeadline (p : PoolId) : exec (.roundDeadline p) s = execRoundDeadline p s := rfl
theorem exec_roundRelease (p : PoolId) : exec (.roundRelease p) s = execRoundRelease p s := rfl
theorem exec_slotScrubEnd (p : PoolId) (slot : Fin 256) : exec (.slotScrubEnd p slot) s = execSlotScrubEnd p slot s := rfl
theorem exec_resultRegionScrubEnd (p : PoolId) : exec (.resultRegionScrubEnd p) s = execResultRegionScrubEnd p s := rfl
theorem exec_leafPartialDeadline (p : PoolId) (node : Nat) : exec (.leafPartialDeadline p node) s = execLeafPartialDeadline p node s := rfl
theorem exec_moduleLinkUp (m : ModId) : exec (.moduleLinkUp m) s = execModuleLinkUp m s := rfl
theorem exec_moduleTrainingTimeout (m : ModId) : exec (.moduleTrainingTimeout m) s = execModuleTrainingTimeout m s := rfl
theorem exec_moduleTrainingRetry (b : BundleId) : exec (.moduleTrainingRetry b) s = execModuleTrainingRetry b s := rfl
theorem exec_rcIdent (b : BundleId) (rec : List Byte) : exec (.rcIdent b rec) s = execRcIdent b rec s := rfl
theorem exec_rcRolesAck (b : BundleId) (roles : BitVec 32) : exec (.rcRolesAck b roles) s = execRcRolesAck b roles s := rfl
theorem exec_rollcallTimeout (b : BundleId) : exec (.rollcallTimeout b) s = execRollcallTimeout b s := rfl
theorem exec_rcSpdm (b : BundleId) (seq : Nat) (last : Bool) (frag : List Byte) : exec (.rcSpdm b seq last frag) s = execRcSpdm b seq last frag s := rfl
theorem exec_rcHealth (b : BundleId) (code : BitVec 8) : exec (.rcHealth b code) s = execRcHealth b code s := rfl
theorem exec_reservedSidebandMessage (m : ModId) (code : BitVec 8) : exec (.reservedSidebandMessage m code) s = execReservedSidebandMessage m code s := rfl
theorem exec_attestTimeout (x : SiteId) : exec (.attestTimeout x) s = execAttestTimeout x s := rfl
theorem exec_siteRd (q : SiteReq) (ecc : Ecc) : exec (.siteRd q ecc) s = execSiteRd q ecc s := rfl
theorem exec_siteWr (q : SiteReq) : exec (.siteWr q) s = execSiteWr q s := rfl
theorem exec_siteAtom (q : SiteReq) : exec (.siteAtom q) s = execSiteAtom q s := rfl
theorem exec_siteSignal (q : SiteReq) : exec (.siteSignal q) s = execSiteSignal q s := rfl
theorem exec_laneFailed (m : ModId) (lane : Fin 66) (rx : Bool) : exec (.laneFailed m lane rx) s = execLaneFailed m lane rx s := rfl
theorem exec_dieLinkDown (b : BundleId) : exec (.dieLinkDown b) s = execDieLinkDown b s := rfl
theorem exec_portLinkUp (q : PortId) (pass : Bool) : exec (.portLinkUp q pass) s = execPortLinkUp q pass s := rfl
theorem exec_portRetry (q : PortId) : exec (.portRetry q) s = execPortRetry q s := rfl
theorem exec_portSignalLoss (q : PortId) : exec (.portSignalLoss q) s = execPortSignalLoss q s := rfl
theorem exec_nakFrame (q : PortId) (h : FrameIn) : exec (.nakFrame q h) s = execNakFrame q h s := rfl
theorem exec_creditReturn (q : PortId) (h : FrameIn) : exec (.creditReturn q h) s = execCreditReturn q h s := rfl
theorem exec_ackTimeout (q : PortId) : exec (.ackTimeout q) s = execAckTimeout q s := rfl
theorem exec_putData (q : PortId) (h : FrameIn) : exec (.putData q h) s = execPutData q h s := rfl
theorem exec_getReq (q : PortId) (h : FrameIn) : exec (.getReq q h) s = execGetReq q h s := rfl
theorem exec_getData (q : PortId) (h : FrameIn) : exec (.getData q h) s = execGetData q h s := rfl
theorem exec_putAck (q : PortId) (h : FrameIn) : exec (.putAck q h) s = execPutAck q h s := rfl
theorem exec_frameRspErr (q : PortId) (h : FrameIn) : exec (.frameRspErr q h) s = execFrameRspErr q h s := rfl
theorem exec_collReady (q : PortId) (h : FrameIn) : exec (.collReady q h) s = execCollReady q h s := rfl
theorem exec_collData (q : PortId) (h : FrameIn) : exec (.collData q h) s = execCollData q h s := rfl
theorem exec_guSeal (q : PortId) (h : FrameIn) : exec (.guSeal q h) s = execGuSeal q h s := rfl
theorem exec_guClose (q : PortId) (h : FrameIn) : exec (.guClose q h) s = execGuClose q h s := rfl
theorem exec_guPartial (q : PortId) (h : FrameIn) : exec (.guPartial q h) s = execGuPartial q h s := rfl
theorem exec_guResult (q : PortId) (h : FrameIn) : exec (.guResult q h) s = execGuResult q h s := rfl
theorem exec_guFail (q : PortId) (h : FrameIn) : exec (.guFail q h) s = execGuFail q h s := rfl
theorem exec_timeFrame (q : PortId) (h : FrameIn) : exec (.timeFrame q h) s = execTimeFrame q h s := rfl
theorem exec_keyFrame (q : PortId) (h : FrameIn) : exec (.keyFrame q h) s = execKeyFrame q h s := rfl
theorem exec_timeTransmit (q : PortId) : exec (.timeTransmit q) s = execTimeTransmit q s := rfl
theorem exec_claushRekey (q : PortId) : exec (.claushRekey q) s = execClaushRekey q s := rfl
theorem exec_collectiveTimeout (c : CtxId) (seq : Nat) : exec (.collectiveTimeout c seq) s = execCollectiveTimeout c seq s := rfl
theorem exec_clPut (c : CtxId) (seq : Nat) : exec (.clPut c seq) s = execClPut c seq s := rfl
theorem exec_clGet (c : CtxId) (seq : Nat) : exec (.clGet c seq) s = execClGet c seq s := rfl
theorem exec_clGrant (c : CtxId) (seq : Nat) : exec (.clGrant c seq) s = execClGrant c seq s := rfl
theorem exec_allReduce (c : CtxId) (seq : Nat) : exec (.allReduce c seq) s = execAllReduce c seq s := rfl
theorem exec_reduceScatter (c : CtxId) (seq : Nat) : exec (.reduceScatter c seq) s = execReduceScatter c seq s := rfl
theorem exec_allGather (c : CtxId) (seq : Nat) : exec (.allGather c seq) s = execAllGather c seq s := rfl
theorem exec_broadcast (c : CtxId) (seq : Nat) : exec (.broadcast c seq) s = execBroadcast c seq s := rfl
theorem exec_mbxPoll : exec (.mbxPoll) s = execMbxPoll s := rfl
theorem exec_mctpMessage (bytes : List Byte) : exec (.mctpMessage bytes) s = execMctpMessage bytes s := rfl
theorem exec_getChallenge (cmd : RoleCmd) : exec (.getChallenge cmd) s = execGetChallenge cmd s := rfl
theorem exec_getIdentity (cmd : RoleCmd) : exec (.getIdentity cmd) s = execGetIdentity cmd s := rfl
theorem exec_getCerts (cmd : RoleCmd) : exec (.getCerts cmd) s = execGetCerts cmd s := rfl
theorem exec_lcAdvance (cmd : RoleCmd) : exec (.lcAdvance cmd) s = execLcAdvance cmd s := rfl
theorem exec_lcResume (cmd : RoleCmd) : exec (.lcResume cmd) s = execLcResume cmd s := rfl
theorem exec_debugEnable (cmd : RoleCmd) : exec (.debugEnable cmd) s = execDebugEnable cmd s := rfl
theorem exec_endOfLife (cmd : RoleCmd) : exec (.endOfLife cmd) s = execEndOfLife cmd s := rfl
theorem exec_claim (cmd : RoleCmd) : exec (.claim cmd) s = execClaim cmd s := rfl
theorem exec_releaseDevice (cmd : RoleCmd) : exec (.releaseDevice cmd) s = execReleaseDevice cmd s := rfl
theorem exec_stageBegin (cmd : RoleCmd) : exec (.stageBegin cmd) s = execStageBegin cmd s := rfl
theorem exec_stageWrite (cmd : RoleCmd) : exec (.stageWrite cmd) s = execStageWrite cmd s := rfl
theorem exec_stageCommit (cmd : RoleCmd) : exec (.stageCommit cmd) s = execStageCommit cmd s := rfl
theorem exec_stageAbort (cmd : RoleCmd) : exec (.stageAbort cmd) s = execStageAbort cmd s := rfl
theorem exec_stagingTimeout : exec (.stagingTimeout) s = execStagingTimeout s := rfl
theorem exec_svnCommit (cmd : RoleCmd) : exec (.svnCommit cmd) s = execSvnCommit cmd s := rfl
theorem exec_operatorEnrol (cmd : RoleCmd) : exec (.operatorEnrol cmd) s = execOperatorEnrol cmd s := rfl
theorem exec_operatorRevoke (cmd : RoleCmd) : exec (.operatorRevoke cmd) s = execOperatorRevoke cmd s := rfl
theorem exec_powerState (cmd : RoleCmd) : exec (.powerState cmd) s = execPowerState cmd s := rfl
theorem exec_bbxRead (cmd : RoleCmd) : exec (.bbxRead cmd) s = execBbxRead cmd s := rfl
theorem exec_attestReport (cmd : RoleCmd) : exec (.attestReport cmd) s = execAttestReport cmd s := rfl
theorem exec_challengeExpiry : exec (.challengeExpiry) s = execChallengeExpiry s := rfl
theorem exec_aliasDerived : exec (.aliasDerived) s = execAliasDerived s := rfl
theorem exec_faultReport (f : FaultRep) : exec (.faultReport f) s = execFaultReport f s := rfl
theorem exec_partitionRejoin (p : PartId) (failed : List TileId) (holdOk : Bool) : exec (.partitionRejoin p failed holdOk) s = execPartitionRejoin p failed holdOk s := rfl
theorem exec_tlsSelfcheck : exec (.tlsSelfcheck) s = execTlsSelfcheck s := rfl
theorem exec_mgtWatchdog : exec (.mgtWatchdog) s = execMgtWatchdog s := rfl
theorem exec_clkFail (clk : Fin 6) (err : BitVec 8) : exec (.clkFail clk err) s = execClkFail clk err s := rfl
theorem exec_vddUnder (d : Fin 20) : exec (.vddUnder d) s = execVddUnder d s := rfl
theorem exec_vddOver (d : Fin 20) : exec (.vddOver d) s = execVddOver d s := rfl
theorem exec_pgFall (g : Fin 7) : exec (.pgFall g) s = execPgFall g s := rfl
theorem exec_hubOvertemp : exec (.hubOvertemp) s = execHubOvertemp s := rfl
theorem exec_entropyFail : exec (.entropyFail) s = execEntropyFail s := rfl
theorem exec_bbxRecordCommit (nvmOk : Bool) : exec (.bbxRecordCommit nvmOk) s = execBbxRecordCommit nvmOk s := rfl
theorem exec_bbxScanDone : exec (.bbxScanDone) s = execBbxScanDone s := rfl
theorem exec_bbxSel (slot : Fin 32768) : exec (.bbxSel slot) s = execBbxSel slot s := rfl
theorem exec_bbxSlotReadDone : exec (.bbxSlotReadDone) s = execBbxSlotReadDone s := rfl
theorem exec_pwrCmd (v : Word) : exec (.pwrCmd v) s = execPwrCmd v s := rfl
theorem exec_negotiationTimeout (agreed : List Nat) : exec (.negotiationTimeout agreed) s = execNegotiationTimeout agreed s := rfl
theorem exec_powerMoveEnd : exec (.powerMoveEnd) s = execPowerMoveEnd s := rfl
theorem exec_powerControlCheck (stackW : Nat) (arrayW : Nat) : exec (.powerControlCheck stackW arrayW) s = execPowerControlCheck stackW arrayW s := rfl
theorem exec_pwrPadRelease (a : Agent) (v : Word) : exec (.pwrPadRelease a v) s = execPwrPadRelease a v s := rfl
theorem exec_wakeIn : exec (.wakeIn) s = execWakeIn s := rfl
theorem exec_mgmtBusAddressMatch : exec (.mgmtBusAddressMatch) s = execMgmtBusAddressMatch s := rfl
theorem exec_spnAlarm : exec (.spnAlarm) s = execSpnAlarm s := rfl
theorem exec_pd0BrownOut : exec (.pd0BrownOut) s = execPd0BrownOut s := rfl
theorem exec_savedSettingsWrite (torn : Bool) : exec (.savedSettingsWrite torn) s = execSavedSettingsWrite torn s := rfl
theorem exec_coldReset : exec (.coldReset) s = execColdReset s := rfl
theorem exec_deviceReady : exec (.deviceReady) s = execDeviceReady s := rfl
theorem exec_powerLoss : exec (.powerLoss) s = execPowerLoss s := rfl
theorem exec_discardedFrame (q : PortId) (why : Discard) : exec (.discardedFrame q why) s = execDiscardedFrame q why s := rfl
theorem exec_registerRead (a : Agent) (fn : FnId) (off : Nat) (size : Nat) (tbit : Bool) (ecc : Ecc) : exec (.registerRead a fn off size tbit ecc) s = execRegisterRead a fn off size tbit ecc s := rfl
theorem exec_configurationWrite (fn : FnId) (what : CfgField) (v : Nat) : exec (.configurationWrite fn what v) s = execConfigurationWrite fn what v s := rfl
theorem exec_hostLinkUp (speed : Fin 16) (width : Fin 32) (flit : Bool) : exec (.hostLinkUp speed width flit) s = execHostLinkUp speed width flit s := rfl
theorem exec_linkL1Exit : exec (.linkL1Exit) s = execLinkL1Exit s := rfl
theorem exec_coldRstNFall : exec (.coldRstNFall) s = execColdRstNFall s := rfl
theorem exec_pgRise (g : Fin 7) : exec (.pgRise g) s = execPgRise g s := rfl
theorem exec_enXiAfterFence (x : SiteId) : exec (.enXiAfterFence x) s = execEnXiAfterFence x s := rfl

end Sys2Proof.Machine
end

