-- ==== Sys2Proof/Laws/Maps.lean ====
section
/-! SUPPORT. What the operations of a sparse map do: a read after a write gives the value written, a write leaves every
other key alone, and every operation keeps the canonical form. -/

namespace Sys2Proof.Machine.SMap

variable {α : Type}

/-- An empty map reads as its default. -/
@[simp] theorem get_nil (d : Nat → α) (k : Nat) : get d [] k = d k := rfl

/-- What a map reads at the head. -/
theorem get_cons (d : Nat → α) (e : Nat × α) (m : SMap α) (k : Nat) :
    get d (e :: m) k = if k = e.1 then e.2 else get d m k := rfl

/-- A map whose keys are all other keys reads as its default. -/
theorem get_absent (d : Nat → α) (m : SMap α) (k : Nat) (h : ∀ e ∈ m, e.1 ≠ k) : get d m k = d k := by
  induction m with
  | nil => rfl
  | cons e m ih =>
    have he : k ≠ e.1 := fun hk => h e (by simp) hk.symm
    rw [get_cons, if_neg he]
    exact ih fun e' h' => h e' (by simp [h'])

/-- Listing a value at a key: that key reads it. -/
@[simp] theorem get_ins_same (d : Nat → α) (m : SMap α) (k : Nat) (v : α) : get d (ins k v m) k = v := by
  induction m with
  | nil => simp [ins, get]
  | cons e m ih =>
    simp only [ins]
    split
    · simp [get]
    · split
      · simp [get]
      · rw [get_cons, if_neg ‹_›, ih]

/-- Listing a value at a key leaves every other key alone. -/
theorem get_ins_other (d : Nat → α) (m : SMap α) {k j : Nat} (v : α) (h : j ≠ k) :
    get d (ins k v m) j = get d m j := by
  induction m with
  | nil => simp [ins, get, h]
  | cons e m ih =>
    simp only [ins]
    split
    · simp [get, h]
    · split
      · rename_i hk
        simp [get, h, ← hk]
      · rw [get_cons, get_cons, ih]

/-- Dropping a key: it reads as the default. -/
@[simp] theorem get_del_same (d : Nat → α) (m : SMap α) (k : Nat) : get d (del k m) k = d k :=
  get_absent d _ k fun e he => by
    have := (List.mem_filter.1 he).2
    simpa using this

/-- Keeping part of a map: a key that is kept reads as before. -/
theorem get_keep_in (d : Nat → α) (m : SMap α) (p : Nat → Bool) {k : Nat} (h : p k = true) :
    get d (keep p m) k = get d m k := by
  induction m with
  | nil => rfl
  | cons e m ih =>
    unfold keep at ih ⊢
    rw [List.filter_cons]
    by_cases hk : k = e.1
    · have : p e.1 = true := hk ▸ h
      simp [this, get_cons, hk]
    · split
      · rw [get_cons, get_cons, if_neg hk, if_neg hk, ih]
      · rw [get_cons, if_neg hk, ih]

/-- Keeping part of a map: a key that is not kept reads as the default. -/
theorem get_keep_out (d : Nat → α) (m : SMap α) (p : Nat → Bool) {k : Nat} (h : p k = false) :
    get d (keep p m) k = d k :=
  get_absent d _ k fun e he hk => by
    have := (List.mem_filter.1 he).2
    rw [hk] at this
    simp [h] at this

/-- Dropping a key leaves every other key alone. -/
theorem get_del_other (d : Nat → α) (m : SMap α) {k j : Nat} (h : j ≠ k) : get d (del k m) j = get d m j :=
  get_keep_in d m (fun i => i != k) (by simpa using h)

variable [DecidableEq α]

/-- A read after a write of the same key gives the value written. -/
@[simp] theorem get_put_same (d : Nat → α) (m : SMap α) (k : Nat) (v : α) : get d (put d m k v) k = v := by
  unfold put
  split
  · rw [get_del_same]; exact (‹v = d k›).symm
  · exact get_ins_same d m k v

/-- A write leaves every other key alone. -/
theorem get_put_other (d : Nat → α) (m : SMap α) {k j : Nat} (v : α) (h : j ≠ k) :
    get d (put d m k v) j = get d m j := by
  unfold put
  split
  · exact get_del_other d m h
  · exact get_ins_other d m v h

/-- What a map reads after a write. -/
theorem get_put (d : Nat → α) (m : SMap α) (k j : Nat) (v : α) :
    get d (put d m k v) j = if j = k then v else get d m j := by
  split
  · subst j; simp
  · exact get_put_other d m v ‹_›

/-- What a map reads after a change. -/
theorem get_upd (d : Nat → α) (m : SMap α) (k j : Nat) (f : α → α) :
    get d (upd d m k f) j = if j = k then f (get d m k) else get d m j := get_put d m k j _

/-! ### The canonical form -/

omit [DecidableEq α] in
/-- Rising keys, said of pairs. -/
theorem sorted_iff (m : SMap α) : sorted m = true ↔ m.Pairwise fun a b => a.1 < b.1 := by
  induction m with
  | nil => simp [sorted]
  | cons a m ih =>
    cases m with
    | nil => simp [sorted]
    | cons b m =>
      obtain ⟨x, y⟩ := b
      rw [show sorted (a :: (x, y) :: m) = (decide (a.1 < x) && sorted ((x, y) :: m)) from rfl, Bool.and_eq_true,
        decide_eq_true_iff, ih, List.pairwise_cons (a := a)]
      constructor
      · rintro ⟨h, hp⟩
        refine ⟨fun e he => ?_, hp⟩
        rcases List.mem_cons.1 he with rfl | he
        · exact h
        · exact h.trans ((List.pairwise_cons.1 hp).1 e he)
      · rintro ⟨h, hp⟩
        exact ⟨h (x, y) (by simp), hp⟩

/-- The canonical form, said of its entries. -/
theorem wf_iff (d : Nat → α) (m : SMap α) :
    wf d m = true ↔ m.Pairwise (fun a b => a.1 < b.1) ∧ ∀ e ∈ m, e.2 ≠ d e.1 := by
  unfold wf
  rw [Bool.and_eq_true, sorted_iff, List.all_eq_true]
  simp

/-- An empty map is canonical. -/
@[simp] theorem wf_nil (d : Nat → α) : wf d ([] : SMap α) = true := rfl

/-- A selection of the entries stays canonical. -/
theorem wf_filter (d : Nat → α) (m : SMap α) (p : Nat × α → Bool) (h : wf d m = true) : wf d (m.filter p) = true := by
  rw [wf_iff] at h ⊢
  exact ⟨h.1.filter p, fun e he => h.2 e (List.mem_filter.1 he).1⟩

/-- `keep` keeps the canonical form. -/
theorem wf_keep (d : Nat → α) (m : SMap α) (p : Nat → Bool) (h : wf d m = true) : wf d (keep p m) = true :=
  wf_filter d m _ h

omit [DecidableEq α] in
/-- The entries of a map with `v` listed at `k`. -/
theorem mem_ins (k : Nat) (v : α) (m : SMap α) {e : Nat × α} (h : e ∈ ins k v m) : e = (k, v) ∨ e ∈ m := by
  induction m with
  | nil => simpa [ins] using h
  | cons a m ih =>
    simp only [ins] at h
    split at h
    · simpa using h
    · split at h
      · rcases List.mem_cons.1 h with h | h
        · exact .inl h
        · exact .inr (by simp [h])
      · rcases List.mem_cons.1 h with h | h
        · exact .inr (by simp [h])
        · rcases ih h with h | h
          · exact .inl h
          · exact .inr (by simp [h])

omit [DecidableEq α] in
/-- Listing a value keeps the keys rising. -/
theorem sorted_ins (k : Nat) (v : α) (m : SMap α) (h : m.Pairwise fun a b => a.1 < b.1) :
    (ins k v m).Pairwise fun a b => a.1 < b.1 := by
  induction m with
  | nil => simp [ins]
  | cons a m ih =>
    obtain ⟨h1, h2⟩ := List.pairwise_cons.1 h
    simp only [ins]
    split
    · rename_i hk
      refine List.pairwise_cons.2 ⟨fun e he => ?_, h⟩
      rcases List.mem_cons.1 he with rfl | he
      · exact hk
      · exact Nat.lt_trans hk (h1 e he)
    · split
      · rename_i hk
        exact List.pairwise_cons.2 ⟨fun e he => by simpa [hk] using h1 e he, h2⟩
      · refine List.pairwise_cons.2 ⟨fun e he => ?_, ih h2⟩
        rcases mem_ins k v m he with rfl | he
        · simp only; omega
        · exact h1 e he

/-- A write keeps the canonical form. -/
theorem wf_put (d : Nat → α) (m : SMap α) (k : Nat) (v : α) (h : wf d m = true) : wf d (put d m k v) = true := by
  unfold put
  split
  · exact wf_filter d m _ h
  · rename_i hv
    rw [wf_iff] at h ⊢
    refine ⟨sorted_ins k v m h.1, fun e he => ?_⟩
    rcases mem_ins k v m he with rfl | he
    · exact hv
    · exact h.2 e he

/-- A change keeps the canonical form. -/
theorem wf_upd (d : Nat → α) (m : SMap α) (k : Nat) (f : α → α) (h : wf d m = true) : wf d (upd d m k f) = true :=
  wf_put d m k _ h

omit [DecidableEq α] in
/-- A read whose key is listed below every entry is the default. -/
theorem get_below (d : Nat → α) (m : SMap α) (k : Nat) (h : ∀ e ∈ m, k < e.1) : get d m k = d k :=
  get_absent d m k fun e he hk => Nat.lt_irrefl k (hk ▸ h e he)

/-- Canonical maps that read alike are the same data. -/
theorem ext_of_wf (d : Nat → α) {m n : SMap α} (hm : wf d m = true) (hn : wf d n = true)
    (h : ∀ k, get d m k = get d n k) : m = n := by
  rw [wf_iff] at hm hn
  induction m generalizing n with
  | nil =>
    cases n with
    | nil => rfl
    | cons b n =>
      have := h b.1
      rw [get_cons, if_pos rfl, get_nil] at this
      exact absurd this.symm (hn.2 b (by simp))
  | cons a m ih =>
    obtain ⟨ha, hm'⟩ := List.pairwise_cons.1 hm.1
    cases n with
    | nil =>
      have := h a.1
      rw [get_cons, if_pos rfl, get_nil] at this
      exact absurd this (hm.2 a (by simp))
    | cons b n =>
      obtain ⟨hb, hn'⟩ := List.pairwise_cons.1 hn.1
      have hab : a.1 = b.1 := by
        rcases Nat.lt_trichotomy a.1 b.1 with hl | he | hg
        · exfalso
          have := h a.1
          rw [get_cons, if_pos rfl, get_below d (b :: n) a.1 (fun e he => by
            rcases List.mem_cons.1 he with rfl | he
            · exact hl
            · exact hl.trans (hb e he))] at this
          exact hm.2 a (by simp) this
        · exact he
        · exfalso
          have := h b.1
          rw [get_cons d b, if_pos rfl, get_below d (a :: m) b.1 (fun e he => by
            rcases List.mem_cons.1 he with rfl | he
            · exact hg
            · exact hg.trans (ha e he))] at this
          exact hn.2 b (by simp) this.symm
      have hv : a.2 = b.2 := by
        have := h a.1
        rwa [get_cons, if_pos rfl, get_cons, if_pos hab] at this
      have hmn : m = n := by
        refine ih (n := n) ⟨hm', fun e he => hm.2 e (by simp [he])⟩ ⟨hn', fun e he => hn.2 e (by simp [he])⟩ fun k => ?_
        by_cases hk : k = a.1
        · subst hk
          rw [get_below d m _ ha, get_below d n _ (by rw [hab]; exact hb)]
        · have := h k
          rwa [get_cons, if_neg hk, get_cons, if_neg (by rw [← hab]; exact hk)] at this
      rw [hmn, show a = b from Prod.ext hab hv]

end Sys2Proof.Machine.SMap
end

