-- ==== Sys2Proof/Laws/State.lean ====
section
/-! SUPPORT. What each update of the state leaves and what it changes: one law for each field and each way to read it,
so that no proof unfolds a record update. -/

namespace Sys2Proof.Machine

variable (s : State)

/-! ### What a command leaves -/

@[simp] theorem State.after_outbox (t : State) : (s.after t).outbox = t.outbox := rfl
@[simp] theorem State.after_freeCtr (t : State) : (s.after t).freeCtr = t.freeCtr := rfl
@[simp] theorem State.after_spindle (t : State) : (s.after t).spindle = t.spindle := rfl
@[simp] theorem State.after_regs (t : State) : (s.after t).regs = t.regs := rfl
@[simp] theorem State.after_devMem (t : State) : (s.after t).devMem = t.devMem := rfl
@[simp] theorem State.after_ueMarks (t : State) : (s.after t).ueMarks = t.ueMarks := rfl
@[simp] theorem State.after_chans (t : State) : (s.after t).chans = t.chans := rfl
@[simp] theorem State.after_stretchAt (t : State) : (s.after t).stretchAt = t.stretchAt := rfl
@[simp] theorem State.after_buckets (t : State) : (s.after t).buckets = t.buckets := rfl
@[simp] theorem State.after_waiting (t : State) : (s.after t).waiting = t.waiting := rfl
@[simp] theorem State.after_ctxs (t : State) : (s.after t).ctxs = t.ctxs := rfl
@[simp] theorem State.after_parts (t : State) : (s.after t).parts = t.parts := rfl
@[simp] theorem State.after_tiles (t : State) : (s.after t).tiles = t.tiles := rfl
@[simp] theorem State.after_groups (t : State) : (s.after t).groups = t.groups := rfl
@[simp] theorem State.after_engines (t : State) : (s.after t).engines = t.engines := rfl
@[simp] theorem State.after_atsReqs (t : State) : (s.after t).atsReqs = t.atsReqs := rfl
@[simp] theorem State.after_hostReqs (t : State) : (s.after t).hostReqs = t.hostReqs := rfl
@[simp] theorem State.after_nextReq (t : State) : (s.after t).nextReq = t.nextReq := rfl
@[simp] theorem State.after_pft (t : State) : (s.after t).pft = t.pft := rfl
@[simp] theorem State.after_pftQueue (t : State) : (s.after t).pftQueue = t.pftQueue := rfl
@[simp] theorem State.after_pftSend (t : State) : (s.after t).pftSend = t.pftSend := rfl
@[simp] theorem State.after_pftAt (t : State) : (s.after t).pftAt = t.pftAt := rfl
@[simp] theorem State.after_invs (t : State) : (s.after t).invs = t.invs := rfl
@[simp] theorem State.after_links (t : State) : (s.after t).links = t.links := rfl
@[simp] theorem State.after_netBufs (t : State) : (s.after t).netBufs = t.netBufs := rfl
@[simp] theorem State.after_tags (t : State) : (s.after t).tags = t.tags := rfl
@[simp] theorem State.after_owed (t : State) : (s.after t).owed = t.owed := rfl
@[simp] theorem State.after_ctlOut (t : State) : (s.after t).ctlOut = t.ctlOut := rfl
@[simp] theorem State.after_whFlits (t : State) : (s.after t).whFlits = t.whFlits := rfl
@[simp] theorem State.after_pools (t : State) : (s.after t).pools = t.pools := rfl
@[simp] theorem State.after_mods (t : State) : (s.after t).mods = t.mods := rfl
@[simp] theorem State.after_bdls (t : State) : (s.after t).bdls = t.bdls := rfl
@[simp] theorem State.after_sites (t : State) : (s.after t).sites = t.sites := rfl
@[simp] theorem State.after_hcfg (t : State) : (s.after t).hcfg = t.hcfg := rfl
@[simp] theorem State.after_streams (t : State) : (s.after t).streams = t.streams := rfl
@[simp] theorem State.after_doe (t : State) : (s.after t).doe = t.doe := rfl
@[simp] theorem State.after_spdm (t : State) : (s.after t).spdm = t.spdm := rfl
@[simp] theorem State.after_sessions (t : State) : (s.after t).sessions = t.sessions := rfl
@[simp] theorem State.after_ports (t : State) : (s.after t).ports = t.ports := rfl
@[simp] theorem State.after_clOps (t : State) : (s.after t).clOps = t.clOps := rfl
@[simp] theorem State.after_colls (t : State) : (s.after t).colls = t.colls := rfl
@[simp] theorem State.after_readies (t : State) : (s.after t).readies = t.readies := rfl
@[simp] theorem State.after_aborts (t : State) : (s.after t).aborts = t.aborts := rfl
@[simp] theorem State.after_held (t : State) : (s.after t).held = t.held := rfl
@[simp] theorem State.after_hw (t : State) : (s.after t).hw = t.hw := rfl
@[simp] theorem State.after_mbx (t : State) : (s.after t).mbx = t.mbx := rfl
@[simp] theorem State.after_flash (t : State) : (s.after t).flash = t.flash := rfl
@[simp] theorem State.after_sset0 (t : State) : (s.after t).sset0 = t.sset0 := rfl
@[simp] theorem State.after_sset1 (t : State) : (s.after t).sset1 = t.sset1 := rfl
@[simp] theorem State.after_saved (t : State) : (s.after t).saved = t.saved := rfl
@[simp] theorem State.after_ssetDirty (t : State) : (s.after t).ssetDirty = t.ssetDirty := rfl
@[simp] theorem State.after_image (t : State) : (s.after t).image = t.image := rfl
@[simp] theorem State.after_bb (t : State) : (s.after t).bb = t.bb := rfl
@[simp] theorem State.after_tls (t : State) : (s.after t).tls = t.tls := rfl
@[simp] theorem State.after_power (t : State) : (s.after t).power = t.power := rfl
@[simp] theorem State.after_pins (t : State) : (s.after t).pins = t.pins := rfl
@[simp] theorem State.after_boot (t : State) : (s.after t).boot = t.boot := rfl
@[simp] theorem State.after_pending (t : State) : (s.after t).pending = s.pending := rfl
@[simp] theorem State.after_at_reg (t : State) (j : Nat) : (s.after t).reg j = t.reg j := rfl
@[simp] theorem State.after_at_rd (t : State) (g : Fld) : (s.after t).rd g = t.rd g := rfl
@[simp] theorem State.after_at_on (t : State) (g : Fld) : (s.after t).on g = t.on g := rfl
@[simp] theorem State.after_at_ctx (t : State) (j : Nat) : (s.after t).ctx j = t.ctx j := rfl
@[simp] theorem State.after_at_chan (t : State) (j : Nat) : (s.after t).chan j = t.chan j := rfl
@[simp] theorem State.after_at_part (t : State) (j : Nat) : (s.after t).part j = t.part j := rfl
@[simp] theorem State.after_at_tile (t : State) (j : Nat) : (s.after t).tile j = t.tile j := rfl
@[simp] theorem State.after_at_group (t : State) (j : Nat) : (s.after t).group j = t.group j := rfl
@[simp] theorem State.after_at_engine (t : State) (j : Nat) : (s.after t).engine j = t.engine j := rfl
@[simp] theorem State.after_at_pool (t : State) (j : Nat) : (s.after t).pool j = t.pool j := rfl
@[simp] theorem State.after_at_slot (t : State) (p j : Nat) : (s.after t).slot p j = t.slot p j := rfl
@[simp] theorem State.after_at_mod (t : State) (j : Nat) : (s.after t).mod j = t.mod j := rfl
@[simp] theorem State.after_at_bdl (t : State) (j : Nat) : (s.after t).bdl j = t.bdl j := rfl
@[simp] theorem State.after_at_site (t : State) (j : Nat) : (s.after t).site j = t.site j := rfl
@[simp] theorem State.after_at_cfg (t : State) (j : Nat) : (s.after t).cfg j = t.cfg j := rfl
@[simp] theorem State.after_at_stream (t : State) (j : Nat) : (s.after t).stream j = t.stream j := rfl
@[simp] theorem State.after_at_port (t : State) (j : Nat) : (s.after t).port j = t.port j := rfl
@[simp] theorem State.after_at_now (t : State) : (s.after t).now = t.now := rfl
@[simp] theorem State.after_at_lc (t : State) : (s.after t).lc = t.lc := rfl
@[simp] theorem State.after_at_linkUp (t : State) : (s.after t).linkUp = t.linkUp := rfl
@[simp] theorem State.after_at_fnEnabled (t : State) (j : Nat) : (s.after t).fnEnabled j = t.fnEnabled j := rfl
@[simp] theorem State.after_at_tracing (t : State) : (s.after t).tracing = t.tracing := rfl
@[simp] theorem State.after_at_free (t : State) : (s.after t).free = t.free := rfl

/-! ### setReg -/

@[simp] theorem State.setReg_pending (k : Nat) (w : Word) : (s.setReg k w).pending = s.pending := rfl
@[simp] theorem State.setReg_outbox (k : Nat) (w : Word) : (s.setReg k w).outbox = s.outbox := rfl
@[simp] theorem State.setReg_freeCtr (k : Nat) (w : Word) : (s.setReg k w).freeCtr = s.freeCtr := rfl
@[simp] theorem State.setReg_spindle (k : Nat) (w : Word) : (s.setReg k w).spindle = s.spindle := rfl
@[simp] theorem State.setReg_devMem (k : Nat) (w : Word) : (s.setReg k w).devMem = s.devMem := rfl
@[simp] theorem State.setReg_ueMarks (k : Nat) (w : Word) : (s.setReg k w).ueMarks = s.ueMarks := rfl
@[simp] theorem State.setReg_chans (k : Nat) (w : Word) : (s.setReg k w).chans = s.chans := rfl
@[simp] theorem State.setReg_stretchAt (k : Nat) (w : Word) : (s.setReg k w).stretchAt = s.stretchAt := rfl
@[simp] theorem State.setReg_buckets (k : Nat) (w : Word) : (s.setReg k w).buckets = s.buckets := rfl
@[simp] theorem State.setReg_waiting (k : Nat) (w : Word) : (s.setReg k w).waiting = s.waiting := rfl
@[simp] theorem State.setReg_ctxs (k : Nat) (w : Word) : (s.setReg k w).ctxs = s.ctxs := rfl
@[simp] theorem State.setReg_parts (k : Nat) (w : Word) : (s.setReg k w).parts = s.parts := rfl
@[simp] theorem State.setReg_tiles (k : Nat) (w : Word) : (s.setReg k w).tiles = s.tiles := rfl
@[simp] theorem State.setReg_groups (k : Nat) (w : Word) : (s.setReg k w).groups = s.groups := rfl
@[simp] theorem State.setReg_engines (k : Nat) (w : Word) : (s.setReg k w).engines = s.engines := rfl
@[simp] theorem State.setReg_atsReqs (k : Nat) (w : Word) : (s.setReg k w).atsReqs = s.atsReqs := rfl
@[simp] theorem State.setReg_hostReqs (k : Nat) (w : Word) : (s.setReg k w).hostReqs = s.hostReqs := rfl
@[simp] theorem State.setReg_nextReq (k : Nat) (w : Word) : (s.setReg k w).nextReq = s.nextReq := rfl
@[simp] theorem State.setReg_pft (k : Nat) (w : Word) : (s.setReg k w).pft = s.pft := rfl
@[simp] theorem State.setReg_pftQueue (k : Nat) (w : Word) : (s.setReg k w).pftQueue = s.pftQueue := rfl
@[simp] theorem State.setReg_pftSend (k : Nat) (w : Word) : (s.setReg k w).pftSend = s.pftSend := rfl
@[simp] theorem State.setReg_pftAt (k : Nat) (w : Word) : (s.setReg k w).pftAt = s.pftAt := rfl
@[simp] theorem State.setReg_invs (k : Nat) (w : Word) : (s.setReg k w).invs = s.invs := rfl
@[simp] theorem State.setReg_links (k : Nat) (w : Word) : (s.setReg k w).links = s.links := rfl
@[simp] theorem State.setReg_netBufs (k : Nat) (w : Word) : (s.setReg k w).netBufs = s.netBufs := rfl
@[simp] theorem State.setReg_tags (k : Nat) (w : Word) : (s.setReg k w).tags = s.tags := rfl
@[simp] theorem State.setReg_owed (k : Nat) (w : Word) : (s.setReg k w).owed = s.owed := rfl
@[simp] theorem State.setReg_ctlOut (k : Nat) (w : Word) : (s.setReg k w).ctlOut = s.ctlOut := rfl
@[simp] theorem State.setReg_whFlits (k : Nat) (w : Word) : (s.setReg k w).whFlits = s.whFlits := rfl
@[simp] theorem State.setReg_pools (k : Nat) (w : Word) : (s.setReg k w).pools = s.pools := rfl
@[simp] theorem State.setReg_mods (k : Nat) (w : Word) : (s.setReg k w).mods = s.mods := rfl
@[simp] theorem State.setReg_bdls (k : Nat) (w : Word) : (s.setReg k w).bdls = s.bdls := rfl
@[simp] theorem State.setReg_sites (k : Nat) (w : Word) : (s.setReg k w).sites = s.sites := rfl
@[simp] theorem State.setReg_hcfg (k : Nat) (w : Word) : (s.setReg k w).hcfg = s.hcfg := rfl
@[simp] theorem State.setReg_streams (k : Nat) (w : Word) : (s.setReg k w).streams = s.streams := rfl
@[simp] theorem State.setReg_doe (k : Nat) (w : Word) : (s.setReg k w).doe = s.doe := rfl
@[simp] theorem State.setReg_spdm (k : Nat) (w : Word) : (s.setReg k w).spdm = s.spdm := rfl
@[simp] theorem State.setReg_sessions (k : Nat) (w : Word) : (s.setReg k w).sessions = s.sessions := rfl
@[simp] theorem State.setReg_ports (k : Nat) (w : Word) : (s.setReg k w).ports = s.ports := rfl
@[simp] theorem State.setReg_clOps (k : Nat) (w : Word) : (s.setReg k w).clOps = s.clOps := rfl
@[simp] theorem State.setReg_colls (k : Nat) (w : Word) : (s.setReg k w).colls = s.colls := rfl
@[simp] theorem State.setReg_readies (k : Nat) (w : Word) : (s.setReg k w).readies = s.readies := rfl
@[simp] theorem State.setReg_aborts (k : Nat) (w : Word) : (s.setReg k w).aborts = s.aborts := rfl
@[simp] theorem State.setReg_held (k : Nat) (w : Word) : (s.setReg k w).held = s.held := rfl
@[simp] theorem State.setReg_otp (k : Nat) (w : Word) : (s.setReg k w).otp = s.otp := rfl
@[simp] theorem State.setReg_hw (k : Nat) (w : Word) : (s.setReg k w).hw = s.hw := rfl
@[simp] theorem State.setReg_mbx (k : Nat) (w : Word) : (s.setReg k w).mbx = s.mbx := rfl
@[simp] theorem State.setReg_flash (k : Nat) (w : Word) : (s.setReg k w).flash = s.flash := rfl
@[simp] theorem State.setReg_sset0 (k : Nat) (w : Word) : (s.setReg k w).sset0 = s.sset0 := rfl
@[simp] theorem State.setReg_sset1 (k : Nat) (w : Word) : (s.setReg k w).sset1 = s.sset1 := rfl
@[simp] theorem State.setReg_saved (k : Nat) (w : Word) : (s.setReg k w).saved = s.saved := rfl
@[simp] theorem State.setReg_ssetDirty (k : Nat) (w : Word) : (s.setReg k w).ssetDirty = s.ssetDirty := rfl
@[simp] theorem State.setReg_image (k : Nat) (w : Word) : (s.setReg k w).image = s.image := rfl
@[simp] theorem State.setReg_bb (k : Nat) (w : Word) : (s.setReg k w).bb = s.bb := rfl
@[simp] theorem State.setReg_tls (k : Nat) (w : Word) : (s.setReg k w).tls = s.tls := rfl
@[simp] theorem State.setReg_power (k : Nat) (w : Word) : (s.setReg k w).power = s.power := rfl
@[simp] theorem State.setReg_pins (k : Nat) (w : Word) : (s.setReg k w).pins = s.pins := rfl
@[simp] theorem State.setReg_boot (k : Nat) (w : Word) : (s.setReg k w).boot = s.boot := rfl
@[simp] theorem State.setReg_at_ctx (k : Nat) (w : Word) (j : Nat) : (s.setReg k w).ctx j = s.ctx j := rfl
@[simp] theorem State.setReg_at_chan (k : Nat) (w : Word) (j : Nat) : (s.setReg k w).chan j = s.chan j := rfl
@[simp] theorem State.setReg_at_part (k : Nat) (w : Word) (j : Nat) : (s.setReg k w).part j = s.part j := rfl
@[simp] theorem State.setReg_at_tile (k : Nat) (w : Word) (j : Nat) : (s.setReg k w).tile j = s.tile j := rfl
@[simp] theorem State.setReg_at_group (k : Nat) (w : Word) (j : Nat) : (s.setReg k w).group j = s.group j := rfl
@[simp] theorem State.setReg_at_engine (k : Nat) (w : Word) (j : Nat) : (s.setReg k w).engine j = s.engine j := rfl
@[simp] theorem State.setReg_at_pool (k : Nat) (w : Word) (j : Nat) : (s.setReg k w).pool j = s.pool j := rfl
@[simp] theorem State.setReg_at_slot (k : Nat) (w : Word) (p j : Nat) : (s.setReg k w).slot p j = s.slot p j := rfl
@[simp] theorem State.setReg_at_mod (k : Nat) (w : Word) (j : Nat) : (s.setReg k w).mod j = s.mod j := rfl
@[simp] theorem State.setReg_at_bdl (k : Nat) (w : Word) (j : Nat) : (s.setReg k w).bdl j = s.bdl j := rfl
@[simp] theorem State.setReg_at_site (k : Nat) (w : Word) (j : Nat) : (s.setReg k w).site j = s.site j := rfl
@[simp] theorem State.setReg_at_cfg (k : Nat) (w : Word) (j : Nat) : (s.setReg k w).cfg j = s.cfg j := rfl
@[simp] theorem State.setReg_at_stream (k : Nat) (w : Word) (j : Nat) : (s.setReg k w).stream j = s.stream j := rfl
@[simp] theorem State.setReg_at_port (k : Nat) (w : Word) (j : Nat) : (s.setReg k w).port j = s.port j := rfl
@[simp] theorem State.setReg_at_now (k : Nat) (w : Word) : (s.setReg k w).now = s.now := rfl
@[simp] theorem State.setReg_at_fnEnabled (k : Nat) (w : Word) (j : Nat) : (s.setReg k w).fnEnabled j = s.fnEnabled j := rfl
@[simp] theorem State.setReg_at_free (k : Nat) (w : Word) : (s.setReg k w).free = s.free := rfl

/-! ### wr -/

@[simp] theorem State.wr_pending (f : Fld) (v : Nat) : (s.wr f v).pending = s.pending := rfl
@[simp] theorem State.wr_outbox (f : Fld) (v : Nat) : (s.wr f v).outbox = s.outbox := rfl
@[simp] theorem State.wr_freeCtr (f : Fld) (v : Nat) : (s.wr f v).freeCtr = s.freeCtr := rfl
@[simp] theorem State.wr_spindle (f : Fld) (v : Nat) : (s.wr f v).spindle = s.spindle := rfl
@[simp] theorem State.wr_devMem (f : Fld) (v : Nat) : (s.wr f v).devMem = s.devMem := rfl
@[simp] theorem State.wr_ueMarks (f : Fld) (v : Nat) : (s.wr f v).ueMarks = s.ueMarks := rfl
@[simp] theorem State.wr_chans (f : Fld) (v : Nat) : (s.wr f v).chans = s.chans := rfl
@[simp] theorem State.wr_stretchAt (f : Fld) (v : Nat) : (s.wr f v).stretchAt = s.stretchAt := rfl
@[simp] theorem State.wr_buckets (f : Fld) (v : Nat) : (s.wr f v).buckets = s.buckets := rfl
@[simp] theorem State.wr_waiting (f : Fld) (v : Nat) : (s.wr f v).waiting = s.waiting := rfl
@[simp] theorem State.wr_ctxs (f : Fld) (v : Nat) : (s.wr f v).ctxs = s.ctxs := rfl
@[simp] theorem State.wr_parts (f : Fld) (v : Nat) : (s.wr f v).parts = s.parts := rfl
@[simp] theorem State.wr_tiles (f : Fld) (v : Nat) : (s.wr f v).tiles = s.tiles := rfl
@[simp] theorem State.wr_groups (f : Fld) (v : Nat) : (s.wr f v).groups = s.groups := rfl
@[simp] theorem State.wr_engines (f : Fld) (v : Nat) : (s.wr f v).engines = s.engines := rfl
@[simp] theorem State.wr_atsReqs (f : Fld) (v : Nat) : (s.wr f v).atsReqs = s.atsReqs := rfl
@[simp] theorem State.wr_hostReqs (f : Fld) (v : Nat) : (s.wr f v).hostReqs = s.hostReqs := rfl
@[simp] theorem State.wr_nextReq (f : Fld) (v : Nat) : (s.wr f v).nextReq = s.nextReq := rfl
@[simp] theorem State.wr_pft (f : Fld) (v : Nat) : (s.wr f v).pft = s.pft := rfl
@[simp] theorem State.wr_pftQueue (f : Fld) (v : Nat) : (s.wr f v).pftQueue = s.pftQueue := rfl
@[simp] theorem State.wr_pftSend (f : Fld) (v : Nat) : (s.wr f v).pftSend = s.pftSend := rfl
@[simp] theorem State.wr_pftAt (f : Fld) (v : Nat) : (s.wr f v).pftAt = s.pftAt := rfl
@[simp] theorem State.wr_invs (f : Fld) (v : Nat) : (s.wr f v).invs = s.invs := rfl
@[simp] theorem State.wr_links (f : Fld) (v : Nat) : (s.wr f v).links = s.links := rfl
@[simp] theorem State.wr_netBufs (f : Fld) (v : Nat) : (s.wr f v).netBufs = s.netBufs := rfl
@[simp] theorem State.wr_tags (f : Fld) (v : Nat) : (s.wr f v).tags = s.tags := rfl
@[simp] theorem State.wr_owed (f : Fld) (v : Nat) : (s.wr f v).owed = s.owed := rfl
@[simp] theorem State.wr_ctlOut (f : Fld) (v : Nat) : (s.wr f v).ctlOut = s.ctlOut := rfl
@[simp] theorem State.wr_whFlits (f : Fld) (v : Nat) : (s.wr f v).whFlits = s.whFlits := rfl
@[simp] theorem State.wr_pools (f : Fld) (v : Nat) : (s.wr f v).pools = s.pools := rfl
@[simp] theorem State.wr_mods (f : Fld) (v : Nat) : (s.wr f v).mods = s.mods := rfl
@[simp] theorem State.wr_bdls (f : Fld) (v : Nat) : (s.wr f v).bdls = s.bdls := rfl
@[simp] theorem State.wr_sites (f : Fld) (v : Nat) : (s.wr f v).sites = s.sites := rfl
@[simp] theorem State.wr_hcfg (f : Fld) (v : Nat) : (s.wr f v).hcfg = s.hcfg := rfl
@[simp] theorem State.wr_streams (f : Fld) (v : Nat) : (s.wr f v).streams = s.streams := rfl
@[simp] theorem State.wr_doe (f : Fld) (v : Nat) : (s.wr f v).doe = s.doe := rfl
@[simp] theorem State.wr_spdm (f : Fld) (v : Nat) : (s.wr f v).spdm = s.spdm := rfl
@[simp] theorem State.wr_sessions (f : Fld) (v : Nat) : (s.wr f v).sessions = s.sessions := rfl
@[simp] theorem State.wr_ports (f : Fld) (v : Nat) : (s.wr f v).ports = s.ports := rfl
@[simp] theorem State.wr_clOps (f : Fld) (v : Nat) : (s.wr f v).clOps = s.clOps := rfl
@[simp] theorem State.wr_colls (f : Fld) (v : Nat) : (s.wr f v).colls = s.colls := rfl
@[simp] theorem State.wr_readies (f : Fld) (v : Nat) : (s.wr f v).readies = s.readies := rfl
@[simp] theorem State.wr_aborts (f : Fld) (v : Nat) : (s.wr f v).aborts = s.aborts := rfl
@[simp] theorem State.wr_held (f : Fld) (v : Nat) : (s.wr f v).held = s.held := rfl
@[simp] theorem State.wr_otp (f : Fld) (v : Nat) : (s.wr f v).otp = s.otp := rfl
@[simp] theorem State.wr_hw (f : Fld) (v : Nat) : (s.wr f v).hw = s.hw := rfl
@[simp] theorem State.wr_mbx (f : Fld) (v : Nat) : (s.wr f v).mbx = s.mbx := rfl
@[simp] theorem State.wr_flash (f : Fld) (v : Nat) : (s.wr f v).flash = s.flash := rfl
@[simp] theorem State.wr_sset0 (f : Fld) (v : Nat) : (s.wr f v).sset0 = s.sset0 := rfl
@[simp] theorem State.wr_sset1 (f : Fld) (v : Nat) : (s.wr f v).sset1 = s.sset1 := rfl
@[simp] theorem State.wr_saved (f : Fld) (v : Nat) : (s.wr f v).saved = s.saved := rfl
@[simp] theorem State.wr_ssetDirty (f : Fld) (v : Nat) : (s.wr f v).ssetDirty = s.ssetDirty := rfl
@[simp] theorem State.wr_image (f : Fld) (v : Nat) : (s.wr f v).image = s.image := rfl
@[simp] theorem State.wr_bb (f : Fld) (v : Nat) : (s.wr f v).bb = s.bb := rfl
@[simp] theorem State.wr_tls (f : Fld) (v : Nat) : (s.wr f v).tls = s.tls := rfl
@[simp] theorem State.wr_power (f : Fld) (v : Nat) : (s.wr f v).power = s.power := rfl
@[simp] theorem State.wr_pins (f : Fld) (v : Nat) : (s.wr f v).pins = s.pins := rfl
@[simp] theorem State.wr_boot (f : Fld) (v : Nat) : (s.wr f v).boot = s.boot := rfl
@[simp] theorem State.wr_at_ctx (f : Fld) (v : Nat) (j : Nat) : (s.wr f v).ctx j = s.ctx j := rfl
@[simp] theorem State.wr_at_chan (f : Fld) (v : Nat) (j : Nat) : (s.wr f v).chan j = s.chan j := rfl
@[simp] theorem State.wr_at_part (f : Fld) (v : Nat) (j : Nat) : (s.wr f v).part j = s.part j := rfl
@[simp] theorem State.wr_at_tile (f : Fld) (v : Nat) (j : Nat) : (s.wr f v).tile j = s.tile j := rfl
@[simp] theorem State.wr_at_group (f : Fld) (v : Nat) (j : Nat) : (s.wr f v).group j = s.group j := rfl
@[simp] theorem State.wr_at_engine (f : Fld) (v : Nat) (j : Nat) : (s.wr f v).engine j = s.engine j := rfl
@[simp] theorem State.wr_at_pool (f : Fld) (v : Nat) (j : Nat) : (s.wr f v).pool j = s.pool j := rfl
@[simp] theorem State.wr_at_slot (f : Fld) (v : Nat) (p j : Nat) : (s.wr f v).slot p j = s.slot p j := rfl
@[simp] theorem State.wr_at_mod (f : Fld) (v : Nat) (j : Nat) : (s.wr f v).mod j = s.mod j := rfl
@[simp] theorem State.wr_at_bdl (f : Fld) (v : Nat) (j : Nat) : (s.wr f v).bdl j = s.bdl j := rfl
@[simp] theorem State.wr_at_site (f : Fld) (v : Nat) (j : Nat) : (s.wr f v).site j = s.site j := rfl
@[simp] theorem State.wr_at_cfg (f : Fld) (v : Nat) (j : Nat) : (s.wr f v).cfg j = s.cfg j := rfl
@[simp] theorem State.wr_at_stream (f : Fld) (v : Nat) (j : Nat) : (s.wr f v).stream j = s.stream j := rfl
@[simp] theorem State.wr_at_port (f : Fld) (v : Nat) (j : Nat) : (s.wr f v).port j = s.port j := rfl
@[simp] theorem State.wr_at_now (f : Fld) (v : Nat) : (s.wr f v).now = s.now := rfl
@[simp] theorem State.wr_at_fnEnabled (f : Fld) (v : Nat) (j : Nat) : (s.wr f v).fnEnabled j = s.fnEnabled j := rfl
@[simp] theorem State.wr_at_free (f : Fld) (v : Nat) : (s.wr f v).free = s.free := rfl

/-! ### setCtx -/

@[simp] theorem State.setCtx_pending (c : Nat) (x : Ctx) : (s.setCtx c x).pending = s.pending := rfl
@[simp] theorem State.setCtx_outbox (c : Nat) (x : Ctx) : (s.setCtx c x).outbox = s.outbox := rfl
@[simp] theorem State.setCtx_freeCtr (c : Nat) (x : Ctx) : (s.setCtx c x).freeCtr = s.freeCtr := rfl
@[simp] theorem State.setCtx_spindle (c : Nat) (x : Ctx) : (s.setCtx c x).spindle = s.spindle := rfl
@[simp] theorem State.setCtx_regs (c : Nat) (x : Ctx) : (s.setCtx c x).regs = s.regs := rfl
@[simp] theorem State.setCtx_devMem (c : Nat) (x : Ctx) : (s.setCtx c x).devMem = s.devMem := rfl
@[simp] theorem State.setCtx_ueMarks (c : Nat) (x : Ctx) : (s.setCtx c x).ueMarks = s.ueMarks := rfl
@[simp] theorem State.setCtx_chans (c : Nat) (x : Ctx) : (s.setCtx c x).chans = s.chans := rfl
@[simp] theorem State.setCtx_stretchAt (c : Nat) (x : Ctx) : (s.setCtx c x).stretchAt = s.stretchAt := rfl
@[simp] theorem State.setCtx_buckets (c : Nat) (x : Ctx) : (s.setCtx c x).buckets = s.buckets := rfl
@[simp] theorem State.setCtx_waiting (c : Nat) (x : Ctx) : (s.setCtx c x).waiting = s.waiting := rfl
@[simp] theorem State.setCtx_parts (c : Nat) (x : Ctx) : (s.setCtx c x).parts = s.parts := rfl
@[simp] theorem State.setCtx_tiles (c : Nat) (x : Ctx) : (s.setCtx c x).tiles = s.tiles := rfl
@[simp] theorem State.setCtx_groups (c : Nat) (x : Ctx) : (s.setCtx c x).groups = s.groups := rfl
@[simp] theorem State.setCtx_engines (c : Nat) (x : Ctx) : (s.setCtx c x).engines = s.engines := rfl
@[simp] theorem State.setCtx_atsReqs (c : Nat) (x : Ctx) : (s.setCtx c x).atsReqs = s.atsReqs := rfl
@[simp] theorem State.setCtx_hostReqs (c : Nat) (x : Ctx) : (s.setCtx c x).hostReqs = s.hostReqs := rfl
@[simp] theorem State.setCtx_nextReq (c : Nat) (x : Ctx) : (s.setCtx c x).nextReq = s.nextReq := rfl
@[simp] theorem State.setCtx_pft (c : Nat) (x : Ctx) : (s.setCtx c x).pft = s.pft := rfl
@[simp] theorem State.setCtx_pftQueue (c : Nat) (x : Ctx) : (s.setCtx c x).pftQueue = s.pftQueue := rfl
@[simp] theorem State.setCtx_pftSend (c : Nat) (x : Ctx) : (s.setCtx c x).pftSend = s.pftSend := rfl
@[simp] theorem State.setCtx_pftAt (c : Nat) (x : Ctx) : (s.setCtx c x).pftAt = s.pftAt := rfl
@[simp] theorem State.setCtx_invs (c : Nat) (x : Ctx) : (s.setCtx c x).invs = s.invs := rfl
@[simp] theorem State.setCtx_links (c : Nat) (x : Ctx) : (s.setCtx c x).links = s.links := rfl
@[simp] theorem State.setCtx_netBufs (c : Nat) (x : Ctx) : (s.setCtx c x).netBufs = s.netBufs := rfl
@[simp] theorem State.setCtx_tags (c : Nat) (x : Ctx) : (s.setCtx c x).tags = s.tags := rfl
@[simp] theorem State.setCtx_owed (c : Nat) (x : Ctx) : (s.setCtx c x).owed = s.owed := rfl
@[simp] theorem State.setCtx_ctlOut (c : Nat) (x : Ctx) : (s.setCtx c x).ctlOut = s.ctlOut := rfl
@[simp] theorem State.setCtx_whFlits (c : Nat) (x : Ctx) : (s.setCtx c x).whFlits = s.whFlits := rfl
@[simp] theorem State.setCtx_pools (c : Nat) (x : Ctx) : (s.setCtx c x).pools = s.pools := rfl
@[simp] theorem State.setCtx_mods (c : Nat) (x : Ctx) : (s.setCtx c x).mods = s.mods := rfl
@[simp] theorem State.setCtx_bdls (c : Nat) (x : Ctx) : (s.setCtx c x).bdls = s.bdls := rfl
@[simp] theorem State.setCtx_sites (c : Nat) (x : Ctx) : (s.setCtx c x).sites = s.sites := rfl
@[simp] theorem State.setCtx_hcfg (c : Nat) (x : Ctx) : (s.setCtx c x).hcfg = s.hcfg := rfl
@[simp] theorem State.setCtx_streams (c : Nat) (x : Ctx) : (s.setCtx c x).streams = s.streams := rfl
@[simp] theorem State.setCtx_doe (c : Nat) (x : Ctx) : (s.setCtx c x).doe = s.doe := rfl
@[simp] theorem State.setCtx_spdm (c : Nat) (x : Ctx) : (s.setCtx c x).spdm = s.spdm := rfl
@[simp] theorem State.setCtx_sessions (c : Nat) (x : Ctx) : (s.setCtx c x).sessions = s.sessions := rfl
@[simp] theorem State.setCtx_ports (c : Nat) (x : Ctx) : (s.setCtx c x).ports = s.ports := rfl
@[simp] theorem State.setCtx_clOps (c : Nat) (x : Ctx) : (s.setCtx c x).clOps = s.clOps := rfl
@[simp] theorem State.setCtx_colls (c : Nat) (x : Ctx) : (s.setCtx c x).colls = s.colls := rfl
@[simp] theorem State.setCtx_readies (c : Nat) (x : Ctx) : (s.setCtx c x).readies = s.readies := rfl
@[simp] theorem State.setCtx_aborts (c : Nat) (x : Ctx) : (s.setCtx c x).aborts = s.aborts := rfl
@[simp] theorem State.setCtx_held (c : Nat) (x : Ctx) : (s.setCtx c x).held = s.held := rfl
@[simp] theorem State.setCtx_otp (c : Nat) (x : Ctx) : (s.setCtx c x).otp = s.otp := rfl
@[simp] theorem State.setCtx_hw (c : Nat) (x : Ctx) : (s.setCtx c x).hw = s.hw := rfl
@[simp] theorem State.setCtx_mbx (c : Nat) (x : Ctx) : (s.setCtx c x).mbx = s.mbx := rfl
@[simp] theorem State.setCtx_flash (c : Nat) (x : Ctx) : (s.setCtx c x).flash = s.flash := rfl
@[simp] theorem State.setCtx_sset0 (c : Nat) (x : Ctx) : (s.setCtx c x).sset0 = s.sset0 := rfl
@[simp] theorem State.setCtx_sset1 (c : Nat) (x : Ctx) : (s.setCtx c x).sset1 = s.sset1 := rfl
@[simp] theorem State.setCtx_saved (c : Nat) (x : Ctx) : (s.setCtx c x).saved = s.saved := rfl
@[simp] theorem State.setCtx_ssetDirty (c : Nat) (x : Ctx) : (s.setCtx c x).ssetDirty = s.ssetDirty := rfl
@[simp] theorem State.setCtx_image (c : Nat) (x : Ctx) : (s.setCtx c x).image = s.image := rfl
@[simp] theorem State.setCtx_bb (c : Nat) (x : Ctx) : (s.setCtx c x).bb = s.bb := rfl
@[simp] theorem State.setCtx_tls (c : Nat) (x : Ctx) : (s.setCtx c x).tls = s.tls := rfl
@[simp] theorem State.setCtx_power (c : Nat) (x : Ctx) : (s.setCtx c x).power = s.power := rfl
@[simp] theorem State.setCtx_pins (c : Nat) (x : Ctx) : (s.setCtx c x).pins = s.pins := rfl
@[simp] theorem State.setCtx_boot (c : Nat) (x : Ctx) : (s.setCtx c x).boot = s.boot := rfl
@[simp] theorem State.setCtx_at_reg (c : Nat) (x : Ctx) (j : Nat) : (s.setCtx c x).reg j = s.reg j := rfl
@[simp] theorem State.setCtx_at_rd (c : Nat) (x : Ctx) (g : Fld) : (s.setCtx c x).rd g = s.rd g := rfl
@[simp] theorem State.setCtx_at_on (c : Nat) (x : Ctx) (g : Fld) : (s.setCtx c x).on g = s.on g := rfl
@[simp] theorem State.setCtx_at_chan (c : Nat) (x : Ctx) (j : Nat) : (s.setCtx c x).chan j = s.chan j := rfl
@[simp] theorem State.setCtx_at_part (c : Nat) (x : Ctx) (j : Nat) : (s.setCtx c x).part j = s.part j := rfl
@[simp] theorem State.setCtx_at_tile (c : Nat) (x : Ctx) (j : Nat) : (s.setCtx c x).tile j = s.tile j := rfl
@[simp] theorem State.setCtx_at_group (c : Nat) (x : Ctx) (j : Nat) : (s.setCtx c x).group j = s.group j := rfl
@[simp] theorem State.setCtx_at_engine (c : Nat) (x : Ctx) (j : Nat) : (s.setCtx c x).engine j = s.engine j := rfl
@[simp] theorem State.setCtx_at_pool (c : Nat) (x : Ctx) (j : Nat) : (s.setCtx c x).pool j = s.pool j := rfl
@[simp] theorem State.setCtx_at_slot (c : Nat) (x : Ctx) (p j : Nat) : (s.setCtx c x).slot p j = s.slot p j := rfl
@[simp] theorem State.setCtx_at_mod (c : Nat) (x : Ctx) (j : Nat) : (s.setCtx c x).mod j = s.mod j := rfl
@[simp] theorem State.setCtx_at_bdl (c : Nat) (x : Ctx) (j : Nat) : (s.setCtx c x).bdl j = s.bdl j := rfl
@[simp] theorem State.setCtx_at_site (c : Nat) (x : Ctx) (j : Nat) : (s.setCtx c x).site j = s.site j := rfl
@[simp] theorem State.setCtx_at_cfg (c : Nat) (x : Ctx) (j : Nat) : (s.setCtx c x).cfg j = s.cfg j := rfl
@[simp] theorem State.setCtx_at_stream (c : Nat) (x : Ctx) (j : Nat) : (s.setCtx c x).stream j = s.stream j := rfl
@[simp] theorem State.setCtx_at_port (c : Nat) (x : Ctx) (j : Nat) : (s.setCtx c x).port j = s.port j := rfl
@[simp] theorem State.setCtx_at_now (c : Nat) (x : Ctx) : (s.setCtx c x).now = s.now := rfl
@[simp] theorem State.setCtx_at_lc (c : Nat) (x : Ctx) : (s.setCtx c x).lc = s.lc := rfl
@[simp] theorem State.setCtx_at_linkUp (c : Nat) (x : Ctx) : (s.setCtx c x).linkUp = s.linkUp := rfl
@[simp] theorem State.setCtx_at_fnEnabled (c : Nat) (x : Ctx) (j : Nat) : (s.setCtx c x).fnEnabled j = s.fnEnabled j := rfl
@[simp] theorem State.setCtx_at_tracing (c : Nat) (x : Ctx) : (s.setCtx c x).tracing = s.tracing := rfl
@[simp] theorem State.setCtx_at_free (c : Nat) (x : Ctx) : (s.setCtx c x).free = s.free := rfl
@[simp] theorem State.setCtx_same (c : Nat) (x : Ctx) : (s.setCtx c x).ctx c = x := SMap.get_put_same _ _ _ _
theorem State.setCtx_other (c : Nat) (x : Ctx) {j : Nat} (h : j ≠ c) : (s.setCtx c x).ctx j = s.ctx j := SMap.get_put_other _ _ _ h

/-! ### onCtx -/

@[simp] theorem State.onCtx_pending (c : Nat) (f : Ctx → Ctx) : (s.onCtx c f).pending = s.pending := rfl
@[simp] theorem State.onCtx_outbox (c : Nat) (f : Ctx → Ctx) : (s.onCtx c f).outbox = s.outbox := rfl
@[simp] theorem State.onCtx_freeCtr (c : Nat) (f : Ctx → Ctx) : (s.onCtx c f).freeCtr = s.freeCtr := rfl
@[simp] theorem State.onCtx_spindle (c : Nat) (f : Ctx → Ctx) : (s.onCtx c f).spindle = s.spindle := rfl
@[simp] theorem State.onCtx_regs (c : Nat) (f : Ctx → Ctx) : (s.onCtx c f).regs = s.regs := rfl
@[simp] theorem State.onCtx_devMem (c : Nat) (f : Ctx → Ctx) : (s.onCtx c f).devMem = s.devMem := rfl
@[simp] theorem State.onCtx_ueMarks (c : Nat) (f : Ctx → Ctx) : (s.onCtx c f).ueMarks = s.ueMarks := rfl
@[simp] theorem State.onCtx_chans (c : Nat) (f : Ctx → Ctx) : (s.onCtx c f).chans = s.chans := rfl
@[simp] theorem State.onCtx_stretchAt (c : Nat) (f : Ctx → Ctx) : (s.onCtx c f).stretchAt = s.stretchAt := rfl
@[simp] theorem State.onCtx_buckets (c : Nat) (f : Ctx → Ctx) : (s.onCtx c f).buckets = s.buckets := rfl
@[simp] theorem State.onCtx_waiting (c : Nat) (f : Ctx → Ctx) : (s.onCtx c f).waiting = s.waiting := rfl
@[simp] theorem State.onCtx_parts (c : Nat) (f : Ctx → Ctx) : (s.onCtx c f).parts = s.parts := rfl
@[simp] theorem State.onCtx_tiles (c : Nat) (f : Ctx → Ctx) : (s.onCtx c f).tiles = s.tiles := rfl
@[simp] theorem State.onCtx_groups (c : Nat) (f : Ctx → Ctx) : (s.onCtx c f).groups = s.groups := rfl
@[simp] theorem State.onCtx_engines (c : Nat) (f : Ctx → Ctx) : (s.onCtx c f).engines = s.engines := rfl
@[simp] theorem State.onCtx_atsReqs (c : Nat) (f : Ctx → Ctx) : (s.onCtx c f).atsReqs = s.atsReqs := rfl
@[simp] theorem State.onCtx_hostReqs (c : Nat) (f : Ctx → Ctx) : (s.onCtx c f).hostReqs = s.hostReqs := rfl
@[simp] theorem State.onCtx_nextReq (c : Nat) (f : Ctx → Ctx) : (s.onCtx c f).nextReq = s.nextReq := rfl
@[simp] theorem State.onCtx_pft (c : Nat) (f : Ctx → Ctx) : (s.onCtx c f).pft = s.pft := rfl
@[simp] theorem State.onCtx_pftQueue (c : Nat) (f : Ctx → Ctx) : (s.onCtx c f).pftQueue = s.pftQueue := rfl
@[simp] theorem State.onCtx_pftSend (c : Nat) (f : Ctx → Ctx) : (s.onCtx c f).pftSend = s.pftSend := rfl
@[simp] theorem State.onCtx_pftAt (c : Nat) (f : Ctx → Ctx) : (s.onCtx c f).pftAt = s.pftAt := rfl
@[simp] theorem State.onCtx_invs (c : Nat) (f : Ctx → Ctx) : (s.onCtx c f).invs = s.invs := rfl
@[simp] theorem State.onCtx_links (c : Nat) (f : Ctx → Ctx) : (s.onCtx c f).links = s.links := rfl
@[simp] theorem State.onCtx_netBufs (c : Nat) (f : Ctx → Ctx) : (s.onCtx c f).netBufs = s.netBufs := rfl
@[simp] theorem State.onCtx_tags (c : Nat) (f : Ctx → Ctx) : (s.onCtx c f).tags = s.tags := rfl
@[simp] theorem State.onCtx_owed (c : Nat) (f : Ctx → Ctx) : (s.onCtx c f).owed = s.owed := rfl
@[simp] theorem State.onCtx_ctlOut (c : Nat) (f : Ctx → Ctx) : (s.onCtx c f).ctlOut = s.ctlOut := rfl
@[simp] theorem State.onCtx_whFlits (c : Nat) (f : Ctx → Ctx) : (s.onCtx c f).whFlits = s.whFlits := rfl
@[simp] theorem State.onCtx_pools (c : Nat) (f : Ctx → Ctx) : (s.onCtx c f).pools = s.pools := rfl
@[simp] theorem State.onCtx_mods (c : Nat) (f : Ctx → Ctx) : (s.onCtx c f).mods = s.mods := rfl
@[simp] theorem State.onCtx_bdls (c : Nat) (f : Ctx → Ctx) : (s.onCtx c f).bdls = s.bdls := rfl
@[simp] theorem State.onCtx_sites (c : Nat) (f : Ctx → Ctx) : (s.onCtx c f).sites = s.sites := rfl
@[simp] theorem State.onCtx_hcfg (c : Nat) (f : Ctx → Ctx) : (s.onCtx c f).hcfg = s.hcfg := rfl
@[simp] theorem State.onCtx_streams (c : Nat) (f : Ctx → Ctx) : (s.onCtx c f).streams = s.streams := rfl
@[simp] theorem State.onCtx_doe (c : Nat) (f : Ctx → Ctx) : (s.onCtx c f).doe = s.doe := rfl
@[simp] theorem State.onCtx_spdm (c : Nat) (f : Ctx → Ctx) : (s.onCtx c f).spdm = s.spdm := rfl
@[simp] theorem State.onCtx_sessions (c : Nat) (f : Ctx → Ctx) : (s.onCtx c f).sessions = s.sessions := rfl
@[simp] theorem State.onCtx_ports (c : Nat) (f : Ctx → Ctx) : (s.onCtx c f).ports = s.ports := rfl
@[simp] theorem State.onCtx_clOps (c : Nat) (f : Ctx → Ctx) : (s.onCtx c f).clOps = s.clOps := rfl
@[simp] theorem State.onCtx_colls (c : Nat) (f : Ctx → Ctx) : (s.onCtx c f).colls = s.colls := rfl
@[simp] theorem State.onCtx_readies (c : Nat) (f : Ctx → Ctx) : (s.onCtx c f).readies = s.readies := rfl
@[simp] theorem State.onCtx_aborts (c : Nat) (f : Ctx → Ctx) : (s.onCtx c f).aborts = s.aborts := rfl
@[simp] theorem State.onCtx_held (c : Nat) (f : Ctx → Ctx) : (s.onCtx c f).held = s.held := rfl
@[simp] theorem State.onCtx_otp (c : Nat) (f : Ctx → Ctx) : (s.onCtx c f).otp = s.otp := rfl
@[simp] theorem State.onCtx_hw (c : Nat) (f : Ctx → Ctx) : (s.onCtx c f).hw = s.hw := rfl
@[simp] theorem State.onCtx_mbx (c : Nat) (f : Ctx → Ctx) : (s.onCtx c f).mbx = s.mbx := rfl
@[simp] theorem State.onCtx_flash (c : Nat) (f : Ctx → Ctx) : (s.onCtx c f).flash = s.flash := rfl
@[simp] theorem State.onCtx_sset0 (c : Nat) (f : Ctx → Ctx) : (s.onCtx c f).sset0 = s.sset0 := rfl
@[simp] theorem State.onCtx_sset1 (c : Nat) (f : Ctx → Ctx) : (s.onCtx c f).sset1 = s.sset1 := rfl
@[simp] theorem State.onCtx_saved (c : Nat) (f : Ctx → Ctx) : (s.onCtx c f).saved = s.saved := rfl
@[simp] theorem State.onCtx_ssetDirty (c : Nat) (f : Ctx → Ctx) : (s.onCtx c f).ssetDirty = s.ssetDirty := rfl
@[simp] theorem State.onCtx_image (c : Nat) (f : Ctx → Ctx) : (s.onCtx c f).image = s.image := rfl
@[simp] theorem State.onCtx_bb (c : Nat) (f : Ctx → Ctx) : (s.onCtx c f).bb = s.bb := rfl
@[simp] theorem State.onCtx_tls (c : Nat) (f : Ctx → Ctx) : (s.onCtx c f).tls = s.tls := rfl
@[simp] theorem State.onCtx_power (c : Nat) (f : Ctx → Ctx) : (s.onCtx c f).power = s.power := rfl
@[simp] theorem State.onCtx_pins (c : Nat) (f : Ctx → Ctx) : (s.onCtx c f).pins = s.pins := rfl
@[simp] theorem State.onCtx_boot (c : Nat) (f : Ctx → Ctx) : (s.onCtx c f).boot = s.boot := rfl
@[simp] theorem State.onCtx_at_reg (c : Nat) (f : Ctx → Ctx) (j : Nat) : (s.onCtx c f).reg j = s.reg j := rfl
@[simp] theorem State.onCtx_at_rd (c : Nat) (f : Ctx → Ctx) (g : Fld) : (s.onCtx c f).rd g = s.rd g := rfl
@[simp] theorem State.onCtx_at_on (c : Nat) (f : Ctx → Ctx) (g : Fld) : (s.onCtx c f).on g = s.on g := rfl
@[simp] theorem State.onCtx_at_chan (c : Nat) (f : Ctx → Ctx) (j : Nat) : (s.onCtx c f).chan j = s.chan j := rfl
@[simp] theorem State.onCtx_at_part (c : Nat) (f : Ctx → Ctx) (j : Nat) : (s.onCtx c f).part j = s.part j := rfl
@[simp] theorem State.onCtx_at_tile (c : Nat) (f : Ctx → Ctx) (j : Nat) : (s.onCtx c f).tile j = s.tile j := rfl
@[simp] theorem State.onCtx_at_group (c : Nat) (f : Ctx → Ctx) (j : Nat) : (s.onCtx c f).group j = s.group j := rfl
@[simp] theorem State.onCtx_at_engine (c : Nat) (f : Ctx → Ctx) (j : Nat) : (s.onCtx c f).engine j = s.engine j := rfl
@[simp] theorem State.onCtx_at_pool (c : Nat) (f : Ctx → Ctx) (j : Nat) : (s.onCtx c f).pool j = s.pool j := rfl
@[simp] theorem State.onCtx_at_slot (c : Nat) (f : Ctx → Ctx) (p j : Nat) : (s.onCtx c f).slot p j = s.slot p j := rfl
@[simp] theorem State.onCtx_at_mod (c : Nat) (f : Ctx → Ctx) (j : Nat) : (s.onCtx c f).mod j = s.mod j := rfl
@[simp] theorem State.onCtx_at_bdl (c : Nat) (f : Ctx → Ctx) (j : Nat) : (s.onCtx c f).bdl j = s.bdl j := rfl
@[simp] theorem State.onCtx_at_site (c : Nat) (f : Ctx → Ctx) (j : Nat) : (s.onCtx c f).site j = s.site j := rfl
@[simp] theorem State.onCtx_at_cfg (c : Nat) (f : Ctx → Ctx) (j : Nat) : (s.onCtx c f).cfg j = s.cfg j := rfl
@[simp] theorem State.onCtx_at_stream (c : Nat) (f : Ctx → Ctx) (j : Nat) : (s.onCtx c f).stream j = s.stream j := rfl
@[simp] theorem State.onCtx_at_port (c : Nat) (f : Ctx → Ctx) (j : Nat) : (s.onCtx c f).port j = s.port j := rfl
@[simp] theorem State.onCtx_at_now (c : Nat) (f : Ctx → Ctx) : (s.onCtx c f).now = s.now := rfl
@[simp] theorem State.onCtx_at_lc (c : Nat) (f : Ctx → Ctx) : (s.onCtx c f).lc = s.lc := rfl
@[simp] theorem State.onCtx_at_linkUp (c : Nat) (f : Ctx → Ctx) : (s.onCtx c f).linkUp = s.linkUp := rfl
@[simp] theorem State.onCtx_at_fnEnabled (c : Nat) (f : Ctx → Ctx) (j : Nat) : (s.onCtx c f).fnEnabled j = s.fnEnabled j := rfl
@[simp] theorem State.onCtx_at_tracing (c : Nat) (f : Ctx → Ctx) : (s.onCtx c f).tracing = s.tracing := rfl
@[simp] theorem State.onCtx_at_free (c : Nat) (f : Ctx → Ctx) : (s.onCtx c f).free = s.free := rfl
@[simp] theorem State.onCtx_same (c : Nat) (f : Ctx → Ctx) : (s.onCtx c f).ctx c = f (s.ctx c) := SMap.get_put_same _ _ _ _
theorem State.onCtx_other (c : Nat) (f : Ctx → Ctx) {j : Nat} (h : j ≠ c) : (s.onCtx c f).ctx j = s.ctx j := SMap.get_put_other _ _ _ h

/-! ### onChan -/

@[simp] theorem State.onChan_pending (c : Nat) (f : Chan → Chan) : (s.onChan c f).pending = s.pending := rfl
@[simp] theorem State.onChan_outbox (c : Nat) (f : Chan → Chan) : (s.onChan c f).outbox = s.outbox := rfl
@[simp] theorem State.onChan_freeCtr (c : Nat) (f : Chan → Chan) : (s.onChan c f).freeCtr = s.freeCtr := rfl
@[simp] theorem State.onChan_spindle (c : Nat) (f : Chan → Chan) : (s.onChan c f).spindle = s.spindle := rfl
@[simp] theorem State.onChan_regs (c : Nat) (f : Chan → Chan) : (s.onChan c f).regs = s.regs := rfl
@[simp] theorem State.onChan_devMem (c : Nat) (f : Chan → Chan) : (s.onChan c f).devMem = s.devMem := rfl
@[simp] theorem State.onChan_ueMarks (c : Nat) (f : Chan → Chan) : (s.onChan c f).ueMarks = s.ueMarks := rfl
@[simp] theorem State.onChan_stretchAt (c : Nat) (f : Chan → Chan) : (s.onChan c f).stretchAt = s.stretchAt := rfl
@[simp] theorem State.onChan_buckets (c : Nat) (f : Chan → Chan) : (s.onChan c f).buckets = s.buckets := rfl
@[simp] theorem State.onChan_waiting (c : Nat) (f : Chan → Chan) : (s.onChan c f).waiting = s.waiting := rfl
@[simp] theorem State.onChan_ctxs (c : Nat) (f : Chan → Chan) : (s.onChan c f).ctxs = s.ctxs := rfl
@[simp] theorem State.onChan_parts (c : Nat) (f : Chan → Chan) : (s.onChan c f).parts = s.parts := rfl
@[simp] theorem State.onChan_tiles (c : Nat) (f : Chan → Chan) : (s.onChan c f).tiles = s.tiles := rfl
@[simp] theorem State.onChan_groups (c : Nat) (f : Chan → Chan) : (s.onChan c f).groups = s.groups := rfl
@[simp] theorem State.onChan_engines (c : Nat) (f : Chan → Chan) : (s.onChan c f).engines = s.engines := rfl
@[simp] theorem State.onChan_atsReqs (c : Nat) (f : Chan → Chan) : (s.onChan c f).atsReqs = s.atsReqs := rfl
@[simp] theorem State.onChan_hostReqs (c : Nat) (f : Chan → Chan) : (s.onChan c f).hostReqs = s.hostReqs := rfl
@[simp] theorem State.onChan_nextReq (c : Nat) (f : Chan → Chan) : (s.onChan c f).nextReq = s.nextReq := rfl
@[simp] theorem State.onChan_pft (c : Nat) (f : Chan → Chan) : (s.onChan c f).pft = s.pft := rfl
@[simp] theorem State.onChan_pftQueue (c : Nat) (f : Chan → Chan) : (s.onChan c f).pftQueue = s.pftQueue := rfl
@[simp] theorem State.onChan_pftSend (c : Nat) (f : Chan → Chan) : (s.onChan c f).pftSend = s.pftSend := rfl
@[simp] theorem State.onChan_pftAt (c : Nat) (f : Chan → Chan) : (s.onChan c f).pftAt = s.pftAt := rfl
@[simp] theorem State.onChan_invs (c : Nat) (f : Chan → Chan) : (s.onChan c f).invs = s.invs := rfl
@[simp] theorem State.onChan_links (c : Nat) (f : Chan → Chan) : (s.onChan c f).links = s.links := rfl
@[simp] theorem State.onChan_netBufs (c : Nat) (f : Chan → Chan) : (s.onChan c f).netBufs = s.netBufs := rfl
@[simp] theorem State.onChan_tags (c : Nat) (f : Chan → Chan) : (s.onChan c f).tags = s.tags := rfl
@[simp] theorem State.onChan_owed (c : Nat) (f : Chan → Chan) : (s.onChan c f).owed = s.owed := rfl
@[simp] theorem State.onChan_ctlOut (c : Nat) (f : Chan → Chan) : (s.onChan c f).ctlOut = s.ctlOut := rfl
@[simp] theorem State.onChan_whFlits (c : Nat) (f : Chan → Chan) : (s.onChan c f).whFlits = s.whFlits := rfl
@[simp] theorem State.onChan_pools (c : Nat) (f : Chan → Chan) : (s.onChan c f).pools = s.pools := rfl
@[simp] theorem State.onChan_mods (c : Nat) (f : Chan → Chan) : (s.onChan c f).mods = s.mods := rfl
@[simp] theorem State.onChan_bdls (c : Nat) (f : Chan → Chan) : (s.onChan c f).bdls = s.bdls := rfl
@[simp] theorem State.onChan_sites (c : Nat) (f : Chan → Chan) : (s.onChan c f).sites = s.sites := rfl
@[simp] theorem State.onChan_hcfg (c : Nat) (f : Chan → Chan) : (s.onChan c f).hcfg = s.hcfg := rfl
@[simp] theorem State.onChan_streams (c : Nat) (f : Chan → Chan) : (s.onChan c f).streams = s.streams := rfl
@[simp] theorem State.onChan_doe (c : Nat) (f : Chan → Chan) : (s.onChan c f).doe = s.doe := rfl
@[simp] theorem State.onChan_spdm (c : Nat) (f : Chan → Chan) : (s.onChan c f).spdm = s.spdm := rfl
@[simp] theorem State.onChan_sessions (c : Nat) (f : Chan → Chan) : (s.onChan c f).sessions = s.sessions := rfl
@[simp] theorem State.onChan_ports (c : Nat) (f : Chan → Chan) : (s.onChan c f).ports = s.ports := rfl
@[simp] theorem State.onChan_clOps (c : Nat) (f : Chan → Chan) : (s.onChan c f).clOps = s.clOps := rfl
@[simp] theorem State.onChan_colls (c : Nat) (f : Chan → Chan) : (s.onChan c f).colls = s.colls := rfl
@[simp] theorem State.onChan_readies (c : Nat) (f : Chan → Chan) : (s.onChan c f).readies = s.readies := rfl
@[simp] theorem State.onChan_aborts (c : Nat) (f : Chan → Chan) : (s.onChan c f).aborts = s.aborts := rfl
@[simp] theorem State.onChan_held (c : Nat) (f : Chan → Chan) : (s.onChan c f).held = s.held := rfl
@[simp] theorem State.onChan_otp (c : Nat) (f : Chan → Chan) : (s.onChan c f).otp = s.otp := rfl
@[simp] theorem State.onChan_hw (c : Nat) (f : Chan → Chan) : (s.onChan c f).hw = s.hw := rfl
@[simp] theorem State.onChan_mbx (c : Nat) (f : Chan → Chan) : (s.onChan c f).mbx = s.mbx := rfl
@[simp] theorem State.onChan_flash (c : Nat) (f : Chan → Chan) : (s.onChan c f).flash = s.flash := rfl
@[simp] theorem State.onChan_sset0 (c : Nat) (f : Chan → Chan) : (s.onChan c f).sset0 = s.sset0 := rfl
@[simp] theorem State.onChan_sset1 (c : Nat) (f : Chan → Chan) : (s.onChan c f).sset1 = s.sset1 := rfl
@[simp] theorem State.onChan_saved (c : Nat) (f : Chan → Chan) : (s.onChan c f).saved = s.saved := rfl
@[simp] theorem State.onChan_ssetDirty (c : Nat) (f : Chan → Chan) : (s.onChan c f).ssetDirty = s.ssetDirty := rfl
@[simp] theorem State.onChan_image (c : Nat) (f : Chan → Chan) : (s.onChan c f).image = s.image := rfl
@[simp] theorem State.onChan_bb (c : Nat) (f : Chan → Chan) : (s.onChan c f).bb = s.bb := rfl
@[simp] theorem State.onChan_tls (c : Nat) (f : Chan → Chan) : (s.onChan c f).tls = s.tls := rfl
@[simp] theorem State.onChan_power (c : Nat) (f : Chan → Chan) : (s.onChan c f).power = s.power := rfl
@[simp] theorem State.onChan_pins (c : Nat) (f : Chan → Chan) : (s.onChan c f).pins = s.pins := rfl
@[simp] theorem State.onChan_boot (c : Nat) (f : Chan → Chan) : (s.onChan c f).boot = s.boot := rfl
@[simp] theorem State.onChan_at_reg (c : Nat) (f : Chan → Chan) (j : Nat) : (s.onChan c f).reg j = s.reg j := rfl
@[simp] theorem State.onChan_at_rd (c : Nat) (f : Chan → Chan) (g : Fld) : (s.onChan c f).rd g = s.rd g := rfl
@[simp] theorem State.onChan_at_on (c : Nat) (f : Chan → Chan) (g : Fld) : (s.onChan c f).on g = s.on g := rfl
@[simp] theorem State.onChan_at_ctx (c : Nat) (f : Chan → Chan) (j : Nat) : (s.onChan c f).ctx j = s.ctx j := rfl
@[simp] theorem State.onChan_at_part (c : Nat) (f : Chan → Chan) (j : Nat) : (s.onChan c f).part j = s.part j := rfl
@[simp] theorem State.onChan_at_tile (c : Nat) (f : Chan → Chan) (j : Nat) : (s.onChan c f).tile j = s.tile j := rfl
@[simp] theorem State.onChan_at_group (c : Nat) (f : Chan → Chan) (j : Nat) : (s.onChan c f).group j = s.group j := rfl
@[simp] theorem State.onChan_at_engine (c : Nat) (f : Chan → Chan) (j : Nat) : (s.onChan c f).engine j = s.engine j := rfl
@[simp] theorem State.onChan_at_pool (c : Nat) (f : Chan → Chan) (j : Nat) : (s.onChan c f).pool j = s.pool j := rfl
@[simp] theorem State.onChan_at_slot (c : Nat) (f : Chan → Chan) (p j : Nat) : (s.onChan c f).slot p j = s.slot p j := rfl
@[simp] theorem State.onChan_at_mod (c : Nat) (f : Chan → Chan) (j : Nat) : (s.onChan c f).mod j = s.mod j := rfl
@[simp] theorem State.onChan_at_bdl (c : Nat) (f : Chan → Chan) (j : Nat) : (s.onChan c f).bdl j = s.bdl j := rfl
@[simp] theorem State.onChan_at_site (c : Nat) (f : Chan → Chan) (j : Nat) : (s.onChan c f).site j = s.site j := rfl
@[simp] theorem State.onChan_at_cfg (c : Nat) (f : Chan → Chan) (j : Nat) : (s.onChan c f).cfg j = s.cfg j := rfl
@[simp] theorem State.onChan_at_stream (c : Nat) (f : Chan → Chan) (j : Nat) : (s.onChan c f).stream j = s.stream j := rfl
@[simp] theorem State.onChan_at_port (c : Nat) (f : Chan → Chan) (j : Nat) : (s.onChan c f).port j = s.port j := rfl
@[simp] theorem State.onChan_at_now (c : Nat) (f : Chan → Chan) : (s.onChan c f).now = s.now := rfl
@[simp] theorem State.onChan_at_lc (c : Nat) (f : Chan → Chan) : (s.onChan c f).lc = s.lc := rfl
@[simp] theorem State.onChan_at_linkUp (c : Nat) (f : Chan → Chan) : (s.onChan c f).linkUp = s.linkUp := rfl
@[simp] theorem State.onChan_at_fnEnabled (c : Nat) (f : Chan → Chan) (j : Nat) : (s.onChan c f).fnEnabled j = s.fnEnabled j := rfl
@[simp] theorem State.onChan_at_tracing (c : Nat) (f : Chan → Chan) : (s.onChan c f).tracing = s.tracing := rfl
@[simp] theorem State.onChan_at_free (c : Nat) (f : Chan → Chan) : (s.onChan c f).free = s.free := rfl
@[simp] theorem State.onChan_same (c : Nat) (f : Chan → Chan) : (s.onChan c f).chan c = f (s.chan c) := SMap.get_put_same _ _ _ _
theorem State.onChan_other (c : Nat) (f : Chan → Chan) {j : Nat} (h : j ≠ c) : (s.onChan c f).chan j = s.chan j := SMap.get_put_other _ _ _ h

/-! ### onPart -/

@[simp] theorem State.onPart_pending (c : Nat) (f : Part → Part) : (s.onPart c f).pending = s.pending := rfl
@[simp] theorem State.onPart_outbox (c : Nat) (f : Part → Part) : (s.onPart c f).outbox = s.outbox := rfl
@[simp] theorem State.onPart_freeCtr (c : Nat) (f : Part → Part) : (s.onPart c f).freeCtr = s.freeCtr := rfl
@[simp] theorem State.onPart_spindle (c : Nat) (f : Part → Part) : (s.onPart c f).spindle = s.spindle := rfl
@[simp] theorem State.onPart_regs (c : Nat) (f : Part → Part) : (s.onPart c f).regs = s.regs := rfl
@[simp] theorem State.onPart_devMem (c : Nat) (f : Part → Part) : (s.onPart c f).devMem = s.devMem := rfl
@[simp] theorem State.onPart_ueMarks (c : Nat) (f : Part → Part) : (s.onPart c f).ueMarks = s.ueMarks := rfl
@[simp] theorem State.onPart_chans (c : Nat) (f : Part → Part) : (s.onPart c f).chans = s.chans := rfl
@[simp] theorem State.onPart_stretchAt (c : Nat) (f : Part → Part) : (s.onPart c f).stretchAt = s.stretchAt := rfl
@[simp] theorem State.onPart_buckets (c : Nat) (f : Part → Part) : (s.onPart c f).buckets = s.buckets := rfl
@[simp] theorem State.onPart_waiting (c : Nat) (f : Part → Part) : (s.onPart c f).waiting = s.waiting := rfl
@[simp] theorem State.onPart_ctxs (c : Nat) (f : Part → Part) : (s.onPart c f).ctxs = s.ctxs := rfl
@[simp] theorem State.onPart_tiles (c : Nat) (f : Part → Part) : (s.onPart c f).tiles = s.tiles := rfl
@[simp] theorem State.onPart_groups (c : Nat) (f : Part → Part) : (s.onPart c f).groups = s.groups := rfl
@[simp] theorem State.onPart_engines (c : Nat) (f : Part → Part) : (s.onPart c f).engines = s.engines := rfl
@[simp] theorem State.onPart_atsReqs (c : Nat) (f : Part → Part) : (s.onPart c f).atsReqs = s.atsReqs := rfl
@[simp] theorem State.onPart_hostReqs (c : Nat) (f : Part → Part) : (s.onPart c f).hostReqs = s.hostReqs := rfl
@[simp] theorem State.onPart_nextReq (c : Nat) (f : Part → Part) : (s.onPart c f).nextReq = s.nextReq := rfl
@[simp] theorem State.onPart_pft (c : Nat) (f : Part → Part) : (s.onPart c f).pft = s.pft := rfl
@[simp] theorem State.onPart_pftQueue (c : Nat) (f : Part → Part) : (s.onPart c f).pftQueue = s.pftQueue := rfl
@[simp] theorem State.onPart_pftSend (c : Nat) (f : Part → Part) : (s.onPart c f).pftSend = s.pftSend := rfl
@[simp] theorem State.onPart_pftAt (c : Nat) (f : Part → Part) : (s.onPart c f).pftAt = s.pftAt := rfl
@[simp] theorem State.onPart_invs (c : Nat) (f : Part → Part) : (s.onPart c f).invs = s.invs := rfl
@[simp] theorem State.onPart_links (c : Nat) (f : Part → Part) : (s.onPart c f).links = s.links := rfl
@[simp] theorem State.onPart_netBufs (c : Nat) (f : Part → Part) : (s.onPart c f).netBufs = s.netBufs := rfl
@[simp] theorem State.onPart_tags (c : Nat) (f : Part → Part) : (s.onPart c f).tags = s.tags := rfl
@[simp] theorem State.onPart_owed (c : Nat) (f : Part → Part) : (s.onPart c f).owed = s.owed := rfl
@[simp] theorem State.onPart_ctlOut (c : Nat) (f : Part → Part) : (s.onPart c f).ctlOut = s.ctlOut := rfl
@[simp] theorem State.onPart_whFlits (c : Nat) (f : Part → Part) : (s.onPart c f).whFlits = s.whFlits := rfl
@[simp] theorem State.onPart_pools (c : Nat) (f : Part → Part) : (s.onPart c f).pools = s.pools := rfl
@[simp] theorem State.onPart_mods (c : Nat) (f : Part → Part) : (s.onPart c f).mods = s.mods := rfl
@[simp] theorem State.onPart_bdls (c : Nat) (f : Part → Part) : (s.onPart c f).bdls = s.bdls := rfl
@[simp] theorem State.onPart_sites (c : Nat) (f : Part → Part) : (s.onPart c f).sites = s.sites := rfl
@[simp] theorem State.onPart_hcfg (c : Nat) (f : Part → Part) : (s.onPart c f).hcfg = s.hcfg := rfl
@[simp] theorem State.onPart_streams (c : Nat) (f : Part → Part) : (s.onPart c f).streams = s.streams := rfl
@[simp] theorem State.onPart_doe (c : Nat) (f : Part → Part) : (s.onPart c f).doe = s.doe := rfl
@[simp] theorem State.onPart_spdm (c : Nat) (f : Part → Part) : (s.onPart c f).spdm = s.spdm := rfl
@[simp] theorem State.onPart_sessions (c : Nat) (f : Part → Part) : (s.onPart c f).sessions = s.sessions := rfl
@[simp] theorem State.onPart_ports (c : Nat) (f : Part → Part) : (s.onPart c f).ports = s.ports := rfl
@[simp] theorem State.onPart_clOps (c : Nat) (f : Part → Part) : (s.onPart c f).clOps = s.clOps := rfl
@[simp] theorem State.onPart_colls (c : Nat) (f : Part → Part) : (s.onPart c f).colls = s.colls := rfl
@[simp] theorem State.onPart_readies (c : Nat) (f : Part → Part) : (s.onPart c f).readies = s.readies := rfl
@[simp] theorem State.onPart_aborts (c : Nat) (f : Part → Part) : (s.onPart c f).aborts = s.aborts := rfl
@[simp] theorem State.onPart_held (c : Nat) (f : Part → Part) : (s.onPart c f).held = s.held := rfl
@[simp] theorem State.onPart_otp (c : Nat) (f : Part → Part) : (s.onPart c f).otp = s.otp := rfl
@[simp] theorem State.onPart_hw (c : Nat) (f : Part → Part) : (s.onPart c f).hw = s.hw := rfl
@[simp] theorem State.onPart_mbx (c : Nat) (f : Part → Part) : (s.onPart c f).mbx = s.mbx := rfl
@[simp] theorem State.onPart_flash (c : Nat) (f : Part → Part) : (s.onPart c f).flash = s.flash := rfl
@[simp] theorem State.onPart_sset0 (c : Nat) (f : Part → Part) : (s.onPart c f).sset0 = s.sset0 := rfl
@[simp] theorem State.onPart_sset1 (c : Nat) (f : Part → Part) : (s.onPart c f).sset1 = s.sset1 := rfl
@[simp] theorem State.onPart_saved (c : Nat) (f : Part → Part) : (s.onPart c f).saved = s.saved := rfl
@[simp] theorem State.onPart_ssetDirty (c : Nat) (f : Part → Part) : (s.onPart c f).ssetDirty = s.ssetDirty := rfl
@[simp] theorem State.onPart_image (c : Nat) (f : Part → Part) : (s.onPart c f).image = s.image := rfl
@[simp] theorem State.onPart_bb (c : Nat) (f : Part → Part) : (s.onPart c f).bb = s.bb := rfl
@[simp] theorem State.onPart_tls (c : Nat) (f : Part → Part) : (s.onPart c f).tls = s.tls := rfl
@[simp] theorem State.onPart_power (c : Nat) (f : Part → Part) : (s.onPart c f).power = s.power := rfl
@[simp] theorem State.onPart_pins (c : Nat) (f : Part → Part) : (s.onPart c f).pins = s.pins := rfl
@[simp] theorem State.onPart_boot (c : Nat) (f : Part → Part) : (s.onPart c f).boot = s.boot := rfl
@[simp] theorem State.onPart_at_reg (c : Nat) (f : Part → Part) (j : Nat) : (s.onPart c f).reg j = s.reg j := rfl
@[simp] theorem State.onPart_at_rd (c : Nat) (f : Part → Part) (g : Fld) : (s.onPart c f).rd g = s.rd g := rfl
@[simp] theorem State.onPart_at_on (c : Nat) (f : Part → Part) (g : Fld) : (s.onPart c f).on g = s.on g := rfl
@[simp] theorem State.onPart_at_ctx (c : Nat) (f : Part → Part) (j : Nat) : (s.onPart c f).ctx j = s.ctx j := rfl
@[simp] theorem State.onPart_at_chan (c : Nat) (f : Part → Part) (j : Nat) : (s.onPart c f).chan j = s.chan j := rfl
@[simp] theorem State.onPart_at_tile (c : Nat) (f : Part → Part) (j : Nat) : (s.onPart c f).tile j = s.tile j := rfl
@[simp] theorem State.onPart_at_group (c : Nat) (f : Part → Part) (j : Nat) : (s.onPart c f).group j = s.group j := rfl
@[simp] theorem State.onPart_at_engine (c : Nat) (f : Part → Part) (j : Nat) : (s.onPart c f).engine j = s.engine j := rfl
@[simp] theorem State.onPart_at_pool (c : Nat) (f : Part → Part) (j : Nat) : (s.onPart c f).pool j = s.pool j := rfl
@[simp] theorem State.onPart_at_slot (c : Nat) (f : Part → Part) (p j : Nat) : (s.onPart c f).slot p j = s.slot p j := rfl
@[simp] theorem State.onPart_at_mod (c : Nat) (f : Part → Part) (j : Nat) : (s.onPart c f).mod j = s.mod j := rfl
@[simp] theorem State.onPart_at_bdl (c : Nat) (f : Part → Part) (j : Nat) : (s.onPart c f).bdl j = s.bdl j := rfl
@[simp] theorem State.onPart_at_site (c : Nat) (f : Part → Part) (j : Nat) : (s.onPart c f).site j = s.site j := rfl
@[simp] theorem State.onPart_at_cfg (c : Nat) (f : Part → Part) (j : Nat) : (s.onPart c f).cfg j = s.cfg j := rfl
@[simp] theorem State.onPart_at_stream (c : Nat) (f : Part → Part) (j : Nat) : (s.onPart c f).stream j = s.stream j := rfl
@[simp] theorem State.onPart_at_port (c : Nat) (f : Part → Part) (j : Nat) : (s.onPart c f).port j = s.port j := rfl
@[simp] theorem State.onPart_at_now (c : Nat) (f : Part → Part) : (s.onPart c f).now = s.now := rfl
@[simp] theorem State.onPart_at_lc (c : Nat) (f : Part → Part) : (s.onPart c f).lc = s.lc := rfl
@[simp] theorem State.onPart_at_linkUp (c : Nat) (f : Part → Part) : (s.onPart c f).linkUp = s.linkUp := rfl
@[simp] theorem State.onPart_at_fnEnabled (c : Nat) (f : Part → Part) (j : Nat) : (s.onPart c f).fnEnabled j = s.fnEnabled j := rfl
@[simp] theorem State.onPart_at_tracing (c : Nat) (f : Part → Part) : (s.onPart c f).tracing = s.tracing := rfl
@[simp] theorem State.onPart_at_free (c : Nat) (f : Part → Part) : (s.onPart c f).free = s.free := rfl
@[simp] theorem State.onPart_same (c : Nat) (f : Part → Part) : (s.onPart c f).part c = f (s.part c) := SMap.get_put_same _ _ _ _
theorem State.onPart_other (c : Nat) (f : Part → Part) {j : Nat} (h : j ≠ c) : (s.onPart c f).part j = s.part j := SMap.get_put_other _ _ _ h

/-! ### onTile -/

@[simp] theorem State.onTile_pending (c : Nat) (f : Tile → Tile) : (s.onTile c f).pending = s.pending := rfl
@[simp] theorem State.onTile_outbox (c : Nat) (f : Tile → Tile) : (s.onTile c f).outbox = s.outbox := rfl
@[simp] theorem State.onTile_freeCtr (c : Nat) (f : Tile → Tile) : (s.onTile c f).freeCtr = s.freeCtr := rfl
@[simp] theorem State.onTile_spindle (c : Nat) (f : Tile → Tile) : (s.onTile c f).spindle = s.spindle := rfl
@[simp] theorem State.onTile_regs (c : Nat) (f : Tile → Tile) : (s.onTile c f).regs = s.regs := rfl
@[simp] theorem State.onTile_devMem (c : Nat) (f : Tile → Tile) : (s.onTile c f).devMem = s.devMem := rfl
@[simp] theorem State.onTile_ueMarks (c : Nat) (f : Tile → Tile) : (s.onTile c f).ueMarks = s.ueMarks := rfl
@[simp] theorem State.onTile_chans (c : Nat) (f : Tile → Tile) : (s.onTile c f).chans = s.chans := rfl
@[simp] theorem State.onTile_stretchAt (c : Nat) (f : Tile → Tile) : (s.onTile c f).stretchAt = s.stretchAt := rfl
@[simp] theorem State.onTile_buckets (c : Nat) (f : Tile → Tile) : (s.onTile c f).buckets = s.buckets := rfl
@[simp] theorem State.onTile_waiting (c : Nat) (f : Tile → Tile) : (s.onTile c f).waiting = s.waiting := rfl
@[simp] theorem State.onTile_ctxs (c : Nat) (f : Tile → Tile) : (s.onTile c f).ctxs = s.ctxs := rfl
@[simp] theorem State.onTile_parts (c : Nat) (f : Tile → Tile) : (s.onTile c f).parts = s.parts := rfl
@[simp] theorem State.onTile_groups (c : Nat) (f : Tile → Tile) : (s.onTile c f).groups = s.groups := rfl
@[simp] theorem State.onTile_engines (c : Nat) (f : Tile → Tile) : (s.onTile c f).engines = s.engines := rfl
@[simp] theorem State.onTile_atsReqs (c : Nat) (f : Tile → Tile) : (s.onTile c f).atsReqs = s.atsReqs := rfl
@[simp] theorem State.onTile_hostReqs (c : Nat) (f : Tile → Tile) : (s.onTile c f).hostReqs = s.hostReqs := rfl
@[simp] theorem State.onTile_nextReq (c : Nat) (f : Tile → Tile) : (s.onTile c f).nextReq = s.nextReq := rfl
@[simp] theorem State.onTile_pft (c : Nat) (f : Tile → Tile) : (s.onTile c f).pft = s.pft := rfl
@[simp] theorem State.onTile_pftQueue (c : Nat) (f : Tile → Tile) : (s.onTile c f).pftQueue = s.pftQueue := rfl
@[simp] theorem State.onTile_pftSend (c : Nat) (f : Tile → Tile) : (s.onTile c f).pftSend = s.pftSend := rfl
@[simp] theorem State.onTile_pftAt (c : Nat) (f : Tile → Tile) : (s.onTile c f).pftAt = s.pftAt := rfl
@[simp] theorem State.onTile_invs (c : Nat) (f : Tile → Tile) : (s.onTile c f).invs = s.invs := rfl
@[simp] theorem State.onTile_links (c : Nat) (f : Tile → Tile) : (s.onTile c f).links = s.links := rfl
@[simp] theorem State.onTile_netBufs (c : Nat) (f : Tile → Tile) : (s.onTile c f).netBufs = s.netBufs := rfl
@[simp] theorem State.onTile_tags (c : Nat) (f : Tile → Tile) : (s.onTile c f).tags = s.tags := rfl
@[simp] theorem State.onTile_owed (c : Nat) (f : Tile → Tile) : (s.onTile c f).owed = s.owed := rfl
@[simp] theorem State.onTile_ctlOut (c : Nat) (f : Tile → Tile) : (s.onTile c f).ctlOut = s.ctlOut := rfl
@[simp] theorem State.onTile_whFlits (c : Nat) (f : Tile → Tile) : (s.onTile c f).whFlits = s.whFlits := rfl
@[simp] theorem State.onTile_pools (c : Nat) (f : Tile → Tile) : (s.onTile c f).pools = s.pools := rfl
@[simp] theorem State.onTile_mods (c : Nat) (f : Tile → Tile) : (s.onTile c f).mods = s.mods := rfl
@[simp] theorem State.onTile_bdls (c : Nat) (f : Tile → Tile) : (s.onTile c f).bdls = s.bdls := rfl
@[simp] theorem State.onTile_sites (c : Nat) (f : Tile → Tile) : (s.onTile c f).sites = s.sites := rfl
@[simp] theorem State.onTile_hcfg (c : Nat) (f : Tile → Tile) : (s.onTile c f).hcfg = s.hcfg := rfl
@[simp] theorem State.onTile_streams (c : Nat) (f : Tile → Tile) : (s.onTile c f).streams = s.streams := rfl
@[simp] theorem State.onTile_doe (c : Nat) (f : Tile → Tile) : (s.onTile c f).doe = s.doe := rfl
@[simp] theorem State.onTile_spdm (c : Nat) (f : Tile → Tile) : (s.onTile c f).spdm = s.spdm := rfl
@[simp] theorem State.onTile_sessions (c : Nat) (f : Tile → Tile) : (s.onTile c f).sessions = s.sessions := rfl
@[simp] theorem State.onTile_ports (c : Nat) (f : Tile → Tile) : (s.onTile c f).ports = s.ports := rfl
@[simp] theorem State.onTile_clOps (c : Nat) (f : Tile → Tile) : (s.onTile c f).clOps = s.clOps := rfl
@[simp] theorem State.onTile_colls (c : Nat) (f : Tile → Tile) : (s.onTile c f).colls = s.colls := rfl
@[simp] theorem State.onTile_readies (c : Nat) (f : Tile → Tile) : (s.onTile c f).readies = s.readies := rfl
@[simp] theorem State.onTile_aborts (c : Nat) (f : Tile → Tile) : (s.onTile c f).aborts = s.aborts := rfl
@[simp] theorem State.onTile_held (c : Nat) (f : Tile → Tile) : (s.onTile c f).held = s.held := rfl
@[simp] theorem State.onTile_otp (c : Nat) (f : Tile → Tile) : (s.onTile c f).otp = s.otp := rfl
@[simp] theorem State.onTile_hw (c : Nat) (f : Tile → Tile) : (s.onTile c f).hw = s.hw := rfl
@[simp] theorem State.onTile_mbx (c : Nat) (f : Tile → Tile) : (s.onTile c f).mbx = s.mbx := rfl
@[simp] theorem State.onTile_flash (c : Nat) (f : Tile → Tile) : (s.onTile c f).flash = s.flash := rfl
@[simp] theorem State.onTile_sset0 (c : Nat) (f : Tile → Tile) : (s.onTile c f).sset0 = s.sset0 := rfl
@[simp] theorem State.onTile_sset1 (c : Nat) (f : Tile → Tile) : (s.onTile c f).sset1 = s.sset1 := rfl
@[simp] theorem State.onTile_saved (c : Nat) (f : Tile → Tile) : (s.onTile c f).saved = s.saved := rfl
@[simp] theorem State.onTile_ssetDirty (c : Nat) (f : Tile → Tile) : (s.onTile c f).ssetDirty = s.ssetDirty := rfl
@[simp] theorem State.onTile_image (c : Nat) (f : Tile → Tile) : (s.onTile c f).image = s.image := rfl
@[simp] theorem State.onTile_bb (c : Nat) (f : Tile → Tile) : (s.onTile c f).bb = s.bb := rfl
@[simp] theorem State.onTile_tls (c : Nat) (f : Tile → Tile) : (s.onTile c f).tls = s.tls := rfl
@[simp] theorem State.onTile_power (c : Nat) (f : Tile → Tile) : (s.onTile c f).power = s.power := rfl
@[simp] theorem State.onTile_pins (c : Nat) (f : Tile → Tile) : (s.onTile c f).pins = s.pins := rfl
@[simp] theorem State.onTile_boot (c : Nat) (f : Tile → Tile) : (s.onTile c f).boot = s.boot := rfl
@[simp] theorem State.onTile_at_reg (c : Nat) (f : Tile → Tile) (j : Nat) : (s.onTile c f).reg j = s.reg j := rfl
@[simp] theorem State.onTile_at_rd (c : Nat) (f : Tile → Tile) (g : Fld) : (s.onTile c f).rd g = s.rd g := rfl
@[simp] theorem State.onTile_at_on (c : Nat) (f : Tile → Tile) (g : Fld) : (s.onTile c f).on g = s.on g := rfl
@[simp] theorem State.onTile_at_ctx (c : Nat) (f : Tile → Tile) (j : Nat) : (s.onTile c f).ctx j = s.ctx j := rfl
@[simp] theorem State.onTile_at_chan (c : Nat) (f : Tile → Tile) (j : Nat) : (s.onTile c f).chan j = s.chan j := rfl
@[simp] theorem State.onTile_at_part (c : Nat) (f : Tile → Tile) (j : Nat) : (s.onTile c f).part j = s.part j := rfl
@[simp] theorem State.onTile_at_group (c : Nat) (f : Tile → Tile) (j : Nat) : (s.onTile c f).group j = s.group j := rfl
@[simp] theorem State.onTile_at_engine (c : Nat) (f : Tile → Tile) (j : Nat) : (s.onTile c f).engine j = s.engine j := rfl
@[simp] theorem State.onTile_at_pool (c : Nat) (f : Tile → Tile) (j : Nat) : (s.onTile c f).pool j = s.pool j := rfl
@[simp] theorem State.onTile_at_slot (c : Nat) (f : Tile → Tile) (p j : Nat) : (s.onTile c f).slot p j = s.slot p j := rfl
@[simp] theorem State.onTile_at_mod (c : Nat) (f : Tile → Tile) (j : Nat) : (s.onTile c f).mod j = s.mod j := rfl
@[simp] theorem State.onTile_at_bdl (c : Nat) (f : Tile → Tile) (j : Nat) : (s.onTile c f).bdl j = s.bdl j := rfl
@[simp] theorem State.onTile_at_site (c : Nat) (f : Tile → Tile) (j : Nat) : (s.onTile c f).site j = s.site j := rfl
@[simp] theorem State.onTile_at_cfg (c : Nat) (f : Tile → Tile) (j : Nat) : (s.onTile c f).cfg j = s.cfg j := rfl
@[simp] theorem State.onTile_at_stream (c : Nat) (f : Tile → Tile) (j : Nat) : (s.onTile c f).stream j = s.stream j := rfl
@[simp] theorem State.onTile_at_port (c : Nat) (f : Tile → Tile) (j : Nat) : (s.onTile c f).port j = s.port j := rfl
@[simp] theorem State.onTile_at_now (c : Nat) (f : Tile → Tile) : (s.onTile c f).now = s.now := rfl
@[simp] theorem State.onTile_at_lc (c : Nat) (f : Tile → Tile) : (s.onTile c f).lc = s.lc := rfl
@[simp] theorem State.onTile_at_linkUp (c : Nat) (f : Tile → Tile) : (s.onTile c f).linkUp = s.linkUp := rfl
@[simp] theorem State.onTile_at_fnEnabled (c : Nat) (f : Tile → Tile) (j : Nat) : (s.onTile c f).fnEnabled j = s.fnEnabled j := rfl
@[simp] theorem State.onTile_at_tracing (c : Nat) (f : Tile → Tile) : (s.onTile c f).tracing = s.tracing := rfl
@[simp] theorem State.onTile_at_free (c : Nat) (f : Tile → Tile) : (s.onTile c f).free = s.free := rfl
@[simp] theorem State.onTile_same (c : Nat) (f : Tile → Tile) : (s.onTile c f).tile c = f (s.tile c) := SMap.get_put_same _ _ _ _
theorem State.onTile_other (c : Nat) (f : Tile → Tile) {j : Nat} (h : j ≠ c) : (s.onTile c f).tile j = s.tile j := SMap.get_put_other _ _ _ h

/-! ### onGroup -/

@[simp] theorem State.onGroup_pending (c : Nat) (f : Group → Group) : (s.onGroup c f).pending = s.pending := rfl
@[simp] theorem State.onGroup_outbox (c : Nat) (f : Group → Group) : (s.onGroup c f).outbox = s.outbox := rfl
@[simp] theorem State.onGroup_freeCtr (c : Nat) (f : Group → Group) : (s.onGroup c f).freeCtr = s.freeCtr := rfl
@[simp] theorem State.onGroup_spindle (c : Nat) (f : Group → Group) : (s.onGroup c f).spindle = s.spindle := rfl
@[simp] theorem State.onGroup_regs (c : Nat) (f : Group → Group) : (s.onGroup c f).regs = s.regs := rfl
@[simp] theorem State.onGroup_devMem (c : Nat) (f : Group → Group) : (s.onGroup c f).devMem = s.devMem := rfl
@[simp] theorem State.onGroup_ueMarks (c : Nat) (f : Group → Group) : (s.onGroup c f).ueMarks = s.ueMarks := rfl
@[simp] theorem State.onGroup_chans (c : Nat) (f : Group → Group) : (s.onGroup c f).chans = s.chans := rfl
@[simp] theorem State.onGroup_stretchAt (c : Nat) (f : Group → Group) : (s.onGroup c f).stretchAt = s.stretchAt := rfl
@[simp] theorem State.onGroup_buckets (c : Nat) (f : Group → Group) : (s.onGroup c f).buckets = s.buckets := rfl
@[simp] theorem State.onGroup_waiting (c : Nat) (f : Group → Group) : (s.onGroup c f).waiting = s.waiting := rfl
@[simp] theorem State.onGroup_ctxs (c : Nat) (f : Group → Group) : (s.onGroup c f).ctxs = s.ctxs := rfl
@[simp] theorem State.onGroup_parts (c : Nat) (f : Group → Group) : (s.onGroup c f).parts = s.parts := rfl
@[simp] theorem State.onGroup_tiles (c : Nat) (f : Group → Group) : (s.onGroup c f).tiles = s.tiles := rfl
@[simp] theorem State.onGroup_engines (c : Nat) (f : Group → Group) : (s.onGroup c f).engines = s.engines := rfl
@[simp] theorem State.onGroup_atsReqs (c : Nat) (f : Group → Group) : (s.onGroup c f).atsReqs = s.atsReqs := rfl
@[simp] theorem State.onGroup_hostReqs (c : Nat) (f : Group → Group) : (s.onGroup c f).hostReqs = s.hostReqs := rfl
@[simp] theorem State.onGroup_nextReq (c : Nat) (f : Group → Group) : (s.onGroup c f).nextReq = s.nextReq := rfl
@[simp] theorem State.onGroup_pft (c : Nat) (f : Group → Group) : (s.onGroup c f).pft = s.pft := rfl
@[simp] theorem State.onGroup_pftQueue (c : Nat) (f : Group → Group) : (s.onGroup c f).pftQueue = s.pftQueue := rfl
@[simp] theorem State.onGroup_pftSend (c : Nat) (f : Group → Group) : (s.onGroup c f).pftSend = s.pftSend := rfl
@[simp] theorem State.onGroup_pftAt (c : Nat) (f : Group → Group) : (s.onGroup c f).pftAt = s.pftAt := rfl
@[simp] theorem State.onGroup_invs (c : Nat) (f : Group → Group) : (s.onGroup c f).invs = s.invs := rfl
@[simp] theorem State.onGroup_links (c : Nat) (f : Group → Group) : (s.onGroup c f).links = s.links := rfl
@[simp] theorem State.onGroup_netBufs (c : Nat) (f : Group → Group) : (s.onGroup c f).netBufs = s.netBufs := rfl
@[simp] theorem State.onGroup_tags (c : Nat) (f : Group → Group) : (s.onGroup c f).tags = s.tags := rfl
@[simp] theorem State.onGroup_owed (c : Nat) (f : Group → Group) : (s.onGroup c f).owed = s.owed := rfl
@[simp] theorem State.onGroup_ctlOut (c : Nat) (f : Group → Group) : (s.onGroup c f).ctlOut = s.ctlOut := rfl
@[simp] theorem State.onGroup_whFlits (c : Nat) (f : Group → Group) : (s.onGroup c f).whFlits = s.whFlits := rfl
@[simp] theorem State.onGroup_pools (c : Nat) (f : Group → Group) : (s.onGroup c f).pools = s.pools := rfl
@[simp] theorem State.onGroup_mods (c : Nat) (f : Group → Group) : (s.onGroup c f).mods = s.mods := rfl
@[simp] theorem State.onGroup_bdls (c : Nat) (f : Group → Group) : (s.onGroup c f).bdls = s.bdls := rfl
@[simp] theorem State.onGroup_sites (c : Nat) (f : Group → Group) : (s.onGroup c f).sites = s.sites := rfl
@[simp] theorem State.onGroup_hcfg (c : Nat) (f : Group → Group) : (s.onGroup c f).hcfg = s.hcfg := rfl
@[simp] theorem State.onGroup_streams (c : Nat) (f : Group → Group) : (s.onGroup c f).streams = s.streams := rfl
@[simp] theorem State.onGroup_doe (c : Nat) (f : Group → Group) : (s.onGroup c f).doe = s.doe := rfl
@[simp] theorem State.onGroup_spdm (c : Nat) (f : Group → Group) : (s.onGroup c f).spdm = s.spdm := rfl
@[simp] theorem State.onGroup_sessions (c : Nat) (f : Group → Group) : (s.onGroup c f).sessions = s.sessions := rfl
@[simp] theorem State.onGroup_ports (c : Nat) (f : Group → Group) : (s.onGroup c f).ports = s.ports := rfl
@[simp] theorem State.onGroup_clOps (c : Nat) (f : Group → Group) : (s.onGroup c f).clOps = s.clOps := rfl
@[simp] theorem State.onGroup_colls (c : Nat) (f : Group → Group) : (s.onGroup c f).colls = s.colls := rfl
@[simp] theorem State.onGroup_readies (c : Nat) (f : Group → Group) : (s.onGroup c f).readies = s.readies := rfl
@[simp] theorem State.onGroup_aborts (c : Nat) (f : Group → Group) : (s.onGroup c f).aborts = s.aborts := rfl
@[simp] theorem State.onGroup_held (c : Nat) (f : Group → Group) : (s.onGroup c f).held = s.held := rfl
@[simp] theorem State.onGroup_otp (c : Nat) (f : Group → Group) : (s.onGroup c f).otp = s.otp := rfl
@[simp] theorem State.onGroup_hw (c : Nat) (f : Group → Group) : (s.onGroup c f).hw = s.hw := rfl
@[simp] theorem State.onGroup_mbx (c : Nat) (f : Group → Group) : (s.onGroup c f).mbx = s.mbx := rfl
@[simp] theorem State.onGroup_flash (c : Nat) (f : Group → Group) : (s.onGroup c f).flash = s.flash := rfl
@[simp] theorem State.onGroup_sset0 (c : Nat) (f : Group → Group) : (s.onGroup c f).sset0 = s.sset0 := rfl
@[simp] theorem State.onGroup_sset1 (c : Nat) (f : Group → Group) : (s.onGroup c f).sset1 = s.sset1 := rfl
@[simp] theorem State.onGroup_saved (c : Nat) (f : Group → Group) : (s.onGroup c f).saved = s.saved := rfl
@[simp] theorem State.onGroup_ssetDirty (c : Nat) (f : Group → Group) : (s.onGroup c f).ssetDirty = s.ssetDirty := rfl
@[simp] theorem State.onGroup_image (c : Nat) (f : Group → Group) : (s.onGroup c f).image = s.image := rfl
@[simp] theorem State.onGroup_bb (c : Nat) (f : Group → Group) : (s.onGroup c f).bb = s.bb := rfl
@[simp] theorem State.onGroup_tls (c : Nat) (f : Group → Group) : (s.onGroup c f).tls = s.tls := rfl
@[simp] theorem State.onGroup_power (c : Nat) (f : Group → Group) : (s.onGroup c f).power = s.power := rfl
@[simp] theorem State.onGroup_pins (c : Nat) (f : Group → Group) : (s.onGroup c f).pins = s.pins := rfl
@[simp] theorem State.onGroup_boot (c : Nat) (f : Group → Group) : (s.onGroup c f).boot = s.boot := rfl
@[simp] theorem State.onGroup_at_reg (c : Nat) (f : Group → Group) (j : Nat) : (s.onGroup c f).reg j = s.reg j := rfl
@[simp] theorem State.onGroup_at_rd (c : Nat) (f : Group → Group) (g : Fld) : (s.onGroup c f).rd g = s.rd g := rfl
@[simp] theorem State.onGroup_at_on (c : Nat) (f : Group → Group) (g : Fld) : (s.onGroup c f).on g = s.on g := rfl
@[simp] theorem State.onGroup_at_ctx (c : Nat) (f : Group → Group) (j : Nat) : (s.onGroup c f).ctx j = s.ctx j := rfl
@[simp] theorem State.onGroup_at_chan (c : Nat) (f : Group → Group) (j : Nat) : (s.onGroup c f).chan j = s.chan j := rfl
@[simp] theorem State.onGroup_at_part (c : Nat) (f : Group → Group) (j : Nat) : (s.onGroup c f).part j = s.part j := rfl
@[simp] theorem State.onGroup_at_tile (c : Nat) (f : Group → Group) (j : Nat) : (s.onGroup c f).tile j = s.tile j := rfl
@[simp] theorem State.onGroup_at_engine (c : Nat) (f : Group → Group) (j : Nat) : (s.onGroup c f).engine j = s.engine j := rfl
@[simp] theorem State.onGroup_at_pool (c : Nat) (f : Group → Group) (j : Nat) : (s.onGroup c f).pool j = s.pool j := rfl
@[simp] theorem State.onGroup_at_slot (c : Nat) (f : Group → Group) (p j : Nat) : (s.onGroup c f).slot p j = s.slot p j := rfl
@[simp] theorem State.onGroup_at_mod (c : Nat) (f : Group → Group) (j : Nat) : (s.onGroup c f).mod j = s.mod j := rfl
@[simp] theorem State.onGroup_at_bdl (c : Nat) (f : Group → Group) (j : Nat) : (s.onGroup c f).bdl j = s.bdl j := rfl
@[simp] theorem State.onGroup_at_site (c : Nat) (f : Group → Group) (j : Nat) : (s.onGroup c f).site j = s.site j := rfl
@[simp] theorem State.onGroup_at_cfg (c : Nat) (f : Group → Group) (j : Nat) : (s.onGroup c f).cfg j = s.cfg j := rfl
@[simp] theorem State.onGroup_at_stream (c : Nat) (f : Group → Group) (j : Nat) : (s.onGroup c f).stream j = s.stream j := rfl
@[simp] theorem State.onGroup_at_port (c : Nat) (f : Group → Group) (j : Nat) : (s.onGroup c f).port j = s.port j := rfl
@[simp] theorem State.onGroup_at_now (c : Nat) (f : Group → Group) : (s.onGroup c f).now = s.now := rfl
@[simp] theorem State.onGroup_at_lc (c : Nat) (f : Group → Group) : (s.onGroup c f).lc = s.lc := rfl
@[simp] theorem State.onGroup_at_linkUp (c : Nat) (f : Group → Group) : (s.onGroup c f).linkUp = s.linkUp := rfl
@[simp] theorem State.onGroup_at_fnEnabled (c : Nat) (f : Group → Group) (j : Nat) : (s.onGroup c f).fnEnabled j = s.fnEnabled j := rfl
@[simp] theorem State.onGroup_at_tracing (c : Nat) (f : Group → Group) : (s.onGroup c f).tracing = s.tracing := rfl
@[simp] theorem State.onGroup_at_free (c : Nat) (f : Group → Group) : (s.onGroup c f).free = s.free := rfl
@[simp] theorem State.onGroup_same (c : Nat) (f : Group → Group) : (s.onGroup c f).group c = f (s.group c) := SMap.get_put_same _ _ _ _
theorem State.onGroup_other (c : Nat) (f : Group → Group) {j : Nat} (h : j ≠ c) : (s.onGroup c f).group j = s.group j := SMap.get_put_other _ _ _ h

/-! ### onEngine -/

@[simp] theorem State.onEngine_pending (c : Nat) (f : Engine → Engine) : (s.onEngine c f).pending = s.pending := rfl
@[simp] theorem State.onEngine_outbox (c : Nat) (f : Engine → Engine) : (s.onEngine c f).outbox = s.outbox := rfl
@[simp] theorem State.onEngine_freeCtr (c : Nat) (f : Engine → Engine) : (s.onEngine c f).freeCtr = s.freeCtr := rfl
@[simp] theorem State.onEngine_spindle (c : Nat) (f : Engine → Engine) : (s.onEngine c f).spindle = s.spindle := rfl
@[simp] theorem State.onEngine_regs (c : Nat) (f : Engine → Engine) : (s.onEngine c f).regs = s.regs := rfl
@[simp] theorem State.onEngine_devMem (c : Nat) (f : Engine → Engine) : (s.onEngine c f).devMem = s.devMem := rfl
@[simp] theorem State.onEngine_ueMarks (c : Nat) (f : Engine → Engine) : (s.onEngine c f).ueMarks = s.ueMarks := rfl
@[simp] theorem State.onEngine_chans (c : Nat) (f : Engine → Engine) : (s.onEngine c f).chans = s.chans := rfl
@[simp] theorem State.onEngine_stretchAt (c : Nat) (f : Engine → Engine) : (s.onEngine c f).stretchAt = s.stretchAt := rfl
@[simp] theorem State.onEngine_buckets (c : Nat) (f : Engine → Engine) : (s.onEngine c f).buckets = s.buckets := rfl
@[simp] theorem State.onEngine_waiting (c : Nat) (f : Engine → Engine) : (s.onEngine c f).waiting = s.waiting := rfl
@[simp] theorem State.onEngine_ctxs (c : Nat) (f : Engine → Engine) : (s.onEngine c f).ctxs = s.ctxs := rfl
@[simp] theorem State.onEngine_parts (c : Nat) (f : Engine → Engine) : (s.onEngine c f).parts = s.parts := rfl
@[simp] theorem State.onEngine_tiles (c : Nat) (f : Engine → Engine) : (s.onEngine c f).tiles = s.tiles := rfl
@[simp] theorem State.onEngine_groups (c : Nat) (f : Engine → Engine) : (s.onEngine c f).groups = s.groups := rfl
@[simp] theorem State.onEngine_atsReqs (c : Nat) (f : Engine → Engine) : (s.onEngine c f).atsReqs = s.atsReqs := rfl
@[simp] theorem State.onEngine_hostReqs (c : Nat) (f : Engine → Engine) : (s.onEngine c f).hostReqs = s.hostReqs := rfl
@[simp] theorem State.onEngine_nextReq (c : Nat) (f : Engine → Engine) : (s.onEngine c f).nextReq = s.nextReq := rfl
@[simp] theorem State.onEngine_pft (c : Nat) (f : Engine → Engine) : (s.onEngine c f).pft = s.pft := rfl
@[simp] theorem State.onEngine_pftQueue (c : Nat) (f : Engine → Engine) : (s.onEngine c f).pftQueue = s.pftQueue := rfl
@[simp] theorem State.onEngine_pftSend (c : Nat) (f : Engine → Engine) : (s.onEngine c f).pftSend = s.pftSend := rfl
@[simp] theorem State.onEngine_pftAt (c : Nat) (f : Engine → Engine) : (s.onEngine c f).pftAt = s.pftAt := rfl
@[simp] theorem State.onEngine_invs (c : Nat) (f : Engine → Engine) : (s.onEngine c f).invs = s.invs := rfl
@[simp] theorem State.onEngine_links (c : Nat) (f : Engine → Engine) : (s.onEngine c f).links = s.links := rfl
@[simp] theorem State.onEngine_netBufs (c : Nat) (f : Engine → Engine) : (s.onEngine c f).netBufs = s.netBufs := rfl
@[simp] theorem State.onEngine_tags (c : Nat) (f : Engine → Engine) : (s.onEngine c f).tags = s.tags := rfl
@[simp] theorem State.onEngine_owed (c : Nat) (f : Engine → Engine) : (s.onEngine c f).owed = s.owed := rfl
@[simp] theorem State.onEngine_ctlOut (c : Nat) (f : Engine → Engine) : (s.onEngine c f).ctlOut = s.ctlOut := rfl
@[simp] theorem State.onEngine_whFlits (c : Nat) (f : Engine → Engine) : (s.onEngine c f).whFlits = s.whFlits := rfl
@[simp] theorem State.onEngine_pools (c : Nat) (f : Engine → Engine) : (s.onEngine c f).pools = s.pools := rfl
@[simp] theorem State.onEngine_mods (c : Nat) (f : Engine → Engine) : (s.onEngine c f).mods = s.mods := rfl
@[simp] theorem State.onEngine_bdls (c : Nat) (f : Engine → Engine) : (s.onEngine c f).bdls = s.bdls := rfl
@[simp] theorem State.onEngine_sites (c : Nat) (f : Engine → Engine) : (s.onEngine c f).sites = s.sites := rfl
@[simp] theorem State.onEngine_hcfg (c : Nat) (f : Engine → Engine) : (s.onEngine c f).hcfg = s.hcfg := rfl
@[simp] theorem State.onEngine_streams (c : Nat) (f : Engine → Engine) : (s.onEngine c f).streams = s.streams := rfl
@[simp] theorem State.onEngine_doe (c : Nat) (f : Engine → Engine) : (s.onEngine c f).doe = s.doe := rfl
@[simp] theorem State.onEngine_spdm (c : Nat) (f : Engine → Engine) : (s.onEngine c f).spdm = s.spdm := rfl
@[simp] theorem State.onEngine_sessions (c : Nat) (f : Engine → Engine) : (s.onEngine c f).sessions = s.sessions := rfl
@[simp] theorem State.onEngine_ports (c : Nat) (f : Engine → Engine) : (s.onEngine c f).ports = s.ports := rfl
@[simp] theorem State.onEngine_clOps (c : Nat) (f : Engine → Engine) : (s.onEngine c f).clOps = s.clOps := rfl
@[simp] theorem State.onEngine_colls (c : Nat) (f : Engine → Engine) : (s.onEngine c f).colls = s.colls := rfl
@[simp] theorem State.onEngine_readies (c : Nat) (f : Engine → Engine) : (s.onEngine c f).readies = s.readies := rfl
@[simp] theorem State.onEngine_aborts (c : Nat) (f : Engine → Engine) : (s.onEngine c f).aborts = s.aborts := rfl
@[simp] theorem State.onEngine_held (c : Nat) (f : Engine → Engine) : (s.onEngine c f).held = s.held := rfl
@[simp] theorem State.onEngine_otp (c : Nat) (f : Engine → Engine) : (s.onEngine c f).otp = s.otp := rfl
@[simp] theorem State.onEngine_hw (c : Nat) (f : Engine → Engine) : (s.onEngine c f).hw = s.hw := rfl
@[simp] theorem State.onEngine_mbx (c : Nat) (f : Engine → Engine) : (s.onEngine c f).mbx = s.mbx := rfl
@[simp] theorem State.onEngine_flash (c : Nat) (f : Engine → Engine) : (s.onEngine c f).flash = s.flash := rfl
@[simp] theorem State.onEngine_sset0 (c : Nat) (f : Engine → Engine) : (s.onEngine c f).sset0 = s.sset0 := rfl
@[simp] theorem State.onEngine_sset1 (c : Nat) (f : Engine → Engine) : (s.onEngine c f).sset1 = s.sset1 := rfl
@[simp] theorem State.onEngine_saved (c : Nat) (f : Engine → Engine) : (s.onEngine c f).saved = s.saved := rfl
@[simp] theorem State.onEngine_ssetDirty (c : Nat) (f : Engine → Engine) : (s.onEngine c f).ssetDirty = s.ssetDirty := rfl
@[simp] theorem State.onEngine_image (c : Nat) (f : Engine → Engine) : (s.onEngine c f).image = s.image := rfl
@[simp] theorem State.onEngine_bb (c : Nat) (f : Engine → Engine) : (s.onEngine c f).bb = s.bb := rfl
@[simp] theorem State.onEngine_tls (c : Nat) (f : Engine → Engine) : (s.onEngine c f).tls = s.tls := rfl
@[simp] theorem State.onEngine_power (c : Nat) (f : Engine → Engine) : (s.onEngine c f).power = s.power := rfl
@[simp] theorem State.onEngine_pins (c : Nat) (f : Engine → Engine) : (s.onEngine c f).pins = s.pins := rfl
@[simp] theorem State.onEngine_boot (c : Nat) (f : Engine → Engine) : (s.onEngine c f).boot = s.boot := rfl
@[simp] theorem State.onEngine_at_reg (c : Nat) (f : Engine → Engine) (j : Nat) : (s.onEngine c f).reg j = s.reg j := rfl
@[simp] theorem State.onEngine_at_rd (c : Nat) (f : Engine → Engine) (g : Fld) : (s.onEngine c f).rd g = s.rd g := rfl
@[simp] theorem State.onEngine_at_on (c : Nat) (f : Engine → Engine) (g : Fld) : (s.onEngine c f).on g = s.on g := rfl
@[simp] theorem State.onEngine_at_ctx (c : Nat) (f : Engine → Engine) (j : Nat) : (s.onEngine c f).ctx j = s.ctx j := rfl
@[simp] theorem State.onEngine_at_chan (c : Nat) (f : Engine → Engine) (j : Nat) : (s.onEngine c f).chan j = s.chan j := rfl
@[simp] theorem State.onEngine_at_part (c : Nat) (f : Engine → Engine) (j : Nat) : (s.onEngine c f).part j = s.part j := rfl
@[simp] theorem State.onEngine_at_tile (c : Nat) (f : Engine → Engine) (j : Nat) : (s.onEngine c f).tile j = s.tile j := rfl
@[simp] theorem State.onEngine_at_group (c : Nat) (f : Engine → Engine) (j : Nat) : (s.onEngine c f).group j = s.group j := rfl
@[simp] theorem State.onEngine_at_pool (c : Nat) (f : Engine → Engine) (j : Nat) : (s.onEngine c f).pool j = s.pool j := rfl
@[simp] theorem State.onEngine_at_slot (c : Nat) (f : Engine → Engine) (p j : Nat) : (s.onEngine c f).slot p j = s.slot p j := rfl
@[simp] theorem State.onEngine_at_mod (c : Nat) (f : Engine → Engine) (j : Nat) : (s.onEngine c f).mod j = s.mod j := rfl
@[simp] theorem State.onEngine_at_bdl (c : Nat) (f : Engine → Engine) (j : Nat) : (s.onEngine c f).bdl j = s.bdl j := rfl
@[simp] theorem State.onEngine_at_site (c : Nat) (f : Engine → Engine) (j : Nat) : (s.onEngine c f).site j = s.site j := rfl
@[simp] theorem State.onEngine_at_cfg (c : Nat) (f : Engine → Engine) (j : Nat) : (s.onEngine c f).cfg j = s.cfg j := rfl
@[simp] theorem State.onEngine_at_stream (c : Nat) (f : Engine → Engine) (j : Nat) : (s.onEngine c f).stream j = s.stream j := rfl
@[simp] theorem State.onEngine_at_port (c : Nat) (f : Engine → Engine) (j : Nat) : (s.onEngine c f).port j = s.port j := rfl
@[simp] theorem State.onEngine_at_now (c : Nat) (f : Engine → Engine) : (s.onEngine c f).now = s.now := rfl
@[simp] theorem State.onEngine_at_lc (c : Nat) (f : Engine → Engine) : (s.onEngine c f).lc = s.lc := rfl
@[simp] theorem State.onEngine_at_linkUp (c : Nat) (f : Engine → Engine) : (s.onEngine c f).linkUp = s.linkUp := rfl
@[simp] theorem State.onEngine_at_fnEnabled (c : Nat) (f : Engine → Engine) (j : Nat) : (s.onEngine c f).fnEnabled j = s.fnEnabled j := rfl
@[simp] theorem State.onEngine_at_tracing (c : Nat) (f : Engine → Engine) : (s.onEngine c f).tracing = s.tracing := rfl
@[simp] theorem State.onEngine_at_free (c : Nat) (f : Engine → Engine) : (s.onEngine c f).free = s.free := rfl
@[simp] theorem State.onEngine_same (c : Nat) (f : Engine → Engine) : (s.onEngine c f).engine c = f (s.engine c) := SMap.get_put_same _ _ _ _
theorem State.onEngine_other (c : Nat) (f : Engine → Engine) {j : Nat} (h : j ≠ c) : (s.onEngine c f).engine j = s.engine j := SMap.get_put_other _ _ _ h

/-! ### onPool -/

@[simp] theorem State.onPool_pending (c : Nat) (f : Pool → Pool) : (s.onPool c f).pending = s.pending := rfl
@[simp] theorem State.onPool_outbox (c : Nat) (f : Pool → Pool) : (s.onPool c f).outbox = s.outbox := rfl
@[simp] theorem State.onPool_freeCtr (c : Nat) (f : Pool → Pool) : (s.onPool c f).freeCtr = s.freeCtr := rfl
@[simp] theorem State.onPool_spindle (c : Nat) (f : Pool → Pool) : (s.onPool c f).spindle = s.spindle := rfl
@[simp] theorem State.onPool_regs (c : Nat) (f : Pool → Pool) : (s.onPool c f).regs = s.regs := rfl
@[simp] theorem State.onPool_devMem (c : Nat) (f : Pool → Pool) : (s.onPool c f).devMem = s.devMem := rfl
@[simp] theorem State.onPool_ueMarks (c : Nat) (f : Pool → Pool) : (s.onPool c f).ueMarks = s.ueMarks := rfl
@[simp] theorem State.onPool_chans (c : Nat) (f : Pool → Pool) : (s.onPool c f).chans = s.chans := rfl
@[simp] theorem State.onPool_stretchAt (c : Nat) (f : Pool → Pool) : (s.onPool c f).stretchAt = s.stretchAt := rfl
@[simp] theorem State.onPool_buckets (c : Nat) (f : Pool → Pool) : (s.onPool c f).buckets = s.buckets := rfl
@[simp] theorem State.onPool_waiting (c : Nat) (f : Pool → Pool) : (s.onPool c f).waiting = s.waiting := rfl
@[simp] theorem State.onPool_ctxs (c : Nat) (f : Pool → Pool) : (s.onPool c f).ctxs = s.ctxs := rfl
@[simp] theorem State.onPool_parts (c : Nat) (f : Pool → Pool) : (s.onPool c f).parts = s.parts := rfl
@[simp] theorem State.onPool_tiles (c : Nat) (f : Pool → Pool) : (s.onPool c f).tiles = s.tiles := rfl
@[simp] theorem State.onPool_groups (c : Nat) (f : Pool → Pool) : (s.onPool c f).groups = s.groups := rfl
@[simp] theorem State.onPool_engines (c : Nat) (f : Pool → Pool) : (s.onPool c f).engines = s.engines := rfl
@[simp] theorem State.onPool_atsReqs (c : Nat) (f : Pool → Pool) : (s.onPool c f).atsReqs = s.atsReqs := rfl
@[simp] theorem State.onPool_hostReqs (c : Nat) (f : Pool → Pool) : (s.onPool c f).hostReqs = s.hostReqs := rfl
@[simp] theorem State.onPool_nextReq (c : Nat) (f : Pool → Pool) : (s.onPool c f).nextReq = s.nextReq := rfl
@[simp] theorem State.onPool_pft (c : Nat) (f : Pool → Pool) : (s.onPool c f).pft = s.pft := rfl
@[simp] theorem State.onPool_pftQueue (c : Nat) (f : Pool → Pool) : (s.onPool c f).pftQueue = s.pftQueue := rfl
@[simp] theorem State.onPool_pftSend (c : Nat) (f : Pool → Pool) : (s.onPool c f).pftSend = s.pftSend := rfl
@[simp] theorem State.onPool_pftAt (c : Nat) (f : Pool → Pool) : (s.onPool c f).pftAt = s.pftAt := rfl
@[simp] theorem State.onPool_invs (c : Nat) (f : Pool → Pool) : (s.onPool c f).invs = s.invs := rfl
@[simp] theorem State.onPool_links (c : Nat) (f : Pool → Pool) : (s.onPool c f).links = s.links := rfl
@[simp] theorem State.onPool_netBufs (c : Nat) (f : Pool → Pool) : (s.onPool c f).netBufs = s.netBufs := rfl
@[simp] theorem State.onPool_tags (c : Nat) (f : Pool → Pool) : (s.onPool c f).tags = s.tags := rfl
@[simp] theorem State.onPool_owed (c : Nat) (f : Pool → Pool) : (s.onPool c f).owed = s.owed := rfl
@[simp] theorem State.onPool_ctlOut (c : Nat) (f : Pool → Pool) : (s.onPool c f).ctlOut = s.ctlOut := rfl
@[simp] theorem State.onPool_whFlits (c : Nat) (f : Pool → Pool) : (s.onPool c f).whFlits = s.whFlits := rfl
@[simp] theorem State.onPool_mods (c : Nat) (f : Pool → Pool) : (s.onPool c f).mods = s.mods := rfl
@[simp] theorem State.onPool_bdls (c : Nat) (f : Pool → Pool) : (s.onPool c f).bdls = s.bdls := rfl
@[simp] theorem State.onPool_sites (c : Nat) (f : Pool → Pool) : (s.onPool c f).sites = s.sites := rfl
@[simp] theorem State.onPool_hcfg (c : Nat) (f : Pool → Pool) : (s.onPool c f).hcfg = s.hcfg := rfl
@[simp] theorem State.onPool_streams (c : Nat) (f : Pool → Pool) : (s.onPool c f).streams = s.streams := rfl
@[simp] theorem State.onPool_doe (c : Nat) (f : Pool → Pool) : (s.onPool c f).doe = s.doe := rfl
@[simp] theorem State.onPool_spdm (c : Nat) (f : Pool → Pool) : (s.onPool c f).spdm = s.spdm := rfl
@[simp] theorem State.onPool_sessions (c : Nat) (f : Pool → Pool) : (s.onPool c f).sessions = s.sessions := rfl
@[simp] theorem State.onPool_ports (c : Nat) (f : Pool → Pool) : (s.onPool c f).ports = s.ports := rfl
@[simp] theorem State.onPool_clOps (c : Nat) (f : Pool → Pool) : (s.onPool c f).clOps = s.clOps := rfl
@[simp] theorem State.onPool_colls (c : Nat) (f : Pool → Pool) : (s.onPool c f).colls = s.colls := rfl
@[simp] theorem State.onPool_readies (c : Nat) (f : Pool → Pool) : (s.onPool c f).readies = s.readies := rfl
@[simp] theorem State.onPool_aborts (c : Nat) (f : Pool → Pool) : (s.onPool c f).aborts = s.aborts := rfl
@[simp] theorem State.onPool_held (c : Nat) (f : Pool → Pool) : (s.onPool c f).held = s.held := rfl
@[simp] theorem State.onPool_otp (c : Nat) (f : Pool → Pool) : (s.onPool c f).otp = s.otp := rfl
@[simp] theorem State.onPool_hw (c : Nat) (f : Pool → Pool) : (s.onPool c f).hw = s.hw := rfl
@[simp] theorem State.onPool_mbx (c : Nat) (f : Pool → Pool) : (s.onPool c f).mbx = s.mbx := rfl
@[simp] theorem State.onPool_flash (c : Nat) (f : Pool → Pool) : (s.onPool c f).flash = s.flash := rfl
@[simp] theorem State.onPool_sset0 (c : Nat) (f : Pool → Pool) : (s.onPool c f).sset0 = s.sset0 := rfl
@[simp] theorem State.onPool_sset1 (c : Nat) (f : Pool → Pool) : (s.onPool c f).sset1 = s.sset1 := rfl
@[simp] theorem State.onPool_saved (c : Nat) (f : Pool → Pool) : (s.onPool c f).saved = s.saved := rfl
@[simp] theorem State.onPool_ssetDirty (c : Nat) (f : Pool → Pool) : (s.onPool c f).ssetDirty = s.ssetDirty := rfl
@[simp] theorem State.onPool_image (c : Nat) (f : Pool → Pool) : (s.onPool c f).image = s.image := rfl
@[simp] theorem State.onPool_bb (c : Nat) (f : Pool → Pool) : (s.onPool c f).bb = s.bb := rfl
@[simp] theorem State.onPool_tls (c : Nat) (f : Pool → Pool) : (s.onPool c f).tls = s.tls := rfl
@[simp] theorem State.onPool_power (c : Nat) (f : Pool → Pool) : (s.onPool c f).power = s.power := rfl
@[simp] theorem State.onPool_pins (c : Nat) (f : Pool → Pool) : (s.onPool c f).pins = s.pins := rfl
@[simp] theorem State.onPool_boot (c : Nat) (f : Pool → Pool) : (s.onPool c f).boot = s.boot := rfl
@[simp] theorem State.onPool_at_reg (c : Nat) (f : Pool → Pool) (j : Nat) : (s.onPool c f).reg j = s.reg j := rfl
@[simp] theorem State.onPool_at_rd (c : Nat) (f : Pool → Pool) (g : Fld) : (s.onPool c f).rd g = s.rd g := rfl
@[simp] theorem State.onPool_at_on (c : Nat) (f : Pool → Pool) (g : Fld) : (s.onPool c f).on g = s.on g := rfl
@[simp] theorem State.onPool_at_ctx (c : Nat) (f : Pool → Pool) (j : Nat) : (s.onPool c f).ctx j = s.ctx j := rfl
@[simp] theorem State.onPool_at_chan (c : Nat) (f : Pool → Pool) (j : Nat) : (s.onPool c f).chan j = s.chan j := rfl
@[simp] theorem State.onPool_at_part (c : Nat) (f : Pool → Pool) (j : Nat) : (s.onPool c f).part j = s.part j := rfl
@[simp] theorem State.onPool_at_tile (c : Nat) (f : Pool → Pool) (j : Nat) : (s.onPool c f).tile j = s.tile j := rfl
@[simp] theorem State.onPool_at_group (c : Nat) (f : Pool → Pool) (j : Nat) : (s.onPool c f).group j = s.group j := rfl
@[simp] theorem State.onPool_at_engine (c : Nat) (f : Pool → Pool) (j : Nat) : (s.onPool c f).engine j = s.engine j := rfl
@[simp] theorem State.onPool_at_mod (c : Nat) (f : Pool → Pool) (j : Nat) : (s.onPool c f).mod j = s.mod j := rfl
@[simp] theorem State.onPool_at_bdl (c : Nat) (f : Pool → Pool) (j : Nat) : (s.onPool c f).bdl j = s.bdl j := rfl
@[simp] theorem State.onPool_at_site (c : Nat) (f : Pool → Pool) (j : Nat) : (s.onPool c f).site j = s.site j := rfl
@[simp] theorem State.onPool_at_cfg (c : Nat) (f : Pool → Pool) (j : Nat) : (s.onPool c f).cfg j = s.cfg j := rfl
@[simp] theorem State.onPool_at_stream (c : Nat) (f : Pool → Pool) (j : Nat) : (s.onPool c f).stream j = s.stream j := rfl
@[simp] theorem State.onPool_at_port (c : Nat) (f : Pool → Pool) (j : Nat) : (s.onPool c f).port j = s.port j := rfl
@[simp] theorem State.onPool_at_now (c : Nat) (f : Pool → Pool) : (s.onPool c f).now = s.now := rfl
@[simp] theorem State.onPool_at_lc (c : Nat) (f : Pool → Pool) : (s.onPool c f).lc = s.lc := rfl
@[simp] theorem State.onPool_at_linkUp (c : Nat) (f : Pool → Pool) : (s.onPool c f).linkUp = s.linkUp := rfl
@[simp] theorem State.onPool_at_fnEnabled (c : Nat) (f : Pool → Pool) (j : Nat) : (s.onPool c f).fnEnabled j = s.fnEnabled j := rfl
@[simp] theorem State.onPool_at_tracing (c : Nat) (f : Pool → Pool) : (s.onPool c f).tracing = s.tracing := rfl
@[simp] theorem State.onPool_at_free (c : Nat) (f : Pool → Pool) : (s.onPool c f).free = s.free := rfl
@[simp] theorem State.onPool_same (c : Nat) (f : Pool → Pool) : (s.onPool c f).pool c = f (s.pool c) := SMap.get_put_same _ _ _ _
theorem State.onPool_other (c : Nat) (f : Pool → Pool) {j : Nat} (h : j ≠ c) : (s.onPool c f).pool j = s.pool j := SMap.get_put_other _ _ _ h

/-! ### onMod -/

@[simp] theorem State.onMod_pending (c : Nat) (f : Mod → Mod) : (s.onMod c f).pending = s.pending := rfl
@[simp] theorem State.onMod_outbox (c : Nat) (f : Mod → Mod) : (s.onMod c f).outbox = s.outbox := rfl
@[simp] theorem State.onMod_freeCtr (c : Nat) (f : Mod → Mod) : (s.onMod c f).freeCtr = s.freeCtr := rfl
@[simp] theorem State.onMod_spindle (c : Nat) (f : Mod → Mod) : (s.onMod c f).spindle = s.spindle := rfl
@[simp] theorem State.onMod_regs (c : Nat) (f : Mod → Mod) : (s.onMod c f).regs = s.regs := rfl
@[simp] theorem State.onMod_devMem (c : Nat) (f : Mod → Mod) : (s.onMod c f).devMem = s.devMem := rfl
@[simp] theorem State.onMod_ueMarks (c : Nat) (f : Mod → Mod) : (s.onMod c f).ueMarks = s.ueMarks := rfl
@[simp] theorem State.onMod_chans (c : Nat) (f : Mod → Mod) : (s.onMod c f).chans = s.chans := rfl
@[simp] theorem State.onMod_stretchAt (c : Nat) (f : Mod → Mod) : (s.onMod c f).stretchAt = s.stretchAt := rfl
@[simp] theorem State.onMod_buckets (c : Nat) (f : Mod → Mod) : (s.onMod c f).buckets = s.buckets := rfl
@[simp] theorem State.onMod_waiting (c : Nat) (f : Mod → Mod) : (s.onMod c f).waiting = s.waiting := rfl
@[simp] theorem State.onMod_ctxs (c : Nat) (f : Mod → Mod) : (s.onMod c f).ctxs = s.ctxs := rfl
@[simp] theorem State.onMod_parts (c : Nat) (f : Mod → Mod) : (s.onMod c f).parts = s.parts := rfl
@[simp] theorem State.onMod_tiles (c : Nat) (f : Mod → Mod) : (s.onMod c f).tiles = s.tiles := rfl
@[simp] theorem State.onMod_groups (c : Nat) (f : Mod → Mod) : (s.onMod c f).groups = s.groups := rfl
@[simp] theorem State.onMod_engines (c : Nat) (f : Mod → Mod) : (s.onMod c f).engines = s.engines := rfl
@[simp] theorem State.onMod_atsReqs (c : Nat) (f : Mod → Mod) : (s.onMod c f).atsReqs = s.atsReqs := rfl
@[simp] theorem State.onMod_hostReqs (c : Nat) (f : Mod → Mod) : (s.onMod c f).hostReqs = s.hostReqs := rfl
@[simp] theorem State.onMod_nextReq (c : Nat) (f : Mod → Mod) : (s.onMod c f).nextReq = s.nextReq := rfl
@[simp] theorem State.onMod_pft (c : Nat) (f : Mod → Mod) : (s.onMod c f).pft = s.pft := rfl
@[simp] theorem State.onMod_pftQueue (c : Nat) (f : Mod → Mod) : (s.onMod c f).pftQueue = s.pftQueue := rfl
@[simp] theorem State.onMod_pftSend (c : Nat) (f : Mod → Mod) : (s.onMod c f).pftSend = s.pftSend := rfl
@[simp] theorem State.onMod_pftAt (c : Nat) (f : Mod → Mod) : (s.onMod c f).pftAt = s.pftAt := rfl
@[simp] theorem State.onMod_invs (c : Nat) (f : Mod → Mod) : (s.onMod c f).invs = s.invs := rfl
@[simp] theorem State.onMod_links (c : Nat) (f : Mod → Mod) : (s.onMod c f).links = s.links := rfl
@[simp] theorem State.onMod_netBufs (c : Nat) (f : Mod → Mod) : (s.onMod c f).netBufs = s.netBufs := rfl
@[simp] theorem State.onMod_tags (c : Nat) (f : Mod → Mod) : (s.onMod c f).tags = s.tags := rfl
@[simp] theorem State.onMod_owed (c : Nat) (f : Mod → Mod) : (s.onMod c f).owed = s.owed := rfl
@[simp] theorem State.onMod_ctlOut (c : Nat) (f : Mod → Mod) : (s.onMod c f).ctlOut = s.ctlOut := rfl
@[simp] theorem State.onMod_whFlits (c : Nat) (f : Mod → Mod) : (s.onMod c f).whFlits = s.whFlits := rfl
@[simp] theorem State.onMod_pools (c : Nat) (f : Mod → Mod) : (s.onMod c f).pools = s.pools := rfl
@[simp] theorem State.onMod_bdls (c : Nat) (f : Mod → Mod) : (s.onMod c f).bdls = s.bdls := rfl
@[simp] theorem State.onMod_sites (c : Nat) (f : Mod → Mod) : (s.onMod c f).sites = s.sites := rfl
@[simp] theorem State.onMod_hcfg (c : Nat) (f : Mod → Mod) : (s.onMod c f).hcfg = s.hcfg := rfl
@[simp] theorem State.onMod_streams (c : Nat) (f : Mod → Mod) : (s.onMod c f).streams = s.streams := rfl
@[simp] theorem State.onMod_doe (c : Nat) (f : Mod → Mod) : (s.onMod c f).doe = s.doe := rfl
@[simp] theorem State.onMod_spdm (c : Nat) (f : Mod → Mod) : (s.onMod c f).spdm = s.spdm := rfl
@[simp] theorem State.onMod_sessions (c : Nat) (f : Mod → Mod) : (s.onMod c f).sessions = s.sessions := rfl
@[simp] theorem State.onMod_ports (c : Nat) (f : Mod → Mod) : (s.onMod c f).ports = s.ports := rfl
@[simp] theorem State.onMod_clOps (c : Nat) (f : Mod → Mod) : (s.onMod c f).clOps = s.clOps := rfl
@[simp] theorem State.onMod_colls (c : Nat) (f : Mod → Mod) : (s.onMod c f).colls = s.colls := rfl
@[simp] theorem State.onMod_readies (c : Nat) (f : Mod → Mod) : (s.onMod c f).readies = s.readies := rfl
@[simp] theorem State.onMod_aborts (c : Nat) (f : Mod → Mod) : (s.onMod c f).aborts = s.aborts := rfl
@[simp] theorem State.onMod_held (c : Nat) (f : Mod → Mod) : (s.onMod c f).held = s.held := rfl
@[simp] theorem State.onMod_otp (c : Nat) (f : Mod → Mod) : (s.onMod c f).otp = s.otp := rfl
@[simp] theorem State.onMod_hw (c : Nat) (f : Mod → Mod) : (s.onMod c f).hw = s.hw := rfl
@[simp] theorem State.onMod_mbx (c : Nat) (f : Mod → Mod) : (s.onMod c f).mbx = s.mbx := rfl
@[simp] theorem State.onMod_flash (c : Nat) (f : Mod → Mod) : (s.onMod c f).flash = s.flash := rfl
@[simp] theorem State.onMod_sset0 (c : Nat) (f : Mod → Mod) : (s.onMod c f).sset0 = s.sset0 := rfl
@[simp] theorem State.onMod_sset1 (c : Nat) (f : Mod → Mod) : (s.onMod c f).sset1 = s.sset1 := rfl
@[simp] theorem State.onMod_saved (c : Nat) (f : Mod → Mod) : (s.onMod c f).saved = s.saved := rfl
@[simp] theorem State.onMod_ssetDirty (c : Nat) (f : Mod → Mod) : (s.onMod c f).ssetDirty = s.ssetDirty := rfl
@[simp] theorem State.onMod_image (c : Nat) (f : Mod → Mod) : (s.onMod c f).image = s.image := rfl
@[simp] theorem State.onMod_bb (c : Nat) (f : Mod → Mod) : (s.onMod c f).bb = s.bb := rfl
@[simp] theorem State.onMod_tls (c : Nat) (f : Mod → Mod) : (s.onMod c f).tls = s.tls := rfl
@[simp] theorem State.onMod_power (c : Nat) (f : Mod → Mod) : (s.onMod c f).power = s.power := rfl
@[simp] theorem State.onMod_pins (c : Nat) (f : Mod → Mod) : (s.onMod c f).pins = s.pins := rfl
@[simp] theorem State.onMod_boot (c : Nat) (f : Mod → Mod) : (s.onMod c f).boot = s.boot := rfl
@[simp] theorem State.onMod_at_reg (c : Nat) (f : Mod → Mod) (j : Nat) : (s.onMod c f).reg j = s.reg j := rfl
@[simp] theorem State.onMod_at_rd (c : Nat) (f : Mod → Mod) (g : Fld) : (s.onMod c f).rd g = s.rd g := rfl
@[simp] theorem State.onMod_at_on (c : Nat) (f : Mod → Mod) (g : Fld) : (s.onMod c f).on g = s.on g := rfl
@[simp] theorem State.onMod_at_ctx (c : Nat) (f : Mod → Mod) (j : Nat) : (s.onMod c f).ctx j = s.ctx j := rfl
@[simp] theorem State.onMod_at_chan (c : Nat) (f : Mod → Mod) (j : Nat) : (s.onMod c f).chan j = s.chan j := rfl
@[simp] theorem State.onMod_at_part (c : Nat) (f : Mod → Mod) (j : Nat) : (s.onMod c f).part j = s.part j := rfl
@[simp] theorem State.onMod_at_tile (c : Nat) (f : Mod → Mod) (j : Nat) : (s.onMod c f).tile j = s.tile j := rfl
@[simp] theorem State.onMod_at_group (c : Nat) (f : Mod → Mod) (j : Nat) : (s.onMod c f).group j = s.group j := rfl
@[simp] theorem State.onMod_at_engine (c : Nat) (f : Mod → Mod) (j : Nat) : (s.onMod c f).engine j = s.engine j := rfl
@[simp] theorem State.onMod_at_pool (c : Nat) (f : Mod → Mod) (j : Nat) : (s.onMod c f).pool j = s.pool j := rfl
@[simp] theorem State.onMod_at_slot (c : Nat) (f : Mod → Mod) (p j : Nat) : (s.onMod c f).slot p j = s.slot p j := rfl
@[simp] theorem State.onMod_at_bdl (c : Nat) (f : Mod → Mod) (j : Nat) : (s.onMod c f).bdl j = s.bdl j := rfl
@[simp] theorem State.onMod_at_site (c : Nat) (f : Mod → Mod) (j : Nat) : (s.onMod c f).site j = s.site j := rfl
@[simp] theorem State.onMod_at_cfg (c : Nat) (f : Mod → Mod) (j : Nat) : (s.onMod c f).cfg j = s.cfg j := rfl
@[simp] theorem State.onMod_at_stream (c : Nat) (f : Mod → Mod) (j : Nat) : (s.onMod c f).stream j = s.stream j := rfl
@[simp] theorem State.onMod_at_port (c : Nat) (f : Mod → Mod) (j : Nat) : (s.onMod c f).port j = s.port j := rfl
@[simp] theorem State.onMod_at_now (c : Nat) (f : Mod → Mod) : (s.onMod c f).now = s.now := rfl
@[simp] theorem State.onMod_at_lc (c : Nat) (f : Mod → Mod) : (s.onMod c f).lc = s.lc := rfl
@[simp] theorem State.onMod_at_linkUp (c : Nat) (f : Mod → Mod) : (s.onMod c f).linkUp = s.linkUp := rfl
@[simp] theorem State.onMod_at_fnEnabled (c : Nat) (f : Mod → Mod) (j : Nat) : (s.onMod c f).fnEnabled j = s.fnEnabled j := rfl
@[simp] theorem State.onMod_at_tracing (c : Nat) (f : Mod → Mod) : (s.onMod c f).tracing = s.tracing := rfl
@[simp] theorem State.onMod_at_free (c : Nat) (f : Mod → Mod) : (s.onMod c f).free = s.free := rfl
@[simp] theorem State.onMod_same (c : Nat) (f : Mod → Mod) : (s.onMod c f).mod c = f (s.mod c) := SMap.get_put_same _ _ _ _
theorem State.onMod_other (c : Nat) (f : Mod → Mod) {j : Nat} (h : j ≠ c) : (s.onMod c f).mod j = s.mod j := SMap.get_put_other _ _ _ h

/-! ### onBdl -/

@[simp] theorem State.onBdl_pending (c : Nat) (f : Bdl → Bdl) : (s.onBdl c f).pending = s.pending := rfl
@[simp] theorem State.onBdl_outbox (c : Nat) (f : Bdl → Bdl) : (s.onBdl c f).outbox = s.outbox := rfl
@[simp] theorem State.onBdl_freeCtr (c : Nat) (f : Bdl → Bdl) : (s.onBdl c f).freeCtr = s.freeCtr := rfl
@[simp] theorem State.onBdl_spindle (c : Nat) (f : Bdl → Bdl) : (s.onBdl c f).spindle = s.spindle := rfl
@[simp] theorem State.onBdl_regs (c : Nat) (f : Bdl → Bdl) : (s.onBdl c f).regs = s.regs := rfl
@[simp] theorem State.onBdl_devMem (c : Nat) (f : Bdl → Bdl) : (s.onBdl c f).devMem = s.devMem := rfl
@[simp] theorem State.onBdl_ueMarks (c : Nat) (f : Bdl → Bdl) : (s.onBdl c f).ueMarks = s.ueMarks := rfl
@[simp] theorem State.onBdl_chans (c : Nat) (f : Bdl → Bdl) : (s.onBdl c f).chans = s.chans := rfl
@[simp] theorem State.onBdl_stretchAt (c : Nat) (f : Bdl → Bdl) : (s.onBdl c f).stretchAt = s.stretchAt := rfl
@[simp] theorem State.onBdl_buckets (c : Nat) (f : Bdl → Bdl) : (s.onBdl c f).buckets = s.buckets := rfl
@[simp] theorem State.onBdl_waiting (c : Nat) (f : Bdl → Bdl) : (s.onBdl c f).waiting = s.waiting := rfl
@[simp] theorem State.onBdl_ctxs (c : Nat) (f : Bdl → Bdl) : (s.onBdl c f).ctxs = s.ctxs := rfl
@[simp] theorem State.onBdl_parts (c : Nat) (f : Bdl → Bdl) : (s.onBdl c f).parts = s.parts := rfl
@[simp] theorem State.onBdl_tiles (c : Nat) (f : Bdl → Bdl) : (s.onBdl c f).tiles = s.tiles := rfl
@[simp] theorem State.onBdl_groups (c : Nat) (f : Bdl → Bdl) : (s.onBdl c f).groups = s.groups := rfl
@[simp] theorem State.onBdl_engines (c : Nat) (f : Bdl → Bdl) : (s.onBdl c f).engines = s.engines := rfl
@[simp] theorem State.onBdl_atsReqs (c : Nat) (f : Bdl → Bdl) : (s.onBdl c f).atsReqs = s.atsReqs := rfl
@[simp] theorem State.onBdl_hostReqs (c : Nat) (f : Bdl → Bdl) : (s.onBdl c f).hostReqs = s.hostReqs := rfl
@[simp] theorem State.onBdl_nextReq (c : Nat) (f : Bdl → Bdl) : (s.onBdl c f).nextReq = s.nextReq := rfl
@[simp] theorem State.onBdl_pft (c : Nat) (f : Bdl → Bdl) : (s.onBdl c f).pft = s.pft := rfl
@[simp] theorem State.onBdl_pftQueue (c : Nat) (f : Bdl → Bdl) : (s.onBdl c f).pftQueue = s.pftQueue := rfl
@[simp] theorem State.onBdl_pftSend (c : Nat) (f : Bdl → Bdl) : (s.onBdl c f).pftSend = s.pftSend := rfl
@[simp] theorem State.onBdl_pftAt (c : Nat) (f : Bdl → Bdl) : (s.onBdl c f).pftAt = s.pftAt := rfl
@[simp] theorem State.onBdl_invs (c : Nat) (f : Bdl → Bdl) : (s.onBdl c f).invs = s.invs := rfl
@[simp] theorem State.onBdl_links (c : Nat) (f : Bdl → Bdl) : (s.onBdl c f).links = s.links := rfl
@[simp] theorem State.onBdl_netBufs (c : Nat) (f : Bdl → Bdl) : (s.onBdl c f).netBufs = s.netBufs := rfl
@[simp] theorem State.onBdl_tags (c : Nat) (f : Bdl → Bdl) : (s.onBdl c f).tags = s.tags := rfl
@[simp] theorem State.onBdl_owed (c : Nat) (f : Bdl → Bdl) : (s.onBdl c f).owed = s.owed := rfl
@[simp] theorem State.onBdl_ctlOut (c : Nat) (f : Bdl → Bdl) : (s.onBdl c f).ctlOut = s.ctlOut := rfl
@[simp] theorem State.onBdl_whFlits (c : Nat) (f : Bdl → Bdl) : (s.onBdl c f).whFlits = s.whFlits := rfl
@[simp] theorem State.onBdl_pools (c : Nat) (f : Bdl → Bdl) : (s.onBdl c f).pools = s.pools := rfl
@[simp] theorem State.onBdl_mods (c : Nat) (f : Bdl → Bdl) : (s.onBdl c f).mods = s.mods := rfl
@[simp] theorem State.onBdl_sites (c : Nat) (f : Bdl → Bdl) : (s.onBdl c f).sites = s.sites := rfl
@[simp] theorem State.onBdl_hcfg (c : Nat) (f : Bdl → Bdl) : (s.onBdl c f).hcfg = s.hcfg := rfl
@[simp] theorem State.onBdl_streams (c : Nat) (f : Bdl → Bdl) : (s.onBdl c f).streams = s.streams := rfl
@[simp] theorem State.onBdl_doe (c : Nat) (f : Bdl → Bdl) : (s.onBdl c f).doe = s.doe := rfl
@[simp] theorem State.onBdl_spdm (c : Nat) (f : Bdl → Bdl) : (s.onBdl c f).spdm = s.spdm := rfl
@[simp] theorem State.onBdl_sessions (c : Nat) (f : Bdl → Bdl) : (s.onBdl c f).sessions = s.sessions := rfl
@[simp] theorem State.onBdl_ports (c : Nat) (f : Bdl → Bdl) : (s.onBdl c f).ports = s.ports := rfl
@[simp] theorem State.onBdl_clOps (c : Nat) (f : Bdl → Bdl) : (s.onBdl c f).clOps = s.clOps := rfl
@[simp] theorem State.onBdl_colls (c : Nat) (f : Bdl → Bdl) : (s.onBdl c f).colls = s.colls := rfl
@[simp] theorem State.onBdl_readies (c : Nat) (f : Bdl → Bdl) : (s.onBdl c f).readies = s.readies := rfl
@[simp] theorem State.onBdl_aborts (c : Nat) (f : Bdl → Bdl) : (s.onBdl c f).aborts = s.aborts := rfl
@[simp] theorem State.onBdl_held (c : Nat) (f : Bdl → Bdl) : (s.onBdl c f).held = s.held := rfl
@[simp] theorem State.onBdl_otp (c : Nat) (f : Bdl → Bdl) : (s.onBdl c f).otp = s.otp := rfl
@[simp] theorem State.onBdl_hw (c : Nat) (f : Bdl → Bdl) : (s.onBdl c f).hw = s.hw := rfl
@[simp] theorem State.onBdl_mbx (c : Nat) (f : Bdl → Bdl) : (s.onBdl c f).mbx = s.mbx := rfl
@[simp] theorem State.onBdl_flash (c : Nat) (f : Bdl → Bdl) : (s.onBdl c f).flash = s.flash := rfl
@[simp] theorem State.onBdl_sset0 (c : Nat) (f : Bdl → Bdl) : (s.onBdl c f).sset0 = s.sset0 := rfl
@[simp] theorem State.onBdl_sset1 (c : Nat) (f : Bdl → Bdl) : (s.onBdl c f).sset1 = s.sset1 := rfl
@[simp] theorem State.onBdl_saved (c : Nat) (f : Bdl → Bdl) : (s.onBdl c f).saved = s.saved := rfl
@[simp] theorem State.onBdl_ssetDirty (c : Nat) (f : Bdl → Bdl) : (s.onBdl c f).ssetDirty = s.ssetDirty := rfl
@[simp] theorem State.onBdl_image (c : Nat) (f : Bdl → Bdl) : (s.onBdl c f).image = s.image := rfl
@[simp] theorem State.onBdl_bb (c : Nat) (f : Bdl → Bdl) : (s.onBdl c f).bb = s.bb := rfl
@[simp] theorem State.onBdl_tls (c : Nat) (f : Bdl → Bdl) : (s.onBdl c f).tls = s.tls := rfl
@[simp] theorem State.onBdl_power (c : Nat) (f : Bdl → Bdl) : (s.onBdl c f).power = s.power := rfl
@[simp] theorem State.onBdl_pins (c : Nat) (f : Bdl → Bdl) : (s.onBdl c f).pins = s.pins := rfl
@[simp] theorem State.onBdl_boot (c : Nat) (f : Bdl → Bdl) : (s.onBdl c f).boot = s.boot := rfl
@[simp] theorem State.onBdl_at_reg (c : Nat) (f : Bdl → Bdl) (j : Nat) : (s.onBdl c f).reg j = s.reg j := rfl
@[simp] theorem State.onBdl_at_rd (c : Nat) (f : Bdl → Bdl) (g : Fld) : (s.onBdl c f).rd g = s.rd g := rfl
@[simp] theorem State.onBdl_at_on (c : Nat) (f : Bdl → Bdl) (g : Fld) : (s.onBdl c f).on g = s.on g := rfl
@[simp] theorem State.onBdl_at_ctx (c : Nat) (f : Bdl → Bdl) (j : Nat) : (s.onBdl c f).ctx j = s.ctx j := rfl
@[simp] theorem State.onBdl_at_chan (c : Nat) (f : Bdl → Bdl) (j : Nat) : (s.onBdl c f).chan j = s.chan j := rfl
@[simp] theorem State.onBdl_at_part (c : Nat) (f : Bdl → Bdl) (j : Nat) : (s.onBdl c f).part j = s.part j := rfl
@[simp] theorem State.onBdl_at_tile (c : Nat) (f : Bdl → Bdl) (j : Nat) : (s.onBdl c f).tile j = s.tile j := rfl
@[simp] theorem State.onBdl_at_group (c : Nat) (f : Bdl → Bdl) (j : Nat) : (s.onBdl c f).group j = s.group j := rfl
@[simp] theorem State.onBdl_at_engine (c : Nat) (f : Bdl → Bdl) (j : Nat) : (s.onBdl c f).engine j = s.engine j := rfl
@[simp] theorem State.onBdl_at_pool (c : Nat) (f : Bdl → Bdl) (j : Nat) : (s.onBdl c f).pool j = s.pool j := rfl
@[simp] theorem State.onBdl_at_slot (c : Nat) (f : Bdl → Bdl) (p j : Nat) : (s.onBdl c f).slot p j = s.slot p j := rfl
@[simp] theorem State.onBdl_at_mod (c : Nat) (f : Bdl → Bdl) (j : Nat) : (s.onBdl c f).mod j = s.mod j := rfl
@[simp] theorem State.onBdl_at_site (c : Nat) (f : Bdl → Bdl) (j : Nat) : (s.onBdl c f).site j = s.site j := rfl
@[simp] theorem State.onBdl_at_cfg (c : Nat) (f : Bdl → Bdl) (j : Nat) : (s.onBdl c f).cfg j = s.cfg j := rfl
@[simp] theorem State.onBdl_at_stream (c : Nat) (f : Bdl → Bdl) (j : Nat) : (s.onBdl c f).stream j = s.stream j := rfl
@[simp] theorem State.onBdl_at_port (c : Nat) (f : Bdl → Bdl) (j : Nat) : (s.onBdl c f).port j = s.port j := rfl
@[simp] theorem State.onBdl_at_now (c : Nat) (f : Bdl → Bdl) : (s.onBdl c f).now = s.now := rfl
@[simp] theorem State.onBdl_at_lc (c : Nat) (f : Bdl → Bdl) : (s.onBdl c f).lc = s.lc := rfl
@[simp] theorem State.onBdl_at_linkUp (c : Nat) (f : Bdl → Bdl) : (s.onBdl c f).linkUp = s.linkUp := rfl
@[simp] theorem State.onBdl_at_fnEnabled (c : Nat) (f : Bdl → Bdl) (j : Nat) : (s.onBdl c f).fnEnabled j = s.fnEnabled j := rfl
@[simp] theorem State.onBdl_at_tracing (c : Nat) (f : Bdl → Bdl) : (s.onBdl c f).tracing = s.tracing := rfl
@[simp] theorem State.onBdl_at_free (c : Nat) (f : Bdl → Bdl) : (s.onBdl c f).free = s.free := rfl
@[simp] theorem State.onBdl_same (c : Nat) (f : Bdl → Bdl) : (s.onBdl c f).bdl c = f (s.bdl c) := SMap.get_put_same _ _ _ _
theorem State.onBdl_other (c : Nat) (f : Bdl → Bdl) {j : Nat} (h : j ≠ c) : (s.onBdl c f).bdl j = s.bdl j := SMap.get_put_other _ _ _ h

/-! ### onSite -/

@[simp] theorem State.onSite_pending (c : Nat) (f : Site → Site) : (s.onSite c f).pending = s.pending := rfl
@[simp] theorem State.onSite_outbox (c : Nat) (f : Site → Site) : (s.onSite c f).outbox = s.outbox := rfl
@[simp] theorem State.onSite_freeCtr (c : Nat) (f : Site → Site) : (s.onSite c f).freeCtr = s.freeCtr := rfl
@[simp] theorem State.onSite_spindle (c : Nat) (f : Site → Site) : (s.onSite c f).spindle = s.spindle := rfl
@[simp] theorem State.onSite_regs (c : Nat) (f : Site → Site) : (s.onSite c f).regs = s.regs := rfl
@[simp] theorem State.onSite_devMem (c : Nat) (f : Site → Site) : (s.onSite c f).devMem = s.devMem := rfl
@[simp] theorem State.onSite_ueMarks (c : Nat) (f : Site → Site) : (s.onSite c f).ueMarks = s.ueMarks := rfl
@[simp] theorem State.onSite_chans (c : Nat) (f : Site → Site) : (s.onSite c f).chans = s.chans := rfl
@[simp] theorem State.onSite_stretchAt (c : Nat) (f : Site → Site) : (s.onSite c f).stretchAt = s.stretchAt := rfl
@[simp] theorem State.onSite_buckets (c : Nat) (f : Site → Site) : (s.onSite c f).buckets = s.buckets := rfl
@[simp] theorem State.onSite_waiting (c : Nat) (f : Site → Site) : (s.onSite c f).waiting = s.waiting := rfl
@[simp] theorem State.onSite_ctxs (c : Nat) (f : Site → Site) : (s.onSite c f).ctxs = s.ctxs := rfl
@[simp] theorem State.onSite_parts (c : Nat) (f : Site → Site) : (s.onSite c f).parts = s.parts := rfl
@[simp] theorem State.onSite_tiles (c : Nat) (f : Site → Site) : (s.onSite c f).tiles = s.tiles := rfl
@[simp] theorem State.onSite_groups (c : Nat) (f : Site → Site) : (s.onSite c f).groups = s.groups := rfl
@[simp] theorem State.onSite_engines (c : Nat) (f : Site → Site) : (s.onSite c f).engines = s.engines := rfl
@[simp] theorem State.onSite_atsReqs (c : Nat) (f : Site → Site) : (s.onSite c f).atsReqs = s.atsReqs := rfl
@[simp] theorem State.onSite_hostReqs (c : Nat) (f : Site → Site) : (s.onSite c f).hostReqs = s.hostReqs := rfl
@[simp] theorem State.onSite_nextReq (c : Nat) (f : Site → Site) : (s.onSite c f).nextReq = s.nextReq := rfl
@[simp] theorem State.onSite_pft (c : Nat) (f : Site → Site) : (s.onSite c f).pft = s.pft := rfl
@[simp] theorem State.onSite_pftQueue (c : Nat) (f : Site → Site) : (s.onSite c f).pftQueue = s.pftQueue := rfl
@[simp] theorem State.onSite_pftSend (c : Nat) (f : Site → Site) : (s.onSite c f).pftSend = s.pftSend := rfl
@[simp] theorem State.onSite_pftAt (c : Nat) (f : Site → Site) : (s.onSite c f).pftAt = s.pftAt := rfl
@[simp] theorem State.onSite_invs (c : Nat) (f : Site → Site) : (s.onSite c f).invs = s.invs := rfl
@[simp] theorem State.onSite_links (c : Nat) (f : Site → Site) : (s.onSite c f).links = s.links := rfl
@[simp] theorem State.onSite_netBufs (c : Nat) (f : Site → Site) : (s.onSite c f).netBufs = s.netBufs := rfl
@[simp] theorem State.onSite_tags (c : Nat) (f : Site → Site) : (s.onSite c f).tags = s.tags := rfl
@[simp] theorem State.onSite_owed (c : Nat) (f : Site → Site) : (s.onSite c f).owed = s.owed := rfl
@[simp] theorem State.onSite_ctlOut (c : Nat) (f : Site → Site) : (s.onSite c f).ctlOut = s.ctlOut := rfl
@[simp] theorem State.onSite_whFlits (c : Nat) (f : Site → Site) : (s.onSite c f).whFlits = s.whFlits := rfl
@[simp] theorem State.onSite_pools (c : Nat) (f : Site → Site) : (s.onSite c f).pools = s.pools := rfl
@[simp] theorem State.onSite_mods (c : Nat) (f : Site → Site) : (s.onSite c f).mods = s.mods := rfl
@[simp] theorem State.onSite_bdls (c : Nat) (f : Site → Site) : (s.onSite c f).bdls = s.bdls := rfl
@[simp] theorem State.onSite_hcfg (c : Nat) (f : Site → Site) : (s.onSite c f).hcfg = s.hcfg := rfl
@[simp] theorem State.onSite_streams (c : Nat) (f : Site → Site) : (s.onSite c f).streams = s.streams := rfl
@[simp] theorem State.onSite_doe (c : Nat) (f : Site → Site) : (s.onSite c f).doe = s.doe := rfl
@[simp] theorem State.onSite_spdm (c : Nat) (f : Site → Site) : (s.onSite c f).spdm = s.spdm := rfl
@[simp] theorem State.onSite_sessions (c : Nat) (f : Site → Site) : (s.onSite c f).sessions = s.sessions := rfl
@[simp] theorem State.onSite_ports (c : Nat) (f : Site → Site) : (s.onSite c f).ports = s.ports := rfl
@[simp] theorem State.onSite_clOps (c : Nat) (f : Site → Site) : (s.onSite c f).clOps = s.clOps := rfl
@[simp] theorem State.onSite_colls (c : Nat) (f : Site → Site) : (s.onSite c f).colls = s.colls := rfl
@[simp] theorem State.onSite_readies (c : Nat) (f : Site → Site) : (s.onSite c f).readies = s.readies := rfl
@[simp] theorem State.onSite_aborts (c : Nat) (f : Site → Site) : (s.onSite c f).aborts = s.aborts := rfl
@[simp] theorem State.onSite_held (c : Nat) (f : Site → Site) : (s.onSite c f).held = s.held := rfl
@[simp] theorem State.onSite_otp (c : Nat) (f : Site → Site) : (s.onSite c f).otp = s.otp := rfl
@[simp] theorem State.onSite_hw (c : Nat) (f : Site → Site) : (s.onSite c f).hw = s.hw := rfl
@[simp] theorem State.onSite_mbx (c : Nat) (f : Site → Site) : (s.onSite c f).mbx = s.mbx := rfl
@[simp] theorem State.onSite_flash (c : Nat) (f : Site → Site) : (s.onSite c f).flash = s.flash := rfl
@[simp] theorem State.onSite_sset0 (c : Nat) (f : Site → Site) : (s.onSite c f).sset0 = s.sset0 := rfl
@[simp] theorem State.onSite_sset1 (c : Nat) (f : Site → Site) : (s.onSite c f).sset1 = s.sset1 := rfl
@[simp] theorem State.onSite_saved (c : Nat) (f : Site → Site) : (s.onSite c f).saved = s.saved := rfl
@[simp] theorem State.onSite_ssetDirty (c : Nat) (f : Site → Site) : (s.onSite c f).ssetDirty = s.ssetDirty := rfl
@[simp] theorem State.onSite_image (c : Nat) (f : Site → Site) : (s.onSite c f).image = s.image := rfl
@[simp] theorem State.onSite_bb (c : Nat) (f : Site → Site) : (s.onSite c f).bb = s.bb := rfl
@[simp] theorem State.onSite_tls (c : Nat) (f : Site → Site) : (s.onSite c f).tls = s.tls := rfl
@[simp] theorem State.onSite_power (c : Nat) (f : Site → Site) : (s.onSite c f).power = s.power := rfl
@[simp] theorem State.onSite_pins (c : Nat) (f : Site → Site) : (s.onSite c f).pins = s.pins := rfl
@[simp] theorem State.onSite_boot (c : Nat) (f : Site → Site) : (s.onSite c f).boot = s.boot := rfl
@[simp] theorem State.onSite_at_reg (c : Nat) (f : Site → Site) (j : Nat) : (s.onSite c f).reg j = s.reg j := rfl
@[simp] theorem State.onSite_at_rd (c : Nat) (f : Site → Site) (g : Fld) : (s.onSite c f).rd g = s.rd g := rfl
@[simp] theorem State.onSite_at_on (c : Nat) (f : Site → Site) (g : Fld) : (s.onSite c f).on g = s.on g := rfl
@[simp] theorem State.onSite_at_ctx (c : Nat) (f : Site → Site) (j : Nat) : (s.onSite c f).ctx j = s.ctx j := rfl
@[simp] theorem State.onSite_at_chan (c : Nat) (f : Site → Site) (j : Nat) : (s.onSite c f).chan j = s.chan j := rfl
@[simp] theorem State.onSite_at_part (c : Nat) (f : Site → Site) (j : Nat) : (s.onSite c f).part j = s.part j := rfl
@[simp] theorem State.onSite_at_tile (c : Nat) (f : Site → Site) (j : Nat) : (s.onSite c f).tile j = s.tile j := rfl
@[simp] theorem State.onSite_at_group (c : Nat) (f : Site → Site) (j : Nat) : (s.onSite c f).group j = s.group j := rfl
@[simp] theorem State.onSite_at_engine (c : Nat) (f : Site → Site) (j : Nat) : (s.onSite c f).engine j = s.engine j := rfl
@[simp] theorem State.onSite_at_pool (c : Nat) (f : Site → Site) (j : Nat) : (s.onSite c f).pool j = s.pool j := rfl
@[simp] theorem State.onSite_at_slot (c : Nat) (f : Site → Site) (p j : Nat) : (s.onSite c f).slot p j = s.slot p j := rfl
@[simp] theorem State.onSite_at_mod (c : Nat) (f : Site → Site) (j : Nat) : (s.onSite c f).mod j = s.mod j := rfl
@[simp] theorem State.onSite_at_bdl (c : Nat) (f : Site → Site) (j : Nat) : (s.onSite c f).bdl j = s.bdl j := rfl
@[simp] theorem State.onSite_at_cfg (c : Nat) (f : Site → Site) (j : Nat) : (s.onSite c f).cfg j = s.cfg j := rfl
@[simp] theorem State.onSite_at_stream (c : Nat) (f : Site → Site) (j : Nat) : (s.onSite c f).stream j = s.stream j := rfl
@[simp] theorem State.onSite_at_port (c : Nat) (f : Site → Site) (j : Nat) : (s.onSite c f).port j = s.port j := rfl
@[simp] theorem State.onSite_at_now (c : Nat) (f : Site → Site) : (s.onSite c f).now = s.now := rfl
@[simp] theorem State.onSite_at_lc (c : Nat) (f : Site → Site) : (s.onSite c f).lc = s.lc := rfl
@[simp] theorem State.onSite_at_linkUp (c : Nat) (f : Site → Site) : (s.onSite c f).linkUp = s.linkUp := rfl
@[simp] theorem State.onSite_at_fnEnabled (c : Nat) (f : Site → Site) (j : Nat) : (s.onSite c f).fnEnabled j = s.fnEnabled j := rfl
@[simp] theorem State.onSite_at_tracing (c : Nat) (f : Site → Site) : (s.onSite c f).tracing = s.tracing := rfl
@[simp] theorem State.onSite_at_free (c : Nat) (f : Site → Site) : (s.onSite c f).free = s.free := rfl
@[simp] theorem State.onSite_same (c : Nat) (f : Site → Site) : (s.onSite c f).site c = f (s.site c) := SMap.get_put_same _ _ _ _
theorem State.onSite_other (c : Nat) (f : Site → Site) {j : Nat} (h : j ≠ c) : (s.onSite c f).site j = s.site j := SMap.get_put_other _ _ _ h

/-! ### onCfg -/

@[simp] theorem State.onCfg_pending (c : Nat) (f : FnCfg → FnCfg) : (s.onCfg c f).pending = s.pending := rfl
@[simp] theorem State.onCfg_outbox (c : Nat) (f : FnCfg → FnCfg) : (s.onCfg c f).outbox = s.outbox := rfl
@[simp] theorem State.onCfg_freeCtr (c : Nat) (f : FnCfg → FnCfg) : (s.onCfg c f).freeCtr = s.freeCtr := rfl
@[simp] theorem State.onCfg_spindle (c : Nat) (f : FnCfg → FnCfg) : (s.onCfg c f).spindle = s.spindle := rfl
@[simp] theorem State.onCfg_regs (c : Nat) (f : FnCfg → FnCfg) : (s.onCfg c f).regs = s.regs := rfl
@[simp] theorem State.onCfg_devMem (c : Nat) (f : FnCfg → FnCfg) : (s.onCfg c f).devMem = s.devMem := rfl
@[simp] theorem State.onCfg_ueMarks (c : Nat) (f : FnCfg → FnCfg) : (s.onCfg c f).ueMarks = s.ueMarks := rfl
@[simp] theorem State.onCfg_chans (c : Nat) (f : FnCfg → FnCfg) : (s.onCfg c f).chans = s.chans := rfl
@[simp] theorem State.onCfg_stretchAt (c : Nat) (f : FnCfg → FnCfg) : (s.onCfg c f).stretchAt = s.stretchAt := rfl
@[simp] theorem State.onCfg_buckets (c : Nat) (f : FnCfg → FnCfg) : (s.onCfg c f).buckets = s.buckets := rfl
@[simp] theorem State.onCfg_waiting (c : Nat) (f : FnCfg → FnCfg) : (s.onCfg c f).waiting = s.waiting := rfl
@[simp] theorem State.onCfg_ctxs (c : Nat) (f : FnCfg → FnCfg) : (s.onCfg c f).ctxs = s.ctxs := rfl
@[simp] theorem State.onCfg_parts (c : Nat) (f : FnCfg → FnCfg) : (s.onCfg c f).parts = s.parts := rfl
@[simp] theorem State.onCfg_tiles (c : Nat) (f : FnCfg → FnCfg) : (s.onCfg c f).tiles = s.tiles := rfl
@[simp] theorem State.onCfg_groups (c : Nat) (f : FnCfg → FnCfg) : (s.onCfg c f).groups = s.groups := rfl
@[simp] theorem State.onCfg_engines (c : Nat) (f : FnCfg → FnCfg) : (s.onCfg c f).engines = s.engines := rfl
@[simp] theorem State.onCfg_atsReqs (c : Nat) (f : FnCfg → FnCfg) : (s.onCfg c f).atsReqs = s.atsReqs := rfl
@[simp] theorem State.onCfg_hostReqs (c : Nat) (f : FnCfg → FnCfg) : (s.onCfg c f).hostReqs = s.hostReqs := rfl
@[simp] theorem State.onCfg_nextReq (c : Nat) (f : FnCfg → FnCfg) : (s.onCfg c f).nextReq = s.nextReq := rfl
@[simp] theorem State.onCfg_pft (c : Nat) (f : FnCfg → FnCfg) : (s.onCfg c f).pft = s.pft := rfl
@[simp] theorem State.onCfg_pftQueue (c : Nat) (f : FnCfg → FnCfg) : (s.onCfg c f).pftQueue = s.pftQueue := rfl
@[simp] theorem State.onCfg_pftSend (c : Nat) (f : FnCfg → FnCfg) : (s.onCfg c f).pftSend = s.pftSend := rfl
@[simp] theorem State.onCfg_pftAt (c : Nat) (f : FnCfg → FnCfg) : (s.onCfg c f).pftAt = s.pftAt := rfl
@[simp] theorem State.onCfg_invs (c : Nat) (f : FnCfg → FnCfg) : (s.onCfg c f).invs = s.invs := rfl
@[simp] theorem State.onCfg_links (c : Nat) (f : FnCfg → FnCfg) : (s.onCfg c f).links = s.links := rfl
@[simp] theorem State.onCfg_netBufs (c : Nat) (f : FnCfg → FnCfg) : (s.onCfg c f).netBufs = s.netBufs := rfl
@[simp] theorem State.onCfg_tags (c : Nat) (f : FnCfg → FnCfg) : (s.onCfg c f).tags = s.tags := rfl
@[simp] theorem State.onCfg_owed (c : Nat) (f : FnCfg → FnCfg) : (s.onCfg c f).owed = s.owed := rfl
@[simp] theorem State.onCfg_ctlOut (c : Nat) (f : FnCfg → FnCfg) : (s.onCfg c f).ctlOut = s.ctlOut := rfl
@[simp] theorem State.onCfg_whFlits (c : Nat) (f : FnCfg → FnCfg) : (s.onCfg c f).whFlits = s.whFlits := rfl
@[simp] theorem State.onCfg_pools (c : Nat) (f : FnCfg → FnCfg) : (s.onCfg c f).pools = s.pools := rfl
@[simp] theorem State.onCfg_mods (c : Nat) (f : FnCfg → FnCfg) : (s.onCfg c f).mods = s.mods := rfl
@[simp] theorem State.onCfg_bdls (c : Nat) (f : FnCfg → FnCfg) : (s.onCfg c f).bdls = s.bdls := rfl
@[simp] theorem State.onCfg_sites (c : Nat) (f : FnCfg → FnCfg) : (s.onCfg c f).sites = s.sites := rfl
@[simp] theorem State.onCfg_streams (c : Nat) (f : FnCfg → FnCfg) : (s.onCfg c f).streams = s.streams := rfl
@[simp] theorem State.onCfg_doe (c : Nat) (f : FnCfg → FnCfg) : (s.onCfg c f).doe = s.doe := rfl
@[simp] theorem State.onCfg_spdm (c : Nat) (f : FnCfg → FnCfg) : (s.onCfg c f).spdm = s.spdm := rfl
@[simp] theorem State.onCfg_sessions (c : Nat) (f : FnCfg → FnCfg) : (s.onCfg c f).sessions = s.sessions := rfl
@[simp] theorem State.onCfg_ports (c : Nat) (f : FnCfg → FnCfg) : (s.onCfg c f).ports = s.ports := rfl
@[simp] theorem State.onCfg_clOps (c : Nat) (f : FnCfg → FnCfg) : (s.onCfg c f).clOps = s.clOps := rfl
@[simp] theorem State.onCfg_colls (c : Nat) (f : FnCfg → FnCfg) : (s.onCfg c f).colls = s.colls := rfl
@[simp] theorem State.onCfg_readies (c : Nat) (f : FnCfg → FnCfg) : (s.onCfg c f).readies = s.readies := rfl
@[simp] theorem State.onCfg_aborts (c : Nat) (f : FnCfg → FnCfg) : (s.onCfg c f).aborts = s.aborts := rfl
@[simp] theorem State.onCfg_held (c : Nat) (f : FnCfg → FnCfg) : (s.onCfg c f).held = s.held := rfl
@[simp] theorem State.onCfg_otp (c : Nat) (f : FnCfg → FnCfg) : (s.onCfg c f).otp = s.otp := rfl
@[simp] theorem State.onCfg_hw (c : Nat) (f : FnCfg → FnCfg) : (s.onCfg c f).hw = s.hw := rfl
@[simp] theorem State.onCfg_mbx (c : Nat) (f : FnCfg → FnCfg) : (s.onCfg c f).mbx = s.mbx := rfl
@[simp] theorem State.onCfg_flash (c : Nat) (f : FnCfg → FnCfg) : (s.onCfg c f).flash = s.flash := rfl
@[simp] theorem State.onCfg_sset0 (c : Nat) (f : FnCfg → FnCfg) : (s.onCfg c f).sset0 = s.sset0 := rfl
@[simp] theorem State.onCfg_sset1 (c : Nat) (f : FnCfg → FnCfg) : (s.onCfg c f).sset1 = s.sset1 := rfl
@[simp] theorem State.onCfg_saved (c : Nat) (f : FnCfg → FnCfg) : (s.onCfg c f).saved = s.saved := rfl
@[simp] theorem State.onCfg_ssetDirty (c : Nat) (f : FnCfg → FnCfg) : (s.onCfg c f).ssetDirty = s.ssetDirty := rfl
@[simp] theorem State.onCfg_image (c : Nat) (f : FnCfg → FnCfg) : (s.onCfg c f).image = s.image := rfl
@[simp] theorem State.onCfg_bb (c : Nat) (f : FnCfg → FnCfg) : (s.onCfg c f).bb = s.bb := rfl
@[simp] theorem State.onCfg_tls (c : Nat) (f : FnCfg → FnCfg) : (s.onCfg c f).tls = s.tls := rfl
@[simp] theorem State.onCfg_power (c : Nat) (f : FnCfg → FnCfg) : (s.onCfg c f).power = s.power := rfl
@[simp] theorem State.onCfg_pins (c : Nat) (f : FnCfg → FnCfg) : (s.onCfg c f).pins = s.pins := rfl
@[simp] theorem State.onCfg_boot (c : Nat) (f : FnCfg → FnCfg) : (s.onCfg c f).boot = s.boot := rfl
@[simp] theorem State.onCfg_at_reg (c : Nat) (f : FnCfg → FnCfg) (j : Nat) : (s.onCfg c f).reg j = s.reg j := rfl
@[simp] theorem State.onCfg_at_rd (c : Nat) (f : FnCfg → FnCfg) (g : Fld) : (s.onCfg c f).rd g = s.rd g := rfl
@[simp] theorem State.onCfg_at_on (c : Nat) (f : FnCfg → FnCfg) (g : Fld) : (s.onCfg c f).on g = s.on g := rfl
@[simp] theorem State.onCfg_at_ctx (c : Nat) (f : FnCfg → FnCfg) (j : Nat) : (s.onCfg c f).ctx j = s.ctx j := rfl
@[simp] theorem State.onCfg_at_chan (c : Nat) (f : FnCfg → FnCfg) (j : Nat) : (s.onCfg c f).chan j = s.chan j := rfl
@[simp] theorem State.onCfg_at_part (c : Nat) (f : FnCfg → FnCfg) (j : Nat) : (s.onCfg c f).part j = s.part j := rfl
@[simp] theorem State.onCfg_at_tile (c : Nat) (f : FnCfg → FnCfg) (j : Nat) : (s.onCfg c f).tile j = s.tile j := rfl
@[simp] theorem State.onCfg_at_group (c : Nat) (f : FnCfg → FnCfg) (j : Nat) : (s.onCfg c f).group j = s.group j := rfl
@[simp] theorem State.onCfg_at_engine (c : Nat) (f : FnCfg → FnCfg) (j : Nat) : (s.onCfg c f).engine j = s.engine j := rfl
@[simp] theorem State.onCfg_at_pool (c : Nat) (f : FnCfg → FnCfg) (j : Nat) : (s.onCfg c f).pool j = s.pool j := rfl
@[simp] theorem State.onCfg_at_slot (c : Nat) (f : FnCfg → FnCfg) (p j : Nat) : (s.onCfg c f).slot p j = s.slot p j := rfl
@[simp] theorem State.onCfg_at_mod (c : Nat) (f : FnCfg → FnCfg) (j : Nat) : (s.onCfg c f).mod j = s.mod j := rfl
@[simp] theorem State.onCfg_at_bdl (c : Nat) (f : FnCfg → FnCfg) (j : Nat) : (s.onCfg c f).bdl j = s.bdl j := rfl
@[simp] theorem State.onCfg_at_site (c : Nat) (f : FnCfg → FnCfg) (j : Nat) : (s.onCfg c f).site j = s.site j := rfl
@[simp] theorem State.onCfg_at_stream (c : Nat) (f : FnCfg → FnCfg) (j : Nat) : (s.onCfg c f).stream j = s.stream j := rfl
@[simp] theorem State.onCfg_at_port (c : Nat) (f : FnCfg → FnCfg) (j : Nat) : (s.onCfg c f).port j = s.port j := rfl
@[simp] theorem State.onCfg_at_now (c : Nat) (f : FnCfg → FnCfg) : (s.onCfg c f).now = s.now := rfl
@[simp] theorem State.onCfg_at_lc (c : Nat) (f : FnCfg → FnCfg) : (s.onCfg c f).lc = s.lc := rfl
@[simp] theorem State.onCfg_at_linkUp (c : Nat) (f : FnCfg → FnCfg) : (s.onCfg c f).linkUp = s.linkUp := rfl
@[simp] theorem State.onCfg_at_tracing (c : Nat) (f : FnCfg → FnCfg) : (s.onCfg c f).tracing = s.tracing := rfl
@[simp] theorem State.onCfg_at_free (c : Nat) (f : FnCfg → FnCfg) : (s.onCfg c f).free = s.free := rfl
@[simp] theorem State.onCfg_same (c : Nat) (f : FnCfg → FnCfg) : (s.onCfg c f).cfg c = f (s.cfg c) := SMap.get_put_same _ _ _ _
theorem State.onCfg_other (c : Nat) (f : FnCfg → FnCfg) {j : Nat} (h : j ≠ c) : (s.onCfg c f).cfg j = s.cfg j := SMap.get_put_other _ _ _ h

/-! ### onStream -/

@[simp] theorem State.onStream_pending (c : Nat) (f : Stream → Stream) : (s.onStream c f).pending = s.pending := rfl
@[simp] theorem State.onStream_outbox (c : Nat) (f : Stream → Stream) : (s.onStream c f).outbox = s.outbox := rfl
@[simp] theorem State.onStream_freeCtr (c : Nat) (f : Stream → Stream) : (s.onStream c f).freeCtr = s.freeCtr := rfl
@[simp] theorem State.onStream_spindle (c : Nat) (f : Stream → Stream) : (s.onStream c f).spindle = s.spindle := rfl
@[simp] theorem State.onStream_regs (c : Nat) (f : Stream → Stream) : (s.onStream c f).regs = s.regs := rfl
@[simp] theorem State.onStream_devMem (c : Nat) (f : Stream → Stream) : (s.onStream c f).devMem = s.devMem := rfl
@[simp] theorem State.onStream_ueMarks (c : Nat) (f : Stream → Stream) : (s.onStream c f).ueMarks = s.ueMarks := rfl
@[simp] theorem State.onStream_chans (c : Nat) (f : Stream → Stream) : (s.onStream c f).chans = s.chans := rfl
@[simp] theorem State.onStream_stretchAt (c : Nat) (f : Stream → Stream) : (s.onStream c f).stretchAt = s.stretchAt := rfl
@[simp] theorem State.onStream_buckets (c : Nat) (f : Stream → Stream) : (s.onStream c f).buckets = s.buckets := rfl
@[simp] theorem State.onStream_waiting (c : Nat) (f : Stream → Stream) : (s.onStream c f).waiting = s.waiting := rfl
@[simp] theorem State.onStream_ctxs (c : Nat) (f : Stream → Stream) : (s.onStream c f).ctxs = s.ctxs := rfl
@[simp] theorem State.onStream_parts (c : Nat) (f : Stream → Stream) : (s.onStream c f).parts = s.parts := rfl
@[simp] theorem State.onStream_tiles (c : Nat) (f : Stream → Stream) : (s.onStream c f).tiles = s.tiles := rfl
@[simp] theorem State.onStream_groups (c : Nat) (f : Stream → Stream) : (s.onStream c f).groups = s.groups := rfl
@[simp] theorem State.onStream_engines (c : Nat) (f : Stream → Stream) : (s.onStream c f).engines = s.engines := rfl
@[simp] theorem State.onStream_atsReqs (c : Nat) (f : Stream → Stream) : (s.onStream c f).atsReqs = s.atsReqs := rfl
@[simp] theorem State.onStream_hostReqs (c : Nat) (f : Stream → Stream) : (s.onStream c f).hostReqs = s.hostReqs := rfl
@[simp] theorem State.onStream_nextReq (c : Nat) (f : Stream → Stream) : (s.onStream c f).nextReq = s.nextReq := rfl
@[simp] theorem State.onStream_pft (c : Nat) (f : Stream → Stream) : (s.onStream c f).pft = s.pft := rfl
@[simp] theorem State.onStream_pftQueue (c : Nat) (f : Stream → Stream) : (s.onStream c f).pftQueue = s.pftQueue := rfl
@[simp] theorem State.onStream_pftSend (c : Nat) (f : Stream → Stream) : (s.onStream c f).pftSend = s.pftSend := rfl
@[simp] theorem State.onStream_pftAt (c : Nat) (f : Stream → Stream) : (s.onStream c f).pftAt = s.pftAt := rfl
@[simp] theorem State.onStream_invs (c : Nat) (f : Stream → Stream) : (s.onStream c f).invs = s.invs := rfl
@[simp] theorem State.onStream_links (c : Nat) (f : Stream → Stream) : (s.onStream c f).links = s.links := rfl
@[simp] theorem State.onStream_netBufs (c : Nat) (f : Stream → Stream) : (s.onStream c f).netBufs = s.netBufs := rfl
@[simp] theorem State.onStream_tags (c : Nat) (f : Stream → Stream) : (s.onStream c f).tags = s.tags := rfl
@[simp] theorem State.onStream_owed (c : Nat) (f : Stream → Stream) : (s.onStream c f).owed = s.owed := rfl
@[simp] theorem State.onStream_ctlOut (c : Nat) (f : Stream → Stream) : (s.onStream c f).ctlOut = s.ctlOut := rfl
@[simp] theorem State.onStream_whFlits (c : Nat) (f : Stream → Stream) : (s.onStream c f).whFlits = s.whFlits := rfl
@[simp] theorem State.onStream_pools (c : Nat) (f : Stream → Stream) : (s.onStream c f).pools = s.pools := rfl
@[simp] theorem State.onStream_mods (c : Nat) (f : Stream → Stream) : (s.onStream c f).mods = s.mods := rfl
@[simp] theorem State.onStream_bdls (c : Nat) (f : Stream → Stream) : (s.onStream c f).bdls = s.bdls := rfl
@[simp] theorem State.onStream_sites (c : Nat) (f : Stream → Stream) : (s.onStream c f).sites = s.sites := rfl
@[simp] theorem State.onStream_hcfg (c : Nat) (f : Stream → Stream) : (s.onStream c f).hcfg = s.hcfg := rfl
@[simp] theorem State.onStream_doe (c : Nat) (f : Stream → Stream) : (s.onStream c f).doe = s.doe := rfl
@[simp] theorem State.onStream_spdm (c : Nat) (f : Stream → Stream) : (s.onStream c f).spdm = s.spdm := rfl
@[simp] theorem State.onStream_sessions (c : Nat) (f : Stream → Stream) : (s.onStream c f).sessions = s.sessions := rfl
@[simp] theorem State.onStream_ports (c : Nat) (f : Stream → Stream) : (s.onStream c f).ports = s.ports := rfl
@[simp] theorem State.onStream_clOps (c : Nat) (f : Stream → Stream) : (s.onStream c f).clOps = s.clOps := rfl
@[simp] theorem State.onStream_colls (c : Nat) (f : Stream → Stream) : (s.onStream c f).colls = s.colls := rfl
@[simp] theorem State.onStream_readies (c : Nat) (f : Stream → Stream) : (s.onStream c f).readies = s.readies := rfl
@[simp] theorem State.onStream_aborts (c : Nat) (f : Stream → Stream) : (s.onStream c f).aborts = s.aborts := rfl
@[simp] theorem State.onStream_held (c : Nat) (f : Stream → Stream) : (s.onStream c f).held = s.held := rfl
@[simp] theorem State.onStream_otp (c : Nat) (f : Stream → Stream) : (s.onStream c f).otp = s.otp := rfl
@[simp] theorem State.onStream_hw (c : Nat) (f : Stream → Stream) : (s.onStream c f).hw = s.hw := rfl
@[simp] theorem State.onStream_mbx (c : Nat) (f : Stream → Stream) : (s.onStream c f).mbx = s.mbx := rfl
@[simp] theorem State.onStream_flash (c : Nat) (f : Stream → Stream) : (s.onStream c f).flash = s.flash := rfl
@[simp] theorem State.onStream_sset0 (c : Nat) (f : Stream → Stream) : (s.onStream c f).sset0 = s.sset0 := rfl
@[simp] theorem State.onStream_sset1 (c : Nat) (f : Stream → Stream) : (s.onStream c f).sset1 = s.sset1 := rfl
@[simp] theorem State.onStream_saved (c : Nat) (f : Stream → Stream) : (s.onStream c f).saved = s.saved := rfl
@[simp] theorem State.onStream_ssetDirty (c : Nat) (f : Stream → Stream) : (s.onStream c f).ssetDirty = s.ssetDirty := rfl
@[simp] theorem State.onStream_image (c : Nat) (f : Stream → Stream) : (s.onStream c f).image = s.image := rfl
@[simp] theorem State.onStream_bb (c : Nat) (f : Stream → Stream) : (s.onStream c f).bb = s.bb := rfl
@[simp] theorem State.onStream_tls (c : Nat) (f : Stream → Stream) : (s.onStream c f).tls = s.tls := rfl
@[simp] theorem State.onStream_power (c : Nat) (f : Stream → Stream) : (s.onStream c f).power = s.power := rfl
@[simp] theorem State.onStream_pins (c : Nat) (f : Stream → Stream) : (s.onStream c f).pins = s.pins := rfl
@[simp] theorem State.onStream_boot (c : Nat) (f : Stream → Stream) : (s.onStream c f).boot = s.boot := rfl
@[simp] theorem State.onStream_at_reg (c : Nat) (f : Stream → Stream) (j : Nat) : (s.onStream c f).reg j = s.reg j := rfl
@[simp] theorem State.onStream_at_rd (c : Nat) (f : Stream → Stream) (g : Fld) : (s.onStream c f).rd g = s.rd g := rfl
@[simp] theorem State.onStream_at_on (c : Nat) (f : Stream → Stream) (g : Fld) : (s.onStream c f).on g = s.on g := rfl
@[simp] theorem State.onStream_at_ctx (c : Nat) (f : Stream → Stream) (j : Nat) : (s.onStream c f).ctx j = s.ctx j := rfl
@[simp] theorem State.onStream_at_chan (c : Nat) (f : Stream → Stream) (j : Nat) : (s.onStream c f).chan j = s.chan j := rfl
@[simp] theorem State.onStream_at_part (c : Nat) (f : Stream → Stream) (j : Nat) : (s.onStream c f).part j = s.part j := rfl
@[simp] theorem State.onStream_at_tile (c : Nat) (f : Stream → Stream) (j : Nat) : (s.onStream c f).tile j = s.tile j := rfl
@[simp] theorem State.onStream_at_group (c : Nat) (f : Stream → Stream) (j : Nat) : (s.onStream c f).group j = s.group j := rfl
@[simp] theorem State.onStream_at_engine (c : Nat) (f : Stream → Stream) (j : Nat) : (s.onStream c f).engine j = s.engine j := rfl
@[simp] theorem State.onStream_at_pool (c : Nat) (f : Stream → Stream) (j : Nat) : (s.onStream c f).pool j = s.pool j := rfl
@[simp] theorem State.onStream_at_slot (c : Nat) (f : Stream → Stream) (p j : Nat) : (s.onStream c f).slot p j = s.slot p j := rfl
@[simp] theorem State.onStream_at_mod (c : Nat) (f : Stream → Stream) (j : Nat) : (s.onStream c f).mod j = s.mod j := rfl
@[simp] theorem State.onStream_at_bdl (c : Nat) (f : Stream → Stream) (j : Nat) : (s.onStream c f).bdl j = s.bdl j := rfl
@[simp] theorem State.onStream_at_site (c : Nat) (f : Stream → Stream) (j : Nat) : (s.onStream c f).site j = s.site j := rfl
@[simp] theorem State.onStream_at_cfg (c : Nat) (f : Stream → Stream) (j : Nat) : (s.onStream c f).cfg j = s.cfg j := rfl
@[simp] theorem State.onStream_at_port (c : Nat) (f : Stream → Stream) (j : Nat) : (s.onStream c f).port j = s.port j := rfl
@[simp] theorem State.onStream_at_now (c : Nat) (f : Stream → Stream) : (s.onStream c f).now = s.now := rfl
@[simp] theorem State.onStream_at_lc (c : Nat) (f : Stream → Stream) : (s.onStream c f).lc = s.lc := rfl
@[simp] theorem State.onStream_at_linkUp (c : Nat) (f : Stream → Stream) : (s.onStream c f).linkUp = s.linkUp := rfl
@[simp] theorem State.onStream_at_fnEnabled (c : Nat) (f : Stream → Stream) (j : Nat) : (s.onStream c f).fnEnabled j = s.fnEnabled j := rfl
@[simp] theorem State.onStream_at_tracing (c : Nat) (f : Stream → Stream) : (s.onStream c f).tracing = s.tracing := rfl
@[simp] theorem State.onStream_at_free (c : Nat) (f : Stream → Stream) : (s.onStream c f).free = s.free := rfl
@[simp] theorem State.onStream_same (c : Nat) (f : Stream → Stream) : (s.onStream c f).stream c = f (s.stream c) := SMap.get_put_same _ _ _ _
theorem State.onStream_other (c : Nat) (f : Stream → Stream) {j : Nat} (h : j ≠ c) : (s.onStream c f).stream j = s.stream j := SMap.get_put_other _ _ _ h

/-! ### onPort -/

@[simp] theorem State.onPort_pending (c : Nat) (f : Port → Port) : (s.onPort c f).pending = s.pending := rfl
@[simp] theorem State.onPort_outbox (c : Nat) (f : Port → Port) : (s.onPort c f).outbox = s.outbox := rfl
@[simp] theorem State.onPort_freeCtr (c : Nat) (f : Port → Port) : (s.onPort c f).freeCtr = s.freeCtr := rfl
@[simp] theorem State.onPort_spindle (c : Nat) (f : Port → Port) : (s.onPort c f).spindle = s.spindle := rfl
@[simp] theorem State.onPort_regs (c : Nat) (f : Port → Port) : (s.onPort c f).regs = s.regs := rfl
@[simp] theorem State.onPort_devMem (c : Nat) (f : Port → Port) : (s.onPort c f).devMem = s.devMem := rfl
@[simp] theorem State.onPort_ueMarks (c : Nat) (f : Port → Port) : (s.onPort c f).ueMarks = s.ueMarks := rfl
@[simp] theorem State.onPort_chans (c : Nat) (f : Port → Port) : (s.onPort c f).chans = s.chans := rfl
@[simp] theorem State.onPort_stretchAt (c : Nat) (f : Port → Port) : (s.onPort c f).stretchAt = s.stretchAt := rfl
@[simp] theorem State.onPort_buckets (c : Nat) (f : Port → Port) : (s.onPort c f).buckets = s.buckets := rfl
@[simp] theorem State.onPort_waiting (c : Nat) (f : Port → Port) : (s.onPort c f).waiting = s.waiting := rfl
@[simp] theorem State.onPort_ctxs (c : Nat) (f : Port → Port) : (s.onPort c f).ctxs = s.ctxs := rfl
@[simp] theorem State.onPort_parts (c : Nat) (f : Port → Port) : (s.onPort c f).parts = s.parts := rfl
@[simp] theorem State.onPort_tiles (c : Nat) (f : Port → Port) : (s.onPort c f).tiles = s.tiles := rfl
@[simp] theorem State.onPort_groups (c : Nat) (f : Port → Port) : (s.onPort c f).groups = s.groups := rfl
@[simp] theorem State.onPort_engines (c : Nat) (f : Port → Port) : (s.onPort c f).engines = s.engines := rfl
@[simp] theorem State.onPort_atsReqs (c : Nat) (f : Port → Port) : (s.onPort c f).atsReqs = s.atsReqs := rfl
@[simp] theorem State.onPort_hostReqs (c : Nat) (f : Port → Port) : (s.onPort c f).hostReqs = s.hostReqs := rfl
@[simp] theorem State.onPort_nextReq (c : Nat) (f : Port → Port) : (s.onPort c f).nextReq = s.nextReq := rfl
@[simp] theorem State.onPort_pft (c : Nat) (f : Port → Port) : (s.onPort c f).pft = s.pft := rfl
@[simp] theorem State.onPort_pftQueue (c : Nat) (f : Port → Port) : (s.onPort c f).pftQueue = s.pftQueue := rfl
@[simp] theorem State.onPort_pftSend (c : Nat) (f : Port → Port) : (s.onPort c f).pftSend = s.pftSend := rfl
@[simp] theorem State.onPort_pftAt (c : Nat) (f : Port → Port) : (s.onPort c f).pftAt = s.pftAt := rfl
@[simp] theorem State.onPort_invs (c : Nat) (f : Port → Port) : (s.onPort c f).invs = s.invs := rfl
@[simp] theorem State.onPort_links (c : Nat) (f : Port → Port) : (s.onPort c f).links = s.links := rfl
@[simp] theorem State.onPort_netBufs (c : Nat) (f : Port → Port) : (s.onPort c f).netBufs = s.netBufs := rfl
@[simp] theorem State.onPort_tags (c : Nat) (f : Port → Port) : (s.onPort c f).tags = s.tags := rfl
@[simp] theorem State.onPort_owed (c : Nat) (f : Port → Port) : (s.onPort c f).owed = s.owed := rfl
@[simp] theorem State.onPort_ctlOut (c : Nat) (f : Port → Port) : (s.onPort c f).ctlOut = s.ctlOut := rfl
@[simp] theorem State.onPort_whFlits (c : Nat) (f : Port → Port) : (s.onPort c f).whFlits = s.whFlits := rfl
@[simp] theorem State.onPort_pools (c : Nat) (f : Port → Port) : (s.onPort c f).pools = s.pools := rfl
@[simp] theorem State.onPort_mods (c : Nat) (f : Port → Port) : (s.onPort c f).mods = s.mods := rfl
@[simp] theorem State.onPort_bdls (c : Nat) (f : Port → Port) : (s.onPort c f).bdls = s.bdls := rfl
@[simp] theorem State.onPort_sites (c : Nat) (f : Port → Port) : (s.onPort c f).sites = s.sites := rfl
@[simp] theorem State.onPort_hcfg (c : Nat) (f : Port → Port) : (s.onPort c f).hcfg = s.hcfg := rfl
@[simp] theorem State.onPort_streams (c : Nat) (f : Port → Port) : (s.onPort c f).streams = s.streams := rfl
@[simp] theorem State.onPort_doe (c : Nat) (f : Port → Port) : (s.onPort c f).doe = s.doe := rfl
@[simp] theorem State.onPort_spdm (c : Nat) (f : Port → Port) : (s.onPort c f).spdm = s.spdm := rfl
@[simp] theorem State.onPort_sessions (c : Nat) (f : Port → Port) : (s.onPort c f).sessions = s.sessions := rfl
@[simp] theorem State.onPort_clOps (c : Nat) (f : Port → Port) : (s.onPort c f).clOps = s.clOps := rfl
@[simp] theorem State.onPort_colls (c : Nat) (f : Port → Port) : (s.onPort c f).colls = s.colls := rfl
@[simp] theorem State.onPort_readies (c : Nat) (f : Port → Port) : (s.onPort c f).readies = s.readies := rfl
@[simp] theorem State.onPort_aborts (c : Nat) (f : Port → Port) : (s.onPort c f).aborts = s.aborts := rfl
@[simp] theorem State.onPort_held (c : Nat) (f : Port → Port) : (s.onPort c f).held = s.held := rfl
@[simp] theorem State.onPort_otp (c : Nat) (f : Port → Port) : (s.onPort c f).otp = s.otp := rfl
@[simp] theorem State.onPort_hw (c : Nat) (f : Port → Port) : (s.onPort c f).hw = s.hw := rfl
@[simp] theorem State.onPort_mbx (c : Nat) (f : Port → Port) : (s.onPort c f).mbx = s.mbx := rfl
@[simp] theorem State.onPort_flash (c : Nat) (f : Port → Port) : (s.onPort c f).flash = s.flash := rfl
@[simp] theorem State.onPort_sset0 (c : Nat) (f : Port → Port) : (s.onPort c f).sset0 = s.sset0 := rfl
@[simp] theorem State.onPort_sset1 (c : Nat) (f : Port → Port) : (s.onPort c f).sset1 = s.sset1 := rfl
@[simp] theorem State.onPort_saved (c : Nat) (f : Port → Port) : (s.onPort c f).saved = s.saved := rfl
@[simp] theorem State.onPort_ssetDirty (c : Nat) (f : Port → Port) : (s.onPort c f).ssetDirty = s.ssetDirty := rfl
@[simp] theorem State.onPort_image (c : Nat) (f : Port → Port) : (s.onPort c f).image = s.image := rfl
@[simp] theorem State.onPort_bb (c : Nat) (f : Port → Port) : (s.onPort c f).bb = s.bb := rfl
@[simp] theorem State.onPort_tls (c : Nat) (f : Port → Port) : (s.onPort c f).tls = s.tls := rfl
@[simp] theorem State.onPort_power (c : Nat) (f : Port → Port) : (s.onPort c f).power = s.power := rfl
@[simp] theorem State.onPort_pins (c : Nat) (f : Port → Port) : (s.onPort c f).pins = s.pins := rfl
@[simp] theorem State.onPort_boot (c : Nat) (f : Port → Port) : (s.onPort c f).boot = s.boot := rfl
@[simp] theorem State.onPort_at_reg (c : Nat) (f : Port → Port) (j : Nat) : (s.onPort c f).reg j = s.reg j := rfl
@[simp] theorem State.onPort_at_rd (c : Nat) (f : Port → Port) (g : Fld) : (s.onPort c f).rd g = s.rd g := rfl
@[simp] theorem State.onPort_at_on (c : Nat) (f : Port → Port) (g : Fld) : (s.onPort c f).on g = s.on g := rfl
@[simp] theorem State.onPort_at_ctx (c : Nat) (f : Port → Port) (j : Nat) : (s.onPort c f).ctx j = s.ctx j := rfl
@[simp] theorem State.onPort_at_chan (c : Nat) (f : Port → Port) (j : Nat) : (s.onPort c f).chan j = s.chan j := rfl
@[simp] theorem State.onPort_at_part (c : Nat) (f : Port → Port) (j : Nat) : (s.onPort c f).part j = s.part j := rfl
@[simp] theorem State.onPort_at_tile (c : Nat) (f : Port → Port) (j : Nat) : (s.onPort c f).tile j = s.tile j := rfl
@[simp] theorem State.onPort_at_group (c : Nat) (f : Port → Port) (j : Nat) : (s.onPort c f).group j = s.group j := rfl
@[simp] theorem State.onPort_at_engine (c : Nat) (f : Port → Port) (j : Nat) : (s.onPort c f).engine j = s.engine j := rfl
@[simp] theorem State.onPort_at_pool (c : Nat) (f : Port → Port) (j : Nat) : (s.onPort c f).pool j = s.pool j := rfl
@[simp] theorem State.onPort_at_slot (c : Nat) (f : Port → Port) (p j : Nat) : (s.onPort c f).slot p j = s.slot p j := rfl
@[simp] theorem State.onPort_at_mod (c : Nat) (f : Port → Port) (j : Nat) : (s.onPort c f).mod j = s.mod j := rfl
@[simp] theorem State.onPort_at_bdl (c : Nat) (f : Port → Port) (j : Nat) : (s.onPort c f).bdl j = s.bdl j := rfl
@[simp] theorem State.onPort_at_site (c : Nat) (f : Port → Port) (j : Nat) : (s.onPort c f).site j = s.site j := rfl
@[simp] theorem State.onPort_at_cfg (c : Nat) (f : Port → Port) (j : Nat) : (s.onPort c f).cfg j = s.cfg j := rfl
@[simp] theorem State.onPort_at_stream (c : Nat) (f : Port → Port) (j : Nat) : (s.onPort c f).stream j = s.stream j := rfl
@[simp] theorem State.onPort_at_now (c : Nat) (f : Port → Port) : (s.onPort c f).now = s.now := rfl
@[simp] theorem State.onPort_at_lc (c : Nat) (f : Port → Port) : (s.onPort c f).lc = s.lc := rfl
@[simp] theorem State.onPort_at_linkUp (c : Nat) (f : Port → Port) : (s.onPort c f).linkUp = s.linkUp := rfl
@[simp] theorem State.onPort_at_fnEnabled (c : Nat) (f : Port → Port) (j : Nat) : (s.onPort c f).fnEnabled j = s.fnEnabled j := rfl
@[simp] theorem State.onPort_at_tracing (c : Nat) (f : Port → Port) : (s.onPort c f).tracing = s.tracing := rfl
@[simp] theorem State.onPort_at_free (c : Nat) (f : Port → Port) : (s.onPort c f).free = s.free := rfl
@[simp] theorem State.onPort_same (c : Nat) (f : Port → Port) : (s.onPort c f).port c = f (s.port c) := SMap.get_put_same _ _ _ _
theorem State.onPort_other (c : Nat) (f : Port → Port) {j : Nat} (h : j ≠ c) : (s.onPort c f).port j = s.port j := SMap.get_put_other _ _ _ h

/-! ### onBb -/

@[simp] theorem State.onBb_pending (f : BlackBox → BlackBox) : (s.onBb f).pending = s.pending := rfl
@[simp] theorem State.onBb_outbox (f : BlackBox → BlackBox) : (s.onBb f).outbox = s.outbox := rfl
@[simp] theorem State.onBb_freeCtr (f : BlackBox → BlackBox) : (s.onBb f).freeCtr = s.freeCtr := rfl
@[simp] theorem State.onBb_spindle (f : BlackBox → BlackBox) : (s.onBb f).spindle = s.spindle := rfl
@[simp] theorem State.onBb_regs (f : BlackBox → BlackBox) : (s.onBb f).regs = s.regs := rfl
@[simp] theorem State.onBb_devMem (f : BlackBox → BlackBox) : (s.onBb f).devMem = s.devMem := rfl
@[simp] theorem State.onBb_ueMarks (f : BlackBox → BlackBox) : (s.onBb f).ueMarks = s.ueMarks := rfl
@[simp] theorem State.onBb_chans (f : BlackBox → BlackBox) : (s.onBb f).chans = s.chans := rfl
@[simp] theorem State.onBb_stretchAt (f : BlackBox → BlackBox) : (s.onBb f).stretchAt = s.stretchAt := rfl
@[simp] theorem State.onBb_buckets (f : BlackBox → BlackBox) : (s.onBb f).buckets = s.buckets := rfl
@[simp] theorem State.onBb_waiting (f : BlackBox → BlackBox) : (s.onBb f).waiting = s.waiting := rfl
@[simp] theorem State.onBb_ctxs (f : BlackBox → BlackBox) : (s.onBb f).ctxs = s.ctxs := rfl
@[simp] theorem State.onBb_parts (f : BlackBox → BlackBox) : (s.onBb f).parts = s.parts := rfl
@[simp] theorem State.onBb_tiles (f : BlackBox → BlackBox) : (s.onBb f).tiles = s.tiles := rfl
@[simp] theorem State.onBb_groups (f : BlackBox → BlackBox) : (s.onBb f).groups = s.groups := rfl
@[simp] theorem State.onBb_engines (f : BlackBox → BlackBox) : (s.onBb f).engines = s.engines := rfl
@[simp] theorem State.onBb_atsReqs (f : BlackBox → BlackBox) : (s.onBb f).atsReqs = s.atsReqs := rfl
@[simp] theorem State.onBb_hostReqs (f : BlackBox → BlackBox) : (s.onBb f).hostReqs = s.hostReqs := rfl
@[simp] theorem State.onBb_nextReq (f : BlackBox → BlackBox) : (s.onBb f).nextReq = s.nextReq := rfl
@[simp] theorem State.onBb_pft (f : BlackBox → BlackBox) : (s.onBb f).pft = s.pft := rfl
@[simp] theorem State.onBb_pftQueue (f : BlackBox → BlackBox) : (s.onBb f).pftQueue = s.pftQueue := rfl
@[simp] theorem State.onBb_pftSend (f : BlackBox → BlackBox) : (s.onBb f).pftSend = s.pftSend := rfl
@[simp] theorem State.onBb_pftAt (f : BlackBox → BlackBox) : (s.onBb f).pftAt = s.pftAt := rfl
@[simp] theorem State.onBb_invs (f : BlackBox → BlackBox) : (s.onBb f).invs = s.invs := rfl
@[simp] theorem State.onBb_links (f : BlackBox → BlackBox) : (s.onBb f).links = s.links := rfl
@[simp] theorem State.onBb_netBufs (f : BlackBox → BlackBox) : (s.onBb f).netBufs = s.netBufs := rfl
@[simp] theorem State.onBb_tags (f : BlackBox → BlackBox) : (s.onBb f).tags = s.tags := rfl
@[simp] theorem State.onBb_owed (f : BlackBox → BlackBox) : (s.onBb f).owed = s.owed := rfl
@[simp] theorem State.onBb_ctlOut (f : BlackBox → BlackBox) : (s.onBb f).ctlOut = s.ctlOut := rfl
@[simp] theorem State.onBb_whFlits (f : BlackBox → BlackBox) : (s.onBb f).whFlits = s.whFlits := rfl
@[simp] theorem State.onBb_pools (f : BlackBox → BlackBox) : (s.onBb f).pools = s.pools := rfl
@[simp] theorem State.onBb_mods (f : BlackBox → BlackBox) : (s.onBb f).mods = s.mods := rfl
@[simp] theorem State.onBb_bdls (f : BlackBox → BlackBox) : (s.onBb f).bdls = s.bdls := rfl
@[simp] theorem State.onBb_sites (f : BlackBox → BlackBox) : (s.onBb f).sites = s.sites := rfl
@[simp] theorem State.onBb_hcfg (f : BlackBox → BlackBox) : (s.onBb f).hcfg = s.hcfg := rfl
@[simp] theorem State.onBb_streams (f : BlackBox → BlackBox) : (s.onBb f).streams = s.streams := rfl
@[simp] theorem State.onBb_doe (f : BlackBox → BlackBox) : (s.onBb f).doe = s.doe := rfl
@[simp] theorem State.onBb_spdm (f : BlackBox → BlackBox) : (s.onBb f).spdm = s.spdm := rfl
@[simp] theorem State.onBb_sessions (f : BlackBox → BlackBox) : (s.onBb f).sessions = s.sessions := rfl
@[simp] theorem State.onBb_ports (f : BlackBox → BlackBox) : (s.onBb f).ports = s.ports := rfl
@[simp] theorem State.onBb_clOps (f : BlackBox → BlackBox) : (s.onBb f).clOps = s.clOps := rfl
@[simp] theorem State.onBb_colls (f : BlackBox → BlackBox) : (s.onBb f).colls = s.colls := rfl
@[simp] theorem State.onBb_readies (f : BlackBox → BlackBox) : (s.onBb f).readies = s.readies := rfl
@[simp] theorem State.onBb_aborts (f : BlackBox → BlackBox) : (s.onBb f).aborts = s.aborts := rfl
@[simp] theorem State.onBb_held (f : BlackBox → BlackBox) : (s.onBb f).held = s.held := rfl
@[simp] theorem State.onBb_otp (f : BlackBox → BlackBox) : (s.onBb f).otp = s.otp := rfl
@[simp] theorem State.onBb_hw (f : BlackBox → BlackBox) : (s.onBb f).hw = s.hw := rfl
@[simp] theorem State.onBb_mbx (f : BlackBox → BlackBox) : (s.onBb f).mbx = s.mbx := rfl
@[simp] theorem State.onBb_flash (f : BlackBox → BlackBox) : (s.onBb f).flash = s.flash := rfl
@[simp] theorem State.onBb_sset0 (f : BlackBox → BlackBox) : (s.onBb f).sset0 = s.sset0 := rfl
@[simp] theorem State.onBb_sset1 (f : BlackBox → BlackBox) : (s.onBb f).sset1 = s.sset1 := rfl
@[simp] theorem State.onBb_saved (f : BlackBox → BlackBox) : (s.onBb f).saved = s.saved := rfl
@[simp] theorem State.onBb_ssetDirty (f : BlackBox → BlackBox) : (s.onBb f).ssetDirty = s.ssetDirty := rfl
@[simp] theorem State.onBb_image (f : BlackBox → BlackBox) : (s.onBb f).image = s.image := rfl
@[simp] theorem State.onBb_tls (f : BlackBox → BlackBox) : (s.onBb f).tls = s.tls := rfl
@[simp] theorem State.onBb_power (f : BlackBox → BlackBox) : (s.onBb f).power = s.power := rfl
@[simp] theorem State.onBb_pins (f : BlackBox → BlackBox) : (s.onBb f).pins = s.pins := rfl
@[simp] theorem State.onBb_boot (f : BlackBox → BlackBox) : (s.onBb f).boot = s.boot := rfl
@[simp] theorem State.onBb_at_reg (f : BlackBox → BlackBox) (j : Nat) : (s.onBb f).reg j = s.reg j := rfl
@[simp] theorem State.onBb_at_rd (f : BlackBox → BlackBox) (g : Fld) : (s.onBb f).rd g = s.rd g := rfl
@[simp] theorem State.onBb_at_on (f : BlackBox → BlackBox) (g : Fld) : (s.onBb f).on g = s.on g := rfl
@[simp] theorem State.onBb_at_ctx (f : BlackBox → BlackBox) (j : Nat) : (s.onBb f).ctx j = s.ctx j := rfl
@[simp] theorem State.onBb_at_chan (f : BlackBox → BlackBox) (j : Nat) : (s.onBb f).chan j = s.chan j := rfl
@[simp] theorem State.onBb_at_part (f : BlackBox → BlackBox) (j : Nat) : (s.onBb f).part j = s.part j := rfl
@[simp] theorem State.onBb_at_tile (f : BlackBox → BlackBox) (j : Nat) : (s.onBb f).tile j = s.tile j := rfl
@[simp] theorem State.onBb_at_group (f : BlackBox → BlackBox) (j : Nat) : (s.onBb f).group j = s.group j := rfl
@[simp] theorem State.onBb_at_engine (f : BlackBox → BlackBox) (j : Nat) : (s.onBb f).engine j = s.engine j := rfl
@[simp] theorem State.onBb_at_pool (f : BlackBox → BlackBox) (j : Nat) : (s.onBb f).pool j = s.pool j := rfl
@[simp] theorem State.onBb_at_slot (f : BlackBox → BlackBox) (p j : Nat) : (s.onBb f).slot p j = s.slot p j := rfl
@[simp] theorem State.onBb_at_mod (f : BlackBox → BlackBox) (j : Nat) : (s.onBb f).mod j = s.mod j := rfl
@[simp] theorem State.onBb_at_bdl (f : BlackBox → BlackBox) (j : Nat) : (s.onBb f).bdl j = s.bdl j := rfl
@[simp] theorem State.onBb_at_site (f : BlackBox → BlackBox) (j : Nat) : (s.onBb f).site j = s.site j := rfl
@[simp] theorem State.onBb_at_cfg (f : BlackBox → BlackBox) (j : Nat) : (s.onBb f).cfg j = s.cfg j := rfl
@[simp] theorem State.onBb_at_stream (f : BlackBox → BlackBox) (j : Nat) : (s.onBb f).stream j = s.stream j := rfl
@[simp] theorem State.onBb_at_port (f : BlackBox → BlackBox) (j : Nat) : (s.onBb f).port j = s.port j := rfl
@[simp] theorem State.onBb_at_now (f : BlackBox → BlackBox) : (s.onBb f).now = s.now := rfl
@[simp] theorem State.onBb_at_lc (f : BlackBox → BlackBox) : (s.onBb f).lc = s.lc := rfl
@[simp] theorem State.onBb_at_linkUp (f : BlackBox → BlackBox) : (s.onBb f).linkUp = s.linkUp := rfl
@[simp] theorem State.onBb_at_fnEnabled (f : BlackBox → BlackBox) (j : Nat) : (s.onBb f).fnEnabled j = s.fnEnabled j := rfl
@[simp] theorem State.onBb_at_tracing (f : BlackBox → BlackBox) : (s.onBb f).tracing = s.tracing := rfl
@[simp] theorem State.onBb_at_free (f : BlackBox → BlackBox) : (s.onBb f).free = s.free := rfl
@[simp] theorem State.onBb_self (f : BlackBox → BlackBox) : (s.onBb f).bb = f s.bb := rfl

/-! ### onHw -/

@[simp] theorem State.onHw_pending (f : Hw → Hw) : (s.onHw f).pending = s.pending := rfl
@[simp] theorem State.onHw_outbox (f : Hw → Hw) : (s.onHw f).outbox = s.outbox := rfl
@[simp] theorem State.onHw_freeCtr (f : Hw → Hw) : (s.onHw f).freeCtr = s.freeCtr := rfl
@[simp] theorem State.onHw_spindle (f : Hw → Hw) : (s.onHw f).spindle = s.spindle := rfl
@[simp] theorem State.onHw_regs (f : Hw → Hw) : (s.onHw f).regs = s.regs := rfl
@[simp] theorem State.onHw_devMem (f : Hw → Hw) : (s.onHw f).devMem = s.devMem := rfl
@[simp] theorem State.onHw_ueMarks (f : Hw → Hw) : (s.onHw f).ueMarks = s.ueMarks := rfl
@[simp] theorem State.onHw_chans (f : Hw → Hw) : (s.onHw f).chans = s.chans := rfl
@[simp] theorem State.onHw_stretchAt (f : Hw → Hw) : (s.onHw f).stretchAt = s.stretchAt := rfl
@[simp] theorem State.onHw_buckets (f : Hw → Hw) : (s.onHw f).buckets = s.buckets := rfl
@[simp] theorem State.onHw_waiting (f : Hw → Hw) : (s.onHw f).waiting = s.waiting := rfl
@[simp] theorem State.onHw_ctxs (f : Hw → Hw) : (s.onHw f).ctxs = s.ctxs := rfl
@[simp] theorem State.onHw_parts (f : Hw → Hw) : (s.onHw f).parts = s.parts := rfl
@[simp] theorem State.onHw_tiles (f : Hw → Hw) : (s.onHw f).tiles = s.tiles := rfl
@[simp] theorem State.onHw_groups (f : Hw → Hw) : (s.onHw f).groups = s.groups := rfl
@[simp] theorem State.onHw_engines (f : Hw → Hw) : (s.onHw f).engines = s.engines := rfl
@[simp] theorem State.onHw_atsReqs (f : Hw → Hw) : (s.onHw f).atsReqs = s.atsReqs := rfl
@[simp] theorem State.onHw_hostReqs (f : Hw → Hw) : (s.onHw f).hostReqs = s.hostReqs := rfl
@[simp] theorem State.onHw_nextReq (f : Hw → Hw) : (s.onHw f).nextReq = s.nextReq := rfl
@[simp] theorem State.onHw_pft (f : Hw → Hw) : (s.onHw f).pft = s.pft := rfl
@[simp] theorem State.onHw_pftQueue (f : Hw → Hw) : (s.onHw f).pftQueue = s.pftQueue := rfl
@[simp] theorem State.onHw_pftSend (f : Hw → Hw) : (s.onHw f).pftSend = s.pftSend := rfl
@[simp] theorem State.onHw_pftAt (f : Hw → Hw) : (s.onHw f).pftAt = s.pftAt := rfl
@[simp] theorem State.onHw_invs (f : Hw → Hw) : (s.onHw f).invs = s.invs := rfl
@[simp] theorem State.onHw_links (f : Hw → Hw) : (s.onHw f).links = s.links := rfl
@[simp] theorem State.onHw_netBufs (f : Hw → Hw) : (s.onHw f).netBufs = s.netBufs := rfl
@[simp] theorem State.onHw_tags (f : Hw → Hw) : (s.onHw f).tags = s.tags := rfl
@[simp] theorem State.onHw_owed (f : Hw → Hw) : (s.onHw f).owed = s.owed := rfl
@[simp] theorem State.onHw_ctlOut (f : Hw → Hw) : (s.onHw f).ctlOut = s.ctlOut := rfl
@[simp] theorem State.onHw_whFlits (f : Hw → Hw) : (s.onHw f).whFlits = s.whFlits := rfl
@[simp] theorem State.onHw_pools (f : Hw → Hw) : (s.onHw f).pools = s.pools := rfl
@[simp] theorem State.onHw_mods (f : Hw → Hw) : (s.onHw f).mods = s.mods := rfl
@[simp] theorem State.onHw_bdls (f : Hw → Hw) : (s.onHw f).bdls = s.bdls := rfl
@[simp] theorem State.onHw_sites (f : Hw → Hw) : (s.onHw f).sites = s.sites := rfl
@[simp] theorem State.onHw_hcfg (f : Hw → Hw) : (s.onHw f).hcfg = s.hcfg := rfl
@[simp] theorem State.onHw_streams (f : Hw → Hw) : (s.onHw f).streams = s.streams := rfl
@[simp] theorem State.onHw_doe (f : Hw → Hw) : (s.onHw f).doe = s.doe := rfl
@[simp] theorem State.onHw_spdm (f : Hw → Hw) : (s.onHw f).spdm = s.spdm := rfl
@[simp] theorem State.onHw_sessions (f : Hw → Hw) : (s.onHw f).sessions = s.sessions := rfl
@[simp] theorem State.onHw_ports (f : Hw → Hw) : (s.onHw f).ports = s.ports := rfl
@[simp] theorem State.onHw_clOps (f : Hw → Hw) : (s.onHw f).clOps = s.clOps := rfl
@[simp] theorem State.onHw_colls (f : Hw → Hw) : (s.onHw f).colls = s.colls := rfl
@[simp] theorem State.onHw_readies (f : Hw → Hw) : (s.onHw f).readies = s.readies := rfl
@[simp] theorem State.onHw_aborts (f : Hw → Hw) : (s.onHw f).aborts = s.aborts := rfl
@[simp] theorem State.onHw_held (f : Hw → Hw) : (s.onHw f).held = s.held := rfl
@[simp] theorem State.onHw_otp (f : Hw → Hw) : (s.onHw f).otp = s.otp := rfl
@[simp] theorem State.onHw_mbx (f : Hw → Hw) : (s.onHw f).mbx = s.mbx := rfl
@[simp] theorem State.onHw_flash (f : Hw → Hw) : (s.onHw f).flash = s.flash := rfl
@[simp] theorem State.onHw_sset0 (f : Hw → Hw) : (s.onHw f).sset0 = s.sset0 := rfl
@[simp] theorem State.onHw_sset1 (f : Hw → Hw) : (s.onHw f).sset1 = s.sset1 := rfl
@[simp] theorem State.onHw_saved (f : Hw → Hw) : (s.onHw f).saved = s.saved := rfl
@[simp] theorem State.onHw_ssetDirty (f : Hw → Hw) : (s.onHw f).ssetDirty = s.ssetDirty := rfl
@[simp] theorem State.onHw_image (f : Hw → Hw) : (s.onHw f).image = s.image := rfl
@[simp] theorem State.onHw_bb (f : Hw → Hw) : (s.onHw f).bb = s.bb := rfl
@[simp] theorem State.onHw_tls (f : Hw → Hw) : (s.onHw f).tls = s.tls := rfl
@[simp] theorem State.onHw_power (f : Hw → Hw) : (s.onHw f).power = s.power := rfl
@[simp] theorem State.onHw_pins (f : Hw → Hw) : (s.onHw f).pins = s.pins := rfl
@[simp] theorem State.onHw_boot (f : Hw → Hw) : (s.onHw f).boot = s.boot := rfl
@[simp] theorem State.onHw_at_reg (f : Hw → Hw) (j : Nat) : (s.onHw f).reg j = s.reg j := rfl
@[simp] theorem State.onHw_at_rd (f : Hw → Hw) (g : Fld) : (s.onHw f).rd g = s.rd g := rfl
@[simp] theorem State.onHw_at_on (f : Hw → Hw) (g : Fld) : (s.onHw f).on g = s.on g := rfl
@[simp] theorem State.onHw_at_ctx (f : Hw → Hw) (j : Nat) : (s.onHw f).ctx j = s.ctx j := rfl
@[simp] theorem State.onHw_at_chan (f : Hw → Hw) (j : Nat) : (s.onHw f).chan j = s.chan j := rfl
@[simp] theorem State.onHw_at_part (f : Hw → Hw) (j : Nat) : (s.onHw f).part j = s.part j := rfl
@[simp] theorem State.onHw_at_tile (f : Hw → Hw) (j : Nat) : (s.onHw f).tile j = s.tile j := rfl
@[simp] theorem State.onHw_at_group (f : Hw → Hw) (j : Nat) : (s.onHw f).group j = s.group j := rfl
@[simp] theorem State.onHw_at_engine (f : Hw → Hw) (j : Nat) : (s.onHw f).engine j = s.engine j := rfl
@[simp] theorem State.onHw_at_pool (f : Hw → Hw) (j : Nat) : (s.onHw f).pool j = s.pool j := rfl
@[simp] theorem State.onHw_at_slot (f : Hw → Hw) (p j : Nat) : (s.onHw f).slot p j = s.slot p j := rfl
@[simp] theorem State.onHw_at_mod (f : Hw → Hw) (j : Nat) : (s.onHw f).mod j = s.mod j := rfl
@[simp] theorem State.onHw_at_bdl (f : Hw → Hw) (j : Nat) : (s.onHw f).bdl j = s.bdl j := rfl
@[simp] theorem State.onHw_at_site (f : Hw → Hw) (j : Nat) : (s.onHw f).site j = s.site j := rfl
@[simp] theorem State.onHw_at_cfg (f : Hw → Hw) (j : Nat) : (s.onHw f).cfg j = s.cfg j := rfl
@[simp] theorem State.onHw_at_stream (f : Hw → Hw) (j : Nat) : (s.onHw f).stream j = s.stream j := rfl
@[simp] theorem State.onHw_at_port (f : Hw → Hw) (j : Nat) : (s.onHw f).port j = s.port j := rfl
@[simp] theorem State.onHw_at_now (f : Hw → Hw) : (s.onHw f).now = s.now := rfl
@[simp] theorem State.onHw_at_lc (f : Hw → Hw) : (s.onHw f).lc = s.lc := rfl
@[simp] theorem State.onHw_at_linkUp (f : Hw → Hw) : (s.onHw f).linkUp = s.linkUp := rfl
@[simp] theorem State.onHw_at_fnEnabled (f : Hw → Hw) (j : Nat) : (s.onHw f).fnEnabled j = s.fnEnabled j := rfl
@[simp] theorem State.onHw_at_free (f : Hw → Hw) : (s.onHw f).free = s.free := rfl
@[simp] theorem State.onHw_self (f : Hw → Hw) : (s.onHw f).hw = f s.hw := rfl

/-! ### onPower -/

@[simp] theorem State.onPower_pending (f : Power → Power) : (s.onPower f).pending = s.pending := rfl
@[simp] theorem State.onPower_outbox (f : Power → Power) : (s.onPower f).outbox = s.outbox := rfl
@[simp] theorem State.onPower_freeCtr (f : Power → Power) : (s.onPower f).freeCtr = s.freeCtr := rfl
@[simp] theorem State.onPower_spindle (f : Power → Power) : (s.onPower f).spindle = s.spindle := rfl
@[simp] theorem State.onPower_regs (f : Power → Power) : (s.onPower f).regs = s.regs := rfl
@[simp] theorem State.onPower_devMem (f : Power → Power) : (s.onPower f).devMem = s.devMem := rfl
@[simp] theorem State.onPower_ueMarks (f : Power → Power) : (s.onPower f).ueMarks = s.ueMarks := rfl
@[simp] theorem State.onPower_chans (f : Power → Power) : (s.onPower f).chans = s.chans := rfl
@[simp] theorem State.onPower_stretchAt (f : Power → Power) : (s.onPower f).stretchAt = s.stretchAt := rfl
@[simp] theorem State.onPower_buckets (f : Power → Power) : (s.onPower f).buckets = s.buckets := rfl
@[simp] theorem State.onPower_waiting (f : Power → Power) : (s.onPower f).waiting = s.waiting := rfl
@[simp] theorem State.onPower_ctxs (f : Power → Power) : (s.onPower f).ctxs = s.ctxs := rfl
@[simp] theorem State.onPower_parts (f : Power → Power) : (s.onPower f).parts = s.parts := rfl
@[simp] theorem State.onPower_tiles (f : Power → Power) : (s.onPower f).tiles = s.tiles := rfl
@[simp] theorem State.onPower_groups (f : Power → Power) : (s.onPower f).groups = s.groups := rfl
@[simp] theorem State.onPower_engines (f : Power → Power) : (s.onPower f).engines = s.engines := rfl
@[simp] theorem State.onPower_atsReqs (f : Power → Power) : (s.onPower f).atsReqs = s.atsReqs := rfl
@[simp] theorem State.onPower_hostReqs (f : Power → Power) : (s.onPower f).hostReqs = s.hostReqs := rfl
@[simp] theorem State.onPower_nextReq (f : Power → Power) : (s.onPower f).nextReq = s.nextReq := rfl
@[simp] theorem State.onPower_pft (f : Power → Power) : (s.onPower f).pft = s.pft := rfl
@[simp] theorem State.onPower_pftQueue (f : Power → Power) : (s.onPower f).pftQueue = s.pftQueue := rfl
@[simp] theorem State.onPower_pftSend (f : Power → Power) : (s.onPower f).pftSend = s.pftSend := rfl
@[simp] theorem State.onPower_pftAt (f : Power → Power) : (s.onPower f).pftAt = s.pftAt := rfl
@[simp] theorem State.onPower_invs (f : Power → Power) : (s.onPower f).invs = s.invs := rfl
@[simp] theorem State.onPower_links (f : Power → Power) : (s.onPower f).links = s.links := rfl
@[simp] theorem State.onPower_netBufs (f : Power → Power) : (s.onPower f).netBufs = s.netBufs := rfl
@[simp] theorem State.onPower_tags (f : Power → Power) : (s.onPower f).tags = s.tags := rfl
@[simp] theorem State.onPower_owed (f : Power → Power) : (s.onPower f).owed = s.owed := rfl
@[simp] theorem State.onPower_ctlOut (f : Power → Power) : (s.onPower f).ctlOut = s.ctlOut := rfl
@[simp] theorem State.onPower_whFlits (f : Power → Power) : (s.onPower f).whFlits = s.whFlits := rfl
@[simp] theorem State.onPower_pools (f : Power → Power) : (s.onPower f).pools = s.pools := rfl
@[simp] theorem State.onPower_mods (f : Power → Power) : (s.onPower f).mods = s.mods := rfl
@[simp] theorem State.onPower_bdls (f : Power → Power) : (s.onPower f).bdls = s.bdls := rfl
@[simp] theorem State.onPower_sites (f : Power → Power) : (s.onPower f).sites = s.sites := rfl
@[simp] theorem State.onPower_hcfg (f : Power → Power) : (s.onPower f).hcfg = s.hcfg := rfl
@[simp] theorem State.onPower_streams (f : Power → Power) : (s.onPower f).streams = s.streams := rfl
@[simp] theorem State.onPower_doe (f : Power → Power) : (s.onPower f).doe = s.doe := rfl
@[simp] theorem State.onPower_spdm (f : Power → Power) : (s.onPower f).spdm = s.spdm := rfl
@[simp] theorem State.onPower_sessions (f : Power → Power) : (s.onPower f).sessions = s.sessions := rfl
@[simp] theorem State.onPower_ports (f : Power → Power) : (s.onPower f).ports = s.ports := rfl
@[simp] theorem State.onPower_clOps (f : Power → Power) : (s.onPower f).clOps = s.clOps := rfl
@[simp] theorem State.onPower_colls (f : Power → Power) : (s.onPower f).colls = s.colls := rfl
@[simp] theorem State.onPower_readies (f : Power → Power) : (s.onPower f).readies = s.readies := rfl
@[simp] theorem State.onPower_aborts (f : Power → Power) : (s.onPower f).aborts = s.aborts := rfl
@[simp] theorem State.onPower_held (f : Power → Power) : (s.onPower f).held = s.held := rfl
@[simp] theorem State.onPower_otp (f : Power → Power) : (s.onPower f).otp = s.otp := rfl
@[simp] theorem State.onPower_hw (f : Power → Power) : (s.onPower f).hw = s.hw := rfl
@[simp] theorem State.onPower_mbx (f : Power → Power) : (s.onPower f).mbx = s.mbx := rfl
@[simp] theorem State.onPower_flash (f : Power → Power) : (s.onPower f).flash = s.flash := rfl
@[simp] theorem State.onPower_sset0 (f : Power → Power) : (s.onPower f).sset0 = s.sset0 := rfl
@[simp] theorem State.onPower_sset1 (f : Power → Power) : (s.onPower f).sset1 = s.sset1 := rfl
@[simp] theorem State.onPower_saved (f : Power → Power) : (s.onPower f).saved = s.saved := rfl
@[simp] theorem State.onPower_ssetDirty (f : Power → Power) : (s.onPower f).ssetDirty = s.ssetDirty := rfl
@[simp] theorem State.onPower_image (f : Power → Power) : (s.onPower f).image = s.image := rfl
@[simp] theorem State.onPower_bb (f : Power → Power) : (s.onPower f).bb = s.bb := rfl
@[simp] theorem State.onPower_tls (f : Power → Power) : (s.onPower f).tls = s.tls := rfl
@[simp] theorem State.onPower_pins (f : Power → Power) : (s.onPower f).pins = s.pins := rfl
@[simp] theorem State.onPower_boot (f : Power → Power) : (s.onPower f).boot = s.boot := rfl
@[simp] theorem State.onPower_at_reg (f : Power → Power) (j : Nat) : (s.onPower f).reg j = s.reg j := rfl
@[simp] theorem State.onPower_at_rd (f : Power → Power) (g : Fld) : (s.onPower f).rd g = s.rd g := rfl
@[simp] theorem State.onPower_at_on (f : Power → Power) (g : Fld) : (s.onPower f).on g = s.on g := rfl
@[simp] theorem State.onPower_at_ctx (f : Power → Power) (j : Nat) : (s.onPower f).ctx j = s.ctx j := rfl
@[simp] theorem State.onPower_at_chan (f : Power → Power) (j : Nat) : (s.onPower f).chan j = s.chan j := rfl
@[simp] theorem State.onPower_at_part (f : Power → Power) (j : Nat) : (s.onPower f).part j = s.part j := rfl
@[simp] theorem State.onPower_at_tile (f : Power → Power) (j : Nat) : (s.onPower f).tile j = s.tile j := rfl
@[simp] theorem State.onPower_at_group (f : Power → Power) (j : Nat) : (s.onPower f).group j = s.group j := rfl
@[simp] theorem State.onPower_at_engine (f : Power → Power) (j : Nat) : (s.onPower f).engine j = s.engine j := rfl
@[simp] theorem State.onPower_at_pool (f : Power → Power) (j : Nat) : (s.onPower f).pool j = s.pool j := rfl
@[simp] theorem State.onPower_at_slot (f : Power → Power) (p j : Nat) : (s.onPower f).slot p j = s.slot p j := rfl
@[simp] theorem State.onPower_at_mod (f : Power → Power) (j : Nat) : (s.onPower f).mod j = s.mod j := rfl
@[simp] theorem State.onPower_at_bdl (f : Power → Power) (j : Nat) : (s.onPower f).bdl j = s.bdl j := rfl
@[simp] theorem State.onPower_at_site (f : Power → Power) (j : Nat) : (s.onPower f).site j = s.site j := rfl
@[simp] theorem State.onPower_at_cfg (f : Power → Power) (j : Nat) : (s.onPower f).cfg j = s.cfg j := rfl
@[simp] theorem State.onPower_at_stream (f : Power → Power) (j : Nat) : (s.onPower f).stream j = s.stream j := rfl
@[simp] theorem State.onPower_at_port (f : Power → Power) (j : Nat) : (s.onPower f).port j = s.port j := rfl
@[simp] theorem State.onPower_at_now (f : Power → Power) : (s.onPower f).now = s.now := rfl
@[simp] theorem State.onPower_at_lc (f : Power → Power) : (s.onPower f).lc = s.lc := rfl
@[simp] theorem State.onPower_at_linkUp (f : Power → Power) : (s.onPower f).linkUp = s.linkUp := rfl
@[simp] theorem State.onPower_at_fnEnabled (f : Power → Power) (j : Nat) : (s.onPower f).fnEnabled j = s.fnEnabled j := rfl
@[simp] theorem State.onPower_at_tracing (f : Power → Power) : (s.onPower f).tracing = s.tracing := rfl
@[simp] theorem State.onPower_at_free (f : Power → Power) : (s.onPower f).free = s.free := rfl
@[simp] theorem State.onPower_self (f : Power → Power) : (s.onPower f).power = f s.power := rfl

/-! ### onPins -/

@[simp] theorem State.onPins_pending (f : Pins → Pins) : (s.onPins f).pending = s.pending := rfl
@[simp] theorem State.onPins_outbox (f : Pins → Pins) : (s.onPins f).outbox = s.outbox := rfl
@[simp] theorem State.onPins_freeCtr (f : Pins → Pins) : (s.onPins f).freeCtr = s.freeCtr := rfl
@[simp] theorem State.onPins_spindle (f : Pins → Pins) : (s.onPins f).spindle = s.spindle := rfl
@[simp] theorem State.onPins_regs (f : Pins → Pins) : (s.onPins f).regs = s.regs := rfl
@[simp] theorem State.onPins_devMem (f : Pins → Pins) : (s.onPins f).devMem = s.devMem := rfl
@[simp] theorem State.onPins_ueMarks (f : Pins → Pins) : (s.onPins f).ueMarks = s.ueMarks := rfl
@[simp] theorem State.onPins_chans (f : Pins → Pins) : (s.onPins f).chans = s.chans := rfl
@[simp] theorem State.onPins_stretchAt (f : Pins → Pins) : (s.onPins f).stretchAt = s.stretchAt := rfl
@[simp] theorem State.onPins_buckets (f : Pins → Pins) : (s.onPins f).buckets = s.buckets := rfl
@[simp] theorem State.onPins_waiting (f : Pins → Pins) : (s.onPins f).waiting = s.waiting := rfl
@[simp] theorem State.onPins_ctxs (f : Pins → Pins) : (s.onPins f).ctxs = s.ctxs := rfl
@[simp] theorem State.onPins_parts (f : Pins → Pins) : (s.onPins f).parts = s.parts := rfl
@[simp] theorem State.onPins_tiles (f : Pins → Pins) : (s.onPins f).tiles = s.tiles := rfl
@[simp] theorem State.onPins_groups (f : Pins → Pins) : (s.onPins f).groups = s.groups := rfl
@[simp] theorem State.onPins_engines (f : Pins → Pins) : (s.onPins f).engines = s.engines := rfl
@[simp] theorem State.onPins_atsReqs (f : Pins → Pins) : (s.onPins f).atsReqs = s.atsReqs := rfl
@[simp] theorem State.onPins_hostReqs (f : Pins → Pins) : (s.onPins f).hostReqs = s.hostReqs := rfl
@[simp] theorem State.onPins_nextReq (f : Pins → Pins) : (s.onPins f).nextReq = s.nextReq := rfl
@[simp] theorem State.onPins_pft (f : Pins → Pins) : (s.onPins f).pft = s.pft := rfl
@[simp] theorem State.onPins_pftQueue (f : Pins → Pins) : (s.onPins f).pftQueue = s.pftQueue := rfl
@[simp] theorem State.onPins_pftSend (f : Pins → Pins) : (s.onPins f).pftSend = s.pftSend := rfl
@[simp] theorem State.onPins_pftAt (f : Pins → Pins) : (s.onPins f).pftAt = s.pftAt := rfl
@[simp] theorem State.onPins_invs (f : Pins → Pins) : (s.onPins f).invs = s.invs := rfl
@[simp] theorem State.onPins_links (f : Pins → Pins) : (s.onPins f).links = s.links := rfl
@[simp] theorem State.onPins_netBufs (f : Pins → Pins) : (s.onPins f).netBufs = s.netBufs := rfl
@[simp] theorem State.onPins_tags (f : Pins → Pins) : (s.onPins f).tags = s.tags := rfl
@[simp] theorem State.onPins_owed (f : Pins → Pins) : (s.onPins f).owed = s.owed := rfl
@[simp] theorem State.onPins_ctlOut (f : Pins → Pins) : (s.onPins f).ctlOut = s.ctlOut := rfl
@[simp] theorem State.onPins_whFlits (f : Pins → Pins) : (s.onPins f).whFlits = s.whFlits := rfl
@[simp] theorem State.onPins_pools (f : Pins → Pins) : (s.onPins f).pools = s.pools := rfl
@[simp] theorem State.onPins_mods (f : Pins → Pins) : (s.onPins f).mods = s.mods := rfl
@[simp] theorem State.onPins_bdls (f : Pins → Pins) : (s.onPins f).bdls = s.bdls := rfl
@[simp] theorem State.onPins_sites (f : Pins → Pins) : (s.onPins f).sites = s.sites := rfl
@[simp] theorem State.onPins_hcfg (f : Pins → Pins) : (s.onPins f).hcfg = s.hcfg := rfl
@[simp] theorem State.onPins_streams (f : Pins → Pins) : (s.onPins f).streams = s.streams := rfl
@[simp] theorem State.onPins_doe (f : Pins → Pins) : (s.onPins f).doe = s.doe := rfl
@[simp] theorem State.onPins_spdm (f : Pins → Pins) : (s.onPins f).spdm = s.spdm := rfl
@[simp] theorem State.onPins_sessions (f : Pins → Pins) : (s.onPins f).sessions = s.sessions := rfl
@[simp] theorem State.onPins_ports (f : Pins → Pins) : (s.onPins f).ports = s.ports := rfl
@[simp] theorem State.onPins_clOps (f : Pins → Pins) : (s.onPins f).clOps = s.clOps := rfl
@[simp] theorem State.onPins_colls (f : Pins → Pins) : (s.onPins f).colls = s.colls := rfl
@[simp] theorem State.onPins_readies (f : Pins → Pins) : (s.onPins f).readies = s.readies := rfl
@[simp] theorem State.onPins_aborts (f : Pins → Pins) : (s.onPins f).aborts = s.aborts := rfl
@[simp] theorem State.onPins_held (f : Pins → Pins) : (s.onPins f).held = s.held := rfl
@[simp] theorem State.onPins_otp (f : Pins → Pins) : (s.onPins f).otp = s.otp := rfl
@[simp] theorem State.onPins_hw (f : Pins → Pins) : (s.onPins f).hw = s.hw := rfl
@[simp] theorem State.onPins_mbx (f : Pins → Pins) : (s.onPins f).mbx = s.mbx := rfl
@[simp] theorem State.onPins_flash (f : Pins → Pins) : (s.onPins f).flash = s.flash := rfl
@[simp] theorem State.onPins_sset0 (f : Pins → Pins) : (s.onPins f).sset0 = s.sset0 := rfl
@[simp] theorem State.onPins_sset1 (f : Pins → Pins) : (s.onPins f).sset1 = s.sset1 := rfl
@[simp] theorem State.onPins_saved (f : Pins → Pins) : (s.onPins f).saved = s.saved := rfl
@[simp] theorem State.onPins_ssetDirty (f : Pins → Pins) : (s.onPins f).ssetDirty = s.ssetDirty := rfl
@[simp] theorem State.onPins_image (f : Pins → Pins) : (s.onPins f).image = s.image := rfl
@[simp] theorem State.onPins_bb (f : Pins → Pins) : (s.onPins f).bb = s.bb := rfl
@[simp] theorem State.onPins_tls (f : Pins → Pins) : (s.onPins f).tls = s.tls := rfl
@[simp] theorem State.onPins_power (f : Pins → Pins) : (s.onPins f).power = s.power := rfl
@[simp] theorem State.onPins_boot (f : Pins → Pins) : (s.onPins f).boot = s.boot := rfl
@[simp] theorem State.onPins_at_reg (f : Pins → Pins) (j : Nat) : (s.onPins f).reg j = s.reg j := rfl
@[simp] theorem State.onPins_at_rd (f : Pins → Pins) (g : Fld) : (s.onPins f).rd g = s.rd g := rfl
@[simp] theorem State.onPins_at_on (f : Pins → Pins) (g : Fld) : (s.onPins f).on g = s.on g := rfl
@[simp] theorem State.onPins_at_ctx (f : Pins → Pins) (j : Nat) : (s.onPins f).ctx j = s.ctx j := rfl
@[simp] theorem State.onPins_at_chan (f : Pins → Pins) (j : Nat) : (s.onPins f).chan j = s.chan j := rfl
@[simp] theorem State.onPins_at_part (f : Pins → Pins) (j : Nat) : (s.onPins f).part j = s.part j := rfl
@[simp] theorem State.onPins_at_tile (f : Pins → Pins) (j : Nat) : (s.onPins f).tile j = s.tile j := rfl
@[simp] theorem State.onPins_at_group (f : Pins → Pins) (j : Nat) : (s.onPins f).group j = s.group j := rfl
@[simp] theorem State.onPins_at_engine (f : Pins → Pins) (j : Nat) : (s.onPins f).engine j = s.engine j := rfl
@[simp] theorem State.onPins_at_pool (f : Pins → Pins) (j : Nat) : (s.onPins f).pool j = s.pool j := rfl
@[simp] theorem State.onPins_at_slot (f : Pins → Pins) (p j : Nat) : (s.onPins f).slot p j = s.slot p j := rfl
@[simp] theorem State.onPins_at_mod (f : Pins → Pins) (j : Nat) : (s.onPins f).mod j = s.mod j := rfl
@[simp] theorem State.onPins_at_bdl (f : Pins → Pins) (j : Nat) : (s.onPins f).bdl j = s.bdl j := rfl
@[simp] theorem State.onPins_at_site (f : Pins → Pins) (j : Nat) : (s.onPins f).site j = s.site j := rfl
@[simp] theorem State.onPins_at_cfg (f : Pins → Pins) (j : Nat) : (s.onPins f).cfg j = s.cfg j := rfl
@[simp] theorem State.onPins_at_stream (f : Pins → Pins) (j : Nat) : (s.onPins f).stream j = s.stream j := rfl
@[simp] theorem State.onPins_at_port (f : Pins → Pins) (j : Nat) : (s.onPins f).port j = s.port j := rfl
@[simp] theorem State.onPins_at_now (f : Pins → Pins) : (s.onPins f).now = s.now := rfl
@[simp] theorem State.onPins_at_lc (f : Pins → Pins) : (s.onPins f).lc = s.lc := rfl
@[simp] theorem State.onPins_at_fnEnabled (f : Pins → Pins) (j : Nat) : (s.onPins f).fnEnabled j = s.fnEnabled j := rfl
@[simp] theorem State.onPins_at_tracing (f : Pins → Pins) : (s.onPins f).tracing = s.tracing := rfl
@[simp] theorem State.onPins_at_free (f : Pins → Pins) : (s.onPins f).free = s.free := rfl
@[simp] theorem State.onPins_self (f : Pins → Pins) : (s.onPins f).pins = f s.pins := rfl

/-! ### out -/

@[simp] theorem State.out_pending (o : Out) : (s.out o).pending = s.pending := rfl
@[simp] theorem State.out_freeCtr (o : Out) : (s.out o).freeCtr = s.freeCtr := rfl
@[simp] theorem State.out_spindle (o : Out) : (s.out o).spindle = s.spindle := rfl
@[simp] theorem State.out_regs (o : Out) : (s.out o).regs = s.regs := rfl
@[simp] theorem State.out_devMem (o : Out) : (s.out o).devMem = s.devMem := rfl
@[simp] theorem State.out_ueMarks (o : Out) : (s.out o).ueMarks = s.ueMarks := rfl
@[simp] theorem State.out_chans (o : Out) : (s.out o).chans = s.chans := rfl
@[simp] theorem State.out_stretchAt (o : Out) : (s.out o).stretchAt = s.stretchAt := rfl
@[simp] theorem State.out_buckets (o : Out) : (s.out o).buckets = s.buckets := rfl
@[simp] theorem State.out_waiting (o : Out) : (s.out o).waiting = s.waiting := rfl
@[simp] theorem State.out_ctxs (o : Out) : (s.out o).ctxs = s.ctxs := rfl
@[simp] theorem State.out_parts (o : Out) : (s.out o).parts = s.parts := rfl
@[simp] theorem State.out_tiles (o : Out) : (s.out o).tiles = s.tiles := rfl
@[simp] theorem State.out_groups (o : Out) : (s.out o).groups = s.groups := rfl
@[simp] theorem State.out_engines (o : Out) : (s.out o).engines = s.engines := rfl
@[simp] theorem State.out_atsReqs (o : Out) : (s.out o).atsReqs = s.atsReqs := rfl
@[simp] theorem State.out_hostReqs (o : Out) : (s.out o).hostReqs = s.hostReqs := rfl
@[simp] theorem State.out_nextReq (o : Out) : (s.out o).nextReq = s.nextReq := rfl
@[simp] theorem State.out_pft (o : Out) : (s.out o).pft = s.pft := rfl
@[simp] theorem State.out_pftQueue (o : Out) : (s.out o).pftQueue = s.pftQueue := rfl
@[simp] theorem State.out_pftSend (o : Out) : (s.out o).pftSend = s.pftSend := rfl
@[simp] theorem State.out_pftAt (o : Out) : (s.out o).pftAt = s.pftAt := rfl
@[simp] theorem State.out_invs (o : Out) : (s.out o).invs = s.invs := rfl
@[simp] theorem State.out_links (o : Out) : (s.out o).links = s.links := rfl
@[simp] theorem State.out_netBufs (o : Out) : (s.out o).netBufs = s.netBufs := rfl
@[simp] theorem State.out_tags (o : Out) : (s.out o).tags = s.tags := rfl
@[simp] theorem State.out_owed (o : Out) : (s.out o).owed = s.owed := rfl
@[simp] theorem State.out_ctlOut (o : Out) : (s.out o).ctlOut = s.ctlOut := rfl
@[simp] theorem State.out_whFlits (o : Out) : (s.out o).whFlits = s.whFlits := rfl
@[simp] theorem State.out_pools (o : Out) : (s.out o).pools = s.pools := rfl
@[simp] theorem State.out_mods (o : Out) : (s.out o).mods = s.mods := rfl
@[simp] theorem State.out_bdls (o : Out) : (s.out o).bdls = s.bdls := rfl
@[simp] theorem State.out_sites (o : Out) : (s.out o).sites = s.sites := rfl
@[simp] theorem State.out_hcfg (o : Out) : (s.out o).hcfg = s.hcfg := rfl
@[simp] theorem State.out_streams (o : Out) : (s.out o).streams = s.streams := rfl
@[simp] theorem State.out_doe (o : Out) : (s.out o).doe = s.doe := rfl
@[simp] theorem State.out_spdm (o : Out) : (s.out o).spdm = s.spdm := rfl
@[simp] theorem State.out_sessions (o : Out) : (s.out o).sessions = s.sessions := rfl
@[simp] theorem State.out_ports (o : Out) : (s.out o).ports = s.ports := rfl
@[simp] theorem State.out_clOps (o : Out) : (s.out o).clOps = s.clOps := rfl
@[simp] theorem State.out_colls (o : Out) : (s.out o).colls = s.colls := rfl
@[simp] theorem State.out_readies (o : Out) : (s.out o).readies = s.readies := rfl
@[simp] theorem State.out_aborts (o : Out) : (s.out o).aborts = s.aborts := rfl
@[simp] theorem State.out_held (o : Out) : (s.out o).held = s.held := rfl
@[simp] theorem State.out_otp (o : Out) : (s.out o).otp = s.otp := rfl
@[simp] theorem State.out_hw (o : Out) : (s.out o).hw = s.hw := rfl
@[simp] theorem State.out_mbx (o : Out) : (s.out o).mbx = s.mbx := rfl
@[simp] theorem State.out_flash (o : Out) : (s.out o).flash = s.flash := rfl
@[simp] theorem State.out_sset0 (o : Out) : (s.out o).sset0 = s.sset0 := rfl
@[simp] theorem State.out_sset1 (o : Out) : (s.out o).sset1 = s.sset1 := rfl
@[simp] theorem State.out_saved (o : Out) : (s.out o).saved = s.saved := rfl
@[simp] theorem State.out_ssetDirty (o : Out) : (s.out o).ssetDirty = s.ssetDirty := rfl
@[simp] theorem State.out_image (o : Out) : (s.out o).image = s.image := rfl
@[simp] theorem State.out_bb (o : Out) : (s.out o).bb = s.bb := rfl
@[simp] theorem State.out_tls (o : Out) : (s.out o).tls = s.tls := rfl
@[simp] theorem State.out_power (o : Out) : (s.out o).power = s.power := rfl
@[simp] theorem State.out_pins (o : Out) : (s.out o).pins = s.pins := rfl
@[simp] theorem State.out_boot (o : Out) : (s.out o).boot = s.boot := rfl
@[simp] theorem State.out_at_reg (o : Out) (j : Nat) : (s.out o).reg j = s.reg j := rfl
@[simp] theorem State.out_at_rd (o : Out) (g : Fld) : (s.out o).rd g = s.rd g := rfl
@[simp] theorem State.out_at_on (o : Out) (g : Fld) : (s.out o).on g = s.on g := rfl
@[simp] theorem State.out_at_ctx (o : Out) (j : Nat) : (s.out o).ctx j = s.ctx j := rfl
@[simp] theorem State.out_at_chan (o : Out) (j : Nat) : (s.out o).chan j = s.chan j := rfl
@[simp] theorem State.out_at_part (o : Out) (j : Nat) : (s.out o).part j = s.part j := rfl
@[simp] theorem State.out_at_tile (o : Out) (j : Nat) : (s.out o).tile j = s.tile j := rfl
@[simp] theorem State.out_at_group (o : Out) (j : Nat) : (s.out o).group j = s.group j := rfl
@[simp] theorem State.out_at_engine (o : Out) (j : Nat) : (s.out o).engine j = s.engine j := rfl
@[simp] theorem State.out_at_pool (o : Out) (j : Nat) : (s.out o).pool j = s.pool j := rfl
@[simp] theorem State.out_at_slot (o : Out) (p j : Nat) : (s.out o).slot p j = s.slot p j := rfl
@[simp] theorem State.out_at_mod (o : Out) (j : Nat) : (s.out o).mod j = s.mod j := rfl
@[simp] theorem State.out_at_bdl (o : Out) (j : Nat) : (s.out o).bdl j = s.bdl j := rfl
@[simp] theorem State.out_at_site (o : Out) (j : Nat) : (s.out o).site j = s.site j := rfl
@[simp] theorem State.out_at_cfg (o : Out) (j : Nat) : (s.out o).cfg j = s.cfg j := rfl
@[simp] theorem State.out_at_stream (o : Out) (j : Nat) : (s.out o).stream j = s.stream j := rfl
@[simp] theorem State.out_at_port (o : Out) (j : Nat) : (s.out o).port j = s.port j := rfl
@[simp] theorem State.out_at_now (o : Out) : (s.out o).now = s.now := rfl
@[simp] theorem State.out_at_lc (o : Out) : (s.out o).lc = s.lc := rfl
@[simp] theorem State.out_at_linkUp (o : Out) : (s.out o).linkUp = s.linkUp := rfl
@[simp] theorem State.out_at_fnEnabled (o : Out) (j : Nat) : (s.out o).fnEnabled j = s.fnEnabled j := rfl
@[simp] theorem State.out_at_tracing (o : Out) : (s.out o).tracing = s.tracing := rfl
@[simp] theorem State.out_at_free (o : Out) : (s.out o).free = s.free := rfl

/-! ### drawn -/

@[simp] theorem State.drawn_pending : (s.drawn).pending = s.pending := rfl
@[simp] theorem State.drawn_outbox : (s.drawn).outbox = s.outbox := rfl
@[simp] theorem State.drawn_spindle : (s.drawn).spindle = s.spindle := rfl
@[simp] theorem State.drawn_regs : (s.drawn).regs = s.regs := rfl
@[simp] theorem State.drawn_devMem : (s.drawn).devMem = s.devMem := rfl
@[simp] theorem State.drawn_ueMarks : (s.drawn).ueMarks = s.ueMarks := rfl
@[simp] theorem State.drawn_chans : (s.drawn).chans = s.chans := rfl
@[simp] theorem State.drawn_stretchAt : (s.drawn).stretchAt = s.stretchAt := rfl
@[simp] theorem State.drawn_buckets : (s.drawn).buckets = s.buckets := rfl
@[simp] theorem State.drawn_waiting : (s.drawn).waiting = s.waiting := rfl
@[simp] theorem State.drawn_ctxs : (s.drawn).ctxs = s.ctxs := rfl
@[simp] theorem State.drawn_parts : (s.drawn).parts = s.parts := rfl
@[simp] theorem State.drawn_tiles : (s.drawn).tiles = s.tiles := rfl
@[simp] theorem State.drawn_groups : (s.drawn).groups = s.groups := rfl
@[simp] theorem State.drawn_engines : (s.drawn).engines = s.engines := rfl
@[simp] theorem State.drawn_atsReqs : (s.drawn).atsReqs = s.atsReqs := rfl
@[simp] theorem State.drawn_hostReqs : (s.drawn).hostReqs = s.hostReqs := rfl
@[simp] theorem State.drawn_nextReq : (s.drawn).nextReq = s.nextReq := rfl
@[simp] theorem State.drawn_pft : (s.drawn).pft = s.pft := rfl
@[simp] theorem State.drawn_pftQueue : (s.drawn).pftQueue = s.pftQueue := rfl
@[simp] theorem State.drawn_pftSend : (s.drawn).pftSend = s.pftSend := rfl
@[simp] theorem State.drawn_pftAt : (s.drawn).pftAt = s.pftAt := rfl
@[simp] theorem State.drawn_invs : (s.drawn).invs = s.invs := rfl
@[simp] theorem State.drawn_links : (s.drawn).links = s.links := rfl
@[simp] theorem State.drawn_netBufs : (s.drawn).netBufs = s.netBufs := rfl
@[simp] theorem State.drawn_tags : (s.drawn).tags = s.tags := rfl
@[simp] theorem State.drawn_owed : (s.drawn).owed = s.owed := rfl
@[simp] theorem State.drawn_ctlOut : (s.drawn).ctlOut = s.ctlOut := rfl
@[simp] theorem State.drawn_whFlits : (s.drawn).whFlits = s.whFlits := rfl
@[simp] theorem State.drawn_pools : (s.drawn).pools = s.pools := rfl
@[simp] theorem State.drawn_mods : (s.drawn).mods = s.mods := rfl
@[simp] theorem State.drawn_bdls : (s.drawn).bdls = s.bdls := rfl
@[simp] theorem State.drawn_sites : (s.drawn).sites = s.sites := rfl
@[simp] theorem State.drawn_hcfg : (s.drawn).hcfg = s.hcfg := rfl
@[simp] theorem State.drawn_streams : (s.drawn).streams = s.streams := rfl
@[simp] theorem State.drawn_doe : (s.drawn).doe = s.doe := rfl
@[simp] theorem State.drawn_spdm : (s.drawn).spdm = s.spdm := rfl
@[simp] theorem State.drawn_sessions : (s.drawn).sessions = s.sessions := rfl
@[simp] theorem State.drawn_ports : (s.drawn).ports = s.ports := rfl
@[simp] theorem State.drawn_clOps : (s.drawn).clOps = s.clOps := rfl
@[simp] theorem State.drawn_colls : (s.drawn).colls = s.colls := rfl
@[simp] theorem State.drawn_readies : (s.drawn).readies = s.readies := rfl
@[simp] theorem State.drawn_aborts : (s.drawn).aborts = s.aborts := rfl
@[simp] theorem State.drawn_held : (s.drawn).held = s.held := rfl
@[simp] theorem State.drawn_otp : (s.drawn).otp = s.otp := rfl
@[simp] theorem State.drawn_hw : (s.drawn).hw = s.hw := rfl
@[simp] theorem State.drawn_mbx : (s.drawn).mbx = s.mbx := rfl
@[simp] theorem State.drawn_flash : (s.drawn).flash = s.flash := rfl
@[simp] theorem State.drawn_sset0 : (s.drawn).sset0 = s.sset0 := rfl
@[simp] theorem State.drawn_sset1 : (s.drawn).sset1 = s.sset1 := rfl
@[simp] theorem State.drawn_saved : (s.drawn).saved = s.saved := rfl
@[simp] theorem State.drawn_ssetDirty : (s.drawn).ssetDirty = s.ssetDirty := rfl
@[simp] theorem State.drawn_image : (s.drawn).image = s.image := rfl
@[simp] theorem State.drawn_bb : (s.drawn).bb = s.bb := rfl
@[simp] theorem State.drawn_tls : (s.drawn).tls = s.tls := rfl
@[simp] theorem State.drawn_power : (s.drawn).power = s.power := rfl
@[simp] theorem State.drawn_pins : (s.drawn).pins = s.pins := rfl
@[simp] theorem State.drawn_boot : (s.drawn).boot = s.boot := rfl
@[simp] theorem State.drawn_at_reg  (j : Nat) : (s.drawn).reg j = s.reg j := rfl
@[simp] theorem State.drawn_at_rd  (g : Fld) : (s.drawn).rd g = s.rd g := rfl
@[simp] theorem State.drawn_at_on  (g : Fld) : (s.drawn).on g = s.on g := rfl
@[simp] theorem State.drawn_at_ctx  (j : Nat) : (s.drawn).ctx j = s.ctx j := rfl
@[simp] theorem State.drawn_at_chan  (j : Nat) : (s.drawn).chan j = s.chan j := rfl
@[simp] theorem State.drawn_at_part  (j : Nat) : (s.drawn).part j = s.part j := rfl
@[simp] theorem State.drawn_at_tile  (j : Nat) : (s.drawn).tile j = s.tile j := rfl
@[simp] theorem State.drawn_at_group  (j : Nat) : (s.drawn).group j = s.group j := rfl
@[simp] theorem State.drawn_at_engine  (j : Nat) : (s.drawn).engine j = s.engine j := rfl
@[simp] theorem State.drawn_at_pool  (j : Nat) : (s.drawn).pool j = s.pool j := rfl
@[simp] theorem State.drawn_at_slot  (p j : Nat) : (s.drawn).slot p j = s.slot p j := rfl
@[simp] theorem State.drawn_at_mod  (j : Nat) : (s.drawn).mod j = s.mod j := rfl
@[simp] theorem State.drawn_at_bdl  (j : Nat) : (s.drawn).bdl j = s.bdl j := rfl
@[simp] theorem State.drawn_at_site  (j : Nat) : (s.drawn).site j = s.site j := rfl
@[simp] theorem State.drawn_at_cfg  (j : Nat) : (s.drawn).cfg j = s.cfg j := rfl
@[simp] theorem State.drawn_at_stream  (j : Nat) : (s.drawn).stream j = s.stream j := rfl
@[simp] theorem State.drawn_at_port  (j : Nat) : (s.drawn).port j = s.port j := rfl
@[simp] theorem State.drawn_at_now : (s.drawn).now = s.now := rfl
@[simp] theorem State.drawn_at_lc : (s.drawn).lc = s.lc := rfl
@[simp] theorem State.drawn_at_linkUp : (s.drawn).linkUp = s.linkUp := rfl
@[simp] theorem State.drawn_at_fnEnabled  (j : Nat) : (s.drawn).fnEnabled j = s.fnEnabled j := rfl
@[simp] theorem State.drawn_at_tracing : (s.drawn).tracing = s.tracing := rfl

/-! ### drawnN -/

@[simp] theorem State.drawnN_pending (n : Nat) : (s.drawnN n).pending = s.pending := rfl
@[simp] theorem State.drawnN_outbox (n : Nat) : (s.drawnN n).outbox = s.outbox := rfl
@[simp] theorem State.drawnN_spindle (n : Nat) : (s.drawnN n).spindle = s.spindle := rfl
@[simp] theorem State.drawnN_regs (n : Nat) : (s.drawnN n).regs = s.regs := rfl
@[simp] theorem State.drawnN_devMem (n : Nat) : (s.drawnN n).devMem = s.devMem := rfl
@[simp] theorem State.drawnN_ueMarks (n : Nat) : (s.drawnN n).ueMarks = s.ueMarks := rfl
@[simp] theorem State.drawnN_chans (n : Nat) : (s.drawnN n).chans = s.chans := rfl
@[simp] theorem State.drawnN_stretchAt (n : Nat) : (s.drawnN n).stretchAt = s.stretchAt := rfl
@[simp] theorem State.drawnN_buckets (n : Nat) : (s.drawnN n).buckets = s.buckets := rfl
@[simp] theorem State.drawnN_waiting (n : Nat) : (s.drawnN n).waiting = s.waiting := rfl
@[simp] theorem State.drawnN_ctxs (n : Nat) : (s.drawnN n).ctxs = s.ctxs := rfl
@[simp] theorem State.drawnN_parts (n : Nat) : (s.drawnN n).parts = s.parts := rfl
@[simp] theorem State.drawnN_tiles (n : Nat) : (s.drawnN n).tiles = s.tiles := rfl
@[simp] theorem State.drawnN_groups (n : Nat) : (s.drawnN n).groups = s.groups := rfl
@[simp] theorem State.drawnN_engines (n : Nat) : (s.drawnN n).engines = s.engines := rfl
@[simp] theorem State.drawnN_atsReqs (n : Nat) : (s.drawnN n).atsReqs = s.atsReqs := rfl
@[simp] theorem State.drawnN_hostReqs (n : Nat) : (s.drawnN n).hostReqs = s.hostReqs := rfl
@[simp] theorem State.drawnN_nextReq (n : Nat) : (s.drawnN n).nextReq = s.nextReq := rfl
@[simp] theorem State.drawnN_pft (n : Nat) : (s.drawnN n).pft = s.pft := rfl
@[simp] theorem State.drawnN_pftQueue (n : Nat) : (s.drawnN n).pftQueue = s.pftQueue := rfl
@[simp] theorem State.drawnN_pftSend (n : Nat) : (s.drawnN n).pftSend = s.pftSend := rfl
@[simp] theorem State.drawnN_pftAt (n : Nat) : (s.drawnN n).pftAt = s.pftAt := rfl
@[simp] theorem State.drawnN_invs (n : Nat) : (s.drawnN n).invs = s.invs := rfl
@[simp] theorem State.drawnN_links (n : Nat) : (s.drawnN n).links = s.links := rfl
@[simp] theorem State.drawnN_netBufs (n : Nat) : (s.drawnN n).netBufs = s.netBufs := rfl
@[simp] theorem State.drawnN_tags (n : Nat) : (s.drawnN n).tags = s.tags := rfl
@[simp] theorem State.drawnN_owed (n : Nat) : (s.drawnN n).owed = s.owed := rfl
@[simp] theorem State.drawnN_ctlOut (n : Nat) : (s.drawnN n).ctlOut = s.ctlOut := rfl
@[simp] theorem State.drawnN_whFlits (n : Nat) : (s.drawnN n).whFlits = s.whFlits := rfl
@[simp] theorem State.drawnN_pools (n : Nat) : (s.drawnN n).pools = s.pools := rfl
@[simp] theorem State.drawnN_mods (n : Nat) : (s.drawnN n).mods = s.mods := rfl
@[simp] theorem State.drawnN_bdls (n : Nat) : (s.drawnN n).bdls = s.bdls := rfl
@[simp] theorem State.drawnN_sites (n : Nat) : (s.drawnN n).sites = s.sites := rfl
@[simp] theorem State.drawnN_hcfg (n : Nat) : (s.drawnN n).hcfg = s.hcfg := rfl
@[simp] theorem State.drawnN_streams (n : Nat) : (s.drawnN n).streams = s.streams := rfl
@[simp] theorem State.drawnN_doe (n : Nat) : (s.drawnN n).doe = s.doe := rfl
@[simp] theorem State.drawnN_spdm (n : Nat) : (s.drawnN n).spdm = s.spdm := rfl
@[simp] theorem State.drawnN_sessions (n : Nat) : (s.drawnN n).sessions = s.sessions := rfl
@[simp] theorem State.drawnN_ports (n : Nat) : (s.drawnN n).ports = s.ports := rfl
@[simp] theorem State.drawnN_clOps (n : Nat) : (s.drawnN n).clOps = s.clOps := rfl
@[simp] theorem State.drawnN_colls (n : Nat) : (s.drawnN n).colls = s.colls := rfl
@[simp] theorem State.drawnN_readies (n : Nat) : (s.drawnN n).readies = s.readies := rfl
@[simp] theorem State.drawnN_aborts (n : Nat) : (s.drawnN n).aborts = s.aborts := rfl
@[simp] theorem State.drawnN_held (n : Nat) : (s.drawnN n).held = s.held := rfl
@[simp] theorem State.drawnN_otp (n : Nat) : (s.drawnN n).otp = s.otp := rfl
@[simp] theorem State.drawnN_hw (n : Nat) : (s.drawnN n).hw = s.hw := rfl
@[simp] theorem State.drawnN_mbx (n : Nat) : (s.drawnN n).mbx = s.mbx := rfl
@[simp] theorem State.drawnN_flash (n : Nat) : (s.drawnN n).flash = s.flash := rfl
@[simp] theorem State.drawnN_sset0 (n : Nat) : (s.drawnN n).sset0 = s.sset0 := rfl
@[simp] theorem State.drawnN_sset1 (n : Nat) : (s.drawnN n).sset1 = s.sset1 := rfl
@[simp] theorem State.drawnN_saved (n : Nat) : (s.drawnN n).saved = s.saved := rfl
@[simp] theorem State.drawnN_ssetDirty (n : Nat) : (s.drawnN n).ssetDirty = s.ssetDirty := rfl
@[simp] theorem State.drawnN_image (n : Nat) : (s.drawnN n).image = s.image := rfl
@[simp] theorem State.drawnN_bb (n : Nat) : (s.drawnN n).bb = s.bb := rfl
@[simp] theorem State.drawnN_tls (n : Nat) : (s.drawnN n).tls = s.tls := rfl
@[simp] theorem State.drawnN_power (n : Nat) : (s.drawnN n).power = s.power := rfl
@[simp] theorem State.drawnN_pins (n : Nat) : (s.drawnN n).pins = s.pins := rfl
@[simp] theorem State.drawnN_boot (n : Nat) : (s.drawnN n).boot = s.boot := rfl
@[simp] theorem State.drawnN_at_reg (n : Nat) (j : Nat) : (s.drawnN n).reg j = s.reg j := rfl
@[simp] theorem State.drawnN_at_rd (n : Nat) (g : Fld) : (s.drawnN n).rd g = s.rd g := rfl
@[simp] theorem State.drawnN_at_on (n : Nat) (g : Fld) : (s.drawnN n).on g = s.on g := rfl
@[simp] theorem State.drawnN_at_ctx (n : Nat) (j : Nat) : (s.drawnN n).ctx j = s.ctx j := rfl
@[simp] theorem State.drawnN_at_chan (n : Nat) (j : Nat) : (s.drawnN n).chan j = s.chan j := rfl
@[simp] theorem State.drawnN_at_part (n : Nat) (j : Nat) : (s.drawnN n).part j = s.part j := rfl
@[simp] theorem State.drawnN_at_tile (n : Nat) (j : Nat) : (s.drawnN n).tile j = s.tile j := rfl
@[simp] theorem State.drawnN_at_group (n : Nat) (j : Nat) : (s.drawnN n).group j = s.group j := rfl
@[simp] theorem State.drawnN_at_engine (n : Nat) (j : Nat) : (s.drawnN n).engine j = s.engine j := rfl
@[simp] theorem State.drawnN_at_pool (n : Nat) (j : Nat) : (s.drawnN n).pool j = s.pool j := rfl
@[simp] theorem State.drawnN_at_slot (n : Nat) (p j : Nat) : (s.drawnN n).slot p j = s.slot p j := rfl
@[simp] theorem State.drawnN_at_mod (n : Nat) (j : Nat) : (s.drawnN n).mod j = s.mod j := rfl
@[simp] theorem State.drawnN_at_bdl (n : Nat) (j : Nat) : (s.drawnN n).bdl j = s.bdl j := rfl
@[simp] theorem State.drawnN_at_site (n : Nat) (j : Nat) : (s.drawnN n).site j = s.site j := rfl
@[simp] theorem State.drawnN_at_cfg (n : Nat) (j : Nat) : (s.drawnN n).cfg j = s.cfg j := rfl
@[simp] theorem State.drawnN_at_stream (n : Nat) (j : Nat) : (s.drawnN n).stream j = s.stream j := rfl
@[simp] theorem State.drawnN_at_port (n : Nat) (j : Nat) : (s.drawnN n).port j = s.port j := rfl
@[simp] theorem State.drawnN_at_now (n : Nat) : (s.drawnN n).now = s.now := rfl
@[simp] theorem State.drawnN_at_lc (n : Nat) : (s.drawnN n).lc = s.lc := rfl
@[simp] theorem State.drawnN_at_linkUp (n : Nat) : (s.drawnN n).linkUp = s.linkUp := rfl
@[simp] theorem State.drawnN_at_fnEnabled (n : Nat) (j : Nat) : (s.drawnN n).fnEnabled j = s.fnEnabled j := rfl
@[simp] theorem State.drawnN_at_tracing (n : Nat) : (s.drawnN n).tracing = s.tracing := rfl

@[simp] theorem State.out_outbox (o : Out) : (s.out o).outbox = s.tlp o :: s.outbox := rfl
@[simp] theorem State.tlp_flit (f : NetFlit) : s.tlp (.flit f) = .flit f := rfl
@[simp] theorem State.tlp_regAnswer (r i : Nat) (e : Bool) (d : List Byte) : s.tlp (.regAnswer r i e d) = .regAnswer r i e d := rfl
@[simp] theorem State.tlp_sideband (b c : Nat) (d : List Byte) : s.tlp (.sideband b c d) = .sideband b c d := rfl
@[simp] theorem State.tlp_siteAnswer (x t : Nat) (e : Bool) (d : List Byte) : s.tlp (.siteAnswer x t e d) = .siteAnswer x t e d := rfl
@[simp] theorem State.tlp_frame (q o : Nat) (d : List Byte) : s.tlp (.frame q o d) = .frame q o d := rfl
@[simp] theorem State.tlp_roleResponse (m : Bool) (d : List Byte) : s.tlp (.roleResponse m d) = .roleResponse m d := rfl
@[simp] theorem State.tlp_doeObject (m : Bool) (d : List Byte) : s.tlp (.doeObject m d) = .doeObject m d := rfl
@[simp] theorem State.tlp_tdisp (c k : Nat) (d : List Byte) : s.tlp (.tdisp c k d) = .tdisp c k d := rfl
@[simp] theorem State.tlp_ide (x : Nat) (b : Bool) (o : Out) : s.tlp (.ide x b o) = .ide x b o := rfl
@[simp] theorem State.setReg_same (k : Nat) (w : Word) : (s.setReg k w).reg k = w := SMap.get_put_same _ _ _ _
theorem State.setReg_other (k : Nat) (w : Word) {j : Nat} (h : j ≠ k) : (s.setReg k w).reg j = s.reg j :=
  SMap.get_put_other _ _ _ h

end Sys2Proof.Machine
end

