-- ==== Sys2Proof/Laws/Regs.lean ====
section
/-! SUPPORT. Register fields: a field reads the value written to it cut to its width, and a write leaves every other
register and every other field of its register alone. -/

namespace Sys2Proof.Machine

/-- Bit `i` of the mask of bits [hi:lo]. -/
theorem getLsbD_fldMask {hi lo : Nat} (h : lo ≤ hi) (h' : hi < 64) (i : Nat) :
    (fldMask hi lo).getLsbD i = (decide (lo ≤ i) && decide (i ≤ hi)) := by
  unfold fldMask
  simp only [BitVec.getLsbD_shiftLeft, BitVec.getLsbD_ushiftRight, BitVec.getLsbD_allOnes]
  by_cases h1 : lo ≤ i <;> by_cases h2 : i ≤ hi <;> simp [h1, h2] <;> omega

/-- Bit `i` of a word with a field replaced. -/
theorem getLsbD_putFld (w : Word) {hi lo : Nat} (h : lo ≤ hi) (h' : hi < 64) (v i : Nat) (hi' : i < 64) :
    (putFld w hi lo v).getLsbD i = if lo ≤ i ∧ i ≤ hi then v.testBit (i - lo) else w.getLsbD i := by
  unfold putFld
  simp only [BitVec.getLsbD_or, BitVec.getLsbD_and, BitVec.getLsbD_not, getLsbD_fldMask h h',
    BitVec.getLsbD_shiftLeft, BitVec.getLsbD_ofNat]
  by_cases h1 : lo ≤ i <;> by_cases h2 : i ≤ hi <;> simp [h1, h2, hi']
  · simp [show ¬ i < lo by omega, show i - lo < 64 by omega]

/-- Bit `i` of a field's value. -/
theorem testBit_rd (s : State) {f : Fld} (h : f.ok) (i : Nat) :
    (s.rd f).testBit i = (decide (i ≤ f.hi - f.lo) && (s.reg f.key).getLsbD (f.lo + i)) := by
  have h1 := h.1
  have h2 := h.2
  unfold State.rd
  rw [← BitVec.getLsbD, BitVec.getLsbD_and, BitVec.getLsbD_ushiftRight, getLsbD_fldMask (Nat.zero_le _) (by omega)]
  simp [Bool.and_comm]

/-- A field reads what has been written to it, cut to its width. -/
theorem rd_wr_same (s : State) {f : Fld} (h : f.ok) (v : Nat) : (s.wr f v).rd f = v % 2 ^ (f.hi + 1 - f.lo) := by
  have h1 := h.1
  have h2 := h.2
  apply Nat.eq_of_testBit_eq
  intro i
  rw [testBit_rd _ h, Nat.testBit_mod_two_pow]
  unfold State.wr
  rw [State.setReg_same]
  by_cases hi : i ≤ f.hi - f.lo
  · rw [getLsbD_putFld _ h1 h2 _ _ (by omega), if_pos (by omega)]
    simp [hi, show i < f.hi + 1 - f.lo by omega]
  · simp [hi, show ¬ i < f.hi + 1 - f.lo by omega]

/-- A write of a field leaves every field that shares no bit with it alone. -/
theorem rd_wr_apart (s : State) {f g : Fld} (hf : f.ok) (hg : g.ok) (h : f.apart g) (v : Nat) :
    (s.wr f v).rd g = s.rd g := by
  have h1 := hf.1
  have h2 := hf.2
  have h3 := hg.1
  have h4 := hg.2
  by_cases hk : g.key = f.key
  · apply Nat.eq_of_testBit_eq
    intro i
    rw [testBit_rd _ hg, testBit_rd _ hg]
    unfold State.wr
    rw [hk, State.setReg_same]
    by_cases hi : i ≤ g.hi - g.lo
    · rw [getLsbD_putFld _ h1 h2 _ _ (by omega), if_neg]
      rcases h with h | h | h
      · exact absurd hk.symm h
      all_goals omega
    · simp [hi]
  · unfold State.rd State.wr
    rw [State.setReg_other _ _ _ hk]

/-- A write of a field leaves every other register alone. -/
theorem reg_wr_other (s : State) (f : Fld) (v : Nat) {j : Nat} (h : j ≠ f.key) : (s.wr f v).reg j = s.reg j :=
  State.setReg_other _ _ _ h

/-- A write of a register leaves the fields of every other register alone. -/
theorem rd_setReg_other (s : State) (k : Nat) (w : Word) {g : Fld} (h : g.key ≠ k) :
    (s.setReg k w).rd g = s.rd g := by
  unfold State.rd
  rw [State.setReg_other _ _ _ h]

/-- A field fits its width. -/
theorem rd_lt (s : State) {f : Fld} (h : f.ok) : s.rd f < 2 ^ (f.hi + 1 - f.lo) := by
  have h1 := h.1
  apply Nat.lt_pow_two_of_testBit
  intro i hi
  rw [testBit_rd _ h]
  simp [show ¬ i ≤ f.hi - f.lo by omega]

/-- Writing back what a field reads changes nothing that it reads. -/
theorem rd_wr_of_lt (s : State) {f : Fld} (h : f.ok) {v : Nat} (hv : v < 2 ^ (f.hi + 1 - f.lo)) :
    (s.wr f v).rd f = v := by
  rw [rd_wr_same s h, Nat.mod_eq_of_lt hv]

/-- A set bit: the field is on. -/
theorem on_wr_same (s : State) {f : Fld} (h : f.ok) (hw : f.hi = f.lo) (b : Bool) : (s.wr f (b2n b)).on f = b := by
  unfold State.on
  rw [rd_wr_same s h, hw]
  cases b <;> simp [b2n]

/-- A write of a field leaves the truth of every field that shares no bit with it alone. -/
theorem on_wr_apart (s : State) {f g : Fld} (hf : f.ok) (hg : g.ok) (h : f.apart g) (v : Nat) :
    (s.wr f v).on g = s.on g := by
  unfold State.on
  rw [rd_wr_apart s hf hg h]

/-- States with the same registers read their fields alike. -/
theorem rd_congr {s t : State} (h : s.regs = t.regs) (f : Fld) : s.rd f = t.rd f := by
  unfold State.rd State.reg
  rw [h]

/-- States with the same registers have the same fields set. -/
theorem on_congr {s t : State} (h : s.regs = t.regs) (f : Fld) : s.on f = t.on f := by
  unfold State.on
  rw [rd_congr h]

@[simp] theorem State.satInc_eq (s : State) (f : Fld) (n : Nat) : s.satInc f n = s.wr f (min (s.rd f + n) f.max) := rfl
@[simp] theorem State.wrapInc_eq (s : State) (f : Fld) (n : Nat) : s.wrapInc f n = s.wr f (s.rd f + n) := rfl
@[simp] theorem State.wrBit_eq (s : State) (f : Fld) (i : Nat) (b : Bool) :
    s.wrBit f i b = s.wr f (putBit (s.rd f) i b) := rfl
@[simp] theorem State.onVxe_eq (s : State) (t : Nat) (f : Vxe → Vxe) :
    s.onVxe t f = s.onTile t fun x => { x with vxe := f x.vxe } := rfl

/-- A saturating counter after an increment that it has room for. -/
theorem rd_satInc (s : State) {f : Fld} (h : f.ok) (n : Nat) : (s.satInc f n).rd f = min (s.rd f + n) f.max := by
  rw [State.satInc_eq, rd_wr_same s h, Nat.mod_eq_of_lt]
  have : 0 < 2 ^ (f.hi + 1 - f.lo) := Nat.two_pow_pos _
  unfold Fld.max
  omega

end Sys2Proof.Machine
end

