-- ==== Sys2Proof/Laws/Ops.lean ====
section
/-! SUPPORT. What the shared operations may change: one law for each that says it once, and from it one law for each field
that it leaves alone. -/

namespace Sys2Proof.Machine

/-- A state with the same data in a field is the same state. -/
theorem when'_true (f : State → State) (s : State) : when' true f s = f s := rfl
theorem when'_false (f : State → State) (s : State) : when' false f s = s := rfl

/-- A loop over operations that each change only some fields changes only those: `R s t` says that `t` differs from `s` in them
alone. -/
theorem each_rel {α : Type} (R : State → State → Prop) (hr : ∀ s, R s s) (ht : ∀ a b c, R a b → R b c → R a c)
    (f : α → State → State) (hf : ∀ a s, R s (f a s)) (l : List α) (s : State) : R s (each l f s) := by
  unfold each
  induction l generalizing s with
  | nil => exact hr s
  | cons a l ih => exact ht _ _ _ (hf a s) (ih (f a s))

/-- An event of a vector changes the pending bits and the outbox: whatever is read without them is as before. -/
theorem raiseVector_frame {β : Sort _} (obs : State → β) (hhcfg : ∀ s x, obs { s with hcfg := x } = obs s)
    (houtbox : ∀ s x, obs { s with outbox := x } = obs s)
    (n v : Nat) (s : State) : obs (raiseVector n v s) = obs s := by
  unfold raiseVector
  simp only []
  split
  · rfl
  · split
    · exact hhcfg _ _
    · split
      · rfl
      · exact houtbox _ _
@[simp] theorem raiseVector_pending (n v : Nat) (s : State) : (raiseVector n v s).pending = s.pending :=
  raiseVector_frame State.pending (fun _ _ => rfl) (fun _ _ => rfl) n v s
@[simp] theorem raiseVector_freeCtr (n v : Nat) (s : State) : (raiseVector n v s).freeCtr = s.freeCtr :=
  raiseVector_frame State.freeCtr (fun _ _ => rfl) (fun _ _ => rfl) n v s
@[simp] theorem raiseVector_spindle (n v : Nat) (s : State) : (raiseVector n v s).spindle = s.spindle :=
  raiseVector_frame State.spindle (fun _ _ => rfl) (fun _ _ => rfl) n v s
@[simp] theorem raiseVector_regs (n v : Nat) (s : State) : (raiseVector n v s).regs = s.regs :=
  raiseVector_frame State.regs (fun _ _ => rfl) (fun _ _ => rfl) n v s
@[simp] theorem raiseVector_devMem (n v : Nat) (s : State) : (raiseVector n v s).devMem = s.devMem :=
  raiseVector_frame State.devMem (fun _ _ => rfl) (fun _ _ => rfl) n v s
@[simp] theorem raiseVector_ueMarks (n v : Nat) (s : State) : (raiseVector n v s).ueMarks = s.ueMarks :=
  raiseVector_frame State.ueMarks (fun _ _ => rfl) (fun _ _ => rfl) n v s
@[simp] theorem raiseVector_chans (n v : Nat) (s : State) : (raiseVector n v s).chans = s.chans :=
  raiseVector_frame State.chans (fun _ _ => rfl) (fun _ _ => rfl) n v s
@[simp] theorem raiseVector_stretchAt (n v : Nat) (s : State) : (raiseVector n v s).stretchAt = s.stretchAt :=
  raiseVector_frame State.stretchAt (fun _ _ => rfl) (fun _ _ => rfl) n v s
@[simp] theorem raiseVector_buckets (n v : Nat) (s : State) : (raiseVector n v s).buckets = s.buckets :=
  raiseVector_frame State.buckets (fun _ _ => rfl) (fun _ _ => rfl) n v s
@[simp] theorem raiseVector_waiting (n v : Nat) (s : State) : (raiseVector n v s).waiting = s.waiting :=
  raiseVector_frame State.waiting (fun _ _ => rfl) (fun _ _ => rfl) n v s
@[simp] theorem raiseVector_ctxs (n v : Nat) (s : State) : (raiseVector n v s).ctxs = s.ctxs :=
  raiseVector_frame State.ctxs (fun _ _ => rfl) (fun _ _ => rfl) n v s
@[simp] theorem raiseVector_parts (n v : Nat) (s : State) : (raiseVector n v s).parts = s.parts :=
  raiseVector_frame State.parts (fun _ _ => rfl) (fun _ _ => rfl) n v s
@[simp] theorem raiseVector_tiles (n v : Nat) (s : State) : (raiseVector n v s).tiles = s.tiles :=
  raiseVector_frame State.tiles (fun _ _ => rfl) (fun _ _ => rfl) n v s
@[simp] theorem raiseVector_groups (n v : Nat) (s : State) : (raiseVector n v s).groups = s.groups :=
  raiseVector_frame State.groups (fun _ _ => rfl) (fun _ _ => rfl) n v s
@[simp] theorem raiseVector_engines (n v : Nat) (s : State) : (raiseVector n v s).engines = s.engines :=
  raiseVector_frame State.engines (fun _ _ => rfl) (fun _ _ => rfl) n v s
@[simp] theorem raiseVector_atsReqs (n v : Nat) (s : State) : (raiseVector n v s).atsReqs = s.atsReqs :=
  raiseVector_frame State.atsReqs (fun _ _ => rfl) (fun _ _ => rfl) n v s
@[simp] theorem raiseVector_hostReqs (n v : Nat) (s : State) : (raiseVector n v s).hostReqs = s.hostReqs :=
  raiseVector_frame State.hostReqs (fun _ _ => rfl) (fun _ _ => rfl) n v s
@[simp] theorem raiseVector_nextReq (n v : Nat) (s : State) : (raiseVector n v s).nextReq = s.nextReq :=
  raiseVector_frame State.nextReq (fun _ _ => rfl) (fun _ _ => rfl) n v s
@[simp] theorem raiseVector_pft (n v : Nat) (s : State) : (raiseVector n v s).pft = s.pft :=
  raiseVector_frame State.pft (fun _ _ => rfl) (fun _ _ => rfl) n v s
@[simp] theorem raiseVector_pftQueue (n v : Nat) (s : State) : (raiseVector n v s).pftQueue = s.pftQueue :=
  raiseVector_frame State.pftQueue (fun _ _ => rfl) (fun _ _ => rfl) n v s
@[simp] theorem raiseVector_pftSend (n v : Nat) (s : State) : (raiseVector n v s).pftSend = s.pftSend :=
  raiseVector_frame State.pftSend (fun _ _ => rfl) (fun _ _ => rfl) n v s
@[simp] theorem raiseVector_pftAt (n v : Nat) (s : State) : (raiseVector n v s).pftAt = s.pftAt :=
  raiseVector_frame State.pftAt (fun _ _ => rfl) (fun _ _ => rfl) n v s
@[simp] theorem raiseVector_invs (n v : Nat) (s : State) : (raiseVector n v s).invs = s.invs :=
  raiseVector_frame State.invs (fun _ _ => rfl) (fun _ _ => rfl) n v s
@[simp] theorem raiseVector_links (n v : Nat) (s : State) : (raiseVector n v s).links = s.links :=
  raiseVector_frame State.links (fun _ _ => rfl) (fun _ _ => rfl) n v s
@[simp] theorem raiseVector_netBufs (n v : Nat) (s : State) : (raiseVector n v s).netBufs = s.netBufs :=
  raiseVector_frame State.netBufs (fun _ _ => rfl) (fun _ _ => rfl) n v s
@[simp] theorem raiseVector_tags (n v : Nat) (s : State) : (raiseVector n v s).tags = s.tags :=
  raiseVector_frame State.tags (fun _ _ => rfl) (fun _ _ => rfl) n v s
@[simp] theorem raiseVector_owed (n v : Nat) (s : State) : (raiseVector n v s).owed = s.owed :=
  raiseVector_frame State.owed (fun _ _ => rfl) (fun _ _ => rfl) n v s
@[simp] theorem raiseVector_ctlOut (n v : Nat) (s : State) : (raiseVector n v s).ctlOut = s.ctlOut :=
  raiseVector_frame State.ctlOut (fun _ _ => rfl) (fun _ _ => rfl) n v s
@[simp] theorem raiseVector_whFlits (n v : Nat) (s : State) : (raiseVector n v s).whFlits = s.whFlits :=
  raiseVector_frame State.whFlits (fun _ _ => rfl) (fun _ _ => rfl) n v s
@[simp] theorem raiseVector_pools (n v : Nat) (s : State) : (raiseVector n v s).pools = s.pools :=
  raiseVector_frame State.pools (fun _ _ => rfl) (fun _ _ => rfl) n v s
@[simp] theorem raiseVector_mods (n v : Nat) (s : State) : (raiseVector n v s).mods = s.mods :=
  raiseVector_frame State.mods (fun _ _ => rfl) (fun _ _ => rfl) n v s
@[simp] theorem raiseVector_bdls (n v : Nat) (s : State) : (raiseVector n v s).bdls = s.bdls :=
  raiseVector_frame State.bdls (fun _ _ => rfl) (fun _ _ => rfl) n v s
@[simp] theorem raiseVector_sites (n v : Nat) (s : State) : (raiseVector n v s).sites = s.sites :=
  raiseVector_frame State.sites (fun _ _ => rfl) (fun _ _ => rfl) n v s
@[simp] theorem raiseVector_streams (n v : Nat) (s : State) : (raiseVector n v s).streams = s.streams :=
  raiseVector_frame State.streams (fun _ _ => rfl) (fun _ _ => rfl) n v s
@[simp] theorem raiseVector_doe (n v : Nat) (s : State) : (raiseVector n v s).doe = s.doe :=
  raiseVector_frame State.doe (fun _ _ => rfl) (fun _ _ => rfl) n v s
@[simp] theorem raiseVector_spdm (n v : Nat) (s : State) : (raiseVector n v s).spdm = s.spdm :=
  raiseVector_frame State.spdm (fun _ _ => rfl) (fun _ _ => rfl) n v s
@[simp] theorem raiseVector_sessions (n v : Nat) (s : State) : (raiseVector n v s).sessions = s.sessions :=
  raiseVector_frame State.sessions (fun _ _ => rfl) (fun _ _ => rfl) n v s
@[simp] theorem raiseVector_ports (n v : Nat) (s : State) : (raiseVector n v s).ports = s.ports :=
  raiseVector_frame State.ports (fun _ _ => rfl) (fun _ _ => rfl) n v s
@[simp] theorem raiseVector_clOps (n v : Nat) (s : State) : (raiseVector n v s).clOps = s.clOps :=
  raiseVector_frame State.clOps (fun _ _ => rfl) (fun _ _ => rfl) n v s
@[simp] theorem raiseVector_colls (n v : Nat) (s : State) : (raiseVector n v s).colls = s.colls :=
  raiseVector_frame State.colls (fun _ _ => rfl) (fun _ _ => rfl) n v s
@[simp] theorem raiseVector_readies (n v : Nat) (s : State) : (raiseVector n v s).readies = s.readies :=
  raiseVector_frame State.readies (fun _ _ => rfl) (fun _ _ => rfl) n v s
@[simp] theorem raiseVector_aborts (n v : Nat) (s : State) : (raiseVector n v s).aborts = s.aborts :=
  raiseVector_frame State.aborts (fun _ _ => rfl) (fun _ _ => rfl) n v s
@[simp] theorem raiseVector_held (n v : Nat) (s : State) : (raiseVector n v s).held = s.held :=
  raiseVector_frame State.held (fun _ _ => rfl) (fun _ _ => rfl) n v s
@[simp] theorem raiseVector_otp (n v : Nat) (s : State) : (raiseVector n v s).otp = s.otp :=
  raiseVector_frame State.otp (fun _ _ => rfl) (fun _ _ => rfl) n v s
@[simp] theorem raiseVector_hw (n v : Nat) (s : State) : (raiseVector n v s).hw = s.hw :=
  raiseVector_frame State.hw (fun _ _ => rfl) (fun _ _ => rfl) n v s
@[simp] theorem raiseVector_mbx (n v : Nat) (s : State) : (raiseVector n v s).mbx = s.mbx :=
  raiseVector_frame State.mbx (fun _ _ => rfl) (fun _ _ => rfl) n v s
@[simp] theorem raiseVector_flash (n v : Nat) (s : State) : (raiseVector n v s).flash = s.flash :=
  raiseVector_frame State.flash (fun _ _ => rfl) (fun _ _ => rfl) n v s
@[simp] theorem raiseVector_sset0 (n v : Nat) (s : State) : (raiseVector n v s).sset0 = s.sset0 :=
  raiseVector_frame State.sset0 (fun _ _ => rfl) (fun _ _ => rfl) n v s
@[simp] theorem raiseVector_sset1 (n v : Nat) (s : State) : (raiseVector n v s).sset1 = s.sset1 :=
  raiseVector_frame State.sset1 (fun _ _ => rfl) (fun _ _ => rfl) n v s
@[simp] theorem raiseVector_saved (n v : Nat) (s : State) : (raiseVector n v s).saved = s.saved :=
  raiseVector_frame State.saved (fun _ _ => rfl) (fun _ _ => rfl) n v s
@[simp] theorem raiseVector_ssetDirty (n v : Nat) (s : State) : (raiseVector n v s).ssetDirty = s.ssetDirty :=
  raiseVector_frame State.ssetDirty (fun _ _ => rfl) (fun _ _ => rfl) n v s
@[simp] theorem raiseVector_image (n v : Nat) (s : State) : (raiseVector n v s).image = s.image :=
  raiseVector_frame State.image (fun _ _ => rfl) (fun _ _ => rfl) n v s
@[simp] theorem raiseVector_bb (n v : Nat) (s : State) : (raiseVector n v s).bb = s.bb :=
  raiseVector_frame State.bb (fun _ _ => rfl) (fun _ _ => rfl) n v s
@[simp] theorem raiseVector_tls (n v : Nat) (s : State) : (raiseVector n v s).tls = s.tls :=
  raiseVector_frame State.tls (fun _ _ => rfl) (fun _ _ => rfl) n v s
@[simp] theorem raiseVector_power (n v : Nat) (s : State) : (raiseVector n v s).power = s.power :=
  raiseVector_frame State.power (fun _ _ => rfl) (fun _ _ => rfl) n v s
@[simp] theorem raiseVector_pins (n v : Nat) (s : State) : (raiseVector n v s).pins = s.pins :=
  raiseVector_frame State.pins (fun _ _ => rfl) (fun _ _ => rfl) n v s
@[simp] theorem raiseVector_boot (n v : Nat) (s : State) : (raiseVector n v s).boot = s.boot :=
  raiseVector_frame State.boot (fun _ _ => rfl) (fun _ _ => rfl) n v s
@[simp] theorem raiseVector_at_ctx (n v : Nat) (j : Nat) (s : State) : (raiseVector n v s).ctx j = s.ctx j :=
  raiseVector_frame (fun s => s.ctx j) (fun _ _ => rfl) (fun _ _ => rfl) n v s
@[simp] theorem raiseVector_at_chan (n v : Nat) (j : Nat) (s : State) : (raiseVector n v s).chan j = s.chan j :=
  raiseVector_frame (fun s => s.chan j) (fun _ _ => rfl) (fun _ _ => rfl) n v s
@[simp] theorem raiseVector_at_part (n v : Nat) (j : Nat) (s : State) : (raiseVector n v s).part j = s.part j :=
  raiseVector_frame (fun s => s.part j) (fun _ _ => rfl) (fun _ _ => rfl) n v s
@[simp] theorem raiseVector_at_tile (n v : Nat) (j : Nat) (s : State) : (raiseVector n v s).tile j = s.tile j :=
  raiseVector_frame (fun s => s.tile j) (fun _ _ => rfl) (fun _ _ => rfl) n v s
@[simp] theorem raiseVector_at_group (n v : Nat) (j : Nat) (s : State) : (raiseVector n v s).group j = s.group j :=
  raiseVector_frame (fun s => s.group j) (fun _ _ => rfl) (fun _ _ => rfl) n v s
@[simp] theorem raiseVector_at_pool (n v : Nat) (j : Nat) (s : State) : (raiseVector n v s).pool j = s.pool j :=
  raiseVector_frame (fun s => s.pool j) (fun _ _ => rfl) (fun _ _ => rfl) n v s
@[simp] theorem raiseVector_at_mod (n v : Nat) (j : Nat) (s : State) : (raiseVector n v s).mod j = s.mod j :=
  raiseVector_frame (fun s => s.mod j) (fun _ _ => rfl) (fun _ _ => rfl) n v s
@[simp] theorem raiseVector_at_bdl (n v : Nat) (j : Nat) (s : State) : (raiseVector n v s).bdl j = s.bdl j :=
  raiseVector_frame (fun s => s.bdl j) (fun _ _ => rfl) (fun _ _ => rfl) n v s
@[simp] theorem raiseVector_at_site (n v : Nat) (j : Nat) (s : State) : (raiseVector n v s).site j = s.site j :=
  raiseVector_frame (fun s => s.site j) (fun _ _ => rfl) (fun _ _ => rfl) n v s
@[simp] theorem raiseVector_at_port (n v : Nat) (j : Nat) (s : State) : (raiseVector n v s).port j = s.port j :=
  raiseVector_frame (fun s => s.port j) (fun _ _ => rfl) (fun _ _ => rfl) n v s
@[simp] theorem raiseVector_at_now (n v : Nat)  (s : State) : (raiseVector n v s).now = s.now :=
  raiseVector_frame (fun s => s.now) (fun _ _ => rfl) (fun _ _ => rfl) n v s
@[simp] theorem raiseVector_at_reg (n v : Nat) (j : Nat) (s : State) : (raiseVector n v s).reg j = s.reg j :=
  raiseVector_frame (fun s => s.reg j) (fun _ _ => rfl) (fun _ _ => rfl) n v s
@[simp] theorem raiseVector_at_rd (n v : Nat) (g : Fld) (s : State) : (raiseVector n v s).rd g = s.rd g :=
  raiseVector_frame (fun s => s.rd g) (fun _ _ => rfl) (fun _ _ => rfl) n v s
@[simp] theorem raiseVector_at_on (n v : Nat) (g : Fld) (s : State) : (raiseVector n v s).on g = s.on g :=
  raiseVector_frame (fun s => s.on g) (fun _ _ => rfl) (fun _ _ => rfl) n v s
@[simp] theorem raiseVector_at_lc (n v : Nat)  (s : State) : (raiseVector n v s).lc = s.lc :=
  raiseVector_frame (fun s => s.lc) (fun _ _ => rfl) (fun _ _ => rfl) n v s

/-- An entry of the trace window changes the state of Tailstock beside its registers. -/
theorem traceEntry_frame {β : Sort _} (obs : State → β) (htls : ∀ s x, obs { s with tls := x } = obs s)
    (w : Nat × Nat) (s : State) : obs (traceEntry w s) = obs s := by
  unfold traceEntry
  split
  · exact htls _ _
  · rfl
@[simp] theorem traceEntry_pending (w : Nat × Nat) (s : State) : (traceEntry w s).pending = s.pending :=
  traceEntry_frame State.pending (fun _ _ => rfl) w s
@[simp] theorem traceEntry_outbox (w : Nat × Nat) (s : State) : (traceEntry w s).outbox = s.outbox :=
  traceEntry_frame State.outbox (fun _ _ => rfl) w s
@[simp] theorem traceEntry_freeCtr (w : Nat × Nat) (s : State) : (traceEntry w s).freeCtr = s.freeCtr :=
  traceEntry_frame State.freeCtr (fun _ _ => rfl) w s
@[simp] theorem traceEntry_spindle (w : Nat × Nat) (s : State) : (traceEntry w s).spindle = s.spindle :=
  traceEntry_frame State.spindle (fun _ _ => rfl) w s
@[simp] theorem traceEntry_regs (w : Nat × Nat) (s : State) : (traceEntry w s).regs = s.regs :=
  traceEntry_frame State.regs (fun _ _ => rfl) w s
@[simp] theorem traceEntry_devMem (w : Nat × Nat) (s : State) : (traceEntry w s).devMem = s.devMem :=
  traceEntry_frame State.devMem (fun _ _ => rfl) w s
@[simp] theorem traceEntry_ueMarks (w : Nat × Nat) (s : State) : (traceEntry w s).ueMarks = s.ueMarks :=
  traceEntry_frame State.ueMarks (fun _ _ => rfl) w s
@[simp] theorem traceEntry_chans (w : Nat × Nat) (s : State) : (traceEntry w s).chans = s.chans :=
  traceEntry_frame State.chans (fun _ _ => rfl) w s
@[simp] theorem traceEntry_stretchAt (w : Nat × Nat) (s : State) : (traceEntry w s).stretchAt = s.stretchAt :=
  traceEntry_frame State.stretchAt (fun _ _ => rfl) w s
@[simp] theorem traceEntry_buckets (w : Nat × Nat) (s : State) : (traceEntry w s).buckets = s.buckets :=
  traceEntry_frame State.buckets (fun _ _ => rfl) w s
@[simp] theorem traceEntry_waiting (w : Nat × Nat) (s : State) : (traceEntry w s).waiting = s.waiting :=
  traceEntry_frame State.waiting (fun _ _ => rfl) w s
@[simp] theorem traceEntry_ctxs (w : Nat × Nat) (s : State) : (traceEntry w s).ctxs = s.ctxs :=
  traceEntry_frame State.ctxs (fun _ _ => rfl) w s
@[simp] theorem traceEntry_parts (w : Nat × Nat) (s : State) : (traceEntry w s).parts = s.parts :=
  traceEntry_frame State.parts (fun _ _ => rfl) w s
@[simp] theorem traceEntry_tiles (w : Nat × Nat) (s : State) : (traceEntry w s).tiles = s.tiles :=
  traceEntry_frame State.tiles (fun _ _ => rfl) w s
@[simp] theorem traceEntry_groups (w : Nat × Nat) (s : State) : (traceEntry w s).groups = s.groups :=
  traceEntry_frame State.groups (fun _ _ => rfl) w s
@[simp] theorem traceEntry_engines (w : Nat × Nat) (s : State) : (traceEntry w s).engines = s.engines :=
  traceEntry_frame State.engines (fun _ _ => rfl) w s
@[simp] theorem traceEntry_atsReqs (w : Nat × Nat) (s : State) : (traceEntry w s).atsReqs = s.atsReqs :=
  traceEntry_frame State.atsReqs (fun _ _ => rfl) w s
@[simp] theorem traceEntry_hostReqs (w : Nat × Nat) (s : State) : (traceEntry w s).hostReqs = s.hostReqs :=
  traceEntry_frame State.hostReqs (fun _ _ => rfl) w s
@[simp] theorem traceEntry_nextReq (w : Nat × Nat) (s : State) : (traceEntry w s).nextReq = s.nextReq :=
  traceEntry_frame State.nextReq (fun _ _ => rfl) w s
@[simp] theorem traceEntry_pft (w : Nat × Nat) (s : State) : (traceEntry w s).pft = s.pft :=
  traceEntry_frame State.pft (fun _ _ => rfl) w s
@[simp] theorem traceEntry_pftQueue (w : Nat × Nat) (s : State) : (traceEntry w s).pftQueue = s.pftQueue :=
  traceEntry_frame State.pftQueue (fun _ _ => rfl) w s
@[simp] theorem traceEntry_pftSend (w : Nat × Nat) (s : State) : (traceEntry w s).pftSend = s.pftSend :=
  traceEntry_frame State.pftSend (fun _ _ => rfl) w s
@[simp] theorem traceEntry_pftAt (w : Nat × Nat) (s : State) : (traceEntry w s).pftAt = s.pftAt :=
  traceEntry_frame State.pftAt (fun _ _ => rfl) w s
@[simp] theorem traceEntry_invs (w : Nat × Nat) (s : State) : (traceEntry w s).invs = s.invs :=
  traceEntry_frame State.invs (fun _ _ => rfl) w s
@[simp] theorem traceEntry_links (w : Nat × Nat) (s : State) : (traceEntry w s).links = s.links :=
  traceEntry_frame State.links (fun _ _ => rfl) w s
@[simp] theorem traceEntry_netBufs (w : Nat × Nat) (s : State) : (traceEntry w s).netBufs = s.netBufs :=
  traceEntry_frame State.netBufs (fun _ _ => rfl) w s
@[simp] theorem traceEntry_tags (w : Nat × Nat) (s : State) : (traceEntry w s).tags = s.tags :=
  traceEntry_frame State.tags (fun _ _ => rfl) w s
@[simp] theorem traceEntry_owed (w : Nat × Nat) (s : State) : (traceEntry w s).owed = s.owed :=
  traceEntry_frame State.owed (fun _ _ => rfl) w s
@[simp] theorem traceEntry_ctlOut (w : Nat × Nat) (s : State) : (traceEntry w s).ctlOut = s.ctlOut :=
  traceEntry_frame State.ctlOut (fun _ _ => rfl) w s
@[simp] theorem traceEntry_whFlits (w : Nat × Nat) (s : State) : (traceEntry w s).whFlits = s.whFlits :=
  traceEntry_frame State.whFlits (fun _ _ => rfl) w s
@[simp] theorem traceEntry_pools (w : Nat × Nat) (s : State) : (traceEntry w s).pools = s.pools :=
  traceEntry_frame State.pools (fun _ _ => rfl) w s
@[simp] theorem traceEntry_mods (w : Nat × Nat) (s : State) : (traceEntry w s).mods = s.mods :=
  traceEntry_frame State.mods (fun _ _ => rfl) w s
@[simp] theorem traceEntry_bdls (w : Nat × Nat) (s : State) : (traceEntry w s).bdls = s.bdls :=
  traceEntry_frame State.bdls (fun _ _ => rfl) w s
@[simp] theorem traceEntry_sites (w : Nat × Nat) (s : State) : (traceEntry w s).sites = s.sites :=
  traceEntry_frame State.sites (fun _ _ => rfl) w s
@[simp] theorem traceEntry_hcfg (w : Nat × Nat) (s : State) : (traceEntry w s).hcfg = s.hcfg :=
  traceEntry_frame State.hcfg (fun _ _ => rfl) w s
@[simp] theorem traceEntry_streams (w : Nat × Nat) (s : State) : (traceEntry w s).streams = s.streams :=
  traceEntry_frame State.streams (fun _ _ => rfl) w s
@[simp] theorem traceEntry_doe (w : Nat × Nat) (s : State) : (traceEntry w s).doe = s.doe :=
  traceEntry_frame State.doe (fun _ _ => rfl) w s
@[simp] theorem traceEntry_spdm (w : Nat × Nat) (s : State) : (traceEntry w s).spdm = s.spdm :=
  traceEntry_frame State.spdm (fun _ _ => rfl) w s
@[simp] theorem traceEntry_sessions (w : Nat × Nat) (s : State) : (traceEntry w s).sessions = s.sessions :=
  traceEntry_frame State.sessions (fun _ _ => rfl) w s
@[simp] theorem traceEntry_ports (w : Nat × Nat) (s : State) : (traceEntry w s).ports = s.ports :=
  traceEntry_frame State.ports (fun _ _ => rfl) w s
@[simp] theorem traceEntry_clOps (w : Nat × Nat) (s : State) : (traceEntry w s).clOps = s.clOps :=
  traceEntry_frame State.clOps (fun _ _ => rfl) w s
@[simp] theorem traceEntry_colls (w : Nat × Nat) (s : State) : (traceEntry w s).colls = s.colls :=
  traceEntry_frame State.colls (fun _ _ => rfl) w s
@[simp] theorem traceEntry_readies (w : Nat × Nat) (s : State) : (traceEntry w s).readies = s.readies :=
  traceEntry_frame State.readies (fun _ _ => rfl) w s
@[simp] theorem traceEntry_aborts (w : Nat × Nat) (s : State) : (traceEntry w s).aborts = s.aborts :=
  traceEntry_frame State.aborts (fun _ _ => rfl) w s
@[simp] theorem traceEntry_held (w : Nat × Nat) (s : State) : (traceEntry w s).held = s.held :=
  traceEntry_frame State.held (fun _ _ => rfl) w s
@[simp] theorem traceEntry_otp (w : Nat × Nat) (s : State) : (traceEntry w s).otp = s.otp :=
  traceEntry_frame State.otp (fun _ _ => rfl) w s
@[simp] theorem traceEntry_hw (w : Nat × Nat) (s : State) : (traceEntry w s).hw = s.hw :=
  traceEntry_frame State.hw (fun _ _ => rfl) w s
@[simp] theorem traceEntry_mbx (w : Nat × Nat) (s : State) : (traceEntry w s).mbx = s.mbx :=
  traceEntry_frame State.mbx (fun _ _ => rfl) w s
@[simp] theorem traceEntry_flash (w : Nat × Nat) (s : State) : (traceEntry w s).flash = s.flash :=
  traceEntry_frame State.flash (fun _ _ => rfl) w s
@[simp] theorem traceEntry_sset0 (w : Nat × Nat) (s : State) : (traceEntry w s).sset0 = s.sset0 :=
  traceEntry_frame State.sset0 (fun _ _ => rfl) w s
@[simp] theorem traceEntry_sset1 (w : Nat × Nat) (s : State) : (traceEntry w s).sset1 = s.sset1 :=
  traceEntry_frame State.sset1 (fun _ _ => rfl) w s
@[simp] theorem traceEntry_saved (w : Nat × Nat) (s : State) : (traceEntry w s).saved = s.saved :=
  traceEntry_frame State.saved (fun _ _ => rfl) w s
@[simp] theorem traceEntry_ssetDirty (w : Nat × Nat) (s : State) : (traceEntry w s).ssetDirty = s.ssetDirty :=
  traceEntry_frame State.ssetDirty (fun _ _ => rfl) w s
@[simp] theorem traceEntry_image (w : Nat × Nat) (s : State) : (traceEntry w s).image = s.image :=
  traceEntry_frame State.image (fun _ _ => rfl) w s
@[simp] theorem traceEntry_bb (w : Nat × Nat) (s : State) : (traceEntry w s).bb = s.bb :=
  traceEntry_frame State.bb (fun _ _ => rfl) w s
@[simp] theorem traceEntry_power (w : Nat × Nat) (s : State) : (traceEntry w s).power = s.power :=
  traceEntry_frame State.power (fun _ _ => rfl) w s
@[simp] theorem traceEntry_pins (w : Nat × Nat) (s : State) : (traceEntry w s).pins = s.pins :=
  traceEntry_frame State.pins (fun _ _ => rfl) w s
@[simp] theorem traceEntry_boot (w : Nat × Nat) (s : State) : (traceEntry w s).boot = s.boot :=
  traceEntry_frame State.boot (fun _ _ => rfl) w s
@[simp] theorem traceEntry_at_ctx (w : Nat × Nat) (j : Nat) (s : State) : (traceEntry w s).ctx j = s.ctx j :=
  traceEntry_frame (fun s => s.ctx j) (fun _ _ => rfl) w s
@[simp] theorem traceEntry_at_chan (w : Nat × Nat) (j : Nat) (s : State) : (traceEntry w s).chan j = s.chan j :=
  traceEntry_frame (fun s => s.chan j) (fun _ _ => rfl) w s
@[simp] theorem traceEntry_at_part (w : Nat × Nat) (j : Nat) (s : State) : (traceEntry w s).part j = s.part j :=
  traceEntry_frame (fun s => s.part j) (fun _ _ => rfl) w s
@[simp] theorem traceEntry_at_tile (w : Nat × Nat) (j : Nat) (s : State) : (traceEntry w s).tile j = s.tile j :=
  traceEntry_frame (fun s => s.tile j) (fun _ _ => rfl) w s
@[simp] theorem traceEntry_at_group (w : Nat × Nat) (j : Nat) (s : State) : (traceEntry w s).group j = s.group j :=
  traceEntry_frame (fun s => s.group j) (fun _ _ => rfl) w s
@[simp] theorem traceEntry_at_pool (w : Nat × Nat) (j : Nat) (s : State) : (traceEntry w s).pool j = s.pool j :=
  traceEntry_frame (fun s => s.pool j) (fun _ _ => rfl) w s
@[simp] theorem traceEntry_at_mod (w : Nat × Nat) (j : Nat) (s : State) : (traceEntry w s).mod j = s.mod j :=
  traceEntry_frame (fun s => s.mod j) (fun _ _ => rfl) w s
@[simp] theorem traceEntry_at_bdl (w : Nat × Nat) (j : Nat) (s : State) : (traceEntry w s).bdl j = s.bdl j :=
  traceEntry_frame (fun s => s.bdl j) (fun _ _ => rfl) w s
@[simp] theorem traceEntry_at_site (w : Nat × Nat) (j : Nat) (s : State) : (traceEntry w s).site j = s.site j :=
  traceEntry_frame (fun s => s.site j) (fun _ _ => rfl) w s
@[simp] theorem traceEntry_at_cfg (w : Nat × Nat) (j : Nat) (s : State) : (traceEntry w s).cfg j = s.cfg j :=
  traceEntry_frame (fun s => s.cfg j) (fun _ _ => rfl) w s
@[simp] theorem traceEntry_at_port (w : Nat × Nat) (j : Nat) (s : State) : (traceEntry w s).port j = s.port j :=
  traceEntry_frame (fun s => s.port j) (fun _ _ => rfl) w s
@[simp] theorem traceEntry_at_now (w : Nat × Nat)  (s : State) : (traceEntry w s).now = s.now :=
  traceEntry_frame (fun s => s.now) (fun _ _ => rfl) w s
@[simp] theorem traceEntry_at_reg (w : Nat × Nat) (j : Nat) (s : State) : (traceEntry w s).reg j = s.reg j :=
  traceEntry_frame (fun s => s.reg j) (fun _ _ => rfl) w s
@[simp] theorem traceEntry_at_rd (w : Nat × Nat) (g : Fld) (s : State) : (traceEntry w s).rd g = s.rd g :=
  traceEntry_frame (fun s => s.rd g) (fun _ _ => rfl) w s
@[simp] theorem traceEntry_at_on (w : Nat × Nat) (g : Fld) (s : State) : (traceEntry w s).on g = s.on g :=
  traceEntry_frame (fun s => s.on g) (fun _ _ => rfl) w s
@[simp] theorem traceEntry_at_lc (w : Nat × Nat)  (s : State) : (traceEntry w s).lc = s.lc :=
  traceEntry_frame (fun s => s.lc) (fun _ _ => rfl) w s

/-- A trace event likewise. -/
theorem traceEvent_frame {β : Sort _} (obs : State → β) (htls : ∀ s x, obs { s with tls := x } = obs s)
    (code source arg : Nat) (c : Option Nat) (s : State) : obs (traceEvent code source arg c s) = obs s := by
  exact traceEntry_frame obs htls _ s
@[simp] theorem traceEvent_pending (code source arg : Nat) (c : Option Nat) (s : State) : (traceEvent code source arg c s).pending = s.pending :=
  traceEvent_frame State.pending (fun _ _ => rfl) code source arg c s
@[simp] theorem traceEvent_outbox (code source arg : Nat) (c : Option Nat) (s : State) : (traceEvent code source arg c s).outbox = s.outbox :=
  traceEvent_frame State.outbox (fun _ _ => rfl) code source arg c s
@[simp] theorem traceEvent_freeCtr (code source arg : Nat) (c : Option Nat) (s : State) : (traceEvent code source arg c s).freeCtr = s.freeCtr :=
  traceEvent_frame State.freeCtr (fun _ _ => rfl) code source arg c s
@[simp] theorem traceEvent_spindle (code source arg : Nat) (c : Option Nat) (s : State) : (traceEvent code source arg c s).spindle = s.spindle :=
  traceEvent_frame State.spindle (fun _ _ => rfl) code source arg c s
@[simp] theorem traceEvent_regs (code source arg : Nat) (c : Option Nat) (s : State) : (traceEvent code source arg c s).regs = s.regs :=
  traceEvent_frame State.regs (fun _ _ => rfl) code source arg c s
@[simp] theorem traceEvent_devMem (code source arg : Nat) (c : Option Nat) (s : State) : (traceEvent code source arg c s).devMem = s.devMem :=
  traceEvent_frame State.devMem (fun _ _ => rfl) code source arg c s
@[simp] theorem traceEvent_ueMarks (code source arg : Nat) (c : Option Nat) (s : State) : (traceEvent code source arg c s).ueMarks = s.ueMarks :=
  traceEvent_frame State.ueMarks (fun _ _ => rfl) code source arg c s
@[simp] theorem traceEvent_chans (code source arg : Nat) (c : Option Nat) (s : State) : (traceEvent code source arg c s).chans = s.chans :=
  traceEvent_frame State.chans (fun _ _ => rfl) code source arg c s
@[simp] theorem traceEvent_stretchAt (code source arg : Nat) (c : Option Nat) (s : State) : (traceEvent code source arg c s).stretchAt = s.stretchAt :=
  traceEvent_frame State.stretchAt (fun _ _ => rfl) code source arg c s
@[simp] theorem traceEvent_buckets (code source arg : Nat) (c : Option Nat) (s : State) : (traceEvent code source arg c s).buckets = s.buckets :=
  traceEvent_frame State.buckets (fun _ _ => rfl) code source arg c s
@[simp] theorem traceEvent_waiting (code source arg : Nat) (c : Option Nat) (s : State) : (traceEvent code source arg c s).waiting = s.waiting :=
  traceEvent_frame State.waiting (fun _ _ => rfl) code source arg c s
@[simp] theorem traceEvent_ctxs (code source arg : Nat) (c : Option Nat) (s : State) : (traceEvent code source arg c s).ctxs = s.ctxs :=
  traceEvent_frame State.ctxs (fun _ _ => rfl) code source arg c s
@[simp] theorem traceEvent_parts (code source arg : Nat) (c : Option Nat) (s : State) : (traceEvent code source arg c s).parts = s.parts :=
  traceEvent_frame State.parts (fun _ _ => rfl) code source arg c s
@[simp] theorem traceEvent_tiles (code source arg : Nat) (c : Option Nat) (s : State) : (traceEvent code source arg c s).tiles = s.tiles :=
  traceEvent_frame State.tiles (fun _ _ => rfl) code source arg c s
@[simp] theorem traceEvent_groups (code source arg : Nat) (c : Option Nat) (s : State) : (traceEvent code source arg c s).groups = s.groups :=
  traceEvent_frame State.groups (fun _ _ => rfl) code source arg c s
@[simp] theorem traceEvent_engines (code source arg : Nat) (c : Option Nat) (s : State) : (traceEvent code source arg c s).engines = s.engines :=
  traceEvent_frame State.engines (fun _ _ => rfl) code source arg c s
@[simp] theorem traceEvent_atsReqs (code source arg : Nat) (c : Option Nat) (s : State) : (traceEvent code source arg c s).atsReqs = s.atsReqs :=
  traceEvent_frame State.atsReqs (fun _ _ => rfl) code source arg c s
@[simp] theorem traceEvent_hostReqs (code source arg : Nat) (c : Option Nat) (s : State) : (traceEvent code source arg c s).hostReqs = s.hostReqs :=
  traceEvent_frame State.hostReqs (fun _ _ => rfl) code source arg c s
@[simp] theorem traceEvent_nextReq (code source arg : Nat) (c : Option Nat) (s : State) : (traceEvent code source arg c s).nextReq = s.nextReq :=
  traceEvent_frame State.nextReq (fun _ _ => rfl) code source arg c s
@[simp] theorem traceEvent_pft (code source arg : Nat) (c : Option Nat) (s : State) : (traceEvent code source arg c s).pft = s.pft :=
  traceEvent_frame State.pft (fun _ _ => rfl) code source arg c s
@[simp] theorem traceEvent_pftQueue (code source arg : Nat) (c : Option Nat) (s : State) : (traceEvent code source arg c s).pftQueue = s.pftQueue :=
  traceEvent_frame State.pftQueue (fun _ _ => rfl) code source arg c s
@[simp] theorem traceEvent_pftSend (code source arg : Nat) (c : Option Nat) (s : State) : (traceEvent code source arg c s).pftSend = s.pftSend :=
  traceEvent_frame State.pftSend (fun _ _ => rfl) code source arg c s
@[simp] theorem traceEvent_pftAt (code source arg : Nat) (c : Option Nat) (s : State) : (traceEvent code source arg c s).pftAt = s.pftAt :=
  traceEvent_frame State.pftAt (fun _ _ => rfl) code source arg c s
@[simp] theorem traceEvent_invs (code source arg : Nat) (c : Option Nat) (s : State) : (traceEvent code source arg c s).invs = s.invs :=
  traceEvent_frame State.invs (fun _ _ => rfl) code source arg c s
@[simp] theorem traceEvent_links (code source arg : Nat) (c : Option Nat) (s : State) : (traceEvent code source arg c s).links = s.links :=
  traceEvent_frame State.links (fun _ _ => rfl) code source arg c s
@[simp] theorem traceEvent_netBufs (code source arg : Nat) (c : Option Nat) (s : State) : (traceEvent code source arg c s).netBufs = s.netBufs :=
  traceEvent_frame State.netBufs (fun _ _ => rfl) code source arg c s
@[simp] theorem traceEvent_tags (code source arg : Nat) (c : Option Nat) (s : State) : (traceEvent code source arg c s).tags = s.tags :=
  traceEvent_frame State.tags (fun _ _ => rfl) code source arg c s
@[simp] theorem traceEvent_owed (code source arg : Nat) (c : Option Nat) (s : State) : (traceEvent code source arg c s).owed = s.owed :=
  traceEvent_frame State.owed (fun _ _ => rfl) code source arg c s
@[simp] theorem traceEvent_ctlOut (code source arg : Nat) (c : Option Nat) (s : State) : (traceEvent code source arg c s).ctlOut = s.ctlOut :=
  traceEvent_frame State.ctlOut (fun _ _ => rfl) code source arg c s
@[simp] theorem traceEvent_whFlits (code source arg : Nat) (c : Option Nat) (s : State) : (traceEvent code source arg c s).whFlits = s.whFlits :=
  traceEvent_frame State.whFlits (fun _ _ => rfl) code source arg c s
@[simp] theorem traceEvent_pools (code source arg : Nat) (c : Option Nat) (s : State) : (traceEvent code source arg c s).pools = s.pools :=
  traceEvent_frame State.pools (fun _ _ => rfl) code source arg c s
@[simp] theorem traceEvent_mods (code source arg : Nat) (c : Option Nat) (s : State) : (traceEvent code source arg c s).mods = s.mods :=
  traceEvent_frame State.mods (fun _ _ => rfl) code source arg c s
@[simp] theorem traceEvent_bdls (code source arg : Nat) (c : Option Nat) (s : State) : (traceEvent code source arg c s).bdls = s.bdls :=
  traceEvent_frame State.bdls (fun _ _ => rfl) code source arg c s
@[simp] theorem traceEvent_sites (code source arg : Nat) (c : Option Nat) (s : State) : (traceEvent code source arg c s).sites = s.sites :=
  traceEvent_frame State.sites (fun _ _ => rfl) code source arg c s
@[simp] theorem traceEvent_hcfg (code source arg : Nat) (c : Option Nat) (s : State) : (traceEvent code source arg c s).hcfg = s.hcfg :=
  traceEvent_frame State.hcfg (fun _ _ => rfl) code source arg c s
@[simp] theorem traceEvent_streams (code source arg : Nat) (c : Option Nat) (s : State) : (traceEvent code source arg c s).streams = s.streams :=
  traceEvent_frame State.streams (fun _ _ => rfl) code source arg c s
@[simp] theorem traceEvent_doe (code source arg : Nat) (c : Option Nat) (s : State) : (traceEvent code source arg c s).doe = s.doe :=
  traceEvent_frame State.doe (fun _ _ => rfl) code source arg c s
@[simp] theorem traceEvent_spdm (code source arg : Nat) (c : Option Nat) (s : State) : (traceEvent code source arg c s).spdm = s.spdm :=
  traceEvent_frame State.spdm (fun _ _ => rfl) code source arg c s
@[simp] theorem traceEvent_sessions (code source arg : Nat) (c : Option Nat) (s : State) : (traceEvent code source arg c s).sessions = s.sessions :=
  traceEvent_frame State.sessions (fun _ _ => rfl) code source arg c s
@[simp] theorem traceEvent_ports (code source arg : Nat) (c : Option Nat) (s : State) : (traceEvent code source arg c s).ports = s.ports :=
  traceEvent_frame State.ports (fun _ _ => rfl) code source arg c s
@[simp] theorem traceEvent_clOps (code source arg : Nat) (c : Option Nat) (s : State) : (traceEvent code source arg c s).clOps = s.clOps :=
  traceEvent_frame State.clOps (fun _ _ => rfl) code source arg c s
@[simp] theorem traceEvent_colls (code source arg : Nat) (c : Option Nat) (s : State) : (traceEvent code source arg c s).colls = s.colls :=
  traceEvent_frame State.colls (fun _ _ => rfl) code source arg c s
@[simp] theorem traceEvent_readies (code source arg : Nat) (c : Option Nat) (s : State) : (traceEvent code source arg c s).readies = s.readies :=
  traceEvent_frame State.readies (fun _ _ => rfl) code source arg c s
@[simp] theorem traceEvent_aborts (code source arg : Nat) (c : Option Nat) (s : State) : (traceEvent code source arg c s).aborts = s.aborts :=
  traceEvent_frame State.aborts (fun _ _ => rfl) code source arg c s
@[simp] theorem traceEvent_held (code source arg : Nat) (c : Option Nat) (s : State) : (traceEvent code source arg c s).held = s.held :=
  traceEvent_frame State.held (fun _ _ => rfl) code source arg c s
@[simp] theorem traceEvent_otp (code source arg : Nat) (c : Option Nat) (s : State) : (traceEvent code source arg c s).otp = s.otp :=
  traceEvent_frame State.otp (fun _ _ => rfl) code source arg c s
@[simp] theorem traceEvent_hw (code source arg : Nat) (c : Option Nat) (s : State) : (traceEvent code source arg c s).hw = s.hw :=
  traceEvent_frame State.hw (fun _ _ => rfl) code source arg c s
@[simp] theorem traceEvent_mbx (code source arg : Nat) (c : Option Nat) (s : State) : (traceEvent code source arg c s).mbx = s.mbx :=
  traceEvent_frame State.mbx (fun _ _ => rfl) code source arg c s
@[simp] theorem traceEvent_flash (code source arg : Nat) (c : Option Nat) (s : State) : (traceEvent code source arg c s).flash = s.flash :=
  traceEvent_frame State.flash (fun _ _ => rfl) code source arg c s
@[simp] theorem traceEvent_sset0 (code source arg : Nat) (c : Option Nat) (s : State) : (traceEvent code source arg c s).sset0 = s.sset0 :=
  traceEvent_frame State.sset0 (fun _ _ => rfl) code source arg c s
@[simp] theorem traceEvent_sset1 (code source arg : Nat) (c : Option Nat) (s : State) : (traceEvent code source arg c s).sset1 = s.sset1 :=
  traceEvent_frame State.sset1 (fun _ _ => rfl) code source arg c s
@[simp] theorem traceEvent_saved (code source arg : Nat) (c : Option Nat) (s : State) : (traceEvent code source arg c s).saved = s.saved :=
  traceEvent_frame State.saved (fun _ _ => rfl) code source arg c s
@[simp] theorem traceEvent_ssetDirty (code source arg : Nat) (c : Option Nat) (s : State) : (traceEvent code source arg c s).ssetDirty = s.ssetDirty :=
  traceEvent_frame State.ssetDirty (fun _ _ => rfl) code source arg c s
@[simp] theorem traceEvent_image (code source arg : Nat) (c : Option Nat) (s : State) : (traceEvent code source arg c s).image = s.image :=
  traceEvent_frame State.image (fun _ _ => rfl) code source arg c s
@[simp] theorem traceEvent_bb (code source arg : Nat) (c : Option Nat) (s : State) : (traceEvent code source arg c s).bb = s.bb :=
  traceEvent_frame State.bb (fun _ _ => rfl) code source arg c s
@[simp] theorem traceEvent_power (code source arg : Nat) (c : Option Nat) (s : State) : (traceEvent code source arg c s).power = s.power :=
  traceEvent_frame State.power (fun _ _ => rfl) code source arg c s
@[simp] theorem traceEvent_pins (code source arg : Nat) (c : Option Nat) (s : State) : (traceEvent code source arg c s).pins = s.pins :=
  traceEvent_frame State.pins (fun _ _ => rfl) code source arg c s
@[simp] theorem traceEvent_boot (code source arg : Nat) (c : Option Nat) (s : State) : (traceEvent code source arg c s).boot = s.boot :=
  traceEvent_frame State.boot (fun _ _ => rfl) code source arg c s
@[simp] theorem traceEvent_at_ctx (code source arg : Nat) (c : Option Nat) (j : Nat) (s : State) : (traceEvent code source arg c s).ctx j = s.ctx j :=
  traceEvent_frame (fun s => s.ctx j) (fun _ _ => rfl) code source arg c s
@[simp] theorem traceEvent_at_chan (code source arg : Nat) (c : Option Nat) (j : Nat) (s : State) : (traceEvent code source arg c s).chan j = s.chan j :=
  traceEvent_frame (fun s => s.chan j) (fun _ _ => rfl) code source arg c s
@[simp] theorem traceEvent_at_part (code source arg : Nat) (c : Option Nat) (j : Nat) (s : State) : (traceEvent code source arg c s).part j = s.part j :=
  traceEvent_frame (fun s => s.part j) (fun _ _ => rfl) code source arg c s
@[simp] theorem traceEvent_at_tile (code source arg : Nat) (c : Option Nat) (j : Nat) (s : State) : (traceEvent code source arg c s).tile j = s.tile j :=
  traceEvent_frame (fun s => s.tile j) (fun _ _ => rfl) code source arg c s
@[simp] theorem traceEvent_at_group (code source arg : Nat) (c : Option Nat) (j : Nat) (s : State) : (traceEvent code source arg c s).group j = s.group j :=
  traceEvent_frame (fun s => s.group j) (fun _ _ => rfl) code source arg c s
@[simp] theorem traceEvent_at_pool (code source arg : Nat) (c : Option Nat) (j : Nat) (s : State) : (traceEvent code source arg c s).pool j = s.pool j :=
  traceEvent_frame (fun s => s.pool j) (fun _ _ => rfl) code source arg c s
@[simp] theorem traceEvent_at_mod (code source arg : Nat) (c : Option Nat) (j : Nat) (s : State) : (traceEvent code source arg c s).mod j = s.mod j :=
  traceEvent_frame (fun s => s.mod j) (fun _ _ => rfl) code source arg c s
@[simp] theorem traceEvent_at_bdl (code source arg : Nat) (c : Option Nat) (j : Nat) (s : State) : (traceEvent code source arg c s).bdl j = s.bdl j :=
  traceEvent_frame (fun s => s.bdl j) (fun _ _ => rfl) code source arg c s
@[simp] theorem traceEvent_at_site (code source arg : Nat) (c : Option Nat) (j : Nat) (s : State) : (traceEvent code source arg c s).site j = s.site j :=
  traceEvent_frame (fun s => s.site j) (fun _ _ => rfl) code source arg c s
@[simp] theorem traceEvent_at_cfg (code source arg : Nat) (c : Option Nat) (j : Nat) (s : State) : (traceEvent code source arg c s).cfg j = s.cfg j :=
  traceEvent_frame (fun s => s.cfg j) (fun _ _ => rfl) code source arg c s
@[simp] theorem traceEvent_at_port (code source arg : Nat) (c : Option Nat) (j : Nat) (s : State) : (traceEvent code source arg c s).port j = s.port j :=
  traceEvent_frame (fun s => s.port j) (fun _ _ => rfl) code source arg c s
@[simp] theorem traceEvent_at_now (code source arg : Nat) (c : Option Nat)  (s : State) : (traceEvent code source arg c s).now = s.now :=
  traceEvent_frame (fun s => s.now) (fun _ _ => rfl) code source arg c s
@[simp] theorem traceEvent_at_reg (code source arg : Nat) (c : Option Nat) (j : Nat) (s : State) : (traceEvent code source arg c s).reg j = s.reg j :=
  traceEvent_frame (fun s => s.reg j) (fun _ _ => rfl) code source arg c s
@[simp] theorem traceEvent_at_rd (code source arg : Nat) (c : Option Nat) (g : Fld) (s : State) : (traceEvent code source arg c s).rd g = s.rd g :=
  traceEvent_frame (fun s => s.rd g) (fun _ _ => rfl) code source arg c s
@[simp] theorem traceEvent_at_on (code source arg : Nat) (c : Option Nat) (g : Fld) (s : State) : (traceEvent code source arg c s).on g = s.on g :=
  traceEvent_frame (fun s => s.on g) (fun _ _ => rfl) code source arg c s
@[simp] theorem traceEvent_at_lc (code source arg : Nat) (c : Option Nat)  (s : State) : (traceEvent code source arg c s).lc = s.lc :=
  traceEvent_frame (fun s => s.lc) (fun _ _ => rfl) code source arg c s

/-- An entry of TLS_EVT changes registers and the trace window. -/
theorem evtEntry_frame {β : Sort _} (obs : State → β) (hregs : ∀ s x, obs { s with regs := x } = obs s)
    (htls : ∀ s x, obs { s with tls := x } = obs s)
    (code source arg cls : Nat) (c : Option Nat) (s : State) : obs (evtEntry code source arg cls c s) = obs s := by
  unfold evtEntry
  simp only []
  split
  · exact (hregs _ _).trans ((hregs _ _).trans (hregs _ _))
  · exact (traceEntry_frame obs htls _ _).trans ((hregs _ _).trans ((hregs _ _).trans (hregs _ _)))
@[simp] theorem evtEntry_pending (code source arg cls : Nat) (c : Option Nat) (s : State) : (evtEntry code source arg cls c s).pending = s.pending :=
  evtEntry_frame State.pending (fun _ _ => rfl) (fun _ _ => rfl) code source arg cls c s
@[simp] theorem evtEntry_outbox (code source arg cls : Nat) (c : Option Nat) (s : State) : (evtEntry code source arg cls c s).outbox = s.outbox :=
  evtEntry_frame State.outbox (fun _ _ => rfl) (fun _ _ => rfl) code source arg cls c s
@[simp] theorem evtEntry_freeCtr (code source arg cls : Nat) (c : Option Nat) (s : State) : (evtEntry code source arg cls c s).freeCtr = s.freeCtr :=
  evtEntry_frame State.freeCtr (fun _ _ => rfl) (fun _ _ => rfl) code source arg cls c s
@[simp] theorem evtEntry_spindle (code source arg cls : Nat) (c : Option Nat) (s : State) : (evtEntry code source arg cls c s).spindle = s.spindle :=
  evtEntry_frame State.spindle (fun _ _ => rfl) (fun _ _ => rfl) code source arg cls c s
@[simp] theorem evtEntry_devMem (code source arg cls : Nat) (c : Option Nat) (s : State) : (evtEntry code source arg cls c s).devMem = s.devMem :=
  evtEntry_frame State.devMem (fun _ _ => rfl) (fun _ _ => rfl) code source arg cls c s
@[simp] theorem evtEntry_ueMarks (code source arg cls : Nat) (c : Option Nat) (s : State) : (evtEntry code source arg cls c s).ueMarks = s.ueMarks :=
  evtEntry_frame State.ueMarks (fun _ _ => rfl) (fun _ _ => rfl) code source arg cls c s
@[simp] theorem evtEntry_chans (code source arg cls : Nat) (c : Option Nat) (s : State) : (evtEntry code source arg cls c s).chans = s.chans :=
  evtEntry_frame State.chans (fun _ _ => rfl) (fun _ _ => rfl) code source arg cls c s
@[simp] theorem evtEntry_stretchAt (code source arg cls : Nat) (c : Option Nat) (s : State) : (evtEntry code source arg cls c s).stretchAt = s.stretchAt :=
  evtEntry_frame State.stretchAt (fun _ _ => rfl) (fun _ _ => rfl) code source arg cls c s
@[simp] theorem evtEntry_buckets (code source arg cls : Nat) (c : Option Nat) (s : State) : (evtEntry code source arg cls c s).buckets = s.buckets :=
  evtEntry_frame State.buckets (fun _ _ => rfl) (fun _ _ => rfl) code source arg cls c s
@[simp] theorem evtEntry_waiting (code source arg cls : Nat) (c : Option Nat) (s : State) : (evtEntry code source arg cls c s).waiting = s.waiting :=
  evtEntry_frame State.waiting (fun _ _ => rfl) (fun _ _ => rfl) code source arg cls c s
@[simp] theorem evtEntry_ctxs (code source arg cls : Nat) (c : Option Nat) (s : State) : (evtEntry code source arg cls c s).ctxs = s.ctxs :=
  evtEntry_frame State.ctxs (fun _ _ => rfl) (fun _ _ => rfl) code source arg cls c s
@[simp] theorem evtEntry_parts (code source arg cls : Nat) (c : Option Nat) (s : State) : (evtEntry code source arg cls c s).parts = s.parts :=
  evtEntry_frame State.parts (fun _ _ => rfl) (fun _ _ => rfl) code source arg cls c s
@[simp] theorem evtEntry_tiles (code source arg cls : Nat) (c : Option Nat) (s : State) : (evtEntry code source arg cls c s).tiles = s.tiles :=
  evtEntry_frame State.tiles (fun _ _ => rfl) (fun _ _ => rfl) code source arg cls c s
@[simp] theorem evtEntry_groups (code source arg cls : Nat) (c : Option Nat) (s : State) : (evtEntry code source arg cls c s).groups = s.groups :=
  evtEntry_frame State.groups (fun _ _ => rfl) (fun _ _ => rfl) code source arg cls c s
@[simp] theorem evtEntry_engines (code source arg cls : Nat) (c : Option Nat) (s : State) : (evtEntry code source arg cls c s).engines = s.engines :=
  evtEntry_frame State.engines (fun _ _ => rfl) (fun _ _ => rfl) code source arg cls c s
@[simp] theorem evtEntry_atsReqs (code source arg cls : Nat) (c : Option Nat) (s : State) : (evtEntry code source arg cls c s).atsReqs = s.atsReqs :=
  evtEntry_frame State.atsReqs (fun _ _ => rfl) (fun _ _ => rfl) code source arg cls c s
@[simp] theorem evtEntry_hostReqs (code source arg cls : Nat) (c : Option Nat) (s : State) : (evtEntry code source arg cls c s).hostReqs = s.hostReqs :=
  evtEntry_frame State.hostReqs (fun _ _ => rfl) (fun _ _ => rfl) code source arg cls c s
@[simp] theorem evtEntry_nextReq (code source arg cls : Nat) (c : Option Nat) (s : State) : (evtEntry code source arg cls c s).nextReq = s.nextReq :=
  evtEntry_frame State.nextReq (fun _ _ => rfl) (fun _ _ => rfl) code source arg cls c s
@[simp] theorem evtEntry_pft (code source arg cls : Nat) (c : Option Nat) (s : State) : (evtEntry code source arg cls c s).pft = s.pft :=
  evtEntry_frame State.pft (fun _ _ => rfl) (fun _ _ => rfl) code source arg cls c s
@[simp] theorem evtEntry_pftQueue (code source arg cls : Nat) (c : Option Nat) (s : State) : (evtEntry code source arg cls c s).pftQueue = s.pftQueue :=
  evtEntry_frame State.pftQueue (fun _ _ => rfl) (fun _ _ => rfl) code source arg cls c s
@[simp] theorem evtEntry_pftSend (code source arg cls : Nat) (c : Option Nat) (s : State) : (evtEntry code source arg cls c s).pftSend = s.pftSend :=
  evtEntry_frame State.pftSend (fun _ _ => rfl) (fun _ _ => rfl) code source arg cls c s
@[simp] theorem evtEntry_pftAt (code source arg cls : Nat) (c : Option Nat) (s : State) : (evtEntry code source arg cls c s).pftAt = s.pftAt :=
  evtEntry_frame State.pftAt (fun _ _ => rfl) (fun _ _ => rfl) code source arg cls c s
@[simp] theorem evtEntry_invs (code source arg cls : Nat) (c : Option Nat) (s : State) : (evtEntry code source arg cls c s).invs = s.invs :=
  evtEntry_frame State.invs (fun _ _ => rfl) (fun _ _ => rfl) code source arg cls c s
@[simp] theorem evtEntry_links (code source arg cls : Nat) (c : Option Nat) (s : State) : (evtEntry code source arg cls c s).links = s.links :=
  evtEntry_frame State.links (fun _ _ => rfl) (fun _ _ => rfl) code source arg cls c s
@[simp] theorem evtEntry_netBufs (code source arg cls : Nat) (c : Option Nat) (s : State) : (evtEntry code source arg cls c s).netBufs = s.netBufs :=
  evtEntry_frame State.netBufs (fun _ _ => rfl) (fun _ _ => rfl) code source arg cls c s
@[simp] theorem evtEntry_tags (code source arg cls : Nat) (c : Option Nat) (s : State) : (evtEntry code source arg cls c s).tags = s.tags :=
  evtEntry_frame State.tags (fun _ _ => rfl) (fun _ _ => rfl) code source arg cls c s
@[simp] theorem evtEntry_owed (code source arg cls : Nat) (c : Option Nat) (s : State) : (evtEntry code source arg cls c s).owed = s.owed :=
  evtEntry_frame State.owed (fun _ _ => rfl) (fun _ _ => rfl) code source arg cls c s
@[simp] theorem evtEntry_ctlOut (code source arg cls : Nat) (c : Option Nat) (s : State) : (evtEntry code source arg cls c s).ctlOut = s.ctlOut :=
  evtEntry_frame State.ctlOut (fun _ _ => rfl) (fun _ _ => rfl) code source arg cls c s
@[simp] theorem evtEntry_whFlits (code source arg cls : Nat) (c : Option Nat) (s : State) : (evtEntry code source arg cls c s).whFlits = s.whFlits :=
  evtEntry_frame State.whFlits (fun _ _ => rfl) (fun _ _ => rfl) code source arg cls c s
@[simp] theorem evtEntry_pools (code source arg cls : Nat) (c : Option Nat) (s : State) : (evtEntry code source arg cls c s).pools = s.pools :=
  evtEntry_frame State.pools (fun _ _ => rfl) (fun _ _ => rfl) code source arg cls c s
@[simp] theorem evtEntry_mods (code source arg cls : Nat) (c : Option Nat) (s : State) : (evtEntry code source arg cls c s).mods = s.mods :=
  evtEntry_frame State.mods (fun _ _ => rfl) (fun _ _ => rfl) code source arg cls c s
@[simp] theorem evtEntry_bdls (code source arg cls : Nat) (c : Option Nat) (s : State) : (evtEntry code source arg cls c s).bdls = s.bdls :=
  evtEntry_frame State.bdls (fun _ _ => rfl) (fun _ _ => rfl) code source arg cls c s
@[simp] theorem evtEntry_sites (code source arg cls : Nat) (c : Option Nat) (s : State) : (evtEntry code source arg cls c s).sites = s.sites :=
  evtEntry_frame State.sites (fun _ _ => rfl) (fun _ _ => rfl) code source arg cls c s
@[simp] theorem evtEntry_hcfg (code source arg cls : Nat) (c : Option Nat) (s : State) : (evtEntry code source arg cls c s).hcfg = s.hcfg :=
  evtEntry_frame State.hcfg (fun _ _ => rfl) (fun _ _ => rfl) code source arg cls c s
@[simp] theorem evtEntry_streams (code source arg cls : Nat) (c : Option Nat) (s : State) : (evtEntry code source arg cls c s).streams = s.streams :=
  evtEntry_frame State.streams (fun _ _ => rfl) (fun _ _ => rfl) code source arg cls c s
@[simp] theorem evtEntry_doe (code source arg cls : Nat) (c : Option Nat) (s : State) : (evtEntry code source arg cls c s).doe = s.doe :=
  evtEntry_frame State.doe (fun _ _ => rfl) (fun _ _ => rfl) code source arg cls c s
@[simp] theorem evtEntry_spdm (code source arg cls : Nat) (c : Option Nat) (s : State) : (evtEntry code source arg cls c s).spdm = s.spdm :=
  evtEntry_frame State.spdm (fun _ _ => rfl) (fun _ _ => rfl) code source arg cls c s
@[simp] theorem evtEntry_sessions (code source arg cls : Nat) (c : Option Nat) (s : State) : (evtEntry code source arg cls c s).sessions = s.sessions :=
  evtEntry_frame State.sessions (fun _ _ => rfl) (fun _ _ => rfl) code source arg cls c s
@[simp] theorem evtEntry_ports (code source arg cls : Nat) (c : Option Nat) (s : State) : (evtEntry code source arg cls c s).ports = s.ports :=
  evtEntry_frame State.ports (fun _ _ => rfl) (fun _ _ => rfl) code source arg cls c s
@[simp] theorem evtEntry_clOps (code source arg cls : Nat) (c : Option Nat) (s : State) : (evtEntry code source arg cls c s).clOps = s.clOps :=
  evtEntry_frame State.clOps (fun _ _ => rfl) (fun _ _ => rfl) code source arg cls c s
@[simp] theorem evtEntry_colls (code source arg cls : Nat) (c : Option Nat) (s : State) : (evtEntry code source arg cls c s).colls = s.colls :=
  evtEntry_frame State.colls (fun _ _ => rfl) (fun _ _ => rfl) code source arg cls c s
@[simp] theorem evtEntry_readies (code source arg cls : Nat) (c : Option Nat) (s : State) : (evtEntry code source arg cls c s).readies = s.readies :=
  evtEntry_frame State.readies (fun _ _ => rfl) (fun _ _ => rfl) code source arg cls c s
@[simp] theorem evtEntry_aborts (code source arg cls : Nat) (c : Option Nat) (s : State) : (evtEntry code source arg cls c s).aborts = s.aborts :=
  evtEntry_frame State.aborts (fun _ _ => rfl) (fun _ _ => rfl) code source arg cls c s
@[simp] theorem evtEntry_held (code source arg cls : Nat) (c : Option Nat) (s : State) : (evtEntry code source arg cls c s).held = s.held :=
  evtEntry_frame State.held (fun _ _ => rfl) (fun _ _ => rfl) code source arg cls c s
@[simp] theorem evtEntry_otp (code source arg cls : Nat) (c : Option Nat) (s : State) : (evtEntry code source arg cls c s).otp = s.otp :=
  evtEntry_frame State.otp (fun _ _ => rfl) (fun _ _ => rfl) code source arg cls c s
@[simp] theorem evtEntry_hw (code source arg cls : Nat) (c : Option Nat) (s : State) : (evtEntry code source arg cls c s).hw = s.hw :=
  evtEntry_frame State.hw (fun _ _ => rfl) (fun _ _ => rfl) code source arg cls c s
@[simp] theorem evtEntry_mbx (code source arg cls : Nat) (c : Option Nat) (s : State) : (evtEntry code source arg cls c s).mbx = s.mbx :=
  evtEntry_frame State.mbx (fun _ _ => rfl) (fun _ _ => rfl) code source arg cls c s
@[simp] theorem evtEntry_flash (code source arg cls : Nat) (c : Option Nat) (s : State) : (evtEntry code source arg cls c s).flash = s.flash :=
  evtEntry_frame State.flash (fun _ _ => rfl) (fun _ _ => rfl) code source arg cls c s
@[simp] theorem evtEntry_sset0 (code source arg cls : Nat) (c : Option Nat) (s : State) : (evtEntry code source arg cls c s).sset0 = s.sset0 :=
  evtEntry_frame State.sset0 (fun _ _ => rfl) (fun _ _ => rfl) code source arg cls c s
@[simp] theorem evtEntry_sset1 (code source arg cls : Nat) (c : Option Nat) (s : State) : (evtEntry code source arg cls c s).sset1 = s.sset1 :=
  evtEntry_frame State.sset1 (fun _ _ => rfl) (fun _ _ => rfl) code source arg cls c s
@[simp] theorem evtEntry_saved (code source arg cls : Nat) (c : Option Nat) (s : State) : (evtEntry code source arg cls c s).saved = s.saved :=
  evtEntry_frame State.saved (fun _ _ => rfl) (fun _ _ => rfl) code source arg cls c s
@[simp] theorem evtEntry_ssetDirty (code source arg cls : Nat) (c : Option Nat) (s : State) : (evtEntry code source arg cls c s).ssetDirty = s.ssetDirty :=
  evtEntry_frame State.ssetDirty (fun _ _ => rfl) (fun _ _ => rfl) code source arg cls c s
@[simp] theorem evtEntry_image (code source arg cls : Nat) (c : Option Nat) (s : State) : (evtEntry code source arg cls c s).image = s.image :=
  evtEntry_frame State.image (fun _ _ => rfl) (fun _ _ => rfl) code source arg cls c s
@[simp] theorem evtEntry_bb (code source arg cls : Nat) (c : Option Nat) (s : State) : (evtEntry code source arg cls c s).bb = s.bb :=
  evtEntry_frame State.bb (fun _ _ => rfl) (fun _ _ => rfl) code source arg cls c s
@[simp] theorem evtEntry_power (code source arg cls : Nat) (c : Option Nat) (s : State) : (evtEntry code source arg cls c s).power = s.power :=
  evtEntry_frame State.power (fun _ _ => rfl) (fun _ _ => rfl) code source arg cls c s
@[simp] theorem evtEntry_pins (code source arg cls : Nat) (c : Option Nat) (s : State) : (evtEntry code source arg cls c s).pins = s.pins :=
  evtEntry_frame State.pins (fun _ _ => rfl) (fun _ _ => rfl) code source arg cls c s
@[simp] theorem evtEntry_boot (code source arg cls : Nat) (c : Option Nat) (s : State) : (evtEntry code source arg cls c s).boot = s.boot :=
  evtEntry_frame State.boot (fun _ _ => rfl) (fun _ _ => rfl) code source arg cls c s
@[simp] theorem evtEntry_at_ctx (code source arg cls : Nat) (c : Option Nat) (j : Nat) (s : State) : (evtEntry code source arg cls c s).ctx j = s.ctx j :=
  evtEntry_frame (fun s => s.ctx j) (fun _ _ => rfl) (fun _ _ => rfl) code source arg cls c s
@[simp] theorem evtEntry_at_chan (code source arg cls : Nat) (c : Option Nat) (j : Nat) (s : State) : (evtEntry code source arg cls c s).chan j = s.chan j :=
  evtEntry_frame (fun s => s.chan j) (fun _ _ => rfl) (fun _ _ => rfl) code source arg cls c s
@[simp] theorem evtEntry_at_part (code source arg cls : Nat) (c : Option Nat) (j : Nat) (s : State) : (evtEntry code source arg cls c s).part j = s.part j :=
  evtEntry_frame (fun s => s.part j) (fun _ _ => rfl) (fun _ _ => rfl) code source arg cls c s
@[simp] theorem evtEntry_at_tile (code source arg cls : Nat) (c : Option Nat) (j : Nat) (s : State) : (evtEntry code source arg cls c s).tile j = s.tile j :=
  evtEntry_frame (fun s => s.tile j) (fun _ _ => rfl) (fun _ _ => rfl) code source arg cls c s
@[simp] theorem evtEntry_at_group (code source arg cls : Nat) (c : Option Nat) (j : Nat) (s : State) : (evtEntry code source arg cls c s).group j = s.group j :=
  evtEntry_frame (fun s => s.group j) (fun _ _ => rfl) (fun _ _ => rfl) code source arg cls c s
@[simp] theorem evtEntry_at_pool (code source arg cls : Nat) (c : Option Nat) (j : Nat) (s : State) : (evtEntry code source arg cls c s).pool j = s.pool j :=
  evtEntry_frame (fun s => s.pool j) (fun _ _ => rfl) (fun _ _ => rfl) code source arg cls c s
@[simp] theorem evtEntry_at_mod (code source arg cls : Nat) (c : Option Nat) (j : Nat) (s : State) : (evtEntry code source arg cls c s).mod j = s.mod j :=
  evtEntry_frame (fun s => s.mod j) (fun _ _ => rfl) (fun _ _ => rfl) code source arg cls c s
@[simp] theorem evtEntry_at_bdl (code source arg cls : Nat) (c : Option Nat) (j : Nat) (s : State) : (evtEntry code source arg cls c s).bdl j = s.bdl j :=
  evtEntry_frame (fun s => s.bdl j) (fun _ _ => rfl) (fun _ _ => rfl) code source arg cls c s
@[simp] theorem evtEntry_at_site (code source arg cls : Nat) (c : Option Nat) (j : Nat) (s : State) : (evtEntry code source arg cls c s).site j = s.site j :=
  evtEntry_frame (fun s => s.site j) (fun _ _ => rfl) (fun _ _ => rfl) code source arg cls c s
@[simp] theorem evtEntry_at_cfg (code source arg cls : Nat) (c : Option Nat) (j : Nat) (s : State) : (evtEntry code source arg cls c s).cfg j = s.cfg j :=
  evtEntry_frame (fun s => s.cfg j) (fun _ _ => rfl) (fun _ _ => rfl) code source arg cls c s
@[simp] theorem evtEntry_at_port (code source arg cls : Nat) (c : Option Nat) (j : Nat) (s : State) : (evtEntry code source arg cls c s).port j = s.port j :=
  evtEntry_frame (fun s => s.port j) (fun _ _ => rfl) (fun _ _ => rfl) code source arg cls c s
@[simp] theorem evtEntry_at_now (code source arg cls : Nat) (c : Option Nat)  (s : State) : (evtEntry code source arg cls c s).now = s.now :=
  evtEntry_frame (fun s => s.now) (fun _ _ => rfl) (fun _ _ => rfl) code source arg cls c s

/-- A record that is lost is counted. -/
theorem bbLost_frame {β : Sort _} (obs : State → β) (hregs : ∀ s x, obs { s with regs := x } = obs s)
    (hbb : ∀ s x, obs { s with bb := x } = obs s)
     (s : State) : obs (bbLost s) = obs s := by
  exact (hbb _ _).trans (hregs _ _)
@[simp] theorem bbLost_pending (s : State) : (bbLost s).pending = s.pending :=
  bbLost_frame State.pending (fun _ _ => rfl) (fun _ _ => rfl)  s
@[simp] theorem bbLost_outbox (s : State) : (bbLost s).outbox = s.outbox :=
  bbLost_frame State.outbox (fun _ _ => rfl) (fun _ _ => rfl)  s
@[simp] theorem bbLost_freeCtr (s : State) : (bbLost s).freeCtr = s.freeCtr :=
  bbLost_frame State.freeCtr (fun _ _ => rfl) (fun _ _ => rfl)  s
@[simp] theorem bbLost_spindle (s : State) : (bbLost s).spindle = s.spindle :=
  bbLost_frame State.spindle (fun _ _ => rfl) (fun _ _ => rfl)  s
@[simp] theorem bbLost_devMem (s : State) : (bbLost s).devMem = s.devMem :=
  bbLost_frame State.devMem (fun _ _ => rfl) (fun _ _ => rfl)  s
@[simp] theorem bbLost_ueMarks (s : State) : (bbLost s).ueMarks = s.ueMarks :=
  bbLost_frame State.ueMarks (fun _ _ => rfl) (fun _ _ => rfl)  s
@[simp] theorem bbLost_chans (s : State) : (bbLost s).chans = s.chans :=
  bbLost_frame State.chans (fun _ _ => rfl) (fun _ _ => rfl)  s
@[simp] theorem bbLost_stretchAt (s : State) : (bbLost s).stretchAt = s.stretchAt :=
  bbLost_frame State.stretchAt (fun _ _ => rfl) (fun _ _ => rfl)  s
@[simp] theorem bbLost_buckets (s : State) : (bbLost s).buckets = s.buckets :=
  bbLost_frame State.buckets (fun _ _ => rfl) (fun _ _ => rfl)  s
@[simp] theorem bbLost_waiting (s : State) : (bbLost s).waiting = s.waiting :=
  bbLost_frame State.waiting (fun _ _ => rfl) (fun _ _ => rfl)  s
@[simp] theorem bbLost_ctxs (s : State) : (bbLost s).ctxs = s.ctxs :=
  bbLost_frame State.ctxs (fun _ _ => rfl) (fun _ _ => rfl)  s
@[simp] theorem bbLost_parts (s : State) : (bbLost s).parts = s.parts :=
  bbLost_frame State.parts (fun _ _ => rfl) (fun _ _ => rfl)  s
@[simp] theorem bbLost_tiles (s : State) : (bbLost s).tiles = s.tiles :=
  bbLost_frame State.tiles (fun _ _ => rfl) (fun _ _ => rfl)  s
@[simp] theorem bbLost_groups (s : State) : (bbLost s).groups = s.groups :=
  bbLost_frame State.groups (fun _ _ => rfl) (fun _ _ => rfl)  s
@[simp] theorem bbLost_engines (s : State) : (bbLost s).engines = s.engines :=
  bbLost_frame State.engines (fun _ _ => rfl) (fun _ _ => rfl)  s
@[simp] theorem bbLost_atsReqs (s : State) : (bbLost s).atsReqs = s.atsReqs :=
  bbLost_frame State.atsReqs (fun _ _ => rfl) (fun _ _ => rfl)  s
@[simp] theorem bbLost_hostReqs (s : State) : (bbLost s).hostReqs = s.hostReqs :=
  bbLost_frame State.hostReqs (fun _ _ => rfl) (fun _ _ => rfl)  s
@[simp] theorem bbLost_nextReq (s : State) : (bbLost s).nextReq = s.nextReq :=
  bbLost_frame State.nextReq (fun _ _ => rfl) (fun _ _ => rfl)  s
@[simp] theorem bbLost_pft (s : State) : (bbLost s).pft = s.pft :=
  bbLost_frame State.pft (fun _ _ => rfl) (fun _ _ => rfl)  s
@[simp] theorem bbLost_pftQueue (s : State) : (bbLost s).pftQueue = s.pftQueue :=
  bbLost_frame State.pftQueue (fun _ _ => rfl) (fun _ _ => rfl)  s
@[simp] theorem bbLost_pftSend (s : State) : (bbLost s).pftSend = s.pftSend :=
  bbLost_frame State.pftSend (fun _ _ => rfl) (fun _ _ => rfl)  s
@[simp] theorem bbLost_pftAt (s : State) : (bbLost s).pftAt = s.pftAt :=
  bbLost_frame State.pftAt (fun _ _ => rfl) (fun _ _ => rfl)  s
@[simp] theorem bbLost_invs (s : State) : (bbLost s).invs = s.invs :=
  bbLost_frame State.invs (fun _ _ => rfl) (fun _ _ => rfl)  s
@[simp] theorem bbLost_links (s : State) : (bbLost s).links = s.links :=
  bbLost_frame State.links (fun _ _ => rfl) (fun _ _ => rfl)  s
@[simp] theorem bbLost_netBufs (s : State) : (bbLost s).netBufs = s.netBufs :=
  bbLost_frame State.netBufs (fun _ _ => rfl) (fun _ _ => rfl)  s
@[simp] theorem bbLost_tags (s : State) : (bbLost s).tags = s.tags :=
  bbLost_frame State.tags (fun _ _ => rfl) (fun _ _ => rfl)  s
@[simp] theorem bbLost_owed (s : State) : (bbLost s).owed = s.owed :=
  bbLost_frame State.owed (fun _ _ => rfl) (fun _ _ => rfl)  s
@[simp] theorem bbLost_ctlOut (s : State) : (bbLost s).ctlOut = s.ctlOut :=
  bbLost_frame State.ctlOut (fun _ _ => rfl) (fun _ _ => rfl)  s
@[simp] theorem bbLost_whFlits (s : State) : (bbLost s).whFlits = s.whFlits :=
  bbLost_frame State.whFlits (fun _ _ => rfl) (fun _ _ => rfl)  s
@[simp] theorem bbLost_pools (s : State) : (bbLost s).pools = s.pools :=
  bbLost_frame State.pools (fun _ _ => rfl) (fun _ _ => rfl)  s
@[simp] theorem bbLost_mods (s : State) : (bbLost s).mods = s.mods :=
  bbLost_frame State.mods (fun _ _ => rfl) (fun _ _ => rfl)  s
@[simp] theorem bbLost_bdls (s : State) : (bbLost s).bdls = s.bdls :=
  bbLost_frame State.bdls (fun _ _ => rfl) (fun _ _ => rfl)  s
@[simp] theorem bbLost_sites (s : State) : (bbLost s).sites = s.sites :=
  bbLost_frame State.sites (fun _ _ => rfl) (fun _ _ => rfl)  s
@[simp] theorem bbLost_hcfg (s : State) : (bbLost s).hcfg = s.hcfg :=
  bbLost_frame State.hcfg (fun _ _ => rfl) (fun _ _ => rfl)  s
@[simp] theorem bbLost_streams (s : State) : (bbLost s).streams = s.streams :=
  bbLost_frame State.streams (fun _ _ => rfl) (fun _ _ => rfl)  s
@[simp] theorem bbLost_doe (s : State) : (bbLost s).doe = s.doe :=
  bbLost_frame State.doe (fun _ _ => rfl) (fun _ _ => rfl)  s
@[simp] theorem bbLost_spdm (s : State) : (bbLost s).spdm = s.spdm :=
  bbLost_frame State.spdm (fun _ _ => rfl) (fun _ _ => rfl)  s
@[simp] theorem bbLost_sessions (s : State) : (bbLost s).sessions = s.sessions :=
  bbLost_frame State.sessions (fun _ _ => rfl) (fun _ _ => rfl)  s
@[simp] theorem bbLost_ports (s : State) : (bbLost s).ports = s.ports :=
  bbLost_frame State.ports (fun _ _ => rfl) (fun _ _ => rfl)  s
@[simp] theorem bbLost_clOps (s : State) : (bbLost s).clOps = s.clOps :=
  bbLost_frame State.clOps (fun _ _ => rfl) (fun _ _ => rfl)  s
@[simp] theorem bbLost_colls (s : State) : (bbLost s).colls = s.colls :=
  bbLost_frame State.colls (fun _ _ => rfl) (fun _ _ => rfl)  s
@[simp] theorem bbLost_readies (s : State) : (bbLost s).readies = s.readies :=
  bbLost_frame State.readies (fun _ _ => rfl) (fun _ _ => rfl)  s
@[simp] theorem bbLost_aborts (s : State) : (bbLost s).aborts = s.aborts :=
  bbLost_frame State.aborts (fun _ _ => rfl) (fun _ _ => rfl)  s
@[simp] theorem bbLost_held (s : State) : (bbLost s).held = s.held :=
  bbLost_frame State.held (fun _ _ => rfl) (fun _ _ => rfl)  s
@[simp] theorem bbLost_otp (s : State) : (bbLost s).otp = s.otp :=
  bbLost_frame State.otp (fun _ _ => rfl) (fun _ _ => rfl)  s
@[simp] theorem bbLost_hw (s : State) : (bbLost s).hw = s.hw :=
  bbLost_frame State.hw (fun _ _ => rfl) (fun _ _ => rfl)  s
@[simp] theorem bbLost_mbx (s : State) : (bbLost s).mbx = s.mbx :=
  bbLost_frame State.mbx (fun _ _ => rfl) (fun _ _ => rfl)  s
@[simp] theorem bbLost_flash (s : State) : (bbLost s).flash = s.flash :=
  bbLost_frame State.flash (fun _ _ => rfl) (fun _ _ => rfl)  s
@[simp] theorem bbLost_sset0 (s : State) : (bbLost s).sset0 = s.sset0 :=
  bbLost_frame State.sset0 (fun _ _ => rfl) (fun _ _ => rfl)  s
@[simp] theorem bbLost_sset1 (s : State) : (bbLost s).sset1 = s.sset1 :=
  bbLost_frame State.sset1 (fun _ _ => rfl) (fun _ _ => rfl)  s
@[simp] theorem bbLost_saved (s : State) : (bbLost s).saved = s.saved :=
  bbLost_frame State.saved (fun _ _ => rfl) (fun _ _ => rfl)  s
@[simp] theorem bbLost_ssetDirty (s : State) : (bbLost s).ssetDirty = s.ssetDirty :=
  bbLost_frame State.ssetDirty (fun _ _ => rfl) (fun _ _ => rfl)  s
@[simp] theorem bbLost_image (s : State) : (bbLost s).image = s.image :=
  bbLost_frame State.image (fun _ _ => rfl) (fun _ _ => rfl)  s
@[simp] theorem bbLost_tls (s : State) : (bbLost s).tls = s.tls :=
  bbLost_frame State.tls (fun _ _ => rfl) (fun _ _ => rfl)  s
@[simp] theorem bbLost_power (s : State) : (bbLost s).power = s.power :=
  bbLost_frame State.power (fun _ _ => rfl) (fun _ _ => rfl)  s
@[simp] theorem bbLost_pins (s : State) : (bbLost s).pins = s.pins :=
  bbLost_frame State.pins (fun _ _ => rfl) (fun _ _ => rfl)  s
@[simp] theorem bbLost_boot (s : State) : (bbLost s).boot = s.boot :=
  bbLost_frame State.boot (fun _ _ => rfl) (fun _ _ => rfl)  s
@[simp] theorem bbLost_at_ctx (j : Nat) (s : State) : (bbLost s).ctx j = s.ctx j :=
  bbLost_frame (fun s => s.ctx j) (fun _ _ => rfl) (fun _ _ => rfl)  s
@[simp] theorem bbLost_at_chan (j : Nat) (s : State) : (bbLost s).chan j = s.chan j :=
  bbLost_frame (fun s => s.chan j) (fun _ _ => rfl) (fun _ _ => rfl)  s
@[simp] theorem bbLost_at_part (j : Nat) (s : State) : (bbLost s).part j = s.part j :=
  bbLost_frame (fun s => s.part j) (fun _ _ => rfl) (fun _ _ => rfl)  s
@[simp] theorem bbLost_at_tile (j : Nat) (s : State) : (bbLost s).tile j = s.tile j :=
  bbLost_frame (fun s => s.tile j) (fun _ _ => rfl) (fun _ _ => rfl)  s
@[simp] theorem bbLost_at_group (j : Nat) (s : State) : (bbLost s).group j = s.group j :=
  bbLost_frame (fun s => s.group j) (fun _ _ => rfl) (fun _ _ => rfl)  s
@[simp] theorem bbLost_at_pool (j : Nat) (s : State) : (bbLost s).pool j = s.pool j :=
  bbLost_frame (fun s => s.pool j) (fun _ _ => rfl) (fun _ _ => rfl)  s
@[simp] theorem bbLost_at_mod (j : Nat) (s : State) : (bbLost s).mod j = s.mod j :=
  bbLost_frame (fun s => s.mod j) (fun _ _ => rfl) (fun _ _ => rfl)  s
@[simp] theorem bbLost_at_bdl (j : Nat) (s : State) : (bbLost s).bdl j = s.bdl j :=
  bbLost_frame (fun s => s.bdl j) (fun _ _ => rfl) (fun _ _ => rfl)  s
@[simp] theorem bbLost_at_site (j : Nat) (s : State) : (bbLost s).site j = s.site j :=
  bbLost_frame (fun s => s.site j) (fun _ _ => rfl) (fun _ _ => rfl)  s
@[simp] theorem bbLost_at_cfg (j : Nat) (s : State) : (bbLost s).cfg j = s.cfg j :=
  bbLost_frame (fun s => s.cfg j) (fun _ _ => rfl) (fun _ _ => rfl)  s
@[simp] theorem bbLost_at_port (j : Nat) (s : State) : (bbLost s).port j = s.port j :=
  bbLost_frame (fun s => s.port j) (fun _ _ => rfl) (fun _ _ => rfl)  s
@[simp] theorem bbLost_at_now (s : State) : (bbLost s).now = s.now :=
  bbLost_frame (fun s => s.now) (fun _ _ => rfl) (fun _ _ => rfl)  s

/-- Queueing a record changes the black box and its registers. -/
theorem bbEnqueue_frame {β : Sort _} (obs : State → β) (hregs : ∀ s x, obs { s with regs := x } = obs s)
    (hbb : ∀ s x, obs { s with bb := x } = obs s)
    (r : BbRec) (s : State) : obs (bbEnqueue r s) = obs s := by
  unfold bbEnqueue
  simp only []
  split
  · exact (hregs _ _).trans ((hregs _ _).trans (hbb _ _))
  · split
    · split
      · exact (hregs _ _).trans ((hregs _ _).trans ((hbb _ _).trans (bbLost_frame obs hregs hbb s)))
      · exact bbLost_frame obs hregs hbb s
    · exact bbLost_frame obs hregs hbb s
@[simp] theorem bbEnqueue_pending (r : BbRec) (s : State) : (bbEnqueue r s).pending = s.pending :=
  bbEnqueue_frame State.pending (fun _ _ => rfl) (fun _ _ => rfl) r s
@[simp] theorem bbEnqueue_outbox (r : BbRec) (s : State) : (bbEnqueue r s).outbox = s.outbox :=
  bbEnqueue_frame State.outbox (fun _ _ => rfl) (fun _ _ => rfl) r s
@[simp] theorem bbEnqueue_freeCtr (r : BbRec) (s : State) : (bbEnqueue r s).freeCtr = s.freeCtr :=
  bbEnqueue_frame State.freeCtr (fun _ _ => rfl) (fun _ _ => rfl) r s
@[simp] theorem bbEnqueue_spindle (r : BbRec) (s : State) : (bbEnqueue r s).spindle = s.spindle :=
  bbEnqueue_frame State.spindle (fun _ _ => rfl) (fun _ _ => rfl) r s
@[simp] theorem bbEnqueue_devMem (r : BbRec) (s : State) : (bbEnqueue r s).devMem = s.devMem :=
  bbEnqueue_frame State.devMem (fun _ _ => rfl) (fun _ _ => rfl) r s
@[simp] theorem bbEnqueue_ueMarks (r : BbRec) (s : State) : (bbEnqueue r s).ueMarks = s.ueMarks :=
  bbEnqueue_frame State.ueMarks (fun _ _ => rfl) (fun _ _ => rfl) r s
@[simp] theorem bbEnqueue_chans (r : BbRec) (s : State) : (bbEnqueue r s).chans = s.chans :=
  bbEnqueue_frame State.chans (fun _ _ => rfl) (fun _ _ => rfl) r s
@[simp] theorem bbEnqueue_stretchAt (r : BbRec) (s : State) : (bbEnqueue r s).stretchAt = s.stretchAt :=
  bbEnqueue_frame State.stretchAt (fun _ _ => rfl) (fun _ _ => rfl) r s
@[simp] theorem bbEnqueue_buckets (r : BbRec) (s : State) : (bbEnqueue r s).buckets = s.buckets :=
  bbEnqueue_frame State.buckets (fun _ _ => rfl) (fun _ _ => rfl) r s
@[simp] theorem bbEnqueue_waiting (r : BbRec) (s : State) : (bbEnqueue r s).waiting = s.waiting :=
  bbEnqueue_frame State.waiting (fun _ _ => rfl) (fun _ _ => rfl) r s
@[simp] theorem bbEnqueue_ctxs (r : BbRec) (s : State) : (bbEnqueue r s).ctxs = s.ctxs :=
  bbEnqueue_frame State.ctxs (fun _ _ => rfl) (fun _ _ => rfl) r s
@[simp] theorem bbEnqueue_parts (r : BbRec) (s : State) : (bbEnqueue r s).parts = s.parts :=
  bbEnqueue_frame State.parts (fun _ _ => rfl) (fun _ _ => rfl) r s
@[simp] theorem bbEnqueue_tiles (r : BbRec) (s : State) : (bbEnqueue r s).tiles = s.tiles :=
  bbEnqueue_frame State.tiles (fun _ _ => rfl) (fun _ _ => rfl) r s
@[simp] theorem bbEnqueue_groups (r : BbRec) (s : State) : (bbEnqueue r s).groups = s.groups :=
  bbEnqueue_frame State.groups (fun _ _ => rfl) (fun _ _ => rfl) r s
@[simp] theorem bbEnqueue_engines (r : BbRec) (s : State) : (bbEnqueue r s).engines = s.engines :=
  bbEnqueue_frame State.engines (fun _ _ => rfl) (fun _ _ => rfl) r s
@[simp] theorem bbEnqueue_atsReqs (r : BbRec) (s : State) : (bbEnqueue r s).atsReqs = s.atsReqs :=
  bbEnqueue_frame State.atsReqs (fun _ _ => rfl) (fun _ _ => rfl) r s
@[simp] theorem bbEnqueue_hostReqs (r : BbRec) (s : State) : (bbEnqueue r s).hostReqs = s.hostReqs :=
  bbEnqueue_frame State.hostReqs (fun _ _ => rfl) (fun _ _ => rfl) r s
@[simp] theorem bbEnqueue_nextReq (r : BbRec) (s : State) : (bbEnqueue r s).nextReq = s.nextReq :=
  bbEnqueue_frame State.nextReq (fun _ _ => rfl) (fun _ _ => rfl) r s
@[simp] theorem bbEnqueue_pft (r : BbRec) (s : State) : (bbEnqueue r s).pft = s.pft :=
  bbEnqueue_frame State.pft (fun _ _ => rfl) (fun _ _ => rfl) r s
@[simp] theorem bbEnqueue_pftQueue (r : BbRec) (s : State) : (bbEnqueue r s).pftQueue = s.pftQueue :=
  bbEnqueue_frame State.pftQueue (fun _ _ => rfl) (fun _ _ => rfl) r s
@[simp] theorem bbEnqueue_pftSend (r : BbRec) (s : State) : (bbEnqueue r s).pftSend = s.pftSend :=
  bbEnqueue_frame State.pftSend (fun _ _ => rfl) (fun _ _ => rfl) r s
@[simp] theorem bbEnqueue_pftAt (r : BbRec) (s : State) : (bbEnqueue r s).pftAt = s.pftAt :=
  bbEnqueue_frame State.pftAt (fun _ _ => rfl) (fun _ _ => rfl) r s
@[simp] theorem bbEnqueue_invs (r : BbRec) (s : State) : (bbEnqueue r s).invs = s.invs :=
  bbEnqueue_frame State.invs (fun _ _ => rfl) (fun _ _ => rfl) r s
@[simp] theorem bbEnqueue_links (r : BbRec) (s : State) : (bbEnqueue r s).links = s.links :=
  bbEnqueue_frame State.links (fun _ _ => rfl) (fun _ _ => rfl) r s
@[simp] theorem bbEnqueue_netBufs (r : BbRec) (s : State) : (bbEnqueue r s).netBufs = s.netBufs :=
  bbEnqueue_frame State.netBufs (fun _ _ => rfl) (fun _ _ => rfl) r s
@[simp] theorem bbEnqueue_tags (r : BbRec) (s : State) : (bbEnqueue r s).tags = s.tags :=
  bbEnqueue_frame State.tags (fun _ _ => rfl) (fun _ _ => rfl) r s
@[simp] theorem bbEnqueue_owed (r : BbRec) (s : State) : (bbEnqueue r s).owed = s.owed :=
  bbEnqueue_frame State.owed (fun _ _ => rfl) (fun _ _ => rfl) r s
@[simp] theorem bbEnqueue_ctlOut (r : BbRec) (s : State) : (bbEnqueue r s).ctlOut = s.ctlOut :=
  bbEnqueue_frame State.ctlOut (fun _ _ => rfl) (fun _ _ => rfl) r s
@[simp] theorem bbEnqueue_whFlits (r : BbRec) (s : State) : (bbEnqueue r s).whFlits = s.whFlits :=
  bbEnqueue_frame State.whFlits (fun _ _ => rfl) (fun _ _ => rfl) r s
@[simp] theorem bbEnqueue_pools (r : BbRec) (s : State) : (bbEnqueue r s).pools = s.pools :=
  bbEnqueue_frame State.pools (fun _ _ => rfl) (fun _ _ => rfl) r s
@[simp] theorem bbEnqueue_mods (r : BbRec) (s : State) : (bbEnqueue r s).mods = s.mods :=
  bbEnqueue_frame State.mods (fun _ _ => rfl) (fun _ _ => rfl) r s
@[simp] theorem bbEnqueue_bdls (r : BbRec) (s : State) : (bbEnqueue r s).bdls = s.bdls :=
  bbEnqueue_frame State.bdls (fun _ _ => rfl) (fun _ _ => rfl) r s
@[simp] theorem bbEnqueue_sites (r : BbRec) (s : State) : (bbEnqueue r s).sites = s.sites :=
  bbEnqueue_frame State.sites (fun _ _ => rfl) (fun _ _ => rfl) r s
@[simp] theorem bbEnqueue_hcfg (r : BbRec) (s : State) : (bbEnqueue r s).hcfg = s.hcfg :=
  bbEnqueue_frame State.hcfg (fun _ _ => rfl) (fun _ _ => rfl) r s
@[simp] theorem bbEnqueue_streams (r : BbRec) (s : State) : (bbEnqueue r s).streams = s.streams :=
  bbEnqueue_frame State.streams (fun _ _ => rfl) (fun _ _ => rfl) r s
@[simp] theorem bbEnqueue_doe (r : BbRec) (s : State) : (bbEnqueue r s).doe = s.doe :=
  bbEnqueue_frame State.doe (fun _ _ => rfl) (fun _ _ => rfl) r s
@[simp] theorem bbEnqueue_spdm (r : BbRec) (s : State) : (bbEnqueue r s).spdm = s.spdm :=
  bbEnqueue_frame State.spdm (fun _ _ => rfl) (fun _ _ => rfl) r s
@[simp] theorem bbEnqueue_sessions (r : BbRec) (s : State) : (bbEnqueue r s).sessions = s.sessions :=
  bbEnqueue_frame State.sessions (fun _ _ => rfl) (fun _ _ => rfl) r s
@[simp] theorem bbEnqueue_ports (r : BbRec) (s : State) : (bbEnqueue r s).ports = s.ports :=
  bbEnqueue_frame State.ports (fun _ _ => rfl) (fun _ _ => rfl) r s
@[simp] theorem bbEnqueue_clOps (r : BbRec) (s : State) : (bbEnqueue r s).clOps = s.clOps :=
  bbEnqueue_frame State.clOps (fun _ _ => rfl) (fun _ _ => rfl) r s
@[simp] theorem bbEnqueue_colls (r : BbRec) (s : State) : (bbEnqueue r s).colls = s.colls :=
  bbEnqueue_frame State.colls (fun _ _ => rfl) (fun _ _ => rfl) r s
@[simp] theorem bbEnqueue_readies (r : BbRec) (s : State) : (bbEnqueue r s).readies = s.readies :=
  bbEnqueue_frame State.readies (fun _ _ => rfl) (fun _ _ => rfl) r s
@[simp] theorem bbEnqueue_aborts (r : BbRec) (s : State) : (bbEnqueue r s).aborts = s.aborts :=
  bbEnqueue_frame State.aborts (fun _ _ => rfl) (fun _ _ => rfl) r s
@[simp] theorem bbEnqueue_held (r : BbRec) (s : State) : (bbEnqueue r s).held = s.held :=
  bbEnqueue_frame State.held (fun _ _ => rfl) (fun _ _ => rfl) r s
@[simp] theorem bbEnqueue_otp (r : BbRec) (s : State) : (bbEnqueue r s).otp = s.otp :=
  bbEnqueue_frame State.otp (fun _ _ => rfl) (fun _ _ => rfl) r s
@[simp] theorem bbEnqueue_hw (r : BbRec) (s : State) : (bbEnqueue r s).hw = s.hw :=
  bbEnqueue_frame State.hw (fun _ _ => rfl) (fun _ _ => rfl) r s
@[simp] theorem bbEnqueue_mbx (r : BbRec) (s : State) : (bbEnqueue r s).mbx = s.mbx :=
  bbEnqueue_frame State.mbx (fun _ _ => rfl) (fun _ _ => rfl) r s
@[simp] theorem bbEnqueue_flash (r : BbRec) (s : State) : (bbEnqueue r s).flash = s.flash :=
  bbEnqueue_frame State.flash (fun _ _ => rfl) (fun _ _ => rfl) r s
@[simp] theorem bbEnqueue_sset0 (r : BbRec) (s : State) : (bbEnqueue r s).sset0 = s.sset0 :=
  bbEnqueue_frame State.sset0 (fun _ _ => rfl) (fun _ _ => rfl) r s
@[simp] theorem bbEnqueue_sset1 (r : BbRec) (s : State) : (bbEnqueue r s).sset1 = s.sset1 :=
  bbEnqueue_frame State.sset1 (fun _ _ => rfl) (fun _ _ => rfl) r s
@[simp] theorem bbEnqueue_saved (r : BbRec) (s : State) : (bbEnqueue r s).saved = s.saved :=
  bbEnqueue_frame State.saved (fun _ _ => rfl) (fun _ _ => rfl) r s
@[simp] theorem bbEnqueue_ssetDirty (r : BbRec) (s : State) : (bbEnqueue r s).ssetDirty = s.ssetDirty :=
  bbEnqueue_frame State.ssetDirty (fun _ _ => rfl) (fun _ _ => rfl) r s
@[simp] theorem bbEnqueue_image (r : BbRec) (s : State) : (bbEnqueue r s).image = s.image :=
  bbEnqueue_frame State.image (fun _ _ => rfl) (fun _ _ => rfl) r s
@[simp] theorem bbEnqueue_tls (r : BbRec) (s : State) : (bbEnqueue r s).tls = s.tls :=
  bbEnqueue_frame State.tls (fun _ _ => rfl) (fun _ _ => rfl) r s
@[simp] theorem bbEnqueue_power (r : BbRec) (s : State) : (bbEnqueue r s).power = s.power :=
  bbEnqueue_frame State.power (fun _ _ => rfl) (fun _ _ => rfl) r s
@[simp] theorem bbEnqueue_pins (r : BbRec) (s : State) : (bbEnqueue r s).pins = s.pins :=
  bbEnqueue_frame State.pins (fun _ _ => rfl) (fun _ _ => rfl) r s
@[simp] theorem bbEnqueue_boot (r : BbRec) (s : State) : (bbEnqueue r s).boot = s.boot :=
  bbEnqueue_frame State.boot (fun _ _ => rfl) (fun _ _ => rfl) r s
@[simp] theorem bbEnqueue_at_ctx (r : BbRec) (j : Nat) (s : State) : (bbEnqueue r s).ctx j = s.ctx j :=
  bbEnqueue_frame (fun s => s.ctx j) (fun _ _ => rfl) (fun _ _ => rfl) r s
@[simp] theorem bbEnqueue_at_chan (r : BbRec) (j : Nat) (s : State) : (bbEnqueue r s).chan j = s.chan j :=
  bbEnqueue_frame (fun s => s.chan j) (fun _ _ => rfl) (fun _ _ => rfl) r s
@[simp] theorem bbEnqueue_at_part (r : BbRec) (j : Nat) (s : State) : (bbEnqueue r s).part j = s.part j :=
  bbEnqueue_frame (fun s => s.part j) (fun _ _ => rfl) (fun _ _ => rfl) r s
@[simp] theorem bbEnqueue_at_tile (r : BbRec) (j : Nat) (s : State) : (bbEnqueue r s).tile j = s.tile j :=
  bbEnqueue_frame (fun s => s.tile j) (fun _ _ => rfl) (fun _ _ => rfl) r s
@[simp] theorem bbEnqueue_at_group (r : BbRec) (j : Nat) (s : State) : (bbEnqueue r s).group j = s.group j :=
  bbEnqueue_frame (fun s => s.group j) (fun _ _ => rfl) (fun _ _ => rfl) r s
@[simp] theorem bbEnqueue_at_pool (r : BbRec) (j : Nat) (s : State) : (bbEnqueue r s).pool j = s.pool j :=
  bbEnqueue_frame (fun s => s.pool j) (fun _ _ => rfl) (fun _ _ => rfl) r s
@[simp] theorem bbEnqueue_at_mod (r : BbRec) (j : Nat) (s : State) : (bbEnqueue r s).mod j = s.mod j :=
  bbEnqueue_frame (fun s => s.mod j) (fun _ _ => rfl) (fun _ _ => rfl) r s
@[simp] theorem bbEnqueue_at_bdl (r : BbRec) (j : Nat) (s : State) : (bbEnqueue r s).bdl j = s.bdl j :=
  bbEnqueue_frame (fun s => s.bdl j) (fun _ _ => rfl) (fun _ _ => rfl) r s
@[simp] theorem bbEnqueue_at_site (r : BbRec) (j : Nat) (s : State) : (bbEnqueue r s).site j = s.site j :=
  bbEnqueue_frame (fun s => s.site j) (fun _ _ => rfl) (fun _ _ => rfl) r s
@[simp] theorem bbEnqueue_at_cfg (r : BbRec) (j : Nat) (s : State) : (bbEnqueue r s).cfg j = s.cfg j :=
  bbEnqueue_frame (fun s => s.cfg j) (fun _ _ => rfl) (fun _ _ => rfl) r s
@[simp] theorem bbEnqueue_at_port (r : BbRec) (j : Nat) (s : State) : (bbEnqueue r s).port j = s.port j :=
  bbEnqueue_frame (fun s => s.port j) (fun _ _ => rfl) (fun _ _ => rfl) r s
@[simp] theorem bbEnqueue_at_now (r : BbRec)  (s : State) : (bbEnqueue r s).now = s.now :=
  bbEnqueue_frame (fun s => s.now) (fun _ _ => rfl) (fun _ _ => rfl) r s

/-- A record changes registers, the black box and the trace window, and nothing else (R470, R471). -/
theorem bbRecord_frame {β : Sort _} (obs : State → β) (hregs : ∀ s x, obs { s with regs := x } = obs s)
    (hbb : ∀ s x, obs { s with bb := x } = obs s)
    (htls : ∀ s x, obs { s with tls := x } = obs s)
    (code source role cls : Nat) (c : Option Nat) (detail : List Byte) (s : State) : obs (bbRecord code source role cls c detail s) = obs s := by
  unfold bbRecord
  simp only []
  generalize (if cls = 0xFF then 7 else cls) = k
  split
  · exact (bbEnqueue_frame obs hregs hbb _ _).trans (evtEntry_frame obs hregs htls _ _ _ _ _ _)
  · exact evtEntry_frame obs hregs htls _ _ _ _ _ _
@[simp] theorem bbRecord_pending (code source role cls : Nat) (c : Option Nat) (detail : List Byte) (s : State) : (bbRecord code source role cls c detail s).pending = s.pending :=
  bbRecord_frame State.pending (fun _ _ => rfl) (fun _ _ => rfl) (fun _ _ => rfl) code source role cls c detail s
@[simp] theorem bbRecord_outbox (code source role cls : Nat) (c : Option Nat) (detail : List Byte) (s : State) : (bbRecord code source role cls c detail s).outbox = s.outbox :=
  bbRecord_frame State.outbox (fun _ _ => rfl) (fun _ _ => rfl) (fun _ _ => rfl) code source role cls c detail s
@[simp] theorem bbRecord_freeCtr (code source role cls : Nat) (c : Option Nat) (detail : List Byte) (s : State) : (bbRecord code source role cls c detail s).freeCtr = s.freeCtr :=
  bbRecord_frame State.freeCtr (fun _ _ => rfl) (fun _ _ => rfl) (fun _ _ => rfl) code source role cls c detail s
@[simp] theorem bbRecord_spindle (code source role cls : Nat) (c : Option Nat) (detail : List Byte) (s : State) : (bbRecord code source role cls c detail s).spindle = s.spindle :=
  bbRecord_frame State.spindle (fun _ _ => rfl) (fun _ _ => rfl) (fun _ _ => rfl) code source role cls c detail s
@[simp] theorem bbRecord_devMem (code source role cls : Nat) (c : Option Nat) (detail : List Byte) (s : State) : (bbRecord code source role cls c detail s).devMem = s.devMem :=
  bbRecord_frame State.devMem (fun _ _ => rfl) (fun _ _ => rfl) (fun _ _ => rfl) code source role cls c detail s
@[simp] theorem bbRecord_ueMarks (code source role cls : Nat) (c : Option Nat) (detail : List Byte) (s : State) : (bbRecord code source role cls c detail s).ueMarks = s.ueMarks :=
  bbRecord_frame State.ueMarks (fun _ _ => rfl) (fun _ _ => rfl) (fun _ _ => rfl) code source role cls c detail s
@[simp] theorem bbRecord_chans (code source role cls : Nat) (c : Option Nat) (detail : List Byte) (s : State) : (bbRecord code source role cls c detail s).chans = s.chans :=
  bbRecord_frame State.chans (fun _ _ => rfl) (fun _ _ => rfl) (fun _ _ => rfl) code source role cls c detail s
@[simp] theorem bbRecord_stretchAt (code source role cls : Nat) (c : Option Nat) (detail : List Byte) (s : State) : (bbRecord code source role cls c detail s).stretchAt = s.stretchAt :=
  bbRecord_frame State.stretchAt (fun _ _ => rfl) (fun _ _ => rfl) (fun _ _ => rfl) code source role cls c detail s
@[simp] theorem bbRecord_buckets (code source role cls : Nat) (c : Option Nat) (detail : List Byte) (s : State) : (bbRecord code source role cls c detail s).buckets = s.buckets :=
  bbRecord_frame State.buckets (fun _ _ => rfl) (fun _ _ => rfl) (fun _ _ => rfl) code source role cls c detail s
@[simp] theorem bbRecord_waiting (code source role cls : Nat) (c : Option Nat) (detail : List Byte) (s : State) : (bbRecord code source role cls c detail s).waiting = s.waiting :=
  bbRecord_frame State.waiting (fun _ _ => rfl) (fun _ _ => rfl) (fun _ _ => rfl) code source role cls c detail s
@[simp] theorem bbRecord_ctxs (code source role cls : Nat) (c : Option Nat) (detail : List Byte) (s : State) : (bbRecord code source role cls c detail s).ctxs = s.ctxs :=
  bbRecord_frame State.ctxs (fun _ _ => rfl) (fun _ _ => rfl) (fun _ _ => rfl) code source role cls c detail s
@[simp] theorem bbRecord_parts (code source role cls : Nat) (c : Option Nat) (detail : List Byte) (s : State) : (bbRecord code source role cls c detail s).parts = s.parts :=
  bbRecord_frame State.parts (fun _ _ => rfl) (fun _ _ => rfl) (fun _ _ => rfl) code source role cls c detail s
@[simp] theorem bbRecord_tiles (code source role cls : Nat) (c : Option Nat) (detail : List Byte) (s : State) : (bbRecord code source role cls c detail s).tiles = s.tiles :=
  bbRecord_frame State.tiles (fun _ _ => rfl) (fun _ _ => rfl) (fun _ _ => rfl) code source role cls c detail s
@[simp] theorem bbRecord_groups (code source role cls : Nat) (c : Option Nat) (detail : List Byte) (s : State) : (bbRecord code source role cls c detail s).groups = s.groups :=
  bbRecord_frame State.groups (fun _ _ => rfl) (fun _ _ => rfl) (fun _ _ => rfl) code source role cls c detail s
@[simp] theorem bbRecord_engines (code source role cls : Nat) (c : Option Nat) (detail : List Byte) (s : State) : (bbRecord code source role cls c detail s).engines = s.engines :=
  bbRecord_frame State.engines (fun _ _ => rfl) (fun _ _ => rfl) (fun _ _ => rfl) code source role cls c detail s
@[simp] theorem bbRecord_atsReqs (code source role cls : Nat) (c : Option Nat) (detail : List Byte) (s : State) : (bbRecord code source role cls c detail s).atsReqs = s.atsReqs :=
  bbRecord_frame State.atsReqs (fun _ _ => rfl) (fun _ _ => rfl) (fun _ _ => rfl) code source role cls c detail s
@[simp] theorem bbRecord_hostReqs (code source role cls : Nat) (c : Option Nat) (detail : List Byte) (s : State) : (bbRecord code source role cls c detail s).hostReqs = s.hostReqs :=
  bbRecord_frame State.hostReqs (fun _ _ => rfl) (fun _ _ => rfl) (fun _ _ => rfl) code source role cls c detail s
@[simp] theorem bbRecord_nextReq (code source role cls : Nat) (c : Option Nat) (detail : List Byte) (s : State) : (bbRecord code source role cls c detail s).nextReq = s.nextReq :=
  bbRecord_frame State.nextReq (fun _ _ => rfl) (fun _ _ => rfl) (fun _ _ => rfl) code source role cls c detail s
@[simp] theorem bbRecord_pft (code source role cls : Nat) (c : Option Nat) (detail : List Byte) (s : State) : (bbRecord code source role cls c detail s).pft = s.pft :=
  bbRecord_frame State.pft (fun _ _ => rfl) (fun _ _ => rfl) (fun _ _ => rfl) code source role cls c detail s
@[simp] theorem bbRecord_pftQueue (code source role cls : Nat) (c : Option Nat) (detail : List Byte) (s : State) : (bbRecord code source role cls c detail s).pftQueue = s.pftQueue :=
  bbRecord_frame State.pftQueue (fun _ _ => rfl) (fun _ _ => rfl) (fun _ _ => rfl) code source role cls c detail s
@[simp] theorem bbRecord_pftSend (code source role cls : Nat) (c : Option Nat) (detail : List Byte) (s : State) : (bbRecord code source role cls c detail s).pftSend = s.pftSend :=
  bbRecord_frame State.pftSend (fun _ _ => rfl) (fun _ _ => rfl) (fun _ _ => rfl) code source role cls c detail s
@[simp] theorem bbRecord_pftAt (code source role cls : Nat) (c : Option Nat) (detail : List Byte) (s : State) : (bbRecord code source role cls c detail s).pftAt = s.pftAt :=
  bbRecord_frame State.pftAt (fun _ _ => rfl) (fun _ _ => rfl) (fun _ _ => rfl) code source role cls c detail s
@[simp] theorem bbRecord_invs (code source role cls : Nat) (c : Option Nat) (detail : List Byte) (s : State) : (bbRecord code source role cls c detail s).invs = s.invs :=
  bbRecord_frame State.invs (fun _ _ => rfl) (fun _ _ => rfl) (fun _ _ => rfl) code source role cls c detail s
@[simp] theorem bbRecord_links (code source role cls : Nat) (c : Option Nat) (detail : List Byte) (s : State) : (bbRecord code source role cls c detail s).links = s.links :=
  bbRecord_frame State.links (fun _ _ => rfl) (fun _ _ => rfl) (fun _ _ => rfl) code source role cls c detail s
@[simp] theorem bbRecord_netBufs (code source role cls : Nat) (c : Option Nat) (detail : List Byte) (s : State) : (bbRecord code source role cls c detail s).netBufs = s.netBufs :=
  bbRecord_frame State.netBufs (fun _ _ => rfl) (fun _ _ => rfl) (fun _ _ => rfl) code source role cls c detail s
@[simp] theorem bbRecord_tags (code source role cls : Nat) (c : Option Nat) (detail : List Byte) (s : State) : (bbRecord code source role cls c detail s).tags = s.tags :=
  bbRecord_frame State.tags (fun _ _ => rfl) (fun _ _ => rfl) (fun _ _ => rfl) code source role cls c detail s
@[simp] theorem bbRecord_owed (code source role cls : Nat) (c : Option Nat) (detail : List Byte) (s : State) : (bbRecord code source role cls c detail s).owed = s.owed :=
  bbRecord_frame State.owed (fun _ _ => rfl) (fun _ _ => rfl) (fun _ _ => rfl) code source role cls c detail s
@[simp] theorem bbRecord_ctlOut (code source role cls : Nat) (c : Option Nat) (detail : List Byte) (s : State) : (bbRecord code source role cls c detail s).ctlOut = s.ctlOut :=
  bbRecord_frame State.ctlOut (fun _ _ => rfl) (fun _ _ => rfl) (fun _ _ => rfl) code source role cls c detail s
@[simp] theorem bbRecord_whFlits (code source role cls : Nat) (c : Option Nat) (detail : List Byte) (s : State) : (bbRecord code source role cls c detail s).whFlits = s.whFlits :=
  bbRecord_frame State.whFlits (fun _ _ => rfl) (fun _ _ => rfl) (fun _ _ => rfl) code source role cls c detail s
@[simp] theorem bbRecord_pools (code source role cls : Nat) (c : Option Nat) (detail : List Byte) (s : State) : (bbRecord code source role cls c detail s).pools = s.pools :=
  bbRecord_frame State.pools (fun _ _ => rfl) (fun _ _ => rfl) (fun _ _ => rfl) code source role cls c detail s
@[simp] theorem bbRecord_mods (code source role cls : Nat) (c : Option Nat) (detail : List Byte) (s : State) : (bbRecord code source role cls c detail s).mods = s.mods :=
  bbRecord_frame State.mods (fun _ _ => rfl) (fun _ _ => rfl) (fun _ _ => rfl) code source role cls c detail s
@[simp] theorem bbRecord_bdls (code source role cls : Nat) (c : Option Nat) (detail : List Byte) (s : State) : (bbRecord code source role cls c detail s).bdls = s.bdls :=
  bbRecord_frame State.bdls (fun _ _ => rfl) (fun _ _ => rfl) (fun _ _ => rfl) code source role cls c detail s
@[simp] theorem bbRecord_sites (code source role cls : Nat) (c : Option Nat) (detail : List Byte) (s : State) : (bbRecord code source role cls c detail s).sites = s.sites :=
  bbRecord_frame State.sites (fun _ _ => rfl) (fun _ _ => rfl) (fun _ _ => rfl) code source role cls c detail s
@[simp] theorem bbRecord_hcfg (code source role cls : Nat) (c : Option Nat) (detail : List Byte) (s : State) : (bbRecord code source role cls c detail s).hcfg = s.hcfg :=
  bbRecord_frame State.hcfg (fun _ _ => rfl) (fun _ _ => rfl) (fun _ _ => rfl) code source role cls c detail s
@[simp] theorem bbRecord_streams (code source role cls : Nat) (c : Option Nat) (detail : List Byte) (s : State) : (bbRecord code source role cls c detail s).streams = s.streams :=
  bbRecord_frame State.streams (fun _ _ => rfl) (fun _ _ => rfl) (fun _ _ => rfl) code source role cls c detail s
@[simp] theorem bbRecord_doe (code source role cls : Nat) (c : Option Nat) (detail : List Byte) (s : State) : (bbRecord code source role cls c detail s).doe = s.doe :=
  bbRecord_frame State.doe (fun _ _ => rfl) (fun _ _ => rfl) (fun _ _ => rfl) code source role cls c detail s
@[simp] theorem bbRecord_spdm (code source role cls : Nat) (c : Option Nat) (detail : List Byte) (s : State) : (bbRecord code source role cls c detail s).spdm = s.spdm :=
  bbRecord_frame State.spdm (fun _ _ => rfl) (fun _ _ => rfl) (fun _ _ => rfl) code source role cls c detail s
@[simp] theorem bbRecord_sessions (code source role cls : Nat) (c : Option Nat) (detail : List Byte) (s : State) : (bbRecord code source role cls c detail s).sessions = s.sessions :=
  bbRecord_frame State.sessions (fun _ _ => rfl) (fun _ _ => rfl) (fun _ _ => rfl) code source role cls c detail s
@[simp] theorem bbRecord_ports (code source role cls : Nat) (c : Option Nat) (detail : List Byte) (s : State) : (bbRecord code source role cls c detail s).ports = s.ports :=
  bbRecord_frame State.ports (fun _ _ => rfl) (fun _ _ => rfl) (fun _ _ => rfl) code source role cls c detail s
@[simp] theorem bbRecord_clOps (code source role cls : Nat) (c : Option Nat) (detail : List Byte) (s : State) : (bbRecord code source role cls c detail s).clOps = s.clOps :=
  bbRecord_frame State.clOps (fun _ _ => rfl) (fun _ _ => rfl) (fun _ _ => rfl) code source role cls c detail s
@[simp] theorem bbRecord_colls (code source role cls : Nat) (c : Option Nat) (detail : List Byte) (s : State) : (bbRecord code source role cls c detail s).colls = s.colls :=
  bbRecord_frame State.colls (fun _ _ => rfl) (fun _ _ => rfl) (fun _ _ => rfl) code source role cls c detail s
@[simp] theorem bbRecord_readies (code source role cls : Nat) (c : Option Nat) (detail : List Byte) (s : State) : (bbRecord code source role cls c detail s).readies = s.readies :=
  bbRecord_frame State.readies (fun _ _ => rfl) (fun _ _ => rfl) (fun _ _ => rfl) code source role cls c detail s
@[simp] theorem bbRecord_aborts (code source role cls : Nat) (c : Option Nat) (detail : List Byte) (s : State) : (bbRecord code source role cls c detail s).aborts = s.aborts :=
  bbRecord_frame State.aborts (fun _ _ => rfl) (fun _ _ => rfl) (fun _ _ => rfl) code source role cls c detail s
@[simp] theorem bbRecord_held (code source role cls : Nat) (c : Option Nat) (detail : List Byte) (s : State) : (bbRecord code source role cls c detail s).held = s.held :=
  bbRecord_frame State.held (fun _ _ => rfl) (fun _ _ => rfl) (fun _ _ => rfl) code source role cls c detail s
@[simp] theorem bbRecord_otp (code source role cls : Nat) (c : Option Nat) (detail : List Byte) (s : State) : (bbRecord code source role cls c detail s).otp = s.otp :=
  bbRecord_frame State.otp (fun _ _ => rfl) (fun _ _ => rfl) (fun _ _ => rfl) code source role cls c detail s
@[simp] theorem bbRecord_hw (code source role cls : Nat) (c : Option Nat) (detail : List Byte) (s : State) : (bbRecord code source role cls c detail s).hw = s.hw :=
  bbRecord_frame State.hw (fun _ _ => rfl) (fun _ _ => rfl) (fun _ _ => rfl) code source role cls c detail s
@[simp] theorem bbRecord_mbx (code source role cls : Nat) (c : Option Nat) (detail : List Byte) (s : State) : (bbRecord code source role cls c detail s).mbx = s.mbx :=
  bbRecord_frame State.mbx (fun _ _ => rfl) (fun _ _ => rfl) (fun _ _ => rfl) code source role cls c detail s
@[simp] theorem bbRecord_flash (code source role cls : Nat) (c : Option Nat) (detail : List Byte) (s : State) : (bbRecord code source role cls c detail s).flash = s.flash :=
  bbRecord_frame State.flash (fun _ _ => rfl) (fun _ _ => rfl) (fun _ _ => rfl) code source role cls c detail s
@[simp] theorem bbRecord_sset0 (code source role cls : Nat) (c : Option Nat) (detail : List Byte) (s : State) : (bbRecord code source role cls c detail s).sset0 = s.sset0 :=
  bbRecord_frame State.sset0 (fun _ _ => rfl) (fun _ _ => rfl) (fun _ _ => rfl) code source role cls c detail s
@[simp] theorem bbRecord_sset1 (code source role cls : Nat) (c : Option Nat) (detail : List Byte) (s : State) : (bbRecord code source role cls c detail s).sset1 = s.sset1 :=
  bbRecord_frame State.sset1 (fun _ _ => rfl) (fun _ _ => rfl) (fun _ _ => rfl) code source role cls c detail s
@[simp] theorem bbRecord_saved (code source role cls : Nat) (c : Option Nat) (detail : List Byte) (s : State) : (bbRecord code source role cls c detail s).saved = s.saved :=
  bbRecord_frame State.saved (fun _ _ => rfl) (fun _ _ => rfl) (fun _ _ => rfl) code source role cls c detail s
@[simp] theorem bbRecord_ssetDirty (code source role cls : Nat) (c : Option Nat) (detail : List Byte) (s : State) : (bbRecord code source role cls c detail s).ssetDirty = s.ssetDirty :=
  bbRecord_frame State.ssetDirty (fun _ _ => rfl) (fun _ _ => rfl) (fun _ _ => rfl) code source role cls c detail s
@[simp] theorem bbRecord_image (code source role cls : Nat) (c : Option Nat) (detail : List Byte) (s : State) : (bbRecord code source role cls c detail s).image = s.image :=
  bbRecord_frame State.image (fun _ _ => rfl) (fun _ _ => rfl) (fun _ _ => rfl) code source role cls c detail s
@[simp] theorem bbRecord_power (code source role cls : Nat) (c : Option Nat) (detail : List Byte) (s : State) : (bbRecord code source role cls c detail s).power = s.power :=
  bbRecord_frame State.power (fun _ _ => rfl) (fun _ _ => rfl) (fun _ _ => rfl) code source role cls c detail s
@[simp] theorem bbRecord_pins (code source role cls : Nat) (c : Option Nat) (detail : List Byte) (s : State) : (bbRecord code source role cls c detail s).pins = s.pins :=
  bbRecord_frame State.pins (fun _ _ => rfl) (fun _ _ => rfl) (fun _ _ => rfl) code source role cls c detail s
@[simp] theorem bbRecord_boot (code source role cls : Nat) (c : Option Nat) (detail : List Byte) (s : State) : (bbRecord code source role cls c detail s).boot = s.boot :=
  bbRecord_frame State.boot (fun _ _ => rfl) (fun _ _ => rfl) (fun _ _ => rfl) code source role cls c detail s
@[simp] theorem bbRecord_at_ctx (code source role cls : Nat) (c : Option Nat) (detail : List Byte) (j : Nat) (s : State) : (bbRecord code source role cls c detail s).ctx j = s.ctx j :=
  bbRecord_frame (fun s => s.ctx j) (fun _ _ => rfl) (fun _ _ => rfl) (fun _ _ => rfl) code source role cls c detail s
@[simp] theorem bbRecord_at_chan (code source role cls : Nat) (c : Option Nat) (detail : List Byte) (j : Nat) (s : State) : (bbRecord code source role cls c detail s).chan j = s.chan j :=
  bbRecord_frame (fun s => s.chan j) (fun _ _ => rfl) (fun _ _ => rfl) (fun _ _ => rfl) code source role cls c detail s
@[simp] theorem bbRecord_at_part (code source role cls : Nat) (c : Option Nat) (detail : List Byte) (j : Nat) (s : State) : (bbRecord code source role cls c detail s).part j = s.part j :=
  bbRecord_frame (fun s => s.part j) (fun _ _ => rfl) (fun _ _ => rfl) (fun _ _ => rfl) code source role cls c detail s
@[simp] theorem bbRecord_at_tile (code source role cls : Nat) (c : Option Nat) (detail : List Byte) (j : Nat) (s : State) : (bbRecord code source role cls c detail s).tile j = s.tile j :=
  bbRecord_frame (fun s => s.tile j) (fun _ _ => rfl) (fun _ _ => rfl) (fun _ _ => rfl) code source role cls c detail s
@[simp] theorem bbRecord_at_group (code source role cls : Nat) (c : Option Nat) (detail : List Byte) (j : Nat) (s : State) : (bbRecord code source role cls c detail s).group j = s.group j :=
  bbRecord_frame (fun s => s.group j) (fun _ _ => rfl) (fun _ _ => rfl) (fun _ _ => rfl) code source role cls c detail s
@[simp] theorem bbRecord_at_pool (code source role cls : Nat) (c : Option Nat) (detail : List Byte) (j : Nat) (s : State) : (bbRecord code source role cls c detail s).pool j = s.pool j :=
  bbRecord_frame (fun s => s.pool j) (fun _ _ => rfl) (fun _ _ => rfl) (fun _ _ => rfl) code source role cls c detail s
@[simp] theorem bbRecord_at_mod (code source role cls : Nat) (c : Option Nat) (detail : List Byte) (j : Nat) (s : State) : (bbRecord code source role cls c detail s).mod j = s.mod j :=
  bbRecord_frame (fun s => s.mod j) (fun _ _ => rfl) (fun _ _ => rfl) (fun _ _ => rfl) code source role cls c detail s
@[simp] theorem bbRecord_at_bdl (code source role cls : Nat) (c : Option Nat) (detail : List Byte) (j : Nat) (s : State) : (bbRecord code source role cls c detail s).bdl j = s.bdl j :=
  bbRecord_frame (fun s => s.bdl j) (fun _ _ => rfl) (fun _ _ => rfl) (fun _ _ => rfl) code source role cls c detail s
@[simp] theorem bbRecord_at_site (code source role cls : Nat) (c : Option Nat) (detail : List Byte) (j : Nat) (s : State) : (bbRecord code source role cls c detail s).site j = s.site j :=
  bbRecord_frame (fun s => s.site j) (fun _ _ => rfl) (fun _ _ => rfl) (fun _ _ => rfl) code source role cls c detail s
@[simp] theorem bbRecord_at_cfg (code source role cls : Nat) (c : Option Nat) (detail : List Byte) (j : Nat) (s : State) : (bbRecord code source role cls c detail s).cfg j = s.cfg j :=
  bbRecord_frame (fun s => s.cfg j) (fun _ _ => rfl) (fun _ _ => rfl) (fun _ _ => rfl) code source role cls c detail s
@[simp] theorem bbRecord_at_port (code source role cls : Nat) (c : Option Nat) (detail : List Byte) (j : Nat) (s : State) : (bbRecord code source role cls c detail s).port j = s.port j :=
  bbRecord_frame (fun s => s.port j) (fun _ _ => rfl) (fun _ _ => rfl) (fun _ _ => rfl) code source role cls c detail s
@[simp] theorem bbRecord_at_now (code source role cls : Nat) (c : Option Nat) (detail : List Byte)  (s : State) : (bbRecord code source role cls c detail s).now = s.now :=
  bbRecord_frame (fun s => s.now) (fun _ _ => rfl) (fun _ _ => rfl) (fun _ _ => rfl) code source role cls c detail s

/-- An event record likewise. -/
theorem bbEvent_frame {β : Sort _} (obs : State → β) (hregs : ∀ s x, obs { s with regs := x } = obs s)
    (hbb : ∀ s x, obs { s with bb := x } = obs s)
    (htls : ∀ s x, obs { s with tls := x } = obs s)
    (code source : Nat) (detail : List Byte) (s : State) : obs (bbEvent code source detail s) = obs s := by
  exact bbRecord_frame obs hregs hbb htls _ _ _ _ _ _ s
@[simp] theorem bbEvent_pending (code source : Nat) (detail : List Byte) (s : State) : (bbEvent code source detail s).pending = s.pending :=
  bbEvent_frame State.pending (fun _ _ => rfl) (fun _ _ => rfl) (fun _ _ => rfl) code source detail s
@[simp] theorem bbEvent_outbox (code source : Nat) (detail : List Byte) (s : State) : (bbEvent code source detail s).outbox = s.outbox :=
  bbEvent_frame State.outbox (fun _ _ => rfl) (fun _ _ => rfl) (fun _ _ => rfl) code source detail s
@[simp] theorem bbEvent_freeCtr (code source : Nat) (detail : List Byte) (s : State) : (bbEvent code source detail s).freeCtr = s.freeCtr :=
  bbEvent_frame State.freeCtr (fun _ _ => rfl) (fun _ _ => rfl) (fun _ _ => rfl) code source detail s
@[simp] theorem bbEvent_spindle (code source : Nat) (detail : List Byte) (s : State) : (bbEvent code source detail s).spindle = s.spindle :=
  bbEvent_frame State.spindle (fun _ _ => rfl) (fun _ _ => rfl) (fun _ _ => rfl) code source detail s
@[simp] theorem bbEvent_devMem (code source : Nat) (detail : List Byte) (s : State) : (bbEvent code source detail s).devMem = s.devMem :=
  bbEvent_frame State.devMem (fun _ _ => rfl) (fun _ _ => rfl) (fun _ _ => rfl) code source detail s
@[simp] theorem bbEvent_ueMarks (code source : Nat) (detail : List Byte) (s : State) : (bbEvent code source detail s).ueMarks = s.ueMarks :=
  bbEvent_frame State.ueMarks (fun _ _ => rfl) (fun _ _ => rfl) (fun _ _ => rfl) code source detail s
@[simp] theorem bbEvent_chans (code source : Nat) (detail : List Byte) (s : State) : (bbEvent code source detail s).chans = s.chans :=
  bbEvent_frame State.chans (fun _ _ => rfl) (fun _ _ => rfl) (fun _ _ => rfl) code source detail s
@[simp] theorem bbEvent_stretchAt (code source : Nat) (detail : List Byte) (s : State) : (bbEvent code source detail s).stretchAt = s.stretchAt :=
  bbEvent_frame State.stretchAt (fun _ _ => rfl) (fun _ _ => rfl) (fun _ _ => rfl) code source detail s
@[simp] theorem bbEvent_buckets (code source : Nat) (detail : List Byte) (s : State) : (bbEvent code source detail s).buckets = s.buckets :=
  bbEvent_frame State.buckets (fun _ _ => rfl) (fun _ _ => rfl) (fun _ _ => rfl) code source detail s
@[simp] theorem bbEvent_waiting (code source : Nat) (detail : List Byte) (s : State) : (bbEvent code source detail s).waiting = s.waiting :=
  bbEvent_frame State.waiting (fun _ _ => rfl) (fun _ _ => rfl) (fun _ _ => rfl) code source detail s
@[simp] theorem bbEvent_ctxs (code source : Nat) (detail : List Byte) (s : State) : (bbEvent code source detail s).ctxs = s.ctxs :=
  bbEvent_frame State.ctxs (fun _ _ => rfl) (fun _ _ => rfl) (fun _ _ => rfl) code source detail s
@[simp] theorem bbEvent_parts (code source : Nat) (detail : List Byte) (s : State) : (bbEvent code source detail s).parts = s.parts :=
  bbEvent_frame State.parts (fun _ _ => rfl) (fun _ _ => rfl) (fun _ _ => rfl) code source detail s
@[simp] theorem bbEvent_tiles (code source : Nat) (detail : List Byte) (s : State) : (bbEvent code source detail s).tiles = s.tiles :=
  bbEvent_frame State.tiles (fun _ _ => rfl) (fun _ _ => rfl) (fun _ _ => rfl) code source detail s
@[simp] theorem bbEvent_groups (code source : Nat) (detail : List Byte) (s : State) : (bbEvent code source detail s).groups = s.groups :=
  bbEvent_frame State.groups (fun _ _ => rfl) (fun _ _ => rfl) (fun _ _ => rfl) code source detail s
@[simp] theorem bbEvent_engines (code source : Nat) (detail : List Byte) (s : State) : (bbEvent code source detail s).engines = s.engines :=
  bbEvent_frame State.engines (fun _ _ => rfl) (fun _ _ => rfl) (fun _ _ => rfl) code source detail s
@[simp] theorem bbEvent_atsReqs (code source : Nat) (detail : List Byte) (s : State) : (bbEvent code source detail s).atsReqs = s.atsReqs :=
  bbEvent_frame State.atsReqs (fun _ _ => rfl) (fun _ _ => rfl) (fun _ _ => rfl) code source detail s
@[simp] theorem bbEvent_hostReqs (code source : Nat) (detail : List Byte) (s : State) : (bbEvent code source detail s).hostReqs = s.hostReqs :=
  bbEvent_frame State.hostReqs (fun _ _ => rfl) (fun _ _ => rfl) (fun _ _ => rfl) code source detail s
@[simp] theorem bbEvent_nextReq (code source : Nat) (detail : List Byte) (s : State) : (bbEvent code source detail s).nextReq = s.nextReq :=
  bbEvent_frame State.nextReq (fun _ _ => rfl) (fun _ _ => rfl) (fun _ _ => rfl) code source detail s
@[simp] theorem bbEvent_pft (code source : Nat) (detail : List Byte) (s : State) : (bbEvent code source detail s).pft = s.pft :=
  bbEvent_frame State.pft (fun _ _ => rfl) (fun _ _ => rfl) (fun _ _ => rfl) code source detail s
@[simp] theorem bbEvent_pftQueue (code source : Nat) (detail : List Byte) (s : State) : (bbEvent code source detail s).pftQueue = s.pftQueue :=
  bbEvent_frame State.pftQueue (fun _ _ => rfl) (fun _ _ => rfl) (fun _ _ => rfl) code source detail s
@[simp] theorem bbEvent_pftSend (code source : Nat) (detail : List Byte) (s : State) : (bbEvent code source detail s).pftSend = s.pftSend :=
  bbEvent_frame State.pftSend (fun _ _ => rfl) (fun _ _ => rfl) (fun _ _ => rfl) code source detail s
@[simp] theorem bbEvent_pftAt (code source : Nat) (detail : List Byte) (s : State) : (bbEvent code source detail s).pftAt = s.pftAt :=
  bbEvent_frame State.pftAt (fun _ _ => rfl) (fun _ _ => rfl) (fun _ _ => rfl) code source detail s
@[simp] theorem bbEvent_invs (code source : Nat) (detail : List Byte) (s : State) : (bbEvent code source detail s).invs = s.invs :=
  bbEvent_frame State.invs (fun _ _ => rfl) (fun _ _ => rfl) (fun _ _ => rfl) code source detail s
@[simp] theorem bbEvent_links (code source : Nat) (detail : List Byte) (s : State) : (bbEvent code source detail s).links = s.links :=
  bbEvent_frame State.links (fun _ _ => rfl) (fun _ _ => rfl) (fun _ _ => rfl) code source detail s
@[simp] theorem bbEvent_netBufs (code source : Nat) (detail : List Byte) (s : State) : (bbEvent code source detail s).netBufs = s.netBufs :=
  bbEvent_frame State.netBufs (fun _ _ => rfl) (fun _ _ => rfl) (fun _ _ => rfl) code source detail s
@[simp] theorem bbEvent_tags (code source : Nat) (detail : List Byte) (s : State) : (bbEvent code source detail s).tags = s.tags :=
  bbEvent_frame State.tags (fun _ _ => rfl) (fun _ _ => rfl) (fun _ _ => rfl) code source detail s
@[simp] theorem bbEvent_owed (code source : Nat) (detail : List Byte) (s : State) : (bbEvent code source detail s).owed = s.owed :=
  bbEvent_frame State.owed (fun _ _ => rfl) (fun _ _ => rfl) (fun _ _ => rfl) code source detail s
@[simp] theorem bbEvent_ctlOut (code source : Nat) (detail : List Byte) (s : State) : (bbEvent code source detail s).ctlOut = s.ctlOut :=
  bbEvent_frame State.ctlOut (fun _ _ => rfl) (fun _ _ => rfl) (fun _ _ => rfl) code source detail s
@[simp] theorem bbEvent_whFlits (code source : Nat) (detail : List Byte) (s : State) : (bbEvent code source detail s).whFlits = s.whFlits :=
  bbEvent_frame State.whFlits (fun _ _ => rfl) (fun _ _ => rfl) (fun _ _ => rfl) code source detail s
@[simp] theorem bbEvent_pools (code source : Nat) (detail : List Byte) (s : State) : (bbEvent code source detail s).pools = s.pools :=
  bbEvent_frame State.pools (fun _ _ => rfl) (fun _ _ => rfl) (fun _ _ => rfl) code source detail s
@[simp] theorem bbEvent_mods (code source : Nat) (detail : List Byte) (s : State) : (bbEvent code source detail s).mods = s.mods :=
  bbEvent_frame State.mods (fun _ _ => rfl) (fun _ _ => rfl) (fun _ _ => rfl) code source detail s
@[simp] theorem bbEvent_bdls (code source : Nat) (detail : List Byte) (s : State) : (bbEvent code source detail s).bdls = s.bdls :=
  bbEvent_frame State.bdls (fun _ _ => rfl) (fun _ _ => rfl) (fun _ _ => rfl) code source detail s
@[simp] theorem bbEvent_sites (code source : Nat) (detail : List Byte) (s : State) : (bbEvent code source detail s).sites = s.sites :=
  bbEvent_frame State.sites (fun _ _ => rfl) (fun _ _ => rfl) (fun _ _ => rfl) code source detail s
@[simp] theorem bbEvent_hcfg (code source : Nat) (detail : List Byte) (s : State) : (bbEvent code source detail s).hcfg = s.hcfg :=
  bbEvent_frame State.hcfg (fun _ _ => rfl) (fun _ _ => rfl) (fun _ _ => rfl) code source detail s
@[simp] theorem bbEvent_streams (code source : Nat) (detail : List Byte) (s : State) : (bbEvent code source detail s).streams = s.streams :=
  bbEvent_frame State.streams (fun _ _ => rfl) (fun _ _ => rfl) (fun _ _ => rfl) code source detail s
@[simp] theorem bbEvent_doe (code source : Nat) (detail : List Byte) (s : State) : (bbEvent code source detail s).doe = s.doe :=
  bbEvent_frame State.doe (fun _ _ => rfl) (fun _ _ => rfl) (fun _ _ => rfl) code source detail s
@[simp] theorem bbEvent_spdm (code source : Nat) (detail : List Byte) (s : State) : (bbEvent code source detail s).spdm = s.spdm :=
  bbEvent_frame State.spdm (fun _ _ => rfl) (fun _ _ => rfl) (fun _ _ => rfl) code source detail s
@[simp] theorem bbEvent_sessions (code source : Nat) (detail : List Byte) (s : State) : (bbEvent code source detail s).sessions = s.sessions :=
  bbEvent_frame State.sessions (fun _ _ => rfl) (fun _ _ => rfl) (fun _ _ => rfl) code source detail s
@[simp] theorem bbEvent_ports (code source : Nat) (detail : List Byte) (s : State) : (bbEvent code source detail s).ports = s.ports :=
  bbEvent_frame State.ports (fun _ _ => rfl) (fun _ _ => rfl) (fun _ _ => rfl) code source detail s
@[simp] theorem bbEvent_clOps (code source : Nat) (detail : List Byte) (s : State) : (bbEvent code source detail s).clOps = s.clOps :=
  bbEvent_frame State.clOps (fun _ _ => rfl) (fun _ _ => rfl) (fun _ _ => rfl) code source detail s
@[simp] theorem bbEvent_colls (code source : Nat) (detail : List Byte) (s : State) : (bbEvent code source detail s).colls = s.colls :=
  bbEvent_frame State.colls (fun _ _ => rfl) (fun _ _ => rfl) (fun _ _ => rfl) code source detail s
@[simp] theorem bbEvent_readies (code source : Nat) (detail : List Byte) (s : State) : (bbEvent code source detail s).readies = s.readies :=
  bbEvent_frame State.readies (fun _ _ => rfl) (fun _ _ => rfl) (fun _ _ => rfl) code source detail s
@[simp] theorem bbEvent_aborts (code source : Nat) (detail : List Byte) (s : State) : (bbEvent code source detail s).aborts = s.aborts :=
  bbEvent_frame State.aborts (fun _ _ => rfl) (fun _ _ => rfl) (fun _ _ => rfl) code source detail s
@[simp] theorem bbEvent_held (code source : Nat) (detail : List Byte) (s : State) : (bbEvent code source detail s).held = s.held :=
  bbEvent_frame State.held (fun _ _ => rfl) (fun _ _ => rfl) (fun _ _ => rfl) code source detail s
@[simp] theorem bbEvent_otp (code source : Nat) (detail : List Byte) (s : State) : (bbEvent code source detail s).otp = s.otp :=
  bbEvent_frame State.otp (fun _ _ => rfl) (fun _ _ => rfl) (fun _ _ => rfl) code source detail s
@[simp] theorem bbEvent_hw (code source : Nat) (detail : List Byte) (s : State) : (bbEvent code source detail s).hw = s.hw :=
  bbEvent_frame State.hw (fun _ _ => rfl) (fun _ _ => rfl) (fun _ _ => rfl) code source detail s
@[simp] theorem bbEvent_mbx (code source : Nat) (detail : List Byte) (s : State) : (bbEvent code source detail s).mbx = s.mbx :=
  bbEvent_frame State.mbx (fun _ _ => rfl) (fun _ _ => rfl) (fun _ _ => rfl) code source detail s
@[simp] theorem bbEvent_flash (code source : Nat) (detail : List Byte) (s : State) : (bbEvent code source detail s).flash = s.flash :=
  bbEvent_frame State.flash (fun _ _ => rfl) (fun _ _ => rfl) (fun _ _ => rfl) code source detail s
@[simp] theorem bbEvent_sset0 (code source : Nat) (detail : List Byte) (s : State) : (bbEvent code source detail s).sset0 = s.sset0 :=
  bbEvent_frame State.sset0 (fun _ _ => rfl) (fun _ _ => rfl) (fun _ _ => rfl) code source detail s
@[simp] theorem bbEvent_sset1 (code source : Nat) (detail : List Byte) (s : State) : (bbEvent code source detail s).sset1 = s.sset1 :=
  bbEvent_frame State.sset1 (fun _ _ => rfl) (fun _ _ => rfl) (fun _ _ => rfl) code source detail s
@[simp] theorem bbEvent_saved (code source : Nat) (detail : List Byte) (s : State) : (bbEvent code source detail s).saved = s.saved :=
  bbEvent_frame State.saved (fun _ _ => rfl) (fun _ _ => rfl) (fun _ _ => rfl) code source detail s
@[simp] theorem bbEvent_ssetDirty (code source : Nat) (detail : List Byte) (s : State) : (bbEvent code source detail s).ssetDirty = s.ssetDirty :=
  bbEvent_frame State.ssetDirty (fun _ _ => rfl) (fun _ _ => rfl) (fun _ _ => rfl) code source detail s
@[simp] theorem bbEvent_image (code source : Nat) (detail : List Byte) (s : State) : (bbEvent code source detail s).image = s.image :=
  bbEvent_frame State.image (fun _ _ => rfl) (fun _ _ => rfl) (fun _ _ => rfl) code source detail s
@[simp] theorem bbEvent_power (code source : Nat) (detail : List Byte) (s : State) : (bbEvent code source detail s).power = s.power :=
  bbEvent_frame State.power (fun _ _ => rfl) (fun _ _ => rfl) (fun _ _ => rfl) code source detail s
@[simp] theorem bbEvent_pins (code source : Nat) (detail : List Byte) (s : State) : (bbEvent code source detail s).pins = s.pins :=
  bbEvent_frame State.pins (fun _ _ => rfl) (fun _ _ => rfl) (fun _ _ => rfl) code source detail s
@[simp] theorem bbEvent_boot (code source : Nat) (detail : List Byte) (s : State) : (bbEvent code source detail s).boot = s.boot :=
  bbEvent_frame State.boot (fun _ _ => rfl) (fun _ _ => rfl) (fun _ _ => rfl) code source detail s
@[simp] theorem bbEvent_at_ctx (code source : Nat) (detail : List Byte) (j : Nat) (s : State) : (bbEvent code source detail s).ctx j = s.ctx j :=
  bbEvent_frame (fun s => s.ctx j) (fun _ _ => rfl) (fun _ _ => rfl) (fun _ _ => rfl) code source detail s
@[simp] theorem bbEvent_at_chan (code source : Nat) (detail : List Byte) (j : Nat) (s : State) : (bbEvent code source detail s).chan j = s.chan j :=
  bbEvent_frame (fun s => s.chan j) (fun _ _ => rfl) (fun _ _ => rfl) (fun _ _ => rfl) code source detail s
@[simp] theorem bbEvent_at_part (code source : Nat) (detail : List Byte) (j : Nat) (s : State) : (bbEvent code source detail s).part j = s.part j :=
  bbEvent_frame (fun s => s.part j) (fun _ _ => rfl) (fun _ _ => rfl) (fun _ _ => rfl) code source detail s
@[simp] theorem bbEvent_at_tile (code source : Nat) (detail : List Byte) (j : Nat) (s : State) : (bbEvent code source detail s).tile j = s.tile j :=
  bbEvent_frame (fun s => s.tile j) (fun _ _ => rfl) (fun _ _ => rfl) (fun _ _ => rfl) code source detail s
@[simp] theorem bbEvent_at_group (code source : Nat) (detail : List Byte) (j : Nat) (s : State) : (bbEvent code source detail s).group j = s.group j :=
  bbEvent_frame (fun s => s.group j) (fun _ _ => rfl) (fun _ _ => rfl) (fun _ _ => rfl) code source detail s
@[simp] theorem bbEvent_at_pool (code source : Nat) (detail : List Byte) (j : Nat) (s : State) : (bbEvent code source detail s).pool j = s.pool j :=
  bbEvent_frame (fun s => s.pool j) (fun _ _ => rfl) (fun _ _ => rfl) (fun _ _ => rfl) code source detail s
@[simp] theorem bbEvent_at_mod (code source : Nat) (detail : List Byte) (j : Nat) (s : State) : (bbEvent code source detail s).mod j = s.mod j :=
  bbEvent_frame (fun s => s.mod j) (fun _ _ => rfl) (fun _ _ => rfl) (fun _ _ => rfl) code source detail s
@[simp] theorem bbEvent_at_bdl (code source : Nat) (detail : List Byte) (j : Nat) (s : State) : (bbEvent code source detail s).bdl j = s.bdl j :=
  bbEvent_frame (fun s => s.bdl j) (fun _ _ => rfl) (fun _ _ => rfl) (fun _ _ => rfl) code source detail s
@[simp] theorem bbEvent_at_site (code source : Nat) (detail : List Byte) (j : Nat) (s : State) : (bbEvent code source detail s).site j = s.site j :=
  bbEvent_frame (fun s => s.site j) (fun _ _ => rfl) (fun _ _ => rfl) (fun _ _ => rfl) code source detail s
@[simp] theorem bbEvent_at_cfg (code source : Nat) (detail : List Byte) (j : Nat) (s : State) : (bbEvent code source detail s).cfg j = s.cfg j :=
  bbEvent_frame (fun s => s.cfg j) (fun _ _ => rfl) (fun _ _ => rfl) (fun _ _ => rfl) code source detail s
@[simp] theorem bbEvent_at_port (code source : Nat) (detail : List Byte) (j : Nat) (s : State) : (bbEvent code source detail s).port j = s.port j :=
  bbEvent_frame (fun s => s.port j) (fun _ _ => rfl) (fun _ _ => rfl) (fun _ _ => rfl) code source detail s
@[simp] theorem bbEvent_at_now (code source : Nat) (detail : List Byte)  (s : State) : (bbEvent code source detail s).now = s.now :=
  bbEvent_frame (fun s => s.now) (fun _ _ => rfl) (fun _ _ => rfl) (fun _ _ => rfl) code source detail s

/-- The promise bit and its record. -/
theorem setPromise_frame {β : Sort _} (obs : State → β) (hregs : ∀ s x, obs { s with regs := x } = obs s)
    (hbb : ∀ s x, obs { s with bb := x } = obs s)
    (htls : ∀ s x, obs { s with tls := x } = obs s)
    (b : Bool) (s : State) : obs (setPromise b s) = obs s := by
  unfold setPromise
  split
  · rfl
  · exact (bbEvent_frame obs hregs hbb htls _ _ _ _).trans (hregs _ _)
@[simp] theorem setPromise_pending (b : Bool) (s : State) : (setPromise b s).pending = s.pending :=
  setPromise_frame State.pending (fun _ _ => rfl) (fun _ _ => rfl) (fun _ _ => rfl) b s
@[simp] theorem setPromise_outbox (b : Bool) (s : State) : (setPromise b s).outbox = s.outbox :=
  setPromise_frame State.outbox (fun _ _ => rfl) (fun _ _ => rfl) (fun _ _ => rfl) b s
@[simp] theorem setPromise_freeCtr (b : Bool) (s : State) : (setPromise b s).freeCtr = s.freeCtr :=
  setPromise_frame State.freeCtr (fun _ _ => rfl) (fun _ _ => rfl) (fun _ _ => rfl) b s
@[simp] theorem setPromise_spindle (b : Bool) (s : State) : (setPromise b s).spindle = s.spindle :=
  setPromise_frame State.spindle (fun _ _ => rfl) (fun _ _ => rfl) (fun _ _ => rfl) b s
@[simp] theorem setPromise_devMem (b : Bool) (s : State) : (setPromise b s).devMem = s.devMem :=
  setPromise_frame State.devMem (fun _ _ => rfl) (fun _ _ => rfl) (fun _ _ => rfl) b s
@[simp] theorem setPromise_ueMarks (b : Bool) (s : State) : (setPromise b s).ueMarks = s.ueMarks :=
  setPromise_frame State.ueMarks (fun _ _ => rfl) (fun _ _ => rfl) (fun _ _ => rfl) b s
@[simp] theorem setPromise_chans (b : Bool) (s : State) : (setPromise b s).chans = s.chans :=
  setPromise_frame State.chans (fun _ _ => rfl) (fun _ _ => rfl) (fun _ _ => rfl) b s
@[simp] theorem setPromise_stretchAt (b : Bool) (s : State) : (setPromise b s).stretchAt = s.stretchAt :=
  setPromise_frame State.stretchAt (fun _ _ => rfl) (fun _ _ => rfl) (fun _ _ => rfl) b s
@[simp] theorem setPromise_buckets (b : Bool) (s : State) : (setPromise b s).buckets = s.buckets :=
  setPromise_frame State.buckets (fun _ _ => rfl) (fun _ _ => rfl) (fun _ _ => rfl) b s
@[simp] theorem setPromise_waiting (b : Bool) (s : State) : (setPromise b s).waiting = s.waiting :=
  setPromise_frame State.waiting (fun _ _ => rfl) (fun _ _ => rfl) (fun _ _ => rfl) b s
@[simp] theorem setPromise_ctxs (b : Bool) (s : State) : (setPromise b s).ctxs = s.ctxs :=
  setPromise_frame State.ctxs (fun _ _ => rfl) (fun _ _ => rfl) (fun _ _ => rfl) b s
@[simp] theorem setPromise_parts (b : Bool) (s : State) : (setPromise b s).parts = s.parts :=
  setPromise_frame State.parts (fun _ _ => rfl) (fun _ _ => rfl) (fun _ _ => rfl) b s
@[simp] theorem setPromise_tiles (b : Bool) (s : State) : (setPromise b s).tiles = s.tiles :=
  setPromise_frame State.tiles (fun _ _ => rfl) (fun _ _ => rfl) (fun _ _ => rfl) b s
@[simp] theorem setPromise_groups (b : Bool) (s : State) : (setPromise b s).groups = s.groups :=
  setPromise_frame State.groups (fun _ _ => rfl) (fun _ _ => rfl) (fun _ _ => rfl) b s
@[simp] theorem setPromise_engines (b : Bool) (s : State) : (setPromise b s).engines = s.engines :=
  setPromise_frame State.engines (fun _ _ => rfl) (fun _ _ => rfl) (fun _ _ => rfl) b s
@[simp] theorem setPromise_atsReqs (b : Bool) (s : State) : (setPromise b s).atsReqs = s.atsReqs :=
  setPromise_frame State.atsReqs (fun _ _ => rfl) (fun _ _ => rfl) (fun _ _ => rfl) b s
@[simp] theorem setPromise_hostReqs (b : Bool) (s : State) : (setPromise b s).hostReqs = s.hostReqs :=
  setPromise_frame State.hostReqs (fun _ _ => rfl) (fun _ _ => rfl) (fun _ _ => rfl) b s
@[simp] theorem setPromise_nextReq (b : Bool) (s : State) : (setPromise b s).nextReq = s.nextReq :=
  setPromise_frame State.nextReq (fun _ _ => rfl) (fun _ _ => rfl) (fun _ _ => rfl) b s
@[simp] theorem setPromise_pft (b : Bool) (s : State) : (setPromise b s).pft = s.pft :=
  setPromise_frame State.pft (fun _ _ => rfl) (fun _ _ => rfl) (fun _ _ => rfl) b s
@[simp] theorem setPromise_pftQueue (b : Bool) (s : State) : (setPromise b s).pftQueue = s.pftQueue :=
  setPromise_frame State.pftQueue (fun _ _ => rfl) (fun _ _ => rfl) (fun _ _ => rfl) b s
@[simp] theorem setPromise_pftSend (b : Bool) (s : State) : (setPromise b s).pftSend = s.pftSend :=
  setPromise_frame State.pftSend (fun _ _ => rfl) (fun _ _ => rfl) (fun _ _ => rfl) b s
@[simp] theorem setPromise_pftAt (b : Bool) (s : State) : (setPromise b s).pftAt = s.pftAt :=
  setPromise_frame State.pftAt (fun _ _ => rfl) (fun _ _ => rfl) (fun _ _ => rfl) b s
@[simp] theorem setPromise_invs (b : Bool) (s : State) : (setPromise b s).invs = s.invs :=
  setPromise_frame State.invs (fun _ _ => rfl) (fun _ _ => rfl) (fun _ _ => rfl) b s
@[simp] theorem setPromise_links (b : Bool) (s : State) : (setPromise b s).links = s.links :=
  setPromise_frame State.links (fun _ _ => rfl) (fun _ _ => rfl) (fun _ _ => rfl) b s
@[simp] theorem setPromise_netBufs (b : Bool) (s : State) : (setPromise b s).netBufs = s.netBufs :=
  setPromise_frame State.netBufs (fun _ _ => rfl) (fun _ _ => rfl) (fun _ _ => rfl) b s
@[simp] theorem setPromise_tags (b : Bool) (s : State) : (setPromise b s).tags = s.tags :=
  setPromise_frame State.tags (fun _ _ => rfl) (fun _ _ => rfl) (fun _ _ => rfl) b s
@[simp] theorem setPromise_owed (b : Bool) (s : State) : (setPromise b s).owed = s.owed :=
  setPromise_frame State.owed (fun _ _ => rfl) (fun _ _ => rfl) (fun _ _ => rfl) b s
@[simp] theorem setPromise_ctlOut (b : Bool) (s : State) : (setPromise b s).ctlOut = s.ctlOut :=
  setPromise_frame State.ctlOut (fun _ _ => rfl) (fun _ _ => rfl) (fun _ _ => rfl) b s
@[simp] theorem setPromise_whFlits (b : Bool) (s : State) : (setPromise b s).whFlits = s.whFlits :=
  setPromise_frame State.whFlits (fun _ _ => rfl) (fun _ _ => rfl) (fun _ _ => rfl) b s
@[simp] theorem setPromise_pools (b : Bool) (s : State) : (setPromise b s).pools = s.pools :=
  setPromise_frame State.pools (fun _ _ => rfl) (fun _ _ => rfl) (fun _ _ => rfl) b s
@[simp] theorem setPromise_mods (b : Bool) (s : State) : (setPromise b s).mods = s.mods :=
  setPromise_frame State.mods (fun _ _ => rfl) (fun _ _ => rfl) (fun _ _ => rfl) b s
@[simp] theorem setPromise_bdls (b : Bool) (s : State) : (setPromise b s).bdls = s.bdls :=
  setPromise_frame State.bdls (fun _ _ => rfl) (fun _ _ => rfl) (fun _ _ => rfl) b s
@[simp] theorem setPromise_sites (b : Bool) (s : State) : (setPromise b s).sites = s.sites :=
  setPromise_frame State.sites (fun _ _ => rfl) (fun _ _ => rfl) (fun _ _ => rfl) b s
@[simp] theorem setPromise_hcfg (b : Bool) (s : State) : (setPromise b s).hcfg = s.hcfg :=
  setPromise_frame State.hcfg (fun _ _ => rfl) (fun _ _ => rfl) (fun _ _ => rfl) b s
@[simp] theorem setPromise_streams (b : Bool) (s : State) : (setPromise b s).streams = s.streams :=
  setPromise_frame State.streams (fun _ _ => rfl) (fun _ _ => rfl) (fun _ _ => rfl) b s
@[simp] theorem setPromise_doe (b : Bool) (s : State) : (setPromise b s).doe = s.doe :=
  setPromise_frame State.doe (fun _ _ => rfl) (fun _ _ => rfl) (fun _ _ => rfl) b s
@[simp] theorem setPromise_spdm (b : Bool) (s : State) : (setPromise b s).spdm = s.spdm :=
  setPromise_frame State.spdm (fun _ _ => rfl) (fun _ _ => rfl) (fun _ _ => rfl) b s
@[simp] theorem setPromise_sessions (b : Bool) (s : State) : (setPromise b s).sessions = s.sessions :=
  setPromise_frame State.sessions (fun _ _ => rfl) (fun _ _ => rfl) (fun _ _ => rfl) b s
@[simp] theorem setPromise_ports (b : Bool) (s : State) : (setPromise b s).ports = s.ports :=
  setPromise_frame State.ports (fun _ _ => rfl) (fun _ _ => rfl) (fun _ _ => rfl) b s
@[simp] theorem setPromise_clOps (b : Bool) (s : State) : (setPromise b s).clOps = s.clOps :=
  setPromise_frame State.clOps (fun _ _ => rfl) (fun _ _ => rfl) (fun _ _ => rfl) b s
@[simp] theorem setPromise_colls (b : Bool) (s : State) : (setPromise b s).colls = s.colls :=
  setPromise_frame State.colls (fun _ _ => rfl) (fun _ _ => rfl) (fun _ _ => rfl) b s
@[simp] theorem setPromise_readies (b : Bool) (s : State) : (setPromise b s).readies = s.readies :=
  setPromise_frame State.readies (fun _ _ => rfl) (fun _ _ => rfl) (fun _ _ => rfl) b s
@[simp] theorem setPromise_aborts (b : Bool) (s : State) : (setPromise b s).aborts = s.aborts :=
  setPromise_frame State.aborts (fun _ _ => rfl) (fun _ _ => rfl) (fun _ _ => rfl) b s
@[simp] theorem setPromise_held (b : Bool) (s : State) : (setPromise b s).held = s.held :=
  setPromise_frame State.held (fun _ _ => rfl) (fun _ _ => rfl) (fun _ _ => rfl) b s
@[simp] theorem setPromise_otp (b : Bool) (s : State) : (setPromise b s).otp = s.otp :=
  setPromise_frame State.otp (fun _ _ => rfl) (fun _ _ => rfl) (fun _ _ => rfl) b s
@[simp] theorem setPromise_hw (b : Bool) (s : State) : (setPromise b s).hw = s.hw :=
  setPromise_frame State.hw (fun _ _ => rfl) (fun _ _ => rfl) (fun _ _ => rfl) b s
@[simp] theorem setPromise_mbx (b : Bool) (s : State) : (setPromise b s).mbx = s.mbx :=
  setPromise_frame State.mbx (fun _ _ => rfl) (fun _ _ => rfl) (fun _ _ => rfl) b s
@[simp] theorem setPromise_flash (b : Bool) (s : State) : (setPromise b s).flash = s.flash :=
  setPromise_frame State.flash (fun _ _ => rfl) (fun _ _ => rfl) (fun _ _ => rfl) b s
@[simp] theorem setPromise_sset0 (b : Bool) (s : State) : (setPromise b s).sset0 = s.sset0 :=
  setPromise_frame State.sset0 (fun _ _ => rfl) (fun _ _ => rfl) (fun _ _ => rfl) b s
@[simp] theorem setPromise_sset1 (b : Bool) (s : State) : (setPromise b s).sset1 = s.sset1 :=
  setPromise_frame State.sset1 (fun _ _ => rfl) (fun _ _ => rfl) (fun _ _ => rfl) b s
@[simp] theorem setPromise_saved (b : Bool) (s : State) : (setPromise b s).saved = s.saved :=
  setPromise_frame State.saved (fun _ _ => rfl) (fun _ _ => rfl) (fun _ _ => rfl) b s
@[simp] theorem setPromise_ssetDirty (b : Bool) (s : State) : (setPromise b s).ssetDirty = s.ssetDirty :=
  setPromise_frame State.ssetDirty (fun _ _ => rfl) (fun _ _ => rfl) (fun _ _ => rfl) b s
@[simp] theorem setPromise_image (b : Bool) (s : State) : (setPromise b s).image = s.image :=
  setPromise_frame State.image (fun _ _ => rfl) (fun _ _ => rfl) (fun _ _ => rfl) b s
@[simp] theorem setPromise_power (b : Bool) (s : State) : (setPromise b s).power = s.power :=
  setPromise_frame State.power (fun _ _ => rfl) (fun _ _ => rfl) (fun _ _ => rfl) b s
@[simp] theorem setPromise_pins (b : Bool) (s : State) : (setPromise b s).pins = s.pins :=
  setPromise_frame State.pins (fun _ _ => rfl) (fun _ _ => rfl) (fun _ _ => rfl) b s
@[simp] theorem setPromise_boot (b : Bool) (s : State) : (setPromise b s).boot = s.boot :=
  setPromise_frame State.boot (fun _ _ => rfl) (fun _ _ => rfl) (fun _ _ => rfl) b s
@[simp] theorem setPromise_at_ctx (b : Bool) (j : Nat) (s : State) : (setPromise b s).ctx j = s.ctx j :=
  setPromise_frame (fun s => s.ctx j) (fun _ _ => rfl) (fun _ _ => rfl) (fun _ _ => rfl) b s
@[simp] theorem setPromise_at_chan (b : Bool) (j : Nat) (s : State) : (setPromise b s).chan j = s.chan j :=
  setPromise_frame (fun s => s.chan j) (fun _ _ => rfl) (fun _ _ => rfl) (fun _ _ => rfl) b s
@[simp] theorem setPromise_at_part (b : Bool) (j : Nat) (s : State) : (setPromise b s).part j = s.part j :=
  setPromise_frame (fun s => s.part j) (fun _ _ => rfl) (fun _ _ => rfl) (fun _ _ => rfl) b s
@[simp] theorem setPromise_at_tile (b : Bool) (j : Nat) (s : State) : (setPromise b s).tile j = s.tile j :=
  setPromise_frame (fun s => s.tile j) (fun _ _ => rfl) (fun _ _ => rfl) (fun _ _ => rfl) b s
@[simp] theorem setPromise_at_group (b : Bool) (j : Nat) (s : State) : (setPromise b s).group j = s.group j :=
  setPromise_frame (fun s => s.group j) (fun _ _ => rfl) (fun _ _ => rfl) (fun _ _ => rfl) b s
@[simp] theorem setPromise_at_pool (b : Bool) (j : Nat) (s : State) : (setPromise b s).pool j = s.pool j :=
  setPromise_frame (fun s => s.pool j) (fun _ _ => rfl) (fun _ _ => rfl) (fun _ _ => rfl) b s
@[simp] theorem setPromise_at_mod (b : Bool) (j : Nat) (s : State) : (setPromise b s).mod j = s.mod j :=
  setPromise_frame (fun s => s.mod j) (fun _ _ => rfl) (fun _ _ => rfl) (fun _ _ => rfl) b s
@[simp] theorem setPromise_at_bdl (b : Bool) (j : Nat) (s : State) : (setPromise b s).bdl j = s.bdl j :=
  setPromise_frame (fun s => s.bdl j) (fun _ _ => rfl) (fun _ _ => rfl) (fun _ _ => rfl) b s
@[simp] theorem setPromise_at_site (b : Bool) (j : Nat) (s : State) : (setPromise b s).site j = s.site j :=
  setPromise_frame (fun s => s.site j) (fun _ _ => rfl) (fun _ _ => rfl) (fun _ _ => rfl) b s
@[simp] theorem setPromise_at_cfg (b : Bool) (j : Nat) (s : State) : (setPromise b s).cfg j = s.cfg j :=
  setPromise_frame (fun s => s.cfg j) (fun _ _ => rfl) (fun _ _ => rfl) (fun _ _ => rfl) b s
@[simp] theorem setPromise_at_port (b : Bool) (j : Nat) (s : State) : (setPromise b s).port j = s.port j :=
  setPromise_frame (fun s => s.port j) (fun _ _ => rfl) (fun _ _ => rfl) (fun _ _ => rfl) b s
@[simp] theorem setPromise_at_now (b : Bool)  (s : State) : (setPromise b s).now = s.now :=
  setPromise_frame (fun s => s.now) (fun _ _ => rfl) (fun _ _ => rfl) (fun _ _ => rfl) b s

/-- The promise as conditions stand. -/
theorem promiseNow_frame {β : Sort _} (obs : State → β) (hregs : ∀ s x, obs { s with regs := x } = obs s)
    (hbb : ∀ s x, obs { s with bb := x } = obs s)
    (htls : ∀ s x, obs { s with tls := x } = obs s)
     (s : State) : obs (promiseNow s) = obs s := by
  exact setPromise_frame obs hregs hbb htls _ s
@[simp] theorem promiseNow_pending (s : State) : (promiseNow s).pending = s.pending :=
  promiseNow_frame State.pending (fun _ _ => rfl) (fun _ _ => rfl) (fun _ _ => rfl)  s
@[simp] theorem promiseNow_outbox (s : State) : (promiseNow s).outbox = s.outbox :=
  promiseNow_frame State.outbox (fun _ _ => rfl) (fun _ _ => rfl) (fun _ _ => rfl)  s
@[simp] theorem promiseNow_freeCtr (s : State) : (promiseNow s).freeCtr = s.freeCtr :=
  promiseNow_frame State.freeCtr (fun _ _ => rfl) (fun _ _ => rfl) (fun _ _ => rfl)  s
@[simp] theorem promiseNow_spindle (s : State) : (promiseNow s).spindle = s.spindle :=
  promiseNow_frame State.spindle (fun _ _ => rfl) (fun _ _ => rfl) (fun _ _ => rfl)  s
@[simp] theorem promiseNow_devMem (s : State) : (promiseNow s).devMem = s.devMem :=
  promiseNow_frame State.devMem (fun _ _ => rfl) (fun _ _ => rfl) (fun _ _ => rfl)  s
@[simp] theorem promiseNow_ueMarks (s : State) : (promiseNow s).ueMarks = s.ueMarks :=
  promiseNow_frame State.ueMarks (fun _ _ => rfl) (fun _ _ => rfl) (fun _ _ => rfl)  s
@[simp] theorem promiseNow_chans (s : State) : (promiseNow s).chans = s.chans :=
  promiseNow_frame State.chans (fun _ _ => rfl) (fun _ _ => rfl) (fun _ _ => rfl)  s
@[simp] theorem promiseNow_stretchAt (s : State) : (promiseNow s).stretchAt = s.stretchAt :=
  promiseNow_frame State.stretchAt (fun _ _ => rfl) (fun _ _ => rfl) (fun _ _ => rfl)  s
@[simp] theorem promiseNow_buckets (s : State) : (promiseNow s).buckets = s.buckets :=
  promiseNow_frame State.buckets (fun _ _ => rfl) (fun _ _ => rfl) (fun _ _ => rfl)  s
@[simp] theorem promiseNow_waiting (s : State) : (promiseNow s).waiting = s.waiting :=
  promiseNow_frame State.waiting (fun _ _ => rfl) (fun _ _ => rfl) (fun _ _ => rfl)  s
@[simp] theorem promiseNow_ctxs (s : State) : (promiseNow s).ctxs = s.ctxs :=
  promiseNow_frame State.ctxs (fun _ _ => rfl) (fun _ _ => rfl) (fun _ _ => rfl)  s
@[simp] theorem promiseNow_parts (s : State) : (promiseNow s).parts = s.parts :=
  promiseNow_frame State.parts (fun _ _ => rfl) (fun _ _ => rfl) (fun _ _ => rfl)  s
@[simp] theorem promiseNow_tiles (s : State) : (promiseNow s).tiles = s.tiles :=
  promiseNow_frame State.tiles (fun _ _ => rfl) (fun _ _ => rfl) (fun _ _ => rfl)  s
@[simp] theorem promiseNow_groups (s : State) : (promiseNow s).groups = s.groups :=
  promiseNow_frame State.groups (fun _ _ => rfl) (fun _ _ => rfl) (fun _ _ => rfl)  s
@[simp] theorem promiseNow_engines (s : State) : (promiseNow s).engines = s.engines :=
  promiseNow_frame State.engines (fun _ _ => rfl) (fun _ _ => rfl) (fun _ _ => rfl)  s
@[simp] theorem promiseNow_atsReqs (s : State) : (promiseNow s).atsReqs = s.atsReqs :=
  promiseNow_frame State.atsReqs (fun _ _ => rfl) (fun _ _ => rfl) (fun _ _ => rfl)  s
@[simp] theorem promiseNow_hostReqs (s : State) : (promiseNow s).hostReqs = s.hostReqs :=
  promiseNow_frame State.hostReqs (fun _ _ => rfl) (fun _ _ => rfl) (fun _ _ => rfl)  s
@[simp] theorem promiseNow_nextReq (s : State) : (promiseNow s).nextReq = s.nextReq :=
  promiseNow_frame State.nextReq (fun _ _ => rfl) (fun _ _ => rfl) (fun _ _ => rfl)  s
@[simp] theorem promiseNow_pft (s : State) : (promiseNow s).pft = s.pft :=
  promiseNow_frame State.pft (fun _ _ => rfl) (fun _ _ => rfl) (fun _ _ => rfl)  s
@[simp] theorem promiseNow_pftQueue (s : State) : (promiseNow s).pftQueue = s.pftQueue :=
  promiseNow_frame State.pftQueue (fun _ _ => rfl) (fun _ _ => rfl) (fun _ _ => rfl)  s
@[simp] theorem promiseNow_pftSend (s : State) : (promiseNow s).pftSend = s.pftSend :=
  promiseNow_frame State.pftSend (fun _ _ => rfl) (fun _ _ => rfl) (fun _ _ => rfl)  s
@[simp] theorem promiseNow_pftAt (s : State) : (promiseNow s).pftAt = s.pftAt :=
  promiseNow_frame State.pftAt (fun _ _ => rfl) (fun _ _ => rfl) (fun _ _ => rfl)  s
@[simp] theorem promiseNow_invs (s : State) : (promiseNow s).invs = s.invs :=
  promiseNow_frame State.invs (fun _ _ => rfl) (fun _ _ => rfl) (fun _ _ => rfl)  s
@[simp] theorem promiseNow_links (s : State) : (promiseNow s).links = s.links :=
  promiseNow_frame State.links (fun _ _ => rfl) (fun _ _ => rfl) (fun _ _ => rfl)  s
@[simp] theorem promiseNow_netBufs (s : State) : (promiseNow s).netBufs = s.netBufs :=
  promiseNow_frame State.netBufs (fun _ _ => rfl) (fun _ _ => rfl) (fun _ _ => rfl)  s
@[simp] theorem promiseNow_tags (s : State) : (promiseNow s).tags = s.tags :=
  promiseNow_frame State.tags (fun _ _ => rfl) (fun _ _ => rfl) (fun _ _ => rfl)  s
@[simp] theorem promiseNow_owed (s : State) : (promiseNow s).owed = s.owed :=
  promiseNow_frame State.owed (fun _ _ => rfl) (fun _ _ => rfl) (fun _ _ => rfl)  s
@[simp] theorem promiseNow_ctlOut (s : State) : (promiseNow s).ctlOut = s.ctlOut :=
  promiseNow_frame State.ctlOut (fun _ _ => rfl) (fun _ _ => rfl) (fun _ _ => rfl)  s
@[simp] theorem promiseNow_whFlits (s : State) : (promiseNow s).whFlits = s.whFlits :=
  promiseNow_frame State.whFlits (fun _ _ => rfl) (fun _ _ => rfl) (fun _ _ => rfl)  s
@[simp] theorem promiseNow_pools (s : State) : (promiseNow s).pools = s.pools :=
  promiseNow_frame State.pools (fun _ _ => rfl) (fun _ _ => rfl) (fun _ _ => rfl)  s
@[simp] theorem promiseNow_mods (s : State) : (promiseNow s).mods = s.mods :=
  promiseNow_frame State.mods (fun _ _ => rfl) (fun _ _ => rfl) (fun _ _ => rfl)  s
@[simp] theorem promiseNow_bdls (s : State) : (promiseNow s).bdls = s.bdls :=
  promiseNow_frame State.bdls (fun _ _ => rfl) (fun _ _ => rfl) (fun _ _ => rfl)  s
@[simp] theorem promiseNow_sites (s : State) : (promiseNow s).sites = s.sites :=
  promiseNow_frame State.sites (fun _ _ => rfl) (fun _ _ => rfl) (fun _ _ => rfl)  s
@[simp] theorem promiseNow_hcfg (s : State) : (promiseNow s).hcfg = s.hcfg :=
  promiseNow_frame State.hcfg (fun _ _ => rfl) (fun _ _ => rfl) (fun _ _ => rfl)  s
@[simp] theorem promiseNow_streams (s : State) : (promiseNow s).streams = s.streams :=
  promiseNow_frame State.streams (fun _ _ => rfl) (fun _ _ => rfl) (fun _ _ => rfl)  s
@[simp] theorem promiseNow_doe (s : State) : (promiseNow s).doe = s.doe :=
  promiseNow_frame State.doe (fun _ _ => rfl) (fun _ _ => rfl) (fun _ _ => rfl)  s
@[simp] theorem promiseNow_spdm (s : State) : (promiseNow s).spdm = s.spdm :=
  promiseNow_frame State.spdm (fun _ _ => rfl) (fun _ _ => rfl) (fun _ _ => rfl)  s
@[simp] theorem promiseNow_sessions (s : State) : (promiseNow s).sessions = s.sessions :=
  promiseNow_frame State.sessions (fun _ _ => rfl) (fun _ _ => rfl) (fun _ _ => rfl)  s
@[simp] theorem promiseNow_ports (s : State) : (promiseNow s).ports = s.ports :=
  promiseNow_frame State.ports (fun _ _ => rfl) (fun _ _ => rfl) (fun _ _ => rfl)  s
@[simp] theorem promiseNow_clOps (s : State) : (promiseNow s).clOps = s.clOps :=
  promiseNow_frame State.clOps (fun _ _ => rfl) (fun _ _ => rfl) (fun _ _ => rfl)  s
@[simp] theorem promiseNow_colls (s : State) : (promiseNow s).colls = s.colls :=
  promiseNow_frame State.colls (fun _ _ => rfl) (fun _ _ => rfl) (fun _ _ => rfl)  s
@[simp] theorem promiseNow_readies (s : State) : (promiseNow s).readies = s.readies :=
  promiseNow_frame State.readies (fun _ _ => rfl) (fun _ _ => rfl) (fun _ _ => rfl)  s
@[simp] theorem promiseNow_aborts (s : State) : (promiseNow s).aborts = s.aborts :=
  promiseNow_frame State.aborts (fun _ _ => rfl) (fun _ _ => rfl) (fun _ _ => rfl)  s
@[simp] theorem promiseNow_held (s : State) : (promiseNow s).held = s.held :=
  promiseNow_frame State.held (fun _ _ => rfl) (fun _ _ => rfl) (fun _ _ => rfl)  s
@[simp] theorem promiseNow_otp (s : State) : (promiseNow s).otp = s.otp :=
  promiseNow_frame State.otp (fun _ _ => rfl) (fun _ _ => rfl) (fun _ _ => rfl)  s
@[simp] theorem promiseNow_hw (s : State) : (promiseNow s).hw = s.hw :=
  promiseNow_frame State.hw (fun _ _ => rfl) (fun _ _ => rfl) (fun _ _ => rfl)  s
@[simp] theorem promiseNow_mbx (s : State) : (promiseNow s).mbx = s.mbx :=
  promiseNow_frame State.mbx (fun _ _ => rfl) (fun _ _ => rfl) (fun _ _ => rfl)  s
@[simp] theorem promiseNow_flash (s : State) : (promiseNow s).flash = s.flash :=
  promiseNow_frame State.flash (fun _ _ => rfl) (fun _ _ => rfl) (fun _ _ => rfl)  s
@[simp] theorem promiseNow_sset0 (s : State) : (promiseNow s).sset0 = s.sset0 :=
  promiseNow_frame State.sset0 (fun _ _ => rfl) (fun _ _ => rfl) (fun _ _ => rfl)  s
@[simp] theorem promiseNow_sset1 (s : State) : (promiseNow s).sset1 = s.sset1 :=
  promiseNow_frame State.sset1 (fun _ _ => rfl) (fun _ _ => rfl) (fun _ _ => rfl)  s
@[simp] theorem promiseNow_saved (s : State) : (promiseNow s).saved = s.saved :=
  promiseNow_frame State.saved (fun _ _ => rfl) (fun _ _ => rfl) (fun _ _ => rfl)  s
@[simp] theorem promiseNow_ssetDirty (s : State) : (promiseNow s).ssetDirty = s.ssetDirty :=
  promiseNow_frame State.ssetDirty (fun _ _ => rfl) (fun _ _ => rfl) (fun _ _ => rfl)  s
@[simp] theorem promiseNow_image (s : State) : (promiseNow s).image = s.image :=
  promiseNow_frame State.image (fun _ _ => rfl) (fun _ _ => rfl) (fun _ _ => rfl)  s
@[simp] theorem promiseNow_power (s : State) : (promiseNow s).power = s.power :=
  promiseNow_frame State.power (fun _ _ => rfl) (fun _ _ => rfl) (fun _ _ => rfl)  s
@[simp] theorem promiseNow_pins (s : State) : (promiseNow s).pins = s.pins :=
  promiseNow_frame State.pins (fun _ _ => rfl) (fun _ _ => rfl) (fun _ _ => rfl)  s
@[simp] theorem promiseNow_boot (s : State) : (promiseNow s).boot = s.boot :=
  promiseNow_frame State.boot (fun _ _ => rfl) (fun _ _ => rfl) (fun _ _ => rfl)  s
@[simp] theorem promiseNow_at_ctx (j : Nat) (s : State) : (promiseNow s).ctx j = s.ctx j :=
  promiseNow_frame (fun s => s.ctx j) (fun _ _ => rfl) (fun _ _ => rfl) (fun _ _ => rfl)  s
@[simp] theorem promiseNow_at_chan (j : Nat) (s : State) : (promiseNow s).chan j = s.chan j :=
  promiseNow_frame (fun s => s.chan j) (fun _ _ => rfl) (fun _ _ => rfl) (fun _ _ => rfl)  s
@[simp] theorem promiseNow_at_part (j : Nat) (s : State) : (promiseNow s).part j = s.part j :=
  promiseNow_frame (fun s => s.part j) (fun _ _ => rfl) (fun _ _ => rfl) (fun _ _ => rfl)  s
@[simp] theorem promiseNow_at_tile (j : Nat) (s : State) : (promiseNow s).tile j = s.tile j :=
  promiseNow_frame (fun s => s.tile j) (fun _ _ => rfl) (fun _ _ => rfl) (fun _ _ => rfl)  s
@[simp] theorem promiseNow_at_group (j : Nat) (s : State) : (promiseNow s).group j = s.group j :=
  promiseNow_frame (fun s => s.group j) (fun _ _ => rfl) (fun _ _ => rfl) (fun _ _ => rfl)  s
@[simp] theorem promiseNow_at_pool (j : Nat) (s : State) : (promiseNow s).pool j = s.pool j :=
  promiseNow_frame (fun s => s.pool j) (fun _ _ => rfl) (fun _ _ => rfl) (fun _ _ => rfl)  s
@[simp] theorem promiseNow_at_mod (j : Nat) (s : State) : (promiseNow s).mod j = s.mod j :=
  promiseNow_frame (fun s => s.mod j) (fun _ _ => rfl) (fun _ _ => rfl) (fun _ _ => rfl)  s
@[simp] theorem promiseNow_at_bdl (j : Nat) (s : State) : (promiseNow s).bdl j = s.bdl j :=
  promiseNow_frame (fun s => s.bdl j) (fun _ _ => rfl) (fun _ _ => rfl) (fun _ _ => rfl)  s
@[simp] theorem promiseNow_at_site (j : Nat) (s : State) : (promiseNow s).site j = s.site j :=
  promiseNow_frame (fun s => s.site j) (fun _ _ => rfl) (fun _ _ => rfl) (fun _ _ => rfl)  s
@[simp] theorem promiseNow_at_cfg (j : Nat) (s : State) : (promiseNow s).cfg j = s.cfg j :=
  promiseNow_frame (fun s => s.cfg j) (fun _ _ => rfl) (fun _ _ => rfl) (fun _ _ => rfl)  s
@[simp] theorem promiseNow_at_port (j : Nat) (s : State) : (promiseNow s).port j = s.port j :=
  promiseNow_frame (fun s => s.port j) (fun _ _ => rfl) (fun _ _ => rfl) (fun _ _ => rfl)  s
@[simp] theorem promiseNow_at_now (s : State) : (promiseNow s).now = s.now :=
  promiseNow_frame (fun s => s.now) (fun _ _ => rfl) (fun _ _ => rfl) (fun _ _ => rfl)  s

end Sys2Proof.Machine
end

