-- ==== Sys2Proof/Laws/Step.lean ====
section
/-! SUPPORT. What a step and a command answer: an effect on everything but the queue, with every fuse that was programmed
kept. -/

namespace Sys2Proof.Machine

/-! ### Fuses -/

/-- Fusing a list of bytes into a map: a byte reads what it read, with the bits of the entries at its key. -/
theorem get_fold_fuse (l : List (Nat × Byte)) (m : SMap Byte) (k : Nat) :
    ∃ x : Byte, SMap.get (fun _ => 0) (l.foldl (fun m e => SMap.upd (fun _ => 0) m e.1 (· ||| e.2)) m) k =
      SMap.get (fun _ => 0) m k ||| x := by
  induction l generalizing m with
  | nil => exact ⟨0, by simp⟩
  | cons e l ih =>
    obtain ⟨x, hx⟩ := ih (SMap.upd (fun _ => 0) m e.1 (· ||| e.2))
    rw [List.foldl_cons, hx, SMap.get_upd]
    split
    · subst k; exact ⟨e.2 ||| x, by rw [BitVec.or_assoc]⟩
    · exact ⟨x, rfl⟩

/-- Every entry of a list that is fused in stays fused. -/
theorem keeps_fold_fuse (old new : SMap Byte) (k : Nat) :
    SMap.get (fun _ => 0) old k &&&
      SMap.get (fun _ => 0) (old.foldl (fun m e => SMap.upd (fun _ => 0) m e.1 (· ||| e.2)) new) k =
        SMap.get (fun _ => 0) old k := by
  induction old generalizing new with
  | nil => simp
  | cons e l ih =>
    rw [List.foldl_cons]
    by_cases hk : k = e.1
    · obtain ⟨x, hx⟩ := get_fold_fuse l (SMap.upd (fun _ => 0) new e.1 (· ||| e.2)) k
      rw [hx, SMap.get_upd, if_pos hk, SMap.get_cons, if_pos hk]
      ext i
      simp
      intro h
      exact .inl (.inr h)
    · rw [SMap.get_cons, if_neg hk]
      exact ih _

/-- Every bit that was fused stays fused (R402). -/
theorem fuseKeep_keeps (old new : SMap Byte) (k : Nat) :
    SMap.get (fun _ => 0) old k &&& SMap.get (fun _ => 0) (fuseKeep old new) k = SMap.get (fun _ => 0) old k := by
  unfold fuseKeep
  split
  · simp
  · exact keeps_fold_fuse old new k

/-- What a command fuses beside what was fused is fused behind it. -/
theorem fuseKeep_new (old new : SMap Byte) (k : Nat) :
    SMap.get (fun _ => 0) new k &&& SMap.get (fun _ => 0) (fuseKeep old new) k = SMap.get (fun _ => 0) new k := by
  unfold fuseKeep
  split
  · rename_i h; simp [h]
  · obtain ⟨x, hx⟩ := get_fold_fuse old new k
    rw [hx]
    ext i
    simp
    intro h
    exact .inl h

/-- Fuses that a command left as they were stay as they are. -/
@[simp] theorem fuseKeep_self (m : SMap Byte) : fuseKeep m m = m := by simp [fuseKeep]

/-- A command that leaves the queue and the fuses alone leaves its effect. -/
theorem after_eq {s t : State} (h : t.pending = s.pending) (h' : t.otp = s.otp) : s.after t = t := by
  rw [State.after, ← h, ← h', fuseKeep_self]

/-! ### Commands and steps -/

/-- What a command may answer: an effect on everything but the queue, or, for a vector instruction in a reserved form, that
it is refused. -/
def Answers (s : State) (o : Host.Outcome State Fault Refusal) : Prop :=
  (∃ u, o = s.done u) ∨ o = .refused .reservedForm

theorem answers_done (s u : State) : Answers s (s.done u) := .inl ⟨u, rfl⟩

/-- An instruction of the vector engine that is issued on `s'`, a state with the queue and the fuses of `s`. -/
theorem issue_answers (op t cyc : Nat) (f : VForm) (body : VArgs → State → Except Nat State) (s s' : State)
    (hp : s'.pending = s.pending) (ho : s'.otp = s.otp) : Answers s (issue op t cyc f body s') := by
  have hd : ∀ u, s'.done u = s.done u := fun u => by unfold State.done State.after; rw [hp, ho]
  unfold issue
  split
  · exact .inr rfl
  · split
    · exact .inl ⟨_, hd _⟩
    · split <;> exact .inl ⟨_, hd _⟩

theorem issueV_answers (op t cyc : Nat) (f : VForm) (body : VArgs → Vxe → VRes) (s s' : State)
    (hp : s'.pending = s.pending) (ho : s'.otp = s.otp) : Answers s (issueV op t cyc f body s') :=
  issue_answers op t cyc f _ s s' hp ho

theorem issueT_answers (op t : Nat) (f : VForm) (body : VArgs → Tile → Except Nat Tile) (s s' : State)
    (hp : s'.pending = s.pending) (ho : s'.otp = s.otp) : Answers s (issueT op t f body s') :=
  issue_answers op t 1 f _ s s' hp ho

/-- Every command answers an effect on everything but the queue, or is a vector instruction in a reserved form. -/
theorem exec_answers (c : Instr) (s : State) : Answers s (exec c s) := by
  cases c
  case cvt t f =>
    change Answers s (execCvt t f s)
    unfold execCvt
    simp only []
    split
    · refine issueV_answers _ _ _ _ _ _ _ ?_ ?_ <;> split <;> rfl
    · exact issueV_answers _ _ _ _ _ _ _ rfl rfl
  case vst t f =>
    change Answers s (execVst t f s)
    unfold execVst
    split <;> exact issueT_answers _ _ _ _ _ _ rfl rfl
  case loopBody t f =>
    change Answers s (execLoopBody t f s)
    unfold execLoopBody
    split
    · exact .inr rfl
    · exact issueV_answers _ _ _ _ _ _ _ rfl rfl
  case wout t f =>
    change Answers s (execWout t f s)
    unfold execWout
    simp only []
    split <;> exact issue_answers _ _ _ _ _ _ _ rfl rfl
  case summ t f =>
    change Answers s (execSumm t f s)
    unfold execSumm
    split
    · exact .inr rfl
    · exact issue_answers _ _ _ _ _ _ _ rfl rfl
  case endKernel t f =>
    change Answers s (execEndKernel t f s)
    unfold execEndKernel
    split
    · exact .inr rfl
    · split <;> exact answers_done _ _
  case vxeNop t f => change Answers s (execVxeNop t f s); unfold execVxeNop; exact issueV_answers _ _ _ f _ s s rfl rfl
  case add t f => change Answers s (execAdd t f s); unfold execAdd; exact issueV_answers _ _ _ f _ s s rfl rfl
  case mul t f => change Answers s (execMul t f s); unfold execMul; exact issueV_answers _ _ _ f _ s s rfl rfl
  case fma t f => change Answers s (execFma t f s); unfold execFma; exact issueV_answers _ _ _ f _ s s rfl rfl
  case min t f => change Answers s (execMin t f s); unfold execMin; exact issueV_answers _ _ _ f _ s s rfl rfl
  case max t f => change Answers s (execMax t f s); unfold execMax; exact issueV_answers _ _ _ f _ s s rfl rfl
  case sel t f => change Answers s (execSel t f s); unfold execSel; exact issueV_answers _ _ _ f _ s s rfl rfl
  case cmpeq t f => change Answers s (execCmpeq t f s); unfold execCmpeq; exact issueV_answers _ _ _ f _ s s rfl rfl
  case cmplt t f => change Answers s (execCmplt t f s); unfold execCmplt; exact issueV_answers _ _ _ f _ s s rfl rfl
  case cmple t f => change Answers s (execCmple t f s); unfold execCmple; exact issueV_answers _ _ _ f _ s s rfl rfl
  case cmpun t f => change Answers s (execCmpun t f s); unfold execCmpun; exact issueV_answers _ _ _ f _ s s rfl rfl
  case mand t f => change Answers s (execMand t f s); unfold execMand; exact issueV_answers _ _ _ f _ s s rfl rfl
  case mor t f => change Answers s (execMor t f s); unfold execMor; exact issueV_answers _ _ _ f _ s s rfl rfl
  case mxor t f => change Answers s (execMxor t f s); unfold execMxor; exact issueV_answers _ _ _ f _ s s rfl rfl
  case mnot t f => change Answers s (execMnot t f s); unfold execMnot; exact issueV_answers _ _ _ f _ s s rfl rfl
  case mcnt t f => change Answers s (execMcnt t f s); unfold execMcnt; exact issueV_answers _ _ _ f _ s s rfl rfl
  case pack4 t f => change Answers s (execPack4 t f s); unfold execPack4; exact issueV_answers _ _ _ f _ s s rfl rfl
  case iota t f => change Answers s (execIota t f s); unfold execIota; exact issueV_answers _ _ _ f _ s s rfl rfl
  case perm t f => change Answers s (execPerm t f s); unfold execPerm; exact issueV_answers _ _ _ f _ s s rfl rfl
  case curve t f => change Answers s (execCurve t f s); unfold execCurve; exact issueV_answers _ _ _ f _ s s rfl rfl
  case vld t f => change Answers s (execVld t f s); unfold execVld; exact issueT_answers _ _ f _ s s rfl rfl
  case seta t f => change Answers s (execSeta t f s); unfold execSeta; exact issueV_answers _ _ _ f _ s s rfl rfl
  case setvl t f => change Answers s (execSetvl t f s); unfold execSetvl; exact issueV_answers _ _ _ f _ s s rfl rfl
  case free t f => change Answers s (execFree t f s); unfold execFree; exact issue_answers 0x31 t.val 1 f _ s s rfl rfl
  all_goals exact answers_done s _

/-- A command that answers a next state leaves the queue alone and keeps every fuse (R402). -/
theorem exec_next {c : Instr} {s t : State} (h : exec c s = .next t) : t.pending = s.pending ∧ fusesKept s t := by
  rcases exec_answers c s with ⟨u, hu⟩ | hr
  · rw [hu] at h
    cases h
    exact ⟨rfl, fun k => fuseKeep_keeps _ _ k⟩
  · rw [hr] at h
    cases h

/-- No command faults. -/
theorem exec_no_fault (c : Instr) (s : State) (f : Fault) : exec c s ≠ .fault f := by
  rcases exec_answers c s with ⟨u, hu⟩ | hr
  · rw [hu]; exact fun h => by cases h
  · rw [hr]; exact fun h => by cases h

/-- A step takes the command at the front of the queue and leaves the rest. -/
theorem step_cons {s : State} {c : Instr} {rest : List Instr} (h : s.pending = c :: rest) :
    step s = exec c { s with pending := rest } := by
  unfold step
  rw [h]

/-- A step on an empty queue is one cycle of the count clock. -/
theorem step_nil {s : State} (h : s.pending = []) : step s = .next (tick s) := by
  unfold step
  rw [h]

end Sys2Proof.Machine
end

