-- ==== Sys2Proof/Laws/Lanes.lean ====
section
/-! SUPPORT. The lanes of a vector register: what a lane-wise write leaves in each lane, and what an instruction that is
issued changes beside the engine that it runs on. -/

namespace Sys2Proof.Machine

/-- Lanes spell less than one more lane's weight. -/
theorem ofLanes_lt (b : Nat) (l : List Nat) : ofLanes b l < 2 ^ (b * l.length) := by
  induction l with
  | nil => simp [ofLanes]
  | cons x l ih =>
    simp only [ofLanes, List.length_cons]
    have h1 : x % 2 ^ b < 2 ^ b := Nat.mod_lt _ (Nat.two_pow_pos _)
    have h2 : 2 ^ (b * (l.length + 1)) = 2 ^ b * 2 ^ (b * l.length) := by rw [← Nat.pow_add]; ring_nf
    rw [h2]
    calc x % 2 ^ b + 2 ^ b * ofLanes b l < 2 ^ b + 2 ^ b * ofLanes b l := by omega
      _ = 2 ^ b * (ofLanes b l + 1) := by ring
      _ ≤ 2 ^ b * 2 ^ (b * l.length) := Nat.mul_le_mul_left _ ih

/-- Lane `i` of what lanes spell. -/
theorem laneOf_ofLanes (b : Nat) (l : List Nat) (i : Nat) (hi : i < l.length) :
    laneOf b (ofLanes b l) i = l.getD i 0 % 2 ^ b := by
  induction l generalizing i with
  | nil => simp at hi
  | cons x l ih =>
    cases i with
    | zero =>
      simp [laneOf, ofLanes, Nat.add_mul_mod_self_left]
    | succ i =>
      have := ih i (by simpa using hi)
      rw [List.getD_cons_succ, ← this]
      unfold laneOf
      have h : 2 ^ (b * (i + 1)) = 2 ^ b * 2 ^ (b * i) := by rw [← Nat.pow_add]; ring_nf
      rw [ofLanes, h, ← Nat.div_div_eq_div_mul, Nat.add_mul_div_left _ _ (Nat.two_pow_pos b),
        Nat.div_eq_of_lt (Nat.mod_lt _ (Nat.two_pow_pos b)), Nat.zero_add]

/-- Lane `i` of a number whose bits from lane `n` on are kept, below lane `n`. -/
theorem laneOf_keep (b n hi lo i : Nat) (h : i < n) : laneOf b (hi * 2 ^ (b * n) + lo) i = laneOf b lo i := by
  unfold laneOf
  obtain ⟨k, rfl⟩ := Nat.exists_eq_add_of_lt h
  have e : 2 ^ (b * (i + k + 1)) = 2 ^ (b * i) * (2 ^ b * 2 ^ (b * k)) := by
    rw [← Nat.pow_add, ← Nat.pow_add]; congr 1; ring
  rw [e, show hi * (2 ^ (b * i) * (2 ^ b * 2 ^ (b * k))) + lo = lo + 2 ^ (b * i) * (hi * (2 ^ b * 2 ^ (b * k))) by ring,
    Nat.add_mul_div_left _ _ (Nat.two_pow_pos _),
    show hi * (2 ^ b * 2 ^ (b * k)) = 2 ^ b * (hi * 2 ^ (b * k)) by ring, Nat.add_mul_mod_self_left]

/-- The engine behind an instruction. -/
def Vxe.passed (v : Vxe) (len cyc : Nat) : Vxe :=
  { v with pc := (closeAt (v.pc + len) v.loops).1, loops := (closeAt (v.pc + len) v.loops).2, cycles := v.cycles + cyc }

@[simp] theorem Vxe.passed_v (v : Vxe) (len cyc r : Nat) : (v.passed len cyc).v r = v.v r := rfl
@[simp] theorem Vxe.passed_m (v : Vxe) (len cyc r : Nat) : (v.passed len cyc).m r = v.m r := rfl
@[simp] theorem Vxe.passed_a (v : Vxe) (len cyc r : Nat) : (v.passed len cyc).a r = v.a r := rfl
@[simp] theorem Vxe.passed_stat (v : Vxe) (len cyc : Nat) : (v.passed len cyc).stat = v.stat := rfl

@[simp] theorem Vxe.setV_same (x : Vxe) (r v : Nat) : (x.setV r v).v r = v := SMap.get_put_same _ _ _ _
theorem Vxe.setV_other (x : Vxe) (r v : Nat) {j : Nat} (h : j ≠ r) : (x.setV r v).v j = x.v j :=
  SMap.get_put_other _ _ _ h

@[simp] theorem Vxe.setV_m (x : Vxe) (r v j : Nat) : (x.setV r v).m j = x.m j := rfl
@[simp] theorem Vxe.setV_a (x : Vxe) (r v j : Nat) : (x.setV r v).a j = x.a j := rfl
@[simp] theorem Vxe.setV_stat (x : Vxe) (r v : Nat) : (x.setV r v).stat = x.stat := rfl
@[simp] theorem Vxe.setA_stat (x : Vxe) (r v : Nat) : (x.setA r v).stat = x.stat := rfl
@[simp] theorem Vxe.setA_v (x : Vxe) (r v j : Nat) : (x.setA r v).v j = x.v j := rfl
@[simp] theorem Vxe.setA_m (x : Vxe) (r v j : Nat) : (x.setA r v).m j = x.m j := rfl
@[simp] theorem Vxe.setA_same (x : Vxe) (r v : Nat) : (x.setA r v).a r = v % 2 ^ 20 := SMap.get_put_same _ _ _ _
theorem Vxe.setA_other (x : Vxe) (r v : Nat) {j : Nat} (h : j ≠ r) : (x.setA r v).a j = x.a j :=
  SMap.get_put_other _ _ _ h

/-- A write of one vector register keeps the others. -/
theorem vxeKept_setV (x : Vxe) (r v len cyc : Nat) : vxeKept x ((x.setV r v).passed len cyc) (some r) none none :=
  ⟨fun j hj => (Vxe.setV_other x r v fun h => hj (by rw [h])), fun _ _ => rfl, fun _ _ => rfl, rfl, rfl, rfl⟩

/-- A write of one address register keeps the others. -/
theorem vxeKept_setA (x : Vxe) (r v len cyc : Nat) : vxeKept x ((x.setA r v).passed len cyc) none none (some r) :=
  ⟨fun _ _ => rfl, fun _ _ => rfl, fun j hj => (Vxe.setA_other x r v fun h => hj (by rw [h])), rfl, rfl, rfl⟩

/-- What a lane-wise write leaves in lane `i`: the lane's value where it is active, what it held elsewhere. -/
theorem Vxe.mapLanes_lane (x : Vxe) (vd : Nat) (act : Nat → Bool) (b n : Nat) (g : Nat → Nat × Nat) (i : Nat) (hi : i < n) :
    laneOf b ((x.mapLanes vd act b n g).v vd) i = if act i then (g i).1 % 2 ^ b else laneOf b (x.v vd) i := by
  have hv : (x.mapLanes vd act b n g).v vd = (x.v vd / 2 ^ (b * n)) * 2 ^ (b * n) +
      ofLanes b (((List.range n).map fun i => if act i then g i else (laneOf b (x.v vd) i, 0)).map (·.1)) :=
    Vxe.setV_same _ _ _
  rw [hv, laneOf_keep _ _ _ _ _ hi, laneOf_ofLanes _ _ _ (by simpa using hi)]
  simp only [List.map_map, List.getD_eq_getElem?_getD, List.getElem?_map, List.getElem?_range hi, Option.map_some,
    Function.comp, Option.getD_some]
  split
  · rfl
  · unfold laneOf; rw [Nat.mod_mod]

/-- A lane-wise write leaves every other vector register alone. -/
theorem Vxe.mapLanes_other (x : Vxe) (vd : Nat) (act : Nat → Bool) (b n : Nat) (g : Nat → Nat × Nat) {r : Nat} (h : r ≠ vd) :
    (x.mapLanes vd act b n g).v r = x.v r := Vxe.setV_other _ _ _ h

@[simp] theorem Vxe.mapLanes_m (x : Vxe) (vd : Nat) (act : Nat → Bool) (b n : Nat) (g : Nat → Nat × Nat) (r : Nat) :
    (x.mapLanes vd act b n g).m r = x.m r := rfl
@[simp] theorem Vxe.mapLanes_a (x : Vxe) (vd : Nat) (act : Nat → Bool) (b n : Nat) (g : Nat → Nat × Nat) (r : Nat) :
    (x.mapLanes vd act b n g).a r = x.a r := rfl

/-! ### What an instruction that passes on leaves alone -/

/-- Bringing the tile's registers to its engine changes registers and the operation's flags: whatever is read without them
is as before. -/
theorem syncVxe_frame {β : Sort _} (obs : State → β) (hregs : ∀ s x, obs { s with regs := x } = obs s)
    (hctxs : ∀ s x, obs { s with ctxs := x } = obs s) (t : Nat) (s : State) : obs (syncVxe t s) = obs s := by
  unfold syncVxe
  simp only []
  split
  · exact (hregs _ _).trans ((hregs _ _).trans ((hregs _ _).trans (hregs _ _)))
  · exact (hctxs _ _).trans ((hregs _ _).trans ((hregs _ _).trans ((hregs _ _).trans (hregs _ _))))

/-- Passing on: the tile's engine behind it, and every other tile. -/
theorem passOn_tile (t len cyc j : Nat) (s : State) :
    (passOn t len cyc s).tile j =
      if j = t then { s.tile t with vxe := (s.tile t).vxe.passed len cyc } else s.tile j := by
  unfold passOn
  rw [syncVxe_frame (fun s => s.tile j) (fun _ _ => rfl) (fun _ _ => rfl)]
  unfold State.onVxe
  split
  · subst j; rw [State.onTile_same]; rfl
  · rw [State.onTile_other _ _ _ ‹_›]

/-- Passing on changes registers, tiles and contexts. -/
theorem passOn_frame {β : Sort _} (obs : State → β) (hregs : ∀ s x, obs { s with regs := x } = obs s)
    (hctxs : ∀ s x, obs { s with ctxs := x } = obs s) (htiles : ∀ s x, obs { s with tiles := x } = obs s)
    (t len cyc : Nat) (s : State) : obs (passOn t len cyc s) = obs s :=
  (syncVxe_frame obs hregs hctxs t _).trans (htiles _ _)

/-- Bringing the tile's registers to its engine writes VXE_STATUS and VXE_STAT of the tile and no other register. -/
theorem syncVxe_reg (t : Nat) (s : State) {k : Nat} (h1 : k ≠ R.VXE_STATUS t) (h2 : k ≠ R.VXE_STAT t) :
    (syncVxe t s).reg k = s.reg k := by
  have h : ∀ a b c d, ((((s.wr (F.VXE_STATUS_PC t) a).wr (F.VXE_STATUS_LOOP_DEPTH t) b).wr (F.VXE_STATUS_PEND_SUMM t) c).setReg
      (R.VXE_STAT t) d).reg k = s.reg k := fun a b c d => by
    rw [State.setReg_other _ _ _ h2, reg_wr_other _ _ _ h1, reg_wr_other _ _ _ h1, reg_wr_other _ _ _ h1]
  unfold syncVxe
  dsimp only
  generalize (s.tile t).vxe = v
  cases v.opKey with
  | none => dsimp only; rw [h]
  | some p => dsimp only [State.onOp]; rw [State.onCtx_at_reg, h]

/-- Passing on writes the tile's VXE_STATUS and VXE_STAT and no other register. -/
theorem passOn_reg (t len cyc : Nat) (s : State) {k : Nat} (h1 : k ≠ R.VXE_STATUS t) (h2 : k ≠ R.VXE_STAT t) :
    (passOn t len cyc s).reg k = s.reg k := syncVxe_reg t _ h1 h2

/-- An instruction that acts on the engine alone, in a form that a kernel may hold, on an engine that runs a kernel:
what the tile holds behind it, where its work on the engine succeeds. -/
theorem issueV_runs {op t cyc : Nat} {f : VForm} {body : VArgs → Vxe → VRes} {s : State} {v : Vxe}
    (hf : formOk op (vargs f) (s.tile t).vxe.w = true) (hr : s.vxeRuns t = true)
    (hb : body (vargs f) (s.tile t).vxe = .ok v) :
    issueV op t cyc f body s = s.done (passOn t (vargs f).len cyc (s.onVxe t fun _ => v)) := by
  unfold issueV issue
  simp only [hf, hr, hb, Bool.not_true, Bool.false_eq_true, if_false]

/-- Every bit of the mask of all ones. -/
theorem testBit_maskOnes (i : Nat) : maskOnes.testBit i = decide (i < 512) := by
  unfold maskOnes; rw [Nat.testBit_two_pow_sub_one]

/-- A flag of an OR over a list. -/
theorem testBit_foldl_or (l : List Nat) (a j : Nat) :
    (l.foldl (· ||| ·) a).testBit j = (a.testBit j || l.any fun x => x.testBit j) := by
  induction l generalizing a with
  | nil => simp
  | cons x l ih => rw [List.foldl_cons, ih, Nat.testBit_or, List.any_cons, Bool.or_assoc]

/-- The flags that a lane-wise write leaves. -/
theorem Vxe.mapLanes_stat (x : Vxe) (vd : Nat) (act : Nat → Bool) (b n : Nat) (g : Nat → Nat × Nat) (j : Nat) :
    (x.mapLanes vd act b n g).stat.testBit j =
      (x.stat.testBit j || (List.range n).any fun i => act i && (g i).2.testBit j) := by
  unfold Vxe.mapLanes
  simp only [Nat.testBit_or, testBit_foldl_or, List.map_map, List.any_map, Nat.zero_testBit, Bool.false_or]
  congr 2
  funext i
  simp only [Function.comp]
  split <;> simp [*]

/-- An engine that differs from another in its registers, W, FK, VL and flags at most. -/
def Vxe.Rest (x y : Vxe) : Prop :=
  y = { y with pc := x.pc, loops := x.loops, cycles := x.cycles, run := x.run, freed := x.freed, image := x.image,
               params := x.params, kslot := x.kslot, opKey := x.opKey, block := x.block, scratch := x.scratch,
               page := x.page, summs := x.summs, wout := x.wout }

theorem Vxe.rest_self (x : Vxe) : x.Rest x := rfl
theorem Vxe.rest_setV (x : Vxe) (r v : Nat) : x.Rest (x.setV r v) := rfl
theorem Vxe.rest_setA (x : Vxe) (r v : Nat) : x.Rest (x.setA r v) := rfl
theorem Vxe.rest_setM (x : Vxe) (r v : Nat) : x.Rest (x.setM r v) := by unfold Vxe.setM; split <;> rfl
theorem Vxe.rest_stat {x y : Vxe} (h : x.Rest y) (f : Nat) : x.Rest { y with stat := f } := by
  unfold Vxe.Rest at h ⊢; rw [h]
theorem Vxe.rest_len {x y : Vxe} (h : x.Rest y) (w k n : Nat) : x.Rest { y with w := w, fk := k, vl := n } := by
  unfold Vxe.Rest at h ⊢; rw [h]
theorem Vxe.rest_mapLanes (x : Vxe) (vd : Nat) (act : Nat → Bool) (b n : Nat) (g : Nat → Nat × Nat) : x.Rest (x.mapLanes vd act b n g) := by
  unfold Vxe.mapLanes
  exact Vxe.rest_stat (Vxe.rest_setV x _ _) _

/-- What is left behind an instruction that acts on the engine alone and passes on. -/
theorem passed_of (t len cyc : Nat) (s : State) (v : Vxe)
    (hv : (s.eng t).Rest v) (u : State) (hu : u.tiles = s.tiles) (hr : u.regs = s.regs)
    (hd : u.devMem = s.devMem) (ho : u.outbox = s.outbox) :
    (s.after (passOn t len cyc (u.onVxe t fun _ => v))).eng t = v.passed len cyc ∧
      vxePassed t len cyc s (s.after (passOn t len cyc (u.onVxe t fun _ => v))) := by
  have hut : ∀ j, u.tile j = s.tile j := fun j => by unfold State.tile; rw [hu]
  have ht : ∀ j, (s.after (passOn t len cyc (u.onVxe t fun _ => v))).tile j =
      if j = t then { s.tile t with vxe := v.passed len cyc } else s.tile j := fun j => by
    rw [State.after_at_tile, passOn_tile]
    unfold State.onVxe
    split
    · rw [State.onTile_same, hut]
    · rw [State.onTile_other _ _ _ ‹_›, hut]
  have he : (s.after (passOn t len cyc (u.onVxe t fun _ => v))).eng t = v.passed len cyc := by
    unfold State.eng; rw [ht, if_pos rfl]
  refine ⟨he, ?_, ?_, ?_, fun j hj => ?_, fun k h1 h2 => ?_, ?_, ?_, ?_⟩
  · rw [he, show v = _ from hv]; rfl
  · rw [he, show v = _ from hv]; rfl
  · rw [he, ht, if_pos rfl]
  · rw [ht, if_neg hj]
  · rw [State.after_at_reg, passOn_reg _ _ _ _ h1 h2]
    unfold State.onVxe
    rw [State.onTile_at_reg]
    unfold State.reg
    rw [hr]
  · rw [State.after_devMem, passOn_frame State.devMem (fun _ _ => rfl) (fun _ _ => rfl) fun _ _ => rfl]
    exact hd
  · rw [State.after_outbox, passOn_frame State.outbox (fun _ _ => rfl) (fun _ _ => rfl) fun _ _ => rfl]
    exact ho
  · exact State.after_pending _ _

/-! ### The three shapes of instruction -/

/-- An instruction that writes lanes, issued on a state `u` that differs from `s` in the free-value counter at most. -/
theorem lanes_of {t : Nat} {s u : State} {f : VForm} {op cyc vd b n : Nat} {act : Nat → Bool} {g : Nat → Nat × Nat}
    {body : VArgs → Vxe → VRes} {o : Host.Outcome State Fault Refusal} (hc : o = issueV op t cyc f body u)
    (hf : formOk op (vargs f) (u.tile t).vxe.w = true) (hr : u.vxeRuns t = true)
    (hb : body (vargs f) (u.tile t).vxe = .ok ((s.eng t).mapLanes vd act b n g))
    (hu : u.tiles = s.tiles) (hrg : u.regs = s.regs) (hd : u.devMem = s.devMem) (ho : u.outbox = s.outbox)
    (hp : u.pending = s.pending) (hot : u.otp = s.otp) :
    ∃ s', o = .next s' ∧ laneStep t vd (vargs f).len cyc b n act g s s' := by
  refine ⟨s.after (passOn t (vargs f).len cyc (u.onVxe t fun _ => (s.eng t).mapLanes vd act b n g)), ?_, ?_⟩
  · rw [hc, issueV_runs hf hr hb]
    unfold State.done State.after
    rw [hp, hot]
  · obtain ⟨he, hp⟩ := passed_of t (vargs f).len cyc s ((s.eng t).mapLanes vd act b n g) (Vxe.rest_mapLanes _ _ _ _ _ _)
      u hu hrg hd ho
    refine ⟨fun i hi => ?_, fun j => ?_, ?_, hp⟩
    · rw [he, Vxe.passed_v, Vxe.mapLanes_lane _ _ _ _ _ _ _ hi]
    · rw [he, Vxe.passed_stat, Vxe.mapLanes_stat]
    · rw [he]
      refine ⟨fun r hr => ?_, fun r _ => rfl, fun r _ => rfl, rfl, rfl, rfl⟩
      rw [Vxe.passed_v, Vxe.mapLanes_other _ _ _ _ _ _ fun h => hr (by rw [h])]

/-- Bit `i` of a mask that is written bit by bit. -/
theorem testBit_bitsFrom (n : Nat) (g : Nat → Bool) (i : Nat) (hi : i < n) : (bitsFrom n g).testBit i = g i := by
  have h := laneOf_ofLanes 1 ((List.range n).map fun i => b2n (g i)) i (by simpa using hi)
  have e : (bitsFrom n g).testBit i = decide (laneOf 1 (bitsFrom n g) i = 1) := by
    rw [Nat.testBit_eq_decide_div_mod_eq]
    unfold laneOf
    simp
  rw [e]
  unfold bitsFrom
  rw [h]
  simp only [List.getD_eq_getElem?_getD, List.getElem?_map, List.getElem?_range hi, Option.map_some, Option.getD_some]
  cases g i <;> simp [b2n]

/-- The count of the set bits below a place. -/
theorem popCount_eq (n w : Nat) : popCount n w = ((List.range w).filter fun i => n.testBit i).length := by
  induction w with
  | zero => rfl
  | succ w ih =>
    rw [popCount, List.range_succ, List.filter_append, List.length_append, ih]
    cases h : n.testBit w <;> simp [h, b2n, Nat.add_comm]

/-- An instruction that writes a mask. -/
theorem mask_of {t : Nat} {s : State} {f : VForm} {op cyc md fl r : Nat} {g : Nat → Bool}
    {body : VArgs → Vxe → VRes} {o : Host.Outcome State Fault Refusal} (hc : o = issueV op t cyc f body s)
    (hf : formOk op (vargs f) (s.tile t).vxe.w = true) (hr : s.vxeRuns t = true)
    (hb : body (vargs f) (s.tile t).vxe = .ok { (s.eng t).setM md r with stat := (s.eng t).stat ||| fl })
    (hg : ∀ i, i < 512 → r.testBit i = g i) :
    ∃ s', o = .next s' ∧ maskStep t md (vargs f).len cyc g fl s s' := by
  refine ⟨s.after (passOn t (vargs f).len cyc (s.onVxe t fun _ => { (s.eng t).setM md r with stat := (s.eng t).stat ||| fl })), ?_, ?_⟩
  · rw [hc, issueV_runs hf hr hb]; rfl
  · have hm : { (s.eng t).setM md r with stat := (s.eng t).stat ||| fl } =
        { s.eng t with mreg := ((s.eng t).setM md r).mreg, stat := (s.eng t).stat ||| fl } := by
      unfold Vxe.setM; split <;> rfl
    rw [hm]
    obtain ⟨he, hp⟩ := passed_of t (vargs f).len cyc s
      { s.eng t with mreg := ((s.eng t).setM md r).mreg, stat := (s.eng t).stat ||| fl } (hm ▸ Vxe.rest_stat (Vxe.rest_setM _ _ _) _) s rfl rfl rfl rfl
    refine ⟨fun i hi => ?_, ?_, ?_, hp⟩
    · rw [he]
      unfold Vxe.m
      by_cases h0 : md = 0
      · simp [h0, testBit_maskOnes, hi]
      · rw [if_neg h0]
        show (SMap.get (fun _ => 0) ((s.eng t).setM md r).mreg md).testBit i = _
        unfold Vxe.setM
        rw [if_neg h0]
        simp [h0, hg i hi]
    · rw [he]; rfl
    · rw [he]
      refine ⟨fun _ _ => rfl, fun q hq => ?_, fun _ _ => rfl, rfl, rfl, rfl⟩
      unfold Vxe.m
      split
      · rfl
      · show SMap.get (fun _ => 0) ((s.eng t).setM md r).mreg q = _
        unfold Vxe.setM
        split
        · rfl
        · exact SMap.get_put_other _ _ _ fun h => hq (by rw [h])

/-- An instruction that acts on the engine alone: what the engine is behind it. -/
theorem kept_of {t : Nat} {s : State} {f : VForm} {op cyc : Nat} {y : Vxe}
    {body : VArgs → Vxe → VRes} {o : Host.Outcome State Fault Refusal} (hc : o = issueV op t cyc f body s)
    (hf : formOk op (vargs f) (s.tile t).vxe.w = true) (hr : s.vxeRuns t = true)
    (hb : body (vargs f) (s.tile t).vxe = .ok y)
    (hy : (s.eng t).Rest y) :
    ∃ s', o = .next s' ∧ s'.eng t = y.passed (vargs f).len cyc ∧ vxePassed t (vargs f).len cyc s s' := by
  refine ⟨s.after (passOn t (vargs f).len cyc (s.onVxe t fun _ => y)), ?_, ?_⟩
  · rw [hc, issueV_runs hf hr hb]; rfl
  · exact passed_of t (vargs f).len cyc s y hy s rfl rfl rfl rfl

theorem vCount_eq (a : VArgs) (x : Vxe) : vCount a x = .ok (x.setV a.vd (x.v a.vd / 2 ^ 32 * 2 ^ 32 + popCount (x.m a.vs1) x.vl % 2 ^ 32)) := rfl

end Sys2Proof.Machine
end

