-- ==== Sys2Proof/Laws/Mem.lean ====
section
/-! SUPPORT. What the operations over device memory do: every one keeps the canonical form, a granule reads what was written to
it, and nothing else of device memory changes. -/

namespace Sys2Proof.Machine

/-- Storing bytes changes device memory alone. -/
theorem physWrite_frame {β : Sort _} (obs : State → β) (h : ∀ s x, obs { s with devMem := x } = obs s)
    (bs : List Byte) (ch off : Nat) (s : State) : obs (s.physWrite ch off bs) = obs s := by
  induction bs generalizing s off with
  | nil => rfl
  | cons b bs ih => rw [State.physWrite, ih, h]

/-- What storing bytes leaves. -/
theorem physWrite_eq (bs : List Byte) (ch off : Nat) (s : State) :
    s.physWrite ch off bs = { s with devMem := (s.physWrite ch off bs).devMem } := by
  induction bs generalizing s off with
  | nil => rfl
  | cons b bs ih => rw [State.physWrite, ih]

/-- Storing bytes keeps the canonical form. -/
theorem physWrite_wf (bs : List Byte) (ch off : Nat) (s : State) (h : Memory.wf s.devMem = true) :
    Memory.wf (s.physWrite ch off bs).devMem = true := by
  induction bs generalizing s off with
  | nil => exact h
  | cons b bs ih => rw [State.physWrite]; exact ih _ _ (SMap.wf_put _ _ _ _ h)

/-- The place of a byte behind another. -/
theorem memKey_add (ch off n : Nat) : memKey ch (off + n) = memKey ch off + n := by unfold memKey; omega

/-- A byte outside the run stored reads as before. -/
theorem physWrite_get_other (bs : List Byte) (ch off k : Nat) (s : State)
    (h : k < memKey ch off ∨ memKey ch off + bs.length ≤ k) :
    SMap.get memDefault (s.physWrite ch off bs).devMem k = SMap.get memDefault s.devMem k := by
  induction bs generalizing s off with
  | nil => rfl
  | cons b bs ih =>
    have hl : (b :: bs).length = bs.length + 1 := rfl
    rw [State.physWrite, ih _ _ (by rw [memKey_add]; omega), SMap.get_put_other _ _ _ (by omega)]

/-- A byte of the run stored reads as written. -/
theorem physWrite_get (bs : List Byte) (ch off i : Nat) (s : State) (h : i < bs.length) :
    SMap.get memDefault (s.physWrite ch off bs).devMem (memKey ch off + i) = bs.getD i 0 := by
  induction bs generalizing s off i with
  | nil => exact absurd h (by simp)
  | cons b bs ih =>
    rw [State.physWrite]
    cases i with
    | zero => rw [physWrite_get_other _ _ _ _ _ (by rw [memKey_add]; omega), Nat.add_zero, SMap.get_put_same]; rfl
    | succ i =>
      have := ih (off + 1) i { s with devMem := SMap.put memDefault s.devMem (memKey ch off) b } (by simpa using h)
      rw [memKey_add, show memKey ch off + 1 + i = memKey ch off + (i + 1) by omega] at this
      rw [this]; rfl

/-- Bytes just stored are read back. -/
theorem physRead_physWrite (bs : List Byte) (ch off : Nat) (s : State) :
    (s.physWrite ch off bs).physRead ch off bs.length = bs := by
  unfold State.physRead
  apply List.ext_getElem (by simp)
  intro i h h'
  rw [List.getElem_map, List.getElem_range, physWrite_get _ _ _ _ _ h', List.getD_eq_getElem _ _ h']

/-- What a write leaves in device memory depends on nothing else. -/
theorem physWrite_devMem (ch off : Nat) (bs : List Byte) {t u : State} (e : t.devMem = u.devMem) :
    (t.physWrite ch off bs).devMem = (u.physWrite ch off bs).devMem := by
  induction bs generalizing off t u with
  | nil => exact e
  | cons b bs ih => exact ih _ (by simp [e])

/-- What a granule write that succeeds leaves: the bytes stored, and besides only marks and the channel's record differ. -/
theorem granWrite_ok {s s' : State} {ch off : Nat} {bs : List Byte} (h : s.granWrite ch off bs = .ok s') :
    s.unserved ch off = none ∧ s.rowHeld ch off = false ∧ (s.marked ch off = true → 32 ≤ bs.length) ∧
      s'.devMem = (s.physWrite ch off bs).devMem ∧
      s' = { s with devMem := s'.devMem, ueMarks := s'.ueMarks, chans := s'.chans } := by
  unfold State.granWrite at h
  split at h
  · cases h
  · rename_i hu
    cases hh : s.rowHeld ch off
    case true => simp [hh] at h
    simp only [hh, Bool.false_eq_true, if_false] at h
    split at h
    · cases h
    · rename_i hm
      cases h
      refine ⟨hu, rfl, fun hk => ?_, ?_, ?_⟩
      · simp [hk] at hm; omega
      · have hd : ∀ (t u : State), t.devMem = u.devMem → (t.physWrite ch off bs).devMem = (u.physWrite ch off bs).devMem :=
          fun t u e => physWrite_devMem ch off bs e
        unfold State.cacheTouch State.onChan
        simp only []
        split <;> exact hd _ _ rfl
      · unfold State.cacheTouch State.onChan
        simp only []
        split
        · rw [physWrite_eq]; rfl
        · rw [physWrite_eq]

/-- A granule write keeps the canonical form. -/
theorem granWrite_wf {s s' : State} {ch off : Nat} {bs : List Byte} (h : s.granWrite ch off bs = .ok s')
    (hw : Memory.wf s.devMem = true) : Memory.wf s'.devMem = true := by
  rw [(granWrite_ok h).2.2.2.1]; exact physWrite_wf _ _ _ _ hw

/-- A write over the pieces of an access keeps the canonical form, whether or not a granule fails. -/
theorem writePieces_wf (c : Nat) (ps : List (Nat × Nat)) (bs : List Byte) (s : State) (hw : Memory.wf s.devMem = true) :
    Memory.wf (s.writePieces c bs ps).1.devMem = true := by
  induction ps generalizing s bs with
  | nil => exact hw
  | cons p ps ih =>
    unfold State.writePieces
    simp only []
    split
    · exact hw
    · rename_i h; exact ih _ _ (granWrite_wf h hw)

/-- A write over the pieces of an access changes only device memory, its marks and the channels' records. -/
theorem writePieces_frame (c : Nat) (ps : List (Nat × Nat)) (bs : List Byte) (s : State) :
    let t := (s.writePieces c bs ps).1
    t = { s with devMem := t.devMem, ueMarks := t.ueMarks, chans := t.chans } := by
  show (s.writePieces c bs ps).1 = { s with devMem := (s.writePieces c bs ps).1.devMem,
                                            ueMarks := (s.writePieces c bs ps).1.ueMarks,
                                            chans := (s.writePieces c bs ps).1.chans }
  induction ps generalizing s bs with
  | nil => rfl
  | cons p ps ih =>
    unfold State.writePieces
    simp only []
    split
    · rfl
    · rename_i s' h
      have := (granWrite_ok h).2.2.2.2
      rw [ih, this]

/-- A write of a context's device memory keeps the canonical form. -/
theorem ctxWrite_wf (c a : Nat) (bs : List Byte) (s : State) (hw : Memory.wf s.devMem = true) :
    Memory.wf (s.ctxWrite c a bs).1.devMem = true := writePieces_wf c _ bs s hw

/-- A write of a context's device memory changes only device memory, its marks and the channels' records. -/
theorem ctxWrite_frame {β : Sort _} (obs : State → β)
    (h : ∀ s x y z, obs { s with devMem := x, ueMarks := y, chans := z } = obs s) (c a : Nat) (bs : List Byte) (s : State) :
    obs (s.ctxWrite c a bs).1 = obs s := by
  unfold State.ctxWrite
  rw [writePieces_frame, h]

/-- An atomic that succeeds answers the value that stood there, and keeps the canonical form. -/
theorem atomAt_ok {s s' : State} {ch off op w x cmp old : Nat} (h : s.atomAt ch off op w x cmp = .ok (old, s')) :
    old = leNat (s.physRead ch off (w / 8)) ∧
      s.granWrite ch off (leBytes (atomResult op w old x cmp) (w / 8)) = .ok s' ∧
      (Memory.wf s.devMem = true → Memory.wf s'.devMem = true) := by
  unfold State.atomAt at h
  split at h
  · cases h
  · rename_i bs hr
    simp only [] at h
    split at h
    · cases h
    · rename_i t ht
      obtain ⟨rfl, rfl⟩ := Prod.mk.inj (Except.ok.inj h)
      refine ⟨?_, ht, granWrite_wf ht⟩
      unfold State.granRead at hr
      split at hr
      · cases hr
      · split at hr
        · cases hr
        · split at hr
          · cases hr
          · cases hr; rfl

/-- Dropping part of device memory (a lost stack, a cleared channel) keeps the canonical form. -/
theorem devMem_keep_wf (s : State) (p : Nat → Bool) (h : Memory.wf s.devMem = true) :
    Memory.wf (SMap.keep p s.devMem) = true := SMap.wf_keep _ _ _ h

/-- After reset nothing is listed, which is canonical. -/
theorem reset_memory_wf : Memory.wf State.reset.devMem = true := SMap.wf_nil _

end Sys2Proof.Machine
end

