-- ==== Sys2Proof/Tests/Slice0.lean ====
section
/-! SUPPORT. Tests of the model: the checks of well-formedness, single commands with results worked out from the spec, and for each
statement with hypotheses a concrete state and operands that meet them. -/

namespace Sys2Proof.Machine

-- One theorem at a time: each check by the kernel takes a stack of its own.
set_option Elab.async false


/-! ### Helpers -/

/-- An agent of the mesh that no Writer entry names (R11). -/
def agentM : Agent := ⟨0, 0, 0⟩
/-- `n` zero bytes. -/
def zs (n : Nat) : List Byte := List.replicate n 0

/-- The state right after power with these fields set. -/
def stOf (l : List (Fld × Nat)) : State := l.foldl (fun s p => s.wr p.1 p.2) State.reset

/-- What a command leaves; reset where it answers no next state. -/
def after (i : Instr) (s : State) : State :=
  match exec i s with
  | .next t => t
  | _ => State.reset

/-- Does a command answer a next state? -/
def runs (i : Instr) (s : State) : Bool :=
  match exec i s with
  | .next _ => true
  | _ => false

/-- An operation as accepted, by its words. -/
def opOf (q : Nat) (ws : List Word) : Op := { Op.accept q ws 0 false with started := true }

/-- Context `c` in RUN and holding its partition's slice, with one stripe on channel 0, and these operations. -/
def ctxRun (c : Nat) (os : List Op) (s : State) : State :=
  (((s.wr (F.CTX_STATE_STATE c) 4).wr (F.CTXW_RING_STATUS_HOLDING c) 1).onCtx c fun x =>
    { x with ops := os, chans := [0], pitch := 1024, stripes := 1 }).wr (F.SCH_STATUS_STATE (s.partOf c)) 1

/-- The words of a matrix operation: one block of `m` rows and `n` columns at C address 0 with an LDC of `ldc` lines. -/
def mmWords (kind m n ldc : Nat) : List Word :=
  [w64 kind, 0, 0, w64 ((m - 1) * 2 ^ 11), w64 ((n - 1) * 2 ^ 11), 0, w64 (ldc * 2 ^ 16), 0]

/-- No bucket of the context has a cap and no row is being copied. -/
def freeCheck (c : Nat) (s : State) : Bool :=
  ((List.range 8).all fun k => s.rd (F.MEM_REG_CTX_RATE k c) == 0) && (s.rd (F.NOC_REG_CTX_RATE c) == 0 &&
    s.chans.all fun e => e.2.copying.isEmpty)
theorem memFree_of {c : Nat} {s : State} (h : freeCheck c s = true) : memFree c s := by
  simp only [freeCheck, Bool.and_eq_true, List.all_eq_true, List.mem_range, beq_iff_eq, List.isEmpty_iff] at h
  exact ⟨h.1, h.2.1, h.2.2⟩

theorem noSaved_of {t : Nat} {s : State}
    (h : ((s.tileCtx t).all fun c => (s.ctx c).saved.isEmpty && (s.ctx c).chains.isEmpty) = true) : noSaved t s := by
  intro c hc
  simpa [hc] using h

theorem noRun_of {s : State} (h : ((List.range 8).all fun p => (s.holderOf p).all fun c =>
    (s.ctx c).fetch.isNone || !s.on (F.CTXW_RING_BASE_SPACE c)) = true) : noRun s := by
  intro p hp c hc
  have := List.all_eq_true.1 h p (List.mem_range.2 hp)
  simpa [hc] using this

/-- No operation of this kind is in flight in any context. -/
def noKind (k : Nat) (s : State) : Bool := s.ctxs.all fun e => e.2.ops.all fun o => decide (o.kind ≠ k)
theorem noKind_of {k : Nat} {s : State} (h : noKind k s = true) : ∀ c q o, s.op? c q = some o → o.kind ≠ k := by
  intro c q o ho
  have key : ∀ l : SMap Ctx, (l.all fun e => e.2.ops.all fun o => decide (o.kind ≠ k)) = true →
      o ∈ (SMap.get (fun _ => Ctx.init) l c).ops → o.kind ≠ k := by
    intro l
    induction l with
    | nil => intro _ hm; simp [SMap.get, Ctx.init] at hm
    | cons e l ih =>
      intro hl hm
      rw [List.all_cons, Bool.and_eq_true] at hl
      unfold SMap.get at hm
      split at hm
      · exact of_decide_eq_true (List.all_eq_true.1 hl.1 o hm)
      · exact ih hl.2 hm
  exact key _ h (List.mem_of_find?_eq_some ho)

/-- The operation is the context's, of its kind, started, and its work has not ended. -/
def checkOp (c q k : Nat) (s : State) : Bool :=
  match s.op? c q with
  | some o => decide (o.kind = k) && o.started && o.done.isNone && s.running c
  | none => false

theorem opRuns_of_check {c q k : Nat} {s : State} (h : checkOp c q k s = true) : ∃ o, opRuns c q k o s := by
  unfold checkOp at h
  split at h
  · rename_i o ho
    simp only [Bool.and_eq_true, decide_eq_true_eq, Option.isNone_iff_eq_none] at h
    exact ⟨o, ho, h.1.1.1, h.1.1.2, h.1.2, h.2⟩
  · cases h

/-- The first stripe of a context on one channel is laid out in order (R188). -/
theorem locate_one {s : State} (hc : (s.ctx 0).chans = [0]) (hp : (s.ctx 0).pitch = 1024) (hm : (s.chan 0).mapped = [])
    {a : Nat} (ha : a < 262144) : s.locate 0 a = (0, a) := by
  have h1 : a / 256 / 1024 = 0 := by omega
  have h2 : a / 256 % 1024 = a / 256 := Nat.mod_eq_of_lt (by omega)
  simp only [State.locate, hc, hp, spreadMap, spreadEntry, h1, h2, State.physOff, Chan.physFrame]
  simp only [List.isEmpty_cons, Bool.false_eq_true, if_false, List.length_singleton, Nat.mod_one, List.getD_cons_zero, Nat.div_one,
    Nat.zero_mul, Nat.zero_add, Nat.zero_mod, Nat.zero_div, Nat.xor_zero, hm, List.foldl_nil]
  refine Prod.ext rfl ?_
  simp only
  omega

/-- A context of one stripe on a channel that serves: its range is served, and every address names its own byte. -/
theorem flat_one {s : State} (hc : (s.ctx 0).chans = [0]) (hp : (s.ctx 0).pitch = 1024) (hs : (s.ctx 0).stripes = 1)
    (hx : (s.chan 0).mapped = [] ∧ (s.chan 0).retFrames = [] ∧ (s.chan 0).retired = false) (hu : s.ueMarks = []) (hk : s.rd (F.MEM_STATUS_STATE 0) = 2) : flatServes s 0 ∧ flatOnce s 0 := by
  have hl : ∀ a, a < s.range 0 → s.locate 0 a = (0, a) := fun a ha =>
    locate_one hc hp hx.1 (by simpa [State.range, hs] using ha)
  refine ⟨fun a ha => ?_, fun a b ha hb h => ?_⟩
  · rw [hl a ha]
    refine ⟨by simp, ?_, ?_⟩
    · simp [State.unserved, hk, hx.2]
    · simp [State.marked, hu, SMap.get]
  · rw [hl a ha, hl b hb] at h
    simpa [memKey] using h

/-- Context 0 with a DMA operation on engine 0: bytes of its words. -/
def dmaSt (kind : Nat) (w : List Word) : State :=
  ctxRun 0 [{ opOf 1 (w64 kind :: 0 :: 0 :: w) with engine := some 0 }] (stOf [(F.MEM_STATUS_STATE 0, 2)])

/-- The host endpoint on behalf of function `n`. -/
def hostBy (n : Nat) : Agent := ⟨91, 1, BitVec.ofNat 16 n⟩

/-- The endpoint is on, in L0 Run, and the VFs are enabled. -/
def hostUp : State :=
  (stOf [(F.PWR_DOMAIN_COND 3, 0), (F.PWR_STATUS_STATE, 0), (F.GLB_CFG_STATUS_STATE, 1)]).onCfg 0 fun x => { x with vfEn := true, numVfs := 256 }

/-! ### Well-formedness: one ill-formed term for each check -/

/-- A role command with arguments and signature of given lengths. -/
def roleOf (chal args sig : Nat) : RoleCmd := ⟨false, 1, 0, zs chal, zs args, zs sig⟩
/-- A flit with a data field of `n` bytes. -/
def flitOf (n : Nat) : Flit := ⟨0, 0, 0, 0, false, 0, 0, 0, false, false, 0, 0, 0, 0, zs n⟩
/-- A frame with a payload of `n` bytes. -/
def frameOf (n : Nat) : FrameIn := ⟨0, 0, 0, 0, 0, 0, 0, 0, zs n⟩
/-- A site request with `n` bytes of data. -/
def siteOf (n : Nat) : SiteReq := ⟨0, 0, 0, 0, 0, 0, 0, 0, zs n, false⟩

theorem test_wf_register_size_zero : (Instr.registerWrite agentM 0 0 0 0 false).wf = false := by decide
theorem test_wf_register_size_nine : (Instr.registerRead agentM 0 0 9 false .clean).wf = false := by decide
theorem test_wf_register_offset : (Instr.registerWrite agentM 0 0x10000000 8 0 false).wf = false := by decide
theorem test_wf_register_ok : (Instr.registerWrite agentM 0 0x0FFFFFF8 8 0 false).wf = true := by decide
theorem test_wf_window_offset : (Instr.ctxwSoWrite 0 0x1000 8 0 false).wf = false := by decide
theorem test_wf_lock_size : (Instr.ctxwCtlLock 0 0 9 false).wf = false := by decide
theorem test_wf_start_size : (Instr.ctxwCtlStart 0 0 0 false).wf = false := by decide
theorem test_wf_site_power : (Instr.powerSample 0 0 0 [1, 2, 3]).wf = false := by decide
theorem test_wf_descriptor : (Instr.descriptorFetchReturn 0 [[0, 0, 0, 0, 0, 0, 0]]).wf = false := by decide
theorem test_wf_flit : (Instr.rd (flitOf 129) .good .clean).wf = false ∧ (Instr.rd (flitOf 128) .good .clean).wf = true := by
  decide +kernel
theorem test_wf_invalidate_range : (Instr.invalidateRequest 1 0 none 2 1 false).wf = false := by decide
theorem test_wf_completion : (Instr.hostCompletion 0 .ok (zs 4097)).wf = false := by decide +kernel
theorem test_wf_nonce : (Instr.startInterfaceRequest 0 0 (zs 31)).wf = false := by decide
theorem test_wf_ide_key : (Instr.ideKm 0 0 (.program 0 0 true (zs 31))).wf = false := by decide
theorem test_wf_ide_range : (Instr.ideKm 0 0 (.start 2 1 false)).wf = false := by decide
theorem test_wf_doe_length : (Instr.doeObject 3 1 (zs 4)).wf = false := by decide
theorem test_wf_spdm_length : (Instr.challenge ⟨false, none, zs 65535⟩).wf = false := by
  show decide ((List.replicate 65535 (0 : Byte)).length + 2 ≤ 65536) = false
  rw [List.length_replicate]; decide
theorem test_wf_ident_length : (Instr.rcIdent 0 (zs 63)).wf = false := by decide
theorem test_wf_fragment_length : (Instr.rcSpdm 0 0 true (zs 65)).wf = false := by decide
theorem test_wf_site_data : (Instr.siteWr (siteOf 257)).wf = false ∧ (Instr.siteWr (siteOf 256)).wf = true := by decide +kernel
theorem test_wf_frame_multiple : (Instr.putData 0 (frameOf 65)).wf = false := by decide
theorem test_wf_frame_length : (Instr.putData 0 (frameOf 2112)).wf = false := by decide +kernel
theorem test_wf_mctp_empty : (Instr.mctpMessage []).wf = false := by decide
theorem test_wf_role_challenge : (Instr.getIdentity (roleOf 31 0 0)).wf = false := by decide
theorem test_wf_role_length : (Instr.stageWrite (roleOf 32 65473 0)).wf = false := by
  have h : ¬ 64 + (zs 65473).length + (zs 0).length ≤ 65536 := by unfold zs; rw [List.length_replicate, List.length_replicate]; decide
  simp [Instr.wf, RoleCmd.wf, roleOf, h]
theorem test_wf_role_signature : (Instr.svnCommit (roleOf 32 0 1)).wf = false ∧ (Instr.svnCommit (roleOf 32 0 0)).wf = true := by
  decide
theorem test_wf_fault_extra : (Instr.faultReport ⟨0x0101, 0, [], none, 0, 0, zs 21⟩).wf = false := by decide
theorem test_wf_negotiation_domain : (Instr.negotiationTimeout [20]).wf = false := by decide

/-! ### The block and its queue -/

/-- Queues with a command and without, commands that answer a next state, and fields that share no bit. -/
theorem witness_QueueKeptByEveryStep :
    State.reset.pending = [] ∧ (match step { State.reset with pending := [.tlsSelfcheck] } with | .next t => t.pending | _ => [.tlsSelfcheck]) = [] ∧
    (State.reset.pending.all fun c => c.wf) = true ∧ Instr.wf .tlsSelfcheck = true := by decide +kernel

theorem witness_StepRunsFrontCommand : State.reset.pending = [] := rfl

theorem witness_StoredValuesReadBack :
    (F.GUP_CFG_K 0).ok ∧ (F.GUP_CFG_LEN 0).ok ∧ (F.GUP_CFG_K 0).apart (F.GUP_CFG_LEN 0) ∧ (F.GUP_CFG_K 0).apart (F.GUP_RND_STATE 0) ∧
      SMap.wf memDefault State.reset.devMem = true ∧ R.GUP_RND 0 ≠ (F.GUP_CFG_K 0).key := by
  refine ⟨⟨by decide, by decide⟩, ⟨by decide, by decide⟩, .inr (.inr (by decide)), .inl (by decide), rfl, by decide⟩

/-- An empty queue counts one cycle of Spindle, 1.0 ns (R504, log entry 11). -/
theorem test_tick : (match step State.reset with | .next t => t.spindle.toNat | _ => 0) = 2 ^ 32 := by decide +kernel

/-! ### The vector engine -/

/-- Tile 0 running a kernel of operation 1 of context 0, its first registers holding 3, 5 and 7 in lane 0. -/
def vxeOf (f : Vxe → Vxe) : State :=
  (ctxRun 0 [opOf 1 (mmWords 2 1 1 4)] State.reset).onTile 0 fun x =>
    { x with ftq := [⟨9, 0, 1, 0, 0, [], 0, false, false⟩],
             vxe := f { x.vxe with run := true, vl := 128, opKey := some (0, 1), vreg := [(1, 3), (2, 5), (3, 7)] } }

theorem witness_VxeArithmeticLanes :
    (vxeOf id).vxeRuns 0 = true ∧ ([0x01, 0x02, 0x04, 0x05].all fun op =>
      formOk op (vargs (.s 4 1 2 0 0 0)) 0 && formOk op (vargs (.s 4 1 2 0 1 3)) 0 && formOk op (vargs (.i 4 2 1 0xFFFF)) 1 &&
      formOk op (vargs (.l 4 1 0 1 7 0 0xFF)) 2) = true ∧
    formOk 0x03 (vargs (.s 4 1 2 3 0 0)) 0 = true ∧ formOk 0x03 (vargs (.l 4 1 31 2 7 1 7)) 1 = true := by decide +kernel

/-- FMA of UINT32 lanes: 3 × 5 + 7 (R105). -/
theorem test_fma : laneOf 32 (((after (.fma 0 (.s 4 1 2 3 2 0)) (vxeOf id)).eng 0).v 4) 0 = 22 := by decide +kernel

/-- ADD of INT32 lanes at the greatest value saturates and sets SAT (R105). -/
theorem test_add_saturates :
    let s := after (.add 0 (.s 4 1 2 0 1 0)) (vxeOf fun x => { x with vreg := [(1, 0x7FFFFFFF), (2, 1)] })
    laneOf 32 ((s.eng 0).v 4) 0 = 0x7FFFFFFF ∧ (s.eng 0).stat ≠ 0 := by decide +kernel

theorem witness_VxeMasks :
    (vxeOf id).vxeRuns 0 = true ∧ ([0x08, 0x09, 0x0A].all fun op =>
      formOk op (vargs (.s 1 1 2 0 0 0)) 0 && formOk op (vargs (.i 7 1 1 5)) 0 && formOk op (vargs (.l 7 1 0 2 7 1 7)) 0) = true ∧
    formOk 0x0B (vargs (.s 7 1 2 0 0 3)) 1 = true ∧ formOk 0x10 (vargs (.s 0 7 7 0 0 0)) 0 = true ∧
    formOk 0x11 (vargs (.s 7 0 0 0 0 0)) 0 = true ∧ formOk 0x12 (vargs (.s 1 2 3 0 0 0)) 2 = true ∧
    formOk 0x13 (vargs (.s 1 2 0 0 0 0)) 0 = true ∧ formOk 0x14 (vargs (.s 31 7 0 0 0 0)) 0 = true := by decide +kernel

/-- CMPLT of INT32 lanes: 3 below 5 in lane 0; the other lanes are equal (R101). -/
theorem test_cmplt : ((after (.cmplt 0 (.s 1 1 2 0 1 0)) (vxeOf id)).eng 0).m 1 = 1 := by decide +kernel

/-- MNOT into m0 is ignored (R101). -/
theorem test_mnot_m0 : ((after (.mnot 0 (.s 0 1 0 0 0 0)) (vxeOf id)).eng 0).m 0 = 2 ^ 512 - 1 := by decide +kernel

theorem witness_VxeMoves :
    (vxeOf id).vxeRuns 0 = true ∧ formOk 0x06 (vargs (.s 4 1 2 0 0 3)) 0 = true ∧ formOk 0x06 (vargs (.l 4 1 0 0 7 1 7)) 0 = true ∧
    formOk 0x1A (vargs (.s 4 0 0 0 0 0)) 0 = true ∧ ¬ (((vxeOf id).eng 0).w = 2 ∧ 256 < ((vxeOf id).eng 0).vl) ∧
    formOk 0x1C (vargs (.s 4 1 2 0 0 0)) 0 = true ∧ bit (fieldAt ((vxeOf id).eng 0).image 1 1) 0 = false ∧
    formOk 0x1D (vargs (.s 4 1 15 0 0 0)) 0 = true ∧ formOk 0x18 (vargs (.l 4 1 0 0 0 0 0x388)) 0 = true ∧
    bits 0x388 3 0 ≤ 8 ∧ bits 0x388 7 4 ≤ 8 ∧ ((vxeOf id).eng 0).imm (vargs (.l 4 1 0 0 0 0 0x388)) = 0x388 ∧
    128 * Nat.max (cvtBits 8) (cvtBits 8) ≤ 4096 ∧ formOk 0x19 (vargs (.s 4 1 0 0 0 3)) 2 = true := by decide +kernel

/-- A parameter word of CVT to which R108 gives no result: a reserved source format. -/
theorem witness_VxeMoves_unstated :
    formOk 0x18 (vargs (.l 4 1 0 0 0 1 0)) 0 = true ∧
      cvtStated (((vxeOf fun x => { x with params := [9] }).eng 0).imm (vargs (.l 4 1 0 0 0 1 0))) = false := by
  decide +kernel

/-- IOTA writes each lane's number (R105). -/
theorem test_iota : laneOf 32 (((after (.iota 0 (.s 4 0 0 0 0 0)) (vxeOf id)).eng 0).v 4) 127 = 127 := by decide +kernel

/-- PERM with an index not below VL: the lane is zero and PERM is set (R110). -/
theorem test_perm_range :
    let s := after (.perm 0 (.s 4 1 2 0 0 0)) (vxeOf fun x => { x with vl := 5, vreg := [(1, 3), (2, 5)] })
    laneOf 32 ((s.eng 0).v 4) 0 = 0 ∧ laneOf 32 ((s.eng 0).v 4) 1 = 3 ∧ (s.eng 0).stat = vPerm := by decide +kernel

theorem witness_VxeControl :
    (vxeOf id).vxeRuns 0 = true ∧ formOk 0x00 (vargs (.s 0 0 0 0 0 0)) 0 = true ∧
    formOk 0x22 (vargs (.l 3 0 0 0 0 0 0xFFFFF)) 0 = true ∧ formOk 0x30 (vargs (.i 0 0 0 0xFFC2)) 0 = true ∧
    formOk 0x30 (vargs (.l 7 0 0 0 0 1 6)) 0 = true ∧ formOk 0x28 (vargs (.l 0 0 0 0 0 0 0x10001)) 0 = true ∧
    ((vxeOf id).eng 0).loops.length < 4 ∧ 0x10001 % 65536 ≠ 0 ∧
    (let x := (vxeOf fun x => { x with image := [0, 0, 4, 0] ++ zs 44 }).eng 0; x.behind (x.pc + 2) 1 ≠ x.pc + 2) := by
  decide +kernel

/-- SETVL with a length beyond the lane count of width 32: VL is 128 (R100). -/
theorem test_setvl : ((after (.setvl 0 (.i 0 0 0 0xFFC0)) (vxeOf id)).eng 0).vl = 128 := by decide +kernel

theorem witness_VxeBowlMoves :
    (vxeOf id).vxeRuns 0 = true ∧ formOk 0x20 (vargs (.l 4 3 0 0 7 0 0)) 0 = true ∧ formOk 0x21 (vargs (.l 4 0 0 0 0 1 7)) 0 = true ∧
    bowlCheck ((vxeOf id).tile 0).entryOpen 0xCFE00 (128 * 4) false = none ∧
    bowlCheck ((vxeOf id).tile 0).entryOpen 0 (128 * 4) true = none ∧
    ((vxeOf id).eng 0).a 0 = 0 ∧ ((vxeOf id).eng 0).vl * ((vxeOf id).eng 0).moveBytes (vargs (.l 4 0 0 0 0 1 7)) ≤ 128 * 4 := by
  decide +kernel

/-- VST stores lane 0 of v1 little-endian at a0, and a0 advances (R118). -/
theorem test_vst :
    let s := after (.vst 0 (.l 1 0 0 0 0 0 512)) (vxeOf id)
    (s.tile 0).bowl 0 = 3 ∧ (s.tile 0).bowl 1 = 0 ∧ (s.eng 0).a 0 = 512 := by decide +kernel

theorem witness_VxeOutput :
    let s := vxeOf id
    let x := s.eng 0
    let o := opOf 1 (mmWords 2 1 1 4)
    s.vxeRuns 0 = true ∧ formOk 0x31 (vargs (.s 0 0 0 0 0 0)) 0 = true ∧ x.freed = false ∧ (s.tile 0).banks.any (·.done) = false ∧
    (s.tile 0).deal = [] ∧ formOk 0x32 (vargs (.l 0 0 0 0 0 0 0)) 0 = true ∧ x.imm (vargs (.l 0 0 0 0 0 0 0)) < 4 ∧
    x.opKey = some (0, 1) ∧ s.op? 0 1 = some o ∧ 128 * ceilDiv (ceilDiv (o.n * woutBits 0) 8) 128 ≤ o.ldc ∧
    s.inRange 0 o.cAddr ((o.m - 1) * o.ldc + ceilDiv (o.n * woutBits 0) 8) = true ∧
    bowlCheck (s.tile 0).entryOpen (x.a 0) (16384 * woutBits 0 / 8) false = none ∧
    formOk 0x34 (vargs (.i 31 2 0 0xFFFF)) 0 = true ∧ x.summs.length < 4 ∧ formOk 0x3F (vargs (.s 0 0 0 0 0 0)) 0 = true ∧
    s.intakeRoom 0 = true ∧ (vxeOf fun x => { x with freed := true }).vxeRuns 0 = true ∧
    ((vxeOf fun x => { x with freed := true }).eng 0).freed = true := by decide +kernel

/-- Nothing saved waits for the tile; and WOUT with a parameter word that is no size code: every size fits. -/
theorem witness_VxeOutput_rest :
    noSaved 0 (vxeOf id) ∧ formOk 0x32 (vargs (.l 0 0 0 0 0 1 0)) 0 = true ∧
    ((vxeOf fun x => { x with params := [4] }).eng 0).imm (vargs (.l 0 0 0 0 0 1 0)) = 4 ∧
    (∀ k, k < 4 → let o := opOf 1 (mmWords 2 1 1 4)
      128 * ceilDiv (ceilDiv (o.n * woutBits k) 8) 128 ≤ o.ldc ∧
      (vxeOf id).inRange 0 o.cAddr ((o.m - 1) * o.ldc + ceilDiv (o.n * woutBits k) 8) = true ∧
      bowlCheck ((vxeOf id).tile 0).entryOpen (((vxeOf id).eng 0).a 0) (16384 * woutBits k / 8) false = none) :=
  ⟨noSaved_of (by decide +kernel), by decide +kernel, by decide +kernel, by decide +kernel⟩

/-- SUMM posts the low word of its register with the tag (R129). -/
theorem test_summ :
    ((after (.summ 0 (.i 1 1 0 0xA001)) (vxeOf id)).eng 0).summs = [⟨0, 0, 3, 0xA001, 0, 0, 1⟩] := by decide +kernel

/-- Tile 0 with an entry of operation 1, its engine idle, in L0 Run. -/
def idleEng : State := (vxeOf fun x => { x with run := false, opKey := none }).wr F.PWR_STATUS_STATE 0

theorem witness_VxeInvocations :
    let w := vxeOf fun x => { x with wout := some (0, 3), block := (0, 0, 9) }
    let o := opOf 1 (mmWords 2 1 1 4)
    let e : FtqEntry := ⟨9, 0, 1, 0, 0, [], 0, false, false⟩
    (w.eng 0).wout = some (0, 3) ∧ (w.eng 0).opKey = some (0, 1) ∧ w.op? 0 1 = some o ∧ w.intakeRoom 0 = true ∧
    (writeRows 0 o 0 0 (woutBits 3) ((List.range (16384 * woutBits 3 / 8)).map fun i => (w.tile 0).bowl (0 + i)) 128 0 w).2 = none ∧
    (idleEng.tile 0).ftq = [e] ∧ idleEng.op? 0 1 = some o ∧ o.hasKernel = true ∧ (idleEng.eng 0).run = false ∧
    (idleEng.tile 0).stopped = false ∧ o.done = none ∧
    idleEng.secondary 0 = false ∧ idleEng.atL0 = true ∧
    (sideRead idleEng 0 (fieldAt o.blk 8 8) (epiSides o.blk).1 (128 * e.col) o.n).toOption = some [] ∧
    (sideRead idleEng 0 (fieldAt o.blk 16 8) (epiSides o.blk).2 (128 * e.row) o.m).toOption = some [] ∧
    ((vxeOf id).eng 0).run = true ∧ ((vxeOf id).eng 0).opKey = some (0, 1) := by decide +kernel

/-- No bucket of the context has a cap, and a matrix operation runs the kernel while no VECTOR is in flight. -/
theorem witness_VxeInvocations_rest :
    memFree 0 (vxeOf fun x => { x with wout := some (0, 3), block := (0, 0, 9) }) ∧ memFree 0 idleEng ∧
    (let s := (ctxRun 0 [opOf 1 (mmWords 1 1 1 4)] State.reset).onTile 0 fun x =>
        { x with vxe := { x.vxe with run := true, opKey := some (0, 1) } }
     (s.eng 0).run = true ∧ (s.eng 0).opKey = some (0, 1) ∧
       ∀ j, ∀ b ∈ (s.tile j).deal, ∀ o, s.op? b.ctx b.seq = some o → o.kind ≠ 2) :=
  ⟨memFree_of (by decide +kernel), memFree_of (by decide +kernel), by decide +kernel, by decide +kernel,
    fun _ b _ o h => noKind_of (by decide +kernel) b.ctx b.seq o h⟩

theorem witness_VxeInvocations_record :
    let r : Summary := ⟨9, 0, 0x3F800000, 0x2001, 0, 0, 0⟩
    let s := State.reset.onGroup 0 fun g => { g with intake := [r] }
    (s.group 0).intake.find? (fun r => r.tile = 0) = some r ∧
      (SMap.get (fun _ => Acc.init) ((after (.summaryRecord 0) s).group 0).accs 1).count = 1 := by decide +kernel

/-! ### Registers -/

theorem witness_RegisterWrite :
    plainKey R.MBX_CMD_TAIL = true ∧ sized R.MBX_CMD_TAIL 8 = true ∧ implemented R.MBX_CMD_TAIL = true ∧
    isHostAgent (hostBy 0) = true ∧ hostUp.takesNow 0 R.MBX_CMD_TAIL = true ∧
    hostUp.served 0 R.MBX_CMD_TAIL 8 false false = true ∧ isHostAgent agentM = false := by decide +kernel

/-- A write of the upper half leaves the lower half (R9); MBX_CMD_TAIL is the host's. -/
theorem test_write_field : (after (.registerWrite (hostBy 0) 0 R.MBX_CMD_TAIL 8 5 false) hostUp).rd F.MBX_CMD_TAIL_TAIL = 5 := by
  decide +kernel

/-- A write by an agent that the Writer entry does not name has no effect and is recorded (R11, R475). -/
theorem test_foreign_write :
    let s := after (.registerWrite agentM 0 R.MBX_CMD_TAIL 8 5 false) hostUp
    s.rd F.MBX_CMD_TAIL_TAIL = 0 ∧ s.bb.queue.map (·.code) = [0x8003] := by decide +kernel

theorem witness_SpecialPlacesWritten :
    isHostAgent (hostBy 0) = true ∧
    ([0x0FFF0000, 0x0FFF0078, 0x20000, 0x5FFF8, 0x0FFF8000, 0x80000, 0xFFFF8, 0x01780000, R.BBX_SEL, R.PWR_CMD].all fun k =>
      hostUp.takesNow 0 k && hostUp.served 0 k 8 false false && decide (keyOf 0 (k / 8 * 8) = k)) = true ∧
    msixAt 0x0FFF0078 = some (0, 7, true) ∧ msixAt 0x0FFF0000 = some (0, 0, false) ∧ inCmdSlot 0x5FFF8 = true ∧
    (pbaAt 0x0FFF8000).isSome = true ∧ inRspSlot 0xFFFF8 = true ∧ inTrace 0x01780000 = true ∧
    (msixAt 0x0FFF8000).isNone = true ∧ (msixAt 0xFFFF8).isNone = true ∧ (msixAt 0x01780000).isNone = true ∧
    (hostUp.ctx 0).lockMsix = false ∧ (hostBy 0).rid.toNat = 0 := by decide +kernel

theorem witness_RegisterReads :
    hostUp.takesNow 0 R.MBX_CMD_TAIL = true ∧ hostUp.served 0 R.MBX_CMD_TAIL 8 true false = true ∧
    isHostAgent agentM = false ∧ sized R.MBX_CMD_TAIL 4 = true ∧ implemented R.MBX_CMD_TAIL = true ∧
    hostUp.takesNow 0 2 = true ∧ hostUp.served 0 2 8 true false = false ∧ hostUp.served 0 2 8 false false = false ∧
    (msixAt (keyOf 1 0)).isSome = false := by decide +kernel

/-- A misaligned read is answered with Unsupported Request (R342). -/
theorem test_read_misaligned :
    (after (.registerRead (hostBy 0) 0 2 8 false .clean) hostUp).outbox = [.completion 0 .ur 0] := by decide +kernel

/-- Context 0 in state `k`, non-confidential, with objects 0 to 31. -/
def windowSt (k : Nat) (nonconf : Nat) : State :=
  ([(F.CTX_STATE_STATE 0, k), (F.CTX_CFG_NONCONF 0, nonconf), (F.CTX_CFG_PARTITION 0, 0), (F.SYN_CTL_VALID 0, 1)].foldl
    (fun s p => s.wr p.1 p.2) hostUp).onCtx 0 fun x => { x with stripes := 4, chans := [0], pitch := 1 }

theorem witness_ContextWindowCommands :
    (windowSt 4 0).takesNow 1 8 = true ∧ ((windowSt 4 0).objectsOf 0)[31]? = some 31 ∧
    (windowSt 4 0).served 1 (0x4000 + 16 * 31) 8 false true = true ∧
    (windowSt 2 1).served 1 8 8 false false = true ∧ (windowSt 2 1).on (F.CTX_CFG_NONCONF 0) = true ∧
    (windowSt 2 1).ctxState 0 = 2 ∧ (windowSt 2 1).lockOk 0 = true ∧
    (windowSt 3 1).served 1 8 8 false false = true ∧ (windowSt 3 1).ctxState 0 = 3 ∧
    ((windowSt 3 1).rd F.TLS_STATUS_PART_DOWN).testBit ((windowSt 3 1).partOf 0) = false ∧
    (windowSt 2 0).on (F.CTX_CFG_NONCONF 0) = false := by decide +kernel

/-- The hub's word of the window lies in the range, and every byte of it is served. -/
theorem witness_ContextWindowCommands_word :
    let s := ((windowSt 3 1).wr (F.MEM_STATUS_STATE 0) 2).onCtx 0 fun x => { x with stripes := 1, pitch := 1024 }
    s.served 1 8 8 false false = true ∧ s.on (F.CTX_CFG_NONCONF 0) = true ∧ s.ctxState 0 = 3 ∧
    (s.rd F.TLS_STATUS_PART_DOWN).testBit (s.partOf 0) = false ∧ flatServes s 0 ∧ s.inRange 0 (s.wordsAddr 0) 16 = true :=
  ⟨by decide +kernel, by decide +kernel, by decide +kernel, by decide +kernel,
    (flat_one (by decide +kernel) (by decide +kernel) (by decide +kernel) (by decide +kernel) (by decide +kernel) (by decide +kernel)).1,
    by decide +kernel⟩

/-- A non-confidential context goes from READY to LOCKED, and to RUN (R282). -/
theorem test_lock_start :
    (after (.ctxwCtlLock 0 1 8 false) (windowSt 2 1)).ctxState 0 = 3 ∧
      (after (.ctxwCtlStart 0 2 8 false) (windowSt 3 1)).ctxState 0 = 4 := by decide +kernel

/-! ### Tiles -/

/-- Partition 0 holds group 0, context 0 is its holder in RUN, its tiles are idle, and `o` is its operation. -/
def tileOf (o : Op) (f : Tile → Tile) : State :=
  (ctxRun 0 [o] (((List.range 8).foldl (fun s t => s.wr (F.MXA_STATUS_STATE t) 1)
    (stOf [(F.CTX_PART_VALID 0, 1), (F.CTX_PART_GROUPS 0, 1), (F.GLB_CFG_STATUS_STATE, 1), (F.PWR_STATUS_STATE, 0)])))).onTile 0 f

/-- Operation 1 is a matrix operation of one block and one span of BF16. -/
def tileSt (f : Tile → Tile) : State := tileOf (opOf 1 (mmWords 1 1 1 4)) f

/-- A billet of operation 1. -/
def billetOf (last : Bool) (home : Nat) : Billet := ⟨0, 1, 0, 0, 0, last, home, 0, 0⟩
/-- The billet of the operation, at home on tile 0. -/
def billet0 : Billet := billetOf true 0
/-- A partial of the operation's block. -/
def part0 (await : Nat) : Bank := ⟨0, 1, 0, 0, 0, true, false, await, [], 0, 0⟩
/-- An entry of the operation's block that has been written. -/
def entry0 : FtqEntry := ⟨9, 0, 1, 0, 0, [], 0, false, true⟩

/-- An INT8 operation of one block. -/
def opInt : Op := opOf 1 [w64 1, 0, 0, w64 (3 * 2 ^ 7 + 3 * 2 ^ 3), 0, 0, w64 (4 * 2 ^ 16), 0]
/-- Tile 0 with one billet of the INT8 operation. -/
def intSt (last : Bool) (home : Nat) (again : Bool) : State :=
  tileOf opInt fun x => { x with deal := [billetOf last home], recompute := again }
/-- An operand block of the billet: one line of one element, zero. -/
def opnd0 (isB : Bool) : Opnd := ⟨0, 1, 0, 0, isB, 0, [[0]], []⟩

/-- Everything the clauses of TILE's statement ask of the state and the billet. -/
def billetCheck (last : Bool) (home : Nat) (again : Bool) : Bool :=
  let s := intSt last home again
  let x := s.tile 0
  decide (s.op? 0 1 = some opInt) && decide (opInt.kind = 1) && opInt.done.isNone && !x.ended && s.tileServes 0 && s.tilesOn &&
    !s.on (F.MXA_CFG_PAIR_EN 0) && (s.tilesOf (s.partOf 0)).contains 0 && freeCheck 0 s && x.opnds.isEmpty &&
    decide ((readOpnd s opInt (billetOf last home) false).toOption = some (opnd0 false)) &&
    decide ((readOpnd s opInt (billetOf last home) true).toOption = some (opnd0 true)) && x.early.isEmpty && x.banks.isEmpty &&
    (s.tileCtx 0).isNone && decide (s.classOf 0x0101 = 0 ∧ s.classOf 0x0102 = 0) && noKind 2 s

theorem witness_TileBilletEnds :
    billetCheck false 0 false = true ∧ billetCheck true 1 true = true ∧ ((intSt true 1 true).tile 0).recompute = true ∧
    ((intSt false 0 false).tile 0).recompute = false := by decide +kernel

theorem ok_of_toOption {ε α : Type} {x : Except ε α} {v : α} (h : x.toOption = some v) : x = .ok v := by
  cases x with
  | error e => cases h
  | ok a => exact congrArg Except.ok (Option.some.inj h)

theorem witness_TileBilletEnds_operands :
    memFree 0 (intSt false 0 false) ∧ operandOf 0 opInt (billetOf false 0) false (opnd0 false) (intSt false 0 false) ∧
      operandOf 0 opInt (billetOf false 0) true (opnd0 true) (intSt false 0 false) ∧ noSaved 0 (intSt false 0 false) :=
  ⟨memFree_of (by decide +kernel), .inr ⟨by decide +kernel, ok_of_toOption (by decide +kernel)⟩,
    .inr ⟨by decide +kernel, ok_of_toOption (by decide +kernel)⟩, noSaved_of (by decide +kernel)⟩

theorem zipIdx_map_fst' {α β : Type} (f : α → β) (l : List α) : (l.zipIdx.map fun p => f p.1) = l.map f := by
  rw [show (fun p : α × Nat => f p.1) = f ∘ Prod.fst from rfl, ← List.map_map]; simp

/-- A billet whose rows of A, and whose columns of B, are all the same, has no bad row when its one row check does not fail. -/
theorem exactBillet_even (X Y : List (List (Option Int))) (sx sy : List Nat) (vm vn : Nat)
    (h : let bs := ((X.zip sx).zip (Y.zip sy)).map fun p => blockSum p.1.1 p.2.1 p.1.2 p.2.2
      exactCheck (List.replicate 128 (blockSums 0 bs).cell)
        ((List.range X.length).map fun i => witnessStep 0 ((List.replicate 128 bs).filterMap fun x => x[i]?)).sum
        ((List.replicate 128 (blockSums 0 bs)).any (·.lossy)) false X.length ≠ .bad) :
    let d := exactBillet 0 (List.replicate 128 X) (List.replicate 128 Y) (List.replicate 128 sx) (List.replicate 128 sy) false vm vn []
    d.badRows = [] ∧ d.badCols = [] := by
  have hr : ∀ (α : Type) (a x : α) (i : Nat), i < 128 → (List.replicate 128 a).getD i x = a := fun α a x i hi => by
    rw [List.getD_eq_getElem _ _ (by rw [List.length_replicate]; exact hi), List.getElem_replicate]
  have hc : ∀ (α : Type) (a : α) (i : Nat), i < 128 →
      (List.replicate 128 (List.replicate 128 a)).filterMap (fun r => r[i]?) = List.replicate 128 a := fun α a i hi => 
    List.filterMap_replicate_of_some (f := fun r => r[i]?) (List.getElem?_replicate_of_lt hi)
  refine ⟨?_, ?_⟩
  all_goals
    simp only [exactBillet, List.zip_replicate', List.map_replicate, fxAt, List.find?_nil, Option.map_none, zipIdx_map_fst']
    rw [List.filter_eq_nil_iff]
    intro i hi
    have hi := List.mem_range.1 hi
    have h0 : (List.replicate 128 X).headD [] = X := rfl
    simp only [List.getElem?_map, List.getElem?_range hi, Option.map_some, hr _ _ _ _ hi, hc _ _ _ hi, h0, Bool.false_and]
    simpa using h

theorem exactBillet_same {n : Int} {A B : List (List (List (Option Int)))} {sa sb : List (List Nat)} {mx : Bool} {vm vn : Nat}
    {X Y : List (List (Option Int))} {sx sy : List Nat} (h1 : n = 0) (h2 : A = List.replicate 128 X) (h3 : B = List.replicate 128 Y)
    (h4 : sa = List.replicate 128 sx) (h5 : sb = List.replicate 128 sy) (h6 : mx = false) (fx : List CellFx) :
    exactBillet n A B sa sb mx vm vn fx = exactBillet 0 (List.replicate 128 X) (List.replicate 128 Y) (List.replicate 128 sx)
      (List.replicate 128 sy) false vm vn fx := by rw [h1, h2, h3, h4, h5, h6]

theorem openFlags_bad (d : Drained) (a b : List Byte) :
    (d.openFlags a b).badRows = d.badRows ∧ (d.openFlags a b).badCols = d.badCols := ⟨rfl, rfl⟩

/-- A billet's place and home, and every table but an empty one, say nothing of what it drains. -/
theorem run_billet_same (last : Bool) (home : Nat) {s : State}
    (hs : (SMap.get (fun _ => Slot.empty) (s.ctx 0).tbl opInt.tblSlot).image = []) (x y : Opnd) (fx : List CellFx) :
    runBillet s opInt (billetOf last home) x y fx = runBillet State.reset opInt billet0 x y fx := by
  have h0 : (SMap.get (fun _ => Slot.empty) (State.reset.ctx 0).tbl opInt.tblSlot).image = [] := by decide +kernel
  unfold runBillet billet0 billetOf
  rw [hs, h0]

/-- What the billet drains: products of zeros. -/
theorem run_billet0 (fx : List CellFx) :
    runBillet State.reset opInt billet0 (opnd0 false) (opnd0 true) fx =
      (exactBillet 0 (List.replicate 128 [List.replicate 32 (some 0)]) (List.replicate 128 [List.replicate 32 (some 0)])
        (List.replicate 128 [127]) (List.replicate 128 [127]) false 1 1 fx).openFlags [0] [0] := by
  unfold runBillet
  rw [if_neg (by decide +kernel : ¬ floatPath opInt.aFmt = true)]
  refine congrArg (fun d => Drained.openFlags d [0] [0]) (exactBillet_same ?_ ?_ ?_ ?_ ?_ ?_ fx)
  all_goals decide +kernel

theorem witness_TileBilletEnds_match (last : Bool) (home : Nat) {s : State}
    (h : (SMap.get (fun _ => Slot.empty) (s.ctx 0).tbl opInt.tblSlot).image = []) :
    let d := runBillet s opInt (billetOf last home) (opnd0 false) (opnd0 true) []
    d.badRows = [] ∧ d.badCols = [] := by
  rw [run_billet_same last home h, run_billet0]
  dsimp only
  rw [(openFlags_bad _ _ _).1, (openFlags_bad _ _ _).2]
  refine exactBillet_even _ _ _ _ _ _ ?_
  decide +kernel

theorem witness_TileBilletEnds_mismatch (last : Bool) (home : Nat) {s : State}
    (h : (SMap.get (fun _ => Slot.empty) (s.ctx 0).tbl opInt.tblSlot).image = []) :
    (runBillet s opInt (billetOf last home) (opnd0 false) (opnd0 true) [⟨3, 5, 1⟩]).badRows ≠ [] := by
  rw [run_billet_same last home h, run_billet0]
  intro h
  rw [(openFlags_bad _ _ _).1] at h
  have h3 : (3 : Nat) ∈ List.range 128 := List.mem_range.2 (by omega)
  simp only [exactBillet, List.zip_replicate', List.map_replicate] at h
  rw [List.filter_eq_nil_iff] at h
  have := h 3 h3
  clear h h3
  revert this
  decide +kernel

/-- The two clauses of a billet's end on the states above. -/
theorem witness_TileBilletEnds_both :
    (runBillet (intSt false 0 false) opInt (billetOf false 0) (opnd0 false) (opnd0 true) []).badRows = [] ∧
    (runBillet (intSt true 1 true) opInt (billetOf true 1) (opnd0 false) (opnd0 true) []).badCols = [] ∧
    (runBillet (intSt false 0 false) opInt (billetOf false 0) (opnd0 false) (opnd0 true) [⟨3, 5, 1⟩]).badRows ≠ [] ∧
    (runBillet (intSt true 1 true) opInt (billetOf true 1) (opnd0 false) (opnd0 true) [⟨3, 5, 1⟩]).badRows ≠ [] :=
  ⟨(witness_TileBilletEnds_match false 0 (by decide +kernel)).1, (witness_TileBilletEnds_match true 1 (by decide +kernel)).2,
    witness_TileBilletEnds_mismatch false 0 (by decide +kernel), witness_TileBilletEnds_mismatch true 1 (by decide +kernel)⟩

theorem witness_TileBilletEnds_partial :
    let s := (tileSt fun x => { x with banks := [part0 2] }).onTile 1 fun x => { x with sent := [part0 0] }
    (s.tile 1).sent.find? (fun p => p.home = 0) = some (part0 0) ∧ s.op? 0 1 = some (opOf 1 (mmWords 1 1 1 4)) ∧
    (opOf 1 (mmWords 1 1 1 4)).done = none ∧ s.deals 0 = true ∧
    (s.tile 0).deal = [] ∧ (part0 2).isFor 0 1 0 0 = true ∧ (part0 2).done = false ∧ 1 < (part0 2).await ∧
    (((tileSt id).tile 0).banks.any fun k => k.isFor 0 1 0 0) = false ∧
    (((tileSt id).tileCtx 0).isNone && (s.tileCtx 0).isNone) = true := by decide +kernel

/-- A partial that arrives before its bank is initialised waits (R39). -/
theorem test_partial_waits :
    ((after (.splitKPartialArrival 0 1) ((tileSt id).onTile 1 fun x => { x with sent := [part0 0] })).tile 0).early = [part0 0] := by
  decide +kernel

theorem witness_TileQueueDrains :
    let s := tileSt fun x => { x with ftq := [entry0] }
    let d := tileSt fun x => { x with ftq := [entry0, entry0, entry0, entry0], banks := [{ part0 0 with done := true }] }
    let w := tileSt fun x => { x with ftq := [{ entry0 with written := false }] }
    let o := opOf 1 (mmWords 1 1 1 4)
    (s.tile 0).ftq = [entry0] ∧ (s.tile 0).deal = [] ∧ entry0.written = true ∧ entry0.writing = false ∧ (s.tile 0).vxe.run = false ∧
    (s.tile 0).banks = [] ∧ (d.tile 0).ftq = [entry0, entry0, entry0, entry0] ∧ (d.tile 0).deal = [] ∧
    d.op? 0 1 = some o ∧ w.op? 0 1 = some o ∧ o.hasKernel = false ∧ w.secondary 0 = false ∧ (w.tile 0).banks = [] ∧
    (writeRows 0 o 0 0 (fmtBits o.cFmt) ((List.range (128 * 128 * fmtBits o.cFmt / 8)).map fun i => SMap.get memDefault [] i)
      128 0 w).2 = none := by decide +kernel

/-- Nothing saved waits for the tile, and no bucket has a cap. -/
theorem witness_TileQueueDrains_rest :
    noSaved 0 (tileSt fun x => { x with ftq := [entry0] }) ∧
    noSaved 0 (tileSt fun x => { x with ftq := [entry0, entry0, entry0, entry0], banks := [{ part0 0 with done := true }] }) ∧
    noSaved 0 (tileSt fun x => { x with ftq := [{ entry0 with written := false }] }) ∧
    memFree 0 (tileSt fun x => { x with ftq := [{ entry0 with written := false }] }) :=
  ⟨noSaved_of (by decide +kernel), noSaved_of (by decide +kernel), noSaved_of (by decide +kernel), memFree_of (by decide +kernel)⟩

/-- An entry that has been written leaves the queue (R35). -/
theorem test_entry_freed : ((after (.ftqEntryFreed 0) (tileSt fun x => { x with ftq := [entry0] })).tile 0).ftq = [] := by
  decide +kernel

/-- Tile 0 under test, no slice held. -/
def underTest : State := (tileSt id).wr (F.MXA_STATUS_STATE 0) 4

theorem witness_TileRotation :
    (tileSt id).on F.TLS_ROT_BUSY = false ∧ (tileSt id).rd F.GLB_CFG_STATUS_STATE = 1 ∧ (tileSt id).atL0 = true ∧
    (tileSt id).nextTest = some (0, false) ∧ underTest.rd (F.MXA_STATUS_STATE 0) = 4 ∧ underTest.partOfGroup 0 = some 0 ∧
    underTest.holderOf 0 = none ∧ underTest.classOf 0x0102 = 0 ∧ 1 ∈ underTest.tilesOf 0 ∧
    underTest.rd (F.MXA_STATUS_STATE 1) ≠ 5 ∧ underTest.rd (F.MXA_STATUS_STATE 1) ≠ 7 ∧ underTest.tileCtx 0 = none ∧
    underTest.on (F.MXA_CFG_PAIR_EN 0) = false := by decide +kernel

/-- No VECTOR is in flight, and another tile of the partition serves. -/
theorem witness_TileRotation_rest :
    (∀ c q o, (tileSt id).op? c q = some o → o.kind ≠ 2) ∧ (∀ c q o, (intSt true 1 true).op? c q = some o → o.kind ≠ 2) ∧
    memFree 0 (intSt true 1 true) ∧ operandOf 0 opInt (billetOf true 1) false (opnd0 false) (intSt true 1 true) ∧
    operandOf 0 opInt (billetOf true 1) true (opnd0 true) (intSt true 1 true) ∧
    (let s := intSt true 1 true
     s.partOfGroup 0 = some 0 ∧ 1 ∈ s.tilesOf 0 ∧ s.rd (F.MXA_STATUS_STATE 1) ≠ 5 ∧ s.rd (F.MXA_STATUS_STATE 1) ≠ 7) :=
  ⟨noKind_of (by decide +kernel), noKind_of (by decide +kernel), memFree_of (by decide +kernel),
    .inr ⟨by decide +kernel, ok_of_toOption (by decide +kernel)⟩, .inr ⟨by decide +kernel, ok_of_toOption (by decide +kernel)⟩,
    by decide +kernel⟩

/-- The test takes the next tile in service (R458). -/
theorem test_self_test_start :
    let s := after .selfTestStart (tileSt id)
    s.rd (F.MXA_STATUS_STATE 0) = 4 ∧ s.on F.TLS_ROT_BUSY = true := by decide +kernel
/-- A tile that fails its test is retired (R47). -/
theorem test_self_test_fails :
    let s := after (.selfTestEnd 0 false 3 5) underTest
    s.rd (F.MXA_STATUS_STATE 0) = 5 ∧ s.bb.queue.map (·.code) = [0x0102] := by decide +kernel

/-! ### Work lists -/

/-- Context 0 in RUN with one operation of this kind, started. -/
def oneOp (kind : Nat) (ws : List Word) (s : State) : State := ctxRun 0 [opOf 1 (w64 kind :: ws)] s

/-- Context 0 with group 0 and an accumulator 0 that holds one record. -/
def accSt (a : Acc) : State := (oneOp 6 [] (stOf [(F.CTX_PART_GROUPS 0, 1)])).onGroup 0 fun g => { g with accs := [(0, a)] }

theorem witness_SchedulerKinds :
    checkOp 0 1 0 (oneOp 0 [] State.reset) = true ∧
    (let s := oneOp 3 [] State.reset
     checkOp 0 1 3 s = true ∧ s.inRange 0 0 (s.loadLen 0 (opOf 1 [3])) = true ∧ (s.ctxRead 0 0 576).toOption.isSome = true) ∧
    (let s := oneOp 4 [] State.reset
     checkOp 0 1 4 s = true ∧ s.inRange 0 0 (s.loadLen 0 (opOf 1 [4])) = true ∧ (s.ctxRead 0 0 32).toOption.isSome = true) ∧
    (let s := oneOp 5 [] State.reset
     checkOp 0 1 5 s = true ∧ s.inRange 0 0 (s.loadLen 0 (opOf 1 [5])) = true ∧ (s.ctxRead 0 0 3120).toOption.isSome = true) ∧
    checkOp 0 1 6 (accSt { Acc.init with typ := some 1 }) = true ∧ checkOp 0 1 6 (accSt { Acc.init with mixed := true }) = true ∧
    ((accSt { Acc.init with mixed := true }).acc 0 0 0).mixed = true ∧
    ((accSt { Acc.init with typ := some 1 }).acc 0 0 0).typ = some 1 ∧
    checkOp 0 1 6 (accSt Acc.init) = true ∧ ((accSt Acc.init).acc 0 0 0).typ = none ∧ (opOf 1 [6]).reduce < 3 ∧
    (let s := oneOp 6 [w64 0, w64 0, w64 0, w64 (2 ^ 64 - 1)] State.reset
     checkOp 0 1 6 s = true ∧ ((s.op? 0 1).map fun o => decide (3 ≤ o.reduce)) = some true) := by decide +kernel

/-- A load whose image lies beyond the range, and a context with no bucket that has a cap. -/
theorem witness_SchedulerKinds_rest :
    (([3, 4, 5].all fun k => let s := (oneOp k [] State.reset).onCtx 0 fun x => { x with stripes := 0 }
      checkOp 0 1 k s && (match s.op? 0 1 with | some o => !s.inRange 0 o.loadSrc (s.loadLen 0 o) | none => false)) = true) ∧
    memFree 0 (oneOp 3 [] State.reset) ∧ memFree 0 (oneOp 4 [] State.reset) ∧ memFree 0 (oneOp 5 [] State.reset) :=
  ⟨by decide +kernel, memFree_of (by decide +kernel), memFree_of (by decide +kernel), memFree_of (by decide +kernel)⟩

/-- A NOP ends with OK (R153). -/
theorem test_nop : (((after (.nop 0 1) (oneOp 0 [] State.reset)).op? 0 1).bind (·.done)) = some (plainResult stOK) := by
  decide +kernel
/-- A table-pair image of zeros fails R71's checks, and the slot stays invalid (R73). -/
theorem test_tbl_load :
    let s := after (.tblLoad 0 1) (oneOp 3 [] State.reset)
    (SMap.get (fun _ => Slot.empty) (s.ctx 0).tbl 0).valid = false ∧
      ((s.op? 0 1).bind (·.done)).map (·.status) = some stTbl := by decide +kernel

/-- Context 0 with an operation that has been accepted and waits for nothing. -/
def toStart (kind : Nat) : State :=
  ctxRun 0 [{ opOf 1 [w64 kind] with started := false, met := true, heldS := [⟨0, 0, 0, true, true, true, true, 0, 0⟩],
                                     heldD := [⟨0, 0, 0, true, true, true, true, 0, 0⟩] }] (stOf [(F.CTX_PART_GROUPS 0, 1)])

/-- May the operation start? -/
def mayStart (k : Nat) : Bool :=
  match (toStart k).op? 0 1 with
  | some o => (toStart k).running 0 && !o.started && o.done.isNone && (toStart k).eligible 0 o && ((toStart k).earlier 0 o).isEmpty &&
      !(toStart k).depFailed 0 o
  | none => false

theorem witness_OperationStarts :
    mayStart 0x10 = true ∧ (opOf 1 [0x10]).unit = 2 ∧ (toStart 0x10).freeEng 0 = some 0 ∧
    mayStart 1 = true ∧ (opOf 1 [1]).unit = 1 ∧ (opOf 1 [1]).hasKernel = false ∧ (toStart 1).tilesFree 0 = true ∧
    (opOf 1 [1]).usesTbl = false ∧ mayStart 0 = true ∧ (opOf 1 [0]).unit = 0 ∧ mayStart 0x18 = true ∧ (opOf 1 [0x18]).unit = 3 := by
  decide +kernel

/-- A DMA operation starts on the lowest-numbered free engine (R232). -/
theorem test_start_copy : ((after (.operationStart 0 1) (toStart 0x10)).engine 0).op = some (0, 1) := by decide +kernel

/-- A partition of one group with idle tiles and one operation over `m` × `n` elements. -/
def dealSt (kind m n k : Nat) : State :=
  ctxRun 0 [opOf 1 [w64 kind, 0, 0, w64 ((m - 1) * 2 ^ 11), w64 ((n - 1) * 2 ^ 11), w64 ((k - 1) * 2 ^ 11), w64 (4 * 2 ^ 16), 0]]
    ((List.range 8).foldl (fun s t => s.wr (F.MXA_STATUS_STATE t) 1) (stOf [(F.CTX_PART_VALID 0, 1), (F.CTX_PART_GROUPS 0, 1)]))

/-- Tiles that are dealt to, and blocks, of the operation, when the tiles hold nothing. -/
def dealCheck (kind : Nat) (s : State) : Option (Nat × Nat) :=
  match s.op? 0 1 with
  | some o =>
    if checkOp 0 1 kind s && o.deal == 0 && o.dealt == 0 && o.heldQ.isEmpty && o.redo.isEmpty &&
        ((s.tilesOf 0).all fun t => decide (s.tile t = Tile.init) && !s.on (F.MXA_CFG_PAIR_EN t))
    then some ((s.dealTiles 0).length, o.rows * o.cols) else none
  | none => none

/-- Each case of the deal at a size where it begins: four blocks per tile, one per tile, fewer than one, and a vector operation. -/
theorem witness_OperationsAreDealt :
    dealCheck 1 (dealSt 1 2048 256 1) = some (8, 32) ∧ dealCheck 1 (dealSt 1 1024 128 1) = some (8, 8) ∧
    dealCheck 1 (dealSt 1 3968 128 1) = some (8, 31) ∧ dealCheck 1 (dealSt 1 896 128 4096) = some (8, 7) ∧
    dealCheck 2 (dealSt 2 1024 128 1) = some (8, 8) ∧ ((dealSt 2 1024 128 1).ctx 0).chains = [] ∧
    dealCheck 2 (dealSt 2 1 1 1) = some (8, 1) ∧
    (let s := dealSt 2 1 1 1
     match s.op? 0 1 with
     | some o => (readRows s 0 o.aAddr o.lda (8 * (fmtBits o.cFmt / 8)) 0 o.m 0 1 128).toOption.isSome
     | none => false) = true ∧ freeCheck 0 (dealSt 2 1 1 1) = true := by decide +kernel

/-- One block of two spans over eight tiles: the spans go to two tiles (R39). -/
theorem test_split :
    let s := after (.matmul 0 1) (dealSt 1 128 128 4096)
    (s.tile 0).deal.map (·.span) = [0] ∧ (s.tile 1).deal.map (·.span) = [1] ∧ (s.tile 2).deal = [] := by decide +kernel

/-- Context 0 with an operation of this signal word whose work has ended. -/
def ended (sig : Word) : State :=
  (ctxRun 0 [{ opOf 1 [0, 0, sig] with done := some (plainResult stOK) }] State.reset).wr (F.CTXW_RING_WORDS_SPACE 0) 1

theorem witness_OperationCompletes :
    ([0, w64 (2 ^ 62 + 5), w64 (2 ^ 63 + 8191 * 2 ^ 48 + 5), w64 (3 * 2 ^ 62)].all fun sig =>
      let s := ended sig
      match s.op? 0 1 with
      | some o => o.done.isSome && decide (o.kind ≠ 6) && s.mayComplete 0 o && !o.hasKernel && !s.on (F.CTXW_CTL_MEASURE 0) &&
          s.on (F.CTXW_RING_WORDS_SPACE 0) && !s.on (F.CTXW_CMPL_BASE_SPACE 0) &&
          (s.ctxWrite 0 (s.rd (F.CTXW_CMPL_BASE_BASE 0) * 4096 + 32 * ((s.ctx 0).cmplTail % s.cmplEntries 0))
            (recordBytes o (plainResult stOK) true s.now)).2.isNone && freeCheck 0 s
      | none => false) = true := by decide +kernel

/-- The record counts and the object holds the sum (R162, R166). -/
theorem test_complete :
    let s := after (.operationComplete 0 1) (ended (w64 (2 ^ 62 + 5)))
    s.rd (F.SYN_CNT_COUNT 0) = 5 ∧ (s.ctx 0).cmplTail = 1 ∧ (s.ctx 0).ops = [] := by decide +kernel

/-- Context 0 with one descriptor behind its head, in device memory. -/
def ringSt : State :=
  let s := ((((ctxRun 0 [] State.reset).wr (F.MEM_STATUS_STATE 0) 2).wr (F.SCH_STATUS_CTX_VALID 0) 1).wr (F.CTXW_RING_WORDS_ADDR 0) 16).wr (F.SCH_CTXQ_QUOTA 0 0) 8
  (s.ctxWrite 0 256 [1]).1

/-- The run that the poll asked for. -/
def fetchSt : State := after (.hostWordPoll 0 []) ringSt

theorem witness_RingsAreRead :
    ringSt.atL0 = true ∧ ringSt.rd (F.SCH_STATUS_STATE 0) = 1 ∧ ringSt.holderOf 0 = some 0 ∧ ringSt.ctxState 0 = 4 ∧
    ringSt.holds 0 = true ∧ ringSt.on (F.CTXW_RING_WORDS_SPACE 0) = false ∧
    (ringSt.ctxRead 0 256 8).toOption = some [1, 0, 0, 0, 0, 0, 0, 0] ∧ ringSt.head 0 = 0 ∧ 1 ≤ ringSt.ringEntries 0 ∧
    (fetchSt.ctx 0).fetch = some (0, 1) ∧ fetchSt.running 0 = true ∧ fetchSt.on (F.CTXW_RING_BASE_SPACE 0) = false ∧
    (fetchSt.ctxRead 0 0 64).toOption = some (zs 64) ∧ fetchSt.mayAccept 0 = true ∧ (fetchSt.ctx 0).inSpan 0 = false ∧
    (fetchSt.ctx 0).ops = [] ∧ wordsOf (zs 64) 8 = [0, 0, 0, 0, 0, 0, 0, 0] ∧
    descFails fetchSt 0 (Op.accept 0 [0, 0, 0, 0, 0, 0, 0, 0] 0 false) [] = [] ∧ (ringSt.ctx 0).wordDue = false ∧
    freeCheck 0 ringSt = true ∧ freeCheck 0 fetchSt = true ∧ fetchSt.inRange 0 (fetchSt.wordsAddr 0) 16 = true := by decide +kernel

/-- The hub's word can be written. -/
theorem witness_RingsAreRead_word : flatServes fetchSt 0 :=
  (flat_one (by decide +kernel) (by decide +kernel) (by decide +kernel) (by decide +kernel) (by decide +kernel) (by decide +kernel)).1

/-- Partition 0 with a slice table of two entries, for contexts 0 and `d`, and context 0 the holder; context 1 has an unread descriptor
in its host word. -/
def sliceSt (d : Nat) : State :=
  let s := [(F.SCH_TABLE_VALID 0 0, 1), (F.SCH_TABLE_CTX 0 0, 0), (F.SCH_TABLE_VALID 0 1, 1), (F.SCH_TABLE_CTX 0 1, d),
    (F.CTX_STATE_STATE 1, 4), (F.SCH_STATUS_CTX_VALID 0, 1), (F.SCH_CTXQ_BOUND 0 0, 1), (F.SCH_CTXQ_BOUND 0 1, 1)].foldl
    (fun s p => s.wr p.1 p.2) (dealSt 1 1 1 1)
  ((s.onCtx 1 fun x => { x with chans := [1], pitch := 1024, stripes := 1 }).ctxWrite 1 (s.wordsAddr 1) [1]).1

/-- What the tick's statement asks of the table, the host words and the contexts. -/
def tickCheck (s : State) : Bool :=
  decide (s.rd (F.SCH_STATUS_STATE 0) = 1) && s.atL0 && !(s.rd F.TLS_STATUS_PART_DOWN).testBit 0 && decide (s.nextEntry 0 = some 1) &&
    decide (s.boundTo 0 = [0, 1]) && ([0, 1].all fun d => !s.on (F.CTXW_RING_WORDS_SPACE d) && freeCheck d s &&
      (match s.ctxRead d (s.wordsAddr d) 8 with
       | .ok bs => decide ((leNat bs % 2 ^ 32 + 2 ^ 32 - s.head d) % 2 ^ 32 ≤ s.ringEntries d)
       | .error _ => false))

/-- The partition in the window of a switch from context 0 to this context; tile 0 holds a billet of context 0. -/
def windowOf (inc : Option Nat) : State :=
  (((((sliceSt 1).wr (F.SCH_STATUS_CTX_VALID 0) 0).wr (F.SCH_STATUS_STATE 0) 3).wr (F.MXA_STATUS_CTX_VALID 0) 1).onTile 0 fun x =>
    { x with deal := [⟨0, 1, 0, 0, 0, true, 0, 0, 0⟩], stopped := true }).onPart 0 fun x =>
    { x with sw := some { out := some 0, inc := inc, since := 0 } }

theorem witness_SlicesSwitch :
    tickCheck (sliceSt 0) = true ∧ tickCheck (sliceSt 1) = true ∧ (sliceSt 1).holderOf 0 = some 0 ∧
    ((sliceSt 1).ctxRead 1 ((sliceSt 1).wordsAddr 1) 8).toOption = some [1, 0, 0, 0, 0, 0, 0, 0] ∧ (sliceSt 1).loadable 1 = true ∧
    (let s := windowOf (some 1)
     (s.part 0).sw = some { out := some 0, inc := some 1, since := 0 } ∧ s.holderOf 0 = none ∧ s.loadable 1 = true ∧
     (s.ctx 1).ops = [] ∧ (s.ctx 1).saved = [] ∧ (s.ctx 1).chains = [] ∧ (s.wr (F.CTXW_RING_WORDS_SPACE 1) 1).on (F.CTXW_RING_WORDS_SPACE 1) = true ∧
     ((s.tilesOf 0).all fun t => decide (s.tileCtx t ≠ some 1)) = true ∧ 0 ∈ s.tilesOf 0 ∧ s.tileCtx 0 = some 0 ∧ s.secondary 0 = false ∧
     ((s.op? 0 1).any (·.done.isNone)) = true) ∧
    (let s := (windowOf none).onCtx 0 fun x => { x with ops := [] }
     (s.part 0).sw = some { out := some 0, inc := none, since := 0 } ∧ s.holderOf 0 = none ∧ s.entryCtx 0 = some 0 ∧
     s.hasWork 0 = false) := by decide +kernel

/-- Context 1 takes the slice at the tick: the partition is in SWITCH (R171, R174). -/
theorem test_tick_switch : (after (.sliceTick { part := 0, words := [] }) (sliceSt 1)).rd (F.SCH_STATUS_STATE 0) = 3 := by decide +kernel

/-- At the window's end without an incoming context the partition is idle (R176). -/
theorem test_window_end :
    (after (.switchWindowEnd 0 7 []) ((windowOf none).onCtx 0 fun x => { x with ops := [] })).rd (F.SCH_STATUS_STATE 0) = 2 := by decide +kernel

/-! ### Memory, DMA and Whittle -/

theorem witness_SpreadIsOneToOne : [3, 0, 255] ≠ [] ∧ [3, 0, 255].Nodup ∧ 2 ^ 40 - 1 < 2 ^ 40 ∧ 0 < 3 ∧ 2 < 3 := by decide

/-- A copy of 64 bytes from 0 to 4,096 of device memory, the same by rows, and a fill. -/
def copyOp (kind : Nat) : State :=
  dmaSt kind [0x0123456789ABCDEF * b2 kind, 4096, w64 (if kind = 0x11 then 16 else 64), w64 (64 * 2 ^ 32 + 64), w64 (4 * 2 ^ 32)]
where
  /-- A fill's pattern takes the place of the source. -/
  b2 (k : Nat) : Word := if k = 0x12 then 1 else 0

/-- The checks of a copy between areas that do not meet. -/
def copyCheck (k : Nat) (s : State) : Bool :=
  match s.op? 0 1 with
  | some o => checkOp 0 1 k s && o.engine.isSome && !o.srcH && !o.dstH && !o.meas && o.cursor == 0 && o.total == 64 &&
      freeCheck 0 s && ((List.range 64).all fun j => decide (o.dstAt j < s.range 0) && (decide (k = 0x12) || decide (o.srcAt j < 4096)) &&
        decide (4096 ≤ o.dstAt j) && ((List.range 64).all fun j' => decide (o.dstAt j = o.dstAt j' → j = j')))
  | none => false

theorem witness_DeviceCopies :
    copyCheck 0x10 (copyOp 0x10) = true ∧ copyCheck 0x11 (copyOp 0x11) = true ∧ copyCheck 0x12 (copyOp 0x12) = true := by
  decide +kernel

theorem witness_DeviceCopies_flat :
    (flatServes (copyOp 0x10) 0 ∧ flatOnce (copyOp 0x10) 0) ∧ (flatServes (copyOp 0x11) 0 ∧ flatOnce (copyOp 0x11) 0) ∧
      flatServes (copyOp 0x12) 0 ∧ flatOnce (copyOp 0x12) 0 :=
  ⟨flat_one (by decide +kernel) (by decide +kernel) (by decide +kernel) (by decide +kernel) (by decide +kernel) (by decide +kernel),
   flat_one (by decide +kernel) (by decide +kernel) (by decide +kernel) (by decide +kernel) (by decide +kernel) (by decide +kernel),
   flat_one (by decide +kernel) (by decide +kernel) (by decide +kernel) (by decide +kernel) (by decide +kernel) (by decide +kernel)⟩

/-- A fill writes its pattern little-endian (R236). -/
theorem test_fill :
    let s := after (.fill 0 1) (copyOp 0x12)
    s.flatByte 0 4096 = 0xEF ∧ s.flatByte 0 4103 = 0x01 ∧ s.flatByte 0 4159 = 0x01 ∧ s.flatByte 0 4160 = 0 := by decide +kernel

/-- An atomic ADD of 7 to a word that holds 5: operation 0, 32 bits (R201, R237). -/
def atomSt : State := ((dmaSt 0x13 [0, 7, 0, 0, 0]).ctxWrite 0 0 [5]).1

/-- A touch of one page that the cache does not hold, and one behind its last page. -/
def touchSt (f : Op → Op) : State := (dmaSt 0x14 [0x5000, 0, 16, 0, 0]).onOp 0 1 f

theorem witness_AtomicsAndTouches :
    checkOp 0 1 0x13 atomSt = true ∧ ((atomSt.op? 0 1).map fun o => (o.atHost, o.atWidth, o.engine)) = some (false, 0, some 0) ∧
    freeCheck 0 atomSt = true ∧ atomSt.unserved 0 0 = none ∧ atomSt.marked 0 0 = false ∧ atomSt.locate 0 0 = (0, 0) ∧
    checkOp 0 1 0x14 (touchSt id) = true ∧ (((touchSt id).op? 0 1).map fun o => (o.src + o.len - 1) / 4096) = some 5 ∧
    (((touchSt id).op? 0 1).map fun o => (o.src / 4096 + o.cursor, o.asked)) = some (5, 0) ∧
    (touchSt id).opAsking 0 1 = false ∧ (touchSt id).cached 0 0 5 = none ∧ (touchSt id).atsReqs = [] ∧
    checkOp 0 1 0x14 (touchSt fun o => { o with cursor := 1 }) = true := by decide +kernel

/-- The atomic's value is the old one, and memory holds the sum (R237). -/
theorem test_atomic :
    let s := after (.atomic 0 1) ((dmaSt 0x13 [0, 7, 0, w64 (2 ^ 55), 0]).ctxWrite 0 0 [5]).1
    s.flatByte 0 0 = 12 ∧ ((s.op? 0 1).bind (·.done)).map (·.value) = some 5 := by decide +kernel

/-- A gather, scatter or scatter-add of one row of one granule: index 1 at 8,192, the table at 0, the dense area at 4,096. -/
def whSt (kind : Nat) : State :=
  let s := ctxRun 0 [opOf 1 [w64 kind, 0, 0, 1, w64 (4096 / 32 * 2 ^ 29), w64 (8192 / 8 * 2 ^ 27), w64 (1 * 2 ^ 32 + 2), 0]]
    ((List.range 8).foldl (fun s k => (s.wr (F.MEM_REG_CTX_WSHARE k 0) 1)) (stOf [(F.MEM_STATUS_STATE 0, 2)]))
  ((s.ctxWrite 0 8192 [1]).1.ctxWrite 0 32 [9]).1

/-- The checks of the areas and indices. -/
def whCheck (k : Nat) (s : State) : Bool :=
  match s.op? 0 1 with
  | some o => checkOp 0 1 k s && o.cursor == 0 && o.asked == 0 && o.count == 0 && ((List.range 8).all fun st =>
        decide (s.rd (F.MEM_REG_CTX_WSHARE st 0) ≠ 0)) && decide ((o.idxCount, o.rowG, o.idxBytes, o.tblRows) = (1, 1, 4, 2)) &&
      decide ((o.table, o.dense, o.idx) = (0, 4096, 8192)) && decide (8192 + 8 ≤ s.range 0) &&
      decide (leNat ((List.range 4).map fun j => s.flatByte 0 (o.idx + j)) = 1) && freeCheck 0 s && s.waiting.isEmpty &&
      ((List.range 8).all fun st => !s.queued (2048 + st * 256) && decide (s.bucketDrawn (2048 + st * 256) = 0))
  | none => false

theorem witness_WhittleMovesRows :
    whCheck 0x18 (whSt 0x18) = true ∧ whCheck 0x19 (whSt 0x19) = true ∧ whCheck 0x1A (whSt 0x1A) = true ∧
    areasApart 8192 4 4096 32 ∧ areasApart 8192 4 0 64 ∧ areasApart 4096 32 0 64 ∧
    ∀ st, 0 + 1 * 1 ≤ 1 + Config.granuleDepth st := by
  refine ⟨by decide +kernel, by decide +kernel, by decide +kernel, ?_, ?_, ?_, fun _ => by omega⟩ <;> unfold areasApart <;> omega

theorem witness_WhittleMovesRows_flat : flatServes (whSt 0x18) 0 ∧ flatOnce (whSt 0x18) 0 :=
  flat_one (by decide +kernel) (by decide +kernel) (by decide +kernel) (by decide +kernel) (by decide +kernel) (by decide +kernel)

/-- Gather: the index names table row 1, whose granule goes to the first dense row (R195). -/
theorem test_gather :
    let o := ((whSt 0x18).op? 0 1).getD (opOf 1 [])
    (moveGranule 0 o (o.tblAt 1 0) (o.denseAt 0 0) (whSt 0x18)).1.flatByte 0 4096 = 9 := by decide +kernel

/-- A stack that runs, at a STRETCH and with a channel. -/
def stackSt (n : Nat) : State := stOf [(F.MEM_STATUS_STATE 0, 2), (F.MEM_STATUS_STRETCH 0, n)]

theorem witness_HeatAndScrub :
    (stackSt 0).rd (F.MEM_STATUS_STATE 0) = 2 ∧ (104#8).toInt < 105 ∧ ((stackSt 0).chan 0).clearing = false ∧
    ((stackSt 0).chan 0).retired = false ∧ ((stackSt 0).chan 0).retFrames = [] ∧ (stackSt 0).marked 0 0 = false ∧
    ((stackSt 0).chan 0).spares < 256 ∧ SMap.get (fun _ => 0) ((stackSt 0).chan 0).remaps (rowOf 0 0) < 2 := by decide +kernel

/-- At 95 °C STRETCH rises by one step, and at 104 °C the refresh rate is doubled too (R212). -/
theorem test_heat :
    (after (.thermalSample 0 95) (stackSt 2)).rd (F.MEM_STATUS_STRETCH 0) = 3 ∧
      (after (.thermalSample 0 104) (stackSt 7)).rd (F.MEM_STATUS_STRETCH 0) = 7 ∧
      (after (.thermalSample 0 91) (stackSt 2)).rd (F.MEM_STATUS_STRETCH 0) = 1 := by decide +kernel
/-- At 105 °C the stack shuts down (R213). -/
theorem test_heat_shutdown : (after (.thermalSample 0 105) (stackSt 0)).rd (F.MEM_STATUS_STATE 0) = 3 := by decide +kernel

/-! ### Translations, invalidations and page requests -/

/-- A copy to host memory whose first translation is outstanding, under generation 0. -/
def askSt (stale : List Stale) : State :=
  let s := (fun s : State => s.wr (F.XLT_CTX_GEN 0) stale.length) <| (ctxRun 0 [{ opOf 1 [0x10, 0, 0, 0, 0x5000, w64 (2 ^ 62 + 64), 0, 0] with started := false }] hostUp).onCtx 0 fun x =>
    { x with stale := stale }
  { s with atsReqs := [⟨7, 0, 0, 5, 1, 0, true, .op 1, some 2, false⟩], nextReq := 8 }

theorem witness_TranslationsAndInvalidations :
    (askSt []).waiting = [] ∧ ((List.range 32).all fun e => ((askSt []).engine e).op.isNone) = true ∧
    (askSt []).rd F.PWR_STATUS_STATE = 0 ∧ (askSt []).power.move = none ∧
    ((askSt []).atsReqs.find? fun r => decide (r.id = 7) && r.slot.isSome) = some ⟨7, 0, 0, 5, 1, 0, true, .op 1, some 2, false⟩ ∧
    ((askSt []).op? 0 1).map (fun o => (o.done, o.prefetch, o.kind, o.hostDst)) = some (none, false, 0x10, true) ∧
    (askSt []).ctxState 0 = 4 ∧ (askSt []).fresh 0 0 0 5 1 = true ∧ (askSt [⟨1, none, 0, 9⟩]).fresh 0 0 0 5 1 = false := by
  decide +kernel

/-- The host link is up; one invalidation of context 0 waits. -/
def invSt : State := { ((hostUp.wr F.GLB_HEP_STATUS_LINK_UP 1).wr (F.CTX_STATE_STATE 0) 4).onPins (fun x => { x with perstN := true }) with
  invs := [⟨0, 3, 1, none, 0, 9⟩] }

theorem witness_TranslationsAndInvalidations_inv :
    invSt.linkUp = true ∧ invSt.ctxState 0 = 4 ∧ invSt.ctxState 1 = 0 ∧ invSt.waiting = [] ∧
    invSt.invs.find? (fun v => decide (v.ctx = 0) && decide (v.tag = 3)) = some ⟨0, 3, 1, none, 0, 9⟩ ∧
    invSt.invWaits ⟨0, 3, 1, none, 0, 9⟩ = false ∧
    (let s := { invSt with hostReqs := [⟨1, 0, .copy 1 0 64, 0, 0, 5, 5, 2, 0, false⟩] }
     s.invWaits ⟨0, 3, 1, none, 0, 9⟩ = true) := by decide +kernel

/-- No context that holds a slice has a run to ask for. -/
theorem witness_TranslationsAndInvalidations_run : noRun (askSt []) ∧ noRun (askSt [⟨1, none, 0, 9⟩]) ∧ noRun invSt :=
  ⟨noRun_of (by decide +kernel), noRun_of (by decide +kernel), noRun_of (by decide +kernel)⟩

/-- An invalidation raises the generation (R222). -/
theorem test_invalidate : (after (.invalidateRequest 1 4 none 0 9 true) invSt).gen 0 = invSt.gen 0 + 1 := by decide +kernel
/-- An invalidation of a context that is not in RUN completes at once (R224). -/
theorem test_invalidate_idle : (after (.invalidateRequest 2 4 none 0 9 true) invSt).outbox = [.invCompletion 1 4] := by decide +kernel

/-- Entry 255 of the pending-fault table was sent for context 0, which waits on it or not. -/
def pftSt (ws : List Waiter) : State :=
  { ((ctxRun 0 [] hostUp).wr (F.XLT_PFT0_STATE 255) 2).wr (F.XLT_PFT0_CTX 255) 0 with pft := [(255, ws)] }

theorem witness_PageRequestsAndHostAnswers :
    (pftSt []).rd F.PWR_STATUS_STATE = 0 ∧ (pftSt []).power.move = none ∧ (pftSt []).pftState 255 = 2 ∧
    (pftSt []).rd (F.XLT_PFT0_CTX 255) + 1 = 1 ∧ (pftSt []).answered 255 = false ∧ (pftSt [.op 0 1]).pftWaiters 255 = [.op 0 1] ∧
    (pftSt []).atsReqs = [] ∧ (pftSt []).pftSend = [] ∧ (pftSt []).pftState 0 = 0 ∧ (pftSt []).pftWaiters 255 = [] ∧
    (pftSt [.op 0 1]).endable 0 = true ∧ (pftSt [.op 0 1]).classOf 0x000A = 1 ∧ (pftSt [.op 0 1]).stopped = false ∧
    (pftSt [.op 0 1]).rd (F.SCH_STATUS_STATE ((pftSt [.op 0 1]).partOf 0)) ≠ 4 ∧ (pftSt []).prOut 255 = 0 := by decide +kernel

/-- A response that names no request is discarded and counted (R228). -/
theorem test_prg_orphan : (after (.prgResponse 1 0 .success) (pftSt [])).rd F.XLT_COUNT_PR_ORPHAN = 1 := by decide +kernel

/-- An ATOMIC on host memory that awaits its answer. -/
def hostAtomSt : State :=
  { ctxRun 0 [opOf 1 [0x13, 0, 0, 0, 7, 0, w64 (2 ^ 63 + 2 ^ 55), 0]] hostUp with
    hostReqs := [⟨1, 0, .atomic 1, 0, 0, 0, 0, 2, 0, false⟩], nextReq := 2 }

theorem witness_PageRequestsAndHostAnswers_atomic :
    hostAtomSt.waiting = [] ∧ ((List.range 32).all fun e => (hostAtomSt.engine e).op.isNone) = true ∧
    hostAtomSt.hostReqs.find? (fun r => decide (r.id = 1)) = some ⟨1, 0, .atomic 1, 0, 0, 0, 0, 2, 0, false⟩ ∧
    (hostAtomSt.op? 0 1).map (fun o => (o.kind, o.done, o.engine)) = some (0x13, none, none) := by decide +kernel

theorem witness_PageRequestsAndHostAnswers_run : noRun hostAtomSt := noRun_of (by decide +kernel)

/-- The value of the atomic is the one that the host returned (R237). -/
theorem test_host_atomic :
    ((((after (.hostCompletion 1 .ok [5, 1, 0, 0]) hostAtomSt).op? 0 1).bind (·.done)).map (·.value)) = some 261 := by decide +kernel

/-! ### The on-die network -/

/-- A flit of `n` bytes from a source to a destination, for context 0; its data field holds `d`. -/
def flit (src : Fin 104) (sag : Fin 4) (hub : Bool) (dst : Fin 104) (dag : Fin 4) (n : Fin 128) (a : BitVec 40) (d : List Byte) : Flit :=
  ⟨dst, dag, src, sag, hub, 0, 5, 0, false, false, 0, 0, n, a, d⟩

/-- Is a request new, free of tokens and proxies, and may its source issue it? -/
def freeOf (h : Flit) (opc : Nat) (s : State) : Bool :=
  (s.inNetwork h.dst.val opc h).isNone && !s.proxied h.src.val h.sag.val && !s.proxied h.dst.val h.dag.val && s.mayIssue h opc &&
    ((s.sourceOf h).2 || decide (s.rd (F.NOC_REG_CTX_RATE (s.sourceOf h).1) = 0))

theorem meshFree_of_check {h : Flit} {opc : Nat} {s : State} (hf : freeOf h opc s = true) : meshFree h opc s := by
  simp only [freeOf, Bool.and_eq_true, Bool.or_eq_true, decide_eq_true_eq, Bool.not_eq_true', Option.isNone_iff_eq_none] at hf
  exact ⟨⟨hf.1.1.1.1, hf.1.1.1.2, hf.1.1.2⟩, hf.1.2, hf.2⟩

/-- Tile 63 held by context 0; every injection rate is 0. -/
def meshSt : State := stOf [(F.MXA_STATUS_CTX_VALID 63, 1), (F.MXA_STATUS_CUR_CTX 63, 0), (F.NOC_REG_CTX_RATE 0, 0),
  (F.CTX_PART_VALID 0, 1), (F.CTX_PART_GROUPS 0, 0x81)]

theorem witness_TileRequests :
    let own := flit 65 0 false 63 0 15 0x2FFFF0 (zs 16)
    let hub := flit 99 1 true 63 0 15 0 (zs 16)
    ([0, 1].all fun k => freeOf own k meshSt && freeOf hub k meshSt) = true ∧ (meshSt.sourceOf hub).2 = true ∧ (meshSt.sourceOf own).2 = false ∧
    meshSt.tileCtx 63 = some (meshSt.sourceOf own).1 ∧ own.addr.toNat + flitLen own = 0x300000 ∧
    (meshSt.wr (F.MXA_STATUS_CUR_CTX 63) 1).tileCtx 63 ≠ some (meshSt.sourceOf own).1 ∧
    own.addr.toNat < 2 ^ 22 ∧ own.dag.val = 0 ∧ ([0, 1, 2].all fun k => freeOf own k (meshSt.wr (F.MXA_STATUS_CUR_CTX 63) 1)) = true ∧
    (let acc := flit 99 1 true 63 0 15 (2 ^ 23 - 1) (zs 16)
     2 ^ 22 ≤ acc.addr.toNat ∧ acc.addr.toNat < 2 ^ 23 ∧ freeOf acc 1 meshSt = true) := by decide +kernel

/-- A request of another context is answered OWNER, status 3 (R267). -/
theorem test_owner :
    (match (after (.rd (flit 65 0 false 63 0 15 0 []) .good .clean) (meshSt.wr (F.MXA_STATUS_CUR_CTX 63) 1)).outbox with
     | [.flit f] => (f.opc, f.hdr.status.val, f.hdr.dst.val, f.hdr.tag.toNat)
     | _ => (0, 0, 0, 0)) = (0x0A, 3, 65, 5) := by decide +kernel

theorem witness_StackRequests :
    let h := flit 99 1 true 64 0 7 8 ([3, 0, 0, 0, 0, 0, 0, 0] ++ zs 8 ++ [0, 1])
    let s := meshSt.wr (F.MEM_STATUS_STATE 0) 2
    stackOf 64 = some (0, attachChans 0) ∧ h.dag.val = 0 ∧ ([0, 1, 2, 3].all fun k => freeOf h k s) = true ∧ (attachChans 0).1 = 0 ∧ 0 < (attachChans 0).2 ∧
    8 + flitLen h ≤ s.capFrames 0 * 65536 ∧ (s.sourceOf h).2 = true ∧ ((pieces 8 8).all fun p => !s.rowHeld 0 (s.physOff 0 p.1)) = true ∧
    ((List.range 8).all fun i => decide (s.physOff 0 (8 + i) = 8 + i) && (s.unserved 0 (8 + i)).isNone && !s.marked 0 (8 + i)) = true ∧
    atomOk (fieldAt h.data 16 1) (fieldAt h.data 17 1) = true ∧ 8 % (widthBits (fieldAt h.data 17 1) / 8) = 0 := by decide +kernel

/-- The owner of a channel with tokens left. -/
theorem witness_StackRequests_owner :
    let s := [(F.MEM_STATUS_STATE 0, 2), (F.MEM_CH_OWNED 0 0, 1), (F.MEM_CH_OWNER 0 0, 0), (F.MEM_REG_CTX_BURST 0 0, 1)].foldl
      (fun s p => s.wr p.1 p.2) meshSt
    s.ownerOf 0 = some 0 ∧ s.bucketDrawn 0 + 8 ≤ s.byteDepth 0 0 ∧ s.waiting = [] := by decide +kernel

theorem witness_HostRequestsOverTheMesh :
    let h := flit 65 1 false 91 1 15 0 ([0, 0x10, 0, 0, 0, 0, 0, 0] ++ zs 16 ++ [2, 1])
    let t := flit 3 0 false 91 1 15 0 []
    let g := flit 100 1 false 91 1 15 0 []
    ([4, 5, 6].all fun k => freeOf h k meshSt && freeOf t k meshSt && freeOf g k meshSt) = true ∧ 64 ≤ h.src.val ∧ h.src.val ≠ 100 ∧
    meshSt.slotHeld 0 1 = false ∧ fieldAt h.data 24 1 ≤ 2 ∧ fieldAt h.data 25 1 = 1 ∧ t.src.val < 64 ∧ g.src.val = 100 ∧ g.sag.val = 1 := by
  decide +kernel

/-- A host read of a tile is turned away (R343). -/
theorem test_host_read_of_tile :
    (after (.hrd (flit 3 0 false 91 1 15 0 []) .good) meshSt).hostReqs = [] := by decide +kernel

theorem witness_ResponsesArrive :
    let h := flit 91 1 false 63 0 15 0x2FFFF0 (zs 16)
    let x := flit 91 1 false 89 0 15 0 (zs 16)
    let err : Flit := { flit 91 1 false 63 0 15 0 [] with status := 4 }
    let s := (ctxRun 0 [opOf 1 [1]] meshSt).onTile 63 fun x => { x with deal := [⟨0, 1, 0, 0, 0, true, 63, 0, 0⟩] }
    ([8, 9, 10, 11].all fun k => (meshSt.inNetwork 63 k h).isNone && (meshSt.inNetwork 89 k x).isNone && (s.inNetwork 63 k err).isNone) = true ∧
    meshSt.proxied 63 0 = false ∧ (meshSt.wr F.NOC_STATUS_PROXY 1).proxied 63 0 = true ∧ siteAt 63 = none ∧
    meshSt.requesterOp 63 0 0 = none ∧ siteAt 89 = some 0 ∧ meshSt.proxied 89 0 = false ∧ meshSt.rd (F.CHK_STATUS_STATE 0) ≠ 5 ∧
    h.addr.toNat + flitLen h = 0x300000 ∧ x.dst.val = 89 ∧ s.requesterOp 63 0 0 = some 1 ∧ err.status.val = 4 ∧
    ((s.op? 0 1).map fun o => o.done) = some none := by decide +kernel

/-- A tile that waits behind the proxy of partition 0, and a response that is still due to it. -/
def proxySt : State := (meshSt.wr F.NOC_STATUS_PROXY 1).onPart 0 fun x => { x with proxy := true, rejoin := true }

/-- A request of router 0 for router 1 on plane 0, in the local buffer of router 0: it leaves for the east. -/
def hopFlit : NetFlit := { hdr := flit 0 0 false 1 0 15 0 [], opc := 0, plane := 0 }
def hopSt : State := { meshSt with netBufs := [(bufKey 0 0 0 0, [hopFlit])] }
/-- A link of the last router with this many failures in a row. -/
def badLink (n : Nat) : State := { meshSt with links := [(103 * 32 + 3, { LinkSt.init with row := n })] }

theorem witness_NetworkHousekeeping :
    (let h := flit 99 1 true 63 0 15 0 []
     freeOf h 0x10 meshSt = true ∧ freeOf h 0x11 meshSt = true ∧ SMap.get (fun _ => 0) meshSt.ctlOut (ctlKey h false) < 4 ∧
     freeOf h 0x10 { meshSt with ctlOut := [(ctlKey h false, 4)] } = true) ∧
    (meshSt.link 1 4 0).failed = false ∧ farEnd 1 4 = some (0, 3) ∧ meshSt.outputNext 0 3 0 (meshSt.link 1 4 0) = none ∧
    hopSt.outputNext 0 3 0 (hopSt.link 1 4 0) = some (0, hopFlit) ∧ hopSt.buf (bufKey 0 0 0 hopFlit.cls) = [hopFlit] ∧
    (let h := flit 65 0 false 63 0 15 0 []
     agentAt 65 0 = true ∧ meshSt.planeOf h = 0 ∧ meshSt.hasCredit (bufKey 65 0 0 0) = true ∧ freeOf h 0 meshSt = true) ∧
    (badLink 3).link 103 0 3 = { LinkSt.init with row := 3 } ∧ (badLink 15).link 103 0 3 = { LinkSt.init with row := 15 } ∧
    (badLink 15).classOf 0x0401 = 3 ∧ (badLink 15).stopped = false ∧
    (proxySt.part 0).proxy = true ∧ (proxySt.part 0).rejoin = true ∧ proxySt.dueTo 0 = 0 ∧
    { proxySt with owed := [(4 * 63, 1)] }.dueTo 0 = 1 ∧ meshSt.waiting = [] ∧
    (let x := (meshSt.onChan 0 fun x => { x with copying := [9] }).chan 0
     9 ∈ x.copying ∧ x.queue = [] ∧ x.credits = 0) := by decide +kernel

/-- The packet that the output sends next stands in the buffer at the far end (R263, R264). -/
theorem test_hop :
    let s := after (.linkFlitArrival 1 4 0 0 { ok := true, inj := none }) hopSt
    s.buf (bufKey 1 4 0 0) = [hopFlit] ∧ s.buf (bufKey 0 0 0 0) = [] := by decide +kernel

/-- The proxy is not released while a response is due (R272). -/
theorem test_proxy_waits :
    (after (.proxyRelease 0) { proxySt with owed := [(4 * 63, 1)] }).rd F.NOC_STATUS_PROXY = 1 ∧
      (after (.proxyRelease 0) proxySt).rd F.NOC_STATUS_PROXY = 0 := by decide +kernel

/-! ### The host endpoint -/

/-- Context 0 locked by TDISP, with its conditions on; a fault would end it. -/
def lockedSt (k : Nat) : State :=
  ((hostUp.wr (F.CTX_STATE_STATE 0) k).onCtx 0 fun x => { x with tdiLocked := true, lockMsix := true, nonce := zs 32 }).onCfg 1 fun x =>
    { x with bme := true, mse := true, atsEn := true, bar := 0x1000 }

/-- The conditions of a fault of this code that would end context 0. -/
def containsCheck (code : Nat) (s : State) : Bool :=
  decide (s.classOf code = 1) && !s.stopped && s.endable 0 && decide (s.rd (F.SCH_STATUS_STATE (s.partOf 0)) ≠ 4) &&
    decide (s.rd F.PWR_STATUS_STATE = 0)

theorem contains_of_check {code : Nat} {s : State} (h : containsCheck code s = true) : contains code 0 s := by
  simp only [containsCheck, Bool.and_eq_true, decide_eq_true_eq, Bool.not_eq_true'] at h
  exact ⟨h.1.1.1.1, h.1.1.1.2, h.1.1.2, h.1.2, h.2⟩

theorem witness_ConfigurationSpaces :
    hostUp.fnEnabled 256 = true ∧ hostUp.pftSend = [] ∧ (hostUp.ctx 255).tdiLocked = false ∧
    (lockedSt 3).fnEnabled 1 = true ∧ ((lockedSt 3).ctx 0).tdiLocked = true ∧ (lockedSt 3).endable 0 = true ∧
    ([CfgField.busMaster, .memorySpace, .atsEnable].all fun w => breaksLock ((lockedSt 3).cfg 1) w 0) = true ∧
    breaksLock ((lockedSt 3).cfg 1) .bar 0x2000 = true ∧ breaksLock ((lockedSt 3).cfg 1) .bar 0x1000 = false ∧
    inTable .bar = false ∧ inTable (.msixAddr 7) = true ∧ ((lockedSt 3).ctx 0).lockMsix = true ∧
    containsCheck 0x000E (lockedSt 3) = true ∧ hostUp.ctxState 255 < 3 ∧ (State.reset.cfg 0).vfEn = false ∧
    ((List.range 256).all fun i => decide (hostUp.pftState i ≠ 1) && decide ((lockedSt 3).pftState i ≠ 1)) = true ∧
    hostUp.windowOpen 0 0x8000 false false = false ∧ (windowSt 2 0).windowOpen 0 0x8000 false false = true ∧ ((windowSt 2 0).ctx 0).tdiLocked = false := by decide +kernel

/-- A write that leaves the BAR of a locked interface as it is breaks no condition (R356). -/
theorem test_bar_kept : ((after (.configurationWrite 1 .bar 0x1000) (lockedSt 3)).cfg 1).bar = 0x1000 := by decide +kernel

/-- VFs that are removed return to their reset values (R338). -/
theorem witness_ConfigurationSpaces_vf : ((List.range 256).all fun c => decide (hostUp.ctxState c < 3)) = true := by decide +kernel

/-- Stream 0 is Secure and serves context 0, or none. -/
def streamSt (k : Nat) (c : Option Nat) : State := (lockedSt k).onStream 0 fun x => { x with secure := true, ctx := c }

theorem witness_EndpointErrors :
    hostUp.endable 0 = false ∧ containsCheck 0x000B (lockedSt 4) = true ∧ (hostUp.stream 255).secure = false ∧
    ((streamSt 4 none).stream 0).secure = true ∧ ((streamSt 4 none).stream 0).ctx = none ∧
    ((streamSt 4 (some 0)).stream 0).ctx = some 0 ∧ containsCheck 0x000D (streamSt 4 (some 0)) = true := by decide +kernel

/-- A failed IDE check puts the stream into Insecure and is counted (R353). -/
theorem test_ide_failed :
    let s := after (.ideCheckFailed 0) (streamSt 4 none)
    (s.stream 0).secure = false ∧ s.rd F.GLB_HEP_ERR_IDE_FAIL = 1 := by decide +kernel

/-- Session 1 is open on the DOE mailbox. -/
def sesSt (s : State) : State := { s with sessions := [⟨1, false, [], 0, 0, none⟩] }

/-- Context 0 in READY with a stripe, bus mastering on and stream 0 Secure for it. -/
def readySt : State :=
  sesSt (((windowSt 2 0).onCfg 1 fun x => { x with bme := true, mse := true }).onStream 0 fun x => { x with secure := true, ctx := some 0 })

theorem witness_TdispMessages :
    openSession 1 readySt ∧ openSession 1 (sesSt (lockedSt 3)) ∧ (lockedSt 3).endable 0 = true ∧ hostUp.endable 0 = false ∧
    readySt.tdispLockOk 0 0 0 = true ∧ readySt.ctxState 0 = 2 ∧ (lockedSt 3).ctxState 0 = 3 ∧
    ((lockedSt 3).ctx 0).nonce = zs 32 ∧ ((lockedSt 3).rd F.TLS_STATUS_PART_DOWN).testBit ((lockedSt 3).partOf 0) = false ∧
    ((lockedSt 3).ctx 0).stopPending = false ∧ (lockedSt 5).ctxState 0 = 5 ∧ (lockedSt 5).on (F.CTX_STATE_SCRUB 0) = false ∧
    (lockedSt 6).ctxState 0 = 6 ∧ (2#16).getLsbD 3 = false ∧ (8#16).getLsbD 3 = true ∧ (lockedSt 4).ctxState 0 = 4 := by
  refine ⟨?_, ?_, ?_⟩
  · show (readySt.session? false 1).isSome = true; decide +kernel
  · show ((sesSt (lockedSt 3)).session? false 1).isSome = true; decide +kernel
  · decide +kernel

/-- The hub's word of the context can be written. -/
theorem witness_TdispMessages_word :
    let s := ((sesSt (lockedSt 3)).wr (F.MEM_STATUS_STATE 0) 2).onCtx 0 fun x => { x with stripes := 1, chans := [0], pitch := 1024 }
    s.ctxState 0 = 3 ∧ (s.ctx 0).tdiLocked = true ∧ (s.ctx 0).nonce = zs 32 ∧ flatServes s 0 ∧ s.inRange 0 (s.wordsAddr 0) 16 = true :=
  ⟨by decide +kernel, by decide +kernel, by decide +kernel,
    (flat_one (by decide +kernel) (by decide +kernel) (by decide +kernel) (by decide +kernel) (by decide +kernel) (by decide +kernel)).1,
    by decide +kernel⟩

/-- The TDISP start with the nonce of the lock, and with another (R357). -/
theorem test_tdisp_start :
    (after (.startInterfaceRequest 1 0 (zs 32)) (sesSt (lockedSt 3))).ctxState 0 = 4 ∧
      (after (.startInterfaceRequest 1 0 (1 :: zs 31)) (sesSt (lockedSt 3))).ctxState 0 = 3 := by decide +kernel

theorem witness_IdeAndDoe :
    ((hostUp.stream 0).complete 0) = false ∧
    (let s := hostUp.onStream 0 fun x => { x with keys := (List.range 12).map fun i => (i, zs 32) }
     (s.stream 0).complete 0 = true ∧ (s.stream 0).complete 1 = true) ∧
    ((sesSt (streamSt 4 (some 0))).stream 0).ctx = some 0 ∧ containsCheck 0x000E (sesSt (streamSt 4 (some 0))) = true ∧
    ((sesSt (streamSt 4 (some 0))).ctx 0).tdiLocked = true ∧ hostUp.doe.busy = false := by decide +kernel

/-- A DOE object that comes while one is served sets the error (R358). -/
theorem test_doe_busy : (after (.doeObject 8 1 (zs 8)) { hostUp with doe := ⟨true, false⟩ }).doe = ⟨true, true⟩ := by decide +kernel

/-- The link is up. -/
def linkUpSt : State := { hostUp.wr F.GLB_HEP_STATUS_LINK_UP 1 with pins := { hostUp.pins with perstN := true } }

theorem witness_HostLink :
    ((List.range 256).all fun c => !linkUpSt.endable c) = true ∧ linkUpSt.streams = [] ∧ linkUpSt.on F.GLB_HEP_STATUS_LINK_UP = true ∧
    hostUp.on F.GLB_HEP_STATUS_LINK_UP = false ∧ linkUpSt.rd F.PWR_STATUS_STATE = 0 ∧ linkUpSt.power.move = none ∧
    linkUpSt.pins.perstN = true ∧ linkUpSt.endpointOff = false ∧ (linkUpSt.wr (F.PWR_DOMAIN_COND 3) 3).endpointOff = true ∧
    ([1, 4, 5].all fun st => decide ((linkUpSt.wr F.PWR_STATUS_STATE st).rd F.PWR_STATUS_STATE = st) &&
      decide (0 < (linkUpSt.wr F.PWR_STATUS_STATE st).rd F.PWR_STATUS_STATE)) = true := by decide +kernel

/-- A link that goes down resets the configuration spaces (R367), and an L1 exit in L4 asks for L0 (R489). -/
theorem test_link :
    ((after .hostLinkDown linkUpSt).cfg 0).vfEn = false ∧
      (after .linkL1Exit (linkUpSt.wr F.PWR_STATUS_STATE 4)).rd F.PWR_STATUS_TARGET = 0 ∧
      (after .linkL1Exit (linkUpSt.wr F.PWR_STATUS_STATE 4)).rd F.PWR_STATUS_BUSY = 1 := by decide +kernel

/-! ### Glue-up pools -/

/-- The first stripe of a context on one channel is laid out in order (R188). -/
theorem locate_on {s : State} {c ch : Nat} (hc : (s.ctx c).chans = [ch]) (hp : (s.ctx c).pitch = 1024) (hm : (s.chan ch).mapped = [])
    {a : Nat} (ha : a < 262144) : s.locate c a = (ch, a) := by
  have h1 : a / 256 / 1024 = 0 := by omega
  have h2 : a / 256 % 1024 = a / 256 := Nat.mod_eq_of_lt (by omega)
  simp only [State.locate, hc, hp, spreadMap, spreadEntry, h1, h2, State.physOff, Chan.physFrame]
  simp only [List.isEmpty_cons, Bool.false_eq_true, if_false, List.length_singleton, Nat.mod_one, List.getD_cons_zero, Nat.div_one,
    Nat.zero_mul, Nat.zero_add, Nat.zero_mod, Nat.zero_div, Nat.xor_zero, hm, List.foldl_nil]
  refine Prod.ext rfl ?_
  simp only
  omega

/-- A context of one stripe on a channel that serves: its range is served, and every address names its own byte. -/
theorem flat_on {s : State} {c : Nat} (ch : Nat) (hc : (s.ctx c).chans = [ch]) (hp : (s.ctx c).pitch = 1024) (hs : (s.ctx c).stripes = 1)
    (hl : ch < 256) (hx : ((s.chan ch).retired, (s.chan ch).mapped, (s.chan ch).retFrames) = (false, [], [])) (hu : s.ueMarks = []) (hk : s.rd (F.MEM_STATUS_STATE (ch / 32)) = 2) :
    flatServes s c ∧ flatOnce s c := by
  simp only [Prod.mk.injEq] at hx
  have hl' : ∀ a, a < s.range c → s.locate c a = (ch, a) := fun a ha =>
    locate_on hc hp hx.2.1 (by simpa [State.range, hs] using ha)
  refine ⟨fun a ha => ?_, fun a b ha hb h => ?_⟩
  · rw [hl' a ha]
    refine ⟨hl, ?_, ?_⟩
    · simp [State.unserved, hk, hx]
    · simp [State.marked, hu, SMap.get]
  · rw [hl' a ha, hl' b hb] at h
    simpa [memKey] using h

/-- Pool 0 of four FP32 elements, held by context 1, with contexts 0 and 2 as members and outputs, in this state of this round. -/
def poolIn (st rnd : Nat) (s : State) : State :=
  let s := [(F.GUP_CFG_VALID 0, 1), (F.GUP_CFG_HOLDER 0, 1), (F.GUP_CFG_K 0, 2), (F.GUP_CFG_LEN 0, 4), (F.GUP_CLIP_CLIP 0, 0x3F800000),
    (F.GUP_DEADLINE_DEADLINE_NS 0, 1000), (F.GUP_SET_CTX 0 0, 5), (F.GUP_SET_CTX 0 4, 5), (F.GUP_RND_STATE 0, st), (F.GUP_RND_ROUND 0, rnd),
    (F.MEM_STATUS_STATE 0, 2)].foldl (fun s p => s.wr p.1 p.2) s
  s.onCtx 1 fun x => { x with chans := [1], pitch := 1024, stripes := 1 }

/-- Context 0 with a glue-up operation of round `r` on pool 0. -/
def glueOp (k r st rnd : Nat) : State := poolIn st rnd (ctxRun 0 [opOf 1 [w64 k, 0, 0, 0, w64 (r * 2 ^ 32), 0, 0, 0]] State.reset)

/-- The operation has this kind and round, runs, and is not the pool's yet. -/
def glueCheck (k r : Nat) (s : State) : Bool :=
  match s.op? 0 1 with
  | some o => decide (o.kind = k) && decide (o.guRound = r) && decide (o.guPool = 0) && o.started && o.done.isNone && s.ctxState 0 = 4 &&
      decide (o.guAddr = 0)
  | none => false

/-- The member's slot in this state. -/
def slotAs (k : SlotState) (s : State) : State := s.setSlot 0 0 ⟨3, k, 0⟩

theorem witness_PoolContributions :
    ([(5, 3, 3), (1, 2, 3), (1, 5, 3), (1, 3, 3), (1, 4, 3), (2, 4, 3), (3, 4, 3), (0, 4, 3)].all fun x =>
      glueCheck 0x28 x.2.1 (glueOp 0x28 x.2.1 x.1 x.2.2) && decide ((glueOp 0x28 x.2.1 x.1 x.2.2).poolSt 0 = x.1) &&
        decide ((glueOp 0x28 x.2.1 x.1 x.2.2).round 0 = x.2.2)) = true ∧
    (glueOp 0x28 3 1 3).pool 0 = Pool.init ∧ (glueOp 0x28 3 1 3).slotOf 0 0 = 0 ∧ ((glueOp 0x28 3 1 3).slot 0 0).st = .empty ∧
    (glueOp 0x28 3 1 3).pastDeadline 0 = false ∧
    ((glueOp 0x28 3 1 3).onPool 0 fun y => { y with tOpen := 0 }).pastDeadline 0 = false ∧
    ((glueOp 0x28 3 1 3).wr (F.GUP_DEADLINE_DEADLINE_NS 0) 0).pastDeadline 0 = true ∧
    ([SlotState.filling, .sealed, .scrubbing].all fun k => decide (((slotAs k (glueOp 0x28 3 1 3)).slot 0 0).st = k) &&
      glueCheck 0x28 3 (slotAs k (glueOp 0x28 3 1 3))) = true ∧
    ([(5, 3, 3), (0, 4, 3), (1, 3, 3), (4, 3, 3), (0, 3, 3), (4, 2, 3), (4, 5, 3)].all fun x =>
      glueCheck 0x29 x.2.1 (glueOp 0x29 x.2.1 x.1 x.2.2) && decide ((glueOp 0x29 x.2.1 x.1 x.2.2).poolSt 0 = x.1)) = true ∧
    ((glueOp 0x29 3 4 3).ctxRead 1 ((glueOp 0x29 3 4 3).resultAt 0) ((glueOp 0x29 3 4 3).poolBytes 0)).toOption = some (zs 16) ∧
    (glueOp 0x29 3 4 3).range 0 = 262144 ∧ (((glueOp 0x29 3 4 3).onPool 0 fun y => { y with fails := [3] }).pool 0).fails = [3] ∧
    (((glueOp 0x29 3 4 3).onPool 0 fun y => { y with resScrub := true }).pool 0).resScrub = true ∧
    freeCheck 1 (glueOp 0x29 3 4 3) = true ∧ freeCheck 0 (glueOp 0x29 3 4 3) = true := by decide +kernel

theorem witness_PoolContributions_flat : flatServes (glueOp 0x29 3 4 3) 0 ∧ flatOnce (glueOp 0x29 3 4 3) 0 :=
  flat_on 0 (by decide +kernel) (by decide +kernel) (by decide +kernel) (by decide +kernel) (by decide +kernel) (by decide +kernel)
    (by decide +kernel)

/-- The first contribution opens the round (R300), and a receive of the held round counts its contributions (R298). -/
theorem test_pool_opens : (after (.guContribute 0 1) (glueOp 0x28 4 0 3)).poolSt 0 = 1 ∧ (after (.guContribute 0 1) (glueOp 0x28 4 0 3)).round 0 = 4 ∧
    (((after (.guReceive 0 1) ((glueOp 0x29 3 4 3).onPool 0 fun y => { y with released := some (3, 2) })).op? 0 1).bind (·.done)).map
      (fun r => (r.status, r.value)) = some (stOK, 2) := by decide +kernel

/-- The round 3 is open and the copy of context 0 fills its slot, with its bytes at 0. -/
def fillSt (bs : List Byte) : State :=
  (((((glueOp 0x28 3 1 3).onPool 0 fun y => { y with contribs := [(0, 1, 3)] }).setSlot 0 0 ⟨3, .filling, 0⟩).setSlot 0 1
    ⟨3, .sealed, 0⟩).ctxWrite 0 0 bs).1

/-- 3.0, 4.0, 0.0 and 0.0 in FP32. -/
def threeFour : List Byte := [0, 0, 0x40, 0x40, 0, 0, 0x80, 0x40] ++ zs 8
/-- The same with an infinity. -/
def spoiled : List Byte := [0, 0, 0x80, 0x7F] ++ zs 12

/-- What SLOT_SEAL asks of the pool in these states. -/
def sealCheck (bs : List Byte) (s : State) : Bool :=
  decide (s.scope 0 = 0) && decide (s.poolSt 0 = 1) && (s.pool 0).leafSealed.isEmpty &&
    ((s.pool 0).contribs.all fun y => decide (y.1 < 256) && s.isMember 0 y.1) &&
    decide ((s.pool 0).contribs.find? (fun y => decide (y.1 = 0) && s.copies 0 y) = some (0, 1, 3)) && s.isMember 0 0 &&
    glueCheck 0x28 3 s && s.enginesOn && freeCheck 0 s && freeCheck 1 s && decide ((s.ctxRead 0 0 (s.poolBytes 0)).toOption = some bs) && decide (s.holder 0 = 1) &&
    decide (s.slotOf 0 0 * s.slotBytes 0 + s.poolBytes 0 ≤ s.range 1)

theorem witness_PoolRoundCloses :
    sealCheck threeFour (fillSt threeFour) = true ∧ sealCheck spoiled (fillSt spoiled) = true ∧
    ((fillSt threeFour).elemsOf 0 threeFour).any FV.special = false ∧ ((fillSt spoiled).elemsOf 0 spoiled).any FV.special = true ∧
    (fillSt threeFour).members 0 = 2 ∧ ((fillSt threeFour).slot 0 1).st = .sealed ∧
    (let s := fillSt threeFour
     s.atL0 = true ∧ (s.sealedSlots 0).length < s.rd (F.GUP_CFG_K 0) ∧ (s.wr F.PWR_STATUS_STATE 1).atL0 = false ∧
       (s.wr (F.GUP_CFG_K 0) 1).rd (F.GUP_CFG_K 0) ≤ ((s.wr (F.GUP_CFG_K 0) 1).sealedSlots 0).length) := by decide +kernel

theorem witness_PoolRoundCloses_flat : flatServes (fillSt threeFour) 1 ∧ flatOnce (fillSt threeFour) 1 :=
  flat_on 1 (by decide +kernel) (by decide +kernel) (by decide +kernel) (by decide +kernel) (by decide +kernel) (by decide +kernel)
    (by decide +kernel)

/-- The sum of the squares of 3 and 4 is 25 (R297), and the last seal closes the round (R300). -/
theorem test_seal : ((after (.slotSeal 0 0) (fillSt threeFour)).slot 0 0).sumsq = 0x4039000000000000 ∧
    (after (.slotSeal 0 0) (fillSt threeFour)).poolSt 0 = 2 := by decide +kernel

/-- The round 3 closes with both slots sealed; slot 0 holds 3.0 and 4.0. -/
def closingSt : State :=
  (((poolIn 2 3 State.reset).setSlot 0 0 ⟨3, .sealed, 0x4039000000000000⟩).setSlot 0 1 ⟨3, .sealed, 0⟩).ctxWrite 1 0 threeFour |>.1

/-- The pool in SCRUB with only slot 0 left to scrub. -/
def scrubSt (fails : List Nat) : State :=
  ((poolIn 3 3 State.reset).setSlot 0 0 ⟨3, .scrubbing, 0⟩).onPool 0 fun y => { y with fails := fails }

theorem witness_PoolRoundReleases :
    (let s := closingSt
     s.scope 0 = 0 ∧ s.poolSt 0 = 2 ∧ (s.pool 0).receives = [] ∧ (s.pool 0).early = [] ∧ (s.pool 0).due = none ∧ s.enginesOn = true ∧
       freeCheck (s.holder 0) s = true ∧ (s.pool 0).partials = [] ∧ s.sealedSlots 0 = [0, 1] ∧
       (s.partialSums 0).toOption.isSome = true ∧ s.resultAt 0 + s.poolBytes 0 ≤ s.range (s.holder 0)) ∧
    ([[], [3]].all fun fs =>
      let s := scrubSt fs
      decide (s.poolSt 0 = 3) && (s.pool 0).early.isEmpty && (s.pool 0).due.isNone && s.enginesOn && freeCheck 1 s && (s.pool 0).contribs.isEmpty && decide ((s.slot 0 0).st = .scrubbing) && decide ((s.slot 0 1).st = .empty) &&
        decide (s.members 0 = 2) && decide (s.poolBytes 0 ≤ s.range (s.holder 0)) && decide ((s.pool 0).fails = fs)) = true ∧
    (let s := (poolIn 4 3 State.reset).onPool 0 fun y => { y with resScrub := true }
     (s.pool 0).resScrub = true ∧ s.poolSt 0 = 4 ∧ (s.pool 0).contribs = [] ∧ s.resultAt 0 + s.poolBytes 0 ≤ s.range (s.holder 0)) ∧
    (let s := ((poolIn 2 3 State.reset).wr (F.GUP_CFG_SCOPE 0) 1).onPool 0 fun y => { y with leafSealed := [(7, 3)] }
     s.scope 0 = 1 ∧ s.poolSt 0 = 2 ∧ s.leafNodes 0 = [7] ∧ (s.pool 0).leftOut = [] ∧ s.partialIn 0 7 = false ∧
       ((s.wr (F.GUP_CFG_K 0) 0).wr (F.GUP_CFG_LEN 0) 0).partialIn 0 7 = true ∧
       (s.wr (F.GUP_CFG_K 0) 0).rd (F.GUP_CFG_K 0) ≤
         ((s.wr (F.GUP_CFG_K 0) 0).onPool 0 fun q => { q with leftOut := 7 :: q.leftOut }).totalSealed 0) := by decide +kernel

theorem witness_PoolRoundReleases_flat :
    (flatServes closingSt 1 ∧ flatOnce closingSt 1) ∧ flatServes (scrubSt []) 1 ∧ flatOnce (scrubSt []) 1 :=
  ⟨flat_on 1 (by decide +kernel) (by decide +kernel) (by decide +kernel) (by decide +kernel) (by decide +kernel) (by decide +kernel)
    (by decide +kernel),
   flat_on 1 (by decide +kernel) (by decide +kernel) (by decide +kernel) (by decide +kernel) (by decide +kernel) (by decide +kernel)
    (by decide +kernel)⟩

/-- The norm 5 is over the clip of 1: the slot's factor is 1/5 in FP64, rounded once (R301). -/
theorem test_clip : clipFactor 0x3FF0000000000000 0x4039000000000000 = 0x3FC999999999999A := by decide +kernel
/-- The last scrub leads to HELD, or to IDLE after a failure (R300). -/
theorem test_scrub : (after (.slotScrubEnd 0 0) (scrubSt [])).poolSt 0 = 4 ∧ (after (.slotScrubEnd 0 0) (scrubSt [3])).poolSt 0 = 0 := by
  decide +kernel

/-! ### Claush -/

/-- A frame that arrives with these contents. -/
def frameIn (arg : Nat) (data : List Byte) : FrameIn := ⟨0, 0, 0, 0, 3, 0, 1, w64 arg, data⟩

/-- Port 0 in state `st`, up to node 5. -/
def portSt (st : Nat) (s : State) : State :=
  [(F.CLS_PORT_CFG_ENABLED 0, 1), (F.CLS_PORT_CFG_PEER_NODE 0, 5), (F.CLS_PORT_STATUS_PEER_NODE 0, 5), (F.CLS_PORT_STATUS_STATE 0, st),
    (F.CLS_DIE_STATUS_STATE 0, 2), (F.MEM_STATUS_STATE 0, 2)].foldl (fun s p => s.wr p.1 p.2) s

/-- Context 0 with an operation of these words W0 to W4 and this block. -/
def clOpSt (kind : Nat) (w : List Word) (blk : List Byte) : State :=
  ctxRun 0 [{ opOf 1 ([w64 kind, 0, 0] ++ w) with blk := blk }] State.reset

/-- The operation is its engine's to take, and has this kind. -/
def engineCheck (k : Nat) (s : State) : Bool :=
  match s.op? 0 1 with
  | some o => decide (o.kind = k) && o.started && o.done.isNone && s.ctxState 0 = 4 && s.clOps.isEmpty && s.colls.isEmpty
  | none => false

theorem engineOp_of_check {k : Nat} {s : State} (h : engineCheck k s = true) : ∃ o, engineOp 0 1 k o s := by
  unfold engineCheck at h
  split at h
  · rename_i o ho
    simp only [Bool.and_eq_true, decide_eq_true_eq, Option.isNone_iff_eq_none, List.isEmpty_iff] at h
    exact ⟨o, ho, h.1.1.1.1.1, h.1.1.1.1.2, h.1.1.1.2, h.1.1.2, by simp [h.1.2], by simp [h.2]⟩
  · cases h

/-- A put of 64 bytes to node 5, window 2 of context 3. -/
def putWords : List Word := [0, 256, 64, w64 (2 * 2 ^ 20 + 3 * 2 ^ 12 + 5), 0]

theorem witness_PutsGetsAndGrants :
    engineCheck 0x22 (clOpSt 0x22 [4096, 1, 5, w64 (7 * 2 ^ 5 + 1), 0] []) = true ∧
    engineCheck 0x20 (clOpSt 0x20 putWords []) = true ∧ (clOpSt 0x20 putWords []).trunk 5 = [] ∧
    engineCheck 0x20 (portSt 4 (clOpSt 0x20 putWords [])) = true ∧ engineCheck 0x21 (portSt 4 (clOpSt 0x21 putWords [])) = true ∧
    (portSt 4 (clOpSt 0x20 putWords [])).trunk 5 = [0] ∧
    ((portSt 4 (clOpSt 0x20 putWords [])).ctxRead 0 0 64).toOption = some (zs 64) ∧
    SMap.get vcCredits ((portSt 4 (clOpSt 0x20 putWords [])).port 0).credits (frameVc 1) = 64 ∧
    ((portSt 4 (clOpSt 0x20 putWords [])).port 0).waiting = [] ∧ ((portSt 4 (clOpSt 0x20 putWords [])).port 0).unacked = [] ∧
    freeCheck 0 (portSt 4 (clOpSt 0x20 putWords [])) = true := by decide +kernel

/-- A put that was accepted, to a node that no port reaches any more, ends with CL_LINK (R396). -/
theorem test_link_lost :
    (((after (.clPut 0 1) (clOpSt 0x20 putWords [])).op? 0 1).bind (·.done)).map (·.status) = some 0x21 := by decide +kernel

/-- A read-only window of one page refuses a put, and one with the write right takes it (R383). -/
def winSt (rights : Nat) : State :=
  ((portSt 4 (ctxRun 0 [] State.reset)).wr (F.SYN_CTL_VALID 0) 1).onCtx 0 fun x => { x with wins := [(2, ⟨4096, 1, 3, 5, 0, rights⟩)] }

/-- The frame is the port's next one. -/
def takesCheck (st : Nat) (s : State) : Bool :=
  decide (s.rd (F.CLS_PORT_STATUS_STATE 0) = st) && decide ((s.port 0).rxSeq = 0) && (s.port 0).unacked.isEmpty

theorem takes_of_check {h : FrameIn} {s : State} (hs : h.seq = 0) (hc : takesCheck 4 s = true) : takesFrame 0 false h s := by
  simp only [takesCheck, Bool.and_eq_true, decide_eq_true_eq, List.isEmpty_iff] at hc
  exact ⟨.inl hc.1.1, by rw [hs, hc.1.2]; rfl, hc.2⟩

/-- A put of 32 bytes of ones at offset 4,064 of window 2. -/
def putFrame : FrameIn := frameIn (2 * 2 ^ 60 + 4064) (List.replicate 32 1)

/-- Context 0 with a put or a get of 64 bytes of which nothing is confirmed. -/
def outSt (put : Bool) : State := { portSt 4 (clOpSt (if put then 0x20 else 0x21) putWords []) with clOps := [⟨0, 1, 1, 5, put, 0⟩] }

theorem witness_RemoteAccessFrames :
    takesCheck 4 (winSt 2) = true ∧ (winSt 2).ctxState 0 = 4 ∧ (winSt 2).win 0 2 = ⟨4096, 1, 3, 5, 0, 2⟩ ∧
    (winSt 2).winPasses 0 2 5 3 4064 32 1 = true ∧ (winSt 2).winPasses 0 2 5 3 4065 32 1 = false ∧ (winSt 1).winPasses 0 2 5 3 4064 32 1 = false ∧
    (winSt 1).winPasses 0 2 5 3 0 2048 0 = true ∧ (winSt 2).winPasses 0 2 5 3 0 2048 0 = false ∧
    ((winSt 1).ctxRead 0 4096 2048).toOption.isSome = true ∧ ((winSt 6).objectsOf 0)[0]?.isSome = true ∧ (7).testBit 2 = true ∧
    SMap.get vcCredits ((winSt 2).port 0).credits (frameVc 4) = 128 ∧ ((winSt 2).port 0).waiting = [] ∧
    ([true, false].all fun put =>
      takesCheck 4 (outSt put) && decide ((outSt put).clOp? 5 (frameIn 64 (zs 64)) (!put) = none) &&
        decide ((outSt put).clOp? 5 (frameIn 64 (zs 64)) put = some ⟨0, 1, 1, 5, put, 0⟩)) = true ∧
    ((outSt true).op? 0 1).isSome = true ∧ ((winSt 2).port 0).unacked = [] ∧ freeCheck 0 (winSt 2) = true ∧ freeCheck 0 (outSt false) = true := by
  decide +kernel

theorem witness_RemoteAccessFrames_flat : flatServes (winSt 2) 0 ∧ flatOnce (winSt 2) 0 :=
  flat_on 0 (by decide +kernel) (by decide +kernel) (by decide +kernel) (by decide +kernel) (by decide +kernel) (by decide +kernel)
    (by decide +kernel)

/-- The last 32 bytes of a window take a put and one byte further does not (R383). -/
theorem test_window_edge :
    ((after (.putData 0 putFrame) (winSt 2)).flatByte 0 8191) = 1 ∧
      (after (.putData 0 { putFrame with arg := putFrame.arg + 1 }) (winSt 2)).devMem = [] := by decide +kernel

/-- The group of nodes 0 and 5, GID 9, this package at rank 0. -/
def groupBlk : List Byte := leBytes 9 4 ++ [2, 0, 0, 0] ++ leBytes 0 4 ++ leBytes (3 * 4096 + 5) 4 ++ zs 124

/-- A collective of `n` INT32 elements with CSEQ 4 and a timeout. -/
def collSt (kind n : Nat) (root : Nat) : State :=
  portSt 4 (clOpSt kind [0, 8192, w64 (n * 2 ^ 32 + 2 * 2 ^ 30 + root * 2 ^ 22), 0, w64 (4 * 2 ^ 32 + 7 * 2 ^ 16)] groupBlk)

/-- The collective in progress, as it was taken over. -/
def inColl (kind n root : Nat) : State := after (if kind = 0x24 then .reduceScatter 0 1 else .broadcast 0 1) (collSt kind n root)

/-- The state of a collective that was taken over, with its COLL_READY acknowledged. -/
def takenColl (kind n root : Nat) : State := (inColl kind n root).onPort 0 fun x => { x with unacked := [] }

/-- A frame for context 0's collective from node 5. -/
def collFrame (arg : Nat) (data : List Byte) : FrameIn := frameIn arg data

theorem witness_CollectivesRun :
    ([0x23, 0x24, 0x25, 0x26].all fun k => engineCheck k (collSt k 8 1) && engineCheck k ((collSt k 8 1).wr (F.CLS_PORT_STATUS_STATE 0) 0)) =
      true ∧
    (groupMembers groupBlk) = [(0, 0), (5, 3)] ∧ fieldAt groupBlk 4 1 = 2 ∧ (collSt 0x23 8 1).trunk 5 = [0] ∧
    ((collSt 0x23 8 1).wr (F.CLS_PORT_STATUS_STATE 0) 0).trunk 5 = [] ∧ (collSt 0x23 8 1).colls = [] ∧ (collSt 0x23 8 1).readies = [] ∧
    (match (takenColl 0x24 8 1).colls, (takenColl 0x24 8 1).op? 0 1 with
     | [x], some o => takesCheck 4 (takenColl 0x24 8 1) && decide (x.ctx = 0 ∧ x.gid = 9 ∧ x.cseq = 4) && decide (x.rankOf 5 = some 1) &&
         decide (x.ready = []) && decide (o.kind = 0x24 ∧ o.collElem = 2 ∧ o.collOp = 0) && decide (x.have1 1 < segBytes o x.n x.rank) &&
         decide (SMap.get (fun _ => 0) x.chunks 0 = 0) && decide (segBytes o x.n x.rank = 16) && decide (o.timeoutMs = 7) && o.done.isNone &&
         decide (awaited o x = [1]) && !(takenColl 0x24 8 1).lateNode 5 && decide (fieldAt (zs 8) 0 8 ≠ x.params)
     | _, _ => false) = true ∧
    (match (takenColl 0x26 8 1).colls, (takenColl 0x26 8 1).op? 0 1 with
     | [x], some o => decide (o.kind = 0x26 ∧ x.rank = 0 ∧ o.collRoot = 1) && decide (o.collCount * elemBytes o.collElem = 32) &&
         decide (x.have2 1 = 0) && ((takenColl 0x26 8 1).ports.all fun e => (e.2.unacked ++ e.2.waiting).isEmpty) &&
         freeCheck 0 (takenColl 0x26 8 1) && freeCheck 0 (takenColl 0x24 8 1)
     | _, _ => false) = true := by decide +kernel

theorem witness_CollectivesRun_flat : flatServes (takenColl 0x26 8 1) 0 ∧ flatOnce (takenColl 0x26 8 1) 0 :=
  flat_on 0 (by decide +kernel) (by decide +kernel) (by decide +kernel) (by decide +kernel) (by decide +kernel) (by decide +kernel)
    (by decide +kernel)

/-- The last data of a broadcast end it OK (R386), and a segment's contribution is added to the own elements. -/
theorem test_coll_data :
    (((after (.collData 0 (collFrame (4 * 2 ^ 32) (zs 32))) (takenColl 0x26 8 1)).op? 0 1).bind (·.done)).map
        (fun r => (r.status, r.detail)) = some (stOK, 0xFF) ∧
      (after (.collData 0 (collFrame (4 * 2 ^ 32) ([7] ++ zs 15))) (((takenColl 0x24 8 1).ctxWrite 0 0 [255]).1)).flatByte 0 8192 = 6 ∧
      (after (.collData 0 (collFrame (4 * 2 ^ 32) ([7] ++ zs 15))) (((takenColl 0x24 8 1).ctxWrite 0 0 [255]).1)).flatByte 0 8193 = 1 := by
  decide +kernel

/-- Pool 0 with a neighbour: a root of UID 77 whose leaf is node 5, or a leaf whose root is node 0, in this state of round 3. -/
def farPool (scope st : Nat) : State :=
  let s := portSt 4 ((poolIn st 3 State.reset).wr (F.GUP_CFG_SCOPE 0) scope)
  let s := (s.wr (F.GUP_UID_UID 0) 77).wr (F.CLS_PORT_STATUS_PEER_NODE 0) (if scope = 2 then 0 else 5)
  (s.setSlot 0 0 ⟨3, .sealed, 0⟩).onPool 0 fun q => { q with leafSealed := if st = 2 && scope = 1 then [(5, 1)] else [] }

theorem witness_PoolFrames :
    takesCheck 4 (farPool 1 1) = true ∧ takesCheck 4 (farPool 2 1) = true ∧
    (farPool 0 1).poolOf 77 5 1 = none ∧ (farPool 0 1).poolOf 77 5 2 = none ∧
    ((List.range 64).all fun p => !(State.reset.wr (F.CLS_PORT_STATUS_STATE 0) 4).on (F.GUP_CFG_VALID p)) = true ∧
    (farPool 1 1).poolOf 77 5 1 = some 0 ∧ (farPool 1 1).poolSt 0 = 1 ∧ (farPool 1 1).round 0 = 3 ∧
    ((farPool 1 1).onPool 0 fun y => { y with leafSealed := SMap.ins 5 2 y.leafSealed }).totalSealed 0 ≠ (farPool 1 1).nmem 0 ∧
    (farPool 2 1).poolOf 77 0 2 = some 0 ∧ (farPool 2 1).members 0 = 2 ∧ ((farPool 2 1).slot 0 0).st = .sealed ∧
    (farPool 1 2).leafNodes 0 = [5] ∧ ((farPool 1 2).pool 0).leftOut = [] ∧ (farPool 1 2).rd (F.GUP_CFG_LEN 0) = 4 ∧
    (farPool 2 2).rootNode 0 = 0 ∧ (farPool 2 2).poolSt 0 = 2 ∧
    (let s := (farPool 2 2).wr (F.GUP_CFG_LEN 0) 1024
     ceilDiv (s.poolBytes 0) 2048 = 2 ∧ s.resultAt 0 + 2048 ≤ s.range (s.holder 0) ∧ freeCheck (s.holder 0) s = true) ∧
    freeCheck ((farPool 2 1).holder 0) (farPool 2 1) = true := by decide +kernel

theorem witness_PoolFrames_flat :
    flatServes ((farPool 2 2).wr (F.GUP_CFG_LEN 0) 1024) 1 ∧ flatOnce ((farPool 2 2).wr (F.GUP_CFG_LEN 0) 1024) 1 :=
  flat_on 1 (by decide +kernel) (by decide +kernel) (by decide +kernel) (by decide +kernel) (by decide +kernel) (by decide +kernel)
    (by decide +kernel)

/-- A root's failure of the round reaches its leaf (R308). -/
theorem test_gu_fail : (after (.guFail 0 (frameIn 3 (leBytes 77 8))) (farPool 2 2)).poolSt 0 = 3 := by decide +kernel

/-- Port 0 awaits the third message of the exchange. -/
def keyingSt : State :=
  ((portSt 3 State.reset).wr F.CLS_NODE_NODE 9).onPort 0 fun x => { x with step := 2, transcript := zs 200, peerInst := zs 200 }

theorem witness_PortsAndKeys :
    (portSt 0 State.reset).portReady 0 = true ∧ (portSt 0 State.reset).rd (F.CLS_PORT_STATUS_STATE 0) = 0 ∧ State.reset.portReady 0 = false ∧
    (portSt 1 State.reset).rd (F.CLS_PORT_STATUS_STATE 0) = 1 ∧ (portSt 2 State.reset).rd (F.CLS_PORT_STATUS_STATE 0) = 2 ∧
    (portSt 1 State.reset).requester 0 = true ∧ SMap.get vcCredits ((portSt 1 State.reset).port 0).credits (frameVc 0x1E) = 32 ∧
    (portSt 4 State.reset).rd (F.CLS_PORT_STATUS_STATE 0) = 4 ∧ (portSt 4 State.reset).trunk 5 = [0] ∧
    takesCheck 3 keyingSt = true ∧ keyingSt.requester 0 = false ∧ (keyingSt.port 0).step = 2 := by decide +kernel

/-- A lost signal takes a port down with reason SIGNAL (R395). -/
theorem test_signal_loss :
    (after (.portSignalLoss 0) (portSt 4 State.reset)).rd (F.CLS_PORT_STATUS_DOWN_WHY 0) = 1 ∧
      (after (.portSignalLoss 0) (portSt 4 State.reset)).rd (F.CLS_PORT_STATUS_STATE 0) = 0 := by decide +kernel

/-- Port 0 with a frame that is not acknowledged, after `n` replays. -/
def retrySt (n : Nat) : State :=
  (portSt 4 State.reset).onPort 0 fun x =>
    { x with unacked := [⟨1, 0, 0, 0, 0, 0, 0, 0, 0, []⟩], txSeq := 1, replays := n }

/-- The same with an old time of the last acknowledgement. -/
def lateRetry : State := { retrySt 0 with spindle := 100000 * 2 ^ 32 }

/-- A follower of node 5 on port 0, in the ready state. -/
def followSt : State := ([(F.CLS_PORT_CFG_TIME_PARENT 0, 1), (F.GLB_CFG_STATUS_STATE, 1)].foldl (fun s p => s.wr p.1 p.2) (portSt 4 State.reset))

/-- A TIME frame whose peer had our time 1 at its time `there`, sent at `sent`. -/
def timeIn (there sent : Nat) : FrameIn := frameIn sent (leBytes 1 8 ++ leBytes there 8 ++ zs 48)

theorem witness_RetryAndTime :
    (retrySt 14).rd (F.CLS_PORT_STATUS_STATE 0) = 4 ∧ ((retrySt 14).port 0).replays + 1 < 16 ∧ 16 ≤ ((retrySt 15).port 0).replays + 1 ∧
    (((retrySt 0).port 0).unacked.all fun f => !seqUpTo f.seq ((0 + 2 ^ 32 - 1) % 2 ^ 32)) = true ∧
    (retrySt 0).now < ((retrySt 0).port 0).ackAt + 100000 ∧ (lateRetry.port 0).ackAt + 100000 ≤ lateRetry.now ∧
    ((portSt 4 State.reset).port 0).waiting = [] ∧ takesCheck 4 (portSt 4 State.reset) = true ∧
    (((portSt 4 State.reset).now :: ((portSt 4 State.reset).port 0).authFails).length < 4) ∧
    (let s := (portSt 4 State.reset).onPort 0 fun x => { x with authFails := [0, 0, 0] }
     4 ≤ ((s.now :: (s.port 0).authFails).filter fun t => decide (s.now ≤ t + 1000000)).length) ∧
    takesCheck 4 followSt = true ∧ followSt.parentPort = some 0 ∧ followSt.on F.CLS_NODE_TIME_ROOT = false ∧
    followSt.rd F.GLB_CFG_STATUS_STATE = 1 ∧ followSt.measure (frameIn 0 (zs 64)) = none ∧
    (followSt.measure (timeIn 1000000 1000001)).map (·.2) = some 1000000 ∧
    (followSt.measure (timeIn 1000002 1000003)).map (·.2) = some 1000002 ∧
    SMap.get vcCredits ((portSt 4 State.reset).port 0).credits (frameVc 0x18) = 32 := by decide +kernel

/-- At an offset of 1 ms a ready follower slews, beyond it runs free; its time is not stepped (R391, R392). -/
theorem test_follow :
    (after (.timeFrame 0 (timeIn 1000000 1000001)) followSt).rd F.CLS_TIME_FAR = 0 ∧
      (after (.timeFrame 0 (timeIn 1000002 1000003)) followSt).rd F.CLS_TIME_FAR = 1 ∧
      (after (.timeFrame 0 (timeIn 1000002 1000003)) followSt).spindle = followSt.spindle := by decide +kernel

/-! ### Die-to-die links and sites -/

/-- Bundle `b` in state `st` with its modules in state `k` at full width, and roll call step `step`. -/
def bdlSt (b st k step : Nat) : State :=
  (((bundleMods b).foldl (fun s m => (s.wr (F.D2D_MOD_STATUS_STATE m) k).wr (F.D2D_MOD_STATUS_WIDTH m) 3) State.reset).wr
    (F.D2D_BDL_STATUS_STATE b) st).onBdl b fun x => { x with step := step, nonce := zs 8 }

/-- An identity record of a site's die (R318): revision 2, the clean flags, vendor 0x1234, device 7, eight modules. -/
def identRec : List Byte :=
  let r : List Byte := [1, 3, 2, 14] ++ leBytes 0x1234 2 ++ leBytes 7 2 ++ leBytes 99 8 ++ zs 8 ++ [8, 0] ++ leBytes 60 2 ++ zs 32
  r ++ leBytes (crc32 r) 4

/-- Site 0's die has been asked who it is. -/
def askedSt : State :=
  [(F.CHK_EXPECT_VENDOR 0, 0x1234), (F.CHK_EXPECT_DEVICE 0, 7), (F.CHK_EXPECT_REV_MIN 0, 2), (F.CHK_EXPECT_REV_MAX 0, 2)].foldl
    (fun s p => s.wr p.1 p.2) (bdlSt 10 2 2 1)

/-- A module that may be repaired. -/
def laneSt (spare lost : Nat) : State := ((bdlSt 0 1 2 3).wr (F.D2D_MOD_REPAIR_TX_LO 0) spare).wr (F.D2D_MOD_REPAIR_HALF_LOST 0) lost

theorem witness_DieLinks :
    (let s := bdlSt 0 1 1 0
     bundleOf 0 = 0 ∧ s.modState 0 = 1 ∧ untilReset (s.fenceWhy 0) = false ∧ s.rd (F.D2D_BDL_STATUS_STATE 0) = 1 ∧ (s.bdl 0).step = 0 ∧
       s.rd F.GLB_CFG_STATUS_STATE ≠ 1 ∧ (s.mod 0).tried = false ∧ (s.bdl 0).due = 0 ∧
       (let t := (s.onBdl 0 fun x => { x with step := 2, ident := identRec }).onMod 0 fun x => { x with tried := true }
        2 ≤ (t.bdl 0).step ∧ (t.mod 0).tried = true ∧ SMap.get (fun _ => 0) t.saved.training 0 ≠ fieldAt (t.bdl 0).ident 8 8 + 1) ∧
       (s.wr (F.D2D_BDL_STATUS_STATE 0) 2).rd (F.D2D_BDL_STATUS_STATE 0) ≠ 1 ∧
       ((s.onMod 0 fun x => { x with tried := true }).mod 0).tried = true ∧
       untilReset ((s.wr (F.D2D_BDL_STATUS_FENCE_WHY 0) 2).fenceWhy 0) = true ∧ (s.wr (F.D2D_BDL_STATUS_FENCE_WHY 0) 4).fenceWhy 0 = 4) ∧
    (laneSt 1 0).modState 0 = 2 ∧ (laneSt 1 0).rd (F.D2D_BDL_STATUS_STATE 0) ≠ 3 ∧ (laneSt 1 0).rd (spareFld 0 3) = 1 ∧
    (laneSt 2 0).rd (spareFld 0 3) = 2 ∧ ((laneSt 2 0).rd (F.D2D_MOD_REPAIR_HALF_LOST 0)).testBit 3 = false ∧
    (laneSt 0 0).rd (F.D2D_MOD_REPAIR_CLK_SPARE 0) = 0 ∧
    ((laneSt 0 0).wr (F.D2D_MOD_REPAIR_CLK_SPARE 0) 1).rd (F.D2D_MOD_REPAIR_CLK_SPARE 0) ≠ 0 ∧
    (askedSt.bdl 10).step = 1 ∧ askedSt.identOk 10 identRec = true ∧ askedSt.identOk 10 (zs 64) = false ∧
    ((bundleMods 10).any fun m => askedSt.modState m = 2) = true ∧ ((bundleMods 10).all fun m => !(askedSt.mod m).tried) = true ∧
    (let s := bdlSt 0 2 2 2
     (s.bdl 0).step = 2 ∧ s.rolesWord 0 = 0x555555 ∧ s.imageMin 0 ≤ s.halves 0 ∧ (s.ownersOf 0).isEmpty = true ∧
       ((List.range 64).all fun p => !s.on (F.GUP_CFG_VALID p)) = true ∧ ((bundleMods 0).any fun m => s.modState m = 2) = true) ∧
    (let s := bdlSt 8 3 2 3
     s.emptyBundle 8 = false ∧ s.classOf 0x0601 = 0 ∧ ((diePorts 0).all fun q => decide (s.rd (F.CLS_PORT_STATUS_STATE q) ≠ 4)) = true) ∧
    (let s := (State.reset.wr (F.CHK_STATUS_STATE 0) 2).onSite 0 fun y => { y with step := 1 }
     s.rd (F.CHK_STATUS_STATE 0) = 2 ∧ (s.site 0).step = 1 ∧ (s.site 0).fragSeq = 0 ∧ s.image = none) := by decide +kernel

/-- Whether an answer passes is the standard's and the signature's to say; at step 1 the form alone counts. -/
theorem witness_DieLinks_spdm (s : State) (msg : List Byte) :
    s.siteAnswerOk 0 1 [] msg = Config.siteAnswers 1 msg ∧
      s.siteAnswerOk 0 7 [] msg = (Config.siteAnswers 7 msg && (Config.siteSigned (s.site 0).talk (s.site 0).nonce msg && true)) := by
  constructor
  · simp [State.siteAnswerOk]
  · simp [State.siteAnswerOk, allZero, slice]

/-- A lane without a spare left costs its half (R331), and a wrong identity fences the die with reason 2 (R319). -/
theorem test_lane_and_ident :
    (after (.laneFailed 0 5 false) (laneSt 2 0)).rd (F.D2D_MOD_STATUS_WIDTH 0) = 2 ∧
      (after (.rcIdent 10 (zs 64)) askedSt).rd (F.D2D_BDL_STATUS_FENCE_WHY 10) = 2 := by decide +kernel

/-- Window 0 of site 0: site pages 16 and 17 onto pages 1 and 2 of context 0, with these rights. -/
def siteSt (rights active : Nat) : State :=
  [(F.CHK_STATUS_STATE 0, 3), (F.CHK_CFG_KINDS 0, 15), (F.CHK_WIN_A_VALID 0 0, 1), (F.CHK_WIN_A_ACTIVE 0 0, active), (F.CHK_WIN_A_RIGHTS 0 0, rights),
    (F.CHK_WIN_A_OWNER 0 0, 0), (F.CHK_WIN_A_SITE_BASE 0 0, 16), (F.CHK_WIN_B_LEN_PAGES 0 0, 2), (F.CHK_WIN_B_CTX_BASE 0 0, 1),
    (F.MEM_STATUS_STATE 0, 2)].foldl (fun s p => s.wr p.1 p.2) (ctxRun 0 [] State.reset)

/-- A request of `n` bytes at this address: ones, or an ADD of 5 to a 32-bit word, or a signal of 5. -/
def siteReq (a n : Nat) : SiteReq := ⟨0, 9, BitVec.ofNat 48 a, n, 0, 2, 5, 0, List.replicate n 1, false⟩

/-- The window that a request passes, or the cause of its refusal plus 100. -/
def siteSays (k : SiteKind) (q : SiteReq) (s : State) : Nat := match s.siteCheck k q with | .ok w => w | .error e => 100 + e

/-- Each cause of R327 at an edge of the window, and the last bytes that pass. -/
theorem witness_SiteRequests :
    State.reset.siteAdmitted 0 = false ∧ (siteSt 15 1).siteAdmitted 0 = true ∧ (siteSt 15 1).siteHeld 0 = 0 ∧
    (siteSt 15 1).rd F.PWR_STATUS_STATE = 0 ∧ (siteSt 15 1).classOf 0x0602 = 0 ∧ (siteSt 15 1).on (F.CHK_CFG_FENCE_ON_VIOL 0) = false ∧
    siteSays .rd (siteReq 0xFFE0 32) (siteSt 15 1) = 101 ∧ siteSays .wr (siteReq 0x10000 32) (siteSt 1 1) = 102 ∧
    siteSays .rd (siteReq 0x10000 32) (siteSt 15 0) = 103 ∧
    siteSays .rd (siteReq 0x10000 32) ((siteSt 15 1).wr (F.CHK_CFG_KINDS 0) 14) = 104 ∧
    siteSays .rd (siteReq 0x11FE0 64) (siteSt 15 1) = 105 ∧ siteSays .rd (siteReq 0x10060 64) (siteSt 15 1) = 106 ∧
    siteSays .rd (siteReq 0x11FE0 32) (siteSt 15 1) = 0 ∧ siteSays .wr (siteReq 0x11F80 128) (siteSt 15 1) = 0 ∧
    siteSays .atom (siteReq 0x10000 4) (siteSt 15 1) = 0 ∧ siteSays .signal (siteReq 0x10000 4) (siteSt 15 1) = 0 ∧
    (siteSt 15 1).notifyObj 0 0 = none ∧ (((siteSt 15 1).wr (F.SYN_CTL_VALID 0) 1).notifyObj 0 0).isSome = true ∧
    ([SiteKind.rd, .wr, .atom, .signal].all fun k => (siteDraw 0 0 k 0 0 128 (siteSt 15 1)).toOption.isSome) = true ∧
    (siteSt 15 1).areaHeld 0 [(4096, 128)] = false ∧
    ((siteSt 15 1).wr (F.CHK_CFG_FENCE_ON_VIOL 0) 1).on (F.CHK_CFG_FENCE_ON_VIOL 0) = true := by decide +kernel

theorem witness_SiteRequests_flat : flatServes (siteSt 15 1) 0 ∧ flatOnce (siteSt 15 1) 0 :=
  flat_on 0 (by decide +kernel) (by decide +kernel) (by decide +kernel) (by decide +kernel) (by decide +kernel) (by decide +kernel)
    (by decide +kernel)

/-- A write through the window lands at the owner's page 1 (R325). -/
theorem test_site_write : (after (.siteWr (siteReq 0x10000 1)) (siteSt 15 1)).flatByte 0 4096 = 1 := by decide +kernel

/-! ### Role commands -/

/-- A signature pair with PARAM 1 in form, of the key with this KEY_ID. -/
def pairSig (key : List Byte) : List Byte := [1, 0, 0, 0] ++ leBytes 16664 4 ++ key ++ zs 16608

/-- The KEY_ID of a role: the installer's is of ones, the operator's of twos, the maker's of threes. -/
def roleKey (role : Nat) : List Byte := List.replicate 48 (byte (if role = 2 then 1 else if role = 3 then 2 else 3))

/-- A signed command of a role, with serial 0 and the live challenge. -/
def signedCmd (role : Fin 4) (args : List Byte) : RoleCmd := ⟨true, role, 0, zs 32, args, pairSig (roleKey role.val)⟩

/-- Heartwood runs in life-cycle state `lc`, with an installer in slot 0, an operator 0, a challenge and the alias pair. -/
def roleSt (lc : Nat) : State :=
  let s := [(F.LCS_STATUS_STATE, lc), (F.GLB_CFG_STATUS_STATE, 1), (F.CTX_CFG_DEFINED 0, 1), (F.CTX_CFG_PARTITION 0, 0), (F.SCH_STATUS_STATE 0, 2),
    (F.CTX_CFG_DEFINED 1, 1), (F.CTX_STATE_STATE 1, 2)].foldl (fun s p => s.wr p.1 p.2) State.reset
  { s with boot := { s.boot with held := false }, otp := (List.range 48).map fun i => (0x40 + i, 1),
           hw := { s.hw with challenges := [⟨zs 32, 0⟩], aliasOk := true },
           saved := { s.saved with operators := [(0, roleKey 3)], opInst := roleKey 2, opEpoch := 0 },
           image := some ⟨false, 1, 3, zs 48, [], [], 0, [], [], [], []⟩ }

/-- Code, role, life-cycle state and arguments of each signed row that needs no object of the maker's. -/
def signedRows : List (Nat × Fin 4 × Nat × List Byte) :=
  [(0x10, 1, 0, [1]), (0x11, 1, 4, [1]), (0x12, 1, 1, []), (0x13, 1, 1, []), (0x21, 2, 2, []), (0x22, 2, 2, [1] ++ leBytes 1024 4 ++ zs 48),
   (0x25, 2, 2, []), (0x26, 2, 2, []), (0x27, 2, 2, [1] ++ zs 439 ++ [7]), (0x28, 2, 2, [7]), (0x30, 3, 2, [0]), (0x31, 3, 2, [1]),
   (0x32, 3, 2, zs 8), (0x32, 3, 2, [1] ++ zs 7), (0x33, 3, 2, zs 6 ++ [1, 0]), (0x34, 3, 2, zs 34)]

/-- What a row asks beside its signer and its signature. -/
def rowCheck (x : Nat × Fin 4 × Nat × List Byte) : Bool :=
  let s := roleSt x.2.2.1
  let c := signedCmd x.2.1 x.2.2.2
  !s.roleWaits c && argsOk s.lc x.1 c.args && decide (s.step2 x.1 c = 0) && decide (s.step3 x.1 c.role.val = 0) &&
    (decide (x.2.1 = 1) || s.step4 x.1 c) && decide (s.step6 x.1 c = (0, 0))

theorem zs_length (n : Nat) : (zs n).length = n := List.length_replicate ..

theorem pairSig_length (role : Nat) : (pairSig (roleKey role)).length = 16664 := by
  have hk : (roleKey role).length = 48 := List.length_replicate ..
  have h8 : ([1, 0, 0, 0] ++ leBytes 16664 4 : List Byte).length = 8 := rfl
  rw [pairSig, List.length_append, List.length_append, h8, hk, zs_length]

theorem formatOk_signed {s : State} {code : Nat} {role : Fin 4} {args : List Byte} (hr : role.val ≠ 0)
    (ha : argsOk s.lc code args = true) : s.formatOk code (signedCmd role args) = true := by
  have h : pairLenOf (pairSig (roleKey role.val)) = 16664 := rfl
  simp [State.formatOk, signedCmd, ha, hr, h, pairSig_length, zs]

/-- A signed command that passes everything but its signature is accepted once the signature verifies. -/
theorem accepts_of {s : State} {code : Nat} {role : Fin 4} {args : List Byte} (hr : role.val ≠ 0)
    (hw : s.roleWaits (signedCmd role args) = false) (ha : argsOk s.lc code args = true) (h2 : s.step2 code (signedCmd role args) = 0)
    (h3 : s.step3 code role.val = 0) (h4 : s.step4 code (signedCmd role args) = true) (h5 : step5 code (signedCmd role args) = true)
    (h6 : s.step6 code (signedCmd role args) = (0, 0)) : roleAccepts code (signedCmd role args) s := by
  refine ⟨hw, ?_⟩
  have h3' : s.step3 code (signedCmd role args).role.val = 0 := h3
  simp [State.judge, formatOk_signed hr ha, h2, h3', h4, h5, h6]

theorem signedRows_check : signedRows.all rowCheck = true := by decide +kernel

/-- Every signed row is accepted when its signature verifies, and for the maker's rows when the key is a ROM key: both are what
the spec leaves to the keys (log entry 2). -/
theorem witness_RoleCommandsAct (x : Nat × Fin 4 × Nat × List Byte) (hx : x ∈ signedRows)
    (h1 : x.2.1 = 1 → (roleSt x.2.2.1).makerOk (roleKey 1) = true) (h5 : step5 x.1 (signedCmd x.2.1 x.2.2.2) = true) :
    roleAccepts x.1 (signedCmd x.2.1 x.2.2.2) (roleSt x.2.2.1) := by
  have h := List.all_eq_true.1 signedRows_check x hx
  simp only [rowCheck, Bool.and_eq_true, decide_eq_true_eq, Bool.or_eq_true, Bool.not_eq_true'] at h
  obtain ⟨⟨⟨⟨⟨hw, ha⟩, h2⟩, h3⟩, h4⟩, h6⟩ := h
  have hr : x.2.1.val ≠ 0 := by
    have : signedRows.all (fun y => decide (y.2.1.val ≠ 0)) = true := by decide
    simpa using List.all_eq_true.1 this x hx
  refine accepts_of hr hw ha h2 h3 ?_ h5 h6
  rcases h4 with h4 | h4
  · have hk : pairKey (pairSig (roleKey 1)) = roleKey 1 := by decide +kernel
    have hm : (signedCmd x.2.1 x.2.2.2).role.val = 1 := by show x.2.1.val = 1; rw [h4]; rfl
    have hs : (signedCmd x.2.1 x.2.2.2).sig = pairSig (roleKey 1) := by show pairSig (roleKey x.2.1.val) = _; rw [h4]; rfl
    simp [State.step4, hm, hs, hk, h1 h4]
  · exact h4

/-- CLAIM and STAGE_COMMIT carry, or follow, an object that the maker signs: they are accepted once that object passes. -/
theorem witness_RoleCommandsAct_objects (args : List Byte) (x : Staging) (s : State) (hs : s.lc = 2)
    (ha : argsOk 2 0x20 args = true) (hw : ∀ a, s.roleWaits (signedCmd 2 a) = false) (h2 : ∀ k a, s.step2 k (signedCmd 2 a) = 0)
    (h5 : ∀ k a, step5 k (signedCmd 2 a) = true) (h4 : ∀ k a, s.step4 k (signedCmd 2 a) = true) (hc : s.claimCheck args = 0)
    (hx : s.hw.staging = some x) (hm : x.mctp = true) (hp : s.on F.PWR_STATUS_PADS_HELD = false) (hk : s.commitCheck x = 0) :
    roleAccepts 0x20 (signedCmd 2 args) s ∧ roleAccepts 0x24 (signedCmd 2 []) s := by
  refine ⟨accepts_of (by decide) (hw _) (by rw [hs]; exact ha) (h2 _ _) ?_ (h4 _ _) (h5 _ _) ?_,
    accepts_of (by decide) (hw _) (by simp [argsOk]) (h2 _ _) ?_ (h4 _ _) (h5 _ _) ?_⟩
  · simp [State.step3, rightOk, hs]
  · simp [State.step6, signedCmd, hc]
  · simp [State.step3, rightOk, hs]
  · simp [State.step6, signedCmd, hx, hm, hp, hk]

/-- An unsigned command. -/
def freeCmd (chal args : List Byte) : RoleCmd := ⟨true, 0, 0, chal, args, []⟩

/-- The device with a staging session 5 over MCTP on bank 1. -/
def sessionSt : State := { roleSt 2 with hw := { (roleSt 2).hw with staging := some ⟨5, true, 1, 1024, zs 48, 0⟩ } }

theorem witness_RoleCommandsAct_free :
    roleAccepts 1 (freeCmd (zs 32) []) (roleSt 2) ∧ roleAccepts 1 (freeCmd (zs 32) [1]) (roleSt 2) ∧ (roleSt 2).hw.debugChal = none ∧
    roleAccepts 2 (freeCmd (zs 32) []) (roleSt 4) ∧ roleAccepts 3 (freeCmd (zs 32) [1]) (roleSt 1) ∧
    roleAccepts 0x23 (freeCmd ([5] ++ zs 31) (leBytes 1020 4 ++ [1, 2, 3, 4])) sessionSt := by
  refine ⟨⟨?_, ?_⟩, ⟨?_, ?_⟩, ?_, ⟨?_, ?_⟩, ⟨?_, ?_⟩, ?_, ?_⟩ <;> decide +kernel

/-- The other hypotheses of the effects: nothing runs, a full move, an exit, and an installer's slot. -/
theorem witness_RoleCommandsAct_states :
    ((List.range 256).all fun c => decide (State.reset.ctxState c = 0)) = true ∧
    ((List.range 64).all fun p => !State.reset.on (F.GUP_CFG_VALID p)) = true ∧
    ((List.range 32).all fun q => decide (State.reset.rd (F.CLS_PORT_STATUS_STATE q) ≠ 4)) = true ∧ State.reset.clearingCtxs = [] ∧
    (roleSt 2).power.move = none ∧ (powerArgs (zs 8)).1 = (roleSt 2).rd F.PWR_STATUS_STATE ∧ (powerArgs ([1] ++ zs 7)).1 = 1 ∧
    (roleSt 2).on F.TLS_ROT_BUSY = false ∧ (roleSt 2).curSlot = some 0 ∧ sessionSt.hw.staging.isSome = true ∧
    (roleSt 2).endable 1 = false ∧ (roleSt 2).ctxState 1 = 2 ∧ SMap.wf (fun _ => 0) (roleSt 2).otp = true := by decide +kernel

/-- The first byte behind the length of the staging session is refused with BAD_FORMAT (R423). -/
theorem test_stage_beyond :
    (after (.stageWrite (freeCmd ([5] ++ zs 31) (leBytes 1021 4 ++ [1, 2, 3, 4]))) sessionSt).rd F.MBX_STATUS_LAST_STATUS = 1 ∧
      SMap.get (fun _ => 0xFF) (after (.stageWrite (freeCmd ([5] ++ zs 31) (leBytes 1020 4 ++ [1, 2, 3, 4]))) sessionSt).flash 0x070003FF = 4 := by
  decide +kernel

/-- Each refusal of R416 by a command that reaches it: form, serial, challenge, life cycle, right, signer, signature. -/
theorem witness_RoleCommandsJudged :
    (roleSt 2).roleWaits (freeCmd [] []) = false ∧ State.reset.roleWaits (freeCmd [] []) = true ∧
    (roleSt 2).formatOk 1 (freeCmd [] []) = false ∧
    (roleSt 2).formatOk 1 { freeCmd (zs 32) [] with serial := 5 } = true ∧ (roleSt 2).serial = 0 ∧
    (roleSt 2).challengeLive (zs 32) = true ∧ (roleSt 2).challengeLive ([1] ++ zs 31) = false ∧
    (roleSt 4).formatOk 3 (freeCmd (zs 32) [0]) = true ∧ (roleSt 4).step2 3 (freeCmd (zs 32) [0]) = 0 ∧ (roleSt 4).lc = 4 ∧
    rightOk 0 3 0 = false ∧ (roleSt 0).step2 3 (freeCmd (zs 32) [0]) = 0 ∧
    (roleSt 2).step2 0x26 (signedCmd 2 []) = 0 ∧ rightOk 2 0x26 2 = true ∧ (roleSt 2).step4 0x26 (signedCmd 2 []) = true ∧
    ({ roleSt 2 with otp := [] } : State).step4 0x26 (signedCmd 2 []) = false := by decide +kernel

/-- A pair whose length field is wrong. -/
def badSig : List Byte := [1, 0, 0, 0] ++ leBytes 16665 4 ++ roleKey 2 ++ zs 16608

/-- It does not verify, whatever the keys. -/
theorem witness_RoleCommandsJudged_signature :
    (roleSt 2).formatOk 0x26 { signedCmd 2 [] with sig := badSig } = true ∧ step5 0x26 { signedCmd 2 [] with sig := badSig } = false := by
  have h : fieldAt badSig 4 4 = 16665 := by decide +kernel
  have hp : pairLenOf badSig = 16664 := rfl
  have hl : badSig.length = 16664 := by
    have hk : (roleKey 2).length = 48 := List.length_replicate ..
    have h8 : ([1, 0, 0, 0] ++ leBytes 16665 4 : List Byte).length = 8 := rfl
    rw [badSig, List.length_append, List.length_append, h8, hk, zs_length]
  have ha : argsOk (roleSt 2).lc 0x26 [] = true := by decide +kernel
  constructor
  · simp [State.formatOk, signedCmd, ha, hp, hl, zs]
  · simp [step5, pairGood, signedCmd, h, hl]

/-- GET_CHALLENGE waits in slot 0 of the ring. -/
def ringCmd : State :=
  { (roleSt 2).wr F.MBX_CMD_TAIL_TAIL 1 with mbx := [(0x20000, 1), (0x20003, 1), (0x20004, 64)] }

theorem slotBytesAt_slice (s : State) {i n m : Nat} (h : i + n ≤ m) :
    slice (s.slotBytesAt 0 m) i n = (List.range n).map fun j => SMap.get (fun _ => 0) s.mbx (0x20000 + (i + j)) := by
  have hl : (s.slotBytesAt 0 m).length = m := by simp [State.slotBytesAt]
  have e : ((s.slotBytesAt 0 m).drop i).take n = (List.range n).map fun j => SMap.get (fun _ => 0) s.mbx (0x20000 + (i + j)) := by
    apply List.ext_getElem
    · simp [hl]; omega
    · intro k h1 h2
      simp [State.slotBytesAt]
  rw [slice]
  simp [e]

theorem witness_RoleCommandsJudged_ring : (parseCommand false (ringCmd.slotBytesAt 0 65536)).2.2 = true ∧
    (parseCommand false (ringCmd.slotBytesAt 0 65536)).1 = 1 := by
  have hl : (ringCmd.slotBytesAt 0 65536).length = 65536 := by simp [State.slotBytesAt]
  have f : ∀ i n, i + n ≤ 65536 → fieldAt (ringCmd.slotBytesAt 0 65536) i n =
      leNat ((List.range n).map fun j => SMap.get (fun _ => 0) ringCmd.mbx (0x20000 + (i + j))) := fun i n h => by
    rw [fieldAt, slotBytesAt_slice _ h]
  have h1 := f 3 1 (by omega)
  have h2 := f 2 1 (by omega)
  have h3 := f 0x34 12 (by omega)
  have h4 := f 0x30 4 (by omega)
  have h5 := f 4 4 (by omega)
  have h6 := f 0 2 (by omega)
  have e1 : leNat ((List.range 1).map fun j => SMap.get (fun _ => 0) ringCmd.mbx (0x20000 + (3 + j))) = 1 := by decide +kernel
  have e2 : leNat ((List.range 1).map fun j => SMap.get (fun _ => 0) ringCmd.mbx (0x20000 + (2 + j))) = 0 := by decide +kernel
  have e3 : leNat ((List.range 12).map fun j => SMap.get (fun _ => 0) ringCmd.mbx (0x20000 + (0x34 + j))) = 0 := by decide +kernel
  have e4 : leNat ((List.range 4).map fun j => SMap.get (fun _ => 0) ringCmd.mbx (0x20000 + (0x30 + j))) = 0 := by decide +kernel
  have e5 : leNat ((List.range 4).map fun j => SMap.get (fun _ => 0) ringCmd.mbx (0x20000 + (4 + j))) = 64 := by decide +kernel
  have e6 : leNat ((List.range 2).map fun j => SMap.get (fun _ => 0) ringCmd.mbx (0x20000 + (0 + j))) = 1 := by decide +kernel
  rw [e1] at h1; rw [e2] at h2; rw [e3] at h3; rw [e4] at h4; rw [e5] at h5; rw [e6] at h6
  constructor
  · simp [parseCommand, h1, h2, h3, h4, h5, hl]
  · simp [parseCommand, h6]

/-- An empty slot holds no command, and nothing keeps it waiting. -/
theorem witness_RoleCommandsJudged_unformed :
    (parseCommand false ((roleSt 2).slotBytesAt 0 65536)).2.2 = false ∧ ∀ c : RoleCmd, c.mctp = false → (roleSt 2).roleWaits c = false := by
  have h1 : fieldAt ((roleSt 2).slotBytesAt 0 65536) 3 1 = 0 := by
    rw [fieldAt, slotBytesAt_slice _ (by omega)]; decide +kernel
  refine ⟨by simp [parseCommand, h1], fun c hc => ?_⟩
  have e1 : (roleSt 2).hwdUp = true := by decide +kernel
  have e2 : (roleSt 2).on F.MBX_STATUS_BUSY = false := by decide +kernel
  have e3 : (roleSt 2).hw.aliasOk = true := by decide +kernel
  simp [State.roleWaits, hc, pathFld, e1, e2, e3]

/-- The mailbox and the other events: one command waits, the alias pair is to be derived, and a channel of context 0 clears. -/
theorem witness_RoleCommandsJudged_events :
    (let s := ringCmd
     s.hwdUp = true ∧ s.hw.dbg = none ∧ s.hw.wiping = none ∧ s.on F.MBX_STATUS_BUSY = false ∧ s.rd F.MBX_CMD_HEAD_HEAD = 0 ∧
       s.rd F.MBX_CMD_TAIL_TAIL = 1) ∧
    ((roleSt 2).wr F.MBX_CMD_TAIL_TAIL 5).rd F.MBX_CMD_TAIL_TAIL = 5 ∧
    ({ roleSt 2 with hw := { (roleSt 2).hw with keysOk := true, aliasOk := false } } : State).hwdUp = true ∧
    sessionSt.now < 0 + 600000000000 ∧ (0 : Nat) + 600000000000 ≤ ({ sessionSt with spindle := 600000000000 * 2 ^ 32 } : State).now ∧
    (let s := ((State.reset.wr (F.CTX_STATE_STATE 0) 1).onChan 0 fun x => { x with clearing := true }).onCtx 0 fun x => { x with chans := [0] }
     (s.chan 0).clearing = true ∧ s.ctxState 0 = 1) := by decide +kernel

/-- GET_CHALLENGE with arguments that are not its own is refused with BAD_FORMAT and counted (R416, R417). -/
theorem test_bad_format :
    (after (.getChallenge (freeCmd (zs 32) [2])) (roleSt 2)).rd F.MBX_STATUS_LAST_STATUS = 1 ∧
      (after (.getChallenge (freeCmd (zs 32) [2])) (roleSt 2)).rd F.HWD_COUNT_REFUSED = 1 := by decide +kernel

/-! ### SPDM and MCTP -/

/-- A request outside a session, or inside session 7. -/
def spdmReq (ses : Option Nat) (body : List Byte) : SpdmReq := ⟨false, ses, body⟩

/-- The responder behind a whole negotiation on the DOE mailbox, with `n` sessions. -/
def negotiated (n : Nat) : State :=
  { (roleSt 2).onTalk false (fun t => { t with versioned := true, capable := true, negotiated := true }) with
    sessions := (List.range n).map fun k => ⟨7 + k, false, [], 0, 0, none⟩ }

theorem witness_SpdmRequests :
    State.reset.spdmUp = false ∧ (roleSt 2).spdmUp = true ∧ (roleSt 2).inOpen (spdmReq (some 7) []) = false ∧
    (roleSt 2).talk false = Spdm.init ∧ (negotiated 1).spdmUp = true ∧ (negotiated 1).inOpen (spdmReq (some 7) []) = true ∧
    (negotiated 4).inOpen (spdmReq none []) = true ∧
    ((negotiated 1).talk false).versioned = true ∧ ((negotiated 1).talk false).capable = true ∧
    ((negotiated 1).talk false).negotiated = true ∧ (negotiated 3).sessions.length = 3 ∧ (negotiated 4).sessions.length = 4 ∧
    fieldAt [1] 0 1 = 1 ∧ fieldAt [2] 0 1 = 2 ∧ fieldAt [1, 0] 2 2 = 0 ∧
    ((negotiated 1).on F.HWD_STATUS_TRIAL) = false ∧
    (((negotiated 1).wr F.HWD_STATUS_TRIAL 1).wr F.GLB_CFG_STATUS_STATE 0).on F.HWD_STATUS_TRIAL = true ∧ measIndices.contains 0x40 = true ∧
    State.reset.hwdUp = false ∧ (roleSt 2).hwdUp = true ∧ fieldAt [5, 0x12, 0x84] 0 1 = 5 ∧ fieldAt ([5, 0x12, 0x84].drop 1) 1 1 = 0x84 ∧
    slice [0x7E, 0x1E, 0x9C] 1 2 = [0x1E, 0x9C] ∧
    (parseCommand true (([0x7E, 0x1E, 0x9C] ++ [1, 0, 0, 1] ++ leBytes 64 4 ++ zs 56).drop 3)).2.2 = true := by decide +kernel

/-- A fifth session is refused as busy (R359). -/
theorem test_fifth_session :
    (after (.keyExchange (spdmReq none (zs 4))) (negotiated 4)).outbox = [.doeObject false [0x12, 0x7F, 0x0A, 0]] := by decide +kernel

/-! ### Faults and the black box -/

/-- A fault report that names these contexts and this partition. -/
def faultIn (code : Nat) (cs : List CtxId) (p : Option PartId) : FaultRep := ⟨BitVec.ofNat 16 code, 0x0100, cs, p, 0, 0, []⟩

/-- Partition 0 defined and running, with context 0 in RUN; the device is ready. -/
def runningSt : State :=
  [(F.GLB_CFG_STATUS_STATE, 1), (F.CTX_PART_VALID 0, 1), (F.CTX_PART_GROUPS 0, 1), (F.SCH_STATUS_STATE 0, 1), (F.CTX_STATE_STATE 0, 4),
    (F.CTX_CFG_DEFINED 0, 1)].foldl (fun s p => s.wr p.1 p.2) State.reset

/-- The conditions of a fault of this code that would end context 0. -/
def endsCheck (code : Nat) (s : State) : Bool :=
  decide (s.classOf code = 1) && !s.stopped && s.endable 0 && decide (s.rd (F.SCH_STATUS_STATE (s.partOf 0)) ≠ 4) &&
    decide (s.rd F.PWR_STATUS_STATE = 0)

theorem witness_FaultsAreActedOn :
    State.reset.classOf 0x0201 = 0 ∧ State.reset.classOf 0x0001 = 1 ∧ State.reset.classOf 0x0301 = 2 ∧ State.reset.classOf 0x0401 = 3 ∧
    State.reset.classOf 0x0503 = 4 ∧ State.reset.stopped = false ∧ endsCheck 0x0001 runningSt = true ∧
    reportTile { faultIn 0x0201 [] none with source := BitVec.ofNat 16 (srcTile 5) } = some 5 ∧
    reportTile { faultIn 0x0011 [] none with source := BitVec.ofNat 16 (srcTile 5) } = some 5 ∧
    ((State.reset.wr (F.TLS_POLICY_CODE 1) 0x0011).wr (F.TLS_POLICY_CLASS 1) 0).classOf 0x0011 = 0 ∧
    runningSt.rd (F.SCH_STATUS_STATE 0) = 1 ∧ runningSt.rd F.GLB_CFG_STATUS_STATE = 1 ∧ (runningSt.part 0).resets = [] ∧
    (let s := (runningSt.wr (F.CTX_STATE_STATE 0) 0).onPart 0 fun x => { x with resets := [0, 0, 0] }
     3 ≤ ((s.part 0).resets.filter fun t => decide (s.now ≤ t + 60000000000)).length ∧ ((s.boundTo 0).all fun c => !s.endable c) = true) ∧
    ((List.range 256).all fun c => !State.reset.endable c) = true ∧ State.reset.linkUp = false ∧
    (let s := State.reset.wr F.GLB_HEP_STATUS_LINK_UP 1; ({ s with pins := { s.pins with perstN := true } } : State).linkUp) = true ∧ State.reset.classOf 0x0303 = 3 ∧ State.reset.classOf 0x0304 = 0 ∧
    State.reset.classOf 0x0701 = 3 ∧ State.reset.classOf 0x0502 = 3 ∧ State.reset.classOf 0x0504 = 4 ∧
    ((State.reset.wr (F.TLS_POLICY_CODE 0) 0x0501).wr (F.TLS_POLICY_CLASS 0) 0).classOf 0x0501 = 0 := by decide +kernel

/-- Each group of power-good inputs, enabled or not. -/
theorem witness_FaultsAreActedOn_rails :
    ((List.range 7).all fun g => ({ State.reset with pins := { State.reset.pins with enLow := 0x7F } } : State).pins.enLow.testBit g &&
      !({ State.reset with pins := { State.reset.pins with enLow := 0 } } : State).pins.enLow.testBit g) = true ∧
    ((List.range 3).all fun g => decide (groupDomain g < 20)) = true := by decide +kernel

/-- A CORRECTED fault is counted, noted and recorded (R461, R463). -/
theorem test_corrected :
    let t := after (.faultReport (faultIn 0x0201 [] none)) State.reset
    t.rd F.TLS_COUNT_CORRECTED = 1 ∧ t.rd F.TLS_LAST_CODE = 0x0201 ∧ t.bb.queue.map (·.code) = [0x0201] := by decide +kernel

/-- A queue of one record, which is fatal where `f` is 1. -/
def queued (f : Nat) : State := { State.reset.wr F.BBX_STATUS_SCAN 0 with bb := { BlackBox.init with queue := [⟨9, 4, 0x0100, 0x0301, 0, 2, f, 1, [7]⟩] } }

theorem witness_BlackBoxWrites :
    (queued 1).bb.queue.length = 1 ∧ (queued 1).bbWrites = true ∧ (queued 1).bb.owed = 0 ∧ (queued 1).lc ≠ 3 ∧
    ((queued 1).bb.queue.all fun r => (queued 1).pins? r) = true ∧ ((queued 0).bb.queue.all fun r => !(queued 0).pins? r) = true ∧
    (queued 1).classOf 0x0702 = 0 ∧ (State.reset.wr F.BBX_SEL_SLOT 7).rd F.BBX_SEL_SLOT = 7 ∧ State.reset.bb.queue = [] ∧ (State.reset.wr F.BBX_STATUS_SCAN 1).on F.BBX_STATUS_SCAN = true ∧
    (State.reset.wr F.BBX_STATUS_SCAN 0).on F.BBX_STATUS_SCAN = false ∧
    ({ State.reset with bb := { BlackBox.init with reading := true } } : State).bb.reading = true := by decide +kernel

/-- A fatal record is pinned in the slot that it took, with the COMMIT byte behind it (R472, R476). -/
theorem test_commit :
    (after (.bbxRecordCommit true) (queued 1)).bb.pinned = [0] ∧
      slotValid ((after (.bbxRecordCommit true) (queued 1)).bbSlot 0) = true ∧
      slotValid ((after (.bbxRecordCommit false) (queued 1)).bbSlot 0) = false := by decide +kernel

/-! ### The power ladder and starts -/

/-- The device is ready in power state `st`, with host commands allowed and this move under way. -/
def pwrSt (st : Nat) (mv : Option Move) (asked : List Nat) : State :=
  let s := [(F.GLB_CFG_STATUS_STATE, 1), (F.PWR_STATUS_STATE, st), (F.PWR_POLICY_HOST_CMD, 1), (F.PWR_DOMAIN_COND 3, 0)].foldl
    (fun s p => s.wr p.1 p.2) State.reset
  { s with power := { s.power with move := mv, asked := asked }, pins := { s.pins with pg := 7 } }

/-- A move from one state to another, begun by the host. -/
def moveOf (start target : Nat) : Move := ⟨target, start, decide (start < target), 7, 0, none, 0, none⟩

theorem witness_PowerLadder_host :
    (let s := pwrSt 0 none []
     s.endpointOff = false ∧ s.on F.PWR_POLICY_HOST_CMD = true ∧ s.power.move = none ∧ s.power.waiting = none ∧ s.moveBar 1 none = 0 ∧
       s.moveBar 6 none = 7 ∧ s.moveBar 0 none = 0 ∧ s.on F.TLS_ROT_BUSY = false ∧
       (s.wr F.GLB_CFG_STATUS_STATE 0).moveBar 1 none = 5 ∧ (s.wr F.TLS_STATUS_PART_RESETTING 1).moveBar 1 none = 4 ∧
       (s.wr (F.CTX_STATE_STATE 9) 2).moveBar 4 none = 3 ∧ (s.wr (F.GUP_RND_STATE 3) 1).moveBar 4 none = 6) ∧
    (State.reset.wr (F.PWR_DOMAIN_COND 3) 3).endpointOff = true ∧ ((pwrSt 0 none []).wr F.PWR_POLICY_HOST_CMD 0).on F.PWR_POLICY_HOST_CMD = false ∧
    bits (9#64).toNat 2 0 = 1 ∧ (9#64).getLsbD 3 = true ∧ (1#64).getLsbD 3 = false := by decide +kernel

/-- The states are tried where a block does not agree, where all agree, at an exit that is ready and one that is not. -/
theorem witness_PowerLadder_moves :
    (let s := pwrSt 0 (some (moveOf 0 1)) [3]
     s.power.asked = [3] ∧ (s.power.move.all fun m => m.entry && decide (m.start ≠ 2) && decide (m.target ≠ 0) && decide (m.start < 8)) = true ∧
       s.on F.TLS_ROT_BUSY = false ∧ s.power.asked.count 3 = 1 ∧ s.power.waiting = none) ∧
    (let s := pwrSt 0 (some (moveOf 0 5)) []
     s.power.asked = [] ∧ ((List.range 256).all fun c => decide (s.ctxState c = 0)) = true ∧
       ((List.range 64).all fun p => !s.on (F.GUP_CFG_VALID p)) = true ∧
       ((List.range 32).all fun q => decide (s.rd (F.CLS_PORT_STATUS_STATE q) ≠ 4)) = true) ∧
    (let s := pwrSt 4 (some (moveOf 4 0)) []
     (s.power.move.all fun m => !m.entry && s.exitReady m && m.thenTo.isNone) = true ∧ ((List.range 64).all fun p => !(s.pool p).overdue) = true ∧
       ((List.range 32).all fun e => (s.engine e).op.isNone) = true ∧ (s.power.move.all fun m => decide (m.target = 0)) = true ∧
       (s.power.move.all fun m => !(s.wr F.PWR_STATUS_PADS_HELD 1).exitReady m) = true ∧
       (s.wr F.PWR_STATUS_PADS_HELD 1).on F.PWR_STATUS_PADS_HELD = true) ∧
    (pwrSt 0 none []).on F.PWR_STATUS_PADS_HELD = false ∧
    isFirmware agentM = false ∧ isFirmware ⟨99, 1, 0⟩ = true ∧ (1#64).getLsbD 0 = true := by decide +kernel

theorem witness_PowerLadder_measures :
    ((pwrSt 0 none []).wr F.PWR_POLICY_WAKE_IN_EN 0).on F.PWR_POLICY_WAKE_IN_EN = false ∧
    (pwrSt 4 none []).on F.PWR_POLICY_WAKE_IN_EN = true ∧
    (let s := (pwrSt 0 none []).wr F.SPN_ALARM_TIME 5
     s.now < s.rd F.SPN_ALARM_TIME) ∧
    (let s := (pwrSt 0 none []).wr F.SPN_ALARM_CTL_EN 1
     s.rd F.SPN_ALARM_TIME ≤ s.now ∧ s.on F.SPN_ALARM_CTL_EN = true) ∧
    (pwrSt 0 none []).populated 0 = false ∧
    (let s := ({ State.reset with otp := [(otpBuild + 1, 1)] } : State).onSite 0 fun y => { y with power := List.replicate 99 151 }
     s.populated 0 = true ∧ ((151 :: (s.site 0).power).take 100).length = 100 ∧ 15000 < ((151 :: (s.site 0).power).take 100).sum ∧
       s.populated 1 = false ∧ untilReset (s.fenceWhy 10) = false) ∧
    (let s := (pwrSt 0 none []).onPower fun p => { p with sum100 := [700] }
     s.atL0 = true ∧ (pwrSt 1 none []).atL0 = false ∧
       (s.wr F.PWR_LIMIT_RUN_W 699).rd F.PWR_LIMIT_RUN_W * s.power.sum100.length < s.power.sum100.sum ∧
       s.power.sum100.sum ≤ (s.wr F.PWR_LIMIT_RUN_W 700).rd F.PWR_LIMIT_RUN_W * s.power.sum100.length ∧
       (s.wr F.PWR_MEAS_DUTY 1).rd F.PWR_MEAS_DUTY = 1 ∧ (s.wr F.PWR_MEAS_DUTY 2).rd F.PWR_MEAS_DUTY = 2 ∧
       (s.wr F.PWR_MEAS_DUTY 64).rd F.PWR_MEAS_DUTY = 64 ∧ (s.wr F.PWR_MEAS_MSTEP 7).rd F.PWR_MEAS_MSTEP = 7) := by decide +kernel

/-- A target above L5 is refused with code 7 (R485), and DUTY of 60 at 10 W above a limit of 590 W falls to 59 (R497). -/
theorem test_power :
    (after (.pwrCmd 14#64) (pwrSt 0 none [])).rd F.PWR_STATUS_LAST_RESULT = 7 ∧
      (after (.powerControlCheck 0 0) ((((pwrSt 0 none []).onPower fun p => { p with sum100 := [600] }).wr F.PWR_LIMIT_RUN_W 590).wr
        F.PWR_MEAS_DUTY 60)).rd F.PWR_MEAS_DUTY = 59 := by decide +kernel

/-- A start whose modules and stacks are up and whose image stands. -/
def bootSt : State :=
  let s := (List.range 160).foldl (fun s m => (s.wr (F.D2D_MOD_STATUS_STATE m) 2).wr (F.D2D_MOD_STATUS_WIDTH m) 3) State.reset
  let s := (List.range 8).foldl (fun s k => s.wr (F.MEM_STATUS_STATE k) 2) (s.wr F.NOC_STATUS_PLANES 15)
  let s := (s.wr (F.CTX_PART_VALID 0) 1).wr (F.CTX_PART_GROUPS 0) 1
  { s with boot := { s.boot with held := false, imageOk := true } }

/-- Partition 0 under reset, with its tiles reset, or one of them retired. -/
def resettingSt (k : Nat) : State :=
  (List.range 8).foldl (fun s t => s.wr (F.MXA_STATUS_STATE t) k)
    ([(F.CTX_PART_VALID 0, 1), (F.CTX_PART_GROUPS 0, 1), (F.SCH_STATUS_STATE 0, 4)].foldl (fun s p => s.wr p.1 p.2) State.reset)

theorem witness_StartsAndLosses :
    State.reset.boot.held = true ∧ bootSt.boot.held = false ∧ bootSt.stopped = false ∧ bootSt.rd F.GLB_CFG_STATUS_STATE = 0 ∧
    bootSt.refusal = none ∧ bootSt.image = none ∧ bootSt.bundlesHold [10, 11, 12, 13] = true ∧
    ((List.range 64).all fun t => decide (bootSt.rd (F.MXA_STATUS_STATE t) ≠ 5)) = true ∧ bootSt.rd (F.CTX_PART_GROUPS 0) ≠ 0 ∧
    ((List.range' 1 7).all fun p => !bootSt.on (F.CTX_PART_VALID p)) = true ∧
    ({ bootSt with boot := { bootSt.boot with imageOk := false } } : State).refusal = some 3 ∧ bootSt.boot.trial = false ∧
    (State.reset.wr F.PWR_STATUS_STATE 5).rd F.PWR_STATUS_STATE = 5 ∧ State.reset.ssetDirty = false ∧
    (let s := { State.reset.wr F.LCS_STATUS_STATE 2 with ssetDirty := true }
     s.settingsOpen = true ∧ copyGen s.sset0 ≤ copyGen s.sset1 ∧
       ¬ copyGen ({ s with sset0 := some Saved.init } : State).sset0 ≤ copyGen s.sset1) ∧
    (let s := resettingSt 6
     s.rd (F.SCH_STATUS_STATE 0) = 4 ∧ (s.part 0).rejoin = false ∧ (s.tilesOf 0) = List.range 8 ∧ s.dueTo 0 = 0 ∧
       ((s.onPart 0 fun x => { x with proxy := true }).part 0).proxy = true ∧ s.rd (F.MXA_STATUS_STATE 0) = 6) ∧
    ((resettingSt 5).tilesOf 0).all (fun t => decide ((resettingSt 5).rd (F.MXA_STATUS_STATE t) = 5)) = true ∧
    (((resettingSt 5).boundTo 0).all fun c => !(resettingSt 5).endable c) = true ∧
    ({ State.reset with tls := { Tls.init with stopped := true } } : State).stopped = true := by decide +kernel

/-- A start without an image ends refused, with reason 3 (R531). -/
theorem test_no_image :
    (after .deviceReady { bootSt with boot := { bootSt.boot with imageOk := false } }).rd F.GLB_CFG_STATUS_REASON = 3 := by decide +kernel
/-- COLD_RST_N that falls takes the device's memory and leaves the fuses (R540). -/
theorem test_cold_fall :
    let s := { State.reset with devMem := [(5, 1)], otp := [(0, 7)] }
    (after .coldRstNFall s).devMem = [] ∧ (after .coldRstNFall s).otp = [(0, 7)] := by decide +kernel

end Sys2Proof.Machine
end

section
/-! SUPPORT. Writes of registers, bit by bit (R8–R11): the layouts of the register tables, what the fields of a write leave of a word, what
a record in the black box leaves of the registers, and what REGISTER_WRITE does at a plain key. -/

namespace Sys2Proof.Machine

/-! ### The layouts of the register tables -/

/-- The fields of a layout lie within the register, in falling order and without a shared bit. -/
def layoutWf (fs : List FSpec) : Prop :=
  (∀ f ∈ fs, f.lo ≤ f.hi ∧ f.hi < 64) ∧ fs.Pairwise fun f g => g.hi < f.lo

/-- A layout in which no access writes a field (R10). -/
def layoutRo (fs : List FSpec) : Prop := ∀ f ∈ fs, f.acc = .ro

/-- Bit `i` lies in no field of a layout. -/
def inNoField (fs : List FSpec) (i : Nat) : Prop := ∀ f ∈ fs, i < f.lo ∨ f.hi < i

/-- Every family of a block has a layout without a shared bit. -/
def famsWf (fams : List RegFam) : Prop := ∀ fam ∈ fams, layoutWf fam.fields

/-- The register tables give every register a layout without a shared bit. -/
theorem famsOf_wf (key : Nat) : famsWf (famsOf key) := by
  unfold famsOf
  repeat' refine iteInduction (motive := famsWf) (fun _ => ?_) fun _ => ?_
  all_goals unfold famsWf layoutWf; decide

/-- A layout is that of a family that holds the key, or there is no register. -/
theorem layoutOf_cases (key : Nat) :
    layoutOf key = [] ∨ ∃ fam ∈ famsOf key, fam.has key = true ∧ layoutOf key = fam.fields := by
  unfold layoutOf
  split
  · rename_i fam hfind
    exact .inr ⟨fam, List.mem_of_find?_eq_some hfind, List.find?_some (p := fun f : RegFam => f.has key) hfind, rfl⟩
  · exact .inl rfl

/-- The fields of every register lie within it and share no bit. -/
theorem layoutOf_wf (key : Nat) : layoutWf (layoutOf key) := by
  rcases layoutOf_cases key with h | ⟨fam, hm, -, h⟩
  · rw [h]; exact ⟨by simp, .nil⟩
  · rw [h]; exact famsOf_wf key fam hm

/-- The keys of a family lie from its base on, within its first stride's reach. -/
theorem RegFam.has_bounds {f : RegFam} {key : Nat} (h : f.has key = true) (hs : 0 < f.s₁) :
    f.base ≤ key ∧ key < f.base + f.s₁ * f.n₁ := by
  unfold RegFam.has at h
  simp only [Bool.and_eq_true, decide_eq_true_eq] at h
  obtain ⟨⟨⟨hb, hn⟩, -⟩, -⟩ := h
  have := (Nat.div_lt_iff_lt_mul hs).1 hn
  rw [Nat.mul_comm] at this
  omega

/-- Among the families of Tailstock's block, what holds a field that is not RO lies below TLS_EVT or above it. -/
theorem famsTLS_ro_or_apart : ∀ fam ∈ famsTLS, 0 < fam.s₁ ∧
    (layoutRo fam.fields ∨ fam.base + fam.s₁ * fam.n₁ ≤ 0x01701000 ∨ 0x01702000 ≤ fam.base) := by
  unfold layoutRo
  decide

/-- No field of a register in which a record leaves its trace can be written (R480, R481). -/
theorem layoutRo_of_isLog {key : Nat} (h : isLog key = true) : layoutRo (layoutOf key) := by
  unfold isLog at h
  simp only [Bool.or_eq_true, Bool.and_eq_true, decide_eq_true_eq] at h
  rcases h with ((⟨h1, h2⟩ | rfl) | rfl) | rfl
  · rcases layoutOf_cases key with he | ⟨fam, hm, hk, he⟩
    · rw [he]; simp [layoutRo]
    · have hf : famsOf key = famsTLS := by
        unfold famsOf
        repeat rw [if_neg (by omega)]
        rw [if_pos (by omega)]
      obtain ⟨hs, hro⟩ := famsTLS_ro_or_apart fam (hf ▸ hm)
      have := RegFam.has_bounds hk hs
      rw [he]
      exact hro.resolve_right (by omega)
  all_goals unfold layoutRo; decide

/-- No field of LCS_STATUS can be written (R454). -/
theorem layoutRo_lcs : layoutRo (layoutOf R.LCS_STATUS) := by unfold layoutRo; decide

/-! ### Fields of a word, bit by bit -/

/-- Bit `j` of the value of a field of a word. -/
theorem testBit_fldOf (w : Word) (f : FSpec) (j : Nat) :
    (fldOf w f).testBit j = (decide (j < f.hi + 1 - f.lo) && w.getLsbD (f.lo + j)) := by
  unfold fldOf bits
  rw [Nat.testBit_mod_two_pow, Nat.testBit_div_two_pow, Nat.add_comm j, BitVec.getLsbD]

/-- Bit `i` of a field that spans `i` is that bit of its word. -/
theorem testBit_fldOf_sub (w : Word) {f : FSpec} {i : Nat} (hl : f.lo ≤ i) (hh : i ≤ f.hi) :
    (fldOf w f).testBit (i - f.lo) = w.getLsbD i := by
  rw [testBit_fldOf, Nat.add_sub_cancel' hl]
  simp [show i - f.lo < f.hi + 1 - f.lo by omega]

/-- What an access code makes of a field's bit, from the value of the write and the bit it finds (R10): `locked` is the lock of RWL fields,
and `hit` says that the half written holds a bit of the field. -/
def bitAfter (acc : Access) (locked hit new old : Bool) : Bool :=
  match acc with
  | .rw => new
  | .rwl => if locked then old else new
  | .w1c => old && !(new && hit)
  | .w1s => old || new
  | .ro | .wo => old

/-- A field's write leaves the bits outside it, and makes of those inside what its access code says. -/
theorem getLsbD_fieldAfter {f : FSpec} (h : f.lo ≤ f.hi ∧ f.hi < 64) (new w : Word) {i : Nat} (hi : i < 64) :
    (fieldAfter f new w).getLsbD i =
      if f.lo ≤ i ∧ i ≤ f.hi then bitAfter f.acc false true (new.getLsbD i) (w.getLsbD i) else w.getLsbD i := by
  have hput : (putFld w f.hi f.lo (fldOf new f)).getLsbD i =
      if f.lo ≤ i ∧ i ≤ f.hi then new.getLsbD i else w.getLsbD i := by
    rw [getLsbD_putFld w h.1 h.2 _ i hi]
    split
    · rw [testBit_fldOf_sub new (by omega) (by omega)]
    · rfl
  have hmask : (new &&& fldMask f.hi f.lo).getLsbD i = (new.getLsbD i && decide (f.lo ≤ i ∧ i ≤ f.hi)) := by
    rw [BitVec.getLsbD_and, getLsbD_fldMask h.1 h.2, Bool.decide_and]
  unfold fieldAfter
  cases f.acc with
  | rw => exact hput
  | rwl => exact hput
  | w1c =>
    rw [BitVec.getLsbD_and, BitVec.getLsbD_not, hmask, decide_eq_true hi]
    by_cases hin : f.lo ≤ i ∧ i ≤ f.hi <;> simp [bitAfter, hin]
  | w1s =>
    rw [BitVec.getLsbD_or, hmask]
    by_cases hin : f.lo ≤ i ∧ i ≤ f.hi <;> simp [bitAfter, hin]
  | ro => exact (ite_self _).symm
  | wo => exact (ite_self _).symm

/-! ### The fields of one write -/

section
variable (a : Agent) (key : Nat) (locked : Bool) (old new m : Word)

/-- Does a write act on a field: it accesses it, by an agent that its Writer names, and no lock holds it (R10, R11)? -/
def admits (f : FSpec) : Bool :=
  writesField f old new m && writes a key f.writer && !(locked && f.acc = .rwl)

/-- One field of a write. -/
def fieldStep (w : Word) (f : FSpec) : Word := if admits a key locked old new m f then fieldAfter f new w else w

/-- A write takes the fields of the layout in turn. -/
theorem writtenWord_eq_foldl (fs : List FSpec) :
    writtenWord a key locked old new m fs = fs.foldl (fieldStep a key locked old new m) old := rfl

/-- What the step of a field makes of a bit. -/
theorem getLsbD_fieldStep {f : FSpec} (h : f.lo ≤ f.hi ∧ f.hi < 64) (w : Word) {i : Nat} (hi : i < 64) :
    (fieldStep a key locked old new m w f).getLsbD i =
      if (f.lo ≤ i ∧ i ≤ f.hi) ∧ admits a key locked old new m f = true then
        bitAfter f.acc false true (new.getLsbD i) (w.getLsbD i)
      else w.getLsbD i := by
  unfold fieldStep
  split
  · rename_i ha
    simp only [getLsbD_fieldAfter h new w hi, ha, and_true]
  · rename_i ha
    rw [if_neg fun hc => ha hc.2]

/-- A write leaves every bit that lies in no field. -/
theorem getLsbD_foldl_inNoField {fs : List FSpec} (hok : ∀ f ∈ fs, f.lo ≤ f.hi ∧ f.hi < 64) {i : Nat} (hi : i < 64)
    (h : inNoField fs i) (w : Word) :
    (fs.foldl (fieldStep a key locked old new m) w).getLsbD i = w.getLsbD i := by
  induction fs generalizing w with
  | nil => rfl
  | cons g fs ih =>
    have hg := h g (by simp)
    rw [List.foldl_cons, ih (fun f hf => hok f (by simp [hf])) (fun f hf => h f (by simp [hf])),
      getLsbD_fieldStep a key locked old new m (hok g (by simp)) w hi, if_neg (by omega)]

/-- A write makes of a field's bit what that field's step makes of it: no other field of the layout holds the bit. -/
theorem getLsbD_foldl_field {fs : List FSpec} (hwf : layoutWf fs) {f : FSpec} (hf : f ∈ fs) {i : Nat}
    (hl : f.lo ≤ i) (hh : i ≤ f.hi) (w : Word) :
    (fs.foldl (fieldStep a key locked old new m) w).getLsbD i =
      if admits a key locked old new m f then bitAfter f.acc false true (new.getLsbD i) (w.getLsbD i) else w.getLsbD i := by
  obtain ⟨hok, hpw⟩ := hwf
  have hi : i < 64 := Nat.lt_of_le_of_lt hh (hok f hf).2
  induction fs generalizing w with
  | nil => cases hf
  | cons g fs ih =>
    obtain ⟨hgfs, hpw⟩ := List.pairwise_cons.1 hpw
    have hokfs : ∀ f ∈ fs, f.lo ≤ f.hi ∧ f.hi < 64 := fun f hf => hok f (by simp [hf])
    have hstep := getLsbD_fieldStep a key locked old new m (hok g (by simp)) w hi
    rw [List.foldl_cons]
    rcases List.mem_cons.1 hf with rfl | hf
    · rw [getLsbD_foldl_inNoField a key locked old new m hokfs hi fun x hx => .inr (by have := hgfs x hx; omega), hstep]
      simp [hl, hh]
    · have hg : ¬ g.lo ≤ i := Nat.not_le.2 (Nat.lt_of_le_of_lt hh (hgfs f hf))
      rw [ih hf _ hokfs hpw, hstep.trans (if_neg fun hc => hg hc.1.1)]

end

/-! ### The value of a write (R9) -/

/-- The half that is written does not depend on what the register held. -/
theorem merged_of_view (x y v : Word) (off size : Nat) :
    (x &&& ~~~(writeMask off size)) ||| (merged y v off size &&& writeMask off size) = merged x v off size := by
  unfold merged
  ext i hi
  simp only [BitVec.getElem_or, BitVec.getElem_and, BitVec.getElem_not]
  cases (writeMask off size)[i] <;> simp

/-- A field of which no bit is written keeps its bits. -/
theorem getLsbD_merged_apart {f : FSpec} (h : f.lo ≤ f.hi ∧ f.hi < 64) (old v : Word) {off size i : Nat}
    (hm : writeMask off size &&& fldMask f.hi f.lo = 0) (hl : f.lo ≤ i) (hh : i ≤ f.hi) :
    (merged old v off size).getLsbD i = old.getLsbD i := by
  have hb : (writeMask off size).getLsbD i = false := by
    have := congrArg (BitVec.getLsbD · i) hm
    simpa [getLsbD_fldMask h.1 h.2, hl, hh] using this
  have h64 : decide (i < 64) = true := decide_eq_true (by omega)
  unfold merged
  simp only [BitVec.getLsbD_or, BitVec.getLsbD_and, BitVec.getLsbD_not, hb, h64, Bool.not_false, Bool.and_true, Bool.and_false,
    Bool.or_false]

/-- The access code alone says what becomes of the bit of a field whose Writer names the agent: where the write does not access the field, the
value of the write is the bit that stands there, or nothing to clear or set. -/
theorem bitAfter_of_admits {f : FSpec} (h : f.lo ≤ f.hi ∧ f.hi < 64) (a : Agent) (key : Nat) (locked : Bool) (old v : Word)
    {off size i : Nat} (hl : f.lo ≤ i) (hh : i ≤ f.hi) :
    let m := writeMask off size
    let new := merged old v off size
    (if admits a key locked old new m f then bitAfter f.acc false true (new.getLsbD i) (old.getLsbD i) else old.getLsbD i) =
      if !writes a key f.writer then old.getLsbD i
      else bitAfter f.acc locked ((m &&& fldMask f.hi f.lo) != 0) (new.getLsbD i) (old.getLsbD i) := by
  intro m new
  unfold admits writesField bitAfter
  by_cases hm : m &&& fldMask f.hi f.lo = 0#64
  · have hn : new.getLsbD i = old.getLsbD i := getLsbD_merged_apart h old v hm hl hh
    cases f.acc <;> simp [hm, hn]
  · have hhit : (m &&& fldMask f.hi f.lo != 0#64) = true := by simpa using hm
    have hsame : fldOf old f = fldOf new f → new.getLsbD i = old.getLsbD i := fun he => by
      rw [← testBit_fldOf_sub new hl hh, ← he, testBit_fldOf_sub old hl hh]
    have hzero : fldOf new f = 0 → new.getLsbD i = false := fun he => by
      rw [← testBit_fldOf_sub new hl hh, he, Nat.zero_testBit]
    cases hw : writes a key f.writer with
    | false => simp
    | true =>
      cases f.acc with
      | rw => by_cases he : fldOf old f = fldOf new f <;> simp [hm, he, hsame]
      | rwl => cases locked <;> by_cases he : fldOf old f = fldOf new f <;> simp [hm, he, hsame]
      | w1c => by_cases he : fldOf new f = 0 <;> simp [hm, hhit, he, hzero]
      | w1s => by_cases he : fldOf new f = 0 <;> simp [hm, he, hzero]
      | ro => simp
      | wo => simp

/-! ### What a record leaves of the registers -/

theorem isLog_evt0 (e : Nat) (h : e < 256) : isLog (R.TLS_EVT0 e) = true := by
  have : 0x01701000 ≤ R.TLS_EVT0 e ∧ R.TLS_EVT0 e < 0x01702000 := by unfold R.TLS_EVT0; omega
  simp [isLog, this]

theorem isLog_evt8 (e : Nat) (h : e < 256) : isLog (R.TLS_EVT8 e) = true := by
  have : 0x01701000 ≤ R.TLS_EVT8 e ∧ R.TLS_EVT8 e < 0x01702000 := by unfold R.TLS_EVT8; omega
  simp [isLog, this]

/-- A register that is no trace of a record has another key than one that is. -/
theorem ne_of_isLog {k j : Nat} (h : isLog k = false) (hj : isLog j = true) : k ≠ j := fun e => by
  rw [e, hj] at h; cases h

/-- An entry of TLS_EVT changes no register but those of the trace (R470). -/
theorem evtEntry_reg {k : Nat} (h : isLog k = false) (code source arg cls : Nat) (c : Option Nat) (s : State) :
    (evtEntry code source arg cls c s).reg k = s.reg k := by
  have he : s.rd F.TLS_EVT_HEAD_COUNT % 256 < 256 := Nat.mod_lt _ (by decide)
  have hk : k ≠ F.TLS_EVT_HEAD_COUNT.key := ne_of_isLog h (by decide)
  unfold evtEntry
  simp only [State.wrapInc_eq]
  generalize s.rd F.TLS_EVT_HEAD_COUNT % 256 = e at he
  have hw : ∀ (t : State) (n : Nat), t.reg k = s.reg k → (t.wr F.TLS_EVT_HEAD_COUNT n).reg k = s.reg k :=
    fun t n ht => (reg_wr_other t _ n hk).trans ht
  have hs : ∀ w w', ((s.setReg (R.TLS_EVT0 e) w).setReg (R.TLS_EVT8 e) w').reg k = s.reg k := fun w w' =>
    (State.setReg_other _ _ _ (ne_of_isLog h (isLog_evt8 e he))).trans
      (State.setReg_other _ _ _ (ne_of_isLog h (isLog_evt0 e he)))
  split
  · exact hw _ _ (hs _ _)
  · exact (traceEntry_frame (fun t => t.reg k) (fun _ _ => rfl) _ _).trans (hw _ _ (hs _ _))

/-- Counting a lost record changes no register but those of the trace. -/
theorem bbLost_reg {k : Nat} (h : isLog k = false) (s : State) : (bbLost s).reg k = s.reg k :=
  reg_wr_other s _ _ (ne_of_isLog h (by decide))

/-- Queueing a record changes no register but those of the trace (R471). -/
theorem bbEnqueue_reg {k : Nat} (h : isLog k = false) (r : BbRec) (s : State) : (bbEnqueue r s).reg k = s.reg k := by
  have hpush : ∀ (t : State) (f : BlackBox → BlackBox) (n v : Nat), t.reg k = s.reg k →
      (((t.onBb f).wrapInc F.BBX_COUNT_SEQ_NEXT n).wr F.BBX_STATUS_QUEUED v).reg k = s.reg k := fun t f n v ht =>
    (reg_wr_other _ _ _ (ne_of_isLog h (by decide))).trans ((reg_wr_other _ _ _ (ne_of_isLog h (by decide))).trans ht)
  unfold bbEnqueue
  simp only []
  split
  · exact hpush _ _ _ _ rfl
  · split
    · split
      · exact hpush _ _ _ _ (bbLost_reg h s)
      · exact bbLost_reg h s
    · exact bbLost_reg h s

/-- A record changes no register but those of the trace (R470, R471). -/
theorem bbRecord_reg {k : Nat} (h : isLog k = false) (code source role cls : Nat) (c : Option Nat) (detail : List Byte) (s : State) :
    (bbRecord code source role cls c detail s).reg k = s.reg k := by
  unfold bbRecord
  simp only []
  generalize (if cls = 0xFF then 7 else cls) = j
  split
  · rw [bbEnqueue_reg h, evtEntry_reg h]
  · exact evtEntry_reg h _ _ _ _ _ _

/-- An event changes no register but those of the trace. -/
theorem bbEvent_reg {k : Nat} (h : isLog k = false) (code source : Nat) (detail : List Byte) (s : State) :
    (bbEvent code source detail s).reg k = s.reg k := bbRecord_reg h _ _ _ _ _ _ s

/-- The life-cycle state depends on LCS_STATUS alone. -/
theorem lc_congr {s t : State} (h : t.reg R.LCS_STATUS = s.reg R.LCS_STATUS) : t.lc = s.lc := by
  unfold State.lc State.rd
  rw [show F.LCS_STATUS_STATE.key = R.LCS_STATUS from rfl, h]

/-- A record for which the queue has room stands behind those that wait. -/
theorem bbEnqueue_queue (r : BbRec) {s : State} (h : s.bb.queue.length < 256) :
    (bbEnqueue r s).bb.queue = s.bb.queue ++ [r] := by
  unfold bbEnqueue
  simp only [h, if_true]
  rfl

/-- An event is recorded where the life-cycle state lets it and the queue has room (R452, R471). -/
theorem bbEvent_logged (code source : Nat) (detail : List Byte) (s : State) :
    logged code source detail s (bbEvent code source detail s) := by
  intro hal hlen
  have hlc : ∀ arg, (evtEntry code source arg 7 none s).lc = s.lc := fun arg => lc_congr (evtEntry_reg (by decide) _ _ _ _ _ _)
  unfold bbEvent bbRecord
  simp only [if_true, hlc, hal]
  exact ⟨_, rfl, rfl, rfl, by rw [bbEnqueue_queue _ (by rw [evtEntry_bb]; exact hlen), evtEntry_bb]⟩

/-! ### A write of a register -/

section
variable (a : Agent) (key size off : Nat) (v : Word) (s : State)

/-- What a register holds behind a write: its fields by their access codes and writers. -/
def State.written : Word :=
  writtenWord a key (s.rwlLocked key) (s.reg key) (merged (s.reg key) v off size) (writeMask off size) (layoutOf key)

/-- Is some field written by an agent that its Writer entry does not name (R11)? -/
def State.foreign : Bool :=
  (layoutOf key).any (foreignField a key (s.regView key) (merged (s.regView key) v off size) (writeMask off size))

/-- A write of a register sets it, and records what is foreign. -/
theorem writeReg_eq : writeReg a key size off v s =
    if s.foreign a key size off v then foreignWrite a key (s.setReg key (s.written a key size off v))
    else s.setReg key (s.written a key size off v) := by
  unfold writeReg State.foreign State.written
  simp only [merged_of_view]

/-- A field behind a write, bit by bit (R9–R11). -/
theorem getLsbD_written {f : FSpec} (hf : f ∈ layoutOf key) {i : Nat} (hl : f.lo ≤ i) (hh : i ≤ f.hi) :
    (s.written a key size off v).getLsbD i =
      if !writes a key f.writer then (s.reg key).getLsbD i
      else bitAfter f.acc (s.rwlLocked key) ((writeMask off size &&& fldMask f.hi f.lo) != 0)
        ((merged (s.reg key) v off size).getLsbD i) ((s.reg key).getLsbD i) := by
  have hwf := layoutOf_wf key
  unfold State.written
  rw [writtenWord_eq_foldl, getLsbD_foldl_field _ _ _ _ _ _ hwf hf hl hh]
  exact bitAfter_of_admits (hwf.1 f hf) a key _ _ v hl hh

/-- A reserved bit keeps what it holds. -/
theorem getLsbD_written_inNoField {i : Nat} (h : inNoField (layoutOf key) i) :
    (s.written a key size off v).getLsbD i = (s.reg key).getLsbD i := by
  by_cases hi : i < 64
  · unfold State.written
    rw [writtenWord_eq_foldl, getLsbD_foldl_inNoField _ _ _ _ _ _ (layoutOf_wf key).1 hi h]
  · rw [BitVec.getLsbD_of_ge _ _ (by omega), BitVec.getLsbD_of_ge _ _ (by omega)]

variable {a key size off v s}

/-- A register whose fields are all RO takes no foreign write. -/
theorem foreign_of_layoutRo (h : layoutRo (layoutOf key)) : s.foreign a key size off v = false := by
  unfold State.foreign
  rw [List.any_eq_false]
  intro f hf
  simp [foreignField, writesField, h f hf]

/-- A register with a foreign write is none that a record writes. -/
theorem isLog_of_foreign (h : s.foreign a key size off v = true) : isLog key = false :=
  Bool.eq_false_iff.2 fun hl => by rw [foreign_of_layoutRo (layoutRo_of_isLog hl)] at h; cases h

/-- A foreign write leaves the life-cycle state alone. -/
theorem setReg_lc_of_foreign (h : s.foreign a key size off v = true) (w : Word) : (s.setReg key w).lc = s.lc :=
  lc_congr (State.setReg_other _ _ _ fun he => by rw [foreign_of_layoutRo (he ▸ layoutRo_lcs)] at h; cases h)

variable (a key size off v s)

/-- The register that is written holds its fields' new values, also behind the record of a foreign write. -/
theorem writeReg_reg_same : (writeReg a key size off v s).reg key = s.written a key size off v := by
  rw [writeReg_eq]
  split
  · exact (bbEvent_reg (isLog_of_foreign ‹_›) _ _ _ _).trans (State.setReg_same _ _ _)
  · exact State.setReg_same _ _ _

/-- No register but the one written and those of a record changes. -/
theorem writeReg_otherRegs : otherRegs key s (writeReg a key size off v s) := by
  intro k hk hl
  rw [writeReg_eq]
  split
  · exact (bbEvent_reg hl _ _ _ _).trans (State.setReg_other _ _ _ hk)
  · exact State.setReg_other _ _ _ hk

/-- A write that is not foreign sets its register and does nothing else. -/
theorem writeReg_of_not_foreign (h : s.foreign a key size off v = false) :
    writeReg a key size off v s = s.setReg key (s.written a key size off v) := by
  rw [writeReg_eq, h]; rfl

/-- A foreign write is recorded (R11, R475). -/
theorem writeReg_logged (h : s.foreign a key size off v = true) :
    logged 0x8003 (if isHostAgent a then srcHost a.rid.toNat else srcRouter a.router.val)
      (leBytes key 8 ++ [byte a.router.val, byte a.index.val] ++ leBytes (if isHostAgent a then a.rid.toNat else 0) 2)
      s (writeReg a key size off v s) := by
  rw [writeReg_eq, h, if_pos rfl]
  intro hal hlen
  exact bbEvent_logged _ _ _ _ (by rw [setReg_lc_of_foreign h]; exact hal) hlen

/-- A write of a register changes registers, the black box and Tailstock, and nothing else. -/
theorem writeReg_frame {β : Sort _} (obs : State → β) (hregs : ∀ s x, obs { s with regs := x } = obs s)
    (hbb : ∀ s x, obs { s with bb := x } = obs s) (htls : ∀ s x, obs { s with tls := x } = obs s) :
    obs (writeReg a key size off v s) = obs s := by
  rw [writeReg_eq]
  split
  · exact (bbEvent_frame obs hregs hbb htls _ _ _ _).trans (hregs _ _)
  · exact hregs _ _

end

/-! ### REGISTER_WRITE at a plain key -/

/-- At a plain key a write is a write of the register's fields. -/
theorem storeReg_plain {key : Nat} (h : plainKey key = true) (a : Agent) (off size : Nat) (v : Word) (s : State) :
    storeReg a key off size v s = writeReg a key size off v s := by
  unfold plainKey at h
  simp only [Bool.and_eq_true, Bool.not_eq_true', Option.isNone_iff_eq_none, decide_eq_true_eq] at h
  obtain ⟨⟨⟨⟨⟨⟨⟨⟨hmsix, hpba⟩, hcmd⟩, hrsp⟩, htr⟩, hwin⟩, hsel⟩, hpwr⟩, hpad⟩ := h
  have hwin8 : ¬ (0x10000000 ≤ key ∧ key % 0x10000000 = 8) := fun ⟨h1, h2⟩ => by simp [h1, h2] at hwin
  have hwinSo : (decide (0x10000000 ≤ key) && decide (0x4000 ≤ key % 0x10000000) && decide (key % 0x10000000 < 0x5000)) = false := by
    by_cases h1 : 0x10000000 ≤ key
    · by_cases h2 : key % 0x10000000 = 8
      · exact absurd ⟨h1, h2⟩ hwin8
      · simpa [h1, h2] using hwin
    · simp [h1]
  unfold storeReg
  simp [hmsix, hpba, hcmd, hrsp, htr, hwin8, hwinSo, hsel, hpwr, hpad]

/-- A request that the endpoint takes at once wakes nothing (R491). -/
theorem wakeFor_of_takesNow {s : State} {fn off : Nat} (h : s.takesNow fn off = true) : wakeFor fn off s = s := by
  unfold State.takesNow at h
  simp only [Bool.and_eq_true, Bool.or_eq_true] at h
  unfold wakeFor
  rcases h.2 with hl | hq
  · rw [if_pos (by simpa using hl)]
  · simp [hq]

/-- A host write at a plain key that is taken and served is a write of the register. -/
theorem hostWrite_plain {a : Agent} {fn off size : Nat} {v : Word} {tbit : Bool} {s : State}
    (hp : plainKey (keyOf fn (off / 8 * 8)) = true) (ht : s.takesNow fn off = true)
    (hs : s.served fn off size false tbit = true) :
    hostWrite a fn off size v tbit s = writeReg a (keyOf fn (off / 8 * 8)) size off v s := by
  have hon : s.endpointOff = false := by
    unfold State.takesNow at ht
    simp only [Bool.and_eq_true, Bool.not_eq_true'] at ht
    exact ht.1
  have hm : (msixAt (keyOf fn (off / 8 * 8))).isSome = false := by
    unfold plainKey at hp
    simp only [Bool.and_eq_true, Option.isNone_iff_eq_none] at hp
    simp [hp]
  unfold hostWrite
  simp only [hon, wakeFor_of_takesNow ht, hm, hs, Bool.and_false, Bool.false_and, Bool.false_eq_true, if_false, if_true]
  exact storeReg_plain hp a off size v s

/-- A write by an agent of the mesh at a plain key is a write of the register and an acknowledgement (log entry 59). -/
theorem meshWrite_plain {a : Agent} {fn off size : Nat} {v : Word} {s : State} (hp : plainKey (keyOf fn (off / 8 * 8)) = true)
    (hsz : sized off size = true) (him : implemented (keyOf fn (off / 8 * 8)) = true) :
    meshWrite a fn off size v s =
      (writeReg a (keyOf fn (off / 8 * 8)) size off v s).out (.regAnswer a.router.val a.index.val false []) := by
  unfold meshWrite
  rw [if_pos (by rw [hsz, him]; rfl), storeReg_plain hp]

/-- What REGISTER_WRITE leaves at a plain key: the write of the register, and to a mesh agent an acknowledgement. -/
def State.plainWrite (s : State) (a : Agent) (key size off : Nat) (v : Word) : State :=
  if isHostAgent a then writeReg a key size off v s
  else (writeReg a key size off v s).out (.regAnswer a.router.val a.index.val false [])

section
variable (a : Agent) (key size off : Nat) (v : Word) (s : State)

@[simp] theorem State.plainWrite_at_reg (k : Nat) :
    (s.plainWrite a key size off v).reg k = (writeReg a key size off v s).reg k := by
  unfold State.plainWrite; split <;> rfl

@[simp] theorem State.plainWrite_bb : (s.plainWrite a key size off v).bb = (writeReg a key size off v s).bb := by
  unfold State.plainWrite; split <;> rfl

@[simp] theorem State.plainWrite_outbox : (s.plainWrite a key size off v).outbox =
    if isHostAgent a then s.outbox else .regAnswer a.router.val a.index.val false [] :: s.outbox := by
  have hout := writeReg_frame a key size off v s State.outbox (fun _ _ => rfl) (fun _ _ => rfl) (fun _ _ => rfl)
  unfold State.plainWrite
  split
  · exact hout
  · rw [State.out_outbox, State.tlp_regAnswer, hout]

/-- A plain write changes registers, the outbox, the black box and Tailstock, and nothing else. -/
theorem plainWrite_frame {β : Sort _} (obs : State → β) (hregs : ∀ s x, obs { s with regs := x } = obs s)
    (hout : ∀ s x, obs { s with outbox := x } = obs s) (hbb : ∀ s x, obs { s with bb := x } = obs s)
    (htls : ∀ s x, obs { s with tls := x } = obs s) : obs (s.plainWrite a key size off v) = obs s := by
  have hw := writeReg_frame a key size off v s obs hregs hbb htls
  unfold State.plainWrite
  split
  · exact hw
  · exact (hout _ _).trans hw

/-- A plain write that is not foreign changes its register and the outbox alone. -/
theorem plainWrite_of_not_foreign {β : Sort _} (obs : State → β) (hregs : ∀ s x, obs { s with regs := x } = obs s)
    (hout : ∀ s x, obs { s with outbox := x } = obs s) (h : s.foreign a key size off v = false) :
    obs (s.plainWrite a key size off v) = obs s := by
  unfold State.plainWrite
  rw [writeReg_of_not_foreign a key size off v s h]
  split
  · exact hregs _ _
  · exact (hout _ _).trans (hregs _ _)

end

/-- What the command of a plain write answers, by an agent of the mesh or by a host request that is taken and served. -/
theorem exec_registerWrite_plain {a : Agent} {fn : FnId} {off size : Nat} {v : Word} {tbit : Bool} {s : State}
    (hp : plainKey (keyOf fn.val (off / 8 * 8)) = true) (hsz : sized off size = true)
    (him : implemented (keyOf fn.val (off / 8 * 8)) = true)
    (hh : isHostAgent a = true → s.takesNow fn.val off = true ∧ s.served fn.val off size false tbit = true) :
    exec (.registerWrite a fn off size v tbit) s = .next (s.plainWrite a (keyOf fn.val (off / 8 * 8)) size off v) := by
  have heff : (if isHostAgent a then hostWrite a fn.val off size v tbit s else meshWrite a fn.val off size v s) =
      s.plainWrite a (keyOf fn.val (off / 8 * 8)) size off v := by
    unfold State.plainWrite
    split
    · exact hostWrite_plain hp (hh ‹_›).1 (hh ‹_›).2
    · exact meshWrite_plain hp hsz him
  rw [exec_registerWrite]
  unfold execRegisterWrite State.done
  rw [heff, after_eq]
  · exact plainWrite_frame a _ size off v s State.pending (fun _ _ => rfl) (fun _ _ => rfl) (fun _ _ => rfl) fun _ _ => rfl
  · exact plainWrite_frame a _ size off v s State.otp (fun _ _ => rfl) (fun _ _ => rfl) (fun _ _ => rfl) fun _ _ => rfl

end Sys2Proof.Machine
end

section
/-! The statements about reset, stored values and writes of registers (chapter 00). -/

open Sys2Proof Sys2Proof.Machine

/-- Settles O4: every map of the reset state but the fuses lists nothing, and so reads its default. -/
theorem resetState : Obligations.ResetState :=
  ⟨rfl, rfl, SMap.get_nil regReset, rfl, SMap.get_nil _, rfl, rfl, rfl, rfl, rfl, reset_memory_wf, by decide⟩

/-- Settles O5, by the laws of device memory (by induction on the bytes written) and of register fields (bit by bit). -/
theorem storedValuesReadBack : Obligations.StoredValuesReadBack := by
  refine ⟨fun s ch off bs => ⟨physWrite_wf bs ch off s, fun i => physWrite_get bs ch off i s,
    fun k => physWrite_get_other bs ch off k s, ?_, ?_⟩, fun s f g v hf hg =>
    ⟨rd_wr_same s hf v, fun h => rd_wr_apart s hf hg h v, fun k hk => reg_wr_other s f v hk, rd_lt s hf⟩⟩
  · exact physWrite_frame State.regs (fun _ _ => rfl) bs ch off s
  · exact physWrite_frame State.chans (fun _ _ => rfl) bs ch off s

/-- Settles O13: at a plain key the command writes the register's fields in turn, which share no bit, and no register that takes a foreign
write is one that the record of it writes. -/
theorem registerWrite : Obligations.RegisterWrite := by
  intro a fn off size v tbit s key m old new host foreign hp hsz him hh
  have hreg : (s.plainWrite a key size off v).reg key = s.written a key size off v := by
    rw [State.plainWrite_at_reg, writeReg_reg_same]
  refine ⟨s.plainWrite a key size off v, exec_registerWrite_plain hp hsz him hh, State.plainWrite_outbox a key size off v s,
    fun f hf i hl hhi => ?_, fun i hi => ?_, fun k hk hl => ?_, fun hf => ⟨fun k hk => ?_, ?_⟩, fun hf => ⟨?_, ?_⟩⟩
  · rw [hreg]
    exact getLsbD_written a key size off v s hf hl hhi
  · rw [hreg]
    exact getLsbD_written_inNoField a key size off v s hi
  · rw [State.plainWrite_at_reg]
    exact writeReg_otherRegs a key size off v s k hk hl
  · rw [State.plainWrite_at_reg, writeReg_of_not_foreign a key size off v s hf, State.setReg_other s key _ hk]
  · have hkept := fun r o => plainWrite_of_not_foreign a key size off v s (fun u => { u with regs := r, outbox := o })
      (fun _ _ => rfl) (fun _ _ => rfl) hf
    generalize s.plainWrite a key size off v = t at hkept
    exact hkept t.regs t.outbox
  · intro hal hlen
    rw [State.plainWrite_bb]
    exact writeReg_logged a key size off v s hf hal hlen
  · have hkept := fun r o b l => plainWrite_frame a key size off v s (fun u => { u with regs := r, outbox := o, bb := b, tls := l })
      (fun _ _ => rfl) (fun _ _ => rfl) (fun _ _ => rfl) fun _ _ => rfl
    generalize s.plainWrite a key size off v = t at hkept
    exact hkept t.regs t.outbox t.bb t.tls

end

section
/-! SUPPORT. Fields behind writes of other fields, and the answer of a command whose effect leaves the queue and the fuses alone. -/

namespace Sys2Proof.Machine

/-- Two fields within their registers that share no bit, as a test that `decide` runs on fields of the tables. -/
def Fld.clearOf (f g : Fld) : Bool :=
  (decide (f.lo ≤ f.hi) && decide (f.hi < 64)) && (decide (g.lo ≤ g.hi) && decide (g.hi < 64)) &&
    (decide (f.key ≠ g.key) || decide (f.hi < g.lo) || decide (g.hi < f.lo))

/-- A value that the field holds, as a test that `decide` runs. -/
def Fld.holds (f : Fld) (v : Nat) : Bool := decide (f.lo ≤ f.hi) && decide (f.hi < 64) && decide (v < 2 ^ (f.hi + 1 - f.lo))

/-- A field reads as before behind a write of one that shares no bit with it. -/
theorem rd_wr_clear (s : State) {f g : Fld} (h : f.clearOf g = true) (v : Nat) : (s.wr f v).rd g = s.rd g := by
  unfold Fld.clearOf at h
  simp only [Bool.and_eq_true, Bool.or_eq_true, decide_eq_true_eq] at h
  obtain ⟨⟨hf, hg⟩, hfg⟩ := h
  exact rd_wr_apart s hf hg (hfg.elim (·.elim .inl fun h => .inr (.inl h)) fun h => .inr (.inr h)) v

/-- A field reads a value written to it that fits. -/
theorem rd_wr_holds (s : State) {f : Fld} {v : Nat} (h : f.holds v = true) : (s.wr f v).rd f = v := by
  unfold Fld.holds at h
  simp only [Bool.and_eq_true, decide_eq_true_eq] at h
  exact rd_wr_of_lt s h.1 h.2

/-- A write of a field leaves the fields of every other register alone. -/
theorem rd_wr_other (s : State) {f g : Fld} (h : g.key ≠ f.key) (v : Nat) : (s.wr f v).rd g = s.rd g :=
  rd_setReg_other s _ _ h

/-- A field of a family reads as before behind a write of another of the same register that shares no bit with it. -/
theorem rd_wr_beside (s : State) {k hi lo hi' lo' : Nat} (h : (lo ≤ hi ∧ hi < 64) ∧ (lo' ≤ hi' ∧ hi' < 64) ∧ (hi < lo' ∨ hi' < lo))
    (v : Nat) : (s.wr ⟨k, hi, lo⟩ v).rd ⟨k, hi', lo'⟩ = s.rd ⟨k, hi', lo'⟩ :=
  rd_wr_apart s (f := ⟨k, hi, lo⟩) (g := ⟨k, hi', lo'⟩) h.1 h.2.1 (.inr h.2.2) v

/-- A field of a family reads a value written to it that fits. -/
theorem rd_wr_fits (s : State) {k hi lo v : Nat} (h : lo ≤ hi ∧ hi < 64) (hv : v < 2 ^ (hi + 1 - lo)) :
    (s.wr ⟨k, hi, lo⟩ v).rd ⟨k, hi, lo⟩ = v := rd_wr_of_lt s (f := ⟨k, hi, lo⟩) h hv

/-- A field of a register that keeps its value keeps its own. -/
theorem rd_of_reg {s t : State} {f : Fld} (h : t.reg f.key = s.reg f.key) : t.rd f = s.rd f := by
  unfold State.rd
  rw [h]

/-- What a command answers whose effect leaves the queue and the fuses alone. -/
theorem State.done_eq {s t : State} (hp : t.pending = s.pending) (ho : t.otp = s.otp) : s.done t = .next t := by
  unfold State.done
  rw [after_eq hp ho]

/-- The same, of an effect that is known to change other fields alone. -/
theorem State.done_of_eq {s t u : State} (h : t = u) (hp : u.pending = s.pending) (ho : u.otp = s.otp) : s.done t = .next t :=
  State.done_eq ((congrArg State.pending h).trans hp) ((congrArg State.otp h).trans ho)

/-- A command without effect. -/
theorem State.done_self (s : State) : s.done s = .next s := State.done_eq rfl rfl

/-- A field of one bit that is on reads 1, and one that is off reads 0. -/
theorem on_eq_false_iff (s : State) (f : Fld) : s.on f = false ↔ s.rd f = 0 := by simp [State.on]

end Sys2Proof.Machine
end

section
/-! SUPPORT. The moves of the power ladder: how an exit and an entry begin, and the commands that are refused (R484–R486, R495). -/

namespace Sys2Proof.Machine

/-! ### Exits begin (R489, R490) -/

/-- The enables that an exit releases are pins alone. -/
theorem exitLines_frame {β : Sort _} (obs : State → β) (hpins : ∀ s x, obs { s with pins := x } = obs s) (s : State) :
    obs (exitLines s) = obs s := by
  have hrel : ∀ m s, obs (releaseLines m s) = obs s := fun m s => hpins s _
  unfold exitLines
  split
  · split
    · rfl
    · dsimp only
      split <;> split <;> simp only [hrel]
  · rfl

/-- What an exit writes before it releases the enables. -/
def exitNoted (m : Move) (s : State) : State :=
  ((s.onPower fun p => { p with move := some m, asked := [] }).wr F.PWR_STATUS_TARGET m.target).wr F.PWR_STATUS_BUSY 1

theorem beginExit_eq (m : Move) (s : State) : beginExit m s = exitLines (exitNoted m s) := rfl

/-- An exit begins in PWR_STATUS, the power controller and the pins alone. -/
theorem beginExit_frame {β : Sort _} (obs : State → β) (hregs : ∀ s x, obs { s with regs := x } = obs s)
    (hpower : ∀ s x, obs { s with power := x } = obs s) (hpins : ∀ s x, obs { s with pins := x } = obs s) (m : Move) (s : State) :
    obs (beginExit m s) = obs s := by
  rw [beginExit_eq, exitLines_frame obs hpins]
  exact (hregs _ _).trans ((hregs _ _).trans (hpower _ _))

@[simp] theorem beginExit_at_rd (m : Move) (s : State) (g : Fld) : (beginExit m s).rd g = (exitNoted m s).rd g :=
  exitLines_frame (fun u => u.rd g) (fun _ _ => rfl) _

@[simp] theorem beginExit_power (m : Move) (s : State) :
    (beginExit m s).power = { s.power with move := some m, asked := [] } :=
  exitLines_frame (fun u => u.power) (fun _ _ => rfl) _

theorem beginExit_reg (m : Move) (s : State) {k : Nat} (h : k ≠ R.PWR_STATUS) : (beginExit m s).reg k = s.reg k :=
  (exitLines_frame (fun u => u.reg k) (fun _ _ => rfl) _).trans ((reg_wr_other _ _ _ h).trans (reg_wr_other _ _ _ h))

/-- PWR_STATUS and the controller show a move that is under way, in the state that it began in (R484, R507). -/
def moveShown (m : Move) (s t : State) : Prop :=
  t.power.move = some m ∧ t.rd F.PWR_STATUS_BUSY = 1 ∧ t.rd F.PWR_STATUS_STATE = s.rd F.PWR_STATUS_STATE ∧
    t.rd F.PWR_STATUS_TARGET = m.target

/-- An exit shows itself. -/
theorem beginExit_shown {m : Move} (h : m.target < 8) (s : State) : moveShown m s (beginExit m s) := by
  refine ⟨by rw [beginExit_power], ?_, ?_, ?_⟩ <;> rw [beginExit_at_rd] <;> unfold exitNoted
  · exact rd_wr_holds _ (by decide)
  · exact (rd_wr_clear _ (by decide) _).trans (rd_wr_clear _ (by decide) _)
  · exact (rd_wr_clear _ (by decide) _).trans (rd_wr_of_lt _ ⟨by decide, by decide⟩ h)

/-! ### Entries begin (R485–R487) -/

/-- With no tile test in progress there is none to abandon. -/
theorem abandonTest_idle {s : State} (h : s.on F.TLS_ROT_BUSY = false) : abandonTest s = s := by
  unfold abandonTest
  rw [h]; rfl

/-- Step 2 of an entry without a limit, while no tile test is in progress: the entry itself, or the way back to L1 Poise that a
deeper entry from L2 Hush takes first. -/
theorem enter_eq {m : Move} {s : State} (hl : m.limit = none) (hb : s.on F.TLS_ROT_BUSY = false) :
    enter m s =
      if m.start = 2 ∧ 3 ≤ m.target then
        beginExit { m with target := 1, entry := false, thenTo := some m.target }
          (s.onPower fun p => { p with move := some m, asked := [] })
      else s.onPower fun p => { p with move := some m, asked := [] } := by
  have hset : setLimit m s = s := by unfold setLimit; rw [hl]
  unfold enter
  simp only [hset, Bool.and_eq_true, decide_eq_true_eq]
  split
  · rfl
  · exact abandonTest_idle hb

/-- A move that has begun for a command without a response: it goes to the target, or first to where the way to it leads. -/
def moveBegun (target : Nat) (s t : State) : Prop :=
  ∃ x, moveShown x s t ∧ x.who = 0 ∧ (x.target = target ∨ x.thenTo = some target)

/-- An entry begins at once, or the blocks are asked first. -/
theorem beginEntry_begun {m : Move} {s : State} (hw : m.who = 0) (hl : m.limit = none) (ht : m.target < 8)
    (hb : s.on F.TLS_ROT_BUSY = false) : moveBegun m.target s (beginEntry m s) := by
  let u := (s.wr F.PWR_STATUS_TARGET m.target).wr F.PWR_STATUS_BUSY 1
  have hst : u.rd F.PWR_STATUS_STATE = s.rd F.PWR_STATUS_STATE :=
    (rd_wr_clear _ (by decide) _).trans (rd_wr_clear _ (by decide) _)
  have htg : u.rd F.PWR_STATUS_TARGET = m.target := (rd_wr_clear _ (by decide) _).trans (rd_wr_of_lt _ ⟨by decide, by decide⟩ ht)
  have hbusy : u.rd F.PWR_STATUS_BUSY = 1 := rd_wr_holds _ (by decide)
  have hu : u.on F.TLS_ROT_BUSY = false := by
    rw [on_eq_false_iff] at hb ⊢
    exact ((rd_wr_clear _ (by decide) _).trans (rd_wr_clear _ (by decide) _)).trans hb
  have hself : ∀ a, moveBegun m.target s (u.onPower fun p => { p with move := some m, asked := a }) := fun a =>
    ⟨m, ⟨rfl, hbusy, hst, htg⟩, hw, .inl rfl⟩
  unfold beginEntry
  extract_lets
  split
  · rw [enter_eq hl hu]
    split
    · obtain ⟨hm, hb', hs', ht'⟩ := beginExit_shown (m := { m with target := 1, entry := false, thenTo := some m.target })
        (Nat.one_lt_ofNat : 1 < 8) (u.onPower fun p => { p with move := some m, asked := [] })
      exact ⟨_, ⟨hm, hb', hs'.trans hst, ht'⟩, hw, .inr rfl⟩
    · exact hself []
  · exact hself _

/-! ### Commands (R484, R485, R495) -/

/-- A command with its direction from the state that it finds. -/
def State.heading (s : State) (m : Move) : Move :=
  { m with start := s.rd F.PWR_STATUS_STATE, entry := decide (s.rd F.PWR_STATUS_STATE < m.target) }

/-- A command that no code of R485 refuses has a target of the ladder. -/
theorem target_le_of_moveBar {s : State} {target : Nat} {l : Option Nat} (h : s.moveBar target l = 0) : target ≤ 5 := by
  unfold State.moveBar at h
  dsimp only at h
  generalize (if s.rd F.PWR_STATUS_STATE < target then s.entryBar target else 0) = bar at h
  by_contra hc
  by_cases hb : bar = 0 <;> simp [hb, show 5 < target by omega] at h

/-- The first code of R485 that applies, in a byte. -/
theorem moveBar_le (s : State) (target : Nat) (l : Option Nat) : s.moveBar target l ≤ 7 := by
  have hbar : s.entryBar target ≤ 6 := by
    unfold State.entryBar
    repeat' split
    all_goals omega
  unfold State.moveBar
  dsimp only
  repeat' split
  all_goals omega

/-- A command without a response is refused in LAST_RESULT alone. -/
theorem refuseMove_host {m : Move} (hw : m.who = 0) (r : Nat) (s : State) : refuseMove m r s = s.wr F.PWR_STATUS_LAST_RESULT r := by
  unfold refuseMove answerMove
  rw [if_pos hw]

/-- A command without a response or a limit that is refused, or names the state that the device is in, ends at once. -/
theorem carryOut_ends {m : Move} {s : State} (hw : m.who = 0) (hl : m.limit = none)
    (h : s.moveBar m.target none ≠ 0 ∨ m.target = s.rd F.PWR_STATUS_STATE) :
    carryOut m s = s.wr F.PWR_STATUS_LAST_RESULT (s.moveBar m.target none) := by
  unfold carryOut
  simp only [hl]
  split
  · exact refuseMove_host hw _ s
  · rename_i hbar
    simp only [ne_eq, not_not] at hbar
    have ht : m.target = s.rd F.PWR_STATUS_STATE := h.resolve_left (not_not.2 hbar)
    rw [if_pos ht, hbar]
    unfold answerMove setLimit
    simp [hw]

/-- A command without a response or a limit that is not refused begins a move. -/
theorem carryOut_begins {m : Move} {s : State} (hw : m.who = 0) (hl : m.limit = none) (hbar : s.moveBar m.target none = 0)
    (hne : m.target ≠ s.rd F.PWR_STATUS_STATE) (hb : m.target < s.rd F.PWR_STATUS_STATE ∨ s.on F.TLS_ROT_BUSY = false) :
    moveBegun m.target s (carryOut m s) := by
  have ht : m.target < 8 := by have := target_le_of_moveBar hbar; omega
  have hset : ∀ x : Move, x.limit = none → setLimit x s = s := fun x hx => by unfold setLimit; rw [hx]
  unfold carryOut
  simp only [hl, hbar, ne_eq, not_true_eq_false, if_false, hne, decide_eq_true_eq]
  split
  · exact beginEntry_begun (m := s.heading { m with limit := none }) hw rfl ht (hb.resolve_left (by omega))
  · rw [hset _ rfl]
    split
    · exact ⟨_, beginExit_shown (by exact Nat.zero_lt_succ 7) s, hw, .inr rfl⟩
    · exact ⟨_, beginExit_shown (by exact ht) s, hw, .inl rfl⟩

/-- The move that a write of PWR_CMD asks for (R495). -/
def hostMove (v : Word) : Move :=
  { target := bits v.toNat 2 0, start := 0, entry := false, wake := 7, who := 0, limit := none, bbSeq := 0, thenTo := none }

/-- A write of PWR_CMD with GO, while HOST_CMD is set, is a command. -/
theorem pwrCmd_go {v : Word} {s : State} (he : s.endpointOff = false) (hc : s.on F.PWR_POLICY_HOST_CMD = true)
    (hg : v.getLsbD 3 = true) : pwrCmd v s = powerCommand (hostMove v) s := by
  unfold pwrCmd
  rw [he, hc, hg]
  rfl

/-- A write of PWR_CMD that reaches no register, or asks for nothing, is ignored. -/
theorem pwrCmd_ignored {v : Word} {s : State}
    (h : s.endpointOff = true ∨ (s.on F.PWR_POLICY_HOST_CMD = false ∧ v.toNat % 16 = 0) ∨
      (s.on F.PWR_POLICY_HOST_CMD = true ∧ v.getLsbD 3 = false)) : pwrCmd v s = s := by
  unfold pwrCmd
  rcases h with h | ⟨hc, hv⟩ | ⟨hc, hv⟩
  · rw [h]; rfl
  · simp [hc, hv]
  · rw [hc, hv]; exact ite_self _

/-- A write of PWR_CMD while HOST_CMD is clear is foreign (R11, R495). -/
theorem pwrCmd_foreign {v : Word} {s : State} (he : s.endpointOff = false) (hc : s.on F.PWR_POLICY_HOST_CMD = false)
    (hv : v.toNat % 16 ≠ 0) : pwrCmd v s = foreignWrite hostAgent R.PWR_CMD s := by
  unfold pwrCmd
  simp [he, hc, hv]

/-- With no move under way a command is carried out. -/
theorem powerCommand_now {m : Move} {s : State} (h : s.power.move = none) : powerCommand m s = carryOut m s := by
  unfold powerCommand
  rw [h]; rfl

/-- A command that finds a move under way, and none that waits, waits (R484). -/
theorem powerCommand_waits {m : Move} {s : State} (h : s.power.move ≠ none) (hw : s.power.waiting = none) :
    powerCommand m s = s.onPower fun p => { p with waiting := some m } := by
  unfold powerCommand
  rw [if_pos (Option.isSome_iff_ne_none.2 h), hw]

/-! ### Foreign writes (R11) -/

/-- A foreign write leaves its record, and nothing else. -/
theorem foreignWrite_frame {β : Sort _} (obs : State → β) (hregs : ∀ s x, obs { s with regs := x } = obs s)
    (hbb : ∀ s x, obs { s with bb := x } = obs s) (htls : ∀ s x, obs { s with tls := x } = obs s) (a : Agent) (key : Nat)
    (s : State) : obs (foreignWrite a key s) = obs s := bbEvent_frame obs hregs hbb htls _ _ _ s

theorem foreignWrite_reg {k : Nat} (h : isLog k = false) (a : Agent) (key : Nat) (s : State) :
    (foreignWrite a key s).reg k = s.reg k := bbEvent_reg h _ _ _ s

/-- A foreign write changes registers, the black box and Tailstock alone. -/
theorem foreignWrite_only (a : Agent) (key : Nat) (s : State) :
    foreignWrite a key s = { s with regs := (foreignWrite a key s).regs, bb := (foreignWrite a key s).bb, tls := (foreignWrite a key s).tls } := by
  have h := fun r b l => foreignWrite_frame (fun u => { u with regs := r, bb := b, tls := l })
    (fun _ _ => rfl) (fun _ _ => rfl) (fun _ _ => rfl) a key s
  generalize foreignWrite a key s = t at h
  exact h t.regs t.bb t.tls

theorem done_foreignWrite (a : Agent) (key : Nat) (s : State) : s.done (foreignWrite a key s) = .next (foreignWrite a key s) :=
  State.done_of_eq (foreignWrite_only a key s) rfl rfl

end Sys2Proof.Machine
end

section
/-! SUPPORT. PWR_CMD, WAKE_IN, MGMT_BUS_ADDRESS_MATCH, SPN_ALARM and PWR_PAD_RELEASE: what each command answers (R489, R492, R495, R505). -/

namespace Sys2Proof.Machine

/-! ### PWR_CMD (R495) -/

section
variable {v : Word} {s : State}

theorem exec_pwrCmd_ignored
    (h : s.endpointOff = true ∨ (s.on F.PWR_POLICY_HOST_CMD = false ∧ v.toNat % 16 = 0) ∨
      (s.on F.PWR_POLICY_HOST_CMD = true ∧ v.getLsbD 3 = false)) : exec (.pwrCmd v) s = .next s := by
  rw [exec_pwrCmd, execPwrCmd, pwrCmd_ignored h, State.done_self]

theorem exec_pwrCmd_foreign (he : s.endpointOff = false) (hc : s.on F.PWR_POLICY_HOST_CMD = false) (hv : v.toNat % 16 ≠ 0) :
    ∃ s', exec (.pwrCmd v) s = .next s' ∧ logged 0x8003 (srcHost 0) (leBytes R.PWR_CMD 8 ++ [91, 1, 0, 0]) s s' ∧
      (∀ k, isLog k = false → s'.reg k = s.reg k) ∧ s' = { s with regs := s'.regs, bb := s'.bb, tls := s'.tls } := by
  rw [exec_pwrCmd, execPwrCmd, pwrCmd_foreign he hc hv, done_foreignWrite]
  exact ⟨_, rfl, bbEvent_logged _ _ _ s, fun k hk => foreignWrite_reg hk _ _ s, foreignWrite_only _ _ s⟩

/-- A command that is refused, or names the state that the device is in, writes LAST_RESULT and nothing else. -/
theorem exec_pwrCmd_ends (he : s.endpointOff = false) (hc : s.on F.PWR_POLICY_HOST_CMD = true) (hg : v.getLsbD 3 = true)
    (hm : s.power.move = none)
    (h : s.moveBar (bits v.toNat 2 0) none ≠ 0 ∨ bits v.toNat 2 0 = s.rd F.PWR_STATUS_STATE) :
    ∃ s', exec (.pwrCmd v) s = .next s' ∧ s'.rd F.PWR_STATUS_LAST_RESULT = s.moveBar (bits v.toNat 2 0) none ∧
      s'.rd F.PWR_STATUS_STATE = s.rd F.PWR_STATUS_STATE ∧ (∀ k, k ≠ R.PWR_STATUS → s'.reg k = s.reg k) ∧
      s' = { s with regs := s'.regs } := by
  rw [exec_pwrCmd, execPwrCmd, pwrCmd_go he hc hg, powerCommand_now hm, carryOut_ends (m := hostMove v) rfl rfl h]
  exact ⟨_, State.done_eq rfl rfl, rd_wr_of_lt _ ⟨by decide, by decide⟩ (Nat.lt_of_le_of_lt (moveBar_le s _ _) (by decide)),
    rd_wr_clear _ (by decide) _, fun k hk => reg_wr_other _ _ _ hk, rfl⟩

theorem exec_pwrCmd_begins (he : s.endpointOff = false) (hc : s.on F.PWR_POLICY_HOST_CMD = true) (hg : v.getLsbD 3 = true)
    (hm : s.power.move = none) (hbar : s.moveBar (bits v.toNat 2 0) none = 0) (hne : bits v.toNat 2 0 ≠ s.rd F.PWR_STATUS_STATE)
    (hb : bits v.toNat 2 0 < s.rd F.PWR_STATUS_STATE ∨ s.on F.TLS_ROT_BUSY = false) :
    ∃ s', exec (.pwrCmd v) s = .next s' ∧ moveBegun (bits v.toNat 2 0) s s' := by
  rw [exec_pwrCmd, execPwrCmd, pwrCmd_go he hc hg, powerCommand_now hm]
  exact ⟨_, rfl, carryOut_begins (m := hostMove v) rfl rfl hbar hne hb⟩

theorem exec_pwrCmd_waits (he : s.endpointOff = false) (hc : s.on F.PWR_POLICY_HOST_CMD = true) (hg : v.getLsbD 3 = true)
    (hm : s.power.move ≠ none) (hw : s.power.waiting = none) :
    ∃ s' x, exec (.pwrCmd v) s = .next s' ∧ s'.power.waiting = some x ∧ x.target = bits v.toNat 2 0 ∧
      s'.power.move = s.power.move ∧ s' = { s with power := s'.power } := by
  rw [exec_pwrCmd, execPwrCmd, pwrCmd_go he hc hg, powerCommand_waits hm hw]
  exact ⟨_, _, State.done_eq rfl rfl, rfl, rfl, rfl, rfl⟩

end

/-! ### Wake events (R489, R494) -/

/-- An aborted entry is counted in the refusal records alone. -/
theorem countAbort_frame {β : Sort _} (obs : State → β) (hpower : ∀ s x, obs { s with power := x } = obs s) (target : Nat)
    (s : State) : obs (countAbort target s) = obs s :=
  each_rel (fun s t => obs t = obs s) (fun _ => rfl) (fun _ _ _ h h' => h'.trans h) _ (fun _ s => hpower s _) _ s

/-- Every domain of a list without repeats has one more aborted entry in its record, and no other domain has. -/
theorem each_aborted (l : List Nat) (hl : l.Nodup) (s : State) (d : Nat) :
    (SMap.get (fun _ => Refuser.init) (each l (fun d s => s.onPower fun p =>
        { p with refusals := SMap.upd (fun _ => Refuser.init) p.refusals d fun r =>
            { r with aborted := min (r.aborted + 1) (2 ^ 32 - 1) } }) s).power.refusals d).aborted =
      if d ∈ l then min ((SMap.get (fun _ => Refuser.init) s.power.refusals d).aborted + 1) (2 ^ 32 - 1)
      else (SMap.get (fun _ => Refuser.init) s.power.refusals d).aborted := by
  induction l generalizing s with
  | nil => rfl
  | cons a l ih =>
    obtain ⟨ha, hl⟩ := List.nodup_cons.1 hl
    refine (ih hl _).trans ?_
    rw [State.onPower_self, SMap.get_upd]
    by_cases hd : d = a
    · subst hd; simp [ha]
    · simp [hd]

/-- An aborted entry is counted in the records of the domains that it affected. -/
theorem countAbort_aborted {target d : Nat} (hd : d = 0 ∨ d = 1 ∨ d = 3 ∨ d = 18) (ha : d ∈ affected target) (s : State) :
    (SMap.get (fun _ => Refuser.init) (countAbort target s).power.refusals d).aborted =
      min ((SMap.get (fun _ => Refuser.init) s.power.refusals d).aborted + 1) (2 ^ 32 - 1) := by
  refine (each_aborted _ (List.Nodup.filter _ (by decide)) s d).trans (if_pos ?_)
  simp only [List.mem_filter, List.mem_cons, List.contains_iff_mem]
  exact ⟨by omega, ha⟩

section
variable {code : Nat} {s : State}

theorem wakeEvent_run (hm : s.power.move = none) (hs : s.rd F.PWR_STATUS_STATE = 0) : wakeEvent code s = s := by
  unfold wakeEvent
  simp only [hm, hs]
  rfl

/-- The exit that a wake event begins. -/
def wakeMove (code : Nat) (s : State) : Move :=
  { target := 0, start := s.rd F.PWR_STATUS_STATE, entry := false, wake := code, who := 0, limit := none, bbSeq := 0, thenTo := none }

theorem wakeEvent_below (hm : s.power.move = none) (hs : 0 < s.rd F.PWR_STATUS_STATE) :
    wakeEvent code s = beginExit (wakeMove code s) s := by
  unfold wakeEvent
  simp only [hm]
  rw [if_neg (by omega)]
  rfl

/-- The way back that a wake event makes of an entry. -/
def backMove (code : Nat) (m : Move) : Move :=
  { target := m.start, start := m.start, entry := false, wake := code, who := m.who, limit := none, bbSeq := m.bbSeq, thenTo := none }

theorem wakeEvent_entry {m : Move} (hm : s.power.move = some m) (he : m.entry = true) :
    wakeEvent code s = (beginExit (backMove code m) (countAbort m.target s)).wr F.PWR_STATUS_LAST_RESULT 2 := by
  unfold wakeEvent
  simp only [hm, he]
  rfl

/-- What was to follow an exit is counted as aborted. -/
def followerAborted (m : Move) (s : State) : State :=
  match m.thenTo with
  | some t => (countAbort t s).wr F.PWR_STATUS_LAST_RESULT 2
  | none => s

theorem followerAborted_frame {β : Sort _} (obs : State → β) (hregs : ∀ s x, obs { s with regs := x } = obs s)
    (hpower : ∀ s x, obs { s with power := x } = obs s) (m : Move) (s : State) : obs (followerAborted m s) = obs s := by
  unfold followerAborted
  split
  · exact (hregs _ _).trans (countAbort_frame obs hpower _ _)
  · rfl

theorem followerAborted_reg (m : Move) (s : State) {k : Nat} (h : k ≠ R.PWR_STATUS) : (followerAborted m s).reg k = s.reg k := by
  unfold followerAborted
  split
  · exact (reg_wr_other _ _ _ h).trans (countAbort_frame (fun u => u.reg k) (fun _ _ => rfl) _ _)
  · rfl

theorem wakeEvent_exit {m : Move} (hm : s.power.move = some m) (he : m.entry = false) :
    wakeEvent code s =
      ((followerAborted m s).onPower fun p => { p with move := some { m with target := 0, thenTo := none } }).wr F.PWR_STATUS_TARGET 0 := by
  unfold wakeEvent followerAborted
  simp only [hm, he]
  rfl

end

/-- A wake event changes registers, the power controller and the pins alone. -/
theorem wakeEvent_frame {β : Sort _} (obs : State → β) (hregs : ∀ s x, obs { s with regs := x } = obs s)
    (hpower : ∀ s x, obs { s with power := x } = obs s) (hpins : ∀ s x, obs { s with pins := x } = obs s) (code : Nat) (s : State) :
    obs (wakeEvent code s) = obs s := by
  have hexit := beginExit_frame obs hregs hpower hpins
  cases hm : s.power.move with
  | none =>
    rcases Nat.eq_zero_or_pos (s.rd F.PWR_STATUS_STATE) with hs | hs
    · rw [wakeEvent_run hm hs]
    · rw [wakeEvent_below hm hs, hexit]
  | some m =>
    cases he : m.entry with
    | true => rw [wakeEvent_entry hm he]; exact (hregs _ _).trans ((hexit _ _).trans (countAbort_frame obs hpower _ _))
    | false =>
      rw [wakeEvent_exit hm he]
      exact (hregs _ _).trans ((hpower _ _).trans (followerAborted_frame obs hregs hpower m s))

/-- A wake event writes no register but PWR_STATUS. -/
theorem wakeEvent_reg (code : Nat) (s : State) {k : Nat} (h : k ≠ R.PWR_STATUS) : (wakeEvent code s).reg k = s.reg k := by
  cases hm : s.power.move with
  | none =>
    rcases Nat.eq_zero_or_pos (s.rd F.PWR_STATUS_STATE) with hs | hs
    · rw [wakeEvent_run hm hs]
    · rw [wakeEvent_below hm hs, beginExit_reg _ _ h]
  | some m =>
    cases he : m.entry with
    | true =>
      rw [wakeEvent_entry hm he, reg_wr_other _ _ _ h, beginExit_reg _ _ h]
      exact countAbort_frame (fun u => u.reg k) (fun _ _ => rfl) _ _
    | false =>
      rw [wakeEvent_exit hm he, reg_wr_other _ _ _ h]
      exact followerAborted_reg m s h

theorem wakeEvent_only (code : Nat) (s : State) :
    wakeEvent code s =
      { s with regs := (wakeEvent code s).regs, power := (wakeEvent code s).power, pins := (wakeEvent code s).pins } := by
  have h := fun r p q => wakeEvent_frame (fun u => { u with regs := r, power := p, pins := q })
    (fun _ _ => rfl) (fun _ _ => rfl) (fun _ _ => rfl) code s
  generalize wakeEvent code s = t at h
  exact h t.regs t.power t.pins

theorem done_wakeEvent (code : Nat) (s : State) : s.done (wakeEvent code s) = .next (wakeEvent code s) :=
  State.done_of_eq (wakeEvent_only code s) rfl rfl

section
variable {i : Instr} {w : Nat} {s : State} (hi : exec i s = .next (wakeEvent w s))
include hi

/-- Below L0 Run with no move under way, a wake event begins an exit. -/
theorem wake_exitBegins (hm : s.power.move = none) (hs : 0 < s.rd F.PWR_STATUS_STATE) : exitBegins i w s := by
  refine ⟨_, hi, ?_, ?_, ?_, ?_, fun k hk => wakeEvent_reg w s hk, wakeEvent_only w s⟩ <;> rw [wakeEvent_below hm hs]
  · rw [beginExit_power]; rfl
  all_goals obtain ⟨-, hb, hst, ht⟩ := beginExit_shown (m := wakeMove w s) (Nat.zero_lt_succ 7) s
  · exact hst
  · exact ht
  · exact hb

/-- During an entry a wake event turns it back. -/
theorem wake_entryTurnsBack {m : Move} (hm : s.power.move = some m) (he : m.entry = true) (hst : m.start < 8) :
    entryTurnsBack i w m s := by
  refine ⟨_, hi, ?_, ?_, ⟨backMove w m, ?_, rfl, rfl, rfl⟩, fun d hd ha => ?_, fun k hk => wakeEvent_reg w s hk,
    wakeEvent_only w s⟩ <;> rw [wakeEvent_entry hm he]
  · exact rd_wr_holds _ (by decide)
  · exact (rd_wr_clear _ (by decide) _).trans (beginExit_shown (m := backMove w m) hst _).2.2.2
  · rw [State.wr_power, beginExit_power]
  · rw [State.wr_power, beginExit_power]
    exact countAbort_aborted hd ha s

/-- During an exit a wake event takes it on to L0 Run, and drops what was to follow. -/
theorem wake_goesOn {m : Move} (hm : s.power.move = some m) (he : m.entry = false) :
    ∃ s', exec i s = .next s' ∧ s'.power.move = some { m with target := 0, thenTo := none } ∧
      s'.rd F.PWR_STATUS_TARGET = 0 ∧ ∀ k, k ≠ R.PWR_STATUS → s'.reg k = s.reg k := by
  refine ⟨_, hi, ?_, ?_, fun k hk => wakeEvent_reg w s hk⟩ <;> rw [wakeEvent_exit hm he]
  · rfl
  · exact rd_wr_holds _ (by decide)

/-- What a wake event does in each state of the ladder. -/
theorem wake_acts : (s.rd F.PWR_STATUS_STATE = 0 → s.power.move = none → exec i s = .next s) ∧
    (0 < s.rd F.PWR_STATUS_STATE → s.power.move = none → exitBegins i w s) ∧
    (∀ m, s.power.move = some m → m.entry = true → m.start < 8 → entryTurnsBack i w m s) ∧
    ∀ m, s.power.move = some m → m.entry = false → ∃ s', exec i s = .next s' ∧
      s'.power.move = some { m with target := 0, thenTo := none } ∧ s'.rd F.PWR_STATUS_TARGET = 0 ∧
      ∀ k, k ≠ R.PWR_STATUS → s'.reg k = s.reg k :=
  ⟨fun hs hm => hi.trans (by rw [wakeEvent_run hm hs]), fun hs hm => wake_exitBegins hi hm hs,
    fun _ hm he hst => wake_entryTurnsBack hi hm he hst, fun _ hm he => wake_goesOn hi hm he⟩

end

/-! ### WAKE_IN, MGMT_BUS_ADDRESS_MATCH and SPN_ALARM (R489, R505) -/

theorem exec_wakeIn_off {s : State} (h : s.on F.PWR_POLICY_WAKE_IN_EN = false) : exec .wakeIn s = .next s := by
  rw [exec_wakeIn, execWakeIn, h]; exact s.done_self

theorem exec_wakeIn_on {s : State} (h : s.on F.PWR_POLICY_WAKE_IN_EN = true) : exec .wakeIn s = .next (wakeEvent 5 s) := by
  rw [exec_wakeIn, execWakeIn, h]; exact done_wakeEvent 5 s

theorem exec_mgmtBusAddressMatch_next (s : State) : exec .mgmtBusAddressMatch s = .next (wakeEvent 4 s) := by
  rw [exec_mgmtBusAddressMatch, execMgmtBusAddressMatch, done_wakeEvent]

theorem exec_spnAlarm_idle {s : State} (h : s.now < s.rd F.SPN_ALARM_TIME ∨ s.on F.SPN_ALARM_CTL_EN = false) :
    exec .spnAlarm s = .next s := by
  have hid : (if s.rd F.SPN_ALARM_TIME ≤ s.now then fireAlarm s else s) = s := by
    rcases h with h | h
    · exact if_neg (by omega)
    · unfold fireAlarm; rw [h]; exact ite_self _
  rw [exec_spnAlarm, execSpnAlarm, hid, State.done_self]

/-- The alarm's register once it has fired. -/
def alarmFired (s : State) : State := (s.wr F.SPN_ALARM_CTL_FIRED 1).wr F.SPN_ALARM_CTL_EN 0

theorem alarmFired_state (s : State) : (alarmFired s).rd F.PWR_STATUS_STATE = s.rd F.PWR_STATUS_STATE :=
  (rd_wr_clear _ (by decide) _).trans (rd_wr_clear _ (by decide) _)

/-- A due alarm fires once, and is a wake event. -/
theorem exec_spnAlarm_fires {s : State} (ht : s.rd F.SPN_ALARM_TIME ≤ s.now) (he : s.on F.SPN_ALARM_CTL_EN = true) :
    exec .spnAlarm s = .next (wakeEvent 6 (alarmFired s)) := by
  rw [exec_spnAlarm, execSpnAlarm, if_pos ht, fireAlarm, if_pos he]
  exact done_wakeEvent 6 (alarmFired s)

/-- A wake event leaves the alarm's register. -/
theorem wakeEvent_alarm (w : Nat) (s : State) {g : Fld} (hg : g.key = R.SPN_ALARM_CTL) : (wakeEvent w s).rd g = s.rd g := by
  unfold State.rd
  rw [wakeEvent_reg w s (by rw [hg]; decide)]

theorem spnAlarm_acts {s : State} (ht : s.rd F.SPN_ALARM_TIME ≤ s.now) (he : s.on F.SPN_ALARM_CTL_EN = true) :
    ∃ s', exec .spnAlarm s = .next s' ∧ s'.rd F.SPN_ALARM_CTL_FIRED = 1 ∧ s'.rd F.SPN_ALARM_CTL_EN = 0 ∧
      (s.power.move = none → 0 < s.rd F.PWR_STATUS_STATE →
        ∃ x, s'.power.move = some x ∧ x.target = 0 ∧ x.entry = false ∧ x.wake = 6) ∧
      (s.power.move = none → s.rd F.PWR_STATUS_STATE = 0 → s'.power = s.power) ∧
      (∀ k, k ≠ R.SPN_ALARM_CTL → k ≠ R.PWR_STATUS → s'.reg k = s.reg k) ∧
      s' = { s with regs := s'.regs, power := s'.power, pins := s'.pins } := by
  refine ⟨_, exec_spnAlarm_fires ht he, ?_, ?_, fun hm hs => ⟨wakeMove 6 (alarmFired s), ?_, rfl, rfl, rfl⟩, fun hm hs => ?_,
    fun k hk hp => ?_, wakeEvent_only 6 (alarmFired s)⟩
  · rw [wakeEvent_alarm _ _ rfl]
    exact (rd_wr_clear _ (by decide) _).trans (rd_wr_holds _ (by decide))
  · rw [wakeEvent_alarm _ _ rfl]
    exact rd_wr_holds _ (by decide)
  · rw [wakeEvent_below (s := alarmFired s) hm (by rw [alarmFired_state]; exact hs), beginExit_power]
  · rw [wakeEvent_run (s := alarmFired s) hm (by rw [alarmFired_state]; exact hs)]
    rfl
  · rw [wakeEvent_reg _ _ hp]
    exact (reg_wr_other _ _ _ hk).trans (reg_wr_other _ _ _ hk)

/-! ### PWR_PAD_RELEASE (R492, R524) -/

/-- Is an exit under way? -/
def State.exits (s : State) : Prop := ∃ m, s.power.move = some m ∧ m.entry = false

/-- The saved settings that are written (R524). -/
theorem writeSettings_frame {β : Sort _} (obs : State → β)
    (hset : ∀ s v a b d, obs { s with saved := v, sset0 := a, sset1 := b, ssetDirty := d } = obs s) (s : State) :
    obs (writeSettings s) = obs s := by
  unfold writeSettings
  dsimp only
  split <;> exact hset s _ _ _ _

@[simp] theorem writeSettings_dirty (s : State) : (writeSettings s).ssetDirty = false := by
  unfold writeSettings; dsimp only; split <;> rfl

/-- The pads let go, and the saved settings that waited are written. -/
def padsFreed (s : State) : State :=
  let u := s.wr F.PWR_STATUS_PADS_HELD 0
  if u.ssetDirty && u.settingsOpen then writeSettings u else u

theorem padsFreed_frame {β : Sort _} (obs : State → β)
    (hset : ∀ s v a b d, obs { s with saved := v, sset0 := a, sset1 := b, ssetDirty := d } = obs s) (s : State) :
    obs (padsFreed s) = obs (s.wr F.PWR_STATUS_PADS_HELD 0) := by
  unfold padsFreed
  dsimp only
  split
  · exact writeSettings_frame obs hset _
  · rfl

theorem padsFreed_only (s : State) : padsFreed s =
    { s with regs := (padsFreed s).regs, saved := (padsFreed s).saved, sset0 := (padsFreed s).sset0, sset1 := (padsFreed s).sset1,
             ssetDirty := (padsFreed s).ssetDirty } := by
  have h := fun r v a b d => padsFreed_frame
    (fun u => { u with regs := r, saved := v, sset0 := a, sset1 := b, ssetDirty := d }) (fun _ _ _ _ _ => rfl) s
  generalize padsFreed s = t at h
  exact h t.regs t.saved t.sset0 t.sset1 t.ssetDirty

/-- In Test and Production nothing waits for the released pads any more. -/
theorem padsFreed_dirty {s : State} (h : s.lc = 1 ∨ s.lc = 2) : (padsFreed s).ssetDirty = false := by
  have hopen : (s.wr F.PWR_STATUS_PADS_HELD 0).settingsOpen = true := by
    have hlc : (s.wr F.PWR_STATUS_PADS_HELD 0).lc = s.lc := rd_wr_clear _ (by decide) _
    have hpads : (s.wr F.PWR_STATUS_PADS_HELD 0).on F.PWR_STATUS_PADS_HELD = false :=
      (on_eq_false_iff _ _).2 (rd_wr_holds _ (by decide))
    unfold State.settingsOpen
    rw [hlc, hpads]
    rcases h with h | h <;> simp [h]
  unfold padsFreed
  dsimp only
  rw [hopen]
  cases hd : (s.wr F.PWR_STATUS_PADS_HELD 0).ssetDirty with
  | true => exact writeSettings_dirty _
  | false => exact hd

section
variable {a : Agent} {v : Word} {s : State}

theorem exec_pwrPadRelease_idle (h : v.getLsbD 0 = false ∨ (isFirmware a = true ∧ ¬ (s.exits ∧ s.on F.PWR_STATUS_PADS_HELD = true))) :
    exec (.pwrPadRelease a v) s = .next s := by
  have hid : pwrPadRelease a v s = s := by
    unfold pwrPadRelease
    rcases h with h | ⟨hf, hno⟩
    · rw [h]; rfl
    · cases v.getLsbD 0 with
      | false => rfl
      | true =>
        simp only [hf, Bool.not_true, Bool.false_eq_true, if_false]
        refine if_pos ?_
        cases hm : s.power.move with
        | none => rfl
        | some m =>
          cases he : m.entry with
          | true => simp [he]
          | false => simpa [he] using fun hp => hno ⟨⟨m, hm, he⟩, hp⟩
  rw [exec_pwrPadRelease, execPwrPadRelease, hid, State.done_self]

theorem exec_pwrPadRelease_foreign (hv : v.getLsbD 0 = true) (hf : isFirmware a = false) :
    ∃ s', exec (.pwrPadRelease a v) s = .next s' ∧ (∀ k, isLog k = false → s'.reg k = s.reg k) ∧
      s' = { s with regs := s'.regs, bb := s'.bb, tls := s'.tls } := by
  have hfor : pwrPadRelease a v s = foreignWrite a R.PWR_PAD_RELEASE s := by
    unfold pwrPadRelease; rw [hv, hf]; rfl
  rw [exec_pwrPadRelease, execPwrPadRelease, hfor, done_foreignWrite]
  exact ⟨_, rfl, fun k hk => foreignWrite_reg hk _ _ s, foreignWrite_only _ _ s⟩

theorem exec_pwrPadRelease_frees (hv : v.getLsbD 0 = true) (hf : isFirmware a = true) (he : s.exits)
    (hp : s.on F.PWR_STATUS_PADS_HELD = true) :
    ∃ s', exec (.pwrPadRelease a v) s = .next s' ∧ s'.rd F.PWR_STATUS_PADS_HELD = 0 ∧
      (∀ k, k ≠ R.PWR_STATUS → s'.reg k = s.reg k) ∧ (s.lc = 1 ∨ s.lc = 2 → s'.ssetDirty = false) ∧
      s' = { s with regs := s'.regs, saved := s'.saved, sset0 := s'.sset0, sset1 := s'.sset1, ssetDirty := s'.ssetDirty } := by
  have hfree : pwrPadRelease a v s = padsFreed s := by
    obtain ⟨m, hm, he⟩ := he
    unfold pwrPadRelease
    rw [hv, hf, hm, hp]
    simp only [he]
    rfl
  rw [exec_pwrPadRelease, execPwrPadRelease, hfree]
  refine ⟨_, State.done_of_eq (padsFreed_only s) rfl rfl, ?_, fun k hk => ?_, padsFreed_dirty, padsFreed_only s⟩
  · exact (padsFreed_frame (fun u => u.rd F.PWR_STATUS_PADS_HELD) (fun _ _ _ _ _ => rfl) s).trans (rd_wr_holds _ (by decide))
  · exact (padsFreed_frame (fun u => u.reg k) (fun _ _ _ _ _ => rfl) s).trans (reg_wr_other _ _ _ hk)

end

end Sys2Proof.Machine
end

section
/-! SUPPORT. The answer to a POWER_STATE command, and NEGOTIATION_TIMEOUT (R417, R486, R494, R495). -/

namespace Sys2Proof.Machine

/-! ### Responses to role commands (R413, R417, R419) -/

section
variable {β : Sort _} (obs : State → β) (hregs : ∀ s x, obs { s with regs := x } = obs s)
  (hout : ∀ s x, obs { s with outbox := x } = obs s) (hmbx : ∀ s x, obs { s with mbx := x } = obs s)
  (hcfg : ∀ s x, obs { s with hcfg := x } = obs s)
include hregs hout hmbx hcfg

/-- A response is sent in registers, the slots, the outbox and the pending vectors alone. -/
theorem sendResponse_frame (mctp : Bool) (bs : List Byte) (s : State) : obs (sendResponse mctp bs s) = obs s := by
  unfold sendResponse
  split
  · exact (hregs _ _).trans (hout _ _)
  · exact (raiseVector_frame obs hcfg hout _ _ _).trans ((hregs _ _).trans ((hregs _ _).trans (hmbx _ _)))

/-- A command is answered in the same fields. -/
theorem respond_frame (mctp : Bool) (code status detail bbSeq : Nat) (signed : Bool) (data : List Byte) (s : State) :
    obs (respond mctp code status detail bbSeq signed data s) = obs s := by
  unfold respond
  refine (sendResponse_frame obs hregs hout hmbx hcfg _ _ _).trans ((hregs _ _).trans ((hregs _ _).trans ?_))
  split <;> exact hregs _ _

end

/-- The registers behind the sending of a response: its path is free, and the ring has moved on. -/
def pathFreed (mctp : Bool) (s : State) : State :=
  if mctp then s.wr F.MBX_STATUS_MCTP_BUSY 0 else (s.wrapInc F.MBX_CMD_HEAD_HEAD 1).wr F.MBX_STATUS_BUSY 0

theorem sendResponse_regs (mctp : Bool) (bs : List Byte) (s : State) : (sendResponse mctp bs s).regs = (pathFreed mctp s).regs := by
  unfold sendResponse pathFreed
  split
  · rfl
  · exact raiseVector_regs _ _ _

/-- The registers that an answer writes (R413, R417, R440). -/
def isAnswer (k : Nat) : Bool := k = R.HWD_COUNT || k = R.MBX_STATUS || k = R.MBX_CMD_HEAD

theorem respond_reg {k : Nat} (h : isAnswer k = false) (mctp : Bool) (code status detail bbSeq : Nat) (signed : Bool)
    (data : List Byte) (s : State) : (respond mctp code status detail bbSeq signed data s).reg k = s.reg k := by
  unfold isAnswer at h
  simp only [Bool.or_eq_false_iff, decide_eq_false_iff_not] at h
  obtain ⟨⟨hcount, hstat⟩, hhead⟩ := h
  have hpath : ∀ u : State, (pathFreed mctp u).reg k = u.reg k := fun u => by
    unfold pathFreed
    split
    · exact reg_wr_other _ _ _ hstat
    · exact (reg_wr_other _ _ _ hstat).trans (reg_wr_other _ _ _ hhead)
  unfold respond
  refine (congrArg (SMap.get regReset · k) (sendResponse_regs _ _ _)).trans
    ((hpath _).trans ((reg_wr_other _ _ _ hstat).trans ((reg_wr_other _ _ _ hstat).trans ?_)))
  split <;> exact reg_wr_other _ _ _ hcount

/-- The path of an answered command is free. -/
theorem pathFreed_off (mctp : Bool) (s : State) : (pathFreed mctp s).on (pathFld mctp) = false := by
  rw [on_eq_false_iff]
  cases mctp <;> exact rd_wr_holds _ (by decide)

/-- Freeing a path leaves what MBX_STATUS tells of the last command. -/
theorem pathFreed_at_rd {g : Fld} (hm : F.MBX_STATUS_MCTP_BUSY.clearOf g = true) (hb : F.MBX_STATUS_BUSY.clearOf g = true)
    (hh : F.MBX_CMD_HEAD_HEAD.clearOf g = true) (mctp : Bool) (s : State) : (pathFreed mctp s).rd g = s.rd g := by
  cases mctp
  · exact (rd_wr_clear _ hb _).trans (rd_wr_clear _ hh _)
  · exact rd_wr_clear _ hm _

/-- What an answer shows: the code and the status of the command, and that its path is free. -/
theorem respond_shows {code status : Nat} (hc : code < 2 ^ 16) (hs : status < 2 ^ 8) (mctp : Bool) (detail bbSeq : Nat) (signed : Bool)
    (data : List Byte) (s : State) :
    let t := respond mctp code status detail bbSeq signed data s
    t.rd F.MBX_STATUS_LAST_CODE = code ∧ t.rd F.MBX_STATUS_LAST_STATUS = status ∧ t.on (pathFld mctp) = false := by
  intro t
  have ht : t = respond mctp code status detail bbSeq signed data s := rfl
  unfold respond at ht
  extract_lets bs u w at ht
  have hr : t.regs = (pathFreed mctp w).regs := ht ▸ sendResponse_regs mctp bs w
  rw [rd_congr hr, rd_congr hr, on_congr hr]
  refine ⟨?_, ?_, pathFreed_off mctp w⟩
  · exact (pathFreed_at_rd (by decide) (by decide) (by decide) mctp w).trans
      ((rd_wr_clear _ (by decide) _).trans (rd_wr_of_lt _ ⟨by decide, by decide⟩ hc))
  · exact (pathFreed_at_rd (by decide) (by decide) (by decide) mctp w).trans (rd_wr_of_lt _ ⟨by decide, by decide⟩ hs)

/-! ### The answer of a move (R495) -/

/-- The command behind a move has been told this status (R417, R495); a PWR_CMD has no response. -/
def moveTold (m : Move) (status : Nat) (t : State) : Prop :=
  m.who ≠ 0 → t.rd F.MBX_STATUS_LAST_CODE = 0x32 ∧ t.rd F.MBX_STATUS_LAST_STATUS = status ∧
    t.on (pathFld (decide (m.who = 2))) = false

section
variable {β : Sort _} (obs : State → β) (hregs : ∀ s x, obs { s with regs := x } = obs s)
  (hout : ∀ s x, obs { s with outbox := x } = obs s) (hmbx : ∀ s x, obs { s with mbx := x } = obs s)
  (hcfg : ∀ s x, obs { s with hcfg := x } = obs s)
include hregs hout hmbx hcfg

theorem answerMove_frame (m : Move) (status detail : Nat) (data : List Byte) (s : State) :
    obs (answerMove m status detail data s) = obs s := by
  unfold answerMove
  split
  · rfl
  · exact respond_frame obs hregs hout hmbx hcfg _ _ _ _ _ _ _ _

end

theorem answerMove_reg {k : Nat} (h : isAnswer k = false) (m : Move) (status detail : Nat) (data : List Byte) (s : State) :
    (answerMove m status detail data s).reg k = s.reg k := by
  unfold answerMove
  split
  · rfl
  · exact respond_reg h _ _ _ _ _ _ _ _

theorem answerMove_told {status : Nat} (hs : status < 2 ^ 8) (m : Move) (detail : Nat) (data : List Byte) (s : State) :
    moveTold m status (answerMove m status detail data s) := by
  intro hw
  unfold answerMove
  rw [if_neg hw]
  exact respond_shows (by decide) hs _ _ _ _ _ _

@[simp] theorem answerMove_power (m : Move) (status detail : Nat) (data : List Byte) (s : State) :
    (answerMove m status detail data s).power = s.power :=
  answerMove_frame State.power (fun _ _ => rfl) (fun _ _ => rfl) (fun _ _ => rfl) (fun _ _ => rfl) m status detail data s

/-- An answer leaves the fields of every register that it does not write. -/
theorem answerMove_at_rd {g : Fld} (h : isAnswer g.key = false) (m : Move) (status detail : Nat) (data : List Byte) (s : State) :
    (answerMove m status detail data s).rd g = s.rd g := by
  unfold State.rd
  rw [answerMove_reg h]

/-! ### Refusals by the blocks (R486, R494) -/

/-- No command waits, and none is carried out. -/
theorem nextMove_none {s : State} (h : s.power.waiting = none) : nextMove s = s := by
  unfold nextMove
  rw [h]

/-- The refusals of a list of domains are counted. -/
def refusalsNoted (m : Move) (l : List Nat) (s : State) : State := each l (fun d s => noteRefusal m d s) s

theorem refusalsNoted_cons (m : Move) (a : Nat) (l : List Nat) (s : State) :
    refusalsNoted m (a :: l) s = refusalsNoted m l (noteRefusal m a s) := rfl

/-- Counting refusals changes the power controller alone. -/
theorem refusalsNoted_frame {β : Sort _} (obs : State → β) (hpower : ∀ s x, obs { s with power := x } = obs s) (m : Move)
    (l : List Nat) (s : State) : obs (refusalsNoted m l s) = obs s :=
  each_rel (fun s t => obs t = obs s) (fun _ => rfl) (fun _ _ _ h h' => h'.trans h) _ (fun _ s => hpower s _) l s

/-- Of the power controller, counting refusals changes the records alone. -/
theorem refusalsNoted_power {β : Sort _} (obs : Power → β) (h : ∀ p x, obs { p with refusals := x } = obs p) (m : Move)
    (l : List Nat) (s : State) : obs (refusalsNoted m l s).power = obs s.power :=
  each_rel (fun s t => obs t.power = obs s.power) (fun _ => rfl) (fun _ _ _ h h' => h'.trans h) (fun d s => noteRefusal m d s)
    (fun _ s => h s.power _) l s

/-- The record of a domain. -/
def State.refuser (s : State) (d : Nat) : Refuser := SMap.get (fun _ => Refuser.init) s.power.refusals d

theorem noteRefusal_refuser (m : Move) (a d : Nat) (s : State) :
    (noteRefusal m a s).refuser d =
      if d = a then { s.refuser a with last := (s.refusers m a).headD 0, refused := min ((s.refuser a).refused + 1) (2 ^ 32 - 1), time := s.now }
      else s.refuser d := by
  unfold noteRefusal State.refuser
  rw [State.onPower_self, SMap.get_upd]

theorem refusalsNoted_absent (m : Move) {l : List Nat} {d : Nat} (h : d ∉ l) (s : State) :
    (refusalsNoted m l s).refuser d = s.refuser d := by
  induction l generalizing s with
  | nil => rfl
  | cons a l ih =>
    obtain ⟨ha, hl⟩ := not_or.1 (List.mem_cons.not.1 h)
    rw [refusalsNoted_cons, ih hl, noteRefusal_refuser, if_neg ha]

/-- A domain that stands once among those that refuse is counted once, and its record takes the time. -/
theorem refusalsNoted_once (m : Move) {l : List Nat} {d : Nat} (h : l.count d = 1) (s : State) :
    ((refusalsNoted m l s).refuser d).refused = min ((s.refuser d).refused + 1) (2 ^ 32 - 1) ∧
      ((refusalsNoted m l s).refuser d).time = s.now := by
  induction l generalizing s with
  | nil => simp at h
  | cons a l ih =>
    rw [refusalsNoted_cons]
    by_cases hd : d = a
    · subst hd
      have hl : d ∉ l := List.count_eq_zero.1 (by simpa using h)
      rw [refusalsNoted_absent m hl, noteRefusal_refuser, if_pos rfl]
      exact ⟨rfl, rfl⟩
    · obtain ⟨hr, ht⟩ := ih (by rwa [List.count_cons_of_ne (Ne.symm hd)] at h) (noteRefusal m a s)
      rw [noteRefusal_refuser, if_neg hd] at hr
      exact ⟨hr, ht⟩

/-! ### NEGOTIATION_TIMEOUT -/

/-- The blocks that have not agreed. -/
def State.notAgreed (s : State) (agreed : List Nat) : List Nat := s.power.asked.filter fun d => !agreed.contains d

/-- What a refused entry leaves before its command is told: the refusals counted, and no move. -/
def entryDropped (m : Move) (agreed : List Nat) (s : State) : State :=
  ((refusalsNoted m ((s.notAgreed agreed).filter [0, 1, 3, 18].contains) s).onPower fun p =>
    { p with move := none, asked := [] }).wr F.PWR_STATUS_BUSY 0

section
variable {m : Move} {agreed : List Nat} {s : State}

theorem negotiationTimeout_idle (hm : s.power.move = some m) (h : m.entry = false ∨ s.power.asked = []) :
    negotiationTimeout agreed s = s := by
  unfold negotiationTimeout
  simp only [hm]
  refine if_pos ?_
  rcases h with h | h <;> simp [h]

theorem negotiationTimeout_agreed (hm : s.power.move = some m) (he : m.entry = true) (ha : s.power.asked ≠ [])
    (h : s.notAgreed agreed = []) : negotiationTimeout agreed s = enter m s := by
  unfold State.notAgreed at h
  unfold negotiationTimeout
  simp only [hm, he, h]
  rw [if_neg (by simp [ha])]
  rfl

theorem negotiationTimeout_refused (hm : s.power.move = some m) (he : m.entry = true) (ha : s.power.asked ≠ [])
    (h : s.notAgreed agreed ≠ []) :
    negotiationTimeout agreed s = nextMove (refuseMove m 1 (entryDropped m agreed s)) := by
  unfold State.notAgreed at h
  unfold negotiationTimeout
  simp only [hm, he]
  rw [if_neg (by simp [ha]), if_neg (by simpa using h)]
  rfl

theorem exec_negotiationTimeout_none (hm : s.power.move = none) : exec (.negotiationTimeout agreed) s = .next s := by
  have hid : negotiationTimeout agreed s = s := by unfold negotiationTimeout; rw [hm]
  rw [exec_negotiationTimeout, execNegotiationTimeout, hid, State.done_self]

theorem exec_negotiationTimeout_idle (hm : s.power.move = some m) (h : m.entry = false ∨ s.power.asked = []) :
    exec (.negotiationTimeout agreed) s = .next s := by
  rw [exec_negotiationTimeout, execNegotiationTimeout, negotiationTimeout_idle hm h, State.done_self]

/-- Where every block agrees the entry goes on, and a limit takes effect. -/
theorem exec_negotiationTimeout_agreed (hm : s.power.move = some m) (he : m.entry = true) (ha : s.power.asked ≠ [])
    (h : ∀ d ∈ s.power.asked, d ∈ agreed) (hs : m.start ≠ 2 ∨ m.target < 3) (hb : s.on F.TLS_ROT_BUSY = false) :
    ∃ s', exec (.negotiationTimeout agreed) s = .next s' ∧ s'.power = { s.power with asked := [] } ∧
      (∀ w, m.limit = some w → s'.rd F.PWR_LIMIT_RUN_W = w % 65536) ∧ (∀ k, k ≠ R.PWR_LIMIT → s'.reg k = s.reg k) ∧
      s' = { s with regs := s'.regs, power := s'.power } := by
  have hno : s.notAgreed agreed = [] := List.filter_eq_nil_iff.2 fun d hd => by simp [h d hd]
  have hpower : ∀ u : State, u.power = s.power → { u.power with move := some m, asked := [] } = { s.power with asked := [] } :=
    fun u hu => by rw [hu, ← hm]
  have henter : negotiationTimeout agreed s = (setLimit m s).onPower fun p => { p with move := some m, asked := [] } := by
    have hset : (setLimit m s).on F.TLS_ROT_BUSY = false := by
      rw [on_eq_false_iff] at hb ⊢
      unfold setLimit
      split
      · exact (rd_wr_clear _ (by decide) _).trans hb
      · exact hb
    rw [negotiationTimeout_agreed hm he ha hno, enter]
    rw [if_neg (by simp; omega)]
    exact abandonTest_idle hset
  rw [exec_negotiationTimeout, execNegotiationTimeout, henter]
  unfold setLimit
  split
  · rename_i w hl
    refine ⟨_, State.done_eq rfl rfl, hpower _ rfl, fun x hx => ?_, fun k hk => reg_wr_other _ _ _ hk, rfl⟩
    cases hl.symm.trans hx
    exact rd_wr_same s ⟨by decide, by decide⟩ w
  · rename_i hl
    refine ⟨_, State.done_eq rfl rfl, hpower _ rfl, fun x hx => ?_, fun k _ => rfl, rfl⟩
    rw [hl] at hx
    cases hx

/-- Where a block does not agree the entry is refused: its command is told, and the blocks' records count it. -/
theorem exec_negotiationTimeout_refused (hm : s.power.move = some m) (he : m.entry = true)
    (h : ∃ d ∈ s.power.asked, d ∉ agreed) (hw : s.power.waiting = none) :
    ∃ s', exec (.negotiationTimeout agreed) s = .next s' ∧ s'.power.move = none ∧ s'.rd F.PWR_STATUS_BUSY = 0 ∧
      s'.rd F.PWR_STATUS_LAST_RESULT = 1 ∧ moveTold m 0x06 s' ∧
      (∀ d, d = 0 ∨ d = 1 ∨ d = 3 ∨ d = 18 → d ∈ s.power.asked → s.power.asked.count d = 1 → d ∉ agreed →
        (s'.refuser d).refused = min ((s.refuser d).refused + 1) (2 ^ 32 - 1) ∧ (s'.refuser d).time = s.now) ∧
      (m.who = 0 → (∀ k, k ≠ R.PWR_STATUS → s'.reg k = s.reg k) ∧ s' = { s with regs := s'.regs, power := s'.power }) := by
  obtain ⟨a, ha, hag⟩ := h
  have hno : s.notAgreed agreed ≠ [] := List.ne_nil_of_mem (List.mem_filter.2 ⟨ha, by simpa using hag⟩)
  let u := entryDropped m agreed s
  have hpower : (refuseMove m 1 u).power = u.power := answerMove_power m _ _ _ _
  have hwait : (refuseMove m 1 u).power.waiting = none := by
    rw [hpower]
    exact (refusalsNoted_power Power.waiting (fun _ _ => rfl) m _ s).trans hw
  rw [exec_negotiationTimeout, execNegotiationTimeout,
    negotiationTimeout_refused hm he (List.ne_nil_of_mem ha) hno, nextMove_none hwait]
  refine ⟨_, State.done_eq ?_ ?_, ?_, ?_, ?_, answerMove_told (by decide) m _ _ _, fun d hd _ hc hda => ?_, fun hw0 => ?_⟩
  · exact (answerMove_frame State.pending (fun _ _ => rfl) (fun _ _ => rfl) (fun _ _ => rfl) (fun _ _ => rfl) _ _ _ _ _).trans
      (refusalsNoted_frame State.pending (fun _ _ => rfl) _ _ _)
  · exact (answerMove_frame State.otp (fun _ _ => rfl) (fun _ _ => rfl) (fun _ _ => rfl) (fun _ _ => rfl) _ _ _ _ _).trans
      (refusalsNoted_frame State.otp (fun _ _ => rfl) _ _ _)
  · rw [hpower]; rfl
  · exact (answerMove_at_rd (by decide) m _ _ _ _).trans ((rd_wr_clear _ (by decide) _).trans (rd_wr_holds _ (by decide)))
  · exact (answerMove_at_rd (by decide) m _ _ _ _).trans (rd_wr_holds _ (by decide))
  · have hcount : ((s.notAgreed agreed).filter [0, 1, 3, 18].contains).count d = 1 := by
      rw [List.count_filter (by simpa using hd), State.notAgreed, List.count_filter (by simpa using hda), hc]
    unfold State.refuser
    rw [hpower]
    exact refusalsNoted_once m hcount s
  · rw [refuseMove_host hw0]
    refine ⟨fun k hk => ?_, ?_⟩
    · exact (reg_wr_other _ _ _ hk).trans ((reg_wr_other _ _ _ hk).trans (refusalsNoted_frame (fun u => u.reg k) (fun _ _ => rfl) _ _ _))
    · have hfr := fun r p => refusalsNoted_frame (fun v => { v with regs := r, power := p }) (fun _ _ => rfl) m
        ((s.notAgreed agreed).filter [0, 1, 3, 18].contains) s
      exact hfr (u.wr F.PWR_STATUS_LAST_RESULT 1).regs u.power

end

end Sys2Proof.Machine
end

section
/-! SUPPORT. POWER_CONTROL_CHECK, and what POWER_SAMPLE measures (R22, R494, R496, R498). -/

namespace Sys2Proof.Machine

/-! ### The levers (R498) -/

/-- The levers stay within their fields: DUTY is lowered within its value, and raised below 64. -/
theorem adjust_lt {run n sum stackW arrayW duty mstep : Nat} (hd : duty < 128) (hm : mstep < 8) :
    (adjust run n sum stackW arrayW duty mstep).1 < 128 ∧ (adjust run n sum stackW arrayW duty mstep).2 < 8 := by
  have hlow : run * n < sum → duty * (run * n) / sum ≤ duty := fun h =>
    Nat.div_le_of_le_mul (by rw [Nat.mul_comm sum]; exact Nat.mul_le_mul_left _ h.le)
  unfold adjust
  repeat' split
  all_goals constructor
  all_goals dsimp only
  all_goals omega

section
variable {s : State} {stackW arrayW : Nat}

/-- What the levers become at a check. -/
def State.levers (s : State) (stackW arrayW : Nat) : Nat × Nat :=
  adjust (s.rd F.PWR_LIMIT_RUN_W) s.power.sum100.length s.power.sum100.sum stackW arrayW (s.rd F.PWR_MEAS_DUTY) (s.rd F.PWR_MEAS_MSTEP)

/-- The levers as they are written. -/
def leversSet (d m : Nat) (s : State) : State := (s.wr F.PWR_MEAS_DUTY d).wr F.PWR_MEAS_MSTEP m

/-- Is a lever in use? -/
def leverUsed (d m : Nat) : Bool := decide (d < 64) || decide (0 < m)

/-- The host is told when a lever is first used, and when both have returned. -/
theorem powerControlCheck_run (h : s.atL0 = true) :
    powerControlCheck stackW arrayW s =
      let r := s.levers stackW arrayW
      if leverUsed r.1 r.2 = s.power.limited then leversSet r.1 r.2 s
      else raiseVector 0 3 ((leversSet r.1 r.2 s).onPower fun q => { q with limited := leverUsed r.1 r.2 }) := by
  unfold powerControlCheck
  rw [h]
  rfl

theorem exec_powerControlCheck_idle (h : s.atL0 = false) : exec (.powerControlCheck stackW arrayW) s = .next s := by
  have hid : powerControlCheck stackW arrayW s = s := by unfold powerControlCheck; rw [h]; rfl
  rw [exec_powerControlCheck, execPowerControlCheck, hid, State.done_self]

/-- A check sets the levers, and nothing else changes but whether their use has been told. -/
theorem exec_powerControlCheck_sets (h : s.atL0 = true) {d m : Nat} (hr : s.levers stackW arrayW = (d, m)) :
    ∃ s', exec (.powerControlCheck stackW arrayW) s = .next s' ∧ s'.rd F.PWR_MEAS_DUTY = d ∧ s'.rd F.PWR_MEAS_MSTEP = m ∧
      s'.power = { s.power with limited := decide (d < 64) || decide (0 < m) } ∧
      (∀ k, k ≠ R.PWR_MEAS → s'.reg k = s.reg k) ∧
      s' = { s with regs := s'.regs, power := s'.power, hcfg := s'.hcfg, outbox := s'.outbox } := by
  have hlt := adjust_lt (run := s.rd F.PWR_LIMIT_RUN_W) (n := s.power.sum100.length) (sum := s.power.sum100.sum) (stackW := stackW)
    (arrayW := arrayW) (duty := s.rd F.PWR_MEAS_DUTY) (mstep := s.rd F.PWR_MEAS_MSTEP) (rd_lt s ⟨by decide, by decide⟩)
    (rd_lt s ⟨by decide, by decide⟩)
  rw [show adjust _ _ _ _ _ _ _ = (d, m) from hr] at hlt
  have hduty : (leversSet d m s).rd F.PWR_MEAS_DUTY = d :=
    (rd_wr_clear _ (by decide) _).trans (rd_wr_of_lt _ ⟨by decide, by decide⟩ hlt.1)
  have hstep : (leversSet d m s).rd F.PWR_MEAS_MSTEP = m := rd_wr_of_lt _ ⟨by decide, by decide⟩ hlt.2
  have hreg : ∀ k, k ≠ R.PWR_MEAS → (leversSet d m s).reg k = s.reg k := fun k hk =>
    (reg_wr_other _ _ _ hk).trans (reg_wr_other _ _ _ hk)
  rw [exec_powerControlCheck, execPowerControlCheck, powerControlCheck_run h]
  dsimp only
  rw [hr]
  dsimp only
  split
  · rename_i hl
    refine ⟨_, State.done_eq rfl rfl, hduty, hstep, ?_, hreg, rfl⟩
    change s.power = _
    rw [show (decide (d < 64) || decide (0 < m)) = s.power.limited from hl]
  · generalize hu : (leversSet d m s).onPower (fun q => { q with limited := leverUsed d m }) = u
    refine ⟨_, State.done_eq ?_ ?_, ?_, ?_, ?_, fun k hk => ?_, ?_⟩
    · rw [raiseVector_pending, ← hu]; rfl
    · rw [raiseVector_otp, ← hu]; rfl
    · rw [raiseVector_at_rd, ← hu]; exact hduty
    · rw [raiseVector_at_rd, ← hu]; exact hstep
    · rw [raiseVector_power, ← hu]; rfl
    · rw [raiseVector_at_reg, ← hu]; exact hreg k hk
    · have hfr := fun r p c o => raiseVector_frame (fun v => { v with regs := r, power := p, hcfg := c, outbox := o })
        (fun _ _ => rfl) (fun _ _ => rfl) 0 3 u
      generalize raiseVector 0 3 u = t at hfr
      refine (hfr t.regs t.power t.hcfg t.outbox).trans ?_
      rw [← hu]
      rfl

/-- Above the limit DUTY falls first, and MSTEP rises once DUTY is spent; below it MSTEP returns before DUTY. -/
theorem levers_cases :
    let n := s.power.sum100.length
    let sum := s.power.sum100.sum
    let cap := s.rd F.PWR_LIMIT_RUN_W * n
    let duty := s.rd F.PWR_MEAS_DUTY
    let step := s.rd F.PWR_MEAS_MSTEP
    (cap < sum → 1 < duty → s.levers stackW arrayW = (max 1 (duty * cap / sum), step)) ∧
    (cap < sum → duty ≤ 1 → s.levers stackW arrayW = (duty, if step < 7 then step + 1 else step)) ∧
    (sum ≤ cap → 0 < step →
      s.levers stackW arrayW = (duty, if sum * (8 - step) + stackW * n ≤ cap * (8 - step) then step - 1 else step)) ∧
    (sum ≤ cap → step = 0 → duty < 64 →
      s.levers stackW arrayW = (if sum * duty + arrayW * n ≤ cap * duty then duty + 1 else duty, 0)) ∧
    (sum ≤ cap → step = 0 → 64 ≤ duty → s.levers stackW arrayW = (duty, 0)) := by
  intro n sum cap duty step
  unfold State.levers adjust
  refine ⟨fun h1 h2 => ?_, fun h1 h2 => ?_, fun h1 h2 => ?_, fun h1 h2 h3 => ?_, fun h1 h2 h3 => ?_⟩
  · rw [if_pos h1, if_pos h2]
  · rw [if_pos h1, if_neg (by omega : ¬ 1 < duty)]
    exact (apply_ite (Prod.mk duty) _ _ _).symm
  · rw [if_neg (Nat.not_lt.2 h1), if_pos h2]
    exact (apply_ite (Prod.mk duty) _ _ _).symm
  · rw [if_neg (Nat.not_lt.2 h1), if_neg (by omega : ¬ 0 < step), if_pos h3]
    simp only [show s.rd F.PWR_MEAS_MSTEP = 0 from h2]
    exact (apply_ite (·, 0) _ _ _).symm
  · rw [if_neg (Nat.not_lt.2 h1), if_neg (by omega : ¬ 0 < step), if_neg (by omega : ¬ duty < 64)]
    simp only [show s.rd F.PWR_MEAS_MSTEP = 0 from h2]
    rfl

end

/-! ### Energy and residency (R494) -/

/-- What has not been counted of an energy yet. -/
def State.energyOwed (s : State) (k : Nat) : Nat := SMap.get (fun _ => 0) s.power.energyRem k

/-- Draws count 10 µs each into the energies from number `i` on. -/
def energiesCounted (l : List Nat) (i : Nat) (s : State) : State := each (l.zipIdx i) (fun e s => countEnergy e.2 e.1 s) s

theorem energiesCounted_cons (w : Nat) (l : List Nat) (i : Nat) (s : State) :
    energiesCounted (w :: l) i s = energiesCounted l (i + 1) (countEnergy i w s) := rfl

/-- The registers of the energies are distinct. -/
theorem energyKey_ne {j k : Nat} (h : j ≠ k) : R.PWR_ENERGY j ≠ R.PWR_ENERGY k := by
  unfold R.PWR_ENERGY; omega

theorem countEnergy_same (k w : Nat) (s : State) :
    (countEnergy k w s).rd (F.PWR_ENERGY_MJ k) = (s.rd (F.PWR_ENERGY_MJ k) + (s.energyOwed k + 10 * w) / 1000) % 2 ^ 64 ∧
      (countEnergy k w s).energyOwed k = (s.energyOwed k + 10 * w) % 1000 :=
  ⟨rd_wr_same s ⟨Nat.zero_le 63, Nat.lt_succ_self 63⟩ _, SMap.get_put_same _ _ _ _⟩

theorem countEnergy_other {j k : Nat} (h : j ≠ k) (w : Nat) (s : State) :
    (countEnergy k w s).rd (F.PWR_ENERGY_MJ j) = s.rd (F.PWR_ENERGY_MJ j) ∧ (countEnergy k w s).energyOwed j = s.energyOwed j :=
  ⟨rd_wr_other s (energyKey_ne h) _, SMap.get_put_other _ _ _ h⟩

/-- Energies below the first counted one are as before. -/
theorem energiesCounted_below (l : List Nat) {i k : Nat} (h : k < i) (s : State) :
    (energiesCounted l i s).rd (F.PWR_ENERGY_MJ k) = s.rd (F.PWR_ENERGY_MJ k) ∧ (energiesCounted l i s).energyOwed k = s.energyOwed k := by
  induction l generalizing i s with
  | nil => exact ⟨rfl, rfl⟩
  | cons w l ih =>
    obtain ⟨hr, ho⟩ := ih (Nat.lt_succ_of_lt h) (countEnergy i w s)
    obtain ⟨hr', ho'⟩ := countEnergy_other (Nat.ne_of_lt h) w s
    exact ⟨hr.trans hr', ho.trans ho'⟩

/-- Each draw of a list counts into its own energy. -/
theorem energiesCounted_at {l : List Nat} {j : Nat} (h : j < l.length) (i : Nat) (s : State) :
    (energiesCounted l i s).rd (F.PWR_ENERGY_MJ (i + j)) =
        (s.rd (F.PWR_ENERGY_MJ (i + j)) + (s.energyOwed (i + j) + 10 * l.getD j 0) / 1000) % 2 ^ 64 ∧
      (energiesCounted l i s).energyOwed (i + j) = (s.energyOwed (i + j) + 10 * l.getD j 0) % 1000 := by
  induction l generalizing i j s with
  | nil => simp at h
  | cons w l ih =>
    rw [energiesCounted_cons]
    cases j with
    | zero =>
      obtain ⟨hr, ho⟩ := energiesCounted_below l (Nat.lt_succ_self i) (countEnergy i w s)
      obtain ⟨hr', ho'⟩ := countEnergy_same i w s
      exact ⟨hr.trans hr', ho.trans ho'⟩
    | succ j =>
      obtain ⟨hr', ho'⟩ := countEnergy_other (show i + (j + 1) ≠ i by omega) w s
      have := ih (by simpa using h) (i + 1) (countEnergy i w s)
      rw [show i + 1 + j = i + (j + 1) by omega, hr', ho'] at this
      exact this

/-- Counting energies writes their registers alone. -/
theorem energiesCounted_reg {k : Nat} (h : ∀ j, k ≠ R.PWR_ENERGY j) (l : List Nat) (i : Nat) (s : State) :
    (energiesCounted l i s).reg k = s.reg k := by
  induction l generalizing i s with
  | nil => rfl
  | cons w l ih =>
    rw [energiesCounted_cons, ih]
    exact reg_wr_other s (F.PWR_ENERGY_MJ i) _ (h i)

/-- Of the state, counting energies changes the registers and what the controller owes them. -/
theorem energiesCounted_frame {β : Sort _} (obs : State → β) (hregs : ∀ s x, obs { s with regs := x } = obs s)
    (hpower : ∀ s e, obs (s.onPower fun p => { p with energyRem := e }) = obs s) (l : List Nat) (i : Nat) (s : State) :
    obs (energiesCounted l i s) = obs s := by
  induction l generalizing i s with
  | nil => rfl
  | cons w l ih =>
    rw [energiesCounted_cons, ih]
    unfold countEnergy
    exact (hpower _ _).trans (hregs _ _)

/-! ### The package's draw (R494, R496) -/

/-- The sums of a sample stand at the head of the averages. -/
def summed (total : Nat) (p : Power) : Power :=
  { p with sum100 := (total :: p.sum100).take 10, sum1000 := (total :: p.sum1000).take 100 }

/-- The package's draw over the last 1 ms, with a sample, as PWR_MEAS shows it. -/
def State.pkgDraw (s : State) (total : Nat) : Nat := min (meanOf ((total :: s.power.sum1000).take 100)) 65535

/-- The average and the peak that a sample leaves. -/
def averaged (total : Nat) (s : State) : State :=
  ((s.onPower (summed total)).wr F.PWR_MEAS_PKG_W (s.pkgDraw total)).wr F.PWR_MEAS_PEAK_W
    (max (s.rd F.PWR_MEAS_PEAK_W) (s.pkgDraw total))

/-- What a sample measures of the package, before the sites are looked at. -/
def packageMeasured (l : List Nat) (total : Nat) (s : State) : State := energiesCounted l 0 (countResidency (averaged total s))

/-- The registers of the package's measurement. -/
def isMeasure (k : Nat) : Prop := k = R.PWR_MEAS ∨ (∃ j, k = R.PWR_ENERGY j) ∨ ∃ j, k = R.PWR_RESID j

section
variable (l : List Nat) (total : Nat) (s : State)

theorem averaged_pkg : (averaged total s).rd F.PWR_MEAS_PKG_W = s.pkgDraw total :=
  (rd_wr_clear _ (by decide) _).trans
    (rd_wr_of_lt _ ⟨by decide, by decide⟩ (Nat.lt_of_le_of_lt (Nat.min_le_right _ _) (by decide)))

theorem averaged_peak : (averaged total s).rd F.PWR_MEAS_PEAK_W = max (s.rd F.PWR_MEAS_PEAK_W) (s.pkgDraw total) :=
  rd_wr_of_lt _ ⟨by decide, by decide⟩
    (Nat.max_lt.2 ⟨rd_lt s ⟨by decide, by decide⟩, Nat.lt_of_le_of_lt (Nat.min_le_right _ _) (by decide)⟩)

theorem averaged_reg {k : Nat} (h : k ≠ R.PWR_MEAS) : (averaged total s).reg k = s.reg k :=
  (reg_wr_other _ _ _ h).trans (reg_wr_other _ _ _ h)

theorem countResidency_reg {k : Nat} (h : ∀ j, k ≠ R.PWR_RESID j) : (countResidency s).reg k = s.reg k :=
  reg_wr_other s (F.PWR_RESID_MS (s.rd F.PWR_STATUS_STATE)) _ (h _)

/-- A measurement writes its registers alone. -/
theorem packageMeasured_reg {k : Nat} (h : ¬ isMeasure k) : (packageMeasured l total s).reg k = s.reg k := by
  unfold isMeasure at h
  push Not at h
  obtain ⟨hm, he, hr⟩ := h
  exact (energiesCounted_reg he l 0 _).trans ((countResidency_reg _ hr).trans (averaged_reg total s hm))

/-- What PWR_MEAS shows behind a measurement. -/
theorem packageMeasured_meas {g : Fld} (h : g.key = R.PWR_MEAS) : (packageMeasured l total s).rd g = (averaged total s).rd g := by
  unfold packageMeasured State.rd
  rw [h, energiesCounted_reg (fun j => by unfold R.PWR_MEAS R.PWR_ENERGY; omega),
    countResidency_reg _ (fun j => by unfold R.PWR_MEAS R.PWR_RESID; omega)]

/-- A measurement changes the registers and the controller alone. -/
theorem packageMeasured_frame {β : Sort _} (obs : State → β) (hregs : ∀ s x, obs { s with regs := x } = obs s)
    (hpower : ∀ s x, obs { s with power := x } = obs s) : obs (packageMeasured l total s) = obs s := by
  refine (energiesCounted_frame obs hregs (fun s _ => hpower s _) l 0 _).trans ?_
  unfold countResidency
  exact (hpower _ _).trans ((hregs _ _).trans ((hregs _ _).trans ((hregs _ _).trans (hpower _ _))))

/-- The sums of a measurement. -/
theorem packageMeasured_sums :
    (packageMeasured l total s).power.sum100 = (total :: s.power.sum100).take 10 ∧
      (packageMeasured l total s).power.sum1000 = (total :: s.power.sum1000).take 100 :=
  ⟨energiesCounted_frame (fun u => u.power.sum100) (fun _ _ => rfl) (fun _ _ => rfl) l 0 _,
    energiesCounted_frame (fun u => u.power.sum1000) (fun _ _ => rfl) (fun _ _ => rfl) l 0 _⟩

/-- The energies of a measurement: each draw counts 10 µs, and whole millijoules go into its counter. -/
theorem packageMeasured_energy {k : Nat} (hk : k < l.length) (h32 : k < 32) :
    (packageMeasured l total s).rd (F.PWR_ENERGY_MJ k) =
        (s.rd (F.PWR_ENERGY_MJ k) + (s.energyOwed k + 10 * l.getD k 0) / 1000) % 2 ^ 64 ∧
      (packageMeasured l total s).energyOwed k = (s.energyOwed k + 10 * l.getD k 0) % 1000 := by
  have hres : (countResidency (averaged total s)).rd (F.PWR_ENERGY_MJ k) = s.rd (F.PWR_ENERGY_MJ k) := by
    refine rd_of_reg (?_ : _ = s.reg (R.PWR_ENERGY k))
    change State.reg _ (R.PWR_ENERGY k) = _
    rw [countResidency_reg, averaged_reg] <;> unfold R.PWR_ENERGY
    · unfold R.PWR_MEAS; omega
    · intro j; unfold R.PWR_RESID; omega
  have := energiesCounted_at hk 0 (countResidency (averaged total s))
  rw [Nat.zero_add, hres] at this
  exact this

end

/-! ### The sites' draws (R22) -/

/-- The last samples of a site, with one more. -/
def State.siteWindow (s : State) (x w : Nat) : List Nat := (w :: (s.site x).power).take 100

/-- A site draws no more than 150 W over its last samples, or there is none. -/
def State.siteCalm (s : State) (x w : Nat) : Prop := s.populated x = false ∨ (s.siteWindow x w).sum ≤ 15000

/-- A site's sample is noted. -/
def siteDrawn (x w : Nat) (s : State) : State :=
  if !s.populated x then s
  else (s.onSite x fun y => { y with power := s.siteWindow x w }).wr (F.CHK_STATUS_POWER_W x) (min (meanOf (s.siteWindow x w)) 65535)

section
variable {x w : Nat} {s : State}

theorem siteDrawn_frame {β : Sort _} (obs : State → β) (hregs : ∀ s x, obs { s with regs := x } = obs s)
    (hsites : ∀ s x, obs { s with sites := x } = obs s) (x w : Nat) (s : State) : obs (siteDrawn x w s) = obs s := by
  unfold siteDrawn
  split
  · rfl
  · exact (hregs _ _).trans (hsites _ _)

theorem siteDrawn_reg {k : Nat} (h : k ≠ R.CHK_STATUS x) (w : Nat) (s : State) : (siteDrawn x w s).reg k = s.reg k := by
  unfold siteDrawn
  split
  · rfl
  · exact reg_wr_other _ (F.CHK_STATUS_POWER_W x) _ h

theorem siteDrawn_other {y : Nat} (h : y ≠ x) (w : Nat) (s : State) : (siteDrawn x w s).site y = s.site y := by
  unfold siteDrawn
  split
  · rfl
  · rw [State.wr_at_site, State.onSite_other _ _ _ h]

theorem siteDrawn_populated (x w y : Nat) (s : State) : (siteDrawn x w s).populated y = s.populated y :=
  siteDrawn_frame (fun u => u.populated y) (fun _ _ => rfl) (fun _ _ => rfl) x w s

/-- What a populated site shows of its sample. -/
theorem siteDrawn_shows (hp : s.populated x = true) (w : Nat) :
    ((siteDrawn x w s).site x).power = s.siteWindow x w ∧
      (siteDrawn x w s).rd (F.CHK_STATUS_POWER_W x) = min (meanOf (s.siteWindow x w)) 65535 := by
  unfold siteDrawn
  rw [hp]
  refine ⟨?_, rd_wr_fits _ (by decide) (Nat.lt_of_le_of_lt (Nat.min_le_right _ _) (by decide))⟩
  simp

/-- A calm site's sample is noted, and nothing more. -/
theorem sampleSite_calm (h : s.siteCalm x w) : sampleSite x w s = siteDrawn x w s := by
  unfold sampleSite siteDrawn
  split
  · rfl
  · rename_i hp
    have hsum := h.resolve_left (by simpa using hp)
    have hsite : ((s.onSite x fun y => { y with power := (w :: y.power).take 100 }).site x).power = s.siteWindow x w :=
      congrArg Site.power (State.onSite_same s x _)
    simp only [hsite]
    rw [if_neg]
    · rfl
    · simp only [Bool.and_eq_true, decide_eq_true_eq]
      omega

end

/-- The samples of a list of sites, `ws x` that of site `x`. -/
def sitesSampled (l : List Nat) (ws : Nat → Nat) (s : State) : State := each l (fun x s => sampleSite x (ws x) s) s

theorem sitesSampled_cons (a : Nat) (l : List Nat) (ws : Nat → Nat) (s : State) :
    sitesSampled (a :: l) ws s = sitesSampled l ws (sampleSite a (ws a) s) := rfl

/-- The samples of calm sites are noted one after another. -/
theorem siteCalm_siteDrawn {x y : Nat} (h : y ≠ x) (ws : Nat → Nat) {s : State} (hc : s.siteCalm y (ws y)) :
    (siteDrawn x (ws x) s).siteCalm y (ws y) := by
  unfold State.siteCalm State.siteWindow at hc ⊢
  rw [siteDrawn_populated, siteDrawn_other h]
  exact hc

section
variable {l : List Nat} {ws : Nat → Nat} {s : State} (hl : l.Nodup) (hc : ∀ x ∈ l, s.siteCalm x (ws x))
include hl hc

/-- Calm sites: an observation that a noted sample leaves alone is left alone by all of them. -/
theorem sitesSampled_calm {β : Sort _} (obs : State → β) (h : ∀ x ∈ l, ∀ s, obs (siteDrawn x (ws x) s) = obs s) :
    obs (sitesSampled l ws s) = obs s := by
  induction l generalizing s with
  | nil => rfl
  | cons a l ih =>
    obtain ⟨ha, hl'⟩ := List.nodup_cons.1 hl
    rw [sitesSampled_cons, sampleSite_calm (hc a (by simp))]
    refine (ih hl' (fun x hx => siteCalm_siteDrawn (ne_of_mem_of_not_mem hx ha) ws (hc x (by simp [hx]))) fun x hx => h x (by simp [hx])).trans ?_
    exact h a (by simp) s

/-- Calm sites: each populated one shows its sample. -/
theorem sitesSampled_shows {x : Nat} (hx : x ∈ l) (hp : s.populated x = true) :
    ((sitesSampled l ws s).site x).power = s.siteWindow x (ws x) ∧
      (sitesSampled l ws s).rd (F.CHK_STATUS_POWER_W x) = min (meanOf (s.siteWindow x (ws x))) 65535 := by
  induction l generalizing s with
  | nil => simp at hx
  | cons a l ih =>
    obtain ⟨ha, hl'⟩ := List.nodup_cons.1 hl
    have hc' : ∀ y ∈ l, (siteDrawn a (ws a) s).siteCalm y (ws y) := fun y hy =>
      siteCalm_siteDrawn (ne_of_mem_of_not_mem hy ha) ws (hc y (by simp [hy]))
    rw [sitesSampled_cons, sampleSite_calm (hc a (by simp))]
    by_cases hxa : x = a
    · subst hxa
      obtain ⟨hw, hr⟩ := siteDrawn_shows hp (ws x)
      have hne : ∀ y ∈ l, x ≠ y := fun y hy => (ne_of_mem_of_not_mem hy ha).symm
      have hkey : ∀ y ∈ l, R.CHK_STATUS x ≠ R.CHK_STATUS y := fun y hy => by
        have := hne y hy; unfold R.CHK_STATUS; omega
      refine ⟨(sitesSampled_calm hl' hc' (fun u => (u.site x).power) fun y hy u => ?_).trans hw,
        (sitesSampled_calm hl' hc' (fun u => u.rd (F.CHK_STATUS_POWER_W x)) fun y hy u => ?_).trans hr⟩
      · exact congrArg Site.power (siteDrawn_other (hne y hy) _ u)
      · exact rd_of_reg (siteDrawn_reg (hkey y hy) _ u)
    · have hxl : x ∈ l := (List.mem_cons.1 hx).resolve_left hxa
      obtain ⟨hw, hr⟩ := ih hl' hc' hxl (by rw [siteDrawn_populated]; exact hp)
      have hwin : (siteDrawn a (ws a) s).siteWindow x (ws x) = s.siteWindow x (ws x) := by
        unfold State.siteWindow
        rw [siteDrawn_other hxa]
      rw [hwin] at hw hr
      exact ⟨hw, hr⟩

end

/-! ### POWER_SAMPLE while every site is calm -/

/-- The draws that a sample counts into the seven energies. -/
def sampleDraws (hub stack link : Nat) (ws : Nat → Nat) : List Nat := [hub, stack, link, ws 0, ws 1, ws 2, ws 3]

/-- Loops over the same list carry out the same steps. -/
theorem each_congr {α : Type} {l : List α} {f g : α → State → State} (h : ∀ a ∈ l, f a = g a) (s : State) : each l f s = each l g s := by
  unfold each
  exact List.foldl_ext _ _ s fun u a ha => congrFun (h a ha) u

/-- A sample: the package is measured, then each site is looked at. -/
theorem powerSample_eq (hub stack link : Nat) (sites : List Nat) (s : State) :
    powerSample hub stack link sites s =
      sitesSampled (List.range 4) (fun x => sites.getD x 0)
        (packageMeasured (sampleDraws hub stack link fun x => sites.getD x 0)
          (hub + stack + link + ((List.range 4).map fun x => sites.getD x 0).sum) s) := by
  have hdraw : ∀ x ∈ List.range 4, sampleSite x (((List.range 4).map fun x => sites.getD x 0).getD x 0) =
      sampleSite x (sites.getD x 0) := fun x hx => by
    have hx4 := List.mem_range.1 hx
    rw [List.getD_eq_getElem?_getD, List.getElem?_map, List.getElem?_range hx4]
    rfl
  exact each_congr (fun x hx => hdraw x hx) _

section
variable {hub stack link : Nat} {sites : List Nat} {s : State}

/-- A site's registers are none of the package's measurement. -/
theorem not_isMeasure_of_lt {k : Nat} (h : k < 0x01600000) : ¬ isMeasure k := by
  unfold isMeasure R.PWR_MEAS R.PWR_ENERGY R.PWR_RESID
  rintro (h' | ⟨j, h'⟩ | ⟨j, h'⟩) <;> omega

/-- A measurement leaves a site's samples alone. -/
theorem packageMeasured_window (l : List Nat) (total x w : Nat) (s : State) :
    (packageMeasured l total s).siteWindow x w = s.siteWindow x w :=
  packageMeasured_frame l total s (fun u => u.siteWindow x w) (fun _ _ => rfl) (fun _ _ => rfl)

theorem packageMeasured_populated (l : List Nat) (total x : Nat) (s : State) :
    (packageMeasured l total s).populated x = s.populated x :=
  packageMeasured_frame l total s (fun u => u.populated x) (fun _ _ => rfl) (fun _ _ => rfl)

theorem packageMeasured_calm {l : List Nat} {total x w : Nat} (h : s.siteCalm x w) : (packageMeasured l total s).siteCalm x w := by
  unfold State.siteCalm at h ⊢
  rw [packageMeasured_window, packageMeasured_populated]
  exact h

/-- The registers of the four sites are their own. -/
theorem chkStatus_lt {x : Nat} (h : x < 4) : R.CHK_STATUS x < 0x01600000 := by unfold R.CHK_STATUS; omega

/-- A sample while every site is calm: the averages, the peak, the energies and the sites' draws (R494, R496). -/
theorem exec_powerSample_calm (hc : ∀ x, x < 4 → s.siteCalm x (sites.getD x 0)) :
    let ws := fun x => sites.getD x 0
    let total := hub + stack + link + ((List.range 4).map ws).sum
    ∃ s', exec (.powerSample hub stack link sites) s = .next s' ∧ s'.rd F.PWR_MEAS_PKG_W = s.pkgDraw total ∧
      s'.rd F.PWR_MEAS_PEAK_W = max (s.rd F.PWR_MEAS_PEAK_W) (s.pkgDraw total) ∧
      s'.power.sum100 = (total :: s.power.sum100).take 10 ∧ s'.power.sum1000 = (total :: s.power.sum1000).take 100 ∧
      (∀ k, k < 7 →
        s'.rd (F.PWR_ENERGY_MJ k) =
          (s.rd (F.PWR_ENERGY_MJ k) + (s.energyOwed k + 10 * (sampleDraws hub stack link ws).getD k 0) / 1000) % 2 ^ 64 ∧
        s'.energyOwed k = (s.energyOwed k + 10 * (sampleDraws hub stack link ws).getD k 0) % 1000) ∧
      (∀ x, x < 4 → s.populated x = true → (s'.site x).power = s.siteWindow x (ws x) ∧
        s'.rd (F.CHK_STATUS_POWER_W x) = min (meanOf (s.siteWindow x (ws x))) 65535) ∧
      s' = { s with regs := s'.regs, power := s'.power, sites := s'.sites } := by
  intro ws total
  let u := packageMeasured (sampleDraws hub stack link ws) total s
  have hcu : ∀ x ∈ List.range 4, u.siteCalm x (ws x) := fun x hx => packageMeasured_calm (hc x (List.mem_range.1 hx))
  have hobs : ∀ {β : Type} (obs : State → β), (∀ x, x < 4 → ∀ s, obs (siteDrawn x (ws x) s) = obs s) →
      obs (sitesSampled (List.range 4) ws u) = obs u := fun obs h =>
    sitesSampled_calm List.nodup_range hcu obs fun x hx => h x (List.mem_range.1 hx)
  have hframe : ∀ {β : Type} (obs : State → β), (∀ s x, obs { s with regs := x } = obs s) →
      (∀ s x, obs { s with sites := x } = obs s) → obs (sitesSampled (List.range 4) ws u) = obs u := fun obs hr hs =>
    hobs obs fun x _ => siteDrawn_frame obs hr hs x (ws x)
  have hrd : ∀ g : Fld, 0x01600000 ≤ g.key → (sitesSampled (List.range 4) ws u).rd g = u.rd g := fun g hg =>
    hobs (fun v => v.rd g) fun x hx v =>
      rd_of_reg (siteDrawn_reg (by have := chkStatus_lt hx; omega) _ v)
  rw [exec_powerSample, execPowerSample, powerSample_eq]
  refine ⟨sitesSampled (List.range 4) ws u, State.done_eq ?_ ?_, ?_, ?_, ?_, ?_, fun k hk => ?_, fun x hx hp => ?_, ?_⟩
  · exact (hframe State.pending (fun _ _ => rfl) fun _ _ => rfl).trans
      (packageMeasured_frame _ _ s State.pending (fun _ _ => rfl) fun _ _ => rfl)
  · exact (hframe State.otp (fun _ _ => rfl) fun _ _ => rfl).trans
      (packageMeasured_frame _ _ s State.otp (fun _ _ => rfl) fun _ _ => rfl)
  · rw [hrd _ (by decide), packageMeasured_meas _ _ _ rfl, averaged_pkg]
  · rw [hrd _ (by decide), packageMeasured_meas _ _ _ rfl, averaged_peak]
  · exact (hframe (fun v => v.power.sum100) (fun _ _ => rfl) fun _ _ => rfl).trans (packageMeasured_sums _ _ s).1
  · exact (hframe (fun v => v.power.sum1000) (fun _ _ => rfl) fun _ _ => rfl).trans (packageMeasured_sums _ _ s).2
  · obtain ⟨hr, ho⟩ := packageMeasured_energy (sampleDraws hub stack link ws) total s (k := k) hk (by omega)
    refine ⟨(hrd _ ?_).trans hr, (hframe (fun v => v.energyOwed k) (fun _ _ => rfl) fun _ _ => rfl).trans ho⟩
    change 0x01600000 ≤ R.PWR_ENERGY k
    unfold R.PWR_ENERGY
    omega
  · have := sitesSampled_shows List.nodup_range hcu (List.mem_range.2 hx) (by rw [packageMeasured_populated]; exact hp)
    rwa [packageMeasured_window] at this
  · have h1 := fun r p t => hframe (fun v => { v with regs := r, power := p, sites := t }) (fun _ _ => rfl) (fun _ _ => rfl)
    have h2 := fun r p t => packageMeasured_frame (sampleDraws hub stack link ws) total s
      (fun v => { v with regs := r, power := p, sites := t }) (fun _ _ => rfl) (fun _ _ => rfl)
    generalize sitesSampled (List.range 4) ws u = t at h1
    exact (h1 t.regs t.power t.sites).trans (h2 _ _ _)

end

end Sys2Proof.Machine
end

section
/-! SUPPORT. The fence of a site's die, and the sample that fences it (R22, R321, R322). -/

namespace Sys2Proof.Machine

/-! ### Loops -/

/-- A loop brings about what the step for one of its elements brings about and no step undoes. -/
theorem each_establishes {α : Type} (P : State → Prop) {f : α → State → State} {l : List α} {a : α} (ha : a ∈ l) (hf : ∀ s, P (f a s))
    (hk : ∀ b ∈ l, ∀ s, P s → P (f b s)) (s : State) : P (each l f s) := by
  have hkeep : ∀ (m : List α), (∀ b ∈ m, b ∈ l) → ∀ s, P s → P (each m f s) := fun m => by
    unfold each
    induction m with
    | nil => exact fun _ s h => h
    | cons b m ih => exact fun hm s h => ih (fun c hc => hm c (by simp [hc])) _ (hk b (hm b (by simp)) s h)
  obtain ⟨m, n, rfl⟩ := List.append_of_mem ha
  have happ : each (m ++ a :: n) f s = each n f (f a (each m f s)) := List.foldl_append
  rw [happ]
  exact hkeep n (fun b hb => by simp [hb]) _ (hf _)

/-- What every step of a loop leaves alone, the loop leaves alone. -/
theorem each_obs {α : Type} {β : Sort _} (obs : State → β) {f : α → State → State} {l : List α}
    (h : ∀ a ∈ l, ∀ s, obs (f a s) = obs s) (s : State) : obs (each l f s) = obs s := by
  unfold each
  induction l generalizing s with
  | nil => rfl
  | cons a l ih => exact (ih (fun b hb => h b (by simp [hb])) _).trans (h a (by simp) s)

/-! ### Modules and objects -/

/-- A module of a die leaves the link, unless it is Off. -/
def moduleFenced (m : Nat) (s : State) : State :=
  if s.modState m = 4 then s else (s.wr (F.D2D_MOD_STATUS_STATE m) 6).wr (F.D2D_MOD_STATUS_WIDTH m) 0

/-- The registers of the modules are distinct. -/
theorem modKey_ne {j k : Nat} (h : j ≠ k) : R.D2D_MOD_STATUS j ≠ R.D2D_MOD_STATUS k := by
  unfold R.D2D_MOD_STATUS; omega

theorem moduleFenced_same (m : Nat) (s : State) : (moduleFenced m s).modState m = if s.modState m = 4 then 4 else 6 := by
  unfold moduleFenced
  split
  · assumption
  · exact (rd_wr_beside _ (by decide) _).trans (rd_wr_fits _ (by decide) (by decide))

theorem moduleFenced_reg {k m : Nat} (h : k ≠ R.D2D_MOD_STATUS m) (s : State) : (moduleFenced m s).reg k = s.reg k := by
  unfold moduleFenced
  split
  · rfl
  · exact (reg_wr_other _ (F.D2D_MOD_STATUS_WIDTH m) _ h).trans (reg_wr_other _ (F.D2D_MOD_STATUS_STATE m) _ h)

theorem moduleFenced_frame {β : Sort _} (obs : State → β) (hregs : ∀ s x, obs { s with regs := x } = obs s) (m : Nat) (s : State) :
    obs (moduleFenced m s) = obs s := by
  unfold moduleFenced
  split
  · rfl
  · exact (hregs _ _).trans (hregs _ _)

theorem moduleFenced_other {j m : Nat} (h : j ≠ m) (s : State) : (moduleFenced m s).modState j = s.modState j :=
  rd_of_reg (moduleFenced_reg (modKey_ne h) s)

/-- Every module of a list leaves the link, and no other changes its state. -/
theorem each_moduleFenced (l : List Nat) (m : Nat) (s : State) :
    (each l moduleFenced s).modState m = if m ∈ l ∧ s.modState m ≠ 4 then 6 else s.modState m := by
  induction l generalizing s with
  | nil => rw [if_neg (by simp)]; rfl
  | cons a l ih =>
    refine (ih (moduleFenced a s)).trans ?_
    by_cases hm : m = a
    · subst hm
      rw [moduleFenced_same]
      by_cases h4 : s.modState m = 4 <;> simp [h4]
    · rw [moduleFenced_other hm]
      simp [hm]

/-- The objects of a context lie among the 8,192 (R165). -/
theorem objectsOf_lt {s : State} {c n : Nat} (h : n ∈ s.objectsOf c) : n < 8192 := by
  unfold State.objectsOf at h
  simp only [List.mem_flatMap, List.mem_filter, List.mem_map, List.mem_range] at h
  obtain ⟨b, ⟨hb, -⟩, i, hi, rfl⟩ := h
  omega

theorem notifyObj_lt {s : State} {x w n : Nat} (h : s.notifyObj x w = some n) : n < 8192 :=
  objectsOf_lt (List.mem_of_getElem? h)

/-- Waits that are tested once more change contexts alone. -/
theorem testWaits_frame {β : Sort _} (obs : State → β) (hctxs : ∀ s x, obs { s with ctxs := x } = obs s) (n : Nat) (s : State) :
    obs (testWaits n s) = obs s :=
  each_obs obs (fun _ _ s => hctxs s _) s

/-- A signal changes its object and contexts alone. -/
theorem soAdd_frame {β : Sort _} (obs : State → β) {n : Nat}
    (hregs : ∀ s k w, k = R.SYN_CNT n ∨ k = R.SYN_CTL n → obs (s.setReg k w) = obs s)
    (hctxs : ∀ s x, obs { s with ctxs := x } = obs s) (v : Nat) (err : Bool) (s : State) : obs (soAdd n v err s) = obs s := by
  have hcnt : ∀ s v, obs (s.wr (F.SYN_CNT_COUNT n) v) = obs s := fun s v => hregs s _ _ (.inl rfl)
  have hsat : ∀ s v, obs (s.wr (F.SYN_CTL_SAT n) v) = obs s := fun s v => hregs s _ _ (.inr rfl)
  have herr : ∀ s v, obs (s.wr (F.SYN_CTL_ERR n) v) = obs s := fun s v => hregs s _ _ (.inr rfl)
  unfold soAdd
  dsimp only
  rw [testWaits_frame obs hctxs]
  split <;> split <;> simp only [hcnt, hsat, herr]

/-! ### The fence of a site (R322, R325, R328) -/

/-- A window of a site that is fenced closes, and its object is signalled. -/
def windowFenced (x w : Nat) (s : State) : State :=
  match (closeWindow x w s).notifyObj x w with
  | some n => soAdd n 1 true (closeWindow x w s)
  | none => closeWindow x w s

section
variable {β : Sort _} (obs : State → β) {x : Nat}

/-- The registers that the fence of site `x` writes in the site and the objects. -/
def isSiteFence (x k : Nat) : Prop := k = R.CHK_STATUS x ∨ (∃ w, k = R.CHK_WIN_A x w) ∨ ∃ n, n < 8192 ∧ (k = R.SYN_CNT n ∨ k = R.SYN_CTL n)

theorem closeWindow_frame {w : Nat} (hregs : ∀ s k v, k = R.CHK_STATUS x ∨ k = R.CHK_WIN_A x w → obs (s.setReg k v) = obs s)
    (s : State) : obs (closeWindow x w s) = obs s :=
  (hregs _ _ _ (.inl rfl)).trans (hregs _ _ _ (.inr rfl))

theorem windowFenced_frame (hregs : ∀ s k v, isSiteFence x k → obs (s.setReg k v) = obs s)
    (hctxs : ∀ s x, obs { s with ctxs := x } = obs s) (w : Nat) (s : State) : obs (windowFenced x w s) = obs s := by
  have hclose : obs (closeWindow x w s) = obs s :=
    closeWindow_frame obs (fun s k v hk => hregs s k v (hk.imp_right fun h => .inl ⟨w, h⟩)) s
  unfold windowFenced
  split
  · rename_i n hn
    exact (soAdd_frame obs (fun s k v hk => hregs s k v (.inr (.inr ⟨n, notifyObj_lt hn, hk⟩))) hctxs _ _ _).trans hclose
  · exact hclose

end

section
variable {x : Nat}

/-- Objects have other registers than sites. -/
theorem windowFenced_reg {k : Nat} (hk : 0x00300000 ≤ k) (hs : k ≠ R.CHK_STATUS x) {w : Nat} (hw : k ≠ R.CHK_WIN_A x w) (s : State) :
    (windowFenced x w s).reg k = s.reg k := by
  have hclose : (closeWindow x w s).reg k = s.reg k :=
    closeWindow_frame (fun u => u.reg k) (fun s j v hj => State.setReg_other s j v (by rcases hj with rfl | rfl <;> assumption)) s
  unfold windowFenced
  split
  · rename_i n hn
    have hn' := notifyObj_lt hn
    refine (soAdd_frame (fun u => u.reg k) (fun s j v hj => State.setReg_other s j v ?_) (fun _ _ => rfl) _ _ _).trans hclose
    unfold R.SYN_CNT R.SYN_CTL at hj
    omega
  · exact hclose

/-- A window that is closed shows it, also behind the signal to its object. -/
theorem windowFenced_closes (x w : Nat) (s : State) : (windowFenced x w s).rd (F.CHK_WIN_A_ACTIVE x w) = 0 := by
  have hclose : (closeWindow x w s).rd (F.CHK_WIN_A_ACTIVE x w) = 0 := by
    unfold closeWindow
    rw [State.wrBit_eq, rd_wr_other]
    · exact rd_wr_fits _ (by decide) (by decide)
    · change R.CHK_WIN_A x w ≠ R.CHK_STATUS x
      unfold R.CHK_WIN_A R.CHK_STATUS
      omega
  unfold windowFenced
  split
  · rename_i n hn
    have hn' := notifyObj_lt hn
    refine (rd_of_reg (soAdd_frame (fun u => u.reg (R.CHK_WIN_A x w)) (fun s j v hj => State.setReg_other s j v ?_)
      (fun _ _ => rfl) 1 true (closeWindow x w s))).trans hclose
    unfold R.SYN_CNT R.SYN_CTL at hj
    unfold R.CHK_WIN_A
    omega
  · exact hclose

/-- A closed window stays closed while others close. -/
theorem windowFenced_keeps_closed (x w v : Nat) (s : State) (h : s.rd (F.CHK_WIN_A_ACTIVE x w) = 0) :
    (windowFenced x v s).rd (F.CHK_WIN_A_ACTIVE x w) = 0 := by
  by_cases hv : w = v
  · subst hv
    exact windowFenced_closes x w s
  · refine (rd_of_reg (windowFenced_reg (k := R.CHK_WIN_A x w) ?_ ?_ ?_ s)).trans h
    all_goals unfold R.CHK_WIN_A
    · omega
    · unfold R.CHK_STATUS; omega
    · omega

/-- A window that closes leaves the site's state and the reason of its fence. -/
theorem windowFenced_status (w : Nat) (s : State) :
    (windowFenced x w s).rd (F.CHK_STATUS_STATE x) = s.rd (F.CHK_STATUS_STATE x) ∧
      (windowFenced x w s).rd (F.CHK_STATUS_FENCE_WHY x) = s.rd (F.CHK_STATUS_FENCE_WHY x) := by
  have hkey : R.CHK_STATUS x ≠ R.CHK_WIN_A x w := by unfold R.CHK_WIN_A R.CHK_STATUS; omega
  have hsig : ∀ u : State, (windowFenced x w u).reg (R.CHK_STATUS x) = (closeWindow x w u).reg (R.CHK_STATUS x) := fun u => by
    unfold windowFenced
    split
    · rename_i n hn
      have hn' := notifyObj_lt hn
      refine soAdd_frame (fun u => u.reg (R.CHK_STATUS x)) (fun s j v hj => State.setReg_other s j v ?_) (fun _ _ => rfl) _ _ _
      unfold R.SYN_CNT R.SYN_CTL at hj
      unfold R.CHK_STATUS
      omega
    · rfl
  constructor <;> refine (rd_of_reg (hsig s)).trans ((rd_wr_beside _ (by decide) _).trans (rd_wr_other s ?_ 0)) <;> exact hkey

/-- What the fence of a site shows before its windows close. -/
def siteDown (x why : Nat) (s : State) : State :=
  let s := (s.wr (F.CHK_STATUS_STATE x) 5).wr (F.CHK_STATUS_FENCE_WHY x) why
  let s := s.onSite x fun y => { y with step := 0, frags := [], talk := [] }
  { s with waiting := s.waiting.filter fun w => w.bucket != 2 ^ 20 + x }

theorem siteDown_at_rd (x why : Nat) (s : State) (g : Fld) :
    (siteDown x why s).rd g = ((s.wr (F.CHK_STATUS_STATE x) 5).wr (F.CHK_STATUS_FENCE_WHY x) why).rd g := rfl

theorem siteDown_reg {x k : Nat} (h : k ≠ R.CHK_STATUS x) (why : Nat) (s : State) : (siteDown x why s).reg k = s.reg k :=
  (reg_wr_other (s.wr (F.CHK_STATUS_STATE x) 5) (F.CHK_STATUS_FENCE_WHY x) why h).trans (reg_wr_other s (F.CHK_STATUS_STATE x) 5 h)

theorem fenceSite_eq (x why : Nat) (s : State) :
    fenceSite x why s =
      each ((List.range 16).filter fun w => (siteDown x why s).on (F.CHK_WIN_A_VALID x w)) (windowFenced x) (siteDown x why s) := rfl

/-- The fence of a site changes its registers and those of objects, the site, contexts and what waits for it. -/
theorem fenceSite_frame {β : Sort _} (obs : State → β) (hregs : ∀ s k v, isSiteFence x k → obs (s.setReg k v) = obs s)
    (hctxs : ∀ s y, obs { s with ctxs := y } = obs s) (hsite : ∀ s f, obs (s.onSite x f) = obs s)
    (hwait : ∀ s y, obs { s with waiting := y } = obs s) (why : Nat) (s : State) : obs (fenceSite x why s) = obs s := by
  rw [fenceSite_eq, each_obs obs fun w _ s => windowFenced_frame obs hregs hctxs w s]
  exact (hwait _ _).trans ((hsite _ _).trans ((hregs _ _ _ (.inl rfl)).trans (hregs _ _ _ (.inl rfl))))

/-- A fenced site shows its state, the reason, and no active window. -/
theorem fenceSite_shows {why : Nat} (hw : why < 16) (s : State) :
    (fenceSite x why s).rd (F.CHK_STATUS_STATE x) = 5 ∧ (fenceSite x why s).rd (F.CHK_STATUS_FENCE_WHY x) = why ∧
      ∀ w, w < 16 → s.on (F.CHK_WIN_A_VALID x w) = true → (fenceSite x why s).rd (F.CHK_WIN_A_ACTIVE x w) = 0 := by
  rw [fenceSite_eq]
  refine ⟨?_, ?_, fun w hw16 hv => ?_⟩
  · rw [each_obs (fun u => u.rd (F.CHK_STATUS_STATE x)) fun w _ s => (windowFenced_status w s).1, siteDown_at_rd]
    exact (rd_wr_beside _ (by decide) _).trans (rd_wr_fits _ (by decide) (by decide))
  · rw [each_obs (fun u => u.rd (F.CHK_STATUS_FENCE_WHY x)) fun w _ s => (windowFenced_status w s).2, siteDown_at_rd]
    exact rd_wr_fits _ (by decide) hw
  · refine each_establishes (fun u => u.rd (F.CHK_WIN_A_ACTIVE x w) = 0) ?_ (windowFenced_closes x w)
      (fun v _ => windowFenced_keeps_closed x w v) _
    have hkey : R.CHK_WIN_A x w ≠ R.CHK_STATUS x := by unfold R.CHK_WIN_A R.CHK_STATUS; omega
    have hvalid : (siteDown x why s).rd (F.CHK_WIN_A_VALID x w) = s.rd (F.CHK_WIN_A_VALID x w) :=
      rd_of_reg (siteDown_reg hkey why s)
    refine List.mem_filter.2 ⟨List.mem_range.2 hw16, ?_⟩
    unfold State.on at hv ⊢
    rw [hvalid]
    exact hv

end

/-! ### The fence of a die (R321, R322) -/

/-- A die is told of its fence where it can hear of it. -/
def fenceTold (b why : Nat) (s : State) : State :=
  if decide (why ≠ 4) && (bundleMods b).any fun m => s.modState m = 2 || s.modState m = 3 then s.out (.sideband b 0x06 [byte why]) else s

/-- A bundle's register marks its fence, and its modules have left the link. -/
def fenceMarked (b why : Nat) (s : State) : State :=
  ((each (bundleMods b) moduleFenced (fenceTold b why s)).wr (F.D2D_BDL_STATUS_STATE b) 4).wr (F.D2D_BDL_STATUS_FENCE_WHY b) why

/-- What a fence shows of the link: its modules, the reason, and no roll call. -/
def linkFenced (b why : Nat) (s : State) : State := showBundle b ((fenceMarked b why s).onBdl b fun x => { x with step := 0, due := 0 })

theorem fenceTold_frame {β : Sort _} (obs : State → β) (hout : ∀ s x, obs { s with outbox := x } = obs s) (b why : Nat) (s : State) :
    obs (fenceTold b why s) = obs s := by
  unfold fenceTold
  split
  · exact hout _ _
  · rfl

/-- The measures of a bundle are shown in its register, apart from its state. -/
theorem showBundle_at_rd {b hi lo : Nat} (h : lo ≤ hi ∧ hi < 42) (s : State) :
    (showBundle b s).rd ⟨R.D2D_BDL_STATUS b, hi, lo⟩ = s.rd ⟨R.D2D_BDL_STATUS b, hi, lo⟩ := by
  unfold showBundle
  dsimp only
  generalize s.halves b = n
  have hhi : lo ≤ hi ∧ hi < 64 := ⟨h.1, by omega⟩
  rw [F.D2D_BDL_STATUS_BW_GBS, F.D2D_BDL_STATUS_HALVES, rd_wr_beside _ ⟨by decide, hhi, .inr (by omega)⟩,
    rd_wr_beside _ ⟨by decide, hhi, .inr (by omega)⟩]

theorem showBundle_reg {b k : Nat} (h : k ≠ R.D2D_BDL_STATUS b) (s : State) : (showBundle b s).reg k = s.reg k := by
  unfold showBundle
  dsimp only
  generalize s.halves b = n
  exact (reg_wr_other _ (F.D2D_BDL_STATUS_BW_GBS b) _ h).trans (reg_wr_other _ (F.D2D_BDL_STATUS_HALVES b) _ h)

theorem showBundle_frame {β : Sort _} (obs : State → β) (hregs : ∀ s x, obs { s with regs := x } = obs s) (b : Nat) (s : State) :
    obs (showBundle b s) = obs s := by
  unfold showBundle
  dsimp only
  generalize s.halves b = n
  exact (hregs _ _).trans (hregs _ _)

theorem linkFenced_frame {β : Sort _} (obs : State → β) (hregs : ∀ s x, obs { s with regs := x } = obs s)
    (hout : ∀ s x, obs { s with outbox := x } = obs s) (hbdls : ∀ s x, obs { s with bdls := x } = obs s) (b why : Nat) (s : State) :
    obs (linkFenced b why s) = obs s := by
  have hmarked : obs (fenceMarked b why s) = obs s := by
    unfold fenceMarked
    refine (hregs _ _).trans ((hregs _ _).trans ?_)
    exact (each_obs obs (fun m _ s => moduleFenced_frame obs hregs m s) _).trans (fenceTold_frame obs hout b why s)
  unfold linkFenced
  exact (showBundle_frame obs hregs b _).trans ((hbdls _ _).trans hmarked)

/-- A bundle's register is none of a module. -/
theorem bdlKey_ne (b m : Nat) : R.D2D_BDL_STATUS b ≠ R.D2D_MOD_STATUS m := by
  unfold R.D2D_BDL_STATUS R.D2D_MOD_STATUS; omega

theorem linkFenced_reg {b k : Nat} (hb : k ≠ R.D2D_BDL_STATUS b) (hm : ∀ m ∈ bundleMods b, k ≠ R.D2D_MOD_STATUS m) (why : Nat)
    (s : State) : (linkFenced b why s).reg k = s.reg k := by
  unfold linkFenced fenceMarked
  rw [showBundle_reg hb, State.onBdl_at_reg, reg_wr_other _ _ _ hb, reg_wr_other _ _ _ hb,
    each_obs (fun u => u.reg k) fun m hmb s => moduleFenced_reg (hm m hmb) s]
  exact fenceTold_frame (fun u => u.reg k) (fun _ _ => rfl) b why s

/-- What a fenced link shows. -/
theorem linkFenced_shows {why : Nat} (hw : why < 16) (b : Nat) (s : State) :
    (linkFenced b why s).rd (F.D2D_BDL_STATUS_STATE b) = 4 ∧ (linkFenced b why s).fenceWhy b = why ∧
      ((linkFenced b why s).bdl b).step = 0 ∧
      ∀ m ∈ bundleMods b, (linkFenced b why s).modState m = if s.modState m = 4 then 4 else 6 := by
  unfold linkFenced State.fenceWhy
  refine ⟨?_, ?_, ?_, fun m hm => ?_⟩
  · rw [F.D2D_BDL_STATUS_STATE, showBundle_at_rd (by decide), State.onBdl_at_rd, fenceMarked, F.D2D_BDL_STATUS_FENCE_WHY,
      rd_wr_beside _ (by decide)]
    exact rd_wr_fits _ (by decide) (by decide)
  · rw [F.D2D_BDL_STATUS_FENCE_WHY, showBundle_at_rd (by decide), State.onBdl_at_rd, fenceMarked]
    exact rd_wr_fits _ (by decide) hw
  · rw [showBundle_frame (fun u => u.bdl b) (fun _ _ => rfl), State.onBdl_same]
  · have hkey : (F.D2D_MOD_STATUS_STATE m).key ≠ R.D2D_BDL_STATUS b := (bdlKey_ne b m).symm
    unfold State.modState
    rw [rd_of_reg (showBundle_reg hkey _), State.onBdl_at_rd, fenceMarked, rd_wr_other _ hkey, rd_wr_other _ hkey]
    have hall := each_moduleFenced (bundleMods b) m (fenceTold b why s)
    rw [fenceTold_frame (fun u => u.modState m) (fun _ _ => rfl)] at hall
    unfold State.modState at hall
    rw [hall]
    by_cases h4 : s.rd (F.D2D_MOD_STATUS_STATE m) = 4 <;> simp [hm, h4]

/-- The modules of a bundle lie among the 160 (R5). -/
theorem bundleMods_lt {b m : Nat} (hb : b < 14) (h : m ∈ bundleMods b) : m < 160 := by
  unfold bundleMods at h
  split at h
  · simp only [List.mem_map, List.mem_range] at h
    omega
  · split at h <;> simp only [List.mem_map, List.mem_range] at h <;> omega

/-- The fence of a site's die: its link, the record, the host's vector, and the site. -/
theorem fenceDie_site {x : Nat} (hx : x < 4) {why : Nat} {s : State} (h : untilReset (s.fenceWhy (10 + x)) = false) :
    ∃ detail, fenceDie (10 + x) why s =
      fenceSite x why (raiseVector 0 5 (bbEvent 0x8031 (bundleSrc (10 + x)) detail (linkFenced (10 + x) why s))) := by
  unfold fenceDie
  rw [if_neg (by rw [h]; decide)]
  dsimp only
  rw [if_neg (by omega), if_neg (by omega), Nat.add_sub_cancel_left]
  exact ⟨_, rfl⟩

section
variable {x why : Nat} {s : State} (hx : x < 4) (h : untilReset (s.fenceWhy (10 + x)) = false)
include hx h

theorem fenceDie_frame {β : Sort _} (obs : State → β) (hregs : ∀ s y, obs { s with regs := y } = obs s)
    (hout : ∀ s y, obs { s with outbox := y } = obs s) (hbdls : ∀ s y, obs { s with bdls := y } = obs s)
    (hbb : ∀ s y, obs { s with bb := y } = obs s) (htls : ∀ s y, obs { s with tls := y } = obs s)
    (hcfg : ∀ s y, obs { s with hcfg := y } = obs s) (hctxs : ∀ s y, obs { s with ctxs := y } = obs s)
    (hwait : ∀ s y, obs { s with waiting := y } = obs s) (hsite : ∀ s f, obs (s.onSite x f) = obs s) :
    obs (fenceDie (10 + x) why s) = obs s := by
  obtain ⟨detail, he⟩ := fenceDie_site (why := why) hx h
  rw [he, fenceSite_frame obs (fun s k v _ => hregs s _) hctxs hsite hwait, raiseVector_frame obs hcfg hout,
    bbEvent_frame obs hregs hbb htls, linkFenced_frame obs hregs hout hbdls]

/-- A site's die is fenced. -/
theorem fenceDie_fenced (hw : why < 16) : dieFenced (10 + x) why s (fenceDie (10 + x) why s) := by
  obtain ⟨detail, he⟩ := fenceDie_site (why := why) hx h
  rw [he]
  generalize hv : raiseVector 0 5 (bbEvent 0x8031 (bundleSrc (10 + x)) detail (linkFenced (10 + x) why s)) = v
  have hlog : ∀ k, isLog k = false → v.reg k = (linkFenced (10 + x) why s).reg k := fun k hk => by
    rw [← hv, raiseVector_at_reg, bbEvent_reg hk]
  have hlow : ∀ k, k < 0x01700000 → v.reg k = (linkFenced (10 + x) why s).reg k := fun k hk => hlog k (by
    unfold isLog R.TLS_EVT_HEAD R.BBX_STATUS R.BBX_COUNT
    simp only [Bool.or_eq_false_iff, Bool.and_eq_false_iff, decide_eq_false_iff_not]
    omega)
  have hlink : ∀ k, 0x00F00000 ≤ k → k < 0x01000000 → (fenceSite x why v).reg k = (linkFenced (10 + x) why s).reg k :=
    fun k h1 h2 => by
      refine (fenceSite_frame (fun u => u.reg k) (fun u j w hj => State.setReg_other u j w ?_) (fun _ _ => rfl) (fun _ _ => rfl)
        (fun _ _ => rfl) why v).trans (hlow k (by omega))
      rcases hj with rfl | ⟨w, rfl⟩ | ⟨n, hn, rfl | rfl⟩
      · unfold R.CHK_STATUS; omega
      · unfold R.CHK_WIN_A; omega
      · unfold R.SYN_CNT; omega
      · unfold R.SYN_CTL; omega
  have hfirst : bundleFirst (10 + x) = 128 + 8 * x := by
    unfold bundleFirst
    rw [if_neg (by omega), if_neg (by omega), if_neg (by omega), Nat.add_sub_cancel_left]
  obtain ⟨hstate, hwhy, hstep, hmods⟩ := linkFenced_shows hw (10 + x) s
  have hbdl : R.D2D_BDL_STATUS (10 + x) = 0x00F00000 + (128 + 8 * x) * 0x400 + 0x100 := by
    unfold R.D2D_BDL_STATUS; rw [hfirst]
  have hbreg := hlink (R.D2D_BDL_STATUS (10 + x)) (by omega) (by omega)
  refine ⟨(rd_of_reg hbreg).trans hstate, (rd_of_reg hbreg).trans hwhy, ?_, fun m hm => ?_, fun hb => ?_, fun _ hb => ?_, fun y hy => ?_⟩
  · have : (fenceSite x why v).bdl (10 + x) = (linkFenced (10 + x) why s).bdl (10 + x) := by
      rw [fenceSite_frame (fun u => u.bdl (10 + x)) (fun _ _ _ _ => rfl) (fun _ _ => rfl) (fun _ _ => rfl) (fun _ _ => rfl), ← hv,
        raiseVector_at_bdl, bbEvent_at_bdl]
    rw [this]
    exact hstep
  · have hmx := bundleMods_lt (by omega) hm
    refine (rd_of_reg (f := F.D2D_MOD_STATUS_STATE m) (hlink (R.D2D_MOD_STATUS m) ?_ ?_)).trans (hmods m hm) <;> unfold R.D2D_MOD_STATUS <;>
      omega
  · omega
  · omega
  · have hxy : y = x := by
      unfold bundleSite at hy
      rw [if_pos (by omega)] at hy
      simpa using hy.symm
    subst hxy
    obtain ⟨hs, hf, hwin⟩ := fenceSite_shows (x := y) hw v
    refine ⟨hs, hf, fun w hw16 hvalid => hwin w hw16 ?_⟩
    have : v.reg (R.CHK_WIN_A y w) = s.reg (R.CHK_WIN_A y w) := by
      rw [hlow _ (by unfold R.CHK_WIN_A; omega), linkFenced_reg]
      · rw [hbdl]; unfold R.CHK_WIN_A; omega
      · intro m hm
        have := bundleMods_lt (by omega) hm
        unfold R.CHK_WIN_A R.D2D_MOD_STATUS
        omega
    unfold State.on at hvalid ⊢
    rw [rd_of_reg (f := F.CHK_WIN_A_VALID y w) this]
    exact hvalid

end

end Sys2Proof.Machine
end

section
/-! SUPPORT. The sample that fences a site (R22). -/

namespace Sys2Proof.Machine

/-- The registers that say whether site `x`'s die is fenced, beside CHK_STATUS: those of the links, and its windows. -/
def isFenceRead (x k : Nat) : Prop := (0x00F00000 ≤ k ∧ k < 0x01000000) ∨ ∃ w, w < 16 ∧ k = R.CHK_WIN_A x w

/-- No CHK_STATUS is among them, and each lies below the power controller and the logs. -/
theorem isFenceRead_bounds {x k : Nat} (hx : x < 4) (h : isFenceRead x k) : (∀ y, k ≠ R.CHK_STATUS y) ∧ k < 0x01600000 := by
  rcases h with ⟨h1, h2⟩ | ⟨w, hw, rfl⟩
  · exact ⟨fun y => by unfold R.CHK_STATUS; omega, by omega⟩
  · unfold R.CHK_WIN_A
    exact ⟨fun y => by unfold R.CHK_STATUS; omega, by omega⟩

theorem isLog_of_lt {k : Nat} (h : k < 0x01700000) : isLog k = false := by
  unfold isLog R.TLS_EVT_HEAD R.BBX_STATUS R.BBX_COUNT
  simp only [Bool.or_eq_false_iff, Bool.and_eq_false_iff, decide_eq_false_iff_not]
  omega

/-- A die that is fenced stays fenced behind what leaves its registers, and is fenced from every state that showed the same before. -/
theorem dieFenced_of {x why : Nat} (hx : x < 4) {s u t v : State} (h : dieFenced (10 + x) why u t)
    (hs : ∀ k, isFenceRead x k → u.reg k = s.reg k) (hv : ∀ k, isFenceRead x k ∨ k = R.CHK_STATUS x → v.reg k = t.reg k)
    (hb : v.bdls = t.bdls) : dieFenced (10 + x) why s v := by
  obtain ⟨hst, hwhy, hstep, hmods, -, -, hsite⟩ := h
  have hbdl : isFenceRead x (R.D2D_BDL_STATUS (10 + x)) := .inl (by
    unfold R.D2D_BDL_STATUS bundleFirst
    rw [if_neg (by omega), if_neg (by omega), if_neg (by omega)]
    omega)
  refine ⟨(rd_of_reg (hv _ (.inl hbdl))).trans hst, (rd_of_reg (hv _ (.inl hbdl))).trans hwhy, ?_, fun m hm => ?_, by omega, by omega,
    fun y hy => ?_⟩
  · unfold State.bdl at hstep ⊢
    rw [hb]
    exact hstep
  · have hmod : isFenceRead x (R.D2D_MOD_STATUS m) := .inl (by
      have := bundleMods_lt (by omega) hm
      unfold R.D2D_MOD_STATUS
      omega)
    have hsm : u.modState m = s.modState m := rd_of_reg (hs _ hmod)
    rw [← hsm]
    exact (rd_of_reg (hv _ (.inl hmod))).trans (hmods m hm)
  · have hxy : y = x := by
      unfold bundleSite at hy
      rw [if_pos (by omega)] at hy
      simpa using hy.symm
    subst hxy
    obtain ⟨h5, hf, hwin⟩ := hsite y hy
    refine ⟨(rd_of_reg (hv _ (.inr rfl))).trans h5, (rd_of_reg (hv _ (.inr rfl))).trans hf, fun w hw hon => ?_⟩
    have hkey : isFenceRead y (R.CHK_WIN_A y w) := .inr ⟨w, hw, rfl⟩
    refine (rd_of_reg (hv _ (.inl hkey))).trans (hwin w hw ?_)
    unfold State.on at hon ⊢
    rw [rd_of_reg (f := F.CHK_WIN_A_VALID y w) (hs _ hkey)]
    exact hon

/-- A site that has drawn more than 150 W over 1 ms is fenced, and the event recorded. -/
theorem sampleSite_over {x w : Nat} {s : State} (hp : s.populated x = true) (hl : (s.siteWindow x w).length = 100)
    (hs : 15000 < (s.siteWindow x w).sum) (hf : untilReset (s.fenceWhy (10 + x)) = false) :
    ∃ detail, sampleSite x w s = bbEvent 0x8033 (srcSite x) detail (fenceDie (10 + x) 3 (siteDrawn x w s)) := by
  have hsite : ((s.onSite x fun y => { y with power := (w :: y.power).take 100 }).site x).power = s.siteWindow x w :=
    congrArg Site.power (State.onSite_same s x _)
  have hkey : R.D2D_BDL_STATUS (10 + x) ≠ R.CHK_STATUS x := by
    unfold R.D2D_BDL_STATUS R.CHK_STATUS; omega
  have hdrawn : siteDrawn x w s =
      (s.onSite x fun y => { y with power := (w :: y.power).take 100 }).wr (F.CHK_STATUS_POWER_W x) (min (meanOf (s.siteWindow x w)) 65535) := by
    unfold siteDrawn
    rw [hp]
    rfl
  have hwhy : (siteDrawn x w s).fenceWhy (10 + x) = s.fenceWhy (10 + x) := rd_of_reg (siteDrawn_reg hkey w s)
  unfold sampleSite
  rw [if_neg (by simp [hp])]
  simp only [hsite, ← hdrawn, hwhy, hf]
  exact ⟨_, if_pos (by simp [hl, hs])⟩

/-- The register of a site's bundle is one of those. -/
theorem isFenceRead_bdl {x : Nat} (hx : x < 4) : isFenceRead x (R.D2D_BDL_STATUS (10 + x)) := .inl (by
  unfold R.D2D_BDL_STATUS bundleFirst
  rw [if_neg (by omega), if_neg (by omega), if_neg (by omega)]
  omega)

/-- What shows the fence of a site's die in two states alike. -/
theorem fenceWhy_of_reg {x : Nat} (hx : x < 4) {s t : State} (h : ∀ k, isFenceRead x k → t.reg k = s.reg k) :
    t.fenceWhy (10 + x) = s.fenceWhy (10 + x) := rd_of_reg (f := F.D2D_BDL_STATUS_FENCE_WHY (10 + x)) (h _ (isFenceRead_bdl hx))

/-- The sample that fences a site: its die is fenced, and the other sites are as before. -/
theorem sampleSite_fences {x w : Nat} {s : State} (hx : x < 4) (hp : s.populated x = true) (hl : (s.siteWindow x w).length = 100)
    (hs : 15000 < (s.siteWindow x w).sum) (hf : untilReset (s.fenceWhy (10 + x)) = false) :
    dieFenced (10 + x) 3 s (sampleSite x w s) ∧ (∀ y, y ≠ x → (sampleSite x w s).site y = s.site y) ∧
      ∀ y, (sampleSite x w s).populated y = s.populated y := by
  obtain ⟨detail, hover⟩ := sampleSite_over hp hl hs hf
  have hdr : ∀ k, isFenceRead x k → (siteDrawn x w s).reg k = s.reg k := fun k hk =>
    siteDrawn_reg ((isFenceRead_bounds hx hk).1 x) _ s
  have hdf : untilReset ((siteDrawn x w s).fenceWhy (10 + x)) = false := by
    rw [fenceWhy_of_reg hx hdr]; exact hf
  rw [hover]
  refine ⟨dieFenced_of hx (fenceDie_fenced hx hdf (by decide)) hdr (fun k hk => bbEvent_reg (isLog_of_lt ?_) _ _ _ _) (by simp),
    fun y hy => ?_, fun y => ?_⟩
  · rcases hk with hk | rfl
    · have := (isFenceRead_bounds hx hk).2
      omega
    · have := chkStatus_lt hx
      omega
  · rw [bbEvent_at_site, fenceDie_frame hx hdf (fun u => u.site y) (fun _ _ => rfl) (fun _ _ => rfl) (fun _ _ => rfl) (fun _ _ => rfl)
      (fun _ _ => rfl) (fun _ _ => rfl) (fun _ _ => rfl) (fun _ _ => rfl) (fun u f => State.onSite_other u x f hy), siteDrawn_other hy]
  · rw [bbEvent_frame (fun u => u.populated y) (fun _ _ => rfl) (fun _ _ => rfl) (fun _ _ => rfl),
      fenceDie_frame hx hdf (fun u => u.populated y) (fun _ _ => rfl) (fun _ _ => rfl) (fun _ _ => rfl) (fun _ _ => rfl)
      (fun _ _ => rfl) (fun _ _ => rfl) (fun _ _ => rfl) (fun _ _ => rfl) (fun _ _ => rfl), siteDrawn_populated]

/-- A site is as calm in a state that shows the same of it. -/
theorem siteCalm_congr {y w : Nat} {s t : State} (hs : t.site y = s.site y) (hp : t.populated y = s.populated y) (h : s.siteCalm y w) :
    t.siteCalm y w := by
  unfold State.siteCalm State.siteWindow at h ⊢
  rw [hs, hp]
  exact h

/-- Samples of a list of sites of which one draws too much: it is fenced. -/
theorem sitesSampled_fences {l : List Nat} (hl : l.Nodup) {x : Nat} (hxl : x ∈ l) (hx : x < 4) {ws : Nat → Nat} {s : State}
    (hp : s.populated x = true) (hlen : (s.siteWindow x (ws x)).length = 100) (hsum : 15000 < (s.siteWindow x (ws x)).sum)
    (hf : untilReset (s.fenceWhy (10 + x)) = false) (hc : ∀ y ∈ l, y ≠ x → s.siteCalm y (ws y)) :
    dieFenced (10 + x) 3 s (sitesSampled l ws s) := by
  induction l generalizing s with
  | nil => simp at hxl
  | cons a l ih =>
    obtain ⟨ha, hl'⟩ := List.nodup_cons.1 hl
    rw [sitesSampled_cons]
    by_cases hxa : x = a
    · subst hxa
      obtain ⟨hfen, hsite, hpop⟩ := sampleSite_fences hx hp hlen hsum hf
      have hne : ∀ y ∈ l, y ≠ x := fun y hy => ne_of_mem_of_not_mem hy ha
      have hcl : ∀ y ∈ l, (sampleSite x (ws x) s).siteCalm y (ws y) := fun y hy =>
        siteCalm_congr (hsite y (hne y hy)) (hpop y) (hc y (by simp [hy]) (hne y hy))
      refine dieFenced_of hx hfen (fun _ _ => rfl) (fun k hk => ?_)
        (sitesSampled_calm hl' hcl State.bdls fun y _ u => siteDrawn_frame State.bdls (fun _ _ => rfl) (fun _ _ => rfl) y _ u)
      refine sitesSampled_calm hl' hcl (fun u => u.reg k) fun y hy u => siteDrawn_reg ?_ _ u
      rcases hk with hk | rfl
      · exact (isFenceRead_bounds hx hk).1 y
      · have := hne y hy
        unfold R.CHK_STATUS
        omega
    · have hcalm := hc a (by simp) (Ne.symm hxa)
      rw [sampleSite_calm hcalm]
      have hreg : ∀ k, isFenceRead x k → (siteDrawn a (ws a) s).reg k = s.reg k := fun k hk =>
        siteDrawn_reg ((isFenceRead_bounds hx hk).1 a) _ s
      have hwin : (siteDrawn a (ws a) s).siteWindow x (ws x) = s.siteWindow x (ws x) := by
        unfold State.siteWindow
        rw [siteDrawn_other hxa]
      refine dieFenced_of hx (ih hl' ((List.mem_cons.1 hxl).resolve_left hxa) ?_ ?_ ?_ ?_ fun y hy hyx => ?_) hreg (fun _ _ => rfl) rfl
      · rw [siteDrawn_populated]; exact hp
      · rw [hwin]; exact hlen
      · rw [hwin]; exact hsum
      · rw [fenceWhy_of_reg hx hreg]; exact hf
      · exact siteCalm_siteDrawn (ne_of_mem_of_not_mem hy ha) ws (hc y (by simp [hy]) hyx)

/-- A sample over which one site draws too much fences it. -/
theorem exec_powerSample_fences {hub stack link x : Nat} {sites : List Nat} {s : State} (hx : x < 4) (hp : s.populated x = true)
    (hl : (s.siteWindow x (sites.getD x 0)).length = 100) (hs : 15000 < (s.siteWindow x (sites.getD x 0)).sum)
    (hc : ∀ y, y < 4 → y ≠ x → s.siteCalm y (sites.getD y 0)) (hd : dieIdle (10 + x) s) :
    ∃ s', exec (.powerSample hub stack link sites) s = .next s' ∧ dieFenced (10 + x) 3 s s' := by
  let ws := fun x => sites.getD x 0
  let u := packageMeasured (sampleDraws hub stack link ws) (hub + stack + link + ((List.range 4).map ws).sum) s
  have hur : ∀ k, isFenceRead x k → u.reg k = s.reg k := fun k hk =>
    packageMeasured_reg _ _ s (not_isMeasure_of_lt (isFenceRead_bounds hx hk).2)
  have hfen : dieFenced (10 + x) 3 u (sitesSampled (List.range 4) ws u) := by
    refine sitesSampled_fences List.nodup_range (List.mem_range.2 hx) hx ?_ ?_ ?_ ?_ fun y hy hyx =>
      packageMeasured_calm (hc y (List.mem_range.1 hy) hyx)
    · rw [packageMeasured_populated]; exact hp
    · rw [packageMeasured_window]; exact hl
    · rw [packageMeasured_window]; exact hs
    · rw [fenceWhy_of_reg hx hur]; exact hd.1
  rw [exec_powerSample, execPowerSample, powerSample_eq]
  exact ⟨_, rfl, dieFenced_of hx hfen hur (fun _ _ => rfl) rfl⟩

end Sys2Proof.Machine
end

section
/-! SUPPORT. The end of a move: what it shows, and the steps of an exit (R482, R487–R490). -/

namespace Sys2Proof.Machine

/-! ### Loops over the elements of a list -/

/-- A loop whose steps for the elements of its list each change only some fields changes only those. -/
theorem each_rel_mem {α : Type} (R : State → State → Prop) (hr : ∀ s, R s s) (ht : ∀ a b c, R a b → R b c → R a c)
    {f : α → State → State} {l : List α} (hf : ∀ a ∈ l, ∀ s, R s (f a s)) (s : State) : R s (each l f s) := by
  unfold each
  induction l generalizing s with
  | nil => exact hr s
  | cons a l ih => exact ht _ _ _ (hf a (by simp) s) (ih (fun b hb => hf b (by simp [hb])) (f a s))

/-- A loop whose steps change nothing changes nothing. -/
theorem each_id {α : Type} {f : α → State → State} {l : List α} {s : State} (h : ∀ a ∈ l, f a s = s) : each l f s = s := by
  unfold each
  induction l with
  | nil => rfl
  | cons a l ih =>
    rw [List.foldl_cons, h a (by simp)]
    exact ih fun b hb => h b (by simp [hb])

/-- The tiles of a partition lie among the 64. -/
theorem tilesOf_lt {s : State} {p t : Nat} (h : t ∈ s.tilesOf p) : t < 64 := by
  unfold State.tilesOf State.groupsOf setBits at h
  simp only [List.mem_flatMap, List.mem_filter, List.mem_map, List.mem_range] at h
  obtain ⟨g, ⟨hg, -⟩, i, hi, rfl⟩ := h
  omega

/-! ### The conditions of the domains (R482) -/

/-- The registers that the conditions of the domains depend on: the partitions, the life-cycle state and debug. -/
def isCondKey (k : Nat) : Prop := (0x00D10000 ≤ k ∧ k < 0x00D10040) ∨ k = R.LCS_STATUS ∨ k = R.HWD_STATUS

/-- The partition of a group depends on the partitions' registers. -/
theorem partOfGroup_congr {s t : State} (h : ∀ k, isCondKey k → t.reg k = s.reg k) (g : Nat) : t.partOfGroup g = s.partOfGroup g := by
  unfold State.partOfGroup
  refine List.find?_congr fun p hp => ?_
  have hp8 := List.mem_range.1 hp
  have hk : t.reg (R.CTX_PART p) = s.reg (R.CTX_PART p) := h _ (.inl (by unfold R.CTX_PART; omega))
  unfold State.on
  rw [rd_of_reg (f := F.CTX_PART_VALID p) hk, rd_of_reg (f := F.CTX_PART_GROUPS p) hk]

theorem scopesOpen_congr {s t : State} (hw : t.hw = s.hw) (h : ∀ k, isCondKey k → t.reg k = s.reg k) : t.scopesOpen = s.scopesOpen := by
  have hlc : t.lc = s.lc := rd_of_reg (h _ (.inr (.inl rfl)))
  have hon : t.rd F.HWD_STATUS_DEBUG_ON = s.rd F.HWD_STATUS_DEBUG_ON := rd_of_reg (h _ (.inr (.inr rfl)))
  unfold State.scopesOpen State.on
  rw [hlc, hon, hw]

/-- The condition of a domain depends on those registers and on the open scopes alone. -/
theorem condIn_congr {s t : State} (hw : t.hw = s.hw) (h : ∀ k, isCondKey k → t.reg k = s.reg k) (l d : Nat) :
    t.condIn l d = s.condIn l d := by
  unfold State.condIn State.groupOff
  rw [partOfGroup_congr h, scopesOpen_congr hw h]

theorem condIn_lt (s : State) (l d : Nat) : s.condIn l d < 4 := by
  unfold State.condIn
  repeat' refine iteInduction (motive := (· < 4)) (fun _ => ?_) fun _ => ?_
  all_goals decide

/-- A domain is brought into its condition (R482, R489). -/
def domainShown (l wake d : Nat) (s : State) : State :=
  (when' ((s.rd (F.PWR_DOMAIN_COND d) = 3 && s.condIn l d ≠ 3) || (s.rd (F.PWR_DOMAIN_COND d) = 1 && s.condIn l d = 0))
    (fun s => s.wr (F.PWR_DOMAIN_WAKE_LAST d) wake) s).wr (F.PWR_DOMAIN_COND d) (s.condIn l d)

theorem showDomains_eq (l wake : Nat) (s : State) : showDomains l wake s = each (List.range 20) (domainShown l wake) s := rfl

theorem domainShown_frame {β : Sort _} (obs : State → β) (hregs : ∀ s x, obs { s with regs := x } = obs s) (l wake d : Nat) (s : State) :
    obs (domainShown l wake d s) = obs s := by
  unfold domainShown when'
  refine (hregs _ _).trans ?_
  split
  · exact hregs _ _
  · rfl

theorem domainShown_reg {k d : Nat} (h : k ≠ R.PWR_DOMAIN d) (l wake : Nat) (s : State) : (domainShown l wake d s).reg k = s.reg k := by
  unfold domainShown when'
  refine (reg_wr_other _ (F.PWR_DOMAIN_COND d) _ h).trans ?_
  split
  · exact reg_wr_other s (F.PWR_DOMAIN_WAKE_LAST d) wake h
  · rfl

theorem domainShown_condIn {d : Nat} (hd : d < 20) (l wake j d' : Nat) (s : State) :
    (domainShown l wake d s).condIn j d' = s.condIn j d' := by
  refine condIn_congr (domainShown_frame State.hw (fun _ _ => rfl) _ _ _ _) (fun k hk => domainShown_reg ?_ l wake s) _ _
  unfold isCondKey R.LCS_STATUS R.HWD_STATUS at hk
  unfold R.PWR_DOMAIN
  omega

theorem domainShown_same (l wake d : Nat) (s : State) : (domainShown l wake d s).rd (F.PWR_DOMAIN_COND d) = s.condIn l d :=
  rd_wr_fits _ (by decide) (condIn_lt s l d)

/-- Showing the domains writes their registers alone. -/
theorem showDomains_reg {k : Nat} (h : ∀ d, d < 20 → k ≠ R.PWR_DOMAIN d) (l wake : Nat) (s : State) :
    (showDomains l wake s).reg k = s.reg k :=
  each_obs (fun u => u.reg k) (fun d hd s => domainShown_reg (h d (List.mem_range.1 hd)) l wake s) s

theorem showDomains_frame {β : Sort _} (obs : State → β) (hregs : ∀ s x, obs { s with regs := x } = obs s) (l wake : Nat) (s : State) :
    obs (showDomains l wake s) = obs s :=
  each_obs obs (fun d _ s => domainShown_frame obs hregs l wake d s) s

/-- Every domain shows its condition. -/
theorem showDomains_shows (l wake : Nat) (s : State) {d : Nat} (hd : d < 20) :
    (showDomains l wake s).rd (F.PWR_DOMAIN_COND d) = (showDomains l wake s).condIn l d := by
  rw [showDomains_eq]
  refine each_establishes (fun u => u.rd (F.PWR_DOMAIN_COND d) = u.condIn l d) (List.mem_range.2 hd) (fun s => ?_) (fun e he s h => ?_) s
  · rw [domainShown_same, domainShown_condIn hd]
  · rw [domainShown_condIn (List.mem_range.1 he)]
    by_cases hde : d = e
    · subst hde
      exact domainShown_same l wake d s
    · refine (rd_of_reg (domainShown_reg ?_ l wake s)).trans h
      change R.PWR_DOMAIN d ≠ R.PWR_DOMAIN e
      unfold R.PWR_DOMAIN
      omega

end Sys2Proof.Machine
end

section
/-! SUPPORT. What the steps of an exit leave alone (R488, R490). -/

namespace Sys2Proof.Machine

/-! ### What the end of a move is read from -/

/-- The registers of the power controller, of contexts and partitions, of the life cycle and debug, and MBX_STATUS. -/
def isMoveKey (k : Nat) : Prop :=
  (0x01600000 ≤ k ∧ k < 0x01600400) ∨ (0x00D00000 ≤ k ∧ k < 0x00D10040) ∨ k = R.LCS_STATUS ∨ k = R.HWD_STATUS ∨ k = R.MBX_STATUS

/-- What the end of a move is read from: the power controller, device memory, the open scopes, and those registers. -/
def State.moveView (s : State) : Power × SMap Byte × Hw × ({k // isMoveKey k} → Word) := (s.power, s.devMem, s.hw, fun k => s.reg k.1)

/-- The same, with the pools and the DMA engines. -/
def State.exitView (s : State) : (Power × SMap Byte × Hw × ({k // isMoveKey k} → Word)) × SMap Pool × SMap Engine :=
  (s.moveView, s.pools, s.engines)

theorem moveView_of {s t : State} (hp : t.power = s.power) (hd : t.devMem = s.devMem) (hw : t.hw = s.hw)
    (hr : ∀ k, isMoveKey k → t.reg k = s.reg k) : t.moveView = s.moveView := by
  unfold State.moveView
  rw [hp, hd, hw, funext fun k : {k // isMoveKey k} => hr k.1 k.2]

section
variable {s t : State} (h : t.moveView = s.moveView)
include h

theorem power_of_moveView : t.power = s.power := congrArg (·.1) h
theorem devMem_of_moveView : t.devMem = s.devMem := congrArg (·.2.1) h
theorem hw_of_moveView : t.hw = s.hw := congrArg (·.2.2.1) h
theorem reg_of_moveView {k : Nat} (hk : isMoveKey k) : t.reg k = s.reg k := congrArg (fun v => v.2.2.2 ⟨k, hk⟩) h
theorem rd_of_moveView {f : Fld} (hk : isMoveKey f.key) : t.rd f = s.rd f := rd_of_reg (reg_of_moveView h hk)

end

theorem moveView_setReg {k : Nat} (hk : ¬ isMoveKey k) (w : Word) (s : State) : (s.setReg k w).moveView = s.moveView :=
  moveView_of rfl rfl rfl fun _ hj => State.setReg_other s k w fun he => hk (he ▸ hj)

theorem moveView_wr {k hi lo : Nat} (hk : ¬ isMoveKey k) (v : Nat) (s : State) : (s.wr ⟨k, hi, lo⟩ v).moveView = s.moveView :=
  moveView_setReg hk _ s

theorem exitView_setReg {k : Nat} (hk : ¬ isMoveKey k) (w : Word) (s : State) : (s.setReg k w).exitView = s.exitView :=
  congrArg (·, s.pools, s.engines) (moveView_setReg hk w s)

theorem exitView_wr {k hi lo : Nat} (hk : ¬ isMoveKey k) (v : Nat) (s : State) : (s.wr ⟨k, hi, lo⟩ v).exitView = s.exitView :=
  exitView_setReg hk _ s

/-! ### Registers outside that view -/

theorem mxaKey_off {t : Nat} (h : t < 64) : ¬ isMoveKey (R.MXA_STATUS t) := by
  simp only [isMoveKey, R.LCS_STATUS, R.HWD_STATUS, R.MBX_STATUS, R.MXA_STATUS]; omega

theorem vxeKey_off {t : Nat} (h : t < 64) : ¬ isMoveKey (R.VXE_STATUS t) := by
  simp only [isMoveKey, R.LCS_STATUS, R.HWD_STATUS, R.MBX_STATUS, R.VXE_STATUS]; omega

theorem memKey_off {k : Nat} (h : k < 8) : ¬ isMoveKey (R.MEM_STATUS k) := by
  simp only [isMoveKey, R.LCS_STATUS, R.HWD_STATUS, R.MBX_STATUS, R.MEM_STATUS]; omega

theorem schKey_off {p : Nat} (h : p < 8) : ¬ isMoveKey (R.SCH_STATUS p) := by
  simp only [isMoveKey, R.LCS_STATUS, R.HWD_STATUS, R.MBX_STATUS, R.SCH_STATUS]; omega

theorem ringKey_off (c : Nat) : ¬ isMoveKey (R.CTXW_RING_STATUS c) := by
  simp only [isMoveKey, R.LCS_STATUS, R.HWD_STATUS, R.MBX_STATUS, R.CTXW_RING_STATUS]; omega

theorem modKey_off {m : Nat} (h : m < 160) : ¬ isMoveKey (R.D2D_MOD_STATUS m) := by
  simp only [isMoveKey, R.LCS_STATUS, R.HWD_STATUS, R.MBX_STATUS, R.D2D_MOD_STATUS]; omega

theorem repairKey_off {m : Nat} (h : m < 160) : ¬ isMoveKey (R.D2D_MOD_REPAIR m) := by
  simp only [isMoveKey, R.LCS_STATUS, R.HWD_STATUS, R.MBX_STATUS, R.D2D_MOD_REPAIR]; omega

theorem linkDieKey_off {d : Nat} (h : d < 2) : ¬ isMoveKey (R.CLS_DIE_STATUS d) := by
  simp only [isMoveKey, R.LCS_STATUS, R.HWD_STATUS, R.MBX_STATUS, R.CLS_DIE_STATUS]; omega

theorem clkKey_off : ¬ isMoveKey R.CLK_STATUS := by
  simp only [isMoveKey, R.LCS_STATUS, R.HWD_STATUS, R.MBX_STATUS, R.CLK_STATUS]; omega

/-- The modules of a bundle stand one behind the other (R5). -/
theorem bundleFirst_lt {b k : Nat} (hb : b < 14) (hk : k < bundleSize b) : bundleFirst b + k < 160 := by
  unfold bundleSize at hk
  unfold bundleFirst
  repeat' split at hk
  all_goals repeat' split
  all_goals omega

theorem bdlKey_off {b : Nat} (h : b < 14) : ¬ isMoveKey (R.D2D_BDL_STATUS b) := by
  have hlt : bundleFirst b < 160 := by
    unfold bundleFirst
    repeat' split
    all_goals omega
  simp only [isMoveKey, R.LCS_STATUS, R.HWD_STATUS, R.MBX_STATUS, R.D2D_BDL_STATUS]; omega

/-! ### The steps of an exit -/

/-- A step that is left out changes nothing, and one that is taken what it changes. -/
theorem when'_obs {β : Sort _} (obs : State → β) {f : State → State} {s : State} (b : Bool) (h : obs (f s) = obs s) :
    obs (when' b f s) = obs s := by
  cases b
  · rfl
  · exact h

theorem powerUp_view (s : State) : (powerUp s).exitView = s.exitView := by
  unfold powerUp
  refine (each_obs State.exitView (fun k hk s => ?_) _).trans (exitView_wr clkKey_off _ s)
  split
  · exact exitView_wr (memKey_off (List.mem_range.1 hk)) _ s
  · rfl

theorem leaveStill_view (s : State) : (leaveStill s).exitView = s.exitView := by
  unfold leaveStill
  extract_lets u ps ts v
  have hu : u.exitView = s.exitView := each_obs State.exitView (fun b hb s => each_obs State.exitView (fun m hm s =>
    exitView_wr (modKey_off (bundleMods_lt (by have := List.mem_range.1 (List.mem_filter.1 hb).1; omega) (List.mem_filter.1 hm).1)) _ s) s) s
  have hv : v.exitView = u.exitView := each_obs State.exitView (fun t ht s => by
    obtain ⟨p, -, htp⟩ := List.mem_flatMap.1 (List.mem_filter.1 ht).1
    exact (exitView_wr (vxeKey_off (tilesOf_lt htp)) _ _).trans (exitView_wr (mxaKey_off (tilesOf_lt htp)) _ _)) u
  exact hv.trans hu

theorem trainBundle_view {b : Nat} (hb : b < 14) (s : State) : (trainBundle b s).exitView = s.exitView := by
  unfold trainBundle
  extract_lets u v w
  have hv : v.exitView = s.exitView := each_obs State.exitView (fun k hk s => by
    have hm : trainBundle.bundleMod b k < 160 := bundleFirst_lt hb (List.mem_range.1 hk)
    exact (exitView_wr (modKey_off hm) _ _).trans (exitView_setReg (repairKey_off hm) _ s)) u
  have hw : w.exitView = v.exitView := exitView_wr (bdlKey_off hb) _ v
  split
  · exact ((exitView_wr (bdlKey_off hb) _ _).trans (exitView_wr (bdlKey_off hb) _ _)).trans hv
  · split
    · rename_i h
      have hd : b - 8 < 2 := by simp at h; omega
      exact ((exitView_wr (linkDieKey_off hd) _ _).trans hw).trans hv
    · exact hw.trans hv

theorem retrainDies_view (s : State) : (retrainDies s).exitView = s.exitView := by
  unfold retrainDies
  refine each_obs State.exitView (fun b hb s => trainBundle_view ?_ s) s
  have := (List.mem_filter.1 hb).1
  simp at this
  omega

theorem exitSteps_view (start target : Nat) (s : State) : (exitSteps start target s).exitView = s.exitView := by
  unfold exitSteps
  exact (when'_obs State.exitView _ (retrainDies_view _)).trans
    ((when'_obs State.exitView _ (leaveStill_view _)).trans (when'_obs State.exitView _ (powerUp_view s)))

/-! ### The slices at the end of an exit (R170, R488) -/

/-- A partition's context gives up the slice that it holds, and the partition is idle. -/
def sliceDropped (p c : Nat) (s : State) : State :=
  (((s.wr (F.CTXW_RING_STATUS_HOLDING c) 0).wr (F.SCH_STATUS_CTX_VALID p) 0).wr (F.SCH_STATUS_CUR_CTX p) 0).wr (F.SCH_STATUS_STATE p) 2

theorem sliceDropped_view {p : Nat} (hp : p < 8) (c : Nat) (s : State) : (sliceDropped p c s).exitView = s.exitView := by
  unfold sliceDropped
  exact (exitView_wr (schKey_off hp) _ _).trans ((exitView_wr (schKey_off hp) _ _).trans ((exitView_wr (schKey_off hp) _ _).trans
    (exitView_wr (ringKey_off c) _ s)))

theorem idleSlices_view (s : State) : (idleSlices s).exitView = s.exitView := by
  unfold idleSlices
  refine each_obs State.exitView (fun p hp s => ?_) s
  split
  · rfl
  · split
    · rfl
    · refine (sliceDropped_view (List.mem_range.1 hp) _ _).trans ?_
      refine each_obs State.exitView ?_ s
      exact fun _ _ _ => rfl

/-- With no deadline that passed below L0 Run, none takes effect. -/
theorem overdueRounds_none {s : State} (h : ∀ p, p < 64 → (s.pool p).overdue = false) : overdueRounds s = s := by
  have hnil : ((List.range 64).filter fun p => (s.pool p).overdue) = [] :=
    List.filter_eq_nil_iff.2 fun p hp => by simp [h p (List.mem_range.1 hp)]
  unfold overdueRounds
  rw [hnil]
  rfl

/-- With no operation at an engine, none goes on. -/
theorem pumpAll_none {s : State} (h : ∀ e, e < 32 → (s.engine e).op = none) : pumpAll s = s := by
  unfold pumpAll
  refine each_id fun e he => ?_
  rw [h e (List.mem_range.1 he)]

end Sys2Proof.Machine
end

section
/-! SUPPORT. POWER_MOVE_END: what the end of a move shows, and the ends of exits (R487, R488, R490, R495). -/

namespace Sys2Proof.Machine

/-! ### The end of a move -/

/-- The state of the ladder, its domains and its result show that a move has ended. -/
def endShown (m : Move) (r : Nat) (t : State) : Prop :=
  t.rd F.PWR_STATUS_STATE = m.target ∧ t.rd F.PWR_STATUS_BUSY = 0 ∧ t.rd F.PWR_STATUS_LAST_RESULT = r ∧ t.power.move = none ∧
    ∀ d, d < 20 → t.rd (F.PWR_DOMAIN_COND d) = t.condIn m.target d

theorem pwrKey_on : isMoveKey R.PWR_STATUS := by
  simp only [isMoveKey, R.PWR_STATUS]; omega

theorem domainKey_on {d : Nat} (h : d < 20) : isMoveKey (R.PWR_DOMAIN d) := by
  simp only [isMoveKey, R.PWR_DOMAIN]; omega

theorem condKey_on {k : Nat} (h : isCondKey k) : isMoveKey k := by
  simp only [isCondKey, isMoveKey] at *; omega

/-- What has been shown stays shown behind what leaves the view of a move alone. -/
theorem endShown_of_moveView {m : Move} {r : Nat} {s t : State} (h : t.moveView = s.moveView) (hs : endShown m r s) : endShown m r t := by
  obtain ⟨hst, hb, hr, hm, hd⟩ := hs
  refine ⟨(rd_of_moveView h pwrKey_on).trans hst, (rd_of_moveView h pwrKey_on).trans hb, (rd_of_moveView h pwrKey_on).trans hr,
    (congrArg Power.move (power_of_moveView h)).trans hm, fun d hd20 => ?_⟩
  rw [condIn_congr (hw_of_moveView h) (fun k hk => reg_of_moveView h (condKey_on hk)), ← hd d hd20]
  exact rd_of_moveView h (domainKey_on hd20)

theorem moveTold_of_moveView {m : Move} {r : Nat} {s t : State} (h : t.moveView = s.moveView) (hs : moveTold m r s) : moveTold m r t := by
  intro hw
  obtain ⟨hcode, hstat, hpath⟩ := hs hw
  have hk : isMoveKey R.MBX_STATUS := .inr (.inr (.inr (.inr rfl)))
  refine ⟨(rd_of_moveView h hk).trans hcode, (rd_of_moveView h hk).trans hstat, ?_⟩
  rw [on_eq_false_iff] at hpath ⊢
  refine (rd_of_moveView h ?_).trans hpath
  unfold pathFld
  split <;> exact hk

/-- The state and the domains show the target, and no move is under way. -/
def movedTo (m : Move) (s : State) : State :=
  ((showDomains m.target m.wake (s.wr F.PWR_STATUS_STATE m.target)).onPower fun p => { p with move := none }).wr F.PWR_STATUS_BUSY 0

/-- The result of the move is noted; an exit that began as an abort keeps its own (R486). -/
def moveNoted (m : Move) (s : State) : State :=
  if !m.entry && (movedTo m s).rd F.PWR_STATUS_LAST_RESULT = 2 then movedTo m s else (movedTo m s).wr F.PWR_STATUS_LAST_RESULT 0

/-- The host is told of an exit, and the command behind the move of its end. -/
def moveAnswered (m : Move) (s : State) : State :=
  let u := when' (!m.entry) (raiseVector 0 3) (moveNoted m s)
  answerMove m rcOk 0 u.moveData u

/-- The end of a move that nothing follows. -/
theorem endMove_eq {m : Move} (h : m.thenTo = none) (s : State) :
    endMove m s = nextMove (when' (m.target = 0) (fun s => pumpAll (idleSlices (overdueRounds s))) (moveAnswered m s)) := by
  unfold endMove
  rw [h]
  rfl

section
variable {β : Sort _} (obs : State → β) (hregs : ∀ s x, obs { s with regs := x } = obs s)
  (hpower : ∀ s x, obs { s with power := x } = obs s)
include hregs hpower

theorem movedTo_frame (m : Move) (s : State) : obs (movedTo m s) = obs s := by
  unfold movedTo
  exact (hregs _ _).trans ((hpower _ _).trans ((showDomains_frame obs hregs _ _ _).trans (hregs _ _)))

/-- The end of a move changes registers, the controller, the slots, the outbox and the pending vectors alone. -/
theorem moveAnswered_frame (hout : ∀ s x, obs { s with outbox := x } = obs s) (hmbx : ∀ s x, obs { s with mbx := x } = obs s)
    (hcfg : ∀ s x, obs { s with hcfg := x } = obs s) (m : Move) (s : State) : obs (moveAnswered m s) = obs s := by
  unfold moveAnswered
  refine (answerMove_frame obs hregs hout hmbx hcfg _ _ _ _ _).trans ((when'_obs obs _ (raiseVector_frame obs hcfg hout _ _ _)).trans ?_)
  unfold moveNoted
  split
  · exact movedTo_frame obs hregs hpower m s
  · exact (hregs _ _).trans (movedTo_frame obs hregs hpower m s)

end

/-- A field of PWR_STATUS that the end of a move does not set. -/
theorem movedTo_rd {g : Fld} (hg : g.key = R.PWR_STATUS) (hs : F.PWR_STATUS_STATE.clearOf g = true) (hb : F.PWR_STATUS_BUSY.clearOf g = true)
    (m : Move) (s : State) : (movedTo m s).rd g = s.rd g := by
  have hshow : (showDomains m.target m.wake (s.wr F.PWR_STATUS_STATE m.target)).rd g = (s.wr F.PWR_STATUS_STATE m.target).rd g :=
    rd_of_reg (showDomains_reg (fun d hd => by rw [hg]; unfold R.PWR_STATUS R.PWR_DOMAIN; omega) _ _ _)
  exact (rd_wr_clear _ hb 0).trans (hshow.trans (rd_wr_clear s hs _))

theorem movedTo_state {m : Move} (h : m.target < 8) (s : State) : (movedTo m s).rd F.PWR_STATUS_STATE = m.target := by
  have hshow : (showDomains m.target m.wake (s.wr F.PWR_STATUS_STATE m.target)).rd F.PWR_STATUS_STATE =
      (s.wr F.PWR_STATUS_STATE m.target).rd F.PWR_STATUS_STATE :=
    rd_of_reg (showDomains_reg (fun d hd => by change R.PWR_STATUS ≠ _; unfold R.PWR_STATUS R.PWR_DOMAIN; omega) _ _ _)
  exact (rd_wr_clear _ (by decide) 0).trans (hshow.trans (rd_wr_of_lt s ⟨by decide, by decide⟩ h))

/-- A field of PWR_STATUS other than the result reads as the move left it. -/
theorem moveAnswered_rd {g : Fld} (hg : g.key = R.PWR_STATUS) (hr : F.PWR_STATUS_LAST_RESULT.clearOf g = true) (m : Move) (s : State) :
    (moveAnswered m s).rd g = (movedTo m s).rd g := by
  unfold moveAnswered
  refine (answerMove_at_rd (by rw [hg]; rfl) _ _ _ _ _).trans ((when'_obs (·.rd g) _ (rd_congr (raiseVector_regs _ _ _) g)).trans ?_)
  unfold moveNoted
  split
  · rfl
  · exact rd_wr_clear _ hr 0

/-- The result that the end of a move leaves. -/
theorem moveAnswered_result (m : Move) (s : State) :
    (moveAnswered m s).rd F.PWR_STATUS_LAST_RESULT = if m.entry = false ∧ s.rd F.PWR_STATUS_LAST_RESULT = 2 then 2 else 0 := by
  have hkept := movedTo_rd (g := F.PWR_STATUS_LAST_RESULT) rfl (by decide) (by decide) m s
  unfold moveAnswered
  refine (answerMove_at_rd rfl _ _ _ _ _).trans
    ((when'_obs (·.rd F.PWR_STATUS_LAST_RESULT) _ (rd_congr (raiseVector_regs _ _ _) _)).trans ?_)
  unfold moveNoted
  simp only [hkept, Bool.and_eq_true, Bool.not_eq_true', decide_eq_true_eq]
  split
  · rename_i h
    exact hkept.trans h.2
  · exact rd_wr_holds _ (by decide)

/-- The end of a move writes no other register than PWR_STATUS and those of an answer behind the domains' conditions. -/
theorem moveAnswered_reg {k : Nat} (ha : isAnswer k = false) (hp : k ≠ R.PWR_STATUS) (m : Move) (s : State) :
    (moveAnswered m s).reg k = (showDomains m.target m.wake (s.wr F.PWR_STATUS_STATE m.target)).reg k := by
  have hmoved : (movedTo m s).reg k = (showDomains m.target m.wake (s.wr F.PWR_STATUS_STATE m.target)).reg k :=
    reg_wr_other _ F.PWR_STATUS_BUSY 0 hp
  unfold moveAnswered
  refine (answerMove_reg ha _ _ _ _ _).trans ((when'_obs (·.reg k) _ (raiseVector_at_reg _ _ _ _)).trans ?_)
  unfold moveNoted
  split
  · exact hmoved
  · exact (reg_wr_other _ F.PWR_STATUS_LAST_RESULT 0 hp).trans hmoved

/-- No condition of a domain is read from a register of an answer. -/
theorem condKey_noAnswer {k : Nat} (h : isCondKey k) : isAnswer k = false := by
  unfold isAnswer
  simp only [Bool.or_eq_false_iff, decide_eq_false_iff_not]
  simp only [isCondKey, R.LCS_STATUS, R.HWD_STATUS, R.HWD_COUNT, R.MBX_STATUS, R.MBX_CMD_HEAD] at *
  omega

theorem domainKey_noAnswer {d : Nat} (hd : d < 20) : isAnswer (R.PWR_DOMAIN d) = false := by
  unfold isAnswer
  simp only [Bool.or_eq_false_iff, decide_eq_false_iff_not]
  unfold R.PWR_DOMAIN R.HWD_COUNT R.MBX_STATUS R.MBX_CMD_HEAD
  omega

theorem moveAnswered_power (m : Move) (s : State) : (moveAnswered m s).power = { s.power with move := none } := by
  have hmoved : (movedTo m s).power = { s.power with move := none } :=
    congrArg (fun p : Power => { p with move := none }) (showDomains_frame State.power (fun _ _ => rfl) _ _ _)
  unfold moveAnswered
  rw [answerMove_power]
  refine (when'_obs State.power _ (raiseVector_frame State.power (fun _ _ => rfl) (fun _ _ => rfl) _ _ _)).trans ?_
  unfold moveNoted
  split
  · exact hmoved
  · exact hmoved

theorem moveAnswered_hw (m : Move) (s : State) : (moveAnswered m s).hw = s.hw :=
  moveAnswered_frame State.hw (fun _ _ => rfl) (fun _ _ => rfl) (fun _ _ => rfl) (fun _ _ => rfl) (fun _ _ => rfl) m s

/-- Behind the end of a move every domain shows its condition in the target. -/
theorem moveAnswered_domain (m : Move) (s : State) {d : Nat} (hd : d < 20) :
    (moveAnswered m s).rd (F.PWR_DOMAIN_COND d) = (moveAnswered m s).condIn m.target d := by
  have hhw : (moveAnswered m s).hw = (showDomains m.target m.wake (s.wr F.PWR_STATUS_STATE m.target)).hw :=
    (moveAnswered_hw m s).trans (showDomains_frame State.hw (fun _ _ => rfl) m.target m.wake (s.wr F.PWR_STATUS_STATE m.target)).symm
  have hreg : ∀ k, isAnswer k = false → k ≠ R.PWR_STATUS → (moveAnswered m s).reg k =
      (showDomains m.target m.wake (s.wr F.PWR_STATUS_STATE m.target)).reg k := fun k ha hp => moveAnswered_reg ha hp m s
  have hshows := showDomains_shows m.target m.wake (s.wr F.PWR_STATUS_STATE m.target) hd
  generalize showDomains m.target m.wake (s.wr F.PWR_STATUS_STATE m.target) = u at hhw hreg hshows
  have hcond : ∀ k, isCondKey k → (moveAnswered m s).reg k = u.reg k := fun k hk => by
    refine hreg k (condKey_noAnswer hk) ?_
    simp only [isCondKey, R.LCS_STATUS, R.HWD_STATUS, R.PWR_STATUS] at *
    omega
  have hdom : (moveAnswered m s).reg (R.PWR_DOMAIN d) = u.reg (R.PWR_DOMAIN d) :=
    hreg _ (domainKey_noAnswer hd) (by unfold R.PWR_DOMAIN R.PWR_STATUS; omega)
  rw [condIn_congr hhw hcond, ← hshows]
  exact rd_of_reg hdom

/-- What the end of a move shows. -/
theorem moveAnswered_shown {m : Move} (h : m.target < 8) (s : State) :
    endShown m (if m.entry = false ∧ s.rd F.PWR_STATUS_LAST_RESULT = 2 then 2 else 0) (moveAnswered m s) :=
  ⟨(moveAnswered_rd rfl (by decide) m s).trans (movedTo_state h s),
    (moveAnswered_rd rfl (by decide) m s).trans (rd_wr_holds _ (by decide)), moveAnswered_result m s,
    congrArg Power.move (moveAnswered_power m s), fun _ hd => moveAnswered_domain m s hd⟩

theorem moveAnswered_told (m : Move) (s : State) : moveTold m 0 (moveAnswered m s) := answerMove_told (by decide) _ _ _ _

/-! ### POWER_MOVE_END: nothing ends, and exits -/

section
variable {m : Move} {s : State}

theorem exec_powerMoveEnd_none (h : s.power.move = none) : exec .powerMoveEnd s = .next s := by
  have hid : powerMoveEnd s = s := by unfold powerMoveEnd; rw [h]
  rw [exec_powerMoveEnd, execPowerMoveEnd, hid, State.done_self]

/-- An entry whose blocks are still asked, and an exit that waits for its rails or pads, do not end. -/
theorem exec_powerMoveEnd_waits (hm : s.power.move = some m)
    (h : (m.entry = true ∧ s.power.asked ≠ []) ∨ (m.entry = false ∧ s.exitReady m = false)) : exec .powerMoveEnd s = .next s := by
  have hid : powerMoveEnd s = s := by
    unfold powerMoveEnd
    rw [hm]
    rcases h with ⟨he, ha⟩ | ⟨he, hr⟩
    · simp [he, ha]
    · simp [he, hr]
  rw [exec_powerMoveEnd, execPowerMoveEnd, hid, State.done_self]

/-- An exit that is ready ends (R488, R490): its steps leave the controller, the pools and the engines as they were. -/
theorem exec_powerMoveEnd_exits (hm : s.power.move = some m) (ht : m.target < 6) (hn : m.thenTo = none) (hw : s.power.waiting = none)
    (he : m.entry = false) (hr : s.exitReady m = true) (ho : ∀ p, p < 64 → (s.pool p).overdue = false)
    (hq : m.target = 0 → ∀ e, e < 32 → (s.engine e).op = none) :
    ∃ s', exec .powerMoveEnd s = .next s' ∧ endShown m (if s.rd F.PWR_STATUS_LAST_RESULT = 2 then 2 else 0) s' ∧ moveTold m 0 s' := by
  have heq : powerMoveEnd s = endMove m (exitSteps m.start m.target s) := by
    unfold powerMoveEnd
    rw [hm]
    simp [he, hr]
  let u := exitSteps m.start m.target s
  let v := moveAnswered m u
  have hu : u.exitView = s.exitView := exitSteps_view _ _ s
  have hpools : v.pools = s.pools :=
    (moveAnswered_frame State.pools (fun _ _ => rfl) (fun _ _ => rfl) (fun _ _ => rfl) (fun _ _ => rfl) (fun _ _ => rfl) m u).trans
      (congrArg (·.2.1) hu)
  have hengines : v.engines = s.engines :=
    (moveAnswered_frame State.engines (fun _ _ => rfl) (fun _ _ => rfl) (fun _ _ => rfl) (fun _ _ => rfl) (fun _ _ => rfl) m u).trans
      (congrArg (·.2.2) hu)
  have hresult : u.rd F.PWR_STATUS_LAST_RESULT = s.rd F.PWR_STATUS_LAST_RESULT := rd_of_moveView (congrArg (·.1) hu) pwrKey_on
  have hshown : endShown m (if s.rd F.PWR_STATUS_LAST_RESULT = 2 then 2 else 0) v := by
    have := moveAnswered_shown (m := m) (by omega) u
    simpa only [hresult, he, true_and] using this
  -- At L0 Run the slices in force are sorted out, and neither a round's deadline nor an engine's operation is there to go on.
  have hlast : ∃ w, w.moveView = v.moveView ∧ when' (m.target = 0) (fun s => pumpAll (idleSlices (overdueRounds s))) v = w := by
    unfold when'
    split
    · rename_i h0
      have hidle : (idleSlices v).exitView = v.exitView := idleSlices_view v
      refine ⟨idleSlices v, congrArg (·.1) hidle, ?_⟩
      have hrounds : overdueRounds v = v := overdueRounds_none fun p hp => by unfold State.pool; rw [hpools]; exact ho p hp
      change pumpAll (idleSlices (overdueRounds v)) = idleSlices v
      rw [hrounds]
      refine pumpAll_none fun e he32 => ?_
      have : (idleSlices v).engines = s.engines := (congrArg (·.2.2) hidle).trans hengines
      unfold State.engine
      rw [this]
      exact hq (by simpa using h0) e he32
    · exact ⟨v, rfl, rfl⟩
  obtain ⟨w, hview, hwe⟩ := hlast
  have hwait : w.power.waiting = none := by
    rw [power_of_moveView hview, moveAnswered_power]
    exact (congrArg Power.waiting (power_of_moveView (congrArg (·.1) hu))).trans hw
  rw [exec_powerMoveEnd, execPowerMoveEnd, heq, endMove_eq hn, hwe, nextMove_none hwait]
  exact ⟨_, rfl, endShown_of_moveView (s := v) hview hshown, moveTold_of_moveView (s := v) hview (moveAnswered_told m u)⟩

end

end Sys2Proof.Machine
end

section
/-! SUPPORT. What the steps of an entry leave alone, in a device that is quiet (R487, R491). -/

namespace Sys2Proof.Machine

/-! ### Registers outside the view of a move -/

theorem dmaKey_off {e : Nat} (h : e < 32) : ¬ isMoveKey (R.DMA_ENG_STATUS e) := by
  simp only [isMoveKey, R.LCS_STATUS, R.HWD_STATUS, R.MBX_STATUS, R.DMA_ENG_STATUS]; omega

theorem roundKey_off {p : Nat} (h : p < 64) : ¬ isMoveKey (R.GUP_RND p) := by
  simp only [isMoveKey, R.LCS_STATUS, R.HWD_STATUS, R.MBX_STATUS, R.GUP_RND]; omega

theorem portKey_off {q : Nat} (h : q < 32) : ¬ isMoveKey (R.CLS_PORT_STATUS q) := by
  simp only [isMoveKey, R.LCS_STATUS, R.HWD_STATUS, R.MBX_STATUS, R.CLS_PORT_STATUS]; omega

theorem siteKey_off {x : Nat} (h : x < 4) : ¬ isMoveKey (R.CHK_STATUS x) := by
  simp only [isMoveKey, R.LCS_STATUS, R.HWD_STATUS, R.MBX_STATUS, R.CHK_STATUS]; omega

theorem windowKey_off {x w : Nat} (h : x < 4) (hw : w < 16) : ¬ isMoveKey (R.CHK_WIN_A x w) := by
  simp only [isMoveKey, R.LCS_STATUS, R.HWD_STATUS, R.MBX_STATUS, R.CHK_WIN_A]; omega

theorem partUsedKey_off {p : Nat} (h : p < 8) : ¬ isMoveKey (R.GLB_HEP_PART p) := by
  simp only [isMoveKey, R.LCS_STATUS, R.HWD_STATUS, R.MBX_STATUS, R.GLB_HEP_PART]; omega

theorem stallKey_off {t : Nat} (h : t < 64) : ¬ isMoveKey (R.MXA_STALL t) := by
  simp only [isMoveKey, R.LCS_STATUS, R.HWD_STATUS, R.MBX_STATUS, R.MXA_STALL]; omega

theorem vxeStatKey_off {t : Nat} (h : t < 64) : ¬ isMoveKey (R.VXE_STAT t) := by
  simp only [isMoveKey, R.LCS_STATUS, R.HWD_STATUS, R.MBX_STATUS, R.VXE_STAT]; omega

theorem scrubKey_off {t : Nat} (h : t < 64) : ¬ isMoveKey (R.BWL_SCRUB t) := by
  simp only [isMoveKey, R.LCS_STATUS, R.HWD_STATUS, R.MBX_STATUS, R.BWL_SCRUB]; omega

theorem hepStatusKey_off : ¬ isMoveKey R.GLB_HEP_STATUS := by
  simp only [isMoveKey, R.LCS_STATUS, R.HWD_STATUS, R.MBX_STATUS, R.GLB_HEP_STATUS]; omega

theorem hepTagsKey_off : ¬ isMoveKey R.GLB_HEP_TAGS := by
  simp only [isMoveKey, R.LCS_STATUS, R.HWD_STATUS, R.MBX_STATUS, R.GLB_HEP_TAGS]; omega

theorem xltKey_off : ¬ isMoveKey R.XLT_STATUS := by
  simp only [isMoveKey, R.LCS_STATUS, R.HWD_STATUS, R.MBX_STATUS, R.XLT_STATUS]; omega

theorem bbxKey_off : ¬ isMoveKey R.BBX_STATUS := by
  simp only [isMoveKey, R.LCS_STATUS, R.HWD_STATUS, R.MBX_STATUS, R.BBX_STATUS]; omega

/-- The registers of a record lie outside the view of a move. -/
theorem moveKey_noLog {k : Nat} (h : isMoveKey k) : isLog k = false := by
  unfold isLog
  simp only [Bool.or_eq_false_iff, Bool.and_eq_false_iff, decide_eq_false_iff_not]
  simp only [isMoveKey, R.LCS_STATUS, R.HWD_STATUS, R.MBX_STATUS, R.TLS_EVT_HEAD, R.BBX_STATUS, R.BBX_COUNT] at *
  omega

/-- The bundles whose modules an entry moves. -/
theorem moveModules_view {b : Nat} (hb : b < 14) (st : Nat) (s : State) : (moveModules b st s).moveView = s.moveView := by
  unfold moveModules
  refine each_obs State.moveView (fun m hm s => ?_) s
  dsimp only
  split
  · exact moveView_wr (modKey_off (bundleMods_lt hb hm)) _ s
  · rfl

/-- The same, for the bundles of a list. -/
theorem each_moveModules_view {l : List Nat} (h : ∀ b ∈ l, b < 14) (st : Nat) (s : State) :
    (each l (moveModules · st) s).moveView = s.moveView :=
  each_obs State.moveView (fun b hb s => moveModules_view (h b hb) st s) s

/-! ### L2 Hush (R487, step 4) -/

/-- No port is up. -/
def State.portsDown (s : State) : Prop := ∀ q, q < 32 → s.rd (F.CLS_PORT_STATUS_STATE q) ≠ 4

/-- What a port that is not up shows when it goes down. -/
def portDropped (q why : Nat) (s : State) : State :=
  ((((s.onPort q fun _ => Port.init).wr (F.CLS_PORT_STATUS_STATE q) 0).wr (F.CLS_PORT_STATUS_DOWN_WHY q) why).wr
    (F.CLS_PORT_STATUS_KEYSET q) 0).wr (F.CLS_PORT_STATUS_LATE_RX q) 0

theorem portDown_notUp {q why : Nat} {s : State} (hw : why ≠ 5) (h : s.rd (F.CLS_PORT_STATUS_STATE q) ≠ 4) :
    portDown q why s = s ∨ portDown q why s = portDropped q why s := by
  unfold portDown
  split
  · exact .inl rfl
  · refine .inr ?_
    have hup : s.portUp q = false := by simpa [State.portUp] using h
    simp only [hup]
    rfl

theorem portDropped_reg {q k : Nat} (h : k ≠ R.CLS_PORT_STATUS q) (why : Nat) (s : State) : (portDropped q why s).reg k = s.reg k := by
  unfold portDropped
  exact (reg_wr_other _ (F.CLS_PORT_STATUS_LATE_RX q) _ h).trans ((reg_wr_other _ (F.CLS_PORT_STATUS_KEYSET q) _ h).trans
    ((reg_wr_other _ (F.CLS_PORT_STATUS_DOWN_WHY q) _ h).trans (reg_wr_other _ (F.CLS_PORT_STATUS_STATE q) _ h)))

theorem portDropped_view {q : Nat} (hq : q < 32) (why : Nat) (s : State) : (portDropped q why s).moveView = s.moveView := by
  have hk := portKey_off hq
  unfold portDropped
  exact (moveView_wr hk _ _).trans ((moveView_wr hk _ _).trans ((moveView_wr hk _ _).trans (moveView_wr hk _ _)))

theorem portDropped_state (q why : Nat) (s : State) : (portDropped q why s).rd (F.CLS_PORT_STATUS_STATE q) = 0 := by
  unfold portDropped
  exact (rd_wr_beside _ (by decide) _).trans ((rd_wr_beside _ (by decide) _).trans ((rd_wr_beside _ (by decide) _).trans
    (rd_wr_fits _ (by decide) (by decide))))

/-- A port that goes down where none is up leaves none up, and nothing of the view of a move changes. -/
theorem portDown_quiet {q why : Nat} (hq : q < 32) (hw : why ≠ 5) {s : State} (h : s.portsDown) :
    (portDown q why s).portsDown ∧ (portDown q why s).moveView = s.moveView := by
  rcases portDown_notUp hw (h q hq) with he | he
  · rw [he]; exact ⟨h, rfl⟩
  · rw [he]
    refine ⟨fun r hr => ?_, portDropped_view hq why s⟩
    by_cases hrq : r = q
    · rw [hrq, portDropped_state]; decide
    · rw [rd_of_reg (f := F.CLS_PORT_STATUS_STATE r) (portDropped_reg (k := R.CLS_PORT_STATUS r) ?_ why s)]
      · exact h r hr
      · unfold R.CLS_PORT_STATUS; omega

theorem closeWindow_view {x w : Nat} (hx : x < 4) (hw : w < 16) (s : State) : (closeWindow x w s).moveView = s.moveView :=
  closeWindow_frame State.moveView (fun s k v hk => moveView_setReg (by
    rcases hk with rfl | rfl
    · exact siteKey_off hx
    · exact windowKey_off hx hw) v s) s

theorem hush_view {s : State} (h : s.portsDown) : (hush s).moveView = s.moveView := by
  unfold hush
  extract_lets u v w
  have hu : u.portsDown ∧ u.moveView = s.moveView := by
    refine each_rel_mem (fun a b => a.portsDown → b.portsDown ∧ b.moveView = a.moveView) (fun _ h => ⟨h, rfl⟩)
      (fun a b c hab hbc ha => ?_) (fun q hq t ht => portDown_quiet (List.mem_range.1 (List.mem_filter.1 hq).1) (by decide) ht) s h
    obtain ⟨hb, hv⟩ := hab ha
    exact ⟨(hbc hb).1, (hbc hb).2.trans hv⟩
  have hv : v.moveView = u.moveView := rfl
  have hw : w.moveView = v.moveView := each_obs State.moveView (fun b hb s => by
    have hb' : b = 8 ∨ b = 9 := by simpa using hb
    have hd : b - 8 < 2 := by omega
    split
    · rfl
    · exact (moveView_wr (bdlKey_off (by omega)) _ _).trans ((moveModules_view (by omega) 0 _).trans
        (moveView_wr (linkDieKey_off hd) _ s))) v
  refine Eq.trans (each_obs State.moveView (fun x hx s => ?_) w) (hw.trans (hv.trans hu.2))
  have hx4 := List.mem_range.1 (List.mem_filter.1 hx).1
  exact (moveView_wr (siteKey_off hx4) _ _).trans
    (each_obs State.moveView (fun i hi s => closeWindow_view hx4 (List.mem_range.1 hi) s) s)

/-! ### L3 Still (R487, steps 3 and 6) -/

/-- The engines of a partition lie among the 32. -/
theorem enginesOf_lt {s : State} {p e : Nat} (h : e ∈ s.enginesOf p) : e < 32 := by
  unfold State.enginesOf State.groupsOf setBits at h
  simp only [List.mem_flatMap, List.mem_filter, List.mem_map, List.mem_range] at h
  obtain ⟨g, ⟨hg, -⟩, i, hi, rfl⟩ := h
  omega

theorem freeEngines_view (p : Nat) (s : State) : (freeEngines p s).moveView = s.moveView := by
  unfold freeEngines
  refine each_obs State.moveView (fun e he s => ?_) s
  split
  · rfl
  · exact (moveView_wr (dmaKey_off (enginesOf_lt he)) _ _).trans (moveView_wr (dmaKey_off (enginesOf_lt he)) _ _)

theorem saveTiles_view (c p : Nat) (s : State) : (saveTiles c p s).moveView = s.moveView := by
  unfold saveTiles
  extract_lets u
  have hu : u.moveView = s.moveView := each_obs State.moveView (fun t _ s => by
    unfold saveTile
    split <;> rfl) s
  refine Eq.trans (each_obs State.moveView ?_ u) hu
  exact fun _ _ _ => rfl

theorem stallEnd_view {t : Nat} (ht : t < 64) (s : State) : (stallEnd t s).moveView = s.moveView := by
  have hadd : ∀ hi lo ns rem (u : State), (stallAdd ⟨R.MXA_STALL t, hi, lo⟩ ns rem u).2.moveView = u.moveView :=
    fun hi lo ns rem u => moveView_wr (stallKey_off ht) _ u
  unfold stallEnd
  extract_lets x u
  have hu : u.moveView = s.moveView := by
    unfold u
    split
    · rfl
    · exact hadd _ _ _ _ s
  split
  · exact hu
  · exact (hadd _ _ _ _ u).trans hu

theorem clearTile_view {t : Nat} (ht : t < 64) (s : State) : (clearTile t s).moveView = s.moveView := by
  have hm : ∀ hi lo v (u : State), (u.wr ⟨R.MXA_STATUS t, hi, lo⟩ v).moveView = u.moveView := fun _ _ => moveView_wr (mxaKey_off ht)
  have hv : ∀ hi lo v (u : State), (u.wr ⟨R.VXE_STATUS t, hi, lo⟩ v).moveView = u.moveView := fun _ _ => moveView_wr (vxeKey_off ht)
  unfold clearTile
  extract_lets a x i b c d e f
  have hb : b.moveView = s.moveView := stallEnd_view ht s
  have hc : c.moveView = b.moveView := (hm _ _ _ _).trans ((hm _ _ _ _).trans (hm _ _ _ b))
  have hd : d.moveView = c.moveView := by
    unfold d
    split
    · exact (hv _ _ _ _).trans (hm _ _ _ c)
    · exact hv _ _ _ c
  have he : e.moveView = d.moveView := (hv _ _ _ _).trans ((hv _ _ _ _).trans (hv _ _ _ d))
  have hf : f.moveView = e.moveView := (moveView_setReg (vxeStatKey_off ht) _ _).trans (hv _ _ _ e)
  exact (moveView_wr (scrubKey_off ht) _ f).trans (hf.trans (he.trans (hd.trans (hc.trans hb))))

theorem clearTiles_view (p : Nat) (s : State) : (clearTiles p s).moveView = s.moveView := by
  unfold clearTiles
  extract_lets u v agents keep
  have hu : u.moveView = s.moveView :=
    each_obs State.moveView (fun t ht s => clearTile_view (tilesOf_lt (List.mem_filter.1 ht).1) s) s
  have hv : v.moveView = u.moveView := by
    refine each_obs State.moveView ?_ u
    exact fun _ _ _ => rfl
  exact hv.trans hu

/-- A partition's tiles are saved and cleared, its engines are free, and it holds no slice. -/
def partStilled (p : Nat) (s : State) : State :=
  let held := s.holderOf p
  let s := match held with | some c => abandonReads c false (saveTiles c p s) | none => s
  let s := clearTiles p (freeEngines p s)
  let s := match held with | some c => s.wr (F.CTXW_RING_STATUS_HOLDING c) 0 | none => s
  let s := s.onPart p fun x => { x with sw := none }
  ((s.wr (F.SCH_STATUS_CTX_VALID p) 0).wr (F.SCH_STATUS_CUR_CTX p) 0).wr (F.SCH_STATUS_STATE p) 2

theorem partStilled_view {p : Nat} (hp : p < 8) (s : State) : (partStilled p s).moveView = s.moveView := by
  unfold partStilled
  extract_lets held u v w x
  clear_value held
  have hu : u.moveView = s.moveView := by
    unfold u
    split
    · exact saveTiles_view _ p s
    · rfl
  have hv : v.moveView = u.moveView := (clearTiles_view p _).trans (freeEngines_view p u)
  have hw : w.moveView = v.moveView := by
    unfold w
    split
    · exact moveView_wr (ringKey_off _) _ v
    · rfl
  have hk := schKey_off hp
  exact (moveView_wr hk _ _).trans ((moveView_wr hk _ _).trans ((moveView_wr hk _ x).trans (hw.trans (hv.trans hu))))

/-- The steps to L3 Still but for the latching of the pads. -/
def stillBefore (s : State) : State :=
  let ps := (List.range 8).filter fun p => s.on (F.CTX_PART_VALID p) && s.rd (F.SCH_STATUS_STATE p) ≠ 0
  let s := each ps partStilled s
  let s := each ((List.range 64).filter s.tileServes) (fun t s => (s.wr (F.MXA_STATUS_STATE t) 0).wr (F.VXE_STATUS_STATE t) 0) s
  each [0, 1, 2, 3, 4, 5, 6, 7, 10, 11, 12, 13] (moveModules · 6) s

theorem still_eq (s : State) : still s = (stillBefore s).wr F.PWR_STATUS_PADS_HELD 1 := rfl

theorem stillBefore_view (s : State) : (stillBefore s).moveView = s.moveView := by
  unfold stillBefore
  extract_lets ps u v
  have hu : u.moveView = s.moveView :=
    each_obs State.moveView (fun p hp s => partStilled_view (List.mem_range.1 (List.mem_filter.1 hp).1) s) s
  have hv : v.moveView = u.moveView := each_obs State.moveView (fun t ht s => by
    have ht64 := List.mem_range.1 (List.mem_filter.1 ht).1
    exact (moveView_wr (vxeKey_off ht64) _ _).trans (moveView_wr (mxaKey_off ht64) _ s)) u
  exact (each_moveModules_view (by decide) 6 v).trans (hv.trans hu)

end Sys2Proof.Machine
end

section
/-! SUPPORT. POWER_MOVE_END: the ends of entries in a device that is quiet (R487, R491, R495). -/

namespace Sys2Proof.Machine

/-! ### What an entry keeps -/

/-- The controller, device memory and the latch of the pads are as given, and no context is LOCKED or in RUN. -/
def entryHolds (p : Power) (mem : SMap Byte) (pads : Nat) (t : State) : Prop :=
  t.power = p ∧ t.devMem = mem ∧ t.rd F.PWR_STATUS_PADS_HELD = pads ∧ ∀ c, c < 256 → t.endable c = false

section
variable {p : Power} {mem : SMap Byte} {pads : Nat}

theorem ctxKey_on {c : Nat} (h : c < 256) : isMoveKey (R.CTX_STATE c) := by
  simp only [isMoveKey, R.CTX_STATE]; omega

theorem endable_of_state {s t : State} {c : Nat} (h : t.ctxState c = s.ctxState c) : t.endable c = s.endable c := by
  unfold State.endable
  rw [h]

theorem entryHolds_of_moveView {s t : State} (h : t.moveView = s.moveView) (hs : entryHolds p mem pads s) : entryHolds p mem pads t := by
  obtain ⟨hp, hd, hb, hc⟩ := hs
  exact ⟨(power_of_moveView h).trans hp, (devMem_of_moveView h).trans hd, (rd_of_moveView h pwrKey_on).trans hb, fun c hc256 =>
    (endable_of_state (rd_of_moveView h (ctxKey_on hc256))).trans (hc c hc256)⟩

/-- A loop keeps what every one of its steps keeps. -/
theorem each_keeps {α : Type} (P : State → Prop) {f : α → State → State} {l : List α} (hf : ∀ a ∈ l, ∀ s, P s → P (f a s)) {s : State}
    (h : P s) : P (each l f s) :=
  each_rel_mem (fun s t => P s → P t) (fun _ h => h) (fun _ _ _ hab hbc h => hbc (hab h)) hf s h

/-! ### L4 Shelf (R487, step 7) -/

/-- A write of a context's state register leaves the state of every other context. -/
theorem ctxState_wr_other {c d : Nat} (h : d ≠ c) (hi lo v : Nat) (s : State) : (s.wr ⟨R.CTX_STATE c, hi, lo⟩ v).ctxState d = s.ctxState d :=
  rd_wr_other s (f := ⟨R.CTX_STATE c, hi, lo⟩) (g := F.CTX_STATE_STATE d)
    (by change R.CTX_STATE d ≠ R.CTX_STATE c; unfold R.CTX_STATE; omega) v

theorem endable_wr_scrub (c d : Nat) (s : State) : (s.wr (F.CTX_STATE_SCRUB c) 0).endable d = s.endable d := by
  refine endable_of_state ?_
  by_cases hdc : d = c
  · rw [hdc]
    exact rd_wr_beside s (k := R.CTX_STATE c) (by decide) 0
  · exact ctxState_wr_other hdc 7 7 0 s

/-- A context that goes to FREE or CONFIG is neither LOCKED nor in RUN, and no other context changes. -/
theorem endable_wr_state {c d v : Nat} (hv : v < 3) {s : State} (h : s.endable d = false) :
    (s.wr (F.CTX_STATE_STATE c) v).endable d = false := by
  by_cases hdc : d = c
  · have hread : (s.wr (F.CTX_STATE_STATE c) v).ctxState d = v := by
      rw [hdc]
      exact rd_wr_fits s (k := R.CTX_STATE c) (by decide) (Nat.lt_trans hv (by decide))
    unfold State.endable
    rw [hread]
    simp
    omega
  · exact (endable_of_state (ctxState_wr_other hdc 3 0 v s)).trans h

/-- The end of a scrub leaves no context LOCKED or in RUN that was not. -/
theorem finishEnd_endable (c d : Nat) {s : State} (h : s.endable d = false) : (finishEnd c s).endable d = false := by
  have hscrub := (endable_wr_scrub c d s).trans h
  unfold finishEnd
  dsimp only
  generalize s.wr (F.CTX_STATE_SCRUB c) 0 = u at hscrub ⊢
  split
  · split
    · exact (endable_of_state (State.onCtx_at_rd _ _ _ _)).trans (endable_wr_state (v := 0) (by decide) hscrub)
    · exact endable_wr_state (v := 2) (by decide) hscrub
  · exact hscrub

/-- The end of a scrub changes the context and its register alone. -/
theorem finishEnd_frame {β : Sort _} (obs : State → β) {c : Nat} (hreg : ∀ s v, obs (s.setReg (R.CTX_STATE c) v) = obs s)
    (hctx : ∀ s f, obs (s.onCtx c f) = obs s) (s : State) : obs (finishEnd c s) = obs s := by
  have hscrub : obs (s.wr (F.CTX_STATE_SCRUB c) 0) = obs s := hreg s _
  unfold finishEnd
  extract_lets u
  split
  · split
    · exact (hctx _ _).trans ((hreg u _).trans hscrub)
    · exact (hreg u _).trans hscrub
  · exact hscrub

theorem finishEnd_holds {c : Nat} (hc : c < 256) {s : State} (hs : entryHolds p mem pads s) : entryHolds p mem pads (finishEnd c s) := by
  obtain ⟨hp, hd, hb, hq⟩ := hs
  refine ⟨(finishEnd_frame State.power (fun _ _ => rfl) (fun _ _ => rfl) s).trans hp,
    (finishEnd_frame State.devMem (fun _ _ => rfl) (fun _ _ => rfl) s).trans hd,
    (finishEnd_frame (fun u => u.rd F.PWR_STATUS_PADS_HELD) (fun u v => rd_setReg_other u _ v ?_) (fun _ _ => rfl) s).trans hb,
    fun d hd256 => finishEnd_endable c d (hq d hd256)⟩
  change R.PWR_STATUS ≠ R.CTX_STATE c
  unfold R.PWR_STATUS R.CTX_STATE
  omega

theorem settleScrubs_holds {s : State} (hs : entryHolds p mem pads s) : entryHolds p mem pads (settleScrubs s) := by
  unfold settleScrubs
  refine each_keeps (entryHolds p mem pads) (fun c hc t ht => ?_) hs
  split
  · exact ht
  · exact finishEnd_holds (List.mem_range.1 (List.mem_filter.1 hc).1) ht

/-- The steps to L4 Shelf, with device memory lost. -/
theorem shelve_holds {s : State} (hs : entryHolds p mem pads s) : entryHolds p [] pads (shelve s) := by
  obtain ⟨hp, -, hb, hq⟩ := hs
  unfold shelve
  extract_lets a b c d e
  have ha : entryHolds p [] pads a := ⟨hp, rfl, hb, hq⟩
  have hb' : entryHolds p [] pads b := by
    refine each_keeps (entryHolds p [] pads) (fun ch _ t ht => ?_) ha
    exact ht
  have hc : entryHolds p [] pads c := each_keeps (entryHolds p [] pads) (fun k hk t ht => by
    split
    · exact entryHolds_of_moveView (moveView_wr (memKey_off (List.mem_range.1 hk)) 0 t) ht
    · exact ht) hb'
  have hd : entryHolds p [] pads d := by
    refine each_keeps (entryHolds p [] pads) (fun k hk t ht => ?_) hc
    have hk64 := List.mem_range.1 (List.mem_filter.1 hk).1
    exact entryHolds_of_moveView (moveView_wr (roundKey_off hk64) 0 _) ht
  have he : entryHolds p [] pads e := entryHolds_of_moveView (each_moveModules_view (by decide) 0 _) (settleScrubs_holds hd)
  exact he

/-! ### L5 Dormant (R487, step 8; R491) -/

/-- A record is written outside the view of a move. -/
theorem bbEvent_view (code source : Nat) (detail : List Byte) (s : State) : (bbEvent code source detail s).moveView = s.moveView :=
  moveView_of (bbEvent_frame State.power (fun _ _ => rfl) (fun _ _ => rfl) (fun _ _ => rfl) code source detail s)
    (bbEvent_devMem code source detail s) (bbEvent_frame State.hw (fun _ _ => rfl) (fun _ _ => rfl) (fun _ _ => rfl) code source detail s)
    fun _ hk => bbEvent_reg (moveKey_noLog hk) code source detail s

theorem onBb_view (f : BlackBox → BlackBox) (s : State) : (s.onBb f).moveView = s.moveView := rfl

theorem onPins_view (f : Pins → Pins) (s : State) : (s.onPins f).moveView = s.moveView := rfl

theorem wrBbx_view (hi lo v : Nat) (s : State) : (s.wr ⟨R.BBX_STATUS, hi, lo⟩ v).moveView = s.moveView := moveView_wr bbxKey_off v s

theorem sealBlackBox_view (s : State) : (sealBlackBox s).moveView = s.moveView := by
  unfold sealBlackBox
  split
  · rw [onPins_view, F.BBX_STATUS_WP, wrBbx_view, onBb_view]
  · rfl

theorem reportLost_view (s : State) : (reportLost s).moveView = s.moveView := by
  unfold reportLost
  split
  · rfl
  · rw [bbEvent_view, onBb_view]

theorem bbPop_view (s : State) : (bbPop s).moveView = s.moveView := by
  unfold bbPop
  rw [F.BBX_STATUS_QUEUED, wrBbx_view, onBb_view]

theorem pinSlot_view (i : Nat) (s : State) : (pinSlot i s).moveView = s.moveView := by
  have hfull : ∀ u : State, (if u.rd F.BBX_STATUS_PINNED = 8192 then u.wr F.BBX_STATUS_PIN_FULL 1 else u).moveView = u.moveView := fun u => by
    split
    · exact wrBbx_view 3 3 1 u
    · rfl
  unfold pinSlot
  dsimp only
  rw [hfull, State.wrapInc_eq, F.BBX_STATUS_PIN_BOOT, wrBbx_view, State.wrapInc_eq, F.BBX_STATUS_PINNED, wrBbx_view, onBb_view]

theorem commitRecord_view (r : BbRec) (s : State) : (commitRecord r s).moveView = s.moveView := by
  have hpin : ∀ (b : Bool) i (u : State), (if b then pinSlot i u else u).moveView = u.moveView := fun b i u => by
    cases b
    · rfl
    · exact pinSlot_view i u
  have hraise : ∀ (b : Bool) (u : State), (if b then raiseVector 0 2 u else u).moveView = u.moveView := fun b u => by
    cases b
    · rfl
    · exact raiseVector_frame State.moveView (fun _ _ => rfl) (fun _ _ => rfl) 0 2 u
  unfold commitRecord putSlot
  dsimp only
  rw [sealBlackBox_view, reportLost_view, hraise, hpin, onBb_view, bbPop_view]

theorem bbxRecordCommit_view (s : State) : (bbxRecordCommit true s).moveView = s.moveView := by
  unfold bbxRecordCommit
  split
  · rfl
  · split
    · rfl
    · rw [if_pos rfl, commitRecord_view]

/-- What GLB_HEP_STRM shows of an erased stream. -/
def streamErased (i c k : Nat) (s : State) : State :=
  (((s.wr (F.GLB_HEP_STRM_STREAM_ID c) i).wr (F.GLB_HEP_STRM_BOUND c) 1).wr (F.GLB_HEP_STRM_SECURE c) 0).wr (F.GLB_HEP_STRM_KEYSET c) k

theorem showStream_erased (i : Nat) (s : State) :
    let u := s.onStream i fun x => { x with secure := false, keys := [] }
    showStream i u = u ∨ ∃ c, showStream i u = streamErased i c (s.stream i).keyset u := by
  intro u
  have hu : u.stream i = { s.stream i with secure := false, keys := [] } := State.onStream_same _ _ _
  unfold showStream
  rw [hu]
  dsimp only
  split
  · exact .inl rfl
  · exact .inr ⟨_, rfl⟩

/-- A field that shares no bit with those of GLB_HEP_STRM reads as before, whatever register a stream's context names. -/
theorem streamErased_rd {g : Fld} (hg : g.ok) (h : g.hi < 56 ∧ 2 < g.lo) (i c k : Nat) (s : State) :
    (streamErased i c k s).rd g = s.rd g := by
  have hone : ∀ hi lo v (u : State), lo ≤ hi → hi < 64 → hi < g.lo ∨ g.hi < lo → (u.wr ⟨R.GLB_HEP_STRM c, hi, lo⟩ v).rd g = u.rd g :=
    fun hi lo v u h1 h2 h3 => rd_wr_apart u (f := ⟨R.GLB_HEP_STRM c, hi, lo⟩) ⟨h1, h2⟩ hg (.inr h3) v
  unfold streamErased
  exact (hone _ _ _ _ (by decide) (by decide) (by omega)).trans ((hone _ _ _ _ (by decide) (by decide) (by omega)).trans
    ((hone _ _ _ _ (by decide) (by decide) (by omega)).trans (hone _ _ _ _ (by decide) (by decide) (by omega))))

/-- A context's state that the register of an erased stream overlaps is neither LOCKED nor RUN: bit 1 is set and bit 0 is clear. -/
theorem streamErased_endable (i c k d : Nat) {s : State} (h : s.endable d = false) : (streamErased i c k s).endable d = false := by
  by_cases hkey : R.CTX_STATE d = R.GLB_HEP_STRM c
  · let t := streamErased i c k s
    have hbound : t.rd ⟨R.GLB_HEP_STRM c, 1, 1⟩ = 1 :=
      (rd_wr_beside _ (by decide) _).trans ((rd_wr_beside _ (by decide) _).trans (rd_wr_fits _ (by decide) (by decide)))
    have hsecure : t.rd ⟨R.GLB_HEP_STRM c, 0, 0⟩ = 0 := (rd_wr_beside _ (by decide) _).trans (rd_wr_fits _ (by decide) (by decide))
    have hbit : ∀ j, j < 4 → (t.ctxState d).testBit j = (t.rd ⟨R.GLB_HEP_STRM c, j, j⟩).testBit 0 := fun j hj => by
      unfold State.ctxState
      rw [testBit_rd t (f := F.CTX_STATE_STATE d) ⟨(by decide : (0 : Nat) ≤ 3), (by decide : (3 : Nat) < 64)⟩,
        testBit_rd t (f := ⟨R.GLB_HEP_STRM c, j, j⟩) ⟨Nat.le_refl j, Nat.lt_trans hj (by decide)⟩]
      simp only [F.CTX_STATE_STATE, hkey, Nat.zero_add, Nat.add_zero, Nat.sub_self, Nat.le_refl, Nat.sub_zero]
      simp [show j ≤ 3 by omega]
    have h0 := hbit 0 (by decide)
    have h1 := hbit 1 (by decide)
    rw [hsecure] at h0
    rw [hbound] at h1
    have hne : t.ctxState d ≠ 3 ∧ t.ctxState d ≠ 4 :=
      ⟨fun he => by rw [he] at h0; exact absurd h0 (by decide), fun he => by rw [he] at h1; exact absurd h1 (by decide)⟩
    change t.endable d = false
    unfold State.endable
    simp [hne]
  · have hone : ∀ hi lo v (u : State), (u.wr ⟨R.GLB_HEP_STRM c, hi, lo⟩ v).ctxState d = u.ctxState d := fun hi lo v u =>
      rd_wr_other u (f := ⟨R.GLB_HEP_STRM c, hi, lo⟩) (g := F.CTX_STATE_STATE d) hkey v
    refine (endable_of_state ?_).trans h
    unfold streamErased
    exact (hone _ _ _ _).trans ((hone _ _ _ _).trans ((hone _ _ _ _).trans (hone _ _ _ _)))

theorem streamErased_frame {β : Sort _} (obs : State → β) (hregs : ∀ s x, obs { s with regs := x } = obs s) (i c k : Nat) (s : State) :
    obs (streamErased i c k s) = obs s :=
  (hregs _ _).trans ((hregs _ _).trans ((hregs _ _).trans (hregs _ _)))

/-- The erasure of a stream keeps what an entry keeps. -/
theorem eraseStream_holds (i : Nat) {s : State} (hs : entryHolds p mem pads s) :
    entryHolds p mem pads (showStream i (s.onStream i fun x => { x with secure := false, keys := [] })) := by
  have hu : entryHolds p mem pads (s.onStream i fun x => { x with secure := false, keys := [] }) := hs
  rcases showStream_erased i s with he | ⟨c, he⟩
  · rw [he]; exact hu
  · rw [he]
    obtain ⟨hp, hd, hb, hq⟩ := hu
    exact ⟨(streamErased_frame State.power (fun _ _ => rfl) i c _ _).trans hp,
      (streamErased_frame State.devMem (fun _ _ => rfl) i c _ _).trans hd,
      (streamErased_rd (g := F.PWR_STATUS_PADS_HELD) ⟨by decide, by decide⟩ (by decide) i c _ _).trans hb,
      fun d hd256 => streamErased_endable i c _ d (hq d hd256)⟩

/-- The answer to a mesh request that is given up stands in the network. -/
theorem meshAnswer_view (h : Flit) (s : State) : (meshAnswer h none s).moveView = s.moveView := by
  have hcross : ∀ f (u : State), (crossIn f u).moveView = u.moveView := fun f u => by
    unfold crossIn
    split <;> rfl
  exact hcross _ s

/-- The link's reset in a device that is quiet: nothing ends. -/
theorem linkReset_holds {s : State} (hs : entryHolds p mem pads s) : entryHolds p mem pads (linkReset s) := by
  unfold linkReset
  extract_lets a asked b c d e f g h
  have ha : entryHolds p mem pads a := entryHolds_of_moveView (s := s) (moveView_wr hepStatusKey_off 0 s) hs
  have hc : entryHolds p mem pads c := by
    have hb : entryHolds p mem pads (b.wr F.XLT_STATUS_INV_BUSY 0) := entryHolds_of_moveView (s := a) (moveView_wr xltKey_off 0 b) ha
    refine each_keeps (entryHolds p mem pads) (fun r _ t ht => ?_) hb
    split
    · exact entryHolds_of_moveView (meshAnswer_view _ t) ht
    · exact ht
  have hd : entryHolds p mem pads d :=
    entryHolds_of_moveView (s := c) ((moveView_wr hepTagsKey_off 0 _).trans (moveView_wr hepTagsKey_off 0 c)) hc
  have he : entryHolds p mem pads e := each_keeps (entryHolds p mem pads) (fun k hk t ht =>
    entryHolds_of_moveView (moveView_wr (partUsedKey_off (List.mem_range.1 hk)) 0 t) ht) hd
  have hf : entryHolds p mem pads f := each_keeps (entryHolds p mem pads) (fun i _ t ht => eraseStream_holds i ht) he
  have hg : entryHolds p mem pads g := by
    have hnone : (List.range 256).filter f.endable = [] :=
      List.filter_eq_nil_iff.2 fun c hc => by simp [hf.2.2.2 c (List.mem_range.1 hc)]
    unfold g
    rw [hnone]
    exact hf
  exact entryHolds_of_moveView (s := g) ((moveView_wr xltKey_off _ _).trans ((moveView_wr hepStatusKey_off 0 _).trans
    (moveView_wr hepStatusKey_off 0 h))) hg

/-- The records that wait are committed. -/
def queueCommitted (s : State) : State := each (List.range s.bb.queue.length) (fun _ s => bbxRecordCommit true s) s

theorem queueCommitted_view (s : State) : (queueCommitted s).moveView = s.moveView :=
  each_obs State.moveView (fun _ _ s => bbxRecordCommit_view s) s

theorem dormant_eq (s : State) :
    dormant s = ((linkReset (queueCommitted s)).onPins fun x => { x with enLow := x.enLow ||| 1 }).wr F.CLK_STATUS_LOCK 0x20 := rfl

/-- The steps to L5 Dormant. -/
theorem dormant_holds {s : State} (hs : entryHolds p mem pads s) : entryHolds p mem pads (dormant s) := by
  rw [dormant_eq]
  have hreset := linkReset_holds (entryHolds_of_moveView (queueCommitted_view s) hs)
  generalize linkReset (queueCommitted s) = t at hreset ⊢
  exact entryHolds_of_moveView ((moveView_wr clkKey_off 0x20 _).trans (onPins_view _ t)) hreset

end

end Sys2Proof.Machine
end

section
/-! SUPPORT. The steps of an entry together, and POWER_MOVE_END of an entry (R487, R495). -/

namespace Sys2Proof.Machine

section
variable {p : Power} {mem : SMap Byte} {pads : Nat}

/-- The steps to L3 Still, with the pads latched. -/
theorem still_holds {s : State} (hs : entryHolds p mem pads s) : entryHolds p mem 1 (still s) := by
  obtain ⟨hp, hd, -, hq⟩ := entryHolds_of_moveView (stillBefore_view s) hs
  rw [still_eq]
  refine ⟨hp, hd, rd_wr_holds _ (by decide), fun c hc => (endable_of_state ?_).trans (hq c hc)⟩
  refine rd_wr_other (stillBefore s) (f := F.PWR_STATUS_PADS_HELD) (g := F.CTX_STATE_STATE c) ?_ 1
  change R.CTX_STATE c ≠ R.PWR_STATUS
  unfold R.CTX_STATE R.PWR_STATUS
  omega

end

/-- In a device that is quiet no context is LOCKED or in RUN, and no port is up. -/
theorem entryHolds_of_quiet {s : State} (h : deviceQuiet s) : entryHolds s.power s.devMem (s.rd F.PWR_STATUS_PADS_HELD) s := by
  obtain ⟨hctx, -, -⟩ := h
  refine ⟨rfl, rfl, rfl, fun c hc => ?_⟩
  unfold State.endable
  rcases hctx c hc with h | h <;> rw [h] <;> rfl

/-- What the steps of an entry leave: the controller as it was, the pads latched on the way to L3 Still and below, and device memory
lost on the way to L4 Shelf and below. -/
def entryLeaves (start target : Nat) (s t : State) : Prop :=
  t.power = s.power ∧ (start < 3 → 3 ≤ target → t.rd F.PWR_STATUS_PADS_HELD = 1) ∧ (start < 4 → 4 ≤ target → t.devMem = [])

/-- An entry to L1 Poise has no steps. -/
theorem entrySteps_poise {start target : Nat} (h : target ≤ 1) (s : State) : entrySteps start target s = s := by
  have hstep : ∀ a b, 2 ≤ b → (decide (start < a) && decide (b ≤ target)) = false := fun a b hb => by simp; omega
  unfold entrySteps
  simp only [hstep _ 2 (by decide), hstep _ 3 (by decide), hstep _ 4 (by decide), hstep _ 5 (by decide), when'_false]

theorem entrySteps_leaves {start target : Nat} {s : State} (h : target ≤ 1 ∨ deviceQuiet s) :
    entryLeaves start target s (entrySteps start target s) := by
  rcases h with h | h
  · rw [entrySteps_poise h]
    exact ⟨rfl, fun _ _ => by omega, fun _ _ => by omega⟩
  have hs := entryHolds_of_quiet h
  have hports : s.portsDown := h.2.2
  unfold entrySteps
  extract_lets a b c
  have ha : entryHolds s.power s.devMem (s.rd F.PWR_STATUS_PADS_HELD) a :=
    entryHolds_of_moveView (when'_obs State.moveView _ (hush_view hports)) hs
  have hb : ∃ pads, entryHolds s.power s.devMem pads b ∧ (start < 3 → 3 ≤ target → pads = 1) := by
    unfold b when'
    split
    · exact ⟨1, still_holds ha, fun _ _ => rfl⟩
    · rename_i hno
      exact ⟨_, ha, fun h1 h2 => absurd (by simp [h1, h2]) hno⟩
  obtain ⟨pads, hb, hpads⟩ := hb
  have hc : ∃ mem, entryHolds s.power mem pads c ∧ (start < 4 → 4 ≤ target → mem = []) := by
    unfold c when'
    split
    · exact ⟨[], shelve_holds hb, fun _ _ => rfl⟩
    · rename_i hno
      exact ⟨_, hb, fun h1 h2 => absurd (by simp [h1, h2]) hno⟩
  obtain ⟨mem, hc, hmem⟩ := hc
  have hlast : entryHolds s.power mem pads (when' (decide (start < 5) && decide (5 ≤ target)) dormant c) := by
    unfold when'
    split
    · exact dormant_holds hc
    · exact hc
  obtain ⟨hp, hd, hpad, -⟩ := hlast
  exact ⟨hp, fun h1 h2 => hpad.trans (hpads h1 h2), fun h1 h2 => hd.trans (hmem h1 h2)⟩

/-- An entry that every block agrees to ends (R487). -/
theorem exec_powerMoveEnd_enters {m : Move} {s : State} (hm : s.power.move = some m) (ht : m.target < 6) (hn : m.thenTo = none)
    (hw : s.power.waiting = none) (he : m.entry = true) (ha : s.power.asked = []) (h0 : m.target ≠ 0)
    (hq : m.target ≤ 1 ∨ deviceQuiet s) :
    ∃ s', exec .powerMoveEnd s = .next s' ∧ (endShown m 0 s' ∧ moveTold m 0 s') ∧
      (m.start < 3 → 3 ≤ m.target → s'.rd F.PWR_STATUS_PADS_HELD = 1) ∧ (m.start < 4 → 4 ≤ m.target → s'.devMem = []) := by
  have heq : powerMoveEnd s = endMove m (entrySteps m.start m.target s) := by
    unfold powerMoveEnd
    rw [hm]
    simp [he, ha]
  obtain ⟨hpower, hpads, hmem⟩ := entrySteps_leaves (start := m.start) hq
  generalize entrySteps m.start m.target s = u at heq hpower hpads hmem
  have hlast : when' (m.target = 0) (fun s => pumpAll (idleSlices (overdueRounds s))) (moveAnswered m u) = moveAnswered m u := by
    unfold when'
    simp [h0]
  have hwait : (moveAnswered m u).power.waiting = none := by
    rw [moveAnswered_power, hpower]
    exact hw
  have hdev : (moveAnswered m u).devMem = u.devMem :=
    moveAnswered_frame State.devMem (fun _ _ => rfl) (fun _ _ => rfl) (fun _ _ => rfl) (fun _ _ => rfl) (fun _ _ => rfl) m u
  have hheld : (moveAnswered m u).rd F.PWR_STATUS_PADS_HELD = u.rd F.PWR_STATUS_PADS_HELD :=
    (moveAnswered_rd rfl (by decide) m u).trans (movedTo_rd rfl (by decide) (by decide) m u)
  have hshown : endShown m 0 (moveAnswered m u) := by
    have := moveAnswered_shown (m := m) (by omega) u
    simpa only [he, Bool.true_eq_false, false_and, if_false] using this
  rw [exec_powerMoveEnd, execPowerMoveEnd, heq, endMove_eq hn, hlast, nextMove_none hwait]
  exact ⟨_, rfl, ⟨hshown, moveAnswered_told m u⟩, fun h1 h2 => hheld.trans (hpads h1 h2), fun h1 h2 => hdev.trans (hmem h1 h2)⟩

end Sys2Proof.Machine
end

section
/-! The statement about the power ladder (chapter 16). -/

open Sys2Proof Sys2Proof.Machine

/-- Settles O59: every command answers by its own law. A move begins, turns back or is refused in PWR_STATUS and the controller; the steps
of an exit and, in a device that is quiet, of an entry leave what the end of the move is read from, so that the end shows the target; the
sites of a sample are looked at one by one; and the controller moves one lever at a time. -/
theorem powerLadder : Obligations.PowerLadder := by
  intro s st same told wakes moves
  refine ⟨fun v => ⟨exec_pwrCmd_ignored, exec_pwrCmd_foreign, fun hmay hm h => ?_, fun hmay hm hbar hne hb => ?_, fun hmay hm hw => ?_⟩,
    fun agreed => ⟨exec_negotiationTimeout_none, fun m hm => ⟨exec_negotiationTimeout_idle hm, exec_negotiationTimeout_agreed hm,
      exec_negotiationTimeout_refused hm⟩⟩,
    ⟨exec_powerMoveEnd_none, fun m hm ht => ⟨exec_powerMoveEnd_waits hm, fun hn hw => ⟨fun he ha h0 hq => ?_, fun he hr ho hq => ?_⟩⟩⟩,
    fun a v => ⟨exec_pwrPadRelease_idle, exec_pwrPadRelease_foreign, exec_pwrPadRelease_frees⟩,
    exec_wakeIn_off, fun h => wake_acts (exec_wakeIn_on h), wake_acts (exec_mgmtBusAddressMatch_next s),
    exec_spnAlarm_idle, spnAlarm_acts, fun hub stack link sites => ⟨exec_powerSample_calm, fun x hx hp hl hs hc hd => ?_⟩,
    fun stackW arrayW => ⟨exec_powerControlCheck_idle, fun h => ?_⟩⟩
  · obtain ⟨he, hc, hg⟩ := hmay
    exact exec_pwrCmd_ends he hc hg hm h
  · obtain ⟨he, hc, hg⟩ := hmay
    obtain ⟨s', hs, x, ⟨hmove, hbusy, hstate, htarget⟩, hwho, hto⟩ := exec_pwrCmd_begins he hc hg hm hbar hne hb
    exact ⟨s', hs, hbusy, hstate, x, hmove, hwho, htarget, hto⟩
  · obtain ⟨he, hc, hg⟩ := hmay
    exact exec_pwrCmd_waits he hc hg hm hw
  · obtain ⟨s', hs, ⟨⟨hstate, hbusy, hresult, hmove, hdom⟩, htold⟩, hkept⟩ := exec_powerMoveEnd_enters hm ht hn hw he ha h0 hq
    exact ⟨s', hs, ⟨hstate, hbusy, hresult, hmove, hdom, htold⟩, hkept⟩
  · obtain ⟨s', hs, ⟨hstate, hbusy, hresult, hmove, hdom⟩, htold⟩ := exec_powerMoveEnd_exits hm ht hn hw he hr ho hq
    exact ⟨s', hs, hstate, hbusy, hresult, hmove, hdom, htold⟩
  · exact exec_powerSample_fences hx hp hl hs hc hd
  · obtain ⟨hduty, hstep, hback, hgrow, hrest⟩ := levers_cases (s := s) (stackW := stackW) (arrayW := arrayW)
    have sets := fun (d m : Nat) (hr : s.levers stackW arrayW = (d, m)) => exec_powerControlCheck_sets h hr
    exact ⟨fun h1 h2 => sets _ _ (hduty h1 h2), fun h1 h2 => sets _ _ (hstep h1 h2), fun h1 h2 => sets _ _ (hback h1 h2),
      fun h1 h2 h3 => sets _ _ (hgrow h1 h2 h3), fun h1 h2 h3 => sets _ _ (hrest h1 h2 h3)⟩

end

section
/-! SUPPORT. Laws of the array's operations (chapter 02): an operation behind a change of it, the registers of a tile, and what the refill of
a tile's finished-tile queue changes. -/

namespace Sys2Proof.Machine

/-! ### Operations of a context -/

/-- An operation behind a change that keeps acceptance counts: the one that was changed, and every other as before. -/
theorem op?_onOp {f : Op → Op} (hf : ∀ o, (f o).seq = o.seq) (c q c' q' : Nat) (s : State) :
    (s.onOp c q f).op? c' q' = if c' = c ∧ q' = q then (s.op? c q).map f else s.op? c' q' := by
  by_cases hc : c' = c
  · subst hc
    have hcomp : ((fun o : Op => decide (o.seq = q')) ∘ fun o => if o.seq = q then f o else o) = fun o => decide (o.seq = q') := by
      funext o
      by_cases ho : o.seq = q <;> simp [ho, hf]
    unfold State.op? State.onOp
    rw [State.onCtx_same, List.find?_map, hcomp]
    by_cases hq : q' = q
    · subst hq
      simp only [and_self, if_true]
      refine Option.map_congr fun o ho => ?_
      simp [show o.seq = q' by simpa using List.find?_some ho]
    · simp only [hq, and_false, if_false]
      conv_rhs => rw [← Option.map_id' (x := List.find? _ _)]
      refine Option.map_congr fun o ho => ?_
      simp [show o.seq = q' by simpa using List.find?_some ho, hq]
  · unfold State.op? State.onOp
    simp only [hc, false_and, if_false]
    rw [State.onCtx_other _ _ _ hc]

/-- The operation itself behind its change. -/
theorem op?_onOp_same {f : Op → Op} (hf : ∀ o, (f o).seq = o.seq) {c q : Nat} {s : State} {o : Op} (h : s.op? c q = some o) :
    (s.onOp c q f).op? c q = some (f o) := by simp [op?_onOp hf, h]

/-- The operation that a context holds under an acceptance count has that count. -/
theorem seq_of_op? {s : State} {c q : Nat} {o : Op} (h : s.op? c q = some o) : o.seq = q := by
  simpa using List.find?_some h

/-- The kind of an operation in flight. -/
def State.kindAt (s : State) (c q : Nat) : Option Nat := (s.op? c q).map Op.kind

/-- A change of an operation that keeps its count and its descriptor keeps every kind. -/
theorem kindAt_onOp {f : Op → Op} (hf : ∀ o, (f o).seq = o.seq) (hk : ∀ o, (f o).kind = o.kind) (c q c' q' : Nat) (s : State) :
    (s.onOp c q f).kindAt c' q' = s.kindAt c' q' := by
  unfold State.kindAt
  rw [op?_onOp hf]
  split
  · rename_i h
    rw [h.1, h.2, Option.map_map]
    exact congrFun (congrArg Option.map (funext hk)) _
  · rfl

/-! ### Registers of a tile -/

/-- A field of a family reads what is written to it, cut to its width. -/
theorem rd_wr_cut (s : State) {k hi lo : Nat} (h : lo ≤ hi ∧ hi < 64) (v : Nat) :
    (s.wr ⟨k, hi, lo⟩ v).rd ⟨k, hi, lo⟩ = v % 2 ^ (hi + 1 - lo) := rd_wr_same s (f := ⟨k, hi, lo⟩) h v

theorem status_ne_stall (t u : Nat) : R.MXA_STATUS t ≠ R.MXA_STALL u := by unfold R.MXA_STATUS R.MXA_STALL; omega
theorem status_inj {t u : Nat} (h : u ≠ t) : R.MXA_STATUS u ≠ R.MXA_STATUS t := by unfold R.MXA_STATUS; omega

/-- A tile's state after a step: as it was, or still one of IDLE and RUN (R57). -/
def stateKept (u : Nat) (s s' : State) : Prop :=
  s'.rd (F.MXA_STATUS_STATE u) = s.rd (F.MXA_STATUS_STATE u) ∨
    ((s.rd (F.MXA_STATUS_STATE u) = 1 ∨ s.rd (F.MXA_STATUS_STATE u) = 2) ∧
      (s'.rd (F.MXA_STATUS_STATE u) = 1 ∨ s'.rd (F.MXA_STATUS_STATE u) = 2))

theorem stateKept.refl (u : Nat) (s : State) : stateKept u s s := .inl rfl

theorem stateKept.trans {u : Nat} {a b c : State} (h : stateKept u a b) (h' : stateKept u b c) : stateKept u a c := by
  unfold stateKept at *
  omega

theorem stateKept_of_reg {u : Nat} {s s' : State} (h : s'.reg (R.MXA_STATUS u) = s.reg (R.MXA_STATUS u)) : stateKept u s s' :=
  .inl (rd_of_reg (f := F.MXA_STATUS_STATE u) h)

/-- A tile that serves goes on serving, and one that does not still does not. -/
theorem stateKept.serves {u : Nat} {s s' : State} (h : stateKept u s s') : s'.tileServes u = s.tileServes u := by
  unfold State.tileServes
  rcases h with h | ⟨h | h, h' | h'⟩
  · simp [h]
  all_goals simp [h, h']

/-- A state that is neither IDLE nor RUN stays. -/
theorem stateKept.eq_of {u k : Nat} {s s' : State} (h : stateKept u s s') (hs : s.rd (F.MXA_STATUS_STATE u) = k) (h1 : k ≠ 1) (h2 : k ≠ 2) :
    s'.rd (F.MXA_STATUS_STATE u) = k := by
  unfold stateKept at h
  omega

/-! ### Steps of a tile -/

/-- What the steps of a tile that drain and refill its queue change (R35): the tile's banks, queue and counts of standing still, MXA_STATUS
and MXA_STALL of the tile, and free values. A bank that is not done stays; with no bank done, banks and queue stay; an empty tile stays. -/
structure TileStep (t : Nat) (s s' : State) : Prop where
  others : ∀ j, j ≠ t → s'.tile j = s.tile j
  tile : s'.tile t = { s.tile t with banks := (s'.tile t).banks, ftq := (s'.tile t).ftq, ended := (s'.tile t).ended,
                                     ftqAt := (s'.tile t).ftqAt, ftqRem := (s'.tile t).ftqRem }
  undone : ∀ k ∈ (s.tile t).banks, k.done = false → k ∈ (s'.tile t).banks
  calm : (∀ k ∈ (s.tile t).banks, k.done = false) →
    (s'.tile t).banks = (s.tile t).banks ∧ (s'.tile t).ftq = (s.tile t).ftq ∧ s'.freeCtr = s.freeCtr
  empty : emptyTile t s → s'.tile t = s.tile t
  regs : ∀ k, k ≠ R.MXA_STATUS t → k ≠ R.MXA_STALL t → s'.reg k = s.reg k
  state : stateKept t s s'
  held : ∀ hi lo, 10 < lo → lo ≤ hi → hi < 64 → s'.rd ⟨R.MXA_STATUS t, hi, lo⟩ = s.rd ⟨R.MXA_STATUS t, hi, lo⟩
  rest : s' = { s with tiles := s'.tiles, regs := s'.regs, freeCtr := s'.freeCtr }

theorem TileStep.refl (t : Nat) (s : State) : TileStep t s s :=
  ⟨fun _ _ => rfl, rfl, fun _ h _ => h, fun _ => ⟨rfl, rfl, rfl⟩, fun _ => rfl, fun _ _ _ => rfl, .refl t s, fun _ _ _ _ _ => rfl, rfl⟩

theorem TileStep.trans {t : Nat} {a b c : State} (h : TileStep t a b) (h' : TileStep t b c) : TileStep t a c where
  others j hj := (h'.others j hj).trans (h.others j hj)
  tile := by rw [h'.tile, h.tile]
  undone k hk hd := h'.undone k (h.undone k hk hd) hd
  calm hc := by
    obtain ⟨hb, hf, hn⟩ := h.calm hc
    obtain ⟨hb', hf', hn'⟩ := h'.calm (hb ▸ hc)
    exact ⟨hb'.trans hb, hf'.trans hf, hn'.trans hn⟩
  empty he := by
    have hb := h.empty he
    exact (h'.empty (by unfold emptyTile at *; rw [hb]; exact he)).trans hb
  regs k h1 h2 := (h'.regs k h1 h2).trans (h.regs k h1 h2)
  state := h.state.trans h'.state
  held hi lo h1 h2 h3 := (h'.held hi lo h1 h2 h3).trans (h.held hi lo h1 h2 h3)
  rest := by rw [h'.rest, h.rest]

/-- A step that changes only what the tile holds. -/
theorem TileStep.of_tile {t : Nat} {f : Tile → Tile} {s : State}
    (hf : f (s.tile t) = { s.tile t with banks := (f (s.tile t)).banks, ftq := (f (s.tile t)).ftq, ended := (f (s.tile t)).ended,
                                         ftqAt := (f (s.tile t)).ftqAt, ftqRem := (f (s.tile t)).ftqRem })
    (hb : ∀ k ∈ (s.tile t).banks, k.done = false → k ∈ (f (s.tile t)).banks)
    (hc : (∀ k ∈ (s.tile t).banks, k.done = false) → (f (s.tile t)).banks = (s.tile t).banks ∧ (f (s.tile t)).ftq = (s.tile t).ftq)
    (he : emptyTile t s → f (s.tile t) = s.tile t) : TileStep t s (s.onTile t f) where
  others j hj := State.onTile_other s t f hj
  tile := by rw [State.onTile_same]; exact hf
  undone k hk hd := by rw [State.onTile_same]; exact hb k hk hd
  calm h := by rw [State.onTile_same]; exact ⟨(hc h).1, (hc h).2, rfl⟩
  empty h := by rw [State.onTile_same]; exact he h
  regs _ _ _ := rfl
  state := .inl rfl
  held _ _ _ _ _ := rfl
  rest := rfl

/-- A step that changes only the registers. -/
theorem TileStep.of_regs {t : Nat} {s s' : State} (hs : s' = { s with regs := s'.regs })
    (hr : ∀ k, k ≠ R.MXA_STATUS t → k ≠ R.MXA_STALL t → s'.reg k = s.reg k) (hst : stateKept t s s')
    (hh : ∀ hi lo, 10 < lo → lo ≤ hi → hi < 64 → s'.rd ⟨R.MXA_STATUS t, hi, lo⟩ = s.rd ⟨R.MXA_STATUS t, hi, lo⟩) : TileStep t s s' where
  others _ _ := by rw [hs]; rfl
  tile := by rw [hs]; rfl
  undone _ hk _ := by rw [hs]; exact hk
  calm _ := by rw [hs]; exact ⟨rfl, rfl, rfl⟩
  empty _ := by rw [hs]; rfl
  regs := hr
  state := hst
  held := hh
  rest := by rw [hs]

/-- A step of a tile behind a draw of free values, where a bank is done. -/
theorem TileStep.of_drawn {t : Nat} {s s' : State} (n : Nat) (hc : ¬ ∀ k ∈ (s.tile t).banks, k.done = false)
    (h : TileStep t (s.drawnN n) s') : TileStep t s s' :=
  ⟨h.others, h.tile, h.undone, fun hk => absurd hk hc, h.empty, h.regs, h.state, h.held, h.rest⟩

/-- What an empty tile holds. -/
theorem emptyTile.fields {t : Nat} {s : State} (h : emptyTile t s) : (s.tile t).deal = [] ∧ (s.tile t).banks = [] ∧ (s.tile t).ftq = [] ∧
    (s.tile t).sent = [] ∧ (s.tile t).ended = false ∧ (s.tile t).ftqAt = none := by
  rw [h]; exact ⟨rfl, rfl, rfl, rfl, rfl, rfl⟩

/-- Draining the finished banks of a tile is a step of the tile. -/
theorem drainBanks_step (t n : Nat) (s : State) : TileStep t s (drainBanks t s n) := by
  induction n generalizing s with
  | zero => exact .refl t s
  | succ n ih =>
    unfold drainBanks
    dsimp only
    split
    · exact .refl t s
    · rename_i k hk
      have hd : k.done = true := List.find?_some hk
      have hm : k ∈ (s.tile t).banks := List.mem_of_find?_eq_some hk
      have herase : ∀ j ∈ (s.tile t).banks, j.done = false → j ∈ (s.tile t).banks.erase k := fun j hj hjd =>
        (List.mem_erase_of_ne fun e => by rw [e, hd] at hjd; cases hjd).2 hj
      have hcalm : ¬ ∀ j ∈ (s.tile t).banks, j.done = false := fun h => by rw [h k hm] at hd; cases hd
      have hempty : ¬ emptyTile t s := fun h => by rw [h.fields.2.1] at hm; cases hm
      split
      · exact .refl t s
      · split
        · exact (TileStep.of_tile rfl herase (fun h => absurd h hcalm) fun h => absurd h hempty).trans (ih _)
        · rename_i o ho
          refine TileStep.trans ?_ (ih _)
          split
          · exact .of_drawn _ hcalm (.of_tile rfl herase (fun h => absurd h hcalm) fun h => absurd h hempty)
          · exact .of_tile rfl herase (fun h => absurd h hcalm) fun h => absurd h hempty

/-- With no bank done nothing drains. -/
theorem drainBanks_calm {t : Nat} {s : State} (h : ∀ k ∈ (s.tile t).banks, k.done = false) (n : Nat) : drainBanks t s n = s := by
  cases n with
  | zero => rfl
  | succ n =>
    unfold drainBanks
    have hn : (s.tile t).banks.find? (·.done) = none := List.find?_eq_none.2 fun k hk => by simp [h k hk]
    dsimp only
    rw [hn]

/-- Bringing a tile's status to what it holds is a step of the tile. -/
theorem syncTile_step (t : Nat) (s : State) : TileStep t s (syncTile t s) := by
  have hocc : ∀ n, TileStep t s (s.wr (F.MXA_STATUS_FTQ_OCC t) n) := fun n =>
    .of_regs rfl (fun k h _ => reg_wr_other s _ _ h) (.inl (rd_wr_beside s (by decide) _)) fun hi lo h1 h2 h3 => rd_wr_beside s (by omega) _
  unfold syncTile
  dsimp only
  split
  · rename_i hk
    simp only [Bool.or_eq_true, decide_eq_true_eq] at hk
    refine (hocc _).trans (.of_regs rfl (fun k h _ => reg_wr_other _ _ _ h) (.inr ⟨?_, ?_⟩) fun hi lo h1 h2 h3 => rd_wr_beside _ (by omega) _)
    · have h := rd_wr_beside s (k := R.MXA_STATUS t) (hi := 10) (lo := 8) (hi' := 3) (lo' := 0) (by omega) (s.tile t).ftq.length
      exact h.symm ▸ hk
    · have hw : ∀ v, v < 16 → ∀ u : State, (u.wr (F.MXA_STATUS_STATE t) v).rd (F.MXA_STATUS_STATE t) = v := fun v hv u =>
        rd_wr_fits u (by omega) hv
      split
      · exact .inl (hw 1 (by omega) _)
      · exact .inr (hw 2 (by omega) _)
  · exact hocc _

/-- Bringing the count of standing still for an entry up to now is a step of the tile. -/
theorem stallSync_step (t : Nat) (s : State) : TileStep t s (stallSync t s) := by
  unfold stallSync
  dsimp only
  split
  · rename_i hfull
    simp only [Bool.and_eq_true] at hfull
    split
    · exact .of_tile rfl (fun _ h _ => h) (fun _ => ⟨rfl, rfl⟩) fun h => by rw [h.fields.2.2.2.2.1] at hfull; simp at hfull
    · exact .refl t s
  · split
    · exact .refl t s
    · rename_i a ha
      have hstall : ∀ v, TileStep t s (s.wr (F.MXA_STALL_FTQ_FULL t) v) := fun v =>
        .of_regs rfl (fun k _ h => reg_wr_other s _ _ h) (.inl (rd_wr_other s (status_ne_stall t t) _)) fun hi lo _ _ _ =>
          rd_wr_other s (status_ne_stall t t) _
      refine TileStep.trans (hstall _) (.of_tile rfl (fun _ h _ => h) (fun _ => ⟨rfl, rfl⟩) fun h => ?_)
      have hn : (s.tile t).ftqAt = none := h.fields.2.2.2.2.2
      rw [hn] at ha
      cases ha

/-- No VECTOR waits at the head of a tile's deal list. -/
def noLoad (t : Nat) (s : State) : Prop :=
  ∀ b rest o, (s.tile t).deal = b :: rest → s.op? b.ctx b.seq = some o → o.kind ≠ 2

/-- Nothing is loaded where no VECTOR waits. -/
theorem loadVector_none {t : Nat} {s : State} (h : noLoad t s) (n : Nat) : loadVector t s n = s := by
  cases n with
  | zero => rfl
  | succ n =>
    unfold loadVector
    dsimp only
    split
    · rfl
    · rename_i b rest hb
      split
      · rfl
      · rename_i o ho
        rw [if_pos (by simp [h b rest o hb ho])]

/-- A step of a tile keeps the deal list, every other operation's and context's data. -/
theorem TileStep.deal {t : Nat} {s s' : State} (h : TileStep t s s') : (s'.tile t).deal = (s.tile t).deal := by rw [h.tile]
theorem TileStep.ctxs {t : Nat} {s s' : State} (h : TileStep t s s') : s'.ctxs = s.ctxs := by rw [h.rest]
theorem TileStep.op? {t : Nat} {s s' : State} (h : TileStep t s s') (c q : Nat) : s'.op? c q = s.op? c q := by
  rw [h.rest]; rfl
theorem TileStep.ctx {t : Nat} {s s' : State} (h : TileStep t s s') (c : Nat) : s'.ctx c = s.ctx c := by rw [h.rest]; rfl
theorem TileStep.tileCtx {t : Nat} {s s' : State} (h : TileStep t s s') : s'.tileCtx t = s.tileCtx t := by
  unfold State.tileCtx State.on
  rw [show s'.rd (F.MXA_STATUS_CTX_VALID t) = s.rd (F.MXA_STATUS_CTX_VALID t) from h.held 56 56 (by omega) (by omega) (by omega),
    show s'.rd (F.MXA_STATUS_CUR_CTX t) = s.rd (F.MXA_STATUS_CUR_CTX t) from h.held 55 48 (by omega) (by omega) (by omega)]

theorem TileStep.noLoad {t : Nat} {s s' : State} (h : TileStep t s s') (hn : noLoad t s) : Machine.noLoad t s' := fun b rest o hb ho =>
  hn b rest o (h.deal ▸ hb) (h.op? _ _ ▸ ho)

/-- An array that waited for an entry and has no bank done any more goes on (R35). -/
def resumed (t : Nat) (s : State) : State :=
  if (s.tile t).ended && !(s.tile t).stopped && !((s.tile t).banks.any (·.done)) then s.onTile t fun x => { x with ended := false } else s

theorem resumed_step (t : Nat) (s : State) : TileStep t s (resumed t s) := by
  unfold resumed
  split
  · rename_i h
    exact .of_tile rfl (fun _ h _ => h) (fun _ => ⟨rfl, rfl⟩) fun he => by rw [he.fields.2.2.2.2.1] at h; simp at h
  · exact .refl t s

theorem refillQueue_eq (t : Nat) (s : State) :
    refillQueue t s = stallSync t (syncTile t (resumed t (loadVector t (drainBanks t s 8) 4))) := rfl

/-- What comes behind the loads of a refill. -/
theorem refilled_step (t : Nat) (s : State) : TileStep t s (stallSync t (syncTile t (resumed t s))) :=
  ((resumed_step t s).trans (syncTile_step t _)).trans (stallSync_step t _)

/-- The refill of a queue whose tile has no VECTOR to load is a step of the tile. -/
theorem refillQueue_step {t : Nat} {s : State} (h : noLoad t s) : TileStep t s (refillQueue t s) := by
  have hd := drainBanks_step t 8 s
  rw [refillQueue_eq, loadVector_none (hd.noLoad h)]
  exact hd.trans (refilled_step t _)

/-- FTQ_OCC behind a refill (R57). -/
theorem refillQueue_occ (t : Nat) (s : State) :
    (refillQueue t s).rd (F.MXA_STATUS_FTQ_OCC t) = ((refillQueue t s).tile t).ftq.length % 8 := by
  have hsync : ∀ u : State, (syncTile t u).rd (F.MXA_STATUS_FTQ_OCC t) = (u.tile t).ftq.length % 8 := fun u => by
    have hw : (u.wr (F.MXA_STATUS_FTQ_OCC t) (u.tile t).ftq.length).rd (F.MXA_STATUS_FTQ_OCC t) = (u.tile t).ftq.length % 8 :=
      rd_wr_cut u (by omega) _
    unfold syncTile
    dsimp only
    split
    · exact (rd_wr_beside _ (by decide) _).trans hw
    · exact hw
  have hstall : ∀ u : State, (stallSync t u).rd (F.MXA_STATUS_FTQ_OCC t) = u.rd (F.MXA_STATUS_FTQ_OCC t) ∧
      ((stallSync t u).tile t).ftq = (u.tile t).ftq := fun u => by
    unfold stallSync
    dsimp only
    split
    · split
      · exact ⟨rfl, by rw [State.onTile_same]⟩
      · exact ⟨rfl, rfl⟩
    · split
      · exact ⟨rfl, rfl⟩
      · exact ⟨rd_wr_other u (status_ne_stall t t) _, by rw [State.onTile_same]; rfl⟩
  have hftq : ∀ u : State, ((syncTile t u).tile t).ftq = (u.tile t).ftq := fun u => by
    unfold syncTile
    dsimp only
    split <;> rfl
  rw [refillQueue_eq, (hstall _).1, (hstall _).2, hsync, hftq]

/-! ### What is saved and waits -/

/-- Where nothing saved of the tile's context waits, nothing is placed. -/
theorem placeDue_none {t : Nat} {s : State} (h : noSaved t s) : placeDue t s = s := by
  unfold placeDue
  split
  · rename_i c hc
    obtain ⟨h1, h2⟩ := h c hc
    unfold placeSaved
    simp [h1, h2]
  · rfl

theorem TileStep.noSaved {t : Nat} {s s' : State} (h : TileStep t s s') (hn : noSaved t s) : Machine.noSaved t s' := fun c hc => by
  rw [h.ctx]
  exact hn c (h.tileCtx ▸ hc)

end Sys2Proof.Machine
end

section
/-! SUPPORT. Accesses to memory that nothing holds back (R203, R209, R266), rows that are written, and the end of an operation's work. -/

namespace Sys2Proof.Machine

/-! ### Accesses that nothing holds back -/

/-- An access of a context that reaches memory at once goes on, and its reads touch the slices (R193). -/
theorem access_free {x : Payer} {s : State} (h : memFree x.ctx s) (flits : Nat) (rd wr : List (Nat × Nat)) :
    access x flits rd wr s = (true, each rd (fun r s => s.ctxTouch x.ctx r.1 r.2) s) := by
  obtain ⟨hrate, hnoc, hcopy⟩ := h
  have hheld : s.areaHeld x.ctx (rd ++ wr) = false := by
    have : (s.chans.any fun e => !e.2.copying.isEmpty) = false := List.any_eq_false.2 fun e he => by simp [hcopy e he]
    unfold State.areaHeld
    rw [this, Bool.false_and]
  have hbytes : s.byteNeeds x.ctx (rd ++ wr) = [] := by
    unfold State.byteNeeds
    rw [List.filter_eq_nil_iff.2 fun k hk => by simp [hrate k (List.mem_range.1 hk)], List.filterMap_nil]
  have hflits : s.flitNeeds { x with ctx := x.ctx } flits = [] := by
    unfold State.flitNeeds State.injectDepth
    simp [hnoc]
  unfold access accessAll
  simp [hheld, hbytes, hflits, payNeeds, each]

/-! ### Rows written (R29, R122) -/

/-- Writing rows changes only device memory, its marks and the channels' records. -/
theorem writeRows_frame {β : Sort _} (obs : State → β) (h : ∀ s x y z, obs { s with devMem := x, ueMarks := y, chans := z } = obs s)
    (c : Nat) (o : Op) (row col w : Nat) (bs : List Byte) (n i : Nat) (s : State) : obs (writeRows c o row col w bs n i s).1 = obs s := by
  induction n generalizing i s with
  | zero => rfl
  | succ n ih =>
    unfold writeRows
    dsimp only
    split
    · rfl
    · split
      · rfl
      · have hw := fun a d => ctxWrite_frame obs h c a d s
        split
        · rename_i hu
          exact (congrArg (fun r => obs r.1) hu).symm.trans (hw _ _)
        · rename_i hu
          exact (ih _ _).trans ((congrArg (fun r => obs r.1) hu).symm.trans (hw _ _))

/-! ### The end of an operation's work (R35, R89, R123) -/

/-- The end of an operation's work leaves the state, or ends the operation with OK. -/
theorem workDone_cases (c q : Nat) (s : State) : workDone c q s = s ∨ workDone c q s = endOp c q stOK 0 0 s := by
  unfold workDone
  split
  · exact .inl rfl
  · dsimp only
    split
    · exact .inr rfl
    · exact .inl rfl

/-- What `endOp` makes of an operation. -/
def Op.ended (r : Result) (o : Op) : Op := match o.done with
  | some _ => o
  | none => { o with done := some r }

theorem endOp_eq (c q st detail value : Nat) (s : State) :
    endOp c q st detail value s = s.onOp c q (Op.ended { status := st, detail := detail, value := value, ident := none }) := rfl

/-- The end of an operation's work changes nothing of it but `done`. -/
theorem Op.ended_eq (r : Result) (o : Op) : o.ended r = { o with done := (o.ended r).done } := by
  unfold Op.ended
  split <;> rfl

/-- The end of an operation's work changes contexts alone. -/
theorem workDone_frame {β : Sort _} (obs : State → β) (h : ∀ s x, obs { s with ctxs := x } = obs s) (c q : Nat) (s : State) :
    obs (workDone c q s) = obs s := by
  rcases workDone_cases c q s with e | e
  · rw [e]
  · rw [e]; exact h _ _

/-- An operation behind the end of its work: only `done` may differ. -/
theorem workDone_op {c q : Nat} {s : State} {o : Op} (h : s.op? c q = some o) :
    ∃ r, (workDone c q s).op? c q = some { o with done := r } := by
  rcases workDone_cases c q s with e | e
  · exact ⟨o.done, by rw [e, h]⟩
  · rw [e, endOp_eq, op?_onOp_same (fun o => by rw [Op.ended_eq]) h, Op.ended_eq]
    exact ⟨_, rfl⟩

/-- A block that counts as written (R45, R89): it is among the written ones, and its flags count when it is new. -/
theorem blockDone_op {c q : Nat} {s : State} {o : Op} (h : s.op? c q = some o) (row col flags : Nat) :
    ∃ o', (blockDone c q row col flags s).op? c q = some o' ∧ (row, col) ∈ o'.written ∧
      o'.aflags = if (row, col) ∈ o.written then o.aflags else o.aflags ||| flags := by
  unfold blockDone
  obtain ⟨r, hr⟩ := workDone_op (c := c) (q := q) (op?_onOp_same (f := fun o => if o.written.contains (row, col) then o
    else { o with written := (row, col) :: o.written, aflags := o.aflags ||| flags }) (fun o => by split <;> rfl) h)
  refine ⟨_, hr, ?_, ?_⟩
  all_goals by_cases hw : (row, col) ∈ o.written <;> simp [hw]

end Sys2Proof.Machine
end

section
/-! SUPPORT. FTQ_ENTRY_FREED and BLOCK_WRITTEN: what the commands answer (R32, R35, R89, R90). -/

namespace Sys2Proof.Machine

/-- The oldest entry of a tile's queue leaves it. -/
def popped (t : Nat) (s : State) : State := s.onTile t fun x => { x with ftq := x.ftq.drop 1 }

/-- The entry that a finished bank is converted into (R31, R35, R86–R89). -/
def drainedEntry (k : Bank) (o : Op) (s : State) : FtqEntry :=
  let d := drainBlock o.cFmt (floatPath o.aFmt) o.anchor o.rnd o.outSat s.freeCtr k.cells
  { ident := o.ident k.row k.col (o.spans - 1), ctx := k.ctx, seq := k.seq, row := k.row, col := k.col, data := d.1,
    flags := k.flags ||| d.2, writing := false, written := false }

section
variable {t : Nat} {s : State} (hdeal : (s.tile t).deal = []) (hsaved : noSaved t s)
include hdeal hsaved

/-- With nothing dealt and nothing saved, an entry that frees lets the tile's own banks drain and nothing else. -/
theorem freeEntry_eq : freeEntry t s = refillQueue t (popped t s) ∧ TileStep t (popped t s) (refillQueue t (popped t s)) := by
  have hstep : TileStep t (popped t s) (refillQueue t (popped t s)) := refillQueue_step fun b rest o hb _ => by
    unfold popped at hb
    rw [State.onTile_same, hdeal] at hb
    cases hb
  exact ⟨placeDue_none (hstep.noSaved hsaved), hstep⟩

/-- An entry that frees where no bank waits: the queue's rest and the banks stay, and MXA_STATUS counts the queue. -/
theorem freeEntry_calm (hb : ∀ k ∈ (s.tile t).banks, k.done = false) :
    ((freeEntry t s).tile t).ftq = (s.tile t).ftq.drop 1 ∧ ((freeEntry t s).tile t).banks = (s.tile t).banks ∧
    (∀ j, j ≠ t → (freeEntry t s).tile j = s.tile j) ∧
    (freeEntry t s).rd (F.MXA_STATUS_FTQ_OCC t) = ((s.tile t).ftq.drop 1).length % 8 ∧
    freeEntry t s = { s with tiles := (freeEntry t s).tiles, regs := (freeEntry t s).regs } := by
  obtain ⟨he, hstep⟩ := freeEntry_eq hdeal hsaved
  have hpop : (popped t s).tile t = { s.tile t with ftq := (s.tile t).ftq.drop 1 } := State.onTile_same _ _ _
  obtain ⟨hbanks, hftq, hfree⟩ := hstep.calm (by rw [hpop]; exact hb)
  rw [hpop] at hbanks hftq
  rw [he]
  refine ⟨hftq, hbanks, fun j hj => (hstep.others j hj).trans (State.onTile_other _ _ _ hj), by rw [refillQueue_occ, hftq], ?_⟩
  rw [hstep.rest, hfree]
  rfl

/-- An entry that frees where one finished bank waits: the bank is converted into the entry that came free (R35, R86–R88). -/
theorem freeEntry_drains {k : Bank} {o : Op} (hk : (s.tile t).banks = [k]) (hd : k.done = true) (hl : ((s.tile t).ftq.drop 1).length < 4)
    (ho : s.op? k.ctx k.seq = some o) :
    ((freeEntry t s).tile t).ftq = (s.tile t).ftq.drop 1 ++ [drainedEntry k o s] ∧
    ((freeEntry t s).tile t).banks = [] ∧ (freeEntry t s).devMem = s.devMem := by
  obtain ⟨he, hstep⟩ := freeEntry_eq hdeal hsaved
  have hpop : (popped t s).tile t = { s.tile t with ftq := (s.tile t).ftq.drop 1 } := State.onTile_same _ _ _
  have hdrain : ∃ u : State, drainBanks t (popped t s) 8 = drainBanks t u 7 ∧ (u.tile t).banks = [] ∧
      (u.tile t).ftq = (s.tile t).ftq.drop 1 ++ [drainedEntry k o s] := by
    have hfind : ((popped t s).tile t).banks.find? (·.done) = some k := by simp [hpop, hk, hd]
    have hop : (popped t s).op? k.ctx k.seq = some o := ho
    rw [drainBanks]
    dsimp only
    rw [hfind]
    dsimp only
    rw [hop, if_neg (by rw [hpop]; simpa using hl)]
    refine ⟨_, rfl, ?_, ?_⟩
    all_goals
      rw [State.onTile_same]
      split
    · rw [State.drawnN_at_tile, hpop]; simp [hk]
    · rw [hpop]; simp [hk]
    · rw [State.drawnN_at_tile, hpop]; rfl
    · rw [hpop]; rfl
  obtain ⟨u, hu, hub, huf⟩ := hdrain
  have hcalm : ∀ j ∈ (u.tile t).banks, j.done = false := by rw [hub]; exact fun _ h => absurd h List.not_mem_nil
  have hdeal' : noLoad t u := fun b rest _ hb _ => by
    have h := (drainBanks_step t 8 (popped t s)).deal
    rw [hu, drainBanks_calm hcalm, hpop] at h
    rw [h, hdeal] at hb
    cases hb
  have heq : refillQueue t (popped t s) = stallSync t (syncTile t (resumed t u)) := by
    rw [refillQueue_eq, hu, drainBanks_calm hcalm, loadVector_none hdeal']
  obtain ⟨hbanks, hftq, -⟩ := (refilled_step t u).calm hcalm
  refine ⟨?_, ?_, ?_⟩
  · rw [he, heq, hftq, huf]
  · rw [he, heq, hbanks, hub]
  · rw [he, hstep.rest]; rfl

end

/-- FTQ_ENTRY_FREED with an oldest entry that has been written and no kernel running frees it. -/
theorem ftqEntryFreed_frees {t : Nat} {s : State} {e : FtqEntry} {rest : List FtqEntry} (hq : (s.tile t).ftq = e :: rest)
    (hw : e.written = true) (hg : e.writing = false) (hv : (s.tile t).vxe.run = false) : ftqEntryFreed t s = freeEntry t s := by
  unfold ftqEntryFreed
  rw [hq]
  simp [hw, hg, hv]

/-- BLOCK_WRITTEN of an operation without a kernel, on a tile that writes out, where the write succeeds. -/
theorem blockWritten_writes {t : Nat} {s u : State} {e : FtqEntry} {rest : List FtqEntry} {o : Op} (hq : (s.tile t).ftq = e :: rest)
    (ho : s.op? e.ctx e.seq = some o) (hk : o.hasKernel = false) (hsec : s.secondary t = false) (hm : memFree e.ctx s)
    (hu : writeRows e.ctx o e.row e.col (fmtBits o.cFmt)
      ((List.range (128 * 128 * fmtBits o.cFmt / 8)).map fun i => SMap.get memDefault e.data i) 128 0 s = (u, none)) :
    blockWritten t s = blockDone e.ctx e.seq e.row e.col e.flags (freeEntry t u) := by
  unfold blockWritten
  rw [hq]
  dsimp only
  rw [ho]
  dsimp only
  rw [if_neg (by simp [hk]), if_neg (by simp [hsec])]
  have hw : writeBlock t e.ctx o e.row e.col (fmtBits o.cFmt)
      ((List.range (128 * 128 * fmtBits o.cFmt / 8)).map fun i => SMap.get memDefault e.data i) s = (u, none) := by
    unfold writeBlock
    dsimp only
    rw [access_free (x := tilePayer e.ctx o.seq t 1) hm]
    exact hu
  rw [hw]

end Sys2Proof.Machine
end

section
/-! The statement about the finished-tile queue (chapter 02). -/

open Sys2Proof Sys2Proof.Machine

/-- Settles O18: an entry that frees lets only the tile's own banks drain, as nothing is dealt or saved; BLOCK_WRITTEN writes the rows, frees
the entry so, and the block counts. -/
theorem tileQueueDrains : Obligations.TileQueueDrains := by
  intro t s e rest x hq hdeal hsaved
  have hdrop : (s.tile t.val).ftq.drop 1 = rest := by rw [show (s.tile t.val).ftq = e :: rest from hq]; rfl
  refine ⟨fun hw hg hv => ⟨fun hb => ?_, fun k o hk hd hl ho => ?_⟩, fun o u ho hk hsec hm hb hu => ?_⟩
  · obtain ⟨hftq, hbanks, hothers, hocc, hrest⟩ := freeEntry_calm hdeal hsaved hb
    rw [hdrop] at hftq hocc
    refine ⟨freeEntry t.val s, ?_, hftq, hbanks, hothers, hocc, hrest⟩
    rw [exec_ftqEntryFreed, execFtqEntryFreed, ftqEntryFreed_frees hq hw hg hv]
    exact State.done_of_eq hrest rfl rfl
  · obtain ⟨hftq, hbanks, hmem⟩ := freeEntry_drains hdeal hsaved hk hd (by rw [hdrop]; omega) ho
    rw [hdrop] at hftq
    obtain ⟨he, hstep⟩ := freeEntry_eq hdeal hsaved
    refine ⟨freeEntry t.val s, drainedEntry k o s, ?_, hftq, hbanks, rfl, rfl, rfl, rfl, rfl, by simp only [drainedEntry],
      by simp only [drainedEntry], hmem⟩
    rw [exec_ftqEntryFreed, execFtqEntryFreed, ftqEntryFreed_frees hq hw hg hv, he]
    exact State.done_of_eq hstep.rest rfl rfl
  · have hframe : u = { s with devMem := u.devMem, ueMarks := u.ueMarks, chans := u.chans } := by
      have h := writeRows_frame (fun v : State => { v with devMem := s.devMem, ueMarks := s.ueMarks, chans := s.chans })
        (fun _ _ _ _ => rfl) e.ctx o e.row e.col (fmtBits o.cFmt)
        ((List.range (128 * 128 * fmtBits o.cFmt / 8)).map fun i => SMap.get memDefault e.data i) 128 0 s
      rw [hu] at h
      exact congrArg (fun v : State => { v with devMem := u.devMem, ueMarks := u.ueMarks, chans := u.chans }) h
    have htile : ∀ j, u.tile j = s.tile j := fun j => by rw [hframe]; rfl
    have hsaved' : noSaved t.val u := by rw [hframe]; exact hsaved
    have hop : u.op? e.ctx e.seq = some o := by rw [hframe]; exact ho
    obtain ⟨hftq, -, hothers, -, hrest⟩ := freeEntry_calm (s := u) (by rw [htile]; exact hdeal) hsaved' (by rw [htile]; exact hb)
    rw [htile, hdrop] at hftq
    obtain ⟨o', ho', hmem, hflags⟩ := blockDone_op (s := freeEntry t.val u) (by rw [hrest]; exact hop) e.row e.col e.flags
    have hback : ∀ {β : Type} (obs : State → β), (∀ s x, obs { s with ctxs := x } = obs s) →
        obs (blockDone e.ctx e.seq e.row e.col e.flags (freeEntry t.val u)) = obs (freeEntry t.val u) := fun obs h =>
      (workDone_frame obs h _ _ _).trans (h _ _)
    refine ⟨_, o', ?_, ?_, ?_, fun j hj => ?_, ho', hmem, hflags, ?_⟩
    · rw [exec_blockWritten, execBlockWritten, blockWritten_writes hq ho hk hsec hm hu]
      refine State.done_eq ?_ ?_
      · rw [hback State.pending fun _ _ => rfl, hrest, hframe]
      · rw [hback State.otp fun _ _ => rfl, hrest, hframe]
    · rw [hback State.devMem fun _ _ => rfl, hrest]
    · rw [hback (fun v => v.tile t.val) fun _ _ => rfl, hftq]
    · rw [hback (fun v => v.tile j) fun _ _ => rfl, hothers j hj, htile]
    · rw [hback State.outbox fun _ _ => rfl, hrest, hframe]

end

section
/-! SUPPORT. Operand blocks (R29, R34, R38): what a read depends on, what the scheduler's multicast leaves, and the blocks that a billet
finds. -/

namespace Sys2Proof.Machine

/-! ### What a read depends on -/

/-- Two states that a context's reads cannot tell apart: of memory, its marks, the channels and the stacks only the slices differ. -/
structure ReadsAlike (c : Nat) (s s' : State) : Prop where
  caches : cachesOnly s s'
  spread : (s'.ctx c).chans = (s.ctx c).chans ∧ (s'.ctx c).pitch = (s.ctx c).pitch
  status : ∀ k, s'.rd (F.MEM_STATUS_STATE k) = s.rd (F.MEM_STATUS_STATE k)
  mem : s'.devMem = s.devMem
  marks : s'.ueMarks = s.ueMarks

section
variable {c : Nat} {s s' : State} (h : ReadsAlike c s s')
include h

theorem ReadsAlike.readPieces (ps : List (Nat × Nat)) : s'.readPieces c ps = s.readPieces c ps := by
  have hloc : ∀ a, s'.locate c a = s.locate c a := fun a => by
    have hmapped : ∀ ch, (s'.chan ch).mapped = (s.chan ch).mapped := fun ch => by rw [h.caches ch]
    unfold State.locate State.physOff Chan.physFrame
    dsimp only
    rw [h.spread.1, h.spread.2, hmapped]
  have hgran : ∀ ch off n, s'.granRead ch off n = s.granRead ch off n := fun ch off n => by
    have hch := h.caches ch
    have hretired : (s'.chan ch).retired = (s.chan ch).retired := by rw [hch]
    have hframes : (s'.chan ch).retFrames = (s.chan ch).retFrames := by rw [hch]
    have hmapped : (s'.chan ch).mapped = (s.chan ch).mapped := by rw [hch]
    have hcopying : (s'.chan ch).copying = (s.chan ch).copying := by rw [hch]
    unfold State.granRead State.unserved State.rowHeld State.marked State.physRead
    rw [hretired, hframes, hmapped, hcopying, h.status, h.mem, h.marks]
  induction ps with
  | nil => rfl
  | cons p ps ih =>
    unfold State.readPieces
    simp only [hloc, hgran, ih]

theorem ReadsAlike.ctxRead (a n : Nat) : s'.ctxRead c a n = s.ctxRead c a n := h.readPieces _

theorem ReadsAlike.readRows (base pitch w r0 lim k0 len n : Nat) :
    readRows s' c base pitch w r0 lim k0 len n = readRows s c base pitch w r0 lim k0 len n := by
  induction n generalizing r0 with
  | zero => rfl
  | succ n ih =>
    unfold Machine.readRows
    simp only [h.ctxRead, ih]

theorem ReadsAlike.readScales (base pitch r0 lim j0 nb n : Nat) :
    readScales s' c base pitch r0 lim j0 nb n = readScales s c base pitch r0 lim j0 nb n := by
  induction n generalizing r0 with
  | zero => rfl
  | succ n ih =>
    unfold Machine.readScales
    simp only [h.ctxRead, ih]

end

theorem ReadsAlike.readOpnd {b : Billet} {s s' : State} (h : ReadsAlike b.ctx s s') (o : Op) (isB : Bool) :
    readOpnd s' o b isB = readOpnd s o b isB := by
  unfold Machine.readOpnd
  simp only [h.readRows, h.readScales]

/-! ### The slices that a read touches (R193) -/

/-- Only the slices have been touched: no row has begun to be copied. -/
structure Touched (s s' : State) : Prop where
  caches : cachesOnly s s'
  still : (∀ e ∈ s.chans, e.2.copying = []) → ∀ e ∈ s'.chans, e.2.copying = []
  rest : s' = { s with chans := s'.chans }

theorem Touched.refl (s : State) : Touched s s := ⟨fun _ => rfl, fun h => h, rfl⟩

theorem cachesOnly.trans {a b c : State} (h : cachesOnly a b) (h' : cachesOnly b c) : cachesOnly a c := fun ch => by rw [h' ch, h ch]

theorem Touched.trans {a b c : State} (h : Touched a b) (h' : Touched b c) : Touched a c :=
  ⟨h.caches.trans h'.caches, fun hs => h'.still (h.still hs), by rw [h'.rest, h.rest]⟩

/-- The entries of a map behind a write: the one written, and entries that it held. -/
theorem SMap.mem_put {α : Type} [DecidableEq α] {d : Nat → α} {m : SMap α} {k : Nat} {v : α} {e : Nat × α} (h : e ∈ SMap.put d m k v) :
    e = (k, v) ∨ e ∈ m := by
  unfold SMap.put at h
  split at h
  · exact .inr (List.mem_filter.1 h).1
  · exact SMap.mem_ins k v m h

/-- A value that a map reads is its default or stands in an entry. -/
theorem SMap.get_mem {α : Type} (d : Nat → α) (m : SMap α) (k : Nat) : SMap.get d m k = d k ∨ (k, SMap.get d m k) ∈ m := by
  induction m with
  | nil => exact .inl rfl
  | cons e m ih =>
    rw [SMap.get_cons]
    split
    · rename_i he
      exact .inr (by rw [he]; exact List.mem_cons_self)
    · exact ih.imp_right (List.mem_cons_of_mem e)

theorem cacheTouch_touched (ch off : Nat) (w : Bool) (s : State) : Touched s (s.cacheTouch ch off w) where
  caches j := by
    unfold State.cacheTouch
    by_cases hj : j = ch
    · subst hj; rw [State.onChan_same]
    · rw [State.onChan_other _ _ _ hj]
  still hs e he := by
    unfold State.cacheTouch State.onChan at he
    dsimp only at he
    rcases SMap.mem_put he with rfl | he
    · rcases SMap.get_mem (fun _ => Chan.init) s.chans ch with h | h
      · exact (congrArg Chan.copying h).trans rfl
      · have hch := hs _ h
        exact hch
    · exact hs e he
  rest := rfl

theorem ctxTouch_touched (c a n : Nat) (s : State) : Touched s (s.ctxTouch c a n) := by
  unfold State.ctxTouch
  generalize pieces a n = ps
  induction ps generalizing s with
  | nil => exact .refl s
  | cons p ps ih => exact (cacheTouch_touched _ _ _ s).trans (ih _)

theorem reads_touched (c : Nat) (rd : List (Nat × Nat)) (s : State) : Touched s (each rd (fun r s => s.ctxTouch c r.1 r.2) s) :=
  each_rel_mem Touched Touched.refl (fun _ _ _ => Touched.trans) (fun _ _ s => ctxTouch_touched _ _ _ s) s

theorem Touched.alike {s s' : State} (h : Touched s s') (c : Nat) : ReadsAlike c s s' := by
  refine ⟨h.caches, ?_, fun k => ?_, ?_, ?_⟩
  · rw [h.rest]; exact ⟨rfl, rfl⟩
  · rw [h.rest]; rfl
  · rw [h.rest]
  · rw [h.rest]

theorem Touched.free {s s' : State} (h : Touched s s') {c : Nat} (hm : memFree c s) : memFree c s' := by
  obtain ⟨hrate, hnoc, hcopy⟩ := hm
  refine ⟨fun k hk => ?_, ?_, h.still hcopy⟩
  · rw [h.rest]; exact hrate k hk
  · rw [h.rest]; exact hnoc

/-! ### The tiles of a partition -/

theorem groupsOf_nodup (s : State) (p : Nat) : (s.groupsOf p).Nodup := List.nodup_range.filter _

/-- A partition names each of its tiles once. -/
theorem tilesOf_nodup (s : State) (p : Nat) : (s.tilesOf p).Nodup := by
  unfold State.tilesOf
  refine List.nodup_flatMap.2 ⟨fun g _ => List.nodup_range.map fun i j h => by simpa using h, ?_⟩
  refine (groupsOf_nodup s p).imp fun {g g'} hne => ?_
  simp only [Function.onFun, List.disjoint_left, List.mem_map, List.mem_range]
  rintro x ⟨i, hi, rfl⟩ ⟨j, hj, h⟩
  omega

/-- A change of each tile of a list that names none twice. -/
theorem each_onTile_tile {l : List Nat} (hl : l.Nodup) (f : Nat → Tile → Tile) (s : State) (j : Nat) :
    (each l (fun t s => s.onTile t (f t)) s).tile j = if j ∈ l then f j (s.tile j) else s.tile j := by
  unfold each
  induction l generalizing s with
  | nil => simp
  | cons t l ih =>
    obtain ⟨ht, hl⟩ := List.nodup_cons.1 hl
    rw [List.foldl_cons, ih hl]
    by_cases hj : j = t
    · subst hj; simp [ht]
    · simp [hj, State.onTile_other _ _ _ hj]

/-- A change of tiles leaves everything else. -/
theorem each_onTile_rest (l : List Nat) (f : Nat → Tile → Tile) (s : State) :
    each l (fun t s => s.onTile t (f t)) s = { s with tiles := (each l (fun t s => s.onTile t (f t)) s).tiles } :=
  each_rel_mem (fun s s' => s' = { s with tiles := s'.tiles }) (fun _ => rfl) (fun a b c h h' => by rw [h', h]) (fun _ _ _ => rfl) s

/-- The multicast of an operand block lands on the tiles of the partition that use it, and changes nothing else (R38). -/
theorem landOpnd_tile (p : Nat) (y : Opnd) (s : State) (j : Nat) : (landOpnd p y s).tile j =
    if j ∈ (s.tilesOf p).filter fun t => (s.tile t).deal.any fun b => y.serves b y.isB then
      { s.tile j with opnds := (s.tile j).opnds ++ [y] } else s.tile j :=
  each_onTile_tile ((tilesOf_nodup s p).filter _) (fun _ x => { x with opnds := x.opnds ++ [y] }) s j

/-! ### The blocks that a billet finds -/

/-- A block that has been read serves its billet, as the operand that it is. -/
theorem readOpnd_serves {s : State} {o : Op} {b : Billet} {isB : Bool} {y : Opnd} (h : readOpnd s o b isB = .ok y) :
    y.serves b isB = true ∧ y.isB = isB := by
  have hy : y.ctx = b.ctx ∧ y.seq = b.seq ∧ y.wave = b.wave ∧ y.span = b.span ∧ y.isB = isB ∧
      y.idx = if isB then b.col else b.row := by
    unfold readOpnd at h
    dsimp only at h
    split at h
    · cases h
    · split at h
      · split at h
        · cases h
        · cases h; exact ⟨rfl, rfl, rfl, rfl, rfl, rfl⟩
      · cases h; exact ⟨rfl, rfl, rfl, rfl, rfl, rfl⟩
  obtain ⟨h1, h2, h3, h4, h5, h6⟩ := hy
  exact ⟨by simp [Opnd.serves, h1, h2, h3, h4, h5, h6], h5⟩

/-- A block does not serve as the other operand. -/
theorem serves_other {y : Opnd} {b : Billet} {isB : Bool} (h : y.isB ≠ isB) : y.serves b isB = false := by
  unfold Opnd.serves
  simp [h]

/-- What the fetch of a billet's operand blocks changes: the slices, and the blocks that tiles hold, to which some are added. -/
structure Fetched (s s' : State) : Prop where
  caches : cachesOnly s s'
  still : (∀ e ∈ s.chans, e.2.copying = []) → ∀ e ∈ s'.chans, e.2.copying = []
  tiles : ∀ j, ∃ l, s'.tile j = { s.tile j with opnds := (s.tile j).opnds ++ l }
  rest : s' = { s with tiles := s'.tiles, chans := s'.chans }

theorem Fetched.refl (s : State) : Fetched s s := ⟨fun _ => rfl, fun h => h, fun _ => ⟨[], by simp⟩, rfl⟩

theorem Fetched.trans {a b c : State} (h : Fetched a b) (h' : Fetched b c) : Fetched a c where
  caches := h.caches.trans h'.caches
  still hs := h'.still (h.still hs)
  tiles j := by
    obtain ⟨l, hl⟩ := h.tiles j
    obtain ⟨l', hl'⟩ := h'.tiles j
    exact ⟨l ++ l', by rw [hl', hl]; simp⟩
  rest := by rw [h'.rest, h.rest]

/-- A block that a tile holds stays the one that it finds. -/
theorem Fetched.found {s s' : State} (h : Fetched s s') {j : Nat} {b : Billet} {isB : Bool} {y : Opnd}
    (hy : (s.tile j).opnd? b isB = some y) : (s'.tile j).opnd? b isB = some y := by
  obtain ⟨l, hl⟩ := h.tiles j
  unfold Tile.opnd? at *
  rw [hl, List.find?_append, hy]
  rfl

theorem Fetched.alike {s s' : State} (h : Fetched s s') (c : Nat) : ReadsAlike c s s' := by
  refine ⟨h.caches, ?_, fun k => ?_, ?_, ?_⟩
  · rw [h.rest]; exact ⟨rfl, rfl⟩
  · rw [h.rest]; rfl
  · rw [h.rest]
  · rw [h.rest]

theorem Fetched.free {s s' : State} (h : Fetched s s') {c : Nat} (hm : memFree c s) : memFree c s' := by
  obtain ⟨hrate, hnoc, hcopy⟩ := hm
  refine ⟨fun k hk => ?_, ?_, h.still hcopy⟩
  · rw [h.rest]; exact hrate k hk
  · rw [h.rest]; exact hnoc

/-- One operand block of a billet at the head of a deal list, which the tile holds or which is read now (R38): it is found, the tile holds
it afterwards where it lies in the partition, and the other operand is as before. -/
theorem fetchOpnd_finds {t : Nat} {o : Op} {b : Billet} {isB : Bool} {y : Opnd} {s : State} (hm : memFree b.ctx s)
    (hy : operandOf t o b isB y s) (hb : b ∈ (s.tile t).deal) :
    ∃ s', fetchOpnd t o b isB s = (s', .ok y) ∧ Fetched s s' ∧
      (t ∈ s.tilesOf (s.partOf b.ctx) → (s'.tile t).opnd? b isB = some y) ∧
      (s'.tile t).opnd? b (!isB) = (s.tile t).opnd? b (!isB) := by
  unfold fetchOpnd
  rcases hy with hy | ⟨hn, hr⟩
  · rw [hy]
    exact ⟨s, rfl, .refl s, fun _ => hy, rfl⟩
  · rw [hn]
    dsimp only
    rw [access_free (x := s.schedPayer b.ctx b.seq (16 + 256 * t + b2n isB)) hm]
    generalize hu : each _ _ s = u
    have htouch : Touched s u := hu ▸ reads_touched _ _ s
    dsimp only
    rw [(htouch.alike b.ctx).readOpnd, hr]
    obtain ⟨hserves, hside⟩ := readOpnd_serves hr
    have htile : ∀ j, u.tile j = s.tile j := fun j => by rw [htouch.rest]; rfl
    have hpart : u.tilesOf (u.partOf b.ctx) = s.tilesOf (s.partOf b.ctx) := by rw [htouch.rest]; rfl
    have hland := landOpnd_tile (u.partOf b.ctx) y u
    have hrest : landOpnd (u.partOf b.ctx) y u = { u with tiles := (landOpnd (u.partOf b.ctx) y u).tiles } :=
      each_onTile_rest _ (fun _ x => { x with opnds := x.opnds ++ [y] }) u
    refine ⟨_, rfl, ⟨?_, ?_, fun j => ?_, ?_⟩, fun ht => ?_, ?_⟩
    · intro ch; rw [hrest]; exact htouch.caches ch
    · intro hs; rw [hrest]; exact htouch.still hs
    · rw [hland, htile]
      split
      · exact ⟨[y], rfl⟩
      · exact ⟨[], by simp⟩
    · rw [hrest, htouch.rest]
    · rw [hland, if_pos (List.mem_filter.2 ⟨hpart ▸ ht, ?_⟩), htile]
      · unfold Tile.opnd? at *
        rw [List.find?_append, hn]
        simp [hserves]
      · rw [htile]
        exact List.any_eq_true.2 ⟨b, hb, hside ▸ hserves⟩
    · rw [hland, htile]
      split
      · unfold Tile.opnd?
        rw [List.find?_append, List.find?_singleton, if_neg (by rw [serves_other (by rw [hside]; cases isB <;> decide)]; decide), Option.or_none]
      · rfl

/-- Both operand blocks of a billet at the head of a deal list. -/
theorem fetchOpnds_finds {t : Nat} {o : Op} {b : Billet} {a y : Opnd} {s : State} (hm : memFree b.ctx s)
    (ha : operandOf t o b false a s) (hy : operandOf t o b true y s) (hb : b ∈ (s.tile t).deal) :
    ∃ s', fetchOpnds t o b s = (s', .ok (a, y)) ∧ Fetched s s' ∧
      (t ∈ s.tilesOf (s.partOf b.ctx) → (s'.tile t).opnd? b false = some a ∧ (s'.tile t).opnd? b true = some y) := by
  obtain ⟨u, hu, hfu, hau, hother⟩ := fetchOpnd_finds hm ha hb
  have hy' : operandOf t o b true y u := by
    unfold operandOf at *
    rw [show (u.tile t).opnd? b true = (s.tile t).opnd? b true from hother, (hfu.alike b.ctx).readOpnd]
    exact hy
  have hb' : b ∈ (u.tile t).deal := by
    obtain ⟨l, hl⟩ := hfu.tiles t
    rw [hl]; exact hb
  obtain ⟨v, hv, hfv, hyv, -⟩ := fetchOpnd_finds (hfu.free hm) hy' hb'
  refine ⟨v, ?_, hfu.trans hfv, fun ht => ⟨hfv.found (hau ht), hyv ?_⟩⟩
  · unfold fetchOpnds
    rw [hu]
    dsimp only
    rw [hv]
  · rw [hfu.rest]; exact ht

/-! ### A billet that has drained -/

/-- What stands behind the operands of a head billet that have come (R38, R61): the slices, the operand blocks that tiles hold, and the
tile's count of waiting for operands. -/
structure BilletReady (t : Nat) (s s' : State) : Prop where
  tile : s'.tile t = { s.tile t with opnds := (s'.tile t).opnds, opndAt := none, opndRem := (s'.tile t).opndRem }
  others : ∀ j, j ≠ t → s'.tile j = { s.tile j with opnds := (s'.tile j).opnds }
  regs : ∀ k, k ≠ R.MXA_STALL t → s'.reg k = s.reg k
  caches : cachesOnly s s'
  rest : s' = { s with tiles := s'.tiles, regs := s'.regs, chans := s'.chans }

/-- A wait for operands that has ended. -/
theorem operandWait_over (t : Nat) (s : State) :
    (operandWait t false s).tile t = { s.tile t with opndAt := none, opndRem := ((operandWait t false s).tile t).opndRem } ∧
    (∀ j, j ≠ t → (operandWait t false s).tile j = s.tile j) ∧
    (∀ k, k ≠ R.MXA_STALL t → (operandWait t false s).reg k = s.reg k) ∧
    operandWait t false s = { s with tiles := (operandWait t false s).tiles, regs := (operandWait t false s).regs } := by
  unfold operandWait
  simp only [Bool.false_eq_true, if_false]
  split
  · rename_i h
    exact ⟨by rw [← h], fun _ _ => rfl, fun _ _ => rfl, rfl⟩
  · refine ⟨?_, fun j hj => State.onTile_other _ _ _ hj, fun k hk => reg_wr_other s _ _ hk, rfl⟩
    rw [State.onTile_same]
    rfl

theorem Fetched.ready {s u : State} (h : Fetched s u) (t : Nat) : BilletReady t s (operandWait t false u) := by
  obtain ⟨htile, hothers, hregs, hrest⟩ := operandWait_over t u
  refine ⟨?_, fun j hj => ?_, fun k hk => (hregs k hk).trans (by rw [h.rest]; rfl), fun ch => ?_, by rw [hrest, h.rest]⟩
  · obtain ⟨l, hl⟩ := h.tiles t
    rw [htile, hl]
  · obtain ⟨l, hl⟩ := h.tiles j
    rw [hothers j hj, hl]
  · rw [hrest]; exact h.caches ch

/-- What a billet drains depends on the state only through the context's tables. -/
theorem runBillet_congr {s s' : State} {b : Billet} (h : s'.ctx b.ctx = s.ctx b.ctx) (o : Op) (x y : Opnd) (fx : List CellFx) :
    runBillet s' o b x y fx = runBillet s o b x y fx := by
  unfold runBillet
  rw [h]

/-- The head billet of a tile in no pair ends with operand blocks that are held or can be read: its check follows (R42). -/
theorem billetEnd_checked {t : Nat} {fx : List CellFx} {s : State} {b : Billet} {rest : List Billet} {o : Op} {a y : Opnd}
    (hd : (s.tile t).deal = b :: rest) (ho : s.op? b.ctx b.seq = some o) (hk : o.kind = 1) (he : (s.tile t).ended = false)
    (hs : s.tileServes t = true) (hon : s.tilesOn = true) (hp : s.on (F.MXA_CFG_PAIR_EN t) = false) (hm : memFree b.ctx s)
    (ha : operandOf t o b false a s) (hy : operandOf t o b true y s) :
    ∃ s', billetEnd t fx s = billetChecked t o b (runBillet s o b a y fx) s' ∧ BilletReady t s s' ∧
      (t ∈ s.tilesOf (s.partOf b.ctx) → (s'.tile t).opnd? b false = some a ∧ (s'.tile t).opnd? b true = some y) := by
  obtain ⟨u, hu, hf, hfound⟩ := fetchOpnds_finds hm ha hy (by rw [hd]; exact List.mem_cons_self)
  have hc : s.computes t = true := by
    unfold State.computes State.paired
    simp [he, hs, hon, hp]
  refine ⟨operandWait t false u, ?_, hf.ready t, fun ht => ?_⟩
  · unfold billetEnd
    rw [hd]
    dsimp only
    rw [ho]
    dsimp only
    rw [if_neg (by simp [hk, hc]), hu]
    dsimp only
    rw [runBillet_congr (s := s) (by rw [hf.rest]; rfl)]
  · obtain ⟨htile, -⟩ := operandWait_over t u
    unfold Tile.opnd? at *
    rw [htile]
    exact hfound ht

end Sys2Proof.Machine
end

section
/-! SUPPORT. The arrival of a partial of another tile (R39). -/

namespace Sys2Proof.Machine

/-- The bank of a block that is not done, behind a partial that joins it (R32, R39, R83). -/
def joined (float : Bool) (p k : Bank) : Bank :=
  { k with cells := (joinBanks float k.cells p.cells).1, flags := k.flags ||| p.flags ||| (joinBanks float k.cells p.cells).2,
           await := k.await - 1 }

/-- The tile behind a partial that has joined its bank. -/
def partialJoined (t : Nat) (float : Bool) (p : Bank) (s : State) : State :=
  settle t p.ctx p.seq p.row p.col false (arrived t p (joinPartial t float p s))

/-- Only banks change where a partial joins. -/
theorem partialJoined_tile (t : Nat) (float : Bool) (p : Bank) (s : State) :
    (partialJoined t float p s).tile t = { s.tile t with banks := ((partialJoined t float p s).tile t).banks } := by
  unfold partialJoined settle arrived joinPartial
  simp only [State.onTile_same]

theorem partialJoined_others {t j : Nat} (hj : j ≠ t) (float : Bool) (p : Bank) (s : State) :
    (partialJoined t float p s).tile j = s.tile j := by
  unfold partialJoined settle arrived joinPartial
  simp only [State.onTile_other _ _ _ hj]

theorem partialJoined_rest (t : Nat) (float : Bool) (p : Bank) (s : State) :
    partialJoined t float p s = { s with tiles := (partialJoined t float p s).tiles } := rfl

/-- A bank that is not done and still awaits a further partial takes this one and stays (R32). -/
theorem joined_mem {t : Nat} {p k : Bank} {s : State} (hk : k ∈ (s.tile t).banks) (hfor : k.isFor p.ctx p.seq p.row p.col = true)
    (hd : k.done = false) (ha : 1 < k.await) (float : Bool) : joined float p k ∈ ((partialJoined t float p s).tile t).banks := by
  unfold partialJoined settle arrived joinPartial
  simp only [State.onTile_same, List.map_map]
  refine List.mem_map.2 ⟨k, hk, ?_⟩
  have hawait : (k.await - 1 = 0) = False := by simp only [eq_iff_iff, iff_false]; omega
  simp only [Bank.isFor, Bool.and_eq_true, decide_eq_true_eq] at hfor
  obtain ⟨⟨⟨hc, hq⟩, hr⟩, hl⟩ := hfor
  simp [joined, Bank.isFor, hc, hq, hr, hl, hd, hawait]

/-- A partial whose bank the home tile does not hold yet waits there (R32). -/
theorem partialArrival_waits {t src : Nat} {p : Bank} {o : Op} {s : State} (hp : (s.tile src).sent.find? (fun p => p.home = t) = some p)
    (ho : s.op? p.ctx p.seq = some o) (hdone : o.done = none) (ht : s.deals t = true)
    (hn : ((s.tile t).banks.any fun k => k.isFor p.ctx p.seq p.row p.col) = false) :
    partialArrival t src s = (s.onTile src fun x => { x with sent := x.sent.erase p }).onTile t fun x => { x with early := x.early ++ [p] } := by
  unfold partialArrival
  rw [hp]
  dsimp only
  rw [ho]
  simp only [hdone, ht, hn, Option.isSome_none, Bool.not_true, Bool.false_eq_true, if_false]

/-- A partial whose bank the home tile holds joins it, and the tile's queue is refilled (R32, R35). -/
theorem partialArrival_joins {t src : Nat} {p : Bank} {o : Op} {s : State} (hp : (s.tile src).sent.find? (fun p => p.home = t) = some p)
    (ho : s.op? p.ctx p.seq = some o) (hdone : o.done = none) (ht : s.deals t = true)
    (hn : ((s.tile t).banks.any fun k => k.isFor p.ctx p.seq p.row p.col) = true) :
    partialArrival t src s = placeDue t (refillQueue t (partialJoined t (floatPath o.aFmt) p
      (s.onTile src fun x => { x with sent := x.sent.erase p }))) := by
  unfold partialArrival
  rw [hp]
  dsimp only
  rw [ho]
  simp only [hdone, ht, hn, Option.isSome_none, Bool.not_true, Bool.false_eq_true, if_false, if_true]
  rfl

/-- What is saved does not lie on the tiles. -/
theorem noSaved_tiles {t : Nat} {s s' : State} (h : s' = { s with tiles := s'.tiles }) (hs : noSaved t s) : noSaved t s' := by
  rw [h]
  exact hs

/-- A refill of a tile that is dealt nothing, where nothing saved waits for room. -/
theorem placeDue_refill {t : Nat} {s : State} (hdeal : (s.tile t).deal = []) (hsaved : noSaved t s) :
    TileStep t s (placeDue t (refillQueue t s)) := by
  have hstep : TileStep t s (refillQueue t s) := refillQueue_step fun b rest _ hb _ => by rw [hdeal] at hb; cases hb
  rw [placeDue_none (hstep.noSaved hsaved)]
  exact hstep

/-- SPLIT_K_PARTIAL_ARRIVAL with nothing dealt to the home tile and nothing saved: the bank stays undone and awaits one partial less. -/
theorem partialArrival_joined {t src : Nat} {p k : Bank} {o : Op} {s : State} (hsrc : src ≠ t)
    (hp : (s.tile src).sent.find? (fun p => p.home = t) = some p) (ho : s.op? p.ctx p.seq = some o) (hdone : o.done = none)
    (ht : s.deals t = true) (hdeal : (s.tile t).deal = []) (hk : k ∈ (s.tile t).banks)
    (hfor : k.isFor p.ctx p.seq p.row p.col = true) (hd : k.done = false) (ha : 1 < k.await) (hsaved : noSaved t s) :
    joined (floatPath o.aFmt) p k ∈ ((partialArrival t src s).tile t).banks ∧
    ((partialArrival t src s).tile src).sent = (s.tile src).sent.erase p ∧
    partialArrival t src s =
      { s with tiles := (partialArrival t src s).tiles, regs := (partialArrival t src s).regs, freeCtr := (partialArrival t src s).freeCtr } := by
  rw [partialArrival_joins hp ho hdone ht (List.any_eq_true.2 ⟨k, hk, hfor⟩)]
  have htaken : (s.onTile src fun x => { x with sent := x.sent.erase p }).tile t = s.tile t := State.onTile_other _ _ _ hsrc.symm
  have hmem := joined_mem (s := s.onTile src fun x => { x with sent := x.sent.erase p }) (htaken ▸ hk) hfor hd ha (floatPath o.aFmt)
  have htile := partialJoined_tile t (floatPath o.aFmt) p (s.onTile src fun x => { x with sent := x.sent.erase p })
  have hother := partialJoined_others hsrc (floatPath o.aFmt) p (s.onTile src fun x => { x with sent := x.sent.erase p })
  have hrest := partialJoined_rest t (floatPath o.aFmt) p (s.onTile src fun x => { x with sent := x.sent.erase p })
  generalize partialJoined t (floatPath o.aFmt) p (s.onTile src fun x => { x with sent := x.sent.erase p }) = v at *
  have hv : v = { s with tiles := v.tiles } := hrest
  have hstep : TileStep t v (placeDue t (refillQueue t v)) :=
    placeDue_refill (by rw [htile, htaken]; exact hdeal) (noSaved_tiles hv hsaved)
  refine ⟨hstep.undone _ hmem hd, ?_, ?_⟩
  · rw [hstep.others _ hsrc, hother, State.onTile_same]
  · rw [hstep.rest, hv]

end Sys2Proof.Machine
end

section
/-! SUPPORT. The report of a fault of class CORRECTED (R461, R463), and a billet whose check fails (R42, R43, R59). -/

namespace Sys2Proof.Machine

/-! ### Changes of registers alone -/

/-- Only registers have changed. -/
def regsOnly (s s' : State) : Prop := s' = { s with regs := s'.regs }

theorem regsOnly.trans {a b c : State} (h : regsOnly a b) (h' : regsOnly b c) : regsOnly a c := by
  unfold regsOnly at *
  rw [h', h]

theorem regsOnly_wr (s : State) (f : Fld) (v : Nat) : regsOnly s (s.wr f v) := rfl

/-- A write of a field behind a change of registers. -/
theorem regsOnly.wr {s s' : State} (h : regsOnly s s') (f : Fld) (v : Nat) : regsOnly s (s'.wr f v) := h.trans (regsOnly_wr s' f v)

/-- Of the registers nothing but the registers depends on them. -/
theorem regsOnly.obs {s s' : State} (h : regsOnly s s') {β : Sort _} {obs : State → β} (ho : ∀ v x, obs { v with regs := x } = obs v) :
    obs s' = obs s := by
  rw [h]
  exact ho _ _

/-! ### Faults of class CORRECTED -/

/-- What the report of a fault leaves that is only recorded: its record, TLS_LAST and TLS_COUNT (R461, R470, R471). -/
structure OnlyRecorded (code source : Nat) (detail : List Byte) (s s' : State) : Prop where
  log : logged code source detail s s'
  regs : ∀ k, k ≠ R.TLS_LAST → k ≠ R.TLS_COUNT → isLog k = false → s'.reg k = s.reg k
  rest : s' = { s with regs := s'.regs, bb := s'.bb, tls := s'.tls }

/-- A record stands behind those that wait, where the life-cycle state lets it and the queue has room (R452, R471). -/
theorem bbRecord_logged (code source role cls : Nat) (c : Option Nat) (detail : List Byte) (s : State) :
    logged code source detail s (bbRecord code source role cls c detail s) := by
  intro hal hlen
  unfold bbRecord
  dsimp only
  generalize (if cls = 0xFF then 7 else cls) = j
  have hlc : (evtEntry code source (s.rd F.BBX_COUNT_SEQ_NEXT) j c s).lc = s.lc := lc_congr (evtEntry_reg (by decide) _ _ _ _ _ _)
  rw [hlc, if_pos hal]
  exact ⟨_, rfl, rfl, rfl, by rw [bbEnqueue_queue _ (by rw [evtEntry_bb]; exact hlen), evtEntry_bb]⟩

/-- TLS_LAST and TLS_COUNT behind a fault of class CORRECTED (R461). -/
def countCorrected (code source : Nat) (c : Option Nat) (s : State) : State :=
  (((((((s.wr F.TLS_LAST_CODE code).wr F.TLS_LAST_SOURCE source).wr F.TLS_LAST_CLASS 0).wr F.TLS_LAST_CTX (c.getD 0)).wr
    F.TLS_LAST_CTX_VALID (b2n c.isSome)).wr F.TLS_LAST_VALID 1)).satInc F.TLS_COUNT_CORRECTED 1

/-- A fault of class CORRECTED is recorded and counted, and raises no vector (R364, R461). -/
theorem recordFault_zero (code source : Nat) (c : Option Nat) (detail : List Byte) (s : State) :
    recordFault code source 0 c detail s = countCorrected code source c (bbRecord code source 0 0 c detail s) := rfl

theorem countCorrected_regsOnly (code source : Nat) (c : Option Nat) (s : State) : regsOnly s (countCorrected code source c s) :=
  ((((((regsOnly_wr s _ _).wr _ _).wr _ _).wr _ _).wr _ _).wr _ _).wr _ _

theorem countCorrected_reg {k : Nat} (hl : k ≠ R.TLS_LAST) (hc : k ≠ R.TLS_COUNT) (code source : Nat) (c : Option Nat) (s : State) :
    (countCorrected code source c s).reg k = s.reg k := by
  have hlast : ∀ (v : State) hi lo n, (v.wr ⟨R.TLS_LAST, hi, lo⟩ n).reg k = v.reg k := fun v hi lo n => reg_wr_other v _ n hl
  exact (reg_wr_other _ F.TLS_COUNT_CORRECTED _ hc).trans ((hlast _ _ _ _).trans ((hlast _ _ _ _).trans ((hlast _ _ _ _).trans
    ((hlast _ _ _ _).trans ((hlast _ _ _ _).trans (hlast _ _ _ _))))))

/-- Two states that agree but for registers, the black box and the trace window. -/
theorem rest_of_masked {s v : State} (h : ({ v with regs := s.regs, bb := s.bb, tls := s.tls } : State) = s) :
    v = { s with regs := v.regs, bb := v.bb, tls := v.tls } :=
  congrArg (fun w : State => { w with regs := v.regs, bb := v.bb, tls := v.tls }) h

theorem recordFault_corrected (code source : Nat) (c : Option Nat) (detail : List Byte) (s : State) :
    OnlyRecorded code source detail s (recordFault code source 0 c detail s) := by
  rw [recordFault_zero]
  have hlog := bbRecord_logged code source 0 0 c detail s
  have hreg : ∀ k, isLog k = false → (bbRecord code source 0 0 c detail s).reg k = s.reg k := fun k hk => bbRecord_reg hk _ _ _ _ _ _ s
  have hframe := bbRecord_frame (fun v : State => { v with regs := s.regs, bb := s.bb, tls := s.tls }) (fun _ _ => rfl) (fun _ _ => rfl)
    (fun _ _ => rfl) code source 0 0 c detail s
  have hregs := countCorrected_regsOnly code source c (bbRecord code source 0 0 c detail s)
  refine ⟨fun hal hlen => ?_, fun k hl hc hk => (countCorrected_reg hl hc _ _ _ _).trans (hreg k hk), rest_of_masked ?_⟩
  · have hbb : (countCorrected code source c (bbRecord code source 0 0 c detail s)).bb = (bbRecord code source 0 0 c detail s).bb :=
      hregs.obs fun _ _ => rfl
    rw [hbb]
    exact hlog hal hlen
  · exact (hregs.obs (obs := fun w : State => { w with regs := s.regs, bb := s.bb, tls := s.tls }) fun _ _ => rfl).trans hframe

/-- A fault that the policy table gives the class CORRECTED is only recorded (R461). -/
theorem reportFault_corrected {code : Nat} {s : State} (h : s.classOf code = 0) (source : Nat) (ctxs : List Nat) (part : Option Nat)
    (res addr : Nat) (extra : List Byte) :
    OnlyRecorded code source (faultDetail ctxs.head? res addr extra) s (reportFault code source ctxs part res addr extra s) := by
  have hcls : s.carried code ctxs part = 0 := by
    unfold State.carried
    simp [h]
  have hrep : reportFault code source ctxs part res addr extra s =
      recordFault code source 0 ctxs.head? (faultDetail ctxs.head? res addr extra) s := by
    unfold reportFault
    simp [hcls]
  rw [hrep]
  exact recordFault_corrected _ _ _ _ _

/-- The class of a code depends on the policy table alone (R462). -/
theorem classOf_congr {s s' : State} (h : ∀ i, i < 256 → s'.reg (R.TLS_POLICY i) = s.reg (R.TLS_POLICY i)) (code : Nat) :
    s'.classOf code = s.classOf code := by
  have hcode : ∀ i, i < 256 → s'.rd (F.TLS_POLICY_CODE i) = s.rd (F.TLS_POLICY_CODE i) := fun i hi => rd_of_reg (h i hi)
  have hfind : ((List.range 256).find? fun i => decide (s'.rd (F.TLS_POLICY_CODE i) = code)) =
      (List.range 256).find? fun i => decide (s.rd (F.TLS_POLICY_CODE i) = code) :=
    List.find?_congr fun i hi => by rw [hcode i (List.mem_range.1 hi)]
  unfold State.classOf
  rw [hfind]
  cases hf : (List.range 256).find? fun i => decide (s.rd (F.TLS_POLICY_CODE i) = code) with
  | none => rfl
  | some i => exact rd_of_reg (h i (List.mem_range.1 (List.mem_of_find?_eq_some hf)))

/-! ### What the witness saw -/

/-- A write of one field of a tile's witness status. -/
theorem rd_witness_beside {t hi lo hi' lo' : Nat} (s : State) (v : Nat) (h : (lo ≤ hi ∧ hi < 64) ∧ (lo' ≤ hi' ∧ hi' < 64) ∧ (hi < lo' ∨ hi' < lo)) :
    (s.wr ⟨R.MXA_WIT_STATUS t, hi, lo⟩ v).rd ⟨R.MXA_WIT_STATUS t, hi', lo'⟩ = s.rd ⟨R.MXA_WIT_STATUS t, hi', lo'⟩ := rd_wr_beside s h v

/-- A mismatch changes MXA_WIT_STATUS of its tile alone (R59). -/
theorem witnessSeen_reg {t k : Nat} (h : k ≠ R.MXA_WIT_STATUS t) (d : Drained) (float : Bool) (s : State) :
    (witnessSeen t d float s).reg k = s.reg k := by
  have hw : ∀ (v : State) hi lo n, (v.wr ⟨R.MXA_WIT_STATUS t, hi, lo⟩ n).reg k = v.reg k := fun v hi lo n => reg_wr_other v _ n h
  exact (hw _ _ _ _).trans ((hw _ _ _ _).trans ((hw _ _ _ _).trans ((hw _ _ _ _).trans (hw _ _ _ _))))

/-- The fields of MXA_WIT_STATUS behind a mismatch (R59). -/
theorem witnessSeen_rd (t : Nat) (d : Drained) (float : Bool) (s : State) :
    (witnessSeen t d float s).rd (F.MXA_WIT_STATUS_LAST_ROW t) = d.badRows.headD 0 % 128 ∧
    (witnessSeen t d float s).rd (F.MXA_WIT_STATUS_LAST_COL t) = d.badCols.headD 0 % 128 ∧
    (witnessSeen t d float s).rd (F.MXA_WIT_STATUS_ROW_MULTI t) = b2n (decide (1 < d.badRows.length)) ∧
    (witnessSeen t d float s).rd (F.MXA_WIT_STATUS_COL_MULTI t) = b2n (decide (1 < d.badCols.length)) ∧
    (witnessSeen t d float s).rd (F.MXA_WIT_STATUS_FMT_CLASS t) = b2n float ∧
    ∀ hi lo, lo ≤ hi → hi < 24 ∨ (40 < lo ∧ hi < 64) →
      (witnessSeen t d float s).rd ⟨R.MXA_WIT_STATUS t, hi, lo⟩ = s.rd ⟨R.MXA_WIT_STATUS t, hi, lo⟩ := by
  have hb : ∀ b : Bool, b2n b < 2 := fun b => by cases b <;> decide
  have hw := fun (v : State) hi lo hi' lo' n h => rd_witness_beside (t := t) (hi := hi) (lo := lo) (hi' := hi') (lo' := lo') v n h
  unfold witnessSeen
  refine ⟨?_, ?_, ?_, ?_, ?_, fun hi lo h1 h2 => ?_⟩
  · exact ((hw _ 24 24 40 34 _ (by omega)).trans ((hw _ 25 25 40 34 _ (by omega)).trans ((hw _ 26 26 40 34 _ (by omega)).trans
      ((hw _ 33 27 40 34 _ (by omega)).trans (rd_wr_cut s (by omega) _)))))
  · exact ((hw _ 24 24 33 27 _ (by omega)).trans ((hw _ 25 25 33 27 _ (by omega)).trans ((hw _ 26 26 33 27 _ (by omega)).trans
      (rd_wr_cut _ (by omega) _))))
  · exact ((hw _ 24 24 26 26 _ (by omega)).trans ((hw _ 25 25 26 26 _ (by omega)).trans (rd_wr_fits _ (by omega) (hb _))))
  · exact (hw _ 24 24 25 25 _ (by omega)).trans (rd_wr_fits _ (by omega) (hb _))
  · exact rd_wr_fits _ (by omega) (hb _)
  · exact ((hw _ 24 24 hi lo _ (by omega)).trans ((hw _ 25 25 hi lo _ (by omega)).trans ((hw _ 26 26 hi lo _ (by omega)).trans
      ((hw _ 33 27 hi lo _ (by omega)).trans (hw _ 40 34 hi lo _ (by omega))))))

/-- A mismatch changes registers alone. -/
theorem witnessSeen_rest (t : Nat) (d : Drained) (float : Bool) (s : State) :
    regsOnly s (witnessSeen t d float s) :=
  ((((regsOnly_wr s _ _).wr _ _).wr _ _).wr _ _).wr _ _

end Sys2Proof.Machine
end

section
/-! SUPPORT. A billet whose check fails for the first time (R42, R43, R53, R59). -/

namespace Sys2Proof.Machine

/-- A tile whose head billet is to be computed again (R43, R53). -/
def recomputeTile (t : Nat) (s : State) : State :=
  s.onTile t fun x => { x with recompute := true, deferred := x.stopped, ended := x.stopped || x.ended, missAt := s.now, pairPart := none }

/-- The tile and its witness status behind a first mismatch (R43, R53, R59). -/
def mismatchNoted (t : Nat) (s : State) : State :=
  if (s.tile t).stopped then ((recomputeTile t s).wr (F.MXA_WIT_STATUS_FIRST t) 1).wr (F.MXA_WIT_STATUS_DEFERRED t) 1
  else (recomputeTile t s).wr (F.MXA_WIT_STATUS_FIRST t) 1

theorem recomputeTile_tile (t : Nat) (s : State) : (recomputeTile t s).tile t =
    { s.tile t with recompute := true, deferred := (s.tile t).stopped, ended := (s.tile t).stopped || (s.tile t).ended,
                    missAt := s.now, pairPart := none } := State.onTile_same _ _ _

theorem recomputeTile_others (t : Nat) (s : State) {j : Nat} (hj : j ≠ t) : (recomputeTile t s).tile j = s.tile j :=
  State.onTile_other _ _ _ hj

theorem recomputeTile_rest (t : Nat) (s : State) : recomputeTile t s = { s with tiles := (recomputeTile t s).tiles } := rfl

theorem firstMismatch_eq (c ident t : Nat) (s : State) : firstMismatch c ident t s =
    reportFault 0x0101 (srcTile t) [c] (some ((mismatchNoted t s).partOf c)) t ident [] (mismatchNoted t s) := by
  have hstopped : ((recomputeTile t s).tile t).stopped = (s.tile t).stopped := by rw [recomputeTile_tile]
  unfold mismatchNoted
  rw [← hstopped]
  rfl

section
variable (t : Nat) (s : State)

theorem mismatchNoted_regsOnly : regsOnly (recomputeTile t s) (mismatchNoted t s) := by
  unfold mismatchNoted
  split
  · exact (regsOnly_wr _ _ _).wr _ _
  · exact regsOnly_wr _ _ _

theorem mismatchNoted_tile : (mismatchNoted t s).tile t =
    { s.tile t with recompute := true, deferred := (s.tile t).stopped, ended := (s.tile t).stopped || (s.tile t).ended,
                    missAt := s.now, pairPart := none } := by
  rw [← recomputeTile_tile]
  exact (mismatchNoted_regsOnly t s).obs (obs := fun v : State => v.tile t) fun _ _ => rfl

theorem mismatchNoted_others {j : Nat} (hj : j ≠ t) : (mismatchNoted t s).tile j = s.tile j := by
  rw [← recomputeTile_others t s hj]
  exact (mismatchNoted_regsOnly t s).obs (obs := fun v : State => v.tile j) fun _ _ => rfl

theorem mismatchNoted_rest : mismatchNoted t s = { s with tiles := (mismatchNoted t s).tiles, regs := (mismatchNoted t s).regs } := by
  have h := mismatchNoted_regsOnly t s
  unfold regsOnly at h
  rw [h, recomputeTile_rest]

theorem mismatchNoted_reg {k : Nat} (hk : k ≠ R.MXA_WIT_STATUS t) : (mismatchNoted t s).reg k = s.reg k := by
  unfold mismatchNoted
  split
  · exact (reg_wr_other _ _ _ hk).trans (reg_wr_other _ _ _ hk)
  · exact reg_wr_other _ _ _ hk

theorem mismatchNoted_first : (mismatchNoted t s).rd (F.MXA_WIT_STATUS_FIRST t) = 1 := by
  unfold mismatchNoted
  split
  · exact (rd_witness_beside _ _ (by omega)).trans (rd_wr_fits _ (by omega) (by omega))
  · exact rd_wr_fits _ (by omega) (by omega)

theorem mismatchNoted_deferred : (mismatchNoted t s).rd (F.MXA_WIT_STATUS_DEFERRED t) =
    if (s.tile t).stopped then 1 else s.rd (F.MXA_WIT_STATUS_DEFERRED t) := by
  unfold mismatchNoted
  split
  · exact rd_wr_fits _ (by omega) (by omega)
  · exact rd_witness_beside _ _ (by omega)

theorem mismatchNoted_fields {hi lo : Nat} (h : 1 < lo ∧ lo ≤ hi ∧ hi < 64) :
    (mismatchNoted t s).rd ⟨R.MXA_WIT_STATUS t, hi, lo⟩ = s.rd ⟨R.MXA_WIT_STATUS t, hi, lo⟩ := by
  unfold mismatchNoted
  split
  · exact (rd_witness_beside _ _ (by omega)).trans (rd_witness_beside _ _ (by omega))
  · exact rd_witness_beside _ _ (by omega)

end

/-- The check of a billet on a tile in no pair fails for the first time: the billet is to be computed again (R42, R43). -/
theorem billetChecked_mismatch {t : Nat} {o : Op} {b : Billet} {d : Drained} {s : State} (hd : d.badRows ≠ [] ∨ d.badCols ≠ [])
    (hr : (s.tile t).recompute = false) (hp : s.on (F.MXA_CFG_PAIR_EN t) = false) :
    billetChecked t o b d s = firstMismatch b.ctx (o.ident b.row b.col b.span) t (witnessSeen t d (floatPath o.aFmt) s) := by
  have hown : (d.badRows.isEmpty && d.badCols.isEmpty) = false := by
    rcases hd with h | h
    · simp [h]
    · simp [h]
  have hseen := witnessSeen_rest t d (floatPath o.aFmt) s
  have hpair : (witnessSeen t d (floatPath o.aFmt) s).paired t = false := by
    unfold State.paired State.on
    rw [rd_of_reg (f := F.MXA_CFG_PAIR_EN t) (witnessSeen_reg (by simp only [R.MXA_CFG, R.MXA_WIT_STATUS, F.MXA_CFG_PAIR_EN]; omega) _ _ _)]
    exact hp
  have hagain : ((witnessSeen t d (floatPath o.aFmt) s).tile t).recompute = false := by
    rw [hseen.obs (obs := fun v : State => v.tile t) fun _ _ => rfl]
    exact hr
  unfold billetChecked
  simp only [hown, hpair, hagain, Bool.false_eq_true, if_false, Bool.not_false, if_true]

/-- The registers of the policy table are none of a tile's. -/
theorem policy_ne (t i : Nat) (ht : t < 64) :
    R.TLS_POLICY i ≠ R.MXA_WIT_STATUS t ∧ R.TLS_POLICY i ≠ R.MXA_STALL t := by
  unfold R.TLS_POLICY R.MXA_WIT_STATUS R.MXA_STALL
  omega

/-- A tile's witness status is no register in which a record leaves its trace. -/
theorem witness_unlogged (t : Nat) (ht : t < 64) :
    R.MXA_WIT_STATUS t ≠ R.TLS_LAST ∧ R.MXA_WIT_STATUS t ≠ R.TLS_COUNT ∧ isLog (R.MXA_WIT_STATUS t) = false := by
  refine ⟨?_, ?_, isLog_of_lt ?_⟩
  · unfold R.MXA_WIT_STATUS R.TLS_LAST; omega
  · unfold R.MXA_WIT_STATUS R.TLS_COUNT; omega
  · unfold R.MXA_WIT_STATUS; omega

/-- What a first mismatch leaves (R43, R59, R474), where its class is CORRECTED. -/
structure MismatchNoted (t : Nat) (d : Drained) (o : Op) (b : Billet) (s s' : State) : Prop where
  tile : s'.tile t = { s.tile t with recompute := true, deferred := (s.tile t).stopped, ended := (s.tile t).stopped || (s.tile t).ended,
                                     missAt := s.now, pairPart := none }
  others : ∀ j, j ≠ t → s'.tile j = s.tile j
  first : s'.rd (F.MXA_WIT_STATUS_FIRST t) = 1
  deferred : s'.rd (F.MXA_WIT_STATUS_DEFERRED t) = if (s.tile t).stopped then 1 else s.rd (F.MXA_WIT_STATUS_DEFERRED t)
  row : s'.rd (F.MXA_WIT_STATUS_LAST_ROW t) = d.badRows.headD 0 % 128
  col : s'.rd (F.MXA_WIT_STATUS_LAST_COL t) = d.badCols.headD 0 % 128
  rows : s'.rd (F.MXA_WIT_STATUS_ROW_MULTI t) = b2n (decide (1 < d.badRows.length))
  cols : s'.rd (F.MXA_WIT_STATUS_COL_MULTI t) = b2n (decide (1 < d.badCols.length))
  path : s'.rd (F.MXA_WIT_STATUS_FMT_CLASS t) = b2n (floatPath o.aFmt)
  log : logged 0x0101 (srcTile t) (faultDetail (some b.ctx) t (o.ident b.row b.col b.span) []) s s'
  regs : ∀ k, k ≠ R.MXA_WIT_STATUS t → k ≠ R.TLS_LAST → k ≠ R.TLS_COUNT → isLog k = false → s'.reg k = s.reg k
  rest : s' = { s with tiles := s'.tiles, regs := s'.regs, bb := s'.bb, tls := s'.tls }

theorem firstMismatch_noted {t : Nat} (ht : t < 64) (d : Drained) (o : Op) (b : Billet) {s : State} (hc : s.classOf 0x0101 = 0) :
    MismatchNoted t d o b s (firstMismatch b.ctx (o.ident b.row b.col b.span) t (witnessSeen t d (floatPath o.aFmt) s)) := by
  obtain ⟨hrow, hcol, hrows, hcols, hpath, hkept⟩ := witnessSeen_rd t d (floatPath o.aFmt) s
  have hseen := witnessSeen_rest t d (floatPath o.aFmt) s
  have hseenReg : ∀ k, k ≠ R.MXA_WIT_STATUS t → (witnessSeen t d (floatPath o.aFmt) s).reg k = s.reg k := fun k hk => witnessSeen_reg hk _ _ _
  have hseenTile : ∀ j, (witnessSeen t d (floatPath o.aFmt) s).tile j = s.tile j := fun j => hseen.obs (obs := fun v => v.tile j) fun _ _ => rfl
  have hnow : (witnessSeen t d (floatPath o.aFmt) s).now = s.now := hseen.obs (obs := State.now) fun _ _ => rfl
  generalize witnessSeen t d (floatPath o.aFmt) s = v at *
  have htile := mismatchNoted_tile t v
  have hother := fun j (hj : j ≠ t) => mismatchNoted_others t v hj
  have hrest := mismatchNoted_rest t v
  have hreg := fun k (hk : k ≠ R.MXA_WIT_STATUS t) => mismatchNoted_reg t v hk
  have hfirst := mismatchNoted_first t v
  have hdef := mismatchNoted_deferred t v
  have hfields := fun hi lo (h : 1 < lo ∧ lo ≤ hi ∧ hi < 64) => mismatchNoted_fields t v h
  rw [firstMismatch_eq]
  generalize mismatchNoted t v = w at *
  have hcls : w.classOf 0x0101 = 0 := by
    rw [classOf_congr (s := s) fun i hi => ?_, hc]
    rw [hreg _ (policy_ne t i ht).1, hseenReg _ (policy_ne t i ht).1]
  have hrep := reportFault_corrected hcls (srcTile t) [b.ctx] (some (w.partOf b.ctx)) t (o.ident b.row b.col b.span) []
  generalize reportFault 0x0101 (srcTile t) [b.ctx] (some (w.partOf b.ctx)) t (o.ident b.row b.col b.span) [] w = u at *
  obtain ⟨hl, hn, hg⟩ := witness_unlogged t ht
  have hrd : ∀ hi lo, u.rd ⟨R.MXA_WIT_STATUS t, hi, lo⟩ = w.rd ⟨R.MXA_WIT_STATUS t, hi, lo⟩ := fun hi lo =>
    rd_of_reg (f := ⟨R.MXA_WIT_STATUS t, hi, lo⟩) (hrep.regs _ hl hn hg)
  have hbb : w.bb = s.bb := by rw [hrest, hseen]
  have hlc : w.lc = s.lc := lc_congr (by
    have hne : R.LCS_STATUS ≠ R.MXA_WIT_STATUS t := by unfold R.LCS_STATUS R.MXA_WIT_STATUS; omega
    rw [hreg _ hne, hseenReg _ hne])
  have hutile : ∀ j, u.tile j = w.tile j := fun j => by rw [hrep.rest]; rfl
  exact {
    tile := by rw [hutile, htile, hseenTile, hnow]
    others := fun j hj => by rw [hutile, hother j hj, hseenTile]
    first := (hrd 0 0).trans hfirst
    deferred := by rw [show u.rd (F.MXA_WIT_STATUS_DEFERRED t) = _ from hrd 1 1, show w.rd ⟨R.MXA_WIT_STATUS t, 1, 1⟩ = _ from hdef, hseenTile,
      show v.rd (F.MXA_WIT_STATUS_DEFERRED t) = _ from hkept 1 1 (by omega) (by omega)]; rfl
    row := (hrd 40 34).trans ((hfields 40 34 (by omega)).trans hrow)
    col := (hrd 33 27).trans ((hfields 33 27 (by omega)).trans hcol)
    rows := (hrd 26 26).trans ((hfields 26 26 (by omega)).trans hrows)
    cols := (hrd 25 25).trans ((hfields 25 25 (by omega)).trans hcols)
    path := (hrd 24 24).trans ((hfields 24 24 (by omega)).trans hpath)
    log := fun hal hlen => by
      have h := hrep.log (by rw [hlc]; exact hal) (by rw [hbb]; exact hlen)
      rw [hbb] at h
      exact h
    regs := fun k h1 h2 h3 h4 => by rw [hrep.regs k h2 h3 h4, hreg k h1, hseenReg k h1]
    rest := by rw [hrep.rest, hrest, hseen] }

end Sys2Proof.Machine
end

section
/-! SUPPORT. What the dealing of billets changes (R36, R37, R39): deal lists of tiles that are dealt to, their status, and the operation's
bookkeeping. -/

namespace Sys2Proof.Machine

/-- A walk whose steps need a condition that every step keeps. -/
theorem each_rel_pre {α : Type} (R : State → State → Prop) (P : α → State → Prop) (hr : ∀ s, R s s) (ht : ∀ a b c, R a b → R b c → R a c)
    (hk : ∀ a s s', R s s' → P a s → P a s') {f : α → State → State} {l : List α} (hf : ∀ a ∈ l, ∀ s, P a s → R s (f a s)) {s : State}
    (h : ∀ a ∈ l, P a s) : R s (each l f s) := by
  unfold each
  induction l generalizing s with
  | nil => exact hr s
  | cons a l ih =>
    have ha : R s (f a s) := hf a List.mem_cons_self s (h a List.mem_cons_self)
    exact ht _ _ _ ha (ih (fun b hb => hf b (List.mem_cons_of_mem a hb)) fun b hb => hk b _ _ ha (h b (List.mem_cons_of_mem a hb)))

/-! ### Places in a deal list -/

/-- Is it a billet of operation `q` of context `c`? -/
def Billet.isOf (b : Billet) (c q : Nat) : Prop := b.ctx = c ∧ b.seq = q

/-- A billet passes billets of other operations (R40). -/
theorem placeBillet_past {b : Billet} {c q : Nat} (hb : b.isOf c q) {l : List Billet} (hl : ∀ a ∈ l, ¬ a.isOf c q) (m : List Billet) :
    placeBillet b (l ++ m) = l ++ placeBillet b m := by
  induction l with
  | nil => rfl
  | cons a l ih =>
    have ha : ¬ (a.ctx = b.ctx ∧ a.seq = b.seq) := fun h => hl a List.mem_cons_self ⟨h.1.trans hb.1, h.2.trans hb.2⟩
    rw [List.cons_append, placeBillet, if_neg (by simp only [Bool.and_eq_true, decide_eq_true_eq]; tauto),
      ih fun x hx => hl x (List.mem_cons_of_mem a hx)]
    rfl

/-- Billets pass billets of other operations. -/
theorem placeBillet_foldl_past {bs : List Billet} {c q : Nat} (hb : ∀ b ∈ bs, b.isOf c q) {l : List Billet} (hl : ∀ a ∈ l, ¬ a.isOf c q)
    (m : List Billet) : ∃ m', bs.foldl (fun l b => placeBillet b l) (l ++ m) = l ++ m' := by
  induction bs generalizing m with
  | nil => exact ⟨m, rfl⟩
  | cons b bs ih =>
    rw [List.foldl_cons, placeBillet_past (hb b List.mem_cons_self) hl]
    exact ih (fun x hx => hb x (List.mem_cons_of_mem b hx)) _

/-- The billets of other operations at the head of a deal list stay there. -/
theorem placeBillets_past {bs : List Billet} {c q : Nat} (hb : ∀ b ∈ bs, b.isOf c q) {l : List Billet} (hl : ∀ a ∈ l, ¬ a.isOf c q)
    (m : List Billet) : ∃ m', placeBillets bs (l ++ m) = l ++ m' := by
  cases l with
  | nil => exact ⟨_, rfl⟩
  | cons a l =>
    obtain ⟨m', hm⟩ := placeBillet_foldl_past hb (fun x hx => hl x (List.mem_cons_of_mem a hx)) m
    exact ⟨m', congrArg (a :: ·) hm⟩

/-- Placing adds the billet and loses none. -/
theorem mem_placeBillet {b x : Billet} {l : List Billet} : x ∈ placeBillet b l ↔ x ∈ l ∨ x = b := by
  induction l with
  | nil => simp [placeBillet]
  | cons a l ih =>
    rw [placeBillet]
    split
    · simp only [List.mem_cons]; tauto
    · simp only [List.mem_cons, ih]; tauto

theorem mem_placeBillet_foldl {bs l : List Billet} {x : Billet} : x ∈ bs.foldl (fun l b => placeBillet b l) l ↔ x ∈ l ∨ x ∈ bs := by
  induction bs generalizing l with
  | nil => simp
  | cons b bs ih => rw [List.foldl_cons, ih, mem_placeBillet, List.mem_cons]; tauto

theorem mem_placeBillets {bs l : List Billet} {x : Billet} : x ∈ placeBillets bs l ↔ x ∈ l ∨ x ∈ bs := by
  cases l with
  | nil => exact mem_placeBillet_foldl
  | cons a l =>
    unfold placeBillets
    rw [List.mem_cons, mem_placeBillet_foldl, List.mem_cons]
    tauto

/-! ### A tile's status -/

/-- Bringing a tile's status to what it holds changes registers alone. -/
theorem syncTile_regsOnly (t : Nat) (s : State) : regsOnly s (syncTile t s) := by
  unfold syncTile
  dsimp only
  split
  · exact (regsOnly_wr _ _ _).wr _ _
  · exact regsOnly_wr _ _ _

theorem syncTile_reg {t k : Nat} (h : k ≠ R.MXA_STATUS t) (s : State) : (syncTile t s).reg k = s.reg k := by
  unfold syncTile
  dsimp only
  split
  · exact (reg_wr_other _ _ _ h).trans (reg_wr_other _ _ _ h)
  · exact reg_wr_other _ _ _ h

theorem syncTile_tile (t j : Nat) (s : State) : (syncTile t s).tile j = s.tile j :=
  (syncTile_regsOnly t s).obs (obs := fun v => v.tile j) fun _ _ => rfl

/-- Every tile's state is kept. -/
theorem syncTile_state (t u : Nat) (s : State) : stateKept u s (syncTile t s) := by
  by_cases hu : u = t
  · subst hu; exact (syncTile_step u s).state
  · exact stateKept_of_reg (syncTile_reg (status_inj hu) s)

/-! ### What dealing changes -/

/-- What dealing billets of operation `q` of context `c` changes. A tile out of service is dealt nothing, and the billets of other
operations at the head of a deal list stay there. -/
structure DealStep (c q : Nat) (s s' : State) : Prop where
  tiles : ∀ j, s'.tile j = { s.tile j with deal := (s'.tile j).deal }
  past : ∀ j l m, (s.tile j).deal = l ++ m → (∀ b ∈ l, ¬ b.isOf c q) → ∃ m', (s'.tile j).deal = l ++ m'
  only : ∀ j, ∀ b ∈ (s'.tile j).deal, b ∈ (s.tile j).deal ∨ b.isOf c q
  idle : ∀ j, s.tileServes j = false → s'.tile j = s.tile j
  regs : ∀ k, (∀ u, u < 256 → k ≠ R.MXA_STATUS u) → s'.reg k = s.reg k
  state : ∀ u, stateKept u s s'
  kinds : ∀ c' q', s'.kindAt c' q' = s.kindAt c' q'
  rest : s' = { s with tiles := s'.tiles, regs := s'.regs, ctxs := s'.ctxs }

section
variable {c q : Nat}

theorem DealStep.refl (s : State) : DealStep c q s s :=
  ⟨fun _ => rfl, fun _ _ m h _ => ⟨m, h⟩, fun _ _ h => .inl h, fun _ _ => rfl, fun _ _ => rfl, fun u => .refl u s, fun _ _ => rfl, rfl⟩

theorem DealStep.trans {a b d : State} (h : DealStep c q a b) (h' : DealStep c q b d) : DealStep c q a d where
  tiles j := by rw [h'.tiles, h.tiles]
  past j l m hd hl := by
    obtain ⟨m', hm⟩ := h.past j l m hd hl
    exact h'.past j l m' hm hl
  only j b hb := (h'.only j b hb).elim (h.only j b) .inr
  idle j hj := (h'.idle j ((h.state j).serves.trans hj)).trans (h.idle j hj)
  regs k hk := (h'.regs k hk).trans (h.regs k hk)
  state u := (h.state u).trans (h'.state u)
  kinds c' q' := (h'.kinds c' q').trans (h.kinds c' q')
  rest := by rw [h'.rest, h.rest]

/-- The pairing of tiles is no part of a tile's status. -/
theorem DealStep.cfg {s s' : State} (h : DealStep c q s s') (t : Nat) : s'.reg (R.MXA_CFG t) = s.reg (R.MXA_CFG t) :=
  h.regs _ fun u _ => by unfold R.MXA_CFG R.MXA_STATUS; omega

theorem DealStep.pairs {s s' : State} (h : DealStep c q s s') (t : Nat) :
    s'.paired t = s.paired t ∧ s'.partner t = s.partner t ∧ s'.secondary t = s.secondary t := by
  have hpair : s'.rd (F.MXA_CFG_PAIR_EN t) = s.rd (F.MXA_CFG_PAIR_EN t) := rd_of_reg (f := F.MXA_CFG_PAIR_EN t) (h.cfg t)
  have hpartner : s'.rd (F.MXA_CFG_PARTNER t) = s.rd (F.MXA_CFG_PARTNER t) := rd_of_reg (f := F.MXA_CFG_PARTNER t) (h.cfg t)
  have hfirst : s'.rd (F.MXA_CFG_PAIR_PRIMARY t) = s.rd (F.MXA_CFG_PAIR_PRIMARY t) := rd_of_reg (f := F.MXA_CFG_PAIR_PRIMARY t) (h.cfg t)
  unfold State.paired State.partner State.secondary State.paired State.on
  rw [hpair, hpartner, hfirst]
  exact ⟨rfl, rfl, rfl⟩

/-- What is dealt to stays dealt to. -/
theorem DealStep.deals {s s' : State} (h : DealStep c q s s') (t : Nat) : s'.deals t = s.deals t := by
  obtain ⟨hp, hq, hs⟩ := h.pairs t
  unfold State.deals
  rw [hp, hq, hs, (h.state _).serves, (h.state _).serves]

/-- A change of the operation's bookkeeping. -/
theorem DealStep.of_onOp {f : Op → Op} (hf : ∀ o, (f o).seq = o.seq) (hk : ∀ o, (f o).kind = o.kind) (s : State) :
    DealStep c q s (s.onOp c q f) :=
  ⟨fun _ => rfl, fun _ _ m h _ => ⟨m, h⟩, fun _ _ h => .inl h, fun _ _ => rfl, fun _ _ => rfl, fun _ => .inl rfl, fun c' q' => kindAt_onOp hf hk c q c' q' s, rfl⟩

/-- One tile that serves takes billets. -/
theorem DealStep.of_tile {bs : List Billet} (hb : ∀ b ∈ bs, b.isOf c q) {u : Nat} (hu : u < 256) {s : State} (hs : s.tileServes u = true) :
    DealStep c q s (syncTile u (s.onTile u fun x => { x with deal := placeBillets bs x.deal })) where
  tiles j := by
    rw [syncTile_tile]
    by_cases hj : j = u
    · subst hj; rw [State.onTile_same]
    · rw [State.onTile_other _ _ _ hj]
  past j l m hd hl := by
    rw [syncTile_tile]
    by_cases hj : j = u
    · subst hj
      rw [State.onTile_same]
      dsimp only
      rw [hd]
      exact placeBillets_past hb hl m
    · rw [State.onTile_other _ _ _ hj]
      exact ⟨m, hd⟩
  only j b hbm := by
    rw [syncTile_tile] at hbm
    by_cases hj : j = u
    · subst hj
      rw [State.onTile_same] at hbm
      exact (mem_placeBillets.1 hbm).elim .inl fun h => .inr (hb b h)
    · rw [State.onTile_other _ _ _ hj] at hbm
      exact .inl hbm
  idle j hj := by
    rw [syncTile_tile]
    exact State.onTile_other _ _ _ fun h => by rw [h, hs] at hj; cases hj
  regs k hk := syncTile_reg (hk u hu) _
  state v := syncTile_state u v _
  kinds c' q' := (syncTile_regsOnly u _).obs (obs := fun v => v.kindAt c' q') fun _ _ => rfl
  rest := by
    have h := syncTile_regsOnly u (s.onTile u fun x => { x with deal := placeBillets bs x.deal })
    unfold regsOnly at h
    rw [h]
    rfl

/-- The tiles that receive what is dealt to a tile serve (R49). -/
theorem pairOf_serves {t u : Nat} {s : State} (hs : s.deals t = true) (hu : u ∈ s.pairOf t) : s.tileServes u = true := by
  unfold State.deals at hs
  unfold State.pairOf at hu
  simp only [Bool.and_eq_true, Bool.or_eq_true, Bool.not_eq_true'] at hs
  split at hu
  · rename_i hp
    rcases List.mem_cons.1 hu with rfl | hu
    · exact hs.1
    · rw [List.mem_singleton.1 hu]
      rcases hs.2 with h | h
      · rw [hp] at h; cases h
      · exact h.2
  · rw [List.mem_singleton.1 hu]
    exact hs.1

/-- PARTNER names one of 256 tiles. -/
theorem partner_lt (s : State) (t : Nat) : s.partner t < 256 :=
  rd_lt s (f := F.MXA_CFG_PARTNER t) (by show 8 ≤ 15 ∧ 15 < 64; decide)

theorem pairOf_lt {t u : Nat} {s : State} (ht : t < 256) (hu : u ∈ s.pairOf t) : u < 256 := by
  unfold State.pairOf at hu
  split at hu
  · rcases List.mem_cons.1 hu with rfl | hu
    · exact ht
    · rw [List.mem_singleton.1 hu]
      exact partner_lt s t
  · rw [List.mem_singleton.1 hu]
    exact ht

/-- Billets go to a tile that is dealt to, and to its partner (R49). -/
theorem dealTo_step {bs : List Billet} (hb : ∀ b ∈ bs, b.isOf c q) {t : Nat} (ht : t < 256) {s : State} (hs : s.deals t = true) :
    DealStep c q s (dealTo bs t s) :=
  each_rel_pre (DealStep c q) (fun u s => u < 256 ∧ s.tileServes u = true) .refl (fun _ _ _ => .trans)
    (fun u _ _ h hu => ⟨hu.1, (h.state u).serves.trans hu.2⟩) (fun _ _ _ hu => .of_tile hb hu.1 hu.2)
    fun _ hu => ⟨pairOf_lt ht hu, pairOf_serves hs hu⟩

/-- A walk that deals to tiles that are dealt to. -/
theorem dealEach_step {α : Type} {l : List α} {f : α → State → State} {tile : α → Nat}
    (hf : ∀ x ∈ l, ∀ s, s.deals (tile x) = true → DealStep c q s (f x s)) {s : State} (h : ∀ x ∈ l, s.deals (tile x) = true) :
    DealStep c q s (each l f s) :=
  each_rel_pre (DealStep c q) (fun x s => s.deals (tile x) = true) .refl (fun _ _ _ => .trans)
    (fun x _ _ hs hx => (hs.deals (tile x)).trans hx) hf h

/-! ### The deals of an operation -/

theorem chain_isOf (o : Op) (home wave row col : Nat) : ∀ b ∈ chain c o home wave row col, b.isOf c o.seq := fun b hb => by
  unfold chain at hb
  obtain ⟨i, -, rfl⟩ := List.mem_map.1 hb
  exact ⟨rfl, rfl⟩

theorem quadBillets_isOf (o : Op) (home wave : Nat) (bs : List (Nat × Nat)) : ∀ b ∈ quadBillets c o home wave bs, b.isOf c o.seq :=
  fun b hb => by
    unfold quadBillets at hb
    obtain ⟨i, -, hb⟩ := List.mem_flatMap.1 hb
    obtain ⟨x, -, rfl⟩ := List.mem_map.1 hb
    exact ⟨rfl, rfl⟩

theorem newWaves_step (n : Nat) (s : State) : DealStep c q s (newWaves c q n s) := .of_onOp (fun _ => by rfl) (fun _ => by rfl) s

/-- A quad of a wave stands at one of the eight columns of the grid. -/
theorem waveQuads_lt {o : Op} {g w : Nat} {x : Nat × Nat × Nat × Nat} (h : x ∈ waveQuads o g w) : x.2.1 < 8 := by
  unfold waveQuads at h
  obtain ⟨r, -, h⟩ := List.mem_flatMap.1 h
  obtain ⟨k, hk, h⟩ := List.mem_filterMap.1 h
  dsimp only at h
  split at h
  · cases h
    exact List.mem_range.1 hk
  · cases h

/-- The groups of a partition are eight at most. -/
theorem groupsOf_getD_lt (s : State) (p i : Nat) : (s.groupsOf p).getD i 0 < 8 := by
  rw [List.getD_eq_getElem?_getD]
  cases h : (s.groupsOf p)[i]? with
  | none => decide
  | some g =>
    have hg : g ∈ s.groupsOf p := List.mem_of_getElem? h
    unfold State.groupsOf setBits at hg
    exact List.mem_range.1 (List.mem_filter.1 hg).1

/-- The deal of a wave of quads (R37). -/
theorem dealWave_step {o : Op} (ho : o.seq = q) (p w : Nat) (s₀ : State) : DealStep c q s₀ (dealWave c o p w s₀) := by
  subst ho
  unfold dealWave
  refine (newWaves_step 1 s₀).trans (each_rel_mem (DealStep c o.seq) .refl (fun _ _ _ => .trans) (fun x hx s => ?_) _)
  dsimp only
  split
  · rename_i hd
    refine dealTo_step (quadBillets_isOf o _ _ _) ?_ hd
    have h1 := waveQuads_lt hx
    have h2 := groupsOf_getD_lt s₀ p x.1
    omega
  · exact .of_onOp (fun _ => by rfl) (fun _ => by rfl) s

/-- Tiles that are dealt to. -/
theorem dealTiles_mem {s : State} {p t : Nat} (h : t ∈ s.dealTiles p) : t ∈ s.tilesOf p ∧ s.deals t = true := List.mem_filter.1 h

/-- The deal of blocks one per tile in turn (R36). -/
theorem dealSingles_step {o : Op} (ho : o.seq = q) (bs : List (Nat × Nat)) {ts : List Nat} {s : State}
    (hts : ∀ t ∈ ts, t < 64 ∧ s.deals t = true) : DealStep c q s (dealSingles c o bs ts s) := by
  subst ho
  unfold dealSingles
  have hwaves := newWaves_step (c := c) (q := o.seq) (ceilDiv bs.length ts.length) s
  refine hwaves.trans (each_rel_pre (DealStep c o.seq) (fun _ s => ∀ t ∈ ts, s.deals t = true) .refl (fun _ _ _ => .trans)
    (fun _ _ _ h hx t ht => (h.deals t).trans (hx t ht)) (fun x _ s hx => ?_) fun _ _ t ht => (hwaves.deals t).trans (hts t ht).2)
  split
  · rename_i t ht
    have hmem := List.mem_of_getElem? ht
    exact dealTo_step (chain_isOf o _ _ _ _) (by have := (hts t hmem).1; omega) (hx t hmem)
  · exact .refl s

/-- What comes next once every tile has run what it was dealt (R37, R45). -/
theorem dealMore_step (c q : Nat) (s : State) : DealStep c q s (dealMore c q s) := by
  unfold dealMore
  split
  · exact .refl s
  · rename_i o ho
    have hq : o.seq = q := seq_of_op? ho
    dsimp only
    have hts : ∀ t ∈ s.dealTiles (s.partOf c), t < 64 ∧ s.deals t = true := fun t ht =>
      ⟨tilesOf_lt (dealTiles_mem ht).1, (dealTiles_mem ht).2⟩
    split
    · exact .refl s
    · split
      · exact (DealStep.of_onOp (fun _ => by rfl) (fun _ => by rfl) s).trans (dealWave_step hq _ _ _)
      · split
        · have hheld : DealStep c q s (newWaves c q 1 (s.onOp c q fun o => { o with heldQ := o.heldQ.drop (s.dealTiles (s.partOf c)).length })) :=
            (DealStep.of_onOp (fun _ => by rfl) (fun _ => by rfl) s).trans (newWaves_step 1 _)
          refine hheld.trans (dealEach_step (tile := Prod.snd) (fun x hx s hs => ?_) fun x hx => ?_)
          · exact dealTo_step (hq ▸ quadBillets_isOf o _ _ _) (by have := (hts x.2 (List.of_mem_zip hx).2).1; omega) hs
          · exact (hheld.deals _).trans (hts x.2 (List.of_mem_zip hx).2).2
        · split
          · have hredo : DealStep c q s (s.onOp c q fun o => { o with redo := [] }) := .of_onOp (fun _ => by rfl) (fun _ => by rfl) s
            exact hredo.trans (dealSingles_step hq _ fun t ht => ⟨(hts t ht).1, (hredo.deals t).trans (hts t ht).2⟩)
          · exact .refl s

/-- Behind a billet of a tile in the partition nothing more is dealt while the tile holds more of the operation (R37). -/
theorem dealMore_past {t : Nat} {s : State} (ht : t ∈ s.tilesOf (s.partOf c)) : ∃ m, ((dealMore c q s).tile t).deal = (s.tile t).deal ++ m := by
  by_cases h : ∃ b ∈ (s.tile t).deal, b.isOf c q
  · obtain ⟨b, hb, hc, hq⟩ := h
    have hdealing : s.dealing c q (s.partOf c) = true := by
      unfold State.dealing
      rw [List.any_eq_true.2 ⟨t, ht, List.any_eq_true.2 ⟨b, hb, by simp [hc, hq]⟩⟩]
      rfl
    refine ⟨[], ?_⟩
    unfold dealMore
    split
    · simp
    · simp [hdealing]
  · exact (dealMore_step c q s).past t _ [] (by simp) fun b hb hbo => h ⟨b, hb, hbo⟩

end

end Sys2Proof.Machine
end

section
/-! SUPPORT. A billet that passes (R32, R39, R43, R60). -/

namespace Sys2Proof.Machine

/-! ### The counts of a billet that passes -/

/-- The counts of a billet that passes: MXA_BILLETS, and FIRST_CNT where a recompute passes (R43, R60). -/
def billetCounted (t : Nat) (s : State) : State :=
  (if (s.tile t).recompute then s.satInc (F.MXA_WIT_STATUS_FIRST_CNT t) 1 else s).wrapInc (F.MXA_BILLETS_COUNT t) 1

section
variable (t : Nat) (s : State)

theorem billetCounted_regsOnly : regsOnly s (billetCounted t s) := by
  unfold billetCounted
  split
  · exact (regsOnly_wr _ _ _).wr _ _
  · exact regsOnly_wr _ _ _

theorem billetCounted_reg {k : Nat} (hb : k ≠ R.MXA_BILLETS t) (hw : (s.tile t).recompute = true → k ≠ R.MXA_WIT_STATUS t) :
    (billetCounted t s).reg k = s.reg k := by
  unfold billetCounted
  split
  · rename_i h
    exact (reg_wr_other _ _ _ hb).trans (reg_wr_other _ _ _ (hw h))
  · exact reg_wr_other _ _ _ hb

theorem billets_ne_witness : R.MXA_BILLETS t ≠ R.MXA_WIT_STATUS t := by unfold R.MXA_BILLETS R.MXA_WIT_STATUS; omega

theorem billetCounted_billets : (billetCounted t s).rd (F.MXA_BILLETS_COUNT t) = (s.rd (F.MXA_BILLETS_COUNT t) + 1) % 2 ^ 64 := by
  unfold billetCounted
  have hcut : ∀ v : State, (v.wrapInc (F.MXA_BILLETS_COUNT t) 1).rd (F.MXA_BILLETS_COUNT t) = (v.rd (F.MXA_BILLETS_COUNT t) + 1) % 2 ^ 64 :=
    fun v => rd_wr_cut v (by omega) _
  rw [hcut]
  split
  · rw [State.satInc_eq, rd_wr_other s (f := F.MXA_WIT_STATUS_FIRST_CNT t) (g := F.MXA_BILLETS_COUNT t) (billets_ne_witness t)]
  · rfl

theorem billetCounted_first : (billetCounted t s).rd (F.MXA_WIT_STATUS_FIRST_CNT t) =
    min (s.rd (F.MXA_WIT_STATUS_FIRST_CNT t) + b2n (s.tile t).recompute) (F.MXA_WIT_STATUS_FIRST_CNT t).max := by
  have hother : ∀ v : State, (v.wrapInc (F.MXA_BILLETS_COUNT t) 1).rd (F.MXA_WIT_STATUS_FIRST_CNT t) = v.rd (F.MXA_WIT_STATUS_FIRST_CNT t) :=
    fun v => rd_wr_other v (f := F.MXA_BILLETS_COUNT t) (g := F.MXA_WIT_STATUS_FIRST_CNT t) (billets_ne_witness t).symm _
  have hmax : (F.MXA_WIT_STATUS_FIRST_CNT t).max = 2 ^ 16 - 1 := rfl
  have hlt : s.rd (F.MXA_WIT_STATUS_FIRST_CNT t) < 2 ^ 16 :=
    rd_lt s (f := F.MXA_WIT_STATUS_FIRST_CNT t) (by show 48 ≤ 63 ∧ 63 < 64; decide)
  unfold billetCounted
  rw [hother, hmax]
  split
  · rename_i h
    rw [h, State.satInc_eq, hmax]
    exact rd_wr_fits s (by omega) (by omega)
  · rename_i h
    rw [show (s.tile t).recompute = false by simpa using h]
    show _ = min (_ + 0) _
    omega

end

/-! ### The partial of a billet that passes -/

/-- The billet at the head of a tile's deal list leaves it (R32, R43). -/
def headDone (t : Nat) (s : State) : State :=
  s.onTile t fun x =>
    dropOpnds { x with deal := x.deal.drop 1, accNet := [], recompute := false, deferred := false, pairPart := none,
                       ended := x.stopped || x.banks.any (·.done) }

theorem headDone_tile (t : Nat) (s : State) : (headDone t s).tile t =
    { s.tile t with deal := (s.tile t).deal.drop 1, accNet := [], recompute := false, deferred := false, pairPart := none,
                    ended := (s.tile t).stopped || (s.tile t).banks.any (·.done), opnds := ((headDone t s).tile t).opnds } := by
  unfold headDone
  rw [State.onTile_same]
  rfl

theorem headDone_others {t j : Nat} (hj : j ≠ t) (s : State) : (headDone t s).tile j = s.tile j := State.onTile_other _ _ _ hj

/-- A tile in no pair is none of the odd group. -/
theorem headDone_secondary {t : Nat} {s : State} (hp : s.on (F.MXA_CFG_PAIR_EN t) = false) :
    (headDone t (billetCounted t s)).secondary t = false := by
  have hcfg : (billetCounted t s).reg (R.MXA_CFG t) = s.reg (R.MXA_CFG t) := billetCounted_reg t s
    (by unfold R.MXA_CFG R.MXA_BILLETS; omega) fun _ => by unfold R.MXA_CFG R.MXA_WIT_STATUS; omega
  unfold State.secondary State.paired
  rw [show (headDone t (billetCounted t s)).on (F.MXA_CFG_PAIR_EN t) = s.on (F.MXA_CFG_PAIR_EN t) from
    congrArg (fun n => decide (n ≠ 0)) (rd_of_reg (f := F.MXA_CFG_PAIR_EN t) hcfg), hp]
  rfl

/-- A billet that passes on a tile in no pair gives its partial to its home tile, or to the network (R32, R39). -/
theorem acceptBillet_unpaired {o : Op} (hdone : o.done = none) {t : Nat} {s : State} (hp : s.on (F.MXA_CFG_PAIR_EN t) = false) (b : Billet)
    (p : Bank) : acceptBillet o b p t s =
      if b.home = t then ownPartial t o b p (headDone t (billetCounted t s))
      else (headDone t (billetCounted t s)).onTile t fun x => { x with sent := x.sent ++ [p] } := by
  have heq : acceptBillet o b p t s =
      if o.done.isSome then headDone t (billetCounted t s)
      else if (headDone t (billetCounted t s)).secondary t then
        (if b.home = (headDone t (billetCounted t s)).partner t then ownPartial t o b p (headDone t (billetCounted t s))
          else headDone t (billetCounted t s))
      else if b.home = t then ownPartial t o b p (headDone t (billetCounted t s))
      else (headDone t (billetCounted t s)).onTile t fun x => { x with sent := x.sent ++ [p] } := rfl
  rw [heq, headDone_secondary hp, hdone]
  simp only [Option.isSome_none, Bool.false_eq_true, if_false]

/-- The bank that a block's first partial initialises (R32, R39). -/
def firstBank (b : Billet) (p : Bank) : Bank :=
  { p with await := b.away, ownDone := p.ownDone || b.last, done := p.done || ((p.ownDone || b.last) && b.away = 0) }

/-- What a tile is left with where it takes a partial of its own: its banks and what waited for them. -/
theorem ownPartial_first {t : Nat} {o : Op} {b : Billet} {p : Bank} {s : State} (hsec : s.secondary t = false)
    (hn : ((s.tile t).banks.any fun k => k.isFor b.ctx b.seq b.row b.col) = false) (he : (s.tile t).early = [])
    (hfor : p.isFor b.ctx b.seq b.row b.col = true) :
    firstBank b p ∈ ((ownPartial t o b p s).tile t).banks ∧
    (ownPartial t o b p s).tile t = { s.tile t with banks := ((ownPartial t o b p s).tile t).banks } ∧
    (∀ j, j ≠ t → (ownPartial t o b p s).tile j = s.tile j) ∧
    ownPartial t o b p s = { s with tiles := (ownPartial t o b p s).tiles } := by
  have heq : ownPartial t o b p s = settle t b.ctx b.seq b.row b.col b.last (s.onTile t fun x =>
      { x with banks := x.banks ++ [{ p with await := b.away }], early := x.early.filter fun k => !k.isFor b.ctx b.seq b.row b.col }) := by
    unfold ownPartial
    dsimp only
    rw [if_neg (by rw [hn]; decide), he, hsec]
    rfl
  have hfor' : ({ p with await := b.away } : Bank).isFor b.ctx b.seq b.row b.col = true := hfor
  rw [heq]
  unfold settle
  refine ⟨?_, ?_, fun j hj => ?_, rfl⟩
  · simp only [State.onTile_same, List.map_append, List.map_cons, List.map_nil, hfor', if_true]
    exact List.mem_append_right _ (List.mem_singleton.2 rfl)
  · simp only [State.onTile_same, he, List.filter_nil]
  · rw [State.onTile_other _ _ _ hj, State.onTile_other _ _ _ hj]

/-! ### Everything that a billet that passes leaves on its tile -/

/-- What a billet that passes leaves, behind its counts (R32, R39, R43). -/
structure BilletPassed (t : Nat) (b : Billet) (p : Bank) (s s' : State) : Prop where
  tile : s'.tile t = { s.tile t with deal := (s.tile t).deal.drop 1, accNet := [], recompute := false, deferred := false, pairPart := none,
                                     ended := (s.tile t).stopped || (s.tile t).banks.any (·.done), opnds := (s'.tile t).opnds,
                                     banks := (s'.tile t).banks, sent := (s'.tile t).sent }
  own : b.home = t → firstBank b p ∈ (s'.tile t).banks
  sent : b.home ≠ t → p ∈ (s'.tile t).sent
  others : ∀ j, j ≠ t → s'.tile j = s.tile j
  rest : s' = { billetCounted t s with tiles := s'.tiles }

theorem acceptBillet_passed {o : Op} (hdone : o.done = none) {t : Nat} {s : State} (hp : s.on (F.MXA_CFG_PAIR_EN t) = false) {b : Billet}
    {p : Bank} (hn : ((s.tile t).banks.any fun k => k.isFor b.ctx b.seq b.row b.col) = false) (he : (s.tile t).early = [])
    (hfor : p.isFor b.ctx b.seq b.row b.col = true) : BilletPassed t b p s (acceptBillet o b p t s) := by
  have htile : (billetCounted t s).tile t = s.tile t := (billetCounted_regsOnly t s).obs (obs := fun v => v.tile t) fun _ _ => rfl
  have hother : ∀ j, (billetCounted t s).tile j = s.tile j := fun j => (billetCounted_regsOnly t s).obs (obs := fun v => v.tile j) fun _ _ => rfl
  have hhead := headDone_tile t (billetCounted t s)
  have hheads : ∀ j, j ≠ t → (headDone t (billetCounted t s)).tile j = s.tile j := fun j hj => (headDone_others hj _).trans (hother j)
  have hrest : headDone t (billetCounted t s) = { billetCounted t s with tiles := (headDone t (billetCounted t s)).tiles } := rfl
  rw [htile] at hhead
  rw [acceptBillet_unpaired hdone hp]
  have hsec := headDone_secondary hp
  generalize headDone t (billetCounted t s) = v at *
  split
  · rename_i hh
    obtain ⟨hmem, hown, hothers, hframe⟩ := ownPartial_first (o := o) (b := b) (p := p) hsec (by rw [hhead]; exact hn) (by rw [hhead]; exact he) hfor
    refine ⟨?_, fun _ => hmem, fun h => absurd hh h, fun j hj => (hothers j hj).trans (hheads j hj), ?_⟩
    · rw [hown, hhead]
    · rw [hframe, hrest]
  · rename_i hh
    refine ⟨?_, fun h => absurd h hh, fun _ => ?_, fun j hj => (State.onTile_other _ _ _ hj).trans (hheads j hj), ?_⟩
    · rw [State.onTile_same, hhead]
    · rw [State.onTile_same]
      exact List.mem_append_right _ (List.mem_singleton.2 rfl)
    · rw [hrest]; rfl

end Sys2Proof.Machine
end

section
/-! SUPPORT. What a billet that passes leaves behind what it lets go on (R32, R35, R37). -/

namespace Sys2Proof.Machine

/-- The tiles of a context's partition depend on CTX_CFG and CTX_PART alone. -/
theorem tilesOf_partOf_congr {c : Nat} {s s' : State} (hc : s'.reg (R.CTX_CFG c) = s.reg (R.CTX_CFG c))
    (hp : ∀ p, p < 8 → s'.reg (R.CTX_PART p) = s.reg (R.CTX_PART p)) : s'.tilesOf (s'.partOf c) = s.tilesOf (s.partOf c) := by
  have hpart : s'.partOf c = s.partOf c := rd_of_reg (f := F.CTX_CFG_PARTITION c) hc
  have hlt : s.partOf c < 8 := rd_lt s (f := F.CTX_CFG_PARTITION c) (by show 32 ≤ 34 ∧ 34 < 64; decide)
  unfold State.tilesOf State.groupsOf
  rw [hpart, rd_of_reg (f := F.CTX_PART_GROUPS (s.partOf c)) (hp _ hlt)]

/-- The registers that say which tiles a context has are none of a tile's. -/
theorem partKeys_ne {t : Nat} (ht : t < 64) :
    (∀ c, R.CTX_CFG c ≠ R.MXA_STATUS t ∧ R.CTX_CFG c ≠ R.MXA_STALL t ∧ R.CTX_CFG c ≠ R.MXA_BILLETS t ∧ R.CTX_CFG c ≠ R.MXA_WIT_STATUS t) ∧
    ∀ p, p < 8 → R.CTX_PART p ≠ R.MXA_STATUS t ∧ R.CTX_PART p ≠ R.MXA_STALL t ∧ R.CTX_PART p ≠ R.MXA_BILLETS t ∧
      R.CTX_PART p ≠ R.MXA_WIT_STATUS t := by
  unfold R.CTX_CFG R.CTX_PART R.MXA_STATUS R.MXA_STALL R.MXA_BILLETS R.MXA_WIT_STATUS
  constructor <;> intros <;> omega

/-- The check of a billet on a tile in no pair passes (R42). -/
theorem billetChecked_pass {t : Nat} {o : Op} {b : Billet} {d : Drained} {s : State} (hr : d.badRows = []) (hc : d.badCols = [])
    (hp : s.on (F.MXA_CFG_PAIR_EN t) = false) : billetChecked t o b d s =
      dealMore b.ctx b.seq (placeDue t (refillQueue t (acceptBillet o b (partialOf b d) t s))) := by
  unfold billetChecked
  simp only [hr, hc, List.isEmpty_nil, Bool.and_self, if_true, show s.paired t = false from hp, Bool.not_false]
  rfl

/-- What stands behind a billet that passes on a tile in no pair: its counts, its partial, and what is dealt next (R32, R35, R37, R60). -/
structure BilletEnded (t : Nat) (b : Billet) (p : Bank) (rest : List Billet) (s s' : State) : Prop where
  billets : s'.rd (F.MXA_BILLETS_COUNT t) = (s.rd (F.MXA_BILLETS_COUNT t) + 1) % 2 ^ 64
  first : s'.rd (F.MXA_WIT_STATUS_FIRST_CNT t) =
    min (s.rd (F.MXA_WIT_STATUS_FIRST_CNT t) + b2n (s.tile t).recompute) (F.MXA_WIT_STATUS_FIRST_CNT t).max
  once : (s'.tile t).recompute = false
  deal : ∃ more, (s'.tile t).deal = rest ++ more
  own : b.home = t → b.last = false → p.ownDone = false → p.done = false → firstBank b p ∈ (s'.tile t).banks
  sent : b.home ≠ t → p ∈ (s'.tile t).sent
  regs : ∀ k, k ≠ R.MXA_BILLETS t → k ≠ R.MXA_STALL t → ((s.tile t).recompute = true → k ≠ R.MXA_WIT_STATUS t) →
    (∀ u, k ≠ R.MXA_STATUS u) → s'.reg k = s.reg k
  rest : s' = { s with tiles := s'.tiles, regs := s'.regs, ctxs := s'.ctxs, freeCtr := s'.freeCtr }

/-- The work that a passed billet lets go on is a step of its tile, and then a deal. -/
theorem billetPassed_ended {t : Nat} (ht : t < 64) {b : Billet} {p : Bank} {rest : List Billet} {s v : State} (h : BilletPassed t b p s v)
    (hd : (s.tile t).deal = b :: rest) (hmem : t ∈ s.tilesOf (s.partOf b.ctx))
    (hrest : ∀ b' ∈ rest, ∀ o', s.op? b'.ctx b'.seq = some o' → o'.kind = 1) (hsaved : noSaved t s) :
    BilletEnded t b p rest s (dealMore b.ctx b.seq (placeDue t (refillQueue t v))) := by
  have hcount := billetCounted_regsOnly t s
  unfold regsOnly at hcount
  have hvrest : v = { s with tiles := v.tiles, regs := v.regs } := by rw [h.rest, hcount]
  have hvreg : ∀ k, v.reg k = (billetCounted t s).reg k := fun k => by rw [h.rest]; rfl
  have hvdeal : (v.tile t).deal = rest := by rw [h.tile, hd]; rfl
  have hvop : ∀ c q, v.op? c q = s.op? c q := fun c q => by rw [hvrest]; rfl
  have hload : noLoad t v := fun b' l o' hb' ho' => by
    rw [hvdeal] at hb'
    rw [hvop] at ho'
    rw [hrest b' (by rw [hb']; exact List.mem_cons_self) o' ho']
    decide
  have hstep := refillQueue_step hload
  have hplain : ∀ k, k ≠ R.MXA_BILLETS t → ((s.tile t).recompute = true → k ≠ R.MXA_WIT_STATUS t) → v.reg k = s.reg k := fun k h1 h2 =>
    (hvreg k).trans (billetCounted_reg t s h1 h2)
  have hvsaved : noSaved t v := fun c hc => by
    have hstatus : v.reg (R.MXA_STATUS t) = s.reg (R.MXA_STATUS t) :=
      hplain _ (by unfold R.MXA_STATUS R.MXA_BILLETS; omega) fun _ => by unfold R.MXA_STATUS R.MXA_WIT_STATUS; omega
    have hctx : v.tileCtx t = s.tileCtx t := by
      unfold State.tileCtx State.on
      rw [rd_of_reg (f := F.MXA_STATUS_CTX_VALID t) hstatus, rd_of_reg (f := F.MXA_STATUS_CUR_CTX t) hstatus]
    rw [show v.ctx c = s.ctx c by rw [hvrest]; rfl]
    exact hsaved c (hctx ▸ hc)
  rw [placeDue_none (hstep.noSaved hvsaved)]
  generalize refillQueue t v = w at *
  have hdeal := dealMore_step b.ctx b.seq w
  have hwreg : ∀ k, k ≠ R.MXA_STATUS t → k ≠ R.MXA_STALL t → w.reg k = v.reg k := hstep.regs
  obtain ⟨hcfg, hpart⟩ := partKeys_ne ht
  have hwmem : t ∈ w.tilesOf (w.partOf b.ctx) := by
    rw [tilesOf_partOf_congr (s := s)]
    · exact hmem
    · obtain ⟨h1, h2, h3, h4⟩ := hcfg b.ctx
      exact (hwreg _ h1 h2).trans (hplain _ h3 fun _ => h4)
    · intro p' hp'
      obtain ⟨h1, h2, h3, h4⟩ := hpart p' hp'
      exact (hwreg _ h1 h2).trans (hplain _ h3 fun _ => h4)
  have hmore := dealMore_past (q := b.seq) hwmem
  generalize dealMore b.ctx b.seq w = z at *
  have hzreg : ∀ k, (∀ u, k ≠ R.MXA_STATUS u) → k ≠ R.MXA_STALL t → z.reg k = v.reg k := fun k h1 h2 =>
    (hdeal.regs k fun u _ => h1 u).trans (hwreg k (h1 t) h2)
  have hztile : z.tile t = { w.tile t with deal := (z.tile t).deal } := hdeal.tiles t
  exact {
    billets := by
      rw [rd_of_reg (s := v) (f := F.MXA_BILLETS_COUNT t) (hzreg (R.MXA_BILLETS t) (fun u => by unfold R.MXA_BILLETS R.MXA_STATUS; omega)
        (by unfold R.MXA_BILLETS R.MXA_STALL; omega)), rd_of_reg (f := F.MXA_BILLETS_COUNT t) (hvreg _), billetCounted_billets]
    first := by
      rw [rd_of_reg (s := v) (f := F.MXA_WIT_STATUS_FIRST_CNT t) (hzreg (R.MXA_WIT_STATUS t)
        (fun u => by unfold R.MXA_WIT_STATUS R.MXA_STATUS; omega) (by unfold R.MXA_WIT_STATUS R.MXA_STALL; omega)),
        rd_of_reg (f := F.MXA_WIT_STATUS_FIRST_CNT t) (hvreg _), billetCounted_first]
    once := by rw [hztile, hstep.tile, h.tile]
    deal := by
      obtain ⟨m, hm⟩ := hmore
      exact ⟨m, by rw [hm, hstep.tile]; exact congrArg (· ++ m) hvdeal⟩
    own := fun hh hl ho hp => by
      rw [hztile]
      exact hstep.undone _ (h.own hh) (by simp [firstBank, hl, ho, hp])
    sent := fun hh => by
      rw [hztile, hstep.tile]
      exact h.sent hh
    regs := fun k h1 h2 h3 h4 => (hzreg k h4 h2).trans (hplain k h1 h3)
    rest := by rw [hdeal.rest, hstep.rest, hvrest] }

/-! ### What a ready billet's state reads -/

section
variable {t : Nat} {s u : State} (h : BilletReady t s u)
include h

theorem BilletReady.op? (c q : Nat) : u.op? c q = s.op? c q := by rw [h.rest]; rfl
theorem BilletReady.ctx (c : Nat) : u.ctx c = s.ctx c := by rw [h.rest]; rfl

theorem BilletReady.pair : u.on (F.MXA_CFG_PAIR_EN t) = s.on (F.MXA_CFG_PAIR_EN t) := by
  unfold State.on
  rw [rd_of_reg (f := F.MXA_CFG_PAIR_EN t) (h.regs (R.MXA_CFG t) (by unfold R.MXA_CFG R.MXA_STALL; omega))]

theorem BilletReady.witness (hi lo : Nat) : u.rd ⟨R.MXA_WIT_STATUS t, hi, lo⟩ = s.rd ⟨R.MXA_WIT_STATUS t, hi, lo⟩ :=
  rd_of_reg (f := ⟨R.MXA_WIT_STATUS t, hi, lo⟩) (h.regs (R.MXA_WIT_STATUS t) (by unfold R.MXA_WIT_STATUS R.MXA_STALL; omega))

theorem BilletReady.billets : u.rd (F.MXA_BILLETS_COUNT t) = s.rd (F.MXA_BILLETS_COUNT t) :=
  rd_of_reg (f := F.MXA_BILLETS_COUNT t) (h.regs (R.MXA_BILLETS t) (by unfold R.MXA_BILLETS R.MXA_STALL; omega))

theorem BilletReady.tileCtx : u.tileCtx t = s.tileCtx t := by
  have hstatus := h.regs (R.MXA_STATUS t) (status_ne_stall t t)
  unfold State.tileCtx State.on
  rw [rd_of_reg (f := F.MXA_STATUS_CTX_VALID t) hstatus, rd_of_reg (f := F.MXA_STATUS_CUR_CTX t) hstatus]

theorem BilletReady.noSaved (hs : noSaved t s) : Machine.noSaved t u := fun c hc => by
  rw [h.ctx]
  exact hs c (h.tileCtx ▸ hc)

theorem BilletReady.tilesOf (ht : t < 64) (c : Nat) : u.tilesOf (u.partOf c) = s.tilesOf (s.partOf c) :=
  tilesOf_partOf_congr (h.regs _ ((partKeys_ne ht).1 c).2.1) fun p hp => h.regs _ ((partKeys_ne ht).2 p hp).2.1

theorem BilletReady.classOf (ht : t < 64) (code : Nat) : u.classOf code = s.classOf code :=
  classOf_congr (fun i _ => h.regs _ (policy_ne t i ht).2) code

/-- A change behind a ready billet that leaves the slices alone. -/
theorem BilletReady.caches_of {v : State} (hv : v.chans = u.chans) : cachesOnly s v := fun ch => by
  have hch : v.chan ch = u.chan ch := by unfold State.chan; rw [hv]
  rw [hch]
  exact h.caches ch

end

end Sys2Proof.Machine
end

section
/-! The statement about the end of a billet (chapter 02). -/

open Sys2Proof Sys2Proof.Machine

/-- Settles O17: the operands are found, the check decides; a billet that passes is counted, its partial placed, and what is dealt next comes
behind the rest; a first mismatch is noted and recorded; a partial of another tile waits or joins. -/
theorem tileBilletEnds : Obligations.TileBilletEnds := by
  intro t fx s x
  have ht : t.val < 64 := t.isLt
  refine ⟨fun b rest o a y hd ho hk hdone he hs hon hp hmem hm ha hy => ?_, fun src p o hsrc hsent ho hdone hdeals hdeal => ⟨fun hn => ?_,
    fun k hbank hfor hd ha hsaved => ?_⟩⟩
  · obtain ⟨u, hend, hready, hfound⟩ := billetEnd_checked (fx := fx) hd ho hk he hs hon hp hm ha hy
    have hutile := hready.tile
    have hup : u.on (F.MXA_CFG_PAIR_EN t.val) = false := hready.pair.trans hp
    refine ⟨fun hrows hcols hearly hbanks hrest hsaved => ?_, fun hbad hfirst hcls => ?_⟩
    · have hpass := acceptBillet_passed (o := o) (p := partialOf b (runBillet s o b a y fx)) hdone hup (by rw [hutile]; exact hbanks)
        (by rw [hutile]; exact hearly) (by simp [Bank.isFor, partialOf])
      have hended := billetPassed_ended (rest := rest) ht hpass (by rw [hutile]; exact hd) (by rw [hready.tilesOf ht]; exact hmem)
        (fun b' hb' o' ho' => hrest b' hb' o' (hready.op? _ _ ▸ ho')) (hready.noSaved hsaved)
      rw [← billetChecked_pass hrows hcols hup, ← hend] at hended
      generalize hz : billetEnd t.val fx s = z at *
      have hframe : z = { s with tiles := z.tiles, regs := z.regs, ctxs := z.ctxs, freeCtr := z.freeCtr, chans := z.chans } := by
        rw [hended.rest, hready.rest]
      refine ⟨z, ?_, ?_, ?_, hended.once, hended.deal, ?_, ?_, hready.caches_of (by rw [hended.rest]), hframe⟩
      · rw [exec_billetEnd, execBilletEnd, hz]
        exact State.done_of_eq hframe rfl rfl
      · rw [hended.billets, hready.billets]
      · rw [hended.first, show u.rd (F.MXA_WIT_STATUS_FIRST_CNT t.val) = _ from hready.witness 63 48, hutile]
        rfl
      · split
        · rename_i hh
          exact fun hl => ⟨_, hended.own hh hl rfl rfl, by simp [Bank.isFor, firstBank, partialOf], by simp [firstBank, partialOf, hl], rfl, rfl⟩
        · rename_i hh
          exact ⟨_, hended.sent hh, by simp [Bank.isFor, partialOf], rfl, rfl, rfl⟩
      · exact fun k h1 h2 h3 h4 => (hended.regs k h1 h2 (by rw [hutile]; exact h3) h4).trans (hready.regs k h2)
    · have hnoted := firstMismatch_noted ht (runBillet s o b a y fx) o b ((hready.classOf ht _).trans hcls)
      rw [← billetChecked_mismatch hbad (by rw [hutile]; exact hfirst) hup, ← hend] at hnoted
      generalize hz : billetEnd t.val fx s = z at *
      have hnow : u.now = s.now := by rw [hready.rest]; rfl
      have hended : (s.tile t.val).ended = false := he
      have hrest := hnoted.rest
      rw [hready.rest] at hrest
      have hopnds : (z.tile t.val).opnds = (u.tile t.val).opnds := by rw [hnoted.tile]
      have hb2n : ∀ {v : Bool} {f : Fld}, z.rd f = b2n v → z.on f = v := fun {v f} h => by
        unfold State.on
        rw [h]
        cases v <;> rfl
      refine ⟨z, ?_, ?_, ?_, ?_, fun j hj => ?_, ?_, ?_, hnoted.row, hnoted.col, hb2n hnoted.rows, hb2n hnoted.cols, hb2n hnoted.path, ?_, ?_,
        ?_, ?_, ?_, hready.caches_of (by rw [hnoted.rest])⟩
      · rw [exec_billetEnd, execBilletEnd, hz]
        exact State.done_of_eq hrest rfl rfl
      · rw [hopnds, hnoted.tile, hutile, hnow, hended]
        simp only [Bool.or_false]
        rfl
      · unfold Tile.opnd?
        rw [hopnds]
        exact (hfound hmem).1
      · unfold Tile.opnd?
        rw [hopnds]
        exact (hfound hmem).2
      · rw [hnoted.others j hj, hready.others j hj]
      · exact hb2n (v := true) hnoted.first
      · unfold State.on
        rw [hnoted.deferred, hutile, show u.rd (F.MXA_WIT_STATUS_DEFERRED t.val) = _ from hready.witness 1 1]
        change decide ((if (s.tile t.val).stopped then 1 else _) ≠ 0) = ((s.tile t.val).stopped || decide (_ ≠ 0))
        cases (s.tile t.val).stopped
        · rfl
        · rfl
      · have hbb : u.bb = s.bb := by rw [hready.rest]
        have hlc : u.lc = s.lc := lc_congr (hready.regs _ (by unfold R.LCS_STATUS R.MXA_STALL; omega))
        intro hal hlen
        have h := hnoted.log (by rw [hlc]; exact hal) (by rw [hbb]; exact hlen)
        rw [hbb] at h
        exact h
      · exact fun k h1 h2 h3 h4 h5 => (hnoted.regs k h1 h3 h4 h5).trans (hready.regs k h2)
      · rw [hrest]
      · rw [hrest]
      · rw [hrest]
  · have hne : src.val ≠ t.val := fun h => hsrc (Fin.ext h)
    refine ⟨(s.onTile src.val fun v => { v with sent := v.sent.erase p }).onTile t.val fun v => { v with early := v.early ++ [p] }, ?_, ?_, ?_,
      fun j h1 h2 => ?_, ?_⟩
    · rw [exec_splitKPartialArrival, execSplitKPartialArrival, partialArrival_waits hsent ho hdone hdeals hn]
      exact State.done_eq rfl rfl
    · rw [State.onTile_same, State.onTile_other _ _ _ hne.symm]
    · rw [State.onTile_other _ _ _ hne, State.onTile_same]
    · rw [State.onTile_other _ _ _ h1, State.onTile_other _ _ _ h2]
    · rfl
  · have hne : src.val ≠ t.val := fun h => hsrc (Fin.ext h)
    obtain ⟨hmem, hsrc', hrest⟩ := partialArrival_joined hne hsent ho hdone hdeals hdeal hbank hfor hd ha hsaved
    refine ⟨partialArrival t.val src.val s, ?_, ⟨_, hmem, hfor, hd, by simp only [joined], by simp only [joined]⟩, hsrc', ?_, ?_⟩
    · rw [exec_splitKPartialArrival, execSplitKPartialArrival]
      exact State.done_of_eq hrest rfl rfl
    · rw [hrest]
    · rw [hrest]

end

section
/-! SUPPORT. What the deals leave on tiles in no pair (R36, R37, R39): deal lists that hold their billets in the order in which they were
dealt. -/

namespace Sys2Proof.Machine

/-! ### Billets in their order -/

/-- Billets in the order of R37. -/
def Ordered (l : List Billet) : Prop := l.Pairwise fun a b => a.key ≤ b.key

/-- A billet that comes behind all others goes to the end. -/
theorem placeBillet_last {b : Billet} {l : List Billet} (h : ∀ a ∈ l, a.key ≤ b.key) : placeBillet b l = l ++ [b] := by
  induction l with
  | nil => rfl
  | cons a l ih =>
    have ha : ¬ b.key < a.key := Nat.not_lt.2 (h a List.mem_cons_self)
    rw [placeBillet, if_neg (by simp [ha]), ih fun x hx => h x (List.mem_cons_of_mem a hx)]
    rfl

theorem placeBillet_foldl_append {bs l : List Billet} (h : Ordered (l ++ bs)) : bs.foldl (fun l b => placeBillet b l) l = l ++ bs := by
  induction bs generalizing l with
  | nil => simp
  | cons b bs ih =>
    have hlast : ∀ a ∈ l, a.key ≤ b.key := fun a ha => (List.pairwise_append.1 h).2.2 a ha b List.mem_cons_self
    rw [List.foldl_cons, placeBillet_last hlast, ih (by rw [List.append_assoc]; exact h), List.append_assoc]
    rfl

/-- Billets that come behind all others, in their order, are appended. -/
theorem placeBillets_append {bs l : List Billet} (h : Ordered (l ++ bs)) : placeBillets bs l = l ++ bs := by
  cases l with
  | nil => exact placeBillet_foldl_append h
  | cons a l => exact congrArg (a :: ·) (placeBillet_foldl_append (List.Pairwise.of_cons h))

/-! ### A deal to a tile in no pair -/

section
variable {t : Nat} {s : State} (hp : s.paired t = false) (bs : List Billet)
include hp

theorem dealTo_unpaired : dealTo bs t s = syncTile t (s.onTile t fun x => { x with deal := placeBillets bs x.deal }) := by
  unfold dealTo State.pairOf
  rw [hp]
  rfl

theorem dealTo_deal : ((dealTo bs t s).tile t).deal = placeBillets bs (s.tile t).deal := by
  rw [dealTo_unpaired hp, syncTile_tile, State.onTile_same]

theorem dealTo_other {j : Nat} (hj : j ≠ t) : (dealTo bs t s).tile j = s.tile j := by
  rw [dealTo_unpaired hp, syncTile_tile, State.onTile_other _ _ _ hj]

end

/-- A deal leaves the contexts alone. -/
theorem dealTo_ctxs (bs : List Billet) (t : Nat) (s : State) : (dealTo bs t s).ctxs = s.ctxs := by
  unfold dealTo
  refine each_obs State.ctxs (fun u _ v => ?_) s
  exact (syncTile_regsOnly u _).obs fun _ _ => rfl

/-- A deal leaves the pairs alone. -/
theorem dealTo_paired (bs : List Billet) (t j : Nat) (s : State) : (dealTo bs t s).paired j = s.paired j := by
  unfold dealTo
  refine each_obs (fun v => v.paired j) (fun u _ v => ?_) s
  have hcfg : (syncTile u (v.onTile u fun x => { x with deal := placeBillets bs x.deal })).reg (R.MXA_CFG j) = v.reg (R.MXA_CFG j) :=
    syncTile_reg (by unfold R.MXA_CFG R.MXA_STATUS; omega) _
  unfold State.paired State.on
  rw [rd_of_reg (f := F.MXA_CFG_PAIR_EN j) hcfg]

/-- Billets dealt to tiles, list by list. -/
def dealList (l : List (List Billet × Nat)) (s : State) : State := each l (fun x s => dealTo x.1 x.2 s) s

/-- The billets of a list of deals that go to tile `u`. -/
def dealtTo (u : Nat) (l : List (List Billet × Nat)) : List Billet := (l.filter fun x => x.2 = u).flatMap (·.1)

theorem dealList_ctxs (l : List (List Billet × Nat)) (s : State) : (dealList l s).ctxs = s.ctxs :=
  each_obs State.ctxs (fun _ _ v => dealTo_ctxs _ _ v) s

/-- A tile in no pair holds, in their order, the billets that were dealt to it. -/
theorem dealList_deal {l : List (List Billet × Nat)} {s : State} (hp : ∀ x ∈ l, s.paired x.2 = false) {u : Nat}
    (hs : Ordered ((s.tile u).deal ++ dealtTo u l)) : ((dealList l s).tile u).deal = (s.tile u).deal ++ dealtTo u l := by
  induction l generalizing s with
  | nil => simp [dealList, each, dealtTo]
  | cons x l ih =>
    have hx := hp x List.mem_cons_self
    have hl : ∀ y ∈ l, (dealTo x.1 x.2 s).paired y.2 = false := fun y hy => by
      rw [dealTo_paired]
      exact hp y (List.mem_cons_of_mem x hy)
    have hcons : dealList (x :: l) s = dealList l (dealTo x.1 x.2 s) := rfl
    by_cases hu : x.2 = u
    · have htail : dealtTo u (x :: l) = x.1 ++ dealtTo u l := by simp [dealtTo, hu]
      rw [htail, ← List.append_assoc] at hs
      have hdeal : ((dealTo x.1 x.2 s).tile u).deal = (s.tile u).deal ++ x.1 := by
        subst hu
        rw [dealTo_deal hx, placeBillets_append (List.pairwise_append.1 hs).1]
      rw [hcons, ih hl (by rw [hdeal]; exact hs), hdeal, htail, List.append_assoc]
    · have htail : dealtTo u (x :: l) = dealtTo u l := by simp [dealtTo, hu]
      rw [htail] at hs
      have hdeal : ((dealTo x.1 x.2 s).tile u).deal = (s.tile u).deal := by rw [dealTo_other hx _ (Ne.symm hu)]
      rw [hcons, ih hl (by rw [hdeal]; exact hs), hdeal, htail]

/-- A tile that no deal of a list names is as before. -/
theorem dealList_other {l : List (List Billet × Nat)} {s : State} (hp : ∀ x ∈ l, s.paired x.2 = false) {u : Nat} (hu : ∀ x ∈ l, x.2 ≠ u) :
    (dealList l s).tile u = s.tile u := by
  induction l generalizing s with
  | nil => rfl
  | cons x l ih =>
    have hx := hp x List.mem_cons_self
    have hl : ∀ y ∈ l, (dealTo x.1 x.2 s).paired y.2 = false := fun y hy => by
      rw [dealTo_paired]
      exact hp y (List.mem_cons_of_mem x hy)
    have hcons : dealList (x :: l) s = dealList l (dealTo x.1 x.2 s) := rfl
    rw [hcons, ih hl fun y hy => hu y (List.mem_cons_of_mem x hy), dealTo_other hx _ (hu x List.mem_cons_self).symm]

/-- A walk that skips some members. -/
theorem each_filterMap {α β : Type} {F : α → State → State} {g : α → Option β} {f : β → State → State}
    (hsome : ∀ a b s, g a = some b → F a s = f b s) (hnone : ∀ a s, g a = none → F a s = s) (l : List α) (s : State) :
    each l F s = each (l.filterMap g) f s := by
  unfold each
  induction l generalizing s with
  | nil => rfl
  | cons a l ih =>
    rw [List.foldl_cons, ih, List.filterMap_cons]
    cases hg : g a with
    | none => rw [hnone a s hg]
    | some b => rw [hsome a b s hg]; rfl

/-! ### The order of an operation's billets -/

/-- The billets of a chain come span by span. -/
theorem chain_ordered (c : Nat) (o : Op) (home wave row col : Nat) : Ordered (chain c o home wave row col) := by
  unfold Ordered chain
  rw [List.pairwise_map]
  refine List.pairwise_lt_range.imp fun {i j} hij => ?_
  unfold Billet.key
  dsimp only
  split <;> omega

/-- The blocks of a quad come in the order of R37. -/
theorem quad_ordered (o : Op) {row col : Nat} (hr : row % 2 = 0) (hc : col % 2 = 0) :
    (quad o row col).Pairwise fun x y =>
      (if x.1 % 2 = 0 then x.2 % 2 else 3 - x.2 % 2) ≤ (if y.1 % 2 = 0 then y.2 % 2 else 3 - y.2 % 2) := by
  have h1 : (row + 1) % 2 = 1 := by omega
  have h2 : (col + 1) % 2 = 1 := by omega
  unfold quad
  refine List.Pairwise.filter _ ?_
  simp [hr, hc, h1, h2]

/-- The billets of a quad come span by span, each span in the order of R37. -/
theorem quadBillets_ordered (c : Nat) (o : Op) (home wave : Nat) {row col : Nat} (hr : row % 2 = 0) (hc : col % 2 = 0) :
    Ordered (quadBillets c o home wave (quad o row col)) := by
  unfold Ordered quadBillets
  rw [List.pairwise_flatMap]
  refine ⟨fun i _ => ?_, List.pairwise_lt_range.imp fun {i j} hij a ha b hb => ?_⟩
  · rw [List.pairwise_map]
    refine (quad_ordered o hr hc).imp fun {x y} h => ?_
    unfold Billet.key
    exact Nat.add_le_add_left h _
  · obtain ⟨x, -, rfl⟩ := List.mem_map.1 ha
    obtain ⟨y, -, rfl⟩ := List.mem_map.1 hb
    unfold Billet.key
    dsimp only
    split <;> split <;> omega

end Sys2Proof.Machine
end

section
/-! SUPPORT. The deal of blocks one per tile in turn, and of a block's spans over its tiles (R36, R39, R155). -/

namespace Sys2Proof.Machine

/-- An operation has at most 512 spans (R30). -/
theorem spans_lt (o : Op) : o.spans < 65536 := by
  have hk : o.k ≤ 2 ^ 20 := by
    unfold Op.k Op.w bits
    have := Nat.mod_lt (o.word (3 + 2) / 2 ^ 11) (y := 2 ^ (30 + 1 - 11)) (by decide)
    omega
  unfold Op.spans ceilDiv
  split
  · decide
  · omega

/-! ### Blocks one per tile in turn -/

/-- The chain of block number `b.2`, and the tile that it goes to. -/
def singleDeal (c : Nat) (o : Op) (ts : List Nat) (b : (Nat × Nat) × Nat) : Option (List Billet × Nat) :=
  ts[b.2 % ts.length]?.map fun t => (chain c o t (o.waves + b.2 / ts.length) b.1.1 b.1.2, t)

theorem dealSingles_eq (c : Nat) (o : Op) (bs : List (Nat × Nat)) (ts : List Nat) (s : State) : dealSingles c o bs ts s =
    dealList (bs.zipIdx.filterMap (singleDeal c o ts)) (newWaves c o.seq (ceilDiv bs.length ts.length) s) := by
  unfold dealSingles dealList
  refine each_filterMap (fun b x s hb => ?_) (fun b s hb => ?_) _ _
  · obtain ⟨t, ht, rfl⟩ := Option.map_eq_some_iff.1 hb
    simp only [ht]
  · simp only [Option.map_eq_none_iff.1 hb]

/-- The blocks that come to tile number `i`, each as one chain. -/
def turnChains (c : Nat) (o : Op) (n i t : Nat) (bs : List ((Nat × Nat) × Nat)) : List Billet :=
  (bs.filter fun x => x.2 % n = i).flatMap fun x => chain c o t (o.waves + x.2 / n) x.1.1 x.1.2

theorem dealtTo_singles {c : Nat} {o : Op} {ts : List Nat} (hts : ts.Nodup) {i t : Nat} (ht : ts[i]? = some t) (bs : List ((Nat × Nat) × Nat)) :
    dealtTo t (bs.filterMap (singleDeal c o ts)) = turnChains c o ts.length i t bs := by
  have hpos : 0 < ts.length := by
    obtain ⟨h, -⟩ := List.getElem?_eq_some_iff.1 ht
    omega
  unfold dealtTo turnChains
  induction bs with
  | nil => rfl
  | cons b bs ih =>
    have hlt : b.2 % ts.length < ts.length := Nat.mod_lt _ hpos
    obtain ⟨u, hu⟩ : ∃ u, ts[b.2 % ts.length]? = some u := ⟨_, List.getElem?_eq_getElem hlt⟩
    have hdeal : singleDeal c o ts b = some (chain c o u (o.waves + b.2 / ts.length) b.1.1 b.1.2, u) := by
      unfold singleDeal
      rw [hu]
      rfl
    rw [List.filterMap_cons, hdeal]
    by_cases h : b.2 % ts.length = i
    · have hut : u = t := by
        rw [h, ht] at hu
        exact (Option.some.inj hu).symm
      subst hut
      rw [List.filter_cons_of_pos (by simp), List.filter_cons_of_pos (by simpa using h), List.flatMap_cons, List.flatMap_cons, ih]
    · have hut : u ≠ t := fun e => h ((List.getElem?_inj hlt hts).1 (by rw [hu, ht, e]))
      rw [List.filter_cons_of_neg (by simpa using hut), List.filter_cons_of_neg (by simpa using h), ih]

/-- Numbers stand in their order. -/
theorem zipIdx_lt {α : Type} (l : List α) (n : Nat) : (l.zipIdx n).Pairwise fun x y => x.2 < y.2 := by
  have h : ((l.zipIdx n).map Prod.snd).Pairwise (· < ·) := by
    rw [List.zipIdx_map_snd]
    exact List.pairwise_lt_range'
  exact List.pairwise_map.1 h

/-- Chain after chain, a turn being a wave. -/
theorem turnChains_ordered (c : Nat) (o : Op) (n i t : Nat) (bs : List (Nat × Nat)) : Ordered (turnChains c o n i t bs.zipIdx) := by
  unfold Ordered turnChains
  rw [List.pairwise_flatMap]
  refine ⟨fun x _ => chain_ordered _ _ _ _ _ _, ?_⟩
  refine (List.Pairwise.and_mem.1 ((zipIdx_lt bs 0).filter _)).imp fun {x y} h a ha b hb => ?_
  obtain ⟨hx, hy, hxy⟩ := h
  have hxi : x.2 % n = i := by simpa using (List.mem_filter.1 hx).2
  have hyi : y.2 % n = i := by simpa using (List.mem_filter.1 hy).2
  have hwave : x.2 / n < y.2 / n := by
    have h1 := Nat.div_add_mod x.2 n
    have h2 := Nat.div_add_mod y.2 n
    by_contra hge
    have h3 := Nat.mul_le_mul_left n (Nat.not_lt.1 hge)
    omega
  have hspans := spans_lt o
  unfold chain at ha hb
  obtain ⟨j, hj, rfl⟩ := List.mem_map.1 ha
  obtain ⟨l, hl, rfl⟩ := List.mem_map.1 hb
  have hj := List.mem_range.1 hj
  unfold Billet.key
  dsimp only
  split <;> split <;> omega

/-- Each tile takes the blocks of its turns, each as one chain (R36). -/
theorem dealSingles_deal {c : Nat} {o : Op} {bs : List (Nat × Nat)} {ts : List Nat} (hts : ts.Nodup) {s : State}
    (hp : ∀ t ∈ ts, s.paired t = false) {i t : Nat} (ht : ts[i]? = some t) (hd : (s.tile t).deal = []) :
    ((dealSingles c o bs ts s).tile t).deal = turnChains c o ts.length i t bs.zipIdx := by
  rw [dealSingles_eq]
  have hdeal : ((newWaves c o.seq (ceilDiv bs.length ts.length) s).tile t).deal = [] := hd
  rw [dealList_deal]
  · rw [hdeal, dealtTo_singles hts ht]
    rfl
  · intro x hx
    obtain ⟨b, -, hb⟩ := List.mem_filterMap.1 hx
    obtain ⟨u, hu, rfl⟩ := Option.map_eq_some_iff.1 hb
    exact hp u (List.mem_of_getElem? hu)
  · rw [hdeal, dealtTo_singles hts ht]
    exact turnChains_ordered _ _ _ _ _ _

/-- The operation counts its turns, and no other operation changes. -/
theorem dealSingles_ctxs (c : Nat) (o : Op) (bs : List (Nat × Nat)) (ts : List Nat) (s : State) :
    (dealSingles c o bs ts s).ctxs = (newWaves c o.seq (ceilDiv bs.length ts.length) s).ctxs := by
  rw [dealSingles_eq, dealList_ctxs]

/-! ### A block's spans over its tiles -/

/-- The first span of tile number `i` of a block (R36; longer ranges first: log entry 12). -/
def splitStart (o : Op) (k i : Nat) : Nat := i * (o.spans / k) + min i (o.spans % k)

/-- The range of spans of tile number `i` of a block. -/
def splitRange (c : Nat) (o : Op) (b : Nat × Nat) (ts : List Nat) (i : Nat) : List Billet :=
  (List.range (splitStart o ts.length (i + 1) - splitStart o ts.length i)).map fun j =>
    { ctx := c, seq := o.seq, row := b.1, col := b.2, span := splitStart o ts.length i + j,
      last := decide (splitStart o ts.length i + j + 1 = splitStart o ts.length (i + 1)),
      home := ts.headD 0, wave := o.waves, away := o.spans - splitStart o ts.length 1 }

theorem dealSplit_eq (c : Nat) (o : Op) (b : Nat × Nat) (ts : List Nat) (s : State) : dealSplit c o b ts s =
    dealList (ts.zipIdx.map fun x => (splitRange c o b ts x.2, x.1)) s := by
  unfold dealSplit dealList each
  rw [List.foldl_map]
  rfl

theorem splitRange_ordered (c : Nat) (o : Op) (b : Nat × Nat) (ts : List Nat) (i : Nat) : Ordered (splitRange c o b ts i) := by
  unfold Ordered splitRange
  rw [List.pairwise_map]
  refine List.pairwise_lt_range.imp fun {x y} hxy => ?_
  unfold Billet.key
  dsimp only
  split <;> omega

/-- Of tiles that are named once, each takes its own range. -/
theorem dealtTo_split {c : Nat} {o : Op} {b : Nat × Nat} {ts : List Nat} (l : List Nat) (hl : l.Nodup) (n : Nat) {i t : Nat}
    (ht : l[i]? = some t) : dealtTo t ((l.zipIdx n).map fun x => (splitRange c o b ts x.2, x.1)) = splitRange c o b ts (n + i) := by
  unfold dealtTo
  induction l generalizing n i with
  | nil => cases ht
  | cons u l ih =>
    obtain ⟨hu, hl⟩ := List.nodup_cons.1 hl
    rw [List.zipIdx_cons, List.map_cons]
    cases i with
    | zero =>
      have hut : u = t := by simpa using ht
      have hrest : ((l.zipIdx (n + 1)).map fun x => (splitRange c o b ts x.2, x.1)).filter (fun x => decide (x.2 = t)) = [] := by
        refine List.filter_eq_nil_iff.2 fun x hx => ?_
        obtain ⟨y, hy, rfl⟩ := List.mem_map.1 hx
        have hmem : y.1 ∈ l := List.fst_mem_of_mem_zipIdx hy
        simp only [decide_eq_true_eq]
        exact fun h => hu (by rw [hut, ← h]; exact hmem)
      rw [List.filter_cons_of_pos (by simpa using hut), hrest]
      simp
    | succ i =>
      have ht' : l[i]? = some t := by simpa using ht
      have hne : u ≠ t := fun h => hu (h ▸ List.mem_of_getElem? ht')
      rw [List.filter_cons_of_neg (by simpa using hne), ih hl (n + 1) ht', Nat.add_assoc, Nat.add_comm 1 i]

section
variable {c : Nat} {o : Op} {b : Nat × Nat} {ts : List Nat} {s : State} (hp : ∀ t ∈ ts, s.paired t = false)
include hp

/-- Each of a block's tiles takes its range of spans (R36). -/
theorem dealSplit_deal (hts : ts.Nodup) {i t : Nat} (ht : ts[i]? = some t) (hd : (s.tile t).deal = []) :
    ((dealSplit c o b ts s).tile t).deal = splitRange c o b ts i := by
  have hdealt := dealtTo_split (c := c) (o := o) (b := b) (ts := ts) ts hts 0 ht
  rw [Nat.zero_add] at hdealt
  rw [dealSplit_eq, dealList_deal]
  · rw [hd, hdealt]
    rfl
  · intro x hx
    obtain ⟨y, hy, rfl⟩ := List.mem_map.1 hx
    exact hp _ (List.fst_mem_of_mem_zipIdx hy)
  · rw [hd, hdealt]
    exact splitRange_ordered _ _ _ _ _

/-- Other tiles are dealt nothing. -/
theorem dealSplit_other {t : Nat} (ht : t ∉ ts) : (dealSplit c o b ts s).tile t = s.tile t := by
  have hmem : ∀ x ∈ ts.zipIdx.map fun x => (splitRange c o b ts x.2, x.1), x.2 ∈ ts := fun x hx => by
    obtain ⟨y, hy, rfl⟩ := List.mem_map.1 hx
    exact List.fst_mem_of_mem_zipIdx hy
  rw [dealSplit_eq]
  exact dealList_other (fun x hx => hp _ (hmem x hx)) fun x hx h => ht (h ▸ hmem x hx)

end

theorem dealSplit_ctxs (c : Nat) (o : Op) (b : Nat × Nat) (ts : List Nat) (s : State) : (dealSplit c o b ts s).ctxs = s.ctxs := by
  rw [dealSplit_eq, dealList_ctxs]

theorem dealSplit_paired (c : Nat) (o : Op) (b : Nat × Nat) (ts : List Nat) (j : Nat) (s : State) :
    (dealSplit c o b ts s).paired j = s.paired j := by
  rw [dealSplit_eq]
  exact each_obs (fun v => v.paired j) (fun _ _ v => dealTo_paired _ _ _ v) s

end Sys2Proof.Machine
end

section
/-! SUPPORT. The deal of a wave of quads (R36, R37). -/

namespace Sys2Proof.Machine

/-! ### The quads of a wave -/

/-- The tile of a quad's grid position. -/
def quadTile (gs : List Nat) (x : Nat × Nat × Nat × Nat) : Nat := 8 * gs.getD x.1 0 + x.2.1

/-- A quad of a wave: its place in the grid, and its first block, which lies in an even row and column (R37). -/
theorem mem_waveQuads {o : Op} {g w : Nat} {x : Nat × Nat × Nat × Nat} (h : x ∈ waveQuads o g w) :
    x.1 < g ∧ x.2.1 < 8 ∧ x.2.2.1 % 2 = 0 ∧ x.2.2.2 % 2 = 0 := by
  unfold waveQuads at h
  obtain ⟨r, hr, h⟩ := List.mem_flatMap.1 h
  obtain ⟨k, hk, h⟩ := List.mem_filterMap.1 h
  dsimp only at h
  split at h
  · cases h
    have hrow : 2 * g * (w / ceilDiv o.cols 16) = 2 * (g * (w / ceilDiv o.cols 16)) := Nat.mul_assoc _ _ _
    refine ⟨List.mem_range.1 hr, List.mem_range.1 hk, ?_, ?_⟩
    · dsimp only
      rw [Nat.mul_comm (w / ceilDiv o.cols 16) (2 * g), hrow]
      omega
    · dsimp only
      omega
  · cases h

/-- A wave holds one quad for each place of the grid. -/
theorem waveQuads_places (o : Op) (g w : Nat) : (waveQuads o g w).Pairwise fun x y => x.1 ≠ y.1 ∨ x.2.1 ≠ y.2.1 := by
  unfold waveQuads
  rw [List.pairwise_flatMap]
  refine ⟨fun r _ => ?_, List.pairwise_lt_range.imp fun {r r'} hr x hx y hy => .inl ?_⟩
  · rw [List.pairwise_filterMap]
    refine List.pairwise_lt_range.imp fun {k k'} hk x hx y hy => .inr ?_
    dsimp only at hx hy
    split at hx
    · split at hy
      · cases hx; cases hy
        exact Nat.ne_of_lt hk
      · cases hy
    · cases hx
  · obtain ⟨k, -, hx⟩ := List.mem_filterMap.1 hx
    obtain ⟨k', -, hy⟩ := List.mem_filterMap.1 hy
    dsimp only at hx hy
    split at hx
    · split at hy
      · cases hx; cases hy
        exact Nat.ne_of_lt hr
      · cases hy
    · cases hx

/-- Quads of different places go to different tiles. -/
theorem quadTile_ne {gs : List Nat} (hgs : gs.Nodup) {x y : Nat × Nat × Nat × Nat} (hx : x.1 < gs.length ∧ x.2.1 < 8)
    (hy : y.1 < gs.length ∧ y.2.1 < 8) (h : x.1 ≠ y.1 ∨ x.2.1 ≠ y.2.1) : quadTile gs x ≠ quadTile gs y := by
  intro he
  unfold quadTile at he
  have hg : gs.getD x.1 0 = gs.getD y.1 0 := by omega
  rw [List.getD_eq_getElem _ _ hx.1, List.getD_eq_getElem _ _ hy.1] at hg
  have hr := (hgs.getElem_inj_iff).1 hg
  have hk : x.2.1 = y.2.1 := by omega
  exact h.elim (· hr) (· hk)

/-- The tile of a quad lies in the partition. -/
theorem quadTile_mem {s : State} {p : Nat} {x : Nat × Nat × Nat × Nat} (hx : x.1 < (s.groupsOf p).length ∧ x.2.1 < 8) :
    quadTile (s.groupsOf p) x ∈ s.tilesOf p := by
  unfold quadTile State.tilesOf
  rw [List.getD_eq_getElem _ _ hx.1]
  exact List.mem_flatMap.2 ⟨_, List.getElem_mem hx.1, List.mem_map.2 ⟨_, List.mem_range.2 hx.2, rfl⟩⟩

/-! ### The deal of a quad -/

/-- One quad of a wave: dealt to its tile, or held back where that tile is absent (R37). -/
def dealQuad (c : Nat) (o : Op) (gs : List Nat) (x : Nat × Nat × Nat × Nat) (s : State) : State :=
  if s.deals (quadTile gs x) then
    dealTo (quadBillets c o (quadTile gs x) o.waves (quad o x.2.2.1 x.2.2.2)) (quadTile gs x) s
  else s.onOp c o.seq fun o' => { o' with heldQ := o'.heldQ ++ [quad o x.2.2.1 x.2.2.2] }

theorem dealWave_eq (c : Nat) (o : Op) (p w : Nat) (s : State) : dealWave c o p w s =
    each (waveQuads o (s.groupsOf p).length w) (dealQuad c o (s.groupsOf p)) (newWaves c o.seq 1 s) := rfl

/-- What the deal of other quads leaves: a tile's deal list, and the operation, to which quads held back are added. -/
structure QuadStep (c q t : Nat) (s s' : State) : Prop where
  deals : ∀ j, s'.deals j = s.deals j
  paired : ∀ j, s'.paired j = s.paired j
  deal : (s'.tile t).deal = (s.tile t).deal
  op : ∀ o, s.op? c q = some o → ∃ o', s'.op? c q = some o' ∧ o'.deal = o.deal ∧ o'.dealt = o.dealt ∧ ∀ x ∈ o.heldQ, x ∈ o'.heldQ

section
variable {c q t : Nat}

theorem QuadStep.refl (s : State) : QuadStep c q t s s := ⟨fun _ => rfl, fun _ => rfl, rfl, fun o h => ⟨o, h, rfl, rfl, fun _ h => h⟩⟩

theorem QuadStep.trans {a b d : State} (h : QuadStep c q t a b) (h' : QuadStep c q t b d) : QuadStep c q t a d where
  deals j := (h'.deals j).trans (h.deals j)
  paired j := (h'.paired j).trans (h.paired j)
  deal := h'.deal.trans h.deal
  op o ho := by
    obtain ⟨o', ho', hd, hn, hq⟩ := h.op o ho
    obtain ⟨o'', ho'', hd', hn', hq'⟩ := h'.op o' ho'
    exact ⟨o'', ho'', hd'.trans hd, hn'.trans hn, fun x hx => hq' x (hq x hx)⟩

theorem op?_of_ctxs {s s' : State} (h : s'.ctxs = s.ctxs) (c q : Nat) : s'.op? c q = s.op? c q := by
  unfold State.op? State.ctx
  rw [h]

/-- A quad held back stands with the operation. -/
theorem heldBack_op {s : State} {o : Op} (ho : s.op? c q = some o) (bs : List (Nat × Nat)) :
    (s.onOp c q fun o' => { o' with heldQ := o'.heldQ ++ [bs] }).op? c q = some { o with heldQ := o.heldQ ++ [bs] } :=
  op?_onOp_same (f := fun o' => { o' with heldQ := o'.heldQ ++ [bs] }) (fun _ => rfl) ho

/-- A quad of another tile. -/
theorem dealQuad_step {o : Op} (ho : o.seq = q) {gs : List Nat} {x : Nat × Nat × Nat × Nat} (ht : quadTile gs x ≠ t)
    (hlt : quadTile gs x < 256) {s : State} (hp : s.paired (quadTile gs x) = false) : QuadStep c q t s (dealQuad c o gs x s) := by
  subst ho
  unfold dealQuad
  split
  · rename_i hd
    have hstep := dealTo_step (quadBillets_isOf (c := c) o (quadTile gs x) o.waves (quad o x.2.2.1 x.2.2.2)) hlt hd
    refine ⟨hstep.deals, fun j => dealTo_paired _ _ j s, ?_, fun o' ho' => ⟨o', ?_, rfl, rfl, fun _ h => h⟩⟩
    · rw [dealTo_other hp _ (Ne.symm ht)]
    · rw [op?_of_ctxs (dealTo_ctxs _ _ s), ho']
  · exact ⟨fun _ => rfl, fun _ => rfl, rfl, fun o' ho' => ⟨_, heldBack_op ho' _, rfl, rfl, fun y hy => List.mem_append_left _ hy⟩⟩

/-- The quad of a tile in a wave: dealt in the order of R37, or held back. -/
theorem dealWave_quad {o o₁ : Op} {p w : Nat} {s : State} (ho : o.seq = q) (hop : s.op? c q = some o₁) (hp : ∀ u ∈ s.tilesOf p, s.paired u = false)
    {x : Nat × Nat × Nat × Nat} (hx : x ∈ waveQuads o (s.groupsOf p).length w) (hd : (s.tile (quadTile (s.groupsOf p) x)).deal = []) :
    ∃ o', (dealWave c o p w s).op? c q = some o' ∧ o'.deal = o₁.deal ∧ o'.dealt = o₁.dealt ∧
      if s.deals (quadTile (s.groupsOf p) x) then ((dealWave c o p w s).tile (quadTile (s.groupsOf p) x)).deal =
        quadBillets c o (quadTile (s.groupsOf p) x) o.waves (quad o x.2.2.1 x.2.2.2)
      else quad o x.2.2.1 x.2.2.2 ∈ o'.heldQ := by
  subst ho
  have hplace : ∀ y ∈ waveQuads o (s.groupsOf p).length w, y.1 < (s.groupsOf p).length ∧ y.2.1 < 8 := fun y hy =>
    ⟨(mem_waveQuads hy).1, (mem_waveQuads hy).2.1⟩
  obtain ⟨l₁, l₂, hl⟩ := List.append_of_mem hx
  have hpairs := waveQuads_places o (s.groupsOf p).length w
  rw [dealWave_eq]
  rw [hl] at hpairs hplace ⊢
  obtain ⟨-, hrest, hleft⟩ := List.pairwise_append.1 hpairs
  have hright := (List.pairwise_cons.1 hrest).1
  have hgs := groupsOf_nodup s p
  generalize hg : s.groupsOf p = gs at *
  have hmem : ∀ y : Nat × Nat × Nat × Nat, y.1 < gs.length ∧ y.2.1 < 8 → quadTile gs y ∈ s.tilesOf p := fun y hy => by
    have h := quadTile_mem (s := s) (p := p) (x := y) (by rw [hg]; exact hy)
    rw [hg] at h
    exact h
  have hxp := hplace x (by simp)
  have hwalk : ∀ (l : List (Nat × Nat × Nat × Nat)) (v : State), (∀ y ∈ l, y ∈ l₁ ++ x :: l₂ ∧ (x.1 ≠ y.1 ∨ x.2.1 ≠ y.2.1)) →
      (∀ j, v.paired j = s.paired j) → QuadStep c o.seq (quadTile gs x) v (each l (dealQuad c o gs) v) := fun l v hy hv =>
    each_rel_pre (QuadStep c o.seq (quadTile gs x)) (fun y v => v.paired (quadTile gs y) = false) .refl (fun _ _ _ => .trans)
      (fun y _ _ h hp => (h.paired _).trans hp)
      (fun y hyl v hyp => dealQuad_step rfl (quadTile_ne hgs (hplace y (hy y hyl).1) hxp ((hy y hyl).2.imp Ne.symm Ne.symm))
        (by have := tilesOf_lt (hmem y (hplace y (hy y hyl).1)); omega) hyp)
      fun y hyl => (hv _).trans (hp _ (hmem y (hplace y (hy y hyl).1)))
  have heach : each (l₁ ++ x :: l₂) (dealQuad c o gs) (newWaves c o.seq 1 s) =
      each l₂ (dealQuad c o gs) (dealQuad c o gs x (each l₁ (dealQuad c o gs) (newWaves c o.seq 1 s))) := by
    unfold each
    rw [List.foldl_append, List.foldl_cons]
  have hwaves : (newWaves c o.seq 1 s).op? c o.seq = some { o₁ with waves := o₁.waves + 1 } :=
    op?_onOp_same (f := fun o => { o with waves := o.waves + 1 }) (fun _ => rfl) hop
  have hfirst := hwalk l₁ (newWaves c o.seq 1 s) (fun y hy => ⟨by simp [hy], (hleft y hy x List.mem_cons_self).imp Ne.symm Ne.symm⟩) fun _ => rfl
  rw [heach]
  generalize each l₁ (dealQuad c o gs) (newWaves c o.seq 1 s) = u at *
  obtain ⟨o₂, ho₂, hdeal₂, hdealt₂, -⟩ := hfirst.op _ hwaves
  have hup : u.paired (quadTile gs x) = false := (hfirst.paired _).trans (hp _ (hmem x hxp))
  have hud : (u.tile (quadTile gs x)).deal = [] := hfirst.deal.trans hd
  have hdeals : u.deals (quadTile gs x) = s.deals (quadTile gs x) := hfirst.deals _
  have hmid : (∀ j, (dealQuad c o gs x u).paired j = s.paired j) ∧ ∃ o₃, (dealQuad c o gs x u).op? c o.seq = some o₃ ∧ o₃.deal = o₁.deal ∧
      o₃.dealt = o₁.dealt ∧ if s.deals (quadTile gs x) then
        ((dealQuad c o gs x u).tile (quadTile gs x)).deal = quadBillets c o (quadTile gs x) o.waves (quad o x.2.2.1 x.2.2.2)
      else quad o x.2.2.1 x.2.2.2 ∈ o₃.heldQ := by
    unfold dealQuad
    rw [hdeals]
    cases hcase : s.deals (quadTile gs x) with
    | true =>
      have heven := mem_waveQuads hx
      simp only [if_true]
      refine ⟨fun j => (dealTo_paired _ _ j u).trans (hfirst.paired j), o₂, ?_, hdeal₂, hdealt₂, ?_⟩
      · rw [op?_of_ctxs (dealTo_ctxs _ _ u), ho₂]
      · rw [dealTo_deal hup, hud]
        exact placeBillets_append (l := []) (quadBillets_ordered c o _ _ heven.2.2.1 heven.2.2.2)
    | false =>
      simp only [Bool.false_eq_true, if_false]
      exact ⟨hfirst.paired, _, heldBack_op ho₂ _, hdeal₂, hdealt₂, List.mem_append_right _ (List.mem_singleton.2 rfl)⟩
  obtain ⟨hpaired, o₃, ho₃, hdeal₃, hdealt₃, hquad⟩ := hmid
  have hlast := hwalk l₂ (dealQuad c o gs x u) (fun y hy => ⟨by simp [hy], hright y hy⟩) hpaired
  obtain ⟨o', ho', hdeal', hdealt', hheld'⟩ := hlast.op _ ho₃
  refine ⟨o', ho', hdeal'.trans hdeal₃, hdealt'.trans hdealt₃, ?_⟩
  split
  · rename_i hcase
    rw [if_pos hcase] at hquad
    exact hlast.deal.trans hquad
  · rename_i hcase
    rw [if_neg hcase] at hquad
    exact hheld' _ hquad

end

end Sys2Proof.Machine
end

section
/-! SUPPORT. The first deal of an operation, case by case (R36, R155), on a partition of tiles in no pair that hold nothing. -/

namespace Sys2Proof.Machine

/-- An operation that is dealt for the first time, on a partition of tiles in no pair that hold nothing. -/
structure FirstDeal (c q : Nat) (o : Op) (s : State) : Prop where
  op : s.op? c q = some o
  started : o.started = true
  undone : o.done = none
  tilesThere : 0 < (s.dealTiles (s.partOf c)).length
  blocks : 0 < o.rows * o.cols
  undealt : o.deal = 0 ∧ o.dealt = 0
  chains : ∀ x ∈ (s.ctx c).chains, x.seq ≠ q
  holds : s.holds c = true
  tiles : ∀ t ∈ s.tilesOf (s.partOf c), (s.tile t).deal = [] ∧ (s.tile t).banks = [] ∧ (s.tile t).ftq = [] ∧ (s.tile t).stopped = false ∧
    s.paired t = false

/-- The deal of single blocks changes the operation's count of waves alone. -/
theorem dealSingles_op {c q : Nat} {o o₁ : Op} (ho : o.seq = q) {s : State} (h : s.op? c q = some o₁) (bs : List (Nat × Nat)) (ts : List Nat) :
    ∃ w, (dealSingles c o bs ts s).op? c q = some { o₁ with waves := w } := by
  subst ho
  exact ⟨_, (op?_of_ctxs (dealSingles_ctxs c o bs ts s) c o.seq).trans
    (op?_onOp_same (f := fun x => { x with waves := x.waves + ceilDiv bs.length ts.length }) (fun _ => rfl) h)⟩

/-- The tiles that a partition's deals name are named once. -/
theorem dealTiles_nodup (s : State) (p : Nat) : (s.dealTiles p).Nodup := (tilesOf_nodup s p).filter _

section
variable {c q : Nat} {o : Op} {s : State} (h : FirstDeal c q o s)
include h

theorem FirstDeal.seq : o.seq = q := seq_of_op? h.op

theorem FirstDeal.unpaired : ∀ t ∈ s.dealTiles (s.partOf c), s.paired t = false := fun t ht => (h.tiles t (dealTiles_mem ht).1).2.2.2.2

/-- The operation behind the choice of its case. -/
theorem FirstDeal.chosen (k : Nat) : (s.onOp c q fun o => { o with deal := k }).op? c q = some { o with deal := k } :=
  op?_onOp_same (f := fun o => { o with deal := k }) (fun _ => rfl) h.op

/-- Nothing of the operation is dealt or saved yet. -/
theorem FirstDeal.idle : s.dealing c q (s.partOf c) = false := by
  unfold State.dealing
  rw [Bool.or_eq_false_iff]
  refine ⟨?_, ?_⟩
  · rw [List.any_eq_false]
    intro t ht
    rw [(h.tiles t ht).1]
    simp
  · rw [List.any_eq_false]
    intro x hx
    simpa using h.chains x hx

/-- There is a tile, and nothing has been dealt. -/
theorem FirstDeal.fresh : ¬ (decide ((s.dealTiles (s.partOf c)).length = 0) || decide (o.deal ≠ 0)) = true := by
  have hn := h.tilesThere
  have hd := h.undealt.1
  rw [Bool.or_eq_true, decide_eq_true_eq, decide_eq_true_eq]
  omega

/-! ### Waves of quads -/

/-- A partition with a tile has a group. -/
theorem FirstDeal.groups : 0 < (s.groupsOf (s.partOf c)).length := by
  obtain ⟨t, ht⟩ := List.exists_mem_of_length_pos h.tilesThere
  have hmem := (dealTiles_mem ht).1
  unfold State.tilesOf at hmem
  obtain ⟨g, hg, -⟩ := List.mem_flatMap.1 hmem
  exact List.length_pos_of_mem hg

/-- An operation with a block has a wave. -/
theorem FirstDeal.wave : 0 < waveCount o (s.groupsOf (s.partOf c)).length := by
  have hg := h.groups
  have hrows : 0 < o.rows := Nat.pos_of_mul_pos_right h.blocks
  have hcols : 0 < o.cols := Nat.pos_of_mul_pos_left h.blocks
  unfold waveCount ceilDiv
  refine Nat.mul_pos (Nat.div_pos ?_ ?_) (Nat.div_pos ?_ ?_) <;> omega

/-- The state in which the first wave is dealt. -/
def waveChosen (c q : Nat) (s : State) : State :=
  (s.onOp c q fun o => { o with deal := 1 }).onOp c q fun o => { o with dealt := o.dealt + 1 }

theorem FirstDeal.firstDeal_waves (hk : o.kind = 1) (hb : 4 * (s.dealTiles (s.partOf c)).length ≤ o.rows * o.cols) :
    firstDeal c q s = dealWave c { o with deal := 1 } (s.partOf c) 0 (waveChosen c q s) := by
  have hn := h.tilesThere
  have hts : (s.dealTiles (s.partOf c)).isEmpty = false := by
    rw [List.isEmpty_eq_false_iff]
    exact List.ne_nil_of_length_pos hn
  have hmore : dealMore c q (s.onOp c q fun o => { o with deal := 1 }) =
      dealWave c { o with deal := 1 } (s.partOf c) 0 (waveChosen c q s) := by
    have hidle : (s.onOp c q fun o => { o with deal := 1 }).dealing c q (s.partOf c) = false := by
      have hchains : ((s.onOp c q fun o => { o with deal := 1 }).ctx c).chains = (s.ctx c).chains := by
        unfold State.onOp
        rw [State.onCtx_same]
      rw [← h.idle]
      unfold State.dealing
      rw [hchains]
      rfl
    have hts' : ((s.onOp c q fun o => { o with deal := 1 }).dealTiles (s.partOf c)).isEmpty = false := hts
    have hholds : (s.onOp c q fun o => { o with deal := 1 }).holds c = true := h.holds
    unfold dealMore
    rw [h.chosen]
    dsimp only
    rw [show (s.onOp c q fun o => { o with deal := 1 }).partOf c = s.partOf c from rfl, hidle, hts', hholds, h.undone, h.started, h.undealt.2]
    rw [if_neg (by simp), if_pos (by rw [Bool.and_eq_true]; exact ⟨rfl, decide_eq_true h.wave⟩)]
    rfl
  unfold firstDeal
  rw [h.op]
  dsimp only
  rw [if_neg h.fresh, if_pos (by simp [hk, hb]), hmore]

/-- With four blocks or more per tile, each tile of the grid takes its quad of the first wave, or the quad is held back (R36, R37). -/
theorem FirstDeal.waves (hk : o.kind = 1) (hb : 4 * (s.dealTiles (s.partOf c)).length ≤ o.rows * o.cols) {x : Nat × Nat × Nat × Nat}
    (hx : x ∈ waveQuads o (s.groupsOf (s.partOf c)).length 0) :
    ∃ o', (firstDeal c q s).op? c q = some o' ∧ o'.deal = 1 ∧ o'.dealt = 1 ∧
      if s.deals (quadTile (s.groupsOf (s.partOf c)) x) then ((firstDeal c q s).tile (quadTile (s.groupsOf (s.partOf c)) x)).deal =
        quadBillets c o (quadTile (s.groupsOf (s.partOf c)) x) o.waves (quad o x.2.2.1 x.2.2.2)
      else quad o x.2.2.1 x.2.2.2 ∈ o'.heldQ := by
  have hop : (waveChosen c q s).op? c q = some { o with deal := 1, dealt := 1 } := by
    unfold waveChosen
    rw [op?_onOp_same (f := fun o => { o with dealt := o.dealt + 1 }) (fun _ => rfl) (h.chosen 1)]
    dsimp only
    rw [h.undealt.2]
  have hplace : x.1 < (s.groupsOf (s.partOf c)).length ∧ x.2.1 < 8 := ⟨(mem_waveQuads hx).1, (mem_waveQuads hx).2.1⟩
  rw [h.firstDeal_waves hk hb]
  exact dealWave_quad (o := { o with deal := 1 }) (p := s.partOf c) (w := 0) (s := waveChosen c q s) h.seq hop
    (fun u hu => (h.tiles u hu).2.2.2.2) hx (h.tiles _ (quadTile_mem hplace)).1

/-! ### Blocks one per tile -/

theorem FirstDeal.firstDeal_singles
    (hc : o.kind = 2 ∨ ((s.dealTiles (s.partOf c)).length ≤ o.rows * o.cols ∧ o.rows * o.cols < 4 * (s.dealTiles (s.partOf c)).length)) :
    firstDeal c q s = dealSingles c o (allBlocks o) (s.dealTiles (s.partOf c)) (s.onOp c q fun o => { o with deal := 2 }) := by
  unfold firstDeal
  rw [h.op]
  dsimp only
  rw [if_neg h.fresh, if_neg, if_pos]
  · rcases hc with h | h
    · simp [h]
    · simp [h.1]
  · rcases hc with h | h
    · simp [h]
    · simp [h.2]

/-- With one to four blocks per tile, and for a VECTOR, each tile takes the blocks of its turns, each as one chain (R36, R155). -/
theorem FirstDeal.singles
    (hc : o.kind = 2 ∨ ((s.dealTiles (s.partOf c)).length ≤ o.rows * o.cols ∧ o.rows * o.cols < 4 * (s.dealTiles (s.partOf c)).length)) :
    (∃ w, (firstDeal c q s).op? c q = some { o with deal := 2, waves := w }) ∧ ∀ i t, (s.dealTiles (s.partOf c))[i]? = some t →
      ((firstDeal c q s).tile t).deal = turnChains c o (s.dealTiles (s.partOf c)).length i t (allBlocks o).zipIdx := by
  rw [h.firstDeal_singles hc]
  refine ⟨dealSingles_op h.seq (h.chosen 2) _ _, fun i t ht => ?_⟩
  have hempty : (s.tile t).deal = [] := (h.tiles t (dealTiles_mem (List.mem_of_getElem? ht)).1).1
  exact dealSingles_deal (s := s.onOp c q fun o => { o with deal := 2 }) (dealTiles_nodup _ _) h.unpaired ht hempty

end

end Sys2Proof.Machine
end

section
/-! SUPPORT. The deal of fewer blocks than tiles: the spans of each block over its tiles (R36, R39). -/

namespace Sys2Proof.Machine

/-! ### The tiles of a block -/

/-- The tiles of block number `i`, `k` to a block. -/
def blockTiles (ts : List Nat) (k i : Nat) : List Nat := (ts.drop (i * k)).take k

theorem blockTiles_mem {ts : List Nat} {k i t : Nat} (h : t ∈ blockTiles ts k i) : t ∈ ts := List.mem_of_mem_drop (List.mem_of_mem_take h)

theorem blockTiles_nodup {ts : List Nat} (h : ts.Nodup) (k i : Nat) : (blockTiles ts k i).Nodup :=
  h.sublist ((List.take_sublist _ _).trans (List.drop_sublist _ _))

theorem blockTiles_get {ts : List Nat} {k i j t : Nat} (h : (blockTiles ts k i)[j]? = some t) : j < k ∧ ts[i * k + j]? = some t := by
  unfold blockTiles at h
  rw [List.getElem?_take] at h
  split at h
  · rename_i hj
    rw [List.getElem?_drop] at h
    exact ⟨hj, h⟩
  · cases h

/-- No tile serves two blocks. -/
theorem blockTiles_apart {ts : List Nat} (hts : ts.Nodup) {k i i' t : Nat} (hi : t ∈ blockTiles ts k i) (hi' : t ∈ blockTiles ts k i') :
    i = i' := by
  obtain ⟨j, hj⟩ := List.mem_iff_getElem?.1 hi
  obtain ⟨j', hj'⟩ := List.mem_iff_getElem?.1 hi'
  obtain ⟨hjk, hget⟩ := blockTiles_get hj
  obtain ⟨hjk', hget'⟩ := blockTiles_get hj'
  have hlt : i * k + j < ts.length := (List.getElem?_eq_some_iff.1 hget).1
  have heq : i * k + j = i' * k + j' := (List.getElem?_inj hlt hts).1 (hget.trans hget'.symm)
  have hdiv : ∀ a b, b < k → (a * k + b) / k = a := fun a b hb => by
    rw [Nat.mul_comm, Nat.mul_add_div (by omega), Nat.div_eq_of_lt hb, Nat.add_zero]
  rw [← hdiv i j hjk, heq, hdiv i' j' hjk']

/-! ### The deal of every block -/

/-- Every block over its tiles. -/
def dealBlocks (c : Nat) (o : Op) (ts : List Nat) (k : Nat) (l : List ((Nat × Nat) × Nat)) (s : State) : State :=
  each l (fun x s => dealSplit c o x.1 (blockTiles ts k x.2) s) s

section
variable {c : Nat} {o : Op} {ts : List Nat} {k : Nat}

theorem dealBlocks_ctxs (l : List ((Nat × Nat) × Nat)) (s : State) : (dealBlocks c o ts k l s).ctxs = s.ctxs :=
  each_obs State.ctxs (fun _ _ v => dealSplit_ctxs _ _ _ _ v) s

/-- Tiles of no block are dealt nothing. -/
theorem dealBlocks_other {l : List ((Nat × Nat) × Nat)} {s : State} (hp : ∀ t ∈ ts, s.paired t = false) {t : Nat}
    (ht : ∀ x ∈ l, t ∉ blockTiles ts k x.2) : (dealBlocks c o ts k l s).tile t = s.tile t := by
  unfold dealBlocks each
  induction l generalizing s with
  | nil => rfl
  | cons x l ih =>
    rw [List.foldl_cons, ih (fun u hu => (dealSplit_paired _ _ _ _ _ _).trans (hp u hu)) fun y hy => ht y (List.mem_cons_of_mem x hy),
      dealSplit_other (fun u hu => hp u (blockTiles_mem hu)) (ht x List.mem_cons_self)]

/-- Each tile of a block takes its range of the block's spans (R36). -/
theorem dealBlocks_deal {l : List ((Nat × Nat) × Nat)} (hl : l.Pairwise fun x y => x.2 ≠ y.2) {s : State} (hts : ts.Nodup)
    (hp : ∀ t ∈ ts, s.paired t = false) {x : (Nat × Nat) × Nat} (hx : x ∈ l) {j t : Nat} (ht : (blockTiles ts k x.2)[j]? = some t)
    (hd : (s.tile t).deal = []) : ((dealBlocks c o ts k l s).tile t).deal = splitRange c o x.1 (blockTiles ts k x.2) j := by
  have hmem : t ∈ blockTiles ts k x.2 := List.mem_of_getElem? ht
  unfold dealBlocks each
  induction l generalizing s with
  | nil => cases hx
  | cons y l ih =>
    obtain ⟨hy, hl⟩ := List.pairwise_cons.1 hl
    have hp' : ∀ u ∈ ts, (dealSplit c o y.1 (blockTiles ts k y.2) s).paired u = false := fun u hu =>
      (dealSplit_paired _ _ _ _ _ _).trans (hp u hu)
    have hpy : ∀ u ∈ blockTiles ts k y.2, s.paired u = false := fun u hu => hp u (blockTiles_mem hu)
    rw [List.foldl_cons]
    rcases List.mem_cons.1 hx with rfl | hx
    · have hrest := dealBlocks_other (c := c) (o := o) (k := k) (l := l) hp' (t := t) fun z hz hzt => hy z hz (blockTiles_apart hts hmem hzt)
      unfold dealBlocks each at hrest
      rw [hrest]
      exact dealSplit_deal hpy (blockTiles_nodup hts _ _) ht hd
    · refine ih hl hp' hx ?_
      rw [dealSplit_other hpy fun h => hy x hx (blockTiles_apart hts h hmem)]
      exact hd

end

/-! ### Ranges of spans -/

theorem splitStart_succ (o : Op) (k i : Nat) :
    splitStart o k i + o.spans / k ≤ splitStart o k (i + 1) ∧ splitStart o k (i + 1) ≤ splitStart o k i + o.spans / k + 1 := by
  unfold splitStart
  rw [Nat.add_mul, Nat.one_mul]
  omega

theorem splitStart_all (o : Op) {k : Nat} (hk : 0 < k) : splitStart o k k = o.spans := by
  unfold splitStart
  rw [Nat.min_eq_right (Nat.le_of_lt (Nat.mod_lt _ hk))]
  exact Nat.div_add_mod _ _

/-- Ranges that follow one another make up the whole. -/
theorem ranges_join {start : Nat → Nat} (h0 : start 0 = 0) (hs : ∀ i, start i ≤ start (i + 1)) (k : Nat) :
    ((List.range k).flatMap fun i => (List.range (start (i + 1) - start i)).map (start i + ·)) = List.range (start k) := by
  induction k with
  | zero => rw [h0]; rfl
  | succ k ih =>
    rw [List.range_succ, List.flatMap_append, ih, List.flatMap_singleton, ← List.range_add, Nat.add_sub_cancel' (hs k)]

/-- A list walked through by number. -/
theorem flatMap_numbered {α β : Type} (l : List α) (f : α → List β) (g : Nat → List β) (h : ∀ i a, l[i]? = some a → f a = g i) :
    l.flatMap f = (List.range l.length).flatMap g := by
  induction l using List.reverseRecOn with
  | nil => rfl
  | append_singleton l a ih =>
    rw [List.flatMap_append, List.length_append, List.length_singleton, List.range_succ, List.flatMap_append, List.flatMap_singleton,
      List.flatMap_singleton, h l.length a (by simp), ih fun i b hi => h i b (by rw [List.getElem?_append_left (List.getElem?_eq_some_iff.1 hi).1]; exact hi)]

/-- A tile's range of spans, and how long it is. -/
theorem splitRange_length (c : Nat) (o : Op) (b : Nat × Nat) (ts : List Nat) (i : Nat) :
    o.spans / ts.length ≤ (splitRange c o b ts i).length ∧ (splitRange c o b ts i).length ≤ o.spans / ts.length + 1 := by
  have h := splitStart_succ o ts.length i
  unfold splitRange
  rw [List.length_map, List.length_range]
  generalize o.spans / ts.length = e at *
  omega

/-- What identifies the billets of a range. -/
theorem splitRange_spans (c : Nat) (o : Op) (b : Nat × Nat) (ts : List Nat) (i : Nat) :
    ((splitRange c o b ts i).map fun y => (y.row, y.col, y.span, y.home)) =
      ((List.range (splitStart o ts.length (i + 1) - splitStart o ts.length i)).map (splitStart o ts.length i + ·)).map
        fun j => (b.1, b.2, j, ts.headD 0) := by
  unfold splitRange
  rw [List.map_map, List.map_map]
  rfl

/-! ### The case of R36 -/

/-- How many tiles a block has (R36). -/
def tilesPer (c : Nat) (o : Op) (s : State) : Nat := min o.spans ((s.dealTiles (s.partOf c)).length / (o.rows * o.cols))

/-- A block has that many tiles. -/
theorem tilesPer_length {c : Nat} {o : Op} {s : State} {i : Nat} (hi : i < o.rows * o.cols) :
    (blockTiles (s.dealTiles (s.partOf c)) (tilesPer c o s) i).length = tilesPer c o s := by
  have hle : tilesPer c o s ≤ (s.dealTiles (s.partOf c)).length / (o.rows * o.cols) := Nat.min_le_right _ _
  have hall : o.rows * o.cols * tilesPer c o s ≤ (s.dealTiles (s.partOf c)).length :=
    (Nat.mul_le_mul_left _ hle).trans (Nat.mul_div_le _ _)
  have hmine : (i + 1) * tilesPer c o s ≤ o.rows * o.cols * tilesPer c o s := Nat.mul_le_mul_right _ hi
  rw [Nat.add_mul, Nat.one_mul] at hmine
  unfold blockTiles
  rw [List.length_take, List.length_drop]
  omega

section
variable {c q : Nat} {o : Op} {s : State} (h : FirstDeal c q o s)
include h

theorem FirstDeal.firstDeal_split (hk : o.kind = 1) (hb : o.rows * o.cols < (s.dealTiles (s.partOf c)).length) :
    firstDeal c q s = dealBlocks c o (s.dealTiles (s.partOf c)) (tilesPer c o s) (allBlocks o).zipIdx
      (newWaves c q 1 (s.onOp c q fun o => { o with deal := 3 })) := by
  unfold firstDeal
  rw [h.op]
  dsimp only
  rw [if_neg h.fresh, if_neg, if_neg]
  · rfl
  · simp [hk]; omega
  · simp; omega

/-- With fewer blocks than tiles, each block has its tiles, and each of those a range of the block's spans (R36). -/
theorem FirstDeal.split (hk : o.kind = 1) (hb : o.rows * o.cols < (s.dealTiles (s.partOf c)).length) :
    (∃ o', (firstDeal c q s).op? c q = some o' ∧ o'.deal = 3) ∧ ∀ i x, (allBlocks o)[i]? = some x →
      ∀ j t, (blockTiles (s.dealTiles (s.partOf c)) (tilesPer c o s) i)[j]? = some t →
        ((firstDeal c q s).tile t).deal = splitRange c o x (blockTiles (s.dealTiles (s.partOf c)) (tilesPer c o s) i) j := by
  rw [h.firstDeal_split hk hb]
  refine ⟨⟨_, (op?_of_ctxs (dealBlocks_ctxs _ _) c q).trans
    (op?_onOp_same (f := fun x => { x with waves := x.waves + 1 }) (fun _ => rfl) (h.chosen 3)), rfl⟩, fun i x hx j t ht => ?_⟩
  have hmem : (x, i) ∈ (allBlocks o).zipIdx := List.mk_mem_zipIdx_iff_getElem?.2 hx
  have hempty : (s.tile t).deal = [] := (h.tiles t (dealTiles_mem (blockTiles_mem (List.mem_of_getElem? ht))).1).1
  exact dealBlocks_deal (s := newWaves c q 1 (s.onOp c q fun o => { o with deal := 3 })) ((zipIdx_lt _ _).imp Nat.ne_of_lt)
    (dealTiles_nodup _ _) h.unpaired hmem ht hempty

theorem FirstDeal.tilesPer_pos (hs : 0 < o.spans) (hb : o.rows * o.cols < (s.dealTiles (s.partOf c)).length) : 0 < tilesPer c o s := by
  have hdiv : 0 < (s.dealTiles (s.partOf c)).length / (o.rows * o.cols) := Nat.div_pos (Nat.le_of_lt hb) h.blocks
  unfold tilesPer
  omega

end

/-- There are as many blocks as rows and columns make. -/
theorem allBlocks_length (o : Op) : (allBlocks o).length = o.rows * o.cols := by
  unfold allBlocks
  rw [List.length_flatMap]
  simp

end Sys2Proof.Machine
end

section
/-! SUPPORT. What the tiles do at once behind a first deal (R155): nothing for a MATMUL; for a VECTOR they load their first blocks. -/

namespace Sys2Proof.Machine

/-! ### The first deal as a step -/

theorem splitRange_isOf (c : Nat) (o : Op) (b : Nat × Nat) (ts : List Nat) (i : Nat) : ∀ x ∈ splitRange c o b ts i, x.isOf c o.seq :=
  fun x hx => by
    unfold splitRange at hx
    obtain ⟨j, -, rfl⟩ := List.mem_map.1 hx
    exact ⟨rfl, rfl⟩

theorem dealSplit_step {c q : Nat} {o : Op} (ho : o.seq = q) (b : Nat × Nat) {ts : List Nat} {s : State}
    (hts : ∀ t ∈ ts, t < 64 ∧ s.deals t = true) : DealStep c q s (dealSplit c o b ts s) := by
  subst ho
  rw [dealSplit_eq]
  have hmem : ∀ x ∈ ts.zipIdx.map fun x => (splitRange c o b ts x.2, x.1), x.2 ∈ ts ∧ ∀ y ∈ x.1, y.isOf c o.seq := fun x hx => by
    obtain ⟨y, hy, rfl⟩ := List.mem_map.1 hx
    exact ⟨List.fst_mem_of_mem_zipIdx hy, splitRange_isOf _ _ _ _ _⟩
  refine dealEach_step (tile := Prod.snd) (fun x hx s hs => dealTo_step (hmem x hx).2 ?_ hs) fun x hx => (hts _ (hmem x hx).1).2
  have := (hts _ (hmem x hx).1).1
  omega

theorem dealBlocks_step {c q : Nat} {o : Op} (ho : o.seq = q) {ts : List Nat} (k : Nat) (l : List ((Nat × Nat) × Nat)) {s : State}
    (hts : ∀ t ∈ ts, t < 64 ∧ s.deals t = true) : DealStep c q s (dealBlocks c o ts k l s) :=
  each_rel_pre (DealStep c q) (fun _ s => ∀ t ∈ ts, s.deals t = true) .refl (fun _ _ _ => .trans)
    (fun _ _ _ h hx t ht => (h.deals t).trans (hx t ht))
    (fun _ _ _ hs => dealSplit_step ho _ fun t ht => ⟨(hts t (blockTiles_mem ht)).1, hs t (blockTiles_mem ht)⟩) fun _ _ t ht => (hts t ht).2

section
variable {c q : Nat} {o : Op} {s : State} (h : FirstDeal c q o s)
include h

theorem FirstDeal.step (hk : o.kind = 1 ∨ o.kind = 2) : DealStep c q s (firstDeal c q s) := by
  have hts : ∀ t ∈ s.dealTiles (s.partOf c), t < 64 ∧ s.deals t = true := fun t ht => ⟨tilesOf_lt (dealTiles_mem ht).1, (dealTiles_mem ht).2⟩
  have hcase : ∀ k, DealStep c q s (s.onOp c q fun o => { o with deal := k }) := fun k => .of_onOp (fun _ => by rfl) (fun _ => by rfl) s
  by_cases hfew : o.kind = 1 ∧ o.rows * o.cols < (s.dealTiles (s.partOf c)).length
  · rw [h.firstDeal_split hfew.1 hfew.2]
    have hchosen := (hcase 3).trans (newWaves_step (c := c) (q := q) 1 _)
    exact hchosen.trans (dealBlocks_step h.seq _ _ fun t ht => ⟨(hts t ht).1, (hchosen.deals t).trans (hts t ht).2⟩)
  · by_cases hmany : o.kind = 1 ∧ 4 * (s.dealTiles (s.partOf c)).length ≤ o.rows * o.cols
    · rw [h.firstDeal_waves hmany.1 hmany.2]
      exact ((hcase 1).trans (.of_onOp (fun _ => by rfl) (fun _ => by rfl) _)).trans (dealWave_step (o := { o with deal := 1 }) h.seq _ _ _)
    · rw [h.firstDeal_singles (by omega)]
      exact (hcase 2).trans (dealSingles_step h.seq _ fun t ht => ⟨(hts t ht).1, ((hcase 2).deals t).trans (hts t ht).2⟩)

/-- Behind the first deal the tiles hold billets of the operation alone. -/
theorem FirstDeal.dealt_isOf (hk : o.kind = 1 ∨ o.kind = 2) {t : Nat} (ht : t ∈ s.tilesOf (s.partOf c)) :
    ∀ b ∈ ((firstDeal c q s).tile t).deal, b.isOf c q := fun b hb => by
  rcases (h.step hk).only t b hb with hb | hb
  · rw [(h.tiles t ht).1] at hb
    cases hb
  · exact hb

end

/-! ### Tiles with nothing to load -/

/-- What refills leave where no bank is done and nothing is to be loaded: deal lists, banks and contexts. -/
structure NothingLoaded (s s' : State) : Prop where
  deal : ∀ j, (s'.tile j).deal = (s.tile j).deal
  banks : ∀ j, (s.tile j).banks = [] → (s'.tile j).banks = []
  rest : s' = { s with tiles := s'.tiles, regs := s'.regs }

theorem NothingLoaded.refl (s : State) : NothingLoaded s s := ⟨fun _ => rfl, fun _ h => h, rfl⟩

theorem NothingLoaded.trans {a b d : State} (h : NothingLoaded a b) (h' : NothingLoaded b d) : NothingLoaded a d :=
  ⟨fun j => (h'.deal j).trans (h.deal j), fun j hj => h'.banks j (h.banks j hj), by rw [h'.rest, h.rest]⟩

theorem NothingLoaded.op? {s s' : State} (h : NothingLoaded s s') (c q : Nat) : s'.op? c q = s.op? c q := by rw [h.rest]; rfl

theorem refill_nothingLoaded {t : Nat} {s : State} (hl : noLoad t s) (hb : (s.tile t).banks = []) : NothingLoaded s (refillQueue t s) := by
  have hstep := refillQueue_step hl
  obtain ⟨hbanks, -, hfree⟩ := hstep.calm (by rw [hb]; simp)
  refine ⟨fun j => ?_, fun j hj => ?_, by rw [hstep.rest, hfree]⟩
  · by_cases hjt : j = t
    · subst hjt; exact hstep.deal
    · rw [hstep.others j hjt]
  · by_cases hjt : j = t
    · subst hjt; rw [hbanks, hb]
    · rw [hstep.others j hjt, hj]

/-- Behind the first deal of a MATMUL no tile has anything to load. -/
theorem FirstDeal.matmul {c q : Nat} {o : Op} {s : State} (h : FirstDeal c q o s) (hk : o.kind = 1) :
    NothingLoaded (firstDeal c q s) (beginDeal c q s) := by
  have hstep := h.step (.inl hk)
  unfold beginDeal
  refine each_rel_pre NothingLoaded (fun t v => noLoad t v ∧ (v.tile t).banks = []) .refl (fun _ _ _ => .trans)
    (fun t v w hvw hv => ⟨fun b rest o' hb ho' => ?_, hvw.banks t hv.2⟩) (fun t _ v hv => refill_nothingLoaded hv.1 hv.2)
    fun t ht => ⟨fun b rest o' hb ho' => ?_, ?_⟩
  · rw [hvw.deal] at hb
    rw [hvw.op?] at ho'
    exact hv.1 b rest o' hb ho'
  · obtain ⟨hc, hq⟩ := h.dealt_isOf (.inl hk) ht b (by rw [hb]; exact List.mem_cons_self)
    have hkind := hstep.kinds c q
    unfold State.kindAt at hkind
    rw [hc, hq] at ho'
    rw [ho', h.op] at hkind
    have : o'.kind = o.kind := Option.some.inj hkind
    omega
  · rw [hstep.tiles t]
    exact (h.tiles t ht).2.1

end Sys2Proof.Machine
end

section
/-! SUPPORT. The loads of a VECTOR's first blocks (R155). -/

namespace Sys2Proof.Machine

/-- What the loads and refills of some tiles change: those tiles, their status and counts of standing still, and the slices. -/
structure LoadStep (ts : List Nat) (s s' : State) : Prop where
  others : ∀ j, j ∉ ts → s'.tile j = s.tile j
  regs : ∀ k, (∀ t ∈ ts, k ≠ R.MXA_STATUS t ∧ k ≠ R.MXA_STALL t) → s'.reg k = s.reg k
  caches : cachesOnly s s'
  still : (∀ e ∈ s.chans, e.2.copying = []) → ∀ e ∈ s'.chans, e.2.copying = []
  rest : s' = { s with tiles := s'.tiles, regs := s'.regs, chans := s'.chans }

theorem LoadStep.refl (ts : List Nat) (s : State) : LoadStep ts s s := ⟨fun _ _ => rfl, fun _ _ => rfl, fun _ => rfl, fun h => h, rfl⟩

theorem LoadStep.trans {ts : List Nat} {a b d : State} (h : LoadStep ts a b) (h' : LoadStep ts b d) : LoadStep ts a d where
  others j hj := (h'.others j hj).trans (h.others j hj)
  regs k hk := (h'.regs k hk).trans (h.regs k hk)
  caches := h.caches.trans h'.caches
  still hs := h'.still (h.still hs)
  rest := by rw [h'.rest, h.rest]

theorem LoadStep.mono {ts us : List Nat} {s s' : State} (h : LoadStep ts s s') (hsub : ∀ t ∈ ts, t ∈ us) : LoadStep us s s' where
  others j hj := h.others j fun ht => hj (hsub j ht)
  regs k hk := h.regs k fun t ht => hk t (hsub t ht)
  caches := h.caches
  still := h.still
  rest := h.rest

theorem LoadStep.op? {ts : List Nat} {s s' : State} (h : LoadStep ts s s') (c q : Nat) : s'.op? c q = s.op? c q := by rw [h.rest]; rfl

/-- The registers of memory and of the network are none of a tile's. -/
theorem LoadStep.beyond {ts : List Nat} (hts : ∀ t ∈ ts, t < 64) {s s' : State} (h : LoadStep ts s s') {k : Nat} (hk : 0x800000 ≤ k) :
    s'.reg k = s.reg k := h.regs k fun t ht => by
  have := hts t ht
  unfold R.MXA_STATUS R.MXA_STALL
  omega

theorem LoadStep.alike {ts : List Nat} (hts : ∀ t ∈ ts, t < 64) {s s' : State} (h : LoadStep ts s s') (c : Nat) : ReadsAlike c s s' := by
  refine ⟨h.caches, ?_, fun k => ?_, ?_, ?_⟩
  · rw [h.rest]; exact ⟨rfl, rfl⟩
  · exact rd_of_reg (f := F.MEM_STATUS_STATE k) (h.beyond hts (by unfold F.MEM_STATUS_STATE R.MEM_STATUS; dsimp only; omega))
  · rw [h.rest]
  · rw [h.rest]

theorem LoadStep.free {ts : List Nat} (hts : ∀ t ∈ ts, t < 64) {s s' : State} (h : LoadStep ts s s') {c : Nat} (hm : memFree c s) : memFree c s' := by
  obtain ⟨hrate, hnoc, hcopy⟩ := hm
  refine ⟨fun k hk => ?_, ?_, h.still hcopy⟩
  · rw [rd_of_reg (f := F.MEM_REG_CTX_RATE k c) (h.beyond hts (by unfold F.MEM_REG_CTX_RATE R.MEM_REG_CTX; dsimp only; omega))]
    exact hrate k hk
  · rw [rd_of_reg (f := F.NOC_REG_CTX_RATE c) (h.beyond hts (by unfold F.NOC_REG_CTX_RATE R.NOC_REG_CTX; dsimp only; omega))]
    exact hnoc

theorem LoadStep.of_tile (t : Nat) (f : Tile → Tile) (s : State) : LoadStep [t] s (s.onTile t f) :=
  ⟨fun j hj => State.onTile_other _ _ _ fun h => hj (by simp [h]), fun _ _ => rfl, fun _ => rfl, fun h => h, rfl⟩

theorem Touched.load {s s' : State} (h : Touched s s') (t : Nat) : LoadStep [t] s s' where
  others j _ := by rw [h.rest]; rfl
  regs k _ := by rw [h.rest]; rfl
  caches := h.caches
  still := h.still
  rest := by rw [h.rest]

theorem TileStep.load {t : Nat} {s s' : State} (h : TileStep t s s') (hb : ∀ k ∈ (s.tile t).banks, k.done = false) : LoadStep [t] s s' where
  others j hj := h.others j fun e => hj (by simp [e])
  regs k hk := h.regs k (hk t (by simp)).1 (hk t (by simp)).2
  caches ch := by rw [h.rest]; rfl
  still hs := by rw [h.rest]; exact hs
  rest := by rw [h.rest, (h.calm hb).2.2]

/-! ### One tile's loads -/

/-- A tile that can load what it is dealt: its billets are those of a VECTOR whose blocks can be read. -/
structure LoadReady (c q : Nat) (o : Op) (t : Nat) (s : State) : Prop where
  op : s.op? c q = some o
  vector : o.kind = 2
  free : memFree c s
  going : (s.tile t).stopped = false
  billets : ∀ b ∈ (s.tile t).deal, b.isOf c q ∧
    ∃ rows, readRows s c (o.aAddr + 128 * b.col * (fmtBits o.cFmt / 8)) o.lda (8 * (fmtBits o.cFmt / 8)) (128 * b.row) o.m 0
      (min 128 (o.n - 128 * b.col)) 128 = .ok rows

/-- Loads of other tiles leave a tile ready. -/
theorem LoadReady.kept {c q : Nat} {o : Op} {t : Nat} {ts : List Nat} (hts : ∀ u ∈ ts, u < 64) {s s' : State} (h : LoadReady c q o t s)
    (hs : LoadStep ts s s') (ht : t ∉ ts) : LoadReady c q o t s' where
  op := (hs.op? c q).trans h.op
  vector := h.vector
  free := hs.free hts h.free
  going := by rw [hs.others t ht]; exact h.going
  billets b hb := by
    rw [hs.others t ht] at hb
    obtain ⟨hof, rows, hr⟩ := h.billets b hb
    exact ⟨hof, rows, by rw [(hs.alike hts c).readRows, hr]⟩

/-- The block that an entry holds. -/
def FtqEntry.block (e : FtqEntry) : Nat × Nat × Nat × Nat := (e.ctx, e.seq, e.row, e.col)

/-- The block of a billet. -/
def Billet.block (b : Billet) : Nat × Nat × Nat × Nat := (b.ctx, b.seq, b.row, b.col)

/-- A tile that has loaded its first `n` blocks into free entries. -/
structure Loaded (t n : Nat) (s s' : State) : Prop where
  step : LoadStep [t] s s'
  tile : s'.tile t = { s.tile t with deal := (s'.tile t).deal, ftq := (s'.tile t).ftq }
  deal : (s'.tile t).deal = (s.tile t).deal.drop n
  ftq : (s'.tile t).ftq.map FtqEntry.block = (s.tile t).ftq.map FtqEntry.block ++ ((s.tile t).deal.take n).map Billet.block

theorem Loaded.none {t n : Nat} {s : State} (h : (s.tile t).deal = []) : Loaded t n s s := by
  refine ⟨.refl _ s, rfl, ?_, ?_⟩
  · rw [h, List.drop_nil]
  · rw [h, List.take_nil, List.map_nil, List.append_nil]

/-- The entry that holds a loaded block (R155). -/
def loadedEntry (c : Nat) (o : Op) (b : Billet) (rows : List (List Byte)) : FtqEntry :=
  { ident := o.ident b.row b.col 0, ctx := c, seq := b.seq, row := b.row, col := b.col,
    data := (rows.flatMap fun r => padTo (128 * (fmtBits o.cFmt / 8)) r).zipIdx.filterMap fun p => if p.1 = 0 then none else some (p.2, p.1),
    flags := 0, writing := false, written := false }

/-- The load of the block at the head of a tile's deal list into a free entry. -/
theorem loadVector_head {c q : Nat} {o : Op} {t n : Nat} {s : State} (h : LoadReady c q o t s) (ht : t < 64) {b : Billet} {rest : List Billet}
    (hd : (s.tile t).deal = b :: rest) (hq : (s.tile t).ftq.length < 4) :
    ∃ u, loadVector t s (n + 1) = loadVector t u n ∧ LoadStep [t] s u ∧
      ∃ e : FtqEntry, e.block = b.block ∧ u.tile t = { s.tile t with deal := rest, ftq := (s.tile t).ftq ++ [e] } := by
  obtain ⟨⟨hbc, hbq⟩, rows, hrows⟩ := h.billets b (by rw [hd]; exact List.mem_cons_self)
  have hop : s.op? b.ctx b.seq = some o := by rw [hbc, hbq]; exact h.op
  have hts : ∀ u ∈ [t], u < 64 := fun u hu => by rw [List.mem_singleton.1 hu]; exact ht
  rw [loadVector]
  dsimp only
  rw [hd]
  dsimp only
  rw [hop]
  dsimp only
  rw [if_neg (by simp [h.vector, h.going, hq]), access_free (x := tilePayer b.ctx b.seq t 0) (show memFree b.ctx s by rw [hbc]; exact h.free)]
  generalize hv : each _ _ s = v
  have htouch : Touched s v := hv ▸ reads_touched _ _ s
  have hload := htouch.load t
  dsimp only
  rw [hbc, (hload.alike hts c).readRows, hrows]
  have htile : v.tile t = s.tile t := by rw [htouch.rest]; rfl
  refine ⟨_, rfl, hload.trans (.of_tile t _ v), loadedEntry c o b rows, ?_, ?_⟩
  · unfold FtqEntry.block Billet.block loadedEntry
    rw [hbc]
  · rw [State.onTile_same, htile]
    rfl

/-- A tile loads its first blocks into free entries, as many as the count lets it (R155). -/
theorem loadVector_loads {c q : Nat} {o : Op} {t n : Nat} {s : State} (h : LoadReady c q o t s) (ht : t < 64)
    (hn : (s.tile t).ftq.length + n ≤ 4) : Loaded t n s (loadVector t s n) := by
  have hts : ∀ u ∈ [t], u < 64 := fun u hu => by rw [List.mem_singleton.1 hu]; exact ht
  induction n generalizing s with
  | zero => exact ⟨.refl _ s, rfl, rfl, by simp [loadVector]⟩
  | succ n ih =>
    cases hd : (s.tile t).deal with
    | nil =>
      have hnone : loadVector t s (n + 1) = s := loadVector_none (fun b rest o' hb _ => by rw [hd] at hb; cases hb) _
      rw [hnone]
      exact .none hd
    | cons b rest =>
      obtain ⟨u, hu, hstep, e, he, htile⟩ := loadVector_head h ht hd (n := n) (by omega)
      have hready : LoadReady c q o t u := by
        refine ⟨(hstep.op? c q).trans h.op, h.vector, hstep.free hts h.free, by rw [htile]; exact h.going, fun b' hb' => ?_⟩
        rw [htile] at hb'
        obtain ⟨hof, rows, hr⟩ := h.billets b' (by rw [hd]; exact List.mem_cons_of_mem b hb')
        exact ⟨hof, rows, by rw [(hstep.alike hts c).readRows, hr]⟩
      have hrest := ih hready (by rw [htile]; simp only [List.length_append, List.length_singleton]; omega)
      rw [hu]
      refine ⟨hstep.trans hrest.step, ?_, ?_, ?_⟩
      · rw [hrest.tile, htile]
      · rw [hrest.deal, htile, hd]
        rfl
      · rw [hrest.ftq, htile, hd]
        simp [he]

/-- The refill of a tile without banks and without entries loads its first four blocks (R155). -/
theorem refillQueue_loads {c q : Nat} {o : Op} {t : Nat} {s : State} (h : LoadReady c q o t s) (ht : t < 64) (hb : (s.tile t).banks = [])
    (hf : (s.tile t).ftq = []) : LoadStep [t] s (refillQueue t s) ∧ ((refillQueue t s).tile t).deal = (s.tile t).deal.drop 4 ∧
      ((refillQueue t s).tile t).ftq.map FtqEntry.block = ((s.tile t).deal.take 4).map Billet.block := by
  have hcalm : ∀ k ∈ (s.tile t).banks, k.done = false := by rw [hb]; simp
  rw [refillQueue_eq, drainBanks_calm hcalm]
  have hload := loadVector_loads h ht (n := 4) (by rw [hf]; simp)
  generalize loadVector t s 4 = u at *
  have hucalm : ∀ k ∈ (u.tile t).banks, k.done = false := by rw [hload.tile]; exact hcalm
  have hstep := refilled_step t u
  refine ⟨hload.step.trans (hstep.load hucalm), hstep.deal.trans hload.deal, ?_⟩
  rw [(hstep.calm hucalm).2.1, hload.ftq, hf]
  rfl

/-- The refills of tiles without banks and without entries: each loads its first four blocks. -/
theorem refills_load {c q : Nat} {o : Op} {l : List Nat} (hl : l.Nodup) (hlt : ∀ t ∈ l, t < 64) {s : State}
    (h : ∀ t ∈ l, LoadReady c q o t s ∧ (s.tile t).banks = [] ∧ (s.tile t).ftq = []) :
    LoadStep l s (each l refillQueue s) ∧ ∀ t ∈ l, ((each l refillQueue s).tile t).deal = (s.tile t).deal.drop 4 ∧
      ((each l refillQueue s).tile t).ftq.map FtqEntry.block = ((s.tile t).deal.take 4).map Billet.block := by
  induction l generalizing s with
  | nil => exact ⟨.refl _ s, fun t ht => by cases ht⟩
  | cons t l ih =>
    obtain ⟨htl, hl⟩ := List.nodup_cons.1 hl
    have hone : ∀ u ∈ [t], u < 64 := fun u hu => by rw [List.mem_singleton.1 hu]; exact hlt t List.mem_cons_self
    have hne : ∀ u ∈ l, u ∉ [t] := fun u hu hut => htl (by rw [← List.mem_singleton.1 hut]; exact hu)
    obtain ⟨hready, hbanks, hftq⟩ := h t List.mem_cons_self
    obtain ⟨hstep, hdeal, hqueue⟩ := refillQueue_loads hready (hlt t List.mem_cons_self) hbanks hftq
    obtain ⟨hsteps, hrest⟩ := ih hl (fun u hu => hlt u (List.mem_cons_of_mem t hu)) (s := refillQueue t s) fun u hu => by
      obtain ⟨hr, hb, hf⟩ := h u (List.mem_cons_of_mem t hu)
      rw [hstep.others u (hne u hu)]
      exact ⟨hr.kept hone hstep (hne u hu), hb, hf⟩
    have hcons : each (t :: l) refillQueue s = each l refillQueue (refillQueue t s) := rfl
    rw [hcons]
    refine ⟨(hstep.mono (by simp)).trans (hsteps.mono fun u hu => List.mem_cons_of_mem t hu), fun u hu => ?_⟩
    rcases List.mem_cons.1 hu with rfl | hu
    · rw [hsteps.others u htl]
      exact ⟨hdeal, hqueue⟩
    · rw [← hstep.others u (hne u hu)]
      exact hrest u hu

end Sys2Proof.Machine
end

section
/-! SUPPORT. What MATMUL and VECTOR leave (R36, R37, R39, R155). -/

namespace Sys2Proof.Machine

/-- A matrix or vector operation whose context runs is dealt (R36, R487). -/
theorem runKind_deals {c q k : Nat} {o : Op} {s : State} (h : opRuns c q k o s) (hk : k = 1 ∨ k = 2) (f : Op → State → State) :
    runKind k c q f s = f o s := by
  obtain ⟨hop, hkind, hstarted, hdone, hrun⟩ := h
  have hunit : o.unit = 1 := by
    unfold Op.unit Op.isMatrix
    rcases hk with rfl | rfl <;> simp [hkind]
  have hnow : s.runsNow c o = true := by
    unfold State.runsNow
    rw [hunit]
    exact hrun
  unfold runKind
  rw [hop]
  dsimp only
  rw [if_pos (by simp [hkind, hstarted, hdone, hnow])]

/-- The ranges that a block's tiles take: the block's spans, in their order and home to the first tile, the ranges of lengths that differ by
at most one (R36, R39). -/
theorem splitRange_shares {c : Nat} {o : Op} {b : Nat × Nat} {ts : List Nat} (hts : 0 < ts.length) {deal : Nat → List Billet}
    (hd : ∀ j t, ts[j]? = some t → deal t = splitRange c o b ts j) :
    (ts.flatMap fun t => (deal t).map fun y => (y.row, y.col, y.span, y.home)) = (List.range o.spans).map (fun j => (b.1, b.2, j, ts.headD 0)) ∧
    ∀ t ∈ ts, o.spans / ts.length ≤ (deal t).length ∧ (deal t).length ≤ o.spans / ts.length + 1 := by
  refine ⟨?_, fun t ht => ?_⟩
  · rw [flatMap_numbered ts _ (fun j => (splitRange c o b ts j).map fun y => (y.row, y.col, y.span, y.home)) fun j t ht => by rw [hd j t ht]]
    simp only [splitRange_spans]
    rw [← List.map_flatMap, ranges_join (start := splitStart o ts.length) (by simp [splitStart])
      fun i => (Nat.le_add_right _ _).trans (splitStart_succ o ts.length i).1, splitStart_all o hts]
  · obtain ⟨j, hj⟩ := List.mem_iff_getElem?.1 ht
    rw [hd j t hj]
    exact splitRange_length _ _ _ _ _

/-- A VECTOR's chains are one billet each, of the blocks of a tile's turns (R155). -/
theorem turnChains_blocks {o : Op} (hs : o.spans = 1) (c n i t : Nat) (bs : List ((Nat × Nat) × Nat)) :
    (turnChains c o n i t bs).map Billet.block = ((bs.filter fun x => x.2 % n = i).map (·.1)).map fun x => (c, o.seq, x.1, x.2) := by
  unfold turnChains chain
  rw [hs, List.map_flatMap, List.map_map]
  generalize bs.filter _ = l
  induction l with
  | nil => rfl
  | cons x l ih => rw [List.flatMap_cons, ih]; rfl

section
variable {c q : Nat} {o : Op} {s : State} (h : FirstDeal c q o s)
include h

/-- The first wave has a quad at the first place of the grid. -/
theorem FirstDeal.firstQuad : (0, 0, 0, 0) ∈ waveQuads o (s.groupsOf (s.partOf c)).length 0 := by
  unfold waveQuads
  refine List.mem_flatMap.2 ⟨0, List.mem_range.2 h.groups, List.mem_filterMap.2 ⟨0, List.mem_range.2 (by decide), ?_⟩⟩
  have hrows : 0 < o.rows := Nat.pos_of_mul_pos_right h.blocks
  have hcols : 0 < o.cols := Nat.pos_of_mul_pos_left h.blocks
  simp [hrows, hcols]

/-- A tile that is not dealt to is as before. -/
theorem FirstDeal.undealtTile (hk : o.kind = 1 ∨ o.kind = 2) {t : Nat} (ht : t ∈ s.tilesOf (s.partOf c)) (hd : t ∉ s.dealTiles (s.partOf c)) :
    (firstDeal c q s).tile t = s.tile t := by
  refine (h.step hk).idle t ?_
  have hp := (h.tiles t ht).2.2.2.2
  by_contra hserves
  refine hd (List.mem_filter.2 ⟨ht, ?_⟩)
  unfold State.deals
  rw [hp]
  simpa using hserves

/-- Behind the first deal of a VECTOR each tile can load what it is dealt. -/
theorem FirstDeal.loadReady (hk : o.kind = 2) (hm : memFree c s)
    (hr : ∀ x ∈ allBlocks o, ∃ rows, readRows s c (o.aAddr + 128 * x.2 * (fmtBits o.cFmt / 8)) o.lda (8 * (fmtBits o.cFmt / 8))
      (128 * x.1) o.m 0 (min 128 (o.n - 128 * x.2)) 128 = .ok rows) {w : Nat}
    (hw : (firstDeal c q s).op? c q = some { o with deal := 2, waves := w }) {t : Nat} (ht : t ∈ s.tilesOf (s.partOf c)) :
    LoadReady c q { o with deal := 2, waves := w } t (firstDeal c q s) := by
  have hstep := h.step (.inr hk)
  have hbeyond : ∀ k, 0x800000 ≤ k → (firstDeal c q s).reg k = s.reg k := fun k hk => hstep.regs k fun u hu => by
    unfold R.MXA_STATUS; omega
  have hchans : (firstDeal c q s).chans = s.chans := by rw [hstep.rest]
  have hctx : ((firstDeal c q s).ctx c).chans = (s.ctx c).chans ∧ ((firstDeal c q s).ctx c).pitch = (s.ctx c).pitch := by
    have hctxs : (firstDeal c q s).ctx c = (newWaves c o.seq (ceilDiv (allBlocks o).length (s.dealTiles (s.partOf c)).length)
        (s.onOp c q fun o => { o with deal := 2 })).ctx c := by
      rw [h.firstDeal_singles (.inl hk)]
      unfold State.ctx
      rw [dealSingles_ctxs]
    rw [hctxs]
    unfold newWaves State.onOp
    rw [State.onCtx_same, State.onCtx_same]
    exact ⟨rfl, rfl⟩
  have halike : ReadsAlike c s (firstDeal c q s) := by
    refine ⟨fun ch => ?_, hctx, fun k => ?_, by rw [hstep.rest], by rw [hstep.rest]⟩
    · unfold State.chan
      rw [hchans]
    · exact rd_of_reg (f := F.MEM_STATUS_STATE k) (hbeyond _ (by unfold F.MEM_STATUS_STATE R.MEM_STATUS; dsimp only; omega))
  have hfree : memFree c (firstDeal c q s) := by
    obtain ⟨hrate, hnoc, hcopy⟩ := hm
    refine ⟨fun k hk => ?_, ?_, by rw [hchans]; exact hcopy⟩
    · rw [rd_of_reg (f := F.MEM_REG_CTX_RATE k c) (hbeyond _ (by unfold F.MEM_REG_CTX_RATE R.MEM_REG_CTX; dsimp only; omega))]
      exact hrate k hk
    · rw [rd_of_reg (f := F.NOC_REG_CTX_RATE c) (hbeyond _ (by unfold F.NOC_REG_CTX_RATE R.NOC_REG_CTX; dsimp only; omega))]
      exact hnoc
  refine ⟨hw, hk, hfree, by rw [hstep.tiles t]; exact (h.tiles t ht).2.2.2.1, fun b hb => ⟨h.dealt_isOf (.inr hk) ht b hb, ?_⟩⟩
  have hblock : (b.row, b.col) ∈ allBlocks o := by
    by_cases hd : t ∈ s.dealTiles (s.partOf c)
    · obtain ⟨i, hi⟩ := List.mem_iff_getElem?.1 hd
      rw [(h.singles (.inl hk)).2 i t hi] at hb
      unfold turnChains at hb
      obtain ⟨x, hx, hb⟩ := List.mem_flatMap.1 hb
      unfold chain at hb
      obtain ⟨j, -, rfl⟩ := List.mem_map.1 hb
      exact List.fst_mem_of_mem_zipIdx (List.mem_filter.1 hx).1
    · rw [h.undealtTile (.inr hk) ht hd, (h.tiles t ht).1] at hb
      cases hb
  obtain ⟨rows, hrows⟩ := hr _ hblock
  exact ⟨rows, (halike.readRows _ _ _ _ _ _ _ _).trans hrows⟩

end

end Sys2Proof.Machine
end

section
/-! The statement about the deal of operations (chapter 02). -/

open Sys2Proof Sys2Proof.Machine

/-- Settles O22: the case of R36 is chosen and dealt; behind it a MATMUL's tiles have nothing to load, and a VECTOR's load their first four
blocks. -/
theorem operationsAreDealt : Obligations.OperationsAreDealt := by
  intro c q s o p ts n blocks b hn hb hdeal hdealt hheld hredo hchains htiles
  have hfirst : ∀ k, opRuns c.val q k o s → FirstDeal c.val q o s := fun k hrun => by
    obtain ⟨hop, -, hstarted, hdone, hrunning⟩ := hrun
    have hholds : s.holds c.val = true := by
      unfold State.running at hrunning
      simp only [Bool.and_eq_true] at hrunning
      exact hrunning.1.1
    exact ⟨hop, hstarted, hdone, hn, hb, ⟨hdeal, hdealt⟩, hchains, hholds, htiles⟩
  refine ⟨fun hrun => ?_, fun hrun hm hr => ?_⟩
  · have h := hfirst 1 hrun
    have hk : o.kind = 1 := hrun.2.1
    have hq : o.seq = q := h.seq
    have hstep := h.step (.inl hk)
    have hcalm := h.matmul hk
    have hframe : beginDeal c.val q s = { s with tiles := (beginDeal c.val q s).tiles, regs := (beginDeal c.val q s).regs,
                                                 ctxs := (beginDeal c.val q s).ctxs } := by rw [hcalm.rest, hstep.rest]
    have hop := hcalm.op? c.val q
    have hdeals := hcalm.deal
    obtain ⟨o', ho'⟩ : ∃ o', (firstDeal c.val q s).op? c.val q = some o' := by
      have hkind := hstep.kinds c.val q
      unfold State.kindAt at hkind
      rw [h.op] at hkind
      obtain ⟨o', ho', -⟩ := Option.map_eq_some_iff.1 hkind
      exact ⟨o', ho'⟩
    refine ⟨beginDeal c.val q s, o', ?_, hop.trans ho', fun hmany => ?_, fun h1 h2 => ?_, fun hfew hspans => ?_, hframe⟩
    · rw [exec_matmul, execMatmul, runKind_deals hrun (.inl rfl)]
      exact State.done_of_eq hframe rfl rfl
    · have hquad : ∀ x ∈ waveQuads o (s.groupsOf p).length 0, o'.deal = 1 ∧ o'.dealt = 1 ∧
          if s.deals (quadTile (s.groupsOf p) x) then ((firstDeal c.val q s).tile (quadTile (s.groupsOf p) x)).deal =
            quadBillets c.val o (quadTile (s.groupsOf p) x) o.waves (quad o x.2.2.1 x.2.2.2)
          else quad o x.2.2.1 x.2.2.2 ∈ o'.heldQ := fun x hx => by
        obtain ⟨o₁, ho₁, hd₁, hn₁, hx₁⟩ := h.waves hk hmany hx
        rw [ho'] at ho₁
        cases ho₁
        exact ⟨hd₁, hn₁, hx₁⟩
      have hone := hquad _ h.firstQuad
      refine ⟨hone.1, hone.2.1, fun r k row col hx => ?_⟩
      have hx := (hquad _ hx).2.2
      rw [← hdeals] at hx
      subst hq
      exact hx
    · obtain ⟨⟨w, hw⟩, hsingles⟩ := h.singles (.inr ⟨h1, h2⟩)
      rw [ho'] at hw
      cases hw
      refine ⟨rfl, fun i t ht => ?_⟩
      have ht := (hdeals t).trans (hsingles i t ht)
      subst hq
      exact ht
    · obtain ⟨⟨o₁, ho₁, hd₁⟩, hsplit⟩ := h.split hk hfew
      rw [ho'] at ho₁
      cases ho₁
      refine ⟨hd₁, fun i x hx => ?_⟩
      have hlen : (blockTiles ts (tilesPer c.val o s) i).length = tilesPer c.val o s := by
        obtain ⟨hi, -⟩ := List.getElem?_eq_some_iff.1 hx
        exact tilesPer_length ((allBlocks_length o) ▸ hi)
      obtain ⟨hshare, hlengths⟩ := splitRange_shares (ts := blockTiles ts (tilesPer c.val o s) i) (deal := fun t => ((beginDeal c.val q s).tile t).deal)
        (by rw [hlen]; exact h.tilesPer_pos hspans hfew) fun j t ht => (hdeals t).trans (hsplit i x hx j t ht)
      rw [hlen] at hlengths
      exact ⟨hlen, hshare, hlengths⟩
  · have h := hfirst 2 hrun
    have hk : o.kind = 2 := hrun.2.1
    have hstep := h.step (.inr hk)
    obtain ⟨⟨w, hw⟩, hsingles⟩ := h.singles (.inl hk)
    obtain ⟨hload, hloaded⟩ := refills_load (tilesOf_nodup s p) (fun t ht => tilesOf_lt ht) (s := firstDeal c.val q s) fun t ht => by
      refine ⟨h.loadReady hk hm hr hw ht, ?_, ?_⟩
      · rw [hstep.tiles t]; exact (h.tiles t ht).2.1
      · rw [hstep.tiles t]; exact (h.tiles t ht).2.2.1
    have hspans : o.spans = 1 := by unfold Op.spans; rw [if_pos hk]
    have hframe : beginDeal c.val q s =
        { s with tiles := (beginDeal c.val q s).tiles, regs := (beginDeal c.val q s).regs, ctxs := (beginDeal c.val q s).ctxs,
                 chans := (beginDeal c.val q s).chans } := by
      unfold beginDeal
      rw [hload.rest, hstep.rest]
    refine ⟨beginDeal c.val q s, ?_, fun i t ht => ?_, ?_, hframe⟩
    · rw [exec_vector, execVector, runKind_deals hrun (.inr rfl)]
      exact State.done_of_eq hframe rfl rfl
    · obtain ⟨hdeal', hftq'⟩ := hloaded t (dealTiles_mem (List.mem_of_getElem? ht)).1
      have hblocks : (((firstDeal c.val q s).tile t).deal.map Billet.block) =
          ((blocks.zipIdx.filter fun x => x.2 % n = i).map (·.1)).map fun x => (c.val, q, x.1, x.2) := by
        rw [hsingles i t ht, turnChains_blocks hspans, h.seq]
        rfl
      have hplaces : (((firstDeal c.val q s).tile t).deal.map fun y => (y.row, y.col)) =
          (blocks.zipIdx.filter fun x => x.2 % n = i).map (·.1) := by
        have h := congrArg (List.map fun z => (z.2.2.1, z.2.2.2)) hblocks
        rw [List.map_map, List.map_map] at h
        exact h.trans (List.map_id _)
      refine ⟨?_, ?_⟩
      · refine hftq'.trans ?_
        rw [List.map_take, hblocks, ← List.map_take]
      · refine (congrArg (List.map fun y => (y.row, y.col)) hdeal').trans ?_
        rw [List.map_drop, hplaces]
    · intro ch
      have hch : (firstDeal c.val q s).chan ch = s.chan ch := by rw [hstep.rest]; rfl
      rw [← hch]
      exact hload.caches ch

end

section
/-! SUPPORT. What the array keeps while work is placed and dealt again (R45, R47, R51, R53): tiles out of service that hold nothing, and
which tiles serve. -/

namespace Sys2Proof.Machine

/-- No VECTOR is in flight. -/
def noVector (s : State) : Prop := ∀ c q o, s.op? c q = some o → o.kind ≠ 2

/-- What placing and dealing change: the tiles that serve, registers other than those of `K`, contexts, and free values; a tile goes on
serving or not, an empty one that does not serve stays so, and operations keep their kinds. -/
structure ArrayKept (K : Nat → Prop) (s s' : State) : Prop where
  state : ∀ u, stateKept u s s'
  idle : ∀ j, s.tileServes j = false → emptyTile j s → s'.tile j = s.tile j
  kinds : ∀ c q, s'.kindAt c q = s.kindAt c q
  regs : ∀ k, K k → s'.reg k = s.reg k
  rest : s' = { s with tiles := s'.tiles, regs := s'.regs, ctxs := s'.ctxs, freeCtr := s'.freeCtr }

/-- The unwritten blocks of an operation that a tile holds go from it, and are noted to be dealt again (R37, R45). -/
def takeBlocks (t c p : Nat) (o : Op) (s : State) : State :=
  let bs := o.unwritten (s.tile t) c
  if bs.isEmpty then s
  else (dropBlocks c o.seq p bs s).onOp c o.seq fun o =>
    if o.deal = 1 then { o with heldQ := o.heldQ ++ byQuad bs } else { o with redo := o.redo ++ bs }

theorem redeal_eq (t : Nat) (s : State) : redeal t s = match s.tileCtx t with
    | none => s
    | some c =>
      each (((each ((s.ctx c).ops.filter (·.isMatrix)) (takeBlocks t c (s.partOf c)) s).ctx c).ops.filter (·.isMatrix))
        (fun o v => each (v.tilesOf (s.partOf c)) refillQueue (dealMore c o.seq v))
        (each ((s.ctx c).ops.filter (·.isMatrix)) (takeBlocks t c (s.partOf c)) s) := by
  unfold redeal
  cases s.tileCtx t with
  | none => rfl
  | some c => rfl

/-- Saved queues and vector engines are placed (R138). -/
def placeEngines (c p : Nat) (l : List (Nat × SavedTile)) (s : State) : State := each l (fun e s => placeEngine c p e.1 e.2 s) s

/-- What a context saved of queues and vector engines is placed, on the tiles that it came from first (R138). -/
def placedEngines (c : Nat) (s : State) : State :=
  let a := placeEngines c (s.partOf c) ((s.ctx c).saved.filter fun e => s.deals e.1) s
  placeEngines c (s.partOf c) (a.ctx c).saved a

/-- Saved chains with a recompute are placed on the tiles that they came from (R53). -/
def placeRecomputes (c p : Nat) (s : State) : State :=
  each (List.range (s.ctx c).chains.length) (fun _ s =>
    match (s.ctx c).chains.find? fun k => k.redo && s.deals k.from' with
    | some k => placeChain c p k s
    | none => s) s

/-- The other saved chains are placed (R51). -/
def placeChains (c p : Nat) (s : State) : State :=
  let n := (s.ctx c).chains.length
  each (List.range n) (fun i s =>
    match (s.ctx c).chains[i - (n - (s.ctx c).chains.length)]? with
    | some k => placeChain c p k s
    | none => s) s

theorem placeSaved_eq (c : Nat) (s : State) : placeSaved c s =
    if ((s.ctx c).saved.isEmpty && (s.ctx c).chains.isEmpty) || !s.holds c then s
    else
      each (((placeChains c (s.partOf c) (placeRecomputes c (s.partOf c) (placedEngines c s))).tilesOf (s.partOf c)).filter
          (placeChains c (s.partOf c) (placeRecomputes c (s.partOf c) (placedEngines c s))).tileServes) refillQueue
        (placeChains c (s.partOf c) (placeRecomputes c (s.partOf c) (placedEngines c s))) := rfl

section
variable {K : Nat → Prop}

theorem ArrayKept.refl (s : State) : ArrayKept K s s := ⟨fun u => .refl u s, fun _ _ _ => rfl, fun _ _ => rfl, fun _ _ => rfl, rfl⟩

theorem ArrayKept.trans {a b d : State} (h : ArrayKept K a b) (h' : ArrayKept K b d) : ArrayKept K a d where
  state u := (h.state u).trans (h'.state u)
  idle j hj he := by
    have hb := h.idle j hj he
    exact (h'.idle j ((h.state j).serves.trans hj) (by unfold emptyTile at *; rw [hb]; exact he)).trans hb
  kinds c q := (h'.kinds c q).trans (h.kinds c q)
  regs k hk := (h'.regs k hk).trans (h.regs k hk)
  rest := by rw [h'.rest, h.rest]

theorem ArrayKept.serves {s s' : State} (h : ArrayKept K s s') (u : Nat) : s'.tileServes u = s.tileServes u := (h.state u).serves

theorem ArrayKept.noVector {s s' : State} (h : ArrayKept K s s') (hn : noVector s) : Machine.noVector s' := fun c q o ho hk => by
  have hkind := h.kinds c q
  unfold State.kindAt at hkind
  rw [ho] at hkind
  obtain ⟨o', ho', hko⟩ := Option.map_eq_some_iff.1 hkind.symm
  exact hn c q o' ho' (hko.trans hk)

/-- A change of a context that keeps its operations. -/
theorem ArrayKept.of_ctx (c : Nat) (f : Ctx → Ctx) (s : State) (hf : (f (s.ctx c)).ops = (s.ctx c).ops) : ArrayKept K s (s.onCtx c f) where
  state _ := .inl rfl
  idle _ _ _ := rfl
  kinds c' q := by
    unfold State.kindAt State.op?
    by_cases hc : c' = c
    · subst hc; rw [State.onCtx_same, hf]
    · rw [State.onCtx_other _ _ _ hc]
  regs _ _ := rfl
  rest := rfl

/-- A change of an operation that keeps its count and its descriptor. -/
theorem ArrayKept.of_onOp {f : Op → Op} (hf : ∀ o, (f o).seq = o.seq) (hk : ∀ o, (f o).kind = o.kind) (c q : Nat) (s : State) :
    ArrayKept K s (s.onOp c q f) :=
  ⟨fun _ => .inl rfl, fun _ _ _ => rfl, fun c' q' => kindAt_onOp hf hk c q c' q' s, fun _ _ => rfl, rfl⟩

/-- A change of a tile that serves, or one that changes no empty tile. -/
theorem ArrayKept.of_tile (t : Nat) (f : Tile → Tile) (s : State) (h : s.tileServes t = false → emptyTile t s → f (s.tile t) = s.tile t) :
    ArrayKept K s (s.onTile t f) where
  state _ := .inl rfl
  idle j hj he := by
    by_cases hjt : j = t
    · subst hjt; rw [State.onTile_same]; exact h hj he
    · exact State.onTile_other _ _ _ hjt
  kinds _ _ := rfl
  regs _ _ := rfl
  rest := rfl

/-- A change of registers that `K` does not name. -/
theorem ArrayKept.of_regs {s s' : State} (h : regsOnly s s') (hk : ∀ k, K k → s'.reg k = s.reg k) (hs : ∀ u, stateKept u s s') : ArrayKept K s s' where
  state := hs
  idle j _ _ := h.obs (obs := fun v => v.tile j) fun _ _ => rfl
  kinds c q := h.obs (obs := fun v => v.kindAt c q) fun _ _ => rfl
  regs := hk
  rest := by
    unfold regsOnly at h
    rw [h]

section
variable (hK : ∀ k, K k → ∀ u, u < 256 → k ≠ R.MXA_STATUS u ∧ k ≠ R.MXA_STALL u)
include hK

theorem DealStep.kept {c q : Nat} {s s' : State} (h : DealStep c q s s') : ArrayKept K s s' where
  state := h.state
  idle j hj _ := h.idle j hj
  kinds := h.kinds
  regs k hk := h.regs k fun u hu => (hK k hk u hu).1
  rest := by rw [h.rest]

theorem TileStep.kept {t : Nat} (ht : t < 256) {s s' : State} (h : TileStep t s s') : ArrayKept K s s' where
  state u := by
    by_cases hu : u = t
    · subst hu; exact h.state
    · exact stateKept_of_reg (h.regs _ (status_inj hu) (status_ne_stall u t))
  idle j _ he := by
    by_cases hj : j = t
    · subst hj; exact h.empty he
    · exact h.others j hj
  kinds c q := by rw [h.rest]; rfl
  regs k hk := h.regs k (hK k hk t ht).1 (hK k hk t ht).2
  rest := by rw [h.rest]

/-- A refill where no VECTOR is in flight. -/
theorem refillQueue_kept {t : Nat} (ht : t < 256) {s : State} (hn : noVector s) : ArrayKept K s (refillQueue t s) :=
  (refillQueue_step fun _ _ o _ ho => hn _ _ o ho).kept hK ht

theorem refills_kept {l : List Nat} (hl : ∀ t ∈ l, t < 256) {s : State} (hn : noVector s) : ArrayKept K s (each l refillQueue s) :=
  each_rel_pre (ArrayKept K) (fun _ => noVector) .refl (fun _ _ _ => .trans) (fun _ _ _ h hn => h.noVector hn)
    (fun t ht _ hn => refillQueue_kept hK (hl t ht) hn) fun _ _ => hn

theorem syncTile_kept {t : Nat} (ht : t < 256) (s : State) : ArrayKept K s (syncTile t s) :=
  .of_regs (syncTile_regsOnly t s) (fun k hk => syncTile_reg (hK k hk t ht).1 s) fun u => syncTile_state t u s

/-- What comes next for an operation, and the refills behind it. -/
theorem dealRefill_kept {l : List Nat} (hl : ∀ t ∈ l, t < 256) (c q : Nat) {s : State} (hn : noVector s) :
    ArrayKept K s (each l refillQueue (dealMore c q s)) := by
  have hdeal : ArrayKept K s (dealMore c q s) := (dealMore_step c q s).kept hK
  exact hdeal.trans (refills_kept hK hl (hdeal.noVector hn))

/-- What comes next for each operation of a list. -/
theorem dealOps_kept {tiles : State → List Nat} (ht : ∀ s, ∀ t ∈ tiles s, t < 256) (c : Nat) (ops : List Op) {s : State} (hn : noVector s) :
    ArrayKept K s (each ops (fun o s => each (tiles s) refillQueue (dealMore c o.seq s)) s) :=
  each_rel_pre (ArrayKept K) (fun _ => noVector) .refl (fun _ _ _ => .trans) (fun _ _ _ h hn => h.noVector hn)
    (fun o _ v hn => dealRefill_kept hK (ht v) c o.seq hn) fun _ _ => hn

theorem dealOn_kept (c : Nat) {s : State} (hn : noVector s) : ArrayKept K s (dealOn c s) :=
  dealOps_kept hK (tiles := fun s => s.tilesOf (s.partOf c)) (fun _ t ht => by have := tilesOf_lt ht; omega) c _ hn

/-- The context that holds a tile is noted with it (R57). -/
theorem holdTiles_kept (c p : Nat) (s : State) : ArrayKept K s (holdTiles c p s) := by
  unfold holdTiles
  refine each_rel_mem (ArrayKept K) .refl (fun _ _ _ => .trans) (fun t ht v => ?_) s
  have hlt : t < 256 := by
    have := tilesOf_lt (List.mem_filter.1 ht).1
    omega
  have hone : ∀ hi lo n (w : State), 3 < lo ∧ lo ≤ hi ∧ hi < 64 → ArrayKept K w (w.wr ⟨R.MXA_STATUS t, hi, lo⟩ n) := fun hi lo n w hb => by
    refine .of_regs (regsOnly_wr _ _ _) (fun k hk => reg_wr_other _ _ _ (hK k hk t hlt).1) fun u => ?_
    by_cases hu : u = t
    · subst hu; exact .inl (rd_wr_beside w (by omega) n)
    · exact stateKept_of_reg (reg_wr_other _ _ _ (status_inj hu))
  exact (hone 55 48 c v (by omega)).trans (hone 56 56 1 _ (by omega))

/-- What the tiles of a partition hold of some blocks is discarded (R45). -/
theorem dropBlocks_kept (c q p : Nat) (bs : List (Nat × Nat)) (s : State) : ArrayKept K s (dropBlocks c q p bs s) := by
  unfold dropBlocks
  refine ArrayKept.trans (each_rel_mem (ArrayKept K) .refl (fun _ _ _ => .trans) (fun t ht v => ?_) s) (.of_ctx _ _ _ rfl)
  have hlt : t < 256 := by
    have := tilesOf_lt ht
    omega
  refine ArrayKept.trans (.of_tile t _ v fun _ he => ?_) (syncTile_kept hK hlt _)
  rw [he]
  rfl

/-- The unwritten blocks of an operation that a tile holds are taken away from it (R45). -/
theorem takeBlocks_kept (t c p : Nat) (o : Op) (s : State) : ArrayKept K s (takeBlocks t c p o s) := by
  unfold takeBlocks
  dsimp only
  split
  · exact .refl s
  · exact (dropBlocks_kept hK _ _ _ _ s).trans (.of_onOp (fun o => by split <;> rfl) (fun o => by split <;> rfl) _ _ _)

/-- What a tile holds is dealt again (R45). -/
theorem redeal_kept (t : Nat) {s : State} (hn : noVector s) : ArrayKept K s (redeal t s) := by
  rw [redeal_eq]
  split
  · exact .refl s
  · rename_i c _
    have htake : ArrayKept K s (each ((s.ctx c).ops.filter (·.isMatrix)) (takeBlocks t c (s.partOf c)) s) :=
      each_rel_mem (ArrayKept K) .refl (fun _ _ _ => .trans) (fun o _ v => takeBlocks_kept hK t c _ o v) s
    exact htake.trans (dealOps_kept hK (tiles := fun v => v.tilesOf (s.partOf c)) (fun _ t ht => by have := tilesOf_lt ht; omega) c _
      (htake.noVector hn))

end

/-! ### Placing what was saved (R47, R51, R53, R138) -/

/-- A change of the tiles that receive what is dealt to a tile. -/
theorem pairTiles_kept {t : Nat} (f : Nat → Tile → Tile) {s : State} (hs : s.deals t = true) :
    ArrayKept K s (each (s.pairOf t) (fun u s => s.onTile u (f u)) s) :=
  each_rel_pre (ArrayKept K) (fun u s => s.tileServes u = true) .refl (fun _ _ _ => .trans) (fun u _ _ h hu => (h.serves u).trans hu)
    (fun u _ v hu => .of_tile u _ v fun h _ => by rw [hu] at h; cases h) fun u hu => pairOf_serves hs hu

/-- The tile of a saved chain is dealt to. -/
theorem chainTile_deals {s : State} {p t : Nat} {k : SavedChain} (h : s.chainTile p k = some t) : s.deals t = true := by
  unfold State.chainTile at h
  dsimp only at h
  split at h
  · rename_i hd
    split at h
    · cases h; exact hd
    · cases h
  · exact (dealTiles_mem (List.mem_filter.1 (List.mem_of_find?_eq_some h)).1).2

/-- The tile of a saved queue is dealt to. -/
theorem engineTile_deals {s : State} {p t u : Nat} (h : s.engineTile p t = some u) : s.deals u = true := by
  unfold State.engineTile at h
  split at h
  · rename_i hd
    split at h
    · cases h; exact hd
    · cases h
  · exact (dealTiles_mem (List.mem_of_find?_eq_some h)).2

/-- A block's new home tile is noted with its billets and partials (R39, R51). -/
theorem rehome_kept (c p : Nat) (k : SavedChain) (t : Nat) (s : State) : ArrayKept K s (rehome c p k t s) := by
  unfold rehome
  refine ArrayKept.trans (each_rel_mem (ArrayKept K) .refl (fun _ _ _ => .trans) (fun u _ v => .of_tile u _ v fun _ he => ?_) s)
    (.of_ctx _ _ _ rfl)
  rw [he]
  rfl

theorem rehome_regs (c p : Nat) (k : SavedChain) (t : Nat) (s : State) : (rehome c p k t s).regs = s.regs := by
  unfold rehome
  dsimp only
  change (each (s.tilesOf p) _ s).regs = s.regs
  refine each_obs State.regs (fun _ _ _ => ?_) s
  rfl

/-- Which tiles are dealt to is read from registers alone. -/
theorem deals_of_regs {s s' : State} (h : s'.regs = s.regs) (t : Nat) : s'.deals t = s.deals t := by
  have hrd : ∀ f, s'.rd f = s.rd f := fun f => by
    unfold State.rd State.reg
    rw [h]
  unfold State.deals State.secondary State.partner State.paired State.tileServes State.on
  simp only [hrd]

/-- A saved chain goes to tiles that serve. -/
theorem loadChain_kept (c p : Nat) {t : Nat} (k : SavedChain) {s : State} (hs : s.deals t = true) : ArrayKept K s (loadChain c p t k s) := by
  have hmain : ArrayKept K s (if k.main then rehome c p k t s else s) ∧ (if k.main then rehome c p k t s else s).deals t = true := by
    split
    · exact ⟨rehome_kept c p k t s, (deals_of_regs (rehome_regs c p k t s) t).trans hs⟩
    · exact ⟨.refl s, hs⟩
  unfold loadChain
  dsimp only
  generalize (if k.main then rehome c p k t s else s) = v at *
  exact hmain.1.trans (pairTiles_kept _ hmain.2)

theorem placeChain_kept (c p : Nat) (k : SavedChain) (s : State) : ArrayKept K s (placeChain c p k s) := by
  unfold placeChain
  split
  · exact .refl s
  · rename_i t ht
    exact ArrayKept.trans (.of_ctx _ _ _ rfl) (loadChain_kept c p k (chainTile_deals ht))

/-- Only registers of a tile's vector engine have changed. -/
structure VxeRegs (t : Nat) (s s' : State) : Prop where
  only : regsOnly s s'
  regs : ∀ k, k ≠ R.VXE_STATUS t → k ≠ R.VXE_STAT t → k ≠ R.VXE_CTL t → s'.reg k = s.reg k

theorem VxeRegs.refl (t : Nat) (s : State) : VxeRegs t s s := ⟨rfl, fun _ _ _ _ => rfl⟩

theorem VxeRegs.status {t : Nat} {s s' : State} (h : VxeRegs t s s') (hi lo n : Nat) : VxeRegs t s (s'.wr ⟨R.VXE_STATUS t, hi, lo⟩ n) :=
  ⟨h.only.wr _ _, fun k h1 h2 h3 => (reg_wr_other _ _ _ h1).trans (h.regs k h1 h2 h3)⟩

theorem VxeRegs.ctl {t : Nat} {s s' : State} (h : VxeRegs t s s') (hi lo n : Nat) : VxeRegs t s (s'.wr ⟨R.VXE_CTL t, hi, lo⟩ n) :=
  ⟨h.only.wr _ _, fun k h1 h2 h3 => (reg_wr_other _ _ _ h3).trans (h.regs k h1 h2 h3)⟩

theorem VxeRegs.stat {t : Nat} {s s' : State} (h : VxeRegs t s s') (w : Word) : VxeRegs t s (s'.setReg (R.VXE_STAT t) w) :=
  ⟨h.only.trans rfl, fun k h1 h2 h3 => (State.setReg_other _ _ _ h2).trans (h.regs k h1 h2 h3)⟩

theorem loadEngine_regs (t : Nat) (y : SavedTile) (s : State) :
    VxeRegs t (s.onTile t fun x => { x with ftq := y.ftq, vxe := y.vxe }) (loadEngine t y s) :=
  (((((((VxeRegs.refl t _).status 41 32 _).status 31 28 _).status 26 24 _).status 10 8 _).stat _).ctl 0 0 _).status 3 0 _

theorem placeRecomputes_kept (c p : Nat) (s : State) : ArrayKept K s (placeRecomputes c p s) := by
  refine each_rel_mem (ArrayKept K) .refl (fun _ _ _ => .trans) (fun _ _ v => ?_) s
  split
  · exact placeChain_kept c p _ v
  · exact .refl v

theorem placeChains_kept (c p : Nat) (s : State) : ArrayKept K s (placeChains c p s) := by
  refine each_rel_mem (ArrayKept K) .refl (fun _ _ _ => .trans) (fun _ _ v => ?_) s
  split
  · exact placeChain_kept c p _ v
  · exact .refl v

section
variable (hV : ∀ k, K k → ∀ u, k ≠ R.VXE_STATUS u ∧ k ≠ R.VXE_STAT u ∧ k ≠ R.VXE_CTL u)
include hV

theorem VxeRegs.kept {t : Nat} {s s' : State} (h : VxeRegs t s s') : ArrayKept K s s' := by
  refine .of_regs h.only (fun k hk => h.regs k (hV k hk t).1 (hV k hk t).2.1 (hV k hk t).2.2) fun u => stateKept_of_reg (h.regs _ ?_ ?_ ?_)
  · unfold R.MXA_STATUS R.VXE_STATUS; omega
  · unfold R.MXA_STATUS R.VXE_STAT; omega
  · unfold R.MXA_STATUS R.VXE_CTL; omega

/-- A saved queue and vector engine go to a tile that serves. -/
theorem loadEngine_kept {t : Nat} (y : SavedTile) {s : State} (hs : s.tileServes t = true) : ArrayKept K s (loadEngine t y s) :=
  ArrayKept.trans (.of_tile t (fun x => { x with ftq := y.ftq, vxe := y.vxe }) s fun h _ => by rw [hs] at h; cases h)
    ((loadEngine_regs t y s).kept hV)

theorem placeEngine_kept (c p t : Nat) (y : SavedTile) (s : State) : ArrayKept K s (placeEngine c p t y s) := by
  have hgone : ArrayKept K s (s.onCtx c fun x => { x with saved := SMap.del t x.saved }) := .of_ctx _ _ _ rfl
  unfold placeEngine
  dsimp only
  split
  · split
    · exact .refl s
    · exact hgone
  · split
    · exact .refl s
    · rename_i u hu
      have hd : s.deals u = true := engineTile_deals hu
      refine hgone.trans (each_rel_pre (ArrayKept K) (fun w s => s.tileServes w = true) .refl (fun _ _ _ => .trans)
        (fun w _ _ h hw => (h.serves w).trans hw) (fun w _ v hw => ?_) fun w hw => pairOf_serves hd hw)
      split
      · exact loadEngine_kept hV y hw
      · exact .of_tile w _ v fun h _ => by rw [hw] at h; cases h

theorem placeEngines_kept (c p : Nat) (l : List (Nat × SavedTile)) (s : State) : ArrayKept K s (placeEngines c p l s) :=
  each_rel_mem (ArrayKept K) .refl (fun _ _ _ => .trans) (fun e _ v => placeEngine_kept hV c p e.1 e.2 v) s

/-- What a context has saved is placed on tiles that serve. -/
theorem placeSaved_kept (hK : ∀ k, K k → ∀ u, u < 256 → k ≠ R.MXA_STATUS u ∧ k ≠ R.MXA_STALL u) (c : Nat) {s : State} (hn : noVector s) :
    ArrayKept K s (placeSaved c s) := by
  rw [placeSaved_eq]
  split
  · exact .refl s
  · have hengines : ArrayKept K s (placedEngines c s) := (placeEngines_kept hV _ _ _ s).trans (placeEngines_kept hV _ _ _ _)
    have hplaced : ArrayKept K s (placeChains c (s.partOf c) (placeRecomputes c (s.partOf c) (placedEngines c s))) :=
      (hengines.trans (placeRecomputes_kept _ _ _)).trans (placeChains_kept _ _ _)
    refine hplaced.trans (refills_kept hK (fun t ht => ?_) (hplaced.noVector hn))
    have := tilesOf_lt (List.mem_filter.1 ht).1
    omega

end

end

end Sys2Proof.Machine
end

section
/-! SUPPORT. A tile that is cleared, and one that leaves service (R44, R45, R54, R55). -/

namespace Sys2Proof.Machine

/-! ### A tile that is cleared (R54) -/

/-- Only registers of a tile have changed: its status, its vector engine's, and the time of its bowl's clear. -/
structure TileRegs (t : Nat) (s s' : State) : Prop where
  only : regsOnly s s'
  regs : ∀ k, k ≠ R.MXA_STATUS t → k ≠ R.VXE_STATUS t → k ≠ R.VXE_STAT t → k ≠ R.BWL_SCRUB t → s'.reg k = s.reg k
  state : s.tileServes t = false → s'.rd (F.MXA_STATUS_STATE t) = s.rd (F.MXA_STATUS_STATE t)

section
variable {t : Nat}

theorem TileRegs.refl (s : State) : TileRegs t s s := ⟨rfl, fun _ _ _ _ _ => rfl, fun _ => rfl⟩

theorem tileServes_of_rd {s s' : State} (h : s'.rd (F.MXA_STATUS_STATE t) = s.rd (F.MXA_STATUS_STATE t)) : s'.tileServes t = s.tileServes t := by
  unfold State.tileServes
  rw [h]

theorem TileRegs.trans {a b d : State} (h : TileRegs t a b) (h' : TileRegs t b d) : TileRegs t a d where
  only := h.only.trans h'.only
  regs k h1 h2 h3 h4 := (h'.regs k h1 h2 h3 h4).trans (h.regs k h1 h2 h3 h4)
  state hs := (h'.state ((tileServes_of_rd (h.state hs)).trans hs)).trans (h.state hs)

theorem TileRegs.status {s s' : State} (h : TileRegs t s s') (hi lo n : Nat) (hb : 3 < lo ∧ lo ≤ hi ∧ hi < 64 := by omega) :
    TileRegs t s (s'.wr ⟨R.MXA_STATUS t, hi, lo⟩ n) :=
  h.trans ⟨regsOnly_wr _ _ _, fun _ h1 _ _ _ => reg_wr_other _ _ _ h1, fun _ => rd_wr_beside s' (by omega) n⟩

theorem TileRegs.vxe {s s' : State} (h : TileRegs t s s') (hi lo n : Nat) : TileRegs t s (s'.wr ⟨R.VXE_STATUS t, hi, lo⟩ n) :=
  h.trans ⟨regsOnly_wr _ _ _, fun _ _ h2 _ _ => reg_wr_other _ _ _ h2, fun _ =>
    rd_wr_other s' (f := ⟨R.VXE_STATUS t, hi, lo⟩) (g := F.MXA_STATUS_STATE t) (show R.MXA_STATUS t ≠ R.VXE_STATUS t by
      unfold R.MXA_STATUS R.VXE_STATUS; omega) n⟩

theorem TileRegs.stat {s s' : State} (h : TileRegs t s s') (w : Word) : TileRegs t s (s'.setReg (R.VXE_STAT t) w) :=
  h.trans ⟨rfl, fun _ _ _ h3 _ => State.setReg_other _ _ _ h3, fun _ =>
    rd_of_reg (f := F.MXA_STATUS_STATE t) (State.setReg_other _ _ _ (show R.MXA_STATUS t ≠ R.VXE_STAT t by
      unfold R.MXA_STATUS R.VXE_STAT; omega))⟩

theorem TileRegs.scrub {s s' : State} (h : TileRegs t s s') (hi lo n : Nat) : TileRegs t s (s'.wr ⟨R.BWL_SCRUB t, hi, lo⟩ n) :=
  h.trans ⟨regsOnly_wr _ _ _, fun _ _ _ _ h4 => reg_wr_other _ _ _ h4, fun _ =>
    rd_wr_other s' (f := ⟨R.BWL_SCRUB t, hi, lo⟩) (g := F.MXA_STATUS_STATE t) (show R.MXA_STATUS t ≠ R.BWL_SCRUB t by
      unfold R.MXA_STATUS R.BWL_SCRUB; omega) n⟩

end

/-- A tile is idle or off, and its vector engine with it (R54, R57). -/
def clearedState (t : Nat) (s : State) : State :=
  if s.tileServes t then (s.wr (F.MXA_STATUS_STATE t) 1).wr (F.VXE_STATUS_STATE t) 1 else s.wr (F.VXE_STATUS_STATE t) 0

/-- A tile holds nothing but what MXA_STALL has not counted yet (R54, R61). -/
def emptied (t : Nat) (s : State) : State :=
  s.onTile t fun _ => { Tile.init with ftqRem := (s.tile t).ftqRem, opndRem := (s.tile t).opndRem }

/-- The status of a cleared tile. -/
def clearedStatus (t : Nat) (s : State) : State :=
  ((s.wr (F.MXA_STATUS_CTX_VALID t) 0).wr (F.MXA_STATUS_CUR_CTX t) 0).wr (F.MXA_STATUS_FTQ_OCC t) 0

/-- The vector engine of a cleared tile, and the time of the clear. -/
def clearedVxe (t : Nat) (s : State) : State :=
  let s := ((s.wr (F.VXE_STATUS_PC t) 0).wr (F.VXE_STATUS_KSLOT t) 0).wr (F.VXE_STATUS_LOOP_DEPTH t) 0
  let s := (s.wr (F.VXE_STATUS_PEND_SUMM t) 0).setReg (R.VXE_STAT t) 0
  s.wr (F.BWL_SCRUB_LAST_CLEAR t) s.now

theorem clearTile_eq (t : Nat) (s : State) :
    clearTile t s = clearedVxe t (clearedState t (clearedStatus t (emptied t (stallEnd t s)))) := rfl

theorem clearedStatus_regs (t : Nat) (s : State) : TileRegs t s (clearedStatus t s) :=
  (((TileRegs.refl s).status 56 56 0).status 55 48 0).status 10 8 0

theorem clearedVxe_regs (t : Nat) (s : State) : TileRegs t s (clearedVxe t s) :=
  ((((((TileRegs.refl s).vxe 41 32 0).vxe 31 28 0).vxe 26 24 0).vxe 10 8 0).stat 0).scrub 63 8 _

theorem clearedState_regs (t : Nat) (s : State) : TileRegs t s (clearedState t s) := by
  unfold clearedState
  split
  · rename_i h
    refine TileRegs.trans ⟨regsOnly_wr _ (F.MXA_STATUS_STATE t) _, fun _ h1 _ _ _ => reg_wr_other _ _ _ h1, fun hs => ?_⟩ ((TileRegs.refl _).vxe 3 0 1)
    rw [h] at hs
    cases hs
  · exact (TileRegs.refl s).vxe 3 0 0

/-- What has been counted of a tile's standing still: the tile, and MXA_STALL (R61). -/
structure StallCounted (t : Nat) (s s' : State) : Prop where
  others : ∀ j, j ≠ t → s'.tile j = s.tile j
  regs : ∀ k, k ≠ R.MXA_STALL t → s'.reg k = s.reg k
  rest : s' = { s with tiles := s'.tiles, regs := s'.regs }

theorem StallCounted.refl (t : Nat) (s : State) : StallCounted t s s := ⟨fun _ _ => rfl, fun _ _ => rfl, rfl⟩

theorem StallCounted.trans {t : Nat} {a b d : State} (h : StallCounted t a b) (h' : StallCounted t b d) : StallCounted t a d :=
  ⟨fun j hj => (h'.others j hj).trans (h.others j hj), fun k hk => (h'.regs k hk).trans (h.regs k hk), by rw [h'.rest, h.rest]⟩

theorem stallAdd_counted (t hi lo ns rem : Nat) (f : Tile → Tile) (s : State) :
    StallCounted t s ((stallAdd ⟨R.MXA_STALL t, hi, lo⟩ ns rem s).2.onTile t f) :=
  ⟨fun _ hj => State.onTile_other _ _ _ hj, fun _ hk => reg_wr_other _ _ _ hk, rfl⟩

theorem stallEnd_counted (t : Nat) (s : State) : StallCounted t s (stallEnd t s) := by
  unfold stallEnd
  dsimp only
  cases (s.tile t).ftqAt with
  | none =>
    cases (s.tile t).opndAt with
    | none => exact .refl t s
    | some a => exact stallAdd_counted t _ _ _ _ _ s
  | some a =>
    cases (s.tile t).opndAt with
    | none => exact stallAdd_counted t _ _ _ _ _ s
    | some b => exact (stallAdd_counted t _ _ _ _ _ s).trans (stallAdd_counted t _ _ _ _ _ _)

/-- What a clear of a tile leaves (R54). -/
structure TileCleared (t : Nat) (s s' : State) : Prop where
  empty : emptyTile t s'
  others : ∀ j, j ≠ t → s'.tile j = s.tile j
  state : s.tileServes t = false → s'.rd (F.MXA_STATUS_STATE t) = s.rd (F.MXA_STATUS_STATE t)
  regs : ∀ k, k ≠ R.MXA_STATUS t → k ≠ R.MXA_STALL t → k ≠ R.VXE_STATUS t → k ≠ R.VXE_STAT t → k ≠ R.BWL_SCRUB t → s'.reg k = s.reg k
  rest : s' = { s with tiles := s'.tiles, regs := s'.regs }

theorem clearTile_cleared (t : Nat) (s : State) : TileCleared t s (clearTile t s) := by
  rw [clearTile_eq]
  have hstall := stallEnd_counted t s
  generalize stallEnd t s = a at *
  have hregs : TileRegs t (emptied t a) (clearedVxe t (clearedState t (clearedStatus t (emptied t a)))) :=
    ((clearedStatus_regs t _).trans (clearedState_regs t _)).trans (clearedVxe_regs t _)
  have htile : (emptied t a).tile t = { Tile.init with ftqRem := (a.tile t).ftqRem, opndRem := (a.tile t).opndRem } := State.onTile_same _ _ _
  have hother : ∀ j, j ≠ t → (emptied t a).tile j = s.tile j := fun j hj => (State.onTile_other _ _ _ hj).trans (hstall.others j hj)
  have hreg : ∀ k, k ≠ R.MXA_STALL t → (emptied t a).reg k = s.reg k := hstall.regs
  have hrest : emptied t a = { s with tiles := (emptied t a).tiles, regs := (emptied t a).regs } := by
    have h : emptied t a = { a with tiles := (emptied t a).tiles } := rfl
    rw [h, hstall.rest]
  have hstate : (emptied t a).rd (F.MXA_STATUS_STATE t) = s.rd (F.MXA_STATUS_STATE t) :=
    rd_of_reg (f := F.MXA_STATUS_STATE t) (hreg _ (status_ne_stall t t))
  generalize emptied t a = b at *
  generalize clearedVxe t (clearedState t (clearedStatus t b)) = d at *
  have hdtile : ∀ j, d.tile j = b.tile j := fun j => hregs.only.obs (obs := fun v => v.tile j) fun _ _ => rfl
  refine ⟨?_, fun j hj => (hdtile j).trans (hother j hj), fun hs => ?_, fun k h1 h2 h3 h4 h5 => (hregs.regs k h1 h3 h4 h5).trans (hreg k h2), ?_⟩
  · unfold emptyTile
    rw [hdtile, htile]
  · exact (hregs.state ((tileServes_of_rd hstate).trans hs)).trans hstate
  · have h := hregs.only
    unfold regsOnly at h
    rw [h, hrest]

/-! ### After a tile has left service (R45) -/

/-- What the redealing of a tile's blocks and its clear leave, where the tile is out of service. -/
structure TileLeft (t : Nat) (s s' : State) : Prop where
  empty : emptyTile t s'
  state : ∀ k, s.rd (F.MXA_STATUS_STATE t) = k → k ≠ 1 → k ≠ 2 → k ≠ 3 → s'.rd (F.MXA_STATUS_STATE t) = k
  states : ∀ u, u ≠ t → stateKept u s s'
  regs : ∀ k, (∀ u, u < 256 → k ≠ R.MXA_STATUS u ∧ k ≠ R.MXA_STALL u) → k ≠ R.VXE_STATUS t → k ≠ R.VXE_STAT t → k ≠ R.BWL_SCRUB t →
    s'.reg k = s.reg k
  rest : s' = { s with tiles := s'.tiles, regs := s'.regs, ctxs := s'.ctxs, freeCtr := s'.freeCtr }

/-- A tile that no context holds has nothing to deal again. -/
theorem redeal_none {t : Nat} {s : State} (h : s.tileCtx t = none) : redeal t s = s := by
  rw [redeal_eq, h]

/-- Registers that no tile's status or count of standing still takes. -/
def offTiles (k : Nat) : Prop := ∀ u, u < 256 → k ≠ R.MXA_STATUS u ∧ k ≠ R.MXA_STALL u

theorem afterRetire_left {t : Nat} (ht : t < 256) {s : State} (hn : s.tileCtx t = none ∨ noVector s) : TileLeft t s (afterRetire t s) := by
  have hredeal : ArrayKept offTiles s (redeal t s) := by
    rcases hn with h | h
    · rw [redeal_none h]
      exact .refl s
    · exact redeal_kept (fun _ hk => hk) t h
  have hclear := clearTile_cleared t (redeal t s)
  have hdone : ∀ {β : Type} (obs : State → β), (∀ v x, obs { v with ctxs := x } = obs v) →
      obs (afterRetire t s) = obs (clearTile t (redeal t s)) := fun obs h => by
    unfold afterRetire
    dsimp only
    split
    · rfl
    · exact each_obs obs (fun o _ v => workDone_frame obs h _ o.seq v) _
  generalize afterRetire t s = z at *
  have hz : z = { clearTile t (redeal t s) with ctxs := z.ctxs } := by
    have h := hdone (fun v : State => { v with ctxs := s.ctxs }) fun _ _ => rfl
    exact congrArg (fun v : State => { v with ctxs := z.ctxs }) h
  have hztile : z.tile t = (clearTile t (redeal t s)).tile t := hdone (fun v => v.tile t) fun _ _ => rfl
  have hzreg : ∀ k, z.reg k = (clearTile t (redeal t s)).reg k := fun k => hdone (fun v => v.reg k) fun _ _ => rfl
  generalize clearTile t (redeal t s) = y at *
  refine ⟨?_, fun k hk h1 h2 h3 => ?_, fun u hu => ?_, fun k hk h1 h2 h3 => ?_, by rw [hz, hclear.rest, hredeal.rest]⟩
  · unfold emptyTile
    rw [hztile]
    exact hclear.empty
  · have hr := (hredeal.state t).eq_of hk h1 h2
    have hserves : (redeal t s).tileServes t = false := by
      unfold State.tileServes
      rw [hr]
      simp [h1, h2, h3]
    rw [rd_of_reg (f := F.MXA_STATUS_STATE t) (hzreg _), hclear.state hserves, hr]
  · refine (hredeal.state u).trans (stateKept_of_reg ((hzreg _).trans (hclear.regs _ (status_inj hu) (status_ne_stall u t) ?_ ?_ ?_)))
    · unfold R.MXA_STATUS R.VXE_STATUS; omega
    · unfold R.MXA_STATUS R.VXE_STAT; omega
    · unfold R.MXA_STATUS R.BWL_SCRUB; omega
  · rw [hzreg, hclear.regs k (hk t ht).1 (hk t ht).2 h1 h2 h3, hredeal.regs k hk]

end Sys2Proof.Machine
end

section
/-! SUPPORT. The retirement of a tile in no pair (R44, R55). -/

namespace Sys2Proof.Machine

/-- A partition with a tile that is neither retired nor PAIR_LOST has one (R55). -/
theorem noTileFault_none {p u : Nat} {s : State} (hu : u ∈ s.tilesOf p) (h5 : s.rd (F.MXA_STATUS_STATE u) ≠ 5)
    (h7 : s.rd (F.MXA_STATUS_STATE u) ≠ 7) : noTileFault p s = s := by
  have hnone : s.noTile p = false := by
    unfold State.noTile
    rw [List.all_eq_false]
    exact ⟨u, hu, by simp [h5, h7]⟩
  unfold noTileFault
  simp [hnone]

/-- The tiles of a partition depend on CTX_PART alone. -/
theorem tilesOf_congr {p : Nat} {s s' : State} (h : s'.reg (R.CTX_PART p) = s.reg (R.CTX_PART p)) : s'.tilesOf p = s.tilesOf p := by
  unfold State.tilesOf State.groupsOf
  rw [rd_of_reg (f := F.CTX_PART_GROUPS p) h]

/-- The partition of a group depends on CTX_PART alone. -/
theorem partOfGroup_of_parts {s s' : State} (h : ∀ p, p < 8 → s'.reg (R.CTX_PART p) = s.reg (R.CTX_PART p)) (g : Nat) :
    s'.partOfGroup g = s.partOfGroup g := by
  unfold State.partOfGroup
  refine List.find?_congr fun p hp => ?_
  have hk := h p (List.mem_range.1 hp)
  unfold State.on
  rw [rd_of_reg (f := F.CTX_PART_VALID p) hk, rd_of_reg (f := F.CTX_PART_GROUPS p) hk]

/-- A partition that a group belongs to is one of eight. -/
theorem partOfGroup_lt {s : State} {g p : Nat} (h : s.partOfGroup g = some p) : p < 8 := List.mem_range.1 (List.mem_of_find?_eq_some h)

/-- The state of a tile behind a write of it. -/
theorem stateWritten (t n : Nat) (hn : n < 16) (s : State) : (s.wr (F.MXA_STATUS_STATE t) n).rd (F.MXA_STATUS_STATE t) = n ∧
    (∀ k, k ≠ R.MXA_STATUS t → (s.wr (F.MXA_STATUS_STATE t) n).reg k = s.reg k) ∧
    (s.wr (F.MXA_STATUS_STATE t) n).tileCtx t = s.tileCtx t := by
  refine ⟨rd_wr_fits s (by omega) hn, fun k hk => reg_wr_other s _ _ hk, ?_⟩
  have h1 : (s.wr (F.MXA_STATUS_STATE t) n).rd (F.MXA_STATUS_CTX_VALID t) = s.rd (F.MXA_STATUS_CTX_VALID t) := rd_wr_beside s (by omega) n
  have h2 : (s.wr (F.MXA_STATUS_STATE t) n).rd (F.MXA_STATUS_CUR_CTX t) = s.rd (F.MXA_STATUS_CUR_CTX t) := rd_wr_beside s (by omega) n
  unfold State.tileCtx State.on
  rw [h1, h2]

/-- A partition that a retired tile leaves without one faults (R55). -/
def lastTileFault (t : Nat) (s : State) : State :=
  match s.partOfGroup (t / 8) with
  | none => s
  | some p => noTileFault p s

/-- Retiring one tile in no pair (R44). -/
theorem retireTiles_one {r : Retiring} (ident : Nat) {s : State} (hp : s.paired r.tile = false) :
    retireTiles [r] ident s =
      lastTileFault r.tile (afterRetire r.tile (retireRecord ident r (s.wr (F.MXA_STATUS_STATE r.tile) 5))) := by
  have hpair : (s.wr (F.MXA_STATUS_STATE r.tile) 5).paired r.tile = false := by
    rw [← hp]
    unfold State.paired State.on
    rw [rd_wr_other s (f := F.MXA_STATUS_STATE r.tile) (g := F.MXA_CFG_PAIR_EN r.tile)
      (show R.MXA_CFG r.tile ≠ R.MXA_STATUS r.tile by unfold R.MXA_CFG R.MXA_STATUS; omega)]
  unfold retireTiles
  dsimp only
  rw [show each [r] (fun r s => s.wr (F.MXA_STATUS_STATE r.tile) 5) s = s.wr (F.MXA_STATUS_STATE r.tile) 5 from rfl]
  simp only [hpair, Bool.false_and, List.filter_cons, Bool.false_eq_true, if_false, List.filter_nil, List.map_nil, List.map_cons,
    List.append_nil, List.head?_cons, Option.bind_some]
  rfl

/-- The record of a tile that retires by its own witness or by its self-test (R44). -/
theorem retireRecord_eq {r : Retiring} (hb : r.bits.testBit 3 = false) (ident : Nat) (s : State) : retireRecord ident r s =
    reportFault 0x0102 (srcTile r.tile) ((s.wr (F.MXA_WIT_STATUS_RETIRED_BY_WITNESS r.tile) 1).tileCtx r.tile).toList
      ((s.wr (F.MXA_WIT_STATUS_RETIRED_BY_WITNESS r.tile) 1).partOfGroup (r.tile / 8)) r.tile ident [byte r.row, byte r.col, byte r.bits]
      (s.wr (F.MXA_WIT_STATUS_RETIRED_BY_WITNESS r.tile) 1) := by
  unfold retireRecord
  simp only [hb, Bool.false_eq_true, if_false]

/-- Registers that the retirement of tile `t` leaves alone. -/
def offRetired (t k : Nat) : Prop :=
  offTiles k ∧ k ≠ R.MXA_WIT_STATUS t ∧ k ≠ R.VXE_STATUS t ∧ k ≠ R.VXE_STAT t ∧ k ≠ R.BWL_SCRUB t ∧ k ≠ R.TLS_LAST ∧ k ≠ R.TLS_COUNT ∧
    isLog k = false

/-- What the retirement of a tile leaves (R44, R59, R474), where its class is CORRECTED and the partition keeps another tile. -/
structure Retired (ident : Nat) (r : Retiring) (s s' : State) : Prop where
  state : s'.rd (F.MXA_STATUS_STATE r.tile) = 5
  noted : s'.rd (F.MXA_WIT_STATUS_RETIRED_BY_WITNESS r.tile) = 1
  empty : emptyTile r.tile s'
  log : logged 0x0102 (srcTile r.tile) (faultDetail (s.tileCtx r.tile) r.tile ident [byte r.row, byte r.col, byte r.bits]) s s'
  regs : ∀ k, offRetired r.tile k → s'.reg k = s.reg k
  rest : s' = { s with tiles := s'.tiles, regs := s'.regs, ctxs := s'.ctxs, freeCtr := s'.freeCtr, bb := s'.bb, tls := s'.tls }

/-- The registers of a tile and those of the device keep apart. -/
theorem retiredKeys {t : Nat} (ht : t < 64) :
    (∀ p, p < 8 → offRetired t (R.CTX_PART p)) ∧ offRetired t R.TLS_ROT ∧ (∀ i, R.TLS_POLICY i ≠ R.MXA_STATUS t ∧ R.TLS_POLICY i ≠ R.MXA_WIT_STATUS t) ∧
    (∀ u, R.MXA_STATUS u ≠ R.MXA_WIT_STATUS t) ∧ (∀ u, u < 64 → R.MXA_STATUS u ≠ R.TLS_LAST ∧ R.MXA_STATUS u ≠ R.TLS_COUNT ∧ isLog (R.MXA_STATUS u) = false) ∧
    (offTiles (R.MXA_WIT_STATUS t) ∧ R.MXA_WIT_STATUS t ≠ R.VXE_STATUS t ∧ R.MXA_WIT_STATUS t ≠ R.VXE_STAT t ∧ R.MXA_WIT_STATUS t ≠ R.BWL_SCRUB t) ∧
    R.LCS_STATUS ≠ R.MXA_STATUS t ∧ R.LCS_STATUS ≠ R.MXA_WIT_STATUS t := by
  have hlog : ∀ k, k < 0x01700000 → isLog k = false := fun k hk => isLog_of_lt hk
  refine ⟨fun p hp => ⟨fun u hu => ?_, ?_, ?_, ?_, ?_, ?_, ?_, hlog _ ?_⟩, ⟨fun u hu => ?_, ?_, ?_, ?_, ?_, by decide, by decide, by decide⟩, fun i => ?_, fun u => ?_,
    fun u hu => ⟨?_, ?_, hlog _ ?_⟩, ⟨fun u hu => ?_, ?_, ?_, ?_⟩, ?_, ?_⟩
  all_goals
    simp only [R.CTX_PART, R.MXA_STATUS, R.MXA_STALL, R.MXA_WIT_STATUS, R.VXE_STATUS, R.VXE_STAT, R.BWL_SCRUB, R.TLS_LAST, R.TLS_COUNT,
      R.TLS_ROT, R.TLS_POLICY, R.LCS_STATUS]
    omega

theorem retireTiles_retired {r : Retiring} (ht : r.tile < 64) (hb : r.bits.testBit 3 = false) (ident : Nat) {s : State}
    (hp : s.paired r.tile = false) (hc : s.classOf 0x0102 = 0) (hn : s.tileCtx r.tile = none ∨ noVector s) {p u : Nat}
    (hpart : s.partOfGroup (r.tile / 8) = some p) (hu : u ∈ s.tilesOf p) (hne : u ≠ r.tile) (h5 : s.rd (F.MXA_STATUS_STATE u) ≠ 5)
    (h7 : s.rd (F.MXA_STATUS_STATE u) ≠ 7) : Retired ident r s (retireTiles [r] ident s) := by
  obtain ⟨hkparts, hkrot, hkpol, hkwit, hkstatus, ⟨hkw1, hkw2, hkw3, hkw4⟩, hlc1, hlc2⟩ := retiredKeys ht
  have hult : u < 64 := tilesOf_lt hu
  have hp8 := partOfGroup_lt hpart
  rw [retireTiles_one ident hp, retireRecord_eq hb]
  obtain ⟨hstate, hstateReg, hstateCtx⟩ := stateWritten r.tile 5 (by decide) s
  have hstateOnly := regsOnly_wr s (F.MXA_STATUS_STATE r.tile) 5
  generalize s.wr (F.MXA_STATUS_STATE r.tile) 5 = a at *
  have hnoteReg : ∀ k, k ≠ R.MXA_WIT_STATUS r.tile → (a.wr (F.MXA_WIT_STATUS_RETIRED_BY_WITNESS r.tile) 1).reg k = a.reg k := fun k hk =>
    reg_wr_other a _ _ hk
  have hnoted : (a.wr (F.MXA_WIT_STATUS_RETIRED_BY_WITNESS r.tile) 1).rd (F.MXA_WIT_STATUS_RETIRED_BY_WITNESS r.tile) = 1 :=
    rd_wr_fits a (by omega) (by omega)
  have hnoteOnly := hstateOnly.wr (F.MXA_WIT_STATUS_RETIRED_BY_WITNESS r.tile) 1
  generalize a.wr (F.MXA_WIT_STATUS_RETIRED_BY_WITNESS r.tile) 1 = b at *
  have hbreg : ∀ k, k ≠ R.MXA_STATUS r.tile → k ≠ R.MXA_WIT_STATUS r.tile → b.reg k = s.reg k := fun k h1 h2 =>
    (hnoteReg k h2).trans (hstateReg k h1)
  have hbstatus : b.reg (R.MXA_STATUS r.tile) = a.reg (R.MXA_STATUS r.tile) := hnoteReg _ (hkwit _)
  have hbctx : b.tileCtx r.tile = s.tileCtx r.tile := by
    rw [← hstateCtx]
    unfold State.tileCtx State.on
    rw [rd_of_reg (f := F.MXA_STATUS_CTX_VALID r.tile) hbstatus, rd_of_reg (f := F.MXA_STATUS_CUR_CTX r.tile) hbstatus]
  have hcls : b.classOf 0x0102 = 0 := (classOf_congr (fun i _ => hbreg _ (hkpol i).1 (hkpol i).2) _).trans hc
  have hrep := reportFault_corrected hcls (srcTile r.tile) (b.tileCtx r.tile).toList (b.partOfGroup (r.tile / 8)) r.tile ident
    [byte r.row, byte r.col, byte r.bits]
  generalize reportFault 0x0102 (srcTile r.tile) (b.tileCtx r.tile).toList (b.partOfGroup (r.tile / 8)) r.tile ident
    [byte r.row, byte r.col, byte r.bits] b = d at *
  have hdstatus : ∀ v, v < 64 → d.reg (R.MXA_STATUS v) = b.reg (R.MXA_STATUS v) := fun v hv =>
    hrep.regs _ (hkstatus v hv).1 (hkstatus v hv).2.1 (hkstatus v hv).2.2
  have hdctx : d.tileCtx r.tile = s.tileCtx r.tile := by
    rw [← hbctx]
    unfold State.tileCtx State.on
    rw [rd_of_reg (f := F.MXA_STATUS_CTX_VALID r.tile) (hdstatus _ ht), rd_of_reg (f := F.MXA_STATUS_CUR_CTX r.tile) (hdstatus _ ht)]
  have hdctxs : d.ctxs = s.ctxs := by
    unfold regsOnly at hnoteOnly
    rw [hrep.rest, hnoteOnly]
  have hleft := afterRetire_left (t := r.tile) (by omega) (s := d) (hn.imp (hdctx.trans ·) fun h c q o ho => h c q o ((op?_of_ctxs hdctxs c q) ▸ ho))
  generalize afterRetire r.tile d = z at *
  have hregs : ∀ k, offRetired r.tile k → z.reg k = s.reg k := fun k hk => by
    obtain ⟨h1, h2, h3, h4, h5, h6, h7, h8⟩ := hk
    rw [hleft.regs k h1 h3 h4 h5, hrep.regs k h6 h7 h8, hbreg k (h1 r.tile (by omega)).1 h2]
  have hlast : lastTileFault r.tile z = z := by
    unfold lastTileFault
    rw [partOfGroup_of_parts (s := s) fun p' hp' => hregs _ (hkparts p' hp'), hpart]
    dsimp only
    have hkept : stateKept u s z := by
      refine stateKept.trans (stateKept_of_reg ?_) (hleft.states u hne)
      rw [hdstatus u hult, hbreg _ (status_inj hne) (hkwit u)]
    refine noTileFault_none (u := u) (by rw [tilesOf_congr (s := s) (hregs _ (hkparts p hp8))]; exact hu) ?_ ?_
    · unfold stateKept at hkept
      omega
    · unfold stateKept at hkept
      omega
  rw [hlast]
  unfold regsOnly at hnoteOnly
  refine ⟨hleft.state 5 ?_ (by decide) (by decide) (by decide), ?_, hleft.empty, fun hal hlen => ?_, hregs, by rw [hleft.rest, hrep.rest, hnoteOnly]⟩
  · rw [rd_of_reg (f := F.MXA_STATUS_STATE r.tile) (hdstatus _ ht), rd_of_reg (f := F.MXA_STATUS_STATE r.tile) hbstatus, hstate]
  · obtain ⟨hl, hcnt, hlg⟩ := witness_unlogged r.tile ht
    rw [rd_of_reg (f := F.MXA_WIT_STATUS_RETIRED_BY_WITNESS r.tile) (hleft.regs _ hkw1 hkw2 hkw3 hkw4),
      rd_of_reg (f := F.MXA_WIT_STATUS_RETIRED_BY_WITNESS r.tile) (hrep.regs _ hl hcnt hlg), hnoted]
  · have hbb : b.bb = s.bb := by rw [hnoteOnly]
    have hzbb : z.bb = d.bb := by rw [hleft.rest]
    have hhead : (b.tileCtx r.tile).toList.head? = s.tileCtx r.tile := by rw [hbctx]; cases s.tileCtx r.tile <;> rfl
    have h := hrep.log (by rw [lc_congr (hbreg _ hlc1 hlc2)]; exact hal) (by rw [hbb]; exact hlen)
    rw [hbb, hhead] at h
    rw [hzbb]
    exact h

end Sys2Proof.Machine
end

section
/-! SUPPORT. The self-test rotation (R47, R458). -/

namespace Sys2Proof.Machine

/-! ### A tile is taken for its test -/

/-- Registers that no tile's status, count, vector engine or bowl takes. -/
def offArray (k : Nat) : Prop := ∀ u, k ≠ R.MXA_STATUS u ∧ k ≠ R.MXA_STALL u ∧ k ≠ R.VXE_STATUS u ∧ k ≠ R.VXE_STAT u ∧ k ≠ R.VXE_CTL u ∧ k ≠ R.BWL_SCRUB u

theorem offArray_rot : offArray R.TLS_ROT := fun u => by
  unfold R.TLS_ROT R.MXA_STATUS R.MXA_STALL R.VXE_STATUS R.VXE_STAT R.VXE_CTL R.BWL_SCRUB
  omega

/-- What a tile holds for a context goes to its save area, which is no tile's (R51). -/
theorem saveTile_kept {K : Nat → Prop} (c t : Nat) (s : State) : ArrayKept K s (saveTile c t s) := by
  unfold saveTile
  split
  · exact .refl s
  · exact .of_ctx _ _ _ rfl

/-- Tiles have been cleared, `t` among them. -/
structure TilesCleared (t : Nat) (s s' : State) : Prop where
  empty : emptyTile t s'
  regs : ∀ k, offArray k → s'.reg k = s.reg k
  rest : s' = { s with tiles := s'.tiles, regs := s'.regs }

theorem TileCleared.tiles {t : Nat} {s s' : State} (h : TileCleared t s s') : TilesCleared t s s' :=
  ⟨h.empty, fun k hk => by
    obtain ⟨h1, h2, h3, h4, -, h6⟩ := hk t
    exact h.regs k h1 h2 h3 h4 h6, h.rest⟩

/-- The tiles that a test of `t` clears: the tile, and its partner, which holds the same (R51). -/
def testedTiles (s : State) (t : Nat) : List Nat := if s.paired t && s.tileServes (s.partner t) then [t, s.partner t] else [t]

theorem testedTiles_cleared (s₀ : State) (t : Nat) (s : State) : TilesCleared t s (each (testedTiles s₀ t) clearTile s) := by
  have hone := (clearTile_cleared t s).tiles
  unfold testedTiles
  split
  · have htwo := clearTile_cleared (s₀.partner t) (clearTile t s)
    have heach : each [t, s₀.partner t] clearTile s = clearTile (s₀.partner t) (clearTile t s) := rfl
    rw [heach]
    refine ⟨?_, fun k hk => (htwo.tiles.regs k hk).trans (hone.regs k hk), by rw [htwo.rest, hone.rest]⟩
    by_cases hp : t = s₀.partner t
    · rw [← hp] at htwo ⊢
      exact htwo.empty
    · have hempty := hone.empty
      unfold emptyTile at *
      rw [htwo.others t hp]
      exact hempty
  · exact hone

/-- What taking a tile for its test leaves (R47, R51). -/
structure TakenForTest (t : Nat) (s s' : State) : Prop where
  state : s'.rd (F.MXA_STATUS_STATE t) = 4
  empty : emptyTile t s'
  rot : s'.reg R.TLS_ROT = s.reg R.TLS_ROT
  others : s.tileCtx t = none → s.paired t = false → ∀ j, j ≠ t → s'.tile j = s.tile j
  rest : s' = { s with tiles := s'.tiles, regs := s'.regs, ctxs := s'.ctxs, freeCtr := s'.freeCtr }

/-- A tile under test, and those cleared with it. -/
def testTile (s₀ : State) (t : Nat) (s : State) : State := (each (testedTiles s₀ t) clearTile s).wr (F.MXA_STATUS_STATE t) 4

theorem takeForTest_none {t : Nat} {s : State} (h : s.tileCtx t = none) : takeForTest t s = testTile s t s := by
  unfold takeForTest testTile testedTiles
  rw [h]

theorem takeForTest_some {t c : Nat} {s : State} (h : s.tileCtx t = some c) : takeForTest t s =
    dealOn c (placeSaved c (holdTiles c ((testTile s t (saveTile c (if s.secondary t then s.partner t else t) s)).partOf c)
      (testTile s t (saveTile c (if s.secondary t then s.partner t else t) s)))) := by
  unfold takeForTest testTile testedTiles
  rw [h]

theorem testTile_cleared (s₀ : State) (t : Nat) (s : State) : TilesCleared t s (testTile s₀ t s) ∧
    (testTile s₀ t s).rd (F.MXA_STATUS_STATE t) = 4 := by
  have h := testedTiles_cleared s₀ t s
  unfold testTile
  generalize each (testedTiles s₀ t) clearTile s = v at *
  have hw := regsOnly_wr v (F.MXA_STATUS_STATE t) 4
  have hreg : ∀ k, offArray k → (v.wr (F.MXA_STATUS_STATE t) 4).reg k = s.reg k := fun k hk =>
    (reg_wr_other _ _ _ (hk t).1).trans (h.regs k hk)
  have hstate : (v.wr (F.MXA_STATUS_STATE t) 4).rd (F.MXA_STATUS_STATE t) = 4 := rd_wr_fits v (by omega) (by omega)
  have htile : (v.wr (F.MXA_STATUS_STATE t) 4).tile t = v.tile t := rfl
  generalize v.wr (F.MXA_STATUS_STATE t) 4 = w at *
  refine ⟨⟨?_, hreg, ?_⟩, hstate⟩
  · have hempty := h.empty
    unfold emptyTile at *
    rw [htile]
    exact hempty
  · unfold regsOnly at hw
    rw [hw, h.rest]

theorem takeForTest_taken {t : Nat} {s : State} (hn : noVector s) : TakenForTest t s (takeForTest t s) := by
  cases hc : s.tileCtx t with
  | none =>
    obtain ⟨hclear, hstate⟩ := testTile_cleared s t s
    have hothers : s.paired t = false → ∀ j, j ≠ t → (testTile s t s).tile j = s.tile j := fun hp j hj => by
      have hlist : testedTiles s t = [t] := by
        unfold testedTiles
        rw [hp]
        rfl
      have hcleared := (clearTile_cleared t s).others j hj
      unfold testTile each
      rw [hlist, List.foldl_cons, List.foldl_nil, State.wr_at_tile]
      exact hcleared
    rw [takeForTest_none hc]
    generalize testTile s t s = z at *
    exact ⟨hstate, hclear.empty, hclear.regs _ offArray_rot, fun _ hp => hothers hp, by rw [hclear.rest]⟩
  | some c =>
    rw [takeForTest_some hc]
    have hsave : ArrayKept offArray s (saveTile c (if s.secondary t then s.partner t else t) s) := saveTile_kept c _ s
    generalize saveTile c (if s.secondary t then s.partner t else t) s = a at *
    obtain ⟨hclear, hstate⟩ := testTile_cleared s t a
    generalize testTile s t a = b at *
    have hctxs : b.ctxs = a.ctxs := by rw [hclear.rest]
    have hbn : noVector b := fun c q o ho => hsave.noVector hn c q o ((op?_of_ctxs hctxs c q) ▸ ho)
    have hhold : ArrayKept offArray b (holdTiles c (b.partOf c) b) := holdTiles_kept (fun k hk u _ => ⟨(hk u).1, (hk u).2.1⟩) c _ b
    have hplace : ArrayKept offArray b (placeSaved c (holdTiles c (b.partOf c) b)) :=
      hhold.trans (placeSaved_kept (fun k hk u => ⟨(hk u).2.2.1, (hk u).2.2.2.1, (hk u).2.2.2.2.1⟩) (fun k hk u _ => ⟨(hk u).1, (hk u).2.1⟩) c
        (hhold.noVector hbn))
    have hdeal := hplace.trans (dealOn_kept (fun k hk u _ => ⟨(hk u).1, (hk u).2.1⟩) c (hplace.noVector hbn))
    generalize dealOn c (placeSaved c (holdTiles c (b.partOf c) b)) = z at *
    have hserves : b.tileServes t = false := by
      unfold State.tileServes
      rw [hstate]
      rfl
    refine ⟨(hdeal.state t).eq_of hstate (by decide) (by decide), ?_, ?_, (fun h => by rw [h] at hc; cases hc), ?_⟩
    · have hempty := hclear.empty
      unfold emptyTile at *
      rw [hdeal.idle t hserves hclear.empty]
      exact hempty
    · rw [hdeal.regs _ offArray_rot, hclear.regs _ offArray_rot, hsave.regs _ offArray_rot]
    · rw [hdeal.rest, hclear.rest, hsave.rest]

/-- The rotation behind a tile that is taken: the tile noted as the current one, the passes counted (R458). -/
def rotated (t : Nat) (wrap : Bool) (s : State) : State :=
  let s := if s.tls.first.contains t then { s with tls := { s.tls with first := s.tls.first.erase t } }
    else { s with tls := { s.tls with next := t + 1 } }
  let s := if wrap then s.wrapInc F.TLS_ROT_PASSES 1 else s
  (s.wr F.TLS_ROT_CUR_TILE t).wr F.TLS_ROT_BUSY 1

/-- SELF_TEST_START with the device ready in L0 Run and no tile under test takes the next tile (R458). -/
theorem selfTestStart_takes {s : State} {n : Nat} {wrap : Bool} (hb : s.on F.TLS_ROT_BUSY = false) (hr : s.rd F.GLB_CFG_STATUS_STATE = 1)
    (hl : s.atL0 = true) (hn : s.nextTest = some (n, wrap)) : selfTestStart s = rotated n wrap (takeForTest n s) := by
  unfold selfTestStart
  rw [if_neg (by simp [hb, hr, hl]), hn]
  rfl

theorem rotated_rot {t : Nat} (ht : t < 64) (wrap : Bool) (s : State) :
    (rotated t wrap s).rd F.TLS_ROT_BUSY = 1 ∧ (rotated t wrap s).rd F.TLS_ROT_CUR_TILE = t ∧
    (rotated t wrap s).rd F.TLS_ROT_PASSES = (s.rd F.TLS_ROT_PASSES + b2n wrap) % 2 ^ 32 ∧
    (∀ k, k ≠ R.TLS_ROT → (rotated t wrap s).reg k = s.reg k) ∧
    rotated t wrap s = { s with tls := (rotated t wrap s).tls, regs := (rotated t wrap s).regs } := by
  unfold rotated
  dsimp only
  generalize hv : (if s.tls.first.contains t then ({ s with tls := { s.tls with first := s.tls.first.erase t } } : State)
    else { s with tls := { s.tls with next := t + 1 } }) = v
  have hvrest : v = { s with tls := v.tls } := by
    rw [← hv]
    split <;> rfl
  have hvreg : ∀ k, v.reg k = s.reg k := fun k => by rw [hvrest]; rfl
  generalize hw : (if wrap then v.wrapInc F.TLS_ROT_PASSES 1 else v) = w
  have hwonly : regsOnly v w := by
    rw [← hw]
    split
    · exact regsOnly_wr _ _ _
    · rfl
  have hwreg : ∀ k, k ≠ R.TLS_ROT → w.reg k = v.reg k := fun k hk => by
    rw [← hw]
    split
    · exact reg_wr_other _ _ _ hk
    · rfl
  have hpasses : w.rd F.TLS_ROT_PASSES = (v.rd F.TLS_ROT_PASSES + b2n wrap) % 2 ^ 32 := by
    rw [← hw]
    cases wrap with
    | true => exact rd_wr_cut v (k := R.TLS_ROT) (hi := 63) (lo := 32) (by omega) _
    | false =>
      have hlt : v.rd F.TLS_ROT_PASSES < 2 ^ 32 := rd_lt v (f := F.TLS_ROT_PASSES) (by unfold Fld.ok; decide)
      exact (Nat.mod_eq_of_lt hlt).symm
  have honly : regsOnly w ((w.wr F.TLS_ROT_CUR_TILE t).wr F.TLS_ROT_BUSY 1) := (regsOnly_wr _ _ _).wr _ _
  refine ⟨rd_wr_holds _ (by decide), ?_, ?_, fun k hk => ?_, ?_⟩
  · exact (rd_wr_clear _ (by decide) _).trans (rd_wr_fits w (k := R.TLS_ROT) (hi := 6) (lo := 1) (by omega) (by omega))
  · exact (rd_wr_clear _ (by decide) _).trans ((rd_wr_clear _ (by decide) _).trans (hpasses.trans (by rw [rd_of_reg (f := F.TLS_ROT_PASSES) (hvreg _)])))
  · exact (reg_wr_other _ _ _ hk).trans ((reg_wr_other _ _ _ hk).trans ((hwreg k hk).trans (hvreg k)))
  · generalize (w.wr F.TLS_ROT_CUR_TILE t).wr F.TLS_ROT_BUSY 1 = z at *
    unfold regsOnly at honly hwonly
    rw [honly, hwonly, hvrest]

end Sys2Proof.Machine
end

section
/-! SUPPORT. The end of a test (R47, R50), and a recompute that fails (R44). -/

namespace Sys2Proof.Machine

/-! ### What the end of a test reads -/

/-- Beside tile `t` its partition has a tile that is neither retired nor PAIR_LOST (R55). -/
def otherTile (t : Nat) (s : State) : Prop :=
  ∃ p u, s.partOfGroup (t / 8) = some p ∧ u ∈ s.tilesOf p ∧ u ≠ t ∧ s.rd (F.MXA_STATUS_STATE u) ≠ 5 ∧ s.rd (F.MXA_STATUS_STATE u) ≠ 7

/-- A state that the retirement of tile `t` cannot tell from another: the rotation's register and the tile's witness status and count
of waiting apart, the registers and the black box are the same. -/
structure RetireAlike (t : Nat) (s s' : State) : Prop where
  regs : ∀ k, k ≠ R.TLS_ROT → k ≠ R.MXA_STALL t → k ≠ R.MXA_WIT_STATUS t → s'.reg k = s.reg k
  bb : s'.bb = s.bb

section
variable {t : Nat} {s s' : State} (h : RetireAlike t s s')
include h

theorem RetireAlike.status {u : Nat} (hu : u < 256) : s'.reg (R.MXA_STATUS u) = s.reg (R.MXA_STATUS u) :=
  h.regs _ (by unfold R.MXA_STATUS R.TLS_ROT; omega) (status_ne_stall u t) (by unfold R.MXA_STATUS R.MXA_WIT_STATUS; omega)

variable (ht : t < 64)
include ht

theorem RetireAlike.parts {p : Nat} (hp : p < 8) : s'.reg (R.CTX_PART p) = s.reg (R.CTX_PART p) :=
  h.regs _ (by unfold R.CTX_PART R.TLS_ROT; omega) ((partKeys_ne ht).2 p hp).2.1 ((partKeys_ne ht).2 p hp).2.2.2

theorem RetireAlike.partOfGroup (g : Nat) : s'.partOfGroup g = s.partOfGroup g := partOfGroup_of_parts (fun _ hp => h.parts ht hp) g

theorem RetireAlike.cfg : s'.reg (R.MXA_CFG t) = s.reg (R.MXA_CFG t) :=
  h.regs _ (by unfold R.MXA_CFG R.TLS_ROT; omega) (by unfold R.MXA_CFG R.MXA_STALL; omega) (by unfold R.MXA_CFG R.MXA_WIT_STATUS; omega)

theorem RetireAlike.paired : s'.paired t = s.paired t := by
  unfold State.paired State.on
  rw [rd_of_reg (f := F.MXA_CFG_PAIR_EN t) (h.cfg ht)]

theorem RetireAlike.partner : s'.partner t = s.partner t := rd_of_reg (f := F.MXA_CFG_PARTNER t) (h.cfg ht)

theorem RetireAlike.tileCtx : s'.tileCtx t = s.tileCtx t := by
  have hstatus := h.status (u := t) (by omega)
  unfold State.tileCtx State.on
  rw [rd_of_reg (f := F.MXA_STATUS_CTX_VALID t) hstatus, rd_of_reg (f := F.MXA_STATUS_CUR_CTX t) hstatus]

theorem RetireAlike.classOf (code : Nat) : s'.classOf code = s.classOf code :=
  classOf_congr (fun i _ => h.regs _ (by unfold R.TLS_POLICY R.TLS_ROT; omega) (policy_ne t i ht).2 (policy_ne t i ht).1) code

theorem RetireAlike.lc : s'.lc = s.lc :=
  lc_congr (h.regs _ (by decide) (by unfold R.LCS_STATUS R.MXA_STALL; omega) (by unfold R.LCS_STATUS R.MXA_WIT_STATUS; omega))

theorem RetireAlike.otherTile (ho : otherTile t s) : Machine.otherTile t s' := by
  obtain ⟨p, u, hpart, hu, hne, h5, h7⟩ := ho
  have hstatus := rd_of_reg (f := F.MXA_STATUS_STATE u) (h.status (by have := tilesOf_lt hu; omega))
  refine ⟨p, u, (h.partOfGroup ht _).trans hpart, ?_, hne, hstatus ▸ h5, hstatus ▸ h7⟩
  rw [tilesOf_congr (h.parts ht (partOfGroup_lt hpart))]
  exact hu

end

/-- A tile in no pair retires in a state that its retirement cannot tell from an earlier one: what it leaves, and its record behind that
earlier state's. -/
theorem retireTiles_behind {r : Retiring} (ht : r.tile < 64) (hb : r.bits.testBit 3 = false) (ident : Nat) {s v : State}
    (h : RetireAlike r.tile s v) (hp : s.on (F.MXA_CFG_PAIR_EN r.tile) = false) (hc : s.classOf 0x0102 = 0) (ho : otherTile r.tile s)
    (hn : s.tileCtx r.tile = none ∨ noVector v) : Retired ident r v (retireTiles [r] ident v) ∧
    logged 0x0102 (srcTile r.tile) (faultDetail (s.tileCtx r.tile) r.tile ident [byte r.row, byte r.col, byte r.bits]) s
      (retireTiles [r] ident v) := by
  obtain ⟨p, u, hpart, hu, hne, h5, h7⟩ := h.otherTile ht ho
  have hret := retireTiles_retired ht hb ident ((h.paired ht).trans hp) ((h.classOf ht _).trans hc) (hn.imp_left (h.tileCtx ht).trans)
    hpart hu hne h5 h7
  refine ⟨hret, fun hal hlen => ?_⟩
  have hlog := hret.log (by rw [h.lc ht]; exact hal) (by rw [h.bb]; exact hlen)
  rw [h.bb, h.tileCtx ht] at hlog
  exact hlog

/-! ### A tile that passes its test (R47, R50) -/

/-- A tile of a pair whose partner has retired (R50). -/
def lostPartner (t : Nat) (s : State) : Bool := s.paired t && decide (s.rd (F.MXA_STATUS_STATE (s.partner t)) = 5)

/-- A tile that has passed: in service again, or PAIR_LOST (R47, R50). -/
def returned (t : Nat) (lost : Bool) (s : State) : State :=
  (s.wr (F.MXA_STATUS_STATE t) (if lost then 7 else 1)).wr (F.VXE_STATUS_STATE t) (if lost then 0 else 1)

theorem returned_reg {t k : Nat} (h1 : k ≠ R.MXA_STATUS t) (h2 : k ≠ R.VXE_STATUS t) (lost : Bool) (s : State) :
    (returned t lost s).reg k = s.reg k := (reg_wr_other _ _ _ h2).trans (reg_wr_other _ _ _ h1)

theorem returned_state (t : Nat) (lost : Bool) (s : State) : (returned t lost s).rd (F.MXA_STATUS_STATE t) = if lost then 7 else 1 :=
  (rd_wr_other _ (show R.MXA_STATUS t ≠ R.VXE_STATUS t by unfold R.MXA_STATUS R.VXE_STATUS; omega) _).trans
    (rd_wr_fits s (by omega) (by cases lost <;> decide))

theorem returned_regsOnly (t : Nat) (lost : Bool) (s : State) : regsOnly s (returned t lost s) := (regsOnly_wr _ _ _).wr _ _

/-- A tile whose partition no context holds returns to service: nothing is there for it to take (R47). -/
theorem tileReturns_unheld {t p : Nat} (ht : t < 64) {s : State} (hpart : s.partOfGroup (t / 8) = some p) (hheld : s.holderOf p = none)
    (ho : otherTile t s) : tileReturns t s = returned t (lostPartner t s) s := by
  have hp := partOfGroup_lt hpart
  have hreg : ∀ k, k ≠ R.MXA_STATUS t → k ≠ R.VXE_STATUS t → (returned t (lostPartner t s) s).reg k = s.reg k := fun k h1 h2 =>
    returned_reg h1 h2 _ s
  have hparts : ∀ p', p' < 8 → (returned t (lostPartner t s) s).reg (R.CTX_PART p') = s.reg (R.CTX_PART p') := fun p' hp' =>
    hreg _ (by unfold R.CTX_PART R.MXA_STATUS; omega) (by unfold R.CTX_PART R.VXE_STATUS; omega)
  have hsch := hreg (R.SCH_STATUS p) (by unfold R.SCH_STATUS R.MXA_STATUS; omega) (by unfold R.SCH_STATUS R.VXE_STATUS; omega)
  have hstates : ∀ u, u ≠ t → (returned t (lostPartner t s) s).reg (R.MXA_STATUS u) = s.reg (R.MXA_STATUS u) := fun u hu =>
    hreg _ (status_inj hu) (by unfold R.MXA_STATUS R.VXE_STATUS; omega)
  have heq : tileReturns t s = match (returned t (lostPartner t s) s).partOfGroup (t / 8) with
      | none => returned t (lostPartner t s) s
      | some p => if lostPartner t s then noTileFault p (returned t (lostPartner t s) s)
        else match (returned t (lostPartner t s) s).holderOf p with
          | none => returned t (lostPartner t s) s
          | some c => dealWaiting p (placeSaved c (holdTiles c p (returned t (lostPartner t s) s))) := rfl
  rw [heq]
  clear heq
  generalize returned t (lostPartner t s) s = v at *
  have hvheld : v.holderOf p = none := by
    rw [← hheld]
    unfold State.holderOf State.on
    rw [rd_of_reg (f := F.SCH_STATUS_CTX_VALID p) hsch, rd_of_reg (f := F.SCH_STATUS_CUR_CTX p) hsch]
  rw [partOfGroup_of_parts hparts, hpart]
  dsimp only
  rw [hvheld]
  split
  · obtain ⟨p', u, hpart', hu, hne, h5, h7⟩ := ho
    obtain rfl : p' = p := by rw [hpart] at hpart'; exact (Option.some.inj hpart').symm
    have hstate := rd_of_reg (f := F.MXA_STATUS_STATE u) (hstates u hne)
    exact noTileFault_none (u := u) (by rw [tilesOf_congr (hparts p' hp)]; exact hu) (hstate ▸ h5) (hstate ▸ h7)
  · rfl

/-- The rotation's register behind a test that has ended (R458). -/
theorem rotEnded_alike (t : Nat) (s : State) : RetireAlike t s (s.wr F.TLS_ROT_BUSY 0) :=
  ⟨fun _ h _ _ => reg_wr_other s _ _ h, rfl⟩

/-- What a test that passes leaves on a partition that no context holds (R47, R50). -/
structure TestPassed (t : Nat) (s s' : State) : Prop where
  state : s'.rd (F.MXA_STATUS_STATE t) = if lostPartner t s then 7 else 1
  busy : s'.on F.TLS_ROT_BUSY = false
  regs : ∀ k, k ≠ R.MXA_STATUS t → k ≠ R.VXE_STATUS t → k ≠ R.TLS_ROT → s'.reg k = s.reg k
  rest : regsOnly s s'

theorem selfTestEnd_passes {t p : Nat} (ht : t < 64) (row col : Nat) {s : State} (h4 : s.rd (F.MXA_STATUS_STATE t) = 4)
    (hpart : s.partOfGroup (t / 8) = some p) (hheld : s.holderOf p = none) (ho : otherTile t s) :
    TestPassed t s (selfTestEnd t true row col s) := by
  have halike := rotEnded_alike t s
  have hp := partOfGroup_lt hpart
  have heq : selfTestEnd t true row col s = tileReturns t (s.wr F.TLS_ROT_BUSY 0) := by
    unfold selfTestEnd
    simp [h4]
  have hbusy : (s.wr F.TLS_ROT_BUSY 0).rd F.TLS_ROT_BUSY = 0 := rd_wr_holds s (by decide)
  have hreg : ∀ k, k ≠ R.TLS_ROT → (s.wr F.TLS_ROT_BUSY 0).reg k = s.reg k := fun k hk => reg_wr_other s _ _ hk
  have hwr := regsOnly_wr s F.TLS_ROT_BUSY 0
  rw [heq]
  clear heq
  generalize s.wr F.TLS_ROT_BUSY 0 = v at *
  have hsch := hreg (R.SCH_STATUS p) (by unfold R.SCH_STATUS R.TLS_ROT; omega)
  have hvheld : v.holderOf p = none := by
    rw [← hheld]
    unfold State.holderOf State.on
    rw [rd_of_reg (f := F.SCH_STATUS_CTX_VALID p) hsch, rd_of_reg (f := F.SCH_STATUS_CUR_CTX p) hsch]
  have hlost : lostPartner t v = lostPartner t s := by
    unfold lostPartner
    rw [halike.paired ht, halike.partner ht, rd_of_reg (f := F.MXA_STATUS_STATE (s.partner t)) (halike.status (partner_lt s t))]
  have hrot : R.TLS_ROT ≠ R.MXA_STATUS t ∧ R.TLS_ROT ≠ R.VXE_STATUS t := by unfold R.TLS_ROT R.MXA_STATUS R.VXE_STATUS; omega
  rw [tileReturns_unheld ht ((halike.partOfGroup ht _).trans hpart) hvheld (halike.otherTile ht ho), hlost]
  refine ⟨returned_state t _ v, ?_, fun k h1 h2 h3 => (returned_reg h1 h2 _ v).trans (hreg k h3), hwr.trans (returned_regsOnly t _ v)⟩
  rw [on_eq_false_iff, rd_of_reg (f := F.TLS_ROT_BUSY) (returned_reg hrot.1 hrot.2 _ v)]
  exact hbusy

/-- A test that fails retires its tile, where no test runs any more (R44, R47). -/
theorem selfTestEnd_fails {t : Nat} (row col : Nat) {s : State} (h4 : s.rd (F.MXA_STATUS_STATE t) = 4) :
    selfTestEnd t false row col s = retireTiles [{ tile := t, row := row, col := col, bits := 0 }] 0 (s.wr F.TLS_ROT_BUSY 0) := by
  unfold selfTestEnd
  simp [h4, testFails]

/-! ### A recompute that fails (R44) -/

/-- The check of a billet on a tile in no pair fails again: the tile retires by its witness (R42, R44). -/
theorem billetChecked_retires {t : Nat} {o : Op} {b : Billet} {d : Drained} {s : State} (hd : d.badRows ≠ [] ∨ d.badCols ≠ [])
    (hr : (s.tile t).recompute = true) (hp : s.on (F.MXA_CFG_PAIR_EN t) = false) : billetChecked t o b d s =
      retireTiles [(witnessSeen t d (floatPath o.aFmt) s).ownRetiring t] (o.ident b.row b.col b.span) (witnessSeen t d (floatPath o.aFmt) s) := by
  have hown : (d.badRows.isEmpty && d.badCols.isEmpty) = false := by
    rcases hd with h | h
    · simp [h]
    · simp [h]
  have hseen := witnessSeen_rest t d (floatPath o.aFmt) s
  have hpair : (witnessSeen t d (floatPath o.aFmt) s).paired t = false := by
    unfold State.paired State.on
    rw [rd_of_reg (f := F.MXA_CFG_PAIR_EN t) (witnessSeen_reg (by simp only [R.MXA_CFG, R.MXA_WIT_STATUS, F.MXA_CFG_PAIR_EN]; omega) _ _ _)]
    exact hp
  have hagain : ((witnessSeen t d (floatPath o.aFmt) s).tile t).recompute = true := by
    rw [hseen.obs (obs := fun v : State => v.tile t) fun _ _ => rfl]
    exact hr
  unfold billetChecked
  simp only [hown, hpair, hagain, Bool.false_eq_true, if_false, Bool.not_false, Bool.not_true, if_true]

/-- What the witness saw of a mismatch is what the record of the tile's retirement says (R44, R59). -/
theorem ownRetiring_seen (t : Nat) (d : Drained) (float : Bool) (s : State) : (witnessSeen t d float s).ownRetiring t =
    { tile := t, row := d.badRows.headD 0 % 128, col := d.badCols.headD 0 % 128,
      bits := b2n (decide (1 < d.badRows.length)) + 2 * b2n (decide (1 < d.badCols.length)) + 4 * b2n float } := by
  obtain ⟨hrow, hcol, hrows, hcols, hpath, -⟩ := witnessSeen_rd t d float s
  unfold State.ownRetiring
  rw [hrow, hcol, hrows, hcols, hpath]

/-- The record of a retirement by the witness names no disagreement of a pair (R474). -/
theorem ownBits_undisputed (a b c : Bool) : (b2n a + 2 * b2n b + 4 * b2n c).testBit 3 = false := by
  revert a b c
  decide

theorem BilletReady.seenAlike {t : Nat} {s u : State} (h : BilletReady t s u) (d : Drained) (float : Bool) :
    RetireAlike t s (witnessSeen t d float u) where
  regs k _ h2 h3 := (witnessSeen_reg h3 d float u).trans (h.regs k h2)
  bb := by
    have hbb : (witnessSeen t d float u).bb = u.bb := (witnessSeen_rest t d float u).obs (obs := State.bb) fun _ _ => rfl
    rw [hbb, h.rest]

theorem BilletReady.seenOps {t : Nat} {s u : State} (h : BilletReady t s u) (d : Drained) (float : Bool) (hn : noVector s) :
    noVector (witnessSeen t d float u) := fun c q o ho => by
  have hctxs : (witnessSeen t d float u).ctxs = u.ctxs := (witnessSeen_rest t d float u).obs (obs := State.ctxs) fun _ _ => rfl
  rw [op?_of_ctxs hctxs, h.op?] at ho
  exact hn c q o ho

end Sys2Proof.Machine
end

section
/-! The statement about the rotation and the retirement of a tile (chapter 02). -/

open Sys2Proof Sys2Proof.Machine

/-- Settles O19: the test takes the next tile, and is noted; a test that passes writes the tile's state, one that fails and a recompute
that fails retire the tile, each in a state that its retirement cannot tell from the one before; a walk that passes has no effect. -/
theorem tileRotation : Obligations.TileRotation := by
  intro t s alone
  have ht : t.val < 64 := t.isLt
  refine ⟨fun n wrap hbusy hready hl0 hnext hn hvec => ?_, fun row col p h4 hpart hheld halone => ?_,
    fun row col p h4 hcls halone hctx hpair hpart hheld => ?_, fun fx b rest o a y hd ho hk he hs hon hp hm ha hy hagain => ?_, fun u => ?_⟩
  · have htaken := takeForTest_taken (t := n) hvec
    obtain ⟨hb, hcur, hpass, hreg, hrot⟩ := rotated_rot hn wrap (takeForTest n s)
    have hstart := selfTestStart_takes hbusy hready hl0 hnext
    rw [← hstart] at hb hcur hpass hreg hrot
    clear hstart
    generalize takeForTest n s = v at *
    generalize hz : selfTestStart s = z at *
    have hframe : z = { s with tiles := z.tiles, regs := z.regs, ctxs := z.ctxs, freeCtr := z.freeCtr, tls := z.tls } := by
      rw [hrot, htaken.rest]
    have htile : ∀ j, z.tile j = v.tile j := fun j => by rw [hrot]; rfl
    refine ⟨z, ?_, ?_, ?_, hcur, ?_, ?_, fun h1 h2 j hj => (htile j).trans (htaken.others h1 h2 j hj), ?_, ?_⟩
    · rw [exec_selfTestStart, execSelfTestStart, hz]
      exact State.done_of_eq hframe rfl rfl
    · rw [rd_of_reg (f := F.MXA_STATUS_STATE n) (hreg (R.MXA_STATUS n) (by unfold R.MXA_STATUS R.TLS_ROT; omega))]
      exact htaken.state
    · unfold State.on
      rw [hb]
      rfl
    · have hempty := htaken.empty
      unfold emptyTile at *
      rw [htile]
      exact hempty
    · rw [hpass, rd_of_reg (f := F.TLS_ROT_PASSES) htaken.rot]
    · rw [hframe]
    · rw [hframe]
  · have hpassed := selfTestEnd_passes ht row.val col.val h4 hpart hheld halone
    generalize hz : selfTestEnd t.val true row.val col.val s = z at *
    refine ⟨z, ?_, ?_, hpassed.busy, hpassed.regs, hpassed.rest⟩
    · rw [exec_selfTestEnd, execSelfTestEnd, hz]
      exact State.done_of_eq hpassed.rest rfl rfl
    · rw [hpassed.state]
      simp only [lostPartner, Bool.and_eq_true, decide_eq_true_eq]
  · obtain ⟨hret, hlog⟩ := retireTiles_behind (r := { tile := t.val, row := row.val, col := col.val, bits := 0 }) ht (Nat.zero_testBit 3) 0
      (rotEnded_alike t.val s) hpair hcls halone (.inl hctx)
    rw [← selfTestEnd_fails row.val col.val h4] at hret hlog
    have hbusy : (s.wr F.TLS_ROT_BUSY 0).rd F.TLS_ROT_BUSY = 0 := rd_wr_holds s (by decide)
    have hwr := regsOnly_wr s F.TLS_ROT_BUSY 0
    generalize s.wr F.TLS_ROT_BUSY 0 = v at *
    generalize hz : selfTestEnd t.val false row.val col.val s = z at *
    refine ⟨z, ?_, hret.state, ?_, ?_, ?_⟩
    · rw [exec_selfTestEnd, execSelfTestEnd, hz]
      refine State.done_of_eq hret.rest ?_ ?_
      · exact hwr.obs (obs := State.pending) fun _ _ => rfl
      · exact hwr.obs (obs := State.otp) fun _ _ => rfl
    · unfold State.on
      rw [hret.noted]
      rfl
    · rw [on_eq_false_iff, rd_of_reg (f := F.TLS_ROT_BUSY) (hret.regs _ (retiredKeys ht).2.1)]
      exact hbusy
    · rw [hctx] at hlog
      exact hlog
  · intro d hbad hcls halone hvec
    obtain ⟨u, hend, hready, -⟩ := billetEnd_checked (fx := fx) hd ho hk he hs hon hp hm ha hy
    have hutile := hready.tile
    rw [billetChecked_retires hbad (by rw [hutile]; exact hagain) (hready.pair.trans hp), ownRetiring_seen] at hend
    have hseen := hready.seenAlike d (floatPath o.aFmt)
    have hvecs := hready.seenOps d (floatPath o.aFmt) hvec
    have honly := witnessSeen_rest t.val d (floatPath o.aFmt) u
    change billetEnd t.val fx s = retireTiles _ _ (witnessSeen t.val d (floatPath o.aFmt) u) at hend
    generalize witnessSeen t.val d (floatPath o.aFmt) u = v at *
    obtain ⟨hret, hlog⟩ := retireTiles_behind (r := ⟨t.val, d.badRows.headD 0 % 128, d.badCols.headD 0 % 128, _⟩) ht
      (ownBits_undisputed _ _ _) (o.ident b.row b.col b.span) hseen hp hcls halone (.inr hvecs)
    rw [← hend] at hret hlog
    generalize hz : billetEnd t.val fx s = z at *
    refine ⟨z, ?_, hret.state, ?_, hret.empty, hlog⟩
    · rw [exec_billetEnd, execBilletEnd, hz]
      have hv : v = { u with regs := v.regs } := honly
      refine State.done_of_eq hret.rest ?_ ?_
      · rw [hv, hready.rest]
      · rw [hv, hready.rest]
    · unfold State.on
      rw [hret.noted]
      rfl
  · rw [exec_latentCheckWalk]
    exact State.done_self s

end

section
/-! SUPPORT. Operations that the scheduler runs itself, and the end of an operation's work (R153, R164). -/

namespace Sys2Proof.Machine

/-- A started operation of a kind below the DMA kinds runs: of its context and the ladder it asks no more than `running` says (R487). -/
theorem runKind_runs {c q k : Nat} {o : Op} {s : State} (h : opRuns c q k o s) (hk : k < 0x10) (f : Op → State → State) :
    runKind k c q f s = f o s := by
  obtain ⟨hop, hkind, hstarted, hdone, hrun⟩ := h
  have hunit : o.unit = 0 ∨ o.unit = 1 := by
    unfold Op.unit
    rw [if_neg (show ¬(0x10 ≤ o.kind ∧ o.kind ≤ 0x17) by omega), if_neg (show ¬(0x18 ≤ o.kind ∧ o.kind ≤ 0x1F) by omega),
      if_neg (show ¬0x20 ≤ o.kind by omega)]
    split
    · exact .inr rfl
    · exact .inl rfl
  have hnow : s.runsNow c o = true := by
    unfold State.runsNow
    rw [if_neg (by rcases hunit with h | h <;> simp [h])]
    exact hrun
  unfold runKind
  rw [hop]
  dsimp only
  rw [if_pos (by simp [hkind, hstarted, hdone, hnow])]

/-- A change of the operation that gives it a result ends it, and leaves every other operation and context. -/
theorem opEnds_onOp {f : Op → Op} (hf : ∀ o, (f o).seq = o.seq) {c q : Nat} {o : Op} {r : Result} {s : State}
    (h : s.op? c q = some o) (hr : (f o).done = some r) : opEnds c q r s (s.onOp c q f) :=
  ⟨⟨f o, op?_onOp_same hf h, hr⟩, fun q' hq => by rw [op?_onOp hf, if_neg (by simp [hq])], fun _ hd => State.onCtx_other _ _ _ hd⟩

/-- `endOp` ends an operation whose work has not ended. -/
theorem endOp_ends {c q : Nat} {o : Op} {s : State} (h : s.op? c q = some o) (hd : o.done = none) (st detail value : Nat) :
    opEnds c q { status := st, detail := detail, value := value, ident := none } s (endOp c q st detail value s) := by
  rw [endOp_eq]
  exact opEnds_onOp (fun o => by rw [Op.ended_eq]) h (by simp [Op.ended, hd])

/-- The other operations and contexts may be told of a state before, where what came between left them alone. -/
theorem opEnds_behind {c q : Nat} {r : Result} {s u s' : State} (h : opEnds c q r u s') (hops : ∀ q', q' ≠ q → u.op? c q' = s.op? c q')
    (hctxs : ∀ d, d ≠ c → u.ctx d = s.ctx d) : opEnds c q r s s' := by
  obtain ⟨hend, hothers, helse⟩ := h
  exact ⟨hend, fun q' hq => (hothers q' hq).trans (hops q' hq), fun d hd => (helse d hd).trans (hctxs d hd)⟩

end Sys2Proof.Machine
end

section
/-! SUPPORT. TBL_LOAD, KRN_LOAD and CRV_LOAD (R71, R73, R115, R127): what a load leaves in its context. -/

namespace Sys2Proof.Machine

/-- The slots that a load of kind `k` fills. -/
def slotsOf (k : Nat) : Ctx → SMap Slot := if k = 3 then Ctx.tbl else if k = 4 then Ctx.krn else Ctx.crv

/-- A slot of a load's kind behind the placing of an image. -/
theorem slotsOf_setSlotImage (c k i j : Nat) (x : Slot) (s : State) :
    SMap.get (fun _ => Slot.empty) (slotsOf k ((setSlotImage c k i x s).ctx c)) j =
      if j = i then x else SMap.get (fun _ => Slot.empty) (slotsOf k (s.ctx c)) j := by
  unfold setSlotImage slotsOf
  rw [State.onCtx_same]
  split_ifs with h3 h4 <;> simp [SMap.get_put, *]

/-- The placing of an image leaves the operations of every context. -/
theorem setSlotImage_op? (c k i : Nat) (x : Slot) (s : State) (q : Nat) : (setSlotImage c k i x s).op? c q = s.op? c q := by
  unfold setSlotImage State.op?
  rw [State.onCtx_same]
  split_ifs <;> rfl

/-- A change of an operation leaves the slots. -/
theorem slotsOf_onOp (k c q : Nat) (f : Op → Op) (s : State) : slotsOf k ((s.onOp c q f).ctx c) = slotsOf k (s.ctx c) := by
  unfold State.onOp slotsOf
  rw [State.onCtx_same]
  split_ifs <;> rfl

/-- Of the contexts as `s` has them, slot `i` of those that kind `k` fills now holds `x`, and only operation `q` of context `c` may have
changed besides; its work has not ended. -/
structure SlotPlaced (k c q i : Nat) (x : Slot) (s u : State) : Prop where
  unended : ∃ o, u.op? c q = some o ∧ o.done = none
  others : ∀ q', q' ≠ q → u.op? c q' = s.op? c q'
  elsewhere : ∀ d, d ≠ c → u.ctx d = s.ctx d
  slots : ∀ j, SMap.get (fun _ => Slot.empty) (slotsOf k (u.ctx c)) j =
    if j = i then x else SMap.get (fun _ => Slot.empty) (slotsOf k (s.ctx c)) j

/-- An image is placed in a state with the same contexts. -/
theorem setSlotImage_placed {k c q : Nat} {o : Op} {s t : State} (hctxs : t.ctxs = s.ctxs) (h : s.op? c q = some o) (hd : o.done = none)
    (i : Nat) (x : Slot) : SlotPlaced k c q i x s (setSlotImage c k i x t) where
  unended := ⟨o, by rw [setSlotImage_op?, op?_of_ctxs hctxs, h], hd⟩
  others q' _ := by rw [setSlotImage_op?, op?_of_ctxs hctxs]
  elsewhere d hd := by
    unfold setSlotImage
    rw [State.onCtx_other _ _ _ hd]
    unfold State.ctx
    rw [hctxs]
  slots j := by
    rw [slotsOf_setSlotImage]
    unfold State.ctx
    rw [hctxs]

/-- A change of the operation, such as the note of its image for the report (R434), that leaves its count and its end. -/
theorem SlotPlaced.onOp {k c q i : Nat} {x : Slot} {s u : State} (h : SlotPlaced k c q i x s u) {f : Op → Op}
    (hf : ∀ o, (f o).seq = o.seq) (hd : ∀ o, (f o).done = o.done) : SlotPlaced k c q i x s (u.onOp c q f) where
  unended := by
    obtain ⟨o, ho, hdone⟩ := h.unended
    exact ⟨f o, op?_onOp_same hf ho, (hd o).trans hdone⟩
  others q' hq := by rw [op?_onOp hf, if_neg (by simp [hq]), h.others q' hq]
  elsewhere d hd := (State.onCtx_other _ _ _ hd).trans (h.elsewhere d hd)
  slots j := by rw [slotsOf_onOp, h.slots]

/-- The operation ends behind the placing: its slot holds the image, and every other slot what it held. -/
theorem SlotPlaced.ended {k c q i : Nat} {x : Slot} {s u : State} (h : SlotPlaced k c q i x s u) (st : Nat) :
    opEnds c q (plainResult st) s (endOp c q st 0 0 u) ∧
    SMap.get (fun _ => Slot.empty) (slotsOf k ((endOp c q st 0 0 u).ctx c)) i = x ∧
    ∀ j, j ≠ i → SMap.get (fun _ => Slot.empty) (slotsOf k ((endOp c q st 0 0 u).ctx c)) j =
      SMap.get (fun _ => Slot.empty) (slotsOf k (s.ctx c)) j := by
  have hslots : slotsOf k ((endOp c q st 0 0 u).ctx c) = slotsOf k (u.ctx c) := slotsOf_onOp _ _ _ _ _
  obtain ⟨o, ho, hd⟩ := h.unended
  refine ⟨opEnds_behind (endOp_ends ho hd st 0 0) h.others h.elsewhere, ?_, fun j hj => ?_⟩
  · rw [hslots, h.slots, if_pos rfl]
  · rw [hslots, h.slots, if_neg hj]

/-- A read of a context that reaches memory at once gives what lies there, and touches the slices (R193). -/
theorem loadAs_free {x : Payer} {s : State} (h : memFree x.ctx s) (a n : Nat) :
    loadAs x a n s = (s.ctxTouch x.ctx a n, s.ctxRead x.ctx a n) := by
  unfold loadAs
  rw [access_free h]
  exact congrArg _ (((ctxTouch_touched x.ctx a n s).alike x.ctx).ctxRead a n)

section
variable {k c q : Nat} {o : Op} {s : State} (h : opRuns c q k o s) (hk : k < 0x10)
include h hk

/-- A load whose image no more lies in the context's range (log entry 47). -/
theorem runLoad_outside (hin : s.inRange c o.loadSrc (s.loadLen c o) = false) :
    runLoad k c q s = endOp c q (loadStatus k) 0 0 (setSlotImage c k o.slot Slot.empty s) := by
  unfold runLoad
  rw [runKind_runs h hk]
  simp [hin]

/-- A load whose image has been read. -/
theorem runLoad_read {img : List Byte} (hin : s.inRange c o.loadSrc (s.loadLen c o) = true) (hm : memFree c s)
    (hread : s.ctxRead c o.loadSrc (s.loadLen c o) = .ok img) :
    let t := s.ctxTouch c o.loadSrc (s.loadLen c o)
    runLoad k c q s =
      if imageOk k img then
        endOp c q stOK 0 0 ((setSlotImage c k o.slot { valid := true, image := img } t).onOp c q fun o => { o with hashed := img })
      else endOp c q (loadStatus k) 0 0 (setSlotImage c k o.slot Slot.empty t) := by
  have hload : loadAs (s.schedPayer c q 5) o.loadSrc (s.loadLen c o) s = (s.ctxTouch c o.loadSrc (s.loadLen c o), .ok img) :=
    (loadAs_free (x := s.schedPayer c q 5) hm _ _).trans (congrArg _ hread)
  unfold runLoad
  rw [runKind_runs h hk]
  simp [hin, hload]

/-- What a load leaves whose image no more lies in the context's range: the slot invalid, and the context's records alone changed. -/
theorem runLoad_outside_leaves (hin : s.inRange c o.loadSrc (s.loadLen c o) = false) :
    ∃ s', s.done (runLoad k c q s) = .next s' ∧ opEnds c q (plainResult (loadStatus k)) s s' ∧
      SMap.get (fun _ => Slot.empty) (slotsOf k (s'.ctx c)) o.slot = Slot.empty ∧ s' = { s with ctxs := s'.ctxs } := by
  have ⟨hop, _, _, hdone, _⟩ := h
  obtain ⟨hends, hslot, -⟩ := (setSlotImage_placed (k := k) rfl hop hdone o.slot Slot.empty).ended (loadStatus k)
  rw [← runLoad_outside h hk hin] at hends hslot
  have hrest : runLoad k c q s = { s with ctxs := (runLoad k c q s).ctxs } := by
    rw [runLoad_outside h hk hin]
    rfl
  exact ⟨_, State.done_of_eq hrest rfl rfl, hends, hslot, hrest⟩

/-- What a load leaves whose image has been read: the image in its slot where it passes its checks, the slot invalid where not, the other
slots as before, and of the channels the slices that the read touched. -/
theorem runLoad_read_leaves {img : List Byte} (hin : s.inRange c o.loadSrc (s.loadLen c o) = true) (hm : memFree c s)
    (hread : s.ctxRead c o.loadSrc (s.loadLen c o) = .ok img) :
    ∃ s', s.done (runLoad k c q s) = .next s' ∧ opEnds c q (plainResult (if imageOk k img then stOK else loadStatus k)) s s' ∧
      SMap.get (fun _ => Slot.empty) (slotsOf k (s'.ctx c)) o.slot =
        (if imageOk k img then { valid := true, image := img } else Slot.empty) ∧
      (∀ j, j ≠ o.slot → SMap.get (fun _ => Slot.empty) (slotsOf k (s'.ctx c)) j =
        SMap.get (fun _ => Slot.empty) (slotsOf k (s.ctx c)) j) ∧
      cachesOnly s s' ∧ s' = { s with ctxs := s'.ctxs, chans := s'.chans } := by
  have ⟨hop, _, _, hdone, _⟩ := h
  have hrun := runLoad_read h hk hin hm hread
  have htouched := ctxTouch_touched c o.loadSrc (s.loadLen c o) s
  have hctxs : (s.ctxTouch c o.loadSrc (s.loadLen c o)).ctxs = s.ctxs := by rw [htouched.rest]
  dsimp only at hrun
  generalize s.ctxTouch c o.loadSrc (s.loadLen c o) = t at *
  have hplaced := fun x => setSlotImage_placed (k := k) (i := o.slot) (x := x) hctxs hop hdone
  have hrest : runLoad k c q s = { t with ctxs := (runLoad k c q s).ctxs } := by
    rw [hrun]
    split <;> rfl
  have hframe : runLoad k c q s = { s with ctxs := (runLoad k c q s).ctxs, chans := (runLoad k c q s).chans } := by
    rw [hrest, htouched.rest]
  have hcaches : cachesOnly s (runLoad k c q s) := by
    rw [hrest]
    exact htouched.caches
  refine ⟨_, State.done_of_eq hframe rfl rfl, ?_⟩
  by_cases hok : imageOk k img = true
  · have hended := ((hplaced { valid := true, image := img }).onOp (f := fun o => { o with hashed := img })
      (fun _ => rfl) (fun _ => rfl)).ended stOK
    rw [if_pos hok] at hrun
    rw [← hrun] at hended
    obtain ⟨hends, hslot, hothers⟩ := hended
    simp only [hok, if_true]
    exact ⟨hends, hslot, hothers, hcaches, hframe⟩
  · have hended := (hplaced Slot.empty).ended (loadStatus k)
    rw [if_neg hok] at hrun
    rw [← hrun] at hended
    obtain ⟨hends, hslot, hothers⟩ := hended
    simp only [hok]
    exact ⟨hends, hslot, hothers, hcaches, hframe⟩

end

end Sys2Proof.Machine
end

section
/-! SUPPORT. DECISION (R130–R133): the accumulators that it resets, and how it ends. -/

namespace Sys2Proof.Machine

/-- A change of the Mandrel of each group of a list that names none twice. -/
theorem each_onGroup_group {l : List Nat} (hl : l.Nodup) (f : Group → Group) (s : State) (j : Nat) :
    (each l (fun g s => s.onGroup g f) s).group j = if j ∈ l then f (s.group j) else s.group j := by
  unfold each
  induction l generalizing s with
  | nil => simp
  | cons g l ih =>
    obtain ⟨hg, hl⟩ := List.nodup_cons.1 hl
    rw [List.foldl_cons, ih hl]
    by_cases hj : j = g
    · subst hj; simp [hg]
    · simp [hj, State.onGroup_other _ _ _ hj]

/-- Changes of Mandrels leave everything else. -/
theorem each_onGroup_rest (l : List Nat) (f : Group → Group) (s : State) :
    each l (fun g s => s.onGroup g f) s = { s with groups := (each l (fun g s => s.onGroup g f) s).groups } :=
  each_rel_mem (fun s s' => s' = { s with groups := s'.groups }) (fun _ => rfl) (fun a b c h h' => by rw [h', h]) (fun _ _ _ => rfl) s

/-- The accumulator of a decision over the groups of the partition (R132). -/
def State.mergedAcc (s : State) (c : Nat) (o : Op) : Acc :=
  (s.groupsOf (s.partOf c)).foldl (fun x g => accMerge x (s.acc g c o.acc)) Acc.init

/-- The Mandrels behind a decision: where it says so, its accumulator is empty in each group of the partition (R133). -/
def accsReset (c : Nat) (o : Op) (s : State) : State :=
  if o.accReset then each (s.groupsOf (s.partOf c)) (fun g s => s.onGroup g fun x =>
    { x with accs := SMap.put (fun _ => Acc.init) x.accs (8 * c + o.acc) Acc.init }) s
  else s

theorem accsReset_rest (c : Nat) (o : Op) (s : State) : accsReset c o s = { s with groups := (accsReset c o s).groups } := by
  unfold accsReset
  split
  · exact each_onGroup_rest _ _ s
  · rfl

theorem accsReset_intake (c : Nat) (o : Op) (s : State) (g : Nat) : ((accsReset c o s).group g).intake = (s.group g).intake := by
  unfold accsReset
  split
  · rw [each_onGroup_group (groupsOf_nodup _ _)]
    split <;> rfl
  · rfl

theorem accsReset_accs (c : Nat) (o : Op) (s : State) (g j : Nat) :
    SMap.get (fun _ => Acc.init) ((accsReset c o s).group g).accs j =
      if o.accReset && decide (g ∈ s.groupsOf (s.partOf c)) && decide (j = 8 * c + o.acc) then Acc.init
      else SMap.get (fun _ => Acc.init) (s.group g).accs j := by
  unfold accsReset
  by_cases hreset : o.accReset = true
  · rw [if_pos hreset, each_onGroup_group (groupsOf_nodup _ _)]
    by_cases hg : g ∈ s.groupsOf (s.partOf c)
    · simp [hreset, hg, SMap.get_put]
    · simp [hg]
  · simp [hreset]

/-- The test of a decision's value, as bit 6 of the operation's flags. -/
def Op.testFlag (o : Op) (nan float : Bool) (v : Nat) : Nat := 64 * b2n (decisionTest o.cmp nan float v o.threshold)

/-- The result of a decision, and the flags that it sets, by what the accumulators merged to: mixed types; a type; none, where the value is
the integer zero, and the extremes report free values and EMPTY (R132, R133). -/
structure Decides (o : Op) (a : Acc) (r : Result) (flags : Nat) : Prop where
  mixed : a.mixed = true → r = plainResult stMixed
  typed : ∀ k, a.mixed = false → a.typ = some k →
    r = { status := stOK, detail := 0, value := reduced a o.reduce (k = 0),
          ident := if o.reduce = 3 then some a.loId else if o.reduce = 4 then some a.hiId else none } ∧
      flags = o.testFlag a.nan (k = 0) (reduced a o.reduce (k = 0))
  zero : a.mixed = false → a.typ = none → o.reduce < 3 → r = plainResult stOK ∧ flags = o.testFlag false false 0
  empty : a.mixed = false → a.typ = none → 3 ≤ o.reduce → r.status = stOK ∧ flags = 0x20

/-- An operation whose decision has been taken. -/
def Op.decided (r : Result) (flags : Nat) (o : Op) : Op := { o with xflags := o.xflags ||| flags, done := some r }

/-- A decision resets its accumulators where it says so, may draw free values, and ends as it decides. -/
theorem runDecision_cases {c q : Nat} {o : Op} {s : State} (h : opRuns c q 6 o s) :
    ∃ r flags n, runDecision c q s = ((accsReset c o s).drawnN n).onOp c q (Op.decided r flags) ∧
      Decides o (s.mergedAcc c o) r flags := by
  unfold runDecision State.mergedAcc
  rw [runKind_runs h (by decide)]
  dsimp only
  generalize List.foldl _ Acc.init _ = a
  by_cases hmixed : a.mixed = true
  · rw [if_pos hmixed]
    exact ⟨_, 0, 0, rfl, fun _ => rfl, by simp [hmixed], by simp [hmixed], by simp [hmixed]⟩
  · rw [if_neg hmixed]
    cases htyp : a.typ with
    | some k =>
      refine ⟨_, _, 0, rfl, by simp [hmixed], fun j _ hj => ?_, by simp [htyp], by simp [htyp]⟩
      cases htyp.symm.trans hj
      exact ⟨rfl, rfl⟩
    | none =>
      by_cases hextreme : 3 ≤ o.reduce
      · simp only [hextreme, decide_true, if_true]
        exact ⟨_, _, 2, rfl, by simp [hmixed], by simp [htyp], fun _ _ h3 => by omega, fun _ _ _ => ⟨rfl, rfl⟩⟩
      · simp only [hextreme, decide_false, Bool.false_eq_true, if_false]
        exact ⟨_, _, 0, rfl, by simp [hmixed], by simp [htyp], fun _ _ _ => ⟨rfl, rfl⟩, fun _ _ h3 => absurd h3 hextreme⟩

/-- What a decision leaves. -/
structure Decided (c q : Nat) (o : Op) (r : Result) (flags : Nat) (s s' : State) : Prop where
  ends : opEnds c q r s s'
  op : s'.op? c q = some (o.decided r flags)
  groups : ∀ g, s'.group g = (accsReset c o s).group g
  rest : s' = { s with ctxs := s'.ctxs, groups := s'.groups, freeCtr := s'.freeCtr }

theorem decided_onOp {c q : Nat} {o : Op} {s : State} (h : s.op? c q = some o) (r : Result) (flags n : Nat) :
    Decided c q o r flags s (((accsReset c o s).drawnN n).onOp c q (Op.decided r flags)) := by
  have hframe := accsReset_rest c o s
  have hop : ((accsReset c o s).drawnN n).op? c q = some o := by rw [hframe]; exact h
  refine ⟨opEnds_behind (opEnds_onOp (f := Op.decided r flags) (fun _ => rfl) hop rfl) (fun q' _ => ?_) (fun d _ => ?_),
    op?_onOp_same (f := Op.decided r flags) (fun _ => rfl) hop, fun _ => rfl, ?_⟩
  · rw [hframe]; rfl
  · rw [hframe]; rfl
  · rw [hframe]; rfl

end Sys2Proof.Machine
end

section
/-! The statement about the operations that the scheduler runs itself (chapters 03, 04, 05). -/

open Sys2Proof Sys2Proof.Machine

/-- Settles O20: each kind runs its own effect on the started operation; a load places or clears one slot behind a read that touches only
the slices, and a decision ends by the case of the merged accumulator, behind the reset of the groups' accumulators. -/
theorem schedulerKinds : Obligations.SchedulerKinds := by
  intro c q s o
  refine ⟨fun h => ?_, ?_, fun h => ?_⟩
  · have hnop : runNop c.val q s = endOp c.val q stOK 0 0 s := runKind_runs h (by decide) _
    obtain ⟨hop, -, -, hdone, -⟩ := h
    refine ⟨_, ?_, endOp_ends hop hdone stOK 0 0, rfl⟩
    rw [exec_nop, execNop, hnop]
    exact State.done_of_eq (u := { s with ctxs := (endOp c.val q stOK 0 0 s).ctxs }) rfl rfl rfl
  · exact ⟨⟨fun h => runLoad_outside_leaves h (by decide), fun _ h => runLoad_read_leaves h (by decide)⟩,
      ⟨fun h => runLoad_outside_leaves h (by decide), fun _ h => runLoad_read_leaves h (by decide)⟩,
      ⟨fun h => runLoad_outside_leaves h (by decide), fun _ h => runLoad_read_leaves h (by decide)⟩⟩
  · obtain ⟨r, flags, n, hrun, hdecides⟩ := runDecision_cases h
    have hdecided := decided_onOp h.1 r flags n
    rw [← hrun] at hdecided
    refine ⟨runDecision c.val q s, ?_, fun hmixed => ?_, fun k hmixed htyp => ?_, fun hmixed htyp hreduce => ?_,
      fun hmixed htyp hreduce => ?_, fun g => ?_, fun g j => ?_, hdecided.rest⟩
    · exact State.done_of_eq hdecided.rest rfl rfl
    · exact hdecides.mixed hmixed ▸ hdecided.ends
    · obtain ⟨hr, hflags⟩ := hdecides.typed k hmixed htyp
      exact ⟨hr ▸ hdecided.ends, _, hdecided.op, congrArg (o.xflags ||| ·) hflags⟩
    · obtain ⟨hr, hflags⟩ := hdecides.zero hmixed htyp hreduce
      exact ⟨hr ▸ hdecided.ends, _, hdecided.op, congrArg (o.xflags ||| ·) hflags⟩
    · obtain ⟨hr, hflags⟩ := hdecides.empty hmixed htyp hreduce
      exact ⟨_, r, hdecided.op, rfl, hr, congrArg (o.xflags ||| ·) hflags⟩
    · rw [hdecided.groups]
      exact accsReset_intake c.val o s g
    · rw [hdecided.groups]
      exact accsReset_accs c.val o s g j

end

section
/-! SUPPORT. Instructions of the vector engine that act on its registers (R100–R111, R128): what each arm answers where no fault is due. -/

namespace Sys2Proof.Machine

/-! ### Arithmetic and masks (R101, R107) -/

/-- An integer MIN or MAX picks by the order of the operands (R107). -/
theorem intPick_eq (least : Bool) (p : Prop) [Decidable p] (m n : Nat) :
    (if decide p = least then n else m) = if p then (if least then n else m) else if least then m else n := by
  by_cases h : p <;> cases least <;> simp [h]

/-- A mask operation sets no flag. -/
theorem vMask_eq (f : Nat → Nat → Nat) (a : VArgs) (x : Vxe) :
    vMask f a x = .ok { x.setM a.vd (f (x.m a.vs1) (x.m a.vs2)) with stat := x.stat ||| 0 } := by
  have h : (x.setM a.vd (f (x.m a.vs1) (x.m a.vs2))).stat = x.stat := by unfold Vxe.setM; split <;> rfl
  rw [Nat.or_zero, ← h]
  rfl

/-- Writes to m0 are ignored (R101). -/
@[simp] theorem Vxe.setM_zero (x : Vxe) (v : Nat) : x.setM 0 v = x := rfl

/-- m0 reads as all ones (R101). -/
theorem Vxe.testBit_m_zero (x : Vxe) {i : Nat} (h : i < 512) : (x.m 0).testBit i = true := by
  rw [show x.m 0 = maskOnes from rfl, testBit_maskOnes, decide_eq_true h]

/-! ### Moves (R105, R108–R110) -/

/-- One flag that either of two events sets. -/
theorem flagIf_or (p q : Bool) (v : Nat) : flagIf p v ||| flagIf q v = flagIf (p || q) v := by
  cases p <;> cases q <;> simp [flagIf]

/-- A code that PACK4 packs: the low four bits of the lane's byte, and SAT where there are more (R109). -/
theorem Vxe.code4_eq (x : Vxe) (a : VArgs) (j : Nat) :
    let code := if j < x.vl then laneOf 8 (x.v a.vs1) j else 0
    x.code4 a j = (code % 16, flagIf (decide (15 < code)) vSat) := by
  unfold Vxe.code4
  split <;> rfl

/-- IOTA where its lane numbers fit the element (R134). -/
theorem vIota_fits {x : Vxe} (h : ¬ (x.w = 2 ∧ 256 < x.vl)) (a : VArgs) :
    vIota a x = .ok (x.mapLanes a.vd (x.active a.mask) (laneBits x.w) (laneCount x.w) fun i => (i, 0)) :=
  if_neg (by simpa using h)

/-- PERM where no index traps (R110, R134). -/
theorem vPerm'_untrapped {a : VArgs} {x : Vxe}
    (h : ¬ (bit (fieldAt x.image 1 1) 0 = true ∧ ∃ i, i < laneCount x.w ∧ x.active a.mask i = true ∧ x.vl ≤ x.permIdx a i)) :
    vPerm' a x = .ok (x.mapLanes a.vd (x.active a.mask) (laneBits x.w) (laneCount x.w) fun i =>
      if x.permIdx a i < x.vl then (laneOf (laneBits x.w) (x.v a.vs1) (x.permIdx a i), 0) else (0, vPerm)) := by
  refine if_neg fun htrap => h ?_
  simpa using htrap

/-- CVT where the wider of the two formats holds every lane (R108, R134). -/
theorem vCvt_fits {a : VArgs} {x : Vxe}
    (h : x.vl * max (cvtBits (bits (x.imm a) 3 0)) (cvtBits (bits (x.imm a) 7 4)) ≤ 4096) (ctr : Nat) :
    vCvt ctr a x = .ok (x.mapLanes a.vd (x.active a.mask) (cvtBits (bits (x.imm a) 7 4))
      (4096 / max (cvtBits (bits (x.imm a) 3 0)) (cvtBits (bits (x.imm a) 7 4))) fun i =>
        cvtOne (bits (x.imm a) 3 0) (bits (x.imm a) 7 4) (roundOf (bit (x.imm a) 8) ctr i) (bit (x.imm a) 9)
          (laneOf (cvtBits (bits (x.imm a) 3 0)) (x.v a.vs1) i)) :=
  if_neg (Nat.not_lt.2 h)

/-- A write of one vector register and of the flags keeps the other registers. -/
theorem vxeKept_setV_stat (x : Vxe) (r v n len cyc : Nat) :
    vxeKept x (Vxe.passed { x.setV r v with stat := n } len cyc) (some r) none none := vxeKept_setV x r v len cyc

/-- CVT without a stated result writes its destination and may set flags (log entry 143). -/
theorem vCvtFree_eq (ctr : Nat) (a : VArgs) (x : Vxe) :
    ∃ v n, vCvtFree ctr a x = .ok { x.setV a.vd v with stat := x.stat ||| n } := ⟨_, _, rfl⟩

/-- An instruction that acts on the engine alone, issued behind a draw of free values: what the engine is behind it. -/
theorem kept_of_drawn {t n : Nat} {s : State} {f : VForm} {op cyc : Nat} {y : Vxe} {body : VArgs → Vxe → VRes}
    {o : Host.Outcome State Fault Refusal} (hc : o = issueV op t cyc f body (s.drawnN n))
    (hf : formOk op (vargs f) (s.eng t).w = true) (hr : s.vxeRuns t = true) (hb : body (vargs f) (s.eng t) = .ok y)
    (hy : (s.eng t).Rest y) :
    ∃ s', o = .next s' ∧ s'.eng t = y.passed (vargs f).len cyc ∧ vxePassed t (vargs f).len cyc s s' :=
  ⟨s.after (passOn t (vargs f).len cyc ((s.drawnN n).onVxe t fun _ => y)), hc.trans (issueV_runs hf hr hb),
    passed_of t (vargs f).len cyc s y hy (s.drawnN n) rfl rfl rfl rfl⟩

/-! ### Control (R100, R111) -/

/-- An instruction that keeps the engine's registers. -/
theorem vxeKept_passed (x : Vxe) (len cyc : Nat) : vxeKept x (x.passed len cyc) none none none :=
  ⟨fun _ _ => rfl, fun _ _ => rfl, fun _ _ => rfl, rfl, rfl, rfl⟩

/-- The engine behind an instruction of one that runs a kernel, whatever of the engine it changes. -/
theorem issueV_leaves {t : Nat} {s : State} {f : VForm} {op cyc : Nat} {y : Vxe} {body : VArgs → Vxe → VRes}
    {o : Host.Outcome State Fault Refusal} (hc : o = issueV op t cyc f body s) (hf : formOk op (vargs f) (s.eng t).w = true)
    (hr : s.vxeRuns t = true) (hb : body (vargs f) (s.eng t) = .ok y) :
    ∃ s', o = .next s' ∧ s'.eng t = y.passed (vargs f).len cyc := by
  refine ⟨_, hc.trans (issueV_runs hf hr hb), ?_⟩
  unfold State.eng State.onVxe
  rw [State.after_at_tile, passOn_tile, if_pos rfl, State.onTile_same]

/-- A LOOP is of two words (R105). -/
theorem len_of_loop {a : VArgs} {w : Nat} (h : formOk 0x28 a w = true) : a.len = 2 := by
  simp only [formOk, Bool.and_eq_true, decide_eq_true_eq] at h
  obtain ⟨⟨⟨⟨hform, -⟩, -⟩, -⟩, -⟩ := h
  exact if_pos hform

/-- The engine behind a word at which no open loop ends. -/
theorem Vxe.passed_apart {x : Vxe} {l : Loop} {ls : List Loop} {len : Nat} (hl : x.loops = l :: ls) (h : l.next ≠ x.pc + len) (cyc : Nat) :
    x.passed len cyc = { x with pc := x.pc + len, cycles := x.cycles + cyc } := by
  unfold Vxe.passed
  rw [hl, closeAt, if_neg h, ← hl]

end Sys2Proof.Machine
end

section
/-! SUPPORT. VLD and VST (R105, R118): the bytes of the bowl behind stores, and the tile behind each instruction. -/

namespace Sys2Proof.Machine

theorem Vxe.rest_setA_of {x y : Vxe} (h : x.Rest y) (r v : Nat) : x.Rest (y.setA r v) := by
  unfold Vxe.Rest at h ⊢; rw [h]; rfl

/-- The bits of an integer lie below their weight. -/
theorem unsignedOf_mod (w : Nat) (i : Int) : unsignedOf w i % 2 ^ w = unsignedOf w i := by
  have hpos : (0 : Int) < (2 ^ w : Nat) := by exact_mod_cast Nat.two_pow_pos w
  refine Nat.mod_eq_of_lt ?_
  unfold unsignedOf
  have h0 := Int.emod_nonneg i hpos.ne'
  have h1 := Int.emod_lt_of_pos i hpos
  omega

/-- The address register behind its advance (R118). -/
theorem Vxe.advance_a (x : Vxe) (a : VArgs) :
    (x.advance a).a a.vs1 = unsignedOf 20 ((x.a a.vs1 : Int) + signed 32 (x.imm a)) :=
  (Vxe.setA_same ..).trans (unsignedOf_mod ..)

/-! ### Instructions that act on the tile -/

section
variable {op t : Nat} {f : VForm} {body : VArgs → Tile → Except Nat Tile} {s : State} {o : Host.Outcome State Fault Refusal}

/-- An instruction that acts on the tile, of an engine that runs a kernel. -/
theorem issueT_runs {y : Tile} (hf : formOk op (vargs f) (s.eng t).w = true) (hr : s.vxeRuns t = true)
    (hb : body (vargs f) (s.tile t) = .ok y) :
    issueT op t f body s = s.done (passOn t (vargs f).len 1 (s.onTile t fun _ => y)) := by
  unfold issueT issue
  simp only [hf, hr, hb, Bool.not_true, Bool.false_eq_true, if_false]

/-- An instruction that reads the tile and changes its engine: what is left behind it. -/
theorem issueT_engine {v : Vxe} (hc : o = issueT op t f body s) (hf : formOk op (vargs f) (s.eng t).w = true) (hr : s.vxeRuns t = true)
    (hb : body (vargs f) (s.tile t) = .ok { s.tile t with vxe := v }) (hv : (s.eng t).Rest v) :
    ∃ s', o = .next s' ∧ s'.eng t = v.passed (vargs f).len 1 ∧ vxePassed t (vargs f).len 1 s s' :=
  ⟨s.after (passOn t (vargs f).len 1 (s.onVxe t fun _ => v)), hc.trans (issueT_runs hf hr hb),
    passed_of t (vargs f).len 1 s v hv s rfl rfl rfl rfl⟩

/-- An instruction that acts on the tile, issued behind a draw of free values: what the tile is behind it. -/
theorem issueT_leaves {y : Tile} {n : Nat} (hc : o = issueT op t f body (s.drawnN n)) (hf : formOk op (vargs f) (s.eng t).w = true)
    (hr : s.vxeRuns t = true) (hb : body (vargs f) (s.tile t) = .ok y) :
    ∃ s', o = .next s' ∧ s'.tile t = { y with vxe := y.vxe.passed (vargs f).len 1 } ∧ s'.devMem = s.devMem := by
  refine ⟨s.after (passOn t (vargs f).len 1 ((s.drawnN n).onTile t fun _ => y)), hc.trans (issueT_runs hf hr hb), ?_, ?_⟩
  · rw [State.after_at_tile, passOn_tile, if_pos rfl, State.onTile_same]
  · rw [State.after_devMem, passOn_frame State.devMem (fun _ _ => rfl) (fun _ _ => rfl) fun _ _ => rfl]
    rfl

end

/-- The engine behind the elements that VLD moves, before its address register advances (R105, R118). -/
def Tile.loaded (y : Tile) (a : VArgs) : Vxe :=
  let z := y.vxe.moveBytes a
  y.vxe.mapLanes a.vd (y.vxe.active a.mask) (8 * z) (512 / z) fun i =>
    (leNat ((List.range z).map fun j => y.bowl (y.vxe.a a.vs1 + i * z + j)), 0)

/-- VLD where no fault is due (R118). -/
theorem vLoad_checked {a : VArgs} {y : Tile}
    (h : bowlCheck y.entryOpen (y.vxe.a a.vs1) (y.vxe.vl * y.vxe.moveBytes a) false = none) :
    vLoad a y = .ok { y with vxe := (y.loaded a).advance a } := by
  unfold vLoad
  simp only [h]
  rfl

theorem Vxe.rest_advance {x y : Vxe} (h : x.Rest y) (a : VArgs) : x.Rest (y.advance a) := Vxe.rest_setA_of h _ _

theorem Tile.rest_loaded (y : Tile) (a : VArgs) : y.vxe.Rest (y.loaded a) := Vxe.rest_mapLanes ..

theorem Tile.loaded_lane (y : Tile) (a : VArgs) {i : Nat} (hi : i < 512 / y.vxe.moveBytes a) :
    let z := y.vxe.moveBytes a
    laneOf (8 * z) ((y.loaded a).v a.vd) i =
      if y.vxe.active a.mask i then leNat ((List.range z).map fun j => y.bowl (y.vxe.a a.vs1 + i * z + j)) % 2 ^ (8 * z)
      else laneOf (8 * z) (y.vxe.v a.vd) i := Vxe.mapLanes_lane _ _ _ _ _ _ _ hi

/-- VLD keeps every register but its destination and its address register. -/
theorem Tile.loaded_kept (y : Tile) (a : VArgs) (len cyc : Nat) :
    vxeKept y.vxe (((y.loaded a).advance a).passed len cyc) (some a.vd) none (some a.vs1) :=
  ⟨fun _ hr => Vxe.mapLanes_other _ _ _ _ _ _ fun h => hr (by rw [h]), fun _ _ => rfl,
    fun _ hr => Vxe.setA_other _ _ _ fun h => hr (by rw [h]), rfl, rfl, rfl⟩

/-! ### Bytes of the bowl (R118) -/

/-- May byte `q` of the map be stored to: scratch, or the current entry? -/
def Tile.stores (y : Tile) (q : Nat) : Prop := q < 0xBF000 ∨ 0xC0000 ≤ q ∧ y.ftq ≠ []

/-- What a checked store may touch. -/
theorem bowlCheck_stores {y : Tile} {p n q : Nat} (h : bowlCheck y.entryOpen p n true = none) (h1 : p ≤ q) (h2 : q < p + n) : y.stores q := by
  unfold bowlCheck at h
  split at h
  · cases h
  · rename_i hin
    cases he : y.entryOpen
    · simp [vRegions, he] at hin
      exact .inl (by omega)
    · have hne : y.ftq ≠ [] := fun e => by simp [Tile.entryOpen, e] at he
      simp [vRegions, he] at hin
      exact (show q < 0xBF000 ∨ 0xC0000 ≤ q by omega).imp_right fun hq => ⟨hq, hne⟩

/-- What stores to the bowl leave of a tile: all but the scratch and the entries' bytes. -/
structure Tile.BowlStep (y y' : Tile) : Prop where
  tile : y' = { y with ftq := y'.ftq, vxe := { y.vxe with scratch := y'.vxe.scratch } }
  entry : y'.ftq = [] ↔ y.ftq = []

theorem Tile.BowlStep.refl (y : Tile) : y.BowlStep y := ⟨rfl, .rfl⟩
theorem Tile.BowlStep.trans {a b c : Tile} (h : a.BowlStep b) (h' : b.BowlStep c) : a.BowlStep c :=
  ⟨by rw [h'.tile, h.tile], h'.entry.trans h.entry⟩
theorem Tile.BowlStep.stores {y y' : Tile} (h : y.BowlStep y') {q : Nat} (hq : y.stores q) : y'.stores q :=
  hq.imp_right fun hq => ⟨hq.1, fun e => hq.2 (h.entry.1 e)⟩

theorem Tile.setBowl_step (y : Tile) (q : Nat) (b : Byte) : y.BowlStep (y.setBowl q b) := by
  unfold Tile.setBowl
  split
  · exact ⟨rfl, .rfl⟩
  · split
    · exact .refl y
    · rename_i he
      exact ⟨rfl, by simp [he]⟩

/-- A byte just stored reads as stored, and every other as before. -/
theorem Tile.bowl_setBowl {y : Tile} {q : Nat} (hq : y.stores q) (b : Byte) (r : Nat) :
    (y.setBowl q b).bowl r = if r = q then b else y.bowl r := by
  unfold Tile.setBowl
  by_cases hs : q < 0xBF000
  · rw [if_pos hs]
    unfold Tile.bowl
    by_cases hr : r = q
    · subst hr
      simp only [hs, if_true, SMap.get_put_same]
    · simp only [hr, if_false, SMap.get_put_other _ _ _ hr]
  · obtain ⟨hlow, hne⟩ := hq.resolve_left hs
    rw [if_neg hs]
    obtain ⟨e, es, he⟩ := List.exists_cons_of_ne_nil hne
    unfold Tile.bowl
    simp only [he]
    by_cases hr : r = q
    · subst hr
      simp only [hs, show ¬ r < 0xC0000 by omega, if_true, if_false, SMap.get_put_same]
    · by_cases h1 : r < 0xBF000
      · simp [h1, hr]
      · by_cases h2 : r < 0xC0000
        · simp [h1, h2, hr]
        · simp only [h1, h2, hr, if_false]
          exact SMap.get_put_other _ _ _ (by omega)

/-- Bytes stored in turn from place `p` on, the first with number `k`. -/
def Tile.storeFrom (p k : Nat) (bs : List Byte) (y : Tile) : Tile := (bs.zipIdx k).foldl (fun y b => y.setBowl (p + b.2) b.1) y

theorem Tile.storeFrom_step (p k : Nat) (bs : List Byte) (y : Tile) : y.BowlStep (y.storeFrom p k bs) := by
  induction bs generalizing k y with
  | nil => exact .refl y
  | cons b bs ih => exact (y.setBowl_step _ b).trans (ih (k + 1) _)

/-- Bytes stored in turn read as stored, and every other byte as before. -/
theorem Tile.bowl_storeFrom {p k : Nat} {bs : List Byte} {y : Tile} (h : ∀ j, j < bs.length → y.stores (p + k + j)) (r : Nat) :
    (y.storeFrom p k bs).bowl r = if p + k ≤ r ∧ r < p + k + bs.length then bs.getD (r - (p + k)) 0 else y.bowl r := by
  induction bs generalizing k y with
  | nil => rw [if_neg (by simp only [List.length_nil]; omega)]; rfl
  | cons b bs ih =>
    have hrest := ih (k := k + 1) (y := y.setBowl (p + k) b) fun j hj =>
      (y.setBowl_step _ b).stores (by have := h (j + 1) (by simpa using hj); rwa [show p + (k + 1) + j = p + k + (j + 1) by omega])
    rw [show y.storeFrom p k (b :: bs) = (y.setBowl (p + k) b).storeFrom p (k + 1) bs from rfl, hrest,
      Tile.bowl_setBowl (q := p + k) (h 0 (by simp)), List.length_cons]
    by_cases h1 : p + (k + 1) ≤ r ∧ r < p + (k + 1) + bs.length
    · rw [if_pos h1, if_pos (by omega), show r - (p + k) = r - (p + (k + 1)) + 1 by omega, List.getD_cons_succ]
    · rw [if_neg h1]
      by_cases h2 : r = p + k
      · rw [if_pos h2, if_pos (by omega), h2, Nat.sub_self, List.getD_cons_zero]
      · rw [if_neg h2, if_neg (by omega)]

/-- Elements of `z` bytes stored in turn from place `p` on: those of the first `n` that `act` names. -/
def Tile.storeElems (p z : Nat) (act : Nat → Bool) (el : Nat → Nat) (n : Nat) (y : Tile) : Tile :=
  (List.range n).foldl (fun y i => if act i then y.storeFrom (p + i * z) 0 (leBytes (el i) z) else y) y

@[simp] theorem length_leBytes (v n : Nat) : (leBytes v n).length = n := by
  induction n generalizing v with
  | zero => rfl
  | succ n ih => rw [leBytes, List.length_cons, ih]

theorem getD_leBytes (v n j : Nat) (h : j < n) : (leBytes v n).getD j 0 = byte (v / 256 ^ j) := by
  induction n generalizing v j with
  | zero => omega
  | succ n ih =>
    cases j with
    | zero => simp [leBytes]
    | succ j => rw [leBytes, List.getD_cons_succ, ih _ _ (by omega), Nat.div_div_eq_div_mul, Nat.pow_succ']

section
variable {p z : Nat} {act : Nat → Bool} {el : Nat → Nat}

theorem Tile.storeElems_succ (n : Nat) (y : Tile) : y.storeElems p z act el (n + 1) =
    if act n then (y.storeElems p z act el n).storeFrom (p + n * z) 0 (leBytes (el n) z) else y.storeElems p z act el n := by
  unfold Tile.storeElems
  rw [List.range_succ, List.foldl_append]
  rfl

theorem Tile.storeElems_step (n : Nat) (y : Tile) : y.BowlStep (y.storeElems p z act el n) := by
  induction n with
  | zero => exact .refl y
  | succ n ih =>
    rw [storeElems_succ]
    split
    · exact ih.trans (Tile.storeFrom_step ..)
    · exact ih

/-- The bowl behind one more element. -/
theorem Tile.bowl_storeElems_succ {n : Nat} {y : Tile} (h : ∀ j, j < (n + 1) * z → y.stores (p + j)) (r : Nat) :
    (y.storeElems p z act el (n + 1)).bowl r =
      if act n = true ∧ p + n * z ≤ r ∧ r < p + (n + 1) * z then byte (el n / 256 ^ (r - (p + n * z)))
      else (y.storeElems p z act el n).bowl r := by
  have hz : (n + 1) * z = n * z + z := Nat.succ_mul n z
  rw [storeElems_succ]
  by_cases ha : act n = true
  · rw [if_pos ha, Tile.bowl_storeFrom fun j hj => ?_]
    · simp only [length_leBytes, Nat.add_zero, ha, true_and]
      by_cases hr : p + n * z ≤ r ∧ r < p + n * z + z
      · rw [if_pos hr, if_pos (by omega), getD_leBytes _ _ _ (by omega)]
      · rw [if_neg hr, if_neg (by omega)]
    · rw [length_leBytes] at hj
      have := h (n * z + j) (by omega)
      exact (Tile.storeElems_step n y).stores (by rwa [show p + n * z + 0 + j = p + (n * z + j) by omega])
  · rw [if_neg ha, if_neg fun h => ha h.1]

/-- A byte that no stored element covers reads as before. -/
theorem Tile.bowl_storeElems_other {n : Nat} {y : Tile} (h : ∀ j, j < n * z → y.stores (p + j)) {r : Nat}
    (hr : ∀ i, i < n → act i = true → r < p + i * z ∨ p + (i + 1) * z ≤ r) : (y.storeElems p z act el n).bowl r = y.bowl r := by
  induction n with
  | zero => rfl
  | succ n ih =>
    rw [Tile.bowl_storeElems_succ h, if_neg fun hc => ?_]
    · exact ih (fun j hj => h j (by rw [Nat.succ_mul]; omega)) fun i hi => hr i (by omega)
    · rcases hr n (by omega) hc.1 with h1 | h1 <;> omega

/-- Byte `j` of a stored element. -/
theorem Tile.bowl_storeElems {n : Nat} {y : Tile} (h : ∀ j, j < n * z → y.stores (p + j)) {i j : Nat} (hi : i < n) (ha : act i = true)
    (hj : j < z) : (y.storeElems p z act el n).bowl (p + i * z + j) = byte (el i / 256 ^ j) := by
  induction n with
  | zero => omega
  | succ n ih =>
    rw [Tile.bowl_storeElems_succ h]
    by_cases hn : i = n
    · subst hn
      rw [if_pos ⟨ha, by omega, by rw [Nat.succ_mul]; omega⟩, show p + i * z + j - (p + i * z) = j by omega]
    · have hle : (i + 1) * z ≤ n * z := Nat.mul_le_mul_right z (by omega)
      rw [Nat.succ_mul] at hle
      rw [if_neg (by omega)]
      exact ih (fun j hj => h j (by rw [Nat.succ_mul]; omega)) (by omega)

end

/-- What VST stores for element `i`: the register's element, and beyond the register a free value from place `ctr` (log entry 40). -/
def Vxe.storedElem (x : Vxe) (a : VArgs) (ctr i : Nat) : Nat :=
  if i < 512 / x.moveBytes a then laneOf (8 * x.moveBytes a) (x.v a.vd) i else (Config.freeBits (ctr + i)).toNat

/-- The tile behind the elements that VST stores, before the address register advances (R105, R118). -/
def Tile.stored (y : Tile) (a : VArgs) (ctr : Nat) : Tile :=
  y.storeElems (y.vxe.a a.vs1) (y.vxe.moveBytes a) (y.vxe.active a.mask) (y.vxe.storedElem a ctr) y.vxe.vl

/-- VST where no fault is due (R118). -/
theorem vStore_checked {a : VArgs} {y : Tile}
    (h : bowlCheck y.entryOpen (y.vxe.a a.vs1) (y.vxe.vl * y.vxe.moveBytes a) true = none) (ctr : Nat) :
    vStore ctr a y = .ok { y.stored a ctr with vxe := (y.stored a ctr).vxe.advance a } := by
  unfold vStore
  simp only [h]
  rfl

/-- VST keeps every register but its address register, which advances. -/
theorem Tile.stored_engine (y : Tile) (a : VArgs) (ctr len cyc : Nat) :
    let x' := ((y.stored a ctr).vxe.advance a).passed len cyc
    x'.a a.vs1 = unsignedOf 20 ((y.vxe.a a.vs1 : Int) + signed 32 (y.vxe.imm a)) ∧ vxeKept y.vxe x' none none (some a.vs1) := by
  have hstep : y.BowlStep (y.stored a ctr) := Tile.storeElems_step ..
  rw [show (y.stored a ctr).vxe = { y.vxe with scratch := (y.stored a ctr).vxe.scratch } from congrArg Tile.vxe hstep.tile]
  exact ⟨by rw [Vxe.passed_a, Vxe.advance_a]; rfl, fun _ _ => rfl, fun _ _ => rfl,
    fun _ hr => Vxe.setA_other _ _ _ fun h => hr (by rw [h]), rfl, rfl, rfl⟩

end Sys2Proof.Machine
end

section
/-! The statements about the instructions of the vector engine that act on registers and the bowl (chapter 04). -/

open Sys2Proof Sys2Proof.Machine

/-- Settles O6: each arm writes lanes, and its lane function is that of the statement; MIN and MAX pick by the order of the operands. -/
theorem vxeArithmeticLanes : Obligations.VxeArithmeticLanes := by
  intro t f s hr a x b flt int addend lanes
  have lane : ∀ {c : Instr} {op : Nat} {g : Nat → Nat × Nat} {body : VArgs → Vxe → VRes}, exec c s = issueV op t.val 1 f body s →
      body a x = .ok (x.mapLanes a.vd (x.active a.mask) b (laneCount x.w) g) → lanes c op g :=
    fun hc hb hf => lanes_of hc hf hr hb rfl rfl rfl rfl rfl rfl
  refine ⟨lane (exec_add s t f) rfl, lane (exec_mul s t f) rfl, lane (exec_fma s t f) rfl, lane (exec_min s t f) ?_, lane (exec_max s t f) ?_⟩
  all_goals
    unfold vPick
    simp only [intPick_eq]
    rfl

/-- Settles O7: a compare and a mask operation write a mask bit by bit, MCNT the low word of a register; a write of m0 is no write. -/
theorem vxeMasks : Obligations.VxeMasks := by
  intro t f s hr a x b flt int sig mask
  have compare : ∀ {c : Instr} {op : Nat} {fop : FV → FV → Bool} {iop : Int → Int → Bool},
      exec c s = issueV op t.val 1 f (vCompare fop iop) s →
      mask c op sig (fun i => x.active a.mask i &&
        if a.t = 0 then fop (flt (x.src1 a i)) (flt (x.src2 a i)) else iop (int (x.src1 a i)) (int (x.src2 a i))) :=
    fun hc hf => mask_of hc hf hr rfl fun i hi => testBit_bitsFrom _ _ i hi
  have bitwise : ∀ {c : Instr} {op : Nat} {g : Nat → Nat → Nat} {h : Nat → Bool}, exec c s = issueV op t.val 1 f (vMask g) s →
      (∀ i, i < 512 → (g (x.m a.vs1) (x.m a.vs2)).testBit i = h i) → mask c op 0 h :=
    fun hc hg hf => mask_of hc hf hr (vMask_eq _ _ _) hg
  refine ⟨compare (exec_cmpeq s t f), compare (exec_cmplt s t f), compare (exec_cmple s t f), ?_,
    bitwise (exec_mand s t f) fun i _ => Nat.testBit_and .., bitwise (exec_mor s t f) fun i _ => Nat.testBit_or ..,
    bitwise (exec_mxor s t f) fun i _ => (Nat.testBit_xor ..).trans (by simp), bitwise (exec_mnot s t f) fun i hi => ?_, fun hf => ?_,
    fun i hi => x.testBit_m_zero hi, fun r v => rfl, x.setM_zero, fun i hi => ?_⟩
  · have h := compare (exec_cmpun s t f)
    by_cases ht : a.t = 0 <;> simpa [ht] using h
  · rw [Nat.testBit_xor, testBit_maskOnes, decide_eq_true hi, Bool.true_xor]
  · obtain ⟨s', hs, he, hp⟩ := kept_of (exec_mcnt s t f) hf hr (vCount_eq _ _) (Vxe.rest_setV _ _ _)
    have hlow := Nat.mod_lt (popCount (x.m a.vs1) x.vl) (Nat.two_pow_pos 32)
    have hv : (s'.eng t.val).v a.vd = x.v a.vd / 2 ^ 32 * 2 ^ 32 + popCount (x.m a.vs1) x.vl % 2 ^ 32 := by
      rw [he, Vxe.passed_v]
      exact Vxe.setV_same _ _ _
    refine ⟨s', hs, ?_, ?_, by rw [he, Vxe.passed_stat, Vxe.setV_stat], he ▸ vxeKept_setV _ _ _ _ _, hp⟩
    · rw [hv, ← popCount_eq]; omega
    · rw [hv]; omega
  · unfold Vxe.active
    rw [x.testBit_m_zero hi, Bool.and_true]

/-- Settles O8: with no fault due each arm writes lanes; a CVT word without a result writes its destination and may set flags. -/
theorem vxeMoves : Obligations.VxeMoves := by
  intro t f s hr a x b n
  have lane : ∀ {c : Instr} {op cyc b n : Nat} {act : Nat → Bool} {g : Nat → Nat × Nat} {body : VArgs → Vxe → VRes},
      exec c s = issueV op t.val cyc f body s → formOk op a x.w = true → body a x = .ok (x.mapLanes a.vd act b n g) →
      ∃ s', exec c s = .next s' ∧ laneStep t.val a.vd a.len cyc b n act g s s' :=
    fun hc hf hb => lanes_of hc hf hr hb rfl rfl rfl rfl rfl rfl
  have hcurve : exec (.curve t f) s = issueV 0x1D t.val 2 f
      (vCurve (SMap.get (fun _ => Slot.empty) (s.ctx (x.opKey.getD (0, 0)).1).crv a.vs2).image) s := exec_curve s t f
  refine ⟨fun hf => lane (exec_sel s t f) hf rfl, fun hf hfit => lane (exec_iota s t f) hf (vIota_fits hfit a),
    fun hf htrap => lane (exec_perm s t f) hf (vPerm'_untrapped htrap), fun hf => lane hcurve hf rfl, ?_, fun hf hm => ?_, ?_⟩
  · intro m hf hsrc hdst hlt hfit
    have hstated : cvtStated m = true := by simp [cvtStated, hsrc, hdst, hlt]
    have hexec : exec (.cvt t f) s = issueV 0x18 t.val 1 f (vCvt s.freeCtr) (if bit m 8 then s.drawnN 512 else s) :=
      (exec_cvt s t f).trans (if_pos hstated)
    have hfits := vCvt_fits hfit s.freeCtr
    by_cases hk : bit m 8 = true
    · rw [if_pos hk] at hexec
      exact lanes_of hexec hf hr hfits rfl rfl rfl rfl rfl rfl
    · rw [if_neg hk] at hexec
      exact lane hexec hf hfits
  · have hexec : exec (.cvt t f) s = issueV 0x18 t.val 1 f (vCvtFree s.freeCtr) (s.drawnN 65) :=
      (exec_cvt s t f).trans (if_neg (ne_true_of_eq_false hm))
    obtain ⟨v, fl, hfree⟩ := vCvtFree_eq s.freeCtr a x
    obtain ⟨s', hs, he, hp⟩ := kept_of_drawn hexec hf hr hfree (Vxe.rest_stat (Vxe.rest_setV _ _ _) _)
    refine ⟨s', hs, ?_, ?_, hp⟩
    · rw [he, Vxe.passed_stat, Nat.or_right_comm, Nat.or_self]
    · rw [he]
      exact vxeKept_setV_stat ..
  · intro code hf
    refine lane (exec_pack4 s t f) hf ?_
    unfold vPack
    simp only [Vxe.code4_eq, flagIf_or]
    rfl

/-- Settles O9: the arms change the engine alone; the word behind a LOOP is not the end of the loop that it opens. -/
theorem vxeControl : Obligations.VxeControl := by
  intro t f s hr a x count next
  refine ⟨fun hf => ?_, fun hf => ?_, fun hf => ?_, fun hf hdepth hcount hnext => ?_⟩
  · obtain ⟨s', hs, he, hp⟩ := kept_of (exec_vxeNop s t f) hf hr rfl x.rest_self
    exact ⟨s', hs, by rw [he, Vxe.passed_stat], he ▸ vxeKept_passed .., hp⟩
  · obtain ⟨s', hs, he, hp⟩ := kept_of (exec_seta s t f) hf hr rfl (x.rest_setA a.vd (x.imm a))
    exact ⟨s', hs, by rw [he, Vxe.passed_a, Vxe.setA_same], by rw [he, Vxe.passed_stat, Vxe.setA_stat], he ▸ vxeKept_setA .., hp⟩
  · obtain ⟨s', hs, he, hp⟩ := kept_of (exec_setvl s t f) hf hr rfl (Vxe.rest_len x.rest_self _ _ _)
    exact ⟨s', hs, by rw [he]; rfl, by rw [he]; rfl, by rw [he]; rfl, fun r => by rw [he]; exact ⟨rfl, rfl, rfl⟩, by rw [he]; rfl, hp⟩
  · have hexec : exec (.loopBody t f) s = issueV 0x28 t.val 1 f vLoop s :=
      (exec_loopBody s t f).trans (if_neg (by simpa using fun _ => hdepth))
    have hopen : vLoop a x = .ok { x with loops := { first := x.pc + 2, next := next, left := count - 1 } :: x.loops } :=
      if_neg (by simpa using ⟨hcount, hnext⟩)
    obtain ⟨s', hs, he⟩ := issueV_leaves hexec hf hr hopen
    rw [Vxe.passed_apart rfl (by rw [len_of_loop hf]; exact hnext), len_of_loop hf] at he
    exact ⟨s', hs, by rw [he], by rw [he], by rw [he], he ▸ ⟨fun _ _ => rfl, fun _ _ => rfl, fun _ _ => rfl, rfl, rfl, rfl⟩⟩

/-- Settles O10: a VLD writes lanes from the bowl; a VST stores element by element, every byte of which lies where a store may go. -/
theorem vxeBowlMoves : Obligations.VxeBowlMoves := by
  intro t f s hr a x z p
  refine ⟨fun hf hcheck => ?_, fun hf hcheck => ?_⟩
  · obtain ⟨s', hs, he, hp⟩ := issueT_engine (exec_vld s t f) hf hr (vLoad_checked hcheck) (Vxe.rest_advance ((s.tile t.val).rest_loaded a) a)
    refine ⟨s', hs, fun i hi => ?_, ?_, ?_, hp⟩
    · rw [he]
      exact (s.tile t.val).loaded_lane a hi
    · rw [he, Vxe.passed_a, Vxe.advance_a]
      rfl
    · rw [he]
      exact (s.tile t.val).loaded_kept a _ _
  · obtain ⟨n, hexec⟩ : ∃ n, exec (.vst t f) s = issueT 0x21 t.val f (vStore s.freeCtr) (s.drawnN n) := by
      rw [exec_vst]
      unfold execVst
      split
      · exact ⟨512, rfl⟩
      · exact ⟨0, rfl⟩
    have hstores : ∀ j, j < x.vl * z → (s.tile t.val).stores (p + j) := fun j hj => bowlCheck_stores hcheck (by omega) (by omega)
    obtain ⟨s', hs, htile, hmem⟩ := issueT_leaves hexec hf hr (vStore_checked hcheck s.freeCtr)
    obtain ⟨hadvance, hkept⟩ := (s.tile t.val).stored_engine a s.freeCtr a.len 1
    have heng : s'.eng t.val = (((s.tile t.val).stored a s.freeCtr).vxe.advance a).passed a.len 1 := congrArg Tile.vxe htile
    have hbowl : ∀ q, (s'.tile t.val).bowl q = ((s.tile t.val).stored a s.freeCtr).bowl q := fun q => by rw [htile]; rfl
    refine ⟨s', hs, by rw [heng]; exact hadvance, fun q hq => ?_, fun i j hi hin ha hj => ?_, by rw [heng]; exact hkept, hmem⟩
    · rw [hbowl]
      exact Tile.bowl_storeElems_other hstores hq
    · rw [hbowl]
      refine (Tile.bowl_storeElems hstores hi ha hj).trans ?_
      unfold Vxe.storedElem
      rw [if_pos hin]

end

section
/-! SUPPORT. Output and the end of an invocation (R122–R124, R129): what FREE, WOUT, SUMM and END leave of the tile and its registers. -/

namespace Sys2Proof.Machine

/-! ### What issue leaves -/

/-- Bringing the tile's registers to its engine keeps VXE_STATUS.STATE. -/
theorem syncVxe_state (t : Nat) (s : State) : (syncVxe t s).rd (F.VXE_STATUS_STATE t) = s.rd (F.VXE_STATUS_STATE t) := by
  have h : ∀ a b c d, ((((s.wr (F.VXE_STATUS_PC t) a).wr (F.VXE_STATUS_LOOP_DEPTH t) b).wr (F.VXE_STATUS_PEND_SUMM t) c).setReg
      (R.VXE_STAT t) d).rd (F.VXE_STATUS_STATE t) = s.rd (F.VXE_STATUS_STATE t) := fun a b c d =>
    calc _ = _ := rd_setReg_other _ _ _ (show R.VXE_STATUS t ≠ R.VXE_STAT t by unfold R.VXE_STATUS R.VXE_STAT; omega)
      _ = _ := rd_wr_beside _ (by omega) c
      _ = _ := rd_wr_beside _ (by omega) b
      _ = _ := rd_wr_beside _ (by omega) a
  unfold syncVxe
  dsimp only
  generalize (s.tile t).vxe = v
  cases v.opKey with
  | none => dsimp only; rw [h]
  | some p => dsimp only [State.onOp]; rw [State.onCtx_at_rd, h]

/-- What an instruction that acts on the state leaves: the engine passed on behind its effect `u`. -/
structure PassedOn (t len cyc : Nat) (u s' : State) : Prop where
  tile : s'.tile t = { u.tile t with vxe := (u.eng t).passed len cyc }
  others : ∀ j, j ≠ t → s'.tile j = u.tile j
  state : s'.rd (F.VXE_STATUS_STATE t) = u.rd (F.VXE_STATUS_STATE t)
  devMem : s'.devMem = u.devMem

theorem PassedOn.eng {t len cyc : Nat} {u s' : State} (h : PassedOn t len cyc u s') : s'.eng t = (u.eng t).passed len cyc :=
  congrArg Tile.vxe h.tile

/-- An instruction that acts on the state, of an engine that runs a kernel, issued behind a draw of free values at most. -/
theorem issue_leaves {op t cyc : Nat} {f : VForm} {body : VArgs → State → Except Nat State} {s v u : State}
    {o : Host.Outcome State Fault Refusal} (hc : o = issue op t cyc f body v) (hv : v = { s with freeCtr := v.freeCtr })
    (hf : formOk op (vargs f) (s.eng t).w = true) (hr : s.vxeRuns t = true) (hb : body (vargs f) v = .ok u) :
    ∃ s', o = .next s' ∧ PassedOn t (vargs f).len cyc u s' := by
  have hf' : formOk op (vargs f) (v.tile t).vxe.w = true := by rw [hv]; exact hf
  have hr' : v.vxeRuns t = true := by rw [hv]; exact hr
  refine ⟨v.after (passOn t (vargs f).len cyc u), ?_, ⟨?_, fun j hj => ?_, ?_, ?_⟩⟩
  · rw [hc]
    unfold issue
    simp only [hf', hr', hb, Bool.not_true, Bool.false_eq_true, if_false]
    rfl
  · rw [State.after_at_tile, passOn_tile, if_pos rfl]
  · rw [State.after_at_tile, passOn_tile, if_neg hj]
  · rw [State.after_at_rd]
    exact syncVxe_state t _
  · exact passOn_frame State.devMem (fun _ _ => rfl) (fun _ _ => rfl) (fun _ _ => rfl) t _ _ u

/-! ### FREE (R123) -/

/-- FREE where no bank, block or chain waits for the entry. -/
theorem vFree_frees {t : Nat} {s : State} (hfreed : (s.eng t).freed = false) (hbanks : ∀ k ∈ (s.tile t).banks, k.done = false)
    (hdeal : (s.tile t).deal = []) (hsaved : noSaved t s) :
    ((vFree t s).eng t) = { s.eng t with freed := true } ∧ ((vFree t s).tile t).ftq = (s.tile t).ftq.drop 1 ∧
      (∀ j, j ≠ t → (vFree t s).tile j = s.tile j) ∧ (vFree t s).devMem = s.devMem := by
  let u := s.onVxe t fun v => { v with freed := true }
  have htile : u.tile t = { s.tile t with vxe := { s.eng t with freed := true } } := State.onTile_same ..
  have hother : ∀ j, j ≠ t → u.tile j = s.tile j := fun j hj => State.onTile_other _ _ _ hj
  have hdeal' : (u.tile t).deal = [] := by rw [htile]; exact hdeal
  have hsaved' : noSaved t u := hsaved
  obtain ⟨hftq, -, hothers, -, hrest⟩ := freeEntry_calm hdeal' hsaved' (by rw [htile]; exact hbanks)
  obtain ⟨heq, hstep⟩ := freeEntry_eq hdeal' hsaved'
  have hpop : (popped t u).tile t = { u.tile t with ftq := (u.tile t).ftq.drop 1 } := State.onTile_same ..
  have hvxe : (freeEntry t u).eng t = u.eng t := by
    unfold State.eng
    rw [heq, hstep.tile, hpop]
  rw [show vFree t s = freeEntry t u from if_neg (ne_true_of_eq_false hfreed)]
  refine ⟨by rw [hvxe, State.eng, htile], by rw [hftq, htile], fun j hj => (hothers j hj).trans (hother j hj), ?_⟩
  rw [hrest]
  rfl

/-! ### WOUT, SUMM and END (R122–R124, R129) -/

/-- The queue of a tile with its current entry changed, where FREE has not run. -/
def Tile.onEntry (f : FtqEntry → FtqEntry) (x : Tile) : List FtqEntry :=
  if x.vxe.freed then x.ftq else match x.ftq with
    | [] => []
    | e :: es => f e :: es

/-- The tile whose port begins to read a block from place `p` at size code `k`. -/
def woutBegun (p k : Nat) (x : Tile) : Tile :=
  { x with vxe := { x.vxe with wout := some (p, k) }, ftq := x.onEntry fun e => { e with writing := true } }

/-- WOUT at a size that C's stride and range take, from a place that the map takes: the port begins to read the block (R122). -/
theorem vWout_begins {t k c q : Nat} {a : VArgs} {s : State} {o : Op} (hkey : (s.eng t).opKey = some (c, q)) (ho : s.op? c q = some o)
    (hrow : 128 * ceilDiv (ceilDiv (o.n * woutBits k) 8) 128 ≤ o.ldc)
    (hrange : s.inRange c o.cAddr ((o.m - 1) * o.ldc + ceilDiv (o.n * woutBits k) 8) = true)
    (hcheck : bowlCheck (s.tile t).entryOpen ((s.eng t).a a.vs1) (16384 * woutBits k / 8) false = none) :
    vWout t k a s = .ok ((s.onTile t (woutBegun ((s.eng t).a a.vs1) k)).wr (F.VXE_STATUS_STATE t) 3) := by
  unfold vWout
  simp only [hkey, ho]
  rw [if_neg (by simp [vWout.packed', hrange, Nat.not_lt.2 hrow])]
  simp only [hcheck]
  rfl

/-- The tile's engine behind a release of its summaries (R124). -/
theorem releaseSumms_tile (t : Nat) (s : State) (j : Nat) :
    (releaseSumms t s).tile j = if j = t then { s.tile t with vxe := { s.eng t with summs := [] } } else s.tile j := by
  unfold releaseSumms State.onVxe
  dsimp only
  rw [State.wr_at_tile]
  split
  · subst j
    exact State.onTile_same ..
  · exact State.onTile_other _ _ _ ‹_›

/-- The intake of the tile's group behind a release of the tile's summaries (R124). -/
theorem releaseSumms_intake (t : Nat) (s : State) : ((releaseSumms t s).group (t / 8)).intake =
    (s.group (t / 8)).intake ++ (s.eng t).summs.map (fun r => { r with time := s.now }) := by
  unfold releaseSumms State.onVxe
  dsimp only
  rw [State.wr_at_group, State.onTile_at_group, State.onGroup_same]

/-- A release of summaries writes VXE_STATUS and no other register. -/
theorem releaseSumms_reg (t : Nat) (s : State) {k : Nat} (hk : k ≠ R.VXE_STATUS t) : (releaseSumms t s).reg k = s.reg k :=
  reg_wr_other _ _ _ hk

@[simp] theorem releaseSumms_devMem (t : Nat) (s : State) : (releaseSumms t s).devMem = s.devMem := rfl

/-- SUMM holds one more record (R124, R129). -/
theorem vSumm_holds (t : Nat) (a : VArgs) (s : State) :
    ((vSumm t a s).eng t) = { s.eng t with summs := (s.eng t).summs ++
      [⟨(s.eng t).block.2.2, 0, (s.eng t).v a.vd % 2 ^ 32, a.imm, t, ((s.eng t).opKey.getD (0, 0)).1, a.t⟩] } ∧
    (∀ j, j ≠ t → (vSumm t a s).tile j = s.tile j) := by
  unfold vSumm State.onVxe State.eng
  exact ⟨congrArg Tile.vxe (State.onTile_same ..), fun j hj => State.onTile_other _ _ _ hj⟩

/-- A block that counts as written changes contexts alone. -/
theorem blockDone_frame {β : Sort _} (obs : State → β) (h : ∀ s x, obs { s with ctxs := x } = obs s) (c q row col flags : Nat) (s : State) :
    obs (blockDone c q row col flags s) = obs s := (workDone_frame obs h c q _).trans (h _ _)

/-- The end of an invocation behind FREE: the held records go to the intake, and the engine is idle and counts it (R123, R124, R144). -/
def engineEnded (t : Nat) (s : State) : State :=
  (((syncVxe t (releaseSumms t s)).onVxe t fun v => { v with run := false, loops := [], full := false }).wrapInc
    (F.VXE_INVOC_COUNT t) 1).wr (F.VXE_STATUS_STATE t) 1

theorem engineEnded_tile (t : Nat) (s : State) (j : Nat) : (engineEnded t s).tile j =
    if j = t then { s.tile t with vxe := { s.eng t with summs := [], run := false, loops := [], full := false } } else s.tile j := by
  have hsync : ∀ j, (syncVxe t (releaseSumms t s)).tile j = (releaseSumms t s).tile j := fun j =>
    syncVxe_frame (fun s => s.tile j) (fun _ _ => rfl) (fun _ _ => rfl) t _
  unfold engineEnded State.wrapInc State.onVxe
  rw [State.wr_at_tile, State.wr_at_tile]
  split
  · subst j
    rw [State.onTile_same, hsync, releaseSumms_tile, if_pos rfl]
  · rw [State.onTile_other _ _ _ ‹_›, hsync, releaseSumms_tile, if_neg ‹_›]

theorem engineEnded_intake (t : Nat) (s : State) : ((engineEnded t s).group (t / 8)).intake =
    (s.group (t / 8)).intake ++ (s.eng t).summs.map (fun r => { r with time := s.now }) := by
  unfold engineEnded State.wrapInc State.onVxe
  rw [State.wr_at_group, State.wr_at_group, State.onTile_at_group,
    syncVxe_frame (fun s => s.group (t / 8)) (fun _ _ => rfl) (fun _ _ => rfl), releaseSumms_intake]

theorem engineEnded_devMem (t : Nat) (s : State) : (engineEnded t s).devMem = s.devMem := by
  unfold engineEnded State.wrapInc State.onVxe
  rw [State.wr_devMem, State.wr_devMem, State.onTile_devMem, syncVxe_frame State.devMem (fun _ _ => rfl) (fun _ _ => rfl),
    releaseSumms_devMem]

theorem engineEnded_state (t : Nat) (s : State) : (engineEnded t s).rd (F.VXE_STATUS_STATE t) = 1 :=
  rd_wr_fits _ (by omega) (by omega)

theorem engineEnded_count (t : Nat) (s : State) :
    (engineEnded t s).rd (F.VXE_INVOC_COUNT t) = (s.rd (F.VXE_INVOC_COUNT t) + 1) % 2 ^ 64 := by
  have hapart : R.VXE_INVOC t ≠ R.VXE_STATUS t ∧ R.VXE_INVOC t ≠ R.VXE_STAT t := by
    unfold R.VXE_INVOC R.VXE_STATUS R.VXE_STAT; omega
  have hcount : (syncVxe t (releaseSumms t s)).rd (F.VXE_INVOC_COUNT t) = s.rd (F.VXE_INVOC_COUNT t) :=
    rd_of_reg ((syncVxe_reg t _ hapart.1 hapart.2).trans (releaseSumms_reg t s hapart.1))
  rw [← hcount]
  exact (rd_wr_other _ hapart.1 _).trans (rd_wr_cut _ (by omega) _)

/-- END behind FREE, where the intake takes the held records: the invocation ends, and its block counts as ended (R123, R124). -/
theorem vEnd_eq {t c q : Nat} {s : State} (hroom : s.intakeRoom t = true) (hkey : (s.eng t).opKey = some (c, q))
    (hfreed : (s.eng t).freed = true) :
    vEnd t s = blockDone c q (s.eng t).block.1 (s.eng t).block.2.1 (s.eng t).bflags (engineEnded t s) := by
  unfold vEnd
  simp only [hroom, hkey, hfreed, Bool.not_true, Bool.false_eq_true, if_true, if_false]
  rfl

/-- What END behind FREE leaves (R123, R124, R140, R144). -/
theorem vEnd_leaves {t c q : Nat} {s : State} (hroom : s.intakeRoom t = true) (hkey : (s.eng t).opKey = some (c, q))
    (hfreed : (s.eng t).freed = true) :
    ((vEnd t s).eng t).run = false ∧ ((vEnd t s).eng t).summs = [] ∧
      ((vEnd t s).group (t / 8)).intake = (s.group (t / 8)).intake ++ (s.eng t).summs.map (fun r => { r with time := s.now }) ∧
      (vEnd t s).rd (F.VXE_STATUS_STATE t) = 1 ∧
      (vEnd t s).rd (F.VXE_INVOC_COUNT t) = (s.rd (F.VXE_INVOC_COUNT t) + 1) % 2 ^ 64 ∧
      (∀ j, j ≠ t → (vEnd t s).tile j = s.tile j) ∧ (vEnd t s).devMem = s.devMem := by
  rw [vEnd_eq hroom hkey hfreed]
  generalize hu : engineEnded t s = u
  have htile : ∀ j, (blockDone c q (s.eng t).block.1 (s.eng t).block.2.1 (s.eng t).bflags u).tile j = u.tile j := fun j =>
    blockDone_frame (fun s => s.tile j) (fun _ _ => rfl) ..
  refine ⟨?_, ?_, ?_, ?_, ?_, fun j hj => ?_, ?_⟩
  · rw [State.eng, htile, ← hu, engineEnded_tile, if_pos rfl]
  · rw [State.eng, htile, ← hu, engineEnded_tile, if_pos rfl]
  · rw [blockDone_frame (fun s => s.group (t / 8)) (fun _ _ => rfl), ← hu, engineEnded_intake]
  · rw [blockDone_frame (fun s => s.rd (F.VXE_STATUS_STATE t)) (fun _ _ => rfl), ← hu, engineEnded_state]
  · rw [blockDone_frame (fun s => s.rd (F.VXE_INVOC_COUNT t)) (fun _ _ => rfl), ← hu, engineEnded_count]
  · rw [htile, ← hu, engineEnded_tile, if_neg hj]
  · rw [blockDone_frame State.devMem (fun _ _ => rfl), ← hu, engineEnded_devMem]

end Sys2Proof.Machine
end

section
/-! SUPPORT. Kernel faults, and the events of an invocation (R119, R121, R122, R124, R130, R134, R135). -/

namespace Sys2Proof.Machine

/-! ### What a kernel fault discards (R134, R135) -/

/-- Is what context `d` and acceptance count `r` name a part of operation `q` of context `c`? -/
def partOfOp (c q d r : Nat) : Bool := d = c && r = q

/-- The billets that stay behind a kernel fault of operation `q` of context `c`: those of others, and the one in progress. -/
def keptBillets (c q : Nat) (keep : Bool) : List Billet → List Billet
  | [] => []
  | b :: bs => (if keep && partOfOp c q b.ctx b.seq then [b] else [b].filter fun b => !partOfOp c q b.ctx b.seq) ++
      bs.filter fun b => !partOfOp c q b.ctx b.seq

/-- A tile behind the discarding of what it holds of an operation; `keep` says that its billet is in progress. -/
def Tile.discards (c q : Nat) (keep : Bool) (x : Tile) : Tile :=
  let head := x.deal.head?.any fun b => partOfOp c q b.ctx b.seq
  dropOpnds { x with deal := keptBillets c q keep x.deal, banks := x.banks.filter (fun k => !partOfOp c q k.ctx k.seq),
                     early := x.early.filter (fun k => !partOfOp c q k.ctx k.seq),
                     sent := x.sent.filter (fun k => !partOfOp c q k.ctx k.seq), ftq := x.ftq.filter fun e => !partOfOp c q e.ctx e.seq,
                     recompute := x.recompute && !(head && !keep), deferred := x.deferred && !(head && !keep),
                     pairPart := if head && !keep then none else x.pairPart }

/-- The engine of a tile behind the end of a kernel that faulted, and its VXE_STATUS (R140). -/
def engineQuiet (c q t : Nat) (s : State) : State :=
  if (s.tile t).vxe.run && (s.tile t).vxe.opKey = some (c, q) then
    (((s.onVxe t fun v => { v with run := false, summs := [], wout := none, loops := [] }).wr
      (F.VXE_STATUS_STATE t) 1).wr (F.VXE_STATUS_PEND_SUMM t) 0).wr (F.VXE_STATUS_LOOP_DEPTH t) 0
  else s

/-- What a kernel fault does on one tile of the partition. -/
def dropOnTile (c q t : Nat) (s : State) : State :=
  refillQueue t (engineQuiet c q t (s.onTile t (Tile.discards c q (s.computing t))))

/-- What is saved of an operation goes. -/
def dropSaved (c q : Nat) (s : State) : State :=
  let quiet (v : Vxe) : Vxe :=
    if v.opKey = some (c, q) then { v with run := false, summs := [], wout := none, loops := [] } else v
  s.onCtx c fun x =>
    { x with chains := x.chains.filter (fun k => k.seq != q),
             saved := x.saved.map fun e => (e.1, { ftq := e.2.ftq.filter fun e => !partOfOp c q e.ctx e.seq, vxe := quiet e.2.vxe }) }

/-- A kernel fault discards what is saved of the operation and what each tile holds of it. -/
theorem dropWork_eq (c q p : Nat) (s : State) : dropWork c q p s = each (s.tilesOf p) (dropOnTile c q) (dropSaved c q s) := rfl

theorem mem_of_keptBillets {c q : Nat} {keep : Bool} {l : List Billet} {b : Billet} (h : b ∈ keptBillets c q keep l) : b ∈ l := by
  cases l with
  | nil => exact h
  | cons a l =>
    rcases List.mem_append.1 h with h | h
    · have ha : b ∈ [a] := by
        split at h
        · exact h
        · exact List.mem_of_mem_filter h
      rw [List.mem_singleton.1 ha]
      exact List.mem_cons_self
    · exact List.mem_cons_of_mem a (List.mem_of_mem_filter h)

/-- No billet of a VECTOR is dealt. -/
def noVectorDealt (s : State) : Prop := ∀ j, ∀ b ∈ (s.tile j).deal, ∀ o, s.op? b.ctx b.seq = some o → o.kind ≠ 2

/-- Registers that the discarding of work leaves alone. -/
def offWork (k : Nat) : Prop := ∀ u, u < 64 → k ≠ R.MXA_STATUS u ∧ k ≠ R.MXA_STALL u ∧ k ≠ R.VXE_STATUS u

/-- What the discarding of work keeps: nothing is dealt, operations keep their kinds, and registers of other units. -/
structure WorkDropped (s s' : State) : Prop where
  deals : ∀ j, ∀ b ∈ (s'.tile j).deal, b ∈ (s.tile j).deal
  kinds : ∀ c q, s'.kindAt c q = s.kindAt c q
  regs : ∀ k, offWork k → s'.reg k = s.reg k

theorem WorkDropped.refl (s : State) : WorkDropped s s := ⟨fun _ _ h => h, fun _ _ => rfl, fun _ _ => rfl⟩

theorem WorkDropped.trans {a b d : State} (h : WorkDropped a b) (h' : WorkDropped b d) : WorkDropped a d :=
  ⟨fun j x hx => h.deals j x (h'.deals j x hx), fun c q => (h'.kinds c q).trans (h.kinds c q),
    fun k hk => (h'.regs k hk).trans (h.regs k hk)⟩

theorem WorkDropped.noVectorDealt {s s' : State} (h : WorkDropped s s') (hn : noVectorDealt s) : Machine.noVectorDealt s' :=
  fun j b hb o ho hk => by
    have hkind := h.kinds b.ctx b.seq
    unfold State.kindAt at hkind
    rw [ho] at hkind
    obtain ⟨o', ho', hko⟩ := Option.map_eq_some_iff.1 hkind.symm
    exact hn j b (h.deals j b hb) o' ho' (hko.trans hk)

/-- A change of a tile that deals nothing to it. -/
theorem WorkDropped.of_tile (t : Nat) (f : Tile → Tile) (s : State) (h : ∀ b ∈ (f (s.tile t)).deal, b ∈ (s.tile t).deal) :
    WorkDropped s (s.onTile t f) where
  deals j b hb := by
    by_cases hj : j = t
    · subst hj
      rw [State.onTile_same] at hb
      exact h b hb
    · rwa [State.onTile_other _ _ _ hj] at hb
  kinds _ _ := rfl
  regs _ _ := rfl

/-- A change of registers that the discarding of work may write. -/
theorem WorkDropped.of_regs {s s' : State} (h : regsOnly s s') (hk : ∀ k, offWork k → s'.reg k = s.reg k) : WorkDropped s s' where
  deals j b hb := by rwa [h.obs (obs := fun v => v.tile j) fun _ _ => rfl] at hb
  kinds c q := h.obs (obs := fun v => v.kindAt c q) fun _ _ => rfl
  regs := hk

theorem TileStep.dropped {t : Nat} (ht : t < 64) {s s' : State} (h : TileStep t s s') : WorkDropped s s' where
  deals j b hb := by
    by_cases hj : j = t
    · subst hj
      rwa [h.deal] at hb
    · rwa [h.others j hj] at hb
  kinds c q := by rw [h.rest]; rfl
  regs k hk := h.regs k (hk t ht).1 (hk t ht).2.1

theorem engineQuiet_dropped {t : Nat} (ht : t < 64) (c q : Nat) (s : State) : WorkDropped s (engineQuiet c q t s) := by
  unfold engineQuiet
  split
  · refine WorkDropped.trans (.of_tile t (fun x => { x with vxe := { x.vxe with run := false, summs := [], wout := none, loops := [] } }) s
      fun _ h => h) (.of_regs (((regsOnly_wr _ _ _).wr _ _).wr _ _) fun k hk => ?_)
    have hne : k ≠ R.VXE_STATUS t := (hk t ht).2.2
    rw [reg_wr_other _ _ _ hne, reg_wr_other _ _ _ hne, reg_wr_other _ _ _ hne]
    rfl
  · exact .refl s

theorem dropOnTile_dropped {t : Nat} (ht : t < 64) (c q : Nat) {s : State} (hn : noVectorDealt s) : WorkDropped s (dropOnTile c q t s) := by
  have hd : WorkDropped s (engineQuiet c q t (s.onTile t (Tile.discards c q (s.computing t)))) :=
    (WorkDropped.of_tile t _ s fun _ h => mem_of_keptBillets h).trans (engineQuiet_dropped ht c q _)
  have hload : noLoad t (engineQuiet c q t (s.onTile t (Tile.discards c q (s.computing t)))) := fun b rest o hb ho =>
    hd.noVectorDealt hn t b (by rw [hb]; exact List.mem_cons_self) o ho
  exact hd.trans ((refillQueue_step hload).dropped ht)

theorem dropSaved_dropped (c q : Nat) (s : State) : WorkDropped s (dropSaved c q s) where
  deals _ _ h := h
  kinds c' q' := by
    unfold State.kindAt State.op? dropSaved
    by_cases hc : c' = c
    · subst hc; rw [State.onCtx_same]
    · rw [State.onCtx_other _ _ _ hc]
  regs _ _ := rfl

/-- Where no VECTOR is dealt, discarding an operation's work loads nothing (R135). -/
theorem dropWork_dropped (c q p : Nat) {s : State} (hn : noVectorDealt s) : WorkDropped s (dropWork c q p s) := by
  have hs := dropSaved_dropped c q s
  rw [dropWork_eq]
  exact hs.trans (each_rel_pre WorkDropped (fun _ => noVectorDealt) .refl (fun _ _ _ => .trans) (fun _ _ _ h hn => h.noVectorDealt hn)
    (fun t ht _ hn => dropOnTile_dropped (tilesOf_lt ht) c q hn) fun _ _ => hs.noVectorDealt hn)

/-- A fault of a tile's vector engine is recorded (R134, R143). -/
theorem vxeFaultSeen_leaves (t code c : Nat) (s : State) :
    (vxeFaultSeen t code c s).rd (F.VXE_FAULT_CODE t) = code % 2 ^ 8 ∧ (vxeFaultSeen t code c s).rd (F.VXE_FAULT_CTX t) = c % 2 ^ 8 ∧
      (vxeFaultSeen t code c s).rd (F.VXE_FAULT_VALID t) = 1 ∧ regsOnly s (vxeFaultSeen t code c s) := by
  have beside : ∀ (u : State) (hi lo hi' lo' n : Nat), lo ≤ hi ∧ hi < 64 → lo' ≤ hi' ∧ hi' < 64 → hi < lo' ∨ hi' < lo →
      (u.wr ⟨R.VXE_FAULT t, hi, lo⟩ n).rd ⟨R.VXE_FAULT t, hi', lo'⟩ = u.rd ⟨R.VXE_FAULT t, hi', lo'⟩ :=
    fun u _ _ _ _ n h h' hd => rd_wr_beside u ⟨h, h', hd⟩ n
  unfold vxeFaultSeen F.VXE_FAULT_CODE F.VXE_FAULT_CTX F.VXE_FAULT_KSLOT F.VXE_FAULT_PC F.VXE_FAULT_VALID
  dsimp only
  refine ⟨?_, ?_, rd_wr_fits _ (by omega) (by omega), ((((regsOnly_wr s _ _).wr _ _).wr _ _).wr _ _).wr _ _⟩
  · rw [beside _ 0 0 63 56 _ (by omega) (by omega) (by omega), beside _ 43 34 63 56 _ (by omega) (by omega) (by omega),
      beside _ 47 44 63 56 _ (by omega) (by omega) (by omega), beside _ 55 48 63 56 _ (by omega) (by omega) (by omega),
      rd_wr_cut _ (by omega)]
  · rw [beside _ 0 0 55 48 _ (by omega) (by omega) (by omega), beside _ 43 34 55 48 _ (by omega) (by omega) (by omega),
      beside _ 47 44 55 48 _ (by omega) (by omega) (by omega), rd_wr_cut _ (by omega)]

/-- VXE_FAULT is no register of the work that a fault discards. -/
theorem offWork_fault (t : Nat) : offWork (R.VXE_FAULT t) := fun u _ => by
  unfold R.VXE_FAULT R.MXA_STATUS R.MXA_STALL R.VXE_STATUS
  omega

/-- The end of an operation writes no register. -/
@[simp] theorem endOp_rd (c q st detail value : Nat) (s : State) (f : Fld) : (endOp c q st detail value s).rd f = s.rd f := rfl

/-- The end of an operation leaves it done. -/
theorem endOp_done (c q st detail value : Nat) (s : State) {o : Op} (h : (endOp c q st detail value s).op? c q = some o) :
    o.done.isSome = true := by
  rw [endOp_eq, op?_onOp (fun o => by rw [Op.ended_eq]), if_pos ⟨rfl, rfl⟩] at h
  obtain ⟨o', -, rfl⟩ := Option.map_eq_some_iff.1 h
  unfold Op.ended
  split
  · simp [*]
  · rfl

theorem kernelFault_eq {t c q : Nat} {s : State} (hkey : (s.eng t).opKey = some (c, q)) (code : Nat) : kernelFault t code s =
    endOp c q stVxe (code + 256 * t) 0 ((dropWork c q (s.partOf c) (vxeFaultSeen t code c s)).wr (F.VXE_STATUS_STATE t) 5) := by
  unfold kernelFault
  dsimp only
  rw [show (s.tile t).vxe.opKey = some (c, q) from hkey]

/-- A kernel fault where no VECTOR is dealt: it shows in VXE_FAULT and VXE_STATUS, and the operation has ended (R134, R135). -/
theorem kernelFault_leaves {t code c q : Nat} {s : State} (hkey : (s.eng t).opKey = some (c, q)) (hn : noVectorDealt s) :
    (kernelFault t code s).rd (F.VXE_FAULT_CODE t) = code % 2 ^ 8 ∧ (kernelFault t code s).rd (F.VXE_FAULT_VALID t) = 1 ∧
      (kernelFault t code s).rd (F.VXE_FAULT_CTX t) = c % 2 ^ 8 ∧ (kernelFault t code s).rd (F.VXE_STATUS_STATE t) = 5 ∧
      ∀ o, (kernelFault t code s).op? c q = some o → o.done.isSome = true := by
  obtain ⟨hcode, hctx, hvalid, hregs⟩ := vxeFaultSeen_leaves t code c s
  have hseen : noVectorDealt (vxeFaultSeen t code c s) := (hregs.obs (obs := noVectorDealt) fun _ _ => rfl).mpr hn
  have hdrop := dropWork_dropped c q (s.partOf c) hseen
  rw [kernelFault_eq hkey code]
  generalize vxeFaultSeen t code c s = v at *
  generalize dropWork c q (s.partOf c) v = u at *
  have hreg : (u.wr (F.VXE_STATUS_STATE t) 5).reg (R.VXE_FAULT t) = v.reg (R.VXE_FAULT t) :=
    (reg_wr_other u _ _ (show R.VXE_FAULT t ≠ R.VXE_STATUS t by unfold R.VXE_FAULT R.VXE_STATUS; omega)).trans
      (hdrop.regs _ (offWork_fault t))
  have hstate : (u.wr (F.VXE_STATUS_STATE t) 5).rd (F.VXE_STATUS_STATE t) = 5 := rd_wr_fits u (by omega) (by omega)
  rw [endOp_rd, endOp_rd, endOp_rd, endOp_rd]
  exact ⟨(rd_of_reg (f := F.VXE_FAULT_CODE t) hreg).trans hcode, (rd_of_reg (f := F.VXE_FAULT_VALID t) hreg).trans hvalid,
    (rd_of_reg (f := F.VXE_FAULT_CTX t) hreg).trans hctx, hstate, fun o ho => endOp_done _ _ _ _ _ _ ho⟩

/-! ### SUMMARY_RECORD (R130) -/

/-- The Mandrel of the tile's group folds the oldest record of the tile (R130). -/
theorem summaryRecord_folds {t : Nat} {s : State} {r : Summary} (h : (s.group (t / 8)).intake.find? (fun r => r.tile = t) = some r) :
    summaryRecord t s = s.onGroup (t / 8) fun g =>
      { g with intake := g.intake.erase r,
               accs := SMap.upd (fun _ => Acc.init) g.accs (8 * r.ctx + r.tag / 8192) fun a => foldRecord a r } := by
  unfold summaryRecord
  rw [h]

/-! ### WOUT_READ_DONE (R122, R124) -/

/-- The write of a block that nothing holds back is the write of its rows. -/
theorem writeBlock_free {c : Nat} {s : State} (h : memFree c s) (t : Nat) (o : Op) (row col sz : Nat) (bs : List Byte) :
    writeBlock t c o row col sz bs s = writeRows c o row col sz bs 128 0 s := by
  unfold writeBlock
  dsimp only
  rw [access_free (x := tilePayer c o.seq t 1) h]
  rfl

/-- The tile whose port has read a block. -/
def woutEnded (x : Tile) : Tile :=
  { x with vxe := { x.vxe with wout := none, full := false },
           ftq := x.onEntry fun e => { e with writing := false, written := true } }

/-- WOUT_READ_DONE where the write of the block succeeds and the intake takes the held records (R122, R124). -/
theorem woutReadDone_eq {t p k c q : Nat} {s u : State} {o : Op} (hwout : (s.eng t).wout = some (p, k))
    (hkey : (s.eng t).opKey = some (c, q)) (ho : s.op? c q = some o) (hroom : s.intakeRoom t = true) (hm : memFree c s)
    (hu : writeRows c o (s.eng t).block.1 (s.eng t).block.2.1 (woutBits k)
      ((List.range (16384 * woutBits k / 8)).map fun i => (s.tile t).bowl (p + i)) 128 0 s = (u, none)) :
    woutReadDone t s = blockDone c q (s.eng t).block.1 (s.eng t).block.2.1 (s.eng t).bflags
      ((releaseSumms t (u.onTile t woutEnded)).wr (F.VXE_STATUS_STATE t) 2) := by
  unfold woutReadDone
  dsimp only
  rw [show (s.tile t).vxe.wout = some (p, k) from hwout, show (s.tile t).vxe.opKey = some (c, q) from hkey]
  dsimp only
  rw [ho]
  dsimp only
  rw [if_neg (by simp [hroom]), writeBlock_free hm, hu]
  rfl

/-! ### KERNEL_INVOCATION (R119, R121) -/

/-- The engine of a tile on which a kernel begins; at the tile's first invocation of an operation its registers are cleared (R121). -/
def Vxe.begins (o : Op) (e : FtqEntry) (img : List Byte) (ns ms : List Nat) (x : Vxe) : Vxe :=
  let v := if x.opKey ≠ some (e.ctx, e.seq) then
    { x with vreg := [], mreg := [], areg := [], w := 0, fk := 0, vl := 0, stat := 0 } else x
  { v with page := seqPage o e ns ms, pc := 0, cycles := 0, loops := [], run := true, freed := false,
           image := img, params := (List.range 8).map (fun i => fieldAt o.blk (0x18 + 4 * i) 4), kslot := epiSlot o.blk,
           opKey := some (e.ctx, e.seq), block := (e.row, e.col, e.ident), summs := [], wout := none, full := false,
           bflags := e.flags }

/-- At a later invocation of an operation the engine's registers are as they were. -/
theorem Vxe.begins_again {x : Vxe} {e : FtqEntry} (h : x.opKey = some (e.ctx, e.seq)) (o : Op) (img : List Byte) (ns ms : List Nat) :
    vxeKept x (x.begins o e img ns ms) none none none ∧ (x.begins o e img ns ms).stat = x.stat := by
  unfold Vxe.begins
  rw [if_neg (not_not_intro h)]
  exact ⟨⟨fun _ _ => rfl, fun _ _ => rfl, fun _ _ => rfl, rfl, rfl, rfl⟩, rfl⟩

/-- At the tile's first invocation of an operation the engine's registers are zero. -/
theorem Vxe.begins_first {x : Vxe} {e : FtqEntry} (h : x.opKey ≠ some (e.ctx, e.seq)) (o : Op) (img : List Byte) (ns ms : List Nat) :
    let y := x.begins o e img ns ms
    y.vreg = [] ∧ y.mreg = [] ∧ y.areg = [] ∧ y.w = 0 ∧ y.fk = 0 ∧ y.vl = 0 ∧ y.stat = 0 := by
  unfold Vxe.begins
  rw [if_pos h]
  exact ⟨rfl, rfl, rfl, rfl, rfl, rfl, rfl⟩

/-- The image of the kernel that an entry's operation names (R114). -/
def State.kernelOf (s : State) (o : Op) (e : FtqEntry) : List Byte :=
  (SMap.get (fun _ => Slot.empty) (s.ctx e.ctx).krn (epiSlot o.blk)).image

/-- The tiles behind the beginning of a kernel. -/
theorem beginKernel_tile (t : Nat) (o : Op) (e : FtqEntry) (ns ms : List Nat) (s : State) (j : Nat) :
    (beginKernel t o e ns ms s).tile j =
      if j = t then { s.tile t with vxe := (s.eng t).begins o e (s.kernelOf o e) ns ms } else s.tile j := by
  unfold beginKernel
  dsimp only
  rw [syncVxe_frame (fun s => s.tile j) (fun _ _ => rfl) (fun _ _ => rfl), State.wr_at_tile, State.wr_at_tile, State.wr_at_tile]
  unfold State.onVxe
  by_cases hj : j = t
  · subst hj
    rw [State.onTile_same, if_pos rfl]
    unfold Vxe.begins State.eng
    by_cases hk : (s.tile j).vxe.opKey = some (e.ctx, e.seq)
    · simp only [hk, ne_eq, not_true_eq_false, decide_false, Bool.false_eq_true, if_false]
      rfl
    · simp only [hk, ne_eq, not_false_eq_true, decide_true, if_true]
      rfl
  · rw [State.onTile_other _ _ _ hj, if_neg hj]

/-- The beginning of a kernel changes tiles, registers and contexts. -/
theorem beginKernel_devMem (t : Nat) (o : Op) (e : FtqEntry) (ns ms : List Nat) (s : State) :
    (beginKernel t o e ns ms s).devMem = s.devMem :=
  syncVxe_frame State.devMem (fun _ _ => rfl) (fun _ _ => rfl) t _

/-- Side elements are read alike in states that reads cannot tell apart. -/
theorem ReadsAlike.sideRead {c : Nat} {s s' : State} (h : ReadsAlike c s s') (base f first count : Nat) :
    sideRead s' c base f first count = Machine.sideRead s c base f first count := by
  unfold Machine.sideRead
  simp only [h.ctxRead]

/-- KERNEL_INVOCATION of the oldest entry, where the engine is free and the side vectors are read: the kernel begins behind reads that touch
the slices alone (R119, R121). -/
theorem kernelInvocation_begins {t : Nat} {s : State} {e : FtqEntry} {rest : List FtqEntry} {o : Op} {ns ms : List Nat}
    (hq : (s.tile t).ftq = e :: rest) (ho : s.op? e.ctx e.seq = some o) (hk : o.hasKernel = true) (hrun : (s.eng t).run = false)
    (hstop : (s.tile t).stopped = false) (hd : o.done = none) (hl : s.atL0 = true) (hm : memFree e.ctx s) (hsec : s.secondary t = false)
    (hns : sideRead s e.ctx (fieldAt o.blk 8 8) (epiSides o.blk).1 (128 * e.col) o.n = .ok ns)
    (hms : sideRead s e.ctx (fieldAt o.blk 16 8) (epiSides o.blk).2 (128 * e.row) o.m = .ok ms) :
    ∃ u, Touched s u ∧ kernelInvocation t s = beginKernel t o e ns ms u := by
  have htouch := reads_touched e.ctx (sideAreas o e) s
  have halike := htouch.alike e.ctx
  refine ⟨_, htouch, ?_⟩
  unfold kernelInvocation
  dsimp only
  rw [hq]
  dsimp only
  rw [ho]
  dsimp only
  rw [if_neg (by simp [hk, hstop, hd, hl, show (s.tile t).vxe.run = false from hrun]), if_neg (by simp [hsec]),
    access_free (x := tilePayer e.ctx e.seq t 2) hm]
  dsimp only
  rw [show (tilePayer e.ctx e.seq t 2).ctx = e.ctx from rfl, halike.sideRead, halike.sideRead, hns, hms]

end Sys2Proof.Machine
end

section
/-! The statements about output and invocations of the vector engine (chapter 04). -/

open Sys2Proof Sys2Proof.Machine

/-- Settles O11: FREE lets nothing drain or be placed, as nothing waits; WOUT and SUMM change the engine and pass on; END releases the held
records before the block counts as ended. -/
theorem vxeOutput : Obligations.VxeOutput := by
  intro t f s hr a x
  refine ⟨fun hf hfreed hbanks hdeal hsaved => ?_, ?_, fun hf hroom => ?_, fun c q hf hroom hkey hfreed => ?_⟩
  · obtain ⟨heng, hftq, hothers, hmem⟩ := vFree_frees hfreed (by simpa using hbanks) hdeal hsaved
    obtain ⟨s', hs, hp⟩ := issue_leaves (exec_free s t f) rfl hf hr rfl
    refine ⟨s', hs, ?_, ?_, fun j hj => (hp.others j hj).trans (hothers j hj), ?_, hp.devMem.trans hmem⟩
    · rw [hp.eng, heng]; rfl
    · rw [hp.tile]; exact hftq
    · rw [hp.eng, heng]; exact ⟨fun _ _ => rfl, fun _ _ => rfl, fun _ _ => rfl, rfl, rfl, rfl⟩
  · intro c q o k hf hkey ho hrow hrange hcheck
    obtain ⟨v, hexec, hv⟩ : ∃ v, exec (.wout t f) s = issue 0x32 t.val 1 f (vWout t.val k) v ∧ v = { s with freeCtr := v.freeCtr } := by
      by_cases hm : x.imm a < 4
      · exact ⟨s, (exec_wout s t f).trans ((if_pos hm).trans (by rw [show k = x.imm a from if_pos hm])), rfl⟩
      · exact ⟨s.drawn, (exec_wout s t f).trans ((if_neg hm).trans (by rw [show k = s.free.toNat % 4 from if_neg hm])), rfl⟩
    have hbegins : vWout t.val k a v = .ok ((v.onTile t.val (woutBegun (x.a a.vs1) k)).wr (F.VXE_STATUS_STATE t.val) 3) := by
      rw [hv]
      exact vWout_begins hkey ho hrow hrange hcheck
    obtain ⟨s', hs, hp⟩ := issue_leaves hexec hv hf hr hbegins
    have htile : (v.onTile t.val (woutBegun (x.a a.vs1) k)).tile t.val = woutBegun (x.a a.vs1) k (s.tile t.val) := by
      rw [State.onTile_same, hv]; rfl
    have heng : s'.eng t.val = Vxe.passed { x with wout := some (x.a a.vs1, k) } a.len 1 :=
      hp.eng.trans (congrArg (fun y : Tile => y.vxe.passed a.len 1) htile)
    refine ⟨s', hs, by rw [heng]; rfl, hp.state.trans (rd_wr_fits _ (by omega) (by omega)), ?_, fun j hj => ?_, ?_⟩
    · rw [heng]; exact ⟨fun _ _ => rfl, fun _ _ => rfl, fun _ _ => rfl, rfl, rfl, rfl⟩
    · exact (hp.others j hj).trans ((State.onTile_other v t.val _ hj).trans (by rw [hv]; rfl))
    · exact hp.devMem.trans (show v.devMem = s.devMem by rw [hv])
  · have hexec : exec (.summ t f) s = issue 0x34 t.val 1 f (fun a s => .ok (vSumm t.val a s)) s :=
      (exec_summ s t f).trans (if_neg (by simpa using fun _ => hroom))
    obtain ⟨heng, hothers⟩ := vSumm_holds t.val a s
    obtain ⟨s', hs, hp⟩ := issue_leaves hexec rfl hf hr rfl
    refine ⟨s', hs, ?_, ?_, fun j hj => (hp.others j hj).trans (hothers j hj), hp.devMem⟩
    · rw [hp.eng, heng]; rfl
    · rw [hp.eng, heng]; exact ⟨fun _ _ => rfl, fun _ _ => rfl, fun _ _ => rfl, rfl, rfl, rfl⟩
  · have hexec : exec (.endKernel t f) s = s.done (vEnd t.val s) := by
      rw [exec_endKernel]
      unfold execEndKernel
      simp only [show formOk 0x3F (vargs f) (s.tile t.val).vxe.w = true from hf, hr, Bool.not_true, Bool.false_eq_true, if_false]
    exact ⟨_, hexec, vEnd_leaves hroom hkey hfreed⟩

/-- Settles O12: the rows of the block are written and the records released; a kernel begins behind reads that touch the slices alone; a kernel
fault discards work without a load, so that the fault's registers stay; and a record is folded at its accumulator's key. -/
theorem vxeInvocations : Obligations.VxeInvocations := by
  intro t s x
  refine ⟨fun p k c q o u hwout hkey ho hroom hm hu => ?_,
    fun e rest o ns ms hq ho hk hrun hstop hd hl hm hsec hns hms => ?_, fun c q hrun hkey hn => ?_, fun r hr => ?_⟩
  · have hdone := woutReadDone_eq hwout hkey ho hroom hm hu
    have htile : (woutReadDone t.val s).tile t.val = { woutEnded (u.tile t.val) with vxe := { (woutEnded (u.tile t.val)).vxe with summs := [] } } := by
      rw [hdone, blockDone_frame (fun s => s.tile t.val) (fun _ _ => rfl), State.wr_at_tile, releaseSumms_tile, if_pos rfl, State.eng,
        State.onTile_same]
    refine ⟨_, exec_woutReadDone s t, ?_, ?_, ?_, ?_⟩
    · rw [State.after_devMem, hdone, blockDone_frame State.devMem (fun _ _ => rfl), State.wr_devMem, releaseSumms_devMem, State.onTile_devMem]
    · rw [State.eng, State.after_at_tile, htile]
      rfl
    · rw [State.eng, State.after_at_tile, htile]
    · rw [State.after_at_rd, hdone, blockDone_frame (fun s => s.rd (F.VXE_STATUS_STATE t.val)) (fun _ _ => rfl)]
      exact rd_wr_fits _ (by omega) (by omega)
  · obtain ⟨u, htouch, hbegin⟩ := kernelInvocation_begins hq ho hk hrun hstop hd hl hm hsec hns hms
    have htile : ∀ j, u.tile j = s.tile j := fun j => by rw [htouch.rest]; rfl
    have himg : u.kernelOf o e = s.kernelOf o e := by unfold State.kernelOf; rw [htouch.rest]; rfl
    have hbegun := beginKernel_tile t.val o e ns ms u
    rw [← hbegin] at hbegun
    have heng : (s.after (kernelInvocation t.val s)).eng t.val = x.begins o e (s.kernelOf o e) ns ms := by
      rw [State.eng, State.after_at_tile, hbegun, if_pos rfl, State.eng, htile, himg]
    refine ⟨_, exec_kernelInvocation s t, ?_⟩
    rw [heng]
    refine ⟨rfl, rfl, rfl, rfl, rfl, rfl, rfl, ?_, fun j hj => ?_, ?_⟩
    · split
      · exact Vxe.begins_again ‹_› ..
      · exact Vxe.begins_first ‹_› ..
    · rw [State.after_at_tile, hbegun, if_neg hj, htile]
    · rw [State.after_devMem, hbegin, beginKernel_devMem, htouch.rest]
  · refine ⟨_, exec_kernelLong s t, ?_⟩
    rw [show kernelLong t.val s = kernelFault t.val 5 s from if_pos hrun]
    obtain ⟨hcode, hvalid, hctx, hstate, hdone⟩ := kernelFault_leaves (code := 5) hkey hn
    exact ⟨hcode, hvalid, hctx, hstate, hdone⟩
  · refine ⟨_, exec_summaryRecord s t, ?_⟩
    rw [summaryRecord_folds hr]
    refine ⟨?_, fun k => ?_, fun g hg => ?_, fun _ => rfl, fun _ => rfl, rfl⟩
    · rw [State.after_at_group, State.onGroup_same]
    · rw [State.after_at_group, State.onGroup_same, SMap.get_upd]
      split
      · subst k; rfl
      · rfl
    · rw [State.after_at_group, State.onGroup_other _ _ _ hg]

end

section
/-! SUPPORT. OPERATION_START (R116, R158–R160, R232): the start of an eligible operation on its resource. -/

namespace Sys2Proof.Machine

/-- A matrix or vector operation without a kernel starts where the table pair that it names is valid (R116). -/
theorem startMatrix_plain {c : Nat} {o : Op} {s : State} (hk : o.hasKernel = false)
    (ht : o.usesTbl = true → (SMap.get (fun _ => Slot.empty) (s.ctx c).tbl o.tblSlot).valid = true) :
    startMatrix c o s = s.onOp c o.seq fun o => { o with started := true, blk := [] } := by
  have hstop : s.slotStop c o [] = none := by
    unfold State.slotStop slotOf'
    cases hu : o.usesTbl
    · simp [hk]
    · simp [hk, ht hu]
  unfold startMatrix
  simp only [hk, Bool.false_eq_true, if_false, hstop]

/-- An engine takes an operation, and its status shows it (R232, R252). -/
def engineTaken (e c q kind : Nat) (s : State) : State :=
  (((s.onEngine e fun x => { x with op := some (c, q) }).wr (F.DMA_ENG_STATUS_CTX e) c).wr (F.DMA_ENG_STATUS_KIND e) kind).wr
    (F.DMA_ENG_STATUS_STATE e) 2

/-- A DMA operation takes the lowest-numbered free engine (R232). -/
theorem startDma_takes {c e : Nat} {o : Op} {s : State} (h : s.freeEng (s.partOf c) = some e) :
    startDma c o s = (engineTaken e c o.seq o.kind s).onOp c o.seq fun o => { o with started := true, begun := true, engine := some e } := by
  unfold startDma
  rw [h]
  rfl

/-- An engine that takes an operation changes registers and engines. -/
theorem engineTaken_frame (e c q kind : Nat) (s : State) :
    engineTaken e c q kind s =
      { s with regs := (engineTaken e c q kind s).regs, engines := (engineTaken e c q kind s).engines } := by
  unfold engineTaken State.wr State.setReg State.onEngine
  rfl

/-- What an engine that takes an operation leaves. -/
theorem engineTaken_leaves (e c q kind : Nat) (s : State) :
    ((engineTaken e c q kind s).engine e).op = some (c, q) ∧ (engineTaken e c q kind s).rd (F.DMA_ENG_STATUS_STATE e) = 2 ∧
      (∀ j, j ≠ e → (engineTaken e c q kind s).engine j = s.engine j) ∧
      (∀ k, k ≠ R.DMA_ENG_STATUS e → (engineTaken e c q kind s).reg k = s.reg k) := by
  unfold engineTaken
  refine ⟨?_, rd_wr_fits _ (by omega) (by omega), fun j hj => ?_, fun k hk => ?_⟩
  · rw [State.wr_at_engine, State.wr_at_engine, State.wr_at_engine, State.onEngine_same]
  · rw [State.wr_at_engine, State.wr_at_engine, State.wr_at_engine, State.onEngine_other s e _ hj]
  · rw [reg_wr_other _ _ _ hk, reg_wr_other _ _ _ hk, reg_wr_other _ _ _ hk, State.onEngine_at_reg]

section
variable {c q : Nat} {s : State} {o : Op} (ho : s.op? c q = some o) (hrun : s.running c = true) (hs : o.started = false) (hd : o.done = none)
  (he : s.eligible c o = true) (hold : ∀ e ∈ s.earlier c o, e.unit = o.unit → e.started = true ∨ e.done.isSome = true)
  (hdep : s.depFailed c o = false ∨ o.flags.testBit 3 = true)
include ho hrun hs hd he hold hdep

/-- An eligible operation that no older one waits before and no failed dependency stops starts on its resource (R158–R160). -/
theorem operationStart_eligible : operationStart c q s =
    if o.unit = 1 then (if s.tilesFree c then startMatrix c o s else s)
    else if o.unit = 2 then startDma c o s
    else s.onOp c q fun o => { o with started := true } := by
  have hwait : ((s.earlier c o).any fun e => e.unit = o.unit && o.unit ≠ 0 && o.unit ≠ 4 && !e.started && e.done.isNone &&
      s.eligible c e) = false := by
    refine List.any_eq_false.2 fun e hm h => ?_
    simp only [Bool.and_eq_true, decide_eq_true_eq] at h
    obtain ⟨⟨⟨⟨⟨hu, -⟩, -⟩, hns⟩, hnd⟩, -⟩ := h
    rcases hold e hm hu with h | h
    · simp [h] at hns
    · rw [Option.isSome_iff_ne_none] at h
      exact h (Option.isNone_iff_eq_none.1 hnd)
  have hok : (s.depFailed c o && !o.flags.testBit 3) = false := by rcases hdep with h | h <;> simp [h]
  unfold operationStart
  simp only [ho, hrun, hs, hd, he, hwait, hok, Bool.not_true, Bool.false_eq_true, Option.isSome_none, Bool.or_self, if_false]
  split
  · rename_i hu
    rw [if_pos hu]
  · rename_i hu
    rw [if_neg (by omega), if_pos hu]
  · rw [if_neg ‹_›, if_neg ‹_›]

end

/-- What OPERATION_START leaves where it changes the operation behind an effect `u` on registers and engines. -/
theorem exec_operationStart_onOp {c : CtxId} {q : Nat} {s u : State} {o : Op} {f : Op → Op}
    (h : operationStart c.val q s = u.onOp c.val q f) (hu : u = { s with regs := u.regs, engines := u.engines })
    (hf : ∀ o, (f o).seq = o.seq) (ho : s.op? c.val q = some o) :
    ∃ s', exec (.operationStart c q) s = .next s' ∧ s'.op? c.val q = some (f o) ∧ (∀ j, s'.engine j = u.engine j) ∧
      (∀ k, s'.reg k = u.reg k) ∧ s' = { u with ctxs := s'.ctxs } := by
  have hop : u.op? c.val q = some o := by rw [hu]; exact ho
  refine ⟨u.onOp c.val q f, ?_, op?_onOp_same hf hop, fun _ => rfl, fun _ => rfl, rfl⟩
  rw [exec_operationStart, execOperationStart, h]
  exact State.done_eq (show u.pending = s.pending by rw [hu]) (show u.otp = s.otp by rw [hu])

end Sys2Proof.Machine
end

section
/-! The statement about the start of an operation (chapter 05). -/

open Sys2Proof Sys2Proof.Machine

/-- Settles O21: nothing holds the operation back, so that its resource decides: an engine takes it, or its own record alone changes. -/
theorem operationStarts : Obligations.OperationStarts := by
  intro c q s o ho hrun hs hd he hold hdep
  have hseq : o.seq = q := seq_of_op? ho
  have hstart := operationStart_eligible ho hrun hs hd he hold hdep
  refine ⟨fun e hu hfree => ?_, fun hu hk hfree htbl => ?_, fun h1 h2 => ?_⟩
  · rw [if_neg (by omega), if_pos hu, startDma_takes hfree, hseq] at hstart
    obtain ⟨htaken, hstate, hengines, hregs⟩ := engineTaken_leaves e c.val q o.kind s
    obtain ⟨s', hs, hop, hengine, hreg, hrest⟩ := exec_operationStart_onOp hstart (engineTaken_frame ..) (fun _ => rfl) ho
    refine ⟨s', _, hs, hop, rfl, rfl, ?_, ?_, fun j hj => ?_, fun k hk => ?_, ?_⟩
    · exact (congrArg Engine.op (hengine e)).trans htaken
    · exact (rd_of_reg (hreg _)).trans hstate
    · exact (hengine j).trans (hengines j hj)
    · exact (hreg k).trans (hregs k hk)
    · rw [hrest, engineTaken_frame]
  · rw [if_pos hu, if_pos hfree, startMatrix_plain hk htbl, hseq] at hstart
    obtain ⟨s', hs, hop, -, -, hrest⟩ := exec_operationStart_onOp hstart rfl (fun _ => rfl) ho
    exact ⟨s', _, hs, hop, rfl, hd, hrest⟩
  · rw [if_neg h1, if_neg h2] at hstart
    obtain ⟨s', hs, hop, -, -, hrest⟩ := exec_operationStart_onOp hstart rfl (fun _ => rfl) ho
    exact ⟨s', _, hs, hop, rfl, hd, hrest⟩

end

section
/-! SUPPORT. What an access of the scheduler to host memory changes: translations that are asked for, slots, tokens, and no more (R216, R217,
R266, R344), and the read of a run (R147). -/

namespace Sys2Proof.Machine

/-! ### What changes -/

/-- A register that counts or holds slots of the host endpoint, or counts translation requests. -/
def hostReg (k : Nat) : Prop := k < 0x10000 ∨ k = R.XLT_COUNT

/-- What an access of context `c` to host memory may change: requests, slots, tokens, and the entries of its translation cache. -/
structure HostSide (c : Nat) (s s' : State) : Prop where
  regs : ∀ k, ¬ hostReg k → s'.reg k = s.reg k
  own : s'.ctx c = { s.ctx c with cache := (s'.ctx c).cache }
  others : ∀ d, d ≠ c → s'.ctx d = s.ctx d
  rest : s' = { s with regs := s'.regs, ctxs := s'.ctxs, buckets := s'.buckets, waiting := s'.waiting, atsReqs := s'.atsReqs,
                       hostReqs := s'.hostReqs, nextReq := s'.nextReq, outbox := s'.outbox }

section
variable {c : Nat} {s s' : State}

theorem HostSide.refl (c : Nat) (s : State) : HostSide c s s := ⟨fun _ _ => rfl, rfl, fun _ _ => rfl, rfl⟩

theorem HostSide.trans {a b d : State} (h : HostSide c a b) (h' : HostSide c b d) : HostSide c a d where
  regs k hk := (h'.regs k hk).trans (h.regs k hk)
  own := by rw [h'.own, h.own]
  others d hd := (h'.others d hd).trans (h.others d hd)
  rest := by rw [h'.rest, h.rest]

/-- A change of one of its registers. -/
theorem HostSide.of_wr (c : Nat) (s : State) {f : Fld} (hf : hostReg f.key) (v : Nat) : HostSide c s (s.wr f v) where
  regs _ hk := reg_wr_other s f v fun e => hk (e ▸ hf)
  own := rfl
  others _ _ := rfl
  rest := rfl

theorem HostSide.wr (h : HostSide c s s') {f : Fld} (hf : hostReg f.key) (v : Nat) : HostSide c s (s'.wr f v) := h.trans (.of_wr c s' hf v)

/-- Fields of other registers read as before. -/
theorem HostSide.rd (h : HostSide c s s') {f : Fld} (hf : ¬ hostReg f.key) : s'.rd f = s.rd f := rd_of_reg (h.regs _ hf)

theorem HostSide.on (h : HostSide c s s') {f : Fld} (hf : ¬ hostReg f.key) : s'.on f = s.on f := by
  unfold State.on
  rw [h.rd hf]

/-- A register of a partition's slots is one of the endpoint's. -/
theorem hostReg_part {p : Nat} (hp : p < 8) : hostReg (R.GLB_HEP_PART p) := by
  unfold hostReg R.GLB_HEP_PART
  omega

theorem partOf_lt (s : State) (c : Nat) : s.partOf c < 8 := rd_lt s (f := F.CTX_CFG_PARTITION c) (by decide : (32 : Nat) ≤ 34 ∧ (34 : Nat) < 64)

/-! ### Slots and translations (R217, R220, R225, R344) -/

theorem takeSlot_hostSide {d : Nat} {ring : Bool} {x : Nat × State} (h : takeSlot d ring s = some x) : HostSide c s x.2 := by
  have htags : hostReg F.GLB_HEP_TAGS_PEAK.key := .inl (by decide)
  have hrsv : hostReg F.GLB_HEP_TAGS_RSV_USED.key := .inl (by decide)
  have hpool : hostReg F.GLB_HEP_TAGS_POOL_USED.key := .inl (by decide)
  have hpeak := fun v => HostSide.of_wr c s htags v
  unfold takeSlot at h
  simp only [State.wrapInc_eq] at h
  split at h
  · cases h; exact (hpeak _).wr hrsv _
  · split at h
    · cases h; exact (hpeak _).wr hrsv _
    · split at h
      · cases h; exact ((hpeak _).wr hpool _).wr (hostReg_part (partOf_lt s d)) _
      · cases h

theorem grantAts_hostSide (c : Nat) (s : State) : HostSide c s (grantAts s) := by
  unfold grantAts
  refine each_rel (HostSide c) (.refl c) (fun _ _ _ => .trans) _ (fun r s => ?_) _ s
  dsimp only
  split
  · exact .refl c s
  · rename_i k t ht
    exact (takeSlot_hostSide ht).trans
      ((HostSide.wr (s' := { t with atsReqs := _ }) ⟨fun _ _ => rfl, rfl, fun _ _ => rfl, rfl⟩ (.inr rfl) _).trans
        ⟨fun _ _ => rfl, rfl, fun _ _ => rfl, rfl⟩)

theorem atsRequest_hostSide (c d pi page n : Nat) (wr : Bool) (use : AtsUse) (s : State) :
    HostSide c s (atsRequest d pi page n wr use s) := by
  unfold atsRequest
  refine HostSide.trans ?_ (grantAts_hostSide c _)
  exact ⟨fun _ _ => rfl, rfl, fun _ _ => rfl, rfl⟩

theorem prefetchRing_hostSide (c page : Nat) (wr : Bool) (s : State) : HostSide c s (prefetchRing c page wr s) := by
  unfold prefetchRing
  split
  · exact .refl c s
  · refine each_rel (HostSide c) (.refl c) (fun _ _ _ => .trans) _ (fun k s => ?_) _ s
    split
    · exact .refl c s
    · exact atsRequest_hostSide c c 0 k 1 wr .ahead s

theorem cachePut_hostSide (c : Nat) (e : XEnt) (s : State) : HostSide c s (cachePut c e s) where
  regs _ _ := rfl
  own := by unfold cachePut; rw [State.onCtx_same]
  others d hd := State.onCtx_other s c _ hd
  rest := rfl

/-- A ring access asks for translations, or uses one. -/
theorem ringXlat_hostSide (c a : Nat) (wr : Bool) (s : State) : HostSide c s (ringXlat c a wr s).2 := by
  unfold ringXlat
  dsimp only
  split
  · exact (cachePut_hostSide c _ s).trans (prefetchRing_hostSide c _ wr _)
  · refine HostSide.trans ?_ (prefetchRing_hostSide c _ wr _)
    split
    · exact .refl c s
    · exact atsRequest_hostSide c c 0 _ 1 wr .ring s

/-! ### Tokens (R203, R266) -/

theorem payNeeds_hostSide (c : Nat) (x : Payer) (ns : List Need) (s : State) : HostSide c s (payNeeds x ns s).2 := by
  have hask : HostSide c s (each ns (askBucket x) s) :=
    each_rel (HostSide c) (.refl c) (fun _ _ _ => .trans) _ (fun n s => by
      unfold askBucket
      dsimp only
      split <;> exact ⟨fun _ _ => rfl, rfl, fun _ _ => rfl, rfl⟩) ns s
  unfold payNeeds
  dsimp only
  split
  · exact .refl c s
  · split
    · exact hask
    · exact hask.trans ⟨fun _ _ => rfl, rfl, fun _ _ => rfl, rfl⟩

/-- An access that reads nothing of device memory draws tokens alone. -/
theorem access_hostSide (c : Nat) (x : Payer) (flits : Nat) (wr : List (Nat × Nat)) (s : State) :
    HostSide c s (access x flits [] wr s).2 := by
  unfold access accessAll
  split
  · exact .refl c s
  · split
    · rename_i t h
      have := payNeeds_hostSide c x ([({ ctx := x.ctx, flits := flits, rd := [], wr := wr } : Areas)].flatMap fun a =>
        s.byteNeeds a.ctx (a.rd ++ a.wr) ++ s.flitNeeds { x with ctx := a.ctx } a.flits) s
      rw [h] at this
      exact this
    · rename_i t h
      have := payNeeds_hostSide c x ([({ ctx := x.ctx, flits := flits, rd := [], wr := wr } : Areas)].flatMap fun a =>
        s.byteNeeds a.ctx (a.rd ++ a.wr) ++ s.flitNeeds { x with ctx := a.ctx } a.flits) s
      rw [h] at this
      exact this

/-! ### The read of a run (R147) -/

theorem hostIssue_hostSide {d : Nat} {use : HostUse} {pi lo hi : Nat} {mk : Nat → Out} (h : hostIssue d use pi lo hi mk s = some s') :
    HostSide c s s' := by
  unfold hostIssue at h
  split at h
  · cases h
  · rename_i k t ht
    cases h
    exact (takeSlot_hostSide ht).trans ⟨fun _ _ => rfl, rfl, fun _ _ => rfl, rfl⟩

/-- The read of the run that has been asked for. -/
theorem sendRun_hostSide (c : Nat) (s : State) : HostSide c s (sendRun c s) := by
  unfold sendRun
  split
  · exact .refl c s
  · rename_i h n _
    dsimp only
    split
    · exact .refl c s
    · have hx := ringXlat_hostSide c (s.descAddr c h) false s
      split
      · rename_i t ht
        rw [ht] at hx
        exact hx
      · rename_i a t ht
        rw [ht] at hx
        split
        · exact hx
        · have hacc := access_hostSide c (t.schedPayer c (2 ^ 32) 6) (1 + ceilDiv (64 * n) 128) [] t
          split
          · rename_i u hu
            rw [hu] at hacc
            exact hx.trans hacc
          · rename_i u hu
            rw [hu] at hacc
            refine (hx.trans hacc).trans ?_
            cases hi : hostIssue c .ring 0 (s.descAddr c h / 4096) (s.descAddr c h / 4096) (fun id => .hostRead id c 0 a (64 * n)) u with
            | none => exact .refl c u
            | some v => exact hostIssue_hostSide hi

/-- What a run that is asked for changes: the request itself, and what the read of a ring in host memory changes. -/
structure RunAsked (c : Nat) (s s' : State) : Prop where
  regs : ∀ k, ¬ hostReg k → s'.reg k = s.reg k
  own : s'.ctx c = { s.ctx c with cache := (s'.ctx c).cache, fetch := (s'.ctx c).fetch }
  others : ∀ d, d ≠ c → s'.ctx d = s.ctx d
  rest : s' = { s with regs := s'.regs, ctxs := s'.ctxs, buckets := s'.buckets, waiting := s'.waiting, atsReqs := s'.atsReqs,
                       hostReqs := s'.hostReqs, nextReq := s'.nextReq, outbox := s'.outbox }

/-- The next run: at most 64 of the unread descriptors, up to the ring's end, in host memory within a page (R147). -/
def State.nextRun (s : State) (c : Nat) : Nat × Nat :=
  let h := s.head c
  let inPage := if s.on (F.CTXW_RING_BASE_SPACE c) then 64 - s.descAddr c h % 4096 / 64 else 64
  (h, min inPage (min (((s.ctx c).tail + 2 ^ 32 - h) % 2 ^ 32) (s.ringEntries c - h % s.ringEntries c)))

theorem askRun_eq (c : Nat) (s : State) : askRun c s =
    if ((s.ctx c).tail + 2 ^ 32 - s.head c) % 2 ^ 32 = 0 ∨ s.ctxState c ≠ 4 then s
    else sendRun c (s.onCtx c fun x => { x with fetch := some (s.nextRun c) }) := by
  unfold askRun State.nextRun
  simp only [Bool.or_eq_true, decide_eq_true_eq]

theorem askRun_asked (c : Nat) (s : State) : RunAsked c s (askRun c s) := by
  rw [askRun_eq]
  split
  · exact ⟨fun _ _ => rfl, rfl, fun _ _ => rfl, rfl⟩
  · have hr := sendRun_hostSide c (s.onCtx c fun x => { x with fetch := some (s.nextRun c) })
    refine ⟨hr.regs, ?_, fun d hd => (hr.others d hd).trans (State.onCtx_other s c _ hd), ?_⟩
    · rw [hr.own, State.onCtx_same]
    · rw [hr.rest]
      rfl

end

end Sys2Proof.Machine
end

section
/-! SUPPORT. The write of the hub's word (R146, R180): it fails in no context whose range serves its place, and what it changes. -/

namespace Sys2Proof.Machine

/-! ### A write of one granule -/

/-- An access within one granule is one piece. -/
theorem pieces_one {a n : Nat} (hn : 0 < n) (h : a % 32 + n ≤ 32) : pieces a n = [(a, n)] := by
  have hmin : min n (32 - a % 32) = n := by omega
  have hn0 : ¬ n = 0 := by omega
  unfold pieces granules
  simp only [hn0, if_false, hmin, Nat.sub_self]
  congr 1

/-- What decides which bytes of a context's range are served has not changed. -/
structure ServesAlike (c : Nat) (s s' : State) : Prop where
  caches : cachesOnly s s'
  marks : s'.ueMarks = s.ueMarks
  regs : ∀ k, k < 8 → s'.reg (R.MEM_STATUS k) = s.reg (R.MEM_STATUS k)
  spread : (s'.ctx c).chans = (s.ctx c).chans ∧ (s'.ctx c).pitch = (s.ctx c).pitch ∧ (s'.ctx c).stripes = (s.ctx c).stripes

section
variable {c : Nat} {s s' : State}

theorem ServesAlike.chan (h : ServesAlike c s s') (ch : Nat) : (s'.chan ch).mapped = (s.chan ch).mapped ∧
    (s'.chan ch).retired = (s.chan ch).retired ∧ (s'.chan ch).retFrames = (s.chan ch).retFrames := by
  rw [h.caches ch]
  exact ⟨rfl, rfl, rfl⟩

theorem ServesAlike.locate (h : ServesAlike c s s') (a : Nat) : s'.locate c a = s.locate c a := by
  obtain ⟨hchans, hpitch, -⟩ := h.spread
  unfold State.locate State.physOff Chan.physFrame
  simp only [hchans, hpitch, (h.chan _).1]

theorem ServesAlike.range (h : ServesAlike c s s') : s'.range c = s.range c := by
  unfold State.range
  rw [h.spread.2.2]

theorem ServesAlike.unserved (h : ServesAlike c s s') {ch : Nat} (hch : ch < 256) (off : Nat) :
    s'.unserved ch off = s.unserved ch off := by
  have hrd : s'.rd (F.MEM_STATUS_STATE (ch / 32)) = s.rd (F.MEM_STATUS_STATE (ch / 32)) := rd_of_reg (h.regs _ (by omega))
  obtain ⟨hmapped, hretired, hframes⟩ := h.chan ch
  unfold State.unserved
  rw [hrd, hmapped, hretired, hframes]

theorem ServesAlike.flatServes (h : ServesAlike c s s') (hs : flatServes s c) : Machine.flatServes s' c := fun a ha => by
  obtain ⟨hch, hun, hmark⟩ := hs a (h.range ▸ ha)
  rw [h.locate, h.unserved hch]
  refine ⟨hch, hun, ?_⟩
  unfold State.marked at *
  rw [h.marks]
  exact hmark

/-- A write within one granule of a range that is served fails at most by waiting for a row's copy (R207, R209). -/
theorem ctxWrite_waits (hs : flatServes s c) {a : Nat} {bs : List Byte} (hb : 0 < bs.length) (h32 : a % 32 + bs.length ≤ 32)
    (ha : a < s.range c) {e : MemErr} (he : (s.ctxWrite c a bs).2 = some e) : e.cause = 0 := by
  obtain ⟨-, hun, hmark⟩ := hs a ha
  unfold State.ctxWrite at he
  rw [pieces_one hb h32] at he
  simp only [State.writePieces, State.granWrite, hun, hmark, List.take_length, Bool.false_and, Bool.false_eq_true, if_false] at he
  by_cases hheld : s.rowHeld (s.locate c a).1 (s.locate c a).2 = true
  · simp only [hheld, if_true, Option.some.injEq] at he
    rw [← he]
  · simp [hheld] at he

/-! ### The hub's word -/

/-- What the write of context `c`'s hub word may change. -/
structure WordPut (c : Nat) (s s' : State) : Prop where
  regs : ∀ k, ¬ hostReg k → s'.reg k = s.reg k
  own : s'.ctx c = { s.ctx c with cache := (s'.ctx c).cache, wordDue := (s'.ctx c).wordDue }
  others : ∀ d, d ≠ c → s'.ctx d = s.ctx d
  rest : s' = { s with regs := s'.regs, ctxs := s'.ctxs, buckets := s'.buckets, waiting := s'.waiting, atsReqs := s'.atsReqs,
                       hostReqs := s'.hostReqs, nextReq := s'.nextReq, outbox := s'.outbox, devMem := s'.devMem,
                       ueMarks := s'.ueMarks, chans := s'.chans }
  host : s.on (F.CTXW_RING_WORDS_SPACE c) = true → s'.devMem = s.devMem

/-- Fields of other registers read as before. -/
theorem WordPut.rd (h : WordPut c s s') {f : Fld} (hf : ¬ hostReg f.key) : s'.rd f = s.rd f := rd_of_reg (h.regs _ hf)

/-- An access to the host's memory, and the word is due or not. -/
theorem HostSide.word (h : HostSide c s s') (b : Bool) : WordPut c s (s'.onCtx c fun x => { x with wordDue := b }) where
  regs := h.regs
  own := by rw [State.onCtx_same, h.own]
  others d hd := (State.onCtx_other s' c _ hd).trans (h.others d hd)
  rest := by rw [h.rest]; rfl
  host _ := by rw [h.rest]; rfl

theorem WordPut.out (h : WordPut c s s') (o : Out) : WordPut c s (s'.out o) :=
  ⟨h.regs, h.own, h.others, by rw [h.rest]; rfl, h.host⟩

/-- The hub's word in host memory is written, or due (R146, R180). -/
theorem putHubWord_host (h : s.on (F.CTXW_RING_WORDS_SPACE c) = true) : WordPut c s (putHubWord c s).1 ∧ (putHubWord c s).2 = none := by
  have hx := ringXlat_hostSide c (s.wordsAddr c + 8) true s
  unfold putHubWord
  simp only [h, if_true]
  split
  · rename_i a t ht
    rw [ht] at hx
    have hacc := access_hostSide c (t.schedPayer c (2 ^ 32) 1) 2 [] t
    split
    · rename_i u hu
      rw [hu] at hacc
      exact ⟨((hx.trans hacc).word false).out _, rfl⟩
    · rename_i u hu
      rw [hu] at hacc
      exact ⟨(hx.trans hacc).word true, rfl⟩
  · rename_i t ht
    rw [ht] at hx
    exact ⟨hx.word true, rfl⟩

theorem HostSide.alike (h : HostSide c s s') : ServesAlike c s s' where
  caches ch := by rw [h.rest]; rfl
  marks := by rw [h.rest]
  regs k _ := h.regs _ fun hk => by unfold hostReg R.MEM_STATUS R.XLT_COUNT at hk; omega
  spread := by rw [h.own]; exact ⟨rfl, rfl, rfl⟩

/-- What a write of device memory leaves, with the word due or not. -/
theorem HostSide.stored (h : HostSide c s s') (hw : s.on (F.CTXW_RING_WORDS_SPACE c) = false) (a : Nat) (bs : List Byte) (b : Bool) :
    WordPut c s ((s'.ctxWrite c a bs).1.onCtx c fun x => { x with wordDue := b }) := by
  have hctx : ∀ d, (s'.ctxWrite c a bs).1.ctx d = s'.ctx d := fun d => ctxWrite_frame (fun t => t.ctx d) (fun _ _ _ _ => rfl) c a bs s'
  refine ⟨fun k hk => ?_, ?_, fun d hd => ?_, ?_, fun he => by rw [hw] at he; cases he⟩
  · exact (ctxWrite_frame (fun t => t.reg k) (fun _ _ _ _ => rfl) c a bs s').trans (h.regs k hk)
  · rw [State.onCtx_same, hctx, h.own]
  · rw [State.onCtx_other _ _ _ hd, hctx, h.others d hd]
  · unfold State.ctxWrite
    rw [writePieces_frame, h.rest]
    rfl

/-- The hub's word in device memory is written, or due, where the range serves its place (R146, R180). -/
theorem putHubWord_device (h : s.on (F.CTXW_RING_WORDS_SPACE c) = false) (hs : flatServes s c)
    (hr : s.inRange c (s.wordsAddr c) 16 = true) : WordPut c s (putHubWord c s).1 ∧ (putHubWord c s).2 = none := by
  have hlen : (leBytes (s.hubWord c) 8).length = 8 := by simp [leBytes]
  have hacc := access_hostSide c (s.schedPayer c (2 ^ 32) 1) (flitsOf (s.wordsAddr c + 8) (leBytes (s.hubWord c) 8).length)
    [(s.wordsAddr c + 8, (leBytes (s.hubWord c) 8).length)] s
  have halign : (s.wordsAddr c + 8) % 32 + 8 ≤ 32 := by unfold State.wordsAddr; omega
  have hin : s.wordsAddr c + 8 < s.range c := by
    unfold State.inRange at hr
    have := of_decide_eq_true hr
    omega
  unfold putHubWord storeAs
  simp only [h, Bool.false_eq_true, if_false]
  split
  · rename_i t e ht
    split at ht
    · rename_i u hu
      cases ht
      rw [hu] at hacc
      exact ⟨hacc.word true, rfl⟩
    · rename_i u hu
      rw [hu] at hacc
      have hw := hacc.stored h (s.wordsAddr c + 8) (leBytes (s.hubWord c) 8) true
      have h0 : e.cause = 0 := ctxWrite_waits (hacc.alike.flatServes hs) (by rw [hlen]; decide) (by rw [hlen]; exact halign)
        (by rw [hacc.alike.range]; exact hin) (congrArg Prod.snd ht)
      have ht1 : (u.ctxWrite c (s.wordsAddr c + 8) (leBytes (s.hubWord c) 8)).1 = t := congrArg Prod.fst ht
      rw [ht1] at hw
      simp only [h0, if_true]
      exact ⟨hw, trivial⟩
  · rename_i t ht
    split at ht
    · cases ht
    · rename_i u hu
      rw [hu] at hacc
      have hw := hacc.stored h (s.wordsAddr c + 8) (leBytes (s.hubWord c) 8) false
      have ht1 : (u.ctxWrite c (s.wordsAddr c + 8) (leBytes (s.hubWord c) 8)).1 = t := congrArg Prod.fst ht
      rw [ht1] at hw
      exact ⟨hw, rfl⟩

/-- The place of the hub's word can be written: in host memory, or in the context's range, which is served. -/
def State.wordServed (s : State) (c : Nat) : Prop :=
  s.on (F.CTXW_RING_WORDS_SPACE c) = true ∨ (flatServes s c ∧ s.inRange c (s.wordsAddr c) 16 = true)

/-- The write of the hub's word reports no fault where its place can be written. -/
theorem hubWrite_put (h : s.wordServed c) : WordPut c s (hubWrite c s) := by
  have hput : WordPut c s (putHubWord c s).1 ∧ (putHubWord c s).2 = none := by
    cases hw : s.on (F.CTXW_RING_WORDS_SPACE c) with
    | true => exact putHubWord_host hw
    | false =>
      rcases h with h | h
      · rw [hw] at h; cases h
      · exact putHubWord_device hw h.1 h.2
  unfold hubWrite
  split
  · rename_i t e ht
    rw [ht] at hput
    cases hput.2
  · rename_i t ht
    rw [ht] at hput
    exact hput.1

end

end Sys2Proof.Machine
end

section
/-! SUPPORT. The beginning of a switch (R52, R53, R174): the holder gives the slice up, the tiles that serve stop, and the engines stop. -/

namespace Sys2Proof.Machine

/-! ### Tiles and engines that stop -/

/-- A register of a tile or of a DMA engine. -/
def switchReg (k : Nat) : Prop := 0x400000 ≤ k ∧ k < 0x800000 ∨ 0xA11000 ≤ k ∧ k < 0xA12000

/-- Tiles and registers of tiles and engines have changed alone. -/
structure StopSide (s s' : State) : Prop where
  regs : ∀ k, ¬ switchReg k → s'.reg k = s.reg k
  rest : s' = { s with regs := s'.regs, tiles := s'.tiles }

theorem StopSide.refl (s : State) : StopSide s s := ⟨fun _ _ => rfl, rfl⟩

theorem StopSide.trans {a b d : State} (h : StopSide a b) (h' : StopSide b d) : StopSide a d :=
  ⟨fun k hk => (h'.regs k hk).trans (h.regs k hk), by rw [h'.rest, h.rest]⟩

theorem StopSide.of_wr (s : State) {f : Fld} (hf : switchReg f.key) (v : Nat) : StopSide s (s.wr f v) :=
  ⟨fun _ hk => reg_wr_other s f v fun e => hk (e ▸ hf), rfl⟩

theorem switchReg_status {t : Nat} (ht : t < 64) : switchReg (R.MXA_STATUS t) := by unfold switchReg R.MXA_STATUS; omega
theorem switchReg_wit {t : Nat} (ht : t < 64) : switchReg (R.MXA_WIT_STATUS t) := by unfold switchReg R.MXA_WIT_STATUS; omega
theorem switchReg_stall {t : Nat} (ht : t < 64) : switchReg (R.MXA_STALL t) := by unfold switchReg R.MXA_STALL; omega
theorem switchReg_engine {e : Nat} (he : e < 32) : switchReg (R.DMA_ENG_STATUS e) := by unfold switchReg R.DMA_ENG_STATUS; omega

/-- A tile has stopped, and shows SWITCH (R52, R57). -/
def tileStopped (t : Nat) (s : State) : Prop := (s.tile t).stopped = true ∧ s.rd (F.MXA_STATUS_STATE t) = 3

theorem stopTile_side {t : Nat} (ht : t < 64) (s : State) : StopSide s (stopTile t s) := by
  have hstall := stallEnd_counted t s
  have h1 : StopSide s (stallEnd t s) := ⟨fun k hk => hstall.regs k fun e => hk (e ▸ switchReg_stall ht), by rw [hstall.rest]⟩
  have h2 : ∀ f : Tile → Tile, StopSide s ((stallEnd t s).onTile t f) := fun f => h1.trans ⟨fun _ _ => rfl, rfl⟩
  unfold stopTile
  dsimp only
  split
  · exact ((h2 _).trans (.of_wr _ (switchReg_wit ht) 1)).trans (.of_wr _ (switchReg_status ht) 3)
  · exact (h2 _).trans (.of_wr _ (switchReg_status ht) 3)

theorem stopTile_stopped (t : Nat) (s : State) : tileStopped t (stopTile t s) := by
  have hst : ∀ u : State, (u.wr (F.MXA_STATUS_STATE t) 3).rd (F.MXA_STATUS_STATE t) = 3 := fun u => rd_wr_fits u (by decide) (by decide)
  unfold stopTile
  dsimp only
  split
  · exact ⟨by rw [State.wr_at_tile, State.wr_at_tile, State.onTile_same], hst _⟩
  · exact ⟨by rw [State.wr_at_tile, State.onTile_same], hst _⟩

/-- Another tile that has stopped stays so. -/
theorem stopTile_keeps {t j : Nat} (h : j ≠ t) {s : State} (hs : tileStopped t s) : tileStopped t (stopTile j s) := by
  have hstall := stallEnd_counted j s
  have hkey : R.MXA_STATUS t ≠ R.MXA_STALL j := by unfold R.MXA_STATUS R.MXA_STALL; omega
  have hwit : R.MXA_STATUS t ≠ R.MXA_WIT_STATUS j := by unfold R.MXA_STATUS R.MXA_WIT_STATUS; omega
  have hstat : R.MXA_STATUS t ≠ R.MXA_STATUS j := by unfold R.MXA_STATUS; omega
  have hrd : (stallEnd j s).rd (F.MXA_STATUS_STATE t) = 3 := (rd_of_reg (hstall.regs _ hkey)).trans hs.2
  have htile : (stallEnd j s).tile t = s.tile t := hstall.others t h.symm
  unfold stopTile
  dsimp only
  split
  · refine ⟨?_, ?_⟩
    · rw [State.wr_at_tile, State.wr_at_tile, State.onTile_other _ _ _ h.symm, htile]; exact hs.1
    · rw [rd_wr_other _ hstat, rd_wr_other _ hwit]; exact hrd
  · refine ⟨?_, ?_⟩
    · rw [State.wr_at_tile, State.onTile_other _ _ _ h.symm, htile]; exact hs.1
    · rw [rd_wr_other _ hstat]; exact hrd

/-- The tiles of a list stop. -/
def stopTiles (l : List Nat) (s : State) : State := each l stopTile s

/-- An engine with an operation stops, unless a page fault holds it (R174, R230). -/
def stopEngine (e : Nat) (s : State) : State :=
  if (s.engine e).op.isSome && s.rd (F.DMA_ENG_STATUS_STATE e) ≠ 4 then s.wr (F.DMA_ENG_STATUS_STATE e) 3 else s

/-- The engines of a list stop. -/
def stopEngines (l : List Nat) (s : State) : State := each l stopEngine s

theorem stopTiles_side {l : List Nat} (hl : ∀ t ∈ l, t < 64) (s : State) : StopSide s (stopTiles l s) :=
  each_rel_mem StopSide .refl (fun _ _ _ => .trans) (fun t ht s => stopTile_side (hl t ht) s) s

theorem stopEngine_side {e : Nat} (he : e < 32) (s : State) : StopSide s (stopEngine e s) := by
  unfold stopEngine
  split
  · exact .of_wr s (switchReg_engine he) 3
  · exact .refl s

theorem stopEngines_side {l : List Nat} (hl : ∀ e ∈ l, e < 32) (s : State) : StopSide s (stopEngines l s) :=
  each_rel_mem StopSide .refl (fun _ _ _ => .trans) (fun e he s => stopEngine_side (hl e he) s) s

theorem stopTiles_stopped {l : List Nat} {t : Nat} (ht : t ∈ l) (s : State) : tileStopped t (stopTiles l s) :=
  each_establishes (tileStopped t) ht (stopTile_stopped t) (fun j _ u hu => by
    by_cases h : j = t
    · subst h; exact stopTile_stopped j u
    · exact stopTile_keeps h hu) s

theorem stopEngine_keeps {t e : Nat} (ht : t < 64) {s : State} (hs : tileStopped t s) : tileStopped t (stopEngine e s) := by
  unfold stopEngine
  split
  · have hkey : R.MXA_STATUS t ≠ R.DMA_ENG_STATUS e := by unfold R.MXA_STATUS R.DMA_ENG_STATUS; omega
    exact ⟨hs.1, (rd_wr_other s hkey 3).trans hs.2⟩
  · exact hs

theorem stopEngines_keeps {t : Nat} (ht : t < 64) (l : List Nat) {s : State} (hs : tileStopped t s) : tileStopped t (stopEngines l s) :=
  each_keeps (tileStopped t) (fun _ _ _ hu => stopEngine_keeps ht hu) hs

/-! ### The slice is given up (R171, R174) -/

/-- The holder of a partition's slice gives it up. -/
def giveUp (p : Nat) (s : State) : State :=
  match s.holderOf p with
  | some c => s.wr (F.CTXW_RING_STATUS_HOLDING c) 0
  | none => s

/-- The partition is in SWITCH, and no context holds its slice. -/
def inSwitch (p : Nat) (s : State) : State :=
  ((s.wr (F.SCH_STATUS_CTX_VALID p) 0).wr (F.SCH_STATUS_CUR_CTX p) 0).wr (F.SCH_STATUS_STATE p) 3

/-- An event of the trace changes Tailstock alone. -/
theorem traceEvent_rest (code source arg : Nat) (c : Option Nat) (s : State) :
    traceEvent code source arg c s = { s with tls := (traceEvent code source arg c s).tls } :=
  congrArg (fun v : State => { v with tls := (traceEvent code source arg c s).tls })
    (traceEvent_frame (fun v => { v with tls := s.tls }) (fun _ _ => rfl) code source arg c s)

/-- The switch that begins: who was out before this one, if one is under way, or the holder (R174). -/
def State.switchTo (s : State) (p : Nat) (inc : Option Nat) : Switch :=
  { out := match (s.part p).sw with | some w => w.out | none => s.holderOf p, inc := inc, since := s.now }

/-- A partition whose slice is given up, with its tiles and engines at a stand. -/
def stoodStill (p : Nat) (s : State) : State :=
  let s := inSwitch p (giveUp p s)
  let s := stopTiles ((s.tilesOf p).filter s.tileServes) s
  stopEngines (s.enginesOf p) s

/-- The switch stands in the partition's record. -/
def switchNoted (p : Nat) (inc : Option Nat) (s : State) : State :=
  (stoodStill p s).onPart p fun x => { x with sw := some { out := (s.switchTo p inc).out, inc := inc, since := (stoodStill p s).now } }

section
variable {p : Nat} {s : State}

theorem giveUp_regsOnly (p : Nat) (s : State) : regsOnly s (giveUp p s) := by
  unfold giveUp
  split <;> rfl

theorem giveUp_reg {k : Nat} (h : ∀ d, s.holderOf p = some d → k ≠ R.CTXW_RING_STATUS d) : (giveUp p s).reg k = s.reg k := by
  unfold giveUp
  split
  · rename_i d hd
    exact reg_wr_other s _ _ (h d hd)
  · rfl

/-- Giving a slice up leaves every field of a context's status but HOLDING. -/
theorem giveUp_head (d : Nat) : (giveUp p s).head d = s.head d := by
  unfold giveUp State.head
  split
  · rename_i c _
    by_cases hdc : d = c
    · subst hdc; exact rd_wr_beside s (by decide) 0
    · refine rd_wr_other s ?_ 0
      change R.CTXW_RING_STATUS d ≠ R.CTXW_RING_STATUS c
      unfold R.CTXW_RING_STATUS
      omega
  · rfl

theorem giveUp_holds {d : Nat} (h : s.holderOf p = some d) : (giveUp p s).holds d = false := by
  unfold giveUp State.holds
  rw [h]
  exact on_wr_same s (f := F.CTXW_RING_STATUS_HOLDING d) (by decide : (0 : Nat) ≤ 0 ∧ (0 : Nat) < 64) rfl false

theorem inSwitch_reg {k : Nat} (h : k ≠ R.SCH_STATUS p) : (inSwitch p s).reg k = s.reg k :=
  (reg_wr_other _ _ _ h).trans ((reg_wr_other _ _ _ h).trans (reg_wr_other _ _ _ h))

/-- SCH_STATUS of a partition that has begun a switch: no context, SWITCH, and the entry as before. -/
theorem inSwitch_status : (inSwitch p s).rd (F.SCH_STATUS_STATE p) = 3 ∧ (inSwitch p s).holderOf p = none ∧
    (inSwitch p s).rd (F.SCH_STATUS_ENTRY p) = s.rd (F.SCH_STATUS_ENTRY p) := by
  have hvalid : (inSwitch p s).rd (F.SCH_STATUS_CTX_VALID p) = 0 :=
    (rd_wr_beside _ (by decide) 3).trans ((rd_wr_beside _ (by decide) 0).trans (rd_wr_fits s (by decide) (by decide)))
  refine ⟨rd_wr_fits _ (by decide) (by decide), ?_, ?_⟩
  · unfold State.holderOf State.on
    rw [hvalid]
    rfl
  · exact (rd_wr_beside _ (by decide) 3).trans ((rd_wr_beside _ (by decide) 0).trans (rd_wr_beside s (by decide) 0))

/-- What the beginning of a switch on partition `p` to `inc` leaves (R52, R171, R174). -/
structure SwitchBegun (p : Nat) (inc : Option Nat) (s s' : State) : Prop where
  state : s'.rd (F.SCH_STATUS_STATE p) = 3
  holder : s'.holderOf p = none
  entry : s'.rd (F.SCH_STATUS_ENTRY p) = s.rd (F.SCH_STATUS_ENTRY p)
  gaveUp : ∀ d, s.holderOf p = some d → s'.holds d = false
  switch : (s'.part p).sw = some (s.switchTo p inc)
  stopped : ∀ t ∈ s.tilesOf p, s.tileServes t = true → tileStopped t s'
  head : ∀ d, s'.head d = s.head d
  regs : ∀ k, ¬ switchReg k → k ≠ R.SCH_STATUS p → (∀ d, s.holderOf p = some d → k ≠ R.CTXW_RING_STATUS d) → s'.reg k = s.reg k
  rest : s' = { s with regs := s'.regs, tiles := s'.tiles, parts := s'.parts, tls := s'.tls }

theorem not_switchReg_ring (d : Nat) : ¬ switchReg (R.CTXW_RING_STATUS d) := by unfold switchReg R.CTXW_RING_STATUS; omega

theorem not_switchReg_sch {p : Nat} (hp : p < 8) : ¬ switchReg (R.SCH_STATUS p) := by unfold switchReg R.SCH_STATUS; omega

theorem beginSwitch_begun {p : Nat} (hp : p < 8) (inc : Option Nat) (s : State) : SwitchBegun p inc s (beginSwitch p inc s) := by
  have htr : beginSwitch p inc s = { switchNoted p inc s with tls := (beginSwitch p inc s).tls } := traceEvent_rest _ _ _ _ _
  have hreg : ∀ k, (beginSwitch p inc s).reg k = (stoodStill p s).reg k := fun k => by rw [htr]; rfl
  have hgive := giveUp_regsOnly p s
  have hin : regsOnly s (inSwitch p (giveUp p s)) := ((hgive.wr _ _).wr _ _).wr _ _
  have hstatus := inSwitch_status (p := p) (s := giveUp p s)
  have hinreg : ∀ k, k ≠ R.SCH_STATUS p → (∀ d, s.holderOf p = some d → k ≠ R.CTXW_RING_STATUS d) →
      (inSwitch p (giveUp p s)).reg k = s.reg k := fun k h1 h2 => (inSwitch_reg h1).trans (giveUp_reg h2)
  have hringsch : ∀ d, R.CTXW_RING_STATUS d ≠ R.SCH_STATUS p := fun d => by unfold R.CTXW_RING_STATUS R.SCH_STATUS; omega
  have hside : StopSide (inSwitch p (giveUp p s)) (stoodStill p s) :=
    (stopTiles_side (fun t ht => tilesOf_lt (List.mem_filter.1 ht).1) _).trans (stopEngines_side (fun e he => enginesOf_lt he) _)
  have hstop : ∀ t ∈ s.tilesOf p, s.tileServes t = true → tileStopped t (stoodStill p s) := fun t ht hs => by
    have ht64 := tilesOf_lt ht
    have hmem : t ∈ (inSwitch p (giveUp p s)).tilesOf p := by
      rw [tilesOf_congr (hinreg _ (by unfold R.CTX_PART R.SCH_STATUS; omega) fun d _ => by unfold R.CTX_PART R.CTXW_RING_STATUS; omega)]
      exact ht
    have hserves : (inSwitch p (giveUp p s)).tileServes t = true := by
      rw [tileServes_of_rd (rd_of_reg (f := F.MXA_STATUS_STATE t) (hinreg (R.MXA_STATUS t) (by unfold R.MXA_STATUS R.SCH_STATUS; omega)
        fun d _ => by unfold R.MXA_STATUS R.CTXW_RING_STATUS; omega))]
      exact hs
    exact stopEngines_keeps ht64 _ (stopTiles_stopped (List.mem_filter.2 ⟨hmem, hserves⟩) _)
  refine ⟨?_, ?_, ?_, fun d hd => ?_, ?_, fun t ht hs => ?_, fun d => ?_, fun k h1 h2 h3 => ?_, ?_⟩
  · exact (rd_of_reg (hreg _)).trans ((rd_of_reg (f := F.SCH_STATUS_STATE p) (hside.regs _ (not_switchReg_sch hp))).trans hstatus.1)
  · have h : (beginSwitch p inc s).holderOf p = (inSwitch p (giveUp p s)).holderOf p := by
      have hk : (beginSwitch p inc s).reg (R.SCH_STATUS p) = (inSwitch p (giveUp p s)).reg (R.SCH_STATUS p) :=
        (hreg _).trans (hside.regs _ (not_switchReg_sch hp))
      unfold State.holderOf State.on
      rw [rd_of_reg (f := F.SCH_STATUS_CTX_VALID p) hk, rd_of_reg (f := F.SCH_STATUS_CUR_CTX p) hk]
    exact h.trans hstatus.2.1
  · refine (rd_of_reg (hreg _)).trans ((rd_of_reg (f := F.SCH_STATUS_ENTRY p) (hside.regs _ (not_switchReg_sch hp))).trans (hstatus.2.2.trans ?_))
    exact rd_of_reg (f := F.SCH_STATUS_ENTRY p) (giveUp_reg fun d _ => (hringsch d).symm)
  · have hk : (beginSwitch p inc s).reg (R.CTXW_RING_STATUS d) = (giveUp p s).reg (R.CTXW_RING_STATUS d) :=
      (hreg _).trans ((hside.regs _ (not_switchReg_ring d)).trans (inSwitch_reg (hringsch d)))
    have h := giveUp_holds hd
    unfold State.holds State.on at *
    rw [rd_of_reg (f := F.CTXW_RING_STATUS_HOLDING d) hk]
    exact h
  · have hnow : (stoodStill p s).now = s.now := by
      rw [hside.rest, hin]
      rfl
    have h : (beginSwitch p inc s).part p = (switchNoted p inc s).part p := by rw [htr]; rfl
    rw [h, switchNoted, State.onPart_same, hnow]
    rfl
  · obtain ⟨h1, h2⟩ := hstop t ht hs
    have htile : (beginSwitch p inc s).tile t = (stoodStill p s).tile t := by rw [htr]; rfl
    exact ⟨(congrArg Tile.stopped htile).trans h1, (rd_of_reg (hreg _)).trans h2⟩
  · have hk : (beginSwitch p inc s).reg (R.CTXW_RING_STATUS d) = (giveUp p s).reg (R.CTXW_RING_STATUS d) :=
      (hreg _).trans ((hside.regs _ (not_switchReg_ring d)).trans (inSwitch_reg (hringsch d)))
    exact (rd_of_reg (f := F.CTXW_RING_STATUS_HEAD d) hk).trans (giveUp_head d)
  · exact (hreg k).trans ((hside.regs k h1).trans (hinreg k h2 h3))
  · have hnoted : switchNoted p inc s = { stoodStill p s with parts := (switchNoted p inc s).parts } := rfl
    rw [htr, hnoted, hside.rest, hin]

end

end Sys2Proof.Machine
end

section
/-! SUPPORT. Requests to a context's window, and writes of its synchronisation objects (R168, R340–R342). -/

namespace Sys2Proof.Machine

/-! ### Requests to a context's window (R340–R342) -/

/-- A place of a context's window by its offset: the function, and what stands there (R340). -/
theorem keyFn_keyOf {fn o : Nat} (ho : o < 0x10000000) : keyFn (keyOf fn o) = fn := by
  unfold keyFn keyOf
  omega

theorem keyOf_mod {fn o : Nat} (ho : o < 0x10000000) : keyOf fn o % 0x10000000 = o := by
  unfold keyOf
  omega

/-- Below the MSI-X table a window holds no word of it (R340). -/
theorem msixAt_window {c o : Nat} (ho : o < 0x8000) : msixAt (keyOf (c + 1) o) = none := by
  unfold msixAt
  simp only [keyFn_keyOf (show o < 0x10000000 by omega), keyOf_mod (show o < 0x10000000 by omega)]
  rw [if_neg]
  simp
  omega

theorem pbaAt_window {c o : Nat} (ho : o < 0x8000) : pbaAt (keyOf (c + 1) o) = none := by
  unfold pbaAt
  simp only [keyFn_keyOf (show o < 0x10000000 by omega), keyOf_mod (show o < 0x10000000 by omega)]
  rw [if_neg]
  simp
  omega

/-- Whether a request to a window is taken at once does not depend on its offset: no block of it is served without a wake (R491). -/
theorem takesNow_window {s : State} {c off off' : Nat} (h : s.takesNow (c + 1) off = true) : s.takesNow (c + 1) off' = true := by
  simpa [State.takesNow, quietBlock] using h

/-- A host write to a context's window that is taken at once: stored where it is served, else answered (R342). -/
theorem hostWrite_window {a : Agent} {c off size : Nat} {v : Word} {tbit : Bool} {s : State} (ho : off < 0x8000)
    (ht : s.takesNow (c + 1) off = true) :
    hostWrite a (c + 1) off size v tbit s =
      if s.served (c + 1) off size false tbit then storeReg a (keyOf (c + 1) (off / 8 * 8)) off size v s
      else answerUr (c + 1) true s := by
  have hon : s.endpointOff = false := by
    unfold State.takesNow at ht
    simp only [Bool.and_eq_true, Bool.not_eq_true'] at ht
    exact ht.1
  unfold hostWrite
  simp [hon, wakeFor_of_takesNow ht, msixAt_window (c := c) (show off / 8 * 8 < 0x8000 by omega)]

/-- A context's driver is the agent that the Writer entry `context` names in its window (R11). -/
theorem writes_vfAgent {c o : Nat} (hc : c < 256) (ho : o < 0x10000000) :
    writes (vfAgent c) (keyOf (c + 1) o) .context = true := by
  have hk : keyFn (keyOf (c + 1) o) = c + 1 := keyFn_keyOf ho
  unfold writes
  rw [hk]
  have hge : 0x10000000 ≤ keyOf (c + 1) o := by unfold keyOf; omega
  have hrid : c + 1 < 65536 := by omega
  simp [isHostAgent, vfAgent, hge, Nat.mod_eq_of_lt hrid]

/-- A write of all eight bytes replaces the register (R9). -/
theorem merged_full (old v : Word) (off : Nat) : merged old v off 8 = v := by
  unfold merged writeMask
  simp only [if_true]
  have h64 : fldMask 63 0 = BitVec.allOnes 64 := by decide
  rw [h64, BitVec.and_allOnes, BitVec.not_allOnes, BitVec.and_zero, BitVec.zero_or]
  exact BitVec.shiftLeft_zero v

/-! ### Writes of synchronisation objects (R168) -/

/-- SET of an object's counter changes the counter and the contexts that wait (R166, R167). -/
theorem soSet_plain_frame {β : Sort _} (obs : State → β) {n : Nat}
    (hregs : ∀ s w, obs (s.setReg (R.SYN_CNT n) w) = obs s) (hctxs : ∀ s x, obs { s with ctxs := x } = obs s) (v : Nat) (s : State) :
    obs (soSet n v false false s) = obs s :=
  (testWaits_frame obs hctxs n _).trans (hregs s _)

/-- An object's counter holds what has been written to it. -/
theorem soSet_plain_count (n : Nat) (v : Word) (s : State) : (soSet n v.toNat false false s).rd (F.SYN_CNT_COUNT n) = v.toNat := by
  have h : (soSet n v.toNat false false s).rd (F.SYN_CNT_COUNT n) = (s.wr (F.SYN_CNT_COUNT n) v.toNat).rd (F.SYN_CNT_COUNT n) :=
    testWaits_frame (fun t => t.rd (F.SYN_CNT_COUNT n)) (fun _ _ => rfl) n _
  rw [h]
  exact rd_wr_fits s (by decide) v.isLt

/-- The counter of an object reads as its register. -/
theorem rd_count_toNat (n : Nat) (s : State) : s.rd (F.SYN_CNT_COUNT n) = (s.reg (R.SYN_CNT n)).toNat := by
  have h64 : fldMask (63 - 0) 0 = BitVec.allOnes 64 := by decide
  unfold State.rd F.SYN_CNT_COUNT
  rw [h64, BitVec.and_allOnes]
  exact congrArg BitVec.toNat (BitVec.ushiftRight_zero _)

/-- A window lies behind the slots and the trace window of PF0 (R340). -/
theorem not_inRspSlot_window {key : Nat} (h : 0x10000000 ≤ key) : inRspSlot key = false := by simp [inRspSlot]; omega
theorem not_inCmdSlot_window {key : Nat} (h : 0x10000000 ≤ key) : inCmdSlot key = false := by simp [inCmdSlot]; omega
theorem not_inTrace_window {key : Nat} (h : 0x10000000 ≤ key) : inTrace key = false := by simp [inTrace]; omega
theorem keyOf_window (c o : Nat) : 0x10000000 ≤ keyOf (c + 1) o := by unfold keyOf; omega

/-- What a write at a window's place below the MSI-X table does: it is a write of CTXW_CTL, of an object, or of a register. -/
theorem storeReg_of_window {key o : Nat} (hmsix : msixAt key = none) (hpba : pbaAt key = none) (hmod : key % 0x10000000 = o)
    (hge : 0x10000000 ≤ key) (a : Agent) (off size : Nat) (v : Word) (s : State) :
    (o = 8 → storeReg a key off size v s = writeCtl a key size off v s) ∧
    (0x4000 ≤ o → o < 0x5000 → storeReg a key off size v s = writeSo a key size off v s) := by
  unfold storeReg
  refine ⟨fun h8 => ?_, fun h1 h2 => ?_⟩
  · simp [hmsix, hpba, not_inRspSlot_window hge, not_inCmdSlot_window hge, not_inTrace_window hge, hmod, hge, h8]
  · have h8 : o ≠ 8 := by omega
    simp [hmsix, hpba, not_inRspSlot_window hge, not_inCmdSlot_window hge, not_inTrace_window hge, hmod, hge, h8, h1, h2]

/-- A write at a context's window where its objects stand is a write of an object (R168). -/
theorem storeReg_so {c o : Nat} (h1 : 0x4000 ≤ o) (h2 : o < 0x5000) (a : Agent) (off size : Nat) (v : Word) (s : State) :
    storeReg a (keyOf (c + 1) o) off size v s = writeSo a (keyOf (c + 1) o) size off v s :=
  (storeReg_of_window (msixAt_window (by omega)) (pbaAt_window (by omega)) (keyOf_mod (by omega)) (keyOf_window c o) a off size v s).2
    h1 h2

/-- A write at a context's window where CTXW_CTL stands is a write of it (R281, R282). -/
theorem storeReg_ctl (c : Nat) (a : Agent) (off size : Nat) (v : Word) (s : State) :
    storeReg a (keyOf (c + 1) 8) off size v s = writeCtl a (keyOf (c + 1) 8) size off v s :=
  (storeReg_of_window (msixAt_window (by decide)) (pbaAt_window (by decide)) (keyOf_mod (by decide)) (keyOf_window c 8) a off size v s).1
    rfl

/-- A full write of COUNT at the place of a context's object by its driver: SET with the value, unless the counter holds it (R168). -/
theorem writeSo_count {c i o n : Nat} {v : Word} {s : State} (hc : c < 256) (ho : o = 0x4000 + 16 * i) (hi : i < 256)
    (hn : (s.objectsOf c)[i]? = some n) (off : Nat) :
    writeSo (vfAgent c) (keyOf (c + 1) o) 8 off v s = if v = s.reg (R.SYN_CNT n) then s else soSet n v.toNat false false s := by
  have hlt : o < 0x10000000 := by omega
  have hdiv : (o - 0x4000) / 16 = i := by omega
  have hz : (o - 0x4000) % 16 = 0 := by omega
  unfold writeSo State.objectWord
  simp only [keyFn_keyOf hlt, keyOf_mod hlt, Nat.add_sub_cancel, hdiv, hn, hz, merged_full, writes_vfAgent hc hlt]
  rfl

end Sys2Proof.Machine
end

section
/-! SUPPORT. The lock and the start of a context that is not confidential (R280–R282, R325). -/

namespace Sys2Proof.Machine

/-! ### CTXW_CTL (R281, R282) -/

section
variable {c : Nat} {s : State}

theorem keyOf_ctl (c : Nat) : keyOf (c + 1) 8 = R.CTXW_CTL c := by
  unfold keyOf R.CTXW_CTL
  omega

/-- The fields of CTXW_CTL in a context's window. -/
theorem layoutOf_ctl (hc : c < 256) : layoutOf (R.CTXW_CTL c) = L.CTXW_CTL := by
  have hge : 0x10000008 ≤ R.CTXW_CTL c := by unfold R.CTXW_CTL; omega
  have hfams : famsOf (R.CTXW_CTL c) = famsWIN := by
    unfold famsOf
    simp only [show ¬ R.CTXW_CTL c < 0x10000 by omega, show ¬ R.CTXW_CTL c < 0x100000 by omega,
      show ¬ R.CTXW_CTL c < 0x200000 by omega, show ¬ R.CTXW_CTL c < 0x400000 by omega, show ¬ R.CTXW_CTL c < 0x800000 by omega,
      show ¬ R.CTXW_CTL c < 0xA00000 by omega, show ¬ R.CTXW_CTL c < 0xC00000 by omega, show ¬ R.CTXW_CTL c < 0xD00000 by omega,
      show ¬ R.CTXW_CTL c < 0xE00000 by omega, show ¬ R.CTXW_CTL c < 0xF00000 by omega, show ¬ R.CTXW_CTL c < 0x1000000 by omega,
      show ¬ R.CTXW_CTL c < 0x1100000 by omega, show ¬ R.CTXW_CTL c < 0x1600000 by omega, show ¬ R.CTXW_CTL c < 0x1700000 by omega,
      show ¬ R.CTXW_CTL c < 0x1800000 by omega, show ¬ R.CTXW_CTL c < 0x10000000 by omega, if_false]
  have hstate : (RegFam.has ⟨0x10000000, 0x10000000, 256, 0x1, 1, L.CTXW_STATE⟩ (R.CTXW_CTL c)) = false := by
    have h : ¬ (R.CTXW_CTL c - 0x10000000) % 0x10000000 / 1 < 1 := by unfold R.CTXW_CTL; omega
    unfold RegFam.has
    simp only [h, decide_false, Bool.and_false, Bool.false_and]
  have hctl : (RegFam.has ⟨0x10000008, 0x10000000, 256, 0x1, 1, L.CTXW_CTL⟩ (R.CTXW_CTL c)) = true := by
    have ho : R.CTXW_CTL c - 0x10000008 = 0x10000000 * c := by unfold R.CTXW_CTL; omega
    have h1 : 0x10000000 * c / 0x10000000 < 256 := by omega
    have h2 : 0x10000000 * c % 0x10000000 = 0 := by omega
    unfold RegFam.has
    simp only [ho, h1, h2, hge, decide_true]
    rfl
  unfold layoutOf
  rw [hfams, famsWIN, List.find?_cons, hstate, List.find?_cons, hctl]

/-- The context's driver writes no field of CTXW_CTL that is not its own (R11). -/
theorem foreign_ctl (hc : c < 256) (size off : Nat) (v : Word) : s.foreign (vfAgent c) (R.CTXW_CTL c) size off v = false := by
  have hw : writes (vfAgent c) (R.CTXW_CTL c) .context = true := keyOf_ctl c ▸ writes_vfAgent hc (by decide)
  unfold State.foreign
  rw [layoutOf_ctl hc, List.any_eq_false]
  intro f hf
  have hwr : f.writer = .context := by
    unfold L.CTXW_CTL at hf
    simp only [List.mem_cons, List.not_mem_nil, or_false] at hf
    rcases hf with rfl | rfl | rfl <;> rfl
  unfold foreignField
  rw [hwr, hw]
  simp

/-- CTXW_CTL behind its driver's write, before LOCK and START act. -/
def ctlStored (c : Nat) (v : Word) (s : State) : State := s.setReg (R.CTXW_CTL c) (s.written (vfAgent c) (R.CTXW_CTL c) 8 8 v)

/-- A full write of CTXW_CTL by the context's driver (R281, R282). -/
theorem writeCtl_driver (hc : c < 256) (v : Word) : writeCtl (vfAgent c) (keyOf (c + 1) 8) 8 8 v s =
    if s.on (F.CTX_CFG_NONCONF c) && v.getLsbD 0 && s.ctxState c = 2 && (ctlStored c v s).lockOk c then lockCtx c (ctlStored c v s)
    else if s.on (F.CTX_CFG_NONCONF c) && v.getLsbD 1 && s.ctxState c = 3 then runCtx c (ctlStored c v s)
    else ctlStored c v s := by
  have hw := writes_vfAgent hc (show 8 < 0x10000000 by decide)
  have hfn : keyFn (keyOf (c + 1) 8) - 1 = c := by rw [keyFn_keyOf (by decide)]; rfl
  have hlow : (writeMask 8 8).getLsbD 0 = true := by decide
  unfold writeCtl
  simp only [hfn, hw, hlow, merged_full, Bool.true_and]
  rw [keyOf_ctl, writeReg_of_not_foreign _ _ _ _ _ _ (foreign_ctl hc 8 8 v)]
  rfl

theorem ctlStored_reg (v : Word) {k : Nat} (h : k ≠ R.CTXW_CTL c) : (ctlStored c v s).reg k = s.reg k := State.setReg_other _ _ _ h

theorem ctlStored_rd (v : Word) {f : Fld} (h : f.key ≠ R.CTXW_CTL c) : (ctlStored c v s).rd f = s.rd f := rd_setReg_other s _ _ h

theorem ctlStored_on (v : Word) {f : Fld} (h : f.key ≠ R.CTXW_CTL c) : (ctlStored c v s).on f = s.on f := by
  unfold State.on
  rw [ctlStored_rd v h]

theorem ctxState_ne_ctl (c d : Nat) : R.CTX_STATE c ≠ R.CTXW_CTL d := by unfold R.CTX_STATE R.CTXW_CTL; omega

theorem ctlStored_ctxState (v : Word) : (ctlStored c v s).ctxState c = s.ctxState c := ctlStored_rd v (ctxState_ne_ctl c c)

/-- The registers of the ring and the address spaces in a context's window are other ones than CTXW_CTL. -/
theorem ringRegs_ne_ctl (c : Nat) : R.CTXW_RING_BASE c ≠ R.CTXW_CTL c ∧ R.CTXW_RING_CFG c ≠ R.CTXW_CTL c ∧
    R.CTXW_CMPL_BASE c ≠ R.CTXW_CTL c ∧ R.CTXW_RING_WORDS c ≠ R.CTXW_CTL c ∧ (∀ i, R.CTXW_PASID c i ≠ R.CTXW_CTL c) ∧
    R.HWD_STATUS ≠ R.CTXW_CTL c := by
  unfold R.CTXW_RING_BASE R.CTXW_RING_CFG R.CTXW_CMPL_BASE R.CTXW_RING_WORDS R.CTXW_PASID R.HWD_STATUS R.CTXW_CTL
  refine ⟨?_, ?_, ?_, ?_, fun i => ?_, ?_⟩ <;> omega

/-- The checks of the lock read nothing of CTXW_CTL (R281). -/
theorem ctlStored_lockOk (v : Word) : (ctlStored c v s).lockOk c = s.lockOk c := by
  obtain ⟨hbase, hcfg, hcmpl, hwords, hpasid, hhwd⟩ := ringRegs_ne_ctl c
  have hconf : R.CTX_CFG c ≠ R.CTXW_CTL c := by unfold R.CTX_CFG R.CTXW_CTL; omega
  have hvalid : ∀ i, (ctlStored c v s).on (F.CTXW_PASID_VALID c i) = s.on (F.CTXW_PASID_VALID c i) := fun i => ctlStored_on v (hpasid i)
  have hnone : ∀ i, (ctlStored c v s).on (F.CTXW_PASID_NOPASID c i) = s.on (F.CTXW_PASID_NOPASID c i) := fun i => ctlStored_on v (hpasid i)
  unfold State.lockOk State.wordsAddr
  simp only [ctlStored_ctxState, ctlStored_rd v (f := F.CTXW_RING_CFG_RING_LOG c) hcfg,
    ctlStored_rd v (f := F.CTXW_RING_CFG_CMPL_LOG c) hcfg, ctlStored_on v (f := F.CTXW_RING_BASE_SPACE c) hbase,
    ctlStored_rd v (f := F.CTXW_RING_BASE_BASE c) hbase, ctlStored_on v (f := F.CTXW_CMPL_BASE_SPACE c) hcmpl,
    ctlStored_rd v (f := F.CTXW_CMPL_BASE_BASE c) hcmpl, ctlStored_on v (f := F.CTXW_RING_WORDS_SPACE c) hwords,
    ctlStored_rd v (f := F.CTXW_RING_WORDS_ADDR c) hwords, ctlStored_on v (f := F.HWD_STATUS_DEBUG_ON) hhwd,
    hvalid, hnone,
    ctlStored_on v (f := F.CTX_CFG_NONCONF c) hconf]
  rfl

/-! ### The lock (R281, R282) -/

/-- A context that is locked is LOCKED from now on; of the registers CTX_STATE changes alone. -/
theorem lockCtx_locked (c : Nat) (s : State) : (lockCtx c s).ctxState c = 3 ∧ ((lockCtx c s).ctx c).lockTime = s.now ∧
    (∀ k, k ≠ R.CTX_STATE c → (lockCtx c s).reg k = s.reg k) ∧
    lockCtx c s = { s with regs := (lockCtx c s).regs, ctxs := (lockCtx c s).ctxs } := by
  have hreg : ∀ k, (lockCtx c s).reg k = ((s.wr (F.CTX_STATE_STATE c) 3).wr (F.CTX_STATE_TDI c) 1).reg k :=
    fun k => State.onCtx_at_reg _ _ _ k
  refine ⟨?_, ?_, fun k hk => ?_, rfl⟩
  · exact (rd_of_reg (hreg _)).trans ((rd_wr_beside _ (by decide) 1).trans (rd_wr_fits s (by decide) (by decide)))
  · unfold lockCtx
    rw [State.onCtx_same]
  · rw [hreg, reg_wr_other _ _ _ hk, reg_wr_other _ _ _ hk]

/-! ### Site windows that open (R325) -/

/-- The registers of a site, and those in which a record leaves its trace. -/
def siteReg (k : Nat) : Prop := 0x1000000 ≤ k ∧ k < 0x1100000 ∨ isLog k = true

theorem not_siteReg {k : Nat} (h : k < 0x1000000 ∨ 0x10000000 ≤ k) : ¬ siteReg k := by
  have hlog : isLog k = false := by
    unfold isLog R.TLS_EVT_HEAD R.BBX_STATUS R.BBX_COUNT
    simp only [Bool.or_eq_false_iff, Bool.and_eq_false_iff, decide_eq_false_iff_not]
    omega
  rintro (hk | hk)
  · omega
  · rw [hlog] at hk
    cases hk

theorem setWindow_reg {x w k : Nat} (hx : x < 4) (hw : w < 16) (hk : ¬ siteReg k) : (setWindow x w s).reg k = s.reg k := by
  have hstatus : k ≠ R.CHK_STATUS x := fun e => hk (.inl (by rw [e]; unfold R.CHK_STATUS; omega))
  have hwin : k ≠ R.CHK_WIN_A x w := fun e => hk (.inl (by rw [e]; unfold R.CHK_WIN_A; omega))
  unfold setWindow
  split
  · exact (reg_wr_other _ _ _ hstatus).trans (reg_wr_other _ _ _ hwin)
  · exact closeWindow_frame (fun u => u.reg k) (fun s j v hj => State.setReg_other s j v (by rcases hj with rfl | rfl <;> assumption)) s

/-- Windows that open with a context leave every register but those of sites and of records. -/
theorem openWindows_reg {k : Nat} (hk : ¬ siteReg k) (c : Nat) (s : State) : (openWindows c s).reg k = s.reg k := by
  have hlog : isLog k = false := Bool.eq_false_iff.2 fun h => hk (.inr h)
  unfold openWindows
  refine each_obs (fun u => u.reg k) (fun x hx s => each_obs (fun u => u.reg k) (fun w hw s => ?_) s) s
  have hset := setWindow_reg (s := s) (List.mem_range.1 hx) (List.mem_range.1 hw) hk
  dsimp only
  split
  · split
    · exact hset
    · exact (bbEvent_reg hlog _ _ _ _).trans hset
  · rfl

/-! ### The start (R280, R282) -/

/-- The registers of a context that goes to RUN (R146, R280). -/
def runShown (c : Nat) (s : State) : State :=
  ((s.wr (F.CTX_STATE_STATE c) 4).wr (F.CTX_STATE_TDI c) 2).wr (F.CTXW_RING_STATUS_HEAD c) 0

/-- A context that goes to RUN, before its hub word is written: its counts start at zero (R146, R280). -/
def enteredRun (c : Nat) (s : State) : State :=
  (runShown c s).onCtx c fun x => { x with tail := 0, cmplHead := 0, cmplTail := 0, fetch := none }

theorem runCtx_eq (c : Nat) (s : State) : runCtx c s =
    let u := openWindows c (hubWrite c (enteredRun c s))
    if (u.rd F.TLS_STATUS_PART_DOWN).testBit (u.partOf c) then ctxFault 0x0016 c u else loadInSlice c u := rfl

theorem enteredRun_reg {k : Nat} (h1 : k ≠ R.CTX_STATE c) (h2 : k ≠ R.CTXW_RING_STATUS c) : (enteredRun c s).reg k = s.reg k := by
  rw [enteredRun, State.onCtx_at_reg, runShown, reg_wr_other _ _ _ h2, reg_wr_other _ _ _ h1, reg_wr_other _ _ _ h1]

theorem enteredRun_fields (c : Nat) (s : State) : (enteredRun c s).ctxState c = 4 ∧ (enteredRun c s).head c = 0 := by
  have hkey : R.CTX_STATE c ≠ R.CTXW_RING_STATUS c := by unfold R.CTX_STATE R.CTXW_RING_STATUS; omega
  have hreg : ∀ k, (enteredRun c s).reg k = (runShown c s).reg k := fun k => State.onCtx_at_reg _ _ _ k
  refine ⟨(rd_of_reg (hreg _)).trans ?_, (rd_of_reg (hreg _)).trans (rd_wr_fits _ (by decide) (by decide))⟩
  exact (rd_wr_other _ (f := F.CTXW_RING_STATUS_HEAD c) hkey 0).trans
    ((rd_wr_beside _ (by decide) 2).trans (rd_wr_fits s (by decide) (by decide)))

/-- A slice that loads a context begins a switch, or nothing happens (R171, R179). -/
theorem loadInSlice_cases (c : Nat) (s : State) :
    loadInSlice c s = s ∨ SwitchBegun (s.partOf c) (some c) s (loadInSlice c s) := by
  unfold loadInSlice
  dsimp only
  split
  · exact .inr (beginSwitch_begun (partOf_lt s c) _ s)
  · exact .inl rfl

theorem loadInSlice_fields (hc : c < 256) : (loadInSlice c s).ctxState c = s.ctxState c ∧ (loadInSlice c s).head c = s.head c := by
  rcases loadInSlice_cases c s with h | h
  · rw [h]; exact ⟨rfl, rfl⟩
  · have hp := partOf_lt s c
    refine ⟨rd_of_reg (f := F.CTX_STATE_STATE c) (h.regs _ ?_ ?_ fun d _ => ?_), h.head c⟩
    · change ¬ switchReg (R.CTX_STATE c)
      unfold switchReg R.CTX_STATE
      omega
    · change R.CTX_STATE c ≠ R.SCH_STATUS (s.partOf c)
      unfold R.CTX_STATE R.SCH_STATUS
      omega
    · change R.CTX_STATE c ≠ R.CTXW_RING_STATUS d
      unfold R.CTX_STATE R.CTXW_RING_STATUS
      omega

/-- Entering RUN changes nothing of what decides which bytes of the context's range are served. -/
theorem enteredRun_alike (hc : c < 256) : ServesAlike c s (enteredRun c s) where
  caches _ := rfl
  marks := rfl
  regs k hk := enteredRun_reg (by unfold R.MEM_STATUS R.CTX_STATE; omega) (by unfold R.MEM_STATUS R.CTXW_RING_STATUS; omega)
  spread := by
    unfold enteredRun
    rw [State.onCtx_same]
    exact ⟨rfl, rfl, rfl⟩

/-- Whether a hub word can be written depends on what serves the context's range and on where the word lies. -/
theorem ServesAlike.wordServed {s' : State} (h : ServesAlike c s s') (hw : s'.reg (R.CTXW_RING_WORDS c) = s.reg (R.CTXW_RING_WORDS c))
    (hs : s.wordServed c) : s'.wordServed c := by
  have haddr : s'.wordsAddr c = s.wordsAddr c := by
    unfold State.wordsAddr
    rw [rd_of_reg (f := F.CTXW_RING_WORDS_ADDR c) hw]
  unfold State.wordServed State.inRange State.on at *
  rw [rd_of_reg (f := F.CTXW_RING_WORDS_SPACE c) hw, haddr, h.range]
  exact hs.imp_right fun h' => ⟨h.flatServes h'.1, h'.2⟩

/-- The partition of a context depends on CTX_CFG alone. -/
theorem partOf_of_reg {s' : State} (h : s'.reg (R.CTX_CFG c) = s.reg (R.CTX_CFG c)) : s'.partOf c = s.partOf c :=
  rd_of_reg (f := F.CTX_CFG_PARTITION c) h

/-- A context that enters RUN on a partition that is not held down, where its hub word can be written: RUN, with HEAD zero (R280). -/
theorem runCtx_runs (hc : c < 256) (hdown : (s.rd F.TLS_STATUS_PART_DOWN).testBit (s.partOf c) = false) (hw : s.wordServed c) :
    (runCtx c s).ctxState c = 4 ∧ (runCtx c s).head c = 0 := by
  have hput : WordPut c (enteredRun c s) (hubWrite c (enteredRun c s)) :=
    hubWrite_put ((enteredRun_alike hc).wordServed (enteredRun_reg (by unfold R.CTXW_RING_WORDS R.CTX_STATE; omega)
      (by unfold R.CTXW_RING_WORDS R.CTXW_RING_STATUS; omega)) hw)
  have hreg : ∀ k, ¬ hostReg k → ¬ siteReg k → (openWindows c (hubWrite c (enteredRun c s))).reg k = (enteredRun c s).reg k :=
    fun k h1 h2 => (openWindows_reg h2 c _).trans (hput.regs k h1)
  rw [runCtx_eq]
  generalize openWindows c (hubWrite c (enteredRun c s)) = u at *
  have hkept : ∀ k, ¬ hostReg k → ¬ siteReg k → k ≠ R.CTX_STATE c → k ≠ R.CTXW_RING_STATUS c → u.reg k = s.reg k :=
    fun k h1 h2 h3 h4 => (hreg k h1 h2).trans (enteredRun_reg h3 h4)
  have hcfg : u.reg (R.CTX_CFG c) = s.reg (R.CTX_CFG c) :=
    hkept _ (by unfold hostReg R.CTX_CFG R.XLT_COUNT; omega) (not_siteReg (.inl (by unfold R.CTX_CFG; omega)))
      (by unfold R.CTX_CFG R.CTX_STATE; omega) (by unfold R.CTX_CFG R.CTXW_RING_STATUS; omega)
  have htls : u.rd F.TLS_STATUS_PART_DOWN = s.rd F.TLS_STATUS_PART_DOWN :=
    rd_of_reg (hkept R.TLS_STATUS (by unfold hostReg; decide) (by unfold siteReg; decide)
      (by unfold R.TLS_STATUS R.CTX_STATE; omega) (by unfold R.TLS_STATUS R.CTXW_RING_STATUS; omega))
  have hstate : u.reg (R.CTX_STATE c) = (enteredRun c s).reg (R.CTX_STATE c) :=
    hreg _ (by unfold hostReg R.CTX_STATE R.XLT_COUNT; omega) (not_siteReg (.inl (by unfold R.CTX_STATE; omega)))
  have hhead : u.reg (R.CTXW_RING_STATUS c) = (enteredRun c s).reg (R.CTXW_RING_STATUS c) :=
    hreg _ (by unfold hostReg R.CTXW_RING_STATUS R.XLT_COUNT; omega) (not_siteReg (.inr (by unfold R.CTXW_RING_STATUS; omega)))
  have hpart := partOf_of_reg hcfg
  obtain ⟨h4, h0⟩ := enteredRun_fields c s
  obtain ⟨hl4, hl0⟩ := loadInSlice_fields (s := u) hc
  simp only [htls, hpart, hdown, Bool.false_eq_true, if_false]
  exact ⟨hl4.trans ((rd_of_reg (f := F.CTX_STATE_STATE c) hstate).trans h4), hl0.trans ((rd_of_reg (f := F.CTXW_RING_STATUS_HEAD c) hhead).trans h0)⟩

/-! ### The driver's writes of CTXW_CTL -/

/-- A write of CTXW_CTL leaves what decides which bytes of the context's range are served. -/
theorem ctlStored_alike (v : Word) : ServesAlike c s (ctlStored c v s) :=
  ⟨fun _ => rfl, rfl, fun k hk => ctlStored_reg v (by unfold R.MEM_STATUS R.CTXW_CTL; omega), rfl, rfl, rfl⟩

/-- Bits that the two commands set in the value that is written. -/
theorem getLsbD_or_one (v : Word) : (v ||| 1).getLsbD 0 = true := by simp
theorem getLsbD_or_two (v : Word) : (v ||| 2).getLsbD 1 = true := by simp

/-- A write of CTXW_CTL to a context that is not marked non-confidential only stores (R281, R282). -/
theorem writeCtl_confidential (hc : c < 256) (hn : s.on (F.CTX_CFG_NONCONF c) = false) (v : Word) :
    writeCtl (vfAgent c) (keyOf (c + 1) 8) 8 8 v s = ctlStored c v s := by
  rw [writeCtl_driver hc, hn]
  rfl

/-- An error of the endpoint that is noted changes its own registers alone (R347, R348, R368). -/
theorem noteError_reg {k : Nat} (h : k ≠ R.GLB_HEP_LAST_ERR) (kind fn : Nat) (d : Option Nat) (s : State) :
    (noteError kind fn d s).reg k = s.reg k := by
  unfold noteError
  dsimp only
  rw [raiseVector_frame (fun u : State => u.reg k) (fun _ _ => rfl) (fun _ _ => rfl)]
  exact (reg_wr_other _ _ _ h).trans ((reg_wr_other _ _ _ h).trans
    ((reg_wr_other _ _ _ h).trans ((reg_wr_other _ _ _ h).trans (reg_wr_other _ _ _ h))))

/-- A request that is answered with Unsupported Request leaves the state of every context (R342, R348). -/
theorem answerUr_ctxState (fn : Nat) (posted : Bool) (d : Nat) (s : State) : (answerUr fn posted s).ctxState d = s.ctxState d := by
  have hlast : R.CTX_STATE d ≠ R.GLB_HEP_LAST_ERR := by unfold R.CTX_STATE R.GLB_HEP_LAST_ERR; omega
  have herr : R.CTX_STATE d ≠ R.GLB_HEP_ERR := by unfold R.CTX_STATE R.GLB_HEP_ERR; omega
  have hnote : ∀ kind c, (noteError kind fn c (s.satInc F.GLB_HEP_ERR_UR_SENT 1)).reg (R.CTX_STATE d) = s.reg (R.CTX_STATE d) :=
    fun kind c => (noteError_reg hlast kind fn c _).trans (reg_wr_other s _ _ herr)
  refine rd_of_reg (f := F.CTX_STATE_STATE d) ?_
  unfold answerUr
  dsimp only
  split <;> exact hnote 1 _

end

end Sys2Proof.Machine
end

section
/-! The statement about writes to a context's window (chapter 05). -/

open Sys2Proof Sys2Proof.Machine

/-- Settles O16: a window's request that is taken is stored where it is served. A write of COUNT is a SET of the object; a write of CTXW_CTL
stores MEASURE, and for a context marked non-confidential LOCK and START act on the state that the checks, which do not read CTXW_CTL,
allow; START's write of the hub word reports no fault where its place can be written. -/
theorem contextWindowCommands : Obligations.ContextWindowCommands := by
  unfold Obligations.ContextWindowCommands
  intro c v tbit s ht
  have hc : c.val < 256 := c.isLt
  have hctl : ∀ w, hostWrite (vfAgent c.val) (c.val + 1) 8 8 w tbit s =
      if s.served (c.val + 1) 8 8 false tbit then writeCtl (vfAgent c.val) (keyOf (c.val + 1) 8) 8 8 w s
      else answerUr (c.val + 1) true s := fun w => by
    have h8 : 8 / 8 * 8 = 8 := by decide
    rw [hostWrite_window (by decide) ht, h8, storeReg_ctl]
  refine ⟨fun i n hi hn hs => ?_, fun hs hconf h2 hlock => ?_, fun hs hconf h3 hdown hw => ?_, fun hconf => ?_⟩
  · have ho : (0x4000 + 16 * i) / 8 * 8 = 0x4000 + 16 * i := by omega
    have hwr : hostWrite (vfAgent c.val) (c.val + 1) (0x4000 + 16 * i) 8 v tbit s =
        if v = s.reg (R.SYN_CNT n) then s else soSet n v.toNat false false s := by
      rw [hostWrite_window (by omega) (takesNow_window ht), hs, ho, storeReg_so (by omega) (by omega), writeSo_count hc rfl hi hn]
      rfl
    have hexec : exec (.ctxwSoWrite c (16 * i) 8 v tbit) s =
        s.done (if v = s.reg (R.SYN_CNT n) then s else soSet n v.toNat false false s) := by
      show execCtxwSoWrite c (16 * i) 8 v tbit s = _
      unfold execCtxwSoWrite
      rw [if_pos (by omega), hwr]
    rw [hexec]
    by_cases hv : v = s.reg (R.SYN_CNT n)
    · rw [if_pos hv]
      exact ⟨s, State.done_self s, by rw [rd_count_toNat, hv], fun _ _ => rfl, rfl⟩
    · rw [if_neg hv]
      have hkept : ∀ r x, ({ soSet n v.toNat false false s with regs := r, ctxs := x } : State) = { s with regs := r, ctxs := x } := fun r x =>
        soSet_plain_frame (fun t => { t with regs := r, ctxs := x }) (fun _ _ => rfl) (fun _ _ => rfl) _ _
      refine ⟨_, State.done_of_eq (hkept _ _) rfl rfl, soSet_plain_count n v s, fun k hk => ?_, hkept _ _⟩
      exact soSet_plain_frame (fun t => t.reg k) (fun u w => State.setReg_other u _ w hk) (fun _ _ => rfl) _ _
  · have hexec : exec (.ctxwCtlLock c v 8 tbit) s = s.done (lockCtx c.val (ctlStored c.val (v ||| 1) s)) := by
      show s.done (hostWrite _ _ _ _ _ _ _) = _
      rw [hctl, hs, if_pos rfl, writeCtl_driver hc, hconf, getLsbD_or_one, h2, ctlStored_lockOk, hlock]
      rfl
    obtain ⟨hst, htime, hreg, hrest⟩ := lockCtx_locked c.val (ctlStored c.val (v ||| 1) s)
    rw [hexec]
    exact ⟨_, State.done_of_eq hrest rfl rfl, hst, htime, fun k h1 h2 => (hreg k h2).trans (ctlStored_reg _ h1), hrest⟩
  · have hexec : exec (.ctxwCtlStart c v 8 tbit) s = s.done (runCtx c.val (ctlStored c.val (v ||| 2) s)) := by
      show s.done (hostWrite _ _ _ _ _ _ _) = _
      rw [hctl, hs, if_pos rfl, writeCtl_driver hc, hconf, getLsbD_or_two, h3]
      simp
    have hpart : (ctlStored c.val (v ||| 2) s).partOf c.val = s.partOf c.val :=
      partOf_of_reg (ctlStored_reg _ (by unfold R.CTX_CFG R.CTXW_CTL; omega))
    have htls : (ctlStored c.val (v ||| 2) s).rd F.TLS_STATUS_PART_DOWN = s.rd F.TLS_STATUS_PART_DOWN :=
      ctlStored_rd _ (by change R.TLS_STATUS ≠ _; unfold R.TLS_STATUS R.CTXW_CTL; omega)
    have hserved : (ctlStored c.val (v ||| 2) s).wordServed c.val :=
      (ctlStored_alike _).wordServed (ctlStored_reg _ (ringRegs_ne_ctl c.val).2.2.2.1) hw
    obtain ⟨h4, h0⟩ := runCtx_runs hc (by rw [htls, hpart]; exact hdown) hserved
    rw [hexec]
    exact ⟨_, rfl, h4, h0⟩
  · have hkept : ∀ w, (hostWrite (vfAgent c.val) (c.val + 1) 8 8 w tbit s).ctxState c.val = s.ctxState c.val := fun w => by
      rw [hctl]
      split
      · rw [writeCtl_confidential hc hconf]; exact ctlStored_ctxState _
      · exact answerUr_ctxState _ _ _ _
    exact ⟨_, rfl, hkept _, _, rfl, hkept _⟩
end

section
/-! SUPPORT. What the completion of an operation changes (R162, R164): it goes from its context, the counts follow, and its signal reaches an
object and the waits on it (R165–R167). -/

namespace Sys2Proof.Machine

/-! ### Waits that are tested (R167) -/

/-- Of the contexts only operations have changed, and each keeps its acceptance count. -/
def OpsTested (s s' : State) : Prop :=
  ∀ d, ∃ g : Op → Op, (∀ o, (g o).seq = o.seq) ∧ s'.ctx d = { s.ctx d with ops := (s.ctx d).ops.map g }

section
variable {s s' : State}

theorem OpsTested.refl (s : State) : OpsTested s s := fun d => ⟨id, fun _ => rfl, by rw [List.map_id]⟩

theorem OpsTested.trans {a b d : State} (h : OpsTested a b) (h' : OpsTested b d) : OpsTested a d := fun c => by
  obtain ⟨g, hg, h1⟩ := h c
  obtain ⟨f, hf, h2⟩ := h' c
  exact ⟨f ∘ g, fun o => (hf _).trans (hg o), by rw [h2, h1, List.map_map]⟩

/-- Which acceptance counts are in flight, and how many. -/
theorem OpsTested.op?_isSome (h : OpsTested s s') (c q : Nat) : (s'.op? c q).isSome = (s.op? c q).isSome := by
  obtain ⟨g, hg, hd⟩ := h c
  have hcomp : (fun o : Op => decide (o.seq = q)) ∘ g = fun o => decide (o.seq = q) := by
    funext o
    simp [hg]
  unfold State.op?
  rw [hd, List.find?_map, hcomp, Option.isSome_map]

theorem OpsTested.length (h : OpsTested s s') (c : Nat) : (s'.ctx c).ops.length = (s.ctx c).ops.length := by
  obtain ⟨g, -, hd⟩ := h c
  rw [hd, List.length_map]

theorem OpsTested.cmplTail (h : OpsTested s s') (c : Nat) : (s'.ctx c).cmplTail = (s.ctx c).cmplTail := by
  obtain ⟨g, -, hd⟩ := h c
  rw [hd]

theorem Op.testWait_seq (o : Op) (n cnt : Nat) (err : Bool) : (o.testWait n cnt err).seq = o.seq := by
  unfold Op.testWait
  split <;> rfl

theorem testWaits_tested (n : Nat) (s : State) : OpsTested s (testWaits n s) := by
  unfold testWaits
  dsimp only
  refine each_rel OpsTested .refl (fun _ _ _ => .trans) _ (fun c s d => ?_) _ s
  by_cases hd : d = c
  · subst hd
    exact ⟨_, fun o => Op.testWait_seq o _ _ _, State.onCtx_same _ _ _⟩
  · exact ⟨id, fun _ => rfl, by rw [State.onCtx_other _ _ _ hd, List.map_id]⟩

/-! ### Signals (R166) -/

/-- What a signal may change: the registers of its object, and the waits on it. -/
structure ObjectSet (n : Nat) (s s' : State) : Prop where
  regs : ∀ k, k ≠ R.SYN_CNT n → k ≠ R.SYN_CTL n → s'.reg k = s.reg k
  ops : OpsTested s s'
  rest : s' = { s with regs := s'.regs, ctxs := s'.ctxs }

theorem ObjectSet.refl (n : Nat) (s : State) : ObjectSet n s s := ⟨fun _ _ _ => rfl, .refl s, rfl⟩

theorem ObjectSet.trans {n : Nat} {a b d : State} (h : ObjectSet n a b) (h' : ObjectSet n b d) : ObjectSet n a d :=
  ⟨fun k h1 h2 => (h'.regs k h1 h2).trans (h.regs k h1 h2), h.ops.trans h'.ops, by rw [h'.rest, h.rest]⟩

theorem ObjectSet.of_count (n v : Nat) (s : State) : ObjectSet n s (s.wr (F.SYN_CNT_COUNT n) v) :=
  ⟨fun _ h1 _ => reg_wr_other _ _ _ h1, .refl _, rfl⟩

theorem ObjectSet.of_ctl (n hi lo v : Nat) (s : State) : ObjectSet n s (s.wr ⟨R.SYN_CTL n, hi, lo⟩ v) :=
  ⟨fun _ _ h2 => reg_wr_other _ _ _ h2, .refl _, rfl⟩

theorem ObjectSet.of_test (n : Nat) (s : State) : ObjectSet n s (testWaits n s) :=
  ⟨fun k _ _ => testWaits_frame (fun t => t.reg k) (fun _ _ => rfl) n s, testWaits_tested n s,
    congrArg (fun t : State => { t with regs := (testWaits n s).regs, ctxs := (testWaits n s).ctxs })
      (testWaits_frame (fun t => { t with ctxs := s.ctxs }) (fun _ _ => rfl) n s)⟩

/-- The registers of an object behind tests of the waits on it. -/
theorem testWaits_rd (n : Nat) (f : Fld) (s : State) : (testWaits n s).rd f = s.rd f :=
  testWaits_frame (fun t => t.rd f) (fun _ _ => rfl) n s

/-- The counter's register is not the object's other one. -/
theorem cnt_ne_ctl (n m : Nat) : R.SYN_CNT n ≠ R.SYN_CTL m := by unfold R.SYN_CNT R.SYN_CTL; omega

/-- SAT sets when a sum is beyond the counter's greatest value. -/
def satMarked (n t : Nat) (s : State) : State := if t < 2 ^ 64 then s else s.wr (F.SYN_CTL_SAT n) 1

/-- ERR sets when the operation ended in error. -/
def errMarked (n : Nat) (err : Bool) (s : State) : State := if err then s.wr (F.SYN_CTL_ERR n) 1 else s

theorem soAdd_eq (n v : Nat) (err : Bool) (s : State) : soAdd n v err s =
    testWaits n (errMarked n err (satMarked n (s.rd (F.SYN_CNT_COUNT n) + v)
      (s.wr (F.SYN_CNT_COUNT n) (min (s.rd (F.SYN_CNT_COUNT n) + v) (2 ^ 64 - 1))))) := rfl

theorem satMarked_object (n t : Nat) (s : State) : ObjectSet n s (satMarked n t s) ∧
    (satMarked n t s).rd (F.SYN_CNT_COUNT n) = s.rd (F.SYN_CNT_COUNT n) ∧
    (satMarked n t s).rd (F.SYN_CTL_ERR n) = s.rd (F.SYN_CTL_ERR n) ∧
    (2 ^ 64 ≤ t → (satMarked n t s).rd (F.SYN_CTL_SAT n) = 1) := by
  unfold satMarked
  split
  · exact ⟨.refl n s, rfl, rfl, fun h => by omega⟩
  · exact ⟨.of_ctl n 2 2 1 s, rd_wr_other s (f := F.SYN_CTL_SAT n) (cnt_ne_ctl n n) 1, rd_wr_beside s (by decide) 1,
      fun _ => rd_wr_fits s (by decide) (by decide)⟩

theorem errMarked_object (n : Nat) (err : Bool) (s : State) : ObjectSet n s (errMarked n err s) ∧
    (errMarked n err s).rd (F.SYN_CNT_COUNT n) = s.rd (F.SYN_CNT_COUNT n) ∧
    (errMarked n err s).rd (F.SYN_CTL_ERR n) = (if err then 1 else s.rd (F.SYN_CTL_ERR n)) ∧
    (errMarked n err s).rd (F.SYN_CTL_SAT n) = s.rd (F.SYN_CTL_SAT n) := by
  cases err
  · exact ⟨.refl n s, rfl, rfl, rfl⟩
  · exact ⟨.of_ctl n 1 1 1 s, rd_wr_other s (f := F.SYN_CTL_ERR n) (cnt_ne_ctl n n) 1, rd_wr_fits s (by decide) (by decide),
      rd_wr_beside s (by decide) 1⟩

/-- What a signal of code 1, ADD, leaves of its object (R166). -/
theorem soAdd_object (n v : Nat) (err : Bool) (s : State) :
    ObjectSet n s (soAdd n v err s) ∧
    (soAdd n v err s).rd (F.SYN_CNT_COUNT n) = min (s.rd (F.SYN_CNT_COUNT n) + v) (2 ^ 64 - 1) ∧
    (soAdd n v err s).rd (F.SYN_CTL_ERR n) = (if err then 1 else s.rd (F.SYN_CTL_ERR n)) ∧
    (2 ^ 64 ≤ s.rd (F.SYN_CNT_COUNT n) + v → (soAdd n v err s).rd (F.SYN_CTL_SAT n) = 1) := by
  rw [soAdd_eq]
  generalize ht : s.rd (F.SYN_CNT_COUNT n) + v = t
  have hmin : min t (2 ^ 64 - 1) < 2 ^ (63 + 1 - 0) := by omega
  obtain ⟨h1, hcnt1, herr1, hsat1⟩ := satMarked_object n t (s.wr (F.SYN_CNT_COUNT n) (min t (2 ^ 64 - 1)))
  obtain ⟨h2, hcnt2, herr2, hsat2⟩ := errMarked_object n err (satMarked n t (s.wr (F.SYN_CNT_COUNT n) (min t (2 ^ 64 - 1))))
  have hcnt : (s.wr (F.SYN_CNT_COUNT n) (min t (2 ^ 64 - 1))).rd (F.SYN_CNT_COUNT n) = min t (2 ^ 64 - 1) :=
    rd_wr_fits s (by decide) hmin
  have herr : (s.wr (F.SYN_CNT_COUNT n) (min t (2 ^ 64 - 1))).rd (F.SYN_CTL_ERR n) = s.rd (F.SYN_CTL_ERR n) :=
    rd_wr_other s (f := F.SYN_CNT_COUNT n) (g := F.SYN_CTL_ERR n) (cnt_ne_ctl n n).symm _
  simp only [testWaits_rd]
  refine ⟨(((ObjectSet.of_count n _ s).trans h1).trans h2).trans (.of_test n _), ?_, ?_, fun hbig => ?_⟩
  · rw [hcnt2, hcnt1, hcnt]
  · rw [herr2, herr1, herr]
  · rw [hsat2, hsat1 hbig]

/-- What a signal of code 2, SET, leaves of its object, ERR set or cleared (R166). -/
theorem soSet_object (n v : Nat) (err : Bool) (s : State) :
    ObjectSet n s (soSet n v err (!err) s) ∧ (soSet n v err (!err) s).rd (F.SYN_CNT_COUNT n) = v % 2 ^ 64 ∧
    (soSet n v err (!err) s).rd (F.SYN_CTL_ERR n) = b2n err := by
  have hcnt : ∀ x, ((s.wr (F.SYN_CNT_COUNT n) v).wr (F.SYN_CTL_ERR n) x).rd (F.SYN_CNT_COUNT n) = v % 2 ^ 64 := fun x =>
    (rd_wr_other _ (f := F.SYN_CTL_ERR n) (g := F.SYN_CNT_COUNT n) (cnt_ne_ctl n n) x).trans (rd_wr_cut s (by decide) v)
  have hset : ∀ x, ObjectSet n s (testWaits n ((s.wr (F.SYN_CNT_COUNT n) v).wr (F.SYN_CTL_ERR n) x)) := fun x =>
    ((ObjectSet.of_count n v s).trans (.of_ctl n 1 1 x _)).trans (.of_test n _)
  unfold soSet
  dsimp only
  cases err
  · exact ⟨hset 0, (testWaits_rd _ _ _).trans (hcnt 0), (testWaits_rd _ _ _).trans (rd_wr_fits _ (by decide) (by decide))⟩
  · exact ⟨hset 1, (testWaits_rd _ _ _).trans (hcnt 1), (testWaits_rd _ _ _).trans (rd_wr_fits _ (by decide) (by decide))⟩

/-- What the signal of an operation leaves of the objects, by its code (R152, R164, R166). -/
theorem signalOp_object (sig st : Nat) (s : State) :
    let n := bits sig 60 48
    let s' := signalOp sig st s
    ObjectSet n s s' ∧
    (bits sig 63 62 = 1 → s'.rd (F.SYN_CNT_COUNT n) = min (s.rd (F.SYN_CNT_COUNT n) + bits sig 47 0) (2 ^ 64 - 1) ∧
      s'.rd (F.SYN_CTL_ERR n) = (if isErr st then 1 else s.rd (F.SYN_CTL_ERR n)) ∧
      (2 ^ 64 ≤ s.rd (F.SYN_CNT_COUNT n) + bits sig 47 0 → s'.rd (F.SYN_CTL_SAT n) = 1)) ∧
    (bits sig 63 62 = 2 → s'.rd (F.SYN_CNT_COUNT n) = bits sig 47 0 ∧ s'.rd (F.SYN_CTL_ERR n) = b2n (isErr st)) ∧
    (bits sig 63 62 ≠ 1 → bits sig 63 62 ≠ 2 → s' = s) := by
  intro n s'
  have hs' : s' = signalOp sig st s := rfl
  unfold signalOp at hs'
  clear_value s'
  subst hs'
  dsimp only
  have hv : bits sig 47 0 % 2 ^ 64 = bits sig 47 0 := Nat.mod_eq_of_lt (Nat.lt_trans (Nat.mod_lt _ (by decide)) (by decide))
  split
  · rename_i h
    obtain ⟨h1, h2, h3, h4⟩ := soAdd_object n (bits sig 47 0) (isErr st) s
    exact ⟨h1, fun _ => ⟨h2, h3, h4⟩, fun h' => absurd (h.symm.trans h') (by decide), fun h' => absurd h h'⟩
  · rename_i h
    obtain ⟨h1, h2, h3⟩ := soSet_object n (bits sig 47 0) (isErr st) s
    exact ⟨h1, fun h' => absurd (h.symm.trans h') (by decide), fun _ => ⟨h2.trans hv, h3⟩, fun _ h' => absurd h h'⟩
  · rename_i h1 h2
    exact ⟨.refl n s, fun h => absurd h h1, fun h => absurd h h2, fun _ _ => rfl⟩

/-! ### An operation goes (R145, R164, R182) -/

/-- Counts of operations in flight, and the registers of DMA engines. -/
def dropReg (k : Nat) : Prop := 0x100000 ≤ k ∧ k < 0x200000 ∨ 0xA11000 ≤ k ∧ k < 0xA12000

/-- A write of a register of a kind leaves every register that is not of it. -/
theorem reg_wr_off {P : Nat → Prop} {f : Fld} (hf : P f.key) {k : Nat} (hk : ¬ P k) (v : Nat) (s : State) : (s.wr f v).reg k = s.reg k :=
  reg_wr_other s f v fun e => hk (e.symm ▸ hf)

/-- Engines and what engines show have changed alone. -/
structure EnginesFreed (s s' : State) : Prop where
  regs : ∀ k, ¬ dropReg k → s'.reg k = s.reg k
  rest : s' = { s with regs := s'.regs, engines := s'.engines }

theorem EnginesFreed.refl (s : State) : EnginesFreed s s := ⟨fun _ _ => rfl, rfl⟩

theorem EnginesFreed.trans {a b d : State} (h : EnginesFreed a b) (h' : EnginesFreed b d) : EnginesFreed a d :=
  ⟨fun k hk => (h'.regs k hk).trans (h.regs k hk), by rw [h'.rest, h.rest]⟩

theorem EnginesFreed.of_engine (e : Nat) (f : Engine → Engine) (s : State) : EnginesFreed s (s.onEngine e f) := ⟨fun _ _ => rfl, rfl⟩

theorem EnginesFreed.wr {s s' : State} (h : EnginesFreed s s') {f : Fld} (hf : dropReg f.key) (v : Nat) : EnginesFreed s (s'.wr f v) :=
  h.trans ⟨fun _ hk => reg_wr_off hf hk v s', rfl⟩

/-- An engine that serves an operation is free. -/
def engineFreed (c q e : Nat) (s : State) : State :=
  if (s.engine e).op = some (c, q) then
    ((s.onEngine e fun x => { x with op := none }).wr (F.DMA_ENG_STATUS_STATE e) 0).wr (F.DMA_ENG_STATUS_OUT_RD e) 0
  else s

theorem freeEngine_eq (c q : Nat) (s : State) : freeEngine c q s = each (List.range 32) (engineFreed c q) s := rfl

theorem engineFreed_freed (c q : Nat) {e : Nat} (he : e < 32) (s : State) : EnginesFreed s (engineFreed c q e s) := by
  have hkey : dropReg (R.DMA_ENG_STATUS e) := by
    unfold dropReg R.DMA_ENG_STATUS
    omega
  unfold engineFreed
  split
  · exact ((EnginesFreed.of_engine e _ s).wr hkey 0).wr hkey 0
  · exact .refl s

theorem freeEngine_freed (c q : Nat) (s : State) : EnginesFreed s (freeEngine c q s) := by
  rw [freeEngine_eq]
  exact each_rel_mem EnginesFreed .refl (fun _ _ _ => .trans) (fun e he s => engineFreed_freed c q (List.mem_range.1 he) s) s

/-- What the counts of operations in flight are brought to (R145, R182). -/
theorem countOps_counted {c : Nat} (hc : c < 256) (s : State) :
    (∀ k, ¬ dropReg k → k ≠ R.CTXW_RING_STATUS c → (countOps c s).reg k = s.reg k) ∧
    (∀ hi lo, hi < 64 → lo ≤ hi → hi < 15 ∨ 23 < lo →
      (countOps c s).rd ⟨R.CTXW_RING_STATUS c, hi, lo⟩ = s.rd ⟨R.CTXW_RING_STATUS c, hi, lo⟩) ∧
    (countOps c s).rd (F.CTXW_RING_STATUS_IN_FLIGHT c) = (s.ctx c).ops.length % 512 ∧
    regsOnly s (countOps c s) := by
  have hp := partOf_lt s c
  have hq : dropReg (R.SCH_CTXQ (s.partOf c) c) := by unfold dropReg R.SCH_CTXQ; omega
  have hn : dropReg (R.SCH_COUNT (s.partOf c)) := by unfold dropReg R.SCH_COUNT; omega
  have hring : ¬ dropReg (R.CTXW_RING_STATUS c) := by unfold dropReg R.CTXW_RING_STATUS; omega
  have hreg : ∀ k, ¬ dropReg k → (countOps c s).reg k = (s.wr (F.CTXW_RING_STATUS_IN_FLIGHT c) (s.ctx c).ops.length).reg k := fun k hk =>
    (reg_wr_off hn hk _ _).trans (reg_wr_off hq hk _ _)
  refine ⟨fun k hk hr => (hreg k hk).trans (reg_wr_other s _ _ hr), fun hi lo h1 h2 h3 => ?_, ?_, rfl⟩
  · exact (rd_of_reg (f := ⟨R.CTXW_RING_STATUS c, hi, lo⟩) (hreg _ hring)).trans (rd_wr_beside s (by omega) _)
  · exact (rd_of_reg (f := F.CTXW_RING_STATUS_IN_FLIGHT c) (hreg _ hring)).trans (rd_wr_cut s (by decide) _)

/-- What it leaves that an operation goes from its context. -/
structure OpDropped (c q : Nat) (s s' : State) : Prop where
  regs : ∀ k, ¬ dropReg k → k ≠ R.CTXW_RING_STATUS c → s'.reg k = s.reg k
  own : s'.ctx c = { s.ctx c with ops := (s.ctx c).ops.filter fun o => o.seq != q }
  inFlight : s'.rd (F.CTXW_RING_STATUS_IN_FLIGHT c) = (s'.ctx c).ops.length % 512
  rest : s' = { s with regs := s'.regs, ctxs := s'.ctxs, waiting := s'.waiting, engines := s'.engines }

theorem dropOp_dropped {c : Nat} (hc : c < 256) (q : Nat) (s : State) : OpDropped c q s (dropOp c q s) := by
  unfold dropOp
  generalize hu : dropAsks c q (s.onCtx c fun x => { x with ops := x.ops.filter fun o => o.seq != q }) = u
  have hreg : ∀ k, u.reg k = s.reg k := fun k => by rw [← hu]; rfl
  have hown : u.ctx c = { s.ctx c with ops := (s.ctx c).ops.filter fun o => o.seq != q } := by
    rw [← hu]
    exact State.onCtx_same s c fun x => { x with ops := x.ops.filter fun o => o.seq != q }
  have hrest : u = { s with ctxs := u.ctxs, waiting := u.waiting } := by rw [← hu]; rfl
  have hfree := freeEngine_freed c q u
  generalize freeEngine c q u = v at *
  have hvctx : v.ctx c = u.ctx c := by rw [hfree.rest]; rfl
  obtain ⟨hcreg, -, hcount, honly⟩ := countOps_counted hc v
  have hcctx : (countOps c v).ctx c = v.ctx c := rfl
  refine ⟨fun k hk hr => (hcreg k hk hr).trans ((hfree.regs k hk).trans (hreg k)), hcctx.trans (hvctx.trans hown), hcount, ?_⟩
  unfold regsOnly at honly
  rw [honly, hfree.rest, hrest]

/-! ### Behind the record (R164) -/

/-- A context's errors, of the operations that have ended in one (R160). -/
def errNoted (c : Nat) (o : Op) (r : Result) (s : State) : State :=
  if isErr r.status then s.onCtx c fun x => { x with errSeqs := o.seq :: x.errSeqs } else s

/-- The event of an operation's vector, where its flags ask for it. -/
def vectorRaised (c : Nat) (o : Op) (r : Result) (s : State) : State :=
  if o.flags.testBit 0 || (o.flags.testBit 4 && isErr r.status) then raiseVector (c + 1) o.vec s else s

theorem errNoted_frame {β : Sort _} (obs : State → β) {c : Nat}
    (h : ∀ s (l : Ctx → List Nat), obs (s.onCtx c fun x => { x with errSeqs := l x }) = obs s)
    (o : Op) (r : Result) (s : State) : obs (errNoted c o r s) = obs s := by
  unfold errNoted
  split
  · exact h s _
  · rfl

theorem vectorRaised_frame {β : Sort _} (obs : State → β) (hcfg : ∀ s x, obs { s with hcfg := x } = obs s)
    (hout : ∀ s x, obs { s with outbox := x } = obs s) (c : Nat) (o : Op) (r : Result) (s : State) :
    obs (vectorRaised c o r s) = obs s := by
  unfold vectorRaised
  split
  · exact raiseVector_frame obs hcfg hout _ _ s
  · rfl

/-- The state behind the signal and the vector of an operation that completes, before the hub's word is written (R164). -/
def signalled (c : Nat) (o : Op) (r : Result) (s : State) : State :=
  traceEvent 0xC002 (srcCtx c) (r.status + 256 * o.kind) (some c)
    (vectorRaised c o r (signalOp (o.word 2) r.status (errNoted c o r (dropOp c o.seq s))))

theorem afterRecord_eq (c : Nat) (o : Op) (r : Result) (s : State) : afterRecord c o r s = putHubWord c (signalled c o r s) := rfl

/-- What is read without contexts, Tailstock, the endpoint's configuration and the outbox is as the signal leaves it. -/
theorem signalled_frame {β : Sort _} (obs : State → β) (htls : ∀ s x, obs { s with tls := x } = obs s)
    (hcfg : ∀ s x, obs { s with hcfg := x } = obs s) (hout : ∀ s x, obs { s with outbox := x } = obs s) (c : Nat) (o : Op) (r : Result)
    (s : State) : obs (signalled c o r s) = obs (signalOp (o.word 2) r.status (errNoted c o r (dropOp c o.seq s))) := by
  unfold signalled
  exact (traceEvent_frame obs htls _ _ _ _ _).trans (vectorRaised_frame obs hcfg hout c o r _)

/-- What a completion leaves alone: device memory, tiles, pools and groups. -/
def State.units (s : State) : SMap Byte × SMap Tile × SMap Pool × SMap Group := (s.devMem, s.tiles, s.pools, s.groups)

/-- What the steps behind the record of operation `o` that ends with `r` leave, where the hub's word lies in host memory (R164). -/
structure AfterRecord (c : Nat) (o : Op) (r : Result) (s s' : State) : Prop where
  ops : ∃ g : Op → Op, (∀ o, (g o).seq = o.seq) ∧ (s'.ctx c).ops = ((s.ctx c).ops.filter fun x => x.seq != o.seq).map g
  cmplTail : (s'.ctx c).cmplTail = (s.ctx c).cmplTail
  inFlight : s'.rd (F.CTXW_RING_STATUS_IN_FLIGHT c) = (s'.ctx c).ops.length % 512
  objects : ∃ u, (∀ k, 0x200000 ≤ k → k < 0x220000 → u.reg k = s.reg k) ∧
    ∀ k, 0x200000 ≤ k → k < 0x220000 → s'.reg k = (signalOp (o.word 2) r.status u).reg k
  measure : s'.on (F.CTXW_CTL_MEASURE c) = s.on (F.CTXW_CTL_MEASURE c)
  units : s'.units = s.units

theorem bits_lt (n hi lo : Nat) : bits n hi lo < 2 ^ (hi + 1 - lo) := Nat.mod_lt _ (Nat.two_pow_pos _)

/-- The registers of the objects lie apart from a context's window, the counts of operations and the host endpoint. -/
theorem object_key {n : Nat} (hn : n < 8192) : (0x200000 ≤ R.SYN_CNT n ∧ R.SYN_CNT n < 0x220000) ∧
    (0x200000 ≤ R.SYN_CTL n ∧ R.SYN_CTL n < 0x220000) := by
  unfold R.SYN_CNT R.SYN_CTL
  omega

/-- A context's window lies apart from them too, but for its status. -/
theorem signalled_window {c : Nat} (hc : c < 256) (o : Op) (r : Result) (s : State) {k : Nat} (hk : 0x10000000 ≤ k)
    (hring : k ≠ R.CTXW_RING_STATUS c) : (signalled c o r s).reg k = s.reg k := by
  obtain ⟨⟨-, hcnt⟩, ⟨-, hctl⟩⟩ := object_key (n := bits (o.word 2) 60 48) (bits_lt _ 60 48)
  have hsig := (signalOp_object (o.word 2) r.status (errNoted c o r (dropOp c o.seq s))).1
  calc (signalled c o r s).reg k
      = (signalOp (o.word 2) r.status (errNoted c o r (dropOp c o.seq s))).reg k :=
        signalled_frame (fun t => t.reg k) (fun _ _ => rfl) (fun _ _ => rfl) (fun _ _ => rfl) c o r s
    _ = (errNoted c o r (dropOp c o.seq s)).reg k := hsig.regs k (by omega) (by omega)
    _ = (dropOp c o.seq s).reg k := errNoted_frame (fun t => t.reg k) (fun _ _ => rfl) o r _
    _ = s.reg k := (dropOp_dropped hc o.seq s).regs k (by unfold dropReg; omega) hring

/-- The status of a context behind the signal: what the counts have left. -/
theorem signalled_ring (c : Nat) (o : Op) (r : Result) (s : State) :
    (signalled c o r s).reg (R.CTXW_RING_STATUS c) = (dropOp c o.seq s).reg (R.CTXW_RING_STATUS c) := by
  have hlow : 0x10000000 ≤ R.CTXW_RING_STATUS c := by unfold R.CTXW_RING_STATUS; omega
  obtain ⟨⟨-, hcnt⟩, ⟨-, hctl⟩⟩ := object_key (n := bits (o.word 2) 60 48) (bits_lt _ 60 48)
  have hsig := (signalOp_object (o.word 2) r.status (errNoted c o r (dropOp c o.seq s))).1
  calc (signalled c o r s).reg (R.CTXW_RING_STATUS c)
      = (signalOp (o.word 2) r.status (errNoted c o r (dropOp c o.seq s))).reg (R.CTXW_RING_STATUS c) :=
        signalled_frame (fun t => t.reg _) (fun _ _ => rfl) (fun _ _ => rfl) (fun _ _ => rfl) c o r s
    _ = (errNoted c o r (dropOp c o.seq s)).reg (R.CTXW_RING_STATUS c) := hsig.regs _ (by omega) (by omega)
    _ = (dropOp c o.seq s).reg (R.CTXW_RING_STATUS c) := errNoted_frame (fun t => t.reg _) (fun _ _ => rfl) o r _

theorem errNoted_own (c : Nat) (o : Op) (r : Result) (s : State) :
    (errNoted c o r s).ctx c = { s.ctx c with errSeqs := ((errNoted c o r s).ctx c).errSeqs } := by
  unfold errNoted
  split
  · rw [State.onCtx_same]
  · rfl

/-- What the signal and the vector leave (R164). -/
theorem signalled_after {c : Nat} (hc : c < 256) (o : Op) (r : Result) (s : State) : AfterRecord c o r s (signalled c o r s) := by
  have hdrop := dropOp_dropped hc o.seq s
  have hown := errNoted_own c o r (dropOp c o.seq s)
  have hsig := (signalOp_object (o.word 2) r.status (errNoted c o r (dropOp c o.seq s))).1
  have hctx : (signalled c o r s).ctx c = (signalOp (o.word 2) r.status (errNoted c o r (dropOp c o.seq s))).ctx c :=
    signalled_frame (fun t => t.ctx c) (fun _ _ => rfl) (fun _ _ => rfl) (fun _ _ => rfl) c o r s
  obtain ⟨g, hg, htest⟩ := hsig.ops c
  have hops : (signalled c o r s).ctx c =
      { (errNoted c o r (dropOp c o.seq s)).ctx c with ops := ((dropOp c o.seq s).ctx c).ops.map g } := by
    rw [hctx, htest, hown]
  refine ⟨⟨g, hg, ?_⟩, ?_, ?_, ⟨errNoted c o r (dropOp c o.seq s), fun k h1 h2 => ?_, fun k _ _ => ?_⟩, ?_, ?_⟩
  · rw [hops, hdrop.own]
  · rw [hops, hown, hdrop.own]
  · rw [rd_of_reg (f := F.CTXW_RING_STATUS_IN_FLIGHT c) (signalled_ring c o r s), hdrop.inFlight, hops, List.length_map]
  · exact (errNoted_frame (fun t => t.reg k) (fun _ _ => rfl) o r _).trans
      (hdrop.regs k (by unfold dropReg; omega) (by unfold R.CTXW_RING_STATUS; omega))
  · exact signalled_frame (fun t => t.reg k) (fun _ _ => rfl) (fun _ _ => rfl) (fun _ _ => rfl) c o r s
  · unfold State.on
    rw [rd_of_reg (f := F.CTXW_CTL_MEASURE c) (signalled_window hc o r s (k := R.CTXW_CTL c) (by unfold R.CTXW_CTL; omega)
      (by unfold R.CTXW_CTL R.CTXW_RING_STATUS; omega))]
  · have hun : ∀ v : State, (errNoted c o r v).units = v.units := errNoted_frame State.units (fun _ _ => rfl) o r
    have hset : ∀ (v : State) x y, ({ v with regs := x, ctxs := y } : State).units = v.units := fun _ _ _ => rfl
    have hdropped : ∀ (v : State) x y z w, ({ v with regs := x, ctxs := y, waiting := z, engines := w } : State).units = v.units :=
      fun _ _ _ _ _ => rfl
    rw [signalled_frame State.units (fun _ _ => rfl) (fun _ _ => rfl) (fun _ _ => rfl), hsig.rest, hset, hun, hdrop.rest, hdropped]

/-- A hub word that is put keeps what the completion has left. -/
theorem AfterRecord.word {c : Nat} {o : Op} {r : Result} {s t u : State} (h : AfterRecord c o r s t) (hw : WordPut c t u)
    (hhost : t.on (F.CTXW_RING_WORDS_SPACE c) = true) : AfterRecord c o r s u := by
  have hops : (u.ctx c).ops = (t.ctx c).ops := by rw [hw.own]
  have hring : ¬ hostReg (R.CTXW_RING_STATUS c) := by unfold hostReg R.CTXW_RING_STATUS R.XLT_COUNT; omega
  have hctl : ¬ hostReg (R.CTXW_CTL c) := by unfold hostReg R.CTXW_CTL R.XLT_COUNT; omega
  obtain ⟨v, hv, hk⟩ := h.objects
  refine ⟨hops ▸ h.ops, ?_, ?_, ⟨v, hv, fun k h1 h2 => ?_⟩, ?_, ?_⟩
  · rw [hw.own]
    exact h.cmplTail
  · rw [hw.rd (f := F.CTXW_RING_STATUS_IN_FLIGHT c) hring, hops]
    exact h.inFlight
  · exact (hw.regs k (by unfold hostReg R.XLT_COUNT; omega)).trans (hk k h1 h2)
  · rw [← h.measure]
    unfold State.on
    rw [hw.rd (f := F.CTXW_CTL_MEASURE c) hctl]
  · have hdev := hw.host hhost
    rw [← h.units, hw.rest]
    unfold State.units
    rw [hdev]

/-- Behind its record an operation goes, its signal is given and the hub's word is put: no access fails (R164). -/
theorem afterRecord_after {c : Nat} (hc : c < 256) (o : Op) (r : Result) {s : State}
    (hw : s.on (F.CTXW_RING_WORDS_SPACE c) = true) :
    AfterRecord c o r s (afterRecord c o r s).1 ∧ (afterRecord c o r s).2 = none := by
  have hon : (signalled c o r s).on (F.CTXW_RING_WORDS_SPACE c) = true := by
    unfold State.on
    rw [rd_of_reg (f := F.CTXW_RING_WORDS_SPACE c) (signalled_window hc o r s (k := R.CTXW_RING_WORDS c)
      (by unfold R.CTXW_RING_WORDS; omega) (by unfold R.CTXW_RING_WORDS R.CTXW_RING_STATUS; omega))]
    exact hw
  obtain ⟨hput, hnone⟩ := putHubWord_host hon
  rw [afterRecord_eq]
  exact ⟨(signalled_after hc o r s).word hput hon, hnone⟩

/-! ### The record (R162) -/

/-- A record in device memory that is written in full is counted, where nothing holds the write back. -/
theorem putRecord_written {c : Nat} {o : Op} {r : Result} {s u : State} (hf : memFree c s)
    (hu : s.ctxWrite c (s.cmplAddr c (s.ctx c).cmplTail) (s.nextRecord c o r) = (u, none)) :
    putRecord c o r s = (u.onCtx c fun x => { x with cmplTail := ((s.ctx c).cmplTail + 1) % 2 ^ 32 }, none) := by
  have hstore : storeAs (s.schedPayer c o.seq 0) (s.cmplAddr c (s.ctx c).cmplTail) (s.nextRecord c o r) s = (u, none) := by
    unfold storeAs
    rw [access_free (x := s.schedPayer c o.seq 0) hf]
    exact hu
  unfold putRecord
  simp only [hstore]
  rfl

/-- An operation whose record is written completes (R164). -/
theorem finishOp_written {c q : Nat} {o : Op} {r : Result} {s u : State} (ho : s.op? c q = some o) (hr : o.done = some r)
    (hcmpl : s.cmplHost c = false) (hf : memFree c s)
    (hu : s.ctxWrite c (s.cmplAddr c (s.ctx c).cmplTail) (s.nextRecord c o r) = (u, none)) :
    finishOp c q s = afterRecord c o r (u.onCtx c fun x => { x with cmplTail := ((s.ctx c).cmplTail + 1) % 2 ^ 32 }) := by
  unfold finishOp
  simp only [ho, hr, hcmpl, Bool.false_eq_true, if_false, putRecord_written hf hu]

/-- An operation of a context that does not measure completes, and no decision's test is acted on (R164). -/
theorem operationComplete_finishes {c q : Nat} {o : Op} {r : Result} {s : State} (ho : s.op? c q = some o) (hr : o.done = some r)
    (hk : o.kind ≠ 6) (hmay : s.mayComplete c o = true) (hkern : o.hasKernel = false) (hm : (finish c q s).on (F.CTXW_CTL_MEASURE c) = false) :
    operationComplete c q s = finish c q s := by
  unfold operationComplete
  simp only [ho, hr, hmay, hkern, Bool.not_true, Bool.false_and, Bool.or_self, Bool.false_eq_true, if_false]
  split
  · rfl
  · unfold measureOp
    simp [hm, hk]

/-- The operation that has gone is not in flight, and every other that was is (R164). -/
theorem AfterRecord.op? {c : Nat} {o : Op} {r : Result} {s s' : State} (h : AfterRecord c o r s s') :
    s'.op? c o.seq = none ∧ ∀ q, q ≠ o.seq → (s'.op? c q).isSome = (s.op? c q).isSome := by
  obtain ⟨g, hg, hops⟩ := h.ops
  have hfind : ∀ q, s'.op? c q = ((((s.ctx c).ops.filter fun x => x.seq != o.seq).find? fun x => x.seq = q).map g) := fun q => by
    have hcomp : (fun x : Op => decide (x.seq = q)) ∘ g = fun x => decide (x.seq = q) := by
      funext x
      simp [hg]
    unfold State.op?
    rw [hops, List.find?_map, hcomp]
  refine ⟨?_, fun q hq => ?_⟩
  · rw [hfind, List.find?_eq_none.2 fun x hx => by simpa using (List.mem_filter.1 hx).2]
    rfl
  · rw [hfind, Option.isSome_map, List.find?_filter]
    unfold State.op?
    congr 2
    funext x
    by_cases hx : x.seq = q
    · simp [hx, hq]
    · simp [hx]

end

end Sys2Proof.Machine
end

section
/-! The statement about completions (chapter 05). -/

open Sys2Proof Sys2Proof.Machine

/-- Settles O23: the record is written at the place that CMPL_TAIL names, no access behind it fails, and what follows it takes the operation from
its context, counts, and signals its object. -/
theorem operationCompletes : Obligations.OperationCompletes := by
  unfold Obligations.OperationCompletes
  intro c q s u o r n ho hr hk hmay hkern hmeas hwords hcmpl hf hu
  have hc : c.val < 256 := c.isLt
  have hq : o.seq = q := seq_of_op? ho
  have hfin := finishOp_written ho hr hcmpl hf hu
  have hureg : ∀ k, u.reg k = s.reg k := fun k =>
    (congrArg (fun x => State.reg x.1 k) hu).symm.trans (ctxWrite_frame (fun t => t.reg k) (fun _ _ _ _ => rfl) _ _ _ s)
  have huctx : ∀ d, u.ctx d = s.ctx d := fun d =>
    (congrArg (fun x => State.ctx x.1 d) hu).symm.trans (ctxWrite_frame (fun t => t.ctx d) (fun _ _ _ _ => rfl) _ _ _ s)
  have hurest : u.tiles = s.tiles ∧ u.pools = s.pools ∧ u.groups = s.groups :=
    ⟨(congrArg (fun x => State.tiles x.1) hu).symm.trans (ctxWrite_frame State.tiles (fun _ _ _ _ => rfl) _ _ _ s),
      (congrArg (fun x => State.pools x.1) hu).symm.trans (ctxWrite_frame State.pools (fun _ _ _ _ => rfl) _ _ _ s),
      (congrArg (fun x => State.groups x.1) hu).symm.trans (ctxWrite_frame State.groups (fun _ _ _ _ => rfl) _ _ _ s)⟩
  generalize hv : (u.onCtx c.val fun x => { x with cmplTail := ((s.ctx c.val).cmplTail + 1) % 2 ^ 32 }) = v at hfin
  have hvreg : ∀ k, v.reg k = s.reg k := fun k => by rw [← hv, State.onCtx_at_reg, hureg]
  have hvctx : v.ctx c.val = { s.ctx c.val with cmplTail := (n + 1) % 2 ^ 32 } := by rw [← hv, State.onCtx_same, huctx]
  have hvop : ∀ k, v.op? c.val k = s.op? c.val k := fun k => by
    unfold State.op?
    rw [hvctx]
  have hvunits : v.units = (u.devMem, s.tiles, s.pools, s.groups) := by
    obtain ⟨h1, h2, h3⟩ := hurest
    rw [← hv, ← h1, ← h2, ← h3]
    rfl
  have hvwords : v.on (F.CTXW_RING_WORDS_SPACE c.val) = true := by
    unfold State.on
    rw [rd_of_reg (f := F.CTXW_RING_WORDS_SPACE c.val) (hvreg _)]
    exact hwords
  obtain ⟨hafter, hnone⟩ := afterRecord_after hc o r hvwords
  have hfinish : finish c.val q s = (afterRecord c.val o r v).1 := by
    unfold finish
    rw [hfin]
    generalize afterRecord c.val o r v = z at hnone
    obtain ⟨a, b⟩ := z
    cases hnone
    rfl
  generalize (afterRecord c.val o r v).1 = t at *
  have htmeas : (finish c.val q s).on (F.CTXW_CTL_MEASURE c.val) = false := by
    rw [hfinish, hafter.measure]
    unfold State.on
    rw [rd_of_reg (f := F.CTXW_CTL_MEASURE c.val) (hvreg _)]
    exact hmeas
  have hexec : exec (.operationComplete c q) s = .next (s.after t) := by
    show s.done (operationComplete c.val q s) = _
    rw [operationComplete_finishes ho hr hk hmay hkern htmeas, hfinish]
    rfl
  obtain ⟨hgone, hkept⟩ := hafter.op?
  have hunits := hafter.units.trans hvunits
  obtain ⟨w, hw, hobj⟩ := hafter.objects
  obtain ⟨-, hadd, hset, hnosig⟩ := signalOp_object (o.word 2) r.status w
  have hobject : ∀ j, j < 8192 → w.rd (F.SYN_CNT_COUNT j) = s.rd (F.SYN_CNT_COUNT j) ∧ w.rd (F.SYN_CTL_ERR j) = s.rd (F.SYN_CTL_ERR j) ∧
      ∀ f : Fld, (f.key = R.SYN_CNT j ∨ f.key = R.SYN_CTL j) → t.rd f = (signalOp (o.word 2) r.status w).rd f := fun j hj => by
    obtain ⟨⟨h1, h2⟩, h3, h4⟩ := object_key hj
    exact ⟨rd_of_reg (f := F.SYN_CNT_COUNT j) ((hw _ h1 h2).trans (hvreg _)),
      rd_of_reg (f := F.SYN_CTL_ERR j) ((hw _ h3 h4).trans (hvreg _)),
      fun f hf => rd_of_reg (hobj _ (by omega) (by omega))⟩
  obtain ⟨hwcnt, hwerr, htrd⟩ := hobject (bits (o.word 2) 60 48) (bits_lt _ 60 48)
  have herr : isErr r.status = true ↔ r.status ≠ stOK ∧ r.status ≠ stSkipped := by simp [isErr]
  have hton : ∀ f : Fld, (s.after t).on f = decide (t.rd f ≠ 0) := fun f => rfl
  have hson : s.on (F.SYN_CTL_ERR (bits (o.word 2) 60 48)) = decide (w.rd (F.SYN_CTL_ERR (bits (o.word 2) 60 48)) ≠ 0) := by
    rw [hwerr]
    rfl
  refine ⟨_, hexec, hq ▸ hgone, ?_, ?_, fun q' hq' => ?_, hafter.inFlight, ⟨fun h1 => ?_, fun h2 => ?_, fun h1 h2 j hj => ?_⟩, ?_, ?_, ?_⟩
  · exact hafter.cmplTail.trans (by rw [hvctx])
  · exact congrArg Prod.fst hunits
  · exact (hkept q' (hq ▸ hq')).trans (congrArg Option.isSome (hvop q'))
  · obtain ⟨hcnt, hmark, hsat⟩ := hadd h1
    refine ⟨?_, fun h => ?_, fun h => ?_, fun h => ?_⟩
    · exact (htrd _ (.inl rfl)).trans (hcnt.trans (by rw [hwcnt]))
    · rw [hton, htrd _ (.inr rfl), hmark, herr.2 h]
      rfl
    · rw [hton, htrd _ (.inr rfl), hmark, Bool.eq_false_iff.2 fun h' => h (herr.1 h'), hson]
      rfl
    · rw [hton, htrd _ (.inr rfl), hsat (by rw [hwcnt]; exact h)]
      rfl
  · obtain ⟨hcnt, hmark⟩ := hset h2
    refine ⟨(htrd _ (.inl rfl)).trans hcnt, ?_⟩
    rw [hton, htrd _ (.inr rfl), hmark, ← herr]
    cases isErr r.status <;> decide
  · obtain ⟨hcnt, hmark, hrd⟩ := hobject j hj
    have hw' := hnosig h1 h2
    refine ⟨(hrd _ (.inl rfl)).trans (by rw [hw', hcnt]), ?_⟩
    rw [hton, hrd _ (.inr rfl), hw', hmark]
    rfl
  · exact congrArg (fun x => x.2.1) hunits
  · exact congrArg (fun x => x.2.2.1) hunits
  · exact congrArg (fun x => x.2.2.2) hunits
end

section
/-! The statement about rings (chapter 05). It fails: what waits goes on behind a run that has come (R344), and a DMA operation that has started
and whose own command is still to come goes on with it, so that the operations before the accepted one do not stay as they were. -/

namespace Sys2Proof.Machine

/-- A FILL of 32 bytes at 4,096, accepted as the descriptor before the one at HEAD. -/
def fillAccepted : Op := { Op.accept (2 ^ 32 - 1) [w64 0x12, 0, 0, 1, 4096, 32, 0, 0] 0 false with met := true }

/-- The state in which a run is asked for (`fetchSt`), on a partition of one group and with the fill in flight. -/
def fillTaken : State :=
  ((fetchSt.wr (F.CTX_PART_VALID 0) 1).wr (F.CTX_PART_GROUPS 0) 1).onCtx 0 fun x => { x with ops := [fillAccepted] }

/-- The fill has started on an engine, and its own command has not come yet. -/
def fillBegun : State := after (.operationStart 0 (2 ^ 32 - 1)) fillTaken

/-- The fill passes its checks at acceptance, and at its start takes engine 0. -/
theorem fillBegun_started :
    descFails fetchSt 0 fillAccepted [] = [] ∧ (fillBegun.engine 0).op = some (0, 2 ^ 32 - 1) ∧
    (fillBegun.ctx 0).ops = [{ fillAccepted with started := true, begun := true, engine := some 0 }] := by decide +kernel

/-- What the statement asks of the state, for the run of one descriptor at HEAD 0. -/
theorem fillBegun_fetches :
    (fillBegun.ctx 0).fetch = some (0, 1) ∧ fillBegun.running 0 = true ∧ fillBegun.on (F.CTXW_RING_BASE_SPACE 0) = false ∧
    freeCheck 0 fillBegun = true ∧ fillBegun.inRange 0 (fillBegun.wordsAddr 0) 16 = true ∧
    (fillBegun.ctxRead 0 (fillBegun.rd (F.CTXW_RING_BASE_BASE 0) * 4096 + 64 * (0 % fillBegun.ringEntries 0)) 64).toOption = some (zs 64) ∧
    fillBegun.mayAccept 0 = true ∧ (fillBegun.ctx 0).inSpan (fillBegun.head 0) = false ∧
    (∀ e ∈ (fillBegun.ctx 0).ops, e.seq ≠ fillBegun.head 0) ∧
    (let o := Op.accept (fillBegun.head 0) (wordsOf (zs 64) 8) 0 false
     o.kind = 0 ∧ bits (o.word 1) 63 62 = 0 ∧ bits (o.word 2) 63 62 = 0 ∧ descFails fillBegun 0 o [] = []) := by decide +kernel

/-- The hub's word can be written. -/
theorem fillBegun_word : flatServes fillBegun 0 :=
  (flat_one (by decide +kernel) (by decide +kernel) (by decide +kernel) (by decide +kernel) (by decide +kernel) (by decide +kernel)).1

/-- With the run that comes in the fill goes on, and ends. -/
theorem fillEnds_atReturn :
    (exec (.descriptorFetchReturn 0 []) fillBegun = .next (after (.descriptorFetchReturn 0 []) fillBegun)) ∧
    (fillBegun.ctx 0).ops.head?.map (·.done.isSome) = some false ∧
    ((after (.descriptorFetchReturn 0 []) fillBegun).ctx 0).ops.head?.map (·.done.isSome) = some true := ⟨rfl, by decide +kernel⟩

end Sys2Proof.Machine

open Sys2Proof Sys2Proof.Machine

/-- Refutes O24, in the clause of the descriptor that returns: a fill whose own command has not come yet (`fillBegun`) goes on behind the
return, and ends, while the clause has the operations in flight stay as they were and the accepted one come behind them. -/
theorem not_ringsAreRead : ¬ Obligations.RingsAreRead := by
  unfold Obligations.RingsAreRead
  intro h
  obtain ⟨hfetch, hrun, hspace, hfree, hin, hread, hmay, hspan, hnew, hnop⟩ := fillBegun_fetches
  obtain ⟨s', o', hexec, -, hops, -⟩ := (h 0 0 fillBegun [] (zs 64)).2 0 (wordsOf (zs 64) 8) hfetch hrun hspace (memFree_of hfree)
    (.inr ⟨fillBegun_word, hin⟩) (ok_of_toOption hread) rfl hmay hspan hnew hnop
  obtain ⟨hnext, hbefore, hbehind⟩ := fillEnds_atReturn
  have hs' : s' = after (.descriptorFetchReturn 0 []) fillBegun := Host.Outcome.next.inj (hexec.symm.trans hnext)
  have hkept : (s'.ctx 0).ops = (fillBegun.ctx 0).ops ++ [o'] := hops
  rw [← hs', hkept, List.head?_append] at hbehind
  cases hhead : (fillBegun.ctx 0).ops.head? with
  | none => rw [hhead] at hbefore; cases hbefore
  | some o =>
    rw [hhead] at hbefore hbehind
    exact absurd (hbefore.symm.trans hbehind) (by decide)
end

section
/-! SUPPORT. Slice ticks (R147, R170–R174): host words that lie in device memory, and who takes a slice. -/

namespace Sys2Proof.Machine

/-! ### Host words in device memory (R147, R149) -/

/-- A context with the fields of a host word. -/
def wordTaken (c : Nat) (bs : List Byte) (s : State) : State :=
  s.onCtx c fun x => { x with tail := leNat bs % 2 ^ 32, cmplHead := bits (leNat bs) 63 32 }

theorem bits_low32 (n : Nat) : bits n 31 0 = n % 2 ^ 32 := by
  unfold bits
  rw [Nat.pow_zero, Nat.div_one]

section
variable {c : Nat} {s : State}

/-- A host word is taken in where TAIL is no further than the ring holds (R149). -/
theorem takeHostWord_taken {bs : List Byte} (h : (leNat bs % 2 ^ 32 + 2 ^ 32 - s.head c) % 2 ^ 32 ≤ s.ringEntries c) :
    takeHostWord c (leNat bs) s = wordTaken c bs s := by
  unfold takeHostWord wordTaken
  simp only [bits_low32]
  rw [if_neg (Nat.not_lt.2 h)]

/-- Registers of a state whose slices have been touched. -/
theorem Touched.head {s' : State} (h : Touched s s') (c : Nat) : s'.head c = s.head c := by rw [h.rest]; rfl

theorem Touched.ringEntries {s' : State} (h : Touched s s') (c : Nat) : s'.ringEntries c = s.ringEntries c := by rw [h.rest]; rfl

/-- What the read of a host word in device memory leaves: the word, and the slices that the read touches (R147, R193). -/
structure WordRead (c : Nat) (bs : List Byte) (s s' : State) : Prop where
  own : s'.ctx c = { s.ctx c with tail := leNat bs % 2 ^ 32, cmplHead := bits (leNat bs) 63 32 }
  others : ∀ d, d ≠ c → s'.ctx d = s.ctx d
  caches : cachesOnly s s'
  still : (∀ e ∈ s.chans, e.2.copying = []) → ∀ e ∈ s'.chans, e.2.copying = []
  rest : s' = { s with ctxs := s'.ctxs, chans := s'.chans }

theorem WordRead.regs {bs : List Byte} {s' : State} (h : WordRead c bs s s') : s'.regs = s.regs := by rw [h.rest]

theorem Touched.word {t : State} (h : Touched s t) (c : Nat) (bs : List Byte) : WordRead c bs s (wordTaken c bs t) where
  own := by
    unfold wordTaken
    rw [State.onCtx_same, h.rest]
    rfl
  others d hd := by
    unfold wordTaken
    rw [State.onCtx_other _ _ _ hd, h.rest]
    rfl
  caches ch := h.caches ch
  still := h.still
  rest := by rw [h.rest]; rfl

/-- A host word in device memory is read and taken in, where nothing holds the read back (R147). -/
theorem readHostWord_device (hw : List HostWord) {bs : List Byte} (h4 : s.ctxState c = 4)
    (hs : s.on (F.CTXW_RING_WORDS_SPACE c) = false) (hf : memFree c s) (hr : s.ctxRead c (s.wordsAddr c) 8 = .ok bs)
    (hn : (leNat bs % 2 ^ 32 + 2 ^ 32 - s.head c) % 2 ^ 32 ≤ s.ringEntries c) : WordRead c bs s (readHostWord c hw s) := by
  have hload : loadAs (s.schedPayer c (2 ^ 32) 2) (s.wordsAddr c) 8 s = (s.ctxTouch c (s.wordsAddr c) 8, .ok bs) :=
    (loadAs_free (x := s.schedPayer c (2 ^ 32) 2) hf _ _).trans (congrArg _ hr)
  have htouch := ctxTouch_touched c (s.wordsAddr c) 8 s
  have hread : readHostWord c hw s = wordTaken c bs (s.ctxTouch c (s.wordsAddr c) 8) := by
    unfold readHostWord
    simp only [h4, hs, hload, ne_eq, not_true_eq_false, Bool.false_eq_true, if_false]
    exact takeHostWord_taken (by rw [htouch.head, htouch.ringEntries]; exact hn)
  rw [hread]
  exact htouch.word c bs


end

/-! ### The host words that a tick reads (R147, R171, R172) -/

/-- A context has the fields of its host word, as it lies in memory. -/
def wordIn (d : Nat) (s v : State) : Prop := ∃ bs, s.ctxRead d (s.wordsAddr d) 8 = .ok bs ∧
  v.ctx d = { s.ctx d with tail := leNat bs % 2 ^ 32, cmplHead := bits (leNat bs) 63 32 }

/-- The host word of a context in RUN can be read: it lies in device memory, nothing holds the read back, and TAIL fits the ring. -/
def wordReady (d : Nat) (s : State) : Prop := s.ctxState d = 4 → s.on (F.CTXW_RING_WORDS_SPACE d) = false ∧ memFree d s ∧
  ∃ bs, s.ctxRead d (s.wordsAddr d) 8 = .ok bs ∧ (leNat bs % 2 ^ 32 + 2 ^ 32 - s.head d) % 2 ^ 32 ≤ s.ringEntries d

/-- Host words have been read, and nothing but them has come in. -/
structure WordsRead (s v : State) : Prop where
  ctxs : ∀ d, v.ctx d = s.ctx d ∨ wordIn d s v
  caches : cachesOnly s v
  still : (∀ e ∈ s.chans, e.2.copying = []) → ∀ e ∈ v.chans, e.2.copying = []
  rest : v = { s with ctxs := v.ctxs, chans := v.chans }

section
variable {s v : State}

theorem WordsRead.refl (s : State) : WordsRead s s := ⟨fun _ => .inl rfl, fun _ => rfl, fun h => h, rfl⟩

theorem WordsRead.regs (h : WordsRead s v) : v.regs = s.regs := by rw [h.rest]

theorem WordsRead.alike (h : WordsRead s v) (d : Nat) : ReadsAlike d s v where
  caches := h.caches
  spread := by
    obtain hd | ⟨bs, -, hd⟩ := h.ctxs d <;> rw [hd] <;> exact ⟨rfl, rfl⟩
  status _ := rd_congr h.regs _
  mem := by rw [h.rest]
  marks := by rw [h.rest]

theorem WordsRead.free (h : WordsRead s v) {d : Nat} (hm : memFree d s) : memFree d v := by
  obtain ⟨hrate, hnoc, hcopy⟩ := hm
  exact ⟨fun k hk => (rd_congr h.regs _).trans (hrate k hk), (rd_congr h.regs _).trans hnoc, h.still hcopy⟩

/-- The fields of a host word take the place of those that an earlier read has brought. -/
theorem WordsRead.taken (h : WordsRead s v) (d n m : Nat) :
    { v.ctx d with tail := n, cmplHead := m } = { s.ctx d with tail := n, cmplHead := m } := by
  obtain hd | ⟨bs, -, hd⟩ := h.ctxs d <;> rw [hd]

/-- One more host word is read, of a context in RUN; another context's is not. -/
theorem WordsRead.read (h : WordsRead s v) {d : Nat} (hr : wordReady d s) (hw : List HostWord) :
    WordsRead s (readHostWord d hw v) ∧ (s.ctxState d = 4 → wordIn d s (readHostWord d hw v)) ∧
    ∀ e, e ≠ d → (readHostWord d hw v).ctx e = v.ctx e := by
  have hstate : v.ctxState d = s.ctxState d := rd_congr h.regs _
  by_cases h4 : s.ctxState d = 4
  · obtain ⟨hspace, hfree, bs, hread, hfit⟩ := hr h4
    have haddr : v.wordsAddr d = s.wordsAddr d := congrArg (· * 16) (rd_congr h.regs _)
    have hhead : v.head d = s.head d := rd_congr h.regs _
    have hring : v.ringEntries d = s.ringEntries d := congrArg (fun n => 2 ^ (n + 6)) (rd_congr h.regs _)
    have hnew := readHostWord_device hw (hstate.trans h4) ((on_congr h.regs _).trans hspace) (h.free hfree)
      (by rw [haddr, (h.alike d).ctxRead]; exact hread) (by rw [hhead, hring]; exact hfit)
    have hin : wordIn d s (readHostWord d hw v) := ⟨bs, hread, hnew.own.trans (h.taken d _ _)⟩
    refine ⟨⟨fun e => ?_, h.caches.trans hnew.caches, fun hs => hnew.still (h.still hs), by rw [hnew.rest, h.rest]⟩, fun _ => hin, hnew.others⟩
    by_cases he : e = d
    · exact .inr (he ▸ hin)
    · unfold wordIn
      rw [hnew.others e he]
      exact h.ctxs e
  · have hsame : readHostWord d hw v = v := by
      unfold readHostWord
      rw [hstate]
      exact if_pos h4
    rw [hsame]
    exact ⟨h, fun h4' => absurd h4' h4, fun _ _ => rfl⟩

/-- The host words of a list of contexts are read. -/
theorem WordsRead.each {l : List Nat} (hw : List HostWord) (hr : ∀ d ∈ l, wordReady d s) (h : WordsRead s v) :
    WordsRead s (each l (readHostWord · hw) v) ∧ (∀ d ∈ l, s.ctxState d = 4 → wordIn d s (each l (readHostWord · hw) v)) ∧
    ∀ e, e ∉ l → (Machine.each l (readHostWord · hw) v).ctx e = v.ctx e := by
  induction l generalizing v with
  | nil => exact ⟨h, fun _ hd => absurd hd List.not_mem_nil, fun _ _ => rfl⟩
  | cons a l ih =>
    obtain ⟨hread, hin, hother⟩ := h.read (hr a List.mem_cons_self) hw
    obtain ⟨hall, hins, hothers⟩ := ih (fun d hd => hr d (List.mem_cons_of_mem a hd)) hread
    refine ⟨hall, fun d hd h4 => ?_, fun e he => ?_⟩
    · by_cases hdl : d ∈ l
      · exact hins d hdl h4
      · have hda : d = a := (List.mem_cons.1 hd).resolve_right hdl
        subst hda
        obtain ⟨bs, hbs, hown⟩ := hin h4
        exact ⟨bs, hbs, (hothers d hdl).trans hown⟩
    · obtain ⟨hea, hel⟩ := not_or.1 fun h => he (List.mem_cons.2 h)
      exact (hothers e hel).trans (hother e hea)

/-- The host words that the start of a slice reads: its context's, and its set's where that has no work. -/
def sliceReads (p c : Nat) (hw : List HostWord) (s : State) : State :=
  let s := if s.loadable c then readHostWord c hw s else s
  if s.hasWork c then s else readMembers p c hw s

/-- The members of a context's work-conserving set, bound to the partition. -/
def State.sharers (s : State) (p c : Nat) : List Nat := match s.wcSet p c with
  | none => []
  | some n => (s.boundTo p).filter fun d => d != c && decide (s.wcSet p d = some n)

theorem readMembers_eq (p c : Nat) (hw : List HostWord) (s : State) : readMembers p c hw s = each (s.sharers p c) (readHostWord · hw) s := by
  unfold readMembers State.sharers
  cases s.wcSet p c <;> rfl

theorem State.mem_sharers {p c d : Nat} : d ∈ s.sharers p c ↔
    d ∈ s.boundTo p ∧ d ≠ c ∧ (s.wcSet p c).isSome = true ∧ s.wcSet p d = s.wcSet p c := by
  unfold State.sharers
  cases h : s.wcSet p c with
  | none => simp
  | some n => simp

theorem WordsRead.sharers (h : WordsRead s v) (p c : Nat) : v.sharers p c = s.sharers p c := by rw [h.rest]; rfl

/-- What the start of a slice reads (R147, R171, R172). -/
theorem sliceReads_read {p c : Nat} (hw : List HostWord) (hr : ∀ d, d = c ∨ d ∈ s.boundTo p → wordReady d s) :
    WordsRead s (sliceReads p c hw s) ∧ (s.loadable c = true → wordIn c s (sliceReads p c hw s)) ∧
    ((sliceReads p c hw s).hasWork c = false → ∀ d ∈ s.sharers p c, s.ctxState d = 4 → wordIn d s (sliceReads p c hw s)) := by
  have hown : ∃ v, sliceReads p c hw s = (if v.hasWork c then v else each (s.sharers p c) (readHostWord · hw) v) ∧
      WordsRead s v ∧ (s.loadable c = true → wordIn c s v) := by
    by_cases hload : s.loadable c = true
    · have h4 : s.ctxState c = 4 := by
        unfold State.loadable at hload
        simp only [Bool.and_eq_true, decide_eq_true_eq] at hload
        exact hload.1
      obtain ⟨hread, hin, -⟩ := (WordsRead.refl s).read (hr c (.inl rfl)) hw
      refine ⟨readHostWord c hw s, ?_, hread, fun _ => hin h4⟩
      unfold sliceReads
      simp only [hload, if_true, readMembers_eq, hread.sharers]
    · refine ⟨s, ?_, .refl s, fun h => absurd h hload⟩
      unfold sliceReads
      simp only [hload, readMembers_eq]
      rfl
  obtain ⟨v, heq, hread, hin⟩ := hown
  rw [heq]
  cases hwork : v.hasWork c with
  | true => exact ⟨hread, hin, fun h => absurd (hwork.symm.trans h) (by decide)⟩
  | false =>
    obtain ⟨hall, hins, hothers⟩ := WordsRead.each (l := s.sharers p c) hw (fun d hd => hr d (.inr (State.mem_sharers.1 hd).1)) hread
    have hc : c ∉ s.sharers p c := fun h => (State.mem_sharers.1 h).2.1 rfl
    refine ⟨hall, fun hload => ?_, fun _ => hins⟩
    obtain ⟨bs, hbs, hctx⟩ := hin hload
    exact ⟨bs, hbs, (hothers c hc).trans hctx⟩

end

/-! ### Who takes the slice (R171–R174) -/

theorem RunAsked.refl (c : Nat) (s : State) : RunAsked c s s := ⟨fun _ _ => rfl, rfl, fun _ _ => rfl, rfl⟩

/-- The slice stays where it is: the same context goes on, or the partition has one bound context, which holds it, or the idle slice finds no
context with work. -/
def State.staysOn (s : State) (p c : Nat) : Prop :=
  (∃ d, s.holderOf p = some d ∧ (s.taker p c = some d ∨ (s.boundTo p).length = 1 ∨ (d = c ∧ s.taker p c = none))) ∨
    s.holderOf p = none ∧ s.taker p c = none ∧ s.rd (F.SCH_STATUS_STATE p) = 2

/-- The end of a slice's start, behind the reads of host words. -/
def sliceChoice (p c : Nat) (s : State) : State :=
  let inc := s.taker p c
  let stays (d : Nat) : Bool := inc = some d || decide ((s.boundTo p).length = 1) || (d = c && inc.isNone)
  match s.holderOf p with
  | some d => if stays d then (if s.running d then askRun d s else s) else beginSwitch p inc s
  | none => if inc.isNone && s.rd (F.SCH_STATUS_STATE p) = 2 then s else beginSwitch p inc s

theorem sliceStart_eq (p c : Nat) (hw : List HostWord) (s : State) : sliceStart p c hw s = sliceChoice p c (sliceReads p c hw s) := by
  unfold sliceStart sliceReads
  dsimp only
  generalize (if s.loadable c = true then readHostWord c hw s else s) = v
  generalize (if v.hasWork c = true then v else readMembers p c hw v) = u
  unfold sliceChoice
  cases u.holderOf p <;> rfl

section
variable {p c : Nat} {s : State}

/-- Where the slice stays, at most a run is asked for (R147). -/
theorem sliceChoice_stays (h : s.staysOn p c) : ∃ d, RunAsked d s (sliceChoice p c s) := by
  unfold sliceChoice
  obtain ⟨d, hd, h⟩ | ⟨hd, hinc, hidle⟩ := h
  · simp only [hd]
    rw [if_pos (by simpa [or_assoc] using h)]
    refine ⟨d, ?_⟩
    by_cases hrun : s.running d = true
    · rw [if_pos hrun]; exact askRun_asked d s
    · rw [if_neg hrun]; exact .refl d s
  · simp only [hd]
    rw [if_pos (by simp [hinc, hidle])]
    exact ⟨0, .refl 0 s⟩

theorem sliceChoice_switches (h : ¬ s.staysOn p c) : sliceChoice p c s = beginSwitch p (s.taker p c) s := by
  unfold State.staysOn at h
  unfold sliceChoice
  cases hd : s.holderOf p with
  | some d => exact if_neg fun hs => h (.inl ⟨d, hd, by simpa [or_assoc] using hs⟩)
  | none => exact if_neg fun hs => h (.inr ⟨hd, by simpa using hs⟩)

end

/-! ### The entry (R170, R174) -/

/-- The slice table has gone to an entry. -/
def entryAt (p e : Nat) (s : State) : State := s.wr (F.SCH_STATUS_ENTRY p) e

section
variable {p e : Nat} {s : State}

theorem entryAt_reg {k : Nat} (h : k ≠ R.SCH_STATUS p) : (entryAt p e s).reg k = s.reg k := reg_wr_other s _ e h
theorem entryAt_rd {f : Fld} (h : f.key ≠ R.SCH_STATUS p) : (entryAt p e s).rd f = s.rd f := rd_wr_other s h e
theorem entryAt_entry : (entryAt p e s).rd (F.SCH_STATUS_ENTRY p) = e % 256 := rd_wr_cut s (by decide) e
theorem entryAt_state : (entryAt p e s).rd (F.SCH_STATUS_STATE p) = s.rd (F.SCH_STATUS_STATE p) := rd_wr_beside s (by decide) e

theorem entryAt_holder : (entryAt p e s).holderOf p = s.holderOf p := by
  unfold State.holderOf State.on
  have hvalid : (entryAt p e s).rd (F.SCH_STATUS_CTX_VALID p) = s.rd (F.SCH_STATUS_CTX_VALID p) := rd_wr_beside s (by decide) e
  have hcur : (entryAt p e s).rd (F.SCH_STATUS_CUR_CTX p) = s.rd (F.SCH_STATUS_CUR_CTX p) := rd_wr_beside s (by decide) e
  rw [hvalid, hcur]

theorem ne_schStatus (hp : p < 8) {k : Nat} (h : 0x180000 ≤ k) : k ≠ R.SCH_STATUS p := by unfold R.SCH_STATUS; omega

theorem schTable_ne (i : Nat) : R.SCH_TABLE p i ≠ R.SCH_STATUS p := by unfold R.SCH_TABLE R.SCH_STATUS; omega

theorem entryAt_on {f : Fld} (h : f.key ≠ R.SCH_STATUS p) : (entryAt p e s).on f = s.on f := congrArg (fun n => decide (n ≠ 0)) (entryAt_rd h)

theorem entryAt_bound : (entryAt p e s).boundTo p = s.boundTo p := by
  have h : ∀ d, (entryAt p e s).on (F.SCH_CTXQ_BOUND p d) = s.on (F.SCH_CTXQ_BOUND p d) := fun d =>
    entryAt_on (by change R.SCH_CTXQ p d ≠ R.SCH_STATUS p; unfold R.SCH_CTXQ R.SCH_STATUS; omega)
  unfold State.boundTo
  simp only [h]

theorem entryAt_set (d : Nat) : (entryAt p e s).wcSet p d = s.wcSet p d := by
  have hvalid : ∀ i, (entryAt p e s).on (F.SCH_TABLE_VALID p i) = s.on (F.SCH_TABLE_VALID p i) := fun i => entryAt_on (schTable_ne i)
  have hwc : ∀ i, (entryAt p e s).on (F.SCH_TABLE_WC p i) = s.on (F.SCH_TABLE_WC p i) := fun i => entryAt_on (schTable_ne i)
  have hctx : ∀ i, (entryAt p e s).rd (F.SCH_TABLE_CTX p i) = s.rd (F.SCH_TABLE_CTX p i) := fun i => entryAt_rd (schTable_ne i)
  have hset : ∀ i, (entryAt p e s).rd (F.SCH_TABLE_WC_SET p i) = s.rd (F.SCH_TABLE_WC_SET p i) := fun i => entryAt_rd (schTable_ne i)
  unfold State.wcSet State.cycle
  simp only [hvalid, hwc, hctx, hset]

section
variable (hp : p < 8)
include hp

theorem entryAt_alike (d : Nat) : ReadsAlike d s (entryAt p e s) where
  caches _ := rfl
  spread := ⟨rfl, rfl⟩
  status k := entryAt_rd (ne_schStatus hp (by change _ ≤ R.MEM_STATUS k; unfold R.MEM_STATUS; omega))
  mem := rfl
  marks := rfl

/-- What of a context the start of a slice asks stands in other registers than the partition's status. -/
theorem entryAt_context (d : Nat) : (entryAt p e s).ctxState d = s.ctxState d ∧ (entryAt p e s).wordsAddr d = s.wordsAddr d ∧
    (entryAt p e s).head d = s.head d ∧ (entryAt p e s).ringEntries d = s.ringEntries d ∧ (entryAt p e s).loadable d = s.loadable d := by
  have hstate : (entryAt p e s).ctxState d = s.ctxState d :=
    entryAt_rd (ne_schStatus hp (by change _ ≤ R.CTX_STATE d; unfold R.CTX_STATE; omega))
  refine ⟨hstate, congrArg (· * 16) (entryAt_rd (ne_schStatus hp ?_)), entryAt_rd (ne_schStatus hp ?_),
    congrArg (fun n => 2 ^ (n + 6)) (entryAt_rd (ne_schStatus hp ?_)), ?_⟩
  · change _ ≤ R.CTXW_RING_WORDS d; unfold R.CTXW_RING_WORDS; omega
  · change _ ≤ R.CTXW_RING_STATUS d; unfold R.CTXW_RING_STATUS; omega
  · change _ ≤ R.CTXW_RING_CFG d; unfold R.CTXW_RING_CFG; omega
  · unfold State.loadable
    rw [hstate, entryAt_on (ne_schStatus hp (by change _ ≤ R.CTXW_RING_STATUS d; unfold R.CTXW_RING_STATUS; omega))]

theorem entryAt_free {d : Nat} (h : memFree d s) : memFree d (entryAt p e s) := by
  obtain ⟨hrate, hnoc, hcopy⟩ := h
  refine ⟨fun k hk => (entryAt_rd (ne_schStatus hp ?_)).trans (hrate k hk), (entryAt_rd (ne_schStatus hp ?_)).trans hnoc, hcopy⟩
  · change _ ≤ R.MEM_REG_CTX k d; unfold R.MEM_REG_CTX; omega
  · change _ ≤ R.NOC_REG_CTX d; unfold R.NOC_REG_CTX; omega

theorem entryAt_ready {d : Nat} (h : wordReady d s) : wordReady d (entryAt p e s) := by
  obtain ⟨hstate, haddr, hhead, hring, -⟩ := entryAt_context (s := s) (e := e) hp d
  unfold wordReady
  rw [hstate, haddr, hhead, hring, (entryAt_alike hp d).ctxRead]
  intro h4
  obtain ⟨hspace, hfree, hword⟩ := h h4
  refine ⟨(entryAt_on (ne_schStatus hp ?_)).trans hspace, entryAt_free hp hfree, hword⟩
  change _ ≤ R.CTXW_RING_WORDS d; unfold R.CTXW_RING_WORDS; omega

/-- A host word that has come in is that of the state of the tick. -/
theorem wordIn_entryAt {d : Nat} {v : State} (h : wordIn d (entryAt p e s) v) : wordIn d s v := by
  obtain ⟨-, haddr, -⟩ := entryAt_context (s := s) (e := e) hp d
  unfold wordIn at h
  rw [haddr, (entryAt_alike hp d).ctxRead] at h
  exact h

/-- A tick on a partition in service starts the slice of the next entry (R174). -/
theorem sliceTick_starts (hw : List HostWord) (hstate : s.rd (F.SCH_STATUS_STATE p) ∈ [1, 2, 3]) (he : s.nextEntry p = some e)
    (h0 : s.atL0 = true) (hdown : (s.rd F.TLS_STATUS_PART_DOWN).testBit p = false) :
    sliceTick p hw s = sliceStart p (s.rd (F.SCH_TABLE_CTX p e)) hw (entryAt p e s) := by
  have hl0 : (entryAt p e s).atL0 = true := by
    unfold State.atL0 at h0 ⊢
    rw [entryAt_rd (ne_schStatus hp (by change _ ≤ R.PWR_STATUS; unfold R.PWR_STATUS; omega))]
    exact h0
  have hruns : ¬ (s.rd (F.SCH_STATUS_STATE p) ≠ 1 ∧ s.rd (F.SCH_STATUS_STATE p) ≠ 2 ∧ s.rd (F.SCH_STATUS_STATE p) ≠ 3) := by
    simp only [List.mem_cons, List.not_mem_nil, or_false] at hstate
    omega
  have hctx : (entryAt p e s).rd (F.SCH_TABLE_CTX p e) = s.rd (F.SCH_TABLE_CTX p e) := entryAt_rd (schTable_ne e)
  unfold sliceTick
  simp only [he, hdown]
  rw [if_neg (by simpa using hruns)]
  change (if !(entryAt p e s).atL0 then entryAt p e s else
    sliceStart p ((entryAt p e s).rd (F.SCH_TABLE_CTX p e)) hw (entryAt p e s)) = _
  rw [hl0, hctx]
  rfl

end

/-! ### What the tick leaves (R171–R174) -/

section
variable {c : Nat} {u : State} (hp : p < 8) (hread : WordsRead (entryAt p e s) u)
include hread

theorem WordsRead.reg {k : Nat} (h : k ≠ R.SCH_STATUS p) : u.reg k = s.reg k := by
  have hreg : u.reg k = (entryAt p e s).reg k := by unfold State.reg; rw [hread.regs]
  exact hreg.trans (entryAt_reg h)

/-- The partition's status behind the reads: the new entry, and the state and the holder of the state of the tick. -/
theorem WordsRead.status : u.rd (F.SCH_STATUS_ENTRY p) = e % 256 ∧ u.rd (F.SCH_STATUS_STATE p) = s.rd (F.SCH_STATUS_STATE p) ∧
    u.holderOf p = s.holderOf p := by
  refine ⟨(rd_congr hread.regs _).trans entryAt_entry, (rd_congr hread.regs _).trans entryAt_state, ?_⟩
  have h : u.holderOf p = (entryAt p e s).holderOf p := by
    unfold State.holderOf State.on
    rw [rd_congr hread.regs (F.SCH_STATUS_CTX_VALID p), rd_congr hread.regs (F.SCH_STATUS_CUR_CTX p)]
  exact h.trans entryAt_holder

theorem WordsRead.bound : u.boundTo p = s.boundTo p := by
  have h : u.boundTo p = (entryAt p e s).boundTo p := by
    unfold State.boundTo
    simp only [on_congr hread.regs]
  exact h.trans entryAt_bound

include hp

/-- Where the slice stays, the tick changes neither who holds it nor the tiles and memory. -/
theorem sliceChoice_kept (h : u.staysOn p c) : ∃ d, RunAsked d u (sliceChoice p c u) ∧
    (sliceChoice p c u).rd (F.SCH_STATUS_ENTRY p) = e % 256 ∧
    (sliceChoice p c u).rd (F.SCH_STATUS_STATE p) = s.rd (F.SCH_STATUS_STATE p) ∧ (sliceChoice p c u).holderOf p = s.holderOf p := by
  obtain ⟨d, hd⟩ := sliceChoice_stays h
  obtain ⟨hentry, hstate, hholder⟩ := hread.status
  have hk : (sliceChoice p c u).reg (R.SCH_STATUS p) = u.reg (R.SCH_STATUS p) :=
    hd.regs _ (by unfold hostReg R.SCH_STATUS R.XLT_COUNT; omega)
  refine ⟨d, hd, (rd_of_reg (f := F.SCH_STATUS_ENTRY p) hk).trans hentry, (rd_of_reg (f := F.SCH_STATUS_STATE p) hk).trans hstate, ?_⟩
  rw [← hholder]
  unfold State.holderOf State.on
  rw [rd_of_reg (f := F.SCH_STATUS_CTX_VALID p) hk, rd_of_reg (f := F.SCH_STATUS_CUR_CTX p) hk]

/-- Where another context takes the slice, the switch begins: tiles that serve stop, and the partition's record tells who goes and comes. -/
theorem sliceChoice_begun (h : ¬ u.staysOn p c) : SwitchBegun p (u.taker p c) u (sliceChoice p c u) ∧
    u.switchTo p (u.taker p c) = { s.switchTo p (u.taker p c) with inc := u.taker p c } ∧
    ∀ t ∈ s.tilesOf p, s.tileServes t = true → tileStopped t (sliceChoice p c u) := by
  rw [sliceChoice_switches h]
  have hbegun := beginSwitch_begun hp (u.taker p c) u
  refine ⟨hbegun, ?_, fun t ht hs => hbegun.stopped t ?_ ?_⟩
  · unfold State.switchTo
    rw [hread.status.2.2, hread.rest]
    rfl
  · rw [tilesOf_congr (hread.reg (by unfold R.CTX_PART R.SCH_STATUS; omega))]
    exact ht
  · rw [tileServes_of_rd (rd_of_reg (f := F.MXA_STATUS_STATE t) (hread.reg (by change R.MXA_STATUS t ≠ _; unfold R.MXA_STATUS R.SCH_STATUS; omega)))]
    exact hs

/-- A tick leaves the queue and the fuses, and the table at the new entry. -/
theorem sliceChoice_done : (sliceChoice p c u).pending = s.pending ∧ (sliceChoice p c u).otp = s.otp ∧
    (sliceChoice p c u).rd (F.SCH_STATUS_ENTRY p) = e % 256 := by
  have hpending : u.pending = s.pending := by rw [hread.rest]; rfl
  have hotp : u.otp = s.otp := by rw [hread.rest]; rfl
  by_cases h : u.staysOn p c
  · obtain ⟨d, hd, hentry, -⟩ := sliceChoice_kept hp hread h
    exact ⟨by rw [hd.rest]; exact hpending, by rw [hd.rest]; exact hotp, hentry⟩
  · obtain ⟨hd, -⟩ := sliceChoice_begun hp hread h
    exact ⟨by rw [hd.rest]; exact hpending, by rw [hd.rest]; exact hotp, hd.entry.trans hread.status.1⟩

end

end

end Sys2Proof.Machine
end

section
/-! SUPPORT. The end of a switch (R174, R175): what the tiles hold is saved, the engines are freed, and the tiles are cleared. -/

namespace Sys2Proof.Machine

/-! ### The tiles of the outgoing context are saved (R51, R173) -/

section
variable {c t : Nat} {s s' : State}

/-- The chains that a tile holds depend on the tile and on the context's operations. -/
theorem chainsOn_congr (htile : s'.tile t = s.tile t) (hops : (s'.ctx c).ops = (s.ctx c).ops) : s'.chainsOn c t = s.chainsOn c t := by
  unfold State.chainsOn State.op?
  rw [htile, hops]

/-- A billet that a tile holds of an operation that goes on is in the chain of its block. -/
theorem billet_chained {b : Billet} (hb : b ∈ (s.tile t).deal) (hc : b.ctx = c) (hlive : (s.op? c b.seq).any (·.done.isNone) = true) :
    ∃ k ∈ s.chainsOn c t, k.seq = b.seq ∧ k.row = b.row ∧ k.col = b.col ∧ k.from' = t ∧ b ∈ k.todo := by
  unfold State.chainsOn
  simp only
  refine ⟨_, List.mem_map.2 ⟨(b.seq, b.row, b.col), ?_, rfl⟩, rfl, rfl, rfl, rfl, ?_⟩
  · refine List.mem_dedup.2 (List.mem_append_left _ (List.mem_map.2 ⟨b, List.mem_filter.2 ⟨hb, ?_⟩, rfl⟩))
    simp only [hc, decide_true, Bool.true_and]
    exact hlive
  · simp [hb, hc]

/-- Save areas of context `c` have been written, and nothing else. -/
structure AreaWritten (c : Nat) (s s' : State) : Prop where
  own : s'.ctx c = { s.ctx c with chains := (s'.ctx c).chains, saved := (s'.ctx c).saved }
  others : ∀ d, d ≠ c → s'.ctx d = s.ctx d
  more : ∀ k ∈ (s.ctx c).chains, k ∈ (s'.ctx c).chains
  rest : s' = { s with ctxs := s'.ctxs }

theorem AreaWritten.refl (c : Nat) (s : State) : AreaWritten c s s := ⟨rfl, fun _ _ => rfl, fun _ h => h, rfl⟩

theorem AreaWritten.trans {u : State} (h : AreaWritten c s s') (h' : AreaWritten c s' u) : AreaWritten c s u :=
  ⟨by rw [h'.own, h.own], fun d hd => (h'.others d hd).trans (h.others d hd), fun k hk => h'.more k (h.more k hk), by rw [h'.rest, h.rest]⟩

theorem AreaWritten.ops (h : AreaWritten c s s') : (s'.ctx c).ops = (s.ctx c).ops := by rw [h.own]

theorem AreaWritten.regs (h : AreaWritten c s s') : s'.regs = s.regs := by rw [h.rest]

theorem AreaWritten.tile (h : AreaWritten c s s') (j : Nat) : s'.tile j = s.tile j := by rw [h.rest]; rfl

/-- The tile of an odd group is told by its configuration. -/
theorem secondary_congr (h : s'.regs = s.regs) (j : Nat) : s'.secondary j = s.secondary j := by
  unfold State.secondary State.paired
  rw [on_congr h (F.MXA_CFG_PAIR_EN j), on_congr h (F.MXA_CFG_PAIR_PRIMARY j)]

/-- What a tile holds stands in the save area of context `c`; of a pair that of its even group (R51, R173). -/
def tileSaved (c t : Nat) (s : State) : Prop := s.secondary t = false →
  SMap.get (fun _ => SavedTile.init) (s.ctx c).saved t = { ftq := (s.tile t).ftq, vxe := (s.tile t).vxe } ∧
  ∀ k ∈ s.chainsOn c t, k ∈ (s.ctx c).chains

theorem saveTile_written (c t : Nat) (s : State) : AreaWritten c s (saveTile c t s) := by
  unfold saveTile
  split
  · exact .refl c s
  · refine ⟨by rw [State.onCtx_same], fun d hd => State.onCtx_other _ _ _ hd, fun k hk => ?_, rfl⟩
    rw [State.onCtx_same]
    exact List.mem_append_left _ hk

theorem saveTile_saved (c t : Nat) (s : State) : tileSaved c t (saveTile c t s) := by
  have hw := saveTile_written c t s
  intro hsec
  have hs : s.secondary t = false := (secondary_congr hw.regs t).symm.trans hsec
  rw [chainsOn_congr (hw.tile t) hw.ops, hw.tile]
  have hsave : saveTile c t s = s.onCtx c fun y => { y with
      chains := y.chains ++ s.chainsOn c t,
      saved := SMap.put (fun _ => SavedTile.init) y.saved t { ftq := (s.tile t).ftq, vxe := (s.tile t).vxe } } := by
    unfold saveTile
    rw [hs]
    rfl
  rw [hsave, State.onCtx_same]
  exact ⟨SMap.get_put_same .., fun k hk => List.mem_append_right _ hk⟩

/-- The save of another tile leaves what is saved of a tile. -/
theorem saveTile_keeps {j : Nat} (hj : j ≠ t) (h : tileSaved c t s) : tileSaved c t (saveTile c j s) := by
  have hw := saveTile_written c j s
  intro hsec
  obtain ⟨hget, hchains⟩ := h ((secondary_congr hw.regs t).symm.trans hsec)
  rw [chainsOn_congr (hw.tile t) hw.ops, hw.tile]
  refine ⟨?_, fun k hk => hw.more k (hchains k hk)⟩
  rw [← hget]
  unfold saveTile
  split
  · rfl
  · rw [State.onCtx_same]
    exact SMap.get_put_other _ _ _ hj.symm

end

/-- The tiles that a context holds on a partition. -/
def State.heldTiles (s : State) (c p : Nat) : List Nat := (s.tilesOf p).filter fun t => decide (s.tileCtx t = some c)

/-- The save areas of tiles are written. -/
def areasSaved (c : Nat) (l : List Nat) (s : State) : State := each l (saveTile c) s

theorem areasSaved_written (c : Nat) (l : List Nat) (s : State) : AreaWritten c s (areasSaved c l s) :=
  each_rel_mem (AreaWritten c) (.refl c) (fun _ _ _ => .trans) (fun t _ s => saveTile_written c t s) s

theorem areasSaved_saved {c t : Nat} {l : List Nat} (ht : t ∈ l) (s : State) : tileSaved c t (areasSaved c l s) :=
  each_establishes (tileSaved c t) ht (saveTile_saved c t) (fun j _ u hu => by
    by_cases h : j = t
    · subst h; exact saveTile_saved c j u
    · exact saveTile_keeps h hu) s

/-- What the outgoing context's save leaves: its save area, channels that are no more clean, and reads that are abandoned. -/
structure OutSaved (c : Nat) (l : List Nat) (s s' : State) : Prop where
  own : s'.ctx c = { s.ctx c with chains := (s'.ctx c).chains, saved := (s'.ctx c).saved }
  others : ∀ d, d ≠ c → s'.ctx d = s.ctx d
  saved : ∀ t ∈ l, s.secondary t = false →
    SMap.get (fun _ => SavedTile.init) (s'.ctx c).saved t = { ftq := (s.tile t).ftq, vxe := (s.tile t).vxe } ∧
    ∀ k ∈ s.chainsOn c t, k ∈ (s'.ctx c).chains
  none : l = [] → s'.ctx c = s.ctx c
  rest : s' = { s with ctxs := s'.ctxs, chans := s'.chans, hostReqs := s'.hostReqs }

/-- The save of the outgoing context, and its reads that are abandoned (R174, R241). -/
def outSaved (c p : Nat) (s : State) : State := abandonReads c false (saveTiles c p s)

theorem outSaved_saved (c p : Nat) (s : State) : OutSaved c (s.heldTiles c p) s (outSaved c p s) := by
  have hw := areasSaved_written c (s.heldTiles c p) s
  have hs := fun t ht => areasSaved_saved (c := c) (t := t) (l := s.heldTiles c p) ht s
  have hnil : s.heldTiles c p = [] → areasSaved c (s.heldTiles c p) s = s := fun h => by rw [h]; rfl
  have hrest : outSaved c p s = { areasSaved c (s.heldTiles c p) s with
      chans := (outSaved c p s).chans, hostReqs := (outSaved c p s).hostReqs } :=
    congrArg (fun v : State => { v with hostReqs := (outSaved c p s).hostReqs })
      (each_rel_mem (fun a b => b = { a with chans := b.chans }) (fun _ => rfl) (fun _ _ _ h h' => by rw [h', h]) (fun _ _ _ => rfl)
        (areasSaved c (s.heldTiles c p) s))
  generalize outSaved c p s = v at hrest
  generalize areasSaved c (s.heldTiles c p) s = u at *
  have hctx : ∀ d, v.ctx d = u.ctx d := fun d => by rw [hrest]; rfl
  refine ⟨?_, fun d hd => (hctx d).trans (hw.others d hd), fun t ht hsec => ?_, fun h => ?_, by rw [hrest, hw.rest]⟩
  · rw [hctx]
    exact hw.own
  · rw [hctx, ← hw.tile t, ← chainsOn_congr (hw.tile t) hw.ops]
    exact hs t ht ((secondary_congr hw.regs t).trans hsec)
  · rw [hctx, hnil h]

/-! ### The engines are freed (R174, R232) -/

/-- Engines are free; their operations keep their cursors and wait. -/
structure EnginesLeft (s s' : State) : Prop where
  regs : ∀ k, k < 0xA11000 ∨ 0xA12000 ≤ k → s'.reg k = s.reg k
  ctxs : ∀ d, s'.ctx d = { s.ctx d with ops := (s'.ctx d).ops } ∧ ((s'.ctx d).ops = [] ↔ (s.ctx d).ops = [])
  rest : s' = { s with regs := s'.regs, ctxs := s'.ctxs, engines := s'.engines }

theorem EnginesLeft.refl (s : State) : EnginesLeft s s := ⟨fun _ _ => rfl, fun _ => ⟨rfl, .rfl⟩, rfl⟩

theorem EnginesLeft.trans {a b d : State} (h : EnginesLeft a b) (h' : EnginesLeft b d) : EnginesLeft a d where
  regs k hk := (h'.regs k hk).trans (h.regs k hk)
  ctxs c := ⟨by rw [(h'.ctxs c).1, (h.ctxs c).1], (h'.ctxs c).2.trans (h.ctxs c).2⟩
  rest := by rw [h'.rest, h.rest]

theorem EnginesLeft.of_op (c q : Nat) (f : Op → Op) (s : State) : EnginesLeft s (s.onOp c q f) where
  regs _ _ := rfl
  ctxs d := by
    unfold State.onOp
    by_cases h : d = c
    · subst h
      rw [State.onCtx_same]
      exact ⟨rfl, List.map_eq_nil_iff⟩
    · rw [State.onCtx_other _ _ _ h]
      exact ⟨rfl, .rfl⟩
  rest := rfl

theorem EnginesLeft.of_engine (e : Nat) (f : Engine → Engine) (s : State) : EnginesLeft s (s.onEngine e f) :=
  ⟨fun _ _ => rfl, fun _ => ⟨rfl, .rfl⟩, rfl⟩

theorem EnginesLeft.wr {s s' : State} (h : EnginesLeft s s') {e hi lo : Nat} (he : e < 32) (v : Nat) :
    EnginesLeft s (s'.wr ⟨R.DMA_ENG_STATUS e, hi, lo⟩ v) :=
  h.trans ⟨fun k hk => reg_wr_other _ _ _ (by change k ≠ R.DMA_ENG_STATUS e; unfold R.DMA_ENG_STATUS; omega), fun _ => ⟨rfl, .rfl⟩, rfl⟩

theorem freeEngines_left (p : Nat) (s : State) : EnginesLeft s (freeEngines p s) := by
  refine each_rel_mem EnginesLeft .refl (fun _ _ _ => .trans) (fun e he v => ?_) s
  have he32 := enginesOf_lt he
  cases (v.engine e).op with
  | none => exact .refl v
  | some cq => exact (((EnginesLeft.of_op cq.1 cq.2 _ v).trans (.of_engine e _ _)).wr he32 0).wr he32 0

/-! ### The tiles are cleared (R54, R174) -/

/-- A register of a tile. -/
def tileReg (k : Nat) : Prop := 0x400000 ≤ k ∧ k < 0x500000

/-- A tile holds nothing and no context holds it; one in service is idle (R54, R57). -/
def tileIdle (t : Nat) (s : State) : Prop :=
  emptyTile t s ∧ s.tileCtx t = none ∧ (s.tileServes t = true → s.rd (F.MXA_STATUS_STATE t) = 1)

section
variable {t j : Nat} {s s' : State}

/-- The status register behind a clear: no context, and IDLE where the tile serves (R57). -/
theorem clearTile_status (t : Nat) (s : State) : (clearTile t s).tileCtx t = none ∧
    (s.tileServes t = true → (clearTile t s).rd (F.MXA_STATUS_STATE t) = 1) := by
  rw [clearTile_eq]
  have hstall := stallEnd_counted t s
  have hbefore : ∀ f, f.key = R.MXA_STATUS t → (emptied t (stallEnd t s)).rd f = s.rd f := fun f hf =>
    rd_of_reg (f := f) (hf ▸ hstall.regs _ (status_ne_stall t t))
  generalize emptied t (stallEnd t s) = a at *
  have hserves : (clearedStatus t a).tileServes t = s.tileServes t := tileServes_of_rd
    (((rd_wr_beside _ (by decide) 0).trans ((rd_wr_beside _ (by decide) 0).trans (rd_wr_beside a (by decide) 0))).trans (hbefore _ rfl))
  have hvalid : (clearedStatus t a).rd (F.MXA_STATUS_CTX_VALID t) = 0 :=
    (rd_wr_beside _ (by decide) 0).trans ((rd_wr_beside _ (by decide) 0).trans (rd_wr_fits a (by decide) (by decide)))
  generalize clearedStatus t a = b at *
  have hvxe : ∀ v : State, (clearedVxe t v).reg (R.MXA_STATUS t) = v.reg (R.MXA_STATUS t) := fun v => by
    have h1 : R.MXA_STATUS t ≠ R.VXE_STATUS t := by unfold R.MXA_STATUS R.VXE_STATUS; omega
    have h2 : R.MXA_STATUS t ≠ R.VXE_STAT t := by unfold R.MXA_STATUS R.VXE_STAT; omega
    have h3 : R.MXA_STATUS t ≠ R.BWL_SCRUB t := by unfold R.MXA_STATUS R.BWL_SCRUB; omega
    exact (reg_wr_other _ _ _ h3).trans ((State.setReg_other _ _ _ h2).trans ((reg_wr_other _ _ _ h1).trans ((reg_wr_other _ _ _ h1).trans
      ((reg_wr_other _ _ _ h1).trans (reg_wr_other _ _ _ h1)))))
  have hkey : R.MXA_STATUS t ≠ R.VXE_STATUS t := by unfold R.MXA_STATUS R.VXE_STATUS; omega
  have hstate : (clearedState t b).rd (F.MXA_STATUS_CTX_VALID t) = 0 ∧
      (s.tileServes t = true → (clearedState t b).rd (F.MXA_STATUS_STATE t) = 1) := by
    unfold clearedState
    rw [hserves]
    split
    · exact ⟨(rd_wr_other _ hkey 1).trans ((rd_wr_beside b (by decide) 1).trans hvalid),
        fun _ => (rd_wr_other _ hkey 1).trans (rd_wr_fits b (by decide) (by decide))⟩
    · exact ⟨(rd_wr_other _ hkey 0).trans hvalid, fun h => absurd h ‹_›⟩
  obtain ⟨hctx, hidle⟩ := hstate
  refine ⟨?_, fun h => (rd_of_reg (f := F.MXA_STATUS_STATE t) (hvxe _)).trans (hidle h)⟩
  unfold State.tileCtx State.on
  rw [rd_of_reg (f := F.MXA_STATUS_CTX_VALID t) (hvxe _), hctx]
  rfl

theorem tileServes_idle (h : s.rd (F.MXA_STATUS_STATE t) = 1) : s.tileServes t = true := by
  unfold State.tileServes
  rw [h]
  rfl

/-- A clear leaves the tile's service (R54). -/
theorem clearTile_serves (t : Nat) (s : State) : (clearTile t s).tileServes t = s.tileServes t := by
  cases hs : s.tileServes t with
  | true => exact tileServes_idle ((clearTile_status t s).2 hs)
  | false => exact (tileServes_of_rd ((clearTile_cleared t s).state hs)).trans hs

theorem clearTile_idle (t : Nat) (s : State) : tileIdle t (clearTile t s) := by
  obtain ⟨hctx, hidle⟩ := clearTile_status t s
  exact ⟨(clearTile_cleared t s).empty, hctx, fun h => hidle ((clearTile_serves t s).symm.trans h)⟩

/-- Another tile's clear leaves a tile and its status. -/
theorem clearTile_other (h : j ≠ t) (s : State) :
    (clearTile j s).tile t = s.tile t ∧ (clearTile j s).reg (R.MXA_STATUS t) = s.reg (R.MXA_STATUS t) := by
  have hc := clearTile_cleared j s
  refine ⟨hc.others t h.symm, hc.regs _ ?_ ?_ ?_ ?_ ?_⟩
  · unfold R.MXA_STATUS; omega
  · unfold R.MXA_STATUS R.MXA_STALL; omega
  · unfold R.MXA_STATUS R.VXE_STATUS; omega
  · unfold R.MXA_STATUS R.VXE_STAT; omega
  · unfold R.MXA_STATUS R.BWL_SCRUB; omega

/-- What is told of a tile stands in its record and its status. -/
theorem tileIdle_congr (htile : s'.tile t = s.tile t) (hreg : s'.reg (R.MXA_STATUS t) = s.reg (R.MXA_STATUS t))
    (h : tileIdle t s) : tileIdle t s' := by
  have hstate : s'.rd (F.MXA_STATUS_STATE t) = s.rd (F.MXA_STATUS_STATE t) := rd_of_reg hreg
  obtain ⟨hempty, hctx, hidle⟩ := h
  refine ⟨?_, ?_, ?_⟩
  · unfold emptyTile at *
    rw [htile]
    exact hempty
  · unfold State.tileCtx State.on at *
    rw [rd_of_reg (f := F.MXA_STATUS_CTX_VALID t) hreg, rd_of_reg (f := F.MXA_STATUS_CUR_CTX t) hreg]
    exact hctx
  · rw [tileServes_of_rd hstate, hstate]
    exact hidle

end

/-- Tiles are cleared. -/
def tilesEmptied (l : List Nat) (s : State) : State := each l clearTile s

theorem tilesEmptied_idle {t : Nat} {l : List Nat} (ht : t ∈ l) (s : State) : tileIdle t (tilesEmptied l s) :=
  each_establishes (tileIdle t) ht (clearTile_idle t) (fun j _ u hu => by
    by_cases h : j = t
    · subst h; exact clearTile_idle j u
    · exact tileIdle_congr (clearTile_other h u).1 (clearTile_other h u).2 hu) s

theorem tilesEmptied_serves (t : Nat) (l : List Nat) (s : State) : (tilesEmptied l s).tileServes t = s.tileServes t :=
  each_obs (fun v : State => v.tileServes t) (fun j _ u => by
    by_cases h : j = t
    · subst h; exact clearTile_serves j u
    · exact tileServes_of_rd (rd_of_reg (f := F.MXA_STATUS_STATE t) (clearTile_other h u).2)) s

/-- What the clear of a partition's tiles leaves (R54, R174, R254, R272). -/
structure PartCleared (p : Nat) (s s' : State) : Prop where
  idle : ∀ t ∈ s.tilesOf p, s.tileServes t = true → tileIdle t s'
  serves : ∀ t, s'.tileServes t = s.tileServes t
  regs : ∀ k, ¬ tileReg k → s'.reg k = s.reg k
  rest : s' = { s with regs := s'.regs, tiles := s'.tiles, links := s'.links, buckets := s'.buckets }

theorem clearTiles_cleared (p : Nat) (s : State) : PartCleared p s (clearTiles p s) := by
  have hidle := fun t ht => tilesEmptied_idle (t := t) (l := (s.tilesOf p).filter s.tileServes) ht s
  have hserves := fun t => tilesEmptied_serves t ((s.tilesOf p).filter s.tileServes) s
  have hside : (∀ k, ¬ tileReg k → (tilesEmptied ((s.tilesOf p).filter s.tileServes) s).reg k = s.reg k) ∧
      tilesEmptied ((s.tilesOf p).filter s.tileServes) s = { s with
        regs := (tilesEmptied ((s.tilesOf p).filter s.tileServes) s).regs, tiles := (tilesEmptied ((s.tilesOf p).filter s.tileServes) s).tiles } :=
    each_rel_mem (fun a b => (∀ k, ¬ tileReg k → b.reg k = a.reg k) ∧ b = { a with regs := b.regs, tiles := b.tiles })
      (fun _ => ⟨fun _ _ => rfl, rfl⟩) (fun a b d h h' => ⟨fun k hk => (h'.1 k hk).trans (h.1 k hk), by rw [h'.2, h.2]⟩)
      (fun t ht u => by
        have h := clearTile_cleared t u
        have hlt := tilesOf_lt (List.mem_filter.1 ht).1
        refine ⟨fun k hk => h.regs k ?_ ?_ ?_ ?_ ?_, by rw [h.rest]⟩ <;> refine fun e => hk (e ▸ ?_) <;> unfold tileReg
        · unfold R.MXA_STATUS; omega
        · unfold R.MXA_STALL; omega
        · unfold R.VXE_STATUS; omega
        · unfold R.VXE_STAT; omega
        · unfold R.BWL_SCRUB; omega) s
  have hrest : clearTiles p s = { tilesEmptied ((s.tilesOf p).filter s.tileServes) s with
      links := (clearTiles p s).links, buckets := (clearTiles p s).buckets } :=
    congrArg (fun v : State => { v with buckets := (clearTiles p s).buckets })
      (each_rel_mem (fun a b => b = { a with links := b.links }) (fun _ => rfl) (fun _ _ _ h h' => by rw [h', h]) (fun _ _ _ => rfl)
        (tilesEmptied ((s.tilesOf p).filter s.tileServes) s))
  generalize clearTiles p s = v at hrest
  generalize tilesEmptied ((s.tilesOf p).filter s.tileServes) s = u at *
  have hreg : ∀ k, v.reg k = u.reg k := fun k => by rw [hrest]; rfl
  have htile : ∀ t, v.tile t = u.tile t := fun t => by rw [hrest]; rfl
  refine ⟨fun t ht hs => tileIdle_congr (htile t) (hreg _) (hidle t (List.mem_filter.2 ⟨ht, hs⟩)),
    fun t => (tileServes_of_rd (rd_of_reg (f := F.MXA_STATUS_STATE t) (hreg _))).trans (hserves t), fun k hk => (hreg k).trans (hside.1 k hk), ?_⟩
  rw [hrest, hside.2]

end Sys2Proof.Machine
end

section
/-! SUPPORT. The end of a switch (R175, R176): the switch is counted, and the slice is handed over or stays idle. -/

namespace Sys2Proof.Machine

/-! ### Steps 3 and 4 (R174) -/

/-- The tiles of a partition are saved and cleared, and its engines are free. -/
def stilled (p : Nat) (out : Option Nat) (s : State) : State :=
  clearTiles p (freeEngines p (match out with
    | none => s
    | some c => outSaved c p s))

/-- What those steps leave (R51, R54, R173, R174). -/
structure Stilled (p : Nat) (out : Option Nat) (s s' : State) : Prop where
  idle : ∀ t ∈ s.tilesOf p, s.tileServes t = true → tileIdle t s'
  serves : ∀ t, t < 64 → s'.tileServes t = s.tileServes t
  regs : ∀ k, ¬ switchReg k → s'.reg k = s.reg k
  saved : ∀ t c, t ∈ s.tilesOf p → out = some c → s.tileCtx t = some c → s.secondary t = false →
    SMap.get (fun _ => SavedTile.init) (s'.ctx c).saved t = { ftq := (s.tile t).ftq, vxe := (s.tile t).vxe } ∧
    ∀ k ∈ s.chainsOn c t, k ∈ (s'.ctx c).chains
  work : ∀ d, (s'.ctx d).tail = (s.ctx d).tail ∧ ((s'.ctx d).ops = [] ↔ (s.ctx d).ops = [])
  clean : ∀ d, (∀ t ∈ s.tilesOf p, s.tileCtx t ≠ some d) → (s'.ctx d).saved = (s.ctx d).saved ∧ (s'.ctx d).chains = (s.ctx d).chains
  rest : s' = { s with regs := s'.regs, tiles := s'.tiles, ctxs := s'.ctxs, chans := s'.chans, hostReqs := s'.hostReqs,
                       engines := s'.engines, links := s'.links, buckets := s'.buckets }

/-- The save of whoever is out. -/
theorem outSaved_any (p : Nat) (out : Option Nat) (s : State) : ∃ u, stilled p out s = clearTiles p (freeEngines p u) ∧
    (∀ t c, t ∈ s.tilesOf p → out = some c → s.tileCtx t = some c → s.secondary t = false →
      SMap.get (fun _ => SavedTile.init) (u.ctx c).saved t = { ftq := (s.tile t).ftq, vxe := (s.tile t).vxe } ∧
      ∀ k ∈ s.chainsOn c t, k ∈ (u.ctx c).chains) ∧
    (∀ d, (u.ctx d).tail = (s.ctx d).tail ∧ (u.ctx d).ops = (s.ctx d).ops) ∧
    (∀ d, (∀ t ∈ s.tilesOf p, s.tileCtx t ≠ some d) → u.ctx d = s.ctx d) ∧
    u = { s with ctxs := u.ctxs, chans := u.chans, hostReqs := u.hostReqs } := by
  cases out with
  | none => exact ⟨s, rfl, fun _ _ _ h => absurd h (Option.some_ne_none _).symm, fun _ => ⟨rfl, rfl⟩, fun _ _ => rfl, rfl⟩
  | some c =>
    have h := outSaved_saved c p s
    refine ⟨outSaved c p s, rfl, fun t c' ht hc hctx hsec => ?_, fun d => ?_, fun d hd => ?_, h.rest⟩
    · cases hc
      exact h.saved t (List.mem_filter.2 ⟨ht, decide_eq_true hctx⟩) hsec
    · by_cases hdc : d = c
      · subst hdc
        rw [h.own]
        exact ⟨rfl, rfl⟩
      · rw [h.others d hdc]
        exact ⟨rfl, rfl⟩
    · by_cases hdc : d = c
      · subst hdc
        exact h.none (List.filter_eq_nil_iff.2 fun t ht => by rw [decide_eq_true_eq]; exact hd t ht)
      · exact h.others d hdc

theorem stilled_stilled (p : Nat) (out : Option Nat) (s : State) : Stilled p out s (stilled p out s) := by
  obtain ⟨u, heq, hsaved, hwork, hclean, hrest⟩ := outSaved_any p out s
  rw [heq]
  have hfree := freeEngines_left p u
  have hclear := clearTiles_cleared p (freeEngines p u)
  generalize freeEngines p u = v at *
  generalize clearTiles p v = w at *
  have hreg : ∀ k, k < 0xA11000 ∨ 0xA12000 ≤ k → v.reg k = s.reg k := fun k hk => (hfree.regs k hk).trans (by rw [hrest]; rfl)
  have hstatus : ∀ t, t < 64 → v.reg (R.MXA_STATUS t) = s.reg (R.MXA_STATUS t) := fun t ht => hreg _ (.inl (by unfold R.MXA_STATUS; omega))
  have hserves : ∀ t, t < 64 → v.tileServes t = s.tileServes t := fun t ht =>
    tileServes_of_rd (rd_of_reg (f := F.MXA_STATUS_STATE t) (hstatus t ht))
  have htiles : v.tilesOf p = s.tilesOf p := by
    refine tilesOf_congr ((hfree.regs _ ?_).trans (by rw [hrest]; rfl))
    unfold R.CTX_PART
    omega
  have hctx : ∀ d, w.ctx d = { u.ctx d with ops := (v.ctx d).ops } := fun d => by
    rw [← (hfree.ctxs d).1, hclear.rest]
    rfl
  refine ⟨fun t ht hs => hclear.idle t (htiles ▸ ht) ((hserves t (tilesOf_lt ht)).trans hs), fun t ht => (hclear.serves t).trans (hserves t ht),
    fun k hk => ?_, fun t c ht hc hheld hsec => ?_, fun d => ?_, fun d hd => ?_, ?_⟩
  · unfold switchReg at hk
    exact (hclear.regs k (by unfold tileReg; omega)).trans (hreg k (by omega))
  · rw [hctx]
    exact hsaved t c ht hc hheld hsec
  · rw [hctx]
    exact ⟨(hwork d).1, (hfree.ctxs d).2.trans (by rw [(hwork d).2])⟩
  · rw [hctx, hclean d hd]
    exact ⟨rfl, rfl⟩
  · rw [hclear.rest, hfree.rest, hrest]

/-! ### The switch is counted (R175) -/

/-- The switch is over, and counted. -/
def switchOver (p us : Nat) (s : State) : State :=
  ((s.onPart p fun x => { x with sw := none }).wrapInc (F.SCH_COUNT_SWITCHES p) 1).wr (F.SCH_SWITCH_LAST_US p) us

/-- A window that was exceeded is counted, and noted in the log. -/
def overrunCounted (p us : Nat) (s : State) : State :=
  if us ≤ s.rd (F.SCH_SWITCH_WINDOW_US p) then s
  else bbEvent 0x8040 (srcGroup ((s.groupsOf p).headD 0)) (byte p :: leBytes us 2) (s.satInc (F.SCH_SWITCH_OVERRUN p) 1)

/-- What the count of a switch leaves (R175). -/
structure SwitchCounted (p us : Nat) (s s' : State) : Prop where
  ended : (s'.part p).sw = none
  count : s'.rd (F.SCH_COUNT_SWITCHES p) = (s.rd (F.SCH_COUNT_SWITCHES p) + 1) % 2 ^ 32
  last : s'.rd (F.SCH_SWITCH_LAST_US p) = us
  overrun : s'.rd (F.SCH_SWITCH_OVERRUN p) = if us ≤ s.rd (F.SCH_SWITCH_WINDOW_US p) then s.rd (F.SCH_SWITCH_OVERRUN p)
    else min (s.rd (F.SCH_SWITCH_OVERRUN p) + 1) (F.SCH_SWITCH_OVERRUN p).max
  regs : ∀ k, k ≠ R.SCH_COUNT p → k ≠ R.SCH_SWITCH p → isLog k = false → s'.reg k = s.reg k
  rest : s' = { s with regs := s'.regs, parts := s'.parts, bb := s'.bb, tls := s'.tls }

section
variable {p us : Nat}

theorem schCount_noLog (hp : p < 8) : isLog (R.SCH_COUNT p) = false ∧ isLog (R.SCH_SWITCH p) = false := by
  have h : ∀ q, q < 8 → isLog (R.SCH_COUNT q) = false ∧ isLog (R.SCH_SWITCH q) = false := by decide
  exact h p hp

/-- A black-box event changes the log's registers and records alone. -/
theorem bbEvent_rest (code source : Nat) (detail : List Byte) (s : State) :
    bbEvent code source detail s = { s with regs := (bbEvent code source detail s).regs, bb := (bbEvent code source detail s).bb,
                                            tls := (bbEvent code source detail s).tls } :=
  congrArg (fun v : State => { v with regs := (bbEvent code source detail s).regs, bb := (bbEvent code source detail s).bb,
                                      tls := (bbEvent code source detail s).tls })
    (bbEvent_frame (fun v : State => { v with regs := s.regs, bb := s.bb, tls := s.tls }) (fun _ _ => rfl) (fun _ _ => rfl) (fun _ _ => rfl)
      code source detail s)

theorem switchOver_counted (hus : us < 65536) (s : State) : ((switchOver p us s).part p).sw = none ∧
    (switchOver p us s).rd (F.SCH_COUNT_SWITCHES p) = (s.rd (F.SCH_COUNT_SWITCHES p) + 1) % 2 ^ 32 ∧
    (switchOver p us s).rd (F.SCH_SWITCH_LAST_US p) = us ∧
    (switchOver p us s).rd (F.SCH_SWITCH_OVERRUN p) = s.rd (F.SCH_SWITCH_OVERRUN p) ∧
    (switchOver p us s).rd (F.SCH_SWITCH_WINDOW_US p) = s.rd (F.SCH_SWITCH_WINDOW_US p) := by
  have hkey : R.SCH_COUNT p ≠ R.SCH_SWITCH p := by unfold R.SCH_COUNT R.SCH_SWITCH; omega
  have hover : (s.onPart p fun x => { x with sw := none }).part p = { s.part p with sw := none } := State.onPart_same _ _ _
  refine ⟨?_, ?_, rd_wr_fits _ (by decide) hus, (rd_wr_beside _ (by decide) us).trans (rd_wr_other _ hkey.symm _),
    (rd_wr_beside _ (by decide) us).trans (rd_wr_other _ hkey.symm _)⟩
  · exact congrArg Part.sw hover
  · exact (rd_wr_other _ hkey us).trans (rd_wr_cut _ (by decide) _)

theorem switchOver_reg {k : Nat} (h1 : k ≠ R.SCH_COUNT p) (h2 : k ≠ R.SCH_SWITCH p) (s : State) : (switchOver p us s).reg k = s.reg k := by
  unfold switchOver
  rw [State.wrapInc_eq, reg_wr_other _ _ _ h2, reg_wr_other _ _ _ h1]
  rfl

theorem switchOver_rest (us : Nat) (s : State) :
    switchOver p us s = { s with regs := (switchOver p us s).regs, parts := (switchOver p us s).parts } := by
  have h : regsOnly (s.onPart p fun x => { x with sw := none }) (switchOver p us s) := (regsOnly_wr _ _ _).wr _ _
  have hparts : (switchOver p us s).parts = (s.onPart p fun x => { x with sw := none }).parts := by rw [h]
  rw [hparts]
  exact h

/-- The window of a switch was exceeded (R175). -/
theorem overrunCounted_exceeded (hp : p < 8) {v : State} (h : ¬ us ≤ v.rd (F.SCH_SWITCH_WINDOW_US p)) :
    (overrunCounted p us v).part p = v.part p ∧
    (overrunCounted p us v).rd (F.SCH_SWITCH_LAST_US p) = v.rd (F.SCH_SWITCH_LAST_US p) ∧
    (overrunCounted p us v).rd (F.SCH_SWITCH_OVERRUN p) = min (v.rd (F.SCH_SWITCH_OVERRUN p) + 1) (F.SCH_SWITCH_OVERRUN p).max ∧
    (∀ k, k ≠ R.SCH_SWITCH p → isLog k = false → (overrunCounted p us v).reg k = v.reg k) ∧
    overrunCounted p us v = { v with regs := (overrunCounted p us v).regs, bb := (overrunCounted p us v).bb, tls := (overrunCounted p us v).tls } := by
  have heq : overrunCounted p us v =
      bbEvent 0x8040 (srcGroup ((v.groupsOf p).headD 0)) (byte p :: leBytes us 2) (v.satInc (F.SCH_SWITCH_OVERRUN p) 1) := if_neg h
  have hsat : regsOnly v (v.satInc (F.SCH_SWITCH_OVERRUN p) 1) := regsOnly_wr _ _ _
  have hsatreg : ∀ k, k ≠ R.SCH_SWITCH p → (v.satInc (F.SCH_SWITCH_OVERRUN p) 1).reg k = v.reg k := fun k hk => reg_wr_other v _ _ hk
  have hlast : (v.satInc (F.SCH_SWITCH_OVERRUN p) 1).rd (F.SCH_SWITCH_LAST_US p) = v.rd (F.SCH_SWITCH_LAST_US p) := rd_wr_beside v (by decide) _
  have hcount := rd_satInc v (f := F.SCH_SWITCH_OVERRUN p) (by change 0 ≤ 31 ∧ 31 < 64; decide) 1
  rw [heq]
  generalize v.satInc (F.SCH_SWITCH_OVERRUN p) 1 = w at *
  have hreg : ∀ k, isLog k = false → _ := fun k hk => bbEvent_reg hk 0x8040 (srcGroup ((v.groupsOf p).headD 0)) (byte p :: leBytes us 2) w
  refine ⟨?_, ?_, ?_, fun k h1 h2 => (hreg k h2).trans (hsatreg k h1), ?_⟩
  · rw [bbEvent_at_part, hsat]
    rfl
  · exact (rd_of_reg (f := F.SCH_SWITCH_LAST_US p) (hreg _ (schCount_noLog hp).2)).trans hlast
  · exact (rd_of_reg (f := F.SCH_SWITCH_OVERRUN p) (hreg _ (schCount_noLog hp).2)).trans hcount
  · rw [bbEvent_rest, hsat]

theorem switchCounted (hp : p < 8) (hus : us < 65536) (s : State) : SwitchCounted p us s (overrunCounted p us (switchOver p us s)) := by
  obtain ⟨hended, hcount, hlast, hoverrun, hwindow⟩ := switchOver_counted (p := p) hus s
  have hregs := fun k h1 h2 => switchOver_reg (p := p) (us := us) (k := k) h1 h2 s
  have hrest := switchOver_rest (p := p) us s
  generalize switchOver p us s = v at *
  by_cases hin : us ≤ s.rd (F.SCH_SWITCH_WINDOW_US p)
  · have hv : overrunCounted p us v = v := if_pos (hwindow ▸ hin)
    rw [hv]
    exact ⟨hended, hcount, hlast, by rw [if_pos hin]; exact hoverrun, fun k h1 h2 _ => hregs k h1 h2, by rw [hrest]⟩
  · obtain ⟨hpart, hlast', hoverrun', hreg, hmore⟩ := overrunCounted_exceeded hp (hwindow ▸ hin)
    generalize overrunCounted p us v = w at *
    have hkey : R.SCH_COUNT p ≠ R.SCH_SWITCH p := by unfold R.SCH_COUNT R.SCH_SWITCH; omega
    refine ⟨(congrArg Part.sw hpart).trans hended, (rd_of_reg (f := F.SCH_COUNT_SWITCHES p) (hreg _ hkey (schCount_noLog hp).1)).trans hcount,
      hlast'.trans hlast, ?_, fun k h1 h2 h3 => (hreg k h2 h3).trans (hregs k h1 h2), by rw [hmore, hrest]⟩
    rw [if_neg hin, hoverrun', hoverrun]

end

end Sys2Proof.Machine
end

section
/-! SUPPORT. The end of a switch (R171, R175, R176): the slice is handed over to the incoming context, or stays idle. -/

namespace Sys2Proof.Machine

/-! ### The incoming context takes the slice (R174, R176) -/

/-- A context holds the slice of a partition. -/
def takenBy (p c : Nat) (s : State) : State :=
  (((s.wr (F.SCH_STATUS_CTX_VALID p) 1).wr (F.SCH_STATUS_CUR_CTX p) c).wr (F.SCH_STATUS_STATE p) 1).wr (F.CTXW_RING_STATUS_HOLDING c) 1

section
variable {p c : Nat} {s : State}

theorem takenBy_regsOnly (p c : Nat) (s : State) : regsOnly s (takenBy p c s) := (((regsOnly_wr _ _ _).wr _ _).wr _ _).wr _ _

theorem takenBy_reg {k : Nat} (h1 : k ≠ R.SCH_STATUS p) (h2 : k ≠ R.CTXW_RING_STATUS c) : (takenBy p c s).reg k = s.reg k := by
  unfold takenBy
  rw [reg_wr_other _ _ _ h2, reg_wr_other _ _ _ h1, reg_wr_other _ _ _ h1, reg_wr_other _ _ _ h1]

/-- The slice is in RUN and held by the context (R145, R170). -/
theorem takenBy_holds (hc : c < 256) : (takenBy p c s).rd (F.SCH_STATUS_STATE p) = 1 ∧ (takenBy p c s).holderOf p = some c ∧
    (takenBy p c s).holds c = true := by
  have hkey : R.SCH_STATUS p ≠ R.CTXW_RING_STATUS c := by unfold R.SCH_STATUS R.CTXW_RING_STATUS; omega
  have hvalid : (takenBy p c s).rd (F.SCH_STATUS_CTX_VALID p) = 1 :=
    (rd_wr_other _ hkey 1).trans ((rd_wr_beside _ (by decide) 1).trans ((rd_wr_beside _ (by decide) c).trans (rd_wr_fits s (by decide) (by decide))))
  have hcur : (takenBy p c s).rd (F.SCH_STATUS_CUR_CTX p) = c :=
    (rd_wr_other _ hkey 1).trans ((rd_wr_beside _ (by decide) 1).trans (rd_wr_fits _ (by decide) hc))
  have hholding : (takenBy p c s).rd (F.CTXW_RING_STATUS_HOLDING c) = 1 := rd_wr_fits _ (by decide) (by decide)
  refine ⟨(rd_wr_other _ hkey 1).trans (rd_wr_fits _ (by decide) (by decide)), ?_, ?_⟩
  · unfold State.holderOf State.on
    rw [hvalid, hcur]
    rfl
  · unfold State.holds State.on
    rw [hholding]
    rfl

/-- A tile is noted as held by a context (R57). -/
def tileHeldBy (c t : Nat) (s : State) : State := (s.wr (F.MXA_STATUS_CUR_CTX t) c).wr (F.MXA_STATUS_CTX_VALID t) 1

theorem tileHeldBy_ctx (hc : c < 256) (t : Nat) (s : State) : (tileHeldBy c t s).tileCtx t = some c := by
  have hvalid : (tileHeldBy c t s).rd (F.MXA_STATUS_CTX_VALID t) = 1 := rd_wr_fits _ (by decide) (by decide)
  have hcur : (tileHeldBy c t s).rd (F.MXA_STATUS_CUR_CTX t) = c := (rd_wr_beside _ (by decide) 1).trans (rd_wr_fits s (by decide) hc)
  unfold State.tileCtx State.on
  rw [hvalid, hcur]
  rfl

theorem tileHeldBy_reg {j k : Nat} (h : k ≠ R.MXA_STATUS j) (s : State) : (tileHeldBy c j s).reg k = s.reg k :=
  (reg_wr_other _ _ _ h).trans (reg_wr_other _ _ _ h)

theorem tileCtx_congr {t : Nat} {s' : State} (h : s'.reg (R.MXA_STATUS t) = s.reg (R.MXA_STATUS t)) : s'.tileCtx t = s.tileCtx t := by
  unfold State.tileCtx State.on
  rw [rd_of_reg (f := F.MXA_STATUS_CTX_VALID t) h, rd_of_reg (f := F.MXA_STATUS_CUR_CTX t) h]

/-- What it leaves that a context holds the tiles of its partition (R57). -/
theorem holdTiles_held (hc : c < 256) (p : Nat) (s : State) :
    (∀ t ∈ s.tilesOf p, s.tileServes t = true → (holdTiles c p s).tileCtx t = some c) ∧
    (∀ k, ¬ tileReg k → (holdTiles c p s).reg k = s.reg k) ∧ regsOnly s (holdTiles c p s) := by
  refine ⟨fun t ht hs => ?_, fun k hk => ?_, ?_⟩
  · refine each_establishes (fun v : State => v.tileCtx t = some c) (f := tileHeldBy c) (List.mem_filter.2 ⟨ht, hs⟩) (tileHeldBy_ctx hc t)
      (fun j _ v hv => ?_) s
    by_cases h : j = t
    · subst h; exact tileHeldBy_ctx hc j v
    · exact (tileCtx_congr (tileHeldBy_reg (by unfold R.MXA_STATUS; omega) v)).trans hv
  · refine each_obs (fun v : State => v.reg k) (f := tileHeldBy c) (fun t ht v => tileHeldBy_reg (fun e => hk ?_) v) s
    have := tilesOf_lt (List.mem_filter.1 ht).1
    rw [e]
    unfold tileReg R.MXA_STATUS
    omega
  · exact each_rel_mem regsOnly (fun _ => rfl) (fun _ _ _ => .trans) (f := tileHeldBy c) (fun t _ v => (regsOnly_wr _ _ _).wr _ _) s

/-- A context with nothing in flight or saved is loaded by noting its tiles. -/
theorem loadTiles_none (p : Nat) (hops : (s.ctx c).ops = []) (hsaved : (s.ctx c).saved = []) (hchains : (s.ctx c).chains = []) :
    loadTiles c p s = holdTiles c p s := by
  have hctx : ∀ d, (holdTiles c p s).ctx d = s.ctx d := fun d =>
    each_obs (fun v : State => v.ctx d) (f := tileHeldBy c) (fun _ _ _ => rfl) s
  unfold loadTiles
  generalize holdTiles c p s = v at *
  have hplace : placeSaved c v = v := by
    rw [placeSaved_eq, hctx, hsaved, hchains]
    rfl
  rw [hplace]
  unfold dealOn
  rw [hctx, hops]
  rfl

end

/-! ### The end of the switch (R171, R175) -/

/-- The slice passes to the incoming context that can be loaded; else it is idle, but for a context of the slice that has got work. -/
def slicePassed (p : Nat) (inc : Option Nat) (s : State) : State :=
  match inc.filter s.loadable with
  | some c => loadTiles c p (takenBy p c s)
  | none => match (s.wr (F.SCH_STATUS_STATE p) 2).entryCtx p with
    | some c => if (s.wr (F.SCH_STATUS_STATE p) 2).hasWork c then loadInSlice c (s.wr (F.SCH_STATUS_STATE p) 2) else s.wr (F.SCH_STATUS_STATE p) 2
    | none => s.wr (F.SCH_STATUS_STATE p) 2

theorem finishSwitch_eq {p : Nat} {s : State} {w : Switch} (us : Nat) (h : (s.part p).sw = some w) :
    finishSwitch p us s = slicePassed p w.inc (overrunCounted p us (switchOver p us (stilled p w.out s))) := by
  unfold finishSwitch slicePassed overrunCounted switchOver stilled outSaved takenBy
  rw [h] <;> rfl

/-! ### The incoming context's first poll (R147, R175) -/

/-- The holder's hub word, host word and run behind the switch. -/
def firstPoll (c : Nat) (s : State) : State :=
  if (readHostWord c [] (retryWord c s)).running c then askRun c (readHostWord c [] (retryWord c s)) else readHostWord c [] (retryWord c s)

/-- What that poll leaves, where the host word lies in host memory: its read is asked for, and may wait. -/
structure FirstPolled (c : Nat) (s s' : State) : Prop where
  regs : ∀ k, ¬ hostReg k → s'.reg k = s.reg k
  others : ∀ d, d ≠ c → s'.ctx d = s.ctx d
  rest : s' = { s with regs := s'.regs, ctxs := s'.ctxs, buckets := s'.buckets, waiting := s'.waiting, atsReqs := s'.atsReqs,
                       hostReqs := s'.hostReqs, nextReq := s'.nextReq, outbox := s'.outbox, ueMarks := s'.ueMarks, chans := s'.chans }

section
variable {p c : Nat} {s : State}

theorem FirstPolled.refl (c : Nat) (s : State) : FirstPolled c s s := ⟨fun _ _ => rfl, fun _ _ => rfl, rfl⟩

theorem FirstPolled.trans {a b d : State} (h : FirstPolled c a b) (h' : FirstPolled c b d) : FirstPolled c a d :=
  ⟨fun k hk => (h'.regs k hk).trans (h.regs k hk), fun e he => (h'.others e he).trans (h.others e he), by rw [h'.rest, h.rest]⟩

theorem HostSide.polled {s' : State} (h : HostSide c s s') : FirstPolled c s s' := ⟨h.regs, h.others, by rw [h.rest]⟩

theorem RunAsked.polled {s' : State} (h : RunAsked c s s') : FirstPolled c s s' := ⟨h.regs, h.others, by rw [h.rest]⟩

theorem WordPut.polled {s' : State} (h : WordPut c s s') (hw : s.on (F.CTXW_RING_WORDS_SPACE c) = true) : FirstPolled c s s' := by
  have hrest := h.rest
  rw [h.host hw] at hrest
  exact ⟨h.regs, h.others, hrest⟩

/-- The read of a host word in host memory that has not come asks for a translation at most. -/
theorem readHostWord_asks (hw : s.on (F.CTXW_RING_WORDS_SPACE c) = true) : FirstPolled c s (readHostWord c [] s) := by
  unfold readHostWord
  by_cases h4 : s.ctxState c ≠ 4
  · rw [if_pos h4]
    exact .refl c s
  · simp only [h4, hw, if_true, if_false, List.find?_nil]
    exact (ringXlat_hostSide c (s.wordsAddr c) false s).polled

theorem firstPoll_polled (hw : s.on (F.CTXW_RING_WORDS_SPACE c) = true) : FirstPolled c s (firstPoll c s) := by
  have hword : FirstPolled c s (retryWord c s) := by
    unfold retryWord
    split
    · exact (hubWrite_put (.inl hw)).polled hw
    · exact .refl c s
  have hkey : ¬ hostReg (R.CTXW_RING_WORDS c) := by unfold hostReg R.CTXW_RING_WORDS R.XLT_COUNT; omega
  have hw' : (retryWord c s).on (F.CTXW_RING_WORDS_SPACE c) = true := by
    unfold State.on at *
    rw [rd_of_reg (f := F.CTXW_RING_WORDS_SPACE c) (hword.regs _ hkey)]
    exact hw
  have hread := hword.trans (readHostWord_asks hw')
  unfold firstPoll
  split
  · exact hread.trans (askRun_asked c _).polled
  · exact hread

theorem switchWindowEnd_eq (us : Nat) (h : (s.part p).sw.isSome = true) : switchWindowEnd p us [] s =
    match (finishSwitch p us s).holderOf p with
    | some c => firstPoll c (finishSwitch p us s)
    | none => finishSwitch p us s := by
  unfold switchWindowEnd firstPoll
  rw [if_neg (by rw [Option.isNone_eq_false_iff.2 h]; decide)]
  generalize finishSwitch p us s = v
  dsimp only
  cases v.holderOf p <;> rfl

end

end Sys2Proof.Machine
end

section
/-! SUPPORT. The end of a switch as a whole (R174–R176). -/

namespace Sys2Proof.Machine

/-! ### Steps 3 to 6 (R174, R175) -/

/-- A register that the save, the clear and the count of a switch leave. -/
def stillReg (p k : Nat) : Prop := ¬ switchReg k ∧ k ≠ R.SCH_COUNT p ∧ k ≠ R.SCH_SWITCH p ∧ isLog k = false

theorem isLog_low {k : Nat} (h : k < 0x1700000) : isLog k = false := by
  unfold isLog R.TLS_EVT_HEAD R.BBX_STATUS R.BBX_COUNT
  simp only [Bool.or_eq_false_iff, Bool.and_eq_false_iff, decide_eq_false_iff_not]
  omega

theorem isLog_high {k : Nat} (h : 0x10000000 ≤ k) : isLog k = false := by
  unfold isLog R.TLS_EVT_HEAD R.BBX_STATUS R.BBX_COUNT
  simp only [Bool.or_eq_false_iff, Bool.and_eq_false_iff, decide_eq_false_iff_not]
  omega

theorem stillReg_ring (p c : Nat) : stillReg p (R.CTXW_RING_STATUS c) ∧ stillReg p (R.CTXW_RING_WORDS c) := by
  unfold stillReg
  refine ⟨⟨not_switchReg_ring c, ?_, ?_, isLog_high ?_⟩, ?_, ?_, ?_, isLog_high ?_⟩
  · unfold R.CTXW_RING_STATUS R.SCH_COUNT; omega
  · unfold R.CTXW_RING_STATUS R.SCH_SWITCH; omega
  · unfold R.CTXW_RING_STATUS; omega
  · unfold switchReg R.CTXW_RING_WORDS; omega
  · unfold R.CTXW_RING_WORDS R.SCH_COUNT; omega
  · unfold R.CTXW_RING_WORDS R.SCH_SWITCH; omega
  · unfold R.CTXW_RING_WORDS; omega

theorem stillReg_context (p : Nat) {c : Nat} (hc : c < 256) : stillReg p (R.CTX_STATE c) := by
  unfold stillReg
  refine ⟨?_, ?_, ?_, isLog_low ?_⟩ <;> unfold R.CTX_STATE
  · unfold switchReg; omega
  · unfold R.SCH_COUNT; omega
  · unfold R.SCH_SWITCH; omega
  · omega

section
variable {p : Nat} (hp : p < 8)
include hp

theorem stillReg_status : stillReg p (R.SCH_STATUS p) := by
  unfold stillReg
  refine ⟨not_switchReg_sch hp, ?_, ?_, isLog_low ?_⟩ <;> unfold R.SCH_STATUS
  · unfold R.SCH_COUNT; omega
  · unfold R.SCH_SWITCH; omega
  · omega

theorem stillReg_table {e : Nat} (he : e < 256) : stillReg p (R.SCH_TABLE p e) := by
  unfold stillReg
  refine ⟨?_, ?_, ?_, isLog_low ?_⟩ <;> unfold R.SCH_TABLE
  · unfold switchReg; omega
  · unfold R.SCH_COUNT; omega
  · unfold R.SCH_SWITCH; omega
  · omega

theorem stillReg_part : stillReg p (R.CTX_PART p) := by
  unfold stillReg
  refine ⟨?_, ?_, ?_, isLog_low ?_⟩ <;> unfold R.CTX_PART
  · unfold switchReg; omega
  · unfold R.SCH_COUNT; omega
  · unfold R.SCH_SWITCH; omega
  · omega

end

/-- The window has ended: the tiles are saved and cleared, and the switch is counted. -/
def windowClosed (p us : Nat) (out : Option Nat) (s : State) : State := overrunCounted p us (switchOver p us (stilled p out s))

/-- What the end of the window leaves before the slice passes on (R51, R54, R174, R175). -/
structure WindowClosed (p us : Nat) (out : Option Nat) (s s' : State) : Prop where
  idle : ∀ t ∈ s.tilesOf p, s.tileServes t = true → tileIdle t s' ∧ s'.tileServes t = true
  regs : ∀ k, stillReg p k → s'.reg k = s.reg k
  counted : (s'.part p).sw = none ∧ s'.rd (F.SCH_COUNT_SWITCHES p) = (s.rd (F.SCH_COUNT_SWITCHES p) + 1) % 2 ^ 32 ∧
    s'.rd (F.SCH_SWITCH_LAST_US p) = us ∧
    s'.rd (F.SCH_SWITCH_OVERRUN p) = if us ≤ s.rd (F.SCH_SWITCH_WINDOW_US p) then s.rd (F.SCH_SWITCH_OVERRUN p)
      else min (s.rd (F.SCH_SWITCH_OVERRUN p) + 1) (F.SCH_SWITCH_OVERRUN p).max
  saved : ∀ t c, t ∈ s.tilesOf p → out = some c → s.tileCtx t = some c → s.secondary t = false →
    SMap.get (fun _ => SavedTile.init) (s'.ctx c).saved t = { ftq := (s.tile t).ftq, vxe := (s.tile t).vxe } ∧
    ∀ k ∈ s.chainsOn c t, k ∈ (s'.ctx c).chains
  work : ∀ d, (s'.ctx d).tail = (s.ctx d).tail ∧ ((s'.ctx d).ops = [] ↔ (s.ctx d).ops = [])
  clean : ∀ d, (∀ t ∈ s.tilesOf p, s.tileCtx t ≠ some d) → (s'.ctx d).saved = (s.ctx d).saved ∧ (s'.ctx d).chains = (s.ctx d).chains
  rest : s' = { s with regs := s'.regs, tiles := s'.tiles, ctxs := s'.ctxs, chans := s'.chans, hostReqs := s'.hostReqs,
                       engines := s'.engines, links := s'.links, buckets := s'.buckets, parts := s'.parts, bb := s'.bb, tls := s'.tls }

theorem windowClosed_closed {p us : Nat} (hp : p < 8) (hus : us < 65536) (out : Option Nat) (s : State) :
    WindowClosed p us out s (windowClosed p us out s) := by
  have hstill := stilled_stilled p out s
  have hcount := switchCounted hp hus (stilled p out s)
  unfold windowClosed
  generalize stilled p out s = u at *
  generalize overrunCounted p us (switchOver p us u) = v at *
  have hctx : ∀ d, v.ctx d = u.ctx d := fun d => by rw [hcount.rest]; rfl
  have hcountreg : u.reg (R.SCH_COUNT p) = s.reg (R.SCH_COUNT p) := hstill.regs _ (by unfold switchReg R.SCH_COUNT; omega)
  have hswitchreg : u.reg (R.SCH_SWITCH p) = s.reg (R.SCH_SWITCH p) := hstill.regs _ (by unfold switchReg R.SCH_SWITCH; omega)
  have hmxa : ∀ t, t < 64 → v.reg (R.MXA_STATUS t) = u.reg (R.MXA_STATUS t) := fun t ht => hcount.regs _
    (by unfold R.MXA_STATUS R.SCH_COUNT; omega) (by unfold R.MXA_STATUS R.SCH_SWITCH; omega) (isLog_low (by unfold R.MXA_STATUS; omega))
  refine ⟨fun t ht hs => ?_, fun k hk => ?_, ⟨hcount.ended, ?_, hcount.last, ?_⟩, fun t c ht hc hheld hsec => ?_, fun d => ?_, fun d hd => ?_, ?_⟩
  · have ht64 := tilesOf_lt ht
    refine ⟨tileIdle_congr (by rw [hcount.rest]; rfl) (hmxa t ht64) (hstill.idle t ht hs), ?_⟩
    rw [tileServes_of_rd (rd_of_reg (f := F.MXA_STATUS_STATE t) (hmxa t ht64)), hstill.serves t ht64]
    exact hs
  · obtain ⟨h1, h2, h3, h4⟩ := hk
    exact (hcount.regs k h2 h3 h4).trans (hstill.regs k h1)
  · rw [hcount.count, rd_of_reg (f := F.SCH_COUNT_SWITCHES p) hcountreg]
  · rw [hcount.overrun, rd_of_reg (f := F.SCH_SWITCH_OVERRUN p) hswitchreg, rd_of_reg (f := F.SCH_SWITCH_WINDOW_US p) hswitchreg]
  · rw [hctx]
    exact hstill.saved t c ht hc hheld hsec
  · rw [hctx]
    exact hstill.work d
  · rw [hctx]
    exact hstill.clean d hd
  · rw [hcount.rest, hstill.rest]

/-! ### The slice passes on (R171, R176) -/

/-- What it leaves that the slice passes to `inc`, or stays idle. -/
structure SlicePassed (p : Nat) (inc : Option Nat) (s s' : State) : Prop where
  tiles : s'.tiles = s.tiles
  ctx : ∀ t ∈ s.tilesOf p, s.tileServes t = true → s.tileCtx t = none → s'.tileCtx t = inc
  others : ∀ d, inc ≠ some d → s'.ctx d = s.ctx d
  counts : s'.reg (R.SCH_COUNT p) = s.reg (R.SCH_COUNT p) ∧ s'.reg (R.SCH_SWITCH p) = s.reg (R.SCH_SWITCH p)
  idle : inc = none → s'.rd (F.SCH_STATUS_STATE p) = 2
  holds : ∀ c, inc = some c → s'.rd (F.SCH_STATUS_STATE p) = 1 ∧ s'.holderOf p = some c ∧ s'.holds c = true
  rest : s' = { s with regs := s'.regs, ctxs := s'.ctxs, buckets := s'.buckets, waiting := s'.waiting, atsReqs := s'.atsReqs,
                       hostReqs := s'.hostReqs, nextReq := s'.nextReq, outbox := s'.outbox, ueMarks := s'.ueMarks, chans := s'.chans }

section
variable {p : Nat} {s s' : State}

theorem entryCtx_congr (he : s'.rd (F.SCH_STATUS_ENTRY p) = s.rd (F.SCH_STATUS_ENTRY p))
    (ht : ∀ e, e < 256 → s'.reg (R.SCH_TABLE p e) = s.reg (R.SCH_TABLE p e)) : s'.entryCtx p = s.entryCtx p := by
  have hlt : s.rd (F.SCH_STATUS_ENTRY p) < 256 := rd_lt s (f := F.SCH_STATUS_ENTRY p) (by change 47 ≤ 54 ∧ 54 < 64; decide)
  unfold State.entryCtx State.on
  rw [he]
  simp only [rd_of_reg (f := F.SCH_TABLE_VALID p (s.rd (F.SCH_STATUS_ENTRY p))) (ht _ hlt),
    rd_of_reg (f := F.SCH_TABLE_CTX p (s.rd (F.SCH_STATUS_ENTRY p))) (ht _ hlt)]

theorem entryCtx_lt {c : Nat} (h : s.entryCtx p = some c) : c < 256 := by
  unfold State.entryCtx at h
  simp only [Option.ite_none_right_eq_some, Option.some.injEq] at h
  rw [← h.2]
  exact rd_lt s (f := F.SCH_TABLE_CTX p _) (by change 48 ≤ 55 ∧ 55 < 64; decide)

theorem loadable_congr {c : Nat} (hstate : s'.reg (R.CTX_STATE c) = s.reg (R.CTX_STATE c))
    (hring : s'.reg (R.CTXW_RING_STATUS c) = s.reg (R.CTXW_RING_STATUS c)) : s'.loadable c = s.loadable c := by
  unfold State.loadable State.ctxState State.on
  rw [rd_of_reg (f := F.CTX_STATE_STATE c) hstate, rd_of_reg (f := F.CTXW_RING_STATUS_PARKED c) hring]

theorem hasWork_congr {c : Nat} (hstate : s'.reg (R.CTX_STATE c) = s.reg (R.CTX_STATE c))
    (hring : s'.reg (R.CTXW_RING_STATUS c) = s.reg (R.CTXW_RING_STATUS c))
    (hwork : (s'.ctx c).tail = (s.ctx c).tail ∧ ((s'.ctx c).ops = [] ↔ (s.ctx c).ops = [])) : s'.hasWork c = s.hasWork c := by
  have hops : (s'.ctx c).ops.isEmpty = (s.ctx c).ops.isEmpty := by
    rw [Bool.eq_iff_iff, List.isEmpty_iff, List.isEmpty_iff]
    exact hwork.2
  unfold State.hasWork State.head
  rw [loadable_congr hstate hring, hops, hwork.1, rd_of_reg (f := F.CTXW_RING_STATUS_HEAD c) hring]

/-- No context comes in, and none of the slice has got work: the slice is idle (R171). -/
theorem slicePassed_idle (hp : p < 8) (hwork : ∀ c, s.entryCtx p = some c → s.hasWork c = false) :
    slicePassed p none s = s.wr (F.SCH_STATUS_STATE p) 2 := by
  have hreg : ∀ k, k ≠ R.SCH_STATUS p → (s.wr (F.SCH_STATUS_STATE p) 2).reg k = s.reg k := fun k hk => reg_wr_other s _ _ hk
  have hentry : (s.wr (F.SCH_STATUS_STATE p) 2).entryCtx p = s.entryCtx p := entryCtx_congr (rd_wr_beside s (by decide) 2)
    fun e _ => hreg _ (schTable_ne e)
  have hnone : ∀ c, (s.wr (F.SCH_STATUS_STATE p) 2).entryCtx p = some c → (s.wr (F.SCH_STATUS_STATE p) 2).hasWork c = false := fun c hc => by
    rw [hentry] at hc
    refine (hasWork_congr (hreg _ (ne_schStatus hp ?_)) (hreg _ (ne_schStatus hp ?_)) ⟨rfl, .rfl⟩).trans (hwork c hc)
    · unfold R.CTX_STATE; omega
    · unfold R.CTXW_RING_STATUS; omega
  unfold slicePassed
  generalize s.wr (F.SCH_STATUS_STATE p) 2 = v at *
  simp only [Option.filter_none]
  cases hc : v.entryCtx p with
  | none => rfl
  | some c => exact if_neg (by rw [hnone c hc]; decide)

theorem wr_idle_passed (hp : p < 8) (h : s.holderOf p = none) : SlicePassed p none s (s.wr (F.SCH_STATUS_STATE p) 2) ∧
    (s.wr (F.SCH_STATUS_STATE p) 2).holderOf p = none := by
  have hreg : ∀ k, k ≠ R.SCH_STATUS p → (s.wr (F.SCH_STATUS_STATE p) 2).reg k = s.reg k := fun k hk => reg_wr_other s _ _ hk
  refine ⟨⟨rfl, fun t ht hs hn => (tileCtx_congr (hreg _ ?_)).trans hn, fun _ _ => rfl, ⟨hreg _ ?_, hreg _ ?_⟩,
    fun _ => rd_wr_fits s (by decide) (by decide), fun c hc => absurd hc (Option.some_ne_none c).symm, rfl⟩, ?_⟩
  · exact ne_schStatus hp (by unfold R.MXA_STATUS; omega)
  · unfold R.SCH_COUNT R.SCH_STATUS; omega
  · unfold R.SCH_SWITCH R.SCH_STATUS; omega
  · have hvalid : (s.wr (F.SCH_STATUS_STATE p) 2).rd (F.SCH_STATUS_CTX_VALID p) = s.rd (F.SCH_STATUS_CTX_VALID p) := rd_wr_beside s (by decide) 2
    have hcur : (s.wr (F.SCH_STATUS_STATE p) 2).rd (F.SCH_STATUS_CUR_CTX p) = s.rd (F.SCH_STATUS_CUR_CTX p) := rd_wr_beside s (by decide) 2
    unfold State.holderOf State.on at *
    rw [hvalid, hcur]
    exact h

/-- The slice of an incoming context that can be loaded, with nothing in flight or saved, behind its first poll (R147, R176). -/
theorem slicePassed_taken {c : Nat} (hp : p < 8) (hc : c < 256) (hload : s.loadable c = true) (hops : (s.ctx c).ops = [])
    (hsaved : (s.ctx c).saved = []) (hchains : (s.ctx c).chains = []) (hw : s.on (F.CTXW_RING_WORDS_SPACE c) = true) :
    (slicePassed p (some c) s).holderOf p = some c ∧ SlicePassed p (some c) s (firstPoll c (slicePassed p (some c) s)) := by
  have htaken := takenBy_regsOnly p c s
  have htakenreg : ∀ k, k ≠ R.SCH_STATUS p → k ≠ R.CTXW_RING_STATUS c → (takenBy p c s).reg k = s.reg k := fun k h1 h2 => takenBy_reg h1 h2
  obtain ⟨hrun, hholder, hholds⟩ := takenBy_holds (p := p) (s := s) hc
  have heq : slicePassed p (some c) s = holdTiles c p (takenBy p c s) := by
    have hctx : (takenBy p c s).ctx c = s.ctx c := htaken.obs (obs := fun v => v.ctx c) fun _ _ => rfl
    unfold slicePassed
    rw [Option.filter_some, hload]
    exact loadTiles_none p (by rw [hctx]; exact hops) (by rw [hctx]; exact hsaved) (by rw [hctx]; exact hchains)
  rw [heq]
  generalize takenBy p c s = u at *
  obtain ⟨htiles, hheldreg, hheld⟩ := holdTiles_held hc p u
  generalize holdTiles c p u = v at *
  have honly := htaken.trans hheld
  have hvreg : ∀ k, ¬ tileReg k → k ≠ R.SCH_STATUS p → k ≠ R.CTXW_RING_STATUS c → v.reg k = s.reg k := fun k h1 h2 h3 =>
    (hheldreg k h1).trans (htakenreg k h2 h3)
  have hsch : v.reg (R.SCH_STATUS p) = u.reg (R.SCH_STATUS p) := hheldreg _ (by unfold tileReg R.SCH_STATUS; omega)
  have hring : v.reg (R.CTXW_RING_STATUS c) = u.reg (R.CTXW_RING_STATUS c) := hheldreg _ (by unfold tileReg R.CTXW_RING_STATUS; omega)
  have hwords : v.on (F.CTXW_RING_WORDS_SPACE c) = true := by
    unfold State.on at *
    rw [rd_of_reg (f := F.CTXW_RING_WORDS_SPACE c) (hvreg _ ?_ ?_ ?_)]
    · exact hw
    · change ¬ tileReg (R.CTXW_RING_WORDS c); unfold tileReg R.CTXW_RING_WORDS; omega
    · change R.CTXW_RING_WORDS c ≠ _; unfold R.CTXW_RING_WORDS R.SCH_STATUS; omega
    · change R.CTXW_RING_WORDS c ≠ _; unfold R.CTXW_RING_WORDS R.CTXW_RING_STATUS; omega
  have hvholder : v.holderOf p = some c := by
    unfold State.holderOf State.on at *
    rw [rd_of_reg (f := F.SCH_STATUS_CTX_VALID p) hsch, rd_of_reg (f := F.SCH_STATUS_CUR_CTX p) hsch]
    exact hholder
  have hpoll := firstPoll_polled hwords
  generalize firstPoll c v = z at *
  have hzsch : z.reg (R.SCH_STATUS p) = u.reg (R.SCH_STATUS p) := (hpoll.regs _ (by unfold hostReg R.SCH_STATUS R.XLT_COUNT; omega)).trans hsch
  have hzring : z.reg (R.CTXW_RING_STATUS c) = u.reg (R.CTXW_RING_STATUS c) :=
    (hpoll.regs _ (by unfold hostReg R.CTXW_RING_STATUS R.XLT_COUNT; omega)).trans hring
  refine ⟨hvholder, ?_, fun t ht hs _ => ?_, fun d hd => ?_, ⟨?_, ?_⟩, fun h => absurd h (Option.some_ne_none c), fun c' hc' => ?_, ?_⟩
  · rw [hpoll.rest, honly]
  · have ht64 := tilesOf_lt ht
    rw [tileCtx_congr (hpoll.regs _ (by unfold hostReg R.MXA_STATUS R.XLT_COUNT; omega))]
    refine htiles t ?_ ?_
    · rw [tilesOf_congr (htakenreg _ (by unfold R.CTX_PART R.SCH_STATUS; omega) (by unfold R.CTX_PART R.CTXW_RING_STATUS; omega))]
      exact ht
    · rw [tileServes_of_rd (rd_of_reg (f := F.MXA_STATUS_STATE t) (htakenreg (R.MXA_STATUS t) (ne_schStatus hp (by unfold R.MXA_STATUS; omega))
        (by unfold R.MXA_STATUS R.CTXW_RING_STATUS; omega)))]
      exact hs
  · rw [hpoll.others d fun e => hd (congrArg some e.symm), honly]
    rfl
  · refine (hpoll.regs _ ?_).trans (hvreg _ ?_ ?_ ?_)
    · unfold hostReg R.SCH_COUNT R.XLT_COUNT; omega
    · unfold tileReg R.SCH_COUNT; omega
    · unfold R.SCH_COUNT R.SCH_STATUS; omega
    · unfold R.SCH_COUNT R.CTXW_RING_STATUS; omega
  · refine (hpoll.regs _ ?_).trans (hvreg _ ?_ ?_ ?_)
    · unfold hostReg R.SCH_SWITCH R.XLT_COUNT; omega
    · unfold tileReg R.SCH_SWITCH; omega
    · unfold R.SCH_SWITCH R.SCH_STATUS; omega
    · unfold R.SCH_SWITCH R.CTXW_RING_STATUS; omega
  · cases hc'
    refine ⟨(rd_of_reg (f := F.SCH_STATUS_STATE p) hzsch).trans hrun, ?_, ?_⟩
    · unfold State.holderOf State.on at *
      rw [rd_of_reg (f := F.SCH_STATUS_CTX_VALID p) hzsch, rd_of_reg (f := F.SCH_STATUS_CUR_CTX p) hzsch]
      exact hholder
    · unfold State.holds State.on at *
      rw [rd_of_reg (f := F.CTXW_RING_STATUS_HOLDING c) hzring]
      exact hholds
  · rw [hpoll.rest, honly]

/-- The end of the window: behind the tiles' clear and the switch's count the slice passes to the incoming context, or stays idle (R175, R176). -/
theorem switchWindowEnd_passed {us : Nat} {w : Switch} (hp : p < 8) (hus : us < 65536) (hsw : (s.part p).sw = some w) (hnone : s.holderOf p = none)
    (hinc : ∀ c, w.inc = some c → s.loadable c = true ∧ (s.ctx c).ops = [] ∧ (s.ctx c).saved = [] ∧ (s.ctx c).chains = [] ∧
      s.on (F.CTXW_RING_WORDS_SPACE c) = true ∧ c < 256 ∧ ∀ t ∈ s.tilesOf p, s.tileCtx t ≠ some c)
    (hidle : ∀ c, w.inc = none → s.entryCtx p = some c → s.hasWork c = false) :
    SlicePassed p w.inc (windowClosed p us w.out s) (switchWindowEnd p us [] s) := by
  have hclosed := windowClosed_closed hp hus w.out s
  have hfinish : finishSwitch p us s = slicePassed p w.inc (windowClosed p us w.out s) := finishSwitch_eq us hsw
  rw [switchWindowEnd_eq us (by rw [hsw]; rfl), hfinish]
  generalize windowClosed p us w.out s = v at *
  have hsch : v.reg (R.SCH_STATUS p) = s.reg (R.SCH_STATUS p) := hclosed.regs _ (stillReg_status hp)
  cases hw : w.inc with
  | none =>
    have hholder : v.holderOf p = none := by
      unfold State.holderOf State.on at *
      rw [rd_of_reg (f := F.SCH_STATUS_CTX_VALID p) hsch, rd_of_reg (f := F.SCH_STATUS_CUR_CTX p) hsch]
      exact hnone
    have hwork : ∀ c, v.entryCtx p = some c → v.hasWork c = false := fun c hc => by
      have hentry : v.entryCtx p = s.entryCtx p :=
        entryCtx_congr (rd_of_reg (f := F.SCH_STATUS_ENTRY p) hsch) fun e he => hclosed.regs _ (stillReg_table hp he)
      refine (hasWork_congr (hclosed.regs _ (stillReg_context p (entryCtx_lt hc))) (hclosed.regs _ (stillReg_ring p c).1) (hclosed.work c)).trans ?_
      exact hidle c hw (hentry ▸ hc)
    obtain ⟨hpassed, hz⟩ := wr_idle_passed hp hholder
    rw [slicePassed_idle hp hwork, hz]
    exact hpassed
  | some c =>
    obtain ⟨hload, hops, hsaved, hchains, hspace, hc, hheld⟩ := hinc c hw
    obtain ⟨hs, hk⟩ := hclosed.clean c hheld
    have hwords : v.on (F.CTXW_RING_WORDS_SPACE c) = true := by
      unfold State.on at *
      rw [rd_of_reg (f := F.CTXW_RING_WORDS_SPACE c) (hclosed.regs _ (stillReg_ring p c).2)]
      exact hspace
    obtain ⟨hholder, hpassed⟩ := slicePassed_taken hp hc
      ((loadable_congr (hclosed.regs _ (stillReg_context p hc)) (hclosed.regs _ (stillReg_ring p c).1)).trans hload)
      ((hclosed.work c).2.2 hops) (hs.trans hsaved) (hk.trans hchains) hwords
    rw [hholder]
    exact hpassed

end

end Sys2Proof.Machine
end

section
/-! The statement about slices (chapter 05). -/

open Sys2Proof Sys2Proof.Machine

/-- Settles O25: a tick reads the host words that it needs (`sliceReads_read`) and then either leaves the slice where it is or begins a switch
(`sliceChoice_kept`, `sliceChoice_begun`); the end of the window saves and clears the tiles and counts the switch (`windowClosed_closed`), and
the slice passes to the incoming context or stays idle (`slicePassed_taken`, `slicePassed_idle`). -/
theorem slicesSwitch : Obligations.SlicesSwitch := by
  unfold Obligations.SlicesSwitch
  intro p s hw
  have hp : p.val < 8 := p.isLt
  refine ⟨?_, ?_⟩
  · intro e c read hstate he h0 hdown hready
    have hexec : exec (.sliceTick { part := p, words := hw }) s = s.done (sliceChoice p.val c (sliceReads p.val c hw (entryAt p.val e s))) := by
      rw [← sliceStart_eq, ← sliceTick_starts hp hw hstate he h0 hdown]
      rfl
    obtain ⟨hread, hown, hsharers⟩ := sliceReads_read (s := entryAt p.val e s) (p := p.val) (c := c) hw fun d hd =>
      entryAt_ready hp (hready d (by rw [entryAt_bound] at hd; exact hd))
    rw [hexec]
    generalize sliceReads p.val c hw (entryAt p.val e s) = u at hread hown hsharers
    obtain ⟨hentry, hsame, hholder⟩ := hread.status
    obtain ⟨-, -, -, -, hcontext⟩ := entryAt_context (s := s) (e := e) hp c
    have hstays : u.staysOn p.val c ↔ (∃ d, s.holderOf p.val = some d ∧
        (u.taker p.val c = some d ∨ (s.boundTo p.val).length = 1 ∨ (d = c ∧ u.taker p.val c = none))) ∨
        s.holderOf p.val = none ∧ u.taker p.val c = none ∧ s.rd (F.SCH_STATUS_STATE p.val) = 2 := by
      unfold State.staysOn
      rw [hholder, hsame, hread.bound]
    obtain ⟨hpending, hotp, hat⟩ := sliceChoice_done (c := c) hp hread
    refine ⟨u, sliceChoice p.val c u, State.done_eq hpending hotp, hat, fun d => ?_, fun h => ?_, fun hwork d hd hdc hset hmember h4 => ?_,
      fun k => hread.reg, hread.caches, ?_, fun h => ?_, fun h => ?_⟩
    · exact (hread.ctxs d).imp_right (wordIn_entryAt hp)
    · exact wordIn_entryAt hp (hown (hcontext.trans h))
    · refine wordIn_entryAt hp (hsharers hwork d (State.mem_sharers.2 ?_) ((entryAt_context hp d).1.trans h4))
      rw [entryAt_bound, entryAt_set, entryAt_set]
      exact ⟨hd, hdc, hset, hmember⟩
    · rw [hread.rest]; rfl
    · obtain ⟨d, hasked, -, hstate', hholder'⟩ := sliceChoice_kept hp hread (hstays.2 h)
      refine ⟨hstate', hholder', ?_, ?_, ?_⟩ <;> rw [hasked.rest, hread.rest] <;> rfl
    · obtain ⟨hbegun, hto, hstop⟩ := sliceChoice_begun hp hread (mt hstays.1 h)
      exact ⟨hbegun.state, hbegun.holder, fun d hd => hbegun.gaveUp d (hholder.trans hd), hbegun.switch.trans (congrArg some hto), hstop,
        hbegun.rest⟩
  · intro us w hus hsw hnoholder hinc hidle
    have hclosed := windowClosed_closed hp hus w.out s
    have hpass := switchWindowEnd_passed hp hus hsw hnoholder hinc hidle
    have hexec : exec (.switchWindowEnd p us []) s = s.done (switchWindowEnd p.val us [] s) := rfl
    rw [hexec]
    generalize windowClosed p.val us w.out s = v at *
    generalize switchWindowEnd p.val us [] s = z at *
    obtain ⟨hended, hcount, hlast, hoverrun⟩ := hclosed.counted
    refine ⟨z, State.done_eq ?_ ?_, ?_, ?_, ?_, ?_, fun t ht hs => ?_, fun t c ht hout hheld hsec hne => ?_, hpass.idle, hpass.holds, ?_⟩
    · rw [hpass.rest, hclosed.rest]
    · rw [hpass.rest, hclosed.rest]
    · rw [hpass.rest]
      exact hended
    · exact (rd_of_reg (f := F.SCH_COUNT_SWITCHES p.val) hpass.counts.1).trans hcount
    · exact (rd_of_reg (f := F.SCH_SWITCH_LAST_US p.val) hpass.counts.2).trans hlast
    · exact (rd_of_reg (f := F.SCH_SWITCH_OVERRUN p.val) hpass.counts.2).trans hoverrun
    · obtain ⟨⟨hempty, hnone, -⟩, hserves⟩ := hclosed.idle t ht hs
      have htile : z.tile t = v.tile t := by
        unfold State.tile
        rw [hpass.tiles]
      refine ⟨?_, hpass.ctx t ?_ hserves hnone⟩
      · unfold emptyTile at *
        rw [htile]
        exact hempty
      · rw [tilesOf_congr (hclosed.regs _ (stillReg_part hp))]
        exact ht
    · rw [hpass.others c hne]
      obtain ⟨hget, hchains⟩ := hclosed.saved t c ht hout hheld hsec
      refine ⟨hget, fun b hb hbc hlive => ?_⟩
      obtain ⟨k, hk, hblock⟩ := billet_chained hb hbc hlive
      exact ⟨k, hchains k hk, hblock⟩
    · rw [hpass.rest, hclosed.rest]
end
